-- ==== Sys2Proof/Word.lean ====
section
/-! DEFINITION. The word types of the block: a 32-bit configuration or payload word (R498) and a byte
(R9), and the plainest way between words and the bytes that carry them, least-significant byte first. -/

namespace Sys2Proof

/-- A 32-bit word of a payload, of a register or of a binary32 value. -/
abbrev Word := BitVec 32

/-- One byte of a packet, a train, an image or the Gallery. -/
abbrev Byte := BitVec 8

/-- A binary32 value as its 32 bits (Table 00-4). -/
abbrev F32 := BitVec 32

end Sys2Proof
end

