-- ==== Sys2Proof/Types.lean ====
section
/-! DEFINITION. The types of the operands of the commands and of the parts of a tread's and the atrium's state that pass
between the devices of a pair. Plain data. -/

namespace Sys2Proof.Machine

open Sys2Proof

/-- A sparse table of values by key, keys rising; a key not listed has its default. -/
abbrev Table (α : Type) := List (Nat × α)

/-- The ten coefficients of a loop in register order (Table 04-6). -/
structure Coefs where
  kp : F32 := 0
  ki : F32 := 0
  kd : F32 := 0
  tf : F32 := 0
  kt : F32 := 0
  b : F32 := 0x3F800000#32
  c : F32 := 0x3F800000#32
  umin : F32 := 0
  umax : F32 := 0
  ff : F32 := 0
  deriving DecidableEq, Repr

/-- When an armed coefficient set lands (R173): at the next computation whose S(n) follows, or with the next LOAD_ALL. -/
inductive ArmKind where
  | next | loadAll
  deriving DecidableEq, Repr

/-- A LOOP_ENABLE that waits for its landing (R176). -/
structure EnArm where
  en : Bool
  track : Bool
  u0 : F32
  deriving DecidableEq, Repr

/-- A loop slot: its registers, what is armed for it, its state and its published variables (chapter 4). -/
structure Slot where
  en : Bool := false
  func : Nat := 0
  disc : Bool := false
  sign : Bool := false
  group : Nat := 15
  rSrc : BitVec 16 := 0xFFFF#16
  ySrc : BitVec 16 := 0xFFFF#16
  ffSrc : BitVec 16 := 0xFFFF#16
  outDst : BitVec 16 := 0xFFFF#16
  sp : F32 := 0
  /-- The setpoint in use: a write of LOOP_SP acts from the next S(n) (R162). -/
  spUse : F32 := 0
  pend : Coefs := {}
  act : Coefs := {}
  /-- The set LOOP_COEF armed, as it was checked (R163, R173). -/
  armed : Coefs := {}
  /-- Atrium slot 6 still follows SYS_TOPO.ASSIGN (R554). -/
  follows : Bool := false
  arm : Option ArmKind := none
  /-- A LOAD_ALL has chosen the landing of the armed set: its target. -/
  armAt : Option Nat := none
  /-- S(n) has passed since the arming, so the next computation lands the set (R173). -/
  armReady : Bool := false
  enArm : Option EnArm := none
  enReady : Bool := false
  grpArm : Option Nat := none
  grpReady : Bool := false
  a1 : F32 := 0
  b1 : F32 := 0
  kiTs : F32 := 0
  ktTs : F32 := 0
  /-- The Ts these constants were formed with (R164, R177). -/
  cTs : F32 := 0
  r : F32 := 0
  y : F32 := 0
  e : F32 := 0
  p : F32 := 0
  i : F32 := 0
  d : F32 := 0
  ed : F32 := 0
  u : F32 := 0
  uSat : F32 := 0
  w : F32 := 0
  ffv : F32 := 0
  injSum : F32 := 0
  winner : Nat := 0
  satHi : Bool := false
  satLo : Bool := false
  nonfinite : Bool := false
  injecting : Byte := 0
  /-- ANGLE in unsigned 0.32 turns (R167). -/
  angle : Word := 0
  coefGen : Nat := 0
  deriving DecidableEq, Repr

/-- A competition group (R170). -/
structure Group where
  outDst : BitVec 16 := 0xFFFF#16
  /-- An OUT_DST that lands with the moved slot (R509). -/
  dstArm : Option (BitVec 16) := none
  dstReady : Bool := false
  winner : Nat := 15
  g : F32 := 0
  deriving DecidableEq, Repr

/-- A context: its slots, groups and signal points. A tread uses slots 0 to 5 and groups 0 and 1 (R156). -/
structure Ctx where
  slots : Vector Slot 16 := Vector.replicate 16 {}
  groups : Vector Group 8 := Vector.replicate 8 {}
  /-- Points outside the loop slots; a point not listed reads 0.0. -/
  pts : Table F32 := []
  deriving DecidableEq, Repr

/-- A stage frame in its fields (Tables 03-5 and 03-6). -/
structure Frame where
  lvl : Bool := false
  zsb : Bool := false
  notch : Bool := false
  cmodeDab : Nat := 0
  cmodeIn : Nat := 0
  safe : Nat := 0
  rep : Bool := false
  valid : Bool := true
  inCmd : Word := 0
  inPhase : Word := 0
  inPeriod : Word := 0
  inTonoff : Word := 0
  dabPeriod : Word := 0
  dabPhi : Word := 0
  dabD1 : BitVec 16 := 0
  dabD2 : BitVec 16 := 0
  notchT : Word := 0
  notchW : BitVec 16 := 0
  timeCorr : Word := 0x80000000#32
  deriving DecidableEq, Repr

/-- A staged host field: its value, a release of it, and its age in commit points (R219, R223). -/
structure Staged where
  val : Option Word := none
  release : Bool := false
  age : Nat := 0
  deriving DecidableEq, Repr

/-- What a snapshot does to a field at its landing (R222). -/
inductive SnapField where
  | none | hold (v : Word) | release
  deriving DecidableEq, Repr

/-- TRD_BAL.STATE. -/
inductive CellMode where
  | active | out | restoring
  deriving DecidableEq, Repr

/-- A transfer of a configuration image to its cell terminal (R276 to R278). -/
structure Transfer where
  /-- WRITE blocks still to send; when empty the COMMIT is due or sent. -/
  blocks : List Nat
  committed : Bool := false
  /-- Gathers since the COMMIT landing (R118). -/
  gathers : Nat := 0
  crc : Word
  deriving DecidableEq, Repr

/-- Wear state of one leg group (R258 to R262). -/
structure WearGroup where
  dT : Vector F32 4 := Vector.replicate 4 0
  tj : F32 := 0
  loss : F32 := 0
  tref : F32 := 0
  /-- Last extreme and whether Tj rose towards it; the direction is open until Tj first moves by WEAR_GATE. -/
  ext : Option F32 := none
  dir : Option Bool := none
  /-- Turning points, newest first, at most 64. -/
  stack : List F32 := []
  /-- Histogram bins by 16 i + j. -/
  hist : Table Nat := []
  /-- Bins that hold an unpaired half cycle (R261). -/
  half : List Nat := []
  /-- D_g in 2^-56 (R262). -/
  damage : Nat := 0
  /-- The parameters in use, in the order of Table 06-6 (R265). -/
  par : Vector Word 15 := #v[0, 0, 0, 0, 0, 0, 0x3F800000#32, 0x3F800000#32, 0x3F800000#32, 0x3F800000#32, 0x49742400#32, 0x40A00000#32, 0x3F000000#32, 0x3F800000#32, 0]
  deriving DecidableEq, Repr

/-- A buffered junction sample of a cell (R49, R258): currents, voltage, temperatures and interval in Tc. -/
structure WearSample where
  iArm : F32
  iDab : F32
  vdc : F32
  temps : Vector F32 4
  edges : Nat
  dabPeriod : Word
  mult : Nat := 1
  fresh : Bool
  deriving DecidableEq, Repr

/-- Supervision of one thermal sensor (chapter 12); temperatures in 1/32 °C. -/
structure SensorState where
  fail : Bool := false
  pin : Bool := false
  sub : Bool := false
  dev : Nat := 0
  val : Option Int := none
  vpin : Int := 0
  sup : Option Int := none
  hist : List Int := []
  rateHold : Nat := 0
  rateHigh : Bool := false
  rateLimit : Bool := false
  deriving DecidableEq, Repr

/-- A cell: service state, staging, stage, guarding, reports, image and wear. -/
structure Cell where
  mode : CellMode := .out
  perm : Bool := false
  rfail : Bool := false
  warn : Bool := false
  norec : Bool := false
  /-- Pattern in the cell's frames (SAFE_CFG.ACT). -/
  act : Nat := 1
  /-- Pattern the cell takes, and the decision instant from which a departure 200 ns later carries it. -/
  req : Option (Nat × Nat) := none
  /-- The active's words a standby has received in the last 200 ns, newest first, each with the request that stood before it; and
  the pattern of the frame that leaves its own port, which a word received too late for the departure does not change (R361). -/
  words : List (Nat × Option (Nat × Nat)) := []
  wire : Nat := 0
  /-- The pattern in the last stage frame sent to it: the one its cell terminal is in. -/
  sentPat : Nat := 0
  staged : Vector Staged 10 := Vector.replicate 10 {}
  stagedLvl : Bool := false
  snap : Vector SnapField 10 := Vector.replicate 10 .none
  snapLvl : Bool := false
  heldF : Vector (Option Word) 10 := Vector.replicate 10 none
  heldLvl : Bool := false
  /-- The frame mapped for the coming landing, the stage frame last sent, and the stage in force. -/
  frame : Frame := {}
  last : Frame := {}
  stage : Frame := {}
  /-- TIME_CORR in the last deliver train (Table 15-11). -/
  corrSent : Word := 0x80000000#32
  /-- The port its trains come from: true for the west port (R148). -/
  dir : Option Bool := none
  /-- Instant at which the stage in force began. -/
  stageAt : Nat := 0
  holdCount : Nat := 0
  restorePhase : Nat := 0
  restoreAt : Nat := 0
  restoreOk : Nat := 0
  restoreWait : Bool := false
  /-- It waits after a retry, which has no L_r1 (R284). -/
  noLimit : Bool := false
  retry : Bool := false
  retryAt : Nat := 0
  retryCheck : Bool := false
  bridge : Bool := false
  lastClass : Nat := 0
  gsTrips : List Nat := []
  scCount : Nat := 0
  uvRun : Nat := 0
  derate : Bool := false
  derateAt : Nat := 0
  /-- ALMs taken, class and instant, newest first (R135, R296). -/
  alms : List (Nat × Nat) := []
  /-- Reactions decided in the last 10 µs with their instants, newest first (R293). -/
  decided : List (Nat × Nat) := []
  /-- A report has been accepted since the hall came ON. -/
  seen : Bool := false
  /-- Bytes of the last accepted report, and PORTS of the last fresh one (R149). -/
  report : List Byte := List.replicate 64 0
  ports : Nat := 0
  fresh : Bool := false
  /-- Periods since the last fresh report, and its instant. -/
  staleFor : Nat := 65535
  freshAt : Option Nat := none
  missing : Nat := 0
  terr : Nat := 0
  crcBad : Nat := 0
  /-- The device's copy of the image, and the image last committed to the cell terminal. -/
  image : List Byte := List.replicate 1040 0
  sent : List Byte := []
  transfer : Option Transfer := none
  cfgOk : Bool := false
  /-- A transfer waits until a CT_CONFIG or NVM_LOAD after which the whole copy passes (R276). -/
  imgDue : Bool := false
  /-- A WD_CLEAR frame is due in the cell's slot. -/
  wdClear : Bool := false
  /-- Upper time of legs 0 and 1 in 2^-8 ns (R242). -/
  upper : Vector Nat 2 := Vector.replicate 2 0
  notchDip : Nat := 0
  notchSub : Nat := 0
  /-- The frame's notch has a substitute, so it counts in SUB (R246). -/
  notchMate : Option Nat := none
  wear : Vector WearGroup 3 := Vector.replicate 3 {}
  samples : List WearSample := []
  /-- Edges commanded on legs 0 and 1 in the stage in force, and the legs' levels at its end (Table 06-4). -/
  edges : Nat := 0
  /-- A period start of the freely running pair in CON or COFF, in 2^-8 ns (R214). -/
  conAt : Nat := 0
  legs : Bool × Bool := (false, false)
  /-- A tread error has made this period's frame unusable (R25). -/
  bad : Bool := false
  temps : Vector SensorState 4 := Vector.replicate 4 {}
  /-- Temperatures of the newest fresh report since the last round. -/
  newTemps : Option (Vector Int 4) := none
  deriving DecidableEq, Repr

/-- A loop lane's register state (HALL_LANE_STATUS, ALANE_STATUS). -/
structure Lane where
  role : Nat := 0
  flight : Nat := 15
  split : Bool := false
  shadow : Bool := false
  slackLo : Nat := 100
  transient : Nat := 0
  misses : Nat := 0
  /-- Slack fraction of the last period in percent (points 520 to 533). -/
  slack : Rat := 0
  testing : Bool := false
  /-- Outcome of a self-test that waits for its partner's (Table 04-10). -/
  tested : Option Bool := none
  deriving DecidableEq, Repr

/-- A change of HALL_MOD or HALL_CARRIER that waits for its landing (R206). -/
structure ModeArm where
  at_ : Nat
  mod : Option Word := none
  carrier : Option Word := none
  deriving DecidableEq, Repr

/-- A hall and its string (chapters 4 to 6). -/
structure HallS where
  err : Bool := false
  lanes : Vector Lane 4 := Vector.replicate 4 {}
  /-- Carrier epoch E_h (R209). -/
  epoch : Nat := 0
  order : List Nat := []
  sorted : Bool := false
  /-- A result of this period failed its permutation check (R235). -/
  sortBad : Bool := false
  modeArms : List ModeArm := []
  /-- Landings of armed CARRIER_SYNC compares (Table 02-2). -/
  syncs : List Nat := []
  /-- Mode and carrier in force at the landing. -/
  modUse : Word := 0
  carrierUse : Word := 0x0F424000#32
  /-- HALL_DAB and HALL_TONOFF as the last commit point found them (R206). -/
  dabUse : Word := 0x009C4000#32
  tonUse : Word := 0
  /-- N_REQ in force (R20). -/
  nReq : Nat := 0
  vref : F32 := 0
  rampFrom : F32 := 0
  rampTo : F32 := 0
  rampAt : Nat := 0
  ramp : Bool := false
  vrefSet : Bool := false
  /-- SC alarms: cell and instant, newest first (R290). -/
  scTimes : List (Nat × Nat) := []
  /-- The string waits in its safe patterns for enough restored cells (R256). -/
  shortfall : Bool := true
  permPending : Bool := false
  /-- A flight of the string has begun its stage mapping (R250). -/
  mapping : Bool := false
  shadowNext : Nat := 0
  deriving DecidableEq, Repr

/-- An injector (R190 to R193). -/
structure Injector where
  cfg : Word := 0x3F000901#32
  amp : F32 := 0
  dur : Word := 0
  f0 : F32 := 0
  f1 : F32 := 0
  seed : Word := 0
  run : Bool := false
  armedTc : Bool := false
  /-- It contributes from the next computation. -/
  ready : Bool := false
  done : Bool := false
  abort : Bool := false
  m : Nat := 0
  lfsr : Nat := 0
  phase : Word := 0
  bit : Bool := false
  deriving DecidableEq, Repr

/-- A time compare (R72, R73). -/
structure Compare where
  time : BitVec 64 := 0
  period : Word := 0
  en : Bool := false
  fired : Bool := false
  late : Bool := false
  width : Byte := 1
  target : Nat := 0
  arg : Byte := 0
  /-- TB instant of the next firing while armed. -/
  next : Nat := 0
  /-- The next firing is a late one (R64, R71). -/
  lateNext : Bool := false
  /-- The TB count at which it fired along with another compare of its tick (R74). -/
  firedAt : Option Nat := none
  deriving DecidableEq, Repr

/-- One divided output of a PLL: enable and divider (R78). -/
structure PllOut where
  en : Bool := false
  div : Nat := 0
  deriving DecidableEq, Repr

/-- What this position sends for a stream of another (R381): its owner, with its chain and the stream's number, the periods
between samples and those left, the landings it runs from and to, and its points. -/
structure TelemOut where
  owner : Fin 16
  chainW : Bool
  n : Fin 8
  dec : Nat
  left : Nat := 0
  first : Nat
  stop : Option Nat := none
  pts : List Nat
  deriving DecidableEq, Repr

end Sys2Proof.Machine

namespace Sys2Proof

/-- The three transports of Table 14-1. -/
inductive Transport where
  | spi | eth | i2c
  deriving DecidableEq, Repr

/-- Where a datagram came from, and so where its reply goes (R464). -/
structure NetAddr where
  ip : Word := 0
  port : BitVec 16 := 0
  mac : BitVec 48 := 0
  deriving DecidableEq, Repr

/-- What the active tells its standby of a wrapped ring, in the model's own layout: its breaks, the low 40 bits of the instant from
which its segments are served, and the SAFE requests for the cells of the segment the standby sends (R147, R358, R361, log 84). -/
structure SegmentMsg where
  breaks : List Nat
  from40 : Nat
  safe : List (Fin 63 × Fin 4)
  deriving DecidableEq, Repr

/-- What REJOIN compares of the two devices of a pair (R362): revision and firmware as IDENTIFY gives them, the safety check value,
and the states of the domains by the codes of PWR_STATE. -/
structure DeviceInfo where
  revision : Nat
  firmware : Nat
  check : Word
  domains : List Nat
  deriving DecidableEq, Repr

/-- A thermal sensor of Table 12-1. -/
inductive Sensor where
  | die (i : Fin 4)
  | th (i : Fin 4)
  | cell (k : Fin 63) (c : Fin 4)
  deriving DecidableEq, Repr

/-- What a round takes from one sensor: no value this round, a channel found open or shorted, or a
temperature in 1/32 °C (R412, R431). -/
inductive Reading where
  | none | bad | val (t : Int)
  deriving DecidableEq, Repr

/-- What a pin channel measures in a round (R414, R415): nothing, a diode's forward voltages in V at 10, 40 and 160 µA,
or a thermistor's resistance in Ω. -/
inductive PinInput where
  | none | diode (v10 v40 v160 : Rat) | ntc (r : Rat)
  deriving DecidableEq, Repr

/-- The owner of a Gallery word, which contains its uncorrectable error (Table 01-7). -/
inductive EccOwner where
  | tread (k : Fin 63)
  | wear (k : Fin 63)
  | hallWork (h : Fin 3)
  | capture (word : Nat)
  /-- A word of the packet in place `i` of queue `q`, 0 at its head; free storage where there is none. -/
  | queue (q : Fin 64) (i : Nat)
  /-- A word of the frame in place `i` of those of stream `n` that wait to be sent, 0 the oldest; free storage where there is none. -/
  | telemetry (n : Fin 8) (i : Nat)
  | atrium
  deriving DecidableEq, Repr

/-- The banks of Table 01-6 that hold an owner's words. -/
def EccOwner.inBank (o : EccOwner) (g : Nat) : Bool :=
  match o with
  | .tread k => g / 2 == k.val / 21
  | .wear k => g / 2 == k.val / 21
  | .hallWork h => g / 2 == h.val
  | .capture w => g == 6 + w / 65536 && decide (w < 262144)
  | .queue _ _ => g == 10 || g == 11
  | .telemetry _ _ => g == 12 || g == 13
  | .atrium => g == 14 || g == 15

/-- What a scrub finds in one word (R47). -/
inductive EccKind where
  | corr | uncorr
  deriving DecidableEq, Repr

/-- The supplies of Table 13-1. -/
inductive Supply where
  | vin | vcore | v3p3 | vdda
  deriving DecidableEq, Repr

/-- The address byte of a transfer to the management port, and the bytes a read clocks out; none for a write, whose bytes are commands
of their own (R466). -/
structure MgmtAddr where
  addr : BitVec 7
  read : Option Nat := none
  deriving DecidableEq, Repr

/-- The levels of the strap balls at a sampling instant, in mV: TWIN_ROLE, STAIR_POS0 to 3, ADDR0 and ADDR1 (R532, R533). -/
structure StrapLevels where
  role : Nat
  pos : Vector Nat 4
  addr : Vector Nat 2
  deriving DecidableEq, Repr

/-- What the straps read (Table 16-4). -/
structure Straps where
  /-- TWIN_STATUS.STRAP coding: 0 simplex, 1 E, 2 W. -/
  role : Fin 3 := 0
  pos : Fin 16 := 0
  addr : Fin 4 := 0
  deriving DecidableEq, Repr

/-- The supply readings of one moment, in mV (R503 POWER_GET W7, W8). -/
structure Volts where
  vin : Nat := 0
  vcore : Nat := 0
  v3p3 : Nat := 0
  vdda : Nat := 0
  deriving DecidableEq, Repr

/-- The readings of the supplies other than VDDA, in mV, as a housekeeping round takes them (R439). -/
structure Rails where
  vin : Nat
  vcore : Nat
  v3p3 : Nat
  deriving DecidableEq, Repr

/-- A gather train as it comes back: its trailer and its slots (R109, R140). -/
structure GatherTrain where
  trailer : Word
  slots : List (List Byte)
  deriving DecidableEq, Repr

/-- What a slice sampled: the voltage in µV, and whether the test DAC drove it (R329). -/
structure Sampled where
  uv : Rat
  dac : Bool
  deriving DecidableEq, Repr

/-- What a forwarded command keeps of the packet it came in: its sequence number, and its tag and CRC where it was a packet of a
queue (R337, R473). -/
structure FwdTag where
  seq : Word
  note : Option (BitVec 16 × Word)
  deriving DecidableEq, Repr

/-- What a standby reports each period: RELEASABLE, the units of its state that are out of step, and what REJOIN compares of it
(R340, R362, R406, log 84). -/
structure StandbyReport where
  releasable : Bool
  suUp : Bool
  need : BitVec 10
  info : DeviceInfo
  deriving DecidableEq, Repr

/-- One decision word of the twin link (R336, R361, R405): a cell fault of a class with its reaction (Table 07-6) and whether
the cell is marked permanently bypassed, a restore that failed (R255), a hall error, or safe stack block; with the low 40 bits of the landing it applies
at. -/
inductive Decision where
  | cell (k : Fin 63) (react : Fin 8) (cls : Fin 8) (perm : Bool) (at40 : Nat)
  | restore (k : Fin 63) (at40 : Nat)
  | hall (h : Fin 3) (at40 : Nat)
  | ssb (at40 : Nat)
  deriving DecidableEq, Repr

/-- Where a stair frame arrives: at port SU or SD, or from the twin partner, which relays it (R384). -/
inductive StairVia where
  | su | sd | twin
  deriving DecidableEq, Repr

/-- The header of a stair frame that arrives (Table 10-1), and whether its CRC-32C holds. -/
structure StairHdr where
  via : StairVia
  src : Fin 16
  chainW : Bool
  dst : Byte
  hops : Byte
  crcOk : Bool
  deriving DecidableEq, Repr

/-- A stair frame that arrives: its header and what it carries. -/
structure StairMsg (α : Type) where
  hdr : StairHdr
  msg : α
  deriving DecidableEq, Repr

/-- The payload of a BEACON (Table 10-2, R373). -/
structure BeaconMsg where
  tc : Nat
  count : Nat
  shareMask : Byte
  mapPresent : BitVec 16
  mapHalls : BitVec 16
  deriving DecidableEq, Repr

/-- The payload of an ANNOUNCE (R373, R374): the 40-bit target of a stair-scope LOAD_ALL, or a new Tc with
the last landing on the old grid. -/
inductive AnnounceMsg where
  | loadAll (target40 : Nat)
  | newTc (tc : Nat) (lx40 : Nat)
  deriving DecidableEq, Repr

/-- The payload of a SHARE: the low 40 bits of the landing that closes the period it is of, and the shares' values (R377, log 47). -/
structure ShareMsg where
  land40 : Nat
  vals : List (Fin 8 × F32)
  deriving DecidableEq, Repr

/-- What a TELEM carries beside the low 40 bits of a landing (R381): the values sampled for it; or, in the form this model gives
the owner's request, the points a position is to send for stream `n` every `dec` periods from it on, and none to end it
(log 87). -/
inductive TelemMsg where
  | values (vals : List (Nat × F32))
  | ask (n : Fin 8) (dec : Nat) (pts : List Nat)
  deriving DecidableEq, Repr

/-- What a PHY register 1 read gives over MDIO (R465, event 229). -/
structure PhyRead where
  up : Bool
  speed : Fin 4
  deriving DecidableEq, Repr

/-- The configuration of a rejoin transfer that no table of registers holds: of AON the registers of the wake and the bucks, the ADC
sequences, MEAS_PRIV, the compares, the settings of the PLL outputs and those of the capture engine (R362). -/
structure UnitRegs where
  wakeSet : Word
  wakeOnAddr : Bool
  auto : Bool
  buck : Nat × Nat × Nat
  adc : List (Word × Vector Word 16)
  priv : Word
  tc : List Machine.Compare
  pllPend : Vector Machine.PllOut 4
  pllAct : Vector Machine.PllOut 4
  capCfg : Word
  capPre : Nat
  capChans : List (BitVec 16)
  deriving DecidableEq, Repr

/-- The breaks of a ring and how they are routed, as an active and its standby share them (R146, R147, R149). -/
structure RingBreaks where
  breaks : List Nat
  breakHop : Nat
  declared : Bool
  seg : Bool
  routed : List Nat
  due : List (Nat × Nat)
  unwrapAt : Option Nat
  deriving DecidableEq, Repr

/-- What begins a rejoin state transfer (R362): the epoch, the sequence number each queue expects, the low 40 bits of a landing with
its SEQ, the configuration in force and pending, that of the units, the contexts, the state of the cells, what the halls have
in use, the landing grid's Tc, and the rings' breaks. -/
structure TransferConfig where
  epoch : BitVec 16
  seqs : List Word
  landing40 : Nat
  seq : BitVec 16
  cfg : Machine.Table Word
  pend : Machine.Table Word
  regs : UnitRegs
  ctxs : List (Nat × Machine.Ctx)
  cells : List (Nat × Machine.Cell)
  halls : List (Nat × Machine.HallS)
  /-- Tc in force and a change of it that is pending, and the rings' breaks. -/
  tc : Nat
  change : Option (Nat × Nat)
  rings : List (Nat × RingBreaks)
  telem : List Machine.TelemOut
  deriving DecidableEq, Repr

/-- A unit of a rejoin state transfer (R362): every domain's configuration, the state copy of one flight, or the atrium's with its
injectors and the host's arm references. -/
inductive TransferUnit where
  | config (x : TransferConfig)
  | flight (f : Fin 9) (ctxs : List (Nat × Machine.Ctx))
  | atrium (ctx : Machine.Ctx) (inj : List (Nat × Machine.Injector)) (arm : List (Option F32))
  deriving DecidableEq, Repr

end Sys2Proof
end

