-- ==== Sys2Proof/Syntax.lean ====
section
/-! DEFINITION. The commands of the block: one constructor of `Instr` for each row of spec/opcode_table.json,
with the operands the row's event or packet brings from outside the device (their types stand in Types.lean). -/

namespace Sys2Proof

/-- The commands of the MX6363: host opcodes, register writes with an effect of their own, and the instants
and arrivals at which the device acts. A payload `w` lists the words W0, W1, ... of R498. -/
inductive Instr where
  /-- 0x00 without payload, or with W0 bit 0 clear. -/
  | nop (w : List Word)
  /-- 0x00 with W0 bit 0 set, arriving on queue `q` with sequence number `s`. -/
  | resync (q : Fin 64) (s : Word)
  | identify (w : List Word)
  | status (w : List Word)
  | powerSet (w : List Word)
  | powerGet (w : List Word)
  | vcoreSet (w : List Word)
  | domainReset (w : List Word)
  | eventRoute (w : List Word)
  | eventRead (w : List Word)
  | cfgWrite (w : List Word)
  | cfgRead (w : List Word)
  | cfgCommit (w : List Word)
  | cfgCommitCheck (w : List Word)
  | cfgCommitDiscard (w : List Word)
  | signalRead (w : List Word)
  | signalWrite (w : List Word)
  | loopSet (q : Fin 64) (w : List Word)
  | loopCoef (q : Fin 64) (w : List Word)
  | loopEnable (q : Fin 64) (w : List Word)
  | groupSet (q : Fin 64) (w : List Word)
  | inject (w : List Word)
  | capture (w : List Word)
  | captureRead (w : List Word)
  | stageWrite (q : Fin 64) (w : List Word)
  | loadAll (w : List Word)
  | safeSet (w : List Word)
  | safeRequest (w : List Word)
  | hallMode (w : List Word)
  | cellBypass (q : Fin 64) (w : List Word)
  | cellRestore (q : Fin 64) (w : List Word)
  | ctConfig (q : Fin 64) (w : List Word)
  | ctConfigRead (q : Fin 64) (w : List Word)
  | clrPerm (q : Fin 64) (w : List Word)
  | ctStatus (q : Fin 64) (w : List Word)
  | wearRead (w : List Word)
  | wearParam (w : List Word)
  | wearParamReset (w : List Word)
  | adcSeq (w : List Word)
  | adcRead (w : List Word)
  | calZero (w : List Word)
  | calFull (w : List Word)
  | calPriv (w : List Word)
  | testDac (w : List Word)
  | testDacGain (w : List Word)
  | testDacOpen (w : List Word)
  | testDacOut (w : List Word)
  | tbRead (w : List Word)
  | tbIncr (w : List Word)
  | tbAdj (w : List Word)
  | tcSet (w : List Word)
  | pllSet (w : List Word)
  | pllCommit (w : List Word)
  | safeParam (w : List Word)
  | safeCrcRead (w : List Word)
  | safeConfirm (w : List Word)
  | safeConfirmWithdraw (w : List Word)
  | release (w : List Word)
  | safeStatus (w : List Word)
  | nvmStore (w : List Word)
  | nvmLoad (w : List Word)
  | logRead (w : List Word)
  | nvmStatus (w : List Word)
  | streamSet (w : List Word)
  | streamEnable (w : List Word)
  | twinStatus (w : List Word)
  | demote (w : List Word)
  | rejoin (w : List Word)
  | stairStatus (w : List Word)
  | tbTimeLatch
  | tbSyncStampLatch
  | unwrap (f : Fin 9)
  /-- A write of `v` to FLT_SURVEY of flight `f` with GO set. -/
  | fltSurveyGo (f : Fin 9) (v : Word)
  /-- The loop time R_j the device measured, in 2^-4 ns. -/
  | surveyDone (f : Fin 9) (loop : Word)
  | demand
  | force
  | promote
  | followerRestore
  | wakeGo
  /-- A write of `v` to word `i` of EVT_PEND. -/
  | evtPendClear (i : Fin 8) (v : Word)
  | untrustedClear
  | ptpTxGo (n : Fin 4)
  | ptpTxDone (n : Fin 4)
  | sensorFailClear (x : Sensor)
  | sensorPinClear (x : Sensor)
  | gpioFuncChange (i : Fin 16) (func : Fin 8)
  /-- One I²C write transfer: the 24-bit pointer and the data bytes. -/
  | mgmtRegisterWrite (ptr : Nat) (bytes : List Byte)
  | mgmtAddressMatch (addr : MgmtAddr)
  | mailboxPacket (bytes : List Byte)
  | commandPacket (t : Transport) (src : NetAddr) (bytes : List Byte)
  /-- An RS_READ transaction that clocks out `n` bytes. -/
  | rsRead (n : Nat)
  | statRead
  | spiCodeIgnored (code : Byte)
  /-- An ARP request from `src` for the address `ip`. -/
  | arpRequest (ip : Word) (src : NetAddr)
  /-- A UDP frame to port `dport` of address `dst`, with the stamp of its start-of-frame delimiter. -/
  | ptpFrameRx (dst : Word) (dport : BitVec 16) (src : NetAddr) (ns : BitVec 64) (frac : Word) (payload : List Byte)
  | ethFrameDiscard
  | queueDispatch
  | packetExecuteTime (q : Fin 64)
  | gatherDeparture
  /-- A gather train of flight `f` has returned; `west` names the segment from the west port; `tg` is the
  measured T_G in 2^-4 ns; `slots` are its report slots in order of the route. -/
  | gatherReturn (f : Fin 9) (west : Bool) (tg : Nat) (train : GatherTrain)
  | gatherLost (f : Fin 9) (west : Bool)
  | atriumLoopStart
  /-- The sort engine of hall `h` has its result; `ok` says that it passed its permutation check. -/
  | hallSort (h : Fin 3) (ok : Bool)
  | stageMapping (f : Fin 9)
  | atriumDeadline
  | commitPoint
  /-- `bad` and `skip` name the flights (bits 0 to 8) and the atrium (bit 9) whose shadow check found a difference, or
  was not complete. -/
  | deliverDeparture (bad skip : BitVec 10)
  | keepAliveDeparture
  | landing
  | sampleInstant
  /-- The three data characters of an ALM at a port of flight `f`. -/
  | almReceived (f : Fin 9) (west : Bool) (a1 a2 a3 : Byte)
  | ldnReceived (f : Fin 9) (west : Bool)
  /-- The west-to-east delay the PRB measured, in 2^-4 ns, fixed port delays removed. -/
  | prbArrival (f : Fin 9) (we : Nat)
  | compareFire (n : Fin 16)
  | gpioPulseEnd (i : Fin 16)
  | syncOutPulse
  | syncOutPulseEnd
  /-- A rising edge at SYNC_IN, with its instant at the ball. -/
  | syncInEdge (ns : BitVec 64) (frac : Word)
  | refLoss
  | plltUnlock
  | plllUnlock
  /-- PLL-T (false) or PLL-L (true) regains lock. -/
  | pllRelock (l : Bool)
  | tbUntrusted
  | grossFrequencyError (tick pllL : Bool)
  | galleryScrub (g : Fin 16) (kind : EccKind) (owner : EccOwner)
  | dispatchTimeout
  | corridorGrantTimeout
  /-- Lane 0 to 11, or 12 for AL0 and 13 for AL1. -/
  | laneSelfTestDone (l : Fin 14) (pass : Bool)
  | spareSelfTest (l : Fin 14) (pass : Bool)
  | injectDone (n : Fin 8)
  | captureDone
  | restoreTimeout (k : Fin 63)
  | retryTimeout (k : Fin 63)
  | derateTimeout (k : Fin 63)
  | junctionUpdate (k : Fin 63)
  | wearJournalRound
  | calRoundStart
  | selfCalDone (gain offset : Rat)
  | overlapDone (mean : Rat)
  | overlapTimeout
  | carrierTrigger (k : Fin 63) (valley : Bool)
  | gpioTriggerEdge (i : Fin 16)
  /-- The slice has converted what it sampled for entry `e` of sequence `n`. -/
  | adcConversionDone (n e : Fin 16) (x : Sampled)
  | sliceRequestDrop (n e : Fin 16)
  /-- The sinc3 output y of filter `d`. -/
  | dsdFilterOutput (d : Fin 8) (y : Int)
  | calAverageDone
  | calTimeout
  /-- The difference the check measured, in units of 62.5 µV. -/
  | testDacCheckDone (diff : Int)
  | testDacStall
  | hbtReceived (h1 h2 h3 : Byte)
  | hbInEdge
  | hb1Lost
  | hb2Lost
  | twinLinkChange (up : Bool)
  | demReceived
  | decisionWord (d : Decision)
  /-- FRESH bits and frame CRCs per flight, and the CRC of the atrium's copy. -/
  | commitWord (fresh : BitVec 9) (crcs : List Word)
  /-- Atrium points and their values. -/
  | measurementWord (pts : List (Nat × F32))
  /-- A forwarded Pair-class command: queue, what is kept of its packet, opcode, payload, and the low 40 bits of its apply
  instant. -/
  | forwardedCommand (q : Fin 64) (tag : FwdTag) (op : Byte) (w : List Word) (at40 : Nat)
  | pairApplyInstant
  /-- Of a two-way measurement, (t1 - t2) + (t4 - t3) in 2^-4 ns: t1 leaves this device, t2 and t3 are the partner's, t4
  arrives here. -/
  | twinTimeMessage (sum : Int)
  | stateTransferUnit (u : TransferUnit)
  | rejoinTimeout
  | releasableReport (x : StandbyReport)
  | partnerTrainReceived (f : Fin 9) (dirWest : Bool) (epoch : BitVec 16)
  /-- An active's deliver train at this device's port, from its SOT to its EOT. -/
  | activeTrainObserved (f : Fin 9) (train : List Byte)
  | plannedTakeover
  | beacon (x : StairMsg BeaconMsg)
  | beaconSend
  | announce (h : StairHdr) (m : AnnounceMsg)
  | annAck (h : StairHdr) (accepted stale : Bool)
  | announceTimeout
  | timeReqSend
  /-- TIME_REQ arrives at SD; `msg` is the instant t2 of its arrival, a TB value in 2^-4 ns. -/
  | timeReq (x : StairMsg Int)
  /-- TIME_RESP with t2 and t3, arriving at `t4`, in 2^-4 ns. -/
  | timeResp (h : StairHdr) (stamps : Int × Int) (t4 : Int)
  | share (x : StairMsg ShareMsg)
  | statusSend
  | stairStatusFrame (h : StairHdr) (hallsOn sync : Bool)
  | sigReq (h : StairHdr) (pts : List Nat)
  | sigResp (h : StairHdr) (vals : List (Nat × F32))
  | sigRespTimeout
  | telem (h : StairHdr) (at40 : Nat) (m : TelemMsg)
  /-- Port SD (true) or SU (false) comes up or goes down. -/
  | stairPortChange (sd up : Bool)
  | newelLost
  | holdExp
  | streamFrame (s : Fin 8)
  | sinDemand (i : Fin 4) (b : Bool)
  | sinDisc (i : Fin 4)
  | tpoPulse (o : Fin 2)
  | testWindowEnd (o : Fin 2)
  | fbReadbackFault
  | fbTExpiry
  | checkValueRecompute
  /-- The readings of one round: TH0 to TH3, the supplies, and VDDA, which counts where its regulator runs. -/
  | hkRound (th : Vector PinInput 4) (rails : Rails) (vdda : Nat)
  | hkLate
  /-- A die conversion in 1/32 °C. -/
  | dieShutdownCompare (d : Fin 4) (t : Reading)
  | supplyFault (p : Supply) (mv : Nat)
  | supplyFaultClear (p : Supply) (mv : Nat)
  | debugHalt
  | haltRelease
  | powerOnReset
  | porRelease (x : StrapLevels)
  | resetnAssert
  | resetnRelease (x : StrapLevels) (holdMs : Nat)
  /-- The running wake step completes; `bad` has a bit for each retained shadow bank (0 to 9) and Gallery bank
  (16 to 31) whose retention CRC does not match, and `ref` codes the reference as PLL_STATUS.REF_RATE. -/
  | wakeStepDone (bad : Word) (ref : Fin 4)
  | wakeStepFail
  /-- A domain code 0 to 9, or 16 + g for bank Gg. -/
  | retEntryDone (d : Fin 32)
  | vcoreSettled (mv : Nat)
  | phyLinkPoll (r : PhyRead)
  | phyResetRelease
  | nvmProgramDone (ok : Bool)
  | nvmEraseDone (ok : Bool)
  | hbtSend
  | tpoPulseEnd (o : Fin 2)
  /-- The eight SIN channels (bit 2i is SINiA, bit 2i + 1 is SINiB), SAFE_FBn and the TPO read-back levels. -/
  | safetyInputSample (sin : Byte) (fb : Bool) (tpo : BitVec 2)
  | referenceReturn
  | ringPortReceiverChange (f : Fin 9) (west up : Bool)
  /-- SAFE requests of the segment the standby sends: cell and pattern. -/
  | segmentFrames (f : Fin 9) (safe : SegmentMsg)
  | rcOscillatorRuns
  | stairMapPresenceLapse (p : Fin 16)
  deriving DecidableEq, Repr

end Sys2Proof
end

