-- ==== Sys2Proof/Decode.lean ====
section
/-! DEFINITION. The decoder of the opcode table's words: no row of the table gives a bit of a word (the commands of this
block come as packets, register writes, frames and events), so no word spells a command. The bytes of packets are read
where they arrive, in Machine/Packets.lean. -/

namespace Sys2Proof

/-- The command a word of `nbits` bits spells by the table's bits: the table gives none. -/
def decodeTableWord (_nbits _w : Nat) : Option Instr := none

end Sys2Proof
end

