-- ==== Sys2Proof/Config.lean ====
section
/-! DEFINITION. What an implementation fixes and what the manual leaves open: constants without a body.
No proof can see a value of one, so a statement proved of the model holds whatever the value is. -/

namespace Sys2Proof.Config

/-- A value the manual leaves open, fresh for each count of `State.freeCtr` (log 3). -/
opaque freeWord : Nat → Word

/-- A whole number the manual leaves open, such as a measured interval (log 3). -/
opaque freeNat : Nat → Nat

/-- How many ulp the lanes' sine of an argument lies from the nearest binary32. R151 bounds the result to 2 ulp of the exact
sine and fixes nothing more (log 4). -/
opaque laneSinUlp : F32 → Int

/-- The same of the lanes' cosine (R151, log 4). -/
opaque laneCosUlp : F32 → Int

/-- By how many ulp the angle of R237, the exponentials of R259 and R262, the powers of R192 and R262 and the logarithms of R414
and R415 lie from the nearest binary32. The manual does not state their rounding; the model has them within 1 ulp (log 4). -/
opaque atan2Ulp : F32 → F32 → Int
opaque expUlp : F32 → Int
opaque powUlp : F32 → F32 → Int
opaque lnUlp : F32 → Int

/-- The angle of R237 of a current of no direction, in turns: of one that is zero, or not finite (log 4). -/
opaque atan2Open : F32 → F32 → F32

/-- The NaN an invalid operation gives; IEEE 754 leaves its payload to the implementation (R151, log 4). -/
opaque nanResult : F32 → F32 → F32

/-- Class 0 load of the Corridor at the worst corner, in bytes per second, as R43 says the device computes it
from Tc, the installed cells, the capture channels and the telemetry streams; the formula is not given (log 5). -/
opaque corridorLoad : (tc cells channels : Nat) → (streams : List (Nat × Nat)) → Nat

/-- The grade of the die: true for MX6363-IX (R2, SYS_ID.GRADE, factory value, log 6). -/
opaque gradeIX : Bool

/-- The die serial number of IDENTIFY W3 and W4 (R503, factory value, log 6). -/
opaque dieSerial : BitVec 64

/-- The factory-programmed MAC address of HOST_NET_MAC (R462, log 6). -/
opaque macAddress : BitVec 48

/-- Data pages of a parameter-set record, whose layout the manual does not give (R495, log 3). -/
opaque paramPages : Nat

/-- What a word of the Gallery window reads as where the manual gives no layout of the words the device
itself keeps there (Table 01-6): it depends on the address and on the moment of the read (log 7). -/
opaque galleryWord : Nat → Nat → Word

end Sys2Proof.Config
end

