-- ==== Sys2Proof/Machine/F32.lean ====
section
/-! DEFINITION. Binary32 arithmetic of the loop lanes (R151): the operands are read as exact rationals, the
operation is exact, and the result is rounded once to nearest with ties to even. Subnormal operands and
results are replaced by zero of the same sign. -/

namespace Sys2Proof.Machine.F32

open Sys2Proof

/-- Round to nearest, ties to even (R151, R204). -/
def rne (q : Rat) : Int :=
  let f := q.floor
  let r := q - (f : Rat)
  if r < 1 / 2 then f else if 1 / 2 < r then f + 1 else if f % 2 = 0 then f else f + 1

/-- 2 to a signed power, exactly. -/
def pow2 (e : Int) : Rat :=
  match e with
  | .ofNat n => ((2 ^ n : Nat) : Rat)
  | .negSucc n => 1 / ((2 ^ (n + 1) : Nat) : Rat)

def neg? (x : F32) : Bool := x.getLsbD 31
def expo (x : F32) : Nat := (x.toNat / 2 ^ 23) % 256
def frac (x : F32) : Nat := x.toNat % 2 ^ 23
def isFinite (x : F32) : Bool := expo x != 255
def isNaN (x : F32) : Bool := expo x == 255 && frac x != 0
def isInf (x : F32) : Bool := expo x == 255 && frac x == 0

/-- A zero, a subnormal operand counting as one (R151). -/
def isZero (x : F32) : Bool := expo x == 0

/-- The quiet NaN 0x7FC0_0000 the manual writes (R488, R506, R507). -/
def qnan : F32 := 0x7FC00000#32
def zero : F32 := 0#32
def one : F32 := 0x3F800000#32
def inf (n : Bool) : F32 := if n then 0xFF800000#32 else 0x7F800000#32
def signedZero (n : Bool) : F32 := if n then 0x80000000#32 else 0#32

/-- The value of a finite operand; subnormals read as zero (R151). -/
def toRat (x : F32) : Rat :=
  if expo x = 0 then 0
  else
    let m : Rat := ((2 ^ 23 + frac x : Nat) : Rat) * pow2 ((expo x : Int) - 150)
    if neg? x then -m else m

/-- The binary32 of a magnitude rounded once to 24 bits; a result below the normal range becomes zero of the
sign `n`, one beyond the range infinity. -/
def ofMag (n : Bool) (q : Rat) : F32 :=
  let e0 : Int := (q.num.natAbs.log2 : Int) - (q.den.log2 : Int) - 23
  let e : Int := if q / pow2 e0 < ((2 ^ 23 : Nat) : Rat) then e0 - 1 else e0
  let m := rne (q / pow2 e)
  let (m, e) := if m = 2 ^ 24 then ((2 ^ 23 : Int), e + 1) else (m, e)
  let be := e + 150
  if be ≤ 0 then signedZero n
  else if 255 ≤ be then inf n
  else BitVec.ofNat 32 ((if n then 2 ^ 31 else 0) + be.toNat * 2 ^ 23 + (m.toNat - 2 ^ 23))

/-- The binary32 nearest to `q`; an exact zero takes the sign `n0`. -/
def ofRatZ (n0 : Bool) (q : Rat) : F32 :=
  if q = 0 then signedZero n0 else if q < 0 then ofMag true (-q) else ofMag false q

/-- The binary32 nearest to `q`. -/
def ofRat (q : Rat) : F32 := ofRatZ false q

/-- An integer quantity as binary32, rounded to nearest even (R527). -/
def ofInt (i : Int) : F32 := ofRat (i : Rat)
def ofNat (i : Nat) : F32 := ofRat (i : Rat)

def neg (x : F32) : F32 := x ^^^ 0x80000000#32
def abs (x : F32) : F32 := x &&& 0x7FFFFFFF#32

def mul (x y : F32) : F32 :=
  let n := neg? x != neg? y
  if isNaN x || isNaN y then Config.nanResult x y
  else if isInf x then (if isZero y then Config.nanResult x y else inf n)
  else if isInf y then (if isZero x then Config.nanResult x y else inf n)
  else ofRatZ n (toRat x * toRat y)

def add (x y : F32) : F32 :=
  if isNaN x || isNaN y then Config.nanResult x y
  else if isInf x then (if isInf y && neg? x != neg? y then Config.nanResult x y else inf (neg? x))
  else if isInf y then inf (neg? y)
  else ofRatZ (neg? x && neg? y && isZero x && isZero y) (toRat x + toRat y)

def sub (x y : F32) : F32 := add x (neg y)

/-- Fused multiply-add, rounded once (R151). -/
def fma (a b c : F32) : F32 :=
  if isNaN a || isNaN b || isNaN c then Config.nanResult a b
  else if isFinite a && isFinite b then
    if isInf c then inf (neg? c)
    else
      let pz := isZero a || isZero b
      ofRatZ ((neg? a != neg? b) && neg? c && pz && isZero c) (toRat a * toRat b + toRat c)
  else add (mul a b) c

def div (x y : F32) : F32 :=
  let n := neg? x != neg? y
  if isNaN x || isNaN y then Config.nanResult x y
  else if isInf x then (if isInf y then Config.nanResult x y else inf n)
  else if isInf y then signedZero n
  else if isZero y then (if isZero x then Config.nanResult x y else inf n)
  else ofRatZ n (toRat x / toRat y)

/-- Square root, rounded once: the integer root of a scaled operand carries more bits than the result and a
sticky bit for the rest. -/
def sqrt (x : F32) : F32 :=
  if isNaN x then Config.nanResult x x
  else if isZero x then signedZero (neg? x)
  else if neg? x then Config.nanResult x x
  else if isInf x then x
  else
    let q := toRat x
    let v := (q * ((4 ^ 104 : Nat) : Rat)).floor.toNat
    let r := Nat.sqrt v
    let st := if r * r = v then 0 else 1
    ofRat (((2 * r + st : Nat) : Rat) / ((2 ^ 105 : Nat) : Rat))

/-- x < y of two numbers; false when either is a NaN. -/
def lt (x y : F32) : Bool :=
  if isNaN x || isNaN y then false
  else if isInf x then neg? x && !(isInf y && neg? y)
  else if isInf y then !neg? y
  else decide (toRat x < toRat y)

def le (x y : F32) : Bool := !isNaN x && !isNaN y && !lt y x
/-- An operand as the lanes take it: a subnormal is zero of the same sign (R151). -/
def flush (x : F32) : F32 := if expo x = 0 then signedZero (neg? x) else x

def max (x y : F32) : F32 := flush (if lt x y then y else x)
def min (x y : F32) : F32 := flush (if lt y x then y else x)
def clamp (x lo hi : F32) : F32 := min (max x lo) hi

/-- The sum of a list in order, each addition rounded. -/
def sum (l : List F32) : F32 := l.foldl add zero

/-- Whether a binary32 lies within exact bounds; a non-finite value never does. -/
def within (lo hi : Rat) (x : F32) : Bool := isFinite x && decide (lo ≤ toRat x) && decide (toRat x ≤ hi)

/-- frac(x) of an exact quantity. -/
def fracOf (q : Rat) : Rat := q - (q.floor : Rat)

/-! Sine and cosine of the lanes (R151). -/

/-- π to 39 decimals. -/
def piRat : Rat := 3141592653589793238462643383279502884197 / (10 ^ 39 : Nat)

/-- The sine of `x`, |x| at most π/2, by fourteen terms of its series: exact far beyond binary32. -/
def sinSeries (x : Rat) : Rat :=
  ((List.range 14).foldl (fun (a : Rat × Rat) i =>
    (-(a.1 * x * x) / (((2 * i + 2) * (2 * i + 3) : Nat) : Rat), a.2 + a.1)) (x, 0)).2

/-- The sine of `q` turns. -/
def sinTurns (q : Rat) : Rat :=
  let f := fracOf q
  let t : Rat := if f ≤ 1 / 4 then f else if f ≤ 3 / 4 then 1 / 2 - f else f - 1
  sinSeries (2 * piRat * t)

/-- A number `k` steps of its last place away from a nonzero one. -/
def nudge (x : F32) (k : Int) : F32 := BitVec.ofInt 32 ((x.toNat : Int) + k)

/-- A result within `n` ulp of `exact`: the nearest binary32, or the one `k` steps away where that is no further off. -/
def withinUlp (n : Nat) (exact : Rat) (k : Int) : F32 :=
  let base := ofRat exact
  let x := nudge base (Max.max (-n) (Min.min n k))
  let d := toRat x - exact
  let lim := (n : Rat) * pow2 ((expo base : Int) - 150)
  if !isZero base && isFinite base && decide (-lim ≤ d) && decide (d ≤ lim) then x else base

/-- The lanes' sine of an argument in turns: within 2 ulp, and otherwise open (R151, log 4). -/
def laneSin (x : F32) : F32 :=
  if isFinite x then withinUlp 2 (sinTurns (toRat x)) (Config.laneSinUlp x) else Config.nanResult x x

/-- The lanes' cosine of an argument in turns. -/
def laneCos (x : F32) : F32 :=
  if isFinite x then withinUlp 2 (sinTurns (toRat x + 1 / 4)) (Config.laneCosUlp x) else Config.nanResult x x

/-! The elementary functions whose rounding the manual leaves open: within 1 ulp of the exact value, which each series gives far
beyond binary32 (log 4). -/

/-- ln 2 to 39 decimals. -/
def ln2 : Rat := 693147180559945309417232121458176568076 / (10 ^ 39 : Nat)

/-- The logarithm of a number above 0: of its part between 1/2 and 2 by twenty terms, and of its power of two. -/
def lnRat (q : Rat) : Rat :=
  let e : Int := (q.num.natAbs.log2 : Int) - (q.den.log2 : Int)
  let m := q / pow2 e
  let z := (m - 1) / (m + 1)
  (e : Rat) * ln2 + 2 * ((List.range 20).foldl (fun (a : Rat × Rat) i =>
    (a.1 * z * z, a.2 + a.1 / ((2 * i + 1 : Nat) : Rat))) (z, 0)).2

/-- The exponential: of the part within half of ln 2 by twenty-two terms, and a power of two. -/
def expRat (q : Rat) : Rat :=
  let k := (q / ln2 + 1 / 2).floor
  let r := q - (k : Rat) * ln2
  pow2 k * ((List.range 22).foldl (fun (a : Rat × Rat) i => (a.1 * r / ((i + 1 : Nat) : Rat), a.2 + a.1)) (1, 0)).2

/-- The binary32 of an exponential; beyond these bounds it is infinity or zero whatever the rounding. -/
def expOf (q : Rat) (k : Int) : F32 :=
  if 100 < q then inf false else if q < -150 then zero else withinUlp 1 (expRat q) k

def exp (x : F32) : F32 :=
  if isNaN x then Config.nanResult x x
  else if isInf x then (if neg? x then zero else inf false)
  else expOf (toRat x) (Config.expUlp x)

def ln (x : F32) : F32 :=
  if isNaN x then Config.nanResult x x
  else if isZero x then inf true
  else if neg? x then Config.nanResult x x
  else if isInf x then x
  else withinUlp 1 (lnRat (toRat x)) (Config.lnUlp x)

/-- `x` to the power `y`, of a base that is not negative. -/
def pow (x y : F32) : F32 :=
  if isNaN x || isNaN y then Config.nanResult x y
  else if isZero y then one
  else if isZero x then (if neg? y then inf false else zero)
  else if neg? x then Config.nanResult x y
  else if isInf x then (if neg? y then zero else inf false)
  else if isInf y then (if x = one then one else if decide (1 < toRat x) != neg? y then inf false else zero)
  else expOf (toRat y * lnRat (toRat x)) (Config.powUlp x y)

/-- The arc tangent of `t`, at most 1/2 in magnitude, by twenty-eight terms. -/
def atanSeries (t : Rat) : Rat :=
  ((List.range 28).foldl (fun (a : Rat × Rat) i => (-(a.1 * t * t), a.2 + a.1 / ((2 * i + 1 : Nat) : Rat))) (t, 0)).2

/-- The arc tangent of `t` from 0 to 1 in turns. -/
def atanTurns (t : Rat) : Rat :=
  (if t ≤ 1 / 2 then atanSeries t else atanSeries (1 / 2) + atanSeries ((t - 1 / 2) / (1 + t / 2))) / (2 * piRat)

/-- atan2(y, x) / 2π of a current that has a direction. -/
def angleTurns (y x : Rat) : Rat :=
  let a := if y < 0 then -y else y
  let b := if x < 0 then -x else x
  let v := if a ≤ b then atanTurns (a / b) else 1 / 4 - atanTurns (b / a)
  let w := if x < 0 then 1 / 2 - v else v
  if y < 0 then -w else w

/-- atan2(y, x) / 2π in turns (R237). -/
def atan2Turns (y x : F32) : F32 :=
  if !isFinite y || !isFinite x || (isZero y && isZero x) then Config.atan2Open y x
  else withinUlp 1 (angleTurns (toRat y) (toRat x)) (Config.atan2Ulp y x)

/-- A signed quantity in two's complement with `w` bits, wrapping. -/
def enc (w : Nat) (i : Int) : BitVec w := BitVec.ofInt w i

end Sys2Proof.Machine.F32
end

