-- ==== Sys2Proof/Machine/State.lean ====
section
/-! DEFINITION. The state of the MX6363: its configuration registers, its running state, its queues and
buffers, what its balls drive, and the queue of the commands that wait. Plain data throughout. -/

namespace Sys2Proof.Machine

open Sys2Proof

/-- Why a step stops with a fault. No command of this block stops so: the type stands for the host's interface. -/
inductive Fault where
  /-- Raised by no meaning; a fault here would be safe. -/
  | none
  deriving DecidableEq, Repr

/-- Why a step has no meaning. -/
inductive Refusal where
  /-- A command without a meaning yet, by its mnemonic; raised by `exec` alone, and safe. -/
  | notModelled (mnemonic : String)
  deriving DecidableEq, Repr

/-- The logic domains by their codes of chapter 13. -/
inductive Dom where
  | timebase | atrium | safety | links | hallA | hallB | hallC | analog | net | nvm
  deriving DecidableEq, Repr

/-- The states of Table 13-2 with the coding of PWR_STATE. -/
inductive DomState where
  | off | ret | on | trans
  deriving DecidableEq, Repr

/-- A status of Table 14-6. -/
inductive Status where
  | ok | accepted | busy | badCrc | badLength | badOpcode | badQueue | badParam | range | state
  | domainOff | locked | stale | late | nvmFail | nvmBusy | internal
  deriving DecidableEq, Repr

/-- The reply of a command: its status, its payload words, and whether it answers a duplicate or was
completed at a twin apply instant (Table 14-4). -/
structure Reply where
  status : Status
  words : List Word := []
  dup : Bool := false
  pair : Bool := false
  deriving DecidableEq, Repr

/-- A packet in a queue (Table 14-3, R474). -/
structure Pkt where
  transport : Transport
  src : NetAddr := {}
  op : Byte
  queue : Fin 64
  prio : Nat
  tag : BitVec 16
  seq : Word
  words : List Word
  crc : Word
  /-- TB_NS of its receipt (R337). -/
  got : Nat := 0
  /-- Execute time as a TB_NS value (R474). -/
  execAt : Nat
  late : Bool
  /-- Order of arrival over all queues (R477). -/
  arrival : Nat
  /-- Blocks of 64 bytes it takes from the shared storage and from its queue's reservation (R475). -/
  shared : Nat
  own : Nat
  /-- Its stored words hold an uncorrectable error (R478). -/
  ecc : Bool := false
  /-- It is completed at a twin apply instant (R337). -/
  applied : Bool := false
  deriving DecidableEq, Repr

/-- A record of an accepted packet, kept for duplicates (R471). -/
structure Recent where
  seq : Word
  tag : BitVec 16
  crc : Word
  answer : Option Reply := none
  /-- TIME of that answer. -/
  time : Nat := 0
  deriving DecidableEq, Repr

/-- One host command queue (R475, R476). -/
structure Queue where
  expect : Word := 0
  recent : List Recent := []
  /-- At a standby, the number after the last packet its active has forwarded, and the records of those: a takeover puts them in the
  place of its own (R473). -/
  fwdExpect : Option Word := none
  fwdRecent : List Recent := []
  pkts : List Pkt := []
  /-- The head packet waits for what its command waits for (R477). -/
  held : Bool := false
  ovf : Nat := 0
  deriving DecidableEq, Repr

/-- What leaves the device: everything it transmits, newest first in `State.out`. -/
inductive Out where
  /-- A reply framed for Ethernet (Table 14-4), with the address and port it comes from and those it goes to. -/
  | reply (t : Transport) (src dest : NetAddr) (bytes : List Byte)
  /-- A read of a PHY register over MDC and MDIO: PHY address and register (R465). -/
  | mdioRead (phyad reg : Nat)
  /-- The management port: it acknowledges its address; which bytes of a write, pointer and data, it acknowledges; and the bytes a
  read returns (R448, R466 to R468). -/
  | mgmtAck
  | mgmtWrite (acks : List Bool)
  | mgmtRead (bytes : List Byte)
  /-- Bytes clocked out by RS_READ or STAT_READ. -/
  | spi (bytes : List Byte)
  /-- A UDP datagram from HOST_NET_IP. -/
  | datagram (dest : NetAddr) (bytes : List Byte)
  | arpReply (dest : NetAddr)
  /-- A PTP message from a transmit slot, with its source port. -/
  | ptp (srcPort : BitVec 16) (dest : NetAddr) (payload : List Byte)
  /-- A train at an end of a ring, with the TB instant of its departure. -/
  | train (f : Fin 9) (west : Bool) (at_ : Nat) (bytes : List Byte)
  | blk (f : Fin 9) (west : Bool)
  /-- A probe, with the TB instant of its departure (R141). -/
  | prb (f : Fin 9) (west : Bool) (at_ : Nat)
  /-- The twin link (Table 09-2). -/
  | dem
  | hbt (h1 h2 h3 : Byte)
  | decision (d : Decision)
  /-- A gather train received at the device's own port: its flight, the port it left, its time, its trailer and its slots. -/
  | relay (f : Fin 9) (west : Bool) (tg : Nat) (trailer : Word) (slots : List (List Byte))
  /-- The low 40 bits of the TB instant of a probe's departure, or of a deliver train's return, at the device's own port (R67). -/
  | stamp (f : Fin 9) (west : Bool) (at40 : Nat)
  /-- FRESH bits and the CRCs of the nine flights, then that of the atrium's copy (log 84). -/
  | commit (fresh : BitVec 9) (crcs : List Word)
  /-- A time message, with the low 40 bits of the TB instant it leaves at (R67). -/
  | time (at40 : Nat)
  /-- A forwarded command; `note` has the tag and the CRC of the packet it came in, and `at40` the low 40 bits of its apply
  instant (R67). -/
  | forward (q : Fin 64) (seq : Word) (note : Option (BitVec 16 × Word)) (op : Byte) (w : List Word) (at40 : Nat)
  | measurement (pts : List (Nat × F32))
  /-- What a standby tells its active each period (R340, R362, R406, log 84). -/
  | report (x : StandbyReport)
  | transfer (u : TransferUnit)
  | segment (f : Fin 9) (m : SegmentMsg)
  /-- A stair frame out of SD (true) or SU (false), from its SSF to its EOT (Table 10-1). -/
  | stair (sd : Bool) (frame : List Byte)
  /-- A stair frame that a standby received, for its active (R384). -/
  | stairTwin (frame : List Byte)
  deriving DecidableEq, Repr

/-- A pending event and what EVT_INFO, EVT_TIME and EVT_DATA hold of it (R481). -/
structure EvtRec where
  pend : Bool := false
  count : Nat := 0
  time : BitVec 64 := 0
  data : Word := 0
  deriving DecidableEq, Repr

/-- An event held in AON while ATRIUM is not ON (R484). -/
structure HeldEvt where
  num : Nat
  data : Word
  deriving DecidableEq, Repr

/-- A fault-log record before it is stored (Table 14-12). -/
structure LogRec where
  time : BitVec 64
  event : Nat
  kind : Byte
  key : BitVec 16
  data : Word
  cause : Word
  deriving DecidableEq, Repr

/-- What started the running power sequence (R442, R449, R454). -/
inductive SeqKind where
  | wake | set | reset (d : Dom)
  deriving DecidableEq, Repr

/-- A running wake, POWER_SET or DOMAIN_RESET (R442, R450). Targets use the codes 0 to 9 for domains and
16 + g for bank Gg. -/
structure PowerSeq where
  kind : SeqKind
  /-- Entries into RET not yet complete (R446). -/
  retWait : List Nat := []
  /-- Wear records that must be committed before the halls may leave ON, and the halls of those that were not (R267). -/
  journalWait : Nat := 0
  unsaved : List Nat := []
  /-- Targets to take out of ON once the journal is written, with RET (true) or OFF. -/
  leave : List (Nat × Bool) := []
  /-- Step codes of Table 13-5 still to run; the first is running. -/
  steps : List Nat := []
  /-- Targets to bring ON. -/
  bring : List Nat := []
  /-- Targets already taken, with whether they came from RET (R452). -/
  took : List (Nat × Bool) := []
  /-- Domains that have arrived at ON, whose work starts when the sequence completes (R445). -/
  arrived : List Nat := []
  failed : Bool := false
  /-- Duration of the steps run so far in ns (PWR_WAKE_STATUS.TIME, Table 13-5). -/
  time : Nat := 0
  /-- The halls that leave wait for the departure of their last deliver trains (R444). -/
  lastTrain : Bool := false
  /-- The command's packet, whose reply waits. -/
  pkt : Option Pkt := none
  deriving DecidableEq, Repr

/-- The always-on domain (chapter 13). -/
structure Aon where
  dom : Vector DomState 10 := Vector.replicate 10 .off
  bank : Vector DomState 16 := Vector.replicate 16 .off
  wakeSet : Word := 0xCC000307#32
  wakeOnAddr : Bool := false
  auto : Bool := true
  wakeFail : Bool := false
  aonOnly : Bool := false
  wakeStep : Nat := 0
  wakeTime : Nat := 0
  retLost : Word := 0
  /-- RET_LOST waits for ATRIUM (R447). -/
  lostDue : Bool := false
  por : Bool := true
  pinReset : Bool := false
  stuck : Bool := false
  /-- RESETn is low now. -/
  held : Bool := false
  /-- Power-on reset holds (R435). -/
  porHold : Bool := true
  holdMs : Nat := 0
  vcoreCode : Nat := 16
  vcoreMoving : Bool := false
  /-- VCORE_SET commands whose reply waits for VCORE (R438). -/
  vcoreWait : List (Option Pkt) := []
  buckFreq : Nat := 100
  /-- FREQ, ILIM0 and ILIM1 as the bucks took them at their start (R436). -/
  freqUse : Nat := 100
  ilim0Use : Nat := 40
  ilim1Use : Nat := 40
  ilim0 : Nat := 40
  ilim1 : Nat := 40
  bk0Ok : Bool := false
  bk1Ok : Bool := false
  ilim0Now : Bool := false
  ilim1Now : Bool := false
  volts : Volts := {}
  /-- Supplies out of their window now (PWR_MON). -/
  vinUv : Bool := false
  vinOv : Bool := false
  vcoreBad : Bool := false
  v3p3Bad : Bool := false
  vddaBad : Bool := false
  seq : Option PowerSeq := none
  /-- A wake start came while a POWER_SET or DOMAIN_RESET was running: it follows that one (R449, log 90). -/
  wakeDue : Bool := false
  heldEvents : List HeldEvt := []
  /-- Fault-log records that wait for NVM, oldest first, at most 16 (R497). -/
  heldLog : List LogRec := []
  /-- Retention CRCs by target code (R446). -/
  retCrc : Table Word := []
  rcRuns : Bool := false
  straps : Straps := {}
  /-- The mailbox reply (R468), and the management port's pointer (R466, log 89). -/
  mailbox : List Byte := []
  ptr : Nat := 0
  deriving DecidableEq, Repr

/-- The time base, its compares, the PLLs and the SYNC pins (chapter 2). -/
structure TimeBase where
  ns : BitVec 64 := 0
  frac : Word := 0
  incr : BitVec 40 := 0x0200000000#40
  /-- Holding buffer of a CFG_WRITE of the lower word of TB_INCR (R59). -/
  incrLow : Word := 0
  /-- Words of TB_ADJ written so far by CFG_WRITE (R62). -/
  adjFrac : Word := 0
  adjLow : Word := 0
  latchNs : BitVec 64 := 0
  latchFrac : Word := 0
  tc : Vector Compare 16 := Vector.replicate 16 {}
  refRate : Nat := 0
  gross : Bool := false
  untrusted : Bool := false
  refLoss : Bool := false
  lUnlock : Bool := false
  tUnlock : Bool := false
  /-- The reference is back and the PLLs reacquire (R87). -/
  reacquire : Bool := false
  /-- Pending and active CLKOUT0, CLKOUT1, DSCLK0, DSCLK1 (R78). -/
  pllPend : Vector PllOut 4 := #v[⟨false, 160⟩, ⟨false, 160⟩, ⟨false, 125⟩, ⟨false, 125⟩]
  pllAct : Vector PllOut 4 := #v[⟨false, 160⟩, ⟨false, 160⟩, ⟨false, 125⟩, ⟨false, 125⟩]
  syncOut : Bool := false
  /-- The second boundary next due at SYNC_OUT (R65, R90). -/
  nextSecond : Nat := 0
  /-- End of the pulse in progress at SYNC_OUT. -/
  syncEnd : Nat := 0
  stampNs : BitVec 64 := 0
  stampFrac : Word := 0
  stampLatchNs : BitVec 64 := 0
  stampLatchFrac : Word := 0
  deriving DecidableEq, Repr

/-- An entry of the PTP receive ring (Table 02-5). -/
structure PtpRx where
  ns : BitVec 64 := 0
  frac : Word := 0
  src : NetAddr := {}
  payload : List Byte := []
  deriving DecidableEq, Repr

/-- A PTP transmit slot (Table 02-5). -/
structure PtpTx where
  go : Bool := false
  done : Bool := false
  length : Nat := 0
  dst : Word := 0
  port : BitVec 16 := 0
  ns : BitVec 64 := 0
  frac : Word := 0
  payload : List Byte := List.replicate 240 0
  deriving DecidableEq, Repr

/-- Host ports, queues and PTP (chapters 2 and 14). -/
structure HostPort where
  q : Vector Queue 64 := Vector.replicate 64 {}
  arrivals : Nat := 0
  /-- The packet the atrium sequencer is executing, whose reply is due. -/
  cur : Option Pkt := none
  /-- Items of the SPI reply stream, oldest first; an item begun by an earlier RS_READ keeps its rest. -/
  rs : List (List Byte) := []
  discard : Nat := 0
  rsDrop : Nat := 0
  crcErr : Nat := 0
  ovf : Nat := 0
  phyUp : Bool := false
  phySpeed : Nat := 0
  phyRelease : Bool := false
  ptpRx : Vector PtpRx 16 := Vector.replicate 16 {}
  ptpHead : Nat := 0
  ptpTail : Nat := 0
  /-- Entries the host owns: from RX_HEAD passing them until RX_TAIL does. -/
  ptpOwned : Nat := 0
  ptpDrop : Nat := 0
  ptpTx : Vector PtpTx 4 := Vector.replicate 4 {}
  ptpSrc : Nat := 0
  deriving DecidableEq, Repr

/-- Event pending bits and records (R481 to R485). -/
structure Events where
  slots : Vector EvtRec 256 := Vector.replicate 256 {}
  serial : Word := 0
  deriving DecidableEq, Repr

/-- A flight and its ring (chapter 3). -/
structure Flight where
  tg : Nat := 0
  /-- FLT_STATUS.BREAK_HOP, and whether a break has been declared. -/
  breakHop : Nat := 15
  declared : Bool := false
  /-- Hops at which breaks have been located; the ring is wrapped while there is one (R146). -/
  breaks : List Nat := []
  /-- The ring is served by segment trains that end at the breaks `routed`; each break of `due` shapes them from the first deliver
  departure at or after its instant on (R147). -/
  seg : Bool := false
  routed : List Nat := []
  due : List (Nat × Nat) := []
  eastUp : Bool := false
  westUp : Bool := false
  unwrapRef : Bool := false
  holding : Bool := false
  almErr : Nat := 0
  mRej : Nat := 0
  /-- Accepted loop sums in 2^-4 ns, newest first, at most 8: whole ring, east segment and west segment (R142). -/
  mWhole : List Nat := []
  mEast : List Nat := []
  mWest : List Nat := []
  /-- Route delay of this period's gather train of the whole ring, to which the PRB's is added (R142). -/
  ewDelay : Option Nat := none
  /-- Last T_G measured on each route in 2^-4 ns (R140). -/
  tgWhole : Option Nat := none
  tgEast : Option Nat := none
  tgWest : Option Nat := none
  /-- Last k of trains from the east and from the west port (R143, R148). -/
  kEast : Option Rat := none
  kWest : Option Rat := none
  /-- Positions that hold time until their direction is measured, and those RING_REROUTE waits for (R148). -/
  hold : List Nat := []
  reroute : Bool := false
  rerouteOf : List Nat := []
  /-- Positions to which the last deliver trains have carried a measured correction. -/
  carried : List Nat := []
  /-- Code errors counted at the east and at the west port's receiver (R99). -/
  codeErr : Nat × Nat := (0, 0)
  survBusy : Bool := false
  /-- A survey's next part (R145): 1 LOOP_ON, 2 PRB, 3 its return, 4 LOOP_OFF, or 0 outside a survey. -/
  survStep : Nat := 0
  survDone : Bool := false
  survSide : Bool := false
  survPos : Nat := 0
  survRes : Word := 0
  /-- Consecutive periods in which a gather train was lost (R146), and whether one was in this period. -/
  lostRun : Nat := 0
  lostNow : Bool := false
  /-- The landing at which an accepted UNWRAP takes effect (R149). -/
  unwrapAt : Option Nat := none
  /-- Gather train out from each end. -/
  outEast : Bool := false
  outWest : Bool := false
  /-- The flight's tread loops have run this period. -/
  loopsDone : Bool := false
  mapped : Bool := false
  mappedAt : Nat := 0
  /-- The string is to be mapped again, and the mapping under way is such a second one (R250). -/
  remap : Bool := false
  second : Bool := false
  missRun : Nat := 0
  /-- Lanes of a split flight to which the misses of the run in progress are attributed (R189). -/
  late : List Nat := []
  /-- The flight's frames carry REPEAT for the coming landing. -/
  rep : Bool := false
  split : Bool := false
  lowRun : Nat := 0
  highRun : Nat := 0
  /-- The lane whose work the flight is. -/
  lane : Nat := 0
  /-- The work has moved to another lane and has not completed there since (R181). -/
  moved : Bool := false
  /-- New context copies of its treads, current only after the departure (R179). -/
  newCtx : List (Nat × Ctx) := []
  /-- Bytes 0 to 35 of every frame of its last deliver trains (R339). -/
  heads : List Byte := []
  /-- Stamp of the last return of a deliver train at the west port (R141). -/
  back : Option Nat := none
  deriving DecidableEq, Repr

/-- The landing grid and the commit of staged values (chapter 5). -/
structure Grid where
  /-- L(n), L(n + 1) and Tc in use, in ns. -/
  now : Nat := 0
  next : Nat := 0
  tc : Nat := 20000
  /-- Last old-grid landing and the new Tc (R199). -/
  change : Option (Nat × Nat) := none
  seq : BitVec 16 := 0
  /-- Keep-alive trains sent in this period (R200). -/
  keepAlive : Nat := 0
  /-- Armed LOAD_ALL: its target and whether it has stair scope (R221). -/
  armed : Option (Nat × Bool) := none
  target : Nat := 0
  targetSeq : BitVec 16 := 0
  modStale : BitVec 64 := 0
  /-- Flights whose staged values wait for the landing they missed (R183). -/
  commitLate : BitVec 9 := 0
  /-- A LOAD_ALL's snapshot lands at the coming landing. -/
  snapDue : Bool := false
  deriving DecidableEq, Repr

/-- The capture engine (R194 to R197); its samples lie in banks G6 to G9. -/
structure Capture where
  cfg : Word := 0x00010003#32
  pre : Nat := 0
  chans : List (BitVec 16) := List.replicate 8 0
  armed : Bool := false
  triggered : Bool := false
  /-- A trigger has come, and an S(n) at or after it: the next frame recorded is the trigger's (R195). -/
  trigReq : Bool := false
  trigReady : Bool := false
  done : Bool := false
  tcChg : Bool := false
  trigTime : BitVec 64 := 0
  /-- Frames recorded in all, the frame of the trigger, frames since the trigger, and periods since the last. -/
  count : Nat := 0
  trigFrame : Nat := 0
  since : Nat := 0
  dec : Nat := 0
  deriving DecidableEq, Repr

/-- The atrium: its context, sequencer, lanes, injectors and capture. -/
structure Atrium where
  ctx : Ctx := {}
  /-- New context copy of the period, current after the departure (R179). -/
  newCtx : Option Ctx := none
  /-- The atrium context and the treads' as they stood at S(n): values of period n - 1 (R158). -/
  old : Ctx := {}
  /-- Host values of points 395 to 397 in force (R205, R507). -/
  hostArm : Vector (Option F32) 3 := Vector.replicate 3 none
  /-- SIGNAL_WRITE values that act from the next S(n). -/
  writes : List (Nat × F32) := []
  /-- TB_NS of the tick of the last S(n). -/
  sampled : Option Nat := none
  started : Bool := false
  done : Bool := false
  startAt : Nat := 0
  doneAt : Nat := 0
  missed : Bool := false
  /-- AL1 or AL0 took the work over, and it has not completed since (R181). -/
  moved : Bool := false
  lanes : Vector Lane 2 := Vector.replicate 2 {}
  laneSkip : Nat := 0
  slackRun : Nat := 100
  halted : Bool := false
  /-- Instants of the last halt and the last release (R230). -/
  haltAt : Nat := 0
  releaseAt : Nat := 0
  err : Bool := false
  inj : Vector Injector 8 := Vector.replicate 8 {}
  cap : Capture := {}
  gpioPulse : BitVec 16 := 0
  /-- Ends of the compare pulses in progress. -/
  gpioEnd : Vector Nat 16 := Vector.replicate 16 0
  gpioIn : BitVec 16 := 0
  /-- Status and lowest failing address of the last CFG_COMMIT (R522). -/
  cfgResult : Status := .ok
  cfgAddr : Nat := 0xFFFFFF
  journalNext : Nat := 0
  deriving DecidableEq, Repr

/-- A conversion asked for and not complete: its entry as its run was triggered (R302), its sample instant (R303), and what
its result word will say of the run (R307). -/
structure Conv where
  ent : Word
  req : Nat
  late : Bool := false
  /-- A later trigger asked for the same entry again. -/
  old : Bool := false
  /-- The unit that sampled it, where its role has been taken over since (R319). -/
  unit : Option Nat := none
  /-- Where that unit has sampled it, the instant. -/
  at_ : Option Nat := none
  deriving DecidableEq, Repr

/-- A result word (R307) with its read flags. -/
structure ResWord where
  value : BitVec 16 := 0
  seq : Nat := 0
  clip : Bool := false
  late : Bool := false
  settle : Bool := false
  test : Bool := false
  any : Bool := false
  read : Bool := false
  /-- A run has been triggered and its result is not complete. -/
  wait : Bool := false
  /-- Conversions for this word that have neither completed nor been dropped, oldest first. -/
  convs : List Conv := []
  overrun : Bool := false
  raised : Bool := false
  deriving DecidableEq, Repr

/-- An ADC sequence (R302, R303). -/
structure AdcSeq where
  cfg : Word := 0
  ent : Vector Word 16 := Vector.replicate 16 0
  time : BitVec 64 := 0
  res : Vector ResWord 16 := Vector.replicate 16 {}
  /-- The tick, as the whole of TB_NS and TB_FRAC, at which a compare last started it (R74). -/
  byCompare : Option Nat := none
  deriving DecidableEq, Repr

/-- A sinc3 filter's running state (R300, R301). -/
structure Dsd where
  /-- Outputs since the last restart, up to 3. -/
  outputs : Nat := 3
  /-- When it last began to settle. -/
  since : Nat := 0
  last : Option (BitVec 16 × Bool) := none
  deriving DecidableEq, Repr

/-- A step of a background calibration round (R319). -/
inductive CalStep where
  | selfCal | overlap | takeover
  deriving DecidableEq, Repr

/-- A running round: the roles left, the step, whether the overlap is repeated, and whether the next takeover
marks the retired unit as failed (R321). -/
structure CalRound where
  roles : List Nat
  step : CalStep := .selfCal
  again : Bool := false
  suspect : Bool := false
  late : Bool := false
  deriving DecidableEq, Repr

/-- A channel of system calibration: MEAS_CAL_STATUS[15:0]. -/
structure CalRun where
  full : Bool
  chan : BitVec 16
  x : F32
  sum : Rat := 0
  n : Nat := 0
  clip : Bool := false
  deriving DecidableEq, Repr

/-- Measurement (chapter 8). -/
structure Meas where
  seq : Vector AdcSeq 16 := Vector.replicate 16 {}
  /-- When each slice is free to sample again (R297). -/
  sliceFree : Vector Nat 8 := Vector.replicate 8 0
  dsd : Vector Dsd 8 := Vector.replicate 8 {}
  priv : Word := 0x80640800#32
  /-- Unit serving S0 to S7 and, last, SS. -/
  role : Vector Nat 9 := #v[0, 1, 2, 3, 4, 5, 6, 7, 8]
  failed : BitVec 9 := 0
  served : BitVec 9 := 0xFF#9
  /-- The role each unit served until its last takeover (R320). -/
  lastRole : Vector Nat 9 := #v[0, 1, 2, 3, 4, 5, 6, 7, 8]
  unitGain : Vector Rat 9 := Vector.replicate 9 1
  unitOfs : Vector Rat 9 := Vector.replicate 9 0
  rotOff : Bool := false
  ssFault : Bool := false
  ovlErr : Nat := 0
  drop : Nat := 0
  rotLate : Nat := 0
  round : Option CalRound := none
  calBusy : Bool := false
  calResult : Status := .ok
  calChan : BitVec 16 := 0
  cal : Option CalRun := none
  /-- Z and X_ZERO of the last CAL_ZERO with RESULT OK. -/
  calZero : Option (BitVec 16 × Rat × F32) := none
  tdac : Word := 0
  tdacRun : Bool := false
  /-- When the running check began; and the setting of the last one that ended, with when it began and ended (R329). -/
  tdacFrom : Nat := 0
  tdacPast : Option (Word × Nat × Nat) := none
  tdacDone : Bool := false
  tdacFail : Bool := false
  tdacOpen : Bool := false
  tdacStall : Bool := false
  tdacDiff : BitVec 16 := 0
  deriving DecidableEq, Repr

/-- The state of one test-pulse source's window (R397, R398). -/
structure TestWindow where
  open_ : Bool := false
  low : Bool := false
  /-- The TPO read low inside the window. -/
  readLow : Bool := false
  /-- Channel levels of the last sample before the window, AND and OR of those inside it. -/
  before : Byte := 0
  allOne : Byte := 0xFF
  anyZero : Byte := 0
  /-- Channels that read 0 in the window after reading 1 before it: judged by the sample after it. -/
  cross : Byte := 0
  judge : Bool := false
  /-- Instant of the falling edge, and whether a sample has fallen into the window. -/
  at_ : Nat := 0
  any : Bool := false
  /-- Windows in a row without a failed check, by pair (Table 11-1, TEST). -/
  good : Vector Nat 4 := Vector.replicate 4 0
  deriving DecidableEq, Repr

/-- Safety (chapter 11). -/
structure Safe where
  confirmed : Bool := false
  conf : Word := 0
  cause : BitVec 17 := 0x11#17
  /-- Instant of the entry of the safe stack block in force. -/
  ssbAt : Nat := 0
  /-- Instant of an entry whose departure has not yet landed: its block goes out and lands whether or not a RELEASE has been
  accepted since (R389, R403). -/
  ssbDue : Option Nat := none
  /-- Instant at which a standby received its active's decision of the block in force (R361). -/
  ssbGot : Nat := 0
  /-- The 64 words of the parameter block. -/
  block : Vector Word 64 :=
    (Vector.replicate 64 (0 : Word)).set 0 1 |>.set 1 0x000A031E#32
      |>.set 2 0x98000014#32 |>.set 3 0x98000014#32 |>.set 4 0x98000014#32 |>.set 5 0x98000014#32
  fbIn : Bool := false
  sinRaw : Byte := 0
  discRun : BitVec 4 := 0
  demand : BitVec 4 := 0
  testFail : BitVec 4 := 0
  discLatch : BitVec 4 := 0
  /-- Consecutive samples: at safe level per channel, differing and both at run level per pair. -/
  safeRun : Vector Nat 8 := Vector.replicate 8 0
  diffRun : Vector Nat 4 := Vector.replicate 4 0
  runRun : Vector Nat 4 := Vector.replicate 4 0
  /-- Pairs seen with both channels at safe level in one sample since their discrepancy latched. -/
  seenSafe : BitVec 4 := 0
  fbDiffer : Nat := 0
  fbLow : Nat := 0
  /-- The test windows of TPO0 and TPO1. -/
  win : Vector TestWindow 2 := Vector.replicate 2 {}
  /-- FB_T runs: SAFE_FBn has not yet read high since the release (R392). -/
  fbWait : Bool := false
  /-- No CRC cause is set, or a new confirmation has been accepted since (Table 11-1, CRC). -/
  crcOk : Bool := true
  deriving DecidableEq, Repr

/-- Thermal supervision (chapter 12). -/
structure Therm where
  sens : Vector SensorState 8 := Vector.replicate 8 {}
  tstate : Nat := 0
  graceAt : Nat := 0
  warn : Bool := false
  warnArmed : Bool := true
  shut : Bool := false
  hkLate : Bool := false
  /-- TB_NS of the last housekeeping round, and the supply readings it published (R417, R439). -/
  hkLast : Option Nat := none
  hkVolts : Volts := {}
  ceil : F32 := 0
  pSum : F32 := 0
  pCount : Nat := 0
  pMean : F32 := 0
  /-- THROTTLE_REQ of a standby has been raised for the condition that holds (R430). -/
  standbyReq : Bool := false
  /-- RS of TH0 to TH3 in Ω as measured with RS_AUTO (R414). -/
  rs : Vector F32 4 := Vector.replicate 4 0
  /-- Newest die conversions in 1/32 °C (R413). -/
  die : Vector Reading 4 := Vector.replicate 4 .none
  deriving DecidableEq, Repr

/-- A heartbeat path (R345, R346). -/
structure Path where
  /-- 0 never up, 1 up, 2 lost. -/
  state : Nat := 0
  run : Nat := 0
  deriving DecidableEq, Repr

/-- A Pair-class command on its way to its apply instant (R337). -/
structure Fwd where
  queue : Fin 64
  seq : Word
  op : Byte
  words : List Word
  at_ : Nat
  pkt : Option Pkt := none
  /-- At a standby, the tag and the CRC of the packet it came in, whose record the queue keeps (R473). -/
  note : Option (BitVec 16 × Word) := none
  deriving DecidableEq, Repr

/-- Twin operation (chapter 9). -/
structure Twin where
  /-- TWIN_STATUS.STATE. -/
  state : Nat := 0
  strapErr : Bool := false
  linkUp : Bool := false
  hb1 : Path := {}
  hb2 : Path := {}
  partnerActive : Bool := false
  partnerHalt : Bool := false
  partnerInStep : Bool := false
  /-- What REJOIN compares of the partner, as its last report had it (R362). -/
  partnerInfo : Option DeviceInfo := none
  stepMap : BitVec 10 := 0
  diverge : Nat := 0
  divTimes : List Nat := []
  takeovers : Nat := 0
  epoch : BitVec 16 := 0
  tofs : Option Int := none
  tofsBad : Nat := 0
  /-- The ring ports transmit LDN (R350, R355). -/
  ldn : Bool := false
  /-- No train leaves any more: a demoted or superseded active (R350, R352). -/
  mute : Bool := false
  /-- A superseded active still sends the trains before its next deliver departure (R352). -/
  leaving : Bool := false
  /-- HBT stopped by an emergency hand-over (R353). -/
  hbtOff : Bool := false
  stepAtLoss : Bool := false
  fwd : List Fwd := []
  /-- The active's cell decisions that a standby holds, with whether a report has shown their FAULT bit since (R349). -/
  decisions : List (Decision × Bool) := []
  /-- L_sw of a planned handover, and whether a deliver departure has made it already (R351). -/
  lsw : Option Nat := none
  handed : Bool := false
  /-- Units of the partner's state that are out of step (R340). -/
  partnerNeed : BitVec 10 := 0
  /-- The partner's SU port is up, as its last report as a standby had it (R384). -/
  partnerSu : Bool := false
  /-- A state transfer to the partner runs, and how many of its units have been sent (R362). -/
  transfer : Bool := false
  units : Nat := 0
  partnerReleasable : Bool := false
  /-- The active's SAFE requests for the segment this standby sends, by flight, with the instant they came (R358). -/
  segs : List (Nat × Nat × List (Fin 63 × Fin 4)) := []
  /-- Atrium points of the active's measurement word for this period (R336). -/
  measure : Option (List (Nat × F32)) := none
  hbOut : Bool := false
  deriving DecidableEq, Repr

/-- A stair-scope LOAD_ALL that waits for its acknowledgements (R376). -/
structure AnnWait where
  /-- Positions whose ANN_ACK has come, those that accept, and those with stale cells. -/
  acked : BitVec 16
  accept : BitVec 16
  stale : BitVec 16
  pkt : Option Pkt
  /-- The landing reference and MOD_STALE of the reply. -/
  words : List Word
  deriving DecidableEq, Repr

/-- A SIGNAL_READ that waits for remote points (R380). -/
structure SigWait where
  pts : List Nat
  vals : List (Nat × F32)
  pkt : Option Pkt
  deriving DecidableEq, Repr

/-- Stairwell (chapter 10). -/
structure Stair where
  promote : Bool := false
  sync : Bool := false
  newelLost : Bool := false
  holdExp : Bool := false
  newelBack : Bool := false
  posErr : Bool := false
  upUp : Bool := false
  downUp : Bool := false
  shareStale : Bool := false
  /-- Shares the newel sends, as its last BEACON named them (Table 10-2). -/
  shareMask : Byte := 0
  crcErr : Nat := 0
  theta : Option Int := none
  good : Nat := 0
  bad : Nat := 0
  present : BitVec 16 := 1
  halls : BitVec 16 := 0
  t1 : Option Int := none
  /-- The SHAREs that came last, each with the landing that closes its period (R377). -/
  shares : List ShareMsg := []
  /-- Commands that wait, oldest first. -/
  anns : List AnnWait := []
  sigs : List SigWait := []
  newelTc : Option Nat := none
  /-- The Tc that the last announced change leaves: a BEACON on its way from before the change names it (R373). -/
  leftTc : Option Nat := none
  /-- The content of the active's BEACON, which the standby of a newel pair sends (R383). -/
  fwdBeacon : Option BeaconMsg := none
  count : Nat := 1
  /-- Remote telemetry values by source, tag and point. -/
  telem : List (Nat × Nat × Nat × F32) := []
  /-- Telemetry this position sends to others. -/
  telemOut : List TelemOut := []
  /-- Port and HOPS by which each originator's frames have come (R366). -/
  heard : List (Nat × StairVia × Byte) := []
  deriving DecidableEq, Repr

/-- A parameter set as NVM holds it (R495). -/
structure ParamSet where
  gen : Nat
  regs : Table Word
  images : List (List Byte)
  deriving DecidableEq, Repr

/-- The data of an NVM record (R491). -/
inductive NvmData where
  | param (copyB : Bool) (p : ParamSet)
  | calib (g o : F32)
  | safety (block : Vector Word 64) (check : Word)
  | wearSummary (damage : List Nat) (dT : List (List F32)) (turns : List (List F32))
  | wearHist (hists : List (Table Nat))
  | log (boot : Nat) (r : LogRec)
  deriving DecidableEq, Repr

/-- An NVM record and its marker (Table 14-11). -/
structure NvmRec where
  serial : Nat
  type : Byte
  key : Nat
  copy : Bool := false
  sector : Nat := 0
  data : NvmData
  /-- The 16 bytes of its marker as programmed (Table 14-11). -/
  marker : List Byte := []
  deriving DecidableEq, Repr

/-- What waits for a record's commit. -/
inductive NvmThen where
  | none
  | store
  | confirm (pkt : Option Pkt)
  | calDone
  | journal
  deriving DecidableEq, Repr

/-- A record being written: pages before the marker, then the marker. -/
structure NvmJob where
  record : NvmRec
  pages : Nat
  retried : Bool := false
  after : NvmThen := .none
  /-- Its first page has been programmed. -/
  started : Bool := false
  /-- Its record is wanted no more: the running page program is its last (R408). -/
  dropped : Bool := false
  deriving DecidableEq, Repr

/-- The non-volatile memory and its work (R490 to R497). -/
structure Nvm where
  recs : List NvmRec := []
  serial : Nat := 0
  boot : Nat := 0
  jobs : List NvmJob := []
  /-- A page program runs for the first job. -/
  busy : Bool := false
  /-- A sector whose erase runs, and sectors to erase again before use (R432). -/
  erasing : Option Nat := none
  eraseAgain : List Nat := []
  /-- Sectors whose erase is due, in order: of the other parameter copy or of a ring. -/
  eraseQ : List Nat := []
  /-- Pages programmed so far in the record area, the wear journal and the fault log: the head of each ring. -/
  heads : Vector Nat 3 := Vector.replicate 3 0
  eraseRetried : Bool := false
  spare : Nat := 128
  eraseCounts : Table Nat := []
  spareLow : Bool := false
  lost : Nat := 0
  /-- No new operation starts: die shutdown or VIN_UV (R431, R440). -/
  stop : Bool := false
  /-- A die shutdown turns NVM OFF once it is ON and a page program in progress has completed (R432); from the decision on AON holds the
  fault-log records (R433). -/
  offDue : Bool := false
  roundLeft : Bool := false
  deriving DecidableEq, Repr

/-- A telemetry stream's running state (R486 to R488). -/
structure Stream where
  en : Bool := false
  /-- Enables and disables with their landings, oldest first (R487). -/
  changes : List (Bool × Nat) := []
  drop : Nat := 0
  fser : Word := 0
  dec : Nat := 0
  /-- Frames that wait to be sent, oldest first: the tagged landing, SEQ of its deliver train, its points and their values; a remote
  value has none yet. -/
  due : List (Nat × BitVec 16 × List (Nat × Option F32)) := []
  deriving DecidableEq, Repr

/-- The whole device. -/
structure State where
  /-- The commands that wait, first in, first out. -/
  pending : List Instr := []
  /-- The reply of the last opcode executed. -/
  reply : Option Reply := none
  out : List Out := []
  /-- The model's own counter behind the free values (log 3). -/
  freeCtr : Nat := 0
  aon : Aon := {}
  /-- Active and pending values of the configuration fields held by address; unlisted is the reset value or, in
  `pend`, no pending value (R518, R521). -/
  cfg : Table Word := []
  pend : Table Word := []
  tb : TimeBase := {}
  events : Events := {}
  host : HostPort := {}
  treads : Vector Ctx 63 := Vector.replicate 63 {}
  cells : Vector Cell 63 := Vector.replicate 63 {}
  flights : Vector Flight 9 := Vector.replicate 9 {}
  halls : Vector HallS 3 := Vector.replicate 3 {}
  grid : Grid := {}
  atr : Atrium := {}
  /-- The treads' contexts as they stood at S(n) (R158). -/
  treadsOld : Vector Ctx 63 := Vector.replicate 63 {}
  meas : Meas := {}
  safe : Safe := {}
  therm : Therm := {}
  twin : Twin := {}
  stair : Stair := {}
  nvm : Nvm := {}
  streams : Vector Stream 8 := Vector.replicate 8 {}
  /-- The addressed bytes of the Gallery, by offset in the window of 0x200000; unlisted reads 0 (log 7). -/
  mem : List Host.Cell := []
  deriving DecidableEq, Repr

/-- The machine right after power-on reset (R435): every domain and bank OFF, AON registers at their reset values. -/
def State.reset : State := {}

end Sys2Proof.Machine
end

