-- ==== Sys2Proof/Machine/Util.lean ====
section
/-! DEFINITION. Bit fields, sparse tables, arrays by index, little-endian bytes (R9) and the three CRCs
(R108, R109, R407): the plain operations the meanings share. -/

namespace Sys2Proof.Machine

open Sys2Proof

/-- Field [lo + n - 1 : lo] of a word as a number. -/
def fld (w : Word) (lo n : Nat) : Nat := w.toNat / 2 ^ lo % 2 ^ n

/-- Bit `i` of a word. -/
def bit (w : Word) (i : Nat) : Bool := w.getLsbD i

/-- A word put together of fields (low bit, width, value); a value too wide is cut. -/
def pack (l : List (Nat × Nat × Nat)) : Word :=
  BitVec.ofNat 32 (l.foldl (fun a f => a + f.2.2 % 2 ^ f.2.1 * 2 ^ f.1) 0)

def b2n (b : Bool) : Nat := if b then 1 else 0

/-- The word with only bit `i` set where `b` holds. -/
def bitAt (b : Bool) (i : Nat) : Word := if b then BitVec.ofNat 32 (2 ^ i) else 0

/-- Word `i` of a list, 0 beyond its end. -/
def wd (l : List Word) (i : Nat) : Word := l.getD i 0

/-- The masked part of `v` over the rest of `old`. -/
def merge (m old v : Word) : Word := (old &&& ~~~m) ||| (v &&& m)

/-- Saturating increment of a counter. -/
def satInc (max n : Nat) : Nat := if n < max then n + 1 else max

/-- A signed field of a word: [lo + n - 1 : lo] in two's complement. -/
def sfld (w : Word) (lo n : Nat) : Int := (BitVec.ofNat n (fld w lo n)).toInt

def lowW (v : BitVec 64) : Word := v.setWidth 32
def highW (v : BitVec 64) : Word := (v >>> 32).setWidth 32
def dw (lo hi : Word) : BitVec 64 := hi ++ lo

/-- Least multiple of `m` that is at least `t`. -/
def gridUp (m t : Nat) : Nat := (t + m - 1) / m * m

/-- The low 40 bits of an instant (R57). -/
def low40 (t : Nat) : Nat := t % 2 ^ 40

/-- Entry `i` of an array, `d` outside it. -/
def vget {α : Type} {n : Nat} (v : Vector α n) (i : Nat) (d : α) : α := (v[i]?).getD d

/-- Entry `i` replaced by its image; the array unchanged where it has no such entry. -/
def vmod {α : Type} {n : Nat} (v : Vector α n) (i : Nat) (f : α → α) : Vector α n :=
  if h : i < n then v.set i (f v[i]) else v

def vset {α : Type} {n : Nat} (v : Vector α n) (i : Nat) (x : α) : Vector α n := vmod v i fun _ => x

/-- Entry `k` of a sparse table. -/
def tget {α : Type} (t : Table α) (k : Nat) : Option α :=
  match t with
  | [] => none
  | (a, v) :: r => if a = k then some v else if k < a then none else tget r k

/-- Entry `k` set; the keys stay rising. -/
def tset {α : Type} (t : Table α) (k : Nat) (x : α) : Table α :=
  match t with
  | [] => [(k, x)]
  | (a, v) :: r => if k < a then (k, x) :: (a, v) :: r else if a = k then (k, x) :: r else (a, v) :: tset r k x

/-- Entry `k` removed. -/
def tdel {α : Type} (t : Table α) (k : Nat) : Table α := t.filter fun e => e.1 != k

/-- Bytes of a value, least-significant first (R9). -/
def leBytes (n v : Nat) : List Byte :=
  match n with
  | 0 => []
  | n + 1 => BitVec.ofNat 8 v :: leBytes n (v / 256)

/-- The value of bytes sent least-significant first (R9). -/
def ofBytes (l : List Byte) : Nat :=
  match l with
  | [] => 0
  | b :: r => b.toNat + 256 * ofBytes r

def wordBytes (l : List Word) : List Byte := l.flatMap fun w => leBytes 4 w.toNat

/-- The 32-bit words of a run of bytes, the last filled up with zeros. -/
def bytesWords (l : List Byte) : List Word :=
  (List.range ((l.length + 3) / 4)).map fun i => BitVec.ofNat 32 (ofBytes ((l.drop (4 * i)).take 4))

/-- `n` bytes of a run from offset `o`, zeros beyond its end. -/
def bytesAt (l : List Byte) (o n : Nat) : List Byte := (List.range n).map fun i => l.getD (o + i) 0

/-- Little-endian field of a run of bytes. -/
def fieldAt (l : List Byte) (o n : Nat) : Nat := ofBytes (bytesAt l o n)

/-- The bytes of `l` with those of `v` written over them from offset `o`. -/
def overlay (l : List Byte) (o : Nat) (v : List Byte) : List Byte :=
  (List.range l.length).map fun i => if o ≤ i ∧ i < o + v.length then v.getD (i - o) 0 else l.getD i 0

/-- One byte through a reflected 32-bit CRC. -/
def crcByte (poly : Word) (c : Word) (b : Byte) : Word :=
  (List.range 8).foldl (fun c _ => if c.getLsbD 0 then (c >>> 1) ^^^ poly else c >>> 1) (c ^^^ b.setWidth 32)

/-- CRC-32C (R109). -/
def crc32c (l : List Byte) : Word := ~~~ l.foldl (crcByte 0x82F63B78#32) 0xFFFFFFFF#32

/-- CRC-32 of IEEE 802.3 (R407, R446). -/
def crc32 (l : List Byte) : Word := ~~~ l.foldl (crcByte 0xEDB88320#32) 0xFFFFFFFF#32

/-- CRC-16 (R108). -/
def crc16 (l : List Byte) : BitVec 16 :=
  l.foldl (fun c b =>
    (List.range 8).foldl (fun c _ => if c.getLsbD 15 then (c <<< 1) ^^^ 0x1021#16 else c <<< 1)
      (c ^^^ ((b.setWidth 16 : BitVec 16) <<< (8 : Nat)))) 0xFFFF#16

/-- The byte at an address of the Gallery; an address not listed reads 0 (log 7). -/
def memRead (m : List Host.Cell) (a : Nat) : Byte :=
  match m with
  | [] => 0
  | (b, v) :: r => if b = a then v else memRead r a

/-- A byte written; a written 0 leaves the address unlisted, so that equal memories are equal lists. -/
def memWrite (m : List Host.Cell) (a : Nat) (x : Byte) : List Host.Cell :=
  match m with
  | [] => if x = 0 then [] else [(a, x)]
  | (b, v) :: r =>
    if a < b then (if x = 0 then (b, v) :: r else (a, x) :: (b, v) :: r)
    else if b = a then (if x = 0 then r else (a, x) :: r)
    else (b, v) :: memWrite r a x

/-- Bytes written from an address up. -/
def memWrites (m : List Host.Cell) (a : Nat) (l : List Byte) : List Host.Cell :=
  match l with
  | [] => m
  | b :: r => memWrites (memWrite m a b) (a + 1) r

def memBytes (m : List Host.Cell) (a n : Nat) : List Byte := (List.range n).map fun i => memRead m (a + i)

/-- Every byte from `a` to `b` - 1 made 0. -/
def memClear (m : List Host.Cell) (a b : Nat) : List Host.Cell :=
  m.filter fun c => !(decide (a ≤ c.1) && decide (c.1 < b))

/-- The canonical form: addresses strictly rising and no entry with the value an unlisted address reads as. -/
abbrev Memory.wf (m : List Host.Cell) : Prop :=
  (m.map (·.1)).Pairwise (· < ·) ∧ ∀ c ∈ m, c.2 ≠ 0

/-- Positions of the set bits among the low `n` of a number, ascending. -/
def setBits (n v : Nat) : List Nat := (List.range n).filter fun i => v.testBit i

/-- Apply `f` for each element, from the left. -/
def each {α σ : Type} (l : List α) (f : α → σ → σ) (s : σ) : σ := l.foldl (fun s x => f x s) s

end Sys2Proof.Machine
end

