-- ==== Sys2Proof/Machine/RegMap.lean ====
section
/-! DEFINITION. The configuration address map (Tables 15-8 and 15-9): the domain an address lies in, and for
each register its committed and direct read-write bits (R518) and its reset value. Status and write-one-to-clear
bits are no part of these masks; Machine/RegView.lean reads them from the fields that hold them. -/

namespace Sys2Proof.Machine

open Sys2Proof

/-- What must be ON for an address to be reached. -/
inductive Owner where
  | aon | dom (d : Dom) | bank (g : Nat)
  deriving DecidableEq, Repr

/-- A register: its owner, its committed and direct read-write bits and their reset value. -/
structure RegDef where
  owner : Owner
  committed : Word := 0
  direct : Word := 0
  reset : Word := 0
  deriving DecidableEq, Repr

/-- The hall domain of hall `h`. -/
def hallDom (h : Nat) : Dom := if h = 0 then .hallA else if h = 1 then .hallB else .hallC

/-- Context `n` has base 0x100000 + n × 0x1000 (R525). -/
def ctxBase (n : Nat) : Nat := 0x100000 + n * 0x1000

/-- The domain of a context (R508, Table 15-8). -/
def ctxDom (n : Nat) : Dom := if n = 63 then .atrium else hallDom (n / 21)

def fltBase (f : Nat) : Nat := 0x140000 + f * 0x1000
def hallBase (h : Nat) : Nat := 0x150000 + h * 0x1000

/-- The owner of an address of Table 15-8; none outside the map (R523). -/
def ownerOf (a : Nat) : Option Owner :=
  if a < 0x200 then some (.dom .atrium)
  else if a < 0x300 then some .aon
  else if a < 0x400 then none
  else if a < 0x840 then some (.dom .atrium)
  else if a < 0x10000 then none
  else if a < 0x20000 then some (.dom .timebase)
  else if a < 0x30000 then some (.dom .analog)
  else if a < 0x40000 then some (.dom .safety)
  else if a < 0x50000 then some (.dom .atrium)
  else if a < 0x50200 then some (.dom .atrium)
  else if a < 0x60000 then none
  else if a < 0x64000 then
    some (.dom (if a < 0x60020 ∨ (0x60030 ≤ a ∧ a < 0x60038) ∨ (0x60100 ≤ a ∧ a < 0x60200) ∨ 0x61000 ≤ a
      then .net else .atrium))
  else if a < 0x6A020 then some (.dom .atrium)
  else if a < 0x70000 then none
  else if a < 0x80000 then some (.dom .nvm)
  else if a < 0x100000 then none
  else if a < 0x140000 then some (.dom (ctxDom ((a - 0x100000) / 0x1000)))
  else if a < 0x149000 then
    let f := (a - 0x140000) / 0x1000
    let o := a % 0x1000
    some (.dom (if o = 0 ∨ (0x100 ≤ o ∧ o < 0x120) then .atrium else hallDom (f / 3)))
  else if a < 0x150000 then none
  else if a < 0x153000 then
    let h := (a - 0x150000) / 0x1000
    let o := a % 0x1000
    some (.dom (if 0x20 ≤ o ∧ o < 0x30 then hallDom h else .atrium))
  else if a < 0x200000 then none
  else if a < 0x600000 then some (.bank ((a - 0x200000) / 0x40000))
  else none

/-- A register without read-write bits of this map: status, write-one-to-clear, write-only, or held in a field
of its own. -/
def roDef (o : Owner) : Option RegDef := some { owner := o }
def cmDef (o : Owner) (m r : Word) : Option RegDef := some { owner := o, committed := m, reset := r }
def drDef (o : Owner) (m r : Word) : Option RegDef := some { owner := o, direct := m, reset := r }

/-- Registers 0x000000 to 0x00083F but for the power block. -/
def lowDef (a : Nat) : Option RegDef :=
  let t := Owner.dom .atrium
  if a < 0x10 then roDef t
  else if a = 0x40 then cmDef t 0x103#32 0x2#32                 -- SYS_TOPO
  else if a = 0x80 then cmDef t 0x100FF#32 0x1000A#32           -- LANE_CTRL
  else if a = 0x88 ∨ a = 0x8C ∨ a = 0x90 then roDef t           -- ALANE_STATUSm, LANE_SKIP
  else if a = 0x100 then drDef t 0x101#32 0x1#32                -- MOD_CTRL
  else if a = 0x104 then cmDef t 0x1FFFF#32 2000#32             -- MOD_TC
  else if a = 0x108 then cmDef t 0xFFFFFFFF#32 0x0A2801F4#32    -- MOD_TIMING 2 600, 500
  else if a = 0x10C then cmDef t 0x0FFF00FF#32 0x02020002#32    -- MOD_LOAD
  else if a = 0x110 ∨ a = 0x114 ∨ a = 0x118 ∨ a = 0x11C then roDef t   -- MOD_STALE, MOD_LAND
  else if a = 0x140 then cmDef t 0x83FF03FF#32 0x00470046#32    -- BAL_ZS 71, 70
  else if a = 0x180 then cmDef t 0x0FFFFFFF#32 0x02326252#32    -- GRD_REACT
  else if a = 0x184 ∨ a = 0x188 ∨ a = 0x18C then cmDef t 0xFFFF#32 500#32
  else if a = 0x190 then cmDef t 0xFFFF#32 1000#32              -- GRD_RETRY
  else if 0x400 ≤ a ∧ a < 0x600 then
    let o := a % 0x40
    if o = 0 ∨ (8 ≤ o ∧ o < 0x20) then roDef t else none        -- injectors, held in fields
  else if 0x600 ≤ a ∧ a < 0x638 then
    if a = 0x600 ∨ a = 0x604 ∨ a = 0x608 ∨ (0x610 ≤ a ∧ a < 0x638) then roDef t else none
  else if a = 0x700 then cmDef t 0xFFFFFFFF#32 0x3F4CCCCD#32    -- WEAR_WARN 0.8
  else if a = 0x704 then cmDef t 0xFFFFFFFF#32 0x40000000#32    -- WEAR_DT_W 2.0
  else if a = 0x708 then cmDef t 0xFFFFFFFF#32 0x41200000#32    -- WEAR_TM_W 10.0
  else if a = 0x70C then cmDef t 0xFFFFFFFF#32 0#32             -- WEAR_TM_BASE
  else if a = 0x710 then cmDef t 0xFFFFFFFF#32 0x3F800000#32    -- WEAR_DT_MIN 1.0
  else if a = 0x714 then cmDef t 0xFFFFFFFF#32 0x3F000000#32    -- WEAR_GATE 0.5
  else if 0x800 ≤ a ∧ a < 0x840 then drDef t 0x107#32 0#32      -- SYS_GPIOi
  else none

/-- Power registers (chapter 13), held in AON fields. -/
def aonDef (a : Nat) : Option RegDef :=
  if a = 0x200 ∨ a = 0x208 ∨ a = 0x210 ∨ a = 0x214 ∨ a = 0x218 ∨ a = 0x220 ∨ a = 0x224 ∨ a = 0x228 ∨ a = 0x22C
    ∨ a = 0x230 then roDef .aon else none

/-- Time base and PLL registers (chapter 2). -/
def tbDef (a : Nat) : Option RegDef :=
  let t := Owner.dom .timebase
  if a = 0x10000 ∨ a = 0x10004 ∨ a = 0x10008 ∨ a = 0x10010 ∨ a = 0x10014 ∨ a = 0x10018 ∨ a = 0x1001C ∨ a = 0x10020
    then roDef t
  else if a = 0x10030 then cmDef t 0xE007FFFF#32 0x400186A0#32   -- TB_SYNC_CFG: GATE 1, OUT_W 100 000
  else if a = 0x10038 ∨ a = 0x1003C ∨ a = 0x10040 then roDef t   -- TB_SYNC_STAMP
  else if a = 0x10100 ∨ a = 0x10108 ∨ (0x10110 ≤ a ∧ a < 0x10120) then roDef t
  else if a = 0x10104 then cmDef t 0x1FFFF#32 10#32              -- PLL_HOLD
  else if 0x10200 ≤ a ∧ a < 0x10300 then roDef t                 -- compares
  else none

/-- Measurement registers (chapter 8). -/
def anaDef (a : Nat) : Option RegDef :=
  let t := Owner.dom .analog
  if a < 0x20800 then
    let o := a % 0x80
    if o = 0 ∨ o = 8 ∨ o = 0xC ∨ (0x10 ≤ o ∧ o < 0x50) then roDef t else none
  else if 0x21000 ≤ a ∧ a < 0x21400 then roDef t                 -- ADC_RESn_e
  else if a = 0x22000 ∨ a = 0x22008 ∨ a = 0x2200C ∨ a = 0x22010 ∨ a = 0x22020 ∨ a = 0x22030 ∨ a = 0x22034
    then roDef t
  else if a = 0x22040 then cmDef t 0x807F7F00#32 0#32            -- MEAS_XFORM
  else if 0x22100 ≤ a ∧ a < 0x22120 then cmDef t 0x800007FF#32 128#32   -- MEAS_DSDd
  else if 0x23000 ≤ a ∧ a < 0x23400 then
    let o := a % 0x10
    if o = 0 then cmDef t 0xE0FFFF7F#32 0#32                     -- MEAS_MAPm
    else if o = 0xC then cmDef t 0xFFFFFFFF#32 0#32
    else cmDef t 0xFFFFFFFF#32 0x3F800000#32
  else none

/-- Safety registers (chapter 11); the parameter block is held in its own field and written by SAFE_PARAM. -/
def safDef (a : Nat) : Option RegDef :=
  let t := Owner.dom .safety
  if a < 0x30100 then roDef t
  else if a ≤ 0x30110 then roDef t else none

/-- Reset limits of Table 12-3 in 1/32 °C: throttle and warn, then hysteresis and shutdown. -/
def dieLim0 : Word := if Config.gradeIX then pack [(16, 16, 4000), (0, 16, 3680)] else pack [(16, 16, 4800), (0, 16, 4480)]
def dieLim1 : Word := if Config.gradeIX then pack [(24, 8, 15), (0, 16, 4480)] else pack [(24, 8, 15), (0, 16, 5280)]
def pinLim0 : Word := pack [(16, 16, 3520), (0, 16, 3200)]
def pinLim1 : Word := pack [(24, 8, 5)]

/-- Thermal registers (chapter 12). -/
def thmDef (a : Nat) : Option RegDef :=
  let t := Owner.dom .atrium
  let all := 0xFFFFFFFF#32
  if a = 0x40000 then cmDef t 0xFFFFFF#32 0x05190A#32
  else if a = 0x40004 then cmDef t 0xFFF#32 500#32
  else if a = 0x40008 then cmDef t all 0#32
  else if a = 0x4000C then cmDef t all 0x42C80000#32             -- THM_RAMP 100.0
  else if a = 0x40010 ∨ a = 0x40014 ∨ a = 0x40018 then cmDef t all 0#32
  else if a = 0x40020 then cmDef t all dieLim0
  else if a = 0x40024 then cmDef t 0xFF00FFFF#32 dieLim1
  else if 0x40040 ≤ a ∧ a < 0x400C0 then
    let o := a % 0x20
    if o = 0 then cmDef t all pinLim0
    else if o = 4 then cmDef t 0xFF000000#32 pinLim1
    else if o = 8 then cmDef t 0x1FF03#32 0x10000#32             -- THM_THi_CFG: RS_AUTO 1
    else if o = 0xC then cmDef t all 0x3F810625#32               -- P0 1.008
    else if o = 0x10 ∨ o = 0x14 then cmDef t all 0#32
    else none
  else if a = 0x400C0 then roDef t                               -- THM_STATUS
  else if 0x40100 ≤ a ∧ a < 0x40120 then
    if a % 8 = 0 then cmDef t all pinLim0 else cmDef t 0xFF000000#32 pinLim1
  else none

/-- Twin and stairwell registers (chapters 9 and 10). -/
def twinDef (a : Nat) : Option RegDef :=
  let t := Owner.dom .atrium
  if a = 0x50000 then cmDef t 0x4000003F#32 0x40000008#32        -- TWIN_CTRL
  else if a = 0x50004 ∨ a = 0x50008 ∨ a = 0x50010 then roDef t
  else if a = 0x5000C then cmDef t 0xFFFF#32 0#32                -- TWIN_ASYM
  else if a = 0x50100 then cmDef t 0x1F#32 1#32                  -- STAIR_CTRL.COUNT
  else if a = 0x50104 ∨ a = 0x5010C ∨ a = 0x50110 then roDef t
  else if a = 0x50108 then cmDef t 0xFFFF#32 0#32                -- STAIR_ASYM
  else if 0x50120 ≤ a ∧ a < 0x50140 then cmDef t 0x800003FF#32 0#32   -- STAIR_SHAREi
  else none

/-- The reset address 169.254.99.(100 + p), plus 16 in role W (Table 14-13). -/
def netIpReset (x : Straps) : Word :=
  BitVec.ofNat 32 (0xA9FE6300 + 100 + x.pos.val + (if x.role = 2 then 16 else 0))

/-- EVT_ROUTE reset: HIRQ0 for events 0 to 63, 160 to 163 and 192. -/
def routeReset (e : Nat) : Word := if e < 64 ∨ (160 ≤ e ∧ e < 164) ∨ e = 192 then 1 else 0

/-- Host, PTP, stream and event registers (chapters 2 and 14). -/
def hostDef (x : Straps) (a : Nat) : Option RegDef :=
  let t := Owner.dom .atrium
  let n := Owner.dom .net
  let all := 0xFFFFFFFF#32
  if a = 0x60000 then cmDef n 0x9F00FFFF#32 47401#32             -- HOST_NET_CFG
  else if a = 0x60004 then drDef n all (netIpReset x)
  else if a = 0x60008 ∨ a = 0x6000C then drDef n all 0#32
  else if a = 0x60010 ∨ a = 0x60014 then roDef n                 -- HOST_NET_MAC
  else if a = 0x60018 then drDef n all 0#32                      -- HOST_NET_EVT_IP
  else if a = 0x6001C then drDef n 0xFFFF#32 47402#32            -- HOST_NET_EVT_PORT
  else if a = 0x60020 then drDef t 0x80000003#32 0#32            -- HOST_SPI_CFG
  else if a = 0x60024 ∨ a = 0x60028 then roDef t
  else if a = 0x60030 then drDef n all 0#32
  else if a = 0x60034 then drDef n 0xFFFF#32 0#32                -- HOST_NET_EVT_MAC
  else if a = 0x60100 then drDef n 3#32 0#32                     -- HOST_PTP_CTRL
  else if a = 0x60104 then roDef n
  else if a = 0x60108 ∨ a = 0x6010C then drDef n all 0#32
  else if 0x60200 ≤ a ∧ a < 0x60300 then cmDef t 0x7F#32 16#32   -- HOST_QCFGn
  else if 0x60300 ≤ a ∧ a < 0x60500 then roDef t                 -- HOST_QSEQn, HOST_QSTATn
  else if 0x61000 ≤ a ∧ a < 0x62000 then roDef n                 -- HOST_PTP_RXn
  else if 0x62000 ≤ a ∧ a < 0x62800 then
    if a % 0x200 < 0x108 then roDef n else none                  -- HOST_PTP_TXn
  else if 0x64000 ≤ a ∧ a < 0x68000 then
    let o := a % 0x800
    if o = 0 then drDef t 0x81FFFFFF#32 0#32
    else if o = 4 then drDef t all 0#32
    else if o = 8 then drDef t 0xFFFF#32 0#32
    else if o = 0xC then roDef t
    else if o = 0x10 then drDef t all 0#32
    else if o = 0x14 then drDef t 0xFFFF#32 0#32
    else if 0x400 ≤ o then drDef t 0xFFFFF#32 0#32
    else none
  else if 0x68000 ≤ a ∧ a < 0x68400 then drDef t 0xFF#32 (routeReset ((a - 0x68000) / 4))
  else if 0x69000 ≤ a ∧ a < 0x6A000 then roDef t
  else if 0x6A000 ≤ a ∧ a < 0x6A020 then roDef t
  else none

/-- NVM registers (Table 14-13). -/
def nvmDef (a : Nat) : Option RegDef :=
  let t := Owner.dom .nvm
  if a = 0x70000 ∨ a = 0x70004 then roDef t
  else if a = 0x70008 then drDef t 0xFFFFFFFF#32 0#32
  else none

/-- Registers of a context (Table 15-9). The channel coefficients have no stated reset value; they take those of
MEAS_MAPm, 1.0, 1.0 and 0.0 (log 8). -/
def ctxDef (n o : Nat) : Option RegDef :=
  let t := Owner.dom (ctxDom n)
  let all := 0xFFFFFFFF#32
  let tread := n < 63
  if 0x400 ≤ o ∧ o < (if tread then 0x700 else 0xC00) then
    let q := o % 0x80
    if q < 0x3C ∨ (0x50 ≤ q ∧ q < 0x78) then roDef t else none   -- loop slots, held in fields
  else if 0xC00 ≤ o ∧ o < (if tread then 0xC20 else 0xC80) then
    if o % 0x10 = 0 then cmDef t 0xFFFF#32 0xFFFF#32 else none   -- GROUP_CFG
  else if !tread then none
  else if o = 0x100 then cmDef t 0x23#32 1#32                    -- SAFE_CFG
  else if 0x200 ≤ o ∧ o < 0x224 then roDef t                     -- STG_
  else if o = 0x300 ∨ o = 0x304 ∨ o = 0x340 ∨ o = 0x360 then roDef t
  else if 0x380 ≤ o ∧ o < 0x3C0 then
    let q := o % 0x10
    if q = 8 then cmDef t all 0#32 else if q < 8 then cmDef t all 0x3F800000#32 else none
  else if 0x800 ≤ o ∧ o < 0x980 then
    let q := o % 0x80
    if q < 0x18 then cmDef t all 0#32
    else if q < 0x28 then cmDef t all 0x3F800000#32
    else if q = 0x28 then cmDef t all 0x49742400#32              -- A 1.0 × 10^6
    else if q = 0x2C then cmDef t all 0x40A00000#32              -- ALPHA 5.0
    else if q = 0x30 then cmDef t all 0x3F000000#32              -- EA 0.5
    else if q = 0x34 then cmDef t all 0x3F800000#32              -- N_RATIO 1.0
    else if q = 0x38 then cmDef t 3#32 (BitVec.ofNat 32 ((o - 0x800) / 0x80))   -- TREF
    else if q = 0x40 ∨ q = 0x44 then roDef t
    else none
  else none

/-- Registers of a flight (chapters 1 and 3). -/
def fltDef (f o : Nat) : Option RegDef :=
  let t := Owner.dom (hallDom (f / 3))
  if o = 0 then cmDef (.dom .atrium) 7#32 0#32                   -- FLT_CFG.CT_COUNT
  else if o = 4 then cmDef t 0xFF#32 5#32                        -- FLT_CTRL.TERR_LIMIT
  else if o = 0x10 then cmDef t 0x107#32 0#32                    -- FLT_SURVEY.SIDE and POS
  else if o = 8 ∨ o = 0xC ∨ o = 0x14 then roDef t
  else if 0x100 ≤ o ∧ o < 0x120 then cmDef (.dom .atrium) 0xFFFFFFFF#32 0#32   -- FLT_HOPi
  else none

/-- Registers of a hall (chapters 1, 4 to 7). -/
def hallDef (h o : Nat) : Option RegDef :=
  let t := Owner.dom .atrium
  let all := 0xFFFFFFFF#32
  if o = 0 then cmDef t 0x3F00#32 0#32                           -- HALL_CELLS.N_REQ
  else if o = 4 then drDef t 0xF03#32 0#32                       -- HALL_MOD
  else if o = 8 then drDef t all 0x0F424000#32                   -- HALL_CARRIER
  else if o = 0xC then drDef t all 0x009C4000#32                 -- HALL_DAB
  else if o = 0x10 then drDef t all 0#32                         -- HALL_TONOFF
  else if 0x20 ≤ o ∧ o < 0x30 then roDef (.dom (hallDom h))      -- HALL_LANE_STATUSi
  else if o = 0x30 ∨ o = 0x34 then cmDef t all 0#32
  else if o = 0x38 then cmDef t all 0x3B03126F#32                -- HALL_SORT_HYST 0.002
  else if o = 0x3C ∨ o = 0x40 then cmDef t all 0#32
  else if o = 0x44 then cmDef t all 0x44FA0000#32                -- HALL_VCELL_MAX 2 000.0
  else if o = 0x48 then cmDef t all 0#32
  else if o = 0x4C then cmDef t 0xFFFF#32 0xFC11#32              -- HALL_ISRC
  else if o = 0x50 then cmDef t 0xFFFF3FFF#32 0x11F407D0#32      -- HALL_BOOT 1, 500, 2 000
  else if o = 0x54 then cmDef t 0xFFFF#32 200#32                 -- HALL_REBAL
  else if o = 0x58 then cmDef t all 0x140A01F4#32                -- HALL_RESTORE 20, 10, 500
  else if o = 0x5C then cmDef t 0x0FFFFFFF#32 0x0346003C#32      -- HALL_GUARD 3, 70, 60
  else if o = 0x60 then cmDef t all 0#32                         -- HALL_VDC_OV
  else none

/-- The register at an address, none in a gap, outside the map, in the Gallery window or off a word boundary. -/
def regDef (x : Straps) (a : Nat) : Option RegDef :=
  if a % 4 ≠ 0 then none
  else if 0x200 ≤ a ∧ a < 0x300 then aonDef a
  else if a < 0x840 then lowDef a
  else if 0x10000 ≤ a ∧ a < 0x20000 then tbDef a
  else if 0x20000 ≤ a ∧ a < 0x30000 then anaDef a
  else if 0x30000 ≤ a ∧ a < 0x40000 then safDef a
  else if 0x40000 ≤ a ∧ a < 0x50000 then thmDef a
  else if 0x50000 ≤ a ∧ a < 0x50200 then twinDef a
  else if 0x60000 ≤ a ∧ a < 0x6A020 then hostDef x a
  else if 0x70000 ≤ a ∧ a < 0x80000 then nvmDef a
  else if 0x100000 ≤ a ∧ a < 0x140000 then ctxDef ((a - 0x100000) / 0x1000) (a % 0x1000)
  else if 0x140000 ≤ a ∧ a < 0x149000 then fltDef ((a - 0x140000) / 0x1000) (a % 0x1000)
  else if 0x150000 ≤ a ∧ a < 0x153000 then hallDef ((a - 0x150000) / 0x1000) (a % 0x1000)
  else none

/-- The reset value of the stored bits of a register. -/
def resetWord (x : Straps) (a : Nat) : Word := ((regDef x a).map (·.reset)).getD 0

/-- The active value of the stored bits of the register at `a`. -/
def State.reg (s : State) (a : Nat) : Word := (tget s.cfg a).getD (resetWord s.aon.straps a)

/-- The value `a` would have after a commit (R522). -/
def State.regNext (s : State) (a : Nat) : Word := (tget s.pend a).getD (s.reg a)

/-- The stored bits set at once. -/
def State.setReg (s : State) (a : Nat) (v : Word) : State := { s with cfg := tset s.cfg a v }

/-- A pending value recorded (R521). -/
def State.setPend (s : State) (a : Nat) (v : Word) : State := { s with pend := tset s.pend a v }

end Sys2Proof.Machine
end

