-- ==== Sys2Proof/Machine/Ops.lean ====
section
/-! DEFINITION. The operations every meaning shares: domains, the time base, events and their records, the reply
stream, replies, fault-log records and the non-volatile memory's queue of work, and the output balls that follow
from the state. -/

namespace Sys2Proof.Machine

open Sys2Proof

/-- The outcome every command of this block has. -/
abbrev Res := Host.Outcome State Fault Refusal

/-! Identity (R503, SYS_ID). -/

/-- SYS_ID. -/
def sysId : Word := pack [(16, 16, 0x6363), (8, 8, 0xB0), (0, 8, if Config.gradeIX then 2 else 1)]

/-- The firmware revision of IDENTIFY. -/
def firmware : Word := 0x0301#32

/-! Domains (chapter 13). -/

/-- The code of a domain (chapter 13). -/
def domCode (d : Dom) : Nat :=
  match d with
  | .timebase => 0 | .atrium => 1 | .safety => 2 | .links => 3 | .hallA => 4
  | .hallB => 5 | .hallC => 6 | .analog => 7 | .net => 8 | .nvm => 9

/-- The domain of a code 0 to 9. -/
def domOf (n : Nat) : Dom :=
  match n with
  | 0 => .timebase | 1 => .atrium | 2 => .safety | 3 => .links | 4 => .hallA
  | 5 => .hallB | 6 => .hallC | 7 => .analog | 8 => .net | _ => .nvm

/-- The state code of PWR_STATE. -/
def stCode (x : DomState) : Nat :=
  match x with
  | .off => 0 | .ret => 1 | .on => 2 | .trans => 3

def State.domSt (s : State) (d : Dom) : DomState := vget s.aon.dom (domCode d) .off
def State.bankSt (s : State) (g : Nat) : DomState := vget s.aon.bank g .off
def State.isOn (s : State) (d : Dom) : Bool := s.domSt d == .on
def State.bankOn (s : State) (g : Nat) : Bool := s.bankSt g == .on
def State.hallOn (s : State) (h : Nat) : Bool := s.isOn (hallDom h)
def State.anyHallOn (s : State) : Bool := s.hallOn 0 || s.hallOn 1 || s.hallOn 2
def State.fltOn (s : State) (f : Nat) : Bool := s.hallOn (f / 3)
def State.ctxOn (s : State) (n : Nat) : Bool := s.isOn (ctxDom n)

/-- The owner of an address is ON. -/
def State.ownerOn (s : State) (o : Owner) : Bool :=
  match o with
  | .aon => true
  | .dom d => s.isOn d
  | .bank g => s.bankOn g

/-- A logic domain is ON or in transition, so AON keeps its RC oscillator running (R448). -/
def State.anyDomUp (s : State) : Bool := s.aon.dom.toList.any fun x => x == .on || x == .trans

/-! Indexed parts. -/

def State.cell (s : State) (k : Nat) : Cell := vget s.cells k {}
def State.setCell (s : State) (k : Nat) (f : Cell → Cell) : State := { s with cells := vmod s.cells k f }
def State.flight (s : State) (f : Nat) : Flight := vget s.flights f {}
def State.setFlight (s : State) (f : Nat) (g : Flight → Flight) : State := { s with flights := vmod s.flights f g }
def State.hall (s : State) (h : Nat) : HallS := vget s.halls h {}
def State.setHall (s : State) (h : Nat) (g : HallS → HallS) : State := { s with halls := vmod s.halls h g }
def State.tread (s : State) (k : Nat) : Ctx := vget s.treads k {}

/-- Context `n`: a tread, or the atrium for 63 (R6). -/
def State.ctx (s : State) (n : Nat) : Ctx := if n = 63 then s.atr.ctx else s.tread n
/-- A host write to a context: it stands in the current copy and in a new one that waits for its departure (R179). -/
def State.setCtx (s : State) (n : Nat) (g : Ctx → Ctx) : State :=
  if n = 63 then { s with atr := { s.atr with ctx := g s.atr.ctx, newCtx := s.atr.newCtx.map g } }
  else
    let new := fun (l : List (Nat × Ctx)) => l.map fun x => if x.1 = n then (x.1, g x.2) else x
    { s with treads := vmod s.treads n g, flights := vmod s.flights (n / 7) fun f => { f with newCtx := new f.newCtx } }
def Ctx.slot (c : Ctx) (i : Nat) : Slot := vget c.slots i {}
def Ctx.setSlot (c : Ctx) (i : Nat) (g : Slot → Slot) : Ctx := { c with slots := vmod c.slots i g }
def Ctx.group (c : Ctx) (i : Nat) : Group := vget c.groups i {}
def Ctx.setGroup (c : Ctx) (i : Nat) (g : Group → Group) : Ctx := { c with groups := vmod c.groups i g }

/-! Time base (R53, R54). -/

/-- TB as one count of 2^-32 ns. -/
def State.tbAll (s : State) : Nat := s.tb.ns.toNat * 2 ^ 32 + s.tb.frac.toNat

/-- TB_NS as a number. -/
def State.now (s : State) : Nat := s.tb.ns.toNat

/-- TB moved on by `d` counts of 2^-32 ns; TB_NS wraps at 64 bits. -/
def State.addTb (s : State) (d : Nat) : State :=
  let t := s.tbAll + d
  { s with tb := { s.tb with ns := BitVec.ofNat 64 (t / 2 ^ 32), frac := BitVec.ofNat 32 t } }

/-- One tick of 2 ns nominal (R54). TB counts only while TIMEBASE is ON. -/
def tick (s : State) : State := if s.isOn .timebase then s.addTb s.tb.incr.toNat else s

/-- The ticks run until TB_NS has reached `t`: the fire tick of `t` (R56). -/
def advanceTo (t : Nat) (s : State) : State :=
  let i := s.tb.incr.toNat
  let goal := t * 2 ^ 32
  if s.isOn .timebase && decide (s.tbAll < goal) && decide (0 < i) then
    s.addTb ((goal - s.tbAll + i - 1) / i * i)
  else s

/-- The device acts as newel, by position or by PROMOTE (STAIR_STATUS.NEWEL). -/
def State.newel (s : State) : Bool := s.aon.straps.pos == 0 || s.stair.promote

/-- A standby of a pair: in step, not in step or rejoining (TWIN_STATUS.STATE). -/
def State.standby (s : State) : Bool := decide (2 ≤ s.twin.state)

/-- The firmware servo owns the time base: a stairwell follower or a twin standby (R61). -/
def State.servoOwns (s : State) : Bool := !s.newel || s.standby

/-! Free values (log 3). -/

/-- A fresh open word. -/
def freeWord (s : State) : Word × State := (Config.freeWord s.freeCtr, { s with freeCtr := s.freeCtr + 1 })

/-- A fresh open number. -/
def freeNat (s : State) : Nat × State := (Config.freeNat s.freeCtr, { s with freeCtr := s.freeCtr + 1 })

/-! Transmission. -/

def emit (o : Out) (s : State) : State := { s with out := o :: s.out }

/-- Bytes the SPI reply stream holds (R461). -/
def State.rsBytes (s : State) : Nat := (s.host.rs.map List.length).sum

/-- An item for the reply stream; one that finds no room is dropped and counted (R461). -/
def rsPush (item : List Byte) (s : State) : State :=
  if s.rsBytes + item.length ≤ 65536 then { s with host := { s.host with rs := s.host.rs ++ [item] } }
  else { s with host := { s.host with rsDrop := satInc 255 s.host.rsDrop } }

/-- Bytes with their CRC-32C trailer (R469). -/
def withCrc (l : List Byte) : List Byte := l ++ leBytes 4 (crc32c l).toNat

/-! Events (R481 to R485). -/

/-- Events whose data word is ORed with the stored one (Table 14-8). -/
def evtOrs (e : Nat) : Bool := e ∈ [166, 187, 188, 191, 192, 197, 213]

/-- Events AON holds while ATRIUM is not ON (R484). -/
def evtHeld (e : Nat) : Bool := e ∈ [166, 167, 168, 206, 207, 208, 209, 224]

def State.route (s : State) (e : Nat) : Word := s.reg (0x68000 + 4 * e)
def State.evt (s : State) (e : Nat) : EvtRec := vget s.events.slots e {}

/-- The event record of Table 14-7. -/
def evtRecord (e : Nat) (serial : Word) (time : Nat) (data : Word) (count : Nat) : List Byte :=
  withCrc (leBytes 2 0x6D63 ++ [0xF0#8, 0#8] ++ leBytes 2 e ++ leBytes 2 2 ++ leBytes 4 serial.toNat
    ++ leBytes 4 time ++ leBytes 4 data.toNat ++ leBytes 4 (count % 256))

/-- The destination of event records. -/
def State.evtDest (s : State) : NetAddr :=
  { ip := s.reg 0x60018, port := (s.reg 0x6001C).setWidth 16
    mac := BitVec.ofNat 48 ((s.reg 0x60030).toNat + (s.reg 0x60034).toNat * 2 ^ 32) }

/-- The record of one raise, sent on each route that is enabled (R482). -/
def sendRecord (e : Nat) (data : Word) (s : State) : State :=
  let item := evtRecord e s.events.serial s.now data (s.evt e).count
  let s := { s with events := { s.events with serial := s.events.serial + 1 } }
  let s := if bit (s.reg 0x60020) 31 then rsPush item s else s
  if s.isOn .net && s.reg 0x60018 != 0 then emit (.datagram s.evtDest item) s else s

/-! Triggers of the capture engine (R195). -/

def capTrig (cfg : Word) : Nat := fld cfg 2 2
def capSrc (cfg : Word) : Nat := fld cfg 8 8

def setCap (f : Capture → Capture) (s : State) : State := { s with atr := { s.atr with cap := f s.atr.cap } }

/-- The present tick is that of the last S(n): what starts now starts with its sample (R191, R195). -/
def State.atSample (s : State) : Bool := s.atr.sampled == some s.now

/-- A trigger of the capture engine: the first frame recorded whose S(n) is at or after now is the trigger (R195). -/
def capTrigger (s : State) : State :=
  let c := s.atr.cap
  let at_ := s.atSample
  if c.armed && !c.triggered && !c.trigReq then setCap (fun c => { c with trigReq := true, trigReady := at_ }) s else s

/-- A capture that waits for event `e`. -/
def capEvent (e : Nat) (s : State) : State :=
  if capTrig s.atr.cap.cfg = 2 ∧ capSrc s.atr.cap.cfg = e then capTrigger s else s

/-- Raise event `e` with a data word (R481, R482, R484). -/
def raise (e : Nat) (data : Word) (s : State) : State :=
  if s.isOn .atrium then
    let s := { s with events := { s.events with slots := vmod s.events.slots e fun r =>
      { pend := true, count := satInc 255 r.count, time := s.tb.ns
        data := if evtOrs e then r.data ||| data else data } } }
    let s := capEvent e s
    if bit (s.route e) 2 then sendRecord e data s else s
  else if evtHeld e then { s with aon := { s.aon with heldEvents := s.aon.heldEvents ++ [{ num := e, data := data }] } }
  else s

/-- The events pending (EVT_PEND). -/
def State.pendWord (s : State) (i : Nat) : Word :=
  BitVec.ofNat 32 (((List.range 32).map fun b => if (s.evt (32 * i + b)).pend then 2 ^ b else 0).sum)

/-- The pending bit, COUNT, TIME and DATA of event `e` cleared (R483). -/
def clearEvt (e : Nat) (s : State) : State := { s with events := { s.events with slots := vset s.events.slots e {} } }

/-! Replies. -/

/-- The status byte of Table 14-6. -/
def statusCode (x : Status) : Nat :=
  match x with
  | .ok => 0x00 | .accepted => 0x01 | .busy => 0x02 | .badCrc => 0x10 | .badLength => 0x11 | .badOpcode => 0x12
  | .badQueue => 0x13 | .badParam => 0x14 | .range => 0x15 | .state => 0x20 | .domainOff => 0x21 | .locked => 0x22
  | .stale => 0x30 | .late => 0x31 | .nvmFail => 0x40 | .nvmBusy => 0x41 | .internal => 0xFF

/-- The place of a status in the order of R479; a lower one is carried first. -/
def statusRank (x : Status) : Nat :=
  match x with
  | .internal => 1 | .badOpcode => 2 | .badLength => 3 | .domainOff => 4 | .locked => 5 | .badParam => 6
  | .range => 7 | .state => 8 | .nvmBusy => 9 | .nvmFail => 10 | .stale => 11 | .late => 12
  | .badCrc => 0 | .badQueue => 0 | .busy => 8 | .accepted => 13 | .ok => 14

/-- The status carried of two that apply (R479). -/
def firstStatus (x y : Status) : Status := if statusRank y < statusRank x then y else x

def reply (st : Status) (ws : List Word) (s : State) : State := { s with reply := some { status := st, words := ws } }
def refuse (st : Status) (s : State) : State := reply st [] s

/-- The largest reply payload in words of the transport the packet in hand came by (R463). -/
def State.replyLimit (s : State) : Nat :=
  match s.host.cur with
  | some p => if p.transport == .eth && !bit (s.reg 0x60000) 31 then 362 else 1020
  | none => 1020

/-- The landing reference of Table 15-1. -/
def landRef (t : Nat) (seq : BitVec 16) (flag : Bool) : List Word :=
  [BitVec.ofNat 32 t, pack [(24, 1, b2n flag), (8, 16, seq.toNat), (0, 8, t / 2 ^ 32)]]

/-- A host command of the atrium sequencer: its payload length is checked first, then that ATRIUM is ON (R479, R499). -/
def command (lenOk : Bool) (body : State → State) (s : State) : State :=
  if !lenOk then refuse .badLength s else if !s.isOn .atrium then refuse .domainOff s else body s

/-! Non-volatile memory (R491 to R497). -/

/-- Precedence of NVM work (R494). -/
def nvmRank (t : Byte) : Nat := if t = 0x01 then 1 else if t = 0x10 ∨ t = 0x11 then 2 else 0

/-! Rings (Table 14-10). A sector has 16 pages of 256 bytes. -/

/-- The ring of a record type: the record area, the wear journal or the fault log; none for a parameter set. -/
def ringOf (type : Byte) : Option Nat :=
  if type = 0x02 ∨ type = 0x03 then some 0
  else if type = 0x10 ∨ type = 0x11 then some 1
  else if type = 0x01 then none
  else some 2

def ringBase (r : Nat) : Nat := if r = 0 then 120 else if r = 1 then 192 else 320
def ringLen (r : Nat) : Nat := if r = 0 then 72 else if r = 1 then 128 else 64

/-- Sector of the page at which a ring's head stands. -/
def headSector (r : Nat) (v : Nvm) : Nat := ringBase r + vget v.heads r 0 / 16 % ringLen r

/-- A record is the newest of its TYPE and KEY. -/
def isNewest (v : Nvm) (r : NvmRec) : Bool :=
  v.recs.all fun x => !(x.type == r.type && x.key == r.key) || decide (x.serial ≤ r.serial)

/-- A PERM set record that no clear follows (R294, R492). -/
def permStands (v : Nvm) (r : NvmRec) : Bool :=
  r.type == 0x21 && v.recs.all fun x => !(x.type == 0x22 && x.key == r.key) || decide (x.serial ≤ r.serial)

/-- Data pages of a record. -/
def pagesOf (d : NvmData) : Nat :=
  match d with
  | .param _ _ => Config.paramPages
  | .safety _ _ => 2
  | .wearSummary _ _ _ => 5
  | .wearHist _ => 24
  | _ => 1

/-- The first of the 60 sectors of the copy that a parameter set is written to (Table 14-10). -/
def paramBase (j : NvmJob) : Nat :=
  match j.record.data with
  | .param true _ => 60
  | _ => 0

/-- The sector of a job's next page: of a ring its head's, of a parameter set the one that this page of it falls into. -/
def jobSector (j : NvmJob) (v : Nvm) : Nat :=
  match ringOf j.record.type with
  | some r => headSector r v
  | none => paramBase j + min 59 ((pagesOf j.record.data - j.pages) / 16)

/-- The record has a copy outside its own sector (R492). -/
def Nvm.copied (v : Nvm) (c : NvmRec) : Bool :=
  v.recs.any fun y => y.serial == c.serial && y.type == c.type && y.sector != c.sector

/-- What sector `x` of a ring holds that must be rewritten at the ring's head before it is erased: records still the newest of
their TYPE and KEY, and PERM sets no clear follows, unless a copy of them stands elsewhere already (R492). -/
def Nvm.mustKeep (v : Nvm) (x : Nat) : List NvmRec :=
  if x < 120 then [] else v.recs.filter fun c => c.sector == x && (isNewest v c || permStands v c) && !v.copied c

/-- The sector of ring `r` is its head's or one of the five after it, which are erased before the ring's next page (R492). -/
def Nvm.near (v : Nvm) (r x : Nat) : Bool :=
  decide (ringBase r ≤ x) && decide (x < ringBase r + ringLen r)
    && decide ((x - ringBase r + ringLen r - vget v.heads r 0 / 16 % ringLen r) % ringLen r ≤ 5)

/-- The erase of sector `x` goes before job `j`: it makes room ahead of the head of the job's ring, or in the copy that the parameter
set is written to (R432, R492). -/
def Nvm.goesFirst (v : Nvm) (j : NvmJob) (x : Nat) : Bool :=
  match ringOf j.record.type with
  | some r => v.near r x
  | none => decide (paramBase j ≤ x) && decide (x < paramBase j + 60)

/-- The erase that goes before the job that comes next by its precedence (R494); with no work waiting, the next one due. The copies an
erase makes are records of that job's ring, so no record of a higher precedence waits for them. -/
def Nvm.nextErase (v : Nvm) : Option Nat :=
  match v.jobs.head? with
  | some j => v.eraseQ.find? (v.goesFirst j)
  | none => v.eraseQ.head?

/-- The job is the copy of record `c`. -/
def NvmJob.copies (j : NvmJob) (c : NvmRec) : Bool :=
  j.record.copy && j.record.serial == c.serial && j.record.type == c.type

/-- The erase of sector `x` starts, after the copies of what it must keep: the first page of those is programmed now. -/
def Nvm.beginErase (v : Nvm) (x : Nat) : Nvm :=
  let keep := v.mustKeep x
  if keep.isEmpty then { v with erasing := some x, eraseQ := v.eraseQ.erase x }
  else
    let new := (keep.filter fun c => !v.jobs.any (·.copies c)).reverse
    let all := v.jobs ++ new.map fun c => { record := { c with copy := true }, pages := pagesOf c.data }
    let mine := fun (j : NvmJob) => keep.any j.copies
    { v with busy := true, jobs := all.filter mine ++ all.filter fun j => !mine j }

/-- The next page program or erase starts where work waits, nothing runs and new operations are allowed (R431, R440, R492,
R494). -/
def nvmStart (s : State) : State :=
  let v := s.nvm
  if v.busy || v.erasing.isSome || v.stop || !s.isOn .nvm then s
  else
    let pick := fun n => v.jobs.filter fun j => nvmRank j.record.type == n
    let v := { v with jobs := pick 0 ++ pick 1 ++ pick 2 }
    match v.nextErase with
    | some x => { s with nvm := v.beginErase x }
    | none => if v.jobs.isEmpty then s else { s with nvm := { v with busy := true } }

/-- A record queued to be written, with the next serial of the device (R491). -/
def nvmWrite (type : Byte) (key : Nat) (data : NvmData) (after : NvmThen) (s : State) : State :=
  let n := (s.nvm.serial + 1) % 2 ^ 32
  let j : NvmJob := { record := { serial := n, type := type, key := key, data := data }, pages := pagesOf data, after := after }
  nvmStart { s with nvm := { s.nvm with serial := n, jobs := s.nvm.jobs ++ [j] } }

/-- A fault-log record (R497): written when NVM is ON, else held in AON, at most 16. From a die shutdown's decision on, which turns
NVM OFF, it is held (R433). -/
def logRecord (e : Nat) (kind : Byte) (key : BitVec 16) (data cause : Word) (s : State) : State :=
  let r : LogRec := { time := s.tb.ns, event := e, kind := kind, key := key, data := data, cause := cause }
  if s.isOn .nvm && !s.nvm.offDue then
    nvmWrite kind (if kind = 0x20 then 0 else key.toNat) (.log s.nvm.boot r) .none s
  else if s.aon.heldLog.length < 16 then { s with aon := { s.aon with heldLog := s.aon.heldLog ++ [r] } }
  else raise 223 1 { s with nvm := { s.nvm with lost := satInc 65535 s.nvm.lost } }

/-! Output balls (R333, R389, R453, R482). -/

/-- SAFE_BLKn is at its safe level: SAFETY not ON, a cause set, or RESETn held (R389, R391). -/
def State.ssb (s : State) : Bool := s.safe.cause != 0

/-- SAFE_BLKn drives high only while SAFETY is ON and the stack is released. -/
def State.safeBlkHigh (s : State) : Bool := s.isOn .safety && !s.ssb && !s.aon.held

/-- A monitored supply is outside its window (Table 13-1). -/
def State.supplyBad (s : State) : Bool :=
  s.aon.vinUv || s.aon.vinOv || s.aon.vcoreBad || s.aon.v3p3Bad || s.aon.vddaBad

/-- FAULTn is low (R453): from power-on on until AON releases it (R542). -/
def State.faultLow (s : State) : Bool :=
  s.aon.porHold || s.aon.aonOnly || (s.aon.wakeFail && !s.isOn .atrium) || s.aon.held || s.supplyBad || s.atr.err

/-- HIRQ line 0 or 1 is low: a pending event is routed to it, or the reply stream holds an item (R461, R482). -/
def State.hirqLow (s : State) (n : Nat) : Bool :=
  s.isOn .atrium &&
    ((List.range 256).any (fun e => (s.evt e).pend && bit (s.route e) n)
      || (!s.host.rs.isEmpty && fld (s.reg 0x60020) 0 2 == n + 1))

/-- ACTIVE is high while the device is the active of a pair (R332). -/
def State.activeHigh (s : State) : Bool := s.isOn .atrium && s.twin.state == 1

def State.gpioFunc (s : State) (i : Nat) : Nat := fld (s.reg (0x800 + 4 * i)) 0 3

/-- The level a GPIO drives, none in an input function (R75, R482, R526). -/
def State.gpioOut (s : State) (i : Nat) : Option Bool :=
  if !s.isOn .atrium then none
  else match s.gpioFunc i with
    | 1 => some (bit (s.reg (0x800 + 4 * i)) 8)
    | 2 => some ((List.range 256).any fun e =>
        (s.evt e).pend && bit (s.route e) 3 && fld (s.route e) 4 4 == i)
    | 4 => some (s.atr.gpioPulse.getLsbD i)
    | 5 => some s.activeHigh
    | _ => none

/-- The level at the ball of a GPIO. -/
def State.gpioLevel (s : State) (i : Nat) : Bool := (s.gpioOut i).getD (s.atr.gpioIn.getLsbD i)

end Sys2Proof.Machine
end

