-- ==== Sys2Proof/Machine/Cells.lean ====
section
/-! DEFINITION. Strings, the landing grid, safe stack block, and the ways a cell, a hall or the stack is taken out of
service: the operations the reactions of chapters 1, 5, 6, 7 and 11 share. -/

namespace Sys2Proof.Machine

open Sys2Proof

/-! Strings (R12 to R18). -/

/-- SYS_TOPO.ASSIGN. -/
def State.assign (s : State) : Nat := fld (s.reg 0x40) 0 2
def State.ctCount (s : State) (f : Nat) : Nat := fld (s.reg (fltBase f)) 0 3

/-- Cell `k` is installed: its ring position lies below CT_COUNT (R13). -/
def State.installed (s : State) (k : Nat) : Bool := decide (k < 63) && decide (k % 7 < s.ctCount (k / 7))

/-- The halls of the string of hall `h`: all three in STRING (Table 01-2). -/
def State.strHalls (s : State) (h : Nat) : List Nat := if s.assign = 1 then [0, 1, 2] else [h]

/-- The hall whose registers serve the string of hall `h` as a whole (R18). -/
def State.strHead (s : State) (h : Nat) : Nat := if s.assign = 1 then 0 else h

/-- The string as a list of its cells in ascending k. -/
def State.strCells (s : State) (h : Nat) : List Nat := (List.range 63).filter fun k => (s.strHalls h).contains (k / 21)

def hallFlights (h : Nat) : List Nat := [3 * h, 3 * h + 1, 3 * h + 2]

/-- N_inst of the string of hall `h` (R15). -/
def State.nInst (s : State) (h : Nat) : Nat := (((s.strHalls h).flatMap hallFlights).map s.ctCount).sum

def State.isActive (s : State) (k : Nat) : Bool := (s.cell k).mode == .active

/-- N_active of the string of hall `h`. -/
def State.nActive (s : State) (h : Nat) : Nat := ((s.strCells h).filter s.isActive).length

/-- N_REQ of the string in force (R20). -/
def State.nReq (s : State) (h : Nat) : Nat := (s.hall (s.strHead h)).nReq

/-- A hall register whose value serves the whole string (Table 01-10). -/
def State.hreg (s : State) (h o : Nat) : Word := s.reg (hallBase (s.strHead h) + o)

/-- The one hall of each string that stands for it. -/
def State.strings (s : State) : List Nat := if s.assign = 1 then [0] else [0, 1, 2]

/-- A hall of the string of hall `h` is ON. -/
def State.strOn (s : State) (h : Nat) : Bool := (s.strHalls h).any s.hallOn

/-- PAT_FAULT of cell `k` (R227). -/
def State.patFault (s : State) (k : Nat) : Nat := fld (s.reg (ctxBase k + 0x100)) 0 2

/-! The landing grid (R57, R199). -/

/-- MOD_TC; a follower reads the newel's Tc (R373). -/
def modTc (s : State) : Word :=
  match s.stair.newelTc with
  | some t => if s.newel then s.reg 0x104 else BitVec.ofNat 32 (t / 10)
  | none => s.reg 0x104

/-- MOD_TC.TC in ns, the newel's in a follower (R373). -/
def State.tcSetting (t : State) : Nat := fld (modTc t) 0 17 * 10

def State.lead (s : State) : Nat := fld (s.reg 0x108) 16 16
def State.sampleOfs (s : State) : Nat := fld (s.reg 0x108) 0 16

/-- The first landing at least `t`, and how many landings it lies after the coming one. -/
def State.landingFrom (s : State) (t : Nat) : Nat × Nat :=
  let g := s.grid
  if t ≤ g.next then (g.next, 0)
  else
    let i := (t - g.next + g.tc - 1) / g.tc
    let l := g.next + i * g.tc
    match g.change with
    | some (lx, tn) =>
      if l ≤ lx then (l, i)
      else
        let first := gridUp tn (lx + tn)
        let i0 := if lx < g.next then 0 else (lx - g.next) / g.tc + 1
        if t ≤ first then (first, i0)
        else
          let j := (t - first + tn - 1) / tn
          (first + j * tn, i0 + j)
    | none => (l, i)

/-- SEQ of the deliver train that brings a landing `i` after the coming one: that of the period it closes. -/
def State.seqOf (s : State) (i : Nat) : BitVec 16 := s.grid.seq + BitVec.ofNat 16 i

/-- The landing reference of the first landing at least `t` (Table 15-1). -/
def State.refFrom (s : State) (t : Nat) (flag : Bool) : List Word :=
  let l := s.landingFrom t
  landRef l.1 (s.seqOf l.2) flag

/-- L_b: the landing of the first deliver departure at least 200 ns after now (R249). -/
def State.lb (s : State) : Nat := (s.landingFrom (s.now + 200 + s.lead)).1

/-! Rings. -/

/-- The ends of a ring this device's own ports serve: both, or the one the twin wiring gives it (Table 09-1). -/
def State.ends (s : State) : List Bool :=
  if s.aon.straps.role = 1 then [false] else if s.aon.straps.role = 2 then [true] else [false, true]

/-- The ring of flight `f` carries traffic that this device takes: its hall is ON and it holds cells (R14). A demoted device still
relays what comes in at its ports (R355). -/
def State.ringOn (s : State) (f : Nat) : Bool := s.fltOn f && s.ctCount f != 0

/-- This device also serves the ring of flight `f` (R346, R350). A standby sends only for the active. -/
def State.ringUp (s : State) (f : Nat) : Bool := s.ringOn f && !s.twin.mute

/-- BLK from the ends of a ring (R136). -/
def sendBlk (f : Nat) (s : State) : State :=
  if s.ringUp f then each s.ends (fun w => emit (.blk (Fin.ofNat 9 f) w)) s else s

/-- The link of a pair is up (R334). -/
def State.linkUp (s : State) : Bool := s.twin.linkUp && s.isOn .links

/-- STAIR_STATUS.SRC: an active of a follower position whose own SU port is down takes its time from its standby, whose SU port is
up (R384). -/
def State.timeFromStandby (s : State) : Bool :=
  s.twin.state == 1 && !s.newel && s.isOn .atrium && !s.stair.upUp && s.linkUp && s.twin.partnerSu

/-- The active's decision word, with the landing it applies at (R336). -/
def sendDecision (d : Decision) (s : State) : State :=
  if s.twin.state == 1 && s.linkUp then emit (.decision d) s else s

/-! Safe stack block (R389, R390). -/

/-- A restore or retry in progress ends. -/
def Cell.endRestore (c : Cell) : Cell :=
  { c with
    mode := if c.mode == .restoring then .out else c.mode
    restorePhase := 0
    restoreWait := false
    noLimit := false
    retry := false }

/-- The entry of a safe stack block: BLK on every ring of every hall that is ON, restores and retries end, and the
causes are logged. Frames carry SAFE = block from the first departure at least 200 ns later (Machine/Deliver.lean). -/
def ssbEntry (s : State) : State :=
  let s := each (List.range 9) sendBlk s
  let s := { s with cells := s.cells.map Cell.endRestore }
  let s := { s with safe := { s.safe with ssbAt := s.now, ssbDue := some (s.safe.ssbDue.getD s.now) } }
  logRecord 192 0x20 0xFFFF (s.safe.cause.setWidth 32) (s.safe.cause.setWidth 32) s

/-- Set a bit of SAFE_CAUSE (R390): SAFE_DEMAND on a change from 0 to 1, and safe stack block where none is in force. -/
def setCause (i : Nat) (s : State) : State :=
  if !s.isOn .safety || s.safe.cause.getLsbD i then s
  else
    let entry := !s.ssb
    let s := { s with safe := { s.safe with cause := s.safe.cause ||| (1#17 <<< i) } }
    let s := raise 192 (bitAt true i) s
    let s := if [7, 8, 9, 10, 14, 15].contains i then sendDecision (.ssb (low40 s.lb)) s else s
    if entry then ssbEntry s else s

/-! Taking cells out (R249, R293). -/

/-- Mark the string's mapping as overtaken when it had begun for the landing this decision acts at (R250). -/
def overtake (k : Nat) (s : State) : State :=
  let h := k / 21
  if (s.strHalls h).any (fun x => (s.hall x).mapping) && decide (s.now + 200 + s.lead ≤ s.grid.next) then
    each ((s.strHalls h).flatMap hallFlights) (fun f => fun s => s.setFlight f fun x =>
      { x with remap := x.remap || x.mapped }) s
  else s

/-- The cell takes the pattern `pick` makes of the one it already waits for, if any, at L_b (R249); 0 is the zero state of
RETRY. A restore or retry in progress ends. -/
def leaveWith (k : Nat) (pick : Option Nat → Nat) (s : State) : State :=
  let t := s.now
  overtake k <| s.setCell k fun c =>
    let p := pick (c.req.map (·.1))
    { c.endRestore with req := some (p, (c.req.map (·.2)).getD t), retry := p == 0 }

/-- The cell takes pattern `pat`, or the one it already waits for where that is the stronger: BYPASS, then BLOCK, then the
zero state of a retry (R293). -/
def leave (k pat : Nat) (s : State) : State := leaveWith k (fun p => max (p.getD 0) pat) s

/-- The cell takes pattern `pat` unless it waits for one of its own reaction, which it keeps (R290). -/
def leaveRest (k pat : Nat) (s : State) : State := leaveWith k (fun p => p.getD pat) s

/-- A cell that is switching, restoring or in a retry can still be taken out. -/
def Cell.inUse (c : Cell) : Bool := c.mode != .out || c.retry

/-- Every cell of a hall in N_active takes its PAT_FAULT, with BLK on each ring where one of them blocks (R32, Table 07-6);
one that a reaction of its own takes out keeps that one's pattern (R290, log 82). -/
def hallOut (h : Nat) (s : State) : State :=
  let s := each (hallFlights h) (fun f s =>
    if (List.range 7).any (fun j => s.isActive (7 * f + j) && s.patFault (7 * f + j) == 1) then sendBlk f s else s) s
  each (List.range 21) (fun i s =>
    let k := 21 * h + i
    if s.isActive k then leaveRest k (s.patFault k) s else s) s

/-- The cells of a hall that switch, restore or retry take their PAT_FAULT by SAFE requests alone (R33). -/
def hallRest (h : Nat) (s : State) : State :=
  each (List.range 21) (fun i s =>
    let k := 21 * h + i
    if (s.cell k).inUse then leaveRest k (s.patFault k) s else s) s

/-- A cell in a zero-state retry whose string has taken its safe patterns: the retry ends, and the cell waits as a
restored one (R284, R256). -/
def Cell.waitRetry (c : Cell) : Cell :=
  { c with mode := .restoring, restorePhase := 2, restoreOk := 0, restoreWait := true, noLimit := true, retry := false,
           retryCheck := false }

/-- The shortfall action of the string of hall `h` (R21): the whole stack, which a standby leaves to the decision word of its
active (R405), or every cell of the string. -/
def shortfall (h : Nat) (s : State) : State :=
  let s := s.setHall (s.strHead h) fun x => { x with shortfall := true }
  if bit (s.reg 0x40) 8 then (if s.standby then s else setCause 9 s)
  else each (s.strCells h) (fun k s =>
    let c := s.cell k
    if c.mode = .active then leaveRest k (s.patFault k) s
    else if c.retry ∧ c.mode = .out then s.setCell k Cell.waitRetry
    else s) s

/-- What a hall error takes out: the cells of the hall, with BLK, and of the other halls what R33 gives for the
assignment. -/
def hallFall (h : Nat) (s : State) : State :=
  let block := (List.range 21).any fun i => s.isActive (21 * h + i) && s.patFault (21 * h + i) == 1
  let s := hallRest h (hallOut h s)
  if s.assign = 0 then each [0, 1, 2] (fun g s => if g = h then s else hallRest g s) s
  else if s.assign = 1 ∧ block then shortfall h s
  else s

/-- A hall error of row `row` of Table 01-4 (R31 to R33). A standby makes no decision of its own (R336). A further cause in a
hall that is in error already raises nothing: R31 does not say whether HALL_ERR is raised again (log 76). -/
def hallError (h row : Nat) (s : State) : State :=
  if (s.hall h).err || !s.hallOn h || s.standby then s
  else
    let s := s.setHall h fun x => { x with err := true }
    let s := raise (160 + h) (BitVec.ofNat 32 row) s
    let s := logRecord (160 + h) 0x20 (BitVec.ofNat 16 h) (BitVec.ofNat 32 row) (s.safe.cause.setWidth 32) s
    hallFall h (sendDecision (.hall (Fin.ofNat 3 h) (low40 s.lb)) s)

/-- Cause of a cell decision as its fault-log record holds it: the reaction and the source (Table 14-12, log 10).
Sources: 1 alarm, 2 report, 3 timeout, 4 tread error, 5 stage mapping, 6 ring. -/
def decisionCause (react source : Nat) : Word := pack [(0, 8, react), (8, 8, source)]

/-- The cell is marked permanently bypassed, with its record (R294). -/
def setPerm (k : Nat) (s : State) : State :=
  if (s.cell k).perm then s
  else logRecord k 0x21 (BitVec.ofNat 16 k) 0 0 (s.setCell k fun c => { c with perm := true })

/-- The safe pattern or the zero state a reaction gives a cell (Table 07-6). -/
def reactPat (react : Nat) : Nat := if react = 1 then 1 else if react = 5 then 0 else 2

/-- The order of the reactions (R293): SSB, HALL, BYPASS, BLOCK, RETRY, DERATE. -/
def reactRank (react : Nat) : Nat :=
  match react with
  | 4 => 6 | 3 => 5 | 2 => 4 | 1 => 3 | 5 => 2 | 6 => 1 | _ => 0

/-- A stronger reaction than `react` has been decided for the cell in the last 10 µs (R293). -/
def State.outranked (s : State) (k react : Nat) : Bool :=
  (s.cell k).decided.any fun d => decide (s.now < d.2 + 10000) && decide (reactRank react < reactRank d.1)

/-- A decision of class `cls` with reaction `react` noted at its cell. -/
def noteDecision (k cls react : Nat) (s : State) : State :=
  let t := s.now
  s.setCell k fun c => { c with
    lastClass := cls
    scCount := if cls = 1 then satInc 255 c.scCount else c.scCount
    decided := (react, t) :: c.decided.filter fun d => decide (t < d.2 + 10000) }

/-- DERATE of a cell: one in N_active goes on; a restore ends with PAT_FAULT, and a retry goes on as RETRY, the stronger
reaction (Table 07-8, log 82). -/
def derateCell (k : Nat) (s : State) : State :=
  let c := s.cell k
  let t := s.now
  if c.retry then leave k 0 s
  else if c.mode = .restoring then leave k (s.patFault k) s
  else s.setCell k fun c => { c with derate := true, derateAt := if c.derate then c.derateAt else t }

/-- What a decision's reaction does (Table 07-6). A cell already out of service keeps its pattern (Table 07-8), but a
contactor that fails to close takes its reaction HALL (R291, log 11). The safe stack block of a standby comes as a word of its
own (R405). -/
def carryOut (k cls react : Nat) (s : State) : State :=
  let use := (s.cell k).inUse
  if react = 3 ∧ (use ∨ cls = 6) then
    let s := hallOut (k / 21) s
    if use then leaveWith k (fun _ => s.patFault k) s else s
  else if !use then s
  else if react = 4 then (if s.standby then s else setCause 8 s)
  else if react = 6 then derateCell k s
  else leave k (reactPat react) s

/-- A cell fault decision (R293): its event, its log record, its decision word, and its reaction unless a stronger one has been
decided for the cell in the last 10 µs. -/
def decide' (k cls react source : Nat) (s : State) : State :=
  let word := pack [(0, 4, cls), (4, 4, react)]
  let s := raise k word s
  let s := logRecord k 0x20 (BitVec.ofNat 16 k) word (decisionCause react source) s
  let weak := s.outranked k react
  let s := noteDecision k cls react s
  let s := sendDecision (.cell (Fin.ofNat 63 k) (Fin.ofNat 8 react) (Fin.ofNat 8 cls) (s.cell k).perm (low40 s.lb)) s
  if weak then s else carryOut k cls react s

/-- GRD_REACT's reaction for a class (R292). -/
def State.reaction (s : State) (cls : Nat) : Nat := fld (s.reg 0x180) (4 * (cls - 1)) 4

/-- A GS decision: RETRY on supplies 0 and 2 only, and its third within 1 s marks the cell for good (R280, R283). Of a cell
out of service it is the event and the record only (Table 07-8). -/
def decideGs (k source : Nat) (other : Bool) (s : State) : State :=
  let r := if other then 2 else s.reaction 2
  if r = 5 then
    let t := s.now
    let s := s.setCell k fun c => { c with gsTrips := t :: c.gsTrips.filter fun x => decide (t < x + 1000000000) }
    if 3 ≤ (s.cell k).gsTrips.length ∧ (s.cell k).inUse then decide' k 2 2 source (setPerm k s)
    else
      let s := decide' k 2 5 source s
      s.setCell k fun c => { c with retryCheck := c.retry }
  else decide' k 2 r source s

/-- A decision of class `cls` with its configured reaction. -/
def decideClass (k cls source : Nat) (s : State) : State :=
  if cls = 2 then decideGs k source false s else decide' k cls (s.reaction cls) source s

/-- A tread error: the cell is bypassed as for class CT, and its faulty value is not applied (R25). -/
def treadError (k : Nat) (s : State) : State :=
  let s := if (s.cell k).inUse then s.setCell k fun c => { c with bad := true } else s
  if s.standby then s else decide' k 5 2 4 s

/-! Atrium errors (R35, R36, R353). -/

/-- The active's emergency hand-over: DEM, no further ring traffic, ACTIVE low, heartbeats stopped. -/
def emergency (s : State) : State :=
  emit .dem { s with twin := { s.twin with state := 3, mute := true, ldn := !s.linkUp, hbOut := false, hbtOff := true } }

/-- An active hands over instead of blocking the rings: its link is up and its standby in step (R353). -/
def State.canHandOver (s : State) : Bool := s.twin.state == 1 && s.linkUp && s.twin.partnerInStep

/-- Safe stack block, handing over first where the pair can (R36, R89). -/
def blockOrHandOver (cause : Nat) (s : State) : State :=
  setCause cause (if s.canHandOver then emergency s else s)

/-- An atrium error of kind 1 ECC, 2 both lanes, 3 dispatch, 4 Corridor (R35). -/
def atriumError (kind : Nat) (s : State) : State :=
  if s.atr.err || !s.isOn .atrium then s
  else
    let s := { s with atr := { s.atr with err := true } }
    let s := raise 163 (BitVec.ofNat 32 kind) s
    let s := logRecord 163 0x20 0xFFFF (BitVec.ofNat 32 kind) (s.safe.cause.setWidth 32) s
    blockOrHandOver 12 s

def execDispatchTimeout (s : State) : Res := .next (atriumError 3 s)
def execCorridorGrantTimeout (s : State) : Res := .next (atriumError 4 s)

end Sys2Proof.Machine
end

