-- ==== Sys2Proof/Machine/TimeBase.lean ====
section
/-! DEFINITION. The time base, the setting of its compares, the PLLs, the SYNC balls and the PTP stamps (chapter 2). -/

namespace Sys2Proof.Machine

open Sys2Proof

/-- TB_READ (R58): the count and the rate as they stand at one tick, with PLL_STATUS. -/
def pllStatus (s : State) : Word :=
  pack [(8, 2, s.tb.refRate), (4, 1, b2n s.tb.gross), (3, 1, b2n s.tb.untrusted), (2, 1, b2n s.tb.refLoss),
    (1, 1, b2n s.tb.lUnlock), (0, 1, b2n s.tb.tUnlock)]

def execTbRead (w : List Word) (s : State) : Res :=
  .next <| command w.isEmpty (fun s =>
    reply .ok [lowW s.tb.ns, highW s.tb.ns, s.tb.frac, s.tb.incr.setWidth 32,
      BitVec.ofNat 32 (s.tb.incr.toNat / 2 ^ 32), pllStatus s] s) s

/-- TB_INCR lies within ±1 000 ppm of nominal (R60). -/
def incrOk (v : Nat) : Bool := decide (0x01FF7CED92 ≤ v) && decide (v ≤ 0x020083126E)

/-- A new rate: RANGE outside R60, STATE while the servo owns the time base (R61). -/
def setIncr (v : Nat) (s : State) : Status × State :=
  if !incrOk v then (.range, s)
  else if s.servoOwns then (.state, s)
  else (.ok, { s with tb := { s.tb with incr := BitVec.ofNat 40 v } })

def execTbIncr (w : List Word) (s : State) : Res :=
  .next <| command (w.length == 2) (fun s =>
    let r := setIncr ((wd w 0).toNat + fld (wd w 1) 0 8 * 2 ^ 32) s
    refuse r.1 r.2) s

/-- An instant `t` a step of `delta` skips: past the tick that would have come, before the one that does (R64). -/
def skipped (old new : Nat) (t : Nat) : Bool := decide (old < t * 2 ^ 32) && decide (t * 2 ^ 32 < new)

/-- First fire time TIME + m × PERIOD after `t` (R64, R71). -/
def firstAfter (time period t : Nat) : Nat :=
  if t < time then time else time + ((t - time) / period + 1) * period

/-- The first fire time of an armed compare that lies past `old`, a count of 2^-32 ns. -/
def Compare.pastDue (c : Compare) (old : Nat) : Nat :=
  if old < c.next * 2 ^ 32 ∨ c.period = 0 then c.next else firstAfter c.next c.period.toNat (old / 2 ^ 32)

/-- An armed compare at a forward step: one or more skipped fire times fire once, late, on the step tick (R64). -/
def compareStep (old new : Nat) (c : Compare) : Compare :=
  if c.en && skipped old new (c.pastDue old) then { c with lateNext := true, next := new / 2 ^ 32 } else c

/-- Nanoseconds between two pulses of SYNC_OUT (R90). -/
def second : Nat := 1000000000

/-- The second boundary next due: not one already pulsed, and not one whose fire tick has passed (R65, R90). -/
def dueSecond (s : State) : Nat :=
  let past := s.tbAll - s.tb.incr.toNat
  let b := if s.tbAll < s.tb.incr.toNat then 0 else (past / 2 ^ 32 / second + 1) * second
  max s.tb.nextSecond b

/-- The landings after a step go on at the first grid instant after the new TB (R57, log 9); SEQ goes on, past the
landings a forward step has skipped. -/
def Grid.stepTo (g : Grid) (new : Nat) : Grid :=
  let nx := (new / 2 ^ 32 / g.tc + 1) * g.tc
  { g with next := nx, now := nx - g.tc, seq := g.seq + BitVec.ofNat 16 ((nx - g.next) / g.tc) }

/-- The second boundary next due after a step to `new`: the one that was next due before it, and after a forward step none
that it has skipped (R65, log 9). -/
def secondAfter (due : Nat) (delta : Int) (new : Nat) : Nat :=
  if 0 < delta then max due (gridUp (second * 2 ^ 32) new / 2 ^ 32) else due

/-- The step tick: TB moves by TB_INCR plus the step (R62), compares and SYNC_OUT keep R64 and R65, and the landings go on
at the first grid instant after a step that leaves their grid (R57, log 9). After a step back, TB comes to multiples of HK_PERIOD
again, and a round starts at each (R417). `delta` is in 2^-32 ns. -/
def tbStep (delta : Int) (s : State) : State :=
  if !s.isOn .timebase then s else
  let old := s.tbAll + s.tb.incr.toNat
  let new := ((old : Int) + delta).emod (2 ^ 96 : Nat) |>.toNat
  let due := dueSecond s
  let s := { s with tb := { s.tb with
    ns := BitVec.ofNat 64 (new / 2 ^ 32), frac := BitVec.ofNat 32 new
    tc := s.tb.tc.map (compareStep old new), nextSecond := secondAfter due delta new
    syncEnd := (s.tb.syncEnd + delta / 2 ^ 32).toNat } }
  let s := { s with atr := { s.atr with gpioEnd := s.atr.gpioEnd.map fun e => ((e : Int) + delta / 2 ^ 32).toNat } }
  let s := if new < old then { s with therm := { s.therm with hkLast := none } } else s
  let g := s.grid
  let s := if g.next * 2 ^ 32 < new ∨ (new < old ∧ new < g.now * 2 ^ 32) then { s with grid := g.stepTo new } else s
  raise 172 0 s

/-- A step is refused while the servo owns the time base or any hall is ON (R61, R63). -/
def adjOk (s : State) : Bool := !s.servoOwns && !s.anyHallOn

/-- The signed 64.32 step of its three words. -/
def adjStep (frac lo hi : Word) : Int := (dw lo hi).toInt * 2 ^ 32 + frac.toNat

def execTbAdj (w : List Word) (s : State) : Res :=
  .next <| command (w.length == 3) (fun s =>
    if !adjOk s then refuse .state s
    else
      let s := tbStep (adjStep (wd w 0) (wd w 1) (wd w 2)) s
      reply .ok [lowW s.tb.ns, highW s.tb.ns] s) s

/-- A read of the first word of TB_TIME latches all 96 bits (R58). -/
def latchTime (s : State) : State := { s with tb := { s.tb with latchNs := s.tb.ns, latchFrac := s.tb.frac } }

def execTbTimeLatch (s : State) : Res := .next (if s.isOn .timebase then latchTime s else s)

/-- A read of the first word of TB_SYNC_STAMP latches all three (R523). -/
def latchStamp (s : State) : State :=
  { s with tb := { s.tb with stampLatchNs := s.tb.stampNs, stampLatchFrac := s.tb.stampFrac } }

def execTbSyncStampLatch (s : State) : Res := .next (if s.isOn .timebase then latchStamp s else s)

/-! Compares. -/

def State.tc (s : State) (n : Nat) : Compare := vget s.tb.tc n {}
def State.setTc (s : State) (n : Nat) (f : Compare → Compare) : State := { s with tb := { s.tb with tc := vmod s.tb.tc n f } }

/-- The highest ARG of a TARGET of Table 02-2; none where the column reads — (R553). -/
def argLimit (target : Nat) : Option Nat :=
  match target with
  | 1 => some 15 | 2 => some 15 | 4 => some 7 | 5 => some 2 | _ => none

/-- What TC_SET refuses (Table 02-2, R75, R553). -/
def tcCheck (period ctrl : Word) (s : State) : Status :=
  let target := fld ctrl 8 4
  let arg := fld ctrl 0 8
  if 6 ≤ target then .badParam
  else if (match argLimit target with | some m => decide (m < arg) | none => arg != 0) then .badParam
  else if 0 < period.toNat ∧ period.toNat < 20 then .range
  else if target = 2 ∧ fld ctrl 16 8 = 0 then .range
  else if target = 2 ∧ s.gpioFunc arg ≠ 4 then .state
  else .ok

/-- A compare set (R72) and judged at the next tick (R71). FIRED and LATE of the previous setting stay, but for a 1 written
to them: they are W1C (R11, log 73). -/
def tcSet (n : Nat) (time : BitVec 64) (period ctrl : Word) (s : State) : Status × State :=
  match tcCheck period ctrl s with
  | .ok =>
    let s := tick s
    let late := decide (time.toNat < s.now)
    let far := decide (time.toNat + 2 ^ 39 < s.now)
    let en := bit ctrl 31
    let old := s.tc n
    let c : Compare := {
      time := time, period := period, en := en && !far
      fired := old.fired && !bit ctrl 30, late := old.late && !bit ctrl 29
      width := BitVec.ofNat 8 (fld ctrl 16 8)
      target := fld ctrl 8 4, arg := BitVec.ofNat 8 (fld ctrl 0 8)
      next := if late then s.now else time.toNat, lateNext := late }
    (if en && late then .late else .ok, s.setTc n fun _ => c)
  | st => (st, s)

def execTcSet (w : List Word) (s : State) : Res :=
  .next <| command (w.length == 5) (fun s =>
    let n := fld (wd w 0) 0 4
    let r := tcSet n (dw (wd w 1) (wd w 2)) (wd w 3) (wd w 4) s
    reply r.1 [bitAt (r.2.tc n).en 0] r.2) s

/-! PLL outputs (R78 to R81). -/

/-- A pending divider and enable; a divider outside Table 02-4 is refused with RANGE (R78). -/
def pllWrite (n : Nat) (v : Word) (s : State) : Status × State :=
  let d := fld v 0 16
  if (if n < 2 then decide (d < 16) else decide (d < 100) || decide (500 < d)) then (.range, s)
  else (.ok, { s with tb := { s.tb with pllPend := vset s.tb.pllPend n ⟨bit v 31, d⟩ } })

/-- The pairs of PLL_SET, as a whole or not at all. -/
def pllPairs (w : List Word) (s : State) : Status × State :=
  match w with
  | a :: v :: r =>
    let x := if 4 ≤ a.toNat then (Status.badParam, s) else pllWrite (fld a 0 2) v s
    let y := pllPairs r x.2
    (firstStatus x.1 y.1, y.2)
  | _ => (.ok, s)

def execPllSet (w : List Word) (s : State) : Res :=
  .next <| command (w.length % 2 == 0) (fun s =>
    let r := pllPairs w s
    if r.1 = .ok then reply .ok [] r.2 else refuse r.1 s) s

/-- A sinc3 filter restarts with zero contents and keeps its last valid output (R301); one that settles already goes on. -/
def dsdRestart (d : Nat) (s : State) : State :=
  { s with meas := { s.meas with dsd := vmod s.meas.dsd d fun x => { x with
      outputs := 0, since := if x.outputs < 3 then x.since else s.now } } }

/-- All four pending copies move into use on the next tick (R78), and the filters of a changed DSCLK restart (R81). -/
def pllCommit (s : State) : State :=
  let s := tick s
  let old := s.tb.pllAct
  let new := s.tb.pllPend
  let s := { s with tb := { s.tb with pllAct := new } }
  each (List.range 8) (fun d s =>
    let c := 2 + fld (s.reg (0x22100 + 4 * d)) 10 1
    if s.isOn .analog && vget old c {} != vget new c {} then dsdRestart d s else s) s

def execPllCommit (w : List Word) (s : State) : Res :=
  .next <| command w.isEmpty (fun s =>
    let s := pllCommit s
    reply .ok [lowW s.tb.ns, highW s.tb.ns] s) s

/-! Holdover (R82 to R87). -/

/-- A PLL coasts (R82): its status bit and its event, once. -/
def coast (l : Bool) (s : State) : State :=
  if l then (if s.tb.lUnlock then s else raise 170 0 { s with tb := { s.tb with lUnlock := true } })
  else (if s.tb.tUnlock then s else raise 169 0 { s with tb := { s.tb with tUnlock := true } })

/-- A lost reference unlocks both PLLs, and all three events are raised (R82). -/
def execRefLoss (s : State) : Res :=
  .next <| if !s.isOn .timebase then s else
    let s := { s with tb := { s.tb with reacquire := false } }
    let s := if s.tb.refLoss then s else raise 171 0 { s with tb := { s.tb with refLoss := true } }
    coast true (coast false s)

def execPlltUnlock (s : State) : Res := .next (if s.isOn .timebase then coast false s else s)
def execPlllUnlock (s : State) : Res := .next (if s.isOn .timebase then coast true s else s)

/-- Reference edges return, and each coasting PLL reacquires (R87). -/
def execReferenceReturn (s : State) : Res :=
  .next <| if s.isOn .timebase && s.tb.refLoss then { s with tb := { s.tb with reacquire := true } } else s

/-- Lock is reached: the PLL's unlock bit clears, and the loss bit once both are locked (R87). A PLL cannot lock to
a reference that is still absent. -/
def execPllRelock (l : Bool) (s : State) : Res :=
  .next <| if !s.isOn .timebase || (s.tb.refLoss && !s.tb.reacquire) then s else
    let s := if l then { s with tb := { s.tb with lUnlock := false } } else { s with tb := { s.tb with tUnlock := false } }
    if s.tb.lUnlock || s.tb.tUnlock then s
    else { s with tb := { s.tb with refLoss := false, reacquire := false } }

/-- UNTRUSTED is cleared by a written 1 only while both PLLs are locked (R87). -/
def clearUntrusted (s : State) : State :=
  if s.tb.lUnlock || s.tb.tUnlock then s else { s with tb := { s.tb with untrusted := false } }

def execUntrustedClear (s : State) : Res := .next (if s.isOn .timebase then clearUntrusted s else s)

/-! SYNC balls (R65, R90, R91) and compare pulses (R75). -/

/-- SYNC_OUT rises at a whole second of TB_NS, unless disabled or gated by UNTRUSTED (R90). -/
def execSyncOutPulse (s : State) : Res :=
  .next <| if !s.isOn .timebase then s else
    let c := s.reg 0x10030
    let b := dueSecond s
    let s := advanceTo b s
    let s := { s with tb := { s.tb with nextSecond := b + second } }
    if bit c 31 && !(bit c 30 && s.tb.untrusted) then
      { s with tb := { s.tb with syncOut := true, syncEnd := b + fld c 0 19 * 1000 } }
    else s

def execSyncOutPulseEnd (s : State) : Res :=
  .next <| if s.isOn .timebase && s.tb.syncOut then
      let s := advanceTo s.tb.syncEnd s
      { s with tb := { s.tb with syncOut := false } }
    else s

/-- PTP_TS with its source (Table 02-5). -/
def ptpTs (src : Nat) (s : State) : State := raise 230 (BitVec.ofNat 32 src) { s with host := { s.host with ptpSrc := src } }

/-- A rising edge at SYNC_IN is stamped; a new edge overwrites the previous stamp (R91). -/
def execSyncInEdge (ns : BitVec 64) (frac : Word) (s : State) : Res :=
  .next <| if s.isOn .timebase && bit (s.reg 0x10030) 29 then
      ptpTs 2 { s with tb := { s.tb with stampNs := ns, stampFrac := frac } }
    else s

/-- The WIDTH of a compare's pulse expires (R75). -/
def execGpioPulseEnd (i : Fin 16) (s : State) : Res :=
  .next <| if s.isOn .atrium && s.atr.gpioPulse.getLsbD i.val then
      let s := advanceTo (vget s.atr.gpioEnd i.val 0) s
      { s with atr := { s.atr with gpioPulse := s.atr.gpioPulse &&& ~~~(1#16 <<< i.val) } }
    else s

/-! PTP (R92 to R96). -/

/-- A signed offset of ns added to a stamp (R92). -/
def addOfs (ns : BitVec 64) (o : Word) : BitVec 64 := ns + o.signExtend 64

/-- The addresses a PTP frame may carry: the unicast address and, with MCAST, the two multicast ones (R93). -/
def ptpAddr (dst : Word) (s : State) : Bool :=
  dst == s.reg 0x60004 || (bit (s.reg 0x60100) 1 && (dst == 0xE0000181#32 || dst == 0xE000006B#32))

/-- A frame discarded and counted (R462). -/
def discardFrame (s : State) : State := { s with host := { s.host with discard := satInc 255 s.host.discard } }

/-- A PTP frame enters the receive ring with its ingress stamp, or is dropped when the ring is full (R93, R94). R93 stores
each such frame: HOST_NET_ALLOW, which R462 gives for command datagrams, does not filter them (log 74). -/
def execPtpFrameRx (dst : Word) (dport : BitVec 16) (src : NetAddr) (ns : BitVec 64) (frac : Word) (payload : List Byte)
    (s : State) : Res :=
  .next <|
    if !s.isOn .net then s
    else if !((dport == 319 || dport == 320) && bit (s.reg 0x60100) 0 && ptpAddr dst s) then discardFrame s
    else if s.host.ptpOwned = 16 then { s with host := { s.host with ptpDrop := satInc 255 s.host.ptpDrop } }
    else
      let e : PtpRx := { ns := addOfs ns (s.reg 0x60108), frac := frac, src := src, payload := payload }
      ptpTs 0 { s with host := { s.host with
        ptpRx := vset s.host.ptpRx s.host.ptpHead e, ptpHead := (s.host.ptpHead + 1) % 16
        ptpOwned := s.host.ptpOwned + 1 } }

/-- GO queues the slot's message (R95); a slot the device owns stays as it is. The spec gives DONE as W1C and does not say
that GO clears it: the model clears it (log 74). -/
def ptpGo (n : Nat) (s : State) : State :=
  { s with host := { s.host with ptpTx := vmod s.host.ptpTx n fun t => { t with go := true, done := false } } }

def execPtpTxGo (n : Fin 4) (s : State) : Res := .next (if s.isOn .net then ptpGo n.val s else s)

/-- The message has been sent: its bytes unaltered, the egress stamp in the slot, DONE and PTP_TS (R95, R96). The
stamp is TB at the frame's start, which is this instant. The source port is the destination's. A length above 240 sends the
240 bytes the slot holds (log 74). The slot names no destination MAC, which stays 0 here (log 92). -/
def execPtpTxDone (n : Fin 4) (s : State) : Res :=
  .next <|
    let t := vget s.host.ptpTx n.val {}
    if s.isOn .net && t.go then
      let s := emit (.ptp t.port { ip := t.dst, port := t.port } (bytesAt t.payload 0 (min 240 t.length))) s
      let t := { t with go := false, done := true, ns := addOfs s.tb.ns (s.reg 0x6010C), frac := s.tb.frac }
      ptpTs 1 { s with host := { s.host with ptpTx := vset s.host.ptpTx n.val t } }
    else s

end Sys2Proof.Machine
end

