-- ==== Sys2Proof/Machine/Packets.lean ====
section
/-! DEFINITION. Command packets and replies: acceptance, sequence numbers, queue storage, the reply stream and the
Ethernet port (chapter 14). -/

namespace Sys2Proof.Machine

open Sys2Proof

/-! Replies (R469, Table 14-4). -/

/-- TIME of a reply: TB at completion, or at the packet's acceptance for ACCEPTED (Table 14-4). -/
def replyTime (p : Pkt) (r : Reply) (s : State) : Nat := if r.status = .accepted then p.got else s.now

/-- The bytes of a reply to packet `p` with TIME `t`. -/
def replyBytes (p : Pkt) (r : Reply) (t : Nat) : List Byte :=
  withCrc (leBytes 2 0x6D63 ++ [p.op, BitVec.ofNat 8 (p.queue.val + p.prio * 64)] ++ leBytes 2 p.tag.toNat
    ++ leBytes 2 r.words.length ++ leBytes 4 p.seq.toNat ++ leBytes 4 t
    ++ [BitVec.ofNat 8 (statusCode r.status), BitVec.ofNat 8 (b2n r.dup + 2 * b2n r.pair), 0#8, 0#8]
    ++ wordBytes r.words)

/-- HOST_NET_IP and HOST_NET_CFG.PORT with this device's MAC address: what replies come from (R464). -/
def State.hostAddr (s : State) : NetAddr :=
  { ip := s.reg 0x60004, port := (s.reg 0x60000).setWidth 16, mac := Config.macAddress }

/-- A reply on its way: into the SPI reply stream, as a datagram to where the packet came from, or into the
mailbox (Table 14-1, R464, R468). -/
def sendReplyAt (t : Nat) (p : Pkt) (r : Reply) (s : State) : State :=
  let b := replyBytes p r t
  match p.transport with
  | .spi => rsPush b s
  | .eth => if s.isOn .net then emit (.reply .eth s.hostAddr p.src b) s else s
  | .i2c => { s with aon := { s.aon with mailbox := b } }

def sendReply (p : Pkt) (r : Reply) (s : State) : State := sendReplyAt (replyTime p r s) p r s

def State.queue (s : State) (n : Nat) : Queue := vget s.host.q n {}
def State.setQueue (s : State) (n : Nat) (f : Queue → Queue) : State :=
  { s with host := { s.host with q := vmod s.host.q n f } }

/-- LATE replaces only OK (R70, R479). -/
def lateStatus (late : Bool) (st : Status) : Status := if late && st == .ok then .late else st

/-- The answer is kept beside the record of its packet, for duplicates (R471). -/
def noteAnswer (p : Pkt) (r : Reply) (t : Nat) (q : Queue) : Queue :=
  { q with recent := q.recent.map fun x =>
      if x.seq = p.seq ∧ x.tag = p.tag ∧ x.crc = p.crc then { x with answer := some r, time := t } else x }

/-- The packet a command was executed for is answered and leaves its queue, unless the queue has been emptied since
(R478). A mailbox packet was in no queue. -/
def answer (p : Pkt) (r : Reply) (s : State) : State :=
  let r := { r with status := lateStatus p.late r.status, pair := p.applied }
  if p.transport = .i2c then sendReply p r s
  else
    let q := s.queue p.queue.val
    match q.pkts with
    | h :: rest =>
      if h.arrival = p.arrival then
        sendReply p r (s.setQueue p.queue.val fun q => noteAnswer p r (replyTime p r s) { q with pkts := rest, held := false })
      else s
    | [] => s

/-- A command that waited completes: its reply, and where it came in a packet, that packet's answer (R477). -/
def finish (pkt : Option Pkt) (r : Reply) (s : State) : State :=
  let s := { s with reply := some r }
  match pkt with
  | some p => answer p r s
  | none => s

/-- A command begins to wait: no reply yet, and its packet holds its queue (R477). -/
def wait (s : State) : State := { s with reply := none }

/-! Acceptance (R470 to R476). -/

def badMark (l : List Byte) : Bool := decide (l.length < 20) || fieldAt l 0 2 != 0x6D63

/-- The packet as its header gives it. -/
def headerOf (t : Transport) (src : NetAddr) (l : List Byte) : Pkt :=
  let q := (fieldAt l 3 1)
  { transport := t, src := src, op := l.getD 2 0, queue := Fin.ofNat 64 q, prio := q / 64
    tag := BitVec.ofNat 16 (fieldAt l 4 2), seq := BitVec.ofNat 32 (fieldAt l 8 4)
    words := bytesWords (bytesAt l 16 (4 * fieldAt l 6 2)), crc := BitVec.ofNat 32 (fieldAt l (l.length - 4) 4)
    execAt := 0, late := false, arrival := 0, shared := 0, own := 0 }

/-- Payload limit in words of a transport (R463, R468). -/
def State.packetLimit (s : State) (t : Transport) : Nat :=
  match t with
  | .spi => 1020
  | .eth => if bit (s.reg 0x60000) 31 then 1020 else 363
  | .i2c => 16

/-- LENGTH within its limits and the byte count it gives (Table 14-5 step 2). -/
def lengthOk (t : Transport) (l : List Byte) (s : State) : Bool :=
  let n := fieldAt l 6 2
  decide (n ≤ 1020) && decide (n ≤ s.packetLimit t) && decide (l.length = 20 + 4 * n)

def crcOk (l : List Byte) : Bool := fieldAt l (l.length - 4) 4 == (crc32c (l.take (l.length - 4))).toNat

def State.depth (s : State) (n : Nat) : Nat := fld (s.reg (0x60200 + 4 * n)) 0 7

/-- Shared blocks of queue storage not in use (R475). -/
def State.sharedFree (s : State) : Nat :=
  let enabled := ((List.range 64).filter fun n => s.depth n != 0).length
  let total := (524288 - 65536 - 4160 * enabled) / 64
  total - ((List.range 64).map fun n => ((s.queue n).pkts.map (·.shared)).sum).sum

/-- Blocks of a queue's own reservation not in use (R475). -/
def State.ownFree (s : State) (n : Nat) : Nat := 65 - ((s.queue n).pkts.map (·.own)).sum

/-- A not-before time judged at acceptance (R69, R474): the execute time, and whether the packet is late. -/
def judgeNb (nb : Word) (s : State) : Nat × Bool :=
  let d := (nb - lowW s.tb.ns).toNat
  if nb = 0 then (s.now, false)
  else if d = 0 then (s.now, false)
  else if d < 2 ^ 31 then (s.now + d, false)
  else (s.now, true)

def isResync (p : Pkt) : Bool := p.op == 0 && p.words.length == 1 && bit (wd p.words 0) 0

/-- An immediate refusal of an arriving packet (R470). -/
def turnAway (p : Pkt) (st : Status) (ws : List Word) (s : State) : State :=
  sendReply p { status := st, words := ws } { s with reply := some { status := st, words := ws } }

/-- Step 7: the sequence number is consumed, the packet recorded and queued. -/
def accept (p : Pkt) (nb : Word) (blocks : Nat) (s : State) : State :=
  let t := judgeNb nb s
  let sh := min blocks s.sharedFree
  let p := { p with got := s.now, execAt := t.1, late := t.2, arrival := s.host.arrivals, shared := sh, own := blocks - sh }
  let note : Recent := { seq := p.seq, tag := p.tag, crc := p.crc }
  let s := { s with reply := none, host := { s.host with arrivals := s.host.arrivals + 1 } }
  s.setQueue p.queue.val fun q => { q with
    expect := p.seq + 1
    recent := (note :: (if isResync p then [] else q.recent)).take 8
    pkts := q.pkts ++ [p] }

/-- Step 6: room in the queue (R476). -/
def room (p : Pkt) (nb : Word) (blocks : Nat) (s : State) : State :=
  let n := p.queue.val
  if (s.queue n).pkts.length < s.depth n ∧ blocks ≤ s.sharedFree + s.ownFree n then accept p nb blocks s
  else
    let s := { s with host := { s.host with ovf := satInc 255 s.host.ovf } }
    let s := s.setQueue n fun q => { q with ovf := satInc 255 q.ovf }
    turnAway p .busy [] (raise 218 (BitVec.ofNat 32 n) s)

/-- Step 5: the sequence number (R471, R472). -/
def sequence (p : Pkt) (nb : Word) (blocks : Nat) (s : State) : State :=
  let q := s.queue p.queue.val
  let d := (p.seq - q.expect).toNat
  if d = 0 ∨ isResync p then room p nb blocks s
  else if d < 2 ^ 31 then turnAway p .state [q.expect] s
  else match q.recent.find? fun x => x.seq == p.seq && x.tag == p.tag && x.crc == p.crc with
    | some x => match x.answer with
      | some r => sendReplyAt x.time p { r with words := r.words.take 4, dup := true } s
      | none => s
    | none => turnAway p .state [q.expect] s

/-- Steps 2 to 4 of Table 14-5 for a packet of a transport. -/
def checkPacket (t : Transport) (src : NetAddr) (l : List Byte) (s : State) : State :=
  let p := headerOf t src l
  if !lengthOk t l s then turnAway p .badLength [] s
  else if !crcOk l then
    let s := { s with host := { s.host with crcErr := satInc 255 s.host.crcErr } }
    turnAway p .badCrc [] (raise 219 (match t with | .spi => 0 | .eth => 1 | .i2c => 2) s)
  else if s.depth p.queue.val = 0 then turnAway p .badQueue [] s
  else sequence p (BitVec.ofNat 32 (fieldAt l 12 4)) ((l.length + 63) / 64) s

/-- The source address is allowed (R462). -/
def State.allowed (s : State) (src : NetAddr) : Bool :=
  src.ip &&& s.reg 0x6000C == s.reg 0x60008 &&& s.reg 0x6000C

/-- A packet arrives over SPI or Ethernet (R458, R470). The port of a domain that is not ON hears nothing. -/
def execCommandPacket (t : Transport) (src : NetAddr) (bytes : List Byte) (s : State) : Res :=
  .next <|
    if !s.isOn .atrium ∨ t = .i2c ∨ (t = .eth ∧ !s.isOn .net) then s
    else if t = .eth ∧ !s.allowed src then discardFrame s
    else if badMark bytes then discardFrame s
    else checkPacket t src bytes s

/-- The execute time of a waiting packet comes: TB reaches it, and the packet is ready (R474). -/
def execPacketExecuteTime (q : Fin 64) (s : State) : Res :=
  .next <| match (s.queue q.val).pkts with
    | p :: _ => if s.isOn .atrium then advanceTo p.execAt s else s
    | [] => s

/-! The SPI port (R459 to R461). -/

/-- Bytes taken from the items of the reply stream, in order; an item begun keeps its rest. -/
def takeStream (n : Nat) (l : List (List Byte)) : List Byte × List (List Byte) :=
  match l with
  | [] => ([], [])
  | x :: r =>
    if n < x.length then (x.take n, x.drop n :: r)
    else
      let y := takeStream (n - x.length) r
      (x ++ y.1, y.2)

/-- RS_READ clocks out `n` bytes: items in order, then 0x00 (R460). -/
def execRsRead (n : Nat) (s : State) : Res :=
  .next <|
    if !s.isOn .atrium then s
    else
      let y := takeStream n s.host.rs
      emit (.spi (bytesAt y.1 0 n)) { s with host := { s.host with rs := y.2 } }

/-- HOST_SPI_STAT (Table 14-13): a packet arrives in one command, so none is ever half received. -/
def spiStat (s : State) : Word := BitVec.ofNat 32 (min 65535 s.rsBytes)

def execStatRead (s : State) : Res :=
  .next (if s.isOn .atrium then emit (.spi (leBytes 4 (spiStat s).toNat)) s else s)

/-- A transfer code without a meaning is ignored and counted (Table 14-2). The three codes that have one are not this. -/
def execSpiCodeIgnored (code : Byte) (s : State) : Res :=
  .next (if s.isOn .atrium ∧ ¬(code = 1 ∨ code = 2 ∨ code = 3) then discardFrame s else s)

/-! The Ethernet port (R462, R465). -/

def execArpRequest (ip : Word) (src : NetAddr) (s : State) : Res :=
  .next <|
    if !s.isOn .net then s
    else if ip = s.reg 0x60004 then emit (.arpReply src) s else discardFrame s

def execEthFrameDiscard (s : State) : Res := .next (if s.isOn .net then discardFrame s else s)

/-- PHY register 1 is read at HOST_NET_CFG.PHYAD every 10 ms; `r` is what the PHY at that address answers. A change of link state
raises ETH_LINK (R465). -/
def execPhyLinkPoll (r : PhyRead) (s : State) : Res :=
  .next <|
    if !s.isOn .net then s
    else
      let changed := s.host.phyUp != r.up
      let s := emit (.mdioRead (fld (s.reg 0x60000) 24 5) 1)
        { s with host := { s.host with phyUp := r.up, phySpeed := r.speed.val } }
      if changed then raise 229 (pack [(0, 1, b2n r.up), (1, 2, r.speed.val)]) s else s

/-- PHY_RSTn is released 10 ms after NET goes ON (R465). -/
def execPhyResetRelease (s : State) : Res :=
  .next <| if s.isOn .net then { s with host := { s.host with phyRelease := true } } else s

/-- The PHY_RSTn ball is high. -/
def State.phyRstHigh (s : State) : Bool := s.isOn .net && s.host.phyRelease

/-! Ordered sets of the links (R100, Table 03-2). -/

/-- An ordered set of the ring; an ALM with its three data characters. -/
inductive RingSet where
  | idl | sot | eot | blk | prb | ldn
  | alm (a1 a2 a3 : Byte)
  deriving DecidableEq, Repr

/-- The four characters of an ordered set; the first is a K character. -/
def RingSet.bytes (x : RingSet) : List Byte :=
  match x with
  | .idl => [0xBC#8, 0x4A#8, 0x4A#8, 0x4A#8]
  | .sot => [0xFB#8, 0xB5#8, 0xB5#8, 0xB5#8]
  | .eot => [0xFD#8, 0xB5#8, 0xB5#8, 0xB5#8]
  | .alm a b c => [0x7C#8, a, b, c]
  | .blk => [0x5C#8, 0xF0#8, 0xF0#8, 0xF0#8]
  | .prb => [0xDC#8, 0xB5#8, 0xB5#8, 0xB5#8]
  | .ldn => [0x1C#8, 0xB5#8, 0xB5#8, 0xB5#8]

/-- The ordered set that a K character and three data characters make: BLK on two of its three, every other set on all. -/
def recognise (k a b c : Byte) : Option RingSet :=
  let l := [k, a, b, c]
  if k = 0x7C#8 then some (.alm a b c)
  else if k = 0x5C#8 then (if 2 ≤ ([a, b, c].filter (· == 0xF0#8)).length then some .blk else none)
  else [RingSet.idl, .sot, .eot, .prb, .ldn].find? fun x => x.bytes == l

/-! Stair frames (R367 to R369, Table 10-1). -/

/-- Stair traffic passes: ATRIUM and LINKS are ON (R367). -/
def State.stairRuns (s : State) : Bool := s.isOn .atrium && s.isOn .links

/-- This device's position. -/
def State.pos (s : State) : Nat := s.aon.straps.pos.val

/-- The device sits on chain W (R365). -/
def State.onChainW (s : State) : Bool := s.aon.straps.role == 2

/-- A stair frame: SSF, the header, the payload, the CRC-32C over bytes 4 to the end of the payload, and EOT. -/
def stairFrame (type : Byte) (src : Nat) (chainW : Bool) (dst hops : Byte) (payload : List Byte) : List Byte :=
  let body := [type, BitVec.ofNat 8 (src + 16 * b2n chainW), dst, hops] ++ leBytes 2 payload.length ++ payload
  [0xFB#8, 0x4A#8, 0x4A#8, 0x4A#8] ++ withCrc body ++ RingSet.eot.bytes

/-- The values of a payload, each in its number of bytes, in a layout of the model's own (log 47). -/
def payloadOf (l : List (Nat × Nat)) : List Byte := l.flatMap fun x => leBytes x.1 x.2

/-- A frame of this device leaves through a port that is up (R367). -/
def stairSend (sd : Bool) (type : Byte) (dst : Byte) (payload : List Byte) (s : State) : State :=
  if s.stairRuns && (if sd then s.stair.downUp else s.stair.upUp) then
    emit (.stair sd (stairFrame type s.pos s.onChainW dst 0 payload)) s
  else s

/-- A frame to position `p`: downwards to a higher one, else upwards (R364). -/
def stairTo (p : Nat) (type : Byte) (payload : List Byte) (s : State) : State :=
  stairSend (decide (s.pos < p)) type (BitVec.ofNat 8 p) payload s

/-- A frame to every position, sent both ways. -/
def stairBoth (type : Byte) (payload : List Byte) (s : State) : State :=
  stairSend true type 0xFF payload (stairSend false type 0xFF payload s)

/-- The points the newel shares. -/
def State.shareBits (s : State) : Nat := (((List.range 8).filter fun i => bit (s.reg (0x50120 + 4 * i)) 31).map fun i => 2 ^ i).sum

def shareBytes (m : ShareMsg) : List Byte :=
  payloadOf ((5, m.land40 % 2 ^ 40) :: (1, (m.vals.map fun x => 2 ^ x.1.val).sum) :: m.vals.map fun x => (4, x.2.toNat))

end Sys2Proof.Machine
end

