-- ==== Sys2Proof/Machine/SafeBlock.lean ====
section
/-! DEFINITION. The safety inputs, their test pulses, release, and the confirmed parameter block (chapter 11). -/

namespace Sys2Proof.Machine

open Sys2Proof

/-! The parameter block (R407, R408). -/

def State.safeWord (s : State) (i : Nat) : Word := vget s.safe.block i 0

/-- Check value of a block (R407). -/
def blockCheck (b : Vector Word 64) : Word := crc32 (wordBytes b.toList)

def pairEn (b : Vector Word 64) (i : Nat) : Bool := bit (vget b (2 + i) 0) 31
def pairAnti (b : Vector Word 64) (i : Nat) : Bool := bit (vget b (2 + i) 0) 30

/-- Source of channel `c` (0 = A, 1 = B) of pair `i`: 0 none, 1 TPO0, 2 TPO1. -/
def testOf (b : Vector Word 64) (i c : Nat) : Nat := fld (vget b (2 + i) 0) (if c = 0 then 28 else 26) 2
def discT (b : Vector Word 64) (i : Nat) : Nat := fld (vget b (2 + i) 0) 0 9
def tpoEn (b : Vector Word 64) (o : Nat) : Bool := bit (vget b 1 0) (8 + o)

/-- SIN_FILT in samples of 10 µs. -/
def sinFilt (b : Vector Word 64) : Nat := fld (vget b 1 0) 0 8

def State.pairOn (s : State) (i : Nat) : Bool := pairEn s.safe.block i

/-- Writable bits of word `i` of the block; reserved bytes are 0 (R10, R407). -/
def blockMask (i : Nat) : Word :=
  if i = 0 then 0xFFFF0000#32
  else if i = 1 then 0x00FF03FF#32
  else if i < 6 then 0xFC0001FF#32
  else if i < 32 then 0
  else 0xFFFFFFFF#32

/-- A word of the block as a write leaves it. -/
def blockWord (i : Nat) (v : Word) : Word := (v &&& blockMask i) ||| (if i = 0 then 1 else 0)

/-- Words written into the block from word `n`. -/
def blockWrite (n : Nat) (l : List Word) (b : Vector Word 64) : Vector Word 64 :=
  match l with
  | [] => b
  | w :: r => blockWrite (n + 1) r (vset b n (blockWord n w))

/-- RANGE of R408: a value outside the register maps, or SIN_FILT in breach of R399. -/
def blockRange (b : Vector Word 64) : Bool :=
  let fbT := fld (vget b 1 0) 16 8
  let filt := sinFilt b
  let tested := (List.range 4).any fun i => pairEn b i && (testOf b i 0 != 0 || testOf b i 1 != 0)
  decide (1 ≤ fbT) && decide (fbT ≤ 100) && decide (5 ≤ filt) && decide (filt ≤ 200)
    && (List.range 4).all (fun i => decide (1 ≤ discT b i) && decide (discT b i ≤ 500)
      && (!pairEn b i || (testOf b i 0 != 3 && testOf b i 1 != 3)))
    && (!tested || decide (25 ≤ filt))

/-- BAD_PARAM of R408: an enabled pair names a source that does not pulse. -/
def blockSources (b : Vector Word 64) : Bool :=
  (List.range 4).all fun i => !pairEn b i || [0, 1].all fun c =>
    let t := testOf b i c
    t = 0 || t = 3 || tpoEn b (t - 1)

/-- SAFE_PARAM (R408, R517). -/
def execSafeParam (w : List Word) (s : State) : Res :=
  .next <|
    let c := fld (wd w 0) 8 7
    command (w.length == 1 + c && !w.isEmpty) (fun s =>
      let n := fld (wd w 0) 0 6
      if !s.isOn .safety then refuse .domainOff s
      else if s.safe.confirmed then refuse .locked s
      else if c = 0 ∨ 64 < c ∨ 64 < n + c then refuse .badParam s
      else
        let b := blockWrite n w.tail s.safe.block
        if !blockSources b then refuse .badParam s
        else if !blockRange b then refuse .range s
        else reply .ok [] { s with safe := { s.safe with block := b } }) s

/-- SAFE_CRC_READ (R409). -/
def execSafeCrcRead (w : List Word) (s : State) : Res :=
  .next <| command w.isEmpty (fun s =>
    if !s.isOn .safety then refuse .domainOff s
    else reply .ok (blockCheck s.safe.block :: s.safe.block.toList) s) s

/-- SAFE_CONFIRM (R408, R409): the confirmation is queued as a record of NVM, and the reply waits until it is committed. -/
def execSafeConfirm (w : List Word) (s : State) : Res :=
  .next <| command (w.length == 2) (fun s =>
    if !s.isOn .safety || !s.isOn .nvm then refuse .domainOff s
    else if wd w 1 ≠ blockCheck s.safe.block then refuse .badParam s
    else nvmWrite 0x03 0 (.safety s.safe.block (wd w 1)) (.confirm s.host.cur) (wait s)) s

/-- UNCONF and its event (Table 11-1). -/
def unconfirmed (s : State) : State := if s.safe.cause.getLsbD 4 then s else raise 198 0 (setCause 4 s)

/-- A SAFE_CONFIRM that waits for a record that is not written is answered NVM_FAIL (R409). -/
def confirmLost (x : NvmThen) (s : State) : State :=
  match x with
  | .confirm pkt => finish pkt { status := .nvmFail } s
  | _ => s

/-- No safety record is written any more (R408): work on one is dropped, but for a page program in progress, which completes
(R494) and leads to no marker; a SAFE_CONFIRM that waits for its record is answered NVM_FAIL (R409). -/
def dropConfirms (s : State) : State :=
  let mine := fun (j : NvmJob) => j.record.type == 0x03
  let jobs := s.nvm.jobs
  let run := (if s.nvm.busy then jobs.take 1 else []).map fun j =>
    if mine j then { j with dropped := true, after := .none } else j
  let rest := (if s.nvm.busy then jobs.drop 1 else jobs).filter fun j => !mine j
  let s := { s with nvm := { s.nvm with jobs := run ++ rest, recs := s.nvm.recs.filter fun r => r.type != 0x03 } }
  each (jobs.filter mine) (fun j => confirmLost j.after) s

/-- SAFE_CONFIRM with WITHDRAW (R408): the confirmation ends, its record is erased. -/
def execSafeConfirmWithdraw (w : List Word) (s : State) : Res :=
  .next <| command (w.length == 2) (fun s =>
    if !s.isOn .safety || !s.isOn .nvm then refuse .domainOff s
    else
      let s := dropConfirms { s with safe := { s.safe with confirmed := false, conf := 0 } }
      reply .ok [] (unconfirmed s)) s

/-- A confirmation has been stored: the parameters are confirmed (R409). -/
def confirmDone (pkt : Option Pkt) (check : Word) (s : State) : State :=
  if s.isOn .safety && blockCheck s.safe.block == check then
    finish pkt { status := .ok } { s with safe := { s.safe with confirmed := true, conf := check, crcOk := true } }
  else finish pkt { status := .nvmFail } s

/-- CRC and its event (R410). -/
def crcFail (s : State) : State :=
  let s := { s with safe := { s.safe with crcOk := false } }
  if s.safe.cause.getLsbD 5 then s else raise 199 0 (setCause 5 s)

/-- Every 100 ms the check value is recomputed and compared with the confirmed one (R410). -/
def execCheckValueRecompute (s : State) : Res :=
  .next <|
    if s.isOn .safety && s.safe.confirmed && blockCheck s.safe.block != s.safe.conf
    then crcFail s else s

/-- The newest committed safety record (R410, R491). -/
def State.safetyRecord (s : State) : Option (Vector Word 64 × Word) :=
  let r := s.nvm.recs.filter fun x => x.type == 0x03
  match r.foldl (fun (a : Option NvmRec) x => match a with
      | some y => if y.serial < x.serial then some x else a
      | none => some x) none with
  | some x => match x.data with
    | .safety b c => some (b, c)
    | _ => none
  | none => none

/-- SAFETY arrives at ON, from OFF or RET: the running state starts afresh with START set (R390, R445). -/
def safetyArrive (s : State) : State :=
  let s := setCause 0 { s with safe := { cause := 0, block := s.safe.block } }
  if s.atr.err then setCause 12 s else s

/-- The work of SAFETY's arrival: the parameter block is loaded and checked, and takes its reset values where no record is committed
(R410, R445). NVM must be ON to be read; while it is not, the block stays as it is, unconfirmed (log 38). -/
def safetyLoad (s : State) : State :=
  match (if s.isOn .nvm then s.safetyRecord else none) with
  | some (b, c) =>
    let ok := blockCheck b == c
    let s := { s with safe := { s.safe with block := b, confirmed := ok, conf := if ok then c else 0 } }
    if ok then s else crcFail (unconfirmed s)
  | none => unconfirmed (if s.isOn .nvm then { s with safe := { s.safe with block := ({} : Safe).block } } else s)

/-! Status (R402). -/

/-- A pair's latched test fault may be released: three windows in a row of each of its sources without a failed
check. -/
def State.testGood (s : State) (i : Nat) : Bool :=
  [0, 1].all fun c =>
    let t := testOf s.safe.block i c
    t = 0 || t = 3 || decide (3 ≤ vget (vget s.safe.win (t - 1) {}).good i 0)

/-- The die temperature is below the shutdown level less its hysteresis at every sensor (Table 11-1, THERM). -/
def State.dieCool (s : State) : Bool :=
  s.therm.die.toList.all fun d => match d with
    | .val t => decide (t < (BitVec.ofNat 16 (fld (s.reg 0x40024) 0 16)).toInt - 32 * (fld (s.reg 0x40024) 24 8 : Int))
    | _ => true

/-- The condition of Table 11-1 for RELEASE of cause `i`. -/
def State.causeClear (s : State) (i : Nat) : Bool :=
  match i with
  | 2 => (List.range 4).all fun p => !s.safe.discLatch.getLsbD p || s.safe.seenSafe.getLsbD p
  | 3 => (List.range 4).all fun p => !s.safe.testFail.getLsbD p || s.testGood p
  | 4 => s.safe.confirmed
  | 5 => s.safe.confirmed && s.safe.crcOk
  | 6 => decide (100 ≤ s.safe.fbLow)
  | 10 => !s.tb.untrusted
  | 11 => !s.tb.gross
  | 12 => false
  | 13 => !s.atr.halted
  | 14 => s.dieCool
  | 15 => !s.supplyBad
  | _ => true

/-- RELEASE would be accepted here (R402). -/
def State.releasable (s : State) : Bool :=
  s.isOn .safety
    && (List.range 17).all (fun i => !s.safe.cause.getLsbD i || s.causeClear i)
    && (List.range 4).all (fun i => !s.pairOn i || decide (sinFilt s.safe.block ≤ vget s.safe.runRun i 0))
    && !s.safe.fbIn && !s.tb.gross

/-- SAFE_STATUS. -/
def safeStatus (s : State) : Word :=
  pack [(31, 1, b2n s.ssb), (30, 1, b2n s.safe.confirmed), (29, 1, b2n s.releasable), (28, 1, b2n s.safeBlkHigh),
    (27, 1, b2n s.safe.fbIn), (16, 8, s.safe.sinRaw.toNat), (12, 4, s.safe.discRun.toNat), (8, 4, s.safe.demand.toNat),
    (4, 4, s.safe.testFail.toNat), (0, 4, s.safe.discLatch.toNat)]

def safeCauseWord (s : State) : Word := s.safe.cause.setWidth 32

/-- SAFE_STATUS (R517). -/
def execSafeStatus (w : List Word) (s : State) : Res :=
  .next <| command w.isEmpty (fun s =>
    if !s.isOn .safety then refuse .domainOff s
    else reply .ok [safeStatus s, safeCauseWord s, blockCheck s.safe.block, s.safe.conf] s) s

/-- RELEASE would be accepted: here, and in a pair with a standby in step by that one's last report too (R402, R406). -/
def State.releaseOk (s : State) : Bool :=
  s.releasable && (!(s.twin.state == 1 && s.twin.partnerInStep) || s.twin.partnerReleasable)

/-- An accepted release (R403): every cause and latch clears, and FB_T runs. A block whose departure has not landed still
lands, so that every cell stays in BLOCK (`Safe.ssbDue`). -/
def releaseNow (s : State) : State :=
  { s with safe := { s.safe with
      cause := 0, testFail := 0, discLatch := 0, seenSafe := 0, fbWait := true, fbDiffer := 0, fbLow := 0 } }

/-- RELEASE (R402, R406). -/
def execRelease (w : List Word) (s : State) : Res :=
  .next <| command w.isEmpty (fun s =>
    if !s.isOn .safety then refuse .domainOff s
    else if s.releaseOk then
      let s := releaseNow s
      reply .ok [safeCauseWord s, safeStatus s] s
    else reply .state [safeCauseWord s, safeStatus s] s) s

/-- A write of 1 to SAFE_CTRL.DEMAND sets cause HOST (R390). -/
def execDemand (s : State) : Res := .next (setCause 7 s)

/-! Inputs (R394 to R401). Channel 2i is SINiA, channel 2i + 1 is SINiB. -/

/-- The level a channel has when safe (Table 11-2). -/
def safeLevel (b : Vector Word 64) (ch : Nat) : Bool := pairAnti b (ch / 2) && ch % 2 == 1

def bitsOf {n : Nat} (f : Nat → Bool) : BitVec n :=
  BitVec.ofNat n (((List.range n).map fun i => if f i then 2 ^ i else 0).sum)

/-- A channel's sample with R400 applied: inside a window of its own source, its last sample before the window. -/
def effective (b : Vector Word 64) (win : Vector TestWindow 2) (sin : Byte) (ch : Nat) : Bool :=
  let t := testOf b (ch / 2) (ch % 2)
  let w := vget win (t - 1) {}
  if (t = 1 ∨ t = 2) ∧ w.open_ then w.before.getLsbD ch else sin.getLsbD ch

/-- What a sample adds to an open window. -/
def windowSample (sin : Byte) (low : Bool) (w : TestWindow) : TestWindow :=
  if w.open_ then
    { w with readLow := w.readLow || low, allOne := w.allOne &&& sin, anyZero := w.anyZero ||| ~~~sin, any := true }
  else w

/-- Test faults latched for the pairs of a mask (R398): TEST, the latches, and the event with its TPO bits. -/
def testFault (pairs : BitVec 4) (tpo : Nat) (s : State) : State :=
  if pairs = 0 then s
  else
    let s := { s with safe := { s.safe with
      testFail := s.safe.testFail ||| pairs
      win := s.safe.win.map fun w => { w with good := Vector.ofFn fun i => if pairs.getLsbD i.val then 0 else w.good[i] } } }
    raise 197 (pack [(0, 4, pairs.toNat), (4, 2, tpo)]) (setCause 3 s)

/-- The pairs with a channel among `chs`. -/
def pairsOf (chs : Byte) : BitVec 4 := bitsOf fun i => chs.getLsbD (2 * i) || chs.getLsbD (2 * i + 1)

/-- Channels of enabled pairs fed from source `o`. -/
def State.fedFrom (s : State) (o : Nat) : Byte :=
  bitsOf fun ch => s.pairOn (ch / 2) && testOf s.safe.block (ch / 2) (ch % 2) == o + 1

/-- The sample after a window judges the channels that fell in the other source's window (R398). -/
def judgeCross (sin : Byte) (o : Nat) (s : State) : State :=
  let w := vget s.safe.win o {}
  if w.judge then
    let bad := w.cross &&& sin
    testFault (pairsOf bad) 0 { s with safe := { s.safe with win := vset s.safe.win o { w with judge := false, cross := 0 } } }
  else s

/-- A readback fault (R392). -/
def fbFault (s : State) : State := raise 197 (bitAt true 6) (setCause 6 s)

/-- VIN lies below 5 V, by its newest reading or as found below its window (R547). -/
def State.vinBelow5 (s : State) : Bool := s.aon.vinUv || (decide (0 < s.aon.volts.vin) && decide (s.aon.volts.vin < 5000))

/-- The channels as they read: with VIN below 5 V one fed from a TPO output reads its safe level, whatever its contact (R547). -/
def State.sinReads (s : State) (sin : Byte) : Byte :=
  let fed := s.fedFrom 0 ||| s.fedFrom 1
  bitsOf fun ch => if s.vinBelow5 && fed.getLsbD ch then safeLevel s.safe.block ch else sin.getLsbD ch

/-- Every 10 µs the channels and SAFE_FBn are sampled (R392, R395): the status bits and the histories that R396 to
R402 count. The events SIN_DEMAND, SIN_DISC and FB_READBACK_FAULT say when a count has run out. -/
def execSafetyInputSample (sin : Byte) (fb : Bool) (tpo : BitVec 2) (s : State) : Res :=
  .next <|
    if !s.isOn .safety then s
    else
      let sin := s.sinReads sin
      let s := judgeCross sin 1 (judgeCross sin 0 s)
      let b := s.safe.block
      let win := Vector.ofFn fun (o : Fin 2) => windowSample sin (!tpo.getLsbD o.val) s.safe.win[o]
      let eff : Byte := bitsOf fun ch => effective b win sin ch
      let safe := fun (v : Byte) (ch : Nat) => v.getLsbD ch == safeLevel b ch
      let safeRun := Vector.ofFn fun (ch : Fin 8) => if safe sin ch.val then satInc 65535 s.safe.safeRun[ch] else 0
      let bothSafe := fun i => safe eff (2 * i) && safe eff (2 * i + 1)
      let bothRun := fun i => !safe eff (2 * i) && !safe eff (2 * i + 1)
      let driven := s.safeBlkHigh
      { s with safe := { s.safe with
          sinRaw := sin, win := win, safeRun := safeRun
          demand := bitsOf fun i => pairEn b i
            && (decide (sinFilt b ≤ vget safeRun (2 * i) 0) || decide (sinFilt b ≤ vget safeRun (2 * i + 1) 0))
          discRun := bitsOf fun i => pairEn b i && !bothSafe i && !bothRun i
          diffRun := Vector.ofFn fun (i : Fin 4) =>
            if !bothSafe i.val && !bothRun i.val then satInc 65535 s.safe.diffRun[i] else 0
          runRun := Vector.ofFn fun (i : Fin 4) => if bothRun i.val then satInc 65535 s.safe.runRun[i] else 0
          seenSafe := s.safe.seenSafe ||| bitsOf fun i => bothSafe i && s.safe.discLatch.getLsbD i
          fbIn := fb
          fbWait := s.safe.fbWait && !fb
          fbDiffer := if fb != driven then satInc 65535 s.safe.fbDiffer else 0
          fbLow := if fb then 0 else satInc 65535 s.safe.fbLow } }

/-- A channel of pair `i` has read its safe level for SIN_FILT: channel A, or B where `b` holds (R396). -/
def execSinDemand (i : Fin 4) (_b : Bool) (s : State) : Res :=
  .next <|
    if s.isOn .safety && s.pairOn i.val then
      setCause 1 { s with safe := { s.safe with demand := s.safe.demand ||| (1#4 <<< i.val) } }
    else s

/-- The channels of pair `i` have differed for DISC_T: a discrepancy fault, whether or not an earlier one is still latched. The
pair must be seen at safe level again from this fault on (R401, Table 11-1). -/
def execSinDisc (i : Fin 4) (s : State) : Res :=
  .next <|
    if s.isOn .safety && s.pairOn i.val then
      raise (193 + i.val) 0 <| setCause 2 { s with safe := { s.safe with
        discLatch := s.safe.discLatch ||| (1#4 <<< i.val)
        seenSafe := s.safe.seenSafe &&& ~~~(1#4 <<< i.val) } }
    else s

/-! Test pulses (R397, R398). -/

/-- The level a TPO output drives. -/
def State.tpoHigh (s : State) (o : Nat) : Bool := s.isOn .safety && !(vget s.safe.win o {}).low

/-- The next falling edge of source `o`: a multiple of 20 ms, 10 ms later for TPO1. -/
def tpoInstant (o : Nat) (s : State) : Nat :=
  if o = 0 then gridUp 20000000 s.now else gridUp 20000000 (s.now + 10000000) - 10000000

def setWin (o : Nat) (f : TestWindow → TestWindow) (s : State) : State :=
  { s with safe := { s.safe with win := vmod s.safe.win o f } }

/-- An enabled TPO falls, and its test window opens. -/
def execTpoPulse (o : Fin 2) (s : State) : Res :=
  .next <|
    if s.isOn .safety && tpoEn s.safe.block o.val then
      let s := advanceTo (tpoInstant o.val s) s
      let t := s.now
      let b := s.safe.sinRaw
      setWin o.val (fun w => { w with
        open_ := true, low := true, readLow := false, before := b, allOne := 0xFF, anyZero := 0, at_ := t, any := false }) s
    else s

/-- 200 µs after its falling edge the output goes high again. -/
def execTpoPulseEnd (o : Fin 2) (s : State) : Res :=
  .next <|
    let w := vget s.safe.win o.val {}
    if s.isOn .safety && w.low then setWin o.val (fun w => { w with low := false }) (advanceTo (w.at_ + 200000) s) else s

/-- The window ends after 250 µs, and the channels fed from its source are checked; a window without a sample checks
none. Channels of the other source are judged by the next sample. -/
def execTestWindowEnd (o : Fin 2) (s : State) : Res :=
  .next <|
    let w := vget s.safe.win o.val {}
    if s.isOn .safety && w.open_ then
      let s := advanceTo (w.at_ + 250000) s
      let own := s.fedFrom o.val
      let stuck := own &&& w.before &&& w.allOne
      let tpoBad := !w.readLow
      let bad : Byte := if !w.any then 0 else if tpoBad then own else stuck
      let pairs := pairsOf bad
      let s := setWin o.val (fun w => { w with
        open_ := false, judge := w.any, cross := s.fedFrom (1 - o.val) &&& w.before &&& w.anyZero
        good := if w.any then w.good.map (satInc 255) else w.good }) s
      testFault pairs (if tpoBad && w.any then 2 ^ o.val else 0) s
    else s

/-! Readback (R392). -/

/-- Three consecutive samples differed from the level driven. -/
def execFbReadbackFault (s : State) : Res := .next (if s.isOn .safety then fbFault s else s)

/-- FB_T has passed since a release without SAFE_FBn reading high. -/
def execFbTExpiry (s : State) : Res :=
  .next <|
    if s.isOn .safety && s.safe.fbWait then fbFault { s with safe := { s.safe with fbWait := false } } else s

end Sys2Proof.Machine
end

