-- ==== Sys2Proof/Machine/Thermal.lean ====
section
/-! DEFINITION. The thermal part of a housekeeping round, the throttle and its ceiling (chapter 12). Temperatures are
in 1/32 °C, the unit of the limits. Sensor codes are 0 to 3 for D0 to D3, 4 to 7 for TH0 to TH3, and 0x100 + 4k + c. -/

namespace Sys2Proof.Machine

open Sys2Proof

/-- A signed half-word of a register. -/
def half (w : Word) (lo : Nat) : Int := sfld w lo 16

/-- Address of the two limit words of a sensor (Table 12-3). -/
def limAddr (code : Nat) : Nat :=
  if code < 4 then 0x40020 else if code < 8 then 0x40040 + 0x20 * (code - 4) else 0x40100 + 8 * (code % 4)

def State.warnLevel (s : State) (code : Nat) : Int := half (s.reg (limAddr code)) 0
def State.throttleLevel (s : State) (code : Nat) : Int := half (s.reg (limAddr code)) 16
def State.tHyst (s : State) (code : Nat) : Int := 32 * (fld (s.reg (limAddr code + 4)) 24 8 : Int)
def State.shutLevel (s : State) : Int := half (s.reg 0x40024) 0

def State.thMode (s : State) (i : Nat) : Nat := fld (s.reg (0x40048 + 0x20 * i)) 0 2
def State.hkPeriod (s : State) : Nat := max 1 (fld (s.reg 0x40000) 0 8)

/-- m of R424. -/
def State.rateSpan (s : State) : Nat := (1000 + s.hkPeriod - 1) / s.hkPeriod

/-- Supervision of a sensor by its code. -/
def State.sens (s : State) (code : Nat) : SensorState :=
  if code < 8 then vget s.therm.sens code {} else vget (s.cell ((code - 0x100) / 4)).temps (code % 4) {}

def State.setSens (s : State) (code : Nat) (f : SensorState → SensorState) : State :=
  if code < 8 then { s with therm := { s.therm with sens := vmod s.therm.sens code f } }
  else s.setCell ((code - 0x100) / 4) fun c => { c with temps := vmod c.temps (code % 4) f }

/-- The code of a sensor. -/
def sensorCode (x : Sensor) : Nat :=
  match x with
  | .die i => i.val
  | .th i => 4 + i.val
  | .cell k c => 0x100 + 4 * k.val + c.val

/-- Cells whose reports are supervised: installed, their hall ON. -/
def State.watched (s : State) : List Nat := (List.range 63).filter fun k => s.installed k && s.fltOn (k / 7)

/-- Every enabled sensor (Table 12-1). -/
def State.sensors (s : State) : List Nat :=
  [0, 1, 2, 3] ++ ((List.range 4).filter fun i => s.thMode i != 0).map (4 + ·)
    ++ s.watched.flatMap fun k => (List.range 4).map fun c => 0x100 + 4 * k + c

/-- Neighbour set of a sensor (R412). -/
def State.neighbours (s : State) (code : Nat) : List Nat :=
  if code < 4 then [0, 1, 2, 3].filter (· != code)
  else if code < 8 then
    (setBits 8 (fld (s.reg (0x40048 + 0x20 * (code - 4))) 8 8)).filter (· != code)
  else
    let k := (code - 0x100) / 4
    let c := code % 4
    let own := ((List.range 4).filter (· != c)).map fun d => 0x100 + 4 * k + d
    let beside := ((if k % 7 = 0 then [] else [k - 1]) ++ (if k % 7 = 6 then [] else [k + 1])).filter s.isActive
    own ++ beside.map fun n => 0x100 + 4 * n + c

/-- Kelvin as °C in 1/32 K. -/
def fromKelvin (t : F32) : Int := F32.rne (F32.toRat t * 32 - 27315 * 32 / 100)

/-- RS of a remote diode: with RS_AUTO from the three currents, whose logarithms leave V(160 µA) − 2 V(40 µA) + V(10 µA)
across 90 µA (R414). -/
def diodeRs (v10 v40 v160 : Rat) : F32 := F32.ofRat ((v160 - 2 * v40 + v10) / (90 / 1000000))

/-- What a pin channel gives in a round (R414, R415). -/
def pinReading (i : Nat) (x : PinInput) (s : State) : Reading × Option F32 :=
  let p := fun n => s.reg (0x4004C + 0x20 * i + 4 * n)
  match x with
  | .none => (.none, none)
  | .diode v10 v40 v160 =>
    if s.thMode i ≠ 1 then (.none, none)
    else if 1 < v10 ∨ v10 < 1 / 10 then (.bad, none)
    else
      let auto := bit (s.reg (0x40048 + 0x20 * i)) 16
      let rs := if auto then diodeRs v10 v40 v160 else p 1
      let dv := F32.ofRat (v160 - v10)
      let num := F32.mul (F32.ofRat (1160452 / 100)) (F32.sub dv (F32.mul rs (F32.ofRat (150 / 1000000))))
      let t := F32.div num (F32.mul (p 0) (F32.ln (F32.ofNat 16)))
      (.val (fromKelvin t), if auto then some rs else none)
  | .ntc r =>
    if s.thMode i ≠ 2 then (.none, none)
    else if 2000000 < r ∨ r < 50 then (.bad, none)
    else
      let l := F32.ln (F32.ofRat r)
      let inv := F32.add (F32.add (p 0) (F32.mul (p 1) l)) (F32.mul (p 2) (F32.mul l (F32.mul l l)))
      (.val (fromKelvin (F32.div F32.one inv)), none)

/-- What a round takes from a sensor (step 1 of Table 12-2). -/
def sensorReading (die : Vector Reading 4) (th : List Reading) (s : State) (code : Nat) : Reading :=
  if code < 4 then vget die code .none
  else if code < 8 then th.getD (code - 4) .none
  else match (s.cell ((code - 0x100) / 4)).newTemps with
    | some v =>
      let t := vget v (code % 4) 0
      if t < -55 * 32 ∨ 250 * 32 < t then .bad else .val t
    | none => .none

/-- Declare a sensor failed (R419), pinning it while a throttle is on (R429). -/
def failSensor (code : Nat) (s : State) : State :=
  if (s.sens code).fail then s
  else
    let pin := s.therm.tstate != 0
    let s := s.setSens code fun x => { x with
      fail := true, dev := 0, pin := x.pin || pin, vpin := if pin then x.val.getD 0 else x.vpin }
    raise 204 (BitVec.ofNat 32 code) s

/-- Ascending insertion. -/
def insertInt (x : Int) (l : List Int) : List Int :=
  match l with
  | [] => [x]
  | y :: r => if x ≤ y then x :: y :: r else y :: insertInt x r

/-- Twice the median (R418): of an even count the two middle values together. -/
def median2 (l : List Int) : Int :=
  let a := l.foldr insertInt []
  let n := a.length
  if n % 2 = 1 then 2 * a.getD (n / 2) 0 else a.getD (n / 2 - 1) 0 + a.getD (n / 2) 0

/-- Values of the valid neighbours: enabled, with a value in this round, not failed (R418). -/
def validValues (vals : Table Int) (s : State) (code : Nat) : List Int :=
  (s.neighbours code).filterMap fun n => if (s.sens n).fail then none else tget vals n

/-- The cross-check of one sensor (R418, R419), against the state `s0` of the round's declarations. -/
def crossCheck (vals : Table Int) (s0 : State) (code : Nat) (s : State) : State :=
  match tget vals code with
  | none => s
  | some v =>
    let ns := validValues vals s0 code
    if (s0.sens code).fail ∨ ns.length < 2 then s
    else
      let delta := 32 * (fld (s.reg 0x40000) 8 8 : Int)
      let off := (2 * v - median2 ns).natAbs
      if 2 * delta.toNat < off then
        let n := (s.sens code).dev + 1
        let s := s.setSens code fun x => { x with dev := n }
        if 3 ≤ n then failSensor code s else s
      else s.setSens code fun x => { x with dev := 0 }

/-- The supervised value of a sensor (R420, R421, R429) and its history. -/
def supervise (vals : Table Int) (s0 : State) (code : Nat) (s : State) : State :=
  let x := s.sens code
  let own := match tget vals code with
    | some v => some v
    | none => x.val
  let margin := 32 * (fld (s.reg 0x40000) 16 8 : Int)
  let subst := match validValues vals s0 code with
    | [] => s.throttleLevel code + 32
    | a :: r => r.foldl max a + margin
  let base := if x.fail then some subst else own
  let sup := match base with
    | some b => some (if x.pin then max b x.vpin else b)
    | none => none
  let hold := if x.fail != x.sub then s.rateSpan else x.rateHold
  s.setSens code fun x => { x with
    val := if x.fail then x.val else own
    sub := x.fail, sup := sup, rateHold := hold
    hist := match sup with
      | some t => (t :: x.hist).take (s.rateSpan + 1)
      | none => x.hist }

/-- The rate of rise in 1/32 K per s (R424), none while it is not evaluated. -/
def State.rate (s : State) (code : Nat) : Option Rat :=
  let x := s.sens code
  let m := s.rateSpan
  if 0 < x.rateHold then none
  else match x.hist, x.hist[m]? with
    | a :: _, some b => some (((a - b : Int) : Rat) * 1000 / (m * s.hkPeriod : Nat))
    | _, _ => none

/-- Rates against RISE_WARN and RISE_LIMIT (R424, R425). -/
def rateCheck (code : Nat) (s : State) : State :=
  let w := fld (s.reg 0x40008) 0 16
  let l := fld (s.reg 0x40008) 16 16
  let r := s.rate code
  let atLeast := fun (n : Nat) => match r with
    | some q => n != 0 && decide ((n : Rat) ≤ q)
    | none => false
  let was := (s.sens code).rateHigh
  let s := s.setSens code fun x => { x with
    rateHigh := if r.isSome then atLeast w else x.rateHigh
    rateLimit := atLeast l
    rateHold := x.rateHold - 1 }
  if atLeast w && !was then raise 201 (BitVec.ofNat 32 code) s else s

/-- A supervised value against a level. -/
def State.supAtLeast (s : State) (code : Nat) (level : Int) : Bool :=
  match (s.sens code).sup with
  | some t => decide (level ≤ t)
  | none => false

/-- Warn levels (R423). -/
def warnCheck (codes : List Nat) (s : State) : State :=
  let hot := codes.find? fun c => s.supAtLeast c (s.warnLevel c)
  let cool := codes.all fun c => !s.supAtLeast c (s.warnLevel c - s.tHyst c)
  let was := s.therm.warnArmed
  let s := { s with therm := { s.therm with
    warn := hot.isSome, warnArmed := if hot.isSome then false else was || cool } }
  match hot with
  | some c => if was then raise 200 (BitVec.ofNat 32 c) s else s
  | none => s

/-- A cell is in DERATE (R291). -/
def State.anyDerate (s : State) : Bool := s.watched.any fun k => (s.cell k).derate

/-- The throttle condition holds (R425). -/
def State.throttleHolds (s : State) (codes : List Nat) : Bool :=
  codes.any (fun c => s.supAtLeast c (s.throttleLevel c)) || codes.any (fun c => (s.sens c).rateLimit) || s.anyDerate

/-- The throttle condition clears (R425). -/
def State.throttleClears (s : State) (codes : List Nat) : Bool :=
  codes.all (fun c => !s.supAtLeast c (s.throttleLevel c - s.tHyst c))
    && codes.all (fun c => !(s.sens c).rateLimit) && !s.anyDerate

def ceilFull (s : State) : F32 := s.reg 0x40014

/-- ENFORCED is entered: the ceiling starts at group 0's output of the previous period (R427). -/
def enforce (s : State) : State :=
  raise 203 0 { s with therm := { s.therm with
    tstate := 2, ceil := F32.min (ceilFull s) (s.atr.ctx.group 0).g } }

/-- In REQUESTED after the grace, a power above THM_PTGT enforces (Table 12-4). -/
def judgeGrace (s : State) : State :=
  if s.therm.graceAt ≤ s.now ∧ F32.lt (s.reg 0x40010) s.therm.pMean then enforce s else s

/-- Step 5 of a round (R426, R430). -/
def throttleStep (codes : List Nat) (s : State) : State :=
  let holds := s.throttleHolds codes
  let clears := s.throttleClears codes
  if s.standby then
    if holds && !s.therm.standbyReq then raise 202 0 { s with therm := { s.therm with standbyReq := true } }
    else if clears then { s with therm := { s.therm with standbyReq := false } }
    else s
  else match s.therm.tstate with
    | 0 =>
      if holds then
        let g := fld (s.reg 0x40004) 0 12
        let s := raise 202 0 { s with therm := { s.therm with tstate := 1, graceAt := s.now + g * 10000000 } }
        if g = 0 then judgeGrace s else s
      else s
    | 1 => if clears then { s with therm := { s.therm with tstate := 0 } } else judgeGrace s
    | 2 => if clears then { s with therm := { s.therm with tstate := 3 } } else s
    | _ =>
      if holds then enforce s
      else if s.therm.ceil = ceilFull s then { s with therm := { s.therm with tstate := 0 } }
      else s

/-- P_mean of the round (Table 12-4) as a magnitude. -/
def meanPower (s : State) : State :=
  let t := s.therm
  let p := if t.pCount = 0 then t.pMean else F32.abs (F32.div t.pSum (F32.ofNat t.pCount))
  { s with therm := { t with pMean := p, pSum := 0, pCount := 0 } }

/-- The RS values a round measured stand in THM_RS (R414). -/
def keepRs (pins : List (Reading × Option F32)) (s : State) : State :=
  each (List.range 4) (fun i s => match (pins.getD i (.none, none)).2 with
    | some r => { s with therm := { s.therm with rs := vset s.therm.rs i r } }
    | none => s) s

/-- Sensors whose channel was found open or shorted fail. -/
def failBad (readings : List (Nat × Reading)) (s : State) : State :=
  each readings (fun x s => if x.2 = .bad then failSensor x.1 s else s) s

/-- The temperatures among a round's readings. -/
def roundValues (readings : List (Nat × Reading)) : Table Int :=
  readings.filterMap fun x => match x.2 with
    | .val t => some (x.1, t)
    | _ => none

/-- A TH channel in MODE 0 is no sensor: a rate after it comes back has nothing of the rounds before (R424). -/
def dropRates (s : State) : State :=
  each (((List.range 4).filter fun i => s.thMode i == 0).map (4 + ·)) (fun code s => s.setSens code fun x =>
    { x with hist := [], rateHold := 0, rateHigh := false, rateLimit := false }) s

/-- Steps 1 to 5 of a round (Table 12-2). -/
def thermalRound (th : Vector PinInput 4) (s : State) : State :=
  let pins := (List.range 4).map fun i => pinReading i (vget th i .none) s
  let s := dropRates (keepRs pins s)
  let codes := s.sensors
  let readings := codes.map fun c => (c, sensorReading s.therm.die (pins.map (·.1)) s c)
  let vals := roundValues readings
  let s := failBad readings s
  let s := each codes (crossCheck vals s) s
  let s := each codes (supervise vals s) s
  let s := each codes rateCheck s
  let s := warnCheck codes s
  let s := throttleStep codes (meanPower s)
  { s with cells := s.cells.map fun c => { c with newTemps := none } }

/-- The ceiling of a period (R427), which the caller writes to point 640 after the atrium loops, for the landing that closes the
period. `ts` is Tc in seconds. A standby has its active's, `taken`, from the measurement word its loops read (R430). -/
def ceilingStep (pOut ts taken : F32) (s : State) : State :=
  let step := F32.mul (s.reg 0x4000C) ts
  let full := ceilFull s
  let c := s.therm.ceil
  let c := if s.standby then taken else match s.therm.tstate with
    | 2 => if F32.lt (s.reg 0x40010) pOut then F32.max (F32.sub c step) (s.reg 0x40018) else c
    | 3 => F32.min (F32.add c step) full
    | _ => full
  { s with therm := { s.therm with ceil := c, pSum := F32.add s.therm.pSum pOut, pCount := s.therm.pCount + 1 } }

/-- A round overran 1 ms (R417). -/
def execHkLate (s : State) : Res :=
  .next <| if s.isOn .atrium then { s with therm := { s.therm with hkLate := true } } else s

/-- The registers of a sensor can be reached. -/
def State.sensorOn (s : State) (code : Nat) : Bool :=
  s.isOn .atrium && (decide (code < 8) || s.fltOn ((code - 0x100) / 28))

/-- A failure bit written with 1: the next round evaluates the sensor afresh (R421). -/
def clearFail (code : Nat) (s : State) : State := s.setSens code fun x => { x with fail := false, dev := 0 }

/-- A pin bit written with 1 (R429, R424). -/
def clearPin (code : Nat) (s : State) : State :=
  s.setSens code fun x => { x with pin := false, rateHold := if x.pin then s.rateSpan else x.rateHold }

def execSensorFailClear (x : Sensor) (s : State) : Res :=
  .next (if s.sensorOn (sensorCode x) then clearFail (sensorCode x) s else s)

def execSensorPinClear (x : Sensor) (s : State) : Res :=
  .next (if s.sensorOn (sensorCode x) then clearPin (sensorCode x) s else s)

/-- THM_STATUS. -/
def thmStatus (s : State) : Word :=
  let bits := fun (f : SensorState → Bool) (n : Nat) =>
    ((List.range 4).map fun i => if f (vget s.therm.sens (n + i) {}) then 2 ^ i else 0).sum
  pack [(30, 2, s.therm.tstate), (29, 1, b2n s.therm.warn), (28, 1, b2n s.therm.shut), (27, 1, b2n s.therm.hkLate),
    (12, 4, bits (·.pin) 4), (8, 4, bits (·.pin) 0), (4, 4, bits (·.fail) 4), (0, 4, bits (·.fail) 0)]

/-- TRD_THM. -/
def trdThm (s : State) (k : Nat) : Word :=
  let bits := fun (f : SensorState → Bool) =>
    ((List.range 4).map fun i => if f (vget (s.cell k).temps i {}) then 2 ^ i else 0).sum
  pack [(8, 4, bits (·.sub)), (4, 4, bits (·.pin)), (0, 4, bits (·.fail))]

/-- A temperature point in °C; a sensor that has had no value reads 0.0 (R506). -/
def tempPoint (x : SensorState) : F32 :=
  match x.sup with
  | some t => F32.ofRat ((t : Rat) / 32)
  | none => 0

end Sys2Proof.Machine
end

