-- ==== Sys2Proof/Machine/Wear.lean ====
section
/-! DEFINITION. Wear: losses, junction estimates, rainflow counting, damage and the journal (R258 to R269). -/

namespace Sys2Proof.Machine

open Sys2Proof

/-- Base of the parameter block of group `g` of cell `k` (Table 06-6). -/
def wearBase (k g : Nat) : Nat := ctxBase k + 0x800 + g * 0x80

def State.wearPar (s : State) (k g i : Nat) : Word := s.reg (wearBase k g + 4 * i)

/-- The parameters of a group as its registers hold them. -/
def State.wearRegs (s : State) (k g : Nat) : Vector Word 15 := Vector.ofFn fun i => s.wearPar k g i.val

/-- New parameters come into use with a housekeeping round: a sample processed from then on takes them (R265, log 81). -/
def wearParams (s : State) : State :=
  each (List.range 63) (fun k s =>
    if s.ctxOn k then
      s.setCell k fun c => { c with wear := Vector.ofFn fun g => { c.wear[g] with par := s.wearRegs k g.val } }
    else s) s

/-- Parameter `i` in use. -/
def WearGroup.p (w : WearGroup) (i : Nat) : F32 := vget w.par i 0

/-- Tc in seconds as binary32 (R164). -/
def secondsOf (ns : Nat) : F32 := F32.ofRat ((ns : Rat) / 1000000000)

/-- f_g of Table 06-4 in Hz. -/
def groupFreq (g tc : Nat) (x : WearSample) : F32 :=
  if g = 0 then F32.div (F32.ofNat x.edges) (F32.mul (F32.ofNat 4) (secondsOf tc))
  else if x.dabPeriod = 0 then 0
  else F32.div F32.one (F32.ofRat ((x.dabPeriod.toNat : Rat) / 256 / 1000000000))

/-- I_g of Table 06-4. -/
def groupCurrent (g : Nat) (w : WearGroup) (x : WearSample) : F32 :=
  if g = 0 then x.iArm else if g = 1 then x.iDab else F32.mul x.iDab (w.p 13)

/-- P_g of a sample (R258). -/
def groupLoss (g tc : Nat) (w : WearGroup) (x : WearSample) : F32 :=
  let i := groupCurrent g w x
  F32.add (F32.mul (w.p 0) (F32.mul i i))
    (F32.mul (F32.mul (F32.mul (w.p 1) (groupFreq g tc x)) (F32.abs i)) x.vdc)

/-- One term of the Foster update (R259): R, tau, the term, the power, the interval. -/
def foster (r tau d p dt : F32) : F32 :=
  let a := F32.exp (F32.neg (F32.div dt tau))
  F32.add (F32.mul a d) (F32.mul (F32.mul r (F32.sub F32.one a)) p)

/-- Bin (i, j) of a cycle of range `d` about mean `m`, as 16 i + j (R261). -/
def wearBin (d m : F32) (s : State) : Nat :=
  let i := min 63 (F32.toRat d / F32.toRat (s.reg 0x704)).floor.toNat
  let j := ((F32.toRat m - F32.toRat (s.reg 0x70C)) / F32.toRat (s.reg 0x708)).floor
  16 * i + (min 15 j.toNat)

/-- N_f of R262 in binary32. -/
def cyclesToFail (w : WearGroup) (d m : F32) : F32 :=
  let tk := F32.add m (F32.ofRat (27315 / 100))
  let kb := F32.ofRat (8617333 / 100000000000)
  F32.mul (F32.mul (w.p 10) (F32.pow d (F32.neg (w.p 11)))) (F32.exp (F32.div (w.p 12) (F32.mul kb tk)))

/-- Damage in 2^-56 of one cycle of at least WEAR_DT_MIN, or of half a cycle of any span (R262); cut to a whole step. -/
def damageOf (w : WearGroup) (d m : F32) (half : Bool) (s : State) : Nat :=
  if !half && F32.lt d (s.reg 0x710) then 0
  else
    let x := F32.div F32.one (cyclesToFail w d m)
    (F32.toRat x * ((2 ^ (if half then 55 else 56) : Nat) : Rat)).floor.toNat

/-- A closed cycle, or half cycle, between points `x` and `y` (R260 to R262). -/
def closeCycle (x y : F32) (half : Bool) (s : State) (w : WearGroup) : WearGroup :=
  let d := F32.abs (F32.sub x y)
  let m := F32.div (F32.add x y) (F32.ofNat 2)
  let b := wearBin d m s
  let count := !half || w.half.contains b
  { w with
    hist := if count then tset w.hist b (satInc 65535 ((tget w.hist b).getD 0)) else w.hist
    half := if !half then w.half else if count then w.half.filter (· != b) else b :: w.half
    damage := min (2 ^ 64 - 1) (w.damage + damageOf w d m half s) }

/-- The three newest turning points are examined while they close cycles (R260); `n` bounds the rounds. -/
def reduceStack (n : Nat) (s : State) (w : WearGroup) : WearGroup :=
  match n, w.stack with
  | n + 1, z :: y :: x :: p :: r =>
    if F32.lt (F32.abs (F32.sub y z)) (F32.abs (F32.sub x y)) then w
    else reduceStack n s (closeCycle x y false s { w with stack := z :: p :: r })
  | _, _ => w

/-- A turning point recorded (R260). -/
def pushPoint (t : F32) (s : State) (w : WearGroup) : WearGroup :=
  let w := reduceStack 64 s { w with stack := t :: w.stack }
  if 64 < w.stack.length then
    let n := w.stack.length
    closeCycle (w.stack.getD (n - 1) 0) (w.stack.getD (n - 2) 0) true s { w with stack := w.stack.take (n - 2) }
  else w

/-- The last extreme follows Tj, or a reversal by more than WEAR_GATE records it (R260). -/
def rainflow (t : F32) (s : State) (w : WearGroup) : WearGroup :=
  let gate := s.reg 0x714
  match w.ext with
  | none => { w with ext := some t }
  | some e =>
    let up := F32.lt e t
    let far := F32.lt gate (F32.abs (F32.sub t e))
    match w.dir with
    | none => if far then { w with ext := some t, dir := some up } else w
    | some rising =>
      if up == rising then { w with ext := some t }
      else if far then pushPoint e s { w with ext := some t, dir := some up }
      else w

/-- One sample through one group (R258 to R262). A stale sample repeats the previous loss and reference. -/
def groupSample (g : Nat) (x : WearSample) (s : State) (w : WearGroup) : WearGroup :=
  let tc := s.grid.tc
  let loss := if x.fresh then groupLoss g tc w x else w.loss
  let tref := if x.fresh then vget x.temps (fld (w.p 14) 0 2) 0 else w.tref
  let dt := F32.mul (secondsOf tc) (F32.ofNat x.mult)
  let terms := Vector.ofFn fun (i : Fin 4) => foster (w.p (2 + i.val)) (w.p (6 + i.val)) w.dT[i] loss dt
  let tj := terms.toList.foldl F32.add tref
  rainflow tj s { w with loss := loss, tref := tref, dT := terms, tj := tj }

/-- A damage above WEAR_WARN (R264). -/
def State.wornOut (s : State) (k : Nat) : Bool :=
  (s.cell k).wear.toList.any fun w => decide (F32.toRat (s.reg 0x700) < (w.damage : Rat) / ((2 ^ 56 : Nat) : Rat))

/-- WEAR_LIMIT, once per cell (R264). -/
def wearLimit (k : Nat) (s : State) : State :=
  if s.wornOut k && !(s.cell k).warn then raise 226 (BitVec.ofNat 32 k) (s.setCell k fun c => { c with warn := true })
  else s

/-- Every group of cell `k` has a damage below WEAR_WARN. -/
def State.wearBelow (s : State) (k : Nat) : Bool :=
  (s.cell k).wear.toList.all fun w => decide ((w.damage : Rat) / ((2 ^ 56 : Nat) : Rat) < F32.toRat (s.reg 0x700))

/-- A write of WEAR_WARN re-arms the event where the damage lies below the new value, and raises it where a damage now
exceeds it (R264). -/
def wearRearm (s : State) : State :=
  each (List.range 63) (fun k s =>
    if !s.ctxOn k then s else wearLimit k (s.setCell k fun c => { c with warn := c.warn && !s.wearBelow k })) s

/-- Buffered samples of a cell are processed (R259). -/
def execJunctionUpdate (k : Fin 63) (s : State) : Res :=
  .next <|
    if !s.ctxOn k.val then s
    else
      let xs := (s.cell k.val).samples
      let s := each xs (fun x s => s.setCell k.val fun c => { c with
        wear := Vector.ofFn fun g => groupSample g.val x s c.wear[g] }) s
      wearLimit k.val (s.setCell k.val fun c => { c with samples := [] })

/-- Oldest samples two by two into one of twice the interval (R49). -/
def decimate (l : List WearSample) : List WearSample :=
  match l with
  | a :: b :: r => { b with mult := a.mult + b.mult } :: decimate r
  | _ => l

/-- A sample into the buffer, at most 100 ms of them unprocessed (R49). How many a full buffer decimates, and which sample of a
pair stays, is the model's choice (log 96). -/
def bufferSample (k : Nat) (x : WearSample) (s : State) : State :=
  let cap := max 2 (100000000 / s.grid.tc)
  s.setCell k fun c =>
    let l := if c.samples.length < cap then c.samples else
      decimate (c.samples.take (cap / 2)) ++ c.samples.drop (cap / 2)
    { c with samples := l ++ [x] }

/-! Reading and parameters. -/

/-- Remaining life of a group (R263). -/
def remaining (w : WearGroup) : F32 :=
  if 2 ^ 56 ≤ w.damage then 0 else F32.ofRat (((2 ^ 56 - w.damage : Nat) : Rat) / ((2 ^ 56 : Nat) : Rat))

def damageF (w : WearGroup) : F32 := F32.ofRat ((w.damage : Rat) / ((2 ^ 56 : Nat) : Rat))

/-- Remaining life of a cell: the least of its groups (R263). -/
def remainingCell (c : Cell) : F32 := c.wear.toList.foldl (fun a w => F32.min a (remaining w)) F32.one

/-- A journal record of cell `k` is being written (R269). -/
def State.journalling (s : State) (k : Nat) : Bool :=
  s.nvm.jobs.any fun j => (j.record.type == 0x10 || j.record.type == 0x11) && j.record.key == k

/-- The 256 words of half a histogram (R511). -/
def histWords (w : WearGroup) (i0 : Nat) : List Word :=
  let bin := fun n => (tget w.hist (16 * i0 + n)).getD 0
  (List.range 256).map fun n => BitVec.ofNat 32 (bin (2 * n) + 65536 * bin (2 * n + 1))

/-- WEAR_READ (R269, R511). -/
def execWearRead (w : List Word) (s : State) : Res :=
  .next <| command (w.length == 1) (fun s =>
    let k := fld (wd w 0) 0 6
    let g := fld (wd w 0) 8 2
    let part := fld (wd w 0) 16 2
    if k < 63 ∧ !s.ctxOn k then refuse .domainOff s
    else if k = 63 ∨ g = 3 ∨ part = 3 then refuse .badParam s
    else if s.journalling k then refuse .state s
    else
      let x := vget (s.cell k).wear g {}
      let d : BitVec 64 := BitVec.ofNat 64 x.damage
      let sat := (x.hist.filter fun e => e.2 == 65535).length
      reply .ok ([lowW d, highW d, remaining x, BitVec.ofNat 32 sat, x.tj]
        ++ (if part = 0 then [] else histWords x (32 * (part - 1)))) s) s

/-- Range of entry `i` of Table 06-6. -/
def wearInRange (i : Nat) (v : Word) : Bool :=
  if i = 0 then F32.within 0 1 v
  else if i = 1 then F32.within 0 (F32.toRat (F32.ofRat (1 / 1000))) v
  else if i < 6 then F32.within 0 10 v
  else if i < 10 then F32.within (F32.toRat (F32.ofRat (1 / 100000))) 1000 v
  else if i = 10 then F32.within 1 (F32.toRat (F32.ofRat (100000000000000000000 : Rat))) v
  else if i = 11 then F32.within (1 / 2) 15 v
  else if i = 12 then F32.within 0 2 v
  else if i = 13 then F32.within (F32.toRat (F32.ofRat (1 / 100))) 100 v
  else true

/-- RESET of WEAR_PARAM (R266). -/
def wearReset (k : Nat) (s : State) : State :=
  s.setCell k fun c => { c with
    warn := false
    wear := c.wear.map fun w => { w with
      dT := Vector.replicate 4 0, ext := none, dir := none, stack := [], hist := [], half := [], damage := 0 } }

/-- WEAR_PARAM with its PARAM part (R265), and with RESET where `rst` holds (R266). -/
def wearParam (rst : Bool) (w : List Word) (s : State) : State :=
  let par := bit (wd w 0) 17
  command (w.length == if par then 16 else 1) (fun s =>
    let k := fld (wd w 0) 0 6
    let g := fld (wd w 0) 8 2
    if k < 63 ∧ !s.ctxOn k then refuse .domainOff s
    else if k = 63 ∨ g = 3 then refuse .badParam s
    else if par && !(List.range 15).all (fun i => wearInRange i (wd w (i + 1))) then refuse .range s
    else
      let s := if par then each (List.range 15) (fun i s =>
        s.setReg (wearBase k g + 4 * i) (if i = 14 then wd w 15 &&& 3#32 else wd w (i + 1))) s else s
      reply .ok [] (if rst then wearReset k s else s)) s

def execWearParam (w : List Word) (s : State) : Res := .next (wearParam false w s)
def execWearParamReset (w : List Word) (s : State) : Res := .next (wearParam true w s)

/-! The journal (R267, R268). -/

def wearSummary (c : Cell) : NvmData :=
  .wearSummary (c.wear.toList.map (·.damage)) (c.wear.toList.map (·.dT.toList)) (c.wear.toList.map (·.stack))

def journalSummary (k : Nat) (a : NvmThen) (s : State) : State := nvmWrite 0x10 k (wearSummary (s.cell k)) a s
def journalHist (k : Nat) (a : NvmThen) (s : State) : State :=
  nvmWrite 0x11 k (.wearHist ((s.cell k).wear.toList.map (·.hist))) a s

/-- The first installed cell from `k` on, cyclically. -/
def State.nextInstalled (s : State) (k : Nat) : Option Nat :=
  ((List.range 63).map fun i => (k + i) % 63).find? fun i => s.installed i && s.ctxOn i

/-- Every 10 min a summary of each installed cell and the histograms of the next (R267). -/
def journalRound (s : State) : State :=
  if !s.isOn .nvm then s
  else
    let ks := (List.range 63).filter fun k => s.installed k && s.ctxOn k
    let s := each ks (fun k s => journalSummary k .none s) s
    match s.nextInstalled s.atr.journalNext with
    | some k => journalHist k .none { s with atr := { s.atr with journalNext := (k + 1) % 63 } }
    | none => s

def execWearJournalRound (s : State) : Res := .next (journalRound s)

/-- The newest committed record of a type and key (R491). -/
def State.newestRec (s : State) (type : Byte) (key : Nat) : Option NvmRec :=
  (s.nvm.recs.filter fun r => r.type == type && r.key == key).foldl (fun (a : Option NvmRec) x => match a with
    | some y => if y.serial < x.serial then some x else a
    | none => some x) none

/-- The wear state a hall's arrival at ON loads (R268); NVM that is not ON holds no record it could read. -/
def wearLoad (k : Nat) (s : State) : State :=
  let sum := if s.isOn .nvm then s.newestRec 0x10 k else none
  let hist := if s.isOn .nvm then s.newestRec 0x11 k else none
  s.setCell k fun c => { c with
    norec := c.norec || (sum.isNone && hist.isNone)
    wear := Vector.ofFn fun g =>
      let w : WearGroup := { par := s.wearRegs k g.val }
      let w := match sum with
        | some r => match r.data with
          | .wearSummary d t st => { w with
              damage := d.getD g.val 0
              dT := Vector.ofFn fun i => (t.getD g.val []).getD i.val 0
              stack := st.getD g.val [] }
          | _ => w
        | none => w
      match hist with
      | some r => match r.data with
        | .wearHist h => { w with hist := h.getD g.val [] }
        | _ => w
      | none => w }

end Sys2Proof.Machine
end

