-- ==== Sys2Proof/Machine/Guard.lean ====
section
/-! DEFINITION. Cell stage guarding and cell service: the configuration images, bypass, restore, retry and their
timeouts, and the commands on cells (chapters 5 to 7). -/

namespace Sys2Proof.Machine

open Sys2Proof

/-! The configuration image (R270 to R278). -/

/-- A field of the image: its offset, its length, and whether its value lies within its own range (Table 07-4). -/
structure ImgField where
  off : Nat
  len : Nat
  ok : Bool

/-- A further condition of Table 07-4: the offsets of the fields it involves, and whether it holds. -/
structure ImgCond where
  offs : List Nat
  ok : Bool

def inR (v lo hi : Nat) : Bool := decide (lo ≤ v) && decide (v ≤ hi)
def inRI (v lo hi : Int) : Bool := decide (lo ≤ v) && decide (v ≤ hi)

/-- The fields of a profile record (Table 07-3). -/
def profFields (l : List Byte) (p : Nat) : List ImgField :=
  let v := fun o => fieldAt l (p + o) 2
  [⟨p, 2, inR (v 0) 500 10000⟩, ⟨p + 2, 2, inR (v 2) 10 500⟩, ⟨p + 4, 2, inR (v 4) 100 2000⟩,
    ⟨p + 6, 2, inR (v 6) (v 2 + 10) 2000⟩, ⟨p + 8, 2, inR (v 8) 100 10000⟩]

/-- The further conditions of a profile record; `soft` marks SOFT_OFF. -/
def profConds (q : Nat) (soft : Bool) (l : List Byte) (p : Nat) : List ImgCond :=
  let v := fun o => fieldAt l (p + o) 2
  [⟨[p, p + 4], decide (v 4 ≤ v 0)⟩, ⟨[p, p + 2], decide (v 0 * v 2 ≤ q * 1000)⟩]
    ++ (if soft then [⟨[p + 6], decide (v 6 ≤ 250)⟩] else [])

/-- The fields of a leg-type record (Table 07-2). -/
def legFields (l : List Byte) (b : Nat) : List ImgField :=
  let v := fun o => fieldAt l (b + o) 2
  profFields l b ++ profFields l (b + 0xC) ++ profFields l (b + 0x18)
    ++ [⟨b + 0x24, 2, inR (v 0x24) 20 5000⟩, ⟨b + 0x26, 2, inR (v 0x26) 100 2000⟩, ⟨b + 0x28, 2, inR (v 0x28) 1 65535⟩,
      ⟨b + 0x2A, 2, inR (v 0x2A) 1 65535⟩]

def legConds (q : Nat) (l : List Byte) (b : Nat) : List ImgCond :=
  let v := fun o => fieldAt l (b + o) 2
  profConds q false l b ++ profConds q false l (b + 0xC) ++ profConds q true l (b + 0x18)
    ++ [⟨[b + 0x24, b + 0xC + 6], decide (v (0xC + 6) ≤ v 0x24)⟩, ⟨[b + 0x28, b + 0x2A], decide (v 0x28 < v 0x2A)⟩]

def legBase (t : Nat) : Nat := 0x10 + 0x60 * t

/-- Every field of the image that CT_CONFIG fills and the device checks (Tables 07-1 and 07-4). -/
def imgFields (l : List Byte) : List ImgField :=
  let v := fun o => fieldAt l o 2
  let i16 := fun o => (BitVec.ofNat 16 (v o)).toInt
  [⟨8, 2, inR (v 8) 50 2000⟩, ⟨0xA, 2, inR (v 0xA) 0 10000⟩, ⟨0xC, 2, inR (v 0xC) 1 1000⟩, ⟨0xE, 2, inR (v 0xE) 32 640⟩]
    ++ [0, 1, 2].flatMap (fun t => legFields l (legBase t))
    ++ (List.range 12).flatMap (fun s =>
      let o := 0x130 + 4 * s
      [⟨o, 2, inR (v o) 5000 20000⟩, ⟨o + 2, 2, inR (v (o + 2)) (v o + 200) 25000⟩])
    ++ [0, 1, 2, 3].map (fun i => ⟨0x164 + 2 * i, 2, inRI (i16 (0x164 + 2 * i)) (-1280) 6400⟩)

/-- The further conditions, with the GRD_QPRE value of each leg type. -/
def imgConds (qpre : Nat → Nat) (l : List Byte) : List ImgCond :=
  [0, 1, 2].flatMap fun t => legConds (qpre t) l (legBase t)

def State.qpre (s : State) (t : Nat) : Nat := fld (s.reg (0x184 + 4 * t)) 0 16

/-- The whole copy passes Table 07-4 (R276). -/
def imagePasses (qpre : Nat → Nat) (l : List Byte) : Bool :=
  (imgFields l).all (·.ok) && (imgConds qpre l).all (·.ok)

def overlaps (o n a b : Nat) : Bool := decide (o < b) && decide (a < o + n)

/-- The check of a write of `n` bytes at `o`, on the image that results from it (R275). -/
def writePasses (qpre : Nat → Nat) (o n : Nat) (l : List Byte) : Bool :=
  let fs := imgFields l
  let written := fun (f : ImgField) => overlaps o n f.off (f.off + f.len)
  fs.all (fun f => !written f || f.ok)
    && (imgConds qpre l).all fun c =>
      let inv := fs.filter fun f => c.offs.contains f.off
      !(inv.all (·.ok) && inv.any written) || c.ok

/-- A write touches a field the device fills, or a reserved field of Tables 07-1 to 07-3 (R513). -/
def writeReserved (o n : Nat) : Bool :=
  overlaps o n 0 8 || overlaps o n 0x160 0x164 || overlaps o n 0x16C 0x180 || overlaps o n 0x400 0x410
    || [0x10, 0x70, 0xD0].any fun b => overlaps o n (b + 0x2C) (b + 0x60)
      || [0, 0xC, 0x18].any fun p => overlaps o n (b + p + 0xA) (b + p + 0xC)

/-- The raw VDC code whose calibrated value is the overvoltage threshold, to nearest even (Table 07-1). The manual
states no code for a calibration that maps every code to one voltage; then it is open (log 3). -/
def vdcOvCode (k : Nat) (s : State) : Nat :=
  let r := fun o => F32.toRat (s.reg (ctxBase k + 0x380 + o))
  let g := r 0 * r 4
  if g = 0 then (Config.freeWord (s.freeCtr + k)).toNat
  else
    let c := F32.rne ((F32.toRat (s.reg (hallBase (k / 21) + 0x60)) / r 0 - r 8) / r 4)
    (max 0 (min (2 ^ 32 - 1) c)).toNat

/-- The device's copy of cell `k`'s image with the fields the device fills (R202, Table 07-1). -/
def State.fullImage (s : State) (k : Nat) : List Byte :=
  let l := overlay (s.cell k).image 0 ([1#8, 0#8, BitVec.ofNat 8 (s.patFault k), 0#8] ++ leBytes 4 (fld (modTc s) 0 17))
  overlay l 0x160 (leBytes 4 (vdcOvCode k s))

/-- The blocks of 40 bytes of one image that differ from another; all where the other is not known. -/
def blockDiff (a b : List Byte) : List Nat :=
  (List.range 26).filter fun i => b.isEmpty || bytesAt a (40 * i) 40 != bytesAt b (40 * i) 40

/-- A transfer starts for cell `k` where its copy passes and differs from the active image of its CT (R276, R277). One
that interrupts another sends every block, because the CT's pending image is then not the active one. Where the copy does
not pass, the transfer waits for the CT_CONFIG or NVM_LOAD after which it does. -/
def startTransfer (k : Nat) (s : State) : State :=
  let c := s.cell k
  let img := s.fullImage k
  let blocks := if c.transfer.isSome || !c.cfgOk then List.range 26 else blockDiff img c.sent
  if !s.installed k || !s.hallOn (k / 21) then s
  else if !imagePasses s.qpre img then s.setCell k fun c => { c with imgDue := true }
  else if blocks.isEmpty then s
  else s.setCell k fun c => { c with
    transfer := some { blocks := blocks, crc := crc32c img }, cfgOk := false, imgDue := false }

/-- A command on the cell of its queue (R501). -/
def cellCommand (q : Fin 64) (lenOk : Bool) (body : Nat → State → State) (s : State) : State :=
  command lenOk (fun s =>
    let k := q.val
    if k < 63 ∧ !s.hallOn (k / 21) then refuse .domainOff s
    else if !s.installed k then refuse .badParam s
    else body k s) s

/-- PERM ends, with its clear record (R294). -/
def clearPerm (k : Nat) (s : State) : State :=
  logRecord k 0x22 (BitVec.ofNat 16 k) 0 0 (s.setCell k fun c => { c with perm := false })

/-- CT_CONFIG with its READ and CLR_PERM forms (R275, R276, R294, R513). -/
def ctConfig (q : Fin 64) (w : List Word) (s : State) : State :=
  let w0 := wd w 0
  let o := fld w0 0 11
  let n := fld w0 11 11
  let rd := bit w0 30
  let clr := bit w0 31
  cellCommand q (!w.isEmpty && w.length == 1 + if rd then 0 else (n + 3) / 4) (fun k s =>
    let c := s.cell k
    if 1040 < o + n ∨ (n = 0 ∧ !clr) ∨ (rd && clr) then refuse .badParam s
    else if rd then reply .ok (bytesWords (bytesAt (s.fullImage k) o n)) s
    else
      let s1 := s.setCell k fun c => { c with image := overlay c.image o (bytesAt (wordBytes w.tail) 0 n) }
      if n ≠ 0 ∧ !writePasses s.qpre o n (s1.fullImage k) then refuse .range s
      else if (n ≠ 0 ∧ writeReserved o n) ∨ c.transfer.isSome ∨ (clr ∧ c.mode ≠ .out) then refuse .state s
      else
        let s := if clr then clearPerm k s1 else s1
        let s := if n = 0 then s else startTransfer k s
        refuse (if (s.cell k).transfer.isSome ∧ n ≠ 0 then .accepted else .ok) s) s

def execCtConfig (q : Fin 64) (w : List Word) (s : State) : Res := .next (ctConfig q w s)
def execCtConfigRead (q : Fin 64) (w : List Word) (s : State) : Res := .next (ctConfig q w s)
def execClrPerm (q : Fin 64) (w : List Word) (s : State) : Res := .next (ctConfig q w s)

/-! Status of a cell. -/

/-- TRD_BAL. -/
def trdBal (s : State) (k : Nat) : Word :=
  let c := s.cell k
  pack [(30, 2, match c.mode with | .active => 0 | .out => 1 | .restoring => 2), (29, 1, b2n c.perm), (28, 1, b2n c.rfail),
    (27, 1, b2n c.warn), (26, 1, b2n c.norec),
    (16, 8, ((s.hall (s.strHead (k / 21))).order.findIdx? (· == k)).getD 0xFF)]

/-- GS_TRIPS (R283). -/
def Cell.gsCount (c : Cell) (now : Nat) : Nat := (c.gsTrips.filter fun t => decide (now < t + 1000000000)).length

/-- TRD_GUARD. -/
def trdGuard (s : State) (k : Nat) : Word :=
  let c := s.cell k
  pack [(31, 1, b2n c.cfgOk), (30, 1, b2n c.transfer.isSome), (29, 1, b2n c.retry), (28, 1, b2n c.bridge),
    (24, 4, c.lastClass), (16, 4, min 15 (c.gsCount s.now)), (8, 8, c.scCount), (0, 8, fieldAt c.report 39 1)]

/-- SAFE_CFG with ACT. -/
def safeCfg (s : State) (k : Nat) : Word := s.reg (ctxBase k + 0x100) ||| pack [(6, 2, (s.cell k).act)]

/-- STG_MASK. -/
def stgMask (s : State) (k : Nat) : Word :=
  let c := s.cell k
  let mask := fun (f : Nat → Bool) => ((List.range 10).map fun i => if f i then 2 ^ i else 0).sum
  pack [(16, 10, mask fun i => (vget c.heldF i none).isSome), (0, 10, mask fun i => (vget c.staged i {}).val.isSome)]

/-- TRD_NOTCH. -/
def trdNotch (s : State) (k : Nat) : Word := pack [(16, 16, (s.cell k).notchDip), (0, 16, (s.cell k).notchSub)]

/-- CT_STATUS (Table 15-5). -/
def execCtStatus (q : Fin 64) (w : List Word) (s : State) : Res :=
  .next <| cellCommand q w.isEmpty (fun k s =>
    let c := s.cell k
    reply .ok ([trdBal s k, trdGuard s k, safeCfg s k, stgMask s k, trdNotch s k, trdThm s k, BitVec.ofNat 32 c.staleFor]
      ++ bytesWords (bytesAt c.report 0 64)) s) s

/-! SAFE_SET (R227, R514). -/

/-- The cells of SAFE_SET's mask. -/
def maskCells (w : List Word) : List Nat := setBits 63 (dw (wd w 1) (wd w 2)).toNat

/-- What both forms of SAFE_SET refuse. -/
def safeSetCheck (w : List Word) (s : State) : Status :=
  let p := fld (wd w 0) 1 2
  if (maskCells w).any (fun k => !s.hallOn (k / 21)) then .domainOff
  else if p ≠ 1 ∧ p ≠ 2 then .badParam
  else .ok

/-- PAT_FAULT and HOLD_EN of cell `k` written; a changed PAT_FAULT sends the image (R277). -/
def setPattern (p : Nat) (hold : Bool) (k : Nat) (s : State) : State :=
  let old := s.patFault k
  let s := s.setReg (ctxBase k + 0x100) (pack [(0, 2, p), (5, 1, b2n hold)])
  if old ≠ p then startTransfer k s else s

/-- SAFE_SET with ACTION 1: the cells take the pattern at L_b. -/
def safeRequest (w : List Word) (s : State) : State :=
  reply .ok (s.refFrom (s.now + 200 + s.lead) false) (each (maskCells w) (leave · (fld (wd w 0) 1 2)) s)

/-- SAFE_SET with ACTION 0: PAT_FAULT and HOLD_EN of the cells. -/
def safePatterns (w : List Word) (s : State) : State :=
  reply .ok [0, 0] (each (maskCells w) (setPattern (fld (wd w 0) 1 2) (bit (wd w 0) 3)) s)

/-- SAFE_SET's effect for both actions. -/
def safeSet (w : List Word) (s : State) : State :=
  command (w.length == 3) (fun s =>
    if safeSetCheck w s ≠ .ok then refuse (safeSetCheck w s) s
    else if bit (wd w 0) 0 then safeRequest w s
    else safePatterns w s) s

def execSafeSet (w : List Word) (s : State) : Res := .next (safeSet w s)
def execSafeRequest (w : List Word) (s : State) : Res := .next (safeSet w s)

/-! Bypass and restore (R248, R253 to R257). -/

/-- CELL_BYPASS (R248, R249). -/
def execCellBypass (q : Fin 64) (w : List Word) (s : State) : Res :=
  .next <| cellCommand q w.isEmpty (fun k s =>
    let stay := (s.strCells (k / 21)).filter fun i => i != k && s.isActive i && (s.cell i).req.isNone
    if (s.cell k).mode = .out then refuse .state s
    else if s.isActive k && decide (stay.length < s.nReq (k / 21)) then refuse .state s
    else reply .ok (s.refFrom (s.now + 200 + s.lead) false) (leave k 2 s)) s

/-- CELL_RESTORE refuses (R253, R393). -/
def restoreRefused (k : Nat) (s : State) : Bool :=
  let c := s.cell k
  let h := s.hall (k / 21)
  h.err || c.perm || c.mode != .out || c.retry || h.permPending || s.ssb

/-- CELL_RESTORE: phase 1 begins, for the landing L_r1 (Table 06-3). -/
def execCellRestore (q : Fin 64) (w : List Word) (s : State) : Res :=
  .next <| cellCommand q w.isEmpty (fun k s =>
    if restoreRefused k s then refuse .state s
    else
      let r := s.refFrom (s.now + 200 + s.lead) false
      let at_ := s.lb
      reply .accepted r (s.setCell k fun c => { c with
        mode := .restoring, restorePhase := 1, restoreAt := at_, restoreOk := 0, restoreWait := false, noLimit := false
        wdClear := true
        act := match c.req with | some (p, _) => p | none => c.act
        req := none })) s

/-- A cell whose restore failed takes its PAT_FAULT at the next landing, with RFAIL (R255). -/
def restoreEnds (k : Nat) (s : State) : State :=
  s.setCell k fun c => { c.endRestore with rfail := true, req := some (s.patFault k, s.now - 200) }

/-- A restore that failed: its event, and the word that tells the standby of the decision (R255, R336). -/
def restoreFail (k : Nat) (s : State) : State :=
  raise (64 + k) 2 (restoreEnds k (sendDecision (.restore (Fin.ofNat 63 k) (low40 (s.landingFrom (s.now + s.lead)).1)) s))

/-- RESTORE_TMAX has passed since L_r1 (R255), also for a cell that waits for the others of its string (R256); one that waits after
a retry has no L_r1 (R284). -/
def execRestoreTimeout (k : Fin 63) (s : State) : Res :=
  .next <|
    let c := s.cell k.val
    if s.hallOn (k.val / 21) && c.mode == .restoring && !c.noLimit then
      restoreFail k.val (advanceTo (c.restoreAt + fld (s.hreg (k.val / 21) 0x58) 0 16 * 1000000) s)
    else s

/-- A retry has not rejoined within 100 ms of L_b: the cell takes its PAT_FAULT, and CELL_FAULT is raised (R282). -/
def execRetryTimeout (k : Fin 63) (s : State) : Res :=
  .next <|
    let c := s.cell k.val
    if s.hallOn (k.val / 21) && c.retry && c.mode == .out && !s.standby then
      let s := advanceTo (c.retryAt + 100000000) s
      decide' k.val 2 (s.patFault k.val) 3 s
    else s

/-- A DERATE has lasted OT_TMAX: a new decision of class OT with reaction BYPASS (R291). -/
def execDerateTimeout (k : Fin 63) (s : State) : Res :=
  .next <|
    let c := s.cell k.val
    if s.hallOn (k.val / 21) && c.derate && !s.standby then
      let s := advanceTo (c.derateAt + fld (s.reg (hallBase (k.val / 21) + 0x5C)) 0 16 * 1000000000) s
      decide' k.val 4 2 3 (s.setCell k.val fun c => { c with derate := false })
    else s

end Sys2Proof.Machine
end

