-- ==== Sys2Proof/Machine/Points.lean ====
section
/-! DEFINITION. Signal points: what each point of each context reads as (R161, R527, Tables 15-10 to 15-12). -/

namespace Sys2Proof.Machine

open Sys2Proof

/-- The context and point of a local signal point (R157). -/
def ptCtx (p : BitVec 16) : Nat := p.toNat / 1024
def ptNum (p : BitVec 16) : Nat := p.toNat % 1024
def ptNone (p : BitVec 16) : Bool := p == 0xFFFF#16

/-- The winner slot `i` publishes: that of its group, or itself as a lone loop. -/
def Slot.winning (x : Slot) (i : Nat) : Nat := if x.group < 8 then x.winner else i

/-- LOOP_STATUS of slot `i` (Table 04-6); a lone loop's winner is itself. -/
def loopStatus (i : Nat) (x : Slot) : Word :=
  pack [(16, 16, x.coefGen), (8, 8, x.injecting.toNat), (3, 1, b2n x.nonfinite), (2, 1, b2n (x.en && x.winning i == i)),
    (1, 1, b2n x.satLo), (0, 1, b2n x.satHi)]

/-- Variable `v` of slot `i` (Table 04-5). -/
def slotVar (i v : Nat) (x : Slot) : F32 :=
  match v with
  | 0 => x.r | 1 => x.y | 2 => x.e | 3 => x.p | 4 => x.i | 5 => x.d | 6 => x.u | 7 => x.uSat | 8 => x.w
  | 9 => F32.ofNat (x.winning i)
  | 10 => x.ffv | 11 => x.injSum
  | 12 => if x.satHi then F32.one else if x.satLo then F32.neg F32.one else 0
  | 13 => if x.func = 1 then F32.ofRat ((x.angle.toNat : Rat) / ((2 ^ 32 : Nat) : Rat)) else 0
  | 14 => F32.ofNat (x.coefGen % 2 ^ 24)
  | _ => F32.ofNat (fld (loopStatus i x) 0 8)

/-- N_ACTIVE as HALL_CELLS of hall `h` reads it (R17). -/
def State.nActiveReg (s : State) (h : Nat) : Nat := if s.assign = 1 ∧ h ≠ 0 then 0 else s.nActive h
def State.nInstReg (s : State) (h : Nat) : Nat := if s.assign = 1 ∧ h ≠ 0 then 0 else s.nInst h

/-- A cell's place in its string's insertion order. -/
def State.orderOf (s : State) (k : Nat) : Option Nat :=
  (s.hall (s.strHead (k / 21))).order.findIdx? (· == k)

/-- A time in 2^-16 ns as ns; the code for none as the quiet NaN (Table 15-11). -/
def timePoint (w : Word) : F32 := if w = 0x80000000#32 then F32.qnan else F32.ofRat ((w.toInt : Rat) / 65536)

/-- State code of TRD_BAL. -/
def modeCode (m : CellMode) : Nat :=
  match m with
  | .active => 0 | .out => 1 | .restoring => 2

/-- The points of tread `k` that status and wear give (Table 15-11). -/
def treadStatusPoint (s : State) (k p : Nat) : Option F32 :=
  let c := s.cell k
  let rep := fun (o n : Nat) => F32.ofNat (fieldAt c.report o n)
  let w := fun g => vget c.wear g {}
  match p with
  | 392 => some (if c.stage.lvl then F32.ofInt c.stage.inCmd.toInt else F32.ofNat 2)
  | 512 => some (rep 0 2) | 513 => some (rep 28 2) | 514 => some (rep 26 2) | 515 => some (rep 37 2)
  | 516 => some (rep 30 1) | 517 => some (rep 39 1)
  | 518 => some (timePoint (BitVec.ofNat 32 (fieldAt c.report 31 4)))
  | 519 => some (F32.ofNat c.act)
  | 520 => some (F32.ofNat (modeCode c.mode))
  | 521 => some (timePoint c.corrSent)
  | 640 => some (w 0).tj | 641 => some (w 1).tj | 642 => some (w 2).tj
  | 643 => some (w 0).loss | 644 => some (w 1).loss | 645 => some (w 2).loss
  | 646 => some (damageF (w 0)) | 647 => some (damageF (w 1)) | 648 => some (damageF (w 2))
  | 649 => some (remaining (w 0)) | 650 => some (remaining (w 1)) | 651 => some (remaining (w 2))
  | 652 => some (remainingCell c)
  | 653 => some (tempPoint (vget c.temps 0 {})) | 654 => some (tempPoint (vget c.temps 1 {}))
  | 655 => some (tempPoint (vget c.temps 2 {})) | 656 => some (tempPoint (vget c.temps 3 {}))
  | _ => none

def mvPoint (mv : Nat) : F32 := F32.ofRat ((mv : Rat) / 1000)

/-- Slack fraction of lane `l` in percent: 0 to 11, then AL0 and AL1. -/
def State.laneSlack (s : State) (l : Nat) : Rat :=
  if l < 12 then (vget (s.hall (l / 4)).lanes (l % 4) {}).slack else (vget s.atr.lanes (l - 12) {}).slack

/-- The points of the atrium that status, thermal supervision and the supplies give (Table 15-12). SAFE_CAUSE and
SAFE_STATUS of a SAFETY domain that is not ON read as the quiet NaN (R506). -/
def atriumStatusPoint (s : State) (p : Nat) : Option F32 :=
  let safe := fun (w : Word) => some (if s.isOn .safety then F32.ofNat w.toNat else F32.qnan)
  if 520 ≤ p ∧ p < 534 then some (F32.ofRat (s.laneSlack (p - 520)))
  else if 642 ≤ p ∧ p < 650 then some (tempPoint (vget s.therm.sens (p - 642) {}))
  else match p with
    | 512 => safe (safeCauseWord s) | 513 => safe (safeStatus s)
    | 514 => some (F32.ofNat (s.nActiveReg 0)) | 515 => some (F32.ofNat (s.nActiveReg 1))
    | 516 => some (F32.ofNat (s.nActiveReg 2))
    | 517 => some (F32.ofNat s.twin.epoch.toNat)
    | 641 => some (s.atr.ctx.slot 4).act.umax
    | 650 => some s.therm.pMean
    | 651 => some (mvPoint s.therm.hkVolts.vin) | 652 => some (mvPoint s.therm.hkVolts.vcore)
    | 653 => some (mvPoint s.therm.hkVolts.v3p3) | 654 => some (mvPoint s.therm.hkVolts.vdda)
    | _ => none

/-- Point `p` of context `n`, with the loop slots and stored points of copy `c` (R156, R527). -/
def ctxPoint (s : State) (n : Nat) (c : Ctx) (p : Nat) : F32 :=
  if 128 ≤ p ∧ p < 384 then
    let i := (p - 128) / 16
    if n < 63 ∧ 6 ≤ i then 0 else slotVar i (p % 16) (c.slot i)
  else
    ((if n = 63 then atriumStatusPoint s p else treadStatusPoint s n p).orElse fun _ => tget c.pts p).getD 0

/-- The atrium's points that status gives (Table 15-12). -/
def atriumStatusPts : List Nat := (List.range 6).map (512 + ·) ++ (List.range 14).map (520 + ·) ++ (List.range 14).map (641 + ·)

/-- The atrium context with its status points beside its stored ones, as a tread reads it one period later (R158). -/
def atriumAt (s : State) (c : Ctx) : Ctx :=
  { c with pts := atriumStatusPts.foldl (fun t p => tset t p (ctxPoint s 63 c p)) c.pts }

/-- A point of such a copy. -/
def oldPoint (c : Ctx) (p : Nat) : F32 :=
  if 128 ≤ p ∧ p < 384 then slotVar ((p - 128) / 16) (p % 16) (c.slot ((p - 128) / 16)) else (tget c.pts p).getD 0

/-- The atrium context as this period's computation leaves it. -/
def State.newAtr (s : State) : Ctx := s.atr.newCtx.getD s.atr.ctx

/-- The tread context as this period's computation leaves it. -/
def State.newTread (s : State) (k : Nat) : Ctx :=
  match (s.flight (k / 7)).newCtx.find? fun x => x.1 == k with
  | some x => x.2
  | none => s.tread k

/-- The context whose values apply at the coming landing, once the departure has judged the period: the current copy, or on a
standby, which keeps its copies until the commit word, the new one of a flight that has not missed (R194, R339). -/
def State.settled (s : State) (n : Nat) : Ctx :=
  if n = 63 then (if s.standby && !s.atr.missed then s.newAtr else s.atr.ctx)
  else if s.standby && !(s.flight (n / 7)).rep then s.newTread n else s.tread n

/-- A point of reserved range (Table 15-10). -/
def reservedPt (p : Nat) : Bool := decide (768 ≤ p)

/-- A point as SIGNAL_READ, capture and telemetry take it (R488, R506). -/
def State.point (s : State) (n p : Nat) : F32 := if s.ctxOn n then ctxPoint s n (s.ctx n) p else F32.qnan

/-- A point as the period of this departure leaves it, in the state that the coming landing applies (R194, `State.applied`). -/
def State.settledPoint (s : State) (n p : Nat) : F32 := if s.ctxOn n then ctxPoint s n (s.settled n) p else F32.qnan

end Sys2Proof.Machine
end

