-- ==== Sys2Proof/Machine/Lanes.lean ====
section
/-! DEFINITION. The loop lanes: placement, migration, splits, self-tests, and slack (R150 to R155, R179 to R189). Lanes are
numbered 0 to 11 in the halls, then 12 for AL0 and 13 for AL1. -/

namespace Sys2Proof.Machine

open Sys2Proof

def State.lane (s : State) (l : Nat) : Lane :=
  if l < 12 then vget (s.hall (l / 4)).lanes (l % 4) {} else vget s.atr.lanes (l - 12) {}

def setLane (l : Nat) (f : Lane → Lane) (s : State) : State :=
  if l < 12 then s.setHall (l / 4) fun h => { h with lanes := vmod h.lanes (l % 4) f }
  else { s with atr := { s.atr with lanes := vmod s.atr.lanes (l - 12) f } }

/-- The domain a lane lies in. -/
def laneDom (l : Nat) : Dom := if l < 12 then hallDom (l / 4) else .atrium

/-- The spare lane of hall `h`. -/
def State.spareOf (s : State) (h : Nat) : Option Nat :=
  ([0, 1, 2, 3].map (4 * h + ·)).find? fun l => (s.lane l).role == 1

/-- A lane that gave up its work is no spare until it passes its self-test (R184); the self-tests of a mismatch leave the spare what
it is (R187). -/
def State.provesItself (s : State) (l : Nat) : Bool := (s.lane l).testing && (s.lane l).tested.isNone

/-- A lane at rest in a role. -/
def freshLane (role flight : Nat) (test : Bool) : Lane := { role := role, flight := flight, testing := test }

/-- Reset placement of hall `h`, with a self-test of every lane (R184). -/
def placeLanes (h : Nat) (s : State) : State :=
  let s := s.setHall h fun x => { x with lanes :=
    #v[freshLane 0 (3 * h) true, freshLane 0 (3 * h + 1) true, freshLane 0 (3 * h + 2) true, freshLane 1 15 true] }
  each [0, 1, 2] (fun i s => s.setFlight (3 * h + i) fun f => { f with lane := 4 * h + i, split := false, moved := false }) s

/-- AL0 working and AL1 spare, both tested again (R184). -/
def placeAtrium (s : State) : State :=
  { s with atr := { s.atr with lanes := #v[freshLane 0 15 true, freshLane 1 15 true], moved := false } }

/-- The split of flight `f` ends: it runs whole on its working lane (R188, R189). -/
def endSplit (f : Nat) (s : State) : State :=
  if !(s.flight f).split then s
  else
    let s := s.setFlight f fun x => { x with split := false, lowRun := 0, highRun := 0 }
    each ([0, 1, 2, 3].map (4 * (f / 3) + ·)) (fun l s => setLane l (fun y =>
      if y.split then { y with split := false, flight := if y.role = 1 then 15 else y.flight } else y) s) s

/-- The work of hall lane `l` moves to the hall's spare `j`; lane `l` takes `role` (R181, R184). -/
def moveHall (l j role : Nat) (s : State) : State :=
  let f := (s.lane l).flight
  let s := each (hallFlights (l / 4)) endSplit s
  let s := setLane j (fun y => { y with role := 0, flight := f }) s
  let s := setLane l (fun y => { y with role := role, flight := 15 }) s
  s.setFlight f fun x => { x with lane := j, moved := true }

/-- The work of atrium lane `l` moves to the other one; lane `l` takes `role`. -/
def moveAtrium (l role : Nat) (s : State) : State :=
  let s := setLane (25 - l) (fun y => { y with role := 0 }) (setLane l (fun y => { y with role := role }) s)
  { s with atr := { s.atr with moved := true } }

/-- A lane that failed is retired, with its event; its work goes to the spare, and where there is none the hall or the
atrium is in error (Table 04-10, Table 01-4, R35). -/
def laneFault (l : Nat) (s : State) : State :=
  let y := s.lane l
  let s := setLane l (fun y => { y with testing := false, tested := none }) s
  let s := raise (146 + l) 0 s
  if l < 12 then
    if y.role = 0 ∧ y.flight < 9 then
      match s.spareOf (l / 4) with
      | some j => moveHall l j 2 s
      | none => hallError (l / 4) 2 (setLane l (fun y => { y with role := 2, flight := 15 }) s)
    else
      let s := each (hallFlights (l / 4)) endSplit s
      setLane l (fun y => { y with role := 2, flight := 15 }) s
  else if y.role = 0 then
    if (s.lane (25 - l)).role = 1 then moveAtrium l 2 s
    else atriumError 2 (setLane l (fun y => { y with role := 2 }) s)
  else setLane l (fun y => { y with role := 2 }) s

/-- The lane whose outcome a shadow mismatch judges together with that of lane `l` (Table 04-10). -/
def State.testPartner (s : State) (l : Nat) : Option Nat :=
  (if l < 12 then [0, 1, 2, 3].map (4 * (l / 4) + ·) else [12, 13]).find? fun m => m != l && (s.lane m).tested.isSome

/-- A lane passes. Both lanes of a shadow mismatch passing is a transient, counted at the working lane (Table 04-10). -/
def lanePass (l : Nat) (s : State) : State :=
  let y := s.lane l
  let s := setLane l (fun y => { y with testing := false }) s
  match y.tested, s.testPartner l with
  | some _, some m =>
    if (s.lane m).tested = some true then
      let work := if y.role = 0 then l else m
      let s := setLane l (fun y => { y with tested := none }) (setLane m (fun y => { y with tested := none }) s)
      setLane work (fun y => { y with transient := satInc 255 y.transient }) s
    else setLane l (fun y => { y with tested := some true }) s
  | _, _ => setLane l (fun y => { y with tested := none }) s

/-- A self-test that runs has its outcome (R184, R187). -/
def execLaneSelfTestDone (l : Fin 14) (pass : Bool) (s : State) : Res :=
  .next <|
    if !s.isOn (laneDom l.val) || !(s.lane l.val).testing then s
    else if pass then lanePass l.val s
    else laneFault l.val s

/-- An idle spare tests itself in the background (R187). -/
def execSpareSelfTest (l : Fin 14) (pass : Bool) (s : State) : Res :=
  .next <|
    let y := s.lane l.val
    if s.isOn (laneDom l.val) && y.role == 1 && y.flight == 15 && !y.testing && !pass then laneFault l.val s else s

/-- Both lanes of a shadow check that failed run their self-tests (R187). -/
def mismatchTests (a b : Nat) (s : State) : State :=
  each [a, b] (fun l s => setLane l (fun y => { y with testing := true, tested := some false }) s) s

/-- A deadline miss counted at a lane. -/
def countMiss (l : Nat) (s : State) : State := setLane l (fun y => { y with misses := satInc 255 y.misses }) s

def State.slackMin (s : State) : Rat := (fld (s.reg 0x80) 0 8 : Rat)

/-- A lane's slack fraction of this period in percent (R154, R155). -/
def setSlack (l : Nat) (q : Rat) (s : State) : State :=
  setLane l (fun y => { y with slack := q, slackLo := min y.slackLo (max 0 q.floor).toNat }) s

/-- SLACK_LOW in the first period in which a lane falls below SLACK_MIN, and again only after 100 periods in which none
did (R155); `lanes` are those that worked in the period. -/
def slackEvent (lanes : List Nat) (s : State) : State :=
  match lanes.find? fun l => decide ((s.lane l).slack < s.slackMin) with
  | some l =>
    let first := decide (100 ≤ s.atr.slackRun)
    let s := { s with atr := { s.atr with slackRun := 0 } }
    if first then raise 186 (BitVec.ofNat 32 l) s else s
  | none => { s with atr := { s.atr with slackRun := satInc 100 s.atr.slackRun } }

/-- HALL_LANE_STATUSi and ALANE_STATUSm. -/
def laneStatus (l : Nat) (s : State) : Word :=
  let y := s.lane l
  if l < 12 then
    pack [(30, 2, y.role), (26, 4, y.flight), (25, 1, b2n y.split), (24, 1, b2n y.shadow), (16, 8, y.slackLo),
      (8, 8, y.transient), (0, 8, y.misses)]
  else
    pack [(30, 2, y.role), (24, 1, b2n y.shadow), (16, 8, y.slackLo), (8, 8, y.transient), (0, 8, y.misses)]

end Sys2Proof.Machine
end

