-- ==== Sys2Proof/Machine/Meas.lean ====
section
/-! DEFINITION. The converters, sequences and result words, the measurement map, background calibration, the start of
a system calibration, and the test DAC (chapter 8). -/

namespace Sys2Proof.Machine

open Sys2Proof

def setMeas (f : Meas → Meas) (s : State) : State := { s with meas := f s.meas }

/-- A command of the ANALOG domain. -/
def analogCommand (lenOk : Bool) (body : State → State) (s : State) : State :=
  command lenOk (fun s => if s.isOn .analog then body s else refuse .domainOff s) s

/-- Two's complement 16-bit code. -/
def clampCode (i : Int) : BitVec 16 × Bool :=
  if i < -32768 then (0x8000#16, true) else if 32767 < i then (0x7FFF#16, true) else (BitVec.ofInt 16 i, false)

/-! Entries (R302). -/

def entOn (w : Word) : Bool := bit w 31
def entDsd (w : Word) : Bool := bit w 24
def entUnit (w : Word) : Nat := fld w 8 4
def entAin (w : Word) : Nat := fld w 0 4
def seqOn (q : AdcSeq) : Bool := bit q.cfg 31
def seqTrig (q : AdcSeq) : Nat := fld q.cfg 24 3
def seqArg (q : AdcSeq) : Nat := fld q.cfg 16 6
def seqDelay (q : AdcSeq) : Nat := fld q.cfg 0 16

/-- Lower-numbered enabled entries on the same slice (R303). -/
def entQ (ent : Vector Word 16) (e : Nat) : Nat :=
  ((List.range e).filter fun i =>
    let a := vget ent i 0
    entOn a && !entDsd a && entUnit a == entUnit (vget ent e 0)).length

def State.adc (s : State) (n : Nat) : AdcSeq := vget s.meas.seq n {}
def setAdc (n : Nat) (f : AdcSeq → AdcSeq) (s : State) : State := setMeas (fun m => { m with seq := vmod m.seq n f }) s
def setRes (n e : Nat) (f : ResWord → ResWord) (s : State) : State :=
  setAdc n (fun q => { q with res := vmod q.res e f }) s

/-! Completions (R307, R310). -/

/-- The next result of a calibrated channel is averaged (R325). -/
def calTake (chan : BitVec 16) (limit : Nat) (v : Int) (clip : Bool) (s : State) : State :=
  match s.meas.cal with
  | some c =>
    if c.chan = chan ∧ c.n < limit then
      setMeas (fun m => { m with cal := some { c with sum := c.sum + v, n := c.n + 1, clip := c.clip || clip } }) s
    else s
  | none => s

/-- Map entry `m` (R312). -/
def State.mapCfg (s : State) (m : Nat) : Word := s.reg (0x23000 + 0x10 * m)

/-- Results of source `src`, index `a`, feed the calibration of every map entry that takes them. -/
def calFeed (src a : Nat) (v : Int) (clip : Bool) (s : State) : State :=
  each (List.range 64) (fun m s =>
    let c := s.mapCfg m
    if bit c 31 ∧ fld c 29 2 = src ∧ fld c 16 8 = a then calTake (BitVec.ofNat 16 (m * 256)) 256 v clip s else s) s

/-- Conversion `c` completes into result word e of sequence n (R307, R310); while VDDA is out of its window it is marked
CLIP (R440). -/
def complete (n e : Nat) (c : Conv) (v : BitVec 16) (clip settle test : Bool) (s : State) : State :=
  let clip := clip || s.aon.vddaBad
  let r := vget (s.adc n).res e {}
  let lost := r.any && !r.read
  let s := setRes n e (fun r => { r with
    value := v, seq := (r.seq + 1) % 256, clip := clip, settle := settle, test := test, late := c.late
    any := true, read := false, wait := r.wait && c.old, convs := r.convs.erase c
    overrun := r.overrun || lost, raised := r.raised || lost }) s
  let s := if lost && !r.raised then raise 185 (BitVec.ofNat 32 n) s else s
  calFeed 0 (16 * n + e) v.toInt clip s

/-- Newest valid output of a filter, code 0 where there is none, and whether it was settling at `t` (R301). -/
def State.dsdValue (s : State) (d t : Nat) : BitVec 16 × Bool × Bool :=
  let f := vget s.meas.dsd d {}
  let x := f.last.getD (0, false)
  (x.1, x.2, decide (f.outputs < 3 ∧ f.since ≤ t))

/-- The delta-sigma entries of sequence `n` whose instant B has come latch their filters' newest valid outputs (R303). -/
def settleSeq (n : Nat) (s : State) : State :=
  each (List.range 16) (fun e s =>
    each ((vget (s.adc n).res e {}).convs.filter fun c => entDsd c.ent && decide (c.req ≤ s.now)) (fun c s =>
      let v := s.dsdValue (entUnit c.ent) c.req
      complete n e c v.1 v.2.1 v.2.2 false s) s) s

/-- The latches of every sequence that are due by now. -/
def settleLatches (s : State) : State := each (List.range 16) settleSeq s

/-! Triggers (R303, R305). -/

/-- A dropped entry (R305). -/
def dropEntry (n : Nat) (s : State) : State :=
  raise 185 (BitVec.ofNat 32 n) (setMeas (fun m => { m with drop := satInc 255 m.drop }) s)

/-- Requests on role `r` that no takeover has parted from it, as (sample instant, result word). -/
def State.sliceReqs (s : State) (r : Nat) : List (Nat × Nat) :=
  (List.range 16).flatMap fun n => (List.range 16).flatMap fun e =>
    ((vget (s.adc n).res e {}).convs.filter fun c =>
      !entDsd c.ent && c.unit.isNone && entUnit c.ent == r).map fun c => (c.req, 16 * n + e)

/-- `x` put into a list that rises by sample instant, behind its equals. -/
def insertReq (x : Nat × Nat) : List (Nat × Nat) → List (Nat × Nat)
  | [] => [x]
  | y :: l => if x.1 < y.1 then x :: y :: l else y :: insertReq x l

/-- When each request of a list samples on a slice that is free at `free`: one conversion in 250 ns (R297, R305). -/
def sampleTimes (free : Nat) : List (Nat × Nat) → List (Nat × Nat × Nat)
  | [] => []
  | x :: l => (x.1, x.2, max x.1 free) :: sampleTimes (max x.1 free + 250) l

/-- When conversion `c` of result word `i` samples: requests on one slice are served in the order of their sample instants,
equals by sequence and entry (log 86). -/
def State.samplesAt (s : State) (i : Nat) (c : Conv) : Nat :=
  let r := entUnit c.ent
  let l := (s.sliceReqs r).foldl (fun l x => insertReq x l) []
  (((sampleTimes (vget s.meas.sliceFree r 0) l).find? fun x => x.1 == c.req && x.2.1 == i).map (·.2.2)).getD c.req

/-- Conversion `c` of result word `i` has sampled at instant `t`. -/
def State.sampled (s : State) (i t : Nat) (c : Conv) : Bool := c.unit.isSome || decide (s.samplesAt i c ≤ t)

/-- The conversions of sequence `n` that have not sampled at `t` are dropped (R305). -/
def dropUnsampled (n t : Nat) (s : State) : State :=
  let gone := (List.range 16).map fun e => (e, (vget (s.adc n).res e {}).convs.filter fun c =>
    if entDsd c.ent then decide (t < c.req) else !s.sampled (16 * n + e) t c)
  each gone (fun x s => each x.2 (fun c s =>
    dropEntry n (setRes n x.1 (fun r => { r with convs := r.convs.erase c }) s)) s) s

/-- Entry `e` of the run that a trigger at base instant `b` starts, behind the conversions of earlier runs. -/
def startEntry (ent : Vector Word 16) (b : Nat) (late : Bool) (e : Nat) (r : ResWord) : ResWord :=
  let w := vget ent e 0
  if !entOn w then r
  else { r with
    wait := true
    convs := (r.convs.map fun c => { c with old := true })
      ++ [{ ent := w, req := if entDsd w then b else b + 250 * entQ ent e, late := late }] }

/-- A trigger of sequence `n` at instant `t` starts a run; `late` marks a LATE compare (R76). -/
def trigger (n t : Nat) (late : Bool) (s : State) : State :=
  if !s.isOn .analog || !seqOn (s.adc n) then s
  else
    let s := dropUnsampled n t (settleSeq n s)
    let b := t + 2 * seqDelay (s.adc n)
    settleSeq n (setAdc n (fun q => { q with
      time := BitVec.ofNat 64 b, res := Vector.ofFn fun (e : Fin 16) => startEntry q.ent b late e.val q.res[e] }) s)

/-- Every sequence with a trigger source and argument is triggered. -/
def triggerAll (trig arg t : Nat) (s : State) : State :=
  each (List.range 16) (fun n s =>
    let q := s.adc n
    if seqTrig q = trig ∧ (trig < 4 ∨ seqArg q = arg) then trigger n t false s else s) s

/-- A carrier peak or valley of a cell in a FIXED duty stage (R304). -/
def execCarrierTrigger (k : Fin 63) (valley : Bool) (s : State) : Res :=
  .next <|
    let c := s.cell k.val
    if s.ctxOn k.val && c.stage.valid && !c.stage.lvl && c.stage.cmodeIn == 0 && c.stage.safe == 0 then
      triggerAll (if valley then 5 else 4) k.val s.now s
    else s

/-- A rising edge at a GPIO in its trigger-input function (Table 08-1). -/
def execGpioTriggerEdge (i : Fin 16) (s : State) : Res :=
  .next <|
    let s := { s with atr := { s.atr with gpioIn := s.atr.gpioIn ||| (1#16 <<< i.val) } }
    if s.isOn .atrium && s.gpioFunc i.val == 3 then triggerAll 6 i.val s.now s else s

/-- A role is privileged (R318). -/
def State.privileged (s : State) (r : Nat) : Bool := s.meas.priv.getLsbD r

/-- The correction of unit `u` (R307, R319): the code less the unit's offset, over its gain. -/
def unitCorrect (u : Nat) (code : BitVec 16) (s : State) : BitVec 16 × Bool :=
  clampCode (F32.rne (((code.toInt : Rat) - vget s.meas.unitOfs u 0) / vget s.meas.unitGain u 1))

/-- A check of the test DAC with setting `t` drives what entry `w` samples: its input in MODE 2, its slice in MODE 1 (R327 to
R329). -/
def dacReaches (t w : Word) : Bool :=
  (fld t 30 2 == 2 && fld t 20 4 == entAin w) || (fld t 30 2 == 1 && fld t 20 4 == entUnit w)

/-- The test DAC may have driven what entry `w` sampled at instant `t`: the check that runs, or the last one that ended, ran then. -/
def State.dacMay (s : State) (w : Word) (t : Nat) : Bool :=
  let m := s.meas
  (m.tdacRun && decide (m.tdacFrom ≤ t) && dacReaches m.tdac w)
    || match m.tdacPast with
      | some p => decide (p.2.1 ≤ t) && decide (t < p.2.2) && dacReaches p.1 w
      | none => false

/-- The oldest slice conversion of a result word. -/
def ResWord.slice (r : ResWord) : Option Conv := r.convs.find? fun c => !entDsd c.ent

/-- A conversion completes (R299, R307), corrected as the unit that sampled it is where its slice is privileged; TEST
tells that the test DAC drove the input when it was sampled (R329). -/
def execAdcConversionDone (n e : Fin 16) (x : Sampled) (s : State) : Res :=
  .next <|
    match (vget (s.adc n.val).res e.val {}).slice with
    | some c =>
      if s.isOn .analog then
        let r := entUnit c.ent
        let raw := clampCode (F32.rne (x.uv / (125 / 2)))
        let beyond := decide (x.uv < -2048000) || decide (2048000 < x.uv)
        let v := if s.privileged r then unitCorrect (c.unit.getD (vget s.meas.role r 0)) raw.1 s else (raw.1, false)
        let at_ := c.at_.getD (s.samplesAt (16 * n.val + e.val) c)
        let test := x.dac && s.dacMay c.ent at_
        let free := at_ + 250
        let s := if c.unit.isNone then setMeas (fun m => { m with sliceFree := vmod m.sliceFree r (max free) }) s else s
        complete n.val e.val c v.1 (raw.2 || beyond || v.2) false test s
      else s
    | none => s

/-- A slice request that could not sample within 1 µs is dropped (R305). -/
def execSliceRequestDrop (n e : Fin 16) (s : State) : Res :=
  .next <|
    match (vget (s.adc n.val).res e.val {}).slice with
    | some c =>
      if s.isOn .analog then
        dropEntry n.val (setRes n.val e.val (fun r => { r with convs := r.convs.erase c }) s)
      else s
    | none => s

def State.dsdCfg (s : State) (d : Nat) : Word := s.reg (0x22100 + 4 * d)

/-- A filter output (R300, R301), marked CLIP while VDDA is out of its window (R440). -/
def execDsdFilterOutput (d : Fin 8) (y : Int) (s : State) : Res :=
  .next <|
    let c := s.dsdCfg d.val
    if s.isOn .analog && bit c 31 then
      let s := settleLatches s
      let osr := fld c 0 9
      let code := clampCode (F32.rne ((32768 * y : Int) / ((osr ^ 3 : Nat) : Rat)))
      let v := (code.1, code.2 || s.aon.vddaBad)
      let n := satInc 3 (vget s.meas.dsd d.val {}).outputs
      let s := setMeas (fun m => { m with dsd := vmod m.dsd d.val fun f => { f with
        outputs := n, last := if n = 3 then some v else f.last } }) s
      if n = 3 then calFeed 1 d.val v.1.toInt v.2 s else s
    else s

/-! Reading (R308, Table 08-2). -/

/-- The word a host read returns, and what the read leaves. -/
def readRes (r : ResWord) : Word × ResWord :=
  (pack [(31, 1, b2n r.test), (30, 1, b2n r.settle), (29, 1, b2n r.late), (28, 1, b2n r.clip), (27, 1, b2n r.overrun),
      (26, 1, b2n (r.any && r.read)), (25, 1, b2n (r.wait || !r.any)), (24, 1, b2n (r.any && !r.wait && !r.read)),
      (16, 8, r.seq), (0, 16, r.value.toNat)],
    { r with read := r.any, overrun := false, raised := false })

/-- A host read of one result word. -/
def hostReadRes (n e : Nat) (s : State) : Word × State :=
  let s := settleSeq n s
  let r := readRes (vget (s.adc n).res e {})
  (r.1, setRes n e (fun _ => r.2) s)

/-- ADC_READ (R311). -/
def execAdcRead (w : List Word) (s : State) : Res :=
  .next <| analogCommand (w.length == 1) (fun s =>
    let n := (wd w 0).toNat
    if 15 < n then refuse .badParam s
    else
      let es := (List.range 16).filter fun e => entOn (vget (s.adc n).ent e 0)
      let r := es.foldl (fun (a : List Word × State) e =>
        let x := hostReadRes n e a.2
        (a.1 ++ [x.1], x.2)) ([], settleSeq n s)
      reply .ok r.1 r.2) s

/-! ADC_SEQ (R302, R306). -/

/-- Inputs that enabled entries of enabled sequences other than `n` name for slice `r`. -/
def State.sliceInputs (s : State) (n r : Nat) : List Nat :=
  (List.range 16).flatMap fun i =>
    let q := s.adc i
    if i = n || !seqOn q then [] else
      (q.ent.toList.filter fun w => entOn w && !entDsd w && entUnit w == r).map entAin

/-- No privileged slice would convert a second input (R302, R318). -/
def oneInput (s : State) (n : Nat) (ent : List Word) (priv : Word) : Bool :=
  (List.range 8).all fun r =>
    !priv.getLsbD r ||
      (let l := s.sliceInputs n r ++ (ent.filter fun w => entOn w && !entDsd w && entUnit w == r).map entAin
       l.all fun a => a == l.headD a)

/-- When the last entry of a run completes, after its trigger (R306). -/
def runLength (cfg : Word) (ent : Vector Word 16) : Nat :=
  let d := 2 * fld cfg 0 16
  (List.range 16).foldl (fun a e =>
    let w := vget ent e 0
    if !entOn w then a else max a (d + if entDsd w then 20 else 250 * entQ ent e + 300)) 0

/-- What ADC_SEQ refuses. -/
def seqCheck (n : Nat) (cfg : Word) (ent : Vector Word 16) (s : State) : Status :=
  let trig := fld cfg 24 3
  let arg := fld cfg 16 6
  if trig = 7 ∨ ((trig = 4 ∨ trig = 5) ∧ 62 < arg) ∨ (trig = 6 ∧ 15 < arg) then .badParam
  else if ent.toList.any (fun w => decide (7 < entUnit w)) then .badParam
  else if !oneInput s n ent.toList s.meas.priv then .badParam
  else if trig = 3 ∧ 2900 < runLength cfg ent then .range
  else .ok

/-- A sequence written as a whole (R302, R308): earlier results are gone, a run in progress goes on. -/
def writeSeq (n : Nat) (cfg : Word) (ent : Vector Word 16) (s : State) : State :=
  setAdc n (fun q => { q with
    cfg := cfg &&& 0x873FFFFF#32
    ent := ent.map fun w => w &&& 0x81000F0F#32
    res := q.res.map fun r => { wait := !r.convs.isEmpty, convs := r.convs } }) (settleSeq n s)

def execAdcSeq (w : List Word) (s : State) : Res :=
  .next <| analogCommand (w.length == 18) (fun s =>
    let n := fld (wd w 0) 0 4
    let start := bit (wd w 0) 8
    let ent : Vector Word 16 := Vector.ofFn fun e => wd w (e.val + 2)
    if start ∧ fld (wd w 1) 24 3 ≠ 0 then refuse .badParam s
    else match seqCheck n (wd w 1) ent s with
      | .ok =>
        let s := writeSeq n (wd w 1) ent s
        reply .ok [] (if start then trigger n s.now false s else s)
      | st => refuse st s) s

/-! Background calibration (R318 to R323). -/

def privMask : Word := 0xBFFFFFFF#32

/-- What CAL_PRIV refuses (R318). -/
def privCheck (v : Word) (s : State) : Status :=
  if 4 < (setBits 8 v.toNat).length ∨ !oneInput s 16 [] v then .badParam
  else if fld v 16 14 < 10 ∨ 10000 < fld v 16 14 ∨ fld v 8 8 = 0 then .range
  else if s.meas.round.isSome then .state
  else .ok

def execCalPriv (w : List Word) (s : State) : Res :=
  .next <| analogCommand (w.length == 1) (fun s =>
    match privCheck (wd w 0) s with
    | .ok => reply .ok [] (setMeas (fun m => { m with priv := wd w 0 &&& privMask }) s)
    | st => refuse st s) s

/-- A round may start (R319). -/
def State.mayRotate (s : State) : Bool := s.isOn .analog && bit s.meas.priv 31 && fld s.meas.priv 0 8 != 0 && !s.meas.rotOff

def newRound (s : State) : Option CalRound :=
  if s.mayRotate then some { roles := setBits 8 s.meas.priv.toNat, step := .selfCal } else none

/-- The round ends; one that is due by then starts at once (R323). -/
def endRound (s : State) : State :=
  match s.meas.round with
  | some r => setMeas (fun m => { m with round := if r.late then newRound s else none }) s
  | none => s

/-- CAL_ROT has passed since the previous round's start (R319, R323). -/
def execCalRoundStart (s : State) : Res :=
  .next <|
    if !s.mayRotate then s
    else match s.meas.round with
      | some r => setMeas (fun m => { m with round := some { r with late := true }, rotLate := satInc 255 m.rotLate }) s
      | none => setMeas (fun m => { m with round := newRound s }) s

def setRound (f : CalRound → CalRound) (s : State) : State :=
  setMeas (fun m => { m with round := m.round.map f }) s

/-- A unit outside the limits of R320: it is failed, and the rotation stops where it serves SS (R322). -/
def failUnit (u : Nat) (s : State) : State :=
  let s := setMeas (fun m => { m with failed := m.failed ||| (1#9 <<< u) }) s
  if s.meas.served.getLsbD u then raise (174 + vget s.meas.lastRole u 0) (BitVec.ofNat 32 u) s
  else raise 127 1 (setMeas (fun m => { m with ssFault := true }) s)

def stopRotation (s : State) : State := setMeas (fun m => { m with rotOff := true, round := none }) s

/-- A self-calibration of unit `u` is outside the limits of R320. -/
def unitOut (gain offset : Rat) : Bool :=
  decide (gain < 995 / 1000 ∨ 1005 / 1000 < gain ∨ offset < -64 ∨ 64 < offset)

/-- The unit corrections a self-calibration found, and what follows where they are outside the limits (R320, R322). -/
def takeUnitCal (u : Nat) (gain offset : Rat) (s : State) : State :=
  let s := setMeas (fun m => { m with unitGain := vset m.unitGain u gain, unitOfs := vset m.unitOfs u offset }) s
  if !unitOut gain offset then s
  else
    let s := failUnit u s
    if vget s.meas.role 8 8 = u then stopRotation s else s

/-- The spare unit's self-calibration completes (R319, R320). -/
def execSelfCalDone (gain offset : Rat) (s : State) : Res :=
  .next <| match s.meas.round with
    | some r =>
      if s.isOn .analog ∧ r.step = .selfCal then
        let u := vget s.meas.role 8 8
        let s := takeUnitCal u gain offset s
        if unitOut gain offset then s
        else if r.roles.isEmpty then endRound s
        else setRound (fun r => { r with step := .overlap }) s
      else s
    | none => s

/-- The 16 comparisons complete (R321). -/
def execOverlapDone (mean : Rat) (s : State) : Res :=
  .next <| match s.meas.round with
    | some r =>
      if s.isOn .analog ∧ r.step = .overlap then
        let tol : Rat := fld s.meas.priv 8 8
        if -tol ≤ mean ∧ mean ≤ tol then setRound (fun r => { r with step := .takeover, suspect := false }) s
        else if r.again then
          setRound (fun r => { r with step := .takeover, suspect := true })
            (setMeas (fun m => { m with ovlErr := satInc 255 m.ovlErr }) s)
        else setRound (fun r => { r with step := .selfCal, again := true }) s
      else s
    | none => s

/-- The step is abandoned and the round goes on with the next role (R323). -/
def execOverlapTimeout (s : State) : Res :=
  .next <| match s.meas.round with
    | some r =>
      if s.isOn .analog ∧ r.step = .overlap then
        setRound (fun r => { r with roles := r.roles.tail, step := .selfCal, again := false })
          (setMeas (fun m => { m with rotLate := satInc 255 m.rotLate }) s)
      else s
    | none => s

/-- A role is taken over from unit `u` at the landing: the conversions it has sampled before stay that unit's, and those sampled at
or after the landing are the new unit's (R319). -/
def partRole (r u : Nat) (s : State) : State :=
  let l := (List.range 16).flatMap fun n => (List.range 16).flatMap fun e =>
    ((vget (s.adc n).res e {}).convs.filter fun c =>
      !entDsd c.ent && c.unit.isNone && entUnit c.ent == r && decide (s.samplesAt (16 * n + e) c < s.grid.now)).map fun c =>
        (n, e, c, s.samplesAt (16 * n + e) c)
  each l (fun x s =>
    setMeas (fun m => { m with sliceFree := vmod m.sliceFree r (max (x.2.2.2 + 250)) })
      (setRes x.1 x.2.1 (fun w => { w with convs := w.convs.map fun c =>
        if c = x.2.2.1 then { c with unit := some u, at_ := some x.2.2.2 } else c }) s)) s

/-- The takeover at the first landing after the comparisons (R319, R321). A unit that failed while it served the role serves SS no
more: no further round runs (R322). -/
def takeover (s : State) : State :=
  match s.meas.round with
  | some r =>
    match r.step, r.roles with
    | .takeover, n :: rest =>
      let old := vget s.meas.role n 0
      let s := partRole n old s
      let new := vget s.meas.role 8 8
      let s := setMeas (fun m => { m with
        role := vset (vset m.role n new) 8 old
        served := m.served ||| (1#9 <<< new)
        lastRole := vset (vset m.lastRole old n) new n }) s
      let s := raise 182 (pack [(0, 4, n), (4, 4, new)]) s
      if r.suspect then stopRotation (failUnit old s)
      else if s.meas.failed.getLsbD old then stopRotation s
      else setRound (fun r => { r with roles := rest, step := .selfCal, again := false }) s
    | _, _ => s
  | none => s

/-! System calibration, its start (R325, Table 08-5). -/

/-- The channel of MEAS_CAL_STATUS[15:0] without reserved bits. -/
def calChan (v : Word) : BitVec 16 :=
  BitVec.ofNat 16 (fld v 8 8 * 256 + if fld v 14 2 = 1 then fld v 0 2 else 0)

def chanCell (c : BitVec 16) : Option Nat := if c.toNat / 2 ^ 14 = 1 then some (c.toNat / 256 % 64) else none
def chanIdx (c : BitVec 16) : Nat := c.toNat / 256 % 64
def chanSub (c : BitVec 16) : Nat := c.toNat % 4

/-- What CAL_ZERO and CAL_FULL refuse (Table 08-5, in the order of R479); a cell 63 has no hall to be ON. -/
def calCheck (full : Bool) (w0 : Word) (s : State) : Status :=
  let kind := fld w0 14 2
  let i := fld w0 8 6
  let c := calChan w0
  let on := if kind = 1 then i == 63 || s.ctxOn i else s.isOn .analog
  let m := s.mapCfg i
  if 1 < kind then .badParam
  else if !on then .domainOff
  else if kind = 1 ∧ !s.installed i then .badParam
  else if kind = 0 ∧ (!bit m 31 ∨ 1 < fld m 29 2) then .badParam
  else if s.meas.calBusy ∨ (kind = 1 ∧ s.isActive i) then .state
  else if full ∧ (match s.meas.calZero with | some z => z.1 != c | none => true) = true then .state
  else .ok

def calStart (full : Bool) (w : List Word) (s : State) : State :=
  command (w.length == 2) (fun s =>
    let s := settleLatches s
    match calCheck full (wd w 0) s with
    | .ok =>
      let c := calChan (wd w 0)
      reply .accepted [] (setMeas (fun m => { m with
        calBusy := true, calChan := c, cal := some { full := full, chan := c, x := wd w 1 }
        calZero := if full then m.calZero else none }) s)
    | st => refuse st s) s

def execCalZero (w : List Word) (s : State) : Res := .next (calStart false w s)
def execCalFull (w : List Word) (s : State) : Res := .next (calStart true w s)

/-- MEAS_CAL_STATUS. -/
def calStatus (s : State) : Word :=
  pack [(31, 1, b2n s.meas.calBusy), (16, 8, statusCode s.meas.calResult), (0, 16, s.meas.calChan.toNat)]

/-- The calibration ends with an outcome (R325): CAL_DONE carries it. -/
def calEnd (st : Status) (s : State) : State :=
  let s := setMeas (fun m => { m with calBusy := false, calResult := st, cal := none }) s
  raise 183 (calStatus s &&& 0x00FFFFFF#32) s

/-- Averaging is not complete within 1 s. -/
def execCalTimeout (s : State) : Res :=
  .next <| match s.meas.cal with
    | some c => if s.isOn .atrium ∧ c.n < (if (chanCell c.chan).isSome then 64 else 256) then calEnd .state s else s
    | none => s

/-- Address of a channel's SCALE; G and O lie at +4 and +8 (R312, R316). -/
def calAddr (c : BitVec 16) : Nat :=
  match chanCell c with
  | some k => ctxBase k + 0x380 + 0x10 * chanSub c
  | none => 0x23004 + 0x10 * chanIdx c

/-! Test DAC (R327 to R330). -/

/-- MEAS_TDAC_RES. -/
def tdacRes (s : State) : Word :=
  pack [(31, 1, b2n s.meas.tdacDone), (30, 1, b2n s.meas.tdacFail), (29, 1, b2n s.meas.tdacOpen),
    (28, 1, b2n s.meas.tdacStall), (0, 16, s.meas.tdacDiff.toNat)]

/-- MEAS_TDAC written, with the check of its MODE started, where it has one. -/
def tdacStart (v : Word) (s : State) : State :=
  let mode := fld v 30 2
  setMeas (fun m => { m with tdac := v &&& 0xC1F00FFF#32, tdacRun := mode == 1 || mode == 2, tdacFrom := s.now }) s

/-- TEST_DAC writes MEAS_TDAC and starts the check of its MODE, where it has one. -/
def testDac (w : List Word) (s : State) : State :=
  analogCommand (w.length == 1) (fun s =>
    let v := wd w 0
    let mode := fld v 30 2
    if mode = 1 ∧ 7 < fld v 20 4 then refuse .badParam s
    else if s.meas.tdacRun then refuse .state s
    else reply .ok [] (tdacStart v s)) s

def execTestDac (w : List Word) (s : State) : Res := .next (testDac w s)
def execTestDacGain (w : List Word) (s : State) : Res := .next (testDac w s)
def execTestDacOpen (w : List Word) (s : State) : Res := .next (testDac w s)
def execTestDacOut (w : List Word) (s : State) : Res := .next (testDac w s)

/-- CODE in mV, and the level TDAC_OUT drives with MODE 3 (R330). -/
def tdacCode (s : State) : Int := sfld s.meas.tdac 0 12
def State.tdacOut (s : State) : Option Int :=
  if s.isOn .analog && fld s.meas.tdac 30 2 == 3 then some (tdacCode s) else none

/-- A check ends; a failed one raises TESTDAC_MISMATCH (Table 14-8). -/
def tdacEnd (fail open_ stall : Bool) (diff : BitVec 16) (s : State) : State :=
  let s := setMeas (fun m => { m with
    tdacRun := false, tdacPast := some (m.tdac, m.tdacFrom, s.now), tdacDone := true, tdacFail := fail, tdacOpen := open_, tdacStall := stall, tdacDiff := diff }) s
  if fail then raise 184 (tdacRes s) s else s

/-- A gain or open-input check completes with its measured difference in 62.5 µV, 16 to the mV (R327, R328). A
difference that 16 bits do not hold leaves the field open (log 3). -/
def execTestDacCheckDone (diff : Int) (s : State) : Res :=
  .next <|
    if s.isOn .analog && s.meas.tdacRun then
      let code := tdacCode s
      let open_ := fld s.meas.tdac 30 2 == 2 && decide (8 * code.natAbs < diff.natAbs)
      let off := fld s.meas.tdac 30 2 == 1 && decide (32 * code.natAbs < 100 * (diff - 32 * code).natAbs)
      let fits := decide (-32768 ≤ diff) && decide (diff ≤ 32767)
      let x := freeWord s
      if fits then tdacEnd (open_ || off) open_ false (BitVec.ofInt 16 diff) s
      else tdacEnd (open_ || off) open_ false (x.1.setWidth 16) x.2
    else s

/-- A check cannot place its conversions within 100 ms (R327). -/
def execTestDacStall (s : State) : Res :=
  .next <| if s.isOn .analog && s.meas.tdacRun then tdacEnd true false true s.meas.tdacDiff s else s

/-! The measurement map (R312 to R314). -/

/-- An angle in 0.32 turns moved on by `f` Hz over `ts` s (R167). -/
def advanceAngle (a : Word) (f ts : F32) : Word := a + BitVec.ofInt 32 (F32.rne (F32.toRat (F32.mul f ts) * ((2 ^ 32 : Nat) : Rat)))

/-- cos or sin argument θ − h/3 in turns, within one turn. -/
def armAngle (theta : Word) (h : Nat) : F32 :=
  F32.ofRat (F32.fracOf ((theta.toNat : Rat) / ((2 ^ 32 : Nat) : Rat) - (h : Rat) / 3))

/-- SCALE × (G × VALUE + O) as R312 orders it. -/
def scaled (scale g o : F32) (v : Int) : F32 := F32.mul scale (F32.fma g (F32.ofInt v) o)

/-- Direct and quadrature components of three values (Table 08-3). -/
def park (theta : Word) (v : Nat → F32) : F32 × F32 :=
  let two3 := F32.ofRat (2 / 3)
  let c := F32.sum ([0, 1, 2].map fun h => F32.mul (v h) (F32.laneCos (armAngle theta h)))
  let d := F32.sum ([0, 1, 2].map fun h => F32.mul (v h) (F32.laneSin (armAngle theta h)))
  (F32.mul two3 c, F32.neg (F32.mul two3 d))

/-- The transform of R314, from slot 0's ANGLE and frequency of period n - 1. -/
def transform (angle : Word) (f ts : F32) (cfg : Word) (pts : Table F32) : Table F32 :=
  let theta := advanceAngle angle f ts
  let at_ := fun (b h : Nat) => (tget pts (b + h)).getD 0
  let v := park theta (at_ (fld cfg 16 7))
  let i := park theta (at_ (fld cfg 8 7))
  let mag := F32.sqrt (F32.fma v.1 v.1 (F32.mul v.2 v.2))
  tset (tset (tset (tset (tset pts 64 v.1) 65 v.2) 66 i.1) 67 i.2) 68 mag

/-- The points of a map entry's source (R312). -/
def mapValue (m : Nat) (s : State) : F32 :=
  let c := s.mapCfg m
  let a := fld c 16 8
  let r := fun i => s.reg (0x23004 + 0x10 * m + 4 * i)
  let v : BitVec 16 := if fld c 29 2 = 0 then (vget (s.adc (a / 16)).res (a % 16) {}).value else (s.dsdValue (a % 8) s.now).1
  scaled (r 0) (r 1) (r 2) v.toInt

/-- Atrium points after the map and the transform of one period (R313). -/
def mapPoints (ts : F32) (s : State) : Table F32 :=
  let c := s.atr.ctx
  let ms := (List.range 64).filter fun m => bit (s.mapCfg m) 31
  let direct := ms.filter fun m => fld (s.mapCfg m) 29 2 < 2
  let pts := direct.foldl (fun p m => tset p (fld (s.mapCfg m) 0 7) (mapValue m s)) c.pts
  let x := s.reg 0x22040
  let pts := if bit x 31 then transform (c.slot 0).angle (c.slot 0).uSat ts x pts else pts
  (ms.filter fun m => fld (s.mapCfg m) 29 2 = 2).foldl (fun p m =>
    let g := s.mapCfg m
    let v := F32.mul (F32.mul (s.reg (0x23004 + 0x10 * m)) ((tget p (fld g 16 7)).getD 0)) ((tget p (fld g 8 7)).getD 0)
    tset p (fld g 0 7) v) pts

/-- The measurement map of a period, with the filter latches due by then. -/
def takeMap (ts : F32) (s : State) : State :=
  { s with atr := { s.atr with ctx := { s.atr.ctx with pts := mapPoints ts s } } }

def mapEval (ts : F32) (s : State) : State := if !s.isOn .analog then s else takeMap ts (settleLatches s)

/-- MEAS_STATUS. -/
def measStatus (s : State) : Word :=
  pack [(31, 1, b2n s.meas.round.isSome), (30, 1, b2n s.meas.rotOff), (29, 1, b2n s.meas.ssFault),
    (16, 8, s.meas.ovlErr), (8, 8, s.meas.drop), (0, 8, s.meas.rotLate)]

/-- MEAS_SLICE_MAP, low and high word. -/
def sliceMap (s : State) : List Word :=
  [pack ((List.range 8).map fun n => (4 * n, 4, vget s.meas.role n 0)),
    pack [(0, 4, vget s.meas.role 8 8), (8, 9, s.meas.failed.toNat)]]

/-- The self-calibration of every unit, each with corrections of its own that nothing constrains (R320, R322, log 3). -/
def calibrateUnits (s : State) : State :=
  each (List.range 9) (fun u s =>
    let x := freeNat s
    let y := freeNat x.2
    takeUnitCal u ((x.1 : Rat) / 100000) ((y.1 : Rat) - 32768) y.2) s

/-- Role Sn is served by unit Un and SS by U8 (R298). The rotation is off where U8 keeps a failed mark (R322). -/
def resetRoles (m : Meas) : Meas :=
  { m with role := ({} : Meas).role, lastRole := ({} : Meas).lastRole, served := ({} : Meas).served
           rotOff := m.rotOff || m.failed.getLsbD 8 }

/-- ANALOG has come up: every unit calibrates itself, and every enabled filter starts with zero contents (R301, R322). -/
def analogUp (s : State) : State :=
  calibrateUnits (each ((List.range 8).filter fun d => bit (s.dsdCfg d) 31) dsdRestart s)

end Sys2Proof.Machine
end

