-- ==== Sys2Proof/Machine/Loops.lean ====
section
/-! DEFINITION. The control law of the loop slots, competition groups, landings of coefficients and the injectors
(chapter 4, R150 to R178, R190 to R193). -/

namespace Sys2Proof.Machine

open Sys2Proof

/-! Parts of the grid a loop uses. -/

/-- Tc whose Ts this period's computation uses (R177). -/
def State.tcUse (s : State) : Nat :=
  match s.grid.change with
  | some (lx, tn) => if s.grid.now = lx then tn else s.grid.tc
  | none => s.grid.tc

/-- Ts (R164). -/
def State.ts (s : State) : F32 := secondsOf s.tcUse

/-! Injectors (R190 to R193). -/

def injCtx (x : Injector) : Nat := fld x.cfg 24 6
def injSlot (x : Injector) : Nat := fld x.cfg 20 4
def injPoint (x : Injector) : Nat := fld x.cfg 18 2
def injType (x : Injector) : Nat := fld x.cfg 16 2
def injLen (x : Injector) : Nat := fld x.cfg 8 5
def injHold (x : Injector) : Nat := fld x.cfg 0 8

/-- Taps of a length (Table 04-11). -/
def prbsTaps (l : Nat) : List Nat :=
  match l with
  | 9 => [9, 5] | 10 => [10, 7] | 11 => [11, 9] | 12 => [12, 6, 4, 1] | 13 => [13, 4, 3, 1]
  | 14 => [14, 5, 3, 1] | 15 => [15, 14] | 16 => [16, 15, 13, 4]
  | 17 => [17, 14] | 18 => [18, 11] | 19 => [19, 6, 2, 1] | 20 => [20, 17] | 21 => [21, 19]
  | 22 => [22, 21] | 23 => [23, 18] | 24 => [24, 23, 22, 17]
  | 25 => [25, 22] | 26 => [26, 6, 2, 1] | 27 => [27, 5, 2, 1] | 28 => [28, 25] | 29 => [29, 27]
  | 30 => [30, 6, 4, 1] | 31 => [31, 28]
  | _ => []

/-- One step of the LFSR (R193): the output bit and the next state, bit t - 1 holding s[t]. -/
def lfsrStep (l v : Nat) : Bool × Nat :=
  let fb := (prbsTaps l).foldl (fun a t => a != v.testBit (t - 1)) false
  (v.testBit (l - 1), (v * 2 + b2n fb) % 2 ^ l)

/-- f[m] of a sweep (R192), each written operation rounded in its order (log 12). -/
def sweepFreq (x : Injector) : F32 :=
  let m := F32.ofNat x.m
  let d := F32.ofNat (x.dur.toNat - 1)
  if bit x.cfg 15 then F32.mul x.f0 (F32.pow (F32.div x.f1 x.f0) (F32.div m d))
  else F32.add x.f0 (F32.div (F32.mul (F32.sub x.f1 x.f0) m) d)

/-- The injector contributes in this period. -/
def injActive (x : Injector) : Bool := x.run && x.ready && (x.dur == 0 || decide (x.m < x.dur.toNat))

/-- The signal at sample m (R192). -/
def injValue (x : Injector) : F32 :=
  if !injActive x then 0
  else match injType x with
    | 0 => x.amp
    | 1 => if x.bit then x.amp else F32.neg x.amp
    | 2 => F32.mul x.amp (F32.laneSin (F32.ofRat ((x.phase.toNat : Rat) / ((2 ^ 32 : Nat) : Rat))))
    | _ => 0

/-- A PRBS step where the sample begins a hold (R192). -/
def injBit (x : Injector) : Injector :=
  if injType x = 1 ∧ x.m % injHold x = 0 then
    let y := lfsrStep (injLen x) x.lfsr
    { x with bit := y.1, lfsr := y.2 }
  else x

/-- An injector takes its first sample. -/
def injFirst (x : Injector) : Injector := injBit { x with ready := true, m := 0 }

/-- S(n) passes: a started injector takes its first sample, one that runs its next (R191, R192). The
phase steps with the Ts of the computation that begins (R177, log 101). -/
def injTick (ts : F32) (x : Injector) : Injector :=
  if !x.run then x
  else if !x.ready then injFirst x
  else injBit { x with phase := if injType x = 2 then advanceAngle x.phase (sweepFreq x) ts else x.phase, m := x.m + 1 }

/-- An injector starts (R191). -/
def injStart (x : Injector) : Injector :=
  { x with run := true, armedTc := false, ready := false, m := 0, phase := 0, bit := false
           lfsr := x.seed.toNat % 2 ^ injLen x }

/-- An injector stops: INJECT_DONE (R191). -/
def injStop (n : Nat) (abort : Bool) (s : State) : State :=
  let s := { s with atr := { s.atr with inj := vmod s.atr.inj n fun x => { x with
    run := false, armedTc := false, ready := false, done := true, abort := x.abort || abort } } }
  raise 228 (pack [(0, 3, n), (3, 1, b2n abort)]) s

/-- A running injector whose loop is not enabled at this landing stops there with ABORT (R191, R192). -/
def injGuard (n : Nat) (s : State) : State :=
  let x := vget s.atr.inj n {}
  if x.run && !((s.ctx (injCtx x)).slot (injSlot x)).en then injStop n true s else s

/-- What the injectors add to point `pt` of slot `i` of context `n` (R190). -/
def State.injAdd (s : State) (n i pt : Nat) : F32 :=
  F32.sum ((s.atr.inj.toList.filter fun x => injActive x && injCtx x == n && injSlot x == i && injPoint x == pt).map injValue)

/-- Injectors acting on a slot, one bit each. -/
def State.injMask (s : State) (n i : Nat) : Byte :=
  bitsOf fun j => match s.atr.inj[j]? with
    | some x => injActive x && injCtx x == n && injSlot x == i
    | none => false

/-- DUR periods have passed (R191). -/
def execInjectDone (n : Fin 8) (s : State) : Res :=
  .next <|
    let x := vget s.atr.inj n.val {}
    if s.isOn .atrium && x.run then injStop n.val false s else s

/-! One slot (R164 to R177). -/

/-- The constants of R164. -/
def constants (ts : F32) (x : Slot) : Slot :=
  let x : Slot := { x with cTs := ts }
  let two := F32.ofNat 2
  let a := x.act
  let tf2 := F32.mul two a.tf
  if x.disc then { x with
    a1 := F32.div (F32.sub tf2 ts) (F32.add tf2 ts)
    b1 := F32.div (F32.mul two a.kd) (F32.add tf2 ts)
    kiTs := F32.div (F32.mul a.ki ts) two
    ktTs := F32.mul a.kt ts }
  else { x with
    a1 := F32.div a.tf (F32.add a.tf ts)
    b1 := F32.div a.kd (F32.add a.tf ts)
    kiTs := F32.mul a.ki ts
    ktTs := F32.mul a.kt ts }

/-- What a slot's computation reads: its sources, its injections, and the period's Ts. -/
structure LoopIn where
  r : F32
  y : F32
  ffSrc : Option F32
  injR : F32
  injY : F32
  injU : F32
  injecting : Byte
  ts : F32

/-- How a computation begins: as any other, or bumplessly from a value (R174). -/
inductive LoopStart where
  | run
  | land (wPrev : F32)

/-- P, D and FFV with the signed reference and feedback (R166): r, y, e, p, ed, d, ffv. -/
structure LoopTerms where
  r : F32
  y : F32
  e : F32
  p : F32
  ed : F32
  d : F32
  ffv : F32

/-- The first half of the sequence of R166; `fresh` takes ed_prev as ed and d_prev as 0 (R176). -/
def loopTerms (q : LoopIn) (fresh : Bool) (x : Slot) : LoopTerms :=
  let a := x.act
  let sg := fun (v : F32) => if x.sign then F32.neg v else v
  let r := F32.add q.r q.injR
  let y := F32.add q.y q.injY
  let rr := sg r
  let yy := sg y
  let e := F32.sub rr yy
  let p := F32.mul a.kp (F32.fma a.b rr (F32.neg yy))
  let ed := F32.fma a.c rr (F32.neg yy)
  let dPrev := if fresh then 0 else x.d
  let edPrev := if fresh then ed else x.ed
  let d := F32.fma x.a1 dPrev (F32.mul x.b1 (F32.sub ed edPrev))
  let ffv := match q.ffSrc with
    | some v => F32.mul a.ff v
    | none => F32.flush a.ff
  { r := r, y := y, e := e, p := p, ed := ed, d := d, ffv := ffv }

/-- The slot after one computation; its w is set once known. -/
def loopCompute (q : LoopIn) (st : LoopStart) (fresh : Bool) (x : Slot) : Slot :=
  let t := loopTerms q fresh x
  let a := x.act
  let iu := match st with
    | .run =>
      let ie := if x.disc then F32.add t.e x.e else t.e
      let i := F32.fma x.kiTs ie x.i
      let i := F32.fma x.ktTs (F32.sub x.w x.u) i
      (i, F32.add (F32.add (F32.add (F32.add t.p i) t.d) t.ffv) q.injU)
    | .land wPrev =>
      let wr := F32.clamp wPrev a.umin a.umax
      let i := F32.sub (F32.sub (F32.sub wr t.p) t.d) t.ffv
      (i, if F32.isZero q.injU then wr else F32.add wr q.injU)
  let us := F32.clamp iu.2 a.umin a.umax
  { x with
    r := t.r, y := t.y, e := t.e, p := t.p, ed := t.ed, d := t.d, ffv := t.ffv, i := iu.1, u := iu.2, uSat := us
    injSum := F32.add (F32.add q.injR q.injY) q.injU
    injecting := q.injecting
    satHi := F32.le a.umax iu.2
    satLo := !F32.le a.umax iu.2 && F32.le iu.2 a.umin
    angle := if x.func = 1 then advanceAngle x.angle us q.ts else x.angle }

/-- Every value of a computation is finite (R24, R168). -/
def loopFinite (x : Slot) : Bool :=
  [x.r, x.y, x.e, x.p, x.i, x.d, x.ed, x.u, x.uSat, x.ffv].all F32.isFinite

/-! One context (R158, R159, R170). -/

/-- The number of slots and groups of a context (R156). -/
def slotCount (n : Nat) : Nat := if n = 63 then 16 else 6
def groupCount (n : Nat) : Nat := if n = 63 then 8 else 2

/-- What slot reads at a source (R158): its own context's working copy, else the copies of S(n). -/
def sourceValue (s : State) (n : Nat) (c : Ctx) (src : BitVec 16) : F32 :=
  let m := ptCtx src
  let p := ptNum src
  if m = n then ctxPoint s n c p
  else if m = 63 then oldPoint s.atr.old p
  else if p < 128 then ctxPoint s m (s.tread m) p
  else ctxPoint s m (vget s.treadsOld m {}) p

/-- Enabled members of group `g`. -/
def members (n g : Nat) (c : Ctx) : List Nat :=
  (List.range (slotCount n)).filter fun i => (c.slot i).en && (c.slot i).group == g

/-- Members of group `g`, enabled or not. -/
def inGroup (n g : Nat) (c : Ctx) : List Nat := (List.range (slotCount n)).filter fun i => (c.slot i).group == g

/-- A write of a loop's or group's output to its destination (R160). -/
def writeOut (dst : BitVec 16) (w : F32) (c : Ctx) : Ctx :=
  if ptNone dst then c else { c with pts := tset c.pts (ptNum dst) w }

/-- The least u_sat of the members, and the lowest slot that has it (R170). -/
def leastOf (l : List Nat) (c : Ctx) : Option (Nat × F32) :=
  l.foldl (fun a i =>
    let u := (c.slot i).uSat
    match a with
    | some (_, v) => if F32.lt u v then some (i, u) else a
    | none => some (i, u)) none

/-- A group evaluated once its highest enabled member has executed: every member, a disabled one too, takes its output and its
winner (R159, R170, R171). -/
def evalGroup (n g : Nat) (c : Ctx) : Ctx :=
  match leastOf (members n g c) c with
  | some (i, v) =>
    let c := c.setGroup g fun x => { x with winner := i, g := v }
    let c := each (inGroup n g c) (fun j c => c.setSlot j fun x => { x with w := v, winner := i }) c
    writeOut (c.group g).outDst v c
  | none => c.setGroup g fun x => { x with winner := 15 }

/-- The w a slot's landing starts from when a LOOP_ENABLE with TRACK lands (R176). -/
def trackValue (n : Nat) (c : Ctx) (x : Slot) : F32 :=
  if x.group < groupCount n then (c.group x.group).g
  else if ptNone x.outDst then x.w
  else (tget c.pts (ptNum x.outDst)).getD 0

/-- The slot of a LOOP_COEF has come to its landing (R173). -/
def armLands (s : State) (x : Slot) : Bool :=
  match x.arm with
  | none => false
  | some .next => x.armReady
  | some .loadAll => match x.armAt with
    | some t => decide (t ≤ s.grid.next)
    | none => false

/-- What lands at a slot before it computes: a group change (R175), coefficients (R173), a Tc its constants were not formed with
(R177), an enable or disable (R176). `c` is the context as the previous landing left it. Gives the slot, whether it computes
afresh, and the value R174 starts from where it applies. -/
def slotLandings (s : State) (n : Nat) (ts : F32) (c : Ctx) (x : Slot) : Slot × Bool × Option F32 :=
  -- group change
  let gl := match x.grpArm with
    | some g =>
      if x.grpReady then
        let wp := if g < groupCount n then (if (members n g c).isEmpty then x.w else (c.group g).g)
          else if x.group < groupCount n then (c.group x.group).g else x.w
        ({ x with group := g, grpArm := none, grpReady := false }, some wp)
      else (x, none)
    | none => (x, none)
  let x := gl.1
  let start := gl.2
  -- coefficients
  let cl := armLands s x
  let x := if cl then constants ts { x with
      act := x.armed, arm := none, armAt := none, armReady := false, coefGen := (x.coefGen + 1) % 2 ^ 24 } else x
  let start := if cl && start.isNone then some x.w else start
  -- a new Tc
  let bump := x.en && x.cTs != ts
  let x := if bump then constants ts x else x
  let start := if bump && start.isNone then some x.w else start
  -- enable
  match x.enArm with
  | some a =>
    if x.enReady then
      if a.en then
        let wp := if a.track then trackValue n c x else a.u0
        (constants ts { x with en := true, nonfinite := false, enArm := none, enReady := false }, true, some wp)
      else ({ x with en := false, enArm := none, enReady := false }, false, none)
    else (x, false, start)
  | none => (x, false, start)

/-- The landings of every slot of a context, all judged on the context of the previous landing (R159, R175, R176). -/
def landings (s : State) (n : Nat) (c : Ctx) : List (Slot × Bool × Option F32) :=
  (List.range (slotCount n)).map fun i => slotLandings s n s.ts c (c.slot i)

/-- A context after its landings, before it computes. -/
def landed (n : Nat) (ls : List (Slot × Bool × Option F32)) (c : Ctx) : Ctx :=
  each (List.range (slotCount n)) (fun i c => match ls[i]? with
    | some l => c.setSlot i fun _ => l.1
    | none => c) c

/-- Group destinations that land with a moved slot (R509). -/
def groupDst (n : Nat) (c : Ctx) : Ctx :=
  each (List.range (groupCount n)) (fun g c => c.setGroup g fun x =>
    match x.dstArm with
    | some d => if x.dstReady then { x with outDst := d, dstArm := none, dstReady := false } else x
    | none => x) c

/-- What a slot reads in this period. -/
def loopIn (s : State) (n i : Nat) (ts : F32) (c : Ctx) (x : Slot) : LoopIn :=
  { r := if ptNone x.rSrc then x.spUse else sourceValue s n c x.rSrc
    y := sourceValue s n c x.ySrc
    ffSrc := if ptNone x.ffSrc then none else some (sourceValue s n c x.ffSrc)
    injR := s.injAdd n i 0, injY := s.injAdd n i 1, injU := s.injAdd n i 2
    injecting := s.injMask n i, ts := ts }

/-- A context in the course of its computation: its working copy, slots that turned out non-finite, and groups that
keep their output for it (R168). -/
structure CtxRun where
  c : Ctx
  bad : List Nat := []
  keep : List Nat := []

/-- Slot `i` computed, and the group evaluated whose highest enabled member it is (R159, R168). A value that is not finite is
not applied: a tread's is a tread error (R24), and an atrium slot is disabled with NONFINITE. -/
def runSlot (s : State) (n : Nat) (ts : F32) (l : Slot × Bool × Option F32) (i : Nat) (q : CtxRun) : CtxRun :=
  let x := l.1
  if !x.en then { q with c := q.c.setSlot i fun x => { x with injSum := 0, injecting := 0 } }
  else
    let grouped := decide (x.group < groupCount n)
    let last := grouped && (members n x.group q.c).all fun j => decide (j ≤ i)
    let st := match l.2.2 with
      | some w => LoopStart.land w
      | none => LoopStart.run
    let y := loopCompute (loopIn s n i ts q.c x) st l.2.1 x
    let q := if loopFinite y then
        if grouped then { q with c := q.c.setSlot i fun _ => y }
        else { q with c := writeOut y.outDst y.uSat (q.c.setSlot i fun _ => { y with w := y.uSat, winner := i }) }
      else { q with
        c := if n = 63 then q.c.setSlot i fun x => { x with en := false, nonfinite := true } else q.c
        bad := q.bad ++ [i]
        keep := if grouped then x.group :: q.keep else q.keep }
    if last && !q.keep.contains x.group then { q with c := evalGroup n x.group q.c } else q

/-- A group with no enabled member has no winner, and writes nothing (R171). -/
def emptyGroups (n : Nat) (c : Ctx) : Ctx :=
  each (List.range (groupCount n)) (fun g c => if (members n g c).isEmpty then evalGroup n g c else c) c

/-- All slots of a context in ascending order (R159), after what lands at them. -/
def runCtx (s : State) (n : Nat) (c : Ctx) : CtxRun :=
  let ls := landings s n c
  each (ls.zip (List.range ls.length)) (fun x q => runSlot s n s.ts x.1 x.2 q)
    { c := emptyGroups n (landed n ls (groupDst n c)) }

/-! S(n): what the first computation after it takes into use (R158, R162, R173). -/

/-- Armed changes that the coming computation lands. -/
def Slot.sample (x : Slot) : Slot :=
  { x with spUse := x.sp, armReady := x.arm.isSome, enReady := x.enArm.isSome, grpReady := x.grpArm.isSome }

def Ctx.sample (c : Ctx) : Ctx :=
  { c with slots := c.slots.map Slot.sample, groups := c.groups.map fun g => { g with dstReady := g.dstArm.isSome } }

/-! Catalogue (R178). -/

def catTread (k i : Nat) : Slot :=
  let own := fun (p : Nat) => BitVec.ofNat 16 (k * 1024 + p)
  let atr := fun (p : Nat) => BitVec.ofNat 16 (63 * 1024 + p)
  match i with
  | 0 => { rSrc := atr (404 + k / 21), ySrc := own 1 }
  | 1 =>
    let co : Coefs := { ff := F32.one }
    { rSrc := atr (400 + k / 21), ySrc := own 0, ffSrc := own 136, outDst := own 389, pend := co, act := co }
  | _ => {}

/-- The feedback source of atrium slot 6 by assignment (R554). -/
def slot6Src (assign : Nat) : BitVec 16 := if assign = 0 then 0xFC42#16 else 0xFC45#16

def catAtrium (assign i : Nat) : Slot :=
  let atr := fun (p : Nat) => BitVec.ofNat 16 (63 * 1024 + p)
  match i with
  | 0 =>
    let co : Coefs := { ff := F32.ofNat 50 }
    { func := 1, ySrc := atr 65, pend := co, act := co }
  | 1 => { ySrc := atr 16, group := 0 }
  | 2 => { ySrc := atr 18, group := 0 }
  | 3 => { ySrc := atr 17, group := 0 }
  | 4 => { rSrc := atr 640, ySrc := atr 641, group := 0 }
  | 5 => { ySrc := atr 68, group := 0 }
  | 6 => { rSrc := atr 152, ySrc := slot6Src assign, outDst := atr 392, follows := true }
  | 7 => { ySrc := atr 67, outDst := atr 393 }
  | 8 => { rSrc := atr 70, ySrc := atr 71, outDst := atr 394 }
  | _ => {}

/-- A context as its catalogue leaves it. -/
def catalogue (assign n : Nat) : Ctx :=
  if n = 63 then { slots := Vector.ofFn fun i => catAtrium assign i.val }
  else { slots := Vector.ofFn fun i => if i.val < 6 then catTread n i.val else {} }

end Sys2Proof.Machine
end

