-- ==== Sys2Proof/Machine/LoopCmds.lean ====
section
/-! DEFINITION. The host's commands on loop slots, competition groups, injectors and the capture engine (chapter 4,
Table 15-4), and the self-tests of the loop lanes. -/

namespace Sys2Proof.Machine

open Sys2Proof

/-! Loop slots (R156 to R163, R173 to R176). -/

/-- The landing reference of a change that the computation of the first period whose S(n) follows lands (R173). -/
def loopRef (s : State) : List Word :=
  s.refFrom (if s.now < s.grid.now + s.sampleOfs then s.grid.next else s.grid.next + 1) false

/-- A source of R157: none, or a point below 768 of a context the slot may name. -/
def sourceOk (n : Nat) (p : BitVec 16) : Bool :=
  ptNone p || (decide (ptNum p < 768) && (n == 63 || ptCtx p == n || ptCtx p == 63))

/-- A destination of R160. -/
def destOk (n : Nat) (p : BitVec 16) : Bool :=
  ptNone p || (ptCtx p == n && decide (384 ≤ ptNum p) && decide (ptNum p < 512))

/-- A host command on slot `i` of the context of queue `n` (R501, R508). -/
def slotCommand (n : Fin 64) (lenOk : Bool) (body : Nat → State → State) (i : Nat) (s : State) : State :=
  command lenOk (fun s =>
    if !s.ctxOn n.val then refuse .domainOff s
    else if slotCount n.val ≤ i then refuse .badParam s
    else body i s) s

/-- The Tc values a coefficient set must hold at: the one in use, and a pending one. -/
def State.tcs (s : State) : List Nat :=
  match s.grid.change with
  | some (_, tn) => [s.grid.tc, tn]
  | none => [s.grid.tc]

def Coefs.list (c : Coefs) : List F32 := [c.kp, c.ki, c.kd, c.tf, c.kt, c.b, c.c, c.umin, c.umax, c.ff]

def Coefs.ofList (l : List Word) : Coefs :=
  { kp := wd l 0, ki := wd l 1, kd := wd l 2, tf := wd l 3, kt := wd l 4, b := wd l 5, c := wd l 6
    umin := wd l 7, umax := wd l 8, ff := wd l 9 }

/-- The conditions of Table 04-7 that depend on DISC (TF at least Ts). -/
def discOk (tcs : List Nat) (disc : Bool) (c : Coefs) : Bool :=
  !disc || !decide (0 < F32.toRat c.kd) || tcs.all fun tc => decide (F32.toRat (secondsOf tc) ≤ F32.toRat c.tf)

/-- The condition of Table 04-7 that depends on group membership (KT above 0). -/
def groupOk (member : Bool) (c : Coefs) : Bool :=
  !member || !decide (0 < F32.toRat c.ki) || decide (0 < F32.toRat c.kt)

/-- KT × Ts at most 1. -/
def ktOk (tcs : List Nat) (c : Coefs) : Bool :=
  tcs.all fun tc => decide (F32.toRat c.kt * F32.toRat (secondsOf tc) ≤ 1)

/-- Table 04-7 for one coefficient set. -/
def coefRange (tcs : List Nat) (disc member : Bool) (c : Coefs) : Bool :=
  F32.within 0 1000000 c.kp && F32.within 0 100000000 c.ki && F32.within 0 1000 c.kd && F32.within 0 10 c.tf
    && F32.within 0 10000000 c.kt && F32.within 0 1 c.b && F32.within 0 1 c.c
    && decide (F32.toRat c.umin ≤ F32.toRat c.umax) && discOk tcs disc c && groupOk member c && ktOk tcs c

/-- The group a slot will have once what is armed has landed (R163). -/
def Slot.groupNext (x : Slot) : Nat := x.grpArm.getD x.group

/-- LOOP_COEF's check of a set (R163). -/
def coefCheck (n : Nat) (x : Slot) (c : Coefs) (s : State) : Status :=
  if !c.list.all F32.isFinite then .badParam
  else if !coefRange s.tcs x.disc (decide (x.groupNext < groupCount n)) c then .range
  else .ok

/-- The sets of a slot that R163 keeps within Table 04-7: the active one and one that is armed. -/
def Slot.heldSets (x : Slot) : List Coefs := x.act :: (if x.arm.isSome then [x.armed] else [])

/-- The writable bits of LOOP_CFG: FUNC, DISC and SIGN. -/
def loopCfgMask : Word := 0x36#32

def loopCfgBits (x : Slot) : Word := pack [(4, 2, x.func), (2, 1, b2n x.disc), (1, 1, b2n x.sign)]

/-- What LOOP_SET refuses (R156, R157, R160, R162, R163). -/
def loopSetCheck (n : Nat) (x : Slot) (cfg src dst : Word) (s : State) : Status :=
  let hi := fun (w : Word) => (w >>> 16).setWidth 16
  let lo := fun (w : Word) => w.setWidth 16
  let same := cfg &&& loopCfgMask == loopCfgBits x && hi src == x.rSrc && lo src == x.ySrc
    && hi dst == x.ffSrc && lo dst == x.outDst
  if 2 ≤ fld cfg 4 2 then .badParam
  else if !sourceOk n (hi src) || !sourceOk n (lo src) || !sourceOk n (hi dst) || !destOk n (lo dst) then .badParam
  else if !x.heldSets.all (discOk s.tcs (bit cfg 2)) then .range
  else if x.en && !same then .state
  else .ok

/-- The registers of a slot as LOOP_SET writes them; the feedback source is the host's from now on (R554). -/
def loopWrite (cfg src dst sp : Word) (x : Slot) : Slot :=
  { x with
    func := fld cfg 4 2, disc := bit cfg 2, sign := bit cfg 1
    rSrc := (src >>> 16).setWidth 16, ySrc := src.setWidth 16
    ffSrc := (dst >>> 16).setWidth 16, outDst := dst.setWidth 16
    sp := sp, follows := false }

/-- The statuses of R479 among those that apply. -/
def loopSet (n i : Nat) (cfg src dst sp : Word) (s : State) : Status × State :=
  match loopSetCheck n ((s.ctx n).slot i) cfg src dst s with
  | .ok => (.ok, s.setCtx n fun c => c.setSlot i (loopWrite cfg src dst sp))
  | st => (st, s)

/-- LOOP_SET (R162). -/
def execLoopSet (q : Fin 64) (w : List Word) (s : State) : Res :=
  .next <| slotCommand q (w.length == 5) (fun i s =>
    if bit (wd w 0) 8 then refuse .ok (s.setCtx q.val fun c => c.setSlot i fun x => { x with sp := wd w 4 })
    else
      let r := loopSet q.val i (wd w 1) (wd w 2) (wd w 3) (wd w 4) s
      refuse r.1 r.2) (fld (wd w 0) 0 4) s

/-- A checked set armed for its landing (R173). -/
def armCoefs (onLoad : Bool) (c : Coefs) (x : Slot) : Slot :=
  { x with pend := c, armed := c, arm := some (if onLoad then .loadAll else .next), armAt := none, armReady := false }

/-- LOOP_COEF (R163, R173). -/
def execLoopCoef (q : Fin 64) (w : List Word) (s : State) : Res :=
  .next <|
    let w0 := wd w 0
    let only := bit w0 9
    slotCommand q (w.length == if only then 1 else 11) (fun i s =>
      let x := (s.ctx q.val).slot i
      let c := if only then x.pend else Coefs.ofList w.tail
      match coefCheck q.val x c s with
      | .ok =>
        let s := s.setCtx q.val fun k => k.setSlot i (armCoefs (bit w0 8) c)
        reply .ok (if bit w0 8 then [0, bitAt true 24] else loopRef s) s
      | st => refuse st s) (fld w0 0 4) s

/-- LOOP_ENABLE (R157, R176). -/
def execLoopEnable (q : Fin 64) (w : List Word) (s : State) : Res :=
  .next <|
    let w0 := wd w 0
    let a : EnArm := { en := bit w0 8, track := bit w0 9, u0 := wd w 1 }
    slotCommand q (w.length == 2) (fun i s =>
      if ptNone ((s.ctx q.val).slot i).ySrc then refuse .badParam s
      else if a.en && !a.track && !F32.isFinite a.u0 then refuse .badParam s
      else
        let s := s.setCtx q.val fun k => k.setSlot i fun x => { x with enArm := some a, enReady := false }
        reply .ok (loopRef s) s) (fld w0 0 4) s

/-- An enabled lone loop other than slot `i`, or a group other than `g` with an enabled member, has destination `d`. -/
def dstInUse (n i g : Nat) (d : BitVec 16) (c : Ctx) : Bool :=
  !ptNone d &&
    ((List.range (slotCount n)).any (fun j => j != i && (c.slot j).en && decide (groupCount n ≤ (c.slot j).group)
        && (c.slot j).outDst == d)
      || (List.range (groupCount n)).any (fun j => j != g && !(members n j c).isEmpty && (c.group j).outDst == d))

/-- Point `p` is the OUT_DST of an enabled loop or group of context `n` (R160). -/
def dstTaken (n p : Nat) (c : Ctx) : Bool := dstInUse n 99 99 (BitVec.ofNat 16 (n * 1024 + p)) c

/-- GROUP_SET (R163, R175, R509). -/
def execGroupSet (q : Fin 64) (w : List Word) (s : State) : Res :=
  .next <|
    let w0 := wd w 0
    let g := fld w0 8 4
    let d : BitVec 16 := (wd w 1).setWidth 16
    let n := q.val
    slotCommand q (w.length == 2) (fun i s =>
      let c := s.ctx n
      let x := c.slot i
      if g ≠ 15 ∧ groupCount n ≤ g then refuse .badParam s
      else if bit w0 12 && (g == 15 || !destOk n d) then refuse .badParam s
      else if !x.heldSets.all (groupOk (decide (g < groupCount n))) then refuse .range s
      else if bit w0 12 && dstInUse n i g d c then refuse .state s
      else
        let s := s.setCtx n fun c => c.setSlot i fun x => { x with grpArm := some g, grpReady := false }
        let s := if bit w0 12 then s.setCtx n fun c => c.setGroup g fun y => { y with dstArm := some d, dstReady := false }
          else s
        reply .ok (loopRef s) s) (fld w0 0 4) s

/-! Capture (R194 to R197). -/

def capChans (cfg : Word) : Nat := 2 ^ fld cfg 0 2
def capDepth (cfg : Word) : Nat := 262144 / capChans cfg
def capDec (cfg : Word) : Nat := fld cfg 16 16
/-- The banks that hold the capture buffer are ON (R45). -/
def State.capBanks (s : State) : Bool := [6, 7, 8, 9].all s.bankOn

/-- A capture that waits for the start of injector `n`. -/
def capInjector (n : Nat) (s : State) : State :=
  if capTrig s.atr.cap.cfg = 3 ∧ capSrc s.atr.cap.cfg = n then capTrigger s else s

/-- What CAPTURE refuses (Table 15-4, R45). The numbers 231 to 255 name no event. -/
def captureCheck (cfg pre : Word) (pts : List Word) (s : State) : Status :=
  if !s.capBanks then .domainOff
  else if pts.any (fun p => reservedPt (p.toNat % 1024)) then .badParam
  else if (capTrig cfg = 2 ∧ 231 ≤ capSrc cfg) ∨ (capTrig cfg = 3 ∧ 8 ≤ capSrc cfg) then .badParam
  else if capDepth cfg ≤ fld pre 0 18 ∨ capDec cfg = 0 then .range
  else .ok

/-- The capture engine armed afresh; an immediate trigger is there at once (R195, R197). DONE and TC_CHG of the capture before are
cleared with it (log 91). -/
def captureArm (cfg pre : Word) (pts : List Word) (s : State) : State :=
  let now := capTrig cfg == 0
  let at_ := s.atSample
  setCap (fun _ => {
    cfg := cfg &&& 0xFFFFFF0F#32, pre := fld pre 0 18
    chans := (pts.map (BitVec.setWidth 16)) ++ (s.atr.cap.chans.drop pts.length)
    armed := true, trigReq := now, trigReady := now && at_ }) s

def captureSet (cfg pre : Word) (pts : List Word) (s : State) : Status × State :=
  match captureCheck cfg pre pts s with
  | .ok => (.ok, captureArm cfg pre pts s)
  | st => (st, s)

/-- CAPTURE. -/
def execCapture (w : List Word) (s : State) : Res :=
  .next <| command (w.length == 2 + capChans (wd w 0) && decide (3 ≤ w.length)) (fun s =>
    let r := captureSet (wd w 0) (wd w 1) (w.drop 2) s
    refuse r.1 r.2) s

/-- Where word `i` of the ring buffer lies in the window of the Gallery: bank G6 on. -/
def capAddr (i : Nat) : Nat := 0x180000 + 4 * i

/-- One frame of samples, read from the state `v`, written into the ring buffer. -/
def capFrame (v s : State) : State :=
  let c := s.atr.cap
  let n := capChans c.cfg
  let vals := (c.chans.take n).map fun p => v.settledPoint (ptCtx p) (ptNum p)
  { s with mem := memWrites s.mem (capAddr (c.count % capDepth c.cfg * n)) (wordBytes vals) }

/-- The period's sample of the capture from the state `v`, every DEC periods; the frame whose S(n), `sn`, follows a trigger is the trigger
frame, and recording goes on until depth - PRE frames from it on are there (R194, R195). -/
def capSample (sn : Nat) (v s : State) : State :=
  let c := s.atr.cap
  if !c.armed || c.done || !s.capBanks then s
  else if c.triggered && decide (capDepth c.cfg - c.pre ≤ c.since) then s
  else if c.dec ≠ 0 then setCap (fun c => { c with dec := c.dec - 1 }) s
  else
    let s := capFrame v s
    setCap (fun c =>
      let trig := c.triggered || c.trigReady
      { c with
        dec := capDec c.cfg - 1, count := c.count + 1, trigReq := c.trigReq && !trig, trigReady := false, triggered := trig
        trigTime := if trig && !c.triggered then BitVec.ofNat 64 sn else c.trigTime
        trigFrame := if trig && !c.triggered then c.count else c.trigFrame
        since := if trig then c.since + 1 else 0 }) s

/-- The capture ends: CAPTURE_DONE (R195), also where a change of Tc stops it (R196, log 103). -/
def captureEnd (tcChg : Bool) (s : State) : State :=
  raise 227 0 (setCap (fun c => { c with armed := false, done := true, tcChg := c.tcChg || tcChg }) s)

/-- The samples after the trigger have been recorded. -/
def execCaptureDone (s : State) : Res :=
  .next <|
    let c := s.atr.cap
    if s.isOn .atrium && c.armed && c.triggered && decide (capDepth c.cfg - c.pre ≤ c.since) then captureEnd false s else s

/-- A change of Tc stops a running capture (R196). -/
def capTcChange (s : State) : State :=
  if s.atr.cap.armed then captureEnd true s else s

/-- CAP_STATUS (R197). A count of 262 144 stands as 0 in its 18 bits (log 104). -/
def capStatus (s : State) : Word :=
  let c := s.atr.cap
  pack [(14, 18, c.since), (3, 1, b2n c.tcChg), (2, 1, b2n c.done), (1, 1, b2n c.triggered), (0, 1, b2n c.armed)]

/-- The frame of sample 0 of the readout: PRE frames before the trigger's (R196), or, of a capture that ended before its
trigger, the oldest frame the ring still holds (R197). -/
def Capture.oldest (c : Capture) : Int :=
  if c.triggered then (c.trigFrame : Int) - c.pre else ((c.count - capDepth c.cfg : Nat) : Int)

/-- Word `i` of the readout, from the oldest sample; the manual states no value for a sample that was never recorded
(log 3). -/
def capWord (s : State) (i : Nat) : Word :=
  let c := s.atr.cap
  let n := capChans c.cfg
  let f : Int := c.oldest + (i / n : Nat)
  if 0 ≤ f ∧ f < c.count ∧ s.capBanks then
    BitVec.ofNat 32 (ofBytes (memBytes s.mem (capAddr (f.toNat % capDepth c.cfg * n + i % n)) 4))
  else Config.freeWord (s.freeCtr + i)

/-- CAPTURE_READ (R197). -/
def execCaptureRead (w : List Word) (s : State) : Res :=
  .next <| command (w.length == 2) (fun s =>
    let i := (wd w 0).toNat
    let c := (wd w 1).toNat
    if s.replyLimit < c then refuse .badLength s
    else if 262144 < i + c then refuse .range s
    else if s.atr.cap.armed && !s.atr.cap.done then refuse .state s
    else reply .ok ((List.range c).map fun j => capWord s (i + j)) { s with freeCtr := s.freeCtr + i + c }) s

/-! INJECT (R190 to R193, R510). -/

def injCfgMask : Word := 0x3FFF9FFF#32

/-- A frequency of a sweep: above 0 and at most 1 / (4 Tc) (R192), of each Tc where a change is pending (log 100). -/
def freqOk (tcs : List Nat) (f : F32) : Bool :=
  F32.isFinite f && decide (0 < F32.toRat f)
    && tcs.all fun tc => decide (F32.toRat f * (4 * (tc : Rat)) ≤ 1000000000)

/-- The values INJECT brings, as an injector that is not yet armed. -/
def injOf (w : List Word) : Injector :=
  { cfg := wd w 0 &&& injCfgMask, amp := wd w 1, dur := wd w 2, f0 := wd w 3, f1 := wd w 4
    seed := wd w 5 &&& 0x7FFFFFFF#32 }

/-- INJECT refuses a POINT or TYPE that is reserved, an LFSR without a length, hold or state (R193), a sweep out of range
(R192), and a loop that is not enabled (R190). -/
def injCheck (x : Injector) (s : State) : Status :=
  let n := injCtx x
  let i := injSlot x
  if injPoint x = 3 ∨ injType x = 3 then .badParam
  else if injType x = 1 ∧ (injLen x < 9 ∨ 31 < injLen x ∨ injHold x = 0 ∨ x.seed.toNat % 2 ^ injLen x = 0) then .badParam
  else if injType x = 2 ∧ (!freqOk s.tcs x.f0 || !freqOk s.tcs x.f1 || decide (x.dur.toNat < 2)) then .range
  else if slotCount n ≤ i then .state
  else if !((s.ctx n).slot i).en then .state
  else .ok

/-- The two cases in which a running injector takes a new INJECT (R510). -/
def injTakes (old new : Injector) : Bool :=
  old.dur == 0 && new.dur == 0 && injType new == 0 && injCtx old == injCtx new && injSlot old == injSlot new
    && injPoint old == injPoint new && (injType old == 0 || (injType old == 1 && F32.isZero new.amp))

def setInj (n : Nat) (f : Injector → Injector) (s : State) : State :=
  { s with atr := { s.atr with inj := vmod s.atr.inj n f } }

/-- An injector starts (R191), which may trigger the capture engine (R195). On the tick of S(n) itself that is its first sample. -/
def injBegin (n : Nat) (s : State) : State :=
  let at_ := s.atSample
  capInjector n (setInj n (fun x => if at_ then injFirst (injStart x) else injStart x) s)

/-- INJECT's effect on injector `n`. One that starts or arms it afresh clears its DONE and ABORT (log 91); one over a running
injector writes its AMP alone (R510, log 102). -/
def injectSet (n : Nat) (onTc : Bool) (x : Injector) (s : State) : Status × State :=
  let old := vget s.atr.inj n {}
  match injCheck x s with
  | .ok =>
    if old.run then
      if !injTakes old x then (.state, s)
      else if F32.isZero x.amp then (.ok, injStop n false (setInj n (fun y => { y with amp := x.amp }) s))
      else (.ok, setInj n (fun y => { y with amp := x.amp }) s)
    else
      let s := setInj n (fun _ => { x with armedTc := onTc }) s
      (.ok, if onTc then s else injBegin n s)
  | st => (st, s)

/-- INJECT. -/
def execInject (w : List Word) (s : State) : Res :=
  .next <| command (w.length == 7) (fun s =>
    let r := injectSet (fld (wd w 0) 0 3) (bit (wd w 0) 8) (injOf w.tail) s
    refuse r.1 r.2) s

/-- INJ_STATUS. -/
def injStatus (x : Injector) : Word :=
  pack [(8, 24, min x.m (2 ^ 24 - 1)), (2, 1, b2n x.abort), (1, 1, b2n x.done), (0, 1, b2n x.run)]

end Sys2Proof.Machine
end

