-- ==== Sys2Proof/Machine/Stage.lean ====
section
/-! DEFINITION. From loop outputs, modes and host values to stage frames: modulation, the sort, bootstrap notches,
staging and LOAD_ALL (chapters 5 and 6). -/

namespace Sys2Proof.Machine

open Sys2Proof

/-! Who switches at the coming landing (R249, R253 to R256, R282). -/

/-- The deliver departure of the coming landing. -/
def State.dep (s : State) : Nat := s.grid.next - s.lead

/-- The pattern a cell's frames carry from the coming departure on, for a decision of its own. -/
def State.reqNow (s : State) (c : Cell) : Option Nat :=
  match c.req with
  | some (p, t) => if t + 200 ≤ s.dep then some p else none
  | none => none

/-- Safe stack block reaches the frames of a departure at `t` (R389): one in force, or one released since whose departure has
not landed. -/
def State.ssbBy (s : State) (t : Nat) : Bool :=
  (s.ssb && decide (s.safe.ssbAt + 200 ≤ t)) || s.safe.ssbDue.any fun d => decide (d + 200 ≤ t)

/-- The frames of a departure at `t` carry PAT_FAULT for a halt (R230). -/
def State.haltBy (s : State) (t : Nat) : Bool :=
  decide (s.atr.haltAt + 200 ≤ t)
    && (s.atr.halted || (decide (s.atr.haltAt < s.atr.releaseAt) && decide (t < s.atr.releaseAt + 200)))

def State.ssbNow (s : State) : Bool := s.ssbBy s.dep
def State.haltNow (s : State) : Bool := s.haltBy s.dep

/-- The cell leaves N_active at the coming landing (R249). -/
def State.leavesNow (s : State) (k : Nat) : Bool :=
  s.isActive k && ((s.reqNow (s.cell k)).isSome || s.ssbNow || s.haltNow)

/-- N_REQ from the coming landing on (R20). -/
def State.nReqNext (s : State) (h : Nat) : Nat := fld (s.hreg h 0) 8 6

/-- A restoring cell that has reached the end of phase 2: RESTORE_N qualifying reports and CFG_OK (R254, R278). -/
def State.qualifies (s : State) (k : Nat) : Bool :=
  let c := s.cell k
  c.mode == .restoring && c.restorePhase == 2 && c.cfgOk && c.req.isNone
    && decide (fld (s.hreg (k / 21) 0x58) 16 8 ≤ c.restoreOk) && !s.ssbNow && !s.haltNow

/-- A cell under RETRY that rejoins at the coming landing (R282). -/
def State.retryJoins (s : State) (k : Nat) : Bool :=
  let c := s.cell k
  c.retry && c.mode == .out && c.req.isNone && !s.ssbNow && !s.haltNow
    && decide (c.retryAt + fld (s.reg 0x190) 0 16 * 1000 ≤ s.grid.next) && c.fresh && fieldAt c.report 26 2 == 0

/-- The restored cells of a string that join at the coming landing: each by itself, or all together once they make
N_req while the string waits after a shortfall (R256). -/
def State.joiners (s : State) (h : Nat) : List Nat :=
  let cells := s.strCells h
  let q := cells.filter fun k => s.qualifies k || s.retryJoins k
  let stay := cells.filter fun k => s.isActive k && !s.leavesNow k
  if (s.hall (s.strHead h)).shortfall && decide (stay.length + q.length < s.nReqNext h) then [] else q

/-- The string's active cells at the coming landing, ascending. -/
def State.nextActive (s : State) (h : Nat) : List Nat :=
  let j := s.joiners h
  (s.strCells h).filter fun k => (s.isActive k && !s.leavesNow k) || j.contains k

/-! Mode and carrier in force at the coming landing (R206, R209). -/

/-- MODE, carrier and epoch of hall `h` at the coming landing. -/
def State.modNow (s : State) (h : Nat) : Word × Word × Nat :=
  let x := s.hall h
  let due := x.modeArms.filter fun a => decide (a.at_ ≤ s.grid.next)
  let r := due.foldl (fun (r : Word × Word × Nat) a => (a.mod.getD r.1, a.carrier.getD r.2.1, s.grid.next))
    (x.modUse, x.carrierUse, x.epoch)
  if x.syncs.any fun t => decide (t ≤ s.grid.next) then (r.1, r.2.1, s.grid.next) else r

/-- θ_h at instant `t` (R209). -/
def theta (t epoch : Nat) (carrier : Word) : Rat :=
  if carrier = 0 then 0 else F32.fracOf ((((t : Int) - (epoch : Int)) * 256 : Int) / (carrier.toNat : Rat))

/-! Modulation (R210 to R212). -/

/-- What a mode gives a cell: a level, or a duty with its carrier offset. -/
inductive Role where
  | level (l : Int)
  | duty (d phi : Rat)

def Role.isDuty (r : Role) : Bool :=
  match r with
  | .level _ => false
  | .duty _ _ => true

/-- Calibrated VDC of cell `k`. -/
def State.vdc (s : State) (k : Nat) : Rat := F32.toRat ((tget (s.tread k).pts 0).getD 0)
def State.iarm (s : State) (k : Nat) : F32 := (tget (s.tread k).pts 2).getD 0

def State.atrPt (s : State) (p : Nat) : F32 := (tget s.newAtr.pts p).getD 0

def ratClamp (lo hi q : Rat) : Rat := if q < lo then lo else if hi < q then hi else q
def ratSign (q : Rat) : Int := if q < 0 then -1 else if 0 < q then 1 else 0
def ratAbs (q : Rat) : Rat := if q < 0 then -q else q

/-- v_avg of the cells `l`: the exact mean (R556). -/
def State.vAvg (s : State) (l : List Nat) : Rat := (l.map s.vdc).foldl (· + ·) 0 / (l.length : Rat)

/-- v_arm / v_avg. The manual states no quotient for a v_avg of 0: it is open there (log 3). -/
def State.xRatio (s : State) (varm vavg : Rat) : Rat :=
  if vavg = 0 then ((Config.freeWord s.freeCtr).toInt : Rat) else varm / vavg

/-- Round half away from zero. -/
def roundAway (q : Rat) : Int := ratSign q * (ratAbs q + 1 / 2).floor

/-- The level count n of R211, or the signed m of R212, for a string whose active cells are `l`. -/
def levelCount (mode : Nat) (x : Rat) (l : List Nat) : Int :=
  let n : Int := l.length
  if mode = 1 then max (-n) (min n (roundAway x))
  else ratSign x * min (ratAbs x).floor (n - 1)

def indexIn (k : Nat) (l : List Nat) : Nat := (l.findIdx? (· == k)).getD l.length

/-- The insertion order with the cells that left removed and those that joined appended (R233). -/
def orderNext (order active : List Nat) : List Nat :=
  order.filter active.contains ++ active.filter fun k => !order.contains k

/-- What MODE gives cell `k` of a string with active cells `l` in insertion order `o`. -/
def modeRole (s : State) (mode : Nat) (varm : Rat) (l o : List Nat) (k : Nat) : Role :=
  let n : Rat := l.length
  let v := max 1 (s.vdc k)
  let vavg := s.vAvg l
  let x := s.xRatio varm vavg
  let i := indexIn k o
  match mode with
  | 1 =>
    let c := levelCount 1 x l
    .level (if i < c.natAbs then c.sign else 0)
  | 2 =>
    let m := (levelCount 2 x l).natAbs
    if i < m then .level (ratSign x)
    else if i = m then .duty (ratClamp (-1) 1 (ratSign x * (ratAbs x - m) * vavg / v)) 0
    else .level 0
  | _ => .duty (ratClamp (-1) 1 (varm / (n * v))) ((indexIn k l : Nat) / n)

/-! One frame (R203 to R208, Table 05-1). -/

/-- The host value in force at the coming landing for field `i`: what a snapshot brings, else what is held (R222). -/
def Cell.held (c : Cell) (i : Nat) : Option Word :=
  match vget c.snap i .none with
  | .hold v => some v
  | .release => none
  | .none => vget c.heldF i none

/-- LVL of a held IN_CMD. -/
def Cell.heldL (c : Cell) : Bool :=
  match vget c.snap 0 .none with
  | .hold _ => c.snapLvl
  | _ => c.heldLvl

/-- The loop value of stage point `p`, where an enabled loop or group writes it (R203). -/
def loopValue (k p : Nat) (c : Ctx) : Option F32 := if dstTaken k p c then some ((tget c.pts p).getD 0) else none

/-- A loop value encoded within its limits; none is a tread error (R24, R204). -/
def encode (lo hi : Rat) (scale : Nat) (top : Int) (v : F32) : Option Word :=
  if F32.within lo hi v then some (BitVec.ofInt 32 (min top (F32.rne (F32.toRat v * (scale : Rat))))) else none

/-- First of a held value, a loop value and a default (R203); a loop value that does not encode, or a default outside the
field's limits, is a tread error (R24). -/
def source (held : Option Word) (loop : Option F32) (enc : F32 → Option Word) (dflt : Word) (ok : Word → Bool) : Option Word :=
  match held, loop with
  | some v, _ => some v
  | none, some v => enc v
  | none, none => if ok dflt then some dflt else none

def encPeriod (lo hi : Rat) (v : F32) : Option Word := encode lo hi 256 (2 ^ 32 - 1) v

/-- The highest IN_PERIOD of Table 05-2. -/
def inPeriodMax : Rat := 16777215996 / 1000

/-- Codes of IN_PERIOD and DAB_PERIOD within Table 05-2. -/
def inPeriodOk (v : Word) : Bool := decide (5000 * 256 ≤ v.toNat)
def dabPeriodOk (v : Word) : Bool := decide (5000 * 256 ≤ v.toNat) && decide (v.toNat ≤ 1000000 * 256)

/-- The carrier phase at the landing: θ + φ taken modulo 1 and rounded once (R204, R209). -/
def phaseCode (q : Rat) : Word := BitVec.ofInt 32 (F32.rne (F32.fracOf q * ((2 ^ 32 : Nat) : Rat)))

/-- The frame of cell `k` for the coming landing without its notch and its safe pattern; none is a tread error. The loops of
a cell out of service do not run, and their values stay as they were (R251). The PWM cell of MODE 2 takes FIXED (R212); a
host value held for CMODE_IN goes before that (R203, Table 05-4). `still` is the zero state of phase 2 of a restore. -/
def baseFrame (s : State) (k : Nat) (role : Role) (still : Bool) : Option Frame := do
  let c := s.cell k
  let h := s.strHead (k / 21)
  let m := s.modNow h
  let cx := s.newTread k
  let lp := fun p => loopValue k p cx
  let cmDab := ((c.held 9).map fun v => fld v 0 2).getD (fld m.1 10 2)
  let cmMode := if fld m.1 0 2 = 2 ∧ role.isDuty then 0 else fld m.1 8 2
  let cmIn := ((c.held 8).map fun v => fld v 0 2).getD cmMode
  let inPer ← source (c.held 2) (lp 386) (encPeriod 5000 inPeriodMax) m.2.1 inPeriodOk
  let dabPer ← source (c.held 4) (lp 388) (encPeriod 5000 1000000) (s.hall h).dabUse dabPeriodOk
  let bound := if cmDab = 0 then inPer else dabPer
  let ton ← source ((c.held 3).map fun v => if bound.toNat < v.toNat then bound else v) (lp 387)
    (encPeriod 0 ((bound.toNat : Rat) / 256)) (s.hall h).tonUse (fun v => decide (v.toNat ≤ bound.toNat))
  let rolePhi := match role with
    | .duty _ p => p
    | .level _ => 0
  let phi ← match c.held 1, lp 385 with
    | some v, _ => some ((v.toNat : Rat) / ((2 ^ 32 : Nat) : Rat))
    | none, some v => if F32.isFinite v then some (F32.toRat v) else none
    | none, none => some rolePhi
  let cmd ← match c.held 0, lp 384 with
    | some v, _ => some (c.heldL, v)
    | none, some v => (encode (-1) 1 (2 ^ 30) (2 ^ 30) v).map fun w => (false, w)
    | none, none => match role with
      | .level l => some (true, BitVec.ofInt 32 l)
      | .duty d _ => some (false, BitVec.ofInt 32 (F32.rne (d * ((2 ^ 30 : Nat) : Rat))))
  let any := fun (_ : Word) => true
  let dphi ← source (c.held 5) (lp 389) (encode (-1) 1 (2 ^ 31) (2 ^ 31 - 1)) 0 any
  let d1 ← source (c.held 6) (lp 390) (encode 0 1 65536 65535) 0 any
  let d2 ← source (c.held 7) (lp 391) (encode 0 1 65536 65535) 0 any
  some {
    lvl := still || cmd.1, inCmd := if still then 0 else cmd.2
    cmodeDab := cmDab, cmodeIn := cmIn
    inPhase := phaseCode (theta s.grid.next m.2.2 m.2.1 + phi), inPeriod := inPer, inTonoff := ton
    dabPeriod := dabPer, dabPhi := dphi, dabD1 := d1.setWidth 16, dabD2 := d2.setWidth 16 }

/-! Bootstrap notches (R242 to R247). Times are in 2^-8 ns. -/

/-- The lower time per carrier period of leg `g` in a duty stage, in ns (R242). -/
def lowTime (fr : Frame) (g : Nat) : Rat :=
  let p : Rat := (fr.inPeriod.toNat : Rat) / 256
  let t : Rat := (fr.inTonoff.toNat : Rat) / 256
  let d : Rat := (fr.inCmd.toInt : Rat) / ((2 ^ 30 : Nat) : Rat)
  if fr.cmodeIn = 0 then (if g = 0 then (1 - d) / 2 * p else (1 + d) / 2 * p)
  else if (g = 0) = (0 ≤ fr.inCmd.toInt) then (if fr.cmodeIn = 1 then p - t else t)
  else p

/-- Leg `g` is upper throughout a level stage (Table 05-3). -/
def levelUpper (fr : Frame) (g : Nat) : Bool := fr.inCmd.toInt == if g = 0 then 1 else -1

/-- The continuous upper time of leg `g` at the end of a stage of `len` ns (R242); `u` is that at its start. -/
def upperAfter (tref len : Nat) (fr : Frame) (g u : Nat) : Nat :=
  let run := fun (v l : Nat) =>
    if fr.lvl then (if levelUpper fr g then v + l * 256 else 0)
    else if (tref : Rat) ≤ lowTime fr g then 0 else v + l * 256
  if fr.notch && decide (tref ≤ fr.notchW.toNat) then run 0 (len - (fr.notchT.toNat + fr.notchW.toNat)) else run u len

/-- Length of the stage that begins at the coming landing. -/
def State.nextLen (s : State) : Nat := (s.landingFrom (s.grid.next + 1)).1 - s.grid.next

/-- M of R200: the parts a period is split into. -/
def parts (tc : Nat) : Nat := if tc ≤ 20000 then 1 else (tc + 19999) / 20000

/-- Where a notch begins (R244). -/
def notchStart (tc tref : Nat) : Nat := tc / parts tc - tref

/-- A cell's frame in the course of the notch placement, with the cell that stands in for it. -/
structure Planned where
  k : Nat
  frame : Frame
  mate : Option Nat := none

/-- The count of the leg of a planned frame that comes highest at the end of the next stage, and of the one after. -/
def worstUpper (s : State) (tref : Nat) (x : Planned) : Nat × Nat :=
  let c := s.cell x.k
  let n := s.nextLen
  let one := fun g => upperAfter tref n x.frame g (vget c.upper g 0)
  let two := fun g => upperAfter tref s.grid.tc x.frame g (one g)
  (max (one 0) (one 1), max (two 0) (two 1))

/-- Elements in ascending order of a value, ties to the earlier. -/
def insertBy (f : Nat → Nat) (x : Nat) (l : List Nat) : List Nat :=
  match l with
  | [] => [x]
  | y :: r => if f x < f y then x :: y :: r else y :: insertBy f x r

def sortBy (f : Nat → Nat) (l : List Nat) : List Nat := l.foldl (fun a x => insertBy f x a) []

/-- The cells of a string that take a notch at the coming landing, in the order they are served (R243). -/
def notched (s : State) (h : Nat) (l : List Planned) : List Nat :=
  let b := s.hreg h 0x50
  let tref := fld b 16 12
  let tmax := fld b 0 14 * 256000
  let forced := l.filter fun x => decide (tmax < (worstUpper s tref x).2)
  let due := l.filter fun x => decide (tmax / 2 < (worstUpper s tref x).1) && !decide (tmax < (worstUpper s tref x).2)
  let count := fun k => match l.find? fun x => x.k == k with
    | some x => tmax - (worstUpper s tref x).1
    | none => 0
  forced.map (·.k) ++ (sortBy count (due.map (·.k))).take (fld b 28 4 - forced.length)

/-- HOLD: the transient cause in force for cell `k`, as the class its decision has. A HOLD that lasts ends only with a
fresh report within the limit (R228). -/
def holdClass (c : Cell) : Option Nat :=
  if 0 < c.staleFor ∧ (c.staleFor < 3 ∨ 0 < c.holdCount) then some 7
  else if 0 < c.terr ∧ (c.terr < 4 ∨ 0 < c.holdCount) then some 5
  else none

def State.holdEn (s : State) (k : Nat) : Bool := bit (s.reg (ctxBase k + 0x100)) 5

/-- The frame of an active cell carries HOLD (R228). -/
def State.holds (s : State) (k : Nat) : Bool := s.holdEn k && (holdClass (s.cell k)).isSome

/-- The cell of the same flight nearest in VDC that may stand in (R245). -/
def substitute (s : State) (l : List Planned) (used : List Nat) (k : Nat) : Option Nat :=
  let ok := l.filter fun x => x.k / 7 == k / 7 && x.frame.lvl && x.frame.inCmd == 0 && !x.frame.notch
    && !used.contains x.k && !s.holds x.k
  let d := fun i => ratAbs (s.vdc i - s.vdc k)
  (ok.map (·.k)).foldl (fun a i => match a with
    | some j => if d i < d j then some i else a
    | none => some i) none

/-- One notch placed, with its substitute where R245 finds one. -/
def placeNotch (s : State) (h : Nat) (all : List Nat) (k : Nat) (l : List Planned) : List Planned :=
  let tc := s.grid.tc
  let tref := fld (s.hreg h 0x50) 16 12
  let t := notchStart tc tref
  match l.find? fun x => x.k == k with
  | none => l
  | some x =>
    let sub := if tc ≤ 20000 ∧ x.frame.lvl ∧ x.frame.inCmd ≠ 0 then substitute s l all k else none
    l.map fun y =>
      if y.k = k then { y with
        frame := { y.frame with notch := true, notchT := BitVec.ofNat 32 t, notchW := BitVec.ofNat 16 tref }, mate := sub }
      else if sub = some y.k then { y with
        frame := { y.frame with lvl := true, inCmd := x.frame.inCmd, notch := true, notchT := 0, notchW := BitVec.ofNat 16 t } }
      else y

/-- A notch lies within its stage of `len` ns and lasts at least 300 ns (R218). -/
def notchOk (len : Nat) (x : Frame) : Bool :=
  !x.notch || (decide (300 ≤ x.notchW.toNat) && decide (x.notchT.toNat + x.notchW.toNat ≤ len))

/-! The mapping of a string (R203, R250). -/

/-- A planned frame for each active cell of the string of head `h` whose mapping succeeds, and the cells where it does
not (R24). -/
def mapString (s : State) (h : Nat) : List Planned × List Nat :=
  let l := s.nextActive h
  let m := s.modNow h
  let o := orderNext (s.hall h).order l
  let varm := F32.toRat (s.atrPt (395 + h))
  let fs := l.map fun k => (k, baseFrame s k (modeRole s (fld m.1 0 2) varm l o k) false)
  let good := fs.filterMap fun x => x.2.map fun f => ({ k := x.1, frame := f } : Planned)
  let ns := notched s h good
  let all := each ns (placeNotch s h ns) good
  let ok := fun (x : Planned) => notchOk s.nextLen x.frame
  (all.filter ok, (fs.filter fun x => x.2.isNone).map (·.1) ++ (all.filter fun x => !ok x).map (·.k))

/-- The frame of a cell that does not switch at the coming landing: the zero state of a retry, in which every other field
keeps the value last sent (R281), phase 2 of a restore (Table 06-3), or the fields as computed beneath a safe pattern, with no
part in the mode's mapping (R203). -/
def idleFrame (s : State) (k : Nat) : Option Frame :=
  let c := s.cell k
  if c.retry then some { c.last with lvl := true, inCmd := 0, dabPhi := 0, zsb := true, rep := false, safe := 0 }
  else baseFrame s k (.level 0) (c.mode == .restoring && c.restorePhase == 2)

/-- Every cell of the string of head `h` mapped for the coming landing: the frames set, and the cells in tread error. -/
def mapStringFrames (h : Nat) (s : State) : State × List Nat :=
  let p := mapString s h
  let s1 := each p.1 (fun x s => s.setCell x.k fun c => { c with frame := x.frame, notchMate := x.mate }) s
  let act := s.nextActive h
  each ((s.strCells h).filter fun k => s.installed k && !act.contains k) (fun k (r : State × List Nat) =>
    match idleFrame s k with
    | some f => (r.1.setCell k fun c => { c with frame := f, notchMate := none }, r.2)
    | none => (r.1, r.2 ++ [k])) (s1, p.2)

/-- A HOLD that has reached HOLD_MAX landings gives way to PAT_FAULT: a decision at the mapping (R228). -/
def holdExpired (k : Nat) (s : State) : State :=
  let c := s.cell k
  match holdClass c with
  | some cls =>
    if s.holdEn k && s.isActive k && !s.standby && decide (fld (s.reg 0x10C) 24 4 ≤ c.holdCount) then
      decide' k cls (s.patFault k) 6 s
    else s
  | none => s

/-- Point `p` of the atrium's copy of this period written. -/
def setAtrPt (p : Nat) (v : F32) (s : State) : State :=
  let f := fun (c : Ctx) => { c with pts := tset c.pts p v }
  { s with atr := match s.atr.newCtx with
      | some c => { s.atr with newCtx := some (f c) }
      | none => { s.atr with ctx := f s.atr.ctx } }

/-- v_avg at points 412 + h of the halls of a string (Table 06-8). -/
def publishVavg (h : Nat) (s : State) : State :=
  let l := s.nextActive h
  if l.isEmpty then s else each (s.strHalls h) (fun g s => setAtrPt (412 + g) (F32.ofRat (s.vAvg l)) s) s

/-- Worst-case time of the mapping of one flight in ns (Table 04-2 at 0.834 ns each). -/
def mapCost (n notches : Nat) : Nat := (n * 112 + notches * 24) * 834 / 1000

/-- The lanes map flight `f` for the coming landing, once its loops, the atrium and, in MODE 1 or 2, the sort of every hall of
its string, which the merge joins, are done (R250). Tread errors are decisions made here (R24, R25). The time it takes is open within the pace of R152. -/
def execStageMapping (f : Fin 9) (s : State) : Res :=
  .next <|
    let x := s.flight f.val
    let h := s.strHead (f.val / 3)
    let mode := fld (s.modNow h).1 0 2
    if !s.ringUp f.val || !x.loopsDone || !s.atr.started || (x.mapped && !x.remap)
        || (mode != 0 && !(s.strHalls h).all fun g => !s.hallOn g || (s.hall g).sorted) then s
    else
      let cells := (List.range 7).map (7 * f.val + ·)
      let s := each cells holdExpired s
      let r := mapStringFrames h s
      let take := fun k (t : State) => t.setCell k fun c =>
        let d := r.1.cell k
        { c with frame := d.frame, notchMate := d.notchMate }
      let q := freeNat (publishVavg h (each cells take s))
      let s := q.2
      let s := s.setFlight f.val fun x => { x with
        mapped := true, remap := false, second := x.remap, mappedAt := max s.now s.atr.doneAt + q.1 % (mapCost 7 7 + 1) }
      let s := s.setHall (f.val / 3) fun x => { x with mapping := true }
      each (r.2.filter fun k => k / 7 == f.val && (s.cell k).inUse) treadError s

/-! The sort (R231 to R236). -/

/-- Largest of the three groups' values. -/
def worstGroup (f : WearGroup → F32) (c : Cell) : F32 :=
  F32.max (f (vget c.wear 0 {})) (F32.max (f (vget c.wear 1 {})) (f (vget c.wear 2 {})))

def meanOf (l : List F32) : F32 := F32.div (F32.sum l) (F32.ofNat l.length)

/-- b_wear and b_temp of cell `k` among the active cells `l` (Table 06-1, log 12). -/
def biases (s : State) (l : List Nat) (k : Nat) : F32 × F32 :=
  let d := fun i => worstGroup damageF (s.cell i)
  let t := fun i => worstGroup (·.tj) (s.cell i)
  let dm := meanOf (l.map d)
  let tm := meanOf (l.map t)
  (F32.div (F32.sub (d k) dm) (F32.max dm (F32.ofRat (1 / 1000))), F32.div (F32.sub (t k) tm) (F32.ofNat 100))

/-- s of R232. -/
def chargeSign (n : Int) (istr : F32) : Int :=
  let i : Int := if F32.isZero istr then 0 else if F32.neg? istr then -1 else 1
  if n.sign * i < 0 then -1 else 1

/-- The key of R231, each operation rounded in its order (log 12). -/
def sortKey (s : State) (h : Nat) (sg : Int) (l : List Nat) (k : Nat) : F32 :=
  let vref := (tget s.atr.ctx.pts (400 + h)).getD 0
  let v := (tget (s.tread k).pts 0).getD 0
  let b := biases s l k
  let term := F32.div (F32.mul (F32.ofInt sg) (F32.sub v vref)) vref
  F32.add (F32.add term (F32.mul (s.hreg h 0x30) b.1)) (F32.mul (s.hreg h 0x34) b.2)

/-- One round of odd-even transposition on the pairs from the head of the list on. -/
def sortPairs (key : Nat → F32) (hyst : F32) (l : List Nat) : List Nat :=
  match l with
  | a :: b :: r =>
    if F32.lt (F32.add (key b) hyst) (key a) then b :: a :: sortPairs key hyst r else a :: b :: sortPairs key hyst r
  | r => r

/-- Rounds 1 to `n` (R233). -/
def sortRounds (key : Nat → F32) (hyst : F32) (n : Nat) (l : List Nat) : List Nat :=
  (List.range n).foldl (fun l i =>
    if i % 2 = 0 then sortPairs key hyst l
    else match l with
      | a :: r => a :: sortPairs key hyst r
      | [] => []) l

/-- The place of each cell of the string of head `h` in its order, at point 393 (Table 06-7). -/
def publishPlace (h : Nat) (s : State) : State :=
  each (s.strCells h) (fun k s =>
    let v := match (s.hall h).order.findIdx? (· == k) with
      | some i => F32.ofNat i
      | none => F32.neg F32.one
    s.setCtx k fun c => { c with pts := tset c.pts 393 v }) s

/-- The new order of the string of head `h`, with what its cells publish (R233, Table 06-7). -/
def sortString (h : Nat) (s : State) : State :=
  let l := s.nextActive h
  let m := s.modNow h
  let x := s.xRatio (F32.toRat (s.atrPt (395 + h))) (s.vAvg l)
  let sg := chargeSign (levelCount (fld m.1 0 2) x l) (meanOf (l.map s.iarm))
  let keys := l.map fun k => (k, sortKey s h sg l k)
  let key := fun k => ((keys.find? fun y => y.1 == k).map (·.2)).getD 0
  let o := sortRounds key (s.hreg h 0x38) l.length (orderNext (s.hall h).order l)
  let s1 := publishPlace h (s.setHall h fun y => { y with order := o })
  each l (fun k t =>
    let b := biases s l k
    t.setCtx k fun c => { c with pts := tset (tset (tset c.pts 394 (key k)) 395 b.1) 396 b.2 }) s1

/-- A hall's sort is done (R233 to R236). In STRING the merge stage makes the string's order once every hall's result is
there. A result that fails its permutation check is a hall error of every hall of the string, and the order stays. -/
def execHallSort (h : Fin 3) (ok : Bool) (s : State) : Res :=
  .next <|
    let hd := s.strHead h.val
    if !s.hallOn h.val || !s.atr.started || fld (s.modNow hd).1 0 2 == 0 then s
    else
      let s := s.setHall h.val fun x => { x with sorted := true }
      if !ok then
        let s := each (s.strHalls h.val) (fun g s => s.setHall g fun x => { x with sorted := true, sortBad := true }) s
        if s.standby then s else each (s.strHalls h.val) (fun g s => hallError g 3 s) s
      else if (s.hall hd).sortBad then s
      else if (s.strHalls h.val).all fun g => !s.hallOn g || (s.hall g).sorted then
        sortString hd (s.setHall hd fun x => { x with sorted := true })
      else s

/-! HALL_MODE (R206). -/

def hallModMask : Word := 0xF03#32

/-- What HALL_MODE refuses. -/
def hallModeOk (w : Word) : Bool :=
  let dab := fld w 10 2
  let inp := fld w 8 2
  let mode := fld w 0 2
  dab != 3 && inp != 3 && mode != 3 && (dab == 0 || inp == 0) && !(mode == 1 && inp != 0)

/-- A change of mode or carrier that takes effect at the first landing at least 2 Tc after now. -/
def armMode (h : Nat) (mod carrier : Option Word) (s : State) : State :=
  let at_ := (s.landingFrom (s.now + 2 * s.grid.tc)).1
  s.setHall h fun x => { x with modeArms := x.modeArms ++ [{ at_ := at_, mod := mod, carrier := carrier }] }

def hallMode (h : Nat) (w : Word) (s : State) : Status × State :=
  if 3 ≤ h ∨ !hallModeOk w then (.badParam, s)
  else (.ok, armMode h (some (w &&& hallModMask)) none (s.setReg (hallBase h + 4) (w &&& hallModMask)))

def execHallMode (w : List Word) (s : State) : Res :=
  .next <| command (w.length == 2) (fun s =>
    let r := hallMode (fld (wd w 0) 0 2) (wd w 1) s
    if r.1 = .ok then reply .ok (s.refFrom (s.now + 2 * s.grid.tc) false) r.2 else refuse r.1 s) s

/-! Host staging (R219 to R225). -/

/-- A host value in frame encoding lies within Table 05-2; `bound` is the bounding period of IN_TONOFF. -/
def hostOk (i : Nat) (lvl : Bool) (bound v : Word) : Bool :=
  match i with
  | 0 => if lvl then [-1, 0, 1].contains v.toInt else decide (-(2 ^ 30) ≤ v.toInt) && decide (v.toInt ≤ 2 ^ 30)
  | 2 => decide (5000 * 256 ≤ v.toNat)
  | 3 => decide (v.toNat ≤ bound.toNat)
  | 4 => decide (5000 * 256 ≤ v.toNat) && decide (v.toNat ≤ 1000000 * 256)
  | 8 => fld v 0 2 != 3
  | 9 => fld v 0 2 != 3
  | _ => true

/-- The field bits of a staged value (R512). -/
def hostMask (i : Nat) (v : Word) : Word :=
  if i = 8 ∨ i = 9 then v &&& 3 else if i = 6 ∨ i = 7 then v &&& 0xFFFF#32 else v

/-- The value of field `i` that the bounding period is judged on: payload, staging, held, else the one the frame would carry
by R203, from a loop or by default (R204). -/
def State.boundField (s : State) (k i : Nat) (pay : List (Nat × Word)) : Word :=
  let c := s.cell k
  let h := s.strHead (k / 21)
  let m := s.modNow h
  let lp := fun p => loopValue k p (s.newTread k)
  let own := match i with
    | 2 => ((lp 386).bind (encPeriod 5000 inPeriodMax)).getD m.2.1
    | 4 => ((lp 388).bind (encPeriod 5000 1000000)).getD (s.hreg h 0xC)
    | _ => BitVec.ofNat 32 (fld m.1 10 2)
  ((pay.find? fun x => x.1 == i).map (·.2)).getD (((vget c.staged i {}).val.orElse fun _ => c.held i).getD own)

/-- The fields a STAGE_WRITE stages, with their values. -/
def stagePayload (w : List Word) : List (Nat × Word) :=
  ((setBits 10 (wd w 0).toNat).zip w.tail).map fun x => (x.1, hostMask x.1 x.2)

/-- The payload staged as a whole (R219, R223). -/
def stageApply (k : Nat) (w0 : Word) (pay : List (Nat × Word)) (s : State) : State :=
  s.setCell k fun c =>
    let st := pay.foldl (fun v x => vset v x.1 { val := some x.2 }) c.staged
    let st := (setBits 10 (fld w0 16 10)).foldl (fun v i => vset v i { release := true }) st
    { c with staged := st, stagedLvl := if bit w0 0 then bit w0 26 else c.stagedLvl }

/-- STAGE_WRITE (R219, R220, R512). -/
def execStageWrite (q : Fin 64) (w : List Word) (s : State) : Res :=
  .next <|
    let w0 := wd w 0
    cellCommand q (!w.isEmpty && w.length == 1 + (setBits 10 w0.toNat).length) (fun k s =>
      let pay := stagePayload w
      let bound := if fld (s.boundField k 9 pay) 0 2 = 0 then s.boundField k 2 pay else s.boundField k 4 pay
      if w0 &&& 0x07FF03FF#32 = 0 ∨ fld w0 0 10 &&& fld w0 16 10 ≠ 0 ∨ (bit w0 26 && !bit w0 0) then refuse .badParam s
      else if pay.any (fun x => !hostOk x.1 (bit w0 26) bound x.2) then refuse .range s
      else
        let s := stageApply k w0 pay s
        let t := s.now + s.lead + 201
        let at_ := (s.landingFrom t).1
        reply .ok (s.refFrom t (match s.grid.armed with
          | some (a, _) => a == at_
          | none => false)) s) s

/-- A cell has a staged field or release older than STAGE_MAXAGE (R223). -/
def Cell.stale (c : Cell) (maxAge : Nat) : Bool :=
  c.staged.toList.any fun x => (x.val.isSome || x.release) && decide (maxAge < x.age)

/-- Coefficient sets armed with APPLY = 1 land with this LOAD_ALL (R173, R225). -/
def armLoads (t : Nat) (s : State) : State :=
  let f := fun (x : Slot) => match x.arm, x.armAt with
    | some .loadAll, none => { x with armAt := some t }
    | _, _ => x
  each (List.range 64) (fun n s => s.setCtx n fun c => { c with slots := c.slots.map f }) s

/-- The cells with stale staging. -/
def State.staleMask (s : State) : BitVec 64 :=
  let m := fld (s.reg 0x10C) 0 8
  bitsOf fun k => decide (k < 63) && (s.cell k).stale m

/-- Staleness judged at a LOAD_ALL: MOD_STALE, STALE_STAGE, and with STALE_REJECT the staging of those cells goes
(R223). -/
def judgeStale (s : State) : State :=
  let m := s.staleMask
  let s := { s with grid := { s.grid with modStale := m } }
  if m = 0 then s
  else
    let s := raise 190 0 s
    if bit (s.reg 0x100) 0 then
      each (setBits 63 m.toNat) (fun k s => s.setCell k fun c => { c with staged := Vector.replicate 10 {}, stagedLvl := false }) s
    else s

/-- A commit armed for the landing at `t` (R221). -/
def armCommit (t : Nat × Nat) (scope : Bool) (s : State) : State :=
  armLoads t.1 { s with grid := { s.grid with armed := some (t.1, scope), target := t.1, targetSeq := s.seqOf t.2 } }

/-- LOAD_LEAD in ns. -/
def State.loadLead (s : State) : Nat := fld (s.reg 0x10C) 16 8 * s.grid.tc

/-- A device-scope LOAD_ALL: the reply's status and words, and the state. -/
def loadAllLocal (s : State) : Status × List Word × State :=
  if s.grid.armed.isSome then (.state, [], s)
  else
    let t := s.landingFrom (s.now + s.loadLead)
    let s := armCommit t false (judgeStale s)
    let m := s.grid.modStale
    (if m = 0 then .ok else .stale, landRef t.1 (s.seqOf t.2) false ++ [lowW m, highW m, 0], s)

/-- The snapshot of one cell; a cell in phase 1 or 2 of a restore has no part in it (R222, R257). -/
def snapCell (c : Cell) : Cell :=
  if c.mode = .restoring then c
  else { c with
    snap := Vector.ofFn fun i =>
      let x := c.staged[i]
      match x.val with
      | some v => .hold v
      | none => if x.release then .release else c.snap[i]
    snapLvl := if (c.staged[0]).val.isSome then c.stagedLvl else c.snapLvl
    staged := Vector.replicate 10 {}, stagedLvl := false }

/-- The fields left in staging grow one commit point older (R223). -/
def ageCell (c : Cell) : Cell :=
  { c with staged := c.staged.map fun x => if x.val.isSome || x.release then { x with age := x.age + 1 } else x }

/-- HALL_DAB and HALL_TONOFF of hall `h` for the landing of this commit point (R206). -/
def latchDab (h : Nat) (s : State) : State :=
  let d := s.reg (hallBase h + 0xC)
  let t := s.reg (hallBase h + 0x10)
  s.setHall h fun x => { x with dabUse := d, tonUse := t }

/-- The commit point of the coming landing (R206, R220, R222). -/
def execCommitPoint (s : State) : Res :=
  .next <|
    if !s.isOn .atrium || !s.isOn .timebase then s
    else
      let s := advanceTo (s.dep - 200) s
      let due := match s.grid.armed with
        | some (t, _) => decide (t ≤ s.grid.next)
        | none => false
      let s := if due then { s with
          cells := s.cells.map snapCell, grid := { s.grid with armed := none, snapDue := true } } else s
      let s := each [0, 1, 2] latchDab s
      { s with cells := s.cells.map ageCell }

end Sys2Proof.Machine
end

