-- ==== Sys2Proof/Machine/Rings.lean ====
section
/-! DEFINITION. The flight rings: routes, trains and their bytes, reports and what is decided from them, delay
measurement, breaks and their routes, and alarms (chapter 3, R279 to R296). -/

namespace Sys2Proof.Machine

open Sys2Proof

/-! Routes (R104, R137, R147). -/

/-- A route: whether its port is the west one, its positions in order of travel, its hops, and whether it is a whole
ring. -/
structure Route where
  west : Bool
  pos : List Nat
  hops : List Nat
  whole : Bool

/-- The ring is wrapped at a break it has located. -/
def Flight.wrapped (x : Flight) : Bool := !x.breaks.isEmpty

/-- This device is the active of a pair, or alone. -/
def State.leads (s : State) : Bool := decide (s.twin.state ≤ 1) || s.twin.leaving

/-- The end that whole-ring trains leave: the active's own (R331, R149). -/
def State.trainWest (s : State) : Bool := (s.aon.straps.role == 2) == s.leads && s.aon.straps.role != 0

/-- The routes of flight `f` now. -/
def routes (f : Nat) (s : State) : List Route :=
  let n := s.ctCount f
  let x := s.flight f
  if !x.seg then
    if s.trainWest then [⟨true, (List.range n).reverse, List.range (n + 1), true⟩]
    else [⟨false, List.range n, List.range (n + 1), true⟩]
  else
    let lo := x.routed.foldl min n
    let hi := x.routed.foldl max 0
    (if 0 < lo then [⟨false, List.range lo, List.range lo, false⟩] else [])
      ++ (if hi < n then
        [⟨true, ((List.range (n - hi)).map (hi + ·)).reverse, (List.range (n - hi)).map (hi + 1 + ·), false⟩] else [])

/-- The port at which a train of the route returns: the other end of a whole ring, or the one it left. -/
def Route.back (r : Route) : Bool := if r.whole then !r.west else r.west

/-- This device's own port sends the trains of a route. -/
def State.ownRoute (s : State) (r : Route) : Bool := s.ends.contains r.west && (s.leads || !r.whole)

/-- Hop constants σ^EW and σ^WE in 2^-4 ns. -/
def hopEw (s : State) (f i : Nat) : Nat := fld (s.reg (fltBase f + 0x100 + 4 * i)) 0 16
def hopWe (s : State) (f i : Nat) : Nat := fld (s.reg (fltBase f + 0x100 + 4 * i)) 16 16

/-- Length of a gather train of `n` slots in ns (R106). -/
def gatherLen (n : Nat) : Nat := (144 + 64 * n) * 4

/-- The standby of the pair holds the west end: its strap is W, or E where W is the active (Table 03-1). -/
def State.standbyWest (s : State) : Bool := (s.aon.straps.role == 1) == s.leads

/-- T_RELAY: a train that returns at the standby's port. A whole-ring train leaves the active's end and returns at the
standby's (R137, Table 03-12). -/
def State.relay (s : State) (r : Route) : Nat :=
  if s.aon.straps.role = 0 then 0
  else if r.whole then 60
  else if r.west == s.standbyWest then 60 else 0

/-! Between trains (R99). -/

/-- What a ring transmitter of flight `f` sends while no train and no other set is due: LDN where the twin rules have the ports
down, IDL otherwise (R99, R350, R355). Those of a flight without cells stay idle (R14). -/
def State.betweenTrains (s : State) (f : Nat) : RingSet := if s.twin.ldn && s.ctCount f != 0 then .ldn else .idl

/-- Four characters outside a train at a receiver of flight `f`: a set is taken, and what is none is discarded and counted as a
code error (R99). No command brings stray characters (log 79). -/
def receiveSet (f : Nat) (west : Bool) (k a b c : Byte) (s : State) : Option RingSet × State :=
  match recognise k a b c with
  | some x => (some x, s)
  | none => (none, s.setFlight f fun x => { x with
      codeErr := if west then (x.codeErr.1, x.codeErr.2 + 1) else (x.codeErr.1 + 1, x.codeErr.2) })

/-! Trains (Tables 03-4 to 03-9). -/

def sotBytes : List Byte := RingSet.sot.bytes
def eotBytes : List Byte := RingSet.eot.bytes
def idlBytes : List Byte := RingSet.idl.bytes

/-- Header bytes 4 to 15 (Table 03-4). -/
def trainHeader (type f time flags : Nat) (s : State) : List Byte :=
  [BitVec.ofNat 8 type, BitVec.ofNat 8 (f + 16 * s.aon.straps.pos.val)] ++ leBytes 2 s.twin.epoch.toNat
    ++ leBytes 2 s.grid.seq.toNat ++ leBytes 5 (low40 time) ++ [BitVec.ofNat 8 flags]

def routeFlags (r : Route) (cfgx : Bool) : Nat := b2n (!r.whole) + 2 * b2n r.west + 4 * b2n cfgx

/-- S(n) of the running period. -/
def State.sampleAt (s : State) : Nat := s.grid.now + s.sampleOfs

def gatherHeader (f : Nat) (r : Route) (s : State) : List Byte := trainHeader 1 f s.sampleAt (routeFlags r false) s

/-- A placeholder slot (R106). -/
def placeholder (h : List Byte) (j : Nat) : List Byte :=
  let b := leBytes 2 (2 ^ 15 + j) ++ List.replicate 60 0#8
  b ++ leBytes 2 (crc16 (h ++ b)).toNat

def gatherTrain (f : Nat) (r : Route) (s : State) : List Byte :=
  let h := gatherHeader f r s
  sotBytes ++ h ++ (List.replicate 30 idlBytes).flatten ++ r.pos.flatMap (placeholder h)
    ++ leBytes 4 (crc32c h).toNat ++ eotBytes

/-- CTRL of a stage frame (Table 03-6). -/
def frameCtrl (j : Nat) (x : Frame) : Nat :=
  (pack [(14, 1, b2n x.lvl), (13, 1, b2n x.zsb), (11, 1, b2n x.notch), (9, 2, x.cmodeDab), (7, 2, x.cmodeIn),
    (5, 2, x.safe), (4, 1, b2n x.rep), (3, 1, b2n x.valid), (0, 3, j)]).toNat

/-- Bytes 0 to 35 of a stage frame, those a shadow and a standby compare (R186, R340). -/
def frameHead (j : Nat) (x : Frame) : List Byte :=
  leBytes 2 (frameCtrl j x) ++ leBytes 4 x.inCmd.toNat ++ leBytes 4 x.inPhase.toNat ++ leBytes 4 x.inPeriod.toNat
    ++ leBytes 4 x.inTonoff.toNat ++ leBytes 4 x.dabPeriod.toNat ++ leBytes 4 x.dabPhi.toNat ++ leBytes 2 x.dabD1.toNat
    ++ leBytes 2 x.dabD2.toNat ++ leBytes 4 x.notchT.toNat ++ leBytes 2 x.notchW.toNat

def withCrc16 (h b : List Byte) : List Byte := b ++ leBytes 2 (crc16 (h ++ b)).toNat

/-- A stage frame (Table 03-5). -/
def stageFrame (h : List Byte) (j : Nat) (x : Frame) : List Byte :=
  withCrc16 h (frameHead j x ++ leBytes 4 x.timeCorr.toNat ++ List.replicate 6 0#8)

/-- What a configuration frame carries (Table 03-9). -/
inductive ConfigOp where
  | write (block : Nat) (data : List Byte)
  | commit (crc : Word)
  | wdClear
  | loopOn (west : Bool)
  | loopOff

/-- OP, BLOCK and DATA of a configuration frame. -/
def configFields (c : ConfigOp) : Nat × Nat × List Byte :=
  match c with
  | .write b d => (1, b, d)
  | .commit w => (2, 0, leBytes 4 w.toNat)
  | .wdClear => (3, 0, [])
  | .loopOn west => (4, 0, [BitVec.ofNat 8 (b2n west)])
  | .loopOff => (5, 0, [])

/-- A configuration frame (R115). -/
def configFrame (h : List Byte) (j : Nat) (c : ConfigOp) : List Byte :=
  let x := configFields c
  withCrc16 h (leBytes 2 (2 ^ 12 + 2 ^ 3 + j) ++ [BitVec.ofNat 8 x.1, BitVec.ofNat 8 x.2.1, 0#8, 0#8] ++ bytesAt x.2.2 0 40)

/-- A deliver train of its header and its frames (R105). -/
def deliverTrain (h : List Byte) (frames : List (List Byte)) : List Byte :=
  let body := h ++ frames.flatten
  sotBytes ++ body ++ leBytes 4 (crc32c body).toNat ++ eotBytes

/-! Breaks (R146 to R149). -/

/-- Positions that no end reaches once the ring is broken at `breaks`: those between two breaks (R29, R147). -/
def cutOff (n : Nat) (breaks : List Nat) : List Nat :=
  if breaks.isEmpty then []
  else (List.range n).filter fun j => decide (breaks.foldl min n ≤ j) && decide (j < breaks.foldl max 0)

/-- The active tells its standby at once of a break, so that both segments begin with the same departure (R147, log 84). -/
def tellBreak (f from_ : Nat) (s : State) : State :=
  if s.twin.state == 1 && s.linkUp then
    emit (.segment (Fin.ofNat 9 f) { breaks := (s.flight f).breaks, from40 := low40 from_, safe := [] }) s
  else s

/-- A hop found broken: segments that end at it serve the ring from a departure 1 µs later on (R146, R147). Each cell it cuts
off is a class LINK cell fault (R29), which a standby leaves to its active (R336). RING_REROUTE is raised for the first break of a
ring alone: no later one turns a direction (R148, log 94). -/
def breakAt (f hop : Nat) (s : State) : State :=
  let x := s.flight f
  if !s.ringUp f || x.breaks.contains hop then s
  else
    let t := s.now
    let first := x.breaks.isEmpty
    let lost := (cutOff (s.ctCount f) (hop :: x.breaks)).filter fun j => !(cutOff (s.ctCount f) x.breaks).contains j
    let s := raise (128 + f) (BitVec.ofNat 32 hop) (s.setFlight f fun x => { x with
      breaks := hop :: x.breaks, breakHop := hop, declared := true, unwrapAt := none, due := (hop, t + 1000) :: x.due
      reroute := x.reroute || first
      rerouteOf := if first then [] else x.rerouteOf })
    if s.standby then s else tellBreak f (t + 1000) (each lost (fun j => decideClass (7 * f + j) 7 6) s)

/-- A break declared on lost trains alone: the ring keeps its whole routing until the break is located (R146). The declaration
stands until the break is located and unwrapped, also where trains come back before that (log 94). -/
def breakLost (f : Nat) (s : State) : State :=
  if (s.flight f).declared || !s.ringUp f then s
  else raise (128 + f) 15 (s.setFlight f fun x => { x with declared := true, breakHop := 15 })

/-- A fresh report whose PORTS byte shows a port down locates a break declared on lost trains (R146). -/
def locate (f j : Nat) (rep : List Byte) (s : State) : State :=
  let x := s.flight f
  let p := fieldAt rep 44 1
  if !x.declared || x.wrapped then s
  else if p % 2 = 0 then breakAt f j s
  else if p / 2 % 2 = 0 then breakAt f (j + 1) s
  else s

/-- LDN at a port of the device: the break is at the end hop (R146). -/
def execLdnReceived (f : Fin 9) (west : Bool) (s : State) : Res :=
  .next <| if s.isOn .atrium then breakAt f.val (if west then s.ctCount f.val else 0) s else s

/-- A port receiver of the ring comes up or goes down (FLT_STATUS). The receivers of a flight that holds no cells are ignored
(R14). -/
def execRingPortReceiverChange (f : Fin 9) (west up : Bool) (s : State) : Res :=
  .next <|
    if !s.fltOn f.val || s.ctCount f.val == 0 then s
    else s.setFlight f.val fun x => if west then { x with westUp := up } else { x with eastUp := up }

/-- Both port receivers and every port of every CT are up. A CT with no fresh report in the last 2 Tc counts as down (R149). -/
def State.portsUp (s : State) (f : Nat) : Bool :=
  let x := s.flight f
  x.eastUp && x.westUp && (List.range (s.ctCount f)).all fun j =>
    let c := s.cell (7 * f + j)
    (c.freshAt.any fun t => decide (s.now ≤ t + 2 * s.grid.tc)) && c.ports % 4 == 3

/-- A write of 1 to FLT_CTRL.UNWRAP (R149). -/
def unwrapRing (f : Nat) (s : State) : State :=
  if !(s.flight f).wrapped then s
  else if s.portsUp f then
    let t := (s.landingFrom (s.now + 2 * s.grid.tc)).1
    s.setFlight f fun x => { x with unwrapAt := some t }
  else s.setFlight f fun x => { x with unwrapRef := true }

def execUnwrap (f : Fin 9) (s : State) : Res := .next (if s.fltOn f.val then unwrapRing f.val s else s)

/-! Delay measurement (R141 to R143). -/

/-- Which of the three loop sums of a flight a route has. -/
def sumsOf (r : Route) (x : Flight) : List Nat := if r.whole then x.mWhole else if r.west then x.mWest else x.mEast
def setSums (r : Route) (l : List Nat) (x : Flight) : Flight :=
  if r.whole then { x with mWhole := l } else if r.west then { x with mWest := l } else { x with mEast := l }

/-- A loop sum in 2^-4 ns: one more than 20 ns from the mean is rejected (R142). -/
def takeSum (r : Route) (m : Nat) (x : Flight) : Flight :=
  let l := sumsOf r x
  let n : Int := l.length
  if !l.isEmpty && decide (320 * n < ((m : Int) * n - (l.sum : Int)).natAbs) then { x with mRej := satInc 15 x.mRej }
  else setSums r ((m :: l).take 8) x

/-- Mean of the accepted sums. -/
def meanSum (l : List Nat) : Rat := (l.sum : Rat) / (l.length : Rat)

/-- FLT_LOOP: the mean loop sum of the whole ring, or of the east segment of a wrapped one. -/
def fltLoop (x : Flight) : Word :=
  let l := if x.seg then x.mEast else x.mWhole
  if l.isEmpty then 0 else BitVec.ofInt 32 (F32.rne (meanSum l))

/-- k of a route (R143), none before a measurement. -/
def routeK (f : Nat) (r : Route) (s : State) : Option Rat :=
  let l := sumsOf r (s.flight f)
  let d := (r.hops.map fun i => hopEw s f i + hopWe s f i).sum
  if l.isEmpty || d == 0 then none else some (meanSum l / (d : Rat))

/-- The k a route has just been measured with is the last one of its direction (R148). -/
def noteK (f : Nat) (r : Route) (s : State) : State :=
  match routeK f r s with
  | some k => s.setFlight f fun x => if r.west then { x with kWest := some k } else { x with kEast := some k }
  | none => s

/-- A delay probe is back at the port its trains leave: with the delay of the period's own gather train it makes the loop sum
of the whole ring (R141, R142). In a pair one of its stamps comes over the link (R334). -/
def execPrbArrival (f : Fin 9) (we : Nat) (s : State) : Res :=
  .next <|
    match (routes f.val s).find? fun r => r.whole with
    | some r => match (s.flight f.val).ewDelay with
      | some ew => if s.ringOn f.val && (s.aon.straps.role == 0 || s.linkUp) then
          noteK f.val r (s.setFlight f.val fun x => takeSum r (ew + we) { x with ewDelay := none }) else s
      | none => s
    | none => s

/-- D_j in 2^-16 ns (R143). -/
def corrCode (f : Nat) (r : Route) (j : Nat) (k : Rat) (s : State) : Word :=
  let d := if r.west then ((List.range (s.ctCount f + 1)).filter (decide <| j < ·)).map (hopWe s f)
    else (List.range (j + 1)).map (hopEw s f)
  BitVec.ofInt 32 (F32.rne (k * (d.sum : Rat) * 4096))

/-- TIME_CORR of position `j` of a route (R143, R148). -/
def timeCorr (f : Nat) (r : Route) (j : Nat) (s : State) : Word :=
  let x := s.flight f
  match routeK f r s with
  | some k => corrCode f r j k s
  | none =>
    if x.hold.contains j then 0x80000000#32
    else match if r.west then x.kWest else x.kEast with
      | some k => corrCode f r j k s
      | none => 0x80000000#32

/-- A deliver train of a route with measured corrections leaves: its positions no longer hold time. -/
def endHold (f : Nat) (r : Route) (s : State) : State :=
  if (routeK f r s).isSome then s.setFlight f fun x => { x with hold := x.hold.filter fun j => !r.pos.contains j } else s

/-! Reports (R114, R119, R140, R296). -/

/-- A report slot as it is received. -/
def slotOk (h b : List Byte) : Bool :=
  decide (b.length = 64) && fieldAt b 62 2 == (crc16 (h ++ b.take 62)).toNat && fieldAt b 0 2 / 2 ^ 15 % 2 == 0

def repFresh (b : List Byte) : Bool := fieldAt b 0 2 / 8 % 2 == 1
def repWd (b : List Byte) : Bool := fieldAt b 0 2 / 32 % 2 == 1
def repUvlo (b : List Byte) : Nat := fieldAt b 26 2
def repFault (b : List Byte) (cls : Nat) : Bool := (fieldAt b 28 2).testBit (cls - 1)

/-- Calibrated channel `c` of cell `k` from its raw code (R316). -/
def cellValue (k c : Nat) (v : Int) (s : State) : F32 :=
  let a := ctxBase k + 0x380 + 0x10 * c
  scaled (s.reg a) (s.reg (a + 4)) (s.reg (a + 8)) v

def rawCode (b : List Byte) (c : Nat) : Int := (BitVec.ofNat 32 (fieldAt b (2 + 4 * c) 4)).toInt
def rawTemp (b : List Byte) (i : Nat) : Int := (BitVec.ofNat 16 (fieldAt b (18 + 2 * i) 2)).toInt

/-- Points 0 to 8 of a tread from a fresh report. -/
def reportPoints (k : Nat) (b : List Byte) (s : State) : State :=
  let vals := (List.range 4).map (fun c => (c, cellValue k c (rawCode b c) s))
    ++ (List.range 4).map (fun i => (4 + i, F32.ofRat ((rawTemp b i : Rat) / 32))) ++ [(8, F32.one)]
  s.setCtx k fun c => { c with pts := vals.foldl (fun p x => tset p x.1 x.2) c.pts }

/-- A report that is missing or not fresh: points 0 to 7 hold, and point 8 reads 0 (R316). -/
def stalePoint (k : Nat) (s : State) : State := s.setCtx k fun c => { c with pts := tset c.pts 8 0 }

/-- An accepted report kept, with its channels to a calibration that runs on them (R325). -/
def keepReport (k : Nat) (b : List Byte) (s : State) : State :=
  let f := repFresh b
  let t := s.now
  let s := s.setCell k fun c => { c with
    report := b, fresh := f, missing := 0, seen := true
    staleFor := if f then 0 else satInc 65535 c.staleFor
    freshAt := if f then some t else c.freshAt
    ports := if f then fieldAt b 44 1 else c.ports
    newTemps := if f then some (Vector.ofFn fun i => rawTemp b i.val) else c.newTemps }
  let s := if f then reportPoints k b s else stalePoint k s
  if f then each (List.range 4) (fun c s =>
    calTake (BitVec.ofNat 16 (2 ^ 14 + k * 256 + c)) 64 (rawCode b c) false s) s else s

/-- An alarm of class `cls` from cell `k` was taken in the last 10 µs. One merged into it does not extend the time (log 93). -/
def State.hadAlarm (s : State) (k cls : Nat) : Bool :=
  (s.cell k).alms.any fun a => a.1 == cls && decide (s.now ≤ a.2 + 10000)

/-- The class CT and LINK checks on what a report says about itself (R119, R296). The watchdog counts after a report that
showed it clear, and so not in the first report of all. -/
def reportSelf (k : Nat) (first : Bool) (old b : List Byte) (s : State) : State :=
  let s := if fieldAt b 0 2 % 8 ≠ k % 7 then decideClass k 5 2 s else s
  if repWd b && !repWd old && !first then decideClass k 7 2 s else s

/-- A GS fault shown by a report (R280). -/
def reportGs (k : Nat) (b : List Byte) (s : State) : State := decideGs k 2 (repUvlo b &&& 0xFFA != 0) s

/-- All six legs faulted with FAULT.SC: a bridge fault (R289). -/
def bridgeShown (b : List Byte) : Bool := repFault b 1 && fieldAt b 37 2 % 4096 == 4095

/-- Its reaction: BYPASS, or the configured one where that is stronger. -/
def bridgeReact (r : Nat) : Nat := if r = 1 then 2 else r

/-- A class whose FAULT bit has risen without its alarm (R296). -/
def reportClass (k : Nat) (b : List Byte) (cls : Nat) (s : State) : State :=
  if s.hadAlarm k cls then s
  else if cls = 2 then reportGs k b s
  else if cls = 6 && (s.cell k).mode == .restoring then restoreFail k s
  else decideClass k cls 2 s

/-- FAULT bits that have risen, and the bridge fault (R289, R296). -/
def reportFaults (k : Nat) (old b : List Byte) (s : State) : State :=
  let bridge := bridgeShown b && !bridgeShown old
  let s := if bridge then
      decide' k 1 (bridgeReact (s.reaction 1)) 2 (setPerm k (s.setCell k fun c => { c with bridge := true }))
    else s
  let rise := [1, 2, 3, 4, 5, 6].filter fun cls => repFault b cls && !repFault old cls && !(bridge && cls == 1)
  each rise (reportClass k b) s

/-- The first fresh report after a GS decision from an alarm names the supply (R280). -/
def reportRetry (k : Nat) (b : List Byte) (s : State) : State :=
  if !(s.cell k).retryCheck then s
  else
    let s := s.setCell k fun c => { c with retryCheck := false }
    if repUvlo b &&& 0xFFA != 0 then decideGs k 2 true s else s

/-- V_ref,h that was in force at S(n). -/
def State.vrefPoint (s : State) (k : Nat) : F32 := (tget s.atr.ctx.pts (400 + k / 21)).getD 0

/-- Undervoltage in three consecutive fresh reports of an active cell (R291). -/
def reportUnder (k : Nat) (s : State) : State :=
  let g := s.reg (hallBase (k / 21) + 0x5C)
  let low := s.isActive k
    && decide (s.vdc k * 100 < (fld g 16 8 : Rat) * F32.toRat (s.vrefPoint k))
  let s := s.setCell k fun c => { c with uvRun := if low then c.uvRun + 1 else 0 }
  if (s.cell k).uvRun = 3 then decideClass k 3 2 s else s

/-- DERATE ends once every temperature lies at or below its limit less the hysteresis (R291). -/
def reportDerate (k : Nat) (b : List Byte) (s : State) : State :=
  let c := s.cell k
  let lim := fun (i : Nat) => (BitVec.ofNat 16 (fieldAt c.image (0x164 + 2 * i) 2)).toInt
  let hyst : Int := fieldAt c.image 0xE 2
  if c.derate && (List.range 4).all (fun i => decide (rawTemp b i ≤ lim i - hyst)) then
    s.setCell k fun c => { c with derate := false }
  else s

/-- A qualifying report of a restoring cell (R254). -/
def reportRestore (k : Nat) (b : List Byte) (s : State) : State :=
  let c := s.cell k
  if c.mode == .restoring && c.restorePhase == 2 then
    let tol : Rat := (fld (s.hreg (k / 21) 0x58) 24 8 : Rat) / 1000
    let v := F32.toRat (s.vrefPoint k)
    let good := decide (ratAbs (s.vdc k - v) ≤ tol * ratAbs v) && fieldAt b 30 1 / 2 % 2 == 0
    s.setCell k fun c => { c with restoreOk := if good then c.restoreOk + 1 else 0 }
  else s

/-- The decisions of a standby come from its active (R336). -/
def unlessStandby (g : State → State) (s : State) : State := if s.standby then s else g s

/-- Consecutive time errors over the limit (R144): a standby counts them and raises CELL_STATUS too. -/
def reportTime (k : Nat) (b : List Byte) (s : State) : State :=
  let w : Word := BitVec.ofNat 32 (fieldAt b 31 4)
  if w = 0x80000000#32 then s
  else
    let lim := fld (s.reg (fltBase (k / 7) + 4)) 0 8
    let bad := decide (lim * 65536 < w.toInt.natAbs)
    let s := s.setCell k fun c => { c with terr := if bad then satInc 255 c.terr else 0 }
    if !bad then s
    else if (s.cell k).terr = 3 then raise (64 + k) 4 s
    else if (s.cell k).terr = 4 then unlessStandby (decideClass k 5 2) s
    else s

/-- The CRC every report must show: that of the image last committed to the cell terminal, but in the two gathers after a
COMMIT landing (R118). -/
def Cell.wantCrc (c : Cell) : Option Word :=
  let settling := match c.transfer with
    | some t => t.committed && decide (t.gathers < 2)
    | none => false
  if c.sent.isEmpty || settling then none else some (crc32c c.sent)

/-- The image is confirmed, or found wrong by two reports in a row (R118, R278). Comparing goes on after either, and a transfer runs
until the first report that matches. -/
def reportCrc (k : Nat) (b : List Byte) (s : State) : State :=
  let c := s.cell k
  let done := match c.transfer with
    | some t => t.committed
    | none => false
  match c.wantCrc with
  | none => s
  | some w =>
    if BitVec.ofNat 32 (fieldAt b 40 4) = w then
      let s := s.setCell k fun c => { c with
        crcBad := 0, cfgOk := c.cfgOk || done || c.transfer.isNone, transfer := if done then none else c.transfer }
      if done then raise (64 + k) 3 s else s
    else
      let s := s.setCell k fun c => { c with crcBad := satInc 255 c.crcBad }
      if (s.cell k).crcBad = 2 then
        unlessStandby (decideClass k 5 2) (s.setCell k fun c => { c with cfgOk := false })
      else s

/-- A decision word is held until the FAULT bit of its class has shown in the reports and has cleared again (R349). -/
def dropDecisions (k : Nat) (b : List Byte) (s : State) : State :=
  { s with twin := { s.twin with decisions := s.twin.decisions.filterMap fun d => match d.1 with
    | .cell i _ cls _ _ =>
      if i.val ≠ k then some d
      else if repFault b cls.val then some (d.1, true)
      else if d.2 then none else some d
    | _ => none } }

/-- What a fresh report leads to beside its faults: the breaks it shows, retries and restores. -/
def freshReport (k : Nat) (b : List Byte) (s : State) : State :=
  let s := locate (k / 7) (k % 7) b s
  let s := unlessStandby (fun s => reportUnder k (reportRetry k b s)) s
  reportRestore k b (reportDerate k b s)

/-- The decisions a report asks for, or, of a standby, those it confirms. -/
def reportDecisions (k : Nat) (first : Bool) (old b : List Byte) (s : State) : State :=
  let s := if s.standby then dropDecisions k b s else s
  unlessStandby (fun s => reportFaults k old b (reportSelf k first old b s)) s

/-- Everything an accepted report leads to. -/
def takeReport (k : Nat) (b : List Byte) (s : State) : State :=
  let old := (s.cell k).report
  let first := !(s.cell k).seen
  let s := reportDecisions k first old b (keepReport k b s)
  let s := if repFresh b then freshReport k b s else s
  reportCrc k b (reportTime k b s)

/-- A missing report: the previous one stands, marked stale; the third in a row is a class LINK fault (R140). It leaves the run of
time errors of R144 as it is (log 94). -/
def missReport (k : Nat) (s : State) : State :=
  let s := s.setCell k fun c => { c with
    fresh := false, missing := satInc 65535 c.missing, staleFor := satInc 65535 c.staleFor }
  let s := stalePoint k s
  if (s.cell k).missing = 3 then unlessStandby (decideClass k 7 2) s else s

/-- A transfer whose COMMIT has landed sees one more gather. -/
def countGather (k : Nat) (s : State) : State :=
  s.setCell k fun c => { c with transfer := c.transfer.map fun t =>
    if t.committed then { t with gathers := t.gathers + 1 } else t }

/-- The DAB switches in the stage in force. -/
def Cell.dabRuns (c : Cell) : Bool := c.act == 0 || c.act == 3

/-- The period's junction sample (R258). -/
def wearSampleOf (k : Nat) (s : State) : WearSample :=
  let c := s.cell k
  let p := fun i => (tget (s.tread k).pts i).getD 0
  { iArm := p 2, iDab := p 1, vdc := p 0, temps := Vector.ofFn fun i => p (4 + i.val)
    edges := c.edges, dabPeriod := if c.dabRuns then c.stage.dabPeriod else 0, fresh := c.fresh }

/-- The period's junction sample of cell `k` joins those of the round. -/
def sampleCell (k : Nat) (s : State) : State := bufferSample k (wearSampleOf k s) s

/-- The slots of a route taken one by one; a slot that is not there counts as missing. Of a wrapped flight the atrium loops take
the new reports of a segment that is back and the old ones of the segment that is not: R52 speaks of the flight's gather as a
whole (log 78). -/
def takeSlots (f : Nat) (r : Route) (slots : List (List Byte)) (s : State) : State :=
  let h := gatherHeader f r s
  each (r.pos.zip (List.range r.pos.length)) (fun x s =>
    let k := 7 * f + x.1
    let b := slots.getD x.2 []
    let s := countGather k s
    sampleCell k (if slotOk h b then takeReport k b s else missReport k s)) s

/-- The cells that no route serves have no slot: their reports are missing (R140, R149). -/
def missUnserved (f : Nat) (s : State) : State :=
  let served := (routes f s).flatMap (·.pos)
  each ((List.range (s.ctCount f)).filter fun j => !served.contains j) (fun j s =>
    sampleCell (7 * f + j) (missReport (7 * f + j) (countGather (7 * f + j) s))) s

/-! Tread loops (R26, R51, R140, R251). -/

/-- Cell `k` computes its loops: it switches, or it charges in phase 2 of a restore. -/
def State.computes (s : State) (k : Nat) : Bool :=
  let c := s.cell k
  c.mode == .active || (c.mode == .restoring && c.restorePhase == 2)

/-- The landings of a context that does not compute: settings change, and states stay (R251). -/
def idleCtx (s : State) (n : Nat) (c : Ctx) : Ctx :=
  emptyGroups n (landed n (landings s n c) (groupDst n c))

/-- The tread loops of flight `f` (R26); a loop output that is not finite is a tread error (R24). -/
def runFlight (f : Nat) (s : State) : State :=
  let ks := ((List.range 7).map (7 * f + ·)).filter s.installed
  let runs := ks.map fun k => (k, if s.computes k then runCtx s k (s.tread k) else { c := idleCtx s k (s.tread k) })
  let s := s.setFlight f fun x => { x with newCtx := runs.map (fun x => (x.1, x.2.c)), loopsDone := true }
  each ((runs.filter fun x => !x.2.bad.isEmpty).map (·.1)) treadError s

/-- All routes of a flight are back: a loss in two periods in a row declares a break (R146), and the loops run. -/
def gatherDone (f : Nat) (s : State) : State :=
  let x := s.flight f
  if x.outEast || x.outWest then s
  else
    let s := s.setFlight f fun x => { x with lostRun := if x.lostNow then satInc 255 x.lostRun else 0 }
    let s := if 2 ≤ (s.flight f).lostRun then breakLost f s else s
    runFlight f (missUnserved f s)

/-! The gather departure (R107). -/

/-- The gather trains of one flight: those of its own ports are sent, and every route is out. Where no route is left its loops
run at once, every report missing (R140). -/
def gatherOut (f : Nat) (s : State) : State :=
  if !s.ringOn f then s
  else
    let rs := routes f s
    let s := s.setFlight f fun x => { x with
      outEast := rs.any fun r => !r.west, outWest := rs.any fun r => r.west, lostNow := false, ewDelay := none }
    let s := each rs (fun r s => if s.ringUp f && s.ownRoute r then
      emit (.train (Fin.ofNat 9 f) r.west s.now (gatherTrain f r s)) s else s) s
    gatherDone f s

def execGatherDeparture (s : State) : Res :=
  .next <|
    if !s.isOn .atrium || !s.isOn .timebase then s
    else each (List.range 9) gatherOut (advanceTo (s.sampleAt + 100) s)

/-- T_G in ns as FLT_STATUS holds it: of the whole ring, or of the longer segment. -/
def fltTg (x : Flight) : Nat :=
  min 65535 ((if x.seg then max (x.tgEast.getD 0) (x.tgWest.getD 0) else x.tgWhole.getD 0) / 16)

/-- T_G and the delay of a route, from a train that has returned (R137, R142). -/
def measureRoute (f tg : Nat) (r : Route) (s : State) : State :=
  let d := tg - 16 * (gatherLen r.pos.length + 120 + s.relay r)
  let s := s.setFlight f fun x =>
    let x := if r.whole then { x with tgWhole := some tg, ewDelay := some d }
      else if r.west then takeSum r d { x with tgWest := some tg }
      else takeSum r d { x with tgEast := some tg }
    { x with tg := fltTg x }
  if r.whole then s else noteK f r s

/-- The route of a gather train that is out. -/
def outRoute (f : Nat) (west : Bool) (s : State) : Option Route :=
  let x := s.flight f
  if (if west then x.outWest else x.outEast) then (routes f s).find? fun r => r.west == west else none

/-- The route is in. -/
def routeIn (f : Nat) (west lost : Bool) (s : State) : State :=
  s.setFlight f fun x => { x with
    outEast := x.outEast && west, outWest := x.outWest && !west, lostNow := x.lostNow || lost }

/-- In a pair, a gather train that comes in at the device's own port is relayed to the partner (R335, R336, Table 09-2). -/
def relayGather (f : Fin 9) (r : Route) (tg : Nat) (trailer : Word) (slots : List (List Byte)) (s : State) : State :=
  if s.linkUp && s.aon.straps.role != 0 && s.ends.contains r.back then emit (.relay f r.west tg trailer slots) s else s

/-- A gather train returns complete (R137, R140). Its trailer says whether the train as a whole is sound: only then is its time a
measurement, while each report stands by its own CRC (R109, log 85). What returns at the partner's port comes over the link
(R334). -/
def execGatherReturn (f : Fin 9) (west : Bool) (tg : Nat) (train : GatherTrain) (s : State) : Res :=
  .next <| match outRoute f.val west s with
    | some r => if s.ringOn f.val && (s.ends.contains r.back || s.linkUp) then
        let s := relayGather f r tg train.trailer train.slots (routeIn f.val west false s)
        let s := if train.trailer = crc32c (gatherHeader f.val r s) then measureRoute f.val tg r s else s
        gatherDone f.val (takeSlots f.val r train.slots s) else s
    | none => s

/-- The expected arrival of a gather train: the last T_G measured on its route, else that of its constants (R140). -/
def expectedTg (f : Nat) (r : Route) (s : State) : Nat :=
  let x := s.flight f
  match if r.whole then x.tgWhole else if r.west then x.tgWest else x.tgEast with
  | some t => t / 16
  | none =>
    let d := (r.hops.map fun i => if r.whole then (if r.west then hopWe s f i else hopEw s f i)
      else hopEw s f i + hopWe s f i).sum
    gatherLen r.pos.length + 120 + (d + 15) / 16 + s.relay r

/-- A gather train is not complete 200 ns after its expected arrival: every slot is missing (R140). -/
def execGatherLost (f : Fin 9) (west : Bool) (s : State) : Res :=
  .next <| match outRoute f.val west s with
    | some r => if s.ringOn f.val then
        let s := advanceTo (s.sampleAt + 100 + expectedTg f.val r s + 200) s
        gatherDone f.val (takeSlots f.val r [] (routeIn f.val west true s)) else s
    | none => s

/-! Alarms (R101, R102, R135, R290). -/

/-- Distinct cells of a hall with an SC alarm within 10 µs; one too many is a hall error (R290). -/
def countSc (k : Nat) (s : State) : State :=
  let h := k / 21
  let t := s.now
  let s := s.setHall h fun x => { x with
    scTimes := (k, t) :: x.scTimes.filter fun y => y.1 != k && decide (t ≤ y.2 + 10000) }
  if fld (s.reg (hallBase h + 0x5C)) 24 4 < (s.hall h).scTimes.length then hallError h 5 s else s

/-- An alarm taken, kept for 10 µs (R135). -/
def noteAlarm (k cls : Nat) (s : State) : State :=
  let t := s.now
  s.setCell k fun c => { c with alms := (cls, t) :: c.alms.filter fun a => decide (t ≤ a.2 + 10000) }

/-- The reaction to a checked alarm of class `cls` from cell `k`. A standby reacts to none (R336). -/
def alarm (k cls : Nat) (s : State) : State :=
  let s := noteAlarm k cls s
  if s.standby then s
  else if cls = 6 ∧ (s.cell k).mode = .restoring then restoreFail k s
  else
    let s := decideClass k cls 1 s
    if cls = 1 then countSc k s else s

/-- An ALM at a ring port. A class LINK alarm is a break indication only (R146); alarms of one class and position within
10 µs are one (R135). Its flight is that of the port, whatever A1[3:0] names, and one whose position or class is none of
Table 03-3 is ignored and not counted (log 93). -/
def execAlmReceived (f : Fin 9) (west : Bool) (a1 a2 a3 : Byte) (s : State) : Res :=
  .next <|
    let _ := west
    let cls := a2.toNat % 128
    let j := a1.toNat / 16 % 8
    let k := 7 * f.val + j
    if !s.ringOn f.val then s
    else if a3 ≠ ~~~(a1 ^^^ a2) then s.setFlight f.val fun x => { x with almErr := satInc 7 x.almErr }
    else if j = 7 ∨ cls = 0 ∨ 7 < cls then s
    else if s.hadAlarm k cls then s
    else if cls = 7 then unlessStandby (breakAt f.val (j + a2.toNat / 128)) (noteAlarm k cls s)
    else alarm k cls s

/-! Survey of the hop constants (R145). -/

/-- GO of FLT_SURVEY, with the POS and SIDE written beside it; a refused write leaves both as they were. LOOP_ON leaves with
the next deliver train (R117). GO during a survey of the flight is refused with STATE, and one that is accepted clears DONE
(log 94). -/
def surveyGo (f : Nat) (v : Word) (s : State) : Status × State :=
  let n := s.ctCount f
  let j := fld v 0 3
  let blocked := (List.range n).all fun i => fieldAt (s.cell (7 * f + i)).report 1 1 % 4 == 1
  if n ≤ j then (.badParam, s)
  else if !blocked || (s.flight f).survStep ≠ 0 then (.state, s)
  else (.ok, s.setFlight f fun x => { x with
    survPos := j, survSide := bit v 8, survBusy := true, survStep := 1, survDone := false })

def execFltSurveyGo (f : Fin 9) (v : Word) (s : State) : Res :=
  .next <|
    if !s.fltOn f.val then s
    else
      let r := surveyGo f.val v s
      if r.1 = .ok then r.2 else refuse r.1 s

/-- The looped probe is back: DONE and the loop time; LOOP_OFF leaves with the next deliver train. -/
def execSurveyDone (f : Fin 9) (loop : Word) (s : State) : Res :=
  .next <|
    if s.fltOn f.val && (s.flight f.val).survStep == 3 then
      s.setFlight f.val fun x => { x with survBusy := false, survStep := 4, survDone := true, survRes := loop }
    else s

/-- The configuration frame of position `j` in a survey's train: LOOP_ON to the surveyed CT until its probe is back, LOOP_OFF
to the others, whose slots carry no stage frames (R145, log 80). -/
def surveyOp (x : Flight) (j : Nat) : ConfigOp :=
  if x.survStep ≠ 4 ∧ j = x.survPos then .loopOn x.survSide else .loopOff

/-- The probe of a whole ring leaves the end opposite the trains (R141). A standby that sends it relays its stamp. -/
def sendProbe (f : Nat) (s : State) : State :=
  match (routes f s).find? fun r => r.whole with
  | some r =>
    if s.ends.contains (!r.west) then
      let s := emit (.prb (Fin.ofNat 9 f) (!r.west) s.now) s
      if s.standby && s.linkUp then emit (.stamp (Fin.ofNat 9 f) (!r.west) (low40 s.now)) s else s
    else s
  | none => s

/-- A deliver departure of a flight in a survey: its train, the probe every deliver departure sends (R141), and in its turn the
probe from the port of SIDE where that is not the same one (R145). -/
def surveyTrain (f : Nat) (s : State) : State :=
  let x := s.flight f
  let s := each (routes f s) (fun r s =>
    let h := trainHeader 2 f s.grid.next (routeFlags r false) s
    let fr := r.pos.map fun j => configFrame h j (surveyOp x j)
    if s.ownRoute r then emit (.train (Fin.ofNat 9 f) r.west s.now (deliverTrain h fr)) s else s) s
  let sent := (routes f s).any fun r => r.whole && r.west != x.survSide
  let s := sendProbe f s
  let s := if x.survStep = 2 ∧ !sent ∧ s.ends.contains x.survSide then emit (.prb (Fin.ofNat 9 f) x.survSide s.now) s else s
  s.setFlight f fun x => { x with survStep := if x.survStep = 3 then 3 else (x.survStep + 1) % 5 }

/-- FLT_STATUS. -/
def fltStatus (x : Flight) : Word :=
  pack [(16, 16, x.tg), (12, 4, x.breakHop), (11, 1, b2n x.wrapped), (10, 1, b2n x.holding), (9, 1, b2n x.eastUp),
    (8, 1, b2n x.westUp), (7, 1, b2n x.unwrapRef), (4, 3, x.almErr), (0, 4, x.mRej)]

end Sys2Proof.Machine
end

