-- ==== Sys2Proof/Machine/Atrium.lean ====
section
/-! DEFINITION. The atrium's part of a period: shares, measurement, balancing, the atrium loops, the arm references and
the atrium deadline (R51, R52, R154, R205, R237 to R241). -/

namespace Sys2Proof.Machine

open Sys2Proof

/-! Balancing energies (R237, R238). -/

/-- E_h of hall `h` in binary32, summed in ascending k (log 12). -/
def hallEnergy (h : Nat) (s : State) : F32 :=
  let c := s.reg (hallBase h + 0x48)
  let e := fun (k : Nat) =>
    let v := (tget (s.tread k).pts 0).getD 0
    F32.mul (F32.mul (F32.ofRat (1 / 2)) c) (F32.mul v v)
  F32.sum (((List.range 21).map (21 * h + ·)).filter s.isActive |>.map e)

/-- Active cells of hall `h` itself. -/
def State.hallActive (s : State) (h : Nat) : Nat := (((List.range 21).map (21 * h + ·)).filter s.isActive).length

/-- θ_c of R205 in turns, from atrium slot 0 of a context copy. -/
def thetaC (c : Ctx) (s : State) : Rat :=
  let x := c.slot 0
  let t : Rat := ((3 * s.tcUse : Nat) : Rat) / 2 - (s.sampleOfs : Rat)
  F32.fracOf ((x.angle.toNat : Rat) / ((2 ^ 32 : Nat) : Rat) + F32.toRat x.uSat * t / 1000000000)

/-- Cosine of an angle in turns less h thirds of one. -/
def cosArm (theta : Rat) (h : Nat) : F32 := F32.laneCos (F32.ofRat (F32.fracOf (theta - (h : Rat) / 3)))
def sinArm (theta : Rat) (h : Nat) : F32 := F32.laneSin (F32.ofRat (F32.fracOf (theta - (h : Rat) / 3)))

/-- Points 408 to 411, 415 and, while BAL_ZS.EN is 1, the two that it names, from the reports of S(n), with the grid angle of the
last period (R237, R238). With EN 0 no writer of R315 names those two, so the host's values stand (R507, log 106). -/
def energyPoints (s : State) : State :=
  let c := s.atr.ctx
  let pt := fun (p : Nat) => (tget c.pts p).getD 0
  let es := [0, 1, 2].map fun h => (h, hallEnergy h s)
  let live := es.filter fun x => s.hallActive x.1 != 0
  let mean := if live.isEmpty then 0 else meanOf (live.map (·.2))
  let thI := F32.ofRat (F32.fracOf (thetaC c s + F32.toRat (F32.atan2Turns (pt 67) (pt 66))))
  let term := fun (x : Nat × F32) =>
    F32.mul (F32.sub x.2 mean) (F32.laneCos (F32.ofRat (F32.fracOf (F32.toRat thI - (x.1 : Rat) / 3))))
  let eps := F32.sum (es.map term)
  let z := s.reg 0x140
  let imb := if s.assign = 0 then F32.add mean eps else mean
  let base := es.foldl (fun p x => tset p (408 + x.1) x.2) c.pts
  let pts := tset (tset base 411 eps) 415 thI
  let pts := if bit z 31 then tset (tset pts (fld z 0 10) mean) (fld z 16 10) imb else pts
  { s with atr := { s.atr with ctx := { c with pts := pts } } }

/-! Cell references (R239 to R241). -/

/-- V_tgt of the string of head `h` with `n` active cells (R240). -/
def vTarget (h n : Nat) (s : State) : F32 :=
  let n := max n (s.nReqNext h)
  F32.clamp (F32.div (s.hreg h 0x3C) (F32.ofNat n)) (s.hreg h 0x40) (s.hreg h 0x44)

/-- V_ref on a ramp `t` ns after its start (R240, log 12). -/
def rampValue (v0 v1 : F32) (t len : Nat) : F32 :=
  if len ≤ t then v1
  else F32.add v0 (F32.mul (F32.sub v1 v0) (F32.ofRat ((t : Rat) / (len : Rat))))

/-- The reference state of the string of head `h` at the landing at `l` with `n` active cells (R240). -/
def refState (h l n : Nat) (s : State) : HallS :=
  let x := s.hall h
  let tgt := vTarget h n s
  let len := fld (s.hreg h 0x54) 0 16 * 1000
  let now := if x.ramp then rampValue x.rampFrom x.rampTo (l - x.rampAt) len else x.vref
  if !x.vrefSet then { x with vref := tgt, rampTo := tgt, ramp := false, vrefSet := true }
  else if tgt = x.rampTo then { x with vref := now, ramp := x.ramp && decide (l < x.rampAt + len) }
  else if len = 0 then { x with vref := tgt, rampTo := tgt, ramp := false }
  else { x with vref := now, rampFrom := now, rampTo := tgt, rampAt := l, ramp := true }

/-- N_dev at the coming landing (R241). -/
def State.nDev (s : State) : Nat := ((s.strings.filter s.strOn).map fun h => (s.nextActive h).length).sum

/-- I_sh of hall `h` at the coming landing (R241). -/
def shareRef (h : Nat) (s : State) : F32 :=
  if s.assign = 2 ∨ s.assign = 3 then
    let p : BitVec 16 := (s.reg (hallBase h + 0x4C)).setWidth 16
    let n := ptCtx p
    let v := if n = 63 then ctxPoint s 63 s.newAtr (ptNum p) else s.point n (ptNum p)
    F32.div v (F32.ofNat (s.nextActive h).length)
  else F32.div (s.atrPt 17) (F32.ofNat s.nDev)

/-- Points 400 to 407 for the coming landing (R239), also of a string none of whose halls is ON. -/
def balancePoints (s : State) : List (Nat × F32) :=
  [0, 1, 2].flatMap fun h =>
    let g := s.strHead h
    [(400 + h, (refState g s.grid.next (s.nextActive g).length s).vref), (404 + h, shareRef g s)]

def setAtrPts (l : List (Nat × F32)) (s : State) : State := each l (fun x s => setAtrPt x.1 x.2 s) s

/-! Arm references (R205, R507). -/

/-- v_arm of hall `h` as R205 computes it. -/
def armRef (h : Nat) (s : State) : F32 :=
  let c := s.newAtr
  let p := fun i => (tget c.pts i).getD 0
  match s.assign with
  | 0 =>
    let th := thetaC c s
    F32.add (F32.sub (F32.mul (p 392) (cosArm th h)) (F32.mul (p 393) (sinArm th h))) (p 394)
  | 1 => if h = 0 then F32.add (p 392) (p 394) else 0
  | _ => if s.nInst h = 0 then (tget c.pts (395 + h)).getD 0 else p 392

/-- Point 395 + h: a loop's or group's value, else the host's, else the computed one. A loop ends the host's (R205). -/
def armPoint (h : Nat) (s : State) : State :=
  if dstTaken 63 (395 + h) s.newAtr then { s with atr := { s.atr with hostArm := vset s.atr.hostArm h none } }
  else setAtrPt (395 + h) ((vget s.atr.hostArm h none).getD (armRef h s)) s

/-! The atrium loops (R52, R168). -/

/-- FMA-equivalents of the atrium's work (Table 04-2). -/
def atriumWork (c : Ctx) (s : State) : Nat :=
  let on := (List.range 16).filter fun i => (c.slot i).en
  let slot := fun (i : Nat) =>
    (if (c.slot i).disc then 16 else 14) + (if (c.slot i).func = 1 then 12 else 0) + (if (c.slot i).group < 8 then 4 else 0)
  (if s.assign = 0 then 960 else 240) + (on.map slot).sum

/-- Time of FMA-equivalents at the worst-corner pace in ns (R152). -/
def workTime (n : Nat) : Nat := n * 834 / 1000

/-- Points 120 to 127 take the newel's shares of the last period, which the landing now in force closed; a SHARE that has not come
leaves them, and one that comes later writes nothing (R377). -/
def sharesIn (s : State) : State :=
  if s.newel || (s.standby && s.linkUp) then s
  else match s.stair.shares.find? fun m => m.land40 % 2 ^ 40 == low40 s.grid.now with
    | some m => setAtrPts (m.vals.map fun x => (120 + x.1.val, x.2)) s
    | none =>
      if s.stair.shareMask ≠ 0 then { s with stair := { s.stair with shareStale := true } } else s

/-- Points of the measurement word: those the map and the transform write, a follower's shared points, and the ceiling (R336, R383,
R430). -/
def measuredPoints (s : State) : List (Nat × F32) :=
  let x := s.reg 0x22040
  let ps := ((List.range 64).filter fun m => bit (s.mapCfg m) 31).map fun m => fld (s.mapCfg m) 0 7
  let ps := ps ++ (if bit x 31 then [64, 65, 66, 67, 68] else [])
  let ps := ps ++ (if s.newel then [] else (List.range 8).map (120 + ·))
  (ps ++ [640]).map fun p => (p, (tget s.atr.ctx.pts p).getD 0)

/-- This period's measurement: a standby in step takes the active's word while the link is up (R336). -/
def measureIn (s : State) : State :=
  match s.twin.measure with
  | some l =>
    if s.standby && s.linkUp then
      let pts := l.foldl (fun p x => tset p x.1 x.2) s.atr.ctx.pts
      { s with atr := { s.atr with ctx := { s.atr.ctx with pts := pts } }, twin := { s.twin with measure := none } }
    else mapEval s.ts s
  | none =>
    let s := mapEval s.ts s
    if s.twin.state == 1 && s.linkUp then emit (.measurement (measuredPoints s)) s else s

/-- The sixteen slots, and ATRIUM_FAULT for one that turns out not finite (R168). -/
def runAtrium (s : State) : State :=
  let q := runCtx s 63 s.atr.ctx
  let s := { s with atr := { s.atr with newCtx := some q.c } }
  each q.bad (fun i s => raise 63 (BitVec.ofNat 32 i) s) s

/-- A gather train of a flight has not returned. -/
def State.gathersOut (s : State) : Bool :=
  (List.range 9).any fun f => s.ringOn f && ((s.flight f).outEast || (s.flight f).outWest)

/-- The atrium's work of a period from its start (R51, R52): when every gather has returned, and no later than S(n) + 3.1 µs.
The atrium has one context, whose loops run once a period: they start when the gathers of all strings are back (log 78). The
time the work takes is open within the pace of R152. -/
def execAtriumLoopStart (s : State) : Res :=
  .next <|
    if !s.isOn .atrium || s.atr.started then s
    else
      let s := if s.gathersOut then advanceTo (s.sampleAt + 3100) s else s
      let s := energyPoints (measureIn (sharesIn s))
      let s := runAtrium s
      let s := each [0, 1, 2] armPoint s
      let s := setAtrPts (balancePoints s) s
      let s := ceilingStep (s.atrPt 18) s.ts ((tget s.atr.ctx.pts 640).getD 0) s
      let s := setAtrPt 640 s.therm.ceil s
      let q := freeNat s
      let s := q.2
      let t := s.now
      { s with atr := { s.atr with
        started := true, startAt := t, doneAt := t + q.1 % (workTime (atriumWork s.newAtr s) + 1) } }

/-- The SHARE a newel sends at its atrium deadline, with the values of the period it closes (R377). -/
def State.ownShare (s : State) : ShareMsg :=
  { land40 := low40 s.grid.next
    vals := ((List.range 8).filter fun i => bit (s.reg (0x50120 + 4 * i)) 31).map fun i =>
      (Fin.ofNat 8 i, ctxPoint s 63 s.newAtr (fld (s.reg (0x50120 + 4 * i)) 0 10)) }

/-- An active newel hands its SHARE to its standby, in a layout of the model's own (R383, log 47). -/
def forwardShare (m : ShareMsg) (s : State) : State :=
  if s.twin.state == 1 && s.linkUp then
    emit (.forward 0 0 none 0xE4 ([BitVec.ofNat 32 m.land40, BitVec.ofNat 32 (m.land40 / 2 ^ 32)]
      ++ m.vals.flatMap fun x => [BitVec.ofNat 32 x.1.val, x.2]) (low40 s.now)) s
  else s

/-- The words of a forwarded SHARE. -/
def shareOf (w : List Word) : ShareMsg :=
  { land40 := (wd w 0).toNat + (wd w 1).toNat * 2 ^ 32
    vals := (List.range ((w.length - 2) / 2)).map fun i => (Fin.ofNat 8 (wd w (2 + 2 * i)).toNat, wd w (3 + 2 * i)) }

/-- The atrium deadline (R154): late outputs are a miss of the atrium, its slack is that of its working lane, and a newel
sends its shares (R377), the standby of a newel pair on its own chain as it has them from its active (R383). -/
def execAtriumDeadline (s : State) : Res :=
  .next <|
    if !s.isOn .atrium || !s.isOn .timebase then s
    else
      let d := s.dep - 1200
      let s := advanceTo d s
      let a := s.atr
      let miss := !a.started || decide (d < a.doneAt)
      let s := { s with atr := { s.atr with missed := miss, done := !miss } }
      let l := if (s.lane 12).role = 0 then 12 else 13
      let q : Rat := if miss then 0 else 100 * ((d - a.doneAt : Nat) : Rat) / ((max 1 (d - a.startAt) : Nat) : Rat)
      let s := setSlack l q s
      if s.newel && !(s.standby && s.linkUp) && s.shareBits != 0 then
        forwardShare s.ownShare (stairSend true 5 0xFF (shareBytes s.ownShare) s)
      else s

end Sys2Proof.Machine
end

