-- ==== Sys2Proof/Machine/Streams.lean ====
section
/-! DEFINITION. Telemetry streams (R486 to R489, R381, R382). -/

namespace Sys2Proof.Machine

open Sys2Proof

def streamBase (n : Nat) : Nat := 0x64000 + n * 0x800

def State.stream (s : State) (n : Nat) : Stream := vget s.streams n {}
def setStream (n : Nat) (f : Stream → Stream) (s : State) : State := { s with streams := vmod s.streams n f }

/-- STREAM_CFG of stream `n`. -/
def State.streamCfg (s : State) (n : Nat) : Word := s.reg (streamBase n)
def cfgPoints (c : Word) : Nat := fld c 16 9
def cfgDec (c : Word) : Nat := fld c 0 16
def cfgUdp (c : Word) : Bool := bit c 31

/-- The points of stream `n` in their 20-bit form. -/
def State.streamPts (s : State) (n : Nat) : List Nat :=
  (List.range (cfgPoints (s.streamCfg n))).map fun i => fld (s.reg (streamBase n + 0x400 + 4 * i)) 0 20

/-- The position a 20-bit signal point names (R380). -/
def ptPos (p : Nat) : Nat := p / 65536 % 16

def State.remote (s : State) (p : Nat) : Bool := ptPos p != s.aon.straps.pos.val

/-- Bytes per second of `bytes` every DEC periods. -/
def rate (bytes dec tc : Nat) : Rat := ((bytes * 1000000000 : Nat) : Rat) / ((dec * tc : Nat) : Rat)

/-- A stream's setting: its configuration word and its points. -/
structure StreamSetting where
  cfg : Word
  pts : List Nat

/-- The settings of the streams, with `x` in the place of stream `n`; a stream that was never set is none. -/
def State.streamSettings (s : State) (n : Nat) (x : StreamSetting) : List StreamSetting :=
  ((List.range 8).map fun i => if i = n then x else { cfg := s.streamCfg i, pts := s.streamPts i }).filter fun y =>
    cfgPoints y.cfg != 0 && cfgDec y.cfg != 0

/-- The frame load of a transport (R489). -/
def frameLoad (udp : Bool) (tc : Nat) (l : List StreamSetting) : Rat :=
  ((l.filter fun y => cfgUdp y.cfg == udp).map fun y => rate (28 + 4 * y.pts.length) (cfgDec y.cfg) tc).sum

/-- The load of the hop between positions `i` and `i + 1` by streams that name positions beyond it (R382). -/
def hopLoad (own tc i : Nat) (l : List StreamSetting) : Rat :=
  let crosses := fun (q : Nat) => decide (min own q ≤ i) && decide (i < max own q)
  (l.map fun y => (((List.range 16).filter crosses).map fun q =>
    let n := (y.pts.filter fun p => ptPos p == q).length
    if n = 0 then 0 else rate (4 * n + 16) (cfgDec y.cfg) tc).sum).sum

/-- The loads of R489 and R382 hold. -/
def loadsOk (s : State) (l : List StreamSetting) : Bool :=
  let tc := s.grid.tc
  decide (frameLoad true tc l ≤ 60000000) && decide (frameLoad false tc l ≤ 20000000)
    && (List.range 15).all fun i => decide (hopLoad s.aon.straps.pos.val tc i l ≤ 100000000)

/-- What STREAM_SET refuses (R486). -/
def streamCheck (n : Nat) (cfg : Word) (pts : List Nat) (s : State) : Status :=
  if cfgPoints cfg = 0 ∨ 256 < cfgPoints cfg ∨ cfgDec cfg = 0 ∨ pts.any (fun p => reservedPt (p % 1024)) then .badParam
  else if !loadsOk s (s.streamSettings n { cfg := cfg, pts := pts }) then .range
  else if (s.stream n).en ∨ pts.any (fun p => s.remote p && !s.stair.present.getLsbD (ptPos p)) then .state
  else .ok

/-- The registers STREAM_SET writes. -/
def streamWrite (n : Nat) (w : List Word) (s : State) : State :=
  let b := streamBase n
  let s := s.setReg b (wd w 1 &&& 0x81FFFFFF#32)
  let s := (s.setReg (b + 4) (wd w 2)).setReg (b + 8) (wd w 3 &&& 0xFFFF#32)
  let s := (s.setReg (b + 0x10) (wd w 4)).setReg (b + 0x14) (wd w 5 &&& 0xFFFF#32)
  each (List.range (cfgPoints (wd w 1))) (fun i s => s.setReg (b + 0x400 + 4 * i) (wd w (6 + i) &&& 0xFFFFF#32)) s

def execStreamSet (w : List Word) (s : State) : Res :=
  .next <| command (decide (6 ≤ w.length) && w.length == 6 + cfgPoints (wd w 1)) (fun s =>
    let n := fld (wd w 0) 0 3
    match streamCheck n (wd w 1) ((w.drop 6).map fun p => fld p 0 20) s with
    | .ok => refuse .ok (streamWrite n w s)
    | st => refuse st s) s

/-- The payload of a TELEM for the landing at `t`. -/
def telemBytes (t : Nat) (m : TelemMsg) : List Byte :=
  match m with
  | .values vals => payloadOf ((1, 0) :: (5, low40 t) :: vals.flatMap fun x => [(2, x.1 % 65536), (4, x.2.toNat)])
  | .ask n dec pts => payloadOf ((1, 1) :: (1, n.val) :: (2, dec) :: (5, low40 t) :: pts.map fun p => (2, p % 65536))

/-- A list in parts of at most `n`; `fuel` bounds their number. -/
def chunks {α : Type} (n fuel : Nat) (l : List α) : List (List α) :=
  match fuel with
  | 0 => []
  | k + 1 => if l.isEmpty then [] else l.take n :: chunks n k (l.drop n)

/-- The owner of a stream tells each position whose points it names what to send from the landing at `t` on, or that it ends
there (R381, log 87). -/
def askRemote (n : Fin 8) (on : Bool) (t : Nat) (s : State) : State :=
  each ((List.range 16).filter fun q => q != s.pos) (fun q s =>
    let l := (s.streamPts n.val).filter fun p => ptPos p == q
    if l.isEmpty then s
    else stairTo q 0x0A (telemBytes t (.ask n (cfgDec (s.streamCfg n.val)) (if on then l else []))) s) s

/-- The values this position sends for other positions' streams, at the deliver departure for the landing at `l`, from the state
`u` (R381); at a twin
position its active sends them (R383). -/
def telemSample (l : Nat) (u s : State) : State :=
  let run := fun (x : TelemOut) => decide (x.first ≤ l) && !x.stop.any fun t => decide (t ≤ l)
  let s := if s.standby then s
    else each (s.stair.telemOut.filter fun x => run x && x.left == 0) (fun x s =>
      let vals := x.pts.map fun p => (p, u.settledPoint (p % 65536 / 1024) (p % 1024))
      each (chunks 160 vals.length vals) (fun v s => stairTo x.owner.val 0x0A (telemBytes l (.values v)) s) s) s
  { s with stair := { s.stair with telemOut := (s.stair.telemOut.filter fun x => !x.stop.any fun t => decide (t ≤ l)).map fun x =>
      if x.first ≤ l then { x with left := if x.left = 0 then x.dec - 1 else x.left - 1 } else x } }

/-- STREAM_ENABLE (R487): the change takes effect at the first landing at least 2 Tc after completion. -/
def execStreamEnable (w : List Word) (s : State) : Res :=
  .next <| command (w.length == 1) (fun s =>
    let ns := setBits 8 (fld (wd w 0) 0 8)
    let on := fun n => bit (wd w 0) (8 + n)
    if !s.bankOn 12 || !s.bankOn 13 || ns.any (fun n => on n && cfgUdp (s.streamCfg n) && !s.isOn .net) then
      refuse .domainOff s
    else
      let t := s.now + 2 * s.grid.tc
      let at_ := (s.landingFrom t).1
      let r := s.refFrom t false
      reply .ok r (each ns (fun n s =>
        askRemote (Fin.ofNat 8 n) (on n) at_ (setStream n (fun x => { x with changes := x.changes ++ [(on n, at_)] }) s)) s)) s

/-- The values a stream's frame holds, taken from the state `u` as capture takes them (R488); a remote point has none yet. -/
def streamValues (u s : State) (n : Nat) : List (Nat × Option F32) :=
  (s.streamPts n).map fun p => (p, if s.remote p then none else some (u.settledPoint (p % 65536 / 1024) (p % 1024)))

/-- The enables and disables due by the landing at `l`, in their order: an enable starts the count of DEC afresh (R487). -/
def Stream.turned (l : Nat) (x : Stream) : Stream :=
  { (x.changes.filter fun c => decide (c.2 ≤ l)).foldl (fun (x : Stream) c => { x with en := c.1, dec := 0 }) x with
    changes := x.changes.filter fun c => decide (l < c.2) }

/-- The streams at the deliver departure for the landing at `l`: changes due there take effect, and every DEC periods
from L_first on a frame is put together (R487, R488). -/
def streamSample (l : Nat) (seq : BitVec 16) (u s : State) : State :=
  each (List.range 8) (fun n s =>
    let s := setStream n (Stream.turned l) s
    let x := s.stream n
    if !x.en then s
    else if x.dec ≠ 0 then setStream n (fun x => { x with dec := x.dec - 1 }) s
    else
      let v := streamValues u s n
      let d := cfgDec (s.streamCfg n) - 1
      setStream n (fun x => { x with dec := d, due := x.due ++ [(l, seq, v)] }) s) s

/-- A telemetry value of another position for the landing at `l` (R381). -/
def State.telemValue (s : State) (p l : Nat) : Option F32 :=
  (s.stair.telem.find? fun (x : Nat × Nat × Nat × F32) => x.1 == ptPos p && x.2.1 == low40 l && x.2.2.1 == p % 65536).map
    fun (x : Nat × Nat × Nat × F32) => x.2.2.2

/-- The frame of Table 14-9. -/
def streamBytes (n : Nat) (fser : Word) (l : Nat) (seq : BitVec 16) (vals : List (Option F32)) : List Byte :=
  withCrc (leBytes 2 0x6D63 ++ [0xF1#8, BitVec.ofNat 8 n] ++ leBytes 2 vals.length ++ leBytes 2 (vals.length + 2)
    ++ leBytes 4 fser.toNat ++ leBytes 4 0 ++ leBytes 5 (low40 l) ++ leBytes 2 seq.toNat
    ++ [BitVec.ofNat 8 (b2n (vals.any Option.isNone))] ++ wordBytes (vals.map fun v => v.getD F32.qnan))

/-- Where the UDP frames of stream `n` go. -/
def State.streamDest (s : State) (n : Nat) : NetAddr :=
  let b := streamBase n
  { ip := s.reg (b + 4), port := (s.reg (b + 8)).setWidth 16
    mac := BitVec.ofNat 48 ((s.reg (b + 0x10)).toNat + (s.reg (b + 0x14)).toNat * 2 ^ 32) }

/-- Whether the Ethernet transmitter is free for a frame: NET must be ON, and beyond that no command shows it (R488, log 3). -/
def netFree (s : State) : Bool × State :=
  let r := freeNat s
  (s.isOn .net && r.1 % 2 == 0, r.2)

/-- The oldest frame put together is sent; one that finds no room or no free transmitter is dropped, and FSER advances all the same
(R488). -/
def execStreamFrame (n : Fin 8) (s : State) : Res :=
  .next <|
    let x := s.stream n.val
    match x.due with
    | [] => s
    | (l, seq, vals) :: rest =>
      if !s.isOn .atrium then s
      else
        let full := vals.map fun v => v.2.orElse fun _ => s.telemValue v.1 l
        let b := streamBytes n.val x.fser l seq full
        let udp := cfgUdp (s.streamCfg n.val)
        let r := if udp then netFree s else (decide (s.rsBytes + b.length ≤ 65536), s)
        let s := setStream n.val (fun x => { x with
          due := rest, fser := x.fser + 1, drop := if r.1 then x.drop else satInc 65535 x.drop }) r.2
        if !udp then rsPush b s else if r.1 then emit (.datagram (s.streamDest n.val) b) s else s

/-- STREAM_STATUS. -/
def streamStatus (x : Stream) : Word := pack [(31, 1, b2n x.en), (0, 16, x.drop)]

end Sys2Proof.Machine
end

