-- ==== Sys2Proof/Machine/Deliver.lean ====
section
/-! DEFINITION. The sample instant, the deliver departure with its misses and shadow checks, and the keep-alive trains
(R107, R147 to R149, R179 to R189, R200, R228, R246, R303). -/

namespace Sys2Proof.Machine

open Sys2Proof

/-! S(n) (R158, R303, R507). -/

/-- The host's values that act from this S(n) on (R507): an arm reference is also held beside its point against the computation of
R205 until a quiet NaN releases it. -/
def hostPoint (x : Nat × F32) (s : State) : State :=
  let n := x.1 / 1024
  let p := x.1 % 1024
  if n = 63 ∧ 395 ≤ p ∧ p < 398 then
    let v := if x.2 = F32.qnan then none else some x.2
    let s := { s with atr := { s.atr with hostArm := vset s.atr.hostArm (p - 395) v } }
    if v.isNone || dstTaken 63 p s.atr.ctx then s else s.setCtx 63 fun c => { c with pts := tset c.pts p x.2 }
  else s.setCtx n fun c => { c with pts := tset c.pts p x.2 }

def execSampleInstant (s : State) : Res :=
  .next <|
    if !s.isOn .atrium || !s.isOn .timebase then s
    else
      let s := advanceTo s.sampleAt s
      let ws := s.atr.writes
      let s := each ws hostPoint { s with atr := { s.atr with writes := [] } }
      let s := { s with
        treadsOld := s.treads, treads := s.treads.map Ctx.sample
        atr := { s.atr with
          old := atriumAt s s.atr.ctx, ctx := s.atr.ctx.sample, sampled := some s.now
          cap := { s.atr.cap with trigReady := s.atr.cap.trigReq } } }
      let s := { s with atr := { s.atr with inj := s.atr.inj.map (injTick s.ts) } }
      triggerAll 3 0 s.sampleAt s

/-! Which route serves a ring at this departure (R147 to R149). -/

/-- Positions whose trains come from another port than before hold time; those of a wrap are waited for (R148). -/
def turnDirs (f : Nat) (s : State) : State :=
  each (routes f s) (fun r s => each r.pos (fun j s =>
    let k := 7 * f + j
    let old := (s.cell k).dir
    let s := s.setCell k fun c => { c with dir := some r.west }
    if old.isSome && old != some r.west then
      s.setFlight f fun x => { x with
        hold := if x.hold.contains j then x.hold else j :: x.hold
        rerouteOf := if x.reroute then j :: x.rerouteOf else x.rerouteOf }
    else s) s) s

/-- Segments that end at the breaks due by `dep`: one that is new, or shorter than before, is measured afresh (R140, R147). -/
def Flight.rewrap (n dep : Nat) (x : Flight) : Flight :=
  let lo := fun (l : List Nat) => l.foldl min n
  let hi := fun (l : List Nat) => l.foldl max 0
  let now := (x.due.filter fun d => decide (d.2 ≤ dep)).map (·.1) ++ x.routed
  let newE := !x.seg || lo now != lo x.routed
  let newW := !x.seg || hi now != hi x.routed
  { x with
    seg := true, routed := now, due := x.due.filter fun d => decide (dep < d.2)
    mEast := if newE then [] else x.mEast
    tgEast := if newE then none else x.tgEast
    mWest := if newW then [] else x.mWest
    tgWest := if newW then none else x.tgWest }

/-- At a deliver departure at `dep` for `land` the ring follows its breaks from the first departure 1 µs after each was located, and
is whole again from the train for the landing of an UNWRAP on. -/
def switchRoute (dep land f : Nat) (s : State) : State :=
  let x := s.flight f
  let n := s.ctCount f
  let s := if x.seg && x.unwrapAt.any (fun t => decide (t ≤ land)) then s.setFlight f fun x => { x with
        seg := false, routed := [], due := [], breaks := [], breakHop := 15, declared := false, reroute := false
        rerouteOf := [], mWhole := [], tgWhole := none, lostRun := 0 }
    else if x.due.any fun d => decide (d.2 ≤ dep) then s.setFlight f (Flight.rewrap n dep)
    else s
  turnDirs f s

/-! Outcome of the period (R179 to R189). -/

/-- The flight runs on the lane of reset placement: its work has not migrated (R184, R185). -/
def State.atHome (s : State) (f : Nat) : Bool := (s.flight f).lane == 4 * (f / 3) + f % 3 && !(s.flight f).moved

/-- The flight a hall's spare re-executes in this period (R185): the next of the hall's flights that hold cells and are neither
migrated nor split. A spare that carries part of a split flight checks none (R188). -/
def shadowOf (h : Nat) (s : State) : Option Nat :=
  match s.spareOf h with
  | some l =>
    if (s.lane l).flight ≠ 15 || (s.lane l).testing then none
    else
      let ok := (hallFlights h).filter fun f =>
        s.ctCount f != 0 && (s.flight f).survStep == 0 && !(s.flight f).split && s.atHome f
      let n := (s.hall h).shadowNext
      (ok.find? fun f => decide (n ≤ f)).orElse fun _ => ok.head?
  | none => none

/-- AL1, or AL0 where the roles are exchanged, checks the atrium. -/
def State.atriumShadow (s : State) : Option Nat :=
  if (s.lane 13).role = 1 && !(s.lane 13).testing then some 13
  else if (s.lane 12).role = 1 && !(s.lane 12).testing then some 12
  else none

/-- What becomes of a flight at a departure. -/
inductive Judged where
  | complete | missed | remap | mismatch
  deriving DecidableEq, Repr

/-- The outcome of flight `f`: `bad` are the shadow mismatches of this departure. A second mapping that is not complete gives
REPEAT and is no miss (R250). -/
def judgeFlight (bad : BitVec 10) (f : Nat) (s : State) : Judged :=
  let x := s.flight f
  if s.atr.missed || !x.mapped then .missed
  else if decide (s.dep < x.mappedAt) then (if x.second then .remap else .missed)
  else if bad.getLsbD 9 || bad.getLsbD f then .mismatch
  else if x.remap then .remap
  else .complete

/-- The new state copy of a flight becomes current (R179). -/
def commitFlight (f : Nat) (s : State) : State :=
  let l := (s.flight f).newCtx
  let s := each l (fun x s => { s with treads := vset s.treads x.1 x.2 }) s
  s.setFlight f fun x => { x with newCtx := [] }

/-- The new state copy of the atrium becomes current. -/
def commitAtrium (s : State) : State :=
  match s.atr.newCtx with
  | some c => { s with atr := { s.atr with ctx := c, newCtx := none } }
  | none => s

/-- The working atrium lane. -/
def State.workAl (s : State) : Nat := if (s.lane 12).role = 0 then 12 else 13

/-- The lanes that run flight `f`. -/
def State.lanesOf (s : State) (f : Nat) : List Nat :=
  if (s.flight f).split then ([0, 1, 2, 3].map (4 * (f / 3) + ·)).filter fun l => (s.lane l).flight == f
  else [(s.flight f).lane]

/-- The lanes a miss of flight `f` is attributed to: the atrium's working lane `al`, the flight's lane, or, of a split flight,
one of its two lanes or both: no command says which was late (log 3). -/
def missLanes (al f : Nat) (s : State) : List Nat × State :=
  let ls := s.lanesOf f
  if s.atr.missed then ([al], s)
  else if (s.flight f).split then
    let q := freeNat s
    ((if q.1 % 3 = 0 then ls.take 1 else if q.1 % 3 = 1 then ls.drop 1 else ls), q.2)
  else (ls, s)

/-- The atrium's work moves from lane `l` to the other one, and lane `l` tests itself (R181, R184). -/
def moveAtriumWork (l : Nat) (s : State) : State :=
  if s.workAl = l ∧ (s.lane (25 - l)).role = 1 ∧ !s.provesItself (25 - l) then
    setLane l (fun y => { y with testing := true }) (moveAtrium l 1 s)
  else s

/-- A second miss in a row ends a split, whose late lanes test themselves (R189), and otherwise moves the work of the lane it is
attributed to (R181). -/
def moveWork (al f : Nat) (s : State) : State :=
  let x := s.flight f
  let s := if x.split then
      each x.late (fun l s => setLane l (fun y => { y with testing := true }) s) (endSplit f s)
    else s
  if s.atr.missed then moveAtriumWork al s
  else if x.split then s
  else match s.spareOf (f / 3) with
    | some j =>
      if s.provesItself j then s
      else setLane x.lane (fun y => { y with testing := true }) (moveHall x.lane j 1 s)
    | none => s

/-- A missed deadline of flight `f` (R180, R181, Table 01-4); `al` is the atrium's working lane of the period. -/
def missFlight (al f : Nat) (s : State) : State :=
  let q := missLanes al f s
  let s := each q.1 countMiss q.2
  let s := s.setFlight f fun x => { x with
    missRun := satInc 255 x.missRun, late := (if x.missRun = 0 then [] else x.late) ++ q.1 }
  let n := (s.flight f).missRun
  if n = 2 then moveWork al f s
  else if n = 3 then hallError (f / 3) 1 s
  else s

/-- A completed flight: its copy becomes current, and moved work has arrived (R179, R181). -/
def completeFlight (f : Nat) (s : State) : State :=
  let s := if s.standby then s else commitFlight f s
  let moved := (s.flight f).moved
  let s := s.setFlight f fun x => { x with missRun := 0, moved := false }
  if moved then raise 189 (BitVec.ofNat 32 (s.flight f).lane) s else s

/-- A cell has values of a snapshot that have not landed. -/
def Cell.hasSnap (c : Cell) : Bool := c.snap.toList.any (· != .none)

/-- Staged values of the flight's cells due at this landing wait for its next one, and COMMIT_LATE says so once (R183). -/
def lateCommit (f : Nat) (s : State) : State :=
  if s.grid.snapDue && (List.range 7).any (fun j => (s.cell (7 * f + j)).hasSnap) then
    raise 191 (BitVec.ofNat 32 (2 ^ f)) { s with grid := { s.grid with commitLate := s.grid.commitLate ||| (1#9 <<< f) } }
  else s

/-- One flight judged (R181). A REPEAT that is no miss: a second mapping that is late keeps the run of misses, a shadow mismatch ends
it (log 99). -/
def settle (al : Nat) (j : Judged) (f : Nat) (s : State) : State :=
  let s := s.setFlight f fun x => { x with rep := j != .complete }
  match j with
  | .complete =>
    completeFlight f { s with grid := { s.grid with commitLate := s.grid.commitLate &&& ~~~(1#9 <<< f) } }
  | .missed => lateCommit f (missFlight al f s)
  | .remap => lateCommit f s
  | .mismatch => lateCommit f (s.setFlight f fun x => { x with missRun := 0 })

/-- The flights that carry stage frames. -/
def State.running (s : State) : List Nat := (List.range 9).filter fun f => s.ringUp f && (s.flight f).survStep == 0

/-- The flights in a survey (R145). -/
def State.surveyed (s : State) : List Nat := (List.range 9).filter fun f => s.ringUp f && (s.flight f).survStep != 0

def markShadow (a b : Nat) (s : State) : State :=
  setLane a (fun y => { y with shadow := true }) (setLane b (fun y => { y with shadow := true }) s)

def countSkip (s : State) : State := { s with atr := { s.atr with laneSkip := satInc (2 ^ 32 - 1) s.atr.laneSkip } }

/-- The outcome of one check of bit `i` by working lane `a` and spare `b`, of work that is complete where `done`, beside
the mismatches found so far (flights and bit 9). -/
def checkOne (bad skip : BitVec 10) (i a b : Nat) (done : Bool) (x : BitVec 10 × State) : BitVec 10 × State :=
  let s := markShadow a b x.2
  if !done then (x.1, s)
  else if skip.getLsbD i then (x.1, countSkip s)
  else if bad.getLsbD i then (x.1 ||| (1#10 <<< i), mismatchTests a b s)
  else (x.1, s)

/-- The check of hall `h` (R185, R186). -/
def checkHall (bad skip : BitVec 10) (h : Nat) (x : BitVec 10 × State) : BitVec 10 × State :=
  if !x.2.hallOn h then x
  else match shadowOf h x.2 with
    | some f =>
      let work := (x.2.flight f).lane
      let spare := (x.2.spareOf h).getD work
      let t := x.2.setHall h fun y => { y with shadowNext := f + 1 }
      checkOne bad skip f work spare (judgeFlight 0 f t != .missed) (x.1, t)
    | none => x

/-- The check of the atrium, made in every period (R185). -/
def checkAtrium (bad skip : BitVec 10) (x : BitVec 10 × State) : BitVec 10 × State :=
  match x.2.atriumShadow with
  | some l => checkOne bad skip 9 (25 - l) l (!x.2.atr.missed) x
  | none => x

/-- Shadow checks of a departure (R185 to R187): skips are counted, the checked lanes are marked, and a mismatch sends
both lanes to their self-test. -/
def shadowChecks (bad skip : BitVec 10) (s : State) : BitVec 10 × State :=
  let s := each (List.range 14) (fun l => setLane l fun y => { y with shadow := false }) s
  checkAtrium bad skip (each [0, 1, 2] (checkHall bad skip) (0, s))

/-- DEADLINE_MISS and SHADOW_MISMATCH of a departure, with the flights they name, and bit 9 for the atrium (R182, Table
14-8). -/
def missEvents (miss : BitVec 9) (bad : BitVec 10) (s : State) : State :=
  let s := if miss = 0 then s else raise 187 (miss.setWidth 32 ||| bitAt s.atr.missed 9) s
  if bad = 0 then s else raise 188 (bad.setWidth 32) s

/-- Flights with their outcome. -/
def judgeAll (found : BitVec 10) (s : State) : List (Nat × Judged) :=
  s.running.map fun f => (f, judgeFlight found f s)

def missMask (js : List (Nat × Judged)) : BitVec 9 := bitsOf fun f => js.any fun x => x.1 == f && x.2 == .missed

def settleAll (al : Nat) (js : List (Nat × Judged)) (s : State) : State := each js (fun x s => settle al x.2 x.1 s) s

/-- The atrium's copy becomes current, and moved atrium work has arrived. -/
def settleAtrium (s : State) : State :=
  let t := if s.standby then s else commitAtrium s
  let u : State := { t with atr := { t.atr with moved := false } }
  if s.atr.moved then raise 189 (BitVec.ofNat 32 s.workAl) u else u

/-- Every flight judged at the departure, and the atrium's copy (R179 to R187). -/
def judgePeriod (bad skip : BitVec 10) (s : State) : State :=
  let r := shadowChecks bad skip s
  let js := judgeAll r.1 r.2
  let t := settleAll s.workAl js (missEvents (missMask js) r.1 r.2)
  if t.atr.missed || r.1.getLsbD 9 then t else settleAtrium t

/-! What the frames carry (R112, R117, R180, R228, R230, R249, R281, R389). -/

/-- The SAFE request for cell `k` in the active's segment frames that reach the departure at `t`: those received at least 200 ns
before it and, as the active sends them each period, not before those of the period before (R361). -/
def segPattern (t k : Nat) (s : State) : Nat :=
  match s.twin.segs.find? fun x => x.1 == k / 7 with
  | some x => if s.standby ∧ (s.flight (k / 7)).seg ∧ x.2.1 + 200 ≤ t ∧ t < x.2.1 + 200 + s.grid.tc then
      ((x.2.2.find? fun y => y.1.val == k).map fun y => y.2.val).getD 0 else 0
  | none => 0

/-- The pattern of a frame that departs at `t`, which is `p` by this device's own decisions. A request of the active's segment frames
stands in for one that a standby does not know of; a cell in restore has left that pattern since (R361, log 105). -/
def withSegment (t k p : Nat) (s : State) : Nat :=
  let q := segPattern t k s
  if q ≠ 0 ∧ (p = 0 ∨ p = 3) ∧ (s.cell k).mode ≠ .restoring then q else p

/-- The pattern in cell `k`'s frame of the coming departure by this device's own decisions: 0 for none. -/
def ownPattern (k : Nat) (s : State) : Nat :=
  let c := s.cell k
  if s.haltNow then s.patFault k
  else if s.ssbNow then 1
  else match s.reqNow c with
    | some p => p
    | none => match c.mode with
      | .out => if c.retry then 0 else c.act
      | .restoring => if c.restorePhase = 1 then c.act else 0
      | .active => if s.holds k then 3 else 0

/-- The pattern in cell `k`'s frame of the coming departure: 0 for none. -/
def framePattern (k : Nat) (s : State) : Nat := withSegment s.dep k (ownPattern k s) s

/-- The cell keeps the pattern it is in: its cell terminal has been sent it, and the frame of this departure does not change it. -/
def State.keepsPattern (s : State) (k : Nat) : Bool :=
  let c := s.cell k
  c.mode == .out && !c.retry && c.act != 0 && c.wire == c.act && c.sentPat == c.act

/-- What a transfer sends next (R276). -/
def nextConfig (k : Nat) (s : State) : Option ConfigOp :=
  match (s.cell k).transfer with
  | some t => match t.blocks with
    | b :: _ => some (.write b (bytesAt (s.fullImage k) (40 * b) 40))
    | [] => if t.committed then none else some (.commit t.crc)
  | none => none

/-- The configuration frame in the own slot of cell `k` (R117, R130). -/
def ownConfig (k : Nat) (s : State) : Option ConfigOp :=
  let c := s.cell k
  if c.wdClear ∧ c.restorePhase = 1 ∧ c.restoreAt ≤ s.grid.next ∧ !s.ssbNow ∧ !s.haltNow then some .wdClear
  else if s.keepsPattern k then nextConfig k s
  else none

/-- A transfer has sent its next frame; with the COMMIT, reports are held against the new image (R118). -/
def sentConfig (k : Nat) (s : State) : State :=
  let img := s.fullImage k
  s.setCell k fun c => match c.transfer with
    | some t => match t.blocks with
      | _ :: r => { c with transfer := some { t with blocks := r } }
      | [] => { c with transfer := some { t with committed := true }, sent := img, crcBad := 0 }
    | none => c

/-- The position of a route whose configuration frame rides in the CFGX slot: the first with one that has no own slot. -/
def cfgxOf (f : Nat) (r : Route) (s : State) : Option Nat :=
  (List.range 7).find? fun j =>
    let k := 7 * f + j
    r.pos.contains j && (ownConfig k s).isNone && (nextConfig k s).isSome

/-- A keep-alive frame: REPEAT, or the pattern `p`, and in either case no notch (R200, R218). A retry's keeps its ZSB (R281). -/
def Frame.keepAlive (x : Frame) (p : Nat) : Frame :=
  { x with safe := p, rep := p == 0, zsb := x.zsb && p == 0, notch := false, notchT := 0, notchW := 0 }

/-- A frame with the pattern `p` or REPEAT: ZSB goes only in a retry's frames (R111), and a REPEAT carries no notch
(R218). -/
def Frame.sentAs (x : Frame) (p : Nat) (rep retry : Bool) : Frame :=
  let y : Frame := { x with safe := p, rep := rep, zsb := x.zsb && retry && p == 0 }
  if rep then { y with notch := false, notchT := 0, notchW := 0 } else y

/-- What a standby had been told of cell `k` 200 ns before the departure at `t`: a decision word received later does not reach the
frames of its own segments (R361). -/
def State.heard (s : State) (t k : Nat) : State :=
  if !s.standby then s
  else
    let s := match (((s.cell k).words.filter fun w => decide (t < w.1 + 200)).getLast?) with
      | some w => s.setCell k fun c => { c with req := w.2 }
      | none => s
    if t < s.safe.ssbGot + 200 then { s with safe := { s.safe with cause := 0, ssbDue := none } } else s

/-- The frame of cell `k` as it is sent: its pattern, and REPEAT where the flight, or the cell, has no new stage. In a retry it is
the retry's frame also where the flight was not mapped (R281). -/
def finalFrame (f k : Nat) (s : State) : State :=
  let p := framePattern k s
  let wire := framePattern k (s.heard s.dep k)
  let rep := p == 0 && ((s.flight f).rep || (s.cell k).bad)
  let fr := if (s.cell k).retry then (idleFrame s k).getD (s.cell k).frame else (s.cell k).frame
  s.setCell k fun c => { c with act := p, wire := wire, frame := fr.sentAs p rep c.retry }

/-- The frame as it leaves this device's own port. -/
def wireFrame (f : Nat) (s : State) (c : Cell) : Frame :=
  if c.wire = c.act then c.frame
  else c.frame.sentAs c.wire (c.wire == 0 && ((s.flight f).rep || c.bad)) c.retry

/-- Installed cells of flight `f`. -/
def State.flightCells (s : State) (f : Nat) : List Nat := ((List.range 7).map (7 * f + ·)).filter s.installed

/-- Notches of a flight counted as they leave (R246): one whose own frame carries none is not taken. -/
def countNotch (k : Nat) (s : State) : State :=
  let c := s.cell k
  let goes := fun (x : Cell) => x.frame.safe == 0 && !x.frame.rep
  let mate := (s.flightCells (k / 7)).any fun i => (s.cell i).notchMate == some k
  if !c.frame.notch || mate || !goes c then s
  else
    let sub := match c.notchMate with
      | some m => goes (s.cell m)
      | none => false
    s.setCell k fun c => if sub then { c with notchSub := satInc 65535 c.notchSub }
      else { c with notchDip := satInc 65535 c.notchDip }

/-- The frame of cell `k` stays that of an earlier state. -/
def keepFrame (old : State) (k : Nat) (s : State) : State :=
  s.setCell k fun c => { c with frame := (old.cell k).frame, notchMate := (old.cell k).notchMate }

/-- The string of hall `h` mapped once more, but for the cells of a flight that carries REPEAT or was not mapped. -/
def refreshString (h : Nat) (old : State) : State :=
  let r := mapStringFrames h old
  let keep := fun (k : Nat) => (old.flight (k / 7)).rep || !(old.flight (k / 7)).mapped
  let s := each ((old.strCells h).filter keep) (keepFrame old) r.1
  each (r.2.filter fun k => !keep k && (s.cell k).inUse && !(s.cell k).bad) treadError s

/-- The frames of every string once more, with the snapshot of this landing and who switches at it. A string's frames are
those of its mapping unless the commit point or a decision has changed what they hold. -/
def refreshFrames (s : State) : State :=
  each (s.strings.filter s.strOn) refreshString s

/-! The deliver trains (R105, R107, R141, R339). -/

/-- The frame in position `j`'s own slot: a configuration frame that is due there, else its stage frame with the
correction of this route. -/
def slotFrame (h : List Byte) (f : Nat) (r : Route) (j : Nat) (s : State) : List Byte × State :=
  let k := 7 * f + j
  match ownConfig k s with
  | some c =>
    (configFrame h j c, if (s.cell k).wdClear && (s.cell k).restorePhase == 1 then s else sentConfig k s)
  | none =>
    let w := timeCorr f r j s
    let t := s.setCell k fun c =>
      let x : Frame := { c.frame with timeCorr := w }
      { c with corrSent := w, frame := x, last := x, sentPat := c.wire }
    let t := if w = 0x80000000#32 then t else t.setFlight f fun x => { x with carried := j :: x.carried }
    (stageFrame h j (wireFrame f t (t.cell k)), t)

/-- The frames of a route's own slots. -/
def slotFrames (h : List Byte) (f : Nat) (r : Route) (js : List Nat) (s : State) : List (List Byte) × State :=
  match js with
  | [] => ([], s)
  | j :: rest =>
    let a := slotFrame h f r j s
    let b := slotFrames h f r rest a.2
    (a.1 :: b.1, b.2)

/-- The configuration frame in the slot a train adds for one (R112). -/
def extraFrame (h : List Byte) (f : Nat) (x : Option Nat) (s : State) : List (List Byte) × State :=
  match x with
  | some j => match nextConfig (7 * f + j) s with
    | some c => ([configFrame h j c], sentConfig (7 * f + j) s)
    | none => ([], s)
  | none => ([], s)

/-- A train leaves the port, or, of a segment the partner serves, its SAFE requests go to the partner (R358). -/
def depart (f : Nat) (r : Route) (train : List Byte) (s : State) : State :=
  if s.ownRoute r then emit (.train (Fin.ofNat 9 f) r.west s.now train) s
  else if s.leads && s.linkUp && !r.whole then
    emit (.segment (Fin.ofNat 9 f) { breaks := (s.flight f).breaks, from40 := low40 s.now, safe := r.pos.map fun j =>
      (Fin.ofNat 63 (7 * f + j), Fin.ofNat 4 (s.cell (7 * f + j)).frame.safe) }) s
  else s

/-- One deliver train of a route: stage frames with their corrections, own-slot configuration frames, and CFGX. -/
def sendRoute (f : Nat) (r : Route) (s : State) : State :=
  let x := cfgxOf f r s
  let h := trainHeader 2 f s.grid.next (routeFlags r x.isSome) s
  let a := slotFrames h f r r.pos s
  let b := extraFrame h f x a.2
  let s := (endHold f r b.2).setFlight f fun y => { y with heads := y.heads ++ (a.1 ++ b.1).flatMap (·.take 36) }
  depart f r (deliverTrain h (a.1 ++ b.1)) s

/-- RING_REROUTE once every cell of a wrap that a route still serves has a measured correction (R148), and HOLDING. -/
def rerouteDone (f : Nat) (s : State) : State :=
  let served := (routes f s).flatMap (·.pos)
  let none_ := fun j => (s.cell (7 * f + j)).corrSent == 0x80000000#32
  let x := s.flight f
  let s := s.setFlight f fun x => { x with holding := served.any none_ }
  if x.reroute && (x.seg || !x.wrapped) && x.rerouteOf.all (fun j => x.carried.contains j || !served.contains j) then
    raise (137 + f) 0 (s.setFlight f fun x => { x with reroute := false, rerouteOf := [] })
  else s

/-- The trains of one flight. -/
def sendFlight (f : Nat) (s : State) : State :=
  let s := each (s.flightCells f) (fun k s => countNotch k s) (s.setFlight f fun x => { x with heads := [], carried := [] })
  rerouteDone f (sendProbe f (each (routes f s) (sendRoute f) s))

/-- CRC-32C of bytes 0 to 35 of every frame of a flight (R339). -/
def flightCrc (f : Nat) (s : State) : Word := crc32c (s.flight f).heads

/-- CRC-32C of the loop state of a copy of the atrium's context. The manual says that the atrium's divergence is found and not
from which bytes; these are the model's own (R340, log 84). -/
def atriumCrc (c : Ctx) : Word :=
  crc32c (c.slots.toList.flatMap (fun x => ([x.u, x.i, x.d, x.ed, x.w, x.angle] : List Word).flatMap fun v => leBytes 4 v.toNat)
    ++ c.groups.toList.flatMap fun g => leBytes 4 g.g.toNat)

/-- The active's commit word (R339). -/
def sendCommit (s : State) : State :=
  if s.twin.state == 1 && s.linkUp then
    emit (.commit (bitsOf fun f => s.running.contains f && !(s.flight f).rep)
      ((List.range 9).map (fun f => flightCrc f s) ++ [atriumCrc s.atr.ctx])) s
  else s

/-- Place of a message of the twin link in the order of Table 09-2; 0 for what leaves elsewhere. -/
def Out.place (o : Out) : Nat :=
  match o with
  | .dem => 1 | .hbt _ _ _ => 2 | .decision _ => 3 | .relay _ _ _ _ _ => 4 | .stamp _ _ _ => 4 | .segment _ _ => 5
  | .measurement _ => 6 | .commit _ _ => 6 | .time _ => 7 | .stairTwin _ => 7 | .forward _ _ _ _ _ _ => 8 | .report _ => 9 | .transfer _ => 9
  | _ => 0

/-- What has left since the first `n` items, in the order of precedence of Table 09-2 on the link; newest first. -/
def linkOrder (n : Nat) (s : State) : State :=
  let m := s.out.length - n
  let new := (s.out.take m).reverse
  { s with out := ((List.range 10).flatMap fun p => new.filter fun o => o.place == p).reverse ++ s.out.drop m }

/-! The planned handover (R351). -/

def setTwin (f : Twin → Twin) (s : State) : State := { s with twin := f s.twin }

/-- Every ring's trains come from the other end from now on, so its loop sums and corrections are measured afresh. -/
def turnRing (f : Nat) (s : State) : State :=
  if s.ringUp f then s.setFlight f fun x => if x.wrapped then x else { x with
    reroute := true, rerouteOf := [], mWhole := [], tgWhole := none }
  else s

/-- L_sw - DELIVER_LEAD at the former active: it is a standby in step, and relays for the new one (R351). -/
def handOver (s : State) : State :=
  each (List.range 9) turnRing (setTwin (fun t => { t with state := 2, epoch := t.epoch + 1, lsw := none, stepMap := 0x3FF#10 }) s)

/-- The coming deliver train is for L_sw, or later: it is not this active's to send. -/
def State.handOverDue (s : State) : Bool := s.twin.state == 1 && s.twin.lsw.any fun l => decide (l ≤ s.grid.next)

/-! Slack (R154, R155, R188). -/

/-- W of a flight in this period. -/
def windowOf (f : Nat) (s : State) : Nat := s.grid.tc - s.sampleOfs - 100 - (s.flight f).tg - s.lead

/-- Slack fraction of a flight in percent (R154); 0 for one that is not complete at its departure (log 98). -/
def flightSlack (f : Nat) (s : State) : Rat :=
  let x := s.flight f
  if x.mapped && decide (x.mappedAt ≤ s.dep) then
    100 * ((s.dep - x.mappedAt : Nat) : Rat) / ((max 1 (windowOf f s) : Nat) : Rat)
  else 0

/-- A split begins from the next period, or ends (R188). -/
def splitStep (f : Nat) (q : Rat) (s : State) : State :=
  let x := s.flight f
  let low := decide (q < s.slackMin)
  let s := s.setFlight f fun x => { x with
    lowRun := if low then satInc 8 x.lowRun else 0
    highRun := if x.split && decide (55 ≤ q) then satInc 1000 x.highRun else 0 }
  let y := s.flight f
  if x.split then (if 1000 ≤ y.highRun then endSplit f s else s)
  else if 8 ≤ y.lowRun ∧ bit (s.reg 0x80) 16 then
    match s.spareOf (f / 3) with
    | some j =>
      if (s.lane j).flight ≠ 15 then s
      else
        let s := setLane j (fun y => { y with flight := f, split := true }) s
        (setLane x.lane (fun y => { y with split := true }) s).setFlight f fun x => { x with split := true, lowRun := 0 }
    | none => s
  else s

/-- The flights of a period with the lanes that ran them and their slack fractions; both lanes of a split flight have its. -/
def State.slacks (s : State) : List (Nat × List Nat × Rat) := s.running.map fun f => (f, s.lanesOf f, flightSlack f s)

/-- The slack of every lane that worked in the period, as `work` and the atrium's lane `al` had it before the period was
judged. -/
def slackStep (work : List (Nat × List Nat × Rat)) (al : Nat) (s : State) : State :=
  let s := each work (fun x s => splitStep x.1 x.2.2 (each x.2.1 (fun l s => setSlack l x.2.2 s) s)) s
  slackEvent (work.flatMap (·.2.1) ++ [al]) s

/-! The departure. -/

/-- A superseded active sends no train from this departure on (R352). -/
def quiet (s : State) : State :=
  if s.twin.leaving then { s with twin := { s.twin with leaving := false, mute := true } } else s

/-- L(n + 1) - DELIVER_LEAD: misses and shadows are judged, copies committed or kept, and the deliver trains leave. -/
def departure (bad skip : BitVec 10) (s : State) : State :=
  let n := s.out.length
  let s := quiet (advanceTo s.dep s)
  let s := if s.handOverDue then setTwin (fun t => { t with handed := true }) (handOver s) else s
  let s := each ((List.range 9).filter s.ringUp) (switchRoute s.dep s.grid.next) s
  let work := s.slacks
  let al := s.workAl
  let s := judgePeriod bad skip s
  let s := refreshFrames s
  let fs := s.running
  let s := each (fs.map fun f => (f, s.flightCells f)) (fun x s => each x.2 (finalFrame x.1) s) s
  let s := each s.surveyed surveyTrain (each fs sendFlight s)
  linkOrder n (slackStep work al (sendCommit s))

/-- The frame of cell `k` in a keep-alive train that departs now: REPEAT, or the cell's pattern, with the correction `w`. -/
def keepAliveFrame (k : Nat) (w : Word) (s : State) : Frame :=
  let t := s.heard s.now k
  let c := t.cell k
  let p := if t.haltBy t.now then t.patFault k
    else if t.ssbBy t.now then 1
    else match c.req with
      | some (p, x) => if x + 200 ≤ t.now then p else c.act
      | none => c.act
  { c.frame.keepAlive (withSegment t.now k p t) with timeCorr := w }

/-- The keep-alive train for `t` of one route, with the corrections that the period's deliver train has by now (R200). -/
def keepAliveRoute (t f : Nat) (r : Route) (s : State) : State :=
  let h := trainHeader 2 f t (routeFlags r false) s
  let js := r.pos.map fun j => (j, timeCorr f r j s)
  let xs := js.map fun x => (x, keepAliveFrame (7 * f + x.1) x.2 s)
  let fr := xs.map fun x => stageFrame h x.1.1 x.2
  let s := each xs (fun x s => s.setCell (7 * f + x.1.1) fun c => { c with corrSent := x.1.2, sentPat := x.2.safe }) s
  let s := (endHold f r s).setFlight f fun x => { x with
    heads := x.heads ++ fr.flatMap (·.take 36)
    carried := (js.filter fun x => x.2 != 0x80000000#32).map (·.1) ++ x.carried }
  depart f r (deliverTrain h fr) s

/-- The keep-alive trains of a flight (R200). No PRB leaves with them (log 94). -/
def keepAliveFlight (t f : Nat) (s : State) : State :=
  rerouteDone f (each (routes f s) (keepAliveRoute t f) (s.setFlight f fun x => { x with heads := [], carried := [] }))

/-- The next keep-alive train of a period of Tc above 20 µs departs (R200). It is a deliver train: a superseded active sends none
(R352), and the breaks due by its departure shape its route (R147, R348). -/
def execKeepAliveDeparture (s : State) : Res :=
  .next <|
    let tc := s.grid.tc
    let m := s.grid.keepAlive + 1
    if !s.isOn .atrium || !s.isOn .timebase || decide (parts tc ≤ m) then s
    else
      let k := s.grid.now + m * tc / parts tc
      let s := quiet (advanceTo (k - s.lead) s)
      let s := { s with grid := { s.grid with keepAlive := m } }
      let s := each ((List.range 9).filter s.ringUp) (switchRoute (k - s.lead) k) s
      each s.running (keepAliveFlight k) s

end Sys2Proof.Machine
end

