-- ==== Sys2Proof/Machine/Landing.lean ====
section
/-! DEFINITION. The landing: who switches, what is held, the stages in force, references, modes and the grid (R20, R21,
R183, R199, R206, R209, R222, R242, R249, R253 to R257, R282). -/

namespace Sys2Proof.Machine

open Sys2Proof

/-! Edges of a stage (Table 06-4, R207, R208, R214). -/

/-- Edges of a comparison with threshold `thr` over `len` ns of a carrier of period `p` from phase `ph` on (R208). -/
def carrierEdges (thr ph p len : Rat) : Nat :=
  if thr ≤ 0 ∨ 1 ≤ thr then 0
  else
    let crossings := fun (a : Rat) => ((len / p + ph - a).floor - (ph - a).floor).toNat
    crossings ((1 - thr) / 2) + crossings ((1 + thr) / 2)

/-- The level of such a comparison at phase `ph`. -/
def carrierUpper (thr ph : Rat) : Bool := decide (ratAbs (2 * F32.fracOf ph - 1) < thr)

/-- Threshold of leg `g` in a FIXED duty stage (R208). -/
def legThreshold (x : Frame) (g : Nat) : Rat :=
  let d : Rat := (x.inCmd.toInt : Rat) / ((2 ^ 30 : Nat) : Rat)
  if g = 0 then (1 + d) / 2 else (1 - d) / 2

/-- How one leg runs in a stage from `a` to `b` ns after its landing, its phase counted from `ofs` ns before it: edges,
and the level at `b`, without a notch. -/
def legRun (x : Frame) (g ofs a b : Nat) : Nat × Bool :=
  let p : Rat := (x.inPeriod.toNat : Rat) / 256
  if x.lvl then (0, levelUpper x g)
  else if p = 0 then (0, false)
  else if x.cmodeIn = 0 then
    let ph0 : Rat := (x.inPhase.toNat : Rat) / ((2 ^ 32 : Nat) : Rat) + ((ofs + a : Nat) : Rat) / p
    let thr := legThreshold x g
    (carrierEdges thr ph0 p ((b - a : Nat) : Rat), carrierUpper thr (ph0 + ((b - a : Nat) : Rat) / p))
  else if (g = 0) = (0 ≤ x.inCmd.toInt) then
    let t : Rat := (x.inTonoff.toNat : Rat) / 256
    let up := if x.cmodeIn = 1 then t else p - t
    let n := ((((ofs + b : Nat) : Rat) / p).floor - (((ofs + a : Nat) : Rat) / p).floor).toNat
    (2 * n, decide (F32.fracOf (((ofs + b : Nat) : Rat) / p) * p < up))
  else (0, false)

/-- The level of a leg right at `a` ns into its stage. -/
def legStart (x : Frame) (g ofs a : Nat) : Bool := (legRun x g ofs a a).2

/-- Edges of leg `g` over a stage of `len` ns that follows the level `was`, and its level at the end. A notch holds both
legs lower (R242). -/
def legEdges (x : Frame) (g ofs len : Nat) (was : Bool) : Nat × Bool :=
  let n0 := min len x.notchT.toNat
  let n1 := min len (x.notchT.toNat + x.notchW.toNat)
  if !x.notch then
    let r := legRun x g ofs 0 len
    (r.1 + b2n (was != legStart x g ofs 0), r.2)
  else
    let r0 := legRun x g ofs 0 n0
    let first := if n0 = 0 then b2n was else r0.1 + b2n (was != legStart x g ofs 0) + b2n r0.2
    if n1 = len then (first, false)
    else
      let r1 := legRun x g ofs n1 len
      (first + b2n (legStart x g ofs n1) + r1.1, r1.2)

/-- The input bridge runs on in a stage: no pattern, or HOLD (Table 05-6). -/
def bridgeRuns (x : Frame) : Bool := x.safe == 0 || x.safe == 3

/-! The stage a cell has in force from this landing on. -/

/-- CON or COFF in a duty stage. -/
def conMode (x : Frame) : Bool := !x.lvl && x.cmodeIn != 0 && bridgeRuns x

/-- The new stage of a cell at the landing at `l`, `len` ns long: what its frame said (R112, Table 05-6), and from it the
bootstrap counts and the edges. A REPEAT stage carries no notch (R218). -/
def takeStage (tref l len : Nat) (c : Cell) : Cell :=
  let f := c.frame
  let keeps := f.rep || f.safe == 3
  let st : Frame := if f.rep then { c.stage with notch := false } else if f.safe = 3 then { c.stage with safe := 3, notch := false } else f
  let at_ := if keeps then c.stageAt else l
  let con := if conMode st && !conMode c.stage then l else c.conAt
  let ofs := if conMode st then l - con else l - at_
  let e0 := legEdges st 0 ofs len c.legs.1
  let e1 := legEdges st 1 ofs len c.legs.2
  let runs := bridgeRuns st
  let up := fun g => if c.mode = .active ∧ runs then upperAfter tref len st g (vget c.upper g 0) else 0
  { c with
    stage := st, stageAt := at_, conAt := con
    edges := if runs then e0.1 + e1.1 else 0
    legs := if runs then (e0.2, e1.2) else (false, false)
    upper := #v[up 0, up 1]
    holdCount := if f.safe = 3 then c.holdCount + 1 else 0
    bad := false }

/-! Held fields (R183, R222). -/

/-- A cell's snapshot comes into force. -/
def takeSnap (c : Cell) : Cell :=
  { c with
    heldF := Vector.ofFn fun i => match c.snap[i] with
      | .hold v => some v
      | .release => none
      | .none => c.heldF[i]
    heldLvl := match c.snap[0] with
      | .hold _ => c.snapLvl
      | _ => c.heldLvl
    snap := Vector.replicate 10 .none, snapLvl := false }

/-- Held and staged fields cleared (R222, Table 06-3). -/
def clearFields (c : Cell) : Cell :=
  { c with
    staged := Vector.replicate 10 {}, stagedLvl := false, snap := Vector.replicate 10 .none, snapLvl := false
    heldF := Vector.replicate 10 none, heldLvl := false }

/-! Service state (R249, R253 to R257, R281, R282). -/

/-- A cell leaves, or ends its restore or retry, at the landing at `l`: it goes out with the pattern its frame took, or
into the zero state of a retry. -/
def goOut (l : Nat) (retry : Bool) (c : Cell) : Cell :=
  { c with
    mode := .out, req := none, restorePhase := 0, restoreWait := false, noLimit := false, wdClear := false, uvRun := 0
    retry := retry, retryAt := if retry then l else c.retryAt, retryCheck := c.retryCheck && retry }

/-- A cell joins N_active (Table 06-3 phase 3). -/
def join (c : Cell) : Cell :=
  { c with
    mode := .active, restorePhase := 0, restoreWait := false, noLimit := false, restoreOk := 0, retry := false, retryCheck := false
    uvRun := 0, derate := false, upper := Vector.replicate 2 0 }

/-- Slots of a cell in phase 2 are enabled afresh by R176 with TRACK (Table 06-3). -/
def reenable (x : Slot) : Slot :=
  if x.en then { x with enArm := some { en := true, track := true, u0 := 0 }, enReady := true } else x

/-- Phase 2 begins at L_r1: fields cleared, the loops to be enabled (Table 06-3). The WD_CLEAR that lands clears the cell's FAULT
bits, and with them the decision words held for it (R295, R349). -/
def phaseTwo (k : Nat) (s : State) : State :=
  let s := s.setCell k fun c => { clearFields c with restorePhase := 2, restoreOk := 0, wdClear := false }
  let s := setTwin (fun t => { t with decisions := t.decisions.filter fun d => match d.1 with
    | .cell i _ _ _ _ => i.val != k
    | _ => true }) s
  s.setCtx k fun c => { c with slots := c.slots.map reenable }

/-- The block of the coming landing has landed (R389); one decided too late for its departure still has to, and so has one whose
frames carried PAT_FAULT for a halt (R230). -/
def ssbLanded (s : State) : State :=
  { s with safe := { s.safe with
      ssbDue := if !s.ssbNow || s.haltNow then s.safe.ssbDue
        else if s.safe.ssbAt + 200 ≤ s.dep then none
        else s.safe.ssbDue.map fun _ => s.safe.ssbAt } }

/-- What a landing does to one cell's service state; `joins` are those that join at it. A restore begun after a RELEASE goes on
through the landing of the block released. A retry whose string has taken its safe patterns ends as it lands (R284). -/
def serveCell (l : Nat) (joins : List Nat) (k : Nat) (s : State) : State :=
  let c := s.cell k
  let r := s.reqNow c
  if joins.contains k then raise (64 + k) 1 (s.setCell k join)
  else if s.haltNow || s.ssbNow then
    (if c.mode = .out ∧ !c.retry ∧ c.req.isNone ∨ c.mode = .restoring ∧ !s.ssb ∧ !s.haltNow then s
      else s.setCell k (goOut l false))
  else match r with
    | some p =>
    let ends := p == 0 && (s.hall (s.strHead (k / 21))).shortfall
    s.setCell k fun c => if ends then (goOut l true c).waitRetry else goOut l (p == 0) c
    | none =>
      if c.mode = .restoring ∧ c.restorePhase = 1 ∧ c.restoreAt ≤ l then phaseTwo k s
      else if s.qualifies k then s.setCell k fun c => { c with restoreWait := true }
      else s

/-- N_active and N_REQ of a string after a landing: the shortfall rule, or its end (R20, R21, R256). -/
def shortfallStep (h : Nat) (s : State) : State :=
  let n := s.nActive h
  let x := s.hall h
  if x.shortfall then (if x.nReq ≤ n ∧ n ≠ 0 then s.setHall h fun x => { x with shortfall := false } else s)
  else if n < x.nReq then shortfall h s
  else s

/-- Order of a string after a landing (R210, R233). -/
def orderAt (mode : Nat) (order active : List Nat) : List Nat := if mode = 0 then active else orderNext order active

/-- Atrium points written at a landing, in the current copy and in one that waits for its commit word. -/
def landPts (l : List (Nat × F32)) (s : State) : State :=
  s.setCtx 63 fun c => { c with pts := l.foldl (fun p x => tset p x.1 x.2) c.pts }

/-- One string's part of a landing, before the grid moves on. -/
def landString (h : Nat) (s : State) : State :=
  let l := s.grid.next
  let act := s.nextActive h
  let joins := s.joiners h
  let cells := (s.strCells h).filter fun k => s.hallOn (k / 21)
  let m := s.modNow h
  let ref := refState h l act.length s
  let share := (s.strHalls h).map fun g => (404 + g, shareRef g s)
  let s := each cells (serveCell l joins) s
  let s := s.setHall h fun x => { x with
    order := orderAt (fld m.1 0 2) x.order act
    vref := ref.vref, rampFrom := ref.rampFrom, rampTo := ref.rampTo, rampAt := ref.rampAt
    ramp := ref.ramp, vrefSet := ref.vrefSet }
  publishPlace h (landPts ((s.strHalls h).map (fun g => (400 + g, ref.vref)) ++ share) s)

/-- What a landing brings to hall `h`'s own settings, whether or not the hall is ON: mode, carrier, epoch and N_REQ (R20,
R206, R209). -/
def landMode (h : Nat) (s : State) : State :=
  let l := s.grid.next
  let m := s.modNow h
  let nReq := s.nReqNext h
  s.setHall h fun x => { x with
    nReq := nReq, modUse := m.1, carrierUse := m.2.1, epoch := m.2.2
    modeArms := x.modeArms.filter fun a => decide (l < a.at_)
    syncs := x.syncs.filter fun t => decide (l < t) }

/-- The new landing grid position (R57, R199). -/
def rollGrid (s : State) : State :=
  let g := s.grid
  let nx := (s.landingFrom (g.next + 1)).1
  let r := match g.change with
    | some (lx, tn) => if lx < g.next then (tn, none) else (g.tc, g.change)
    | none => (g.tc, none)
  { s with grid := { g with
      now := g.next, next := nx, tc := r.1, change := r.2, seq := g.seq + 1, keepAlive := 0, snapDue := false } }

/-- The flags of a period start afresh; a standby keeps the copies that wait for their commit word (R339). -/
def freshPeriod (s : State) : State :=
  let keep := s.standby
  let fl := fun (x : Flight) => { x with
    outEast := false, outWest := false, loopsDone := false, mapped := false, remap := false, second := false
    newCtx := if keep then x.newCtx else [] }
  { s with
    flights := s.flights.map fl
    halls := s.halls.map fun x => { x with sorted := false, sortBad := false, mapping := false }
    atr := { s.atr with
      started := false, done := false, missed := false
      newCtx := if keep then s.atr.newCtx else none } }

/-- A whole ring is served again from an UNWRAP's landing on (R149). -/
def unwrapLanding (f : Nat) (s : State) : State :=
  match (s.flight f).unwrapAt with
  | some t =>
    if t ≤ s.grid.now then raise (137 + f) 0 (s.setFlight f fun x => { x with unwrapAt := none }) else s
  | none => s

/-- The stages of one cell's landing: its fields unless its flight missed, then its stage. -/
def stageCell (len k : Nat) (s : State) : State :=
  let late := s.grid.commitLate.getLsbD (k / 7) || (s.flight (k / 7)).rep
  let tref := fld (s.hreg (k / 21) 0x50) 16 12
  let l := s.grid.next
  s.setCell k fun c => takeStage tref l len (if late then c else takeSnap c)

/-! Samples at the departure (R194, R381, R488). -/

/-- What the coming landing applies, as far as the points of capture and telemetry show it (R194). -/
def State.applied (s : State) : State :=
  each ((List.range 63).filter fun k => s.installed k && s.hallOn (k / 21)) (stageCell s.nextLen)
    (each (s.strings.filter s.strOn) landString s)

/-- The deliver departure with what it samples: the capture, this device's streams and those of others. -/
def departSampled (bad skip : BitVec 10) (s : State) : State :=
  let s := departure bad skip s
  let u := s.applied
  telemSample s.grid.next u (streamSample s.grid.next s.grid.seq u (capSample s.sampleAt u s))

/-! The state transfer of a rejoin (R362). -/

/-- Calibration results of an on-chip channel, which each device has of its own (R338). -/
def ownCalibration (a : Nat) : Bool := decide (0x23000 ≤ a) && decide (a < 0x23400) && (a % 16 == 8 || a % 16 == 12)

/-- The configuration of the units (R362). -/
def State.unitRegs (s : State) : UnitRegs :=
  { wakeSet := s.aon.wakeSet, wakeOnAddr := s.aon.wakeOnAddr, auto := s.aon.auto
    buck := (s.aon.buckFreq, s.aon.ilim0, s.aon.ilim1)
    adc := s.meas.seq.toList.map fun q => (q.cfg, q.ent)
    priv := s.meas.priv, tc := s.tb.tc.toList, pllPend := s.tb.pllPend, pllAct := s.tb.pllAct
    capCfg := s.atr.cap.cfg, capPre := s.atr.cap.pre, capChans := s.atr.cap.chans }

/-- The breaks and routing of a ring. -/
def Flight.ringBreaks (x : Flight) : RingBreaks :=
  { breaks := x.breaks, breakHop := x.breakHop, declared := x.declared, seg := x.seg, routed := x.routed, due := x.due
    unwrapAt := x.unwrapAt }

/-- Unit `n` of a state transfer: the configuration with all contexts, the flights, and the atrium. -/
def transferUnit (n : Nat) (s : State) : TransferUnit :=
  let shared := fun (t : Table Word) => t.filter fun x => !ownCalibration x.1
  if n = 0 then
    .config {
      epoch := s.twin.epoch, seqs := s.host.q.toList.map (·.expect), landing40 := low40 s.grid.now, seq := s.grid.seq
      cfg := shared s.cfg, pend := shared s.pend, regs := s.unitRegs
      ctxs := (List.range 64).map fun k => (k, s.ctx k), cells := (List.range 63).map fun k => (k, s.cell k)
      halls := (List.range 3).map fun h => (h, s.hall h)
      tc := s.grid.tc, change := s.grid.change
      rings := (List.range 9).map fun f => (f, (s.flight f).ringBreaks), telem := s.stair.telemOut }
  else if n < 10 then .flight (Fin.ofNat 9 (n - 1)) ((s.flightCells (n - 1)).map fun k => (k, s.tread k))
  else .atrium s.atr.ctx ((List.range 8).map fun i => (i, vget s.atr.inj i {})) s.atr.hostArm.toList

/-- The active of a rejoin sends one unit per period (R362). After that, and outside a rejoin, it sends the units of its partner
that are out of step (R340, R341). -/
def transferStep (s : State) : State :=
  if !s.linkUp || s.twin.state ≠ 1 then s
  else if s.twin.transfer ∧ s.twin.units < 11 then
    emit (.transfer (transferUnit s.twin.units s)) { s with twin := { s.twin with units := s.twin.units + 1 } }
  else
    let l := setBits 10 s.twin.partnerNeed.toNat
    each l (fun n s => emit (.transfer (transferUnit (n + 1) s)) s) (setTwin (fun t => { t with partnerNeed := 0 }) s)

/-- Units of a standby, in step or rejoining, that are not in step (R340, R341). -/
def State.twinNeed (s : State) : BitVec 10 := if s.twin.state = 2 ∨ s.twin.state = 4 then ~~~s.twin.stepMap else 0

/-- What REJOIN compares of this device (R362). -/
def State.info (s : State) : DeviceInfo :=
  { revision := fld sysId 8 8, firmware := firmware.toNat, check := blockCheck s.safe.block
    domains := s.aon.dom.toList.map stCode }

/-- What a standby reports: whether it could release, which of its units are out of step, what REJOIN compares of it, and whether
its SU port is up (R340, R362, R384, R406, log 84). -/
def sendReport (s : State) : State :=
  emit (.report { releasable := s.releasable, suUp := s.stair.upUp, need := s.twinNeed, info := s.info }) s

/-- What a device of a pair sends once per period: a time message, and of a standby its report (R343). -/
def reportReleasable (s : State) : State :=
  if !s.linkUp || s.aon.straps.role == 0 then s
  else
    let s := emit (.time (low40 s.now)) s
    if s.standby then sendReport s else s

/-- A landing (R249). -/
def execLanding (s : State) : Res :=
  .next <|
    if !s.isOn .atrium || !s.isOn .timebase then s
    else
      let n := s.out.length
      let s := advanceTo s.grid.next s
      let len := s.nextLen
      let live := s.strings.filter s.strOn
      let s := each [0, 1, 2] landMode (each live landString s)
      let s := each ((List.range 63).filter fun k => s.installed k && s.hallOn (k / 21)) (stageCell len) s
      let tc := s.grid.tc
      let s := freshPeriod (rollGrid (ssbLanded s))
      let s := if s.grid.tc = tc then s else capTcChange s
      let s := each (List.range 8) injGuard s
      let s := each (List.range 9) unwrapLanding s
      let s := setTwin (fun t => { t with handed := false }) (takeover (each live shortfallStep s))
      linkOrder n (reportReleasable (transferStep (triggerAll 2 0 s.grid.now s)))

/-! LOAD_ALL at a write of MOD_CTRL is the same as the opcode's; both stand in Machine/Stair.lean. -/

/-- HALL_REBAL. -/
def hallRebal (h : Nat) (s : State) : Word := s.reg (hallBase h + 0x54) ||| bitAt (s.hall (s.strHead h)).ramp 31

/-- HALL_CELLS (R17, R20). -/
def hallCells (h : Nat) (s : State) : Word :=
  pack [(16, 6, s.nActiveReg h), (8, 6, fld (s.reg (hallBase h)) 8 6), (0, 6, s.nInstReg h)]

end Sys2Proof.Machine
end

