-- ==== Sys2Proof/Machine/Twin.lean ====
section
/-! DEFINITION. Twin operation: heartbeats, takeover and demotion, what a standby takes from its active, divergence, and
the rejoin (chapter 9). -/

namespace Sys2Proof.Machine

open Sys2Proof

/-- The device belongs to a pair and its atrium runs. -/
def State.paired (s : State) : Bool := s.isOn .atrium && s.aon.straps.role != 0

/-- A device of a pair sends heartbeats: its atrium runs without an atrium error and it is not in reset (R344). -/
def State.hbRuns (s : State) : Bool := s.paired && !s.atr.err && !s.aon.held && !s.twin.hbtOff

/-- HB_OUT toggles at 1 MHz (R344, R350, R353). -/
def State.hbOutRuns (s : State) : Bool := s.hbRuns && s.twin.hbOut && s.isOn .timebase

/-- The instant that 40 bits name (R67): less than 2^39 ns ahead, else in the past, before TB 0 as 0. -/
def near40 (t40 : Nat) (s : State) : Nat :=
  let d := (t40 % 2 ^ 40 + 2 ^ 40 - low40 s.now) % 2 ^ 40
  if d < 2 ^ 39 then s.now + d else s.now - (2 ^ 40 - d)

/-! The servo (R61, R343, R371). -/

/-- A step while no hall is ON, else a rate within the range of R60, which the firmware chooses (log 3). -/
def servo (ofs : Int) (s : State) : State :=
  if ofs = 0 then s
  else if !s.anyHallOn then tbStep (-ofs * 2 ^ 28) s
  else
    let r := freeNat s
    { r.2 with tb := { r.2.tb with incr := BitVec.ofNat 40 (0x01FF7CED92 + r.1 % (0x020083126E - 0x01FF7CED92 + 1)) } }

/-! Takeover (R347 to R349). -/

/-- A decision word for class `cls` of cell `k` is held. -/
def State.heldWord (s : State) (k cls : Nat) : Bool :=
  s.twin.decisions.any fun d => match d.1 with
    | .cell i _ c _ _ => i.val == k && c.val == cls
    | _ => false

/-- The FAULT bits of cell `k`'s latest report that no decision word covers count as rising (R349). -/
def takeFaults (k : Nat) (s : State) : State :=
  let b := (s.cell k).report
  let mask := ((List.range 7).map fun i => if s.heldWord k (i + 1) then 2 ^ i else 0).sum
  let old := overlay b 28 (leBytes 2 (fieldAt b 28 2 &&& mask))
  let s := if bridgeShown b && s.heldWord k 1 then s.setCell k fun c => { c with bridge := true } else s
  let s := reportFaults k old b s
  if repWd b && !s.heldWord k 7 then decideClass k 7 2 s else s

/-- Every flight is wrapped at the hop next to the partner, from the next deliver departure on, with RING_BREAK f (R348). -/
def wrapAtPartner (f : Nat) (s : State) : State :=
  let hop := if s.aon.straps.role = 2 then 0 else s.ctCount f
  let s := if s.ringUp f && (s.flight f).breaks.contains hop then raise (128 + f) (BitVec.ofNat 32 hop) s else breakAt f hop s
  s.setFlight f fun x => { x with due := x.due.map fun d => (d.1, min d.2 s.now) }

/-- The epoch and the count of takeovers of a new active, with TAKEOVER (R348, R356). -/
def newEpoch (s : State) : State :=
  let e := s.twin.epoch + 1
  raise 212 (e.setWidth 32) (setTwin (fun t => { t with epoch := e, takeovers := satInc 65535 t.takeovers }) s)

/-- A new active goes on from the packets its predecessor has forwarded: their last number and their records replace those of what
the standby executed for itself (R473). A queue on which none was forwarded keeps its own. -/
def takeQueues (s : State) : State :=
  { s with host := { s.host with q := s.host.q.map fun x => match x.fwdExpect with
      | some e => { x with expect := e, recent := x.fwdRecent, fwdExpect := none, fwdRecent := [] }
      | none => x } }

/-- The takeover instant (R348, R349). Forwarded commands still complete at their apply instants (R337). -/
def takeRings (s : State) : State :=
  let s := setTwin (fun t => { t with
    state := 1, mute := false, leaving := false, ldn := false, tofsBad := 0, transfer := false, segs := [], measure := none
    partnerNeed := 0, partnerSu := false }) s
  let s := newEpoch (takeQueues s)
  let s := each (List.range 9) wrapAtPartner s
  let s := { s with cells := s.cells.map fun c => { c with alms := [] } }
  let s := each ((List.range 63).filter fun k => s.installed k && s.hallOn (k / 21)) takeFaults s
  setTwin (fun t => { t with decisions := [] }) s

/-- Both paths are lost, or have never been up since the start (R346, R347). -/
def State.pathsLost (s : State) : Bool := s.twin.hb1.state == 2 && s.twin.hb2.state == 2
def State.pathsNever (s : State) : Bool := s.twin.hb1.state == 0 && s.twin.hb2.state == 0

/-- The first item of R347, at the loss of a path. -/
def lostTakeover (s : State) : State :=
  if s.standby && s.pathsLost && (s.twin.stepAtLoss || bit (s.reg 0x50000) 30) then takeRings s else s

/-- A write of 1 to TWIN_CTRL.FORCE (R346, R347). -/
def forceNow (s : State) : State := if s.standby && (s.pathsLost || s.pathsNever) then takeRings s else s

def execForce (s : State) : Res := .next (if s.paired then forceNow s else s)

/-- DEM, which passes while the link is up: a standby takes over at once (R334, R347). -/
def execDemReceived (s : State) : Res := .next (if s.paired && s.linkUp && s.standby then takeRings s else s)

/-! Demotion (R350 to R355). -/

/-- An active that lost path 1 gives up the rings at once: no further train, LDN on its ring ports, ACTIVE low, HB_OUT
stopped (R350). -/
def demoteNow (s : State) : State :=
  setTwin (fun t => { t with state := 3, mute := true, leaving := false, ldn := true, hbOut := false, transfer := false }) s

/-- A superseded active sends no train from its next deliver departure on (R352, R355). -/
def superseded (s : State) : State :=
  setTwin (fun t => { t with state := 3, leaving := true, ldn := !s.linkUp, transfer := false }) s

/-- A deliver train from the partner's end at a ring port of an active (R352). -/
def execPartnerTrainReceived (f : Fin 9) (dirWest : Bool) (epoch : BitVec 16) (s : State) : Res :=
  .next <|
    if !s.ringUp f.val || s.twin.state ≠ 1 || dirWest == s.trainWest then s
    else
      let s' := raise 214 (epoch.setWidth 32) s
      if (epoch - s.twin.epoch).toNat < 32768 then superseded s' else s'

/-! Heartbeats (R344 to R346). -/

/-- A valid heartbeat on a path; the sixteenth in a row brings it up. -/
def beat (p : Path) : Path :=
  if p.state = 1 then p
  else if 15 ≤ p.run then { p with state := 1, run := 0 }
  else { p with run := p.run + 1 }

/-- Path 1 is up: a device whose HB_OUT stopped when it lost the path sends it again. -/
def resumeHb (s : State) : State := if s.twin.hb1.state = 1 then setTwin (fun t => { t with hbOut := true }) s else s

/-- A transfer ends once the partner reports that it is in step (R362). -/
def transferDone (s : State) : State :=
  if s.twin.transfer && s.twin.partnerInStep && decide (11 ≤ s.twin.units) then
    raise 127 2 (setTwin (fun t => { t with transfer := false }) s)
  else s

/-- A device strapped E that hears an active partner before any of its halls is ON becomes a standby (R346). -/
def hearActive (s : State) : State :=
  if s.aon.straps.role = 1 ∧ s.twin.state = 1 ∧ s.twin.partnerActive ∧ !s.anyHallOn then
    setTwin (fun t => { t with state := 3, mute := true }) s
  else s

/-- A heartbeat whose check passed. -/
def goodBeat (h1 : Byte) (s : State) : State :=
  let s := setTwin (fun t => { t with
    hb1 := beat t.hb1, partnerActive := h1.getLsbD 5, partnerHalt := h1.getLsbD 4, partnerInStep := h1.getLsbD 3
    strapErr := h1.toNat / 64 == s.aon.straps.role.val }) s
  transferDone (hearActive (resumeHb s))

/-- An HBT arrives (R344). -/
def execHbtReceived (h1 h2 h3 : Byte) (s : State) : Res :=
  .next <|
    if !s.paired || !s.linkUp then s
    else if h3 = ~~~(h1 ^^^ h2) then goodBeat h1 s
    else setTwin (fun t => { t with hb1 := { t.hb1 with run := 0 } }) s

/-- A rising edge at HB_IN (R345). -/
def execHbInEdge (s : State) : Res := .next (if s.paired then setTwin (fun t => { t with hb2 := beat t.hb2 }) s else s)

/-- T_HB without a valid HBT: path 1 is lost if it was up (R345, R346), and an active with path 2 up demotes (R350). -/
def execHb1Lost (s : State) : Res :=
  .next <|
    if !s.paired then s
    else if s.twin.hb1.state ≠ 1 then setTwin (fun t => { t with hb1 := { t.hb1 with run := 0 } }) s
    else
      let s := setTwin (fun t => { t with hb1 := { state := 2, run := 0 }, stepAtLoss := t.state == 2 }) s
      let s := raise 210 0 s
      if s.twin.state = 1 ∧ s.twin.hb2.state = 1 then demoteNow s else lostTakeover s

/-- T_HB without an edge at HB_IN: path 2 is lost if it was up (R345, R347). -/
def execHb2Lost (s : State) : Res :=
  .next <|
    if !s.paired then s
    else if s.twin.hb2.state ≠ 1 then setTwin (fun t => { t with hb2 := { t.hb2 with run := 0 } }) s
    else lostTakeover (raise 211 0 (setTwin (fun t => { t with hb2 := { state := 2, run := 0 } }) s))

/-- The link goes down: an active with path 2 up demotes at once, before T_HB has passed (R350, R359), and one that has demoted
already transmits LDN (R355). -/
def linkDown (s : State) : State :=
  let was := s.twin.linkUp
  let s := setTwin (fun t => { t with linkUp := false, partnerSu := false, ldn := t.ldn || t.leaving || t.hbtOff || t.mute }) s
  if was && s.twin.state == 1 && s.twin.hb1.state == 1 && s.twin.hb2.state == 1 then demoteNow s else s

/-- The twin link comes up or goes down (R334). -/
def execTwinLinkChange (up : Bool) (s : State) : Res :=
  .next <|
    if !s.paired || !s.isOn .links then s
    else if up then setTwin (fun t => { t with linkUp := true }) s
    else linkDown s

/-- H1 of this device's heartbeats. -/
def hbByte (s : State) : Byte :=
  BitVec.ofNat 8 (64 * s.aon.straps.role.val + 32 * b2n (s.twin.state == 1) + 16 * b2n s.atr.halted
    + 8 * b2n (s.twin.state == 2))

/-- An HBT leaves on the twin link (R344). -/
def execHbtSend (s : State) : Res :=
  .next <|
    if s.hbRuns && s.linkUp then
      let h1 := hbByte s
      let h2 : Byte := s.twin.epoch.setWidth 8
      emit (.hbt h1 h2 (~~~(h1 ^^^ h2))) s
    else s

/-! The planned handover (R351). -/

/-- DEMOTE to the active (R351). -/
def execDemote (w : List Word) (s : State) : Res :=
  .next <| command w.isEmpty (fun s =>
    if s.twin.state ≠ 1 || !s.linkUp || !s.twin.partnerInStep then refuse .state s
    else
      let l := s.landingFrom (s.now + 2 * s.grid.tc)
      reply .ok (landRef l.1 (s.seqOf l.2) false) (setTwin (fun t => { t with lsw := some l.1 }) s)) s

/-- L_sw - DELIVER_LEAD: the standby takes over, and the former active is its standby in step (R351), unless its deliver departure
has made it that already. -/
def execPlannedTakeover (s : State) : Res :=
  .next <|
    if !s.paired || !s.isOn .timebase then s
    else match s.twin.state, s.twin.lsw with
      | 1, some t =>
        handOver (advanceTo (t - s.lead) s)
      | 2, _ =>
        if s.twin.handed then setTwin (fun t => { t with handed := false }) s
        else
          let s := advanceTo s.dep s
          let s := newEpoch (takeQueues (setTwin (fun t => { t with
            state := 1, segs := [], decisions := [], measure := none, partnerNeed := 0, partnerSu := false }) s))
          each (List.range 9) turnRing s
      | _, _ => s

/-! What a standby takes from its active (R336, R339, R361). -/

/-- What cells have been asked for since `old` takes effect at the landing at `t`; the frames of the standby's own segments know of
it from now on (R361). -/
def atLanding (t : Nat) (old s : State) : State :=
  each ((List.range 63).filter fun k => (s.cell k).req != (old.cell k).req) (fun k s => s.setCell k fun c => { c with
    req := c.req.map fun r => (r.1, min r.2 (t - s.lead - 200))
    words := (s.now, (old.cell k).req) :: c.words.filter fun w => decide (s.now < w.1 + 200) }) s

/-- The active's decision on a cell is applied at the landing the word names. It is no decision of the standby's own, so it
raises nothing and is not logged (R336, log 84). -/
def takeCellWord (k react cls : Nat) (perm : Bool) (t : Nat) (s : State) : State :=
  let now := s.now
  let old := s
  let s := if perm then setPerm k s else s
  let trip := cls = 2 ∧ (react = 5 ∨ (perm ∧ s.reaction 2 = 5))
  let s := s.setCell k fun c => { c with
    gsTrips := if trip then now :: c.gsTrips.filter fun x => decide (now < x + 1000000000) else c.gsTrips }
  let weak := s.outranked k react
  let s := noteDecision k cls react s
  if weak then s else atLanding t old (carryOut k cls react s)

/-- A hall's error, its active's decision, takes out what it takes out there. -/
def takeHallWord (h t : Nat) (s : State) : State := atLanding t s (hallFall h s)

/-- A restore that the active decided has failed (R255). -/
def takeRestoreWord (k t : Nat) (s : State) : State :=
  if (s.cell k).mode = .restoring then atLanding t s (restoreEnds k s) else s

/-- Safe stack block decided by the active: its frames are those of the landing the word names (R389, R405). -/
def takeSsbWord (t : Nat) (s : State) : State :=
  let new := !s.ssb
  let s := setCause 16 s
  if new then
    let at_ := min s.safe.ssbAt (t - s.lead - 200)
    { s with safe := { s.safe with ssbGot := s.safe.ssbAt, ssbAt := at_, ssbDue := s.safe.ssbDue.map (min at_) } }
  else s

def execDecisionWord (d : Decision) (s : State) : Res :=
  .next <|
    if !s.paired || !s.linkUp || !s.standby then s
    else match d with
      | .cell k react cls perm t =>
        takeCellWord k.val react.val cls.val perm (near40 t s)
          (setTwin (fun x => { x with decisions := (d, false) :: x.decisions }) s)
      | .restore k t => takeRestoreWord k.val (near40 t s) s
      | .hall h t => takeHallWord h.val (near40 t s) s
      | .ssb t => takeSsbWord (near40 t s) s

def execMeasurementWord (pts : List (Nat × F32)) (s : State) : Res :=
  .next (if s.paired && s.linkUp && s.standby then setTwin (fun t => { t with measure := some pts }) s else s)

/-- A standby that is told of a break serves its segment from the departure its active does, though it reacts to no alarm itself
(R147, R336, R361). -/
def takeBreak (f t hop : Nat) (s : State) : State :=
  if (s.flight f).breaks.contains hop then s
  else (breakAt f hop s).setFlight f fun x => { x with due := x.due.map fun d => if d.1 = hop then (hop, t) else d }

/-- The breaks of a wrapped ring, and the SAFE requests for the segment this standby sends (R361). -/
def execSegmentFrames (f : Fin 9) (m : SegmentMsg) (s : State) : Res :=
  .next <|
    if s.paired && s.linkUp && s.standby then
      let t := s.now
      let s := if m.safe.isEmpty then s
        else setTwin (fun x => { x with segs := (f.val, t, m.safe) :: x.segs.filter fun y => y.1 != f.val }) s
      each m.breaks.reverse (takeBreak f.val (near40 m.from40 s)) s
    else s

/-- A divergence: the bits of `m` that were in step leave STEP_MAP, and the third within 1 s ends the step (R340, R342). -/
def diverge (m : BitVec 10) (s : State) : State :=
  let m := m &&& s.twin.stepMap
  if m = 0 then s
  else
    let now := s.now
    let s := setTwin (fun t => { t with
      stepMap := t.stepMap &&& ~~~m, diverge := satInc 63 t.diverge
      divTimes := now :: t.divTimes.filter fun x => decide (now < x + 1000000000) }) s
    let s := raise 213 (m.setWidth 32) s
    if s.twin.state = 2 ∧ 3 ≤ s.twin.divTimes.length then
      setTwin (fun t => { t with state := 3, stepMap := 0 }) s
    else s

/-- A flight marked FRESH: the standby's own copy becomes current, unless its own frames were incomplete, which takes the
flight out of step (R339, R341). -/
def freshFlight (f : Nat) (s : State) : State :=
  if !(s.flight f).rep then commitFlight f s
  else setTwin (fun t => { t with stepMap := t.stepMap &&& ~~~(1#10 <<< f) }) s

/-- The active's atrium was complete: the standby's copy becomes current where its own was too. One that was not, or that differs,
has left the step (R340, R341). -/
def freshAtrium (off : Bool) (s : State) : State :=
  if s.atr.missed then setTwin (fun t => { t with stepMap := t.stepMap &&& ~~~(1#10 <<< 9) }) s
  else if off then diverge (1#10 <<< 9) (commitAtrium s)
  else commitAtrium s

/-- The commit word of the active's deliver departure (R339 to R341). -/
def execCommitWord (fresh : BitVec 9) (crcs : List Word) (s : State) : Res :=
  .next <|
    if !s.paired || !s.linkUp || !s.standby then s
    else
      let fs := s.running.filter fun f => fresh.getLsbD f
      let off := fs.filter fun f => !(s.flight f).rep && wd crcs f != flightCrc f s
      let atOff := wd crcs 9 != atriumCrc s.newAtr && decide (9 < crcs.length)
      let s := each fs freshFlight s
      let s := if fs.isEmpty then s else freshAtrium atOff s
      each off (fun f s => diverge (1#10 <<< f) s) s

/-- The frames of a train from SOT to EOT, 48 bytes each, between its header and its trailer (R105). -/
def trainFrames (l : List Byte) : List (List Byte) :=
  (List.range ((l.length - 24) / 48)).map fun i => bytesAt l (16 + 48 * i) 48

/-- The deliver trailer covers header bytes 4 to 15 and every frame (R109). -/
def trailerOk (l : List Byte) : Bool :=
  decide (24 ≤ l.length) && fieldAt l (l.length - 8) 4 == (crc32c (bytesAt l 4 (l.length - 12))).toNat

/-- A deliver train of the active is back at the end of its ring: its return is stamped (R141). In a pair that is the standby's port;
it relays the stamp and compares the train's frames with its own (R340). A train whose trailer fails shows no frames of the
active; the commit word is then what is compared (log 85). -/
def execActiveTrainObserved (f : Fin 9) (train : List Byte) (s : State) : Res :=
  .next <|
    if !s.ringOn f.val || s.aon.straps.role != 0 && !s.standby then s
    else
      let now := s.now
      let s := s.setFlight f.val fun x => { x with back := some now }
      let s := if s.standby && s.linkUp then emit (.stamp f s.standbyWest (low40 now)) s else s
      if !s.standby || !s.ringUp f.val || (s.flight f.val).rep || !trailerOk train then s
      else if (trainFrames train).flatMap (fun x => bytesAt x 0 36) = (s.flight f.val).heads then s
      else diverge (1#10 <<< f.val) s

/-- The standby's RELEASABLE (R406), the units of its state that are out of step (R340), what REJOIN compares (R362), and whether
its SU port is up (R384). -/
def execReleasableReport (x : StandbyReport) (s : State) : Res :=
  .next (if s.paired && s.linkUp then
    setTwin (fun t => { t with
      partnerReleasable := x.releasable, partnerNeed := x.need, partnerInfo := some x.info, partnerSu := x.suUp }) s else s)

/-- This device's offset of TB from the partner's, of the four stamps' sum (t1 - t2) + (t4 - t3) and TWIN_ASYM (R343). -/
def twinOffset (sum : Int) (s : State) : Int :=
  let asym := sfld (s.reg 0x5000C) 0 16
  F32.rne (((if s.aon.straps.role = 1 then sum + asym else sum - asym : Int) : Rat) / 2)

/-- The standby's servo follows its active, and too large an offset ends the step (R343). -/
def followPartner (o : Int) (s : State) : State :=
  let s := setTwin (fun t => { t with tofsBad := if 320 < o.natAbs then satInc 16 t.tofsBad else 0 }) s
  let s := if 16 ≤ s.twin.tofsBad then setTwin (fun t => { t with state := 3 }) s else s
  servo o s

/-- A time message completes a two-way measurement. A standby follows its active; an active whose own upstream is down
takes its standby's time (R384). -/
def execTwinTimeMessage (sum : Int) (s : State) : Res :=
  .next <|
    if !s.paired || !s.linkUp || !s.isOn .timebase then s
    else
      let o := twinOffset sum s
      let s := setTwin (fun t => { t with tofs := some o }) s
      if s.standby then followPartner o s
      else if s.timeFromStandby && !s.stair.newelLost then servo o s
      else s

/-! Rejoin (R362). -/

/-- What R362 refuses a REJOIN for. A path that never came up counts as lost, and a partner that is neither active nor in step
as one in state 3 (log 84). -/
def rejoinRefused (s : State) : Bool :=
  let t := s.twin
  t.state != 1 || !s.linkUp || t.hb1.state != 1 || t.hb2.state != 1 || t.partnerInStep || t.partnerActive || t.transfer
    || t.partnerInfo != some s.info

/-- REJOIN to the active (R362). -/
def execRejoin (w : List Word) (s : State) : Res :=
  .next <| command w.isEmpty (fun s =>
    if rejoinRefused s then refuse .state s
    else reply .ok [] (setTwin (fun t => { t with transfer := true, units := 0 }) s)) s

/-- What a hall of the active has in use; the lanes and the error are this device's own. -/
def takeHall (y x : HallS) : HallS := { y with lanes := x.lanes, err := x.err }

/-- The active's setting of a compare, armed as it is; FIRED and LATE stay this device's own. -/
def takeCompare (y x : Compare) : Compare := { y with fired := x.fired, late := x.late, firedAt := x.firedAt }

/-- The configuration of the units of domains that are ON (R362). -/
def takeRegs (r : UnitRegs) (s : State) : State :=
  let s := { s with aon := { s.aon with
    wakeSet := r.wakeSet, wakeOnAddr := r.wakeOnAddr, auto := r.auto
    buckFreq := r.buck.1, ilim0 := r.buck.2.1, ilim1 := r.buck.2.2 } }
  let s := { s with
    tb := { s.tb with
      tc := (r.tc.zip (List.range 16)).foldl (fun v x => vmod v x.2 (takeCompare x.1)) s.tb.tc
      pllPend := r.pllPend, pllAct := r.pllAct }
    atr := { s.atr with cap := { s.atr.cap with cfg := r.capCfg, pre := r.capPre, chans := r.capChans } } }
  if s.isOn .analog then
    each (r.adc.zip (List.range 16)) (fun x s => writeSeq x.2 x.1.1 x.1.2 s) (setMeas (fun m => { m with priv := r.priv }) s)
  else s

/-- The breaks of a ring of the active. -/
def takeRing (y : RingBreaks) (x : Flight) : Flight :=
  { x with breaks := y.breaks, breakHop := y.breakHop, declared := y.declared, seg := y.seg, routed := y.routed, due := y.due
           unwrapAt := y.unwrapAt }

/-- The landing grid of the active: its Tc, with a change that is pending (R57, R199). The landing instants are multiples of Tc. -/
def takeGrid (tc : Nat) (change : Option (Nat × Nat)) (s : State) : State :=
  let g := { s.grid with tc := tc, change := change }
  if tc = s.grid.tc then { s with grid := g }
  else { s with grid := { g with now := s.now / max 1 tc * tc, next := (s.now / max 1 tc + 1) * tc } }

/-- The configuration, contexts, cells, halls, rings, landing grid, epoch and sequence numbers of the active. SEQ counts on from the landing it was
sent for. -/
def takeConfig (x : TransferConfig) (s : State) : State :=
  let own := s.cfg.filter fun x => ownCalibration x.1
  let shared := x.cfg.filter fun x => !ownCalibration x.1
  let s := takeRegs x.regs { s with cfg := own.foldl (fun t y => tset t y.1 y.2) shared, pend := x.pend }
  let s := each x.ctxs (fun x s => if s.ctxOn x.1 then s.setCtx x.1 fun _ => x.2 else s) s
  let s := each x.cells (fun x s => if s.hallOn (x.1 / 21) then s.setCell x.1 fun _ => x.2 else s) s
  let s := each (x.seqs.zip (List.range 64)) (fun x s => s.setQueue x.2 fun q => { q with fwdExpect := some x.1 }) s
  let s := each x.halls (fun x s => if s.hallOn x.1 then s.setHall x.1 (takeHall x.2) else s) s
  let s := each x.rings (fun x s => if s.ringOn x.1 then s.setFlight x.1 (takeRing x.2) else s) (takeGrid x.tc x.change s)
  let s := { s with grid := { s.grid with
    seq := x.seq + BitVec.ofInt 16 (((s.grid.now : Int) - (near40 x.landing40 s : Nat)) / max 1 s.grid.tc) } }
  setTwin (fun t => { t with epoch := x.epoch, stepMap := 0, state := 4 }) { s with stair := { s.stair with telemOut := x.telem } }

/-- All ten bits of STEP_MAP are set: the device is in step, and no longer holds back its rings (R355, R362). -/
def stepReached (s : State) : State :=
  if s.twin.state = 4 ∧ s.twin.stepMap = 0x3FF#10 then
    setTwin (fun t => { t with state := 2, mute := false, leaving := false, ldn := false, tofsBad := 0, divTimes := [] }) s
  else s

/-- A unit of the state transfer arrives (R340, R362): the configuration begins a rejoin; a flight's or the atrium's state
copy sets its bit. -/
def takeUnit (u : TransferUnit) (s : State) : State :=
  match u with
  | .config x => if s.twin.state = 3 ∨ s.twin.state = 4 then takeConfig x s else s
  | .flight f ctxs =>
    if s.twin.state = 3 then s
    else
      let s := each ctxs (fun x s => if s.ctxOn x.1 ∧ x.1 / 7 = f.val then s.setCtx x.1 fun _ => x.2 else s) s
      stepReached (setTwin (fun t => { t with stepMap := t.stepMap ||| (1#10 <<< f.val) }) s)
  | .atrium c inj arm =>
    if s.twin.state = 3 then s
    else
      let s := s.setCtx 63 fun _ => c
      let s := { s with atr := { s.atr with
        inj := inj.foldl (fun v x => vset v x.1 x.2) s.atr.inj
        hostArm := (arm.zip (List.range 3)).foldl (fun v x => vset v x.2 x.1) s.atr.hostArm } }
      stepReached (setTwin (fun t => { t with stepMap := t.stepMap ||| (1#10 <<< 9) }) s)

def execStateTransferUnit (u : TransferUnit) (s : State) : Res :=
  .next (if s.paired && s.linkUp && s.standby then takeUnit u s else s)

/-- 100 ms without a complete transfer: the partner stays in state 3, and the active's transfer has ended (R362). -/
def execRejoinTimeout (s : State) : Res :=
  .next <|
    if !s.paired then s
    else if s.twin.state = 4 then setTwin (fun t => { t with state := 3 }) s
    else setTwin (fun t => { t with transfer := false }) s

/-! Forwarded commands (R337). -/

/-- The packets the active has forwarded on a queue, kept for a takeover beside the standby's own numbers (R473). -/
def noteForwarded (q : Fin 64) (seq : Word) (note : Option (BitVec 16 × Word)) (s : State) : State :=
  match note with
  | some n => s.setQueue q.val fun x => { x with
      fwdExpect := some (seq + 1), fwdRecent := ({ seq := seq, tag := n.1, crc := n.2 } :: x.fwdRecent).take 8 }
  | none => s

/-- A Pair-class command forwarded by the active waits for its apply instant. -/
def execForwardedCommand (q : Fin 64) (tag : FwdTag) (op : Byte) (w : List Word) (at40 : Nat) (s : State) : Res :=
  .next <|
    if !s.paired || !s.linkUp || !s.standby then s
    else
      let f : Fwd := { queue := q, seq := tag.seq, op := op, words := w, at_ := near40 at40 s, note := tag.note }
      setTwin (fun t => { t with fwd := t.fwd ++ [f] }) (noteForwarded q tag.seq tag.note s)

/-! Registers (TWIN_STATUS, TWIN_EPOCH, TWIN_TOFS). -/

def twinStatus (s : State) : Word :=
  let t := s.twin
  pack [(30, 2, s.aon.straps.role.val), (27, 3, t.state), (26, 1, b2n t.strapErr), (25, 1, b2n s.linkUp),
    (24, 1, b2n (t.hb1.state == 1)), (23, 1, b2n (t.hb2.state == 1)), (22, 1, b2n t.partnerActive),
    (21, 1, b2n t.partnerHalt), (10, 10, t.stepMap.toNat), (4, 6, t.diverge)]

def twinEpoch (s : State) : Word := pack [(16, 16, s.twin.takeovers), (0, 16, s.twin.epoch.toNat)]

def twinTofs (s : State) : Word :=
  match s.twin.tofs with
  | some o => BitVec.ofInt 32 o
  | none => 0x80000000#32

/-- TWIN_STATUS (R517). -/
def execTwinStatus (w : List Word) (s : State) : Res :=
  .next (command w.isEmpty (fun s => reply .ok [twinStatus s, twinEpoch s, twinTofs s, s.reg 0x50000] s) s)

end Sys2Proof.Machine
end

