-- ==== Sys2Proof/Machine/Nvm.lean ====
section
/-! DEFINITION. The non-volatile memory: page programs, commits, sector erases, the rings' copies, the fault log, NVM's
arrival and departure, and the end of a system calibration (R267, R294, R326, R431 to R434, R490 to R497). -/

namespace Sys2Proof.Machine

open Sys2Proof

def setNvm (f : Nvm → Nvm) (s : State) : State := { s with nvm := f s.nvm }

def isLog (r : NvmRec) : Bool := r.type == 0x20 || r.type == 0x21 || r.type == 0x22

/-! The bytes of a record (R9, R491, Tables 14-11 and 14-12). -/

/-- The 24 bytes of a fault-log record that are not 0 (Table 14-12). -/
def logBytes (boot : Nat) (x : LogRec) : List Byte :=
  leBytes 4 boot ++ leBytes 8 x.time.toNat ++ [BitVec.ofNat 8 x.event, x.kind]
    ++ leBytes 2 x.key.toNat ++ leBytes 4 x.data.toNat ++ leBytes 4 x.cause.toNat

/-- A run of bytes filled up with zeros to `n` pages of 256. -/
def pageFill (n : Nat) (l : List Byte) : List Byte := bytesAt l 0 (max l.length (256 * n))

/-- The data pages of a record, each field least-significant byte first (R9). The manual gives the layout of a fault-log
record and the first word of a parameter set; the order of the other fields is the model's (log 77). -/
def NvmData.bytes (d : NvmData) : List Byte :=
  let table := fun (t : Table Word) => t.flatMap fun x => leBytes 4 x.1 ++ leBytes 4 x.2.toNat
  let bins := fun (t : Table Nat) => t.flatMap fun x => leBytes 2 x.1 ++ leBytes 4 x.2
  match d with
  | .param _ p => pageFill 1 (leBytes 4 p.gen ++ table p.regs ++ p.images.flatten)
  | .calib g o => pageFill 1 (leBytes 4 g.toNat ++ leBytes 4 o.toNat)
  | .safety b c => pageFill 2 (wordBytes b.toList ++ leBytes 4 c.toNat)
  | .wearSummary dm t st => pageFill 5 (dm.flatMap (leBytes 8 ·) ++ wordBytes t.flatten ++ wordBytes st.flatten)
  | .wearHist h => pageFill 24 (h.flatMap bins)
  | .log boot r => pageFill 1 (logBytes boot r)

/-- The marker of a record: SERIAL, TYPE, FLAGS, KEY, DCRC and MCRC (Table 14-11). -/
def NvmRec.markerBytes (r : NvmRec) : List Byte :=
  withCrc (leBytes 4 r.serial ++ [r.type, BitVec.ofNat 8 (b2n r.copy)] ++ leBytes 2 r.key
    ++ leBytes 4 (crc32c r.data.bytes).toNat)

/-- A record whose marker check and data CRC hold (R491). -/
def NvmRec.valid (r : NvmRec) : Bool := r.marker == r.markerBytes

/-- The head of a ring enters a sector: the fifth one after it is due to be erased. At least two then stand erased ahead of the head
wherever it goes next, also while the copies of an erase, 37 pages at most, move it on (R492, log 108). A sector the ring has not
come to yet is erased. -/
def clearAhead (r : Nat) (v : Nvm) : Nvm :=
  let g := vget v.heads r 0 / 16 + 5
  if g < ringLen r then v else { v with eraseQ := v.eraseQ ++ [ringBase r + g % ringLen r] }

/-- One page more of a ring. -/
def stepHead (type : Byte) (v : Nvm) : Nvm :=
  match ringOf type with
  | none => v
  | some r =>
    let v := { v with heads := vmod v.heads r (· + 1) }
    if vget v.heads r 0 % 16 = 0 then clearAhead r v else v

/-! Waiting for a commit. -/

/-- G and O of a channel in use; a new VDC calibration sends the cell's image (R277, R326). -/
def useCal (c : BitVec 16) (g o : F32) (s : State) : State :=
  let s := (s.setReg (calAddr c + 4) g).setReg (calAddr c + 8) o
  match chanCell c with
  | some k => if chanSub c = 0 then startTransfer k s else s
  | none => s

/-- The active forwards the coefficients of a cell channel (R338), in a layout of the model's own (log 47). -/
def sendCal (c : BitVec 16) (g o : F32) (s : State) : State :=
  if (chanCell c).isSome && s.twin.state == 1 && s.linkUp then
    emit (.forward 0 0 none 0x93 [c.setWidth 32, g, o] (low40 s.now)) s
  else s

/-- Forwarded coefficients. -/
def takeCal (w : List Word) (s : State) : State := useCal ((wd w 0).setWidth 16) (wd w 1) (wd w 2) s

/-- KEY of a channel's calibration record (Table 14-11). -/
def calKey (c : BitVec 16) : Nat :=
  match chanCell c with
  | some k => 0x100 + 4 * k + chanSub c
  | none => chanIdx c

/-- The outcome of what waited for a record: `ok` says that its marker was written. -/
def recordDone (j : NvmJob) (ok : Bool) (s : State) : State :=
  match j.after with
  | .none => s
  | .store =>
    match j.record.data with
    | .param copyB p =>
      if ok then
        let other := (List.range 60).map fun i => (if copyB then 0 else 60) + i
        raise 220 (BitVec.ofNat 32 p.gen) (setNvm (fun v => { v with eraseQ := v.eraseQ ++ other }) s)
      else s
    | _ => s
  | .confirm pkt =>
    match j.record.data with
    | .safety _ c => if ok then confirmDone pkt c s else finish pkt { status := .nvmFail } s
    | _ => s
  | .calDone =>
    match j.record.data, s.meas.cal with
    | .calib g o, some c =>
      if calKey c.chan = j.record.key then calEnd (if ok then .ok else .nvmFail) (sendCal c.chan g o (useCal c.chan g o s)) else s
    | _, _ => s
  | .journal =>
    { s with aon := { s.aon with seq := s.aon.seq.map fun q =>
      { q with journalWait := q.journalWait - 1, unsaved := if ok then q.unsaved else j.record.key / 21 :: q.unsaved } } }

/-- A record is committed: its marker is written (R491). Of the parameter sets a copy holds one. -/
def commitRecord (j : NvmJob) (s : State) : State :=
  let gone := fun (x : NvmRec) => match x.data, j.record.data with
    | .param a _, .param b _ => a == b
    | _, _ => false
  let r : NvmRec := { j.record with marker := j.record.markerBytes }
  recordDone j true (setNvm (fun v => { v with recs := r :: v.recs.filter fun x => !gone x }) s)

/-- A sector of the spare pool takes the place of a retired one, with no erase cycle of its own yet; NVM_WEAR the first time the
pool falls below 8 (R493). -/
def takeSpare (sector : Nat) (s : State) : State :=
  let s := setNvm (fun v => { v with spare := v.spare - 1, eraseCounts := tdel v.eraseCounts sector }) s
  if s.nvm.spare < 8 ∧ !s.nvm.spareLow then
    raise 222 (BitVec.ofNat 32 sector) (setNvm (fun v => { v with spareLow := true }) s)
  else s

/-- A record's work ends without a commit: NVM_FAIL (R493). Of a copy its record stays where it is, and that sector is not
erased (R492). -/
def failRecord (j : NvmJob) (s : State) : State :=
  let s := if j.record.copy then setNvm (fun v => { v with eraseQ := v.eraseQ.filter fun x =>
      !(v.recs.any fun c => c.sector == x && j.copies c) }) s else s
  recordDone j false (raise 221 (j.record.type.setWidth 32) s)

/-! NVM leaves ON (R432, R433, Table 12-5). -/

/-- Every record without a marker is dropped, waiting fault-log records with it (R433); an erase in progress is due again, and a
journal round starts afresh. -/
def nvmLeave (s : State) : State :=
  let jobs := s.nvm.jobs
  let rounds := jobs.any fun j => (j.record.type == 0x10 || j.record.type == 0x11) && !j.record.copy && j.after == .none
  let s := setNvm (fun v => { v with
    jobs := [], busy := false, offDue := false, eraseRetried := false, roundLeft := v.roundLeft || rounds
    eraseAgain := (v.erasing.toList ++ v.eraseQ) ++ v.eraseAgain, erasing := none, eraseQ := [] }) s
  each (jobs.filter fun j => j.after != .none) (fun j s => recordDone j false s) s

/-- No new operation starts; a page program in progress completes, a sector erase is aborted (R431, R432, R440). -/
def nvmHold (s : State) : State :=
  setNvm (fun v => { v with stop := true, eraseAgain := v.erasing.toList ++ v.eraseAgain, erasing := none, eraseRetried := false }) s

/-- Operations may start again. -/
def nvmGo (s : State) : State :=
  if s.aon.vinUv || !s.isOn .nvm then s
  else nvmStart (setNvm (fun v => { v with stop := false, eraseQ := v.eraseAgain ++ v.eraseQ, eraseAgain := [] }) s)

/-! Program and erase (R491 to R494). -/

/-- The running page program has failed its verify: the sector is retired and the program tried once more, at once or, where no
operation may start, when one may (R431, R440, R493). -/
def pageFailed (j : NvmJob) (rest : List NvmJob) (s : State) : State :=
  if j.dropped then nvmStart (setNvm (fun v => { v with busy := false, jobs := rest }) s)
  else if j.retried ∨ s.nvm.spare = 0 then
    nvmStart (failRecord j (setNvm (fun v => { v with busy := false, jobs := rest }) s))
  else
    takeSpare (jobSector j s.nvm) (setNvm (fun v => { v with busy := !v.stop, jobs := { j with retried := true } :: rest }) s)

/-- The running page program has completed: a page of its record's data, its marker, or the last of a record that is wanted no
more. -/
def pageWritten (j : NvmJob) (rest : List NvmJob) (s : State) : State :=
  let sec := jobSector j s.nvm
  let j1 : NvmJob := if j.started then j else { j with started := true, record := { j.record with sector := sec } }
  let left := fun (l : List NvmJob) => setNvm (fun v => stepHead j.record.type { v with busy := false, jobs := l }) s
  nvmStart (if j.dropped then left rest
    else if 0 < j.pages then left ({ j1 with pages := j.pages - 1, retried := false } :: rest)
    else commitRecord j1 (left rest))

/-- The running page program ends. -/
def pageDone (ok : Bool) (s : State) : State :=
  match s.nvm.jobs with
  | j :: rest => if !s.nvm.busy || !s.isOn .nvm then s else if ok then pageWritten j rest s else pageFailed j rest s
  | [] => s

/-- A sector has been erased: its records are gone; reclaimed fault-log records the host has not stored are reported
(R493, R497). -/
def sectorErased (x : Nat) (s : State) : State :=
  let v := s.nvm
  let lost := v.recs.filter fun r => r.sector == x && isLog r && decide ((s.reg 0x70008).toNat < r.serial)
    && !v.recs.any fun y => y.serial == r.serial && y.sector != x
  let n := (tget v.eraseCounts x).getD 0 + 1
  let s := setNvm (fun v => { v with
    erasing := none, eraseRetried := false, eraseCounts := tset v.eraseCounts x n
    recs := v.recs.filter fun r => r.sector != x }) s
  let s := if n = 80000 then raise 222 (BitVec.ofNat 32 x) s else s
  if lost.isEmpty then s else raise 223 (BitVec.ofNat 32 lost.length) s

/-- The running sector erase ends. -/
def eraseDone (ok : Bool) (s : State) : State :=
  match s.nvm.erasing with
  | some x =>
    if ok then nvmStart (sectorErased x s)
    else if s.nvm.eraseRetried ∨ s.nvm.spare = 0 then
      nvmStart (raise 221 0 (setNvm (fun v => { v with erasing := none, eraseRetried := false }) s))
    else takeSpare x (setNvm (fun v => { v with eraseRetried := true }) s)
  | none => s

def execNvmEraseDone (ok : Bool) (s : State) : Res := .next (if s.isOn .nvm then eraseDone ok s else s)

/-! The fault log and PERM (R294, R497). -/

/-- Kept fault-log records, oldest first, a rewritten copy and its original once. -/
def State.logRecords (s : State) : List NvmRec :=
  let l := s.nvm.recs.filter isLog
  let ins := fun (r : NvmRec) (a : List NvmRec) =>
    if a.any fun x => x.serial == r.serial then a
    else (a.filter fun x => decide (x.serial < r.serial)) ++ [r] ++ a.filter fun x => decide (r.serial < x.serial)
  l.foldr ins []

/-- PERM of cell `k` by the records AON holds, then by those in NVM where it is ON. -/
def permBy (k : Nat) (s : State) : Bool :=
  let mine := s.aon.heldLog.filter fun r => r.key.toNat == k && (r.kind == 0x21 || r.kind == 0x22)
  match mine.getLast? with
  | some r => r.kind == 0x21
  | none => s.isOn .nvm && s.nvm.recs.any fun r => r.key == k && permStands s.nvm r

/-- PERM marks of a hall's cells, at its arrival or at NVM's (R294). -/
def restorePerm (h : Nat) (s : State) : State :=
  let s := s.setHall h fun x => { x with permPending := !s.isOn .nvm }
  each (List.range 21) (fun i s =>
    let k := 21 * h + i
    if permBy k s then s.setCell k fun c => { c with perm := true } else s) s

/-- Seven words of a record in a LOG_READ reply. -/
def logWords (r : NvmRec) : List Word :=
  match r.data with
  | .log boot x =>
    BitVec.ofNat 32 r.serial :: bytesWords (logBytes boot x)
  | _ => []

/-- LOG_READ (R497, R517). -/
def execLogRead (w : List Word) (s : State) : Res :=
  .next <| command (w.length == 2) (fun s =>
    if !s.isOn .nvm then refuse .domainOff s
    else
      let n := fld (wd w 1) 0 8
      if n = 0 then refuse .badParam s
      else
        let first := (wd w 0).toNat
        let l := s.logRecords.filter fun r => first == 0xFFFFFFFF || decide (first ≤ r.serial)
        let take := min n ((s.replyLimit - 2) / 7)
        let next : Word := match l[take]? with
          | some r => BitVec.ofNat 32 r.serial
          | none => 0xFFFFFFFF#32
        let got := l.take take
        reply .ok ([BitVec.ofNat 32 got.length, next] ++ got.flatMap logWords) s) s

/-! Status registers. -/

/-- NVM_STATUS. -/
def nvmStatus (s : State) : Word :=
  let v := s.nvm
  let top := v.eraseCounts.foldl (fun a x => max a x.2) 0
  pack [(31, 1, b2n (v.busy || v.erasing.isSome || !v.jobs.isEmpty)), (30, 1, b2n (v.erasing.isSome || !v.eraseQ.isEmpty)),
    (16, 8, v.spare), (0, 16, min 65535 (top / 100))]

/-- NVM_LOG. -/
def nvmLog (s : State) : Word := pack [(28, 4, min 15 s.aon.heldLog.length), (0, 16, s.nvm.lost)]

/-- The valid parameter set of a copy (R495). -/
def State.paramSet (s : State) (copyB : Bool) : Option ParamSet :=
  (s.nvm.recs.filterMap fun r => match r.data with
    | .param b p => if b = copyB then some p else none
    | _ => none).head?

/-- NVM_STATUS, the opcode (R517). -/
def execNvmStatus (w : List Word) (s : State) : Res :=
  .next <| command w.isEmpty (fun s =>
    if !s.isOn .nvm then refuse .domainOff s
    else
      let gen := fun b => match s.paramSet b with
        | some p => BitVec.ofNat 32 p.gen
        | none => (0 : Word)
      let top := s.nvm.recs.foldl (fun a r => max a r.serial) 0
      reply .ok [nvmStatus s, nvmLog s, gen false, gen true, BitVec.ofNat 32 top, s.reg 0x70008] s) s

/-! The end of a system calibration (R325, R326). -/

/-- The newest calibration records of channels loaded at their domain's arrival (R326); NVM must be ON to be read. -/
def loadCal (chans : List (BitVec 16)) (s : State) : State :=
  if !s.isOn .nvm then s
  else each chans (fun c s => match s.newestRec 0x02 (calKey c) with
    | some r => match r.data with
      | .calib g o => (s.setReg (calAddr c + 4) g).setReg (calAddr c + 8) o
      | _ => s
    | none => s) s

/-- G and O of CAL_FULL from the two averages. -/
def calGain (x0 x1 scale : F32) (z f : Rat) : F32 :=
  F32.div (F32.sub x1 x0) (F32.mul scale (F32.sub (F32.ofRat f) (F32.ofRat z)))
def calOffset (x0 scale g : F32) (z : Rat) : F32 := F32.sub (F32.div x0 scale) (F32.mul g (F32.ofRat z))

/-- CAL_FULL with both averages: the coefficients are stored, and in use whether or not their record is committed. -/
def calStore (c : CalRun) (z f : Rat) (x0 : F32) (s : State) : State :=
  let scale := s.reg (calAddr c.chan)
  let g := calGain x0 c.x scale z f
  if c.clip ∨ f = z ∨ !F32.within (F32.toRat (F32.ofRat (9 / 10))) (F32.toRat (F32.ofRat (11 / 10))) g then calEnd .range s
  else
    let o := calOffset x0 scale g z
    let j : NvmJob := { record := { serial := 0, type := 0x02, key := calKey c.chan, data := .calib g o }, pages := 0, after := .calDone }
    if s.isOn .nvm then nvmWrite 0x02 (calKey c.chan) (.calib g o) .calDone s else recordDone j false s

/-- The averaging of CAL_ZERO or CAL_FULL is complete: 256 results, or 64 fresh reports (R325). -/
def execCalAverageDone (s : State) : Res :=
  .next <| match s.meas.cal with
    | some c =>
      let need := if (chanCell c.chan).isSome then 64 else 256
      if !s.isOn .atrium ∨ c.n < need ∨ !s.meas.calBusy ∨ (s.nvm.jobs.any fun j => j.after == .calDone) then s
      else
        let m : Rat := c.sum / (c.n : Rat)
        if !c.full then
          if c.clip then calEnd .range s
          else calEnd .ok (setMeas (fun x => { x with calZero := some (c.chan, m, c.x) }) s)
        else match s.meas.calZero with
          | some z => calStore c z.2.1 m z.2.2 s
          | none => s
    | none => s

/-! NVM arrives at ON (R433, R494, R497). -/

/-- BOOT one above the highest found (Table 14-12). -/
def nextBoot (v : Nvm) : Nat :=
  1 + v.recs.foldl (fun a r => match r.data with | .log b _ => max a b | _ => a) 0

/-- NVM arrives: records whose checks hold are valid (R491), and the serial and BOOT are taken up. No operation starts during a
die shutdown or VIN_UV (R431, R440). -/
def nvmOn (s : State) : State :=
  let s := setNvm (fun v => { v with recs := v.recs.filter NvmRec.valid }) s
  setNvm (fun v => { v with
    serial := v.recs.foldl (fun a r => max a r.serial) 0, boot := nextBoot v, jobs := [], busy := false
    stop := s.aon.vinUv || s.therm.shut, eraseQ := v.eraseAgain ++ v.eraseQ, eraseAgain := [] }) s

/-- What NVM's arrival starts once the sequence is complete (R445): PERM marks that waited are set, the records AON holds are
written, and an interrupted journal round runs again, of wear that the halls of the same sequence have loaded by then. -/
def nvmWork (s : State) : State :=
  let s := each [0, 1, 2] (fun h s => if s.hallOn h && (s.hall h).permPending then restorePerm h s else s) s
  let held := s.aon.heldLog
  let s := { s with aon := { s.aon with heldLog := [] } }
  let s := each held (fun r s => nvmWrite r.kind (if r.kind = 0x20 then 0 else r.key.toNat) (.log s.nvm.boot r) .none s) s
  let s := if s.nvm.roundLeft then journalRound (setNvm (fun v => { v with roundLeft := false }) s) else s
  nvmStart s

end Sys2Proof.Machine
end

