-- ==== Sys2Proof/Machine/Power.lean ====
section
/-! DEFINITION. Supplies, power domains, wake, DOMAIN_RESET and the two resets (chapter 13), with what a domain's leaving
ON takes away and what its arrival starts; debug halt (R230), housekeeping rounds (R417), die shutdown (R431) and the
Gallery scrub (R46, R47). -/

namespace Sys2Proof.Machine

open Sys2Proof

def setAon (f : Aon → Aon) (s : State) : State := { s with aon := f s.aon }

/-! Dependencies (Table 13-4, R45). -/

/-- Domains a domain needs ON, by code. -/
def domNeeds (role : Nat) (d : Nat) : List Nat :=
  match d with
  | 0 => []
  | 1 => [0]
  | 4 | 5 | 6 => if role = 0 then [0, 1, 2] else [0, 1, 2, 3]
  | _ => [1]

/-- Banks a domain needs ON (R45). -/
def bankNeeds (d : Nat) : List Nat :=
  match d with
  | 1 => [10, 11, 14, 15]
  | 4 => [0, 1] | 5 => [2, 3] | 6 => [4, 5]
  | _ => []

/-- Every domain ON of a set has what it needs. -/
def depsOk (role : Nat) (on bankOn : Nat → Bool) : Bool :=
  (List.range 10).all fun d => !on d || ((domNeeds role d).all on && (bankNeeds d).all bankOn)

/-! Unit states: codes 0 to 9 for domains, 16 + g for bank Gg. -/

def State.unitSt (s : State) (c : Nat) : DomState := if c < 16 then vget s.aon.dom c .off else s.bankSt (c - 16)
def setUnit (c : Nat) (x : DomState) (s : State) : State :=
  setAon (fun a => if c < 16 then { a with dom := vset a.dom c x } else { a with bank := vset a.bank (c - 16) x }) s

/-- Every unit. -/
def unitCodes : List Nat := List.range 10 ++ (List.range 16).map (16 + ·)

/-- DOMAIN_CHANGE (R442): `rst` marks the one of DOMAIN_RESET. -/
def changed (c : Nat) (rst : Bool) (s : State) : State :=
  raise 168 (pack [(0, 5, c), (8, 2, stCode (s.unitSt c)), (10, 1, b2n rst)]) s

/-- AON's oscillator stops while no logic domain is ON or in transition (R448), and both bucks once every domain and
bank is OFF (R436). -/
def aonIdle (s : State) : State :=
  let all := (List.range 10).all (fun d => s.unitSt d == .off) && (List.range 16).all fun g => s.unitSt (16 + g) == .off
  setAon (fun a => { a with
    rcRuns := s.anyDomUp
    bk0Ok := a.bk0Ok && !all
    bk1Ok := a.bk1Ok && !all }) s

/-- AON needs its oscillator no longer: with no logic domain ON or in transition, and no sequence on its way there, it stops it
(R448, log 107). -/
def rcIdle (s : State) : State :=
  setAon (fun a => { a with rcRuns := a.rcRuns && (s.anyDomUp || a.seq.isSome) }) s

/-! What a domain loses as it leaves ON (R441, Table 13-3). -/

/-- Registers of a domain go to their reset values. -/
def dropCfg (d : Dom) (s : State) : State := { s with cfg := s.cfg.filter fun x => ownerOf x.1 != some (.dom d) }

/-- Pending values of a domain are lost (R521). -/
def dropPend (d : Dom) (s : State) : State := { s with pend := s.pend.filter fun x => ownerOf x.1 != some (.dom d) }

/-- The registers of a loop slot, without its running state. -/
def Slot.kept (x : Slot) : Slot :=
  { en := x.en, func := x.func, disc := x.disc, sign := x.sign, group := x.group, rSrc := x.rSrc, ySrc := x.ySrc
    ffSrc := x.ffSrc, outDst := x.outDst, sp := x.sp, spUse := x.sp, pend := x.pend, act := x.act, follows := x.follows
    a1 := x.a1, b1 := x.b1, kiTs := x.kiTs, ktTs := x.ktTs, cTs := x.cTs }

def Ctx.kept (c : Ctx) : Ctx := { slots := c.slots.map Slot.kept, groups := c.groups.map fun g => { outDst := g.outDst } }

/-- The time base without its running state: what its shadow bank holds (R55, R552). GROSS clears by the resets alone
(R89). -/
def TimeBase.kept (t : TimeBase) : TimeBase :=
  { incr := t.incr, pllPend := t.pllPend, pllAct := t.pllAct, gross := t.gross
    tc := t.tc.map fun c => { c with en := false, fired := false, late := false, next := 0, lateNext := false } }

/-- Measurement without its running state, a running calibration and its status among it. Failed units and ROT_OFF stay until
DOMAIN_RESET (R322). -/
def Meas.kept (m : Meas) (regs : Bool) : Meas :=
  { seq := m.seq.map fun q => if regs then { cfg := q.cfg, ent := q.ent } else {}
    priv := if regs then m.priv else 0x80640800#32
    tdac := if regs then m.tdac else 0
    role := m.role, lastRole := m.lastRole, failed := m.failed, served := m.served, rotOff := m.rotOff
    ssFault := m.ssFault }

/-- The atrium's running state ends, its queues with the commands that wait in them (R478); `keep` keeps the registers of its shadow bank. An atrium error stays (R37), and so
does a hall's (R34). -/
def shedAtrium (keep : Bool) (s : State) : State :=
  let a := s.atr
  let atr : Atrium := if keep then
      { ctx := a.ctx.kept
        inj := a.inj.map fun i => { cfg := i.cfg, amp := i.amp, dur := i.dur, f0 := i.f0, f1 := i.f1, seed := i.seed }
        cap := { cfg := a.cap.cfg, pre := a.cap.pre, chans := a.cap.chans }, gpioIn := a.gpioIn }
    else { gpioIn := a.gpioIn }
  { s with
    atr := { atr with err := a.err }, halls := s.halls.map fun x => { err := x.err }, events := {}, grid := {}, streams := Vector.replicate 8 {}, twin := {}
    stair := { promote := keep && s.stair.promote }
    therm := { die := s.therm.die, shut := s.therm.shut }
    aon := { s.aon with vcoreWait := [] }
    host := { ptpRx := s.host.ptpRx, ptpHead := s.host.ptpHead, ptpTail := s.host.ptpTail, ptpOwned := s.host.ptpOwned
              ptpDrop := s.host.ptpDrop, ptpTx := s.host.ptpTx, ptpSrc := s.host.ptpSrc } }

/-- What stays of a hall's record while its domain is not ON: its registers lie in ATRIUM, so a mode, carrier or reference
of its string goes on with the string, and an error ends by DOMAIN_RESET alone (R18, R34, R206). -/
def HallS.offPart (x : HallS) : HallS :=
  { err := x.err, epoch := x.epoch, order := x.order, modeArms := x.modeArms, syncs := x.syncs, modUse := x.modUse
    carrierUse := x.carrierUse, dabUse := x.dabUse, tonUse := x.tonUse, nReq := x.nReq, vref := x.vref
    rampFrom := x.rampFrom, rampTo := x.rampTo, rampAt := x.rampAt, ramp := x.ramp, vrefSet := x.vrefSet
    shortfall := x.shortfall }

/-- A hall's running state ends; `keep` keeps slot settings and the device's copies of the images. -/
def shedHall (h : Nat) (keep : Bool) (s : State) : State :=
  let s := each ((List.range 21).map (21 * h + ·)) (fun k s =>
    { s with
      cells := vmod s.cells k fun c => if keep then { image := c.image } else {}
      treads := vmod s.treads k fun c => if keep then c.kept else {}
      treadsOld := vset s.treadsOld k {} }) s
  let s := each (hallFlights h) (fun f s => { s with flights := vset s.flights f {} }) s
  { s with halls := vmod s.halls h HallS.offPart }

/-- The stair ports go down with LINKS (R367). -/
def stairDown (s : State) : State :=
  if s.stair.upUp || s.stair.downUp then
    let s := { s with stair := { s.stair with upUp := false, downUp := false } }
    raise 215 (bitAt s.stair.posErr 2) s
  else s

/-- NET's running state ends; `keep` keeps what reads as registers of its shadow bank: the transmit slots but for a message under
way, and the receive ring with its indices (R441, log 92). -/
def shedNet (keep : Bool) (s : State) : State :=
  let h := { s.host with phyUp := false, phySpeed := 0, phyRelease := false, ptpDrop := 0 }
  { s with host := if keep then { h with ptpTx := h.ptpTx.map fun x => { x with go := false } }
    else { h with ptpRx := Vector.replicate 16 {}, ptpHead := 0, ptpTail := 0, ptpOwned := 0
                  ptpTx := Vector.replicate 4 {}, ptpSrc := 0 } }

/-- What domain `d` loses as it leaves ON. VDDA is monitored while ANALOG is ON (Table 13-1). -/
def shed (d : Nat) (keep : Bool) (s : State) : State :=
  let s := dropPend (domOf d) (if keep then s else dropCfg (domOf d) s)
  match d with
  | 0 => { s with tb := if keep then s.tb.kept else { gross := s.tb.gross } }
  | 1 => shedAtrium keep s
  | 2 => { s with safe := if keep then { block := s.safe.block } else {} }
  | 3 => stairDown (linkDown s)
  | 4 => shedHall 0 keep s
  | 5 => shedHall 1 keep s
  | 6 => shedHall 2 keep s
  | 7 => { s with meas := s.meas.kept keep, aon := { s.aon with vddaBad := false } }
  | 8 => shedNet keep s
  | _ => nvmLeave s

/-- The NVM domain at OFF with its event (R442). -/
def nvmOff (s : State) : State := changed 9 false (setUnit 9 .off (shed 9 false s))

/-- A die shutdown turns NVM OFF, once it has arrived where it was on its way and once a page program in progress has completed
(R432). -/
def nvmDue (s : State) : State := if s.nvm.offDue && s.isOn .nvm && !s.nvm.busy then nvmOff s else s

/-- The addressed bytes of a Gallery bank. -/
def bankBase (g : Nat) : Nat := g * 0x40000

/-- A bank leaves ON: a capture in G6 to G9 and frames in G12 and G13 stop. `keep` keeps the contents. -/
def shedBank (g : Nat) (keep : Bool) (s : State) : State :=
  let s := if keep then s else { s with mem := memClear s.mem (bankBase g) (bankBase (g + 1)) }
  if 6 ≤ g ∧ g < 10 then setCap (fun c => { c with armed := false, done := c.done && keep }) s
  else if g = 12 ∨ g = 13 then
    { s with streams := s.streams.map fun x => { x with en := false, changes := [], due := [] } }
  else s

/-- A retention CRC taken on entry into RET (R446): over the bytes of a bank of the capture buffer, which `State.mem` holds, by
R407's CRC; over bytes whose layout is not given it is open (log 3). -/
def takeRetCrc (c : Nat) (s : State) : State :=
  let r := if 22 ≤ c ∧ c < 26 then (crc32 (memBytes s.mem (bankBase (c - 16)) 0x40000), s) else freeWord s
  setAon (fun a => { a with retCrc := tset a.retCrc c r.1 }) r.2

/-! What a domain's arrival at ON starts (R445, Table 13-5a). -/

/-- Unit `c` has lost what it retained (R447). -/
def markLost (c : Nat) (s : State) : State :=
  setAon (fun a => { a with retLost := a.retLost ||| bitAt true c, lostDue := true }) s

/-- The fault-log record of RET_LOST. -/
def logLost (s : State) : State := logRecord 166 0x20 0xFFFF s.aon.retLost (s.safe.cause.setWidth 32) s

/-- AON holds a place for RET_LOST among the events that arise while ATRIUM is not ON (R484). -/
def holdLost (s : State) : State :=
  if !s.aon.lostDue || s.aon.heldEvents.any (·.num == 166) then s
  else setAon (fun a => { a with heldEvents := a.heldEvents ++ [{ num := 166, data := 0 }] }) s

/-- RET_LOST, once ATRIUM is ON, with the bitmap of all that is lost (R447). -/
def tellLost (s : State) : State :=
  if !s.aon.lostDue then s
  else if s.isOn .atrium then raise 166 s.aon.retLost (logLost (setAon (fun a => { a with lostDue := false }) s))
  else holdLost s

/-- The landing grid runs from the arrival of TIMEBASE and ATRIUM on (R57, log 13). A Tc that comes into use with it stops a running
capture (R196). -/
def gridStart (s : State) : State :=
  if s.isOn .timebase && s.isOn .atrium then
    let tc := s.tcSetting
    let s := if s.grid.tc = tc then s else capTcChange s
    { s with grid := { tc := tc, now := s.now / tc * tc, next := (s.now / tc + 1) * tc } }
  else s

/-- The values of hall `h` in force as ATRIUM arrives are those of its registers (R20, R206). -/
def hallRegs (h : Nat) (s : State) : State :=
  let r := fun (o : Nat) => s.reg (hallBase h + o)
  s.setHall h fun x => { x with nReq := fld (r 0) 8 6, modUse := r 4, carrierUse := r 8, dabUse := r 0xC, tonUse := r 0x10 }

/-- Queues start empty, AL0 works, the twin starts by its strap (R331, R346, R356), and the events AON held are raised
(R484), RET_LOST in its place among them with the bitmap of all that is lost (R447). `fresh` loads the catalogue of context 63 (R178). -/
def atriumArrive (fresh : Bool) (s : State) : State :=
  let s := if fresh then { s with atr := { s.atr with ctx := catalogue s.assign 63 } } else s
  let role := s.aon.straps.role
  let s := setTwin (fun t => { t with
    state := if role = 0 then 0 else if role = 1 then 1 else 3, hbOut := role != 0 }) s
  let s := each [0, 1, 2] hallRegs s
  let s := gridStart (placeAtrium { s with therm := { s.therm with ceil := ceilFull s } })
  let s := holdLost s
  let held := s.aon.heldEvents
  let s := setAon (fun a => { a with heldEvents := [], lostDue := false }) (if s.aon.lostDue then logLost s else s)
  each held (fun e s => raise e.num (if e.num = 166 then s.aon.retLost else e.data) s) s

/-- The string of a hall that arrives with no other of its halls ON starts afresh: it has no order and no cell reference yet,
and it waits in its safe patterns (R233, R240, R256). -/
def HallS.newString (x : HallS) : HallS := { x with order := [], vrefSet := false, ramp := false, shortfall := true }

/-- Every cell of the hall is out of service with its PAT_FAULT, its PERM marks are not yet restored, and the hall's placement
and catalogue are those of reset (R178, R184, R294, R445). -/
def hallArrive (h : Nat) (fresh : Bool) (s : State) : State :=
  let s := each ((List.range 21).map (21 * h + ·)) (fun k s =>
    let p := s.patFault k
    let s := s.setCell k fun c => { c with act := p }
    if fresh then { s with treads := vset s.treads k (catalogue s.assign k) } else s) s
  let alone := (s.strHalls h).all fun g => g == h || !s.hallOn g
  let s := s.setHall h fun x => { x with permPending := true }
  placeLanes h (if alone then s.setHall (s.strHead h) HallS.newString else s)

/-- The hall's work that follows the whole sequence: wear, calibration, PERM marks and image transfers (R268, R277, R294,
R326). -/
def hallWork (h : Nat) (s : State) : State :=
  let ks := (List.range 21).map (21 * h + ·)
  let s := each ks wearLoad s
  let s := loadCal (ks.flatMap fun k => (List.range 4).map fun c => BitVec.ofNat 16 (2 ^ 14 + k * 256 + c)) s
  each ks startTransfer (restorePerm h s)

/-- TB starts at 0 on the first tick after PLL-T locks (R55), and the rounds follow it (R417). -/
def timebaseArrive (s : State) : State :=
  gridStart { s with tb := { s.tb with ns := 0, frac := 0, nextSecond := 0 }, therm := { s.therm with hkLast := none } }

/-- What the arrival of domain `d` does at once. -/
def arrive (d : Nat) (fresh : Bool) (s : State) : State :=
  match d with
  | 0 => timebaseArrive s
  | 1 => atriumArrive fresh s
  | 2 => safetyArrive s
  | 4 => hallArrive 0 fresh s
  | 5 => hallArrive 1 fresh s
  | 6 => hallArrive 2 fresh s
  | 9 => nvmOn s
  | _ => s

/-- What the arrival of domain `d` starts once the sequence is complete (R445). -/
def arrivalWork (d : Nat) (s : State) : State :=
  if !s.isOn (domOf d) then s
  else match d with
    | 2 => safetyLoad s
    | 4 => hallWork 0 s
    | 5 => hallWork 1 s
    | 6 => hallWork 2 s
    | 7 => loadCal ((List.range 64).map fun m => BitVec.ofNat 16 (m * 256)) (analogUp s)
    | 9 => nvmWork s
    | _ => s

/-! The sequence: phase 1, the steps, and the end (R442, R450 to R452). -/

def setSeq (f : PowerSeq → PowerSeq) (s : State) : State := setAon (fun a => { a with seq := a.seq.map f }) s

/-- PWR_STATE and PWR_BANK. -/
def pwrState (s : State) : Word := pack ((List.range 10).map fun d => (2 * d, 2, stCode (s.unitSt d)))
def pwrBank (s : State) : Word := pack ((List.range 16).map fun g => (2 * g, 2, stCode (s.unitSt (16 + g))))

/-- Domain of a step code of Table 13-5. -/
def stepDom (c : Nat) : Nat := if c < 9 then 0 else c - 8

/-- A unit begins to come ON. -/
def takeUnit' (c : Nat) (s : State) : State :=
  let ret := s.unitSt c == .ret
  setSeq (fun q => { q with took := q.took ++ [(c, ret)] }) (setUnit c .trans s)

/-- The banks of the set close their switches: those from OFF are ON at once, those from RET once checked (R447). -/
def closeBanks (s : State) : State :=
  match s.aon.seq with
  | none => s
  | some q => each ((q.bring.filter (16 ≤ ·)).filter fun c => s.unitSt c != .on && s.unitSt c != .trans) takeUnit' s

/-- Every bank whose switch has closed is ON; one whose check fails is zero-filled and reported (R447). -/
def checkBanks (bad : Word) (s : State) : State :=
  match s.aon.seq with
  | none => s
  | some q =>
    tellLost <| each ((q.took.filter fun x => 16 ≤ x.1).filter fun x => s.unitSt x.1 == .trans) (fun x s =>
      let s := changed x.1 false (setUnit x.1 .on s)
      if x.2 && bit bad x.1 then markLost x.1 (shedBank (x.1 - 16) false s) else s) s

/-- The running step begins: TIMEBASE at step code 4, any other domain at its own. -/
def beginStep (s : State) : State :=
  match s.aon.seq with
  | none => s
  | some q => match q.steps with
    | [] => s
    | c :: _ =>
      let s := if c = 4 ∨ c = 0 then closeBanks s else s
      if c = 4 ∨ 9 ≤ c then
        (if s.unitSt (stepDom c) == .trans then s else takeUnit' (stepDom c) s) else s

/-- Steps of phase 2 or of a wake for the units to bring (R450). Banks close their switches with step code 4, or at the start, which
is then a step of the model's own with code 0 (log 65). -/
def stepsFor (q : PowerSeq) (s : State) : List Nat :=
  let ds := q.bring.filter (· < 16)
  let down := (List.range 10).all fun d => s.unitSt d != .on
  let pre := if down && !q.bring.isEmpty then [1] ++ (if s.aon.bk0Ok then [] else [2]) ++ (if s.aon.bk1Ok then [] else [3]) else []
  let tb := if ds.contains 0 then [4, 5, 6, 7, 8] else []
  let bank := if ds.contains 0 ∨ !(q.bring.any (16 ≤ ·)) then [] else [0]
  bank ++ pre ++ tb ++ ((List.range 10).filter fun d => d != 0 && ds.contains d).map (8 + ·)

/-- The fixed delay of a step code in ns, and the limit of the open time it takes beside it; the switches of banks have 50 µs
(R447, Table 13-5). -/
def stepDelay (c : Nat) : Nat × Nat :=
  match c with
  | 0 => (0, 50000) | 1 => (10000, 10000000) | 2 | 3 => (0, 2000000)
  | 4 => (10000, 0) | 5 => (500, 0) | 6 => (4000, 0)
  | 7 => (0, 5000000) | 8 => (0, 200000)
  | 11 => (20000, 0) | 15 => (50000, 0) | 17 => (30000, 0)
  | _ => (14500, 0)

/-- A step that has completed has taken its delay, and an open time within its limit (log 3). -/
def stepTime (c : Nat) (s : State) : State :=
  let d := stepDelay c
  let r := if d.2 = 0 then (0, s) else let f := freeNat s; (f.1 % (d.2 + 1), f.2)
  setSeq (fun q => { q with time := q.time + d.1 + r.1 }) r.2

/-- The units of PWR_WAKE_SET that are not ON come ON by their steps (R449, R450). With none of them the wake is complete at
once. -/
def wakeRun (s : State) : State :=
  let q : PowerSeq := { kind := .wake, bring := unitCodes.filter fun c => bit s.aon.wakeSet c && s.unitSt c != .on }
  let st := stepsFor q s
  let s := setAon (fun a => { a with wakeDue := false, aonOnly := false }) s
  if st.isEmpty then setAon (fun a => { a with wakeTime := 0 }) s
  else beginStep (setAon (fun a => { a with seq := some { q with steps := st } }) s)

/-- A wake starts, unless one is running; after a running POWER_SET or DOMAIN_RESET (R449, log 90). None starts while a reset
holds (R456). -/
def startWake (s : State) : State :=
  if s.aon.held || s.aon.porHold then s
  else match s.aon.seq with
    | some q => if q.kind == .wake then s else setAon (fun a => { a with wakeDue := true }) s
    | none => wakeRun s

/-- The answer of a sequence: a wake that completes records its duration in units of 10 µs, saturating; a command is answered,
POWER_SET with NVM_FAIL where the wear of a hall was not committed and so the hall has stayed ON (R480, Table 12-5). -/
def seqReply (q : PowerSeq) (s : State) : State :=
  match q.kind with
  | .wake => setAon (fun a => { a with wakeTime := min 65535 (q.time / 10000) }) s
  | .set => finish q.pkt (if q.failed then { status := .domainOff }
      else { status := if q.unsaved.isEmpty then .ok else .nvmFail, words := [pwrState s, pwrBank s] }) s
  | .reset _ => finish q.pkt { status := if q.failed then .domainOff else .ok } s

/-- A wake that was due behind a sequence now ended starts. -/
def wakeNext (s : State) : State := if s.aon.wakeDue && s.aon.seq.isNone then startWake s else s

/-- The sequence completes: the work of the domains that arrived starts (R445). -/
def seqEnd (s : State) : State :=
  match s.aon.seq with
  | none => s
  | some q =>
    let s := setAon (fun a => { a with seq := none }) s
    wakeNext (seqReply q (aonIdle (each q.arrived.reverse arrivalWork s)))

/-- Phase 2, or a wake, begins. -/
def bringUp (s : State) : State :=
  match s.aon.seq with
  | none => s
  | some q =>
    let st := stepsFor q s
    if st.isEmpty then seqEnd s else beginStep (setSeq (fun q => { q with steps := st }) s)

/-- One unit leaves ON, or goes between RET and OFF (R442 phase 1): true where its entry into RET must still complete, from OFF as
from ON (R446). -/
def leaveUnit (c : Nat) (ret : Bool) (s : State) : Bool × State :=
  let s := if c < 16 then shed c ret s else shedBank (c - 16) ret s
  if ret then (true, setUnit c .trans s) else (false, changed c false (setUnit c .off s))

/-- Phase 1 from the head of the list on, up to the first entry into RET. -/
def leaveAll (l : List (Nat × Bool)) (s : State) : State :=
  match l with
  | [] => bringUp (setSeq (fun q => { q with leave := [] }) s)
  | x :: rest =>
    let r := leaveUnit x.1 x.2 s
    if r.1 then setSeq (fun q => { q with leave := rest, retWait := [x.1] }) r.2 else leaveAll rest r.2

/-- A page program in progress completes before NVM leaves ON (R432, R494). -/
def nvmQuiesce (s : State) : State :=
  let s := nvmHold s
  if s.nvm.busy then pageDone true s else s

/-- Phase 1 begins. -/
def leaveBegin (q : PowerSeq) (s : State) : State :=
  let s := setSeq (fun q => { q with lastTrain := false }) s
  leaveAll q.leave (if q.leave.any fun x => x.1 == 9 then nvmQuiesce s else s)

/-- Cells of the halls that leave and that have trains. -/
def lastCells (q : PowerSeq) (s : State) : List Nat :=
  (List.range 63).filter fun k => s.installed k && s.ringUp (k / 7) && q.leave.any fun x => x.1 == 4 + k / 21

/-- The cell's frames carry its PAT_FAULT from the coming departure on (R444). -/
def lastPattern (k : Nat) (s : State) : State :=
  let p := s.patFault k
  s.setCell k fun c => { c.endRestore with req := none, retry := false, act := p }

/-- What a hall that stays ON needs ON with it (Table 13-4, R45). -/
def hallKeeps (role h : Nat) : List Nat :=
  (4 + h) :: domNeeds role (4 + h) ++ (bankNeeds 1 ++ bankNeeds (4 + h)).map (16 + ·)

/-- The halls whose wear was not committed stay ON, and what they need with them; the rest of the request goes on (R267, R480,
Table 12-5). -/
def PowerSeq.sparing (role : Nat) (q : PowerSeq) : PowerSeq :=
  let stay := q.unsaved.flatMap (hallKeeps role)
  { q with leave := q.leave.filter fun x => !stay.contains x.1 }

/-- The journal of the halls that leave is written, or has failed (R267): phase 1 begins, with the departure of the halls' last
deliver trains (R444). -/
def journalled (s : State) : State :=
  match s.aon.seq with
  | none => s
  | some q =>
    if q.leave.isEmpty ∨ 0 < q.journalWait ∨ !q.retWait.isEmpty ∨ !q.steps.isEmpty ∨ q.lastTrain then s
    else
      let q := q.sparing s.aon.straps.role
      let s := setAon (fun a => { a with seq := some q }) s
      let ks := lastCells q s
      if ks.isEmpty then leaveBegin q s
      else each ks lastPattern (setSeq (fun q => { q with lastTrain := true }) s)

/-- The deliver trains of a period have left: halls that waited for their last ones fall silent (R444). -/
def lastTrainGone (s : State) : State :=
  match s.aon.seq with
  | some q => if q.lastTrain then leaveBegin q s else s
  | none => s

/-- L(n + 1) - DELIVER_LEAD: the deliver trains leave, and the last ones of a hall end its stay ON (R444). -/
def execDeliverDeparture (bad skip : BitVec 10) (s : State) : Res :=
  .next (if !s.isOn .atrium || !s.isOn .timebase then s else lastTrainGone (departSampled bad skip s))

/-! POWER_SET (R442, R443). -/

/-- Points the measurement map, its products and its transform write. -/
def analogPoints (s : State) : List Nat :=
  let ms := (List.range 64).filter fun m => bit (s.mapCfg m) 31 && decide (fld (s.mapCfg m) 29 2 < 3)
  ms.map (fun m => fld (s.mapCfg m) 0 7) ++ (if bit (s.reg 0x22040) 31 then [64, 65, 66, 67, 68] else [])

/-- A loop that is enabled names a point ANALOG writes while a hall is ON (R317). -/
def State.analogNeeded (s : State) : Bool :=
  let pts := analogPoints s
  let names := fun (x : Slot) => x.en && [x.rSrc, x.ySrc, x.ffSrc].any fun p =>
    p.toNat / 1024 == 63 && pts.contains (p.toNat % 1024)
  s.anyHallOn && (List.range 64).any fun n => (s.ctx n).slots.toList.any names

/-- A cell of hall `h` is in N_active. -/
def State.hallBusy (s : State) (h : Nat) : Bool := (List.range 21).any fun i => s.isActive (21 * h + i)

/-- Target of unit `c` in the two words of POWER_SET, 3 for unchanged. -/
def target (w : List Word) (c : Nat) : Nat := if c < 16 then fld (wd w 0) (2 * c) 2 else fld (wd w 1) (2 * (c - 16)) 2

/-- What POWER_SET refuses with STATE (Table 13-4, R45, R443). -/
def powerRefused (w : List Word) (s : State) : Bool :=
  let on := fun (c : Nat) => if target w c = 3 then s.unitSt c == .on else target w c == 2
  let was := fun (c : Nat) => s.unitSt c == .on
  !depsOk s.aon.straps.role on (fun g => on (16 + g))
    || [0, 1, 2].any (fun h => was (4 + h) && !on (4 + h) && s.hallBusy h)
    || ([0, 1, 2].any (fun h => !was (4 + h) && on (4 + h))
      && (s.twin.strapErr || s.stair.posErr || (!s.newel && !s.stair.sync)))
    || (was 7 && !on 7 && s.analogNeeded)
    || (!was 9 && on 9 && !s.dieCool)

/-- Units that leave, in the reverse of the restore order, each with RET or OFF. -/
def leaving (w : List Word) (s : State) : List (Nat × Bool) :=
  let change := unitCodes.filter fun c =>
    target w c < 2 && stCode (s.unitSt c) != target w c
  ((change.filter (· < 16)).reverse ++ change.filter (16 ≤ ·)).map fun c => (c, target w c == 1)

/-- POWER_SET accepted: the halls that leave are journalled first. With NVM not ON none of their records is committed, and they
stay ON (R480). -/
def powerBegin (w : List Word) (s : State) : State :=
  let l := leaving w s
  let halls := [0, 1, 2].filter fun h => s.hallOn h && l.any fun x => x.1 == 4 + h
  let ks := halls.flatMap fun h => ((List.range 21).map (21 * h + ·)).filter s.installed
  let on := s.isOn .nvm
  let q : PowerSeq := { kind := .set, leave := l, journalWait := if on then 2 * ks.length else 0, pkt := s.host.cur
                        unsaved := if on then [] else ks.map (· / 21)
                        bring := unitCodes.filter fun c => target w c == 2 && s.unitSt c != .on }
  let s := wait (setAon (fun a => { a with seq := some q }) s)
  let s := if on then each ks (fun k s => journalHist k .journal (journalSummary k .journal s)) s else s
  if l.isEmpty then bringUp s else journalled s

/-- POWER_SET, on any transport (R442), in a device that no reset holds: one that RESETn or power-on reset holds stays as it is
(R435, R456, R457). -/
def powerSet (w : List Word) (s : State) : State :=
  if s.aon.held || s.aon.porHold then s
  else if w.length ≠ 2 then refuse .badLength s
  else if s.aon.seq.isSome then refuse .busy s
  else if powerRefused w s then refuse .state s
  else powerBegin w s

/-- POWER_SET given to this device itself: a standby in step or rejoining changes no domain by it, and one in state 3 only while none
of its halls is ON (R338, R443). A command forwarded by the active is `powerSet` (Machine/Dispatcher.lean). -/
def execPowerSet (w : List Word) (s : State) : Res :=
  .next <|
    let changes := !(leaving w s).isEmpty || unitCodes.any fun c => target w c == 2 && s.unitSt c != .on
    if s.standby && (s.twin.state != 3 || s.anyHallOn) && changes && w.length == 2 && !s.aon.held && !s.aon.porHold
        && s.aon.seq.isNone then refuse .state s
    else powerSet w s

/-- A domain or bank has completed its entry into RET (R446). -/
def execRetEntryDone (d : Fin 32) (s : State) : Res :=
  .next <| match s.aon.seq with
    | none => s
    | some q =>
      if !q.retWait.contains d.val then s
      else
        let s := takeRetCrc d.val (changed d.val false (setUnit d.val .ret s))
        let l := q.leave
        leaveAll l (setSeq (fun q => { q with retWait := [] }) s)

/-! Wake (R449 to R452). -/

def execWakeGo (s : State) : Res := .next (startWake s)

/-- A domain has arrived at ON. One whose shadow check failed comes up with reset defaults (R447). -/
def arriveAt (d : Nat) (bad : Word) (s : State) : State :=
  let ret := match s.aon.seq with
    | some q => q.took.any fun x => x.1 == d && x.2
    | none => false
  let rst := match s.aon.seq with
    | some q => q.kind != .wake && q.kind != .set
    | none => false
  let lost := ret && bit bad d
  let s := if lost then markLost d (shed d false s) else s
  let s := setSeq (fun q => { q with arrived := d :: q.arrived }) (setUnit d .on s)
  let s := changed d rst (tellLost (arrive d (!ret || lost) s))
  if d = 9 then nvmDue s else s

/-- The next step, or the end. -/
def nextStep (s : State) : State :=
  let s := setSeq (fun q => { q with steps := q.steps.tail }) s
  match s.aon.seq with
  | some q => if q.steps.isEmpty then seqEnd s else beginStep s
  | none => s

/-- The running sequence is the DOMAIN_RESET of domain `d`. -/
def State.resetting (s : State) (d : Dom) : Bool :=
  match s.aon.seq with
  | some q => q.kind == .reset d
  | none => false

/-- What the end of step code `c` brings. GROSS ends with a DOMAIN_RESET of TIMEBASE alone, and in the two resets (R89). The check of TIMEBASE's shadow bank belongs to step code 6, and its arrival to
step code 8. -/
def stepEffect (c : Nat) (bad : Word) (ref : Fin 4) (s : State) : State :=
  if c = 2 then setAon (fun a => { a with bk0Ok := true, freqUse := a.buckFreq, ilim0Use := a.ilim0 }) s
  else if c = 3 then setAon (fun a => { a with bk1Ok := true, freqUse := a.buckFreq, ilim1Use := a.ilim1 }) s
  else if c = 0 ∨ c = 4 then checkBanks bad s
  else if c = 6 then
    let ret := match s.aon.seq with
      | some q => q.took.any fun x => x.1 == 0 && x.2
      | none => false
    if ret && bit bad 0 then tellLost (markLost 0 (shed 0 false s)) else s
  else if c = 7 then { s with tb := { s.tb with refRate := ref.val } }
  else if c = 8 then arriveAt 0 0 { s with tb := { s.tb with gross := s.tb.gross && !s.resetting .timebase } }
  else if 9 ≤ c then arriveAt (stepDom c) bad s
  else s

/-- Domains that need domain `d` (Table 13-4), directly or not. -/
def dependents (role d : Nat) : List Nat :=
  if d = 0 then [1, 2, 3, 4, 5, 6, 7, 8, 9]
  else if d = 1 then [2, 3, 4, 5, 6, 7, 8, 9]
  else if d = 2 then [4, 5, 6]
  else if d = 3 ∧ role ≠ 0 then [4, 5, 6]
  else []

/-- FAIL, STEP and WAKE_FAIL (R451). -/
def markFail (c : Nat) (s : State) : State :=
  let s := setAon (fun a => { a with wakeFail := true, wakeStep := c }) s
  let s := setSeq (fun q => { q with failed := true }) s
  raise 167 (BitVec.ofNat 32 c) (logRecord 167 0x20 0xFFFF (BitVec.ofNat 32 c) (s.safe.cause.setWidth 32) s)

/-- Every logic domain and every bank that is ON goes OFF, in the reverse of the restore order (R452). -/
def allOff (s : State) : State :=
  let off := fun (c : Nat) (s : State) => if s.unitSt c == .on then (leaveUnit c false s).2 else s
  each ((List.range 16).map (16 + ·)) off (each (List.range 10).reverse off s)

/-- Every unit taken goes back to where it came from (R452). -/
def giveBack (took : List (Nat × Bool)) (s : State) : State :=
  each took (fun x s =>
    if x.2 then takeRetCrc x.1 (setUnit x.1 .ret s)
    else setUnit x.1 .off (if x.1 < 16 then shed x.1 false s else shedBank (x.1 - 16) false s)) s

/-- A failure at step code 1, 2, 3, 7 or 8 (R452). A wake that ends so has not completed and leaves TIME as it was. -/
def failShared (s : State) : State :=
  match s.aon.seq with
  | none => s
  | some q =>
    let rst := q.kind != .wake && q.kind != .set
    let s := if rst then setUnit 0 .off (shed 0 false (allOff s)) else giveBack q.took s
    let ret := (List.range 10).any (fun d => s.unitSt d == .ret) || (List.range 16).any fun g => s.unitSt (16 + g) == .ret
    let none_ := (List.range 10).all fun d => s.unitSt d != .on
    let s := setAon (fun a => { a with
      seq := none, aonOnly := none_, bk0Ok := a.bk0Ok && ret, bk1Ok := a.bk1Ok && ret }) s
    let s := aonIdle s
    wakeNext (if q.kind == .wake then s else seqReply { q with failed := true } s)

/-- Any other failure: that domain goes OFF, its dependents are left, the other steps go on (R451). Banks that closed their switches
with step code 4 come ON all the same; no operand says which of their checks failed (log 3). -/
def failDomain (c : Nat) (s : State) : State :=
  let d := stepDom c
  let s := setUnit d .off (shed d false s)
  let skip := dependents s.aon.straps.role d
  let s := if c = 4 then let r := freeWord s; checkBanks r.1 r.2 else s
  let s := setSeq (fun q => { q with steps := q.steps.filter fun x =>
    x == c || x == 0 || (!(d == 0 && x < 9) && !skip.contains (stepDom x)) }) s
  nextStep s

/-- The running step fails (R451, R452). The switches of banks are no step of Table 13-5 and do not fail (R447). -/
def stepFail (s : State) : State :=
  match s.aon.seq with
  | none => s
  | some q => match q.steps with
    | [] => s
    | c :: _ =>
      if c = 0 then s
      else if c = 1 ∨ c = 2 ∨ c = 3 ∨ c = 7 ∨ c = 8 then failShared (markFail c s)
      else failDomain c (markFail c s)

/-- The running step completes (R450); step code 7 without a reference of Table 02-3 fails (R77). -/
def execWakeStepDone (bad : Word) (ref : Fin 4) (s : State) : Res :=
  .next <| match s.aon.seq with
    | none => s
    | some q => match q.steps with
      | [] => s
      | c :: _ =>
        if c = 7 ∧ ref = 0 then stepFail s
        else nextStep (stepEffect c bad ref (stepTime c s))

def execWakeStepFail (s : State) : Res := .next (stepFail s)

/-! POWER_GET, VCORE_SET and DOMAIN_RESET. -/

def pwrWakeStatus (s : State) : Word :=
  pack [(31, 1, b2n s.aon.wakeFail), (30, 1, b2n s.aon.aonOnly), (16, 5, s.aon.wakeStep), (0, 16, s.aon.wakeTime)]
def pwrReset (s : State) : Word :=
  pack [(31, 1, b2n s.aon.por), (30, 1, b2n s.aon.pinReset), (29, 1, b2n s.aon.stuck), (28, 1, b2n s.aon.held),
    (0, 16, s.aon.holdMs)]
def pwrVcore (s : State) : Word := pack [(8, 1, b2n s.aon.vcoreMoving), (0, 6, s.aon.vcoreCode)]
def pwrMon (s : State) : Word :=
  let a := s.aon
  pack [(7, 1, b2n a.ilim1Now), (6, 1, b2n a.ilim0Now), (5, 1, b2n a.vddaBad), (4, 1, b2n a.v3p3Bad),
    (3, 1, b2n a.vcoreBad), (2, 1, b2n a.vinOv), (1, 1, b2n a.vinUv)]
def pwrBuck (s : State) : Word :=
  pack [(31, 1, b2n s.aon.bk0Ok), (30, 1, b2n s.aon.bk1Ok), (16, 8, s.aon.buckFreq), (8, 6, s.aon.ilim1), (0, 6, s.aon.ilim0)]
def pwrWakeCtrl (s : State) : Word :=
  pack [(30, 1, b2n s.aon.wakeOnAddr), (29, 1, b2n s.aon.auto), (28, 1, b2n s.aon.seq.isSome)]

/-- The VDDA regulator is on while ANALOG is ON or in transition (R437). -/
def State.vddaOn (s : State) : Bool := s.isOn .analog || s.domSt .analog == .trans

/-- POWER_GET, on any transport (R503). -/
def execPowerGet (w : List Word) (s : State) : Res :=
  .next <|
    if !w.isEmpty then refuse .badLength s
    else
      let v := s.aon.volts
      reply .ok [pwrState s, pwrBank s, pwrWakeStatus s, s.aon.retLost, pwrReset s, pwrMon s, pwrVcore s,
        pack [(0, 16, v.vin), (16, 16, v.vcore)], pack [(0, 16, v.v3p3), (16, 16, if s.vddaOn then v.vdda else 0)]] s

/-- A new VCORE setpoint (R438): what it refuses, and the setpoint in force. -/
def vcoreCheck (v : Word) (s : State) : Status :=
  if 32 < v.toNat then .range else if v.toNat < 8 ∧ s.anyHallOn then .state else .ok

def vcoreSet (v : Word) (s : State) : State :=
  setAon (fun a => { a with vcoreCode := v.toNat, vcoreMoving := a.vcoreMoving || a.vcoreCode != v.toNat }) s

/-- VCORE as measured at a moment when it lies within 10 mV of its setpoint: open within that (R438, log 3). -/
def vcoreNow (s : State) : State :=
  let r := freeNat s
  setAon (fun a => { a with volts := { a.volts with vcore := 710 + 5 * a.vcoreCode + r.1 % 21 } }) r.2

/-- VCORE_SET, of W0[5:0] (R10): the reply waits until VCORE lies within 10 mV of the new setpoint (R438). -/
def execVcoreSet (w : List Word) (s : State) : Res :=
  .next <| command (w.length == 1) (fun s =>
    let v := wd w 0 &&& 0x3F#32
    match vcoreCheck v s with
    | .ok =>
      let s := vcoreSet v s
      if s.aon.vcoreMoving then
        let p := s.host.cur
        wait (setAon (fun a => { a with vcoreWait := a.vcoreWait ++ [p] }) s)
      else
        let s := vcoreNow s
        reply .ok [pack [(0, 16, s.aon.volts.vcore)]] s
    | st => refuse st s) s

/-- VCORE has reached its setpoint: the commands that waited are answered with its measured value. -/
def execVcoreSettled (mv : Nat) (s : State) : Res :=
  .next <|
    if s.aon.porHold || !s.aon.vcoreMoving then s
    else
      let ps := s.aon.vcoreWait
      let s := setAon (fun a => { a with vcoreMoving := false, vcoreWait := [], volts := { a.volts with vcore := mv } }) s
      each ps (fun p s => finish p { status := .ok, words := [pack [(0, 16, mv)]] } s) s

/-- Where DOMAIN_RESET is accepted (Table 13-6). -/
def resetOk (d : Nat) (s : State) : Bool :=
  match d with
  | 0 | 2 => !s.anyHallOn
  | 1 => false
  | 3 => s.aon.straps.role == 0 || !s.anyHallOn
  | 4 | 5 | 6 => (s.hall (d - 4)).err || !s.hallBusy (d - 4)
  | 7 => !s.analogNeeded
  | _ => true

/-- What DOMAIN_RESET ends of a hall beyond what any leaving of ON does: its error, its epoch and its cell reference (R34,
R209, R240). -/
def HallS.afterReset (x : HallS) : HallS := { x with err := false, epoch := 0, vrefSet := false }

/-- The domain's registers and running state return to reset values, and it comes up by its own steps (R454). -/
def resetDomain (d : Nat) (s : State) : State :=
  let s := if d = 9 then nvmQuiesce s else s
  let s := shed d false s
  let s := if 4 ≤ d ∧ d < 7 then s.setHall (d - 4) HallS.afterReset else s
  let s := if d = 7 then { s with meas := {} } else s
  let p := s.host.cur
  let q : PowerSeq := { kind := .reset (domOf d), bring := [d], took := [(d, false)], pkt := p
                        steps := if d = 0 then [4, 5, 6, 7, 8] else [8 + d] }
  wait (setUnit d .trans (setAon (fun a => { a with seq := some q }) s))

/-- DOMAIN_RESET (R454). -/
def execDomainReset (w : List Word) (s : State) : Res :=
  .next <| command (w.length == 1) (fun s =>
    let d := fld (wd w 0) 0 4
    if 9 < d then refuse .badParam s
    else if !s.isOn (domOf d) then refuse .domainOff s
    else if s.aon.seq.isSome then refuse .busy s
    else if !resetOk d s then refuse .state s
    else resetDomain d s) s

/-! Resets (R435, R455 to R457). -/

/-- What NVM holds through a power-on reset. -/
def Nvm.kept (v : Nvm) : Nvm :=
  { recs := v.recs, heads := v.heads, spare := v.spare, eraseCounts := v.eraseCounts, spareLow := v.spareLow
    roundLeft := v.roundLeft, eraseAgain := v.erasing.toList ++ v.eraseQ ++ v.eraseAgain }

/-- Power-on reset: every AON register at its reset value, every domain and bank OFF; NVM keeps its contents, and RESETn its
level. -/
def porState (s : State) : State :=
  { pending := s.pending, out := s.out, freeCtr := s.freeCtr, nvm := s.nvm.kept, aon := { held := s.aon.held } }

def execPowerOnReset (s : State) : Res := .next (porState s)

/-- What a position or address ball reads: between the levels of Table 16-4 either value, which is open (log 3). -/
def strapBit (mv : Nat) (free : Nat) : Nat := if mv ≤ 800 then 0 else if 2000 ≤ mv then 1 else free % 2

/-- What TWIN_ROLE reads, in the coding of TWIN_STATUS.STRAP: between two bands of Table 16-4 one of the two, which is open. -/
def strapRole (mv : Nat) (free : Nat) : Fin 3 :=
  if mv ≤ 800 then 0
  else if mv < 1200 then (if free % 2 = 0 then 0 else 2)
  else if mv ≤ 2100 then 2
  else if mv < 2500 then (if free % 2 = 0 then 2 else 1)
  else 1

/-- The straps are sampled (R532, R533). -/
def sampleStraps (x : StrapLevels) (s : State) : State :=
  let q := freeNat s
  let num := fun (l : List Nat) (free : Nat) =>
    ((l.zip (List.range 4)).map fun y => 2 ^ y.2 * strapBit y.1 (free / 2 ^ y.2)).sum
  setAon (fun a => { a with straps := {
    role := strapRole x.role (q.1 / 2 ^ 6), pos := Fin.ofNat 16 (num x.pos.toList q.1)
    addr := Fin.ofNat 4 (num x.addr.toList (q.1 / 2 ^ 4)) } }) q.2

/-- Power-on reset ends: the straps are sampled, and with AUTO a wake starts, unless RESETn is low (R331, R363, R449, R456). -/
def execPorRelease (x : StrapLevels) (s : State) : Res :=
  .next <|
    if !s.aon.porHold then s
    else
      let s := setAon (fun a => { a with porHold := false, rcRuns := true }) (sampleStraps x s)
      rcIdle (if s.aon.auto then startWake s else s)

/-- What waits for an NVM record is answered no more: its queue is empty (R478). -/
def dropAnswers (s : State) : State :=
  setNvm (fun v => { v with jobs := v.jobs.map fun j => { j with after := match j.after with
    | .confirm _ => .none
    | x => x } }) s

/-- RESETn low (R456), which also ends an atrium error (R37) and, with every other running state, a hall's (log 76): every domain
and bank that is ON or in transition goes OFF; those in RET stay. ATRIUM's queues are empty without a reply before anything else
goes (R478). -/
def resetAll (s : State) : State :=
  let off := fun (c : Nat) (s : State) =>
    let x := s.unitSt c
    if x = .on ∨ x = .trans then setUnit c .off (if c < 16 then shed c false s else shedBank (c - 16) false s) else s
  let s := each ((List.range 16).map (16 + ·)) off (each (1 :: [9, 8, 7, 6, 5, 4, 3, 2, 0]) off (dropAnswers s))
  let s := { s with tb := { s.tb with gross := false }, atr := { s.atr with err := false }, meas := resetRoles s.meas
                    halls := s.halls.map fun x => { x with err := false } }
  aonIdle (setAon (fun a => { a with seq := none, wakeDue := false, held := true, vcoreWait := [] }) s)

def execResetnAssert (s : State) : Res := .next (if s.aon.held then s else resetAll s)

/-- RESETn rises (R457). During power-on reset that alone changes nothing else. -/
def execResetnRelease (x : StrapLevels) (holdMs : Nat) (s : State) : Res :=
  .next <|
    if !s.aon.held then s
    else if s.aon.porHold then setAon (fun a => { a with held := false }) s
    else
      let ms := min 65535 holdMs
      let long := decide (1000 < holdMs)
      let s := setAon (fun a => { a with
        held := false, pinReset := true, holdMs := ms, stuck := a.stuck || long }) (sampleStraps x s)
      let s := if long then
          raise 224 (BitVec.ofNat 32 ms) (logRecord 224 0x20 0xFFFF (BitVec.ofNat 32 ms) (s.safe.cause.setWidth 32) s)
        else s
      if s.aon.auto then rcIdle (startWake (setAon (fun a => { a with rcRuns := true }) s)) else s

/-- AON's RC oscillator runs again after a match: the management port takes the data of the coming transfer (R448, log 107). -/
def execRcOscillatorRuns (s : State) : Res :=
  .next (if s.aon.porHold then s else setAon (fun a => { a with rcRuns := true }) s)

/-! Supplies (R439, R440). -/

/-- The fault of a supply with its event, or its clearing. -/
def markSupply (p : Supply) (mv : Nat) (bad : Bool) (s : State) : State :=
  let low := decide (mv < 10000)
  setAon (fun a => match p with
    | .vin => { a with volts := { a.volts with vin := mv }, vinUv := bad && low, vinOv := bad && !low }
    | .vcore => { a with volts := { a.volts with vcore := mv }, vcoreBad := bad }
    | .v3p3 => { a with volts := { a.volts with v3p3 := mv }, v3p3Bad := bad }
    | .vdda => { a with volts := { a.volts with vdda := mv }, vddaBad := bad }) s

def supplyEvent (p : Supply) (mv : Nat) (s : State) : State :=
  let w : Word := BitVec.ofNat 32 mv
  match p with
  | .vin => raise (if mv < 10000 then 206 else 207) w s
  | .vcore => raise 208 w s
  | .v3p3 => raise 209 w s
  | .vdda => raise 209 (w ||| 0x80000000#32) s

/-- A buck of the supply in fault may be limiting its current; no command says whether it is (log 3). -/
def limitNow (p : Supply) (s : State) : State :=
  let r := freeNat s
  match p with
  | .vcore => setAon (fun a => { a with ilim0Now := r.1 % 2 == 1 }) r.2
  | .v3p3 => setAon (fun a => { a with ilim1Now := r.1 % 2 == 1 }) r.2
  | _ => s

/-- Entries into RET not complete when VIN_UV arises count as OFF (R446). -/
def dropRet (s : State) : State :=
  match s.aon.seq with
  | none => s
  | some q =>
    if q.retWait.isEmpty then s
    else
      let s := each q.retWait (fun c s =>
        changed c false (setUnit c .off (if c < 16 then shed c false s else shedBank (c - 16) false s))) s
      leaveAll q.leave (setSeq (fun q => { q with retWait := [] }) s)

/-- A supply has been outside its window for its filter time. VDDA is monitored while ANALOG is ON. With VIN_UV no NVM operation
starts, not even for the record of this fault (R440). -/
def execSupplyFault (p : Supply) (mv : Nat) (s : State) : Res :=
  .next <|
    if s.aon.porHold || (p == .vdda && !s.isOn .analog) then s
    else
      let was := s.aon.vinUv
      let s := markSupply p mv true s
      let s := if s.aon.vinUv then nvmHold s else s
      let s := setCause 15 (limitNow p (supplyEvent p mv s))
      if s.aon.vinUv && !was then dropRet s else s

/-- A supply has been back inside its window for 1 ms. -/
def execSupplyFaultClear (p : Supply) (mv : Nat) (s : State) : Res :=
  .next <|
    if s.aon.porHold then s
    else
      let s := markSupply p mv false s
      match p with
      | .vin => if s.therm.shut then s else nvmGo s
      | .vcore => setAon (fun a => { a with ilim0Now := false }) s
      | .v3p3 => setAon (fun a => { a with ilim1Now := false }) s
      | .vdda => s

/-! Debug halt (R230). -/

def execDebugHalt (s : State) : Res :=
  .next <|
    if !s.isOn .atrium || s.atr.halted then s
    else
      let t := s.now
      raise 225 0 (setCause 13 { s with atr := { s.atr with halted := true, haltAt := t } })

def execHaltRelease (s : State) : Res :=
  .next <|
    if s.isOn .atrium && s.atr.halted then
      let t := s.now
      { s with atr := { s.atr with halted := false, releaseAt := t } }
    else s

/-! Housekeeping and die shutdown (R417, R431, R439). -/

/-- The round at the next multiple of HK_PERIOD: thermal supervision, then the supply readings it took are published. None
runs during a debug halt (Table 12-5). -/
def execHkRound (th : Vector PinInput 4) (rails : Rails) (vdda : Nat) (s : State) : Res :=
  .next <|
    let volts : Volts := { vin := rails.vin, vcore := rails.vcore, v3p3 := rails.v3p3, vdda := vdda }
    if !s.isOn .atrium || !s.isOn .timebase || s.atr.halted then s
    else
      let p := s.hkPeriod * 1000000
      let next := match s.therm.hkLast with
        | some l => max (gridUp p s.now) ((l / p + 1) * p)
        | none => gridUp p s.now
      let s := advanceTo next s
      let s := wearParams (setAon (fun a => { a with volts := volts }) s)
      let s := thermalRound th { s with therm := { s.therm with hkLast := some next } }
      { s with therm := { s.therm with hkVolts := { volts with vdda := if s.vddaOn then vdda else 0 } } }

/-- The shutdown decision of die sensor `d` (R431, R432). No NVM operation starts from it on, and AON holds its own fault-log
record (R433). -/
def dieShutdown (d : Nat) (s : State) : State :=
  let s := if s.isOn .nvm then nvmHold s else s
  let s := if s.isOn .nvm || s.domSt .nvm == .trans then setNvm (fun v => { v with offDue := true }) s else s
  let s := raise 205 (BitVec.ofNat 32 d) (setCause 14 { s with therm := { s.therm with shut := true } })
  if s.isOn .nvm && !s.nvm.busy then journalled (nvmDue s) else s

/-- A conversion of a die sensor against its shutdown level. While the die stays hot its source reports it again, so cause THERM
is set anew where an arrival of SAFETY had cleared it (R390). -/
def execDieShutdownCompare (d : Fin 4) (t : Reading) (s : State) : Res :=
  .next <|
    if !s.isOn .atrium then s
    else
      let s := { s with therm := { s.therm with die := s.therm.die.set d t } }
      let hot := match t with
        | .val x => decide (s.shutLevel ≤ x)
        | _ => false
      if hot && !s.therm.shut then dieShutdown d.val s
      else if hot then setCause 14 s
      else if s.therm.shut && s.dieCool then nvmGo { s with therm := { s.therm with shut := false } }
      else s

/-! NVM page programs. -/

/-- A page program ends: a commit may let a POWER_SET go on, and NVM goes OFF where a shutdown waited for the page (R432). -/
def execNvmProgramDone (ok : Bool) (s : State) : Res :=
  .next <|
    let s := pageDone ok s
    journalled (nvmDue s)

/-! Gallery scrub (R46, R47, Table 01-7). -/

/-- The containment of an uncorrectable error by the owner of its word (Table 01-7). Queue storage lies in G10 and G11, where
R35 names such an error an atrium error as well: the model takes both, so that the packet is discarded and answered INTERNAL
when its turn comes, and ATRIUM_ERR is raised (log 76). A telemetry frame that is not sent leaves FSER and DROP as they are (log 95). -/
def contain (o : EccOwner) (s : State) : State :=
  match o with
  | .tread k => treadError k.val s
  | .wear k => wearLoad k.val s
  | .hallWork h => hallError h.val 4 s
  | .capture w => { s with mem := memWrites s.mem (bankBase 6 + 4 * (w % 262144)) (leBytes 4 F32.qnan.toNat) }
  | .queue q i => atriumError 1 (s.setQueue q.val fun x => { x with pkts := x.pkts.modify i fun p => { p with ecc := true } })
  | .telemetry n i => { s with streams := vmod s.streams n.val fun x => { x with due := x.due.eraseIdx i } }
  | .atrium => atriumError 1 s

def execGalleryScrub (g : Fin 16) (kind : EccKind) (owner : EccOwner) (s : State) : Res :=
  .next <|
    if !s.isOn .atrium || !s.bankOn g.val || !owner.inBank g.val then s
    else match kind with
      | .corr => raise 164 (BitVec.ofNat 32 g.val) s
      | .uncorr => contain owner (raise 165 (BitVec.ofNat 32 g.val) s)

end Sys2Proof.Machine
end

