-- ==== Sys2Proof/Machine/Stair.lean ====
section
/-! DEFINITION. The stairwell: time and beacons, stair-scope landings, shared points, remote reads and telemetry, and the
loss of the newel (chapter 10), with LOAD_ALL of both scopes (R221, R224). -/

namespace Sys2Proof.Machine

open Sys2Proof

def setStair (f : Stair → Stair) (s : State) : State := { s with stair := f s.stair }

def State.downstream (s : State) : Bool := s.stairRuns && s.stair.downUp

/-- The data word of STAIR_LINK. -/
def stairLinkWord (s : State) : Word :=
  pack [(0, 1, b2n s.stair.upUp), (1, 1, b2n s.stair.downUp), (2, 1, b2n s.stair.posErr)]

/-- A position fault is found (R366). -/
def posFault (s : State) : State :=
  if s.newel || s.stair.posErr then s
  else
    let s := setStair (fun x => { x with posErr := true }) s
    raise 215 (stairLinkWord s) s

/-- An active of a pair that this word's traffic is for, or a simplex device (R383). -/
def State.stairActs (s : State) : Bool := s.stairRuns && !s.standby

/-! Frames that arrive (R366, R368, R369). -/

/-- A frame of this type can arrive by this way: over a port that is up, or from the standby that relays what an active cannot hear
itself: a follower whose time comes that way (R384), or a newel, whose chain W ends at its standby. What streams need passes between
the devices of a pair either way (R381, log 51). -/
def State.stairHears (s : State) (type : Byte) (v : StairVia) : Bool :=
  s.stairRuns && match v with
    | .su => s.stair.upUp
    | .sd => s.stair.downUp
    | .twin => s.linkUp && (type == 0x0A || s.twin.state == 1 && (s.timeFromStandby || s.newel))

/-- Two devices report one position on this device's chain: a frame that bears its own, or one whose originator was heard by
another way or at another distance (R366, log 48). -/
def samePosition (h : StairHdr) (s : State) : State :=
  if h.via = .twin ∨ h.chainW ≠ s.onChainW then s
  else
    let x := s.stair.heard.find? fun y => y.1 == h.src.val
    let s := setStair (fun y => { y with heard := (h.src.val, h.via, h.hops) :: y.heard.filter fun z => z.1 != h.src.val }) s
    if h.src.val = s.pos ∨ x.any (fun y => y.2 != (h.via, h.hops)) = true then posFault s else s

/-- A frame relayed out of the port opposite its arrival, one hop further (R369). -/
def stairRelay (h : StairHdr) (type : Byte) (payload : List Byte) (s : State) : State :=
  let x := stairFrame type h.src.val h.chainW h.dst (h.hops + 1) payload
  match h.via with
  | .su => if s.stair.downUp then emit (.stair true x) s else s
  | .sd => if s.stair.upUp then emit (.stair false x) s else s
  | .twin => s

/-- A standby hands what it hears to its active (R384). -/
def stairToActive (h : StairHdr) (type : Byte) (payload : List Byte) (s : State) : State :=
  if s.standby && s.linkUp && h.via != .twin then emit (.stairTwin (stairFrame type h.src.val h.chainW h.dst h.hops payload)) s else s

/-- A frame arrives. One whose CRC-32C fails is discarded and counted (R368). One that is not for this position alone is relayed
where `pass` has it; `act` is what it does where it is for this position. -/
def stairTake (h : StairHdr) (type : Byte) (payload : List Byte) (pass : Bool) (act : State → State) (s : State) : State :=
  if !s.stairHears type h.via then s
  else if !h.crcOk then setStair (fun x => { x with crcErr := satInc 255 x.crcErr }) s
  else
    let own := h.dst == BitVec.ofNat 8 s.pos
    let s := stairToActive h type payload (samePosition h s)
    let s := if pass && !own then stairRelay h type payload s else s
    if own || h.dst == 0xFF then act s else s

/-! STAIR_MAP. -/

/-- PRESENT and HALLS_ON; a newel's own bits are its own. -/
def State.mapPresent (s : State) : BitVec 16 :=
  if s.newel then s.stair.present ||| (1#16 <<< s.pos) else s.stair.present
def State.mapHalls (s : State) : BitVec 16 :=
  if s.newel then (s.stair.halls &&& ~~~(1#16 <<< s.pos)) ||| (if s.anyHallOn then 1#16 <<< s.pos else 0) else s.stair.halls

/-! Ports (R367). -/

/-- A port comes up or goes down (R367). A standby reports its SU port to its active, whose time may come over it (R384). -/
def execStairPortChange (sd up : Bool) (s : State) : Res :=
  .next <|
    if !s.stairRuns then s
    else
      let s := setStair (fun x =>
        let x := { x with heard := x.heard.filter fun y => y.2.1 != (if sd then StairVia.sd else StairVia.su) }
        if sd then { x with downUp := up } else { x with upUp := up }) s
      let s := if !sd && s.standby && s.linkUp then sendReport s else s
      raise 215 (stairLinkWord s) s

/-- What a transmitter of the stairwell sends while no frame is due: IDL, from LINKS on (R368). -/
def State.betweenFrames (s : State) : Option RingSet := if s.stairRuns then some .idl else none

/-! LOAD_ALL (R221, R224, R374 to R376). -/

/-- An announcement's payload on the link. -/
def announceWords (m : AnnounceMsg) : List Nat :=
  match m with
  | .loadAll t => [0, low40 t]
  | .newTc tc lx => [1, tc, low40 lx]

def announceBytes (m : AnnounceMsg) : List Byte := payloadOf ((announceWords m).map fun x => (5, x))

/-- Every position of STAIR_MAP has acknowledged. -/
def annDone (w : AnnWait) (s : State) : Bool := s.mapPresent &&& ~~~w.acked == 0

/-- The reply to a stair-scope LOAD_ALL: its status by the two masks, which it carries where a status has words at all; STATE has
LENGTH 0 (R376, R500, log 50). -/
def annReply (w : AnnWait) (s : State) : Reply :=
  let masks := pack [(0, 16, w.accept.toNat), (16, 16, w.stale.toNat)]
  let status := if s.mapPresent &&& ~~~w.accept ≠ 0 then Status.state else if w.stale ≠ 0 then .stale else .ok
  { status := status, words := if status = .state then [] else w.words ++ [masks] }

/-- The announcements that every position has acknowledged are answered. -/
def annCheck (s : State) : State :=
  let done := s.stair.anns.filter fun w => annDone w s
  let s := setStair (fun x => { x with anns := x.anns.filter fun w => !annDone w s }) s
  each done (fun w s => match w.pkt with
    | some p => finish (some p) (annReply w s) s
    | none => s) s

/-- No STATUS of a position has come: it leaves STAIR_MAP (log 51), and what waited for it alone is answered (R376). -/
def execStairMapPresenceLapse (p : Fin 16) (s : State) : Res :=
  .next (if s.isOn .atrium then annCheck (setStair (fun x => { x with present := x.present &&& ~~~(1#16 <<< p.val) }) s) else s)

/-- A stair-scope LOAD_ALL: its status, and the state with the commit armed and announced. -/
def loadAllStair (pkt : Option Pkt) (s : State) : Status × State :=
  if s.grid.armed.isSome then (.state, s)
  else
    let t := s.landingFrom (s.now + max s.loadLead (2 * s.grid.tc))
    let s := armCommit t true (judgeStale s)
    let m := s.grid.modStale
    let own : BitVec 16 := 1#16 <<< s.pos
    let w : AnnWait := {
      acked := own, accept := own, stale := if m = 0 then 0 else own, pkt := pkt
      words := landRef t.1 (s.seqOf t.2) false ++ [lowW m, highW m] }
    (.ok, stairBoth 2 (announceBytes (.loadAll t.1)) (setStair (fun x => { x with anns := x.anns ++ [w] }) s))

/-- LOAD_ALL of stairwell scope: the reply waits for the acknowledgements (R376). -/
def loadAllWide (s : State) : State :=
  let r := loadAllStair s.host.cur s
  if r.1 ≠ .ok then refuse r.1 s
  else
    match r.2.stair.anns.getLast? with
    | none => r.2
    | some w =>
      if annDone w r.2 then
        let s := setStair (fun x => { x with anns := x.anns.dropLast }) r.2
        { s with reply := some (annReply w s) }
      else wait r.2

def execLoadAll (w : List Word) (s : State) : Res :=
  .next <| command (w.length == 1) (fun s =>
    if bit (wd w 0) 0 then loadAllWide s
    else
      let r := loadAllLocal s
      reply r.1 r.2.1 r.2.2) s

/-- A write of 1 to MOD_CTRL.LOAD_ALL, with the scope in MOD_CTRL.SCOPE (R221). -/
def loadAllWrite (wide : Bool) (s : State) : Status × State :=
  if wide then
    let r := loadAllStair none s
    (r.1, annCheck r.2)
  else
    let r := loadAllLocal s
    (if r.1 = .state then .state else .ok, r.2.2)

/-- A commit announced for `target`: whether it is accepted, and the staleness it finds (R224, R375). A target whose commit
point has passed gives way to the next landing, with COMMIT_LATE. -/
def announced (target : Nat) (s : State) : Bool × Bool × State :=
  match s.grid.armed with
  | some (t, _) =>
    if t = target then
      let s := judgeStale s
      (true, s.grid.modStale != 0, s)
    else (false, false, s)
  | none =>
    let s := judgeStale s
    let stale := s.grid.modStale != 0
    let open_ := s.now + s.lead + 201
    if target < open_ then
      let s := raise 191 (BitVec.ofNat 32 (((List.range 9).filter s.fltOn).map fun f => 2 ^ f).sum) s
      (true, stale, armCommit (s.landingFrom open_) true s)
    else (true, stale, armCommit (s.landingFrom target) true s)

/-- The newel's new Tc from L_x on (R373). -/
def moveTc (tc lx : Nat) (s : State) : State :=
  { s with stair := { s.stair with newelTc := some tc, leftTc := some s.grid.tc }, grid := { s.grid with change := some (lx, tc) } }

/-- The active hands an announcement to its standby as a forwarded command (R383), in a layout of the model's own. -/
def forwardAnn (m : AnnounceMsg) (s : State) : State :=
  if s.twin.state == 1 && s.linkUp then
    emit (.forward 0 0 none 0x51 (announceWords m |>.flatMap fun x => [BitVec.ofNat 32 x, BitVec.ofNat 32 (x / 2 ^ 32)])
      (low40 s.now)) s
  else s

/-- What an active or a simplex device does with an announcement (R373 to R375, R383). -/
def takeAnnounce (src : Fin 16) (m : AnnounceMsg) (s : State) : State :=
  if s.standby then s
  else
    let r := match m with
      | .loadAll t => announced (near40 t s) s
      | .newTc tc lx => (true, false, if s.newel then s else moveTc tc (near40 lx s) s)
    let s := if r.1 then forwardAnn m r.2.2 else r.2.2
    stairTo src.val 6 [BitVec.ofNat 8 (b2n r.1 + 2 * b2n r.2.1)] s

/-- An ANNOUNCE arrives. -/
def execAnnounce (h : StairHdr) (m : AnnounceMsg) (s : State) : Res :=
  .next (stairTake h 2 (announceBytes m) true (takeAnnounce h.src m) s)

/-- One acknowledgement, to the oldest announcement this position has not answered. -/
def ackFirst (b : BitVec 16) (accepted stale : Bool) (l : List AnnWait) : List AnnWait :=
  match l with
  | [] => []
  | w :: r =>
    if w.acked &&& b = 0 then
      { w with acked := w.acked ||| b, accept := if accepted then w.accept ||| b else w.accept
               stale := if stale then w.stale ||| b else w.stale } :: r
    else w :: ackFirst b accepted stale r

def execAnnAck (h : StairHdr) (accepted stale : Bool) (s : State) : Res :=
  .next <| stairTake h 6 [BitVec.ofNat 8 (b2n accepted + 2 * b2n stale)] true (fun s =>
    annCheck (setStair (fun x => { x with anns := ackFirst (1#16 <<< h.src.val) accepted stale x.anns }) s)) s

/-- 50 µs after the oldest LOAD_ALL that waits: its reply, with the acknowledgements that have come (R376). -/
def execAnnounceTimeout (s : State) : Res :=
  .next <|
    match s.stair.anns with
    | [] => s
    | w :: r =>
      let s := setStair (fun x => { x with anns := r }) s
      match w.pkt with
      | some p => finish (some p) (annReply w s) s
      | none => s

/-! Beacons (R366, R373, R386 to R388). -/

def beaconBytes (m : BeaconMsg) : List Byte :=
  payloadOf [(4, m.tc), (1, m.count), (1, m.shareMask.toNat), (2, m.mapPresent.toNat), (2, m.mapHalls.toNat)]

/-- A follower runs at the Tc the beacon carries; one that differs from its own is taken from its next landing on. A beacon that
still carries the Tc an announced change leaves moves nothing (R373). -/
def beaconTc (tc : Nat) (s : State) : State :=
  if s.stair.leftTc = some tc ∧ s.stair.newelTc ≠ some tc then s else
  let s := setStair (fun x => { x with newelTc := some tc, leftTc := none }) s
  if s.grid.tc ≠ tc ∧ s.grid.change = none then { s with grid := { s.grid with change := some (s.grid.next, tc) } } else s

/-- What a follower takes from a BEACON (R366, R373, R386). -/
def takeBeacon (src : Fin 16) (m : BeaconMsg) (s : State) : State :=
  let s := setStair (fun x => { x with
    newelLost := false, holdExp := false, count := m.count, shareMask := m.shareMask
    present := m.mapPresent, halls := m.mapHalls }) s
  let s := annCheck (beaconTc m.tc s)
  if m.count ≤ s.pos ∨ s.pos ≤ src.val then posFault s else s

/-- A BEACON arrives from upstream. A promoted device ignores it, relays none, and notes that the newel is back (R388). -/
def execBeacon (x : StairMsg BeaconMsg) (s : State) : Res :=
  .next <| stairTake x.hdr 1 (beaconBytes x.msg) (!s.newel) (fun s =>
    if s.pos = 0 ∨ x.hdr.via = .sd then s
    else if s.stair.promote then setStair (fun y => { y with newelBack := true }) s
    else takeBeacon x.hdr.src x.msg s) s

/-- The BEACON this newel sends. -/
def State.ownBeacon (s : State) : BeaconMsg :=
  { tc := s.grid.tc, count := fld (s.reg 0x50100) 0 5, shareMask := BitVec.ofNat 8 s.shareBits
    mapPresent := s.mapPresent, mapHalls := s.mapHalls }

/-- What its BEACON carries: at the standby of a newel pair its active's content (R383). -/
def State.beacon (s : State) : BeaconMsg := if s.standby && s.linkUp then s.stair.fwdBeacon.getD s.ownBeacon else s.ownBeacon

/-- An active newel hands the content of its BEACON to its standby, as a forwarded command in a layout of the model's own (R383,
log 47). -/
def forwardBeacon (s : State) : State :=
  if s.twin.state == 1 && s.linkUp then
    let m := s.ownBeacon
    emit (.forward 0 0 none 0xE3 [BitVec.ofNat 32 m.tc, pack [(0, 8, m.count), (8, 8, m.shareMask.toNat)],
      pack [(0, 16, m.mapPresent.toNat), (16, 16, m.mapHalls.toNat)]] (low40 s.now)) s
  else s

/-- The standby of a newel pair takes the content of its active's BEACON (R383). -/
def takeForwardedBeacon (w : List Word) (s : State) : State :=
  let m : BeaconMsg := {
    tc := (wd w 0).toNat, count := fld (wd w 1) 0 8, shareMask := BitVec.ofNat 8 (fld (wd w 1) 8 8)
    mapPresent := (wd w 2).setWidth 16, mapHalls := ((wd w 2) >>> 16).setWidth 16 }
  setStair (fun x => { x with fwdBeacon := some m, present := m.mapPresent, halls := m.mapHalls }) s

/-- The newel's BEACON, every 10 µs; at a twin newel both devices send it (R383). -/
def execBeaconSend (s : State) : Res :=
  .next <|
    if !s.stairRuns || !s.newel then s
    else forwardBeacon (stairSend true 1 0xFF (beaconBytes s.beacon) s)

/-- No BEACON for 100 µs: the servo freezes TB_INCR (R386). -/
def execNewelLost (s : State) : Res :=
  .next <|
    if !s.isOn .atrium || s.newel || s.stair.newelLost then s
    else raise 217 0 (setStair (fun x => { x with newelLost := true, leftTc := none }) s)

/-- NEWEL_LOST has lasted 100 ms (R387). -/
def execHoldExp (s : State) : Res :=
  .next <|
    if !s.isOn .atrium || s.newel || !s.stair.newelLost || s.stair.holdExp then s
    else raise 216 0 (setStair (fun x => { x with holdExp := true, sync := false, good := 0 }) s)

/-- A write of PROMOTE (R388): its status and the state. -/
def promoteWrite (v : Bool) (s : State) : Status × State :=
  if v then
    if s.stair.newelLost then (.ok, setStair (fun x => { x with promote := true }) s) else (.state, s)
  else (.ok, setStair (fun x => { x with promote := false }) s)

def execPromote (s : State) : Res := .next (if s.isOn .atrium then (promoteWrite true s).2 else s)
def execFollowerRestore (s : State) : Res := .next (if s.isOn .atrium then (promoteWrite false s).2 else s)

/-! Time (R370 to R372). -/

/-- TB in 2^-4 ns. -/
def State.tb16 (s : State) : Int := ((s.tbAll / 2 ^ 28 : Nat) : Int)

def execTimeReqSend (s : State) : Res :=
  .next <|
    if !s.stairRuns || !s.stair.upUp || s.newel || !s.isOn .timebase then s
    else stairSend false 3 0xFF [] (setStair (fun x => { x with t1 := some s.tb16 }) s)

/-- A stamp on the link: the low 40 bits of TB_NS, and its fraction in 2^-4 ns (R67, R370). -/
def stampBytes (t2 t3 : Int) : List Byte :=
  payloadOf ([t2, t3].flatMap fun t => [(5, (t / 16 % 2 ^ 40).toNat), (1, (t % 16).toNat)])

/-- The instant in 2^-4 ns that a stamp of 40 bits and a fraction names at `now` (R67). -/
def stampNear (t now : Int) : Int :=
  let d := (t - now) % 2 ^ 44
  if d < 2 ^ 43 then now + d else now + d - 2 ^ 44

/-- The upstream device answers with its own departure t3 (R370). -/
def execTimeReq (x : StairMsg Int) (s : State) : Res :=
  .next <| stairTake x.hdr 3 [] false (fun s =>
    if x.hdr.via = .sd ∧ s.isOn .timebase then stairSend true 4 0xFF (stampBytes x.msg s.tb16) s else s) s

/-- θ of R370 in 2^-4 ns. -/
def stairTheta (t1 t2 t3 t4 asym : Int) : Int := F32.rne ((((t1 - t2) + (t4 - t3) - asym : Int) : Rat) / 2)

/-- The run of measurements within 2 ns, or beyond 20 ns, sets or clears SYNC (R372). -/
def syncStep (theta : Int) (s : State) : State :=
  let s := setStair (fun x => { x with
    good := if theta.natAbs ≤ 32 then satInc 16 x.good else 0
    bad := if 320 < theta.natAbs then satInc 16 x.bad else 0 }) s
  let s := if 16 ≤ s.stair.good then setStair (fun x => { x with sync := true }) s else s
  if s.stair.sync && decide (16 ≤ s.stair.bad) then raise 216 0 (setStair (fun x => { x with sync := false }) s) else s

/-- TIME_RESP completes a measurement. The servo of a device that follows its chain steers TB (R371, R384, R386). -/
def takeTimeResp (t1 t2 t3 t4 : Int) (s : State) : State :=
  let o := stairTheta t1 t2 t3 t4 (sfld (s.reg 0x50108) 0 16)
  let s := syncStep o (setStair (fun x => { x with t1 := none, theta := some o }) s)
  if s.standby || s.stair.newelLost then s else servo o s

/-- TIME_RESP comes from the upstream neighbour itself, whose position must lie below (R366, R370). -/
def execTimeResp (h : StairHdr) (stamps : Int × Int) (t4 : Int) (s : State) : Res :=
  .next <| stairTake h 4 (stampBytes stamps.1 stamps.2) false (fun s =>
    if h.via ≠ .su ∨ s.newel ∨ !s.isOn .timebase then s
    else
      let s := if s.pos ≤ h.src.val then posFault s else s
      match s.stair.t1 with
      | none => s
      | some t1 => takeTimeResp t1 (stampNear stamps.1 t4) (stampNear stamps.2 t4) t4 s) s

/-! Shared points, STATUS and telemetry (R369, R377, R381). -/

/-- A SHARE arrives from upstream, for the loops of the period after its own; a promoted device sends its own and relays none
(R377, R388). -/
def execShare (x : StairMsg ShareMsg) (s : State) : Res :=
  .next <| stairTake x.hdr 5 (shareBytes x.msg) (!s.newel) (fun s =>
    if s.newel ∨ x.hdr.via = .sd then s else setStair (fun y => { y with shares := (x.msg :: y.shares).take 2 }) s) s

def statusBytes (p : Nat) (hallsOn sync : Bool) : List Byte := payloadOf [(1, p), (1, b2n hallsOn), (1, b2n sync)]

def execStatusSend (s : State) : Res :=
  .next <|
    if !s.stairActs || s.newel then s
    else stairSend false 7 0xFF (statusBytes s.pos s.anyHallOn s.stair.sync) s

/-- A STATUS arrives at SD: the newel keeps it in STAIR_MAP, any other position relays it upwards. -/
def execStairStatusFrame (h : StairHdr) (hallsOn sync : Bool) (s : State) : Res :=
  .next <| stairTake h 7 (statusBytes h.src.val hallsOn sync) true (fun s =>
    if !s.newel ∨ h.via = .su then s
    else
      let b : BitVec 16 := 1#16 <<< h.src.val
      setStair (fun x => { x with
        present := x.present ||| b, halls := if hallsOn then x.halls ||| b else x.halls &&& ~~~b }) s) s

/-- What an owner, the device of its position on that chain, asks this position to send: it begins at the landing named, and a
request without points ends it there. -/
def askTelem (h : StairHdr) (n : Fin 8) (dec at_ : Nat) (pts : List Nat) (s : State) : State :=
  let same := fun (y : TelemOut) => y.owner == h.src && y.chainW == h.chainW && y.n == n
  setStair (fun x =>
    if pts.isEmpty then { x with telemOut := x.telemOut.map fun y => if same y then { y with stop := some at_ } else y }
    else { x with telemOut := (x.telemOut.filter fun y => !same y)
                    ++ [{ owner := h.src, chainW := h.chainW, n := n, dec := max 1 dec, first := at_, pts := pts }] }) s

/-- Remote values reach a stream's owner, with the landing they apply at (R381). Values of landings long past are let go. -/
def keepTelem (src : Fin 16) (tag40 : Nat) (vals : List (Nat × F32)) (s : State) : State :=
  let now := s.now
  let live := s.stair.telem.filter fun x => decide (now ≤ near40 x.2.1 s + 4 * s.grid.tc)
  setStair (fun x => { x with telem := vals.map (fun v => (src.val, low40 tag40, v.1 % 65536, v.2)) ++ live }) s

/-- An active hands what streams need to its standby, which serves its own streams and may have to go on with those of others
(R381, R383, log 51). -/
def telemToStandby (h : StairHdr) (payload : List Byte) (s : State) : State :=
  if s.twin.state == 1 && s.linkUp && h.via != .twin then
    emit (.stairTwin (stairFrame 0x0A h.src.val h.chainW h.dst h.hops payload)) s
  else s

/-- A TELEM arrives: values for this position's streams, or a request for the values another's streams name, of which the active
sends them (R381, R383). -/
def execTelem (h : StairHdr) (at40 : Nat) (m : TelemMsg) (s : State) : Res :=
  .next <| stairTake h 0x0A (telemBytes at40 m) true (fun s =>
    let s := telemToStandby h (telemBytes at40 m) s
    match m with
    | .values vals => keepTelem h.src at40 vals s
    | .ask n dec pts => askTelem h n dec (near40 at40 s) pts s) s

/-! Remote reads (R380, R506). -/

/-- A point of this device in its 20-bit form. -/
def State.localPoint (s : State) (p : Nat) : F32 := s.point (p % 65536 / 1024) (p % 1024)

/-- The payload of SIG_REQ and of SIG_RESP, of at most 128 points (Table 10-1). -/
def reqBytes (l : List Nat) : List Byte := payloadOf (l.map fun p => (4, p))
def respBytes (l : List (Nat × F32)) : List Byte := payloadOf (l.flatMap fun x => [(4, x.1), (4, x.2.toNat)])

/-- Only the active answers (R383), with every value at this instant. -/
def execSigReq (h : StairHdr) (pts : List Nat) (s : State) : Res :=
  .next <| stairTake h 8 (reqBytes pts) true (fun s =>
    if s.standby then s else stairTo h.src.val 9 (respBytes (pts.map fun p => (p, s.localPoint p))) s) s

/-- The values of a SIGNAL_READ that has them all, in the order named. -/
def sigWords (w : SigWait) : Option (List Word) :=
  w.pts.mapM fun p => (w.vals.find? fun v => v.1 == p).map (·.2)

/-- The read that still waits for a value of position `src` takes the response. -/
def sigFirst (src : Nat) (vals : List (Nat × F32)) (l : List SigWait) : List SigWait :=
  match l with
  | [] => []
  | w :: r =>
    if w.pts.any (fun p => ptPos p == src && !(w.vals.any fun v => v.1 == p)) then { w with vals := w.vals ++ vals } :: r
    else w :: sigFirst src vals r

/-- Values have come for the oldest read that waits for them. -/
def takeSignals (src : Nat) (vals : List (Nat × F32)) (s : State) : State :=
  let l := sigFirst src vals s.stair.sigs
  let done := l.filter fun w => (sigWords w).isSome
  let s := setStair (fun x => { x with sigs := l.filter fun w => (sigWords w).isNone }) s
  each done (fun w s => finish w.pkt { status := .ok, words := (sigWords w).getD [] } s) s

def execSigResp (h : StairHdr) (vals : List (Nat × F32)) (s : State) : Res :=
  .next (stairTake h 9 (respBytes vals) true (takeSignals h.src.val vals) s)

/-- 100 µs without a response: the oldest read that waits ends with STATE (R380). -/
def execSigRespTimeout (s : State) : Res :=
  .next <|
    match s.stair.sigs with
    | [] => s
    | w :: r => finish w.pkt { status := .state } (setStair (fun x => { x with sigs := r }) s)

/-- SIGNAL_READ (R380, R506): every local value at this instant; a remote one is asked for, and the reply waits. -/
def execSignalRead (w : List Word) (s : State) : Res :=
  .next <| command (decide (0 < w.length) && decide (w.length ≤ 1019)) (fun s =>
    let pts := w.map fun p => fld p 0 20
    let far := pts.filter s.remote
    if s.replyLimit < w.length then refuse .badLength s
    else if !far.isEmpty && !s.isOn .links then refuse .domainOff s
    else if pts.any (fun p => reservedPt (p % 1024)) then refuse .badParam s
    else if far.isEmpty then reply .ok (pts.map s.localPoint) s
    else if far.any (fun p => !s.mapPresent.getLsbD (ptPos p)) then refuse .state s
    else
      let vals := (pts.filter fun p => !s.remote p).map fun p => (p, s.localPoint p)
      let s := setStair (fun x => { x with sigs := x.sigs ++ [{ pts := pts, vals := vals, pkt := s.host.cur }] }) s
      let s := each (List.range 16) (fun q s =>
        let l := far.filter fun p => ptPos p == q
        each (chunks 128 l.length l) (fun l s => stairTo q 8 (reqBytes l) s) s) s
      wait s) s

/-! Registers. -/

def stairStatus (s : State) : Word :=
  let x := s.stair
  pack [(28, 4, s.pos), (27, 1, b2n s.newel), (26, 1, b2n x.sync), (25, 1, b2n x.newelLost), (24, 1, b2n x.holdExp),
    (23, 1, b2n x.newelBack), (22, 1, b2n x.posErr), (21, 1, b2n x.upUp), (20, 1, b2n x.downUp),
    (19, 1, b2n (s.aon.straps.role == 2)), (18, 1, b2n s.timeFromStandby), (17, 1, b2n x.shareStale), (8, 8, x.crcErr)]

def stairOfs (s : State) : Word :=
  match s.stair.theta with
  | some o => BitVec.ofInt 32 o
  | none => 0x80000000#32

def stairMap (s : State) : Word := pack [(16, 16, s.mapHalls.toNat), (0, 16, s.mapPresent.toNat)]

/-- STAIR_STATUS (R517). -/
def execStairStatus (w : List Word) (s : State) : Res :=
  .next (command w.isEmpty (fun s => reply .ok [stairStatus s, stairOfs s, stairMap s] s) s)

end Sys2Proof.Machine
end

