-- ==== Sys2Proof/Machine/Flags.lean ====
section
/-! DEFINITION. What every register of the configuration space reads as (Tables 15-8 and 15-9): its stored bits, and its
status, write-one-to-clear and running fields from the parts of the state that hold them. -/

namespace Sys2Proof.Machine

open Sys2Proof


/-- Word `i` of MOD_LAND: [55:16] the target's 40-bit time and [15:0] its SEQ. -/
def modLand (i : Nat) (s : State) : Word :=
  BitVec.ofNat 32 ((low40 s.grid.target * 65536 + s.grid.targetSeq.toNat) / 2 ^ (32 * i))

/-- A register of injector `n`. -/
def injReg (x : Injector) (o : Nat) : Word :=
  match o with
  | 0x00 => x.cfg | 0x08 => x.amp | 0x0C => x.dur | 0x10 => x.f0 | 0x14 => x.f1 | 0x18 => x.seed | 0x1C => injStatus x
  | _ => 0

/-- A register of the capture engine. -/
def capReg (a : Nat) (s : State) : Word :=
  let c := s.atr.cap
  if a = 0x600 then c.cfg
  else if a = 0x604 then BitVec.ofNat 32 c.pre
  else if a = 0x608 then capStatus s
  else if a = 0x630 then lowW c.trigTime
  else if a = 0x634 then highW c.trigTime
  else (c.chans.getD ((a - 0x610) / 4) 0).setWidth 32

/-- Registers 0x000000 to 0x00083F but for the power block. -/
def lowView (a : Nat) (s : State) : Word :=
  if a = 0 then sysId
  else if a = 4 then 0x0301#32
  else if a = 8 then pack [(24, 8, statusCode s.atr.cfgResult), (0, 24, s.atr.cfgAddr)]
  else if a = 0xC then bitAt (!s.pend.isEmpty) 0
  else if a = 0x88 then laneStatus 12 s
  else if a = 0x8C then laneStatus 13 s
  else if a = 0x90 then BitVec.ofNat 32 s.atr.laneSkip
  else if a = 0x100 then s.reg a ||| bitAt s.grid.armed.isSome 30
  else if a = 0x104 then modTc s
  else if a = 0x110 then lowW s.grid.modStale
  else if a = 0x114 then highW s.grid.modStale
  else if a = 0x118 then modLand 0 s
  else if a = 0x11C then modLand 1 s
  else if 0x400 ≤ a ∧ a < 0x600 then injReg (vget s.atr.inj ((a - 0x400) / 0x40) {}) (a % 0x40)
  else if 0x600 ≤ a ∧ a < 0x700 then capReg a s
  else if 0x800 ≤ a ∧ a < 0x840 then s.reg a ||| bitAt (s.gpioLevel ((a - 0x800) / 4)) 9
  else s.reg a

/-- The power registers. -/
def aonView (a : Nat) (s : State) : Word :=
  match a with
  | 0x200 => pwrState s | 0x208 => pwrBank s | 0x210 => s.aon.wakeSet | 0x214 => pwrWakeCtrl s
  | 0x218 => pwrWakeStatus s | 0x220 => s.aon.retLost | 0x224 => pwrReset s | 0x228 => pwrVcore s
  | 0x22C => pwrBuck s | 0x230 => pwrMon s
  | _ => 0

/-- A compare's register at `o`. -/
def tcReg (c : Compare) (o : Nat) : Word :=
  match o with
  | 0 => lowW c.time | 4 => highW c.time | 8 => c.period
  | _ => pack [(31, 1, b2n c.en), (30, 1, b2n c.fired), (29, 1, b2n c.late), (16, 8, c.width.toNat), (8, 4, c.target),
      (0, 8, c.arg.toNat)]

def pllReg (x : PllOut) : Word := pack [(31, 1, b2n x.en), (0, 16, x.div)]

/-- The time base and PLL registers. -/
def tbView (a : Nat) (s : State) : Word :=
  let t := s.tb
  if a = 0x10000 then t.latchFrac
  else if a = 0x10004 then lowW t.latchNs
  else if a = 0x10008 then highW t.latchNs
  else if a = 0x10010 then t.incr.setWidth 32
  else if a = 0x10014 then BitVec.ofNat 32 (t.incr.toNat / 2 ^ 32)
  else if a = 0x10038 then t.stampLatchFrac
  else if a = 0x1003C then lowW t.stampLatchNs
  else if a = 0x10040 then highW t.stampLatchNs
  else if a = 0x10100 then pllStatus s
  else if 0x10110 ≤ a ∧ a < 0x10120 then pllReg (vget t.pllPend ((a - 0x10110) / 4) {})
  else if 0x10200 ≤ a ∧ a < 0x10300 then tcReg (s.tc ((a - 0x10200) / 0x10)) (a % 0x10)
  else s.reg a

/-- The measurement registers; a result word reads as it stands, and the flags a host read changes are those of
`cfgReadWord`. -/
def anaView (a : Nat) (s : State) : Word :=
  if a < 0x20800 then
    let n := (a - 0x20000) / 0x80
    let q := (settleSeq n s).adc n
    let o := a % 0x80
    if o = 0 then q.cfg ||| bitAt (q.res.toList.any fun r => !r.convs.isEmpty) 30
    else if o = 8 then lowW q.time
    else if o = 0xC then highW q.time
    else vget q.ent ((o - 0x10) / 4) 0
  else if 0x21000 ≤ a ∧ a < 0x21400 then
    let i := (a - 0x21000) / 4
    (readRes (vget ((settleSeq (i / 16) s).adc (i / 16)).res (i % 16) {})).1
  else if a = 0x22000 then s.meas.priv
  else if a = 0x22008 then wd (sliceMap s) 0
  else if a = 0x2200C then wd (sliceMap s) 1
  else if a = 0x22010 then measStatus s
  else if a = 0x22020 then calStatus s
  else if a = 0x22030 then s.meas.tdac
  else if a = 0x22034 then tdacRes s
  else if 0x22100 ≤ a ∧ a < 0x22120 then
    s.reg a ||| bitAt (decide ((vget s.meas.dsd ((a - 0x22100) / 4) {}).outputs < 3)) 30
  else s.reg a

/-- The safety registers. -/
def safView (a : Nat) (s : State) : Word :=
  if a < 0x30100 then s.safeWord ((a - 0x30000) / 4)
  else match a with
    | 0x30100 => safeStatus s | 0x30104 => safeCauseWord s | 0x30108 => blockCheck s.safe.block
    | 0x3010C => s.safe.conf
    | _ => 0

/-- THM_THi_P1 with RS_AUTO is the RS measured (Table 12-7). -/
def thmView (a : Nat) (s : State) : Word :=
  let i := (a - 0x40040) / 0x20
  if a = 0x400C0 then thmStatus s
  else if 0x40040 ≤ a ∧ a < 0x400C0 ∧ a % 0x20 = 0x10 ∧ s.thMode i = 1 ∧ bit (s.reg (0x40048 + 0x20 * i)) 16 then
    vget s.therm.rs i 0
  else s.reg a

def twinView (a : Nat) (s : State) : Word :=
  match a with
  | 0x50004 => twinStatus s | 0x50008 => twinEpoch s | 0x50010 => twinTofs s
  | 0x50100 => s.reg a ||| bitAt s.stair.promote 31
  | 0x50104 => stairStatus s | 0x5010C => stairOfs s | 0x50110 => stairMap s
  | _ => s.reg a

/-- HOST_STATUS (Table 14-13). -/
def hostStatus (s : State) : Word :=
  pack [(24, 8, s.host.discard), (16, 8, s.host.rsDrop), (8, 8, s.host.crcErr), (0, 8, s.host.ovf)]

/-- HOST_PTP_STATUS (Table 02-5). -/
def ptpStatus (s : State) : Word :=
  pack ([(0, 8, s.host.ptpDrop), (8, 4, s.host.ptpHead), (12, 4, s.host.ptpTail), (20, 2, s.host.ptpSrc)]
    ++ (List.range 4).map fun n => (16 + n, 1, b2n (vget s.host.ptpTx n {}).done))

/-- The bytes of a receive entry: the stamp as TB_SYNC_STAMP lays it out, the length, the source and the payload
(Table 02-5); a payload over 236 bytes has its full length in the length field and its first 236 bytes in
the entry (log 74). -/
def ptpRxBytes (x : PtpRx) : List Byte :=
  leBytes 4 x.frac.toNat ++ leBytes 8 x.ns.toNat ++ leBytes 2 x.payload.length ++ leBytes 4 x.src.ip.toNat
    ++ leBytes 2 x.src.port.toNat ++ bytesAt x.payload 0 236

/-- The bytes of a transmit slot. -/
def ptpTxBytes (x : PtpTx) : List Byte :=
  leBytes 4 (b2n x.go + 2 * b2n x.done + 4 * x.length) ++ leBytes 4 x.dst.toNat ++ leBytes 4 x.port.toNat
    ++ leBytes 4 x.frac.toNat ++ leBytes 8 x.ns.toNat ++ bytesAt x.payload 0 240

/-- The word at offset `o` of a run of bytes. -/
def wordAt (l : List Byte) (o : Nat) : Word := BitVec.ofNat 32 (fieldAt l o 4)

/-- HOST_QSTATn. -/
def queueStat (n : Nat) (s : State) : Word :=
  let q := s.queue n
  let timed := match q.pkts with
    | p :: _ => decide (s.now < p.execAt)
    | [] => false
  pack [(31, 1, b2n q.held), (30, 1, b2n timed), (8, 8, q.ovf), (0, 7, q.pkts.length)]

/-- Host, PTP, stream and event registers. -/
def hostView (a : Nat) (s : State) : Word :=
  if a = 0x60010 then BitVec.ofNat 32 Config.macAddress.toNat
  else if a = 0x60014 then BitVec.ofNat 32 (Config.macAddress.toNat / 2 ^ 32)
  else if a = 0x60024 then spiStat s
  else if a = 0x60028 then hostStatus s
  else if a = 0x60104 then ptpStatus s
  else if 0x60300 ≤ a ∧ a < 0x60400 then (s.queue ((a - 0x60300) / 4)).expect
  else if 0x60400 ≤ a ∧ a < 0x60500 then queueStat ((a - 0x60400) / 4) s
  else if 0x61000 ≤ a ∧ a < 0x62000 then wordAt (ptpRxBytes (vget s.host.ptpRx ((a - 0x61000) / 0x100) {})) (a % 0x100)
  else if 0x62000 ≤ a ∧ a < 0x62800 then wordAt (ptpTxBytes (vget s.host.ptpTx ((a - 0x62000) / 0x200) {})) (a % 0x200)
  else if 0x64000 ≤ a ∧ a < 0x68000 ∧ a % 0x800 = 0xC then streamStatus (s.stream ((a - 0x64000) / 0x800))
  else if 0x69000 ≤ a ∧ a < 0x6A000 then
    let r := s.evt ((a - 0x69000) / 0x10)
    match a % 0x10 with
    | 0 => BitVec.ofNat 32 (r.count % 256) | 4 => lowW r.time | 8 => highW r.time | _ => r.data
  else if 0x6A000 ≤ a ∧ a < 0x6A020 then s.pendWord ((a - 0x6A000) / 4)
  else s.reg a

def nvmView (a : Nat) (s : State) : Word :=
  match a with
  | 0x70000 => nvmStatus s | 0x70004 => nvmLog s
  | _ => s.reg a

/-- LOOP_CFG (Table 04-6). -/
def loopCfg (x : Slot) : Word :=
  loopCfgBits x ||| pack [(31, 1, b2n x.en), (30, 1, b2n x.arm.isSome), (29, 1, b2n (x.arm == some .loadAll)), (8, 4, x.group)]

/-- A register of slot `i` (Table 04-6). -/
def slotReg (i : Nat) (x : Slot) (o : Nat) : Word :=
  if o = 0 then loopCfg x
  else if o = 4 then x.rSrc ++ x.ySrc
  else if o = 8 then x.ffSrc ++ x.outDst
  else if o = 0xC then x.sp
  else if o < 0x38 then x.pend.list.getD ((o - 0x10) / 4) 0
  else if o = 0x38 then loopStatus i x
  else x.act.list.getD ((o - 0x50) / 4) 0

/-- GROUP_CFG. -/
def groupCfg (n g : Nat) (c : Ctx) : Word :=
  let x := c.group g
  pack [(31, 1, b2n !(members n g c).isEmpty), (24, 4, x.winner), (0, 16, x.outDst.toNat)]

/-- A register of staged values (Table 05-5); a field that is not staged reads 0. -/
def stgReg (k o : Nat) (s : State) : Word :=
  let c := s.cell k
  let v := fun (i : Nat) => ((vget c.staged i {}).val).getD 0
  if o = 0x200 then stgMask s k
  else if o < 0x21C then v ((o - 0x204) / 4)
  else if o = 0x21C then pack [(0, 16, (v 6).toNat), (16, 16, (v 7).toNat)]
  else pack [(0, 1, b2n c.stagedLvl), (8, 2, (v 8).toNat), (10, 2, (v 9).toNat)]

/-- Registers of context `n` at offset `o` (Table 15-9). -/
def ctxView (n o : Nat) (s : State) : Word :=
  let a := ctxBase n + o
  let c := s.ctx n
  if 0x400 ≤ o ∧ o < (if n < 63 then 0x700 else 0xC00) then
    slotReg ((o - 0x400) / 0x80) (c.slot ((o - 0x400) / 0x80)) (o % 0x80)
  else if 0xC00 ≤ o ∧ o < 0xC80 then groupCfg n ((o - 0xC00) / 0x10) c
  else if o = 0x100 then safeCfg s n
  else if 0x200 ≤ o ∧ o < 0x224 then stgReg n o s
  else if o = 0x300 then trdBal s n
  else if o = 0x304 then trdNotch s n
  else if o = 0x340 then trdGuard s n
  else if o = 0x360 then trdThm s n
  else if 0x800 ≤ o ∧ o < 0x980 ∧ (o % 0x80 = 0x40 ∨ o % 0x80 = 0x44) then
    BitVec.ofNat 32 ((vget (s.cell n).wear ((o - 0x800) / 0x80) {}).damage / 2 ^ (if o % 0x80 = 0x40 then 0 else 32))
  else s.reg a

/-- Registers of flight `f` at offset `o`. -/
def fltView (f o : Nat) (s : State) : Word :=
  let x := s.flight f
  match o with
  | 0x8 => fltStatus x
  | 0xC => fltLoop x
  | 0x10 => pack [(30, 1, b2n x.survBusy), (29, 1, b2n x.survDone), (8, 1, b2n x.survSide), (0, 3, x.survPos)]
  | 0x14 => x.survRes
  | _ => s.reg (fltBase f + o)

/-- Registers of hall `h` at offset `o`. -/
def hallView (h o : Nat) (s : State) : Word :=
  if o = 0 then hallCells h s
  else if o = 4 then s.reg (hallBase h + 4) ||| bitAt (!(s.hall (s.strHead h)).modeArms.isEmpty) 31
  else if 0x20 ≤ o ∧ o < 0x30 then laneStatus (4 * h + (o - 0x20) / 4) s
  else if o = 0x54 then hallRebal h s
  else s.reg (hallBase h + o)

/-- What the register at `a` reads as; 0 in a gap (R524). -/
def regView (a : Nat) (s : State) : Word :=
  match regDef s.aon.straps a with
  | none => 0
  | some _ =>
    if 0x200 ≤ a ∧ a < 0x300 then aonView a s
    else if a < 0x840 then lowView a s
    else if a < 0x20000 then tbView a s
    else if a < 0x30000 then anaView a s
    else if a < 0x40000 then safView a s
    else if a < 0x50000 then thmView a s
    else if a < 0x50200 then twinView a s
    else if a < 0x70000 then hostView a s
    else if a < 0x80000 then nvmView a s
    else if a < 0x140000 then ctxView ((a - 0x100000) / 0x1000) (a % 0x1000) s
    else if a < 0x150000 then fltView ((a - 0x140000) / 0x1000) (a % 0x1000) s
    else hallView ((a - 0x150000) / 0x1000) (a % 0x1000) s

/-- What it reads as with PENDING = 1: a pending value in place of the active one, where there is one (R521). -/
def pendView (a : Nat) (s : State) : Word :=
  match tget s.pend a, regDef s.aon.straps a with
  | some v, some d => merge d.committed (regView a s) v
  | _, _ => regView a s

end Sys2Proof.Machine
end

