-- ==== Sys2Proof/Machine/Operands.lean ====
section
/-! DEFINITION. The addressed words a command's payload names: what of the configuration space it may read or write, and
what a read of a word returns and changes (R518 to R525). -/

namespace Sys2Proof.Machine

open Sys2Proof

/-- The offset of an address in the Gallery window. -/
def galleryOffset (a : Nat) : Nat := a - 0x200000

/-- A word of a bank of the Gallery: the capture buffer's bytes, else open (R44, log 7). -/
def galleryRead (a : Nat) (s : State) : Word × State :=
  if 6 ≤ galleryOffset a / 0x40000 ∧ galleryOffset a / 0x40000 ≤ 9 then
    (BitVec.ofNat 32 (ofBytes (memBytes s.mem (galleryOffset a) 4)), s)
  else (Config.galleryWord a s.freeCtr, { s with freeCtr := s.freeCtr + 1 })

/-- One word read, with what the read changes: the latches of R58 and R91, and the flags of a result word (R308). -/
def cfgReadWord (pending : Bool) (a : Nat) (s : State) : Word × State :=
  if 0x200000 ≤ a then galleryRead a s
  else if a = 0x10000 then
    let s := latchTime s
    (regView a s, s)
  else if a = 0x10038 then
    let s := latchStamp s
    (regView a s, s)
  else if 0x21000 ≤ a ∧ a < 0x21400 then
    let i := (a - 0x21000) / 4
    hostReadRes (i / 16) (i % 16) s
  else (if pending then pendView a s else regView a s, s)

/-- Words read in ascending order of address. -/
def cfgReadWords (pending : Bool) (a n : Nat) (s : State) : List Word × State :=
  (List.range n).foldl (fun r i =>
    let x := cfgReadWord pending (a + 4 * i) r.2
    (r.1 ++ [x.1], x.2)) ([], s)

/-- What the words from `a` on refuse to a read: an address outside Table 15-8, or a domain that is not ON (R523). -/
def readStatus (a n : Nat) (s : State) : Status :=
  ((List.range n).map fun i => match ownerOf (a + 4 * i) with
    | none => Status.badParam
    | some o => if s.ownerOn o then .ok else .domainOff).foldl firstStatus .ok

/-- CFG_READ (Table 15-3). -/
def execCfgRead (w : List Word) (s : State) : Res :=
  .next <| command (w.length == 2) (fun s =>
    let a := fld (wd w 0) 0 24
    let n := fld (wd w 1) 0 10
    if s.replyLimit < n then refuse .badLength s
    else
      let bad := a % 4 ≠ 0 ∨ n = 0 ∨ 1019 < n
      match firstStatus (if bad then .badParam else .ok) (readStatus a n s) with
      | .ok =>
        let r := cfgReadWords (bit (wd w 0) 31) a n s
        reply .ok r.1 r.2
      | st => refuse st s) s

/-- What one word refuses to a CFG_WRITE before its own rules: LOCKED or BAD_PARAM for the safety parameter block,
BAD_PARAM outside the map, in a gap and in the Gallery window, and DOMAIN_OFF (R520, R524). -/
def writeStatus (a : Nat) (s : State) : Status :=
  if 0x200000 ≤ a then .badParam
  else match ownerOf a with
    | none => .badParam
    | some o =>
      if !s.ownerOn o then .domainOff
      else if 0x30000 ≤ a ∧ a < 0x30100 then (if s.safe.confirmed then .locked else .badParam)
      else if (regDef s.aon.straps a).isSome then .ok
      else .badParam

end Sys2Proof.Machine
end

