-- ==== Sys2Proof/Machine/CfgUnits.lean ====
section
/-! DEFINITION. What a CFG_WRITE does to each register: the fields that act at once (R518), as the command that also
writes them where there is one (R519), and the committed fields, which go to their pending copies (R521). The words of
one write that reach the registers of one command are taken together. -/

namespace Sys2Proof.Machine

open Sys2Proof

/-- The word a write brings for address `a`, else what stands there. -/
def wordOr (ws : List (Nat × Word)) (a : Nat) (old : Word) : Word := ((ws.find? fun x => x.1 == a).map (·.2)).getD old

/-- One of the addresses is written. -/
def touches (ws : List (Nat × Word)) (l : List Nat) : Bool := ws.any fun x => l.contains x.1

/-- The first address of the registers that are written together with the one at `a` (R519). -/
def unitBase (a : Nat) : Nat :=
  if 0x400 ≤ a ∧ a < 0x600 then a / 0x40 * 0x40
  else if 0x600 ≤ a ∧ a < 0x700 then 0x600
  else if a = 0x10014 then 0x10010
  else if 0x10018 ≤ a ∧ a < 0x10024 then 0x10018
  else if 0x10200 ≤ a ∧ a < 0x10300 then a / 0x10 * 0x10
  else if 0x20000 ≤ a ∧ a < 0x20800 then a / 0x80 * 0x80
  else if 0x62000 ≤ a ∧ a < 0x62800 then a / 0x200 * 0x200
  else if 0x64000 ≤ a ∧ a < 0x68000 then a / 0x800 * 0x800
  else if 0x100000 ≤ a ∧ a < 0x140000 ∧ 0x400 ≤ a % 0x1000 ∧ a % 0x1000 < (if a < 0x13F000 then 0x700 else 0xC00) then
    a / 0x80 * 0x80
  else a

/-- The words of a write, unit by unit. -/
def units (ws : List (Nat × Word)) : List (Nat × List (Nat × Word)) :=
  match ws with
  | [] => []
  | x :: r =>
    match units r with
    | (b, l) :: t => if b = unitBase x.1 then (b, x :: l) :: t else (unitBase x.1, [x]) :: (b, l) :: t
    | [] => [(unitBase x.1, [x])]

/-- A write-one-to-clear counter in [lo + n - 1 : lo] of a written word. -/
def clearCount (v : Word) (lo n x : Nat) : Nat := x &&& (2 ^ n - 1 - fld v lo n)

/-- The plain rules of a register: its direct bits at once, its committed bits into the pending copy. -/
def plainWrite (a : Nat) (v : Word) (s : State) : State :=
  match regDef s.aon.straps a with
  | none => s
  | some d =>
    let s := if d.direct = 0 then s else s.setReg a (merge d.direct (s.reg a) v)
    if d.committed = 0 then s else s.setPend a (merge d.committed (s.regNext a) v)

/-! Registers that a command writes too (R519). -/

/-- The INJ_ registers act as INJECT; DONE and ABORT are cleared by a written 1, before what
the write starts or stops can set them (R11). -/
def writeInj (b : Nat) (ws : List (Nat × Word)) (s : State) : Status × State :=
  let n := (b - 0x400) / 0x40
  let g := wordOr ws
  let v := g (b + 0x1C) 0
  let s := setInj n (fun y => { y with done := y.done && !bit v 1, abort := y.abort && !bit v 2 }) s
  let x := vget s.atr.inj n {}
  if touches ws [b, b + 8, b + 0xC, b + 0x10, b + 0x14, b + 0x18] then
    injectSet n false (injOf [g b x.cfg, g (b + 8) x.amp, g (b + 0xC) x.dur, g (b + 0x10) x.f0, g (b + 0x14) x.f1,
      g (b + 0x18) x.seed]) s
  else (.ok, s)

/-- The CAP_ registers act as CAPTURE. -/
def writeCap (ws : List (Nat × Word)) (s : State) : Status × State :=
  let c := s.atr.cap
  let g := wordOr ws
  let cfg := g 0x600 c.cfg
  let pts := (List.range 8).map fun i => g (0x610 + 4 * i) ((c.chans.getD i 0).setWidth 32)
  let r := if touches ws ([0x600, 0x604] ++ (List.range 8).map fun i => 0x610 + 4 * i) then
      let r := captureSet cfg (g 0x604 (BitVec.ofNat 32 c.pre)) (pts.take (capChans cfg)) s
      (r.1, setCap (fun c => { c with chans := pts.map (BitVec.setWidth 16) }) r.2)
    else (.ok, s)
  let v := g 0x608 0
  (r.1, setCap (fun c => { c with done := c.done && !bit v 2, tcChg := c.tcChg && !bit v 3 }) r.2)

/-- TB_INCR: both words take effect with the upper one (R59). The holding buffer keeps what the last write of the lower word
alone loaded, also through a write of the upper word and through the opcode (log 73). -/
def writeIncr (ws : List (Nat × Word)) (s : State) : Status × State :=
  let low := wordOr ws 0x10010 s.tb.incrLow
  if touches ws [0x10014] then setIncr (low.toNat + fld (wordOr ws 0x10014 0) 0 8 * 2 ^ 32) s
  else if s.servoOwns then (.state, s)
  else (.ok, { s with tb := { s.tb with incrLow := low } })

/-- TB_ADJ: the step is made when its top word is written (R62). The lower words stay held after it (log 97). -/
def writeAdj (ws : List (Nat × Word)) (s : State) : Status × State :=
  let frac := wordOr ws 0x10018 s.tb.adjFrac
  let low := wordOr ws 0x1001C s.tb.adjLow
  if !adjOk s then (.state, s)
  else
    let s := { s with tb := { s.tb with adjFrac := frac, adjLow := low } }
    (.ok, if touches ws [0x10020] then tbStep (adjStep frac low (wordOr ws 0x10020 0)) s else s)

/-- The TC registers act as TC_SET. -/
def writeTc (b : Nat) (ws : List (Nat × Word)) (s : State) : Status × State :=
  let n := (b - 0x10200) / 0x10
  let c := s.tc n
  let g := fun o => wordOr ws (b + o) (tcReg { c with fired := false, late := false } o)
  let r := tcSet n (dw (g 0) (g 4)) (g 8) (g 0xC) s
  (if r.1 = .late then .ok else r.1, r.2)

/-- The ADC_SEQ registers act as ADC_SEQ. -/
def writeAdc (b : Nat) (ws : List (Nat × Word)) (s : State) : Status × State :=
  let n := (b - 0x20000) / 0x80
  let q := s.adc n
  let cfg := wordOr ws b q.cfg
  let ent : Vector Word 16 := Vector.ofFn fun e => wordOr ws (b + 0x10 + 4 * e.val) (vget q.ent e.val 0)
  if touches ws (b :: (List.range 16).map fun e => b + 0x10 + 4 * e) then
    match seqCheck n cfg ent s with
    | .ok => (.ok, writeSeq n cfg ent s)
    | st => (st, s)
  else (.ok, s)

/-- The STREAM_ registers act as STREAM_SET; DROP is cleared by written ones. -/
def writeStream (b : Nat) (ws : List (Nat × Word)) (s : State) : Status × State :=
  let n := (b - 0x64000) / 0x800
  let s := setStream n (fun x => { x with drop := clearCount (wordOr ws (b + 0xC) 0) 0 16 x.drop }) s
  let regs := ws.filter fun x => x.1 != b + 0xC
  if regs.isEmpty then (.ok, s)
  else
    let t := each regs (fun x s => plainWrite x.1 x.2 s) s
    match streamCheck n (t.streamCfg n) (t.streamPts n) s with
    | .ok => (.ok, t)
    | st => (st, s)

/-- The slot registers act as LOOP_SET, a write of LOOP_SP alone as one that changes it alone (R162); the pending
coefficients act as their own rules state. A write that leaves LOOP_SRC as it is keeps ASSIGN's feedback (R554). -/
def writeSlot (b : Nat) (ws : List (Nat × Word)) (s : State) : Status × State :=
  let n := (b - 0x100000) / 0x1000
  let i := (b % 0x1000 - 0x400) / 0x80
  let x := (s.ctx n).slot i
  let g := fun o => wordOr ws (b + o) (slotReg i x o)
  let r := if touches ws [b, b + 4, b + 8] then
      let r := loopSet n i (g 0) (g 4) (g 8) (g 0xC) s
      (r.1, if touches ws [b + 4] then r.2
        else r.2.setCtx n fun c => c.setSlot i fun y => { y with follows := x.follows })
    else (.ok, s.setCtx n fun c => c.setSlot i fun y => { y with sp := g 0xC })
  let coefs := Coefs.ofList ((List.range 10).map fun j => g (0x10 + 4 * j))
  (r.1, r.2.setCtx n fun c => c.setSlot i fun y => { y with pend := coefs })

/-- MEAS_TDAC acts as TEST_DAC. -/
def writeTdac (v : Word) (s : State) : Status × State :=
  let mode := fld v 30 2
  if mode = 1 ∧ 7 < fld v 20 4 then (.badParam, s)
  else if s.meas.tdacRun then (.state, s)
  else (.ok, tdacStart v s)

/-! Registers with rules of their own. -/

/-- A SYS_GPIO: the reserved functions are refused, and a ball that leaves the compare output drives no pulse (R526). -/
def writeGpio (i : Nat) (v : Word) (s : State) : Status × State :=
  if 6 ≤ fld v 0 3 then (.badParam, s)
  else
    let s := plainWrite (0x800 + 4 * i) v s
    (.ok, if fld v 0 3 = 4 then s else { s with atr := { s.atr with gpioPulse := s.atr.gpioPulse &&& ~~~(1#16 <<< i) } })

/-- MOD_CTRL: SCOPE and STALE_REJECT at once, and LOAD_ALL with the scope written beside it (R221). -/
def writeModCtrl (v : Word) (s : State) : Status × State :=
  let s := plainWrite 0x100 v s
  if bit v 31 then loadAllWrite (bit v 8) s else (.ok, s)

/-- The banks and domains of PWR_WAKE_SET keep Table 13-4 and R45. -/
def wakeSetOk (v : Word) (s : State) : Bool := depsOk s.aon.straps.role.val (bit v) (fun g => bit v (16 + g))

/-- The power registers (chapter 13). -/
def writeAon (a : Nat) (v : Word) (s : State) : Status × State :=
  match a with
  | 0x210 =>
    let v := v &&& 0xFFFF03FF#32
    if wakeSetOk v s then (.ok, setAon (fun x => { x with wakeSet := v }) s) else (.state, s)
  | 0x214 =>
    let s := setAon (fun x => { x with wakeOnAddr := bit v 30, auto := bit v 29 }) s
    (.ok, if bit v 31 then startWake s else s)
  | 0x218 => (.ok, setAon (fun x => { x with wakeFail := x.wakeFail && !bit v 31 }) s)
  | 0x220 => (.ok, setAon (fun x => { x with retLost := x.retLost &&& ~~~v }) s)
  | 0x224 => (.ok, setAon (fun x => { x with
      por := x.por && !bit v 31, pinReset := x.pinReset && !bit v 30, stuck := x.stuck && !bit v 29 }) s)
  | 0x228 =>
    let c := v &&& 0x3F#32
    match vcoreCheck c s with
    | .ok => (.ok, vcoreSet c s)
    | st => (st, s)
  | 0x22C =>
    let f := fld v 16 8
    let l1 := fld v 8 6
    let l0 := fld v 0 6
    if f < 40 ∨ 220 < f ∨ l1 < 10 ∨ l0 < 10 then (.range, s)
    else (.ok, setAon (fun x => { x with buckFreq := f, ilim1 := l1, ilim0 := l0 }) s)
  | _ => (.ok, s)

/-- SLACK_LO of a lane takes the value written. -/
def writeSlackLo (l : Nat) (v : Word) (s : State) : State := setLane l (fun y => { y with slackLo := fld v 16 8 }) s

/-- THM_STATUS: HK_LATE, and the pin and failure bits of the die and board sensors. -/
def writeThmStatus (v : Word) (s : State) : State :=
  let s := if bit v 27 then { s with therm := { s.therm with hkLate := false } } else s
  each (List.range 8) (fun i s =>
    let s := if bit v i then clearFail i s else s
    if bit v (8 + i) then clearPin i s else s) s

/-- TRD_THM of cell `k`. -/
def writeTrdThm (k : Nat) (v : Word) (s : State) : State :=
  each (List.range 4) (fun c s =>
    let x := 0x100 + 4 * k + c
    let s := if bit v c then clearFail x s else s
    if bit v (4 + c) then clearPin x s else s) s

/-- The status registers of cell `k`: bits and counts cleared by written ones. -/
def writeTrdStatus (k o : Nat) (v : Word) (s : State) : State :=
  match o with
  | 0x300 => s.setCell k fun c => { c with rfail := c.rfail && !bit v 28, norec := c.norec && !bit v 26 }
  | 0x304 => s.setCell k fun c => { c with
      notchDip := clearCount v 16 16 c.notchDip, notchSub := clearCount v 0 16 c.notchSub }
  | 0x340 => s.setCell k fun c => { c with bridge := c.bridge && !bit v 28, scCount := clearCount v 8 8 c.scCount }
  | 0x360 => writeTrdThm k v s
  | _ => s

/-- The registers of flight `f` that act at once, beside its committed fields. FLT_SURVEY takes SIDE and POS with GO; a
write without GO makes them pending. -/
def writeFlt (f o : Nat) (v : Word) (s : State) : Status × State :=
  match o with
  | 0x4 =>
    let s := plainWrite (fltBase f + 4) v s
    (.ok, if bit v 16 then unwrapRing f s else s)
  | 0x8 => (.ok, s.setFlight f fun x => { x with
      unwrapRef := x.unwrapRef && !bit v 7, almErr := clearCount v 4 3 x.almErr, mRej := clearCount v 0 4 x.mRej })
  | 0x10 =>
    let s := s.setFlight f fun x => { x with survDone := x.survDone && !bit v 29 }
    if bit v 31 then surveyGo f v s
    else (.ok, plainWrite (fltBase f + 0x10) v s)
  | _ => (.ok, plainWrite (fltBase f + o) v s)

/-- HALL_MOD acts as HALL_MODE; HALL_CARRIER takes effect at the landing that HALL_MODE would have (R206). -/
def writeHall (h o : Nat) (v : Word) (s : State) : Status × State :=
  match o with
  | 0x4 => hallMode h v s
  | 0x8 => (.ok, armMode h none (some v) (plainWrite (hallBase h + 8) v s))
  | 0x20 => (.ok, writeSlackLo (4 * h) v s)
  | 0x24 => (.ok, writeSlackLo (4 * h + 1) v s)
  | 0x28 => (.ok, writeSlackLo (4 * h + 2) v s)
  | 0x2C => (.ok, writeSlackLo (4 * h + 3) v s)
  | _ => (.ok, plainWrite (hallBase h + o) v s)

/-- RX_TAIL frees the entries it passes; the value it already has frees none, and one past RX_HEAD at most all that are owned
(log 74). The write leaves RX_DROP of the same register as it is (log 92). -/
def writePtpTail (v : Word) (s : State) : State :=
  let t := fld v 12 4
  { s with host := { s.host with
    ptpTail := t, ptpOwned := s.host.ptpOwned - (t + 16 - s.host.ptpTail) % 16 } }

/-- A transmit slot: what it holds while the host owns it, DONE, and GO (R95). -/
def writePtpTx (b : Nat) (ws : List (Nat × Word)) (s : State) : State :=
  let n := (b - 0x62000) / 0x200
  let t := vget s.host.ptpTx n {}
  let v := wordOr ws b 0
  let done := t.done && !bit v 1
  if t.go then { s with host := { s.host with ptpTx := vset s.host.ptpTx n { t with done := done } } }
  else
    let bytes := (ptpTxBytes t).drop 24
    let payload := (List.range 60).flatMap fun i => leBytes 4 (wordOr ws (b + 24 + 4 * i) (wordAt bytes (4 * i))).toNat
    let x : PtpTx := { t with
      done := done, length := if touches ws [b] then fld v 2 8 else t.length
      dst := wordOr ws (b + 4) t.dst, port := (wordOr ws (b + 8) (t.port.setWidth 32)).setWidth 16, payload := payload }
    let s := { s with host := { s.host with ptpTx := vset s.host.ptpTx n x } }
    if bit v 0 then ptpGo n s else s

/-- A PTP offset outside its range is refused with RANGE (Table 02-5). -/
def ptpOfsOk (v : Word) : Bool := decide (-32768 ≤ v.toInt) && decide (v.toInt ≤ 32767)

/-- The host and event registers. -/
def writeHost (a : Nat) (v : Word) (s : State) : Status × State :=
  let hp := fun (f : HostPort → HostPort) => { s with host := f s.host }
  if a = 0x60028 then (.ok, hp fun x => { x with
      discard := clearCount v 24 8 x.discard, rsDrop := clearCount v 16 8 x.rsDrop
      crcErr := clearCount v 8 8 x.crcErr, ovf := clearCount v 0 8 x.ovf })
  else if a = 0x60104 then (.ok, writePtpTail v s)
  else if a = 0x60108 ∨ a = 0x6010C then (if ptpOfsOk v then (.ok, plainWrite a v s) else (.range, s))
  else if 0x60400 ≤ a ∧ a < 0x60500 then
    (.ok, s.setQueue ((a - 0x60400) / 4) fun q => { q with ovf := clearCount v 8 8 q.ovf })
  else if 0x6A000 ≤ a ∧ a < 0x6A020 then
    (.ok, each (setBits 32 v.toNat) (fun b s => clearEvt (32 * ((a - 0x6A000) / 4) + b) s) s)
  else (.ok, plainWrite a v s)

/-- The measurement registers that a write clears or that a command writes. -/
def writeAna (a : Nat) (v : Word) (s : State) : Status × State :=
  match a with
  | 0x22000 =>
    match privCheck v s with
    | .ok => (.ok, setMeas (fun m => { m with priv := v &&& privMask }) s)
    | st => (st, s)
  | 0x22010 => (.ok, setMeas (fun m => { m with
      ovlErr := clearCount v 16 8 m.ovlErr, drop := clearCount v 8 8 m.drop, rotLate := clearCount v 0 8 m.rotLate }) s)
  | 0x22030 => writeTdac v s
  | 0x22034 => (.ok, setMeas (fun m => { m with
      tdacDone := m.tdacDone && !bit v 31, tdacFail := m.tdacFail && !bit v 30, tdacOpen := m.tdacOpen && !bit v 29
      tdacStall := m.tdacStall && !bit v 28 }) s)
  | _ => (.ok, plainWrite a v s)

/-- The time base and PLL registers of one word. -/
def writeTb (a : Nat) (v : Word) (s : State) : Status × State :=
  match a with
  | 0x10100 => (.ok, if bit v 3 then clearUntrusted s else s)
  | 0x10108 => (.ok, if bit v 0 then pllCommit s else s)
  | 0x10110 => pllWrite 0 v s
  | 0x10114 => pllWrite 1 v s
  | 0x10118 => pllWrite 2 v s
  | 0x1011C => pllWrite 3 v s
  | _ => (.ok, plainWrite a v s)

/-- The twin and stairwell registers. -/
def writeTwin (a : Nat) (v : Word) (s : State) : Status × State :=
  match a with
  | 0x50000 =>
    let s := plainWrite a v s
    (.ok, if bit v 31 then forceNow s else s)
  | 0x50004 => (.ok, setTwin (fun t => { t with diverge := clearCount v 4 6 t.diverge }) s)
  | 0x50100 =>
    let s := plainWrite a v s
    if bit v 31 || s.stair.promote then promoteWrite (bit v 31) s else (.ok, s)
  | 0x50104 => (.ok, setStair (fun x => { x with
      newelBack := x.newelBack && !bit v 23, shareStale := x.shareStale && !bit v 17, crcErr := clearCount v 8 8 x.crcErr }) s)
  | _ => (.ok, plainWrite a v s)

/-- The registers below 0x000840 that are written one by one. -/
def writeLow (a : Nat) (v : Word) (s : State) : Status × State :=
  if a = 0x88 then (.ok, writeSlackLo 12 v s)
  else if a = 0x8C then (.ok, writeSlackLo 13 v s)
  else if a = 0x100 then writeModCtrl v s
  else if a = 0x110 then (.ok, { s with grid := { s.grid with modStale := s.grid.modStale &&& ~~~v.setWidth 64 } })
  else if a = 0x114 then
    (.ok, { s with grid := { s.grid with modStale := s.grid.modStale &&& ~~~((v.setWidth 64 : BitVec 64) <<< (32 : Nat)) } })
  else if 0x800 ≤ a then writeGpio ((a - 0x800) / 4) v s
  else (.ok, plainWrite a v s)

/-- THM_THi_P1 is read-only while RS_AUTO measures it (Table 12-7). -/
def writeThm (a : Nat) (v : Word) (s : State) : State :=
  let i := (a - 0x40040) / 0x20
  let cfg := s.regNext (0x40048 + 0x20 * i)
  if a = 0x400C0 then writeThmStatus v s
  else if 0x40040 ≤ a ∧ a < 0x400C0 ∧ a % 0x20 = 0x10 ∧ fld cfg 0 2 = 1 ∧ bit cfg 16 then s
  else plainWrite a v s

/-- One register written. -/
def writeOne (a : Nat) (v : Word) (s : State) : Status × State :=
  if 0x200 ≤ a ∧ a < 0x300 then writeAon a v s
  else if a < 0x840 then writeLow a v s
  else if a < 0x20000 then writeTb a v s
  else if a < 0x30000 then writeAna a v s
  else if a < 0x40000 then (.ok, if a = 0x30110 ∧ bit v 31 then setCause 7 s else s)
  else if a < 0x50000 then (.ok, writeThm a v s)
  else if a < 0x60000 then writeTwin a v s
  else if a < 0x70000 then writeHost a v s
  else if a < 0x80000 then
    (.ok, if a = 0x70004 then setNvm (fun x => { x with lost := clearCount v 0 16 x.lost }) s else plainWrite a v s)
  else if a < 0x140000 then
    let k := (a - 0x100000) / 0x1000
    let o := a % 0x1000
    (.ok, if o = 0x300 ∨ o = 0x304 ∨ o = 0x340 ∨ o = 0x360 then writeTrdStatus k o v s else plainWrite a v s)
  else if a < 0x150000 then writeFlt ((a - 0x140000) / 0x1000) (a % 0x1000) v s
  else writeHall ((a - 0x150000) / 0x1000) (a % 0x1000) v s

/-- The words of one unit written. -/
def writeUnit (b : Nat) (ws : List (Nat × Word)) (s : State) : Status × State :=
  if 0x400 ≤ b ∧ b < 0x600 then writeInj b ws s
  else if b = 0x600 then writeCap ws s
  else if b = 0x10010 then writeIncr ws s
  else if b = 0x10018 then writeAdj ws s
  else if 0x10200 ≤ b ∧ b < 0x10300 then writeTc b ws s
  else if 0x20000 ≤ b ∧ b < 0x20800 then writeAdc b ws s
  else if 0x62000 ≤ b ∧ b < 0x62800 then (.ok, writePtpTx b ws s)
  else if 0x64000 ≤ b ∧ b < 0x68000 then writeStream b ws s
  else if 0x100000 ≤ b ∧ b < 0x140000 ∧ 0x400 ≤ b % 0x1000 ∧ b % 0x1000 < (if b < 0x13F000 then 0x700 else 0xC00) then
    writeSlot b ws s
  else ws.foldl (fun r x =>
    let y := writeOne x.1 x.2 r.2
    (firstStatus r.1 y.1, y.2)) (.ok, s)

/-- Registers whose write clears bits and does nothing else, where the same write can set those bits elsewhere: MOD_STALE and
FLT_STATUS. -/
def clearsOnly (b : Nat) : Bool :=
  b == 0x110 || b == 0x114 || (decide (0x140000 ≤ b ∧ b < 0x150000) && b % 0x1000 == 8)

/-- The units of a write in the order they take effect: what clears bits first, so that a bit which its source sets in the same
write stays set (R11). -/
def inWriteOrder (us : List (Nat × List (Nat × Word))) : List (Nat × List (Nat × Word)) :=
  us.filter (fun u => clearsOnly u.1) ++ us.filter fun u => !clearsOnly u.1

/-- A write of whole words: all of them or none (R520). -/
def cfgWrite (ws : List (Nat × Word)) (s : State) : Status × State :=
  match (ws.map fun x => writeStatus x.1 s).foldl firstStatus .ok with
  | .ok =>
    let r := (inWriteOrder (units ws)).foldl (fun r u =>
      let y := writeUnit u.1 u.2 r.2
      (firstStatus r.1 y.1, y.2)) (Status.ok, s)
    if r.1 = .ok then r else (r.1, s)
  | st => (st, s)

/-- CFG_WRITE (R520). Of an address that is no multiple of 4 the domains of the words it lies in still come first (R479). -/
def execCfgWrite (w : List Word) (s : State) : Res :=
  .next <| command (decide (2 ≤ w.length) && decide (w.length ≤ 1020)) (fun s =>
    let a := fld (wd w 0) 0 24
    let ws := w.tail.mapIdx fun i v => (a / 4 * 4 + 4 * i, v)
    if a % 4 ≠ 0 then refuse ((ws.map fun x => writeStatus x.1 s).foldl firstStatus .badParam) s
    else
      let r := cfgWrite ws s
      refuse r.1 r.2) s

/-- A write of 1 to bits of EVT_PEND (R483). -/
def execEvtPendClear (i : Fin 8) (v : Word) (s : State) : Res :=
  .next (if s.isOn .atrium then (writeHost (0x6A000 + 4 * i.val) v s).2 else s)

/-- A write of SYS_GPIO FUNC (R526). -/
def execGpioFuncChange (i : Fin 16) (func : Fin 8) (s : State) : Res :=
  .next (if s.isOn .atrium then
    (writeGpio i.val (merge 7 (s.reg (0x800 + 4 * i.val)) (BitVec.ofNat 32 func.val)) s).2
  else s)

end Sys2Proof.Machine
end

