-- ==== Sys2Proof/Machine/CfgCheck.lean ====
section
/-! DEFINITION. What CFG_COMMIT checks (R522): every rule of the manual that names it, over the configuration that would
result. Each check gives the address of the field it refuses and the status. -/

namespace Sys2Proof.Machine

open Sys2Proof

/-- A failing field: its address and the status of the rule that refuses it. -/
abbrev Fails := List (Nat × Status)

/-- The configuration that would result. -/
def applyPend (s : State) : State := { s with cfg := s.pend.foldl (fun c x => tset c x.1 x.2) s.cfg, pend := [] }

/-- A check of the register at `a`. -/
def check (a : Nat) (st : Status) (ok : Bool) : Fails := if ok then [] else [(a, st)]

/-- The register at `a` would change. -/
def State.changes (s : State) (a : Nat) : Bool := s.regNext a != s.reg a

/-! Ranges of single fields. `t` is the state with the configuration that would result. -/

def inNat (w : Word) (lo n a b : Nat) : Bool := decide (a ≤ fld w lo n) && decide (fld w lo n ≤ b)

def rangeLow (t : State) : Fails :=
  let r := t.reg
  check 0x80 .range (inNat (r 0x80) 0 8 1 50)
    ++ check 0x104 .range (inNat (r 0x104) 0 17 1000 100000)
    ++ check 0x108 .range (inNat (r 0x108) 16 16 1000 65535 && inNat (r 0x108) 0 16 0 10000)
    ++ check 0x10C .range (inNat (r 0x10C) 24 4 1 8 && inNat (r 0x10C) 16 8 1 255 && inNat (r 0x10C) 0 8 1 255)
    ++ check 0x140 .range (inNat (r 0x140) 16 10 0 127 && inNat (r 0x140) 0 10 0 127)
    ++ [0x184, 0x188, 0x18C].flatMap (fun a => check a .range (inNat (r a) 0 16 1 5000))
    ++ check 0x190 .range (inNat (r 0x190) 0 16 100 60000)
    ++ check 0x10030 .range (inNat (r 0x10030) 0 19 1 500000)
    ++ check 0x10104 .range (inNat (r 0x10104) 0 16 1 60000)
    ++ check 0x50000 .range (inNat (r 0x50000) 0 6 2 50)
    ++ check 0x50100 .range (inNat (r 0x50100) 0 5 1 16)
    ++ check 0x60000 .badParam (fld (r 0x60000) 0 16 != 319 && fld (r 0x60000) 0 16 != 320)

/-- A binary32 bound that is not exact as written. -/
def f32 (q : Rat) : Rat := F32.toRat (F32.ofRat q)

/-- Table 06-5, the wear registers. -/
def rangeWear (t : State) : Fails :=
  let r := t.reg
  check 0x700 .range (F32.within (f32 (1 / 100)) 255 (r 0x700))
    ++ check 0x704 .range (F32.within (1 / 4) 8 (r 0x704))
    ++ check 0x708 .range (F32.within 1 20 (r 0x708))
    ++ check 0x70C .range (F32.within (-60) 100 (r 0x70C))
    ++ check 0x710 .range (F32.within 0 20 (r 0x710))
    ++ check 0x714 .range (F32.within (f32 (1 / 10)) 5 (r 0x714))

/-- The reactions Table 07-5 allows a class. -/
def reactOk (cls react : Nat) : Bool :=
  match cls with
  | 1 => [1, 2, 3, 4].contains react
  | 2 => [2, 5].contains react
  | 3 => [2, 3].contains react
  | 4 => [2, 6].contains react
  | 6 => react == 3
  | _ => react == 2

/-- GRD_REACT (R292). -/
def rangeReact (t : State) : Fails :=
  check 0x180 .badParam ((List.range 7).all fun i => reactOk (i + 1) (fld (t.reg 0x180) (4 * i) 4))

/-- Registers of hall `h` (Tables 06-5, 07-9 and the field tables of chapters 6 and 7). -/
def rangeHall (t : State) (h : Nat) : Fails :=
  let b := hallBase h
  let r := fun o => t.reg (b + o)
  let n := ((hallFlights h).map t.ctCount).sum
  check (b + 0x30) .range (F32.within 0 10 (r 0x30))
    ++ check (b + 0x34) .range (F32.within 0 10 (r 0x34))
    ++ check (b + 0x38) .range (F32.within 0 1 (r 0x38))
    ++ check (b + 0x3C) .range (F32.within 0 100000 (r 0x3C))
    ++ check (b + 0x40) .range (F32.within 0 (F32.toRat (r 0x44)) (r 0x40))
    ++ check (b + 0x44) .range (F32.within 0 10000 (r 0x44))
    ++ check (b + 0x48) .range (F32.within 0 1 (r 0x48))
    ++ check (b + 0x4C) .badParam (!reservedPt (fld (r 0x4C) 0 10))
    ++ check (b + 0x50) .range (inNat (r 0x50) 28 4 1 4 && inNat (r 0x50) 16 12 300 4000 && inNat (r 0x50) 0 14 100 10000)
    ++ check (b + 0x54) .range (inNat (r 0x54) 0 16 0 10000)
    ++ check (b + 0x58) .range (inNat (r 0x58) 24 8 1 100 && inNat (r 0x58) 16 8 1 255 && inNat (r 0x58) 0 16 1 60000)
    ++ check (b + 0x5C) .range (inNat (r 0x5C) 24 4 1 15 && inNat (r 0x5C) 16 8 10 95 && inNat (r 0x5C) 0 16 1 3600)
    ++ (if F32.isZero (r 0x60) then check (b + 0x60) .badParam (n == 0)
        else check (b + 0x60) .range (F32.within 10 10000 (r 0x60)))

/-- Registers of the cells: PAT_FAULT, the gain of a channel (R326) and the wear parameters (Table 06-6). -/
def rangeCell (t : State) (k : Nat) : Fails :=
  let b := ctxBase k
  let p := fld (t.reg (b + 0x100)) 0 2
  check (b + 0x100) .badParam (p == 1 || p == 2)
    ++ (List.range 4).flatMap (fun c =>
      check (b + 0x384 + 0x10 * c) .range (F32.within (f32 (9 / 10)) (f32 (11 / 10)) (t.reg (b + 0x384 + 0x10 * c))))
    ++ (List.range 3).flatMap (fun g => (List.range 15).flatMap fun i =>
      check (wearBase k g + 4 * i) .range (wearInRange i (t.wearPar k g i)))

/-- Measurement registers. -/
def rangeMeas (t : State) : Fails :=
  (List.range 8).flatMap (fun d => check (0x22100 + 4 * d) .range (inNat (t.dsdCfg d) 0 9 32 256))
    ++ (List.range 64).flatMap (fun m =>
      check (0x23008 + 0x10 * m) .range (F32.within (f32 (9 / 10)) (f32 (11 / 10)) (t.reg (0x23008 + 0x10 * m))))

/-- The two words of limits at `a`: WARN below THROTTLE, HYST 1 to 30 K. -/
def rangeLim (t : State) (a : Nat) : Fails :=
  check a .range (decide (half (t.reg a) 0 < half (t.reg a) 16)) ++ check (a + 4) .range (inNat (t.reg (a + 4)) 24 8 1 30)

/-- The die levels: SHUTDOWN above THROTTLE, and none above the grade's reset value (R422). -/
def rangeDie (t : State) : Fails :=
  let a := t.reg 0x40020
  let b := t.reg 0x40024
  check 0x40020 .range (decide (half a 0 ≤ half dieLim0 0) && decide (half a 16 ≤ half dieLim0 16))
    ++ check 0x40024 .range (decide (half a 16 < half b 0) && decide (half b 0 ≤ half dieLim1 0))

/-- The parameters of board sensor `i` (Table 12-7). -/
def rangeTh (t : State) (i : Nat) : Fails :=
  let b := 0x40040 + 0x20 * i
  let diode := t.thMode i == 1
  check (b + 0xC) .range (F32.isFinite (t.reg (b + 0xC))
      && (!diode || F32.within (f32 (95 / 100)) (f32 (11 / 10)) (t.reg (b + 0xC))))
    ++ check (b + 0x10) .range (F32.isFinite (t.reg (b + 0x10))
      && (!diode || bit (t.reg (b + 8)) 16 || F32.within 0 500 (t.reg (b + 0x10))))
    ++ check (b + 0x14) .range (F32.isFinite (t.reg (b + 0x14)))

/-- Thermal registers (chapter 12). -/
def rangeTherm (t : State) : Fails :=
  let r := t.reg
  check 0x40000 .range (inNat (r 0x40000) 16 8 0 50 && inNat (r 0x40000) 8 8 5 100 && inNat (r 0x40000) 0 8 1 100)
    ++ check 0x40004 .range (inNat (r 0x40004) 0 12 0 3000)
    ++ check 0x4000C .range (F32.within (f32 (1 / 100)) 1000000 (r 0x4000C))
    ++ check 0x40010 .range (F32.within 0 1000000000 (r 0x40010))
    ++ check 0x40014 .range (F32.isFinite (r 0x40014))
    ++ check 0x40018 .range (F32.isFinite (r 0x40018) && decide (F32.toRat (r 0x40018) ≤ F32.toRat (r 0x40014)))
    ++ rangeLim t 0x40020 ++ rangeDie t
    ++ (List.range 4).flatMap (fun i => rangeLim t (0x40040 + 0x20 * i) ++ rangeTh t i)
    ++ (List.range 4).flatMap (fun c => rangeLim t (0x40100 + 8 * c))

/-- HOST_QCFGn: 0 or 4 to 64, and no less than the packets the queue holds (R475, R476). -/
def rangeQueue (t : State) (n : Nat) : Fails :=
  let d := t.depth n
  let a := 0x60200 + 4 * n
  check a .range (d == 0 || (decide (4 ≤ d) && decide (d ≤ 64))) ++ check a .state (decide ((t.queue n).pkts.length ≤ d))

/-! Topology (R16, R19, R20). -/

def topology (s t : State) : Fails :=
  let q := fun h => fld (t.reg (hallBase h)) 8 6
  let inst := fun h => ((hallFlights h).map t.ctCount).sum
  let halls := [0, 1, 2]
  check 0x40 .badParam (t.assign != 3)
    ++ check 0x40 .badParam (t.assign != 0 || halls.all fun h => inst h != 0)
    ++ (if t.assign = 0 then [1, 2].flatMap fun h => check (hallBase h) .badParam (q h == q 0) else [])
    ++ (if t.assign = 3 then [] else t.strings.flatMap fun h =>
      check (hallBase h) .badParam (t.nInst h == 0 || (decide (1 ≤ q h) && decide (q h ≤ t.nInst h))))
    ++ (if halls.all (fun h => s.domSt (hallDom h) == .off || s.domSt (hallDom h) == .ret) then []
      else (0x40 :: (List.range 9).map fltBase).flatMap fun a => check a .state (!s.changes a))

/-! Timing (R43, R50, R138, R139, R153, R199, R201, R358, R373). -/

/-- W with T_G at its bound of 3.0 µs. -/
def State.windowMin (t : State) : Int := (t.tcSetting : Int) - t.sampleOfs - 100 - 3000 - t.lead

/-- The routes R138 checks: the whole ring, and both segments of every break position. -/
def allRoutes (n : Nat) (pair : Bool) : List Route :=
  [⟨false, List.range n, List.range (n + 1), true⟩]
    ++ (if pair then [⟨true, (List.range n).reverse, List.range (n + 1), true⟩] else [])
    ++ (List.range (n + 1)).flatMap fun h =>
      (if 0 < h then [⟨false, List.range h, List.range h, false⟩] else [])
        ++ (if h < n then
          [⟨true, ((List.range (n - h)).map (h + ·)).reverse, (List.range (n - h)).map (h + 1 + ·), false⟩] else [])

/-- T_G of a route by its hop constants, in 2^-4 ns (R137). -/
def routeTg (t : State) (f : Nat) (r : Route) : Nat :=
  16 * (gatherLen r.pos.length + 120 + t.relay r)
    + (r.hops.map fun i => if r.whole then (if r.west then hopWe t f i else hopEw t f i) else hopEw t f i + hopWe t f i).sum

/-- Deliver transit of a route with a configuration slot, in 2^-4 ns (R139): to the receive point of its last CT. -/
def routeTransit (t : State) (f : Nat) (r : Route) : Nat :=
  let hops := if !r.whole then r.hops else if r.west then r.hops.drop 1 else r.hops.dropLast
  16 * 4 * (72 + 48 * r.pos.length) + (hops.map fun i => if r.west then hopWe t f i else hopEw t f i).sum

/-- An installed hop of flight `f` has a zero constant. -/
def hopsMissing (t : State) (f : Nat) : List Nat :=
  (List.range (t.ctCount f + 1)).filter fun i => hopEw t f i == 0 || hopWe t f i == 0

/-- The routes of flight `f` whose delays can be judged. -/
def routesOf (t : State) (f : Nat) : List Route :=
  if t.ctCount f = 0 ∨ hopsMissing t f ≠ [] then [] else allRoutes (t.ctCount f) (t.aon.straps.role != 0)

/-- The longest deliver transit of any route, in 2^-4 ns. -/
def transitMax (t : State) : Nat := ((List.range 9).flatMap fun f => (routesOf t f).map (routeTransit t f)).foldl max 0

def ringFails (t : State) : Fails :=
  (List.range 9).flatMap fun f =>
    if t.ctCount f = 0 then []
    else
      ((hopsMissing t f).map fun i => (fltBase f + 0x100 + 4 * i, Status.badParam))
        ++ check (fltBase f + 0x100) .range ((routesOf t f).all fun r => decide (routeTg t f r ≤ 16 * 3000))
        ++ check 0x108 .range ((routesOf t f).all fun r => decide (routeTransit t f r + 16 * 500 ≤ 16 * t.lead))

/-- FMA-equivalents of the loops of context `n` with every configured slot and group member enabled (Table 04-2); a slot
is configured when it has a feedback source (R157). -/
def loopCost (t : State) (n : Nat) : Nat :=
  let c := t.ctx n
  (((List.range (slotCount n)).filter fun i => !ptNone (c.slot i).ySrc).map fun i =>
    let x := c.slot i
    (if x.disc then 16 else 14) + (if x.func = 1 then 12 else 0) + (if x.group < groupCount n then 4 else 0)).sum

/-- Predicted completion of flight `f` after L(n) in ps: loops and atrium at once, then the sort after the atrium, then
the mapping (R51, R153, Table 04-3). -/
def predicted (t : State) (f : Nat) : Nat :=
  let n := t.ctCount f
  let start := (t.sampleOfs + 3100) * 1000
  let loops := start + 834 * (120 + ((List.range n).map fun j => 16 + loopCost t (7 * f + j)).sum)
  let atrium := start + 834 * ((if t.assign = 0 then 960 else 240) + loopCost t 63)
  max loops (atrium + 200000 + if t.assign = 1 then 150000 else 0) + 834 * 112 * n

def laneFails (t : State) : Fails :=
  let w := t.windowMin
  check 0x80 .range (w ≤ 0 || (List.range 9).all fun f =>
    t.ctCount f == 0
      || decide ((fld (t.reg 0x80) 0 8 : Int) * w * 1000 ≤ (((t.tcSetting : Int) - t.lead) * 1000 - predicted t f) * 100))

/-- The settings of the telemetry streams as the Corridor load takes them: points and DEC. -/
def streamLoads (t : State) : List (Nat × Nat) :=
  (List.range 8).map fun n => (cfgPoints (t.streamCfg n), cfgDec (t.streamCfg n))

/-- R43: at most 90 % of 25.6 GB/s. -/
def corridorOk (t : State) : Bool :=
  let cells := ((List.range 9).map t.ctCount).sum
  decide (Config.corridorLoad t.tcSetting cells (capChans t.atr.cap.cfg) (streamLoads t) * 10 ≤ 25600000000 * 9)

/-- The train interval Tf of R359. -/
def trainGap (tc : Nat) : Nat := tc / parts tc

def timing (s t : State) : Fails :=
  let tc := t.tcSetting
  let hb := fld (t.reg 0x50000) 0 6 * 1000
  let tf := trainGap tc
  check 0x104 .state (!(s.changes 0x104 && s.anyHallOn))
    ++ check 0x104 .state (s.newel || (tget s.pend 0x104).isNone)
    ++ check 0x104 .state (!(s.newel && s.changes 0x104 && s.mapHalls != 0))
    ++ check 0x104 .range (corridorOk t)
    ++ check 0x104 .range (decide (3000 ≤ t.windowMin))
    ++ check 0x104 .range (decide (tc ≤ 20000) || decide (t.sampleOfs + 3100 + t.lead ≤ tf))
    ++ (if t.aon.straps.role = 0 then []
      else check 0x50000 .range (decide (hb + tf ≤ 60000)
        && decide ((hb + 2 * tf + 1000) * 16 + transitMax t ≤ (min (3 * tc) 60000 + t.lead) * 16)))

/-! Writers of atrium points (R315, R378). -/

def State.mapOn (t : State) (m : Nat) : Bool := bit (t.mapCfg m) 31
def State.xform (t : State) : Word := t.reg 0x22040

/-- Every writer: the address of its register and the point. -/
def writers (t : State) : List (Nat × Nat) :=
  let z := t.reg 0x140
  (if bit z 31 then [(0x140, fld z 0 10), (0x140, fld z 16 10)] else [])
    ++ (if bit t.xform 31 then (List.range 5).map fun i => (0x22040, 64 + i) else [])
    ++ ((List.range 64).filter t.mapOn).map fun m => (0x23000 + 0x10 * m, fld (t.mapCfg m) 0 7)

/-- Points a map entry or the transform writes. -/
def mapped (t : State) : List Nat := ((writers t).filter fun x => x.1 != 0x140).map (·.2)

/-- The transform's inputs. -/
def xformInputs (t : State) : List Nat :=
  if bit t.xform 31 then (List.range 3).flatMap fun i => [fld t.xform 16 7 + i, fld t.xform 8 7 + i] else []

def sharePoint (p : Nat) : Bool := decide (120 ≤ p) && decide (p < 128)

def writerFails (t : State) : Fails :=
  let ws := writers t
  ((ws.filter fun x => (ws.filter fun y => y.2 == x.2).length != 1).map fun x => (x.1, Status.badParam))
    ++ ((List.range 64).filter fun m => t.mapOn m && fld (t.mapCfg m) 29 2 == 2).flatMap (fun m =>
      let c := t.mapCfg m
      check (0x23000 + 0x10 * m) .badParam ((mapped t).contains (fld c 16 8) && (mapped t).contains (fld c 8 8)))
    ++ (if t.newel then [] else
      check 0x22040 .badParam (!(xformInputs t).any sharePoint)
        ++ ((List.range 64).filter t.mapOn).flatMap fun m =>
          check (0x23000 + 0x10 * m) .badParam (!sharePoint (fld (t.mapCfg m) 0 7)))

/-! The whole. -/

/-- Every failing field of the configuration that would result. -/
def configFails (s : State) : Fails :=
  let t := applyPend s
  rangeLow t ++ rangeWear t ++ rangeReact t ++ [0, 1, 2].flatMap (rangeHall t) ++ (List.range 63).flatMap (rangeCell t)
    ++ (List.range 9).flatMap (fun f => check (fltBase f + 4) .range (inNat (t.reg (fltBase f + 4)) 0 8 1 50))
    ++ rangeMeas t ++ rangeTherm t ++ (List.range 64).flatMap (rangeQueue t)
    ++ topology s t ++ timing s t ++ ringFails t ++ laneFails t ++ writerFails t

/-- The outcome of the checks: the status of R479 and the lowest failing address (R522). -/
def configJudge (s : State) : Status × Nat :=
  if s.pend.isEmpty then (.ok, 0xFFFFFF)
  else
    let l := configFails s
    ((l.map (·.2)).foldl firstStatus .ok, (l.map (·.1)).foldl min 0xFFFFFF)

end Sys2Proof.Machine
end

