-- ==== Sys2Proof/Machine/CfgCommit.lean ====
section
/-! DEFINITION. CFG_COMMIT and its effects, SIGNAL_WRITE, and the parameter sets of the non-volatile memory
(R19, R20, R199, R495, R496, R507, R522, R554). -/

namespace Sys2Proof.Machine

open Sys2Proof

/-! Effects of a commit. -/

/-- A new Tc: the grid moves after the first old-grid landing at least 2 Tc from now (R199), a capture stops (R196), and
the newel announces it, each device of a newel pair on its own chain (R373). -/
def newTc (s : State) : State :=
  let tc := s.tcSetting
  let g := s.grid
  let t := s.now + 2 * g.tc
  let lx := if t ≤ g.next then g.next else g.next + (t - g.next + g.tc - 1) / g.tc * g.tc
  let s := { s with grid := { g with change := some (lx, tc) } }
  if s.newel then stairBoth 2 (announceBytes (.newTc tc lx)) s else s

/-- A delta-sigma filter restarts when it is enabled or when OSR, CLK or EDGE changes (R301). -/
def newDsd (old : Word) (d : Nat) (s : State) : State :=
  let v := s.dsdCfg d
  if (bit v 31 && !bit old 31) || v &&& 0x7FF#32 != old &&& 0x7FF#32 then dsdRestart d s else s

/-- What follows from the change of the committed register at `a` from `old`. -/
def committed (a : Nat) (old : Word) (s : State) : State :=
  let o := a % 0x1000
  if a = 0x40 then
    s.setCtx 63 fun c => c.setSlot 6 fun x => if x.follows then { x with ySrc := slot6Src s.assign } else x
  else if a = 0x104 then (if s.reg a = old then s else newTc s)
  else if a = 0x700 then wearRearm s
  else if 0x22100 ≤ a ∧ a < 0x22120 then newDsd old ((a - 0x22100) / 4) s
  else if 0x100000 ≤ a ∧ a < 0x140000 then
    let n := (a - 0x100000) / 0x1000
    if 0xC00 ≤ o ∧ o < 0xC80 then
      s.setCtx n fun c => c.setGroup ((o - 0xC00) / 0x10) fun y => { y with outDst := (s.reg a).setWidth 16 }
    else if 0x380 ≤ o ∧ o < 0x38C ∧ s.reg a ≠ old then startTransfer n s
    else s
  else if 0x140000 ≤ a ∧ a < 0x149000 ∧ o = 0x10 then
    s.setFlight ((a - 0x140000) / 0x1000) fun x => { x with survSide := bit (s.reg a) 8, survPos := fld (s.reg a) 0 3 }
  else if 0x150000 ≤ a ∧ a < 0x153000 ∧ o = 0x60 ∧ s.reg a ≠ old then
    let h := (a - 0x150000) / 0x1000
    each ((List.range 21).map (21 * h + ·)) startTransfer s
  else s

/-- A host value of a point that a writer now names has ended (R507). -/
def endWrites (s : State) : State :=
  let l := (writers s).map (·.2)
  { s with atr := { s.atr with writes := s.atr.writes.filter fun x => !l.contains (x.1 % 1024) || x.1 % 1024 ≥ 128 } }

/-- Every pending value applied at once, with what follows from it (R522). -/
def commitAll (s : State) : State :=
  let t := applyPend s
  endWrites (each s.pend (fun x t => committed x.1 (s.reg x.1) t) t)

/-- SYS_CFG_STATUS after a commit. -/
def cfgResult (st : Status) (a : Nat) (s : State) : State := { s with atr := { s.atr with cfgResult := st, cfgAddr := a } }

/-- A commit: its status, the first failing address, and the state (R522). -/
def commit (checkOnly : Bool) (s : State) : Status × Nat × State :=
  let r := configJudge s
  let s := cfgResult r.1 r.2 s
  (r.1, r.2, if r.1 = .ok ∧ !checkOnly then commitAll s else s)

/-- CFG_COMMIT in its three forms: DISCARD drops every pending value and checks nothing. -/
def cfgCommit (w : List Word) (s : State) : State :=
  command (w.length == 1) (fun s =>
    if bit (wd w 0) 1 then reply .ok [0xFFFFFF#32] (cfgResult .ok 0xFFFFFF { s with pend := [] })
    else
      let r := commit (bit (wd w 0) 0) s
      reply r.1 [BitVec.ofNat 32 r.2.1] r.2.2) s

def execCfgCommit (w : List Word) (s : State) : Res := .next (cfgCommit w s)
def execCfgCommitCheck (w : List Word) (s : State) : Res := .next (cfgCommit w s)
def execCfgCommitDiscard (w : List Word) (s : State) : Res := .next (cfgCommit w s)

/-! SIGNAL_WRITE (R507). -/

/-- The pairs of a payload: point and value. -/
def pairsIn (w : List Word) : List (Nat × Word) :=
  match w with
  | a :: b :: r => (fld a 0 20, b) :: pairsIn r
  | _ => []

/-- A point the host may write. -/
def writable (s : State) (p : Nat) : Bool :=
  p % 65536 / 1024 == 63
    && ((decide (p % 1024 < 128) && !((writers s).map (·.2)).contains (p % 1024)
        && !(!s.newel && sharePoint (p % 1024)))
      || (decide (392 ≤ p % 1024) && decide (p % 1024 ≤ 397)))

/-- A value the host may write there: finite, or the quiet NaN that releases an arm reference. -/
def writableValue (p : Nat) (v : Word) : Bool :=
  F32.isFinite v || (v == F32.qnan && decide (395 ≤ p % 1024) && decide (p % 1024 ≤ 397))

/-- What SIGNAL_WRITE refuses for one point. -/
def signalStatus (s : State) (x : Nat × Word) : Status :=
  if s.remote x.1 || !writable s x.1 || !writableValue x.1 x.2 then .badParam
  else if dstTaken 63 (x.1 % 1024) s.atr.ctx then .state
  else .ok

/-- SIGNAL_WRITE: the values act from the first S(n) after now. -/
def execSignalWrite (w : List Word) (s : State) : Res :=
  .next <| command (w.length % 2 == 0) (fun s =>
    let l := pairsIn w
    match (l.map (signalStatus s)).foldl firstStatus .ok with
    | .ok =>
      let l := l.map fun x => (x.1 % 65536, x.2)
      refuse .ok { s with atr := { s.atr with writes := s.atr.writes ++ l } }
    | st => refuse st s) s

/-! Parameter sets (R494 to R496). -/

/-- RW bits of the registers that are held in fields of their own. -/
def heldMask (a : Nat) : Word :=
  let o := a % 0x1000
  if 0x400 ≤ a ∧ a < 0x600 then
    match a % 0x40 with
    | 0 => injCfgMask | 0x18 => 0x7FFFFFFF#32 | 0x1C => 0 | _ => 0xFFFFFFFF#32
  else if a = 0x600 then 0xFFFFFF0F#32
  else if a = 0x604 then 0x3FFFF#32
  else if 0x610 ≤ a ∧ a < 0x630 then 0xFFFF#32
  else if a = 0x88 ∨ a = 0x8C then 0xFF0000#32
  else if a = 0x10010 then 0xFFFFFFFF#32
  else if a = 0x10014 then 0xFF#32
  else if 0x10110 ≤ a ∧ a < 0x10120 then 0x8000FFFF#32
  else if 0x10200 ≤ a ∧ a < 0x10300 then (if a % 0x10 = 0xC then 0x80FF0FFF#32 else 0xFFFFFFFF#32)
  else if 0x20000 ≤ a ∧ a < 0x20800 then
    if a % 0x80 = 0 then 0x873FFFFF#32 else if 0x10 ≤ a % 0x80 ∧ a % 0x80 < 0x50 then 0x81000F0F#32 else 0
  else if a = 0x22000 then privMask
  else if a = 0x22030 then 0xC1F00FFF#32
  else if a = 0x50100 then 0x80000000#32
  else if 0x100000 ≤ a ∧ a < 0x140000 ∧ unitBase a ≠ a then
    (if a % 0x80 < 0x38 then 0xFFFFFFFF#32 else 0)
  else if 0x100000 ≤ a ∧ a < 0x140000 ∧ 0x400 ≤ o ∧ o < (if a < 0x13F000 then 0x700 else 0xC00) then loopCfgMask
  else if 0x150000 ≤ a ∧ a < 0x153000 ∧ 0x20 ≤ o ∧ o < 0x30 then 0xFF0000#32
  else 0

/-- The RW bits of the register at `a` that a parameter set holds: neither AON's nor the safety block's (R495). -/
def setMask (s : State) (a : Nat) : Word :=
  match regDef s.aon.straps a with
  | none => 0
  | some d => if d.owner = .aon then 0 else d.committed ||| d.direct ||| heldMask a

/-- The address blocks that hold registers, and how many words of each. -/
def mapBlocks : List (Nat × Nat) :=
  [(0, 0x840), (0x10000, 0x300), (0x20000, 0x800), (0x21000, 0x400), (0x22000, 0x120), (0x23000, 0x400), (0x40000, 0x120),
    (0x50000, 0x140), (0x60000, 0x500), (0x64000, 0x4400), (0x70000, 0xC)]
    ++ (List.range 64).map (fun n => (ctxBase n, 0xC80)) ++ (List.range 9).map (fun f => (fltBase f, 0x120))
    ++ (List.range 3).map (fun h => (hallBase h, 0x64))

/-- Every address of a parameter set, ascending. -/
def setAddrs (s : State) : List Nat :=
  (mapBlocks.flatMap fun b => (List.range (b.2 / 4)).map fun i => b.1 + 4 * i).filter fun a => setMask s a != 0

/-- The domain of an address is OFF, so its fields hold nothing. -/
def fieldsGone (s : State) (a : Nat) : Bool :=
  match ownerOf a with
  | some (.dom d) => s.domSt d == .off
  | _ => false

/-- The fields as they stand. -/
def setRegs (s : State) : Table Word :=
  ((setAddrs s).filter fun a => !fieldsGone s a).map fun a => (a, regView a s &&& setMask s a)

/-- Parameter-set work runs: a record being written, or the erase of the other copy (R494). -/
def State.setBusy (s : State) : Bool :=
  s.nvm.jobs.any (fun j => j.record.type == 0x01) || decide ((s.nvm.erasing.getD 120) < 120)
    || (s.nvm.eraseQ ++ s.nvm.eraseAgain).any fun x => decide (x < 120)

/-- The newest valid set and whether it is copy B: the higher generation modulo 2^32. -/
def State.newestSet (s : State) : Option (Bool × ParamSet) :=
  match s.paramSet false, s.paramSet true with
  | some a, some b => if (b.gen + 2 ^ 32 - a.gen) % 2 ^ 32 < 2 ^ 31 ∧ a.gen ≠ b.gen then some (true, b) else some (false, a)
  | some a, none => some (false, a)
  | none, some b => some (true, b)
  | none, none => none

/-- NVM_STORE (R495). -/
def execNvmStore (w : List Word) (s : State) : Res :=
  .next <| command w.isEmpty (fun s =>
    if !s.isOn .nvm then refuse .domainOff s
    else if s.setBusy then refuse .nvmBusy s
    else
      let old := s.newestSet
      let gen := match old with
        | some x => (x.2.gen + 1) % 2 ^ 32
        | none => 1
      let copyB := match old with
        | some x => !x.1
        | none => false
      let p : ParamSet := { gen := gen, regs := setRegs s, images := s.cells.toList.map (·.image) }
      reply .accepted [BitVec.ofNat 32 gen] (nvmWrite 0x01 0 (.param copyB p) .store s)) s

/-- Units of a set whose fields differ from what stands; TB_INCR is left to a servo that owns it (R61). -/
def setUnits (p : ParamSet) (s : State) : List (Nat × List (Nat × Word)) :=
  let differs := fun (x : Nat × Word) => decide (regView x.1 s &&& setMask s x.1 ≠ x.2)
  (units p.regs).filter fun u => u.2.any differs && !(u.1 == 0x10010 && s.servoOwns)

/-- Images of a set that differ: cell and bytes. -/
def setImages (p : ParamSet) (s : State) : List (Nat × List Byte) :=
  ((List.range 63).map fun k => (k, p.images.getD k [])).filter fun x => x.2 != (s.cell x.1).image && x.2.length == 1040

/-- A set applied as CFG_WRITE of its fields and one CFG_COMMIT, as a whole or not at all; then the images (R496), with the
transfers that waited for their copies to pass (R276). -/
def applySet (p : ParamSet) (s : State) : Status × Nat × State :=
  let us := setUnits p s
  let imgs := setImages p s
  let w := cfgWrite (us.flatMap (·.2)) { s with pend := [] }
  let off := imgs.any fun x => !s.hallOn (x.1 / 21)
  let r := if w.1 = .ok then commit false w.2 else (w.1, 0xFFFFFF, w.2)
  let st := firstStatus r.1 (if off then .domainOff else .ok)
  if st ≠ .ok then (st, r.2.1, cfgResult st r.2.1 s)
  else
    let s := each imgs (fun x s => s.setCell x.1 fun c => { c with image := x.2 }) r.2.2
    let ks := (List.range 63).filter fun k => (s.cell k).imgDue || (imgs.map (·.1)).contains k
    (.ok, r.2.1, each ks startTransfer s)

/-- The set NVM_LOAD names: 0 the newest, 1 copy A, 2 copy B. -/
def State.namedSet (s : State) (n : Nat) : Option ParamSet :=
  match n with
  | 0 => s.newestSet.map (·.2)
  | 1 => s.paramSet false
  | _ => s.paramSet true

/-- The reply of NVM_LOAD: the generation loaded and the address word. -/
def loadReply (gen : Nat) (r : Status × Nat × State) : State :=
  reply r.1 [BitVec.ofNat 32 gen, BitVec.ofNat 32 r.2.1] r.2.2

/-- NVM_LOAD (R496). -/
def execNvmLoad (w : List Word) (s : State) : Res :=
  .next <| command (w.length == 1) (fun s =>
    let n := fld (wd w 0) 0 2
    if !s.isOn .nvm then loadReply 0 (.domainOff, 0xFFFFFF, s)
    else if n = 3 then loadReply 0 (.badParam, 0xFFFFFF, s)
    else if s.setBusy then loadReply 0 (.nvmBusy, 0xFFFFFF, s)
    else match s.namedSet n with
      | none => loadReply 0 (.nvmFail, 0xFFFFFF, cfgResult .nvmFail 0xFFFFFF s)
      | some p =>
        let r := applySet p s
        loadReply (if r.1 = .ok then p.gen else 0) r) s

/-- The contents of a set as the active forwards them: the generation, the fields in pairs and the images. The manual
gives no layout of these words; this is the model's own. -/
def setWords (p : ParamSet) : List Word :=
  [BitVec.ofNat 32 p.gen, BitVec.ofNat 32 p.regs.length] ++ p.regs.flatMap (fun x => [BitVec.ofNat 32 x.1, x.2])
    ++ p.images.flatMap bytesWords

/-- The set of such words. -/
def wordsSet (w : List Word) : ParamSet :=
  let n := (wd w 1).toNat
  let regs := (List.range n).map fun i => ((wd w (2 + 2 * i)).toNat, wd w (3 + 2 * i))
  let rest := w.drop (2 + 2 * n)
  { gen := (wd w 0).toNat, regs := regs
    images := (List.range (rest.length / 260)).map fun k => wordBytes ((rest.drop (260 * k)).take 260) }

end Sys2Proof.Machine
end

