-- ==== Sys2Proof/Machine/System.lean ====
section
/-! DEFINITION. The system opcodes that name the device and its events, the firing of compares, the errors of the time
base, and the management port (R69 to R76, R86, R89, R448, R466, R467, R483, R503, R504). -/

namespace Sys2Proof.Machine

open Sys2Proof

/-! NOP, IDENTIFY, STATUS (Table 15-2). -/

def nop (w : List Word) (s : State) : State := if 1 < w.length then refuse .badLength s else refuse .ok s

def execNop (w : List Word) (s : State) : Res := .next (if s.isOn .atrium then nop w s else refuse .domainOff s)

/-- RESYNC: the queue expects the next number, and its duplicate records are forgotten (R472). -/
def execResync (q : Fin 64) (sn : Word) (s : State) : Res :=
  .next (if s.isOn .atrium then
    refuse .ok (s.setQueue q.val fun x => { x with expect := sn + 1, recent := [] })
  else refuse .domainOff s)

/-- The five words of IDENTIFY. -/
def identityWords (s : State) : List Word :=
  let x := s.aon.straps
  [sysId, firmware, pack [(0, 4, x.pos.val), (4, 2, x.role.val), (6, 2, x.addr.val)], lowW Config.dieSerial,
    highW Config.dieSerial]

def identify (w : List Word) (s : State) : State :=
  if !w.isEmpty then refuse .badLength s else reply .ok (identityWords s) s

def execIdentify (w : List Word) (s : State) : Res := .next (if s.isOn .atrium then identify w s else refuse .domainOff s)

/-- Events pending. -/
def State.evtCount (s : State) : Nat := ((List.range 256).filter fun e => (s.evt e).pend).length

/-- The nine words of STATUS; a word whose domain is not ON reads all ones. -/
def statusWords (s : State) : List Word :=
  let g := fun (d : Dom) (v : Word) => if s.isOn d then v else 0xFFFFFFFF#32
  [pwrState s, pwrBank s, pwrWakeStatus s, g .safety (safeCauseWord s), g .safety (safeStatus s), g .atrium (twinStatus s),
    g .atrium (stairStatus s), g .atrium (thmStatus s), g .atrium (BitVec.ofNat 32 s.evtCount)]

def status (w : List Word) (s : State) : State :=
  if !w.isEmpty then refuse .badLength s else reply .ok (statusWords s) s

def execStatus (w : List Word) (s : State) : Res := .next (if s.isOn .atrium then status w s else refuse .domainOff s)

/-! Events (R503, R504). -/

/-- EVENT_ROUTE: the routes of a range of events; numbers 231 to 255 name none. -/
def execEventRoute (w : List Word) (s : State) : Res :=
  .next <|
    let e := fld (wd w 0) 0 8
    let c := fld (wd w 0) 8 9
    command (!w.isEmpty && w.length == 1 + c) (fun s =>
      if c = 0 ∨ 256 < e + c ∨ (List.range c).any (fun i => decide (231 ≤ e + i) && wd w (1 + i) &&& 0xFF#32 != 0) then
        refuse .badParam s
      else
        refuse .ok (each (List.range c) (fun i s => s.setReg (0x68000 + 4 * (e + i)) (wd w (1 + i) &&& 0xFF#32)) s)) s

/-- The words of one report. -/
def reportWords (s : State) (e : Nat) : List Word :=
  let r := s.evt e
  [pack [(0, 8, e), (8, 8, r.count)], lowW r.time, highW r.time, r.data]

/-- EVENT_READ: the pending events of the range, as many as the reply holds, and with ACK those reported are cleared. -/
def execEventRead (w : List Word) (s : State) : Res :=
  .next <| command (w.length == 1) (fun s =>
    let w0 := wd w 0
    let all := bit w0 1
    let e := if all then 0 else fld w0 8 8
    let c := if all then 256 else fld w0 16 9
    if c = 0 ∨ 256 < e + c then refuse .badParam s
    else
      let found := ((List.range c).map (e + ·)).filter fun n => (s.evt n).pend
      let told := found.take ((s.replyLimit - 9) / 4)
      let words := (List.range 8).map s.pendWord
        ++ [pack [(0, 9, told.length), (16, 1, b2n (decide (told.length < found.length)))]] ++ told.flatMap (reportWords s)
      reply .ok words (if bit w0 0 then each told clearEvt s else s)) s

/-! Compares (R71, R73, R74, R76, Table 02-2). -/

/-- A compare starts a sequence that waits for one; a second compare of the same tick starts it no further (R74). -/
def compareAdc (n : Nat) (late : Bool) (s : State) : State :=
  let q := s.adc n
  if seqTrig q = 1 ∧ q.byCompare ≠ some s.tbAll then
    setAdc n (fun q => { q with byCompare := some s.tbAll }) (trigger n s.now late s)
  else s

/-- The pulse of a compare output (R75, R526). -/
def comparePulse (i width : Nat) (s : State) : State :=
  if s.gpioFunc i ≠ 4 then s
  else { s with atr := { s.atr with
    gpioPulse := s.atr.gpioPulse ||| (1#16 <<< i), gpioEnd := vset s.atr.gpioEnd i (s.now + 10 * width) } }

/-- The carrier phase count of a hall restarts at the first landing at least 2 Tc after the fire tick. -/
def carrierSync (h : Nat) (s : State) : State :=
  let t := (s.landingFrom (s.now + 2 * s.grid.tc)).1
  s.setHall h fun x => { x with syncs := x.syncs ++ [t] }

/-- The action of a compare's target. -/
def compareAction (c : Compare) (late : Bool) (s : State) : State :=
  let a := c.arg.toNat
  if !s.isOn .atrium then s
  else match c.target with
    | 1 => compareAdc a late s
    | 2 => comparePulse a c.width.toNat s
    | 3 => if capTrig s.atr.cap.cfg = 1 then capTrigger s else s
    | 4 => if (vget s.atr.inj a {}).armedTc then injBegin a s else s
    | 5 => carrierSync a s
    | _ => s

/-- A compare after it has fired at `t`: one-shot disarmed, periodic on to its next fire time. -/
def compareNext (t : Nat) (c : Compare) : Compare :=
  let p := c.period.toNat
  let next := if p = 0 then c.next else if c.lateNext then firstAfter c.time.toNat p t else c.next + p
  { c with fired := true, late := c.late || c.lateNext, lateNext := false, en := c.en && p != 0, next := next }

/-- One compare fires now and carries out its action. -/
def fireCompare (n : Nat) (s : State) : State :=
  let c := s.tc n
  compareAction c c.lateNext (s.setTc n (compareNext s.now))

/-- The armed compares but `n` that are due at this tick. -/
def State.dueWith (s : State) (n : Nat) : List Nat :=
  (List.range 16).filter fun m => m != n && (s.tc m).en && ((s.tc m).lateNext || decide ((s.tc m).next ≤ s.now))

/-- Compare `n` reaches its fire tick. Every armed compare due at that tick fires with it, in ascending n (R74); the command
of one that has so fired finds nothing left to do at this tick. -/
def execCompareFire (n : Fin 16) (s : State) : Res :=
  .next <|
    let c := s.tc n.val
    if !s.isOn .timebase then s
    else if c.firedAt = some s.tbAll then s.setTc n.val fun c => { c with firedAt := none }
    else if !c.en then s
    else
      let s := if c.lateNext then s else advanceTo c.next s
      let due := s.dueWith n.val
      let s := each due (fun m s => s.setTc m fun c => { c with firedAt := some s.tbAll }) s
      each ((List.range 16).filter fun m => m == n.val || due.contains m) fireCompare s

/-! Errors of the time base. -/

/-- HOLD_MAX of coasting has passed (R86). -/
def execTbUntrusted (s : State) : Res :=
  .next <|
    if !s.isOn .timebase || !(s.tb.lUnlock || s.tb.tUnlock) then s
    else
      let s := raise 173 0 { s with tb := { s.tb with untrusted := true } }
      if bit (s.reg 0x10104) 16 then setCause 10 s else s

/-- A gross error of the tick or of PLL-L against the RC oscillator (R89): each output in error raises the unlock event of
its PLL, also of one that coasts already. The bits T_UNLOCK and L_UNLOCK say that a PLL coasts and stay as they are
(log 75). -/
def execGrossFrequencyError (tick pllL : Bool) (s : State) : Res :=
  .next <|
    if !s.isOn .timebase || !(tick || pllL) then s
    else
      let s := { s with tb := { s.tb with gross := true } }
      let s := if tick then raise 169 0 s else s
      let s := if pllL then raise 170 0 s else s
      blockOrHandOver 11 s

/-! The management port (R448, R466, R467). -/

/-- The port takes data bytes: AON's oscillator runs and RESETn is released. -/
def State.mgmtOpen (s : State) : Bool := s.aon.rcRuns && !s.aon.held && !s.aon.porHold

/-- The byte at an address the pointer reaches: of an AON register, or of the mailbox's reply, whose byte i stands at 0xFF_FF00 + i;
any other reads 0x00 (R467, R468, log 89). -/
def mgmtByte (a : Nat) (s : State) : Byte :=
  if 0x200 ≤ a ∧ a < 0x300 then (leBytes 4 (aonView (a / 4 * 4) s).toNat).getD (a % 4) 0
  else if 0xFFFF00 ≤ a then s.aon.mailbox.getD (a - 0xFFFF00) 0
  else 0

/-- A read of `n` bytes from the pointer on, which advances with each. While RESETn is low it is answered (R456); while the oscillator
does not run yet what it returns is open (R448, log 89). -/
def mgmtRead (n : Nat) (s : State) : State :=
  if s.aon.rcRuns || s.aon.held then
    emit (.mgmtRead ((List.range n).map fun i => mgmtByte ((s.aon.ptr + i) % 2 ^ 24) s))
      (setAon (fun a => { a with ptr := (a.ptr + n) % 2 ^ 24 }) s)
  else
    let r := freeWord s
    emit (.mgmtRead ((List.range n).map fun i => BitVec.ofNat 8 (Config.freeWord (s.freeCtr + i)).toNat))
      { r.2 with freeCtr := s.freeCtr + n }

/-- The address byte of a transfer on the bus, and what a read takes: the port acknowledges its own address, taken from the straps as
last sampled, and none during power-on reset (R448, R534). The match wakes the device where WAKE_ON_ADDR is set (R449). -/
def execMgmtAddressMatch (addr : MgmtAddr) (s : State) : Res :=
  .next <|
    if s.aon.porHold || addr.addr.toNat != 0x34 + s.aon.straps.addr.val then s
    else
      let s := emit .mgmtAck s
      let s := if s.aon.wakeOnAddr then startWake s else s
      match addr.read with
      | some n => rcIdle (mgmtRead n s)
      | none => s

/-- The value a register takes from the bytes of one transfer; a byte that was not written stays as it is, and clears
nothing in a register of written-one-to-clear bits. -/
def mgmtValue (a : Nat) (written : List (Nat × Byte)) (s : State) : Word :=
  let old := if a = 0x218 ∨ a = 0x220 ∨ a = 0x224 then 0 else aonView a s
  BitVec.ofNat 32 (ofBytes ((List.range 4).map fun i =>
    ((written.find? fun x => x.1 == a + i).map (·.2)).getD ((leBytes 4 old.toNat).getD i 0)))

/-- The data bytes of a write to AON registers are acknowledged, those to another address are not (R467). -/
def mgmtAcks (ptr n : Nat) : List Bool :=
  (List.range n).map fun i => decide (0x200 ≤ ptr + i) && decide (ptr + i < 0x300)

/-- One I²C write transfer: the pointer, and data to AON registers, each of which takes its bytes when the byte at its offset + 3 is
written. Every byte is NACKed while the oscillator does not run or RESETn is low (R448, R456), and the pointer stays. A
transfer of the pointer alone goes on with a read (R466). -/
def execMgmtRegisterWrite (ptr : Nat) (bytes : List Byte) (s : State) : Res :=
  .next <|
    if s.aon.porHold then s
    else if !s.mgmtOpen then emit (.mgmtWrite (List.replicate (3 + bytes.length) false)) s
    else
      let s := emit (.mgmtWrite (List.replicate 3 true ++ mgmtAcks (ptr % 2 ^ 24) bytes.length))
        (setAon (fun a => { a with ptr := (ptr + bytes.length) % 2 ^ 24 }) s)
      let written := bytes.mapIdx fun i b => (ptr + i, b)
      let regs := ((List.range 64).map fun i => 0x200 + 4 * i).filter fun a => written.any fun x => x.1 == a + 3
      let s := each regs (fun a s =>
        let r := writeAon a (mgmtValue a written s) s
        if r.1 = .ok then r.2 else s) s
      if bytes.isEmpty then s else rcIdle s

end Sys2Proof.Machine
end

