-- ==== Sys2Proof/Machine/Dispatcher.lean ====
section
/-! DEFINITION. How packets come to execution: opcodes, the classes of a pair, the atrium sequencer's choice among the
queues, the apply instants of a pair, and the mailbox (R36, R337, R338, R461, R468, R477, R478, R479). -/

namespace Sys2Proof.Machine

open Sys2Proof

/-- The state an outcome leads to. -/
def after (r : Res) (s : State) : State :=
  match r with
  | .next t => t
  | _ => s

/-- The opcodes of Table 15-2 to Table 15-7 that carry a queue's context with them, and the loop and cell commands. -/
def runContext (op : Nat) (q : Fin 64) (w : List Word) (s : State) : Res :=
  match op with
  | 0x30 => execLoopSet q w s
  | 0x31 => execLoopCoef q w s
  | 0x32 => execLoopEnable q w s
  | 0x33 => execGroupSet q w s
  | 0x50 => execStageWrite q w s
  | 0x70 => execCellBypass q w s
  | 0x71 => execCellRestore q w s
  | 0x72 => execCtConfig q w s
  | 0x73 => execCtStatus q w s
  | _ => .next (refuse .badOpcode s)

/-- The other opcodes from 0x10 to 0x75. -/
def runDevice (op : Nat) (w : List Word) (s : State) : Res :=
  match op with
  | 0x10 => execCfgWrite w s
  | 0x11 => execCfgRead w s
  | 0x12 => execCfgCommit w s
  | 0x13 => execSignalRead w s
  | 0x14 => execSignalWrite w s
  | 0x34 => execInject w s
  | 0x35 => execCapture w s
  | 0x36 => execCaptureRead w s
  | 0x51 => execLoadAll w s
  | 0x52 => execSafeSet w s
  | 0x53 => execHallMode w s
  | 0x74 => execWearRead w s
  | 0x75 => if bit (wd w 0) 16 then execWearParamReset w s else execWearParam w s
  | _ => .next (refuse .badOpcode s)

/-- The opcodes 0x00 to 0x08. -/
def runSystem (op : Nat) (w : List Word) (s : State) : Res :=
  match op with
  | 0x00 => execNop w s
  | 0x01 => execIdentify w s
  | 0x02 => execStatus w s
  | 0x03 => execPowerSet w s
  | 0x04 => execPowerGet w s
  | 0x05 => execVcoreSet w s
  | 0x06 => execDomainReset w s
  | 0x07 => execEventRoute w s
  | 0x08 => execEventRead w s
  | _ => .next (refuse .badOpcode s)

/-- The opcodes from 0x90. -/
def runRest (op : Nat) (w : List Word) (s : State) : Res :=
  match op with
  | 0x90 => execAdcSeq w s
  | 0x91 => execAdcRead w s
  | 0x92 => execCalZero w s
  | 0x93 => execCalFull w s
  | 0x94 => execCalPriv w s
  | 0x95 => execTestDac w s
  | 0xA0 => execTbRead w s
  | 0xA1 => execTbIncr w s
  | 0xA2 => execTbAdj w s
  | 0xA3 => execTcSet w s
  | 0xA4 => execPllSet w s
  | 0xA5 => execPllCommit w s
  | 0xB0 => execSafeParam w s
  | 0xB1 => execSafeCrcRead w s
  | 0xB2 => if bit (wd w 0) 0 then execSafeConfirmWithdraw w s else execSafeConfirm w s
  | 0xB3 => execRelease w s
  | 0xB4 => execSafeStatus w s
  | 0xC0 => execNvmStore w s
  | 0xC1 => execNvmLoad w s
  | 0xC2 => execLogRead w s
  | 0xC3 => execNvmStatus w s
  | 0xD0 => execStreamSet w s
  | 0xD1 => execStreamEnable w s
  | 0xE0 => execTwinStatus w s
  | 0xE1 => execDemote w s
  | 0xE2 => execRejoin w s
  | 0xE3 => execStairStatus w s
  | _ => .next (refuse .badOpcode s)

/-- The opcode of a packet executed; one that Tables 15-2 to 15-7 do not give is refused with BAD_OPCODE. -/
def runOp (op : Byte) (q : Fin 64) (w : List Word) (s : State) : State :=
  let n := op.toNat
  after (if n < 0x10 then runSystem n w s
    else if [0x30, 0x31, 0x32, 0x33, 0x50, 0x70, 0x71, 0x72, 0x73].contains n then runContext n q w s
    else if n < 0x90 then runDevice n w s
    else runRest n w s) s

/-! The classes of a pair (Table 09-3). -/

/-- The command is of class Pair; calibration is one for cell-terminal channels. -/
def pairClass (op : Byte) (w : List Word) : Bool :=
  let n := op.toNat
  [0x03, 0x06, 0x10, 0x12, 0x14, 0x30, 0x31, 0x32, 0x33, 0x34, 0x35, 0x50, 0x51, 0x52, 0x53, 0x70, 0x71, 0x72, 0x75, 0x90,
    0x94, 0xA3, 0xB0, 0xB2, 0xB3, 0xC1].contains n
    || ((n == 0x92 || n == 0x93) && (chanCell (calChan (wd w 0))).isSome)

/-- A standby refuses the command with STATE (Table 09-3, R338). -/
def standbyRefuses (op : Byte) (w : List Word) (s : State) : Bool :=
  let n := op.toNat
  s.standby && (n == 0xE1 || n == 0xE2 || n == 0xA1 || n == 0xA2 || pairClass op w)
    && !(s.twin.state == 3 && ((n == 0x03 && !s.anyHallOn) || n == 0xB0 || n == 0xB2))

/-- The words the active forwards: NVM_LOAD goes with the contents of the set it names (R496). -/
def forwardWords (op : Byte) (w : List Word) (s : State) : List Word :=
  if op = 0xC1 then match s.namedSet (fld (wd w 0) 0 2) with
    | some p => setWords p
    | none => w
  else w

/-- NVM_LOAD that finds no set to forward is answered by the active alone. -/
def loadAnswers (op : Byte) (w : List Word) (s : State) : Bool :=
  op == 0xC1 && (w.length != 1 || !s.isOn .nvm || s.setBusy || fld (wd w 0) 0 2 == 3 || (s.namedSet (fld (wd w 0) 0 2)).isNone)

/-- The active hands a command to both devices for their apply instant, the first at least 2 µs after the packet's receipt that
has not passed (R337). -/
def forward (p : Pkt) (s : State) : State :=
  let m := (s.landingFrom (max (p.got + 2000) s.now + s.lead + 300)).1 - s.lead - 300
  let w := forwardWords p.op p.words s
  let f : Fwd := { queue := p.queue, seq := p.seq, op := p.op, words := w, at_ := m, pkt := some { p with applied := true } }
  let note := if p.transport = .i2c then none else some (p.tag, p.crc)
  let s := if s.linkUp then emit (.forward p.queue p.seq note p.op w (low40 m)) s else s
  wait (setTwin (fun t => { t with fwd := t.fwd ++ [f] }) s)

/-- The words of a refusal with STATE (R500): those of CFG_COMMIT, NVM_LOAD, RELEASE and TC_SET. -/
def stateWords (op : Byte) (w : List Word) (s : State) : List Word :=
  match op.toNat with
  | 0x12 => [0xFFFFFF#32]
  | 0xC1 => [0, 0xFFFFFF#32]
  | 0xB3 => [safeCauseWord s, safeStatus s]
  | 0xA3 => [bitAt (s.tc (fld (wd w 0) 0 4)).en 0]
  | _ => []

/-- A standby's answer to a command Table 09-3 has it refuse: what the command would be refused with in any case, where that comes
before STATE in the order of R479, else STATE. -/
def standbyAnswer (p : Pkt) (s : State) : State :=
  let t := runOp p.op p.queue p.words { s with reply := none }
  match t.reply with
  | some r => if statusRank r.status < statusRank .state then t else reply .state (stateWords p.op p.words s) s
  | none => reply .state (stateWords p.op p.words s) s

/-- A release the active does not accept: it is refused here and never reaches the standby (R406, log 84). -/
def releaseAnswers (op : Byte) (s : State) : Bool := op == 0xB3 && !s.releaseOk

/-- A packet executed by this device, or handed to both. -/
def execute (p : Pkt) (s : State) : State :=
  if standbyRefuses p.op p.words s then standbyAnswer p s
  else if s.twin.state == 1 && s.paired && pairClass p.op p.words && !loadAnswers p.op p.words s && !releaseAnswers p.op s then
    forward p s
  else runOp p.op p.queue p.words s

/-- A packet in hand: executed, then answered, or its queue held while it waits (R477). -/
def serve (p : Pkt) (run : State → State) (s : State) : State :=
  let s := run { s with host := { s.host with cur := some p } }
  let s := { s with host := { s.host with cur := none } }
  match s.reply with
  | some r => answer p r s
  | none => if p.transport = .i2c then s else s.setQueue p.queue.val fun q => { q with held := true }

/-! QUEUE_DISPATCH (R461, R477). -/

/-- Words of the largest reply of an opcode (Tables 15-2 to 15-7), within the 1020 words of one reply (R463). EVENT_READ reports at
most the 231 events there are (Table 14-8). -/
def largestWords (op : Nat) : Nat :=
  match op with
  | 0x01 => 5 | 0x02 => 9 | 0x03 => 2 | 0x04 => 9 | 0x05 => 1 | 0x08 => 933
  | 0x11 => 1019 | 0x12 => 1 | 0x13 => 1019
  | 0x31 => 2 | 0x32 => 2 | 0x33 => 2 | 0x36 => 1020
  | 0x50 => 2 | 0x51 => 5 | 0x52 => 2 | 0x53 => 2
  | 0x70 => 2 | 0x71 => 2 | 0x72 => 260 | 0x73 => 23 | 0x74 => 261
  | 0x91 => 16 | 0xA0 => 6 | 0xA2 => 2 | 0xA3 => 1 | 0xA5 => 2
  | 0xB1 => 65 | 0xB3 => 2 | 0xB4 => 4 | 0xC0 => 1 | 0xC1 => 2 | 0xC2 => 1017 | 0xC3 => 6
  | 0xD1 => 2 | 0xE0 => 4 | 0xE1 => 2 | 0xE3 => 3
  | _ => 0

/-- Bytes of the largest reply of a packet's opcode. -/
def largestReply (p : Pkt) : Nat := 24 + 4 * largestWords p.op.toNat

/-- The head of a queue, where it is ready. -/
def ready (s : State) (n : Nat) : Option Pkt :=
  let q := s.queue n
  match q.pkts with
  | p :: _ =>
    if q.held || decide (s.now < p.execAt) || (p.transport == .spi && decide (65536 < s.rsBytes + largestReply p)) then none
    else some p
  | [] => none

/-- Of two packets the one of higher priority, and of equal priorities the one that arrived first. -/
def sooner (a b : Pkt) : Pkt :=
  if b.prio < a.prio ∨ (a.prio = b.prio ∧ a.arrival < b.arrival) then a else b

/-- The packet the sequencer takes. -/
def chosen (s : State) : Option Pkt :=
  ((List.range 64).filterMap (ready s)).foldl (fun a p => some (match a with | some x => sooner x p | none => p)) none

/-- A packet whose stored words are lost is answered with INTERNAL and logged (R478, R497). -/
def internal (s : State) : State := logRecord 0 0x20 0xFFFF 0 (s.safe.cause.setWidth 32) (refuse .internal s)

/-- The sequencer still executes a packet: a DOMAIN_RESET, which is none of those that wait, until its domain is back ON (R477). -/
def State.sequencerBusy (s : State) : Bool :=
  match s.aon.seq with
  | some q => q.kind != .wake && q.kind != .set && q.pkt.any fun p => p.transport != .i2c && !p.applied
  | none => false

def execQueueDispatch (s : State) : Res :=
  .next <|
    if !s.isOn .atrium || s.atr.halted || s.sequencerBusy then s
    else match chosen s with
      | none => s
      | some p => serve p (if p.ecc then internal else execute p) s

/-! PAIR_APPLY_INSTANT (R337). -/

/-- The forwarded command whose apply instant comes first, and the others. -/
def earliest (l : List Fwd) : Option (Fwd × List Fwd) :=
  match l with
  | [] => none
  | f :: r => match earliest r with
    | some (g, t) => if g.at_ < f.at_ then some (g, f :: t) else some (f, r)
    | none => some (f, [])

/-- Two words of an announcement as one number. -/
def wordPair (w : List Word) (i : Nat) : Nat := (wd w (2 * i)).toNat + (wd w (2 * i + 1)).toNat * 2 ^ 32

/-- A forwarded command runs on this device. An announcement of the stairwell travels under the opcode of LOAD_ALL with
its two or three numbers (R383), and NVM_LOAD with the contents of its set (R496). A calibration runs on the active alone, whose
coefficients come under the opcode of CAL_FULL with their channel (R338, log 47). A standby that is not in step takes no part in a
release (R406). -/
def runForwarded (f : Fwd) (s : State) : State :=
  if f.op = 0xB3 ∧ s.standby ∧ s.twin.state ≠ 2 then s
  else if f.op = 0x03 then powerSet f.words s
  else if f.pkt.isNone ∧ (f.op = 0x92 ∨ f.op = 0x93) then (if f.words.length = 3 then takeCal f.words s else s)
  else if f.op = 0x51 ∧ f.words.length = 4 then (announced (near40 (wordPair f.words 1) s) s).2.2
  else if f.op = 0x51 ∧ f.words.length = 6 then moveTc (wordPair f.words 1) (near40 (wordPair f.words 2) s) s
  else if f.op = 0xE3 ∧ f.words.length = 3 then takeForwardedBeacon f.words s
  else if f.op = 0xE4 ∧ 4 ≤ f.words.length then (if s.newel then stairSend true 5 0xFF (shareBytes (shareOf f.words)) s else s)
  else if f.op = 0xC1 ∧ 2 ≤ f.words.length then
    let r := applySet (wordsSet f.words) s
    loadReply (if r.1 = .ok then (wd f.words 0).toNat else 0) r
  else runOp f.op f.queue f.words s

/-- The answer of a forwarded command, which its device's own record keeps for a duplicate after a takeover (R473). -/
def noteDone (f : Fwd) (s : State) : State :=
  match f.note, s.reply with
  | some n, some r => s.setQueue f.queue.val fun q =>
      let put := fun (x : Recent) =>
        if x.seq = f.seq ∧ x.tag = n.1 ∧ x.crc = n.2 then { x with answer := some { r with pair := true }, time := s.now } else x
      { q with recent := q.recent.map put, fwdRecent := q.fwdRecent.map put }
  | _, _ => s

def execPairApplyInstant (s : State) : Res :=
  .next <|
    if !s.paired then s
    else match earliest s.twin.fwd with
      | none => s
      | some (f, r) =>
        let s := advanceTo f.at_ (setTwin (fun t => { t with fwd := r }) s)
        match f.pkt with
        | some p => serve p (runForwarded f) s
        | none => noteDone f (runForwarded f { s with reply := none })

/-! The mailbox (R468). -/

/-- The words opcode `n` of the mailbox takes (Table 15-2). -/
def mailboxCount (n words : Nat) : Bool := if n = 0 then decide (words ≤ 1) else if n = 3 then words == 2 else words == 0

/-- The opcodes AON executes itself, whatever the state of ATRIUM; a wrong count of words goes before a not-before time (R479). -/
def runMailbox (p : Pkt) (nb : Nat) (s : State) : State :=
  if 4 < p.op.toNat then refuse .badOpcode s
  else if !mailboxCount p.op.toNat p.words.length then refuse .badLength s
  else if nb ≠ 0 then refuse .badParam s
  else match p.op.toNat with
    | 0 => nop p.words s
    | 1 => identify p.words s
    | 2 => status p.words s
    | 3 => execute p s
    | _ => after (execPowerGet p.words s) s

/-- A packet submitted at the STOP: 3 bytes of the pointer and the packet's, all acknowledged where the port takes data. A new packet
discards an unread reply; one that fails step 1 is discarded and counted (R468, R470). Its queue is not used, only echoed (R469). -/
def execMailboxPacket (bytes : List Byte) (s : State) : Res :=
  .next <|
    if s.aon.porHold then s
    else if !s.mgmtOpen then emit (.mgmtWrite (List.replicate (3 + bytes.length) false)) s
    else
      let s := emit (.mgmtWrite (List.replicate (3 + bytes.length) true))
        (setAon (fun a => { a with mailbox := [], ptr := (0xFFFF00 + bytes.length) % 2 ^ 24 }) s)
      rcIdle <| if badMark bytes then (if s.isOn .atrium then discardFrame s else s)
      else
        let p := headerOf .i2c {} bytes
        if !lengthOk .i2c bytes s then turnAway p .badLength [] s
        else if !crcOk bytes then
          turnAway p .badCrc [] (if s.isOn .atrium then
            raise 219 2 { s with host := { s.host with crcErr := satInc 255 s.host.crcErr } } else s)
        else serve p (runMailbox p (fieldAt bytes 12 4)) s

end Sys2Proof.Machine
end

