-- ==== Sys2Proof/Machine/Dispatch.lean ====
section
/-! DEFINITION. The effect of each command: one arm per row of spec/opcode_table.json. -/

namespace Sys2Proof.Machine

open Sys2Proof

/-- The effect of command `i` on everything but the queue. -/
def exec (i : Instr) (s : State) : Host.Outcome State Fault Refusal :=
  match i with
  | .nop w => Sys2Proof.Machine.execNop w s
  | .resync q x => Sys2Proof.Machine.execResync q x s
  | .identify w => Sys2Proof.Machine.execIdentify w s
  | .status w => Sys2Proof.Machine.execStatus w s
  | .powerSet w => Sys2Proof.Machine.execPowerSet w s
  | .powerGet w => Sys2Proof.Machine.execPowerGet w s
  | .vcoreSet w => Sys2Proof.Machine.execVcoreSet w s
  | .domainReset w => Sys2Proof.Machine.execDomainReset w s
  | .eventRoute w => Sys2Proof.Machine.execEventRoute w s
  | .eventRead w => Sys2Proof.Machine.execEventRead w s
  | .cfgWrite w => Sys2Proof.Machine.execCfgWrite w s
  | .cfgRead w => Sys2Proof.Machine.execCfgRead w s
  | .cfgCommit w => Sys2Proof.Machine.execCfgCommit w s
  | .cfgCommitCheck w => Sys2Proof.Machine.execCfgCommitCheck w s
  | .cfgCommitDiscard w => Sys2Proof.Machine.execCfgCommitDiscard w s
  | .signalRead w => Sys2Proof.Machine.execSignalRead w s
  | .signalWrite w => Sys2Proof.Machine.execSignalWrite w s
  | .loopSet q w => Sys2Proof.Machine.execLoopSet q w s
  | .loopCoef q w => Sys2Proof.Machine.execLoopCoef q w s
  | .loopEnable q w => Sys2Proof.Machine.execLoopEnable q w s
  | .groupSet q w => Sys2Proof.Machine.execGroupSet q w s
  | .inject w => Sys2Proof.Machine.execInject w s
  | .capture w => Sys2Proof.Machine.execCapture w s
  | .captureRead w => Sys2Proof.Machine.execCaptureRead w s
  | .stageWrite q w => Sys2Proof.Machine.execStageWrite q w s
  | .loadAll w => Sys2Proof.Machine.execLoadAll w s
  | .safeSet w => Sys2Proof.Machine.execSafeSet w s
  | .safeRequest w => Sys2Proof.Machine.execSafeRequest w s
  | .hallMode w => Sys2Proof.Machine.execHallMode w s
  | .cellBypass q w => Sys2Proof.Machine.execCellBypass q w s
  | .cellRestore q w => Sys2Proof.Machine.execCellRestore q w s
  | .ctConfig q w => Sys2Proof.Machine.execCtConfig q w s
  | .ctConfigRead q w => Sys2Proof.Machine.execCtConfigRead q w s
  | .clrPerm q w => Sys2Proof.Machine.execClrPerm q w s
  | .ctStatus q w => Sys2Proof.Machine.execCtStatus q w s
  | .wearRead w => Sys2Proof.Machine.execWearRead w s
  | .wearParam w => Sys2Proof.Machine.execWearParam w s
  | .wearParamReset w => Sys2Proof.Machine.execWearParamReset w s
  | .adcSeq w => Sys2Proof.Machine.execAdcSeq w s
  | .adcRead w => Sys2Proof.Machine.execAdcRead w s
  | .calZero w => Sys2Proof.Machine.execCalZero w s
  | .calFull w => Sys2Proof.Machine.execCalFull w s
  | .calPriv w => Sys2Proof.Machine.execCalPriv w s
  | .testDac w => Sys2Proof.Machine.execTestDac w s
  | .testDacGain w => Sys2Proof.Machine.execTestDacGain w s
  | .testDacOpen w => Sys2Proof.Machine.execTestDacOpen w s
  | .testDacOut w => Sys2Proof.Machine.execTestDacOut w s
  | .tbRead w => Sys2Proof.Machine.execTbRead w s
  | .tbIncr w => Sys2Proof.Machine.execTbIncr w s
  | .tbAdj w => Sys2Proof.Machine.execTbAdj w s
  | .tcSet w => Sys2Proof.Machine.execTcSet w s
  | .pllSet w => Sys2Proof.Machine.execPllSet w s
  | .pllCommit w => Sys2Proof.Machine.execPllCommit w s
  | .safeParam w => Sys2Proof.Machine.execSafeParam w s
  | .safeCrcRead w => Sys2Proof.Machine.execSafeCrcRead w s
  | .safeConfirm w => Sys2Proof.Machine.execSafeConfirm w s
  | .safeConfirmWithdraw w => Sys2Proof.Machine.execSafeConfirmWithdraw w s
  | .release w => Sys2Proof.Machine.execRelease w s
  | .safeStatus w => Sys2Proof.Machine.execSafeStatus w s
  | .nvmStore w => Sys2Proof.Machine.execNvmStore w s
  | .nvmLoad w => Sys2Proof.Machine.execNvmLoad w s
  | .logRead w => Sys2Proof.Machine.execLogRead w s
  | .nvmStatus w => Sys2Proof.Machine.execNvmStatus w s
  | .streamSet w => Sys2Proof.Machine.execStreamSet w s
  | .streamEnable w => Sys2Proof.Machine.execStreamEnable w s
  | .twinStatus w => Sys2Proof.Machine.execTwinStatus w s
  | .demote w => Sys2Proof.Machine.execDemote w s
  | .rejoin w => Sys2Proof.Machine.execRejoin w s
  | .stairStatus w => Sys2Proof.Machine.execStairStatus w s
  | .tbTimeLatch => Sys2Proof.Machine.execTbTimeLatch s
  | .tbSyncStampLatch => Sys2Proof.Machine.execTbSyncStampLatch s
  | .unwrap f => Sys2Proof.Machine.execUnwrap f s
  | .fltSurveyGo f v => Sys2Proof.Machine.execFltSurveyGo f v s
  | .surveyDone f loop => Sys2Proof.Machine.execSurveyDone f loop s
  | .demand => Sys2Proof.Machine.execDemand s
  | .force => Sys2Proof.Machine.execForce s
  | .promote => Sys2Proof.Machine.execPromote s
  | .followerRestore => Sys2Proof.Machine.execFollowerRestore s
  | .wakeGo => Sys2Proof.Machine.execWakeGo s
  | .evtPendClear j v => Sys2Proof.Machine.execEvtPendClear j v s
  | .untrustedClear => Sys2Proof.Machine.execUntrustedClear s
  | .ptpTxGo n => Sys2Proof.Machine.execPtpTxGo n s
  | .ptpTxDone n => Sys2Proof.Machine.execPtpTxDone n s
  | .sensorFailClear x => Sys2Proof.Machine.execSensorFailClear x s
  | .sensorPinClear x => Sys2Proof.Machine.execSensorPinClear x s
  | .gpioFuncChange j func => Sys2Proof.Machine.execGpioFuncChange j func s
  | .mgmtRegisterWrite ptr bytes => Sys2Proof.Machine.execMgmtRegisterWrite ptr bytes s
  | .mgmtAddressMatch addr => Sys2Proof.Machine.execMgmtAddressMatch addr s
  | .mailboxPacket bytes => Sys2Proof.Machine.execMailboxPacket bytes s
  | .commandPacket t src bytes => Sys2Proof.Machine.execCommandPacket t src bytes s
  | .rsRead n => Sys2Proof.Machine.execRsRead n s
  | .statRead => Sys2Proof.Machine.execStatRead s
  | .spiCodeIgnored code => Sys2Proof.Machine.execSpiCodeIgnored code s
  | .arpRequest ip src => Sys2Proof.Machine.execArpRequest ip src s
  | .ptpFrameRx dst dport src ns frac payload => Sys2Proof.Machine.execPtpFrameRx dst dport src ns frac payload s
  | .ethFrameDiscard => Sys2Proof.Machine.execEthFrameDiscard s
  | .queueDispatch => Sys2Proof.Machine.execQueueDispatch s
  | .packetExecuteTime q => Sys2Proof.Machine.execPacketExecuteTime q s
  | .gatherDeparture => Sys2Proof.Machine.execGatherDeparture s
  | .gatherReturn f west tg train => Sys2Proof.Machine.execGatherReturn f west tg train s
  | .gatherLost f west => Sys2Proof.Machine.execGatherLost f west s
  | .atriumLoopStart => Sys2Proof.Machine.execAtriumLoopStart s
  | .hallSort h ok => Sys2Proof.Machine.execHallSort h ok s
  | .stageMapping f => Sys2Proof.Machine.execStageMapping f s
  | .atriumDeadline => Sys2Proof.Machine.execAtriumDeadline s
  | .commitPoint => Sys2Proof.Machine.execCommitPoint s
  | .deliverDeparture bad skip => Sys2Proof.Machine.execDeliverDeparture bad skip s
  | .keepAliveDeparture => Sys2Proof.Machine.execKeepAliveDeparture s
  | .landing => Sys2Proof.Machine.execLanding s
  | .sampleInstant => Sys2Proof.Machine.execSampleInstant s
  | .almReceived f west a1 a2 a3 => Sys2Proof.Machine.execAlmReceived f west a1 a2 a3 s
  | .ldnReceived f west => Sys2Proof.Machine.execLdnReceived f west s
  | .prbArrival f we => Sys2Proof.Machine.execPrbArrival f we s
  | .compareFire n => Sys2Proof.Machine.execCompareFire n s
  | .gpioPulseEnd j => Sys2Proof.Machine.execGpioPulseEnd j s
  | .syncOutPulse => Sys2Proof.Machine.execSyncOutPulse s
  | .syncOutPulseEnd => Sys2Proof.Machine.execSyncOutPulseEnd s
  | .syncInEdge ns frac => Sys2Proof.Machine.execSyncInEdge ns frac s
  | .refLoss => Sys2Proof.Machine.execRefLoss s
  | .plltUnlock => Sys2Proof.Machine.execPlltUnlock s
  | .plllUnlock => Sys2Proof.Machine.execPlllUnlock s
  | .pllRelock l => Sys2Proof.Machine.execPllRelock l s
  | .tbUntrusted => Sys2Proof.Machine.execTbUntrusted s
  | .grossFrequencyError tick pllL => Sys2Proof.Machine.execGrossFrequencyError tick pllL s
  | .galleryScrub g kind owner => Sys2Proof.Machine.execGalleryScrub g kind owner s
  | .dispatchTimeout => Sys2Proof.Machine.execDispatchTimeout s
  | .corridorGrantTimeout => Sys2Proof.Machine.execCorridorGrantTimeout s
  | .laneSelfTestDone l pass => Sys2Proof.Machine.execLaneSelfTestDone l pass s
  | .spareSelfTest l pass => Sys2Proof.Machine.execSpareSelfTest l pass s
  | .injectDone n => Sys2Proof.Machine.execInjectDone n s
  | .captureDone => Sys2Proof.Machine.execCaptureDone s
  | .restoreTimeout k => Sys2Proof.Machine.execRestoreTimeout k s
  | .retryTimeout k => Sys2Proof.Machine.execRetryTimeout k s
  | .derateTimeout k => Sys2Proof.Machine.execDerateTimeout k s
  | .junctionUpdate k => Sys2Proof.Machine.execJunctionUpdate k s
  | .wearJournalRound => Sys2Proof.Machine.execWearJournalRound s
  | .calRoundStart => Sys2Proof.Machine.execCalRoundStart s
  | .selfCalDone gain offset => Sys2Proof.Machine.execSelfCalDone gain offset s
  | .overlapDone mean => Sys2Proof.Machine.execOverlapDone mean s
  | .overlapTimeout => Sys2Proof.Machine.execOverlapTimeout s
  | .carrierTrigger k valley => Sys2Proof.Machine.execCarrierTrigger k valley s
  | .gpioTriggerEdge j => Sys2Proof.Machine.execGpioTriggerEdge j s
  | .adcConversionDone n e x => Sys2Proof.Machine.execAdcConversionDone n e x s
  | .sliceRequestDrop n e => Sys2Proof.Machine.execSliceRequestDrop n e s
  | .dsdFilterOutput d y => Sys2Proof.Machine.execDsdFilterOutput d y s
  | .calAverageDone => Sys2Proof.Machine.execCalAverageDone s
  | .calTimeout => Sys2Proof.Machine.execCalTimeout s
  | .testDacCheckDone diff => Sys2Proof.Machine.execTestDacCheckDone diff s
  | .testDacStall => Sys2Proof.Machine.execTestDacStall s
  | .hbtReceived h1 h2 h3 => Sys2Proof.Machine.execHbtReceived h1 h2 h3 s
  | .hbInEdge => Sys2Proof.Machine.execHbInEdge s
  | .hb1Lost => Sys2Proof.Machine.execHb1Lost s
  | .hb2Lost => Sys2Proof.Machine.execHb2Lost s
  | .twinLinkChange up => Sys2Proof.Machine.execTwinLinkChange up s
  | .demReceived => Sys2Proof.Machine.execDemReceived s
  | .decisionWord d => Sys2Proof.Machine.execDecisionWord d s
  | .commitWord fresh crcs => Sys2Proof.Machine.execCommitWord fresh crcs s
  | .measurementWord pts => Sys2Proof.Machine.execMeasurementWord pts s
  | .forwardedCommand q tag op w at40 => Sys2Proof.Machine.execForwardedCommand q tag op w at40 s
  | .pairApplyInstant => Sys2Proof.Machine.execPairApplyInstant s
  | .twinTimeMessage sum => Sys2Proof.Machine.execTwinTimeMessage sum s
  | .stateTransferUnit u => Sys2Proof.Machine.execStateTransferUnit u s
  | .rejoinTimeout => Sys2Proof.Machine.execRejoinTimeout s
  | .releasableReport x => Sys2Proof.Machine.execReleasableReport x s
  | .partnerTrainReceived f dirWest epoch => Sys2Proof.Machine.execPartnerTrainReceived f dirWest epoch s
  | .activeTrainObserved f train => Sys2Proof.Machine.execActiveTrainObserved f train s
  | .plannedTakeover => Sys2Proof.Machine.execPlannedTakeover s
  | .beacon x => Sys2Proof.Machine.execBeacon x s
  | .beaconSend => Sys2Proof.Machine.execBeaconSend s
  | .announce h m => Sys2Proof.Machine.execAnnounce h m s
  | .annAck h accepted stale => Sys2Proof.Machine.execAnnAck h accepted stale s
  | .announceTimeout => Sys2Proof.Machine.execAnnounceTimeout s
  | .timeReqSend => Sys2Proof.Machine.execTimeReqSend s
  | .timeReq x => Sys2Proof.Machine.execTimeReq x s
  | .timeResp h stamps t4 => Sys2Proof.Machine.execTimeResp h stamps t4 s
  | .share x => Sys2Proof.Machine.execShare x s
  | .statusSend => Sys2Proof.Machine.execStatusSend s
  | .stairStatusFrame h hallsOn sync => Sys2Proof.Machine.execStairStatusFrame h hallsOn sync s
  | .sigReq h pts => Sys2Proof.Machine.execSigReq h pts s
  | .sigResp h vals => Sys2Proof.Machine.execSigResp h vals s
  | .sigRespTimeout => Sys2Proof.Machine.execSigRespTimeout s
  | .telem h at40 m => Sys2Proof.Machine.execTelem h at40 m s
  | .stairPortChange sd up => Sys2Proof.Machine.execStairPortChange sd up s
  | .newelLost => Sys2Proof.Machine.execNewelLost s
  | .holdExp => Sys2Proof.Machine.execHoldExp s
  | .streamFrame x => Sys2Proof.Machine.execStreamFrame x s
  | .sinDemand j b => Sys2Proof.Machine.execSinDemand j b s
  | .sinDisc j => Sys2Proof.Machine.execSinDisc j s
  | .tpoPulse o => Sys2Proof.Machine.execTpoPulse o s
  | .testWindowEnd o => Sys2Proof.Machine.execTestWindowEnd o s
  | .fbReadbackFault => Sys2Proof.Machine.execFbReadbackFault s
  | .fbTExpiry => Sys2Proof.Machine.execFbTExpiry s
  | .checkValueRecompute => Sys2Proof.Machine.execCheckValueRecompute s
  | .hkRound th rails vdda => Sys2Proof.Machine.execHkRound th rails vdda s
  | .hkLate => Sys2Proof.Machine.execHkLate s
  | .dieShutdownCompare d t => Sys2Proof.Machine.execDieShutdownCompare d t s
  | .supplyFault p mv => Sys2Proof.Machine.execSupplyFault p mv s
  | .supplyFaultClear p mv => Sys2Proof.Machine.execSupplyFaultClear p mv s
  | .debugHalt => Sys2Proof.Machine.execDebugHalt s
  | .haltRelease => Sys2Proof.Machine.execHaltRelease s
  | .powerOnReset => Sys2Proof.Machine.execPowerOnReset s
  | .porRelease x => Sys2Proof.Machine.execPorRelease x s
  | .resetnAssert => Sys2Proof.Machine.execResetnAssert s
  | .resetnRelease x holdMs => Sys2Proof.Machine.execResetnRelease x holdMs s
  | .wakeStepDone bad ref => Sys2Proof.Machine.execWakeStepDone bad ref s
  | .wakeStepFail => Sys2Proof.Machine.execWakeStepFail s
  | .retEntryDone d => Sys2Proof.Machine.execRetEntryDone d s
  | .vcoreSettled mv => Sys2Proof.Machine.execVcoreSettled mv s
  | .phyLinkPoll r => Sys2Proof.Machine.execPhyLinkPoll r s
  | .phyResetRelease => Sys2Proof.Machine.execPhyResetRelease s
  | .nvmProgramDone ok => Sys2Proof.Machine.execNvmProgramDone ok s
  | .nvmEraseDone ok => Sys2Proof.Machine.execNvmEraseDone ok s
  | .hbtSend => Sys2Proof.Machine.execHbtSend s
  | .tpoPulseEnd o => Sys2Proof.Machine.execTpoPulseEnd o s
  | .safetyInputSample sin fb tpo => Sys2Proof.Machine.execSafetyInputSample sin fb tpo s
  | .referenceReturn => Sys2Proof.Machine.execReferenceReturn s
  | .ringPortReceiverChange f west up => Sys2Proof.Machine.execRingPortReceiverChange f west up s
  | .segmentFrames f safe => Sys2Proof.Machine.execSegmentFrames f safe s
  | .rcOscillatorRuns => Sys2Proof.Machine.execRcOscillatorRuns s
  | .stairMapPresenceLapse p => Sys2Proof.Machine.execStairMapPresenceLapse p s

end Sys2Proof.Machine
end

