-- ==== Sys2Proof/WellFormed.lean ====
section
/-! DEFINITION. Which terms of `Instr` are commands that can come: what a row's operands satisfy beyond their types. The
meanings are total and do not rest on it. -/

namespace Sys2Proof

/-- A payload is at most 1020 words long (R469, Table 14-5). -/
def payloadOk (w : List Word) : Bool := decide (w.length ≤ 1020)

/-- Bit `i` of W0, 0 where there is no payload. -/
def payloadBit (w : List Word) (i : Nat) : Bool := (w.headD 0).getLsbD i

/-- MODE of TEST_DAC: bits 31 and 30 of W0 (R330). -/
def payloadMode (w : List Word) : Nat := (w.headD 0).toNat / 2 ^ 30

/-- The operands are those the row of `i` can bring: payload lengths, the bits by which rows of one opcode differ, the 64
bytes of a report slot (R106), the 36 compared bytes of a frame (R339), nine frame CRCs (R336), a domain or bank code. -/
def Instr.wf (i : Instr) : Bool :=
  match i with
  | .galleryScrub g _ o => o.inBank g.val
  | .nop w => payloadOk w && !payloadBit w 0
  | .resync _ _ => true
  | .identify w => payloadOk w
  | .status w => payloadOk w
  | .powerSet w => payloadOk w
  | .powerGet w => payloadOk w
  | .vcoreSet w => payloadOk w
  | .domainReset w => payloadOk w
  | .eventRoute w => payloadOk w
  | .eventRead w => payloadOk w
  | .cfgWrite w => payloadOk w
  | .cfgRead w => payloadOk w
  | .cfgCommit w => payloadOk w && !payloadBit w 0 && !payloadBit w 1
  | .cfgCommitCheck w => payloadOk w && payloadBit w 0 && !payloadBit w 1
  | .cfgCommitDiscard w => payloadOk w && payloadBit w 1
  | .signalRead w => payloadOk w
  | .signalWrite w => payloadOk w
  | .loopSet _ w => payloadOk w
  | .loopCoef _ w => payloadOk w
  | .loopEnable _ w => payloadOk w
  | .groupSet _ w => payloadOk w
  | .inject w => payloadOk w
  | .capture w => payloadOk w
  | .captureRead w => payloadOk w
  | .stageWrite _ w => payloadOk w
  | .loadAll w => payloadOk w
  | .safeSet w => payloadOk w && !payloadBit w 0
  | .safeRequest w => payloadOk w && payloadBit w 0
  | .hallMode w => payloadOk w
  | .cellBypass _ w => payloadOk w
  | .cellRestore _ w => payloadOk w
  | .ctConfig _ w => payloadOk w && !payloadBit w 30 && !payloadBit w 31
  | .ctConfigRead _ w => payloadOk w && payloadBit w 30 && !payloadBit w 31
  | .clrPerm _ w => payloadOk w && payloadBit w 31 && !payloadBit w 30
  | .ctStatus _ w => payloadOk w
  | .wearRead w => payloadOk w
  | .wearParam w => payloadOk w && !payloadBit w 16
  | .wearParamReset w => payloadOk w && payloadBit w 16
  | .adcSeq w => payloadOk w
  | .adcRead w => payloadOk w
  | .calZero w => payloadOk w
  | .calFull w => payloadOk w
  | .calPriv w => payloadOk w
  | .testDac w => payloadOk w && payloadMode w == 0
  | .testDacGain w => payloadOk w && payloadMode w == 1
  | .testDacOpen w => payloadOk w && payloadMode w == 2
  | .testDacOut w => payloadOk w && payloadMode w == 3
  | .tbRead w => payloadOk w
  | .tbIncr w => payloadOk w
  | .tbAdj w => payloadOk w
  | .tcSet w => payloadOk w
  | .pllSet w => payloadOk w
  | .pllCommit w => payloadOk w
  | .safeParam w => payloadOk w
  | .safeCrcRead w => payloadOk w
  | .safeConfirm w => payloadOk w && !payloadBit w 0
  | .safeConfirmWithdraw w => payloadOk w && payloadBit w 0
  | .release w => payloadOk w
  | .safeStatus w => payloadOk w
  | .nvmStore w => payloadOk w
  | .nvmLoad w => payloadOk w
  | .logRead w => payloadOk w
  | .nvmStatus w => payloadOk w
  | .streamSet w => payloadOk w
  | .streamEnable w => payloadOk w
  | .twinStatus w => payloadOk w
  | .demote w => payloadOk w
  | .rejoin w => payloadOk w
  | .stairStatus w => payloadOk w
  | .tbTimeLatch | .tbSyncStampLatch | .unwrap _ => true
  | .fltSurveyGo _ v => v.getLsbD 31
  | .surveyDone _ _ | .demand | .force | .promote | .followerRestore | .wakeGo | .evtPendClear _ _ | .untrustedClear
  | .ptpTxGo _ | .ptpTxDone _ | .sensorFailClear _ | .sensorPinClear _ | .gpioFuncChange _ _ => true
  | .mgmtRegisterWrite p b => decide (p < 2 ^ 24) && !b.isEmpty
  | .mgmtAddressMatch _ | .mailboxPacket _ | .commandPacket _ _ _ => true
  | .rsRead n => decide (0 < n)
  | .statRead => true
  | .spiCodeIgnored c => c != 0x01 && c != 0x02 && c != 0x03
  | .arpRequest _ _ | .ptpFrameRx _ _ _ _ _ _ | .ethFrameDiscard | .queueDispatch | .packetExecuteTime _
  | .gatherDeparture => true
  | .gatherReturn _ _ _ t => decide (t.slots.length ≤ 7) && t.slots.all fun x => x.length == 64
  | .gatherLost _ _ | .atriumLoopStart | .hallSort _ _ | .stageMapping _ | .atriumDeadline | .commitPoint
  | .deliverDeparture _ _ | .keepAliveDeparture | .landing | .sampleInstant | .almReceived _ _ _ _ _
  | .ldnReceived _ _ | .prbArrival _ _ | .compareFire _ | .gpioPulseEnd _ | .syncOutPulse | .syncOutPulseEnd
  | .syncInEdge _ _ | .refLoss | .plltUnlock | .plllUnlock | .pllRelock _ | .tbUntrusted | .grossFrequencyError _ _
  | .dispatchTimeout | .corridorGrantTimeout | .laneSelfTestDone _ _ | .spareSelfTest _ _
  | .injectDone _ | .captureDone | .restoreTimeout _ | .retryTimeout _ | .derateTimeout _ | .junctionUpdate _
  | .wearJournalRound | .calRoundStart | .selfCalDone _ _ | .overlapDone _ | .overlapTimeout | .carrierTrigger _ _
  | .gpioTriggerEdge _ | .adcConversionDone _ _ _ | .sliceRequestDrop _ _ | .dsdFilterOutput _ _ | .calAverageDone
  | .calTimeout | .testDacCheckDone _ | .testDacStall | .hbtReceived _ _ _ | .hbInEdge | .hb1Lost | .hb2Lost
  | .twinLinkChange _ | .demReceived | .decisionWord _ => true
  | .commitWord _ l => l.length == 10
  | .measurementWord _ => true
  | .forwardedCommand _ _ _ w _ => payloadOk w
  | .pairApplyInstant | .twinTimeMessage _ | .stateTransferUnit _ | .rejoinTimeout | .releasableReport _
  | .partnerTrainReceived _ _ _ => true
  | .activeTrainObserved _ l => decide (24 ≤ l.length) && decide (l.length ≤ 408) && l.length % 48 == 24
  | .plannedTakeover | .beacon _ | .beaconSend | .announce _ _ | .annAck _ _ _ | .announceTimeout | .timeReqSend
  | .timeReq _ | .timeResp _ _ _ => true
  | .share x => decide (x.msg.vals.map (·.1)).Nodup
  | .statusSend | .stairStatusFrame _ _ _ | .sigReq _ _ | .sigResp _ _ | .sigRespTimeout | .telem _ _ _
  | .stairPortChange _ _ | .newelLost | .holdExp | .streamFrame _ | .sinDemand _ _ | .sinDisc _ | .tpoPulse _
  | .testWindowEnd _ | .fbReadbackFault | .fbTExpiry | .checkValueRecompute | .hkRound _ _ _ | .hkLate
  | .dieShutdownCompare _ _ | .supplyFault _ _ | .supplyFaultClear _ _ | .debugHalt | .haltRelease | .powerOnReset
  | .porRelease _ | .resetnAssert | .resetnRelease _ _ | .wakeStepDone _ _ | .wakeStepFail => true
  | .retEntryDone d => decide (d.val < 10) || decide (16 ≤ d.val)
  | .vcoreSettled _ | .phyLinkPoll _ | .phyResetRelease | .nvmProgramDone _ | .nvmEraseDone _ | .hbtSend
  | .tpoPulseEnd _ | .safetyInputSample _ _ _ | .referenceReturn | .ringPortReceiverChange _ _ _ | .segmentFrames _ _
  | .rcOscillatorRuns | .stairMapPresenceLapse _ => true

end Sys2Proof
end

