-- ==== Sys2Proof/Safety.lean ====
section
/-! DEFINITION. The terms the statements use: what an invariant of the block is, and what a command leaves unchanged. -/

namespace Sys2Proof.Machine

open Sys2Proof

/-- Every byte of the Gallery reads as before. -/
def SameGallery (s t : State) : Prop := ∀ a, memRead t.mem a = memRead s.mem a

/-- Every configuration register held by address reads and is pending as before. -/
def SameRegisters (s t : State) : Prop := t.cfg = s.cfg ∧ t.pend = s.pend

/-- The addressed bytes of the Gallery are in canonical form: addresses rising, and no byte listed that reads as an
unlisted one. -/
def State.Canonical (s : State) : Prop := Memory.wf s.mem

/-- The atrium sequencer runs and executes host commands. -/
abbrev State.Runs (s : State) : Prop := s.isOn .atrium = true

/-- The reply of a command executed is a status with its words. -/
def State.Replies (s : State) (st : Status) (ws : List Word) : Prop := s.reply = some { status := st, words := ws }

/-- A fault-log record of event `e` with `data` is on its way to NVM, or held in AON where NVM takes none (R497). -/
def Logged (e : Nat) (data : Word) (s t : State) : Prop :=
  (s.isOn .nvm = true → s.nvm.offDue = false → ∃ j ∈ t.nvm.jobs, ∃ r : LogRec,
    j.record.type = 0x20 ∧ j.record.data = .log s.nvm.boot r ∧ r.event = e ∧ r.data = data ∧ r.time = s.tb.ns) ∧
  (s.isOn .nvm = false → s.aon.heldLog.length < 16 → ∃ r ∈ t.aon.heldLog, r.event = e ∧ r.data = data ∧ r.time = s.tb.ns)

/-- What taking cause `i` does (R389, R390): its bit is set, with SAFE_DEMAND, and SAFE_BLKn is low; where no cause was set, BLK leaves
from the ends of every ring this device serves, the frames of every departure at least 200 ns later carry SAFE = block, every
restore and retry ends, and a fault-log record holds the causes. Registers, the Gallery and TB stay. -/
def Blocks (i : Nat) (s t : State) : Prop :=
  t.safe.cause = s.safe.cause ||| (1#17 <<< i) ∧ t.safeBlkHigh = false ∧
  (s.safe.cause = 0 → (s.Runs → (t.evt 192).pend = true) ∧
    (∀ f : Fin 9, s.ringUp f.val = true → ∀ w ∈ s.ends, Out.blk f w ∈ t.out) ∧
    (∀ d : Nat, s.now + 200 ≤ d → t.ssbBy d = true) ∧ t.cells = s.cells.map Cell.endRestore ∧
    Logged 192 (t.safe.cause.setWidth 32) s t) ∧
  SameRegisters s t ∧ SameGallery s t ∧ t.tb = s.tb

/-- Commands that may change bytes of the Gallery: those of power and reset that take a bank out of ON, the capture's
recording, the containment of an uncorrectable word, and those that execute a packet. -/
def mayStore (c : Instr) : Bool :=
  match c with
  | .powerSet _ | .retEntryDone _ | .wakeStepDone _ _ | .wakeStepFail | .powerOnReset | .resetnAssert | .supplyFault _ _
  | .dieShutdownCompare _ _ | .nvmProgramDone _ | .deliverDeparture _ _ | .galleryScrub _ _ _ | .queueDispatch
  | .mailboxPacket _ | .pairApplyInstant => true
  | _ => false

/-- Of these, the ones that write no byte but by taking a bank out of ON, themselves or through the packet they execute, or by
the check of a bank's retained contents (R442, R447). -/
def takesBanks (c : Instr) : Bool :=
  match c with
  | .powerSet _ | .retEntryDone _ | .wakeStepDone _ _ | .wakeStepFail | .powerOnReset | .resetnAssert | .supplyFault _ _
  | .dieShutdownCompare _ _ | .nvmProgramDone _ | .queueDispatch | .mailboxPacket _ | .pairApplyInstant => true
  | _ => false

/-- The bank that holds an address of the Gallery. -/
def bankAt (a : Nat) : Nat := a / 0x40000

/-- The command may find the retained contents of bank `g` bad (R447): a step that completes says so in its operand, and with one that
fails it is open (log 3). -/
def checkFails (c : Instr) (g : Nat) : Bool :=
  match c with
  | .wakeStepDone bad _ => bit bad (16 + g)
  | .wakeStepFail => true
  | _ => false

end Sys2Proof.Machine
end

