-- ==== Sys2Proof/Certificates/Slice0/Obligations.lean ====
section
/-! DEFINITION. The statements about the block, family by family, for the provers. -/

open Sys2Proof Sys2Proof.Machine

/-! The queue, the tick and reset. -/

/-- A step runs the command at the front of the queue on the state with the queue's rest. -/
def Obligations.StepRunsTheFrontCommand : Prop :=
  ∀ (c : Instr) (r : List Instr) (s : State),
    step { s with pending := c :: r } = exec c { s with pending := r }

/-- On an empty queue a step is one tick: TB grows by TB_INCR, modulo its 96 bits, while TIMEBASE is ON, and nothing else
changes (R54; that the empty queue ticks is the model's choice, log 1). -/
def Obligations.EmptyQueueTicks : Prop :=
  ∀ s : State, s.pending = [] →
    (s.isOn .timebase = false → step s = .next s) ∧
    (s.isOn .timebase = true → ∃ t, step s = .next t ∧ t = { s with tb := { s.tb with ns := t.tb.ns, frac := t.tb.frac } } ∧
      t.tbAll = (s.tbAll + s.tb.incr.toNat) % 2 ^ 96)

/-- Power-on reset: every bank is lost, every domain is OFF, the registers of AON read their reset values, and the queue is
empty. The memory's canonical form holds at reset. -/
def Obligations.ResetState : Prop :=
  (State.reset.pending = [] ∧ (∀ d, State.reset.domSt d = .off) ∧ (∀ g < 16, State.reset.bankSt g = .off) ∧
     State.reset.mem = [] ∧ pwrState State.reset = 0 ∧ pwrBank State.reset = 0 ∧ State.reset.aon.wakeSet = 0xCC000307#32 ∧
     pwrWakeCtrl State.reset = 0x20000000#32 ∧ pwrWakeStatus State.reset = 0 ∧ State.reset.aon.retLost = 0 ∧
     pwrReset State.reset = 0x80000000#32 ∧ pwrVcore State.reset = 0x10#32 ∧ pwrBuck State.reset = 0x00642828#32 ∧
     pwrMon State.reset = 0 ∧ State.reset.aon.mailbox = [] ∧
     State.reset.tb.incr = 0x0200000000#40 ∧ State.reset.safeBlkHigh = false ∧ State.reset.reply = none) ∧
  (State.reset.Canonical)

/-- Every step keeps the memory's canonical form. -/
def Obligations.CanonicalKept : Prop :=
  ∀ s t : State, s.Canonical → step s = .next t → t.Canonical

/-- No command puts a command into the queue or takes one out of it. -/
def Obligations.CommandsLeaveTheQueue : Prop :=
  ∀ (c : Instr) (s t : State), exec c s = .next t → t.pending = s.pending

/-- Only a command that can take a bank out of ON, record a capture or contain an uncorrectable word, and one that executes
other commands, may change a byte of the Gallery: every other one leaves each byte as it was. Of those that take banks out
of ON, or execute a packet that does, each byte reads as before, or reads 0 in a bank that is not ON after it, or in one whose
check of its retained contents failed. A deliver departure changes besides only the words of the capture's sample, and the
scrubber's finding only a capture word. -/
def Obligations.GalleryFrame : Prop :=
  (∀ (c : Instr) (s t : State), mayStore c = false → exec c s = .next t → SameGallery s t) ∧
  (∀ (c : Instr) (s t : State), takesBanks c = true → exec c s = .next t → ∀ a, memRead t.mem a = memRead s.mem a ∨
    (memRead t.mem a = 0 ∧ (t.bankSt (bankAt a) ≠ .on ∨ (checkFails c (bankAt a) = true ∧
      ∃ q, s.aon.seq = some q ∧ (16 + bankAt a, true) ∈ q.took)))) ∧
  (∀ (bad skip : BitVec 10) (s t : State), exec (.deliverDeparture bad skip) s = .next t →
    let c := s.atr.cap
    let a0 := capAddr (c.count % capDepth c.cfg * capChans c.cfg)
    ∀ a, (a < a0 ∨ a0 + 4 * capChans c.cfg ≤ a) → memRead t.mem a = memRead s.mem a ∨
      (memRead t.mem a = 0 ∧ t.bankSt (bankAt a) ≠ .on)) ∧
  (∀ (g : Fin 16) (kind : EccKind) (o : EccOwner) (s t : State), exec (.galleryScrub g kind o) s = .next t →
    ∀ a, memRead t.mem a = memRead s.mem a ∨ ∃ w, o = .capture w ∧ bankBase 6 + 4 * (w % 262144) ≤ a ∧
      a < bankBase 6 + 4 * (w % 262144) + 4)

/-! System opcodes. -/

/-- NOP, RESYNC, IDENTIFY and STATUS while ATRIUM is ON. -/
def Obligations.SystemOpcodes : Prop :=
  ∀ s : State, s.Runs →
    (∀ w : List Word, w.length ≤ 1 → exec (.nop w) s = .next { s with reply := some { status := .ok } }) ∧
    (∀ (q : Fin 64) (n : Word), exec (.resync q n) s = .next { s with
      reply := some { status := .ok }
      host := { s.host with q := vmod s.host.q q.val fun x => { x with expect := n + 1, recent := [] } } }) ∧
    exec (.identify []) s = .next { s with reply := some { status := .ok, words := [sysId, 0x0301#32,
      pack [(0, 4, s.aon.straps.pos.val), (4, 2, s.aon.straps.role.val), (6, 2, s.aon.straps.addr.val)],
      lowW Config.dieSerial, highW Config.dieSerial] } } ∧
    exec (.status []) s = .next { s with reply := some { status := .ok, words := statusWords s } }

/-- EVENT_ROUTE writes the routes of a range of events and no other; EVENT_READ reports the pending events of a range, or of all, in
their order, as many as a reply holds, and with ACK clears those and no other; an empty range, or one beyond the last event, is
refused; a write of ones to EVT_PEND clears the events it names. -/
def Obligations.EventOpcodes : Prop :=
  (∀ (s : State) (w0 : Word) (l : List Word), s.Runs → 0 < l.length → fld w0 8 9 = l.length → fld w0 0 8 + l.length ≤ 231 → ∃ t,
    exec (.eventRoute (w0 :: l)) s = .next t ∧ t.Replies .ok [] ∧
      (∀ i < l.length, t.route (fld w0 0 8 + i) = wd l i &&& 0xFF#32) ∧
      (∀ x, x < fld w0 0 8 ∨ fld w0 0 8 + l.length ≤ x → t.route x = s.route x) ∧ t = { s with reply := t.reply, cfg := t.cfg }) ∧
  (∀ (s : State) (w0 : Word), s.Runs →
    let e := if bit w0 1 then 0 else fld w0 8 8
    let c := if bit w0 1 then 256 else fld w0 16 9
    let found := ((List.range c).map (e + ·)).filter fun n => (s.evt n).pend
    let told := found.take ((s.replyLimit - 9) / 4)
    (c = 0 ∨ 256 < e + c → exec (.eventRead [w0]) s = .next { s with reply := some { status := .badParam } }) ∧
    (0 < c → e + c ≤ 256 → ∃ t, exec (.eventRead [w0]) s = .next t ∧
      t.Replies .ok ((List.range 8).map s.pendWord ++
        [pack [(0, 9, told.length), (16, 1, b2n (decide (told.length < found.length)))]] ++ told.flatMap (reportWords s)) ∧
      (∀ x, t.evt x = if bit w0 0 && told.contains x then {} else s.evt x) ∧
      t = { s with reply := t.reply, events := { s.events with slots := t.events.slots } })) ∧
  (∀ (s : State) (i : Fin 8) (v : Word), s.Runs → ∃ t, exec (.evtPendClear i v) s = .next t ∧
    (∀ x < 256, t.evt x = if x / 32 = i.val ∧ v.getLsbD (x % 32) then {} else s.evt x) ∧
    t = { s with events := { s.events with slots := t.events.slots } })


/-! The time base (chapter 2). -/

/-- TB_READ returns the count and the rate of one tick; reads of the first words of TB_TIME and TB_SYNC_STAMP latch.
TB_INCR between 0x01_FF7C_ED92 and 0x02_0083_126E is taken; outside, by the opcode and by CFG_WRITE of the register, the
status is RANGE and the previous value stays (R60); a follower or standby answers STATE. -/
def Obligations.TimeBaseReads : Prop :=
  (∀ s : State,
     (s.Runs → exec (.tbRead []) s = .next { s with reply := some { status := .ok, words := [lowW s.tb.ns, highW s.tb.ns,
       s.tb.frac, s.tb.incr.setWidth 32, BitVec.ofNat 32 (s.tb.incr.toNat / 2 ^ 32), pllStatus s] } }) ∧
     (s.isOn .timebase = true → exec .tbTimeLatch s =
       .next { s with tb := { s.tb with latchNs := s.tb.ns, latchFrac := s.tb.frac } }) ∧
     (s.isOn .timebase = true → exec .tbSyncStampLatch s =
       .next { s with tb := { s.tb with stampLatchNs := s.tb.stampNs, stampLatchFrac := s.tb.stampFrac } })) ∧
  (∀ (s : State) (lo hi : Word), s.Runs →
     let v := lo.toNat + fld hi 0 8 * 2 ^ 32
     (0x01FF7CED92 ≤ v → v ≤ 0x020083126E → s.servoOwns = false → exec (.tbIncr [lo, hi]) s =
       .next { s with reply := some { status := .ok }, tb := { s.tb with incr := BitVec.ofNat 40 v } }) ∧
     (v < 0x01FF7CED92 ∨ 0x020083126E < v → exec (.tbIncr [lo, hi]) s =
       .next { s with reply := some { status := .range } }) ∧
     (v < 0x01FF7CED92 ∨ 0x020083126E < v → s.isOn .timebase = true → exec (.cfgWrite [0x10010#32, lo, hi]) s =
       .next { s with reply := some { status := .range } }) ∧
     (0x01FF7CED92 ≤ v → v ≤ 0x020083126E → s.servoOwns = true → exec (.tbIncr [lo, hi]) s =
       .next { s with reply := some { status := .state } }))

/-- TB_ADJ with every hall OFF adds TB_INCR and the step, modulo the 96 bits of TB, and answers the new TB_NS; while any
hall is ON, and in a device whose servo owns the time base, it is refused with STATE, by the opcode and by CFG_WRITE. -/
def Obligations.TimeBaseStep : Prop :=
  ∀ (s : State) (frac lo hi : Word), s.Runs → s.isOn .timebase = true →
    (s.servoOwns = false → s.anyHallOn = false → ∃ t, exec (.tbAdj [frac, lo, hi]) s = .next t ∧
      (t.tbAll : Int) = ((s.tbAll + s.tb.incr.toNat : Int) + adjStep frac lo hi) % 2 ^ 96 ∧
      t.Replies .ok [lowW t.tb.ns, highW t.tb.ns] ∧ (s.isOn .atrium → (t.evt 172).pend = true) ∧
      SameRegisters s t ∧ SameGallery s t ∧ t.safe = s.safe ∧ t.cells = s.cells ∧ t.meas = s.meas) ∧
    (s.servoOwns = true ∨ s.anyHallOn = true →
      exec (.tbAdj [frac, lo, hi]) s = .next { s with reply := some { status := .state } } ∧
      exec (.cfgWrite [0x10018#32, frac, lo, hi]) s = .next { s with reply := some { status := .state } })

/-- TC_SET writes time, period and control of a compare together, judged at the next tick: a time to come arms it, a time
that has passed fires it late, and one more than 2^39 ns past disarms it. That FIRED and LATE stay but for ones written to them
is the model's reading (log 73). Every other compare stays as it is. A firing compare sets FIRED; a one-shot one clears EN, a periodic one goes
on to its next fire time. Every other armed compare due at the same tick fires with it, and none else; the command of one
that has so fired finds nothing left to do at that tick. -/
def Obligations.Compares : Prop :=
  (∀ (s : State) (w0 lo hi per ctl : Word), s.Runs → s.isOn .timebase = true → tcCheck per ctl s = .ok →
     let n := fld w0 0 4
     let now := (tick s).now
     let time := (dw lo hi).toNat
     ∃ t, exec (.tcSet [w0, lo, hi, per, ctl]) s = .next t ∧
       (t.tc n).time = dw lo hi ∧ (t.tc n).period = per ∧ (t.tc n).target = fld ctl 8 4 ∧
       (t.tc n).en = (bit ctl 31 && decide (now ≤ time + 2 ^ 39)) ∧
       (now ≤ time → (t.tc n).next = time ∧ (t.tc n).lateNext = false) ∧
       (time < now → (t.tc n).next = now ∧ (t.tc n).lateNext = true) ∧
       (t.tc n).fired = ((s.tc n).fired && !bit ctl 30) ∧ (t.tc n).late = ((s.tc n).late && !bit ctl 29) ∧
       t.Replies (if bit ctl 31 && decide (time < now) then .late else .ok) [bitAt (t.tc n).en 0] ∧
       (∀ m, m ≠ n → t.tc m = s.tc m) ∧ t = { s with reply := t.reply, tb := { (tick s).tb with tc := t.tb.tc } }) ∧
  (∀ (s : State) (n : Fin 16), s.isOn .timebase = true →
     ((s.tc n.val).en = true → (s.tc n.val).firedAt ≠ some s.tbAll → ∃ t,
       exec (.compareFire n) s = .next t ∧ (t.tc n.val).fired = true ∧
         ((s.tc n.val).period = 0 → (t.tc n.val).en = false) ∧
         ((s.tc n.val).period ≠ 0 → (t.tc n.val).en = true ∧ ((s.tc n.val).lateNext = false →
           (t.tc n.val).next = (s.tc n.val).next + (s.tc n.val).period.toNat)) ∧
         (∀ m < 16, m ≠ n.val → (s.tc m).en = true → (s.tc m).lateNext = true ∨ (s.tc m).next ≤ t.now →
           (t.tc m).fired = true ∧ ((s.tc m).period = 0 → (t.tc m).en = false)) ∧
         (∀ m, m ≠ n.val → (s.tc m).en = false ∨ ((s.tc m).lateNext = false ∧ t.now < (s.tc m).next) → t.tc m = s.tc m) ∧
         SameRegisters s t ∧ SameGallery s t ∧ t.safe = s.safe ∧ t.twin = s.twin) ∧
     ((s.tc n.val).firedAt = some s.tbAll →
       exec (.compareFire n) s = .next (s.setTc n.val fun c => { c with firedAt := none })))

/-- PLL_SET writes a pending copy, or refuses a divider outside its range with RANGE; PLL_COMMIT moves all four pending
copies into use on the commit tick. -/
def Obligations.PllOutputs : Prop :=
  (∀ (s : State) (a v : Word), s.Runs → a.toNat < 4 →
    let d := fld v 0 16
    let ok : Bool := if a.toNat < 2 then decide (16 ≤ d) else decide (100 ≤ d) && decide (d ≤ 500)
    exec (.pllSet [a, v]) s = .next (if ok then { s with
        reply := some { status := .ok }
        tb := { s.tb with pllPend := vset s.tb.pllPend a.toNat ⟨bit v 31, d⟩ } }
      else { s with reply := some { status := .range } })) ∧
  (∀ s : State, s.Runs → ∃ t, exec (.pllCommit []) s = .next t ∧ t.tb.pllAct = s.tb.pllPend ∧
    t.tb.pllPend = s.tb.pllPend ∧ t.Replies .ok [lowW t.tb.ns, highW t.tb.ns] ∧
    t.tb = { (tick s).tb with pllAct := s.tb.pllPend } ∧ t = { s with reply := t.reply, tb := t.tb, meas := t.meas })

/-- A lost reference unlocks both PLLs; each unlock and the return of the reference leave TB counting and set their bits;
lock regained, of whichever PLL, clears its bit, by both clears the loss, and none locks to a reference still
absent; UNTRUSTED is cleared by the host only while both are locked. HOLD_MAX of
coasting sets UNTRUSTED, and with ACTION = 1 the block takes its safe stack block; a gross error of a clock sets its
bit and takes the safe stack block (or hands over). -/
def Obligations.ClockErrors : Prop :=
  (∀ s : State, s.isOn .timebase = true →
     (∃ t, exec .refLoss s = .next t ∧
       t.tb = { s.tb with refLoss := true, lUnlock := true, tUnlock := true, reacquire := false } ∧ t.safe = s.safe ∧
       SameRegisters s t ∧ SameGallery s t) ∧
     (∃ t, exec .plltUnlock s = .next t ∧ t.tb = { s.tb with tUnlock := true } ∧ SameRegisters s t ∧ SameGallery s t) ∧
     (∃ t, exec .plllUnlock s = .next t ∧ t.tb = { s.tb with lUnlock := true } ∧ SameRegisters s t ∧ SameGallery s t) ∧
     (s.tb.refLoss = true → exec .referenceReturn s = .next { s with tb := { s.tb with reacquire := true } }) ∧
     (s.tb.refLoss = false ∨ s.tb.reacquire = true →
       (s.tb.tUnlock = false → exec (.pllRelock true) s =
         .next { s with tb := { s.tb with lUnlock := false, refLoss := false, reacquire := false } }) ∧
       (s.tb.tUnlock = true → exec (.pllRelock true) s = .next { s with tb := { s.tb with lUnlock := false } }) ∧
       (s.tb.lUnlock = false → exec (.pllRelock false) s =
         .next { s with tb := { s.tb with tUnlock := false, refLoss := false, reacquire := false } }) ∧
       (s.tb.lUnlock = true → exec (.pllRelock false) s = .next { s with tb := { s.tb with tUnlock := false } })) ∧
     (∀ l : Bool, s.tb.refLoss = true → s.tb.reacquire = false → exec (.pllRelock l) s = .next s) ∧
     exec .untrustedClear s = .next (if s.tb.lUnlock || s.tb.tUnlock then s
       else { s with tb := { s.tb with untrusted := false } })) ∧
  (∀ s : State, s.isOn .timebase = true → s.isOn .safety = true →
     (s.tb.lUnlock = true ∨ s.tb.tUnlock = true → ∃ t, exec .tbUntrusted s = .next t ∧ t.tb.untrusted = true ∧
       (bit (s.reg 0x10104) 16 = true → t.ssb = true ∧ t.safe.cause.getLsbD 10 = true) ∧
       (bit (s.reg 0x10104) 16 = false → t.safe = s.safe) ∧ SameRegisters s t ∧ SameGallery s t) ∧
     (∀ tick pll : Bool, (tick || pll) = true → ∃ t, exec (.grossFrequencyError tick pll) s = .next t ∧
       t.tb.gross = true ∧ t.safe.cause.getLsbD 11 = true ∧ t.ssb = true ∧ t.safeBlkHigh = false ∧
       SameRegisters s t ∧ SameGallery s t))

/-- SYNC_OUT rises at the due whole second and falls OUT_W µs later; an edge at SYNC_IN is stamped over the previous one;
a compare pulse ends at its instant. -/
def Obligations.SyncAndPulses : Prop :=
  ∀ s : State, s.isOn .timebase = true →
    (bit (s.reg 0x10030) 31 = true → (bit (s.reg 0x10030) 30 && s.tb.untrusted) = false → ∃ t,
      exec .syncOutPulse s = .next t ∧ t.tb.syncOut = true ∧
        t.tb.syncEnd = dueSecond s + fld (s.reg 0x10030) 0 19 * 1000 ∧ t = { s with tb := t.tb }) ∧
    ((bit (s.reg 0x10030) 30 && s.tb.untrusted) = true → ∃ t,
      exec .syncOutPulse s = .next t ∧ t.tb.syncOut = s.tb.syncOut ∧ t = { s with tb := t.tb }) ∧
    (s.tb.syncOut = true → ∃ t, exec .syncOutPulseEnd s = .next t ∧ t.tb.syncOut = false ∧ t = { s with tb := t.tb }) ∧
    (∀ (ns : BitVec 64) (frac : Word), bit (s.reg 0x10030) 29 = true → ∃ t, exec (.syncInEdge ns frac) s = .next t ∧
      t.tb = { s.tb with stampNs := ns, stampFrac := frac } ∧ t.host.ptpSrc = 2 ∧ SameRegisters s t ∧ SameGallery s t) ∧
    (∀ i : Fin 16, s.Runs → s.atr.gpioPulse.getLsbD i.val = true → ∃ t, exec (.gpioPulseEnd i) s = .next t ∧
      t.atr.gpioPulse = s.atr.gpioPulse &&& ~~~(1#16 <<< i.val) ∧
      t = { s with tb := t.tb, atr := { s.atr with gpioPulse := t.atr.gpioPulse } })

/-- A PTP frame enters the receive ring with its stamp, or is dropped and counted when the ring is full; GO queues a
transmit slot, and the sent message leaves with its bytes unaltered and its egress stamp in the slot. That a longer payload
is stored whole, that GO clears DONE, and that the message is the first min(240, length) bytes of the slot are the model's
choice (log 74). -/
def Obligations.PtpRings : Prop :=
  ∀ s : State, s.isOn .net = true →
    (∀ (dst : Word) (port : BitVec 16) (src : NetAddr) (ns : BitVec 64) (frac : Word) (p : List Byte),
      port = 319 ∨ port = 320 → bit (s.reg 0x60100) 0 = true → ptpAddr dst s = true →
      (s.host.ptpOwned = 16 → exec (.ptpFrameRx dst port src ns frac p) s =
        .next { s with host := { s.host with ptpDrop := satInc 255 s.host.ptpDrop } }) ∧
      (s.host.ptpOwned ≠ 16 → s.host.ptpHead < 16 → ∃ t, exec (.ptpFrameRx dst port src ns frac p) s = .next t ∧
        vget t.host.ptpRx s.host.ptpHead {} =
          { ns := addOfs ns (s.reg 0x60108), frac := frac, src := src, payload := p } ∧
        t.host.ptpHead = (s.host.ptpHead + 1) % 16 ∧ t.host.ptpOwned = s.host.ptpOwned + 1 ∧
        SameRegisters s t ∧ SameGallery s t)) ∧
    (∀ n : Fin 4, exec (.ptpTxGo n) s = .next { s with host := { s.host with
      ptpTx := vmod s.host.ptpTx n.val fun x => { x with go := true, done := false } } }) ∧
    (∀ n : Fin 4, (vget s.host.ptpTx n.val {}).go = true → ∃ t, exec (.ptpTxDone n) s = .next t ∧
      let x := vget s.host.ptpTx n.val {}
      vget t.host.ptpTx n.val {} =
        { x with go := false, done := true, ns := addOfs s.tb.ns (s.reg 0x6010C), frac := s.tb.frac } ∧
      Out.ptp x.port { ip := x.dst, port := x.port } (bytesAt x.payload 0 (min 240 x.length)) ∈ t.out ∧
      SameRegisters s t ∧ SameGallery s t ∧ t.tb = s.tb)


/-! Packets, queues and ports (chapter 14). -/

/-- Waiting for an instant stops at its fire tick: the first tick at which TB_NS has reached it. -/
def Obligations.FireTick : Prop :=
  ∀ (s : State) (t : Nat), s.isOn .timebase = true → 0 < s.tb.incr.toNat → s.tbAll < t * 2 ^ 32 → t + 256 < 2 ^ 64 →
    t ≤ (advanceTo t s).now ∧ (advanceTo t s).tbAll < t * 2 ^ 32 + s.tb.incr.toNat ∧
      (∃ k, (advanceTo t s).tbAll = s.tbAll + k * s.tb.incr.toNat) ∧
      advanceTo t s = { s with tb := { s.tb with ns := (advanceTo t s).tb.ns, frac := (advanceTo t s).tb.frac } }

/-- A packet over SPI that passes every check of its arrival is queued behind those of its queue, and its sequence number
is consumed; it has no reply yet. What an arriving packet is refused for: one without its mark is discarded and
counted; else BAD_LENGTH, BAD_CRC, BAD_QUEUE for a queue of depth 0, and STATE with the expected number for a sequence
number ahead of it. -/
def Obligations.PacketArrival : Prop :=
  (∀ (s : State) (src : NetAddr) (l : List Byte), s.Runs → badMark l = false → lengthOk .spi l s = true → crcOk l = true →
     let p := headerOf .spi src l
     let q := p.queue.val
     s.depth q ≠ 0 → p.seq = (s.queue q).expect → (s.queue q).pkts.length < s.depth q →
     (l.length + 63) / 64 ≤ s.sharedFree + s.ownFree q → ∃ t x, exec (.commandPacket .spi src l) s = .next t ∧
       (t.queue q).pkts = (s.queue q).pkts ++ [x] ∧ x.op = l.getD 2 0 ∧ x.words = p.words ∧ x.seq = p.seq ∧
       x.queue = p.queue ∧ x.prio = p.prio ∧ x.arrival = s.host.arrivals ∧ (t.queue q).expect = p.seq + 1 ∧
       (∀ m, m ≠ q → t.queue m = s.queue m) ∧ t = { s with reply := none, host := t.host }) ∧
  (∀ (s : State) (src : NetAddr) (l : List Byte), s.Runs →
     let p := headerOf .spi src l
     let q := p.queue.val
     (badMark l = true → exec (.commandPacket .spi src l) s =
       .next { s with host := { s.host with discard := satInc 255 s.host.discard } }) ∧
     (badMark l = false → lengthOk .spi l s = false → ∃ t, exec (.commandPacket .spi src l) s = .next t ∧
       t.Replies .badLength [] ∧ (∀ m, t.queue m = s.queue m)) ∧
     (badMark l = false → lengthOk .spi l s = true → crcOk l = false → ∃ t, exec (.commandPacket .spi src l) s = .next t ∧
       t.Replies .badCrc [] ∧ t.host.crcErr = satInc 255 s.host.crcErr ∧ (∀ m, t.queue m = s.queue m)) ∧
     (badMark l = false → lengthOk .spi l s = true → crcOk l = true →
       (s.depth q = 0 → ∃ t, exec (.commandPacket .spi src l) s = .next t ∧ t.Replies .badQueue [] ∧
         (∀ m, t.queue m = s.queue m)) ∧
       (s.depth q ≠ 0 → isResync p = false → 0 < (p.seq - (s.queue q).expect).toNat →
         (p.seq - (s.queue q).expect).toNat < 2 ^ 31 → ∃ t, exec (.commandPacket .spi src l) s = .next t ∧
           t.Replies .state [(s.queue q).expect] ∧ (∀ m, t.queue m = s.queue m))))

/-- Of the ready heads the sequencer takes the one of highest priority, and among equal priorities the first to arrive. -/
def Obligations.HighestPriorityFirst : Prop :=
  ∀ (s : State) (p : Pkt), chosen s = some p →
    (∃ n < 64, ready s n = some p) ∧
    ∀ n < 64, ∀ r, ready s n = some r → r.prio < p.prio ∨ (r.prio = p.prio ∧ p.arrival ≤ r.arrival)

/-- QUEUE_DISPATCH of a device outside a pair executes the packet taken: a NOP is answered OK, or LATE where it came late,
leaves its queue, and lets the next packet of it be ready. PACKET_EXECUTE_TIME brings the fire tick of the head's time. -/
def Obligations.QueueExecution : Prop :=
  ∀ s : State, s.Runs →
    (s.atr.halted = false → s.sequencerBusy = false → s.twin.state = 0 → ∀ (p : Pkt) (rest : List Pkt),
      chosen s = some p → p.ecc = false →
      p.transport = .spi → p.op = 0 → p.words = [] → (s.queue p.queue.val).pkts = p :: rest →
      ∃ t, exec .queueDispatch s = .next t ∧ (t.queue p.queue.val).pkts = rest ∧ (t.queue p.queue.val).held = false ∧
        t.host.rs = s.host.rs ++ [replyBytes p { status := if p.late then .late else .ok, pair := p.applied } s.now] ∧
        SameRegisters s t ∧ SameGallery s t ∧ t.tb = s.tb) ∧
    (∀ (q : Fin 64) (p : Pkt) (rest : List Pkt), (s.queue q.val).pkts = p :: rest →
      exec (.packetExecuteTime q) s = .next (advanceTo p.execAt s))

/-- The SPI and Ethernet ports: RS_READ takes items of the reply stream in order, STAT_READ shows how much waits, unknown
codes and discarded frames are counted, an ARP request for the device's address is answered, and the PHY's link and reset
are followed. -/
def Obligations.PortEvents : Prop :=
  ∀ s : State,
    (s.Runs → ∀ n, exec (.rsRead n) s = .next { s with
      out := .spi (bytesAt (takeStream n s.host.rs).1 0 n) :: s.out
      host := { s.host with rs := (takeStream n s.host.rs).2 } }) ∧
    (s.Runs → exec .statRead s = .next { s with out := .spi (leBytes 4 (spiStat s).toNat) :: s.out }) ∧
    (s.Runs → ∀ c : Byte, c ≠ 1 → c ≠ 2 → c ≠ 3 → exec (.spiCodeIgnored c) s =
      .next { s with host := { s.host with discard := satInc 255 s.host.discard } }) ∧
    (s.isOn .net = true →
      (∀ src, exec (.arpRequest (s.reg 0x60004) src) s = .next { s with out := .arpReply src :: s.out }) ∧
      exec .ethFrameDiscard s = .next { s with host := { s.host with discard := satInc 255 s.host.discard } } ∧
      exec .phyResetRelease s = .next { s with host := { s.host with phyRelease := true } } ∧
      (∀ r : PhyRead, ∃ t, exec (.phyLinkPoll r) s = .next t ∧ t.host.phyUp = r.up ∧ t.host.phySpeed = r.speed.val ∧
        (s.Runs → s.host.phyUp ≠ r.up → (t.evt 229).pend = true) ∧ (s.host.phyUp = r.up → t.events = s.events) ∧
        SameRegisters s t ∧ SameGallery s t))

/-- The management port of a device that is awake in AON: it acknowledges its own address and no other, the match wakes it where
WAKE_ON_ADDR is set, and a read takes bytes from the pointer on, which advances with each; four bytes to PWR_WAKE_SET are
acknowledged and write it where its dependencies hold, and a mailbox packet with IDENTIFY is answered in the mailbox,
whatever the state of ATRIUM. The model's choices here: a read comes with the address match and its byte count (log 72), where
the pointer stands (log 89), and that the oscillator stops after the transfer with no domain up (log 107). -/
def Obligations.ManagementPort : Prop :=
  ∀ s : State, s.mgmtOpen = true →
    (∀ a : MgmtAddr, a.addr.toNat ≠ 0x34 + s.aon.straps.addr.val → exec (.mgmtAddressMatch a) s = .next s) ∧
    (∀ a : MgmtAddr, a.addr.toNat = 0x34 + s.aon.straps.addr.val → a.read = none →
      let u := { s with out := .mgmtAck :: s.out }
      exec (.mgmtAddressMatch a) s = .next (if s.aon.wakeOnAddr then startWake u else u)) ∧
    (∀ (a : MgmtAddr) (n : Nat), a.addr.toNat = 0x34 + s.aon.straps.addr.val → a.read = some n → s.aon.wakeOnAddr = false →
      exec (.mgmtAddressMatch a) s = .next { s with
        out := .mgmtRead ((List.range n).map fun i => mgmtByte ((s.aon.ptr + i) % 2 ^ 24) s) :: .mgmtAck :: s.out
        aon := { s.aon with ptr := (s.aon.ptr + n) % 2 ^ 24, rcRuns := s.anyDomUp || s.aon.seq.isSome } }) ∧
    (∀ v : Word, wakeSetOk (v &&& 0xFFFF03FF#32) s = true →
      exec (.mgmtRegisterWrite 0x210 (leBytes 4 v.toNat)) s = .next { s with
        out := .mgmtWrite (List.replicate 7 true) :: s.out
        aon := { s.aon with
          wakeSet := v &&& 0xFFFF03FF#32, ptr := 0x214, rcRuns := s.anyDomUp || s.aon.seq.isSome } }) ∧
    (∀ l : List Byte, badMark l = false → lengthOk .i2c l s = true → crcOk l = true → fieldAt l 12 4 = 0 →
      (headerOf .i2c {} l).op = 1 → (headerOf .i2c {} l).words = [] → ∃ t, exec (.mailboxPacket l) s = .next t ∧
        t.Replies .ok (identityWords s) ∧ t.aon.mailbox = replyBytes (headerOf .i2c {} l)
          { status := .ok, words := identityWords s } s.now ∧ SameRegisters s t ∧ SameGallery s t ∧ t.tb = s.tb)


/-! Safety (chapter 11). -/

/-- The safety parameters: SAFE_PARAM writes words of the block while it is not confirmed and is refused with LOCKED while
it is; SAFE_CRC_READ and SAFE_STATUS show the block and its state. SAFE_CONFIRM with the right check value queues the
confirmation's record and waits for it; with a wrong one it is refused. WITHDRAW ends the confirmation, erases its
record and sets UNCONF. -/
def Obligations.SafetyParameters : Prop :=
  (∀ s : State, s.Runs → s.isOn .safety = true →
     (∀ (w0 : Word) (l : List Word), s.safe.confirmed = false → 0 < l.length → l.length ≤ 64 → fld w0 8 7 = l.length →
       fld w0 0 6 + l.length ≤ 64 → blockSources (blockWrite (fld w0 0 6) l s.safe.block) = true →
       blockRange (blockWrite (fld w0 0 6) l s.safe.block) = true →
       exec (.safeParam (w0 :: l)) s = .next { s with reply := some { status := .ok }
                                                      safe := { s.safe with block := blockWrite (fld w0 0 6) l s.safe.block } }) ∧
     (∀ (w0 : Word) (l : List Word), s.safe.confirmed = true → fld w0 8 7 = l.length →
       exec (.safeParam (w0 :: l)) s = .next { s with reply := some { status := .locked } }) ∧
     exec (.safeCrcRead []) s =
       .next { s with reply := some { status := .ok, words := blockCheck s.safe.block :: s.safe.block.toList } } ∧
     exec (.safeStatus []) s = .next { s with
       reply := some { status := .ok, words := [safeStatus s, safeCauseWord s, blockCheck s.safe.block, s.safe.conf] } }) ∧
  (∀ s : State, s.Runs → s.isOn .safety = true → s.isOn .nvm = true →
     (∀ w0 : Word, ∃ t, exec (.safeConfirm [w0, blockCheck s.safe.block]) s = .next t ∧ t.reply = none ∧
       t.nvm.serial = (s.nvm.serial + 1) % 2 ^ 32 ∧
       (∃ j ∈ t.nvm.jobs, j.record.type = 0x03 ∧ j.record.data = .safety s.safe.block (blockCheck s.safe.block)) ∧
       t = { s with reply := none, nvm := t.nvm }) ∧
     (∀ w0 c : Word, c ≠ blockCheck s.safe.block →
       exec (.safeConfirm [w0, c]) s = .next { s with reply := some { status := .badParam } }) ∧
     (∀ w0 w1 : Word, ∃ t, exec (.safeConfirmWithdraw [w0, w1]) s = .next t ∧ t.Replies .ok [] ∧
       t.safe.confirmed = false ∧ t.safe.cause.getLsbD 4 = true ∧ t.safe.block = s.safe.block ∧ t.safeBlkHigh = false ∧
       (∀ r ∈ t.nvm.recs, r.type ≠ 0x03) ∧ (∀ r ∈ s.nvm.recs, r.type ≠ 0x03 → r ∈ t.nvm.recs) ∧
       (∀ j ∈ t.nvm.jobs, j.record.type = 0x03 → j.dropped = true) ∧
       SameRegisters s t ∧ SameGallery s t ∧ t.tb = s.tb))

/-- RELEASE with every cause's condition met (and in a pair the partner's agreement) clears every cause and latch, drives
SAFE_BLKn high and starts FB_T; otherwise it is refused with STATE and nothing changes. Its conditions are those of Table 11-1
for each cause that is set, every enabled pair at run level for SIN_FILT samples, and SAFE_FBn low, with no gross error. -/
def Obligations.SafetyRelease : Prop :=
  (∀ s : State, s.releasable = true ↔
    s.isOn .safety = true ∧
    (s.safe.cause.getLsbD 2 = true → ∀ p < 4, s.safe.discLatch.getLsbD p = true → s.safe.seenSafe.getLsbD p = true) ∧
    (s.safe.cause.getLsbD 3 = true → ∀ p < 4, s.safe.testFail.getLsbD p = true → ∀ c < 2, ∀ o < 2,
      testOf s.safe.block p c = o + 1 → 3 ≤ vget (vget s.safe.win o {}).good p 0) ∧
    (s.safe.cause.getLsbD 4 = true → s.safe.confirmed = true) ∧
    (s.safe.cause.getLsbD 5 = true → s.safe.confirmed = true ∧ s.safe.crcOk = true) ∧
    (s.safe.cause.getLsbD 6 = true → 100 ≤ s.safe.fbLow) ∧
    (s.safe.cause.getLsbD 10 = true → s.tb.untrusted = false) ∧
    s.safe.cause.getLsbD 12 = false ∧
    (s.safe.cause.getLsbD 13 = true → s.atr.halted = false) ∧
    (s.safe.cause.getLsbD 14 = true → ∀ x : Int, Reading.val x ∈ s.therm.die.toList →
      x < s.shutLevel - 32 * (fld (s.reg 0x40024) 24 8 : Int)) ∧
    (s.safe.cause.getLsbD 15 = true → s.aon.vinUv = false ∧ s.aon.vinOv = false ∧ s.aon.vcoreBad = false ∧
      s.aon.v3p3Bad = false ∧ s.aon.vddaBad = false) ∧
    (∀ i < 4, pairEn s.safe.block i = true → sinFilt s.safe.block ≤ vget s.safe.runRun i 0) ∧
    s.safe.fbIn = false ∧ s.tb.gross = false) ∧
  ∀ s : State, s.Runs → s.isOn .safety = true →
    let pair := s.twin.state == 1 && s.twin.partnerInStep
    (s.releasable = true → (pair = false ∨ s.twin.partnerReleasable = true) → ∃ t,
      exec (.release []) s = .next t ∧ t.Replies .ok [0, safeStatus t] ∧ t.ssb = false ∧ t.safeBlkHigh = !s.aon.held ∧
        t = { s with reply := t.reply
                     safe := { s.safe with
                       cause := 0, testFail := 0, discLatch := 0, seenSafe := 0, fbWait := true, fbDiffer := 0, fbLow := 0 } }) ∧
    (s.releasable = false ∨ (pair = true ∧ s.twin.partnerReleasable = false) → exec (.release []) s =
      .next { s with reply := some { status := .state, words := [safeCauseWord s, safeStatus s] } })

/-- What sets a cause takes the safe stack block: the host's demand, a demand and a discrepancy of an enabled pair, a readback
fault, FB_T run out, and a check value that no longer matches. Each sets its bit and drives SAFE_BLKn low; where no cause
was set before, BLK leaves on every ring, the frames carry SAFE = block from the first departure at least 200 ns later,
restores and retries end, and the causes are logged (`Blocks`). No register of the configuration and no byte of the Gallery
changes. -/
def Obligations.CausesBlock : Prop :=
  ∀ s : State, s.isOn .safety = true →
    (∃ t, exec .demand s = .next t ∧ Blocks 7 s t) ∧
    (∀ (i : Fin 4) (b : Bool), s.pairOn i.val = true → ∃ t, exec (.sinDemand i b) s = .next t ∧
      t.safe.demand = s.safe.demand ||| (1#4 <<< i.val) ∧ Blocks 1 s t) ∧
    (∀ i : Fin 4, s.pairOn i.val = true → ∃ t, exec (.sinDisc i) s = .next t ∧
      t.safe.discLatch = s.safe.discLatch ||| (1#4 <<< i.val) ∧ t.safe.seenSafe.getLsbD i.val = false ∧
      (s.Runs → (t.evt (193 + i.val)).pend = true) ∧ Blocks 2 s t) ∧
    (∃ t, exec .fbReadbackFault s = .next t ∧ (s.Runs → (t.evt 197).pend = true) ∧ Blocks 6 s t) ∧
    (s.safe.fbWait = true → ∃ t, exec .fbTExpiry s = .next t ∧ t.safe.fbWait = false ∧
      (s.Runs → (t.evt 197).pend = true) ∧ Blocks 6 s t) ∧
    (s.safe.confirmed = true → blockCheck s.safe.block ≠ s.safe.conf → ∃ t,
      exec .checkValueRecompute s = .next t ∧ t.safe.crcOk = false ∧ Blocks 5 s t)

/-- A sample of the safety inputs outside test windows: the levels as they read, a channel fed from a TPO at its safe level while
VIN is below 5 V (R547), the count of consecutive safe samples of each
channel, and the demand of each pair from SIN_FILT samples on. An enabled test-pulse output falls on its grid and
opens its window, goes high again 200 µs later, and at the end of the window the channels it feeds are judged: an
output that did not read low fails all of them, else those that did not follow. That a window in which no sample fell checks
nothing is the model's reading (log 39). -/
def Obligations.SafetyInputs : Prop :=
  (∀ (s : State) (sin : Byte) (fb : Bool) (tpo : BitVec 2), s.isOn .safety = true →
     (∀ o < 2, (vget s.safe.win o {}).open_ = false ∧ (vget s.safe.win o {}).judge = false) → ∃ t,
       exec (.safetyInputSample sin fb tpo) s = .next t ∧ t.safe.fbIn = fb ∧
         (∀ ch < 8, t.safe.sinRaw.getLsbD ch = if (s.aon.vinUv || (decide (0 < s.aon.volts.vin) && decide (s.aon.volts.vin < 5000)))
           && (s.fedFrom 0 ||| s.fedFrom 1).getLsbD ch then safeLevel s.safe.block ch else sin.getLsbD ch) ∧
         (∀ ch < 8, vget t.safe.safeRun ch 0 =
           if t.safe.sinRaw.getLsbD ch = safeLevel s.safe.block ch then satInc 65535 (vget s.safe.safeRun ch 0) else 0) ∧
         (∀ i < 4, t.safe.demand.getLsbD i = (pairEn s.safe.block i &&
           (decide (sinFilt s.safe.block ≤ vget t.safe.safeRun (2 * i) 0)
             || decide (sinFilt s.safe.block ≤ vget t.safe.safeRun (2 * i + 1) 0)))) ∧
         t.safe.cause = s.safe.cause ∧ t.safe.discLatch = s.safe.discLatch ∧ t.safe.testFail = s.safe.testFail ∧
         t = { s with safe := t.safe }) ∧
  (∀ (s : State) (o : Fin 2), s.isOn .safety = true →
     let w := vget s.safe.win o.val {}
     (tpoEn s.safe.block o.val = true → ∃ t, exec (.tpoPulse o) s = .next t ∧ t.tpoHigh o.val = false ∧
       (vget t.safe.win o.val {}).open_ = true ∧ (vget t.safe.win o.val {}).before = s.safe.sinRaw ∧
       (vget t.safe.win o.val {}).at_ = t.now ∧ t = { s with tb := t.tb, safe := { s.safe with win := t.safe.win } }) ∧
     (w.low = true → ∃ t, exec (.tpoPulseEnd o) s = .next t ∧ t.tpoHigh o.val = true ∧
       vget t.safe.win o.val {} = { w with low := false } ∧
       t = { s with tb := t.tb, safe := { s.safe with win := t.safe.win } }) ∧
     (w.open_ = true → ∃ t, exec (.testWindowEnd o) s = .next t ∧ (vget t.safe.win o.val {}).open_ = false ∧
       let bad : Byte := if !w.any then 0 else if !w.readLow then s.fedFrom o.val
         else s.fedFrom o.val &&& w.before &&& w.allOne
       t.safe.testFail = s.safe.testFail ||| pairsOf bad ∧
       (pairsOf bad ≠ 0 → t.safe.cause = s.safe.cause ||| (1#17 <<< 3) ∧ t.safeBlkHigh = false) ∧
       (pairsOf bad = 0 → t.safe.cause = s.safe.cause) ∧ SameRegisters s t ∧ SameGallery s t))

/-! Power, wake and resets (chapter 13). -/

/-- POWER_SET that takes units OFF, none of them a hall or NVM: each of those units is OFF, every other one stays, and the
reply carries the new states. A second one during a wake or a POWER_SET answers BUSY, and one that breaks a dependency
answers STATE. That the command changes nothing in a device that RESETn or power-on reset holds is the model's choice (log 65);
a standby that is in step refuses with STATE (R338). POWER_SET that only brings units ON waits while its sequence runs, which brings exactly the units named
that are not ON yet. -/
def Obligations.PowerSet : Prop :=
  (∀ (s : State) (w0 w1 : Word), s.aon.held = false → s.aon.porHold = false →
     (s.aon.seq = none → s.aon.wakeDue = false → s.standby = false → powerRefused [w0, w1] s = false →
       (∀ c ∈ unitCodes, target [w0, w1] c = 0 ∨ target [w0, w1] c = 3) →
       (∀ c ∈ [4, 5, 6, 9], target [w0, w1] c = 3) → ∃ t, exec (.powerSet [w0, w1]) s = .next t ∧
         t.Replies .ok [pwrState t, pwrBank t] ∧ t.aon.seq = none ∧
         ∀ c ∈ unitCodes, t.unitSt c = if target [w0, w1] c = 0 then .off else s.unitSt c) ∧
     (∀ q, s.aon.seq = some q → exec (.powerSet [w0, w1]) s = .next { s with reply := some { status := .busy } }) ∧
     (s.aon.seq = none → powerRefused [w0, w1] s = true →
       exec (.powerSet [w0, w1]) s = .next { s with reply := some { status := .state } })) ∧
  (∀ (s : State) (w0 w1 : Word), s.aon.held = false → s.aon.porHold = false → s.standby = false → s.aon.seq = none →
     powerRefused [w0, w1] s = false → (∀ c ∈ unitCodes, target [w0, w1] c = 2 ∨ target [w0, w1] c = 3) →
     (∃ c ∈ unitCodes, target [w0, w1] c = 2 ∧ s.unitSt c ≠ .on) → ∃ t q, exec (.powerSet [w0, w1]) s = .next t ∧
       t.reply = none ∧ t.aon.seq = some q ∧ q.kind = .set ∧
       q.bring = unitCodes.filter (fun c => target [w0, w1] c == 2 && s.unitSt c != .on) ∧
       (∀ c ∈ unitCodes, t.unitSt c = s.unitSt c ∨ (c ∈ q.bring ∧ t.unitSt c = .trans)) ∧
       SameRegisters s t ∧ SameGallery s t ∧ t.tb = s.tb) ∧
  (∀ (s : State) (w : List Word),
     (s.aon.held = true ∨ s.aon.porHold = true → exec (.powerSet w) s = .next s) ∧
     (s.aon.held = false → s.aon.porHold = false → s.aon.seq = none → s.twin.state = 2 → w.length = 2 →
       (∃ c ∈ unitCodes, target w c < 3 ∧ stCode (s.unitSt c) ≠ target w c) →
       exec (.powerSet w) s = .next { s with reply := some { status := .state } }))

/-- POWER_GET reports the power words; VCORE_SET takes a setpoint in range, waits for the voltage, and is answered by its
arrival; setpoints out of range, or low while a hall is ON, are refused. -/
def Obligations.PowerReadings : Prop :=
  ∀ s : State,
    exec (.powerGet []) s = .next { s with reply := some { status := .ok, words := [pwrState s, pwrBank s,
      pwrWakeStatus s, s.aon.retLost, pwrReset s, pwrMon s, pwrVcore s,
      pack [(0, 16, s.aon.volts.vin), (16, 16, s.aon.volts.vcore)],
      pack [(0, 16, s.aon.volts.v3p3), (16, 16, if s.vddaOn then s.aon.volts.vdda else 0)]] } } ∧
    (∀ v : Word, s.Runs → let c := (v &&& 0x3F#32).toNat
      (32 < c → exec (.vcoreSet [v]) s = .next { s with reply := some { status := .range } }) ∧
      (c < 8 → s.anyHallOn = true → exec (.vcoreSet [v]) s = .next { s with reply := some { status := .state } }) ∧
      (c ≤ 32 → 8 ≤ c ∨ s.anyHallOn = false → c ≠ s.aon.vcoreCode ∨ s.aon.vcoreMoving = true →
        exec (.vcoreSet [v]) s = .next { s with
          reply := none
          aon := { s.aon with vcoreCode := c, vcoreMoving := true, vcoreWait := s.aon.vcoreWait ++ [s.host.cur] } }) ∧
      (c ≤ 32 → 8 ≤ c ∨ s.anyHallOn = false → c = s.aon.vcoreCode → s.aon.vcoreMoving = false →
        ∃ t, exec (.vcoreSet [v]) s = .next t ∧ t.Replies .ok [pack [(0, 16, t.aon.volts.vcore)]] ∧
          710 + 5 * c ≤ t.aon.volts.vcore ∧ t.aon.volts.vcore ≤ 730 + 5 * c ∧ t.aon.vcoreCode = c ∧
          t.aon.vcoreMoving = false ∧ t = { s with reply := t.reply, freeCtr := t.freeCtr, aon := t.aon })) ∧
    (∀ mv : Nat, s.aon.porHold = false → s.aon.vcoreMoving = true → ∃ t, exec (.vcoreSettled mv) s = .next t ∧
      t.aon.vcoreMoving = false ∧ t.aon.vcoreWait = [] ∧ t.aon.volts.vcore = mv ∧
      (s.aon.vcoreWait ≠ [] → t.Replies .ok [pack [(0, 16, mv)]]) ∧ SameRegisters s t ∧ SameGallery s t ∧ t.tb = s.tb)

/-- DOMAIN_RESET accepted takes its domain into transition with its registers at their reset values and its pending values
gone, runs the domain's own steps, and leaves every other unit as it is; ATRIUM cannot be reset so. -/
def Obligations.DomainReset : Prop :=
  ∀ (s : State) (w0 : Word), s.Runs →
    let d := fld w0 0 4
    (d ≤ 9 → s.isOn (domOf d) = true → s.aon.seq = none → resetOk d s = true → ∃ t q,
      exec (.domainReset [w0]) s = .next t ∧ t.reply = none ∧ t.unitSt d = .trans ∧
        (∀ c ∈ unitCodes, c ≠ d → t.unitSt c = s.unitSt c) ∧ t.aon.seq = some q ∧ q.kind = .reset (domOf d) ∧ q.bring = [d] ∧
        q.steps = (if d = 0 then [4, 5, 6, 7, 8] else [8 + d]) ∧
        (d ≠ 9 ∨ s.nvm.jobs = [] →
          (∀ x ∈ t.cfg, ownerOf x.1 ≠ some (.dom (domOf d))) ∧ (∀ x ∈ t.pend, ownerOf x.1 ≠ some (.dom (domOf d)))) ∧
        SameGallery s t) ∧
    (d = 1 → s.aon.seq = none → exec (.domainReset [w0]) s = .next { s with reply := some { status := .state } }) ∧
    (9 < d → exec (.domainReset [w0]) s = .next { s with reply := some { status := .badParam } })

/-- A wake starts with the units of PWR_WAKE_SET that are not ON, unless one runs; behind another sequence it waits (log 90). The end
of a shared step, codes 1 to 8 and the model's own 0 for banks alone (log 65), goes on to the next with its delay added and what it
brings: the bucks ready with the settings they start with, the banks that close their switches ON, the reference measured, without
which step 7 fails, and TIMEBASE ON. The end of a domain's step brings it ON, its failure takes it OFF with FAIL and
the step's code; an entry into RET completes. What an open part of a step's time is stays open (log 3). -/
def Obligations.WakeSequence : Prop :=
  ∀ s : State, s.aon.held = false → s.aon.porHold = false →
    (s.aon.seq = none → (∃ c ∈ unitCodes, bit s.aon.wakeSet c = true ∧ s.unitSt c ≠ .on) → ∃ t q,
      exec .wakeGo s = .next t ∧ t.aon.seq = some q ∧ q.kind = .wake ∧
        q.bring = unitCodes.filter (fun c => bit s.aon.wakeSet c && s.unitSt c != .on) ∧ q.steps ≠ [] ∧
        SameRegisters s t ∧ SameGallery s t) ∧
    (∀ q, s.aon.seq = some q → q.kind = .wake → exec .wakeGo s = .next s) ∧
    (∀ q, s.aon.seq = some q → q.kind ≠ .wake → exec .wakeGo s = .next { s with aon := { s.aon with wakeDue := true } }) ∧
    (∀ (q : PowerSeq) (c n : Nat) (r : List Nat) (bad : Word) (ref : Fin 4), s.aon.seq = some q → q.steps = c :: n :: r →
      c ≤ 8 → n ≤ 17 →
      (c ≠ 7 ∨ ref ≠ 0 → ∃ t q', exec (.wakeStepDone bad ref) s = .next t ∧ t.aon.seq = some q' ∧ q'.steps = n :: r ∧
        q'.kind = q.kind ∧ q'.bring = q.bring ∧ q.time + (stepDelay c).1 ≤ q'.time ∧
        q'.time ≤ q.time + (stepDelay c).1 + (stepDelay c).2 ∧
        (c = 2 → t.aon.bk0Ok = true ∧ t.aon.freqUse = s.aon.buckFreq ∧ t.aon.ilim0Use = s.aon.ilim0) ∧
        (c = 3 → t.aon.bk1Ok = true ∧ t.aon.freqUse = s.aon.buckFreq ∧ t.aon.ilim1Use = s.aon.ilim1) ∧
        (c = 0 ∨ c = 4 → ∀ g < 16, ∀ b, (16 + g, b) ∈ q.took → s.bankSt g = .trans → t.bankSt g = .on) ∧
        (c = 7 → t.tb.refRate = ref.val) ∧ (c = 8 → n ≠ 4 → t.unitSt 0 = .on) ∧
        (n = 4 ∨ 9 ≤ n → t.unitSt (stepDom n) = .trans) ∧
        (n = 0 ∨ n = 4 → ∀ g < 16, 16 + g ∈ q.bring → t.bankSt g = .on ∨ t.bankSt g = .trans)) ∧
      (c = 7 → q.kind = .wake → s.aon.wakeDue = false → ∃ t, exec (.wakeStepDone bad 0) s = .next t ∧ t.aon.seq = none ∧
        t.aon.wakeFail = true ∧ t.aon.wakeStep = 7 ∧ t.aon.wakeTime = s.aon.wakeTime)) ∧
    (∀ (q : PowerSeq) (c : Nat) (r : List Nat), s.aon.seq = some q → q.steps = c :: r → 9 ≤ c → c ≤ 17 → c ∉ r →
      (∀ bad ref, (c = 17 → s.nvm.offDue = false) → ∃ t, exec (.wakeStepDone bad ref) s = .next t ∧ t.unitSt (c - 8) = .on) ∧
      (s.aon.wakeDue = false → ∃ t, exec .wakeStepFail s = .next t ∧ t.unitSt (c - 8) = .off ∧ t.aon.wakeFail = true ∧ t.aon.wakeStep = c)) ∧
    (∀ (q : PowerSeq) (d : Fin 32), s.aon.seq = some q → q.retWait = [d.val] → q.leave = [] → d.val ∉ q.bring →
      d.val ∈ unitCodes → s.aon.wakeDue = false → ∃ t, exec (.retEntryDone d) s = .next t ∧ t.unitSt d.val = .ret)

/-- The resets: power-on reset takes every unit OFF with AON at its reset values and keeps what NVM holds; its end samples
the straps by the levels of Table 16-4; RESETn takes OFF what is ON or in transition and keeps RET, and its rise records how long it was low. -/
def Obligations.Resets : Prop :=
  ∀ s : State,
    (∃ t, exec .powerOnReset s = .next t ∧ (∀ c ∈ unitCodes, t.unitSt c = .off) ∧ t.aon = { held := s.aon.held } ∧ t.cfg = [] ∧
      t.mem = [] ∧
      t.safe = {} ∧ t.nvm.recs = s.nvm.recs ∧ t.nvm.eraseCounts = s.nvm.eraseCounts ∧ t.out = s.out) ∧
    (∀ x : StrapLevels, s.aon.porHold = true →
      let r := sampleStraps x s
      let u := { r with aon := { r.aon with porHold := false, rcRuns := true } }
      exec (.porRelease x) s = .next (rcIdle (if s.aon.auto then startWake u else u))) ∧
    (∀ x : StrapLevels, (x.role ≤ 800 ∨ (1200 ≤ x.role ∧ x.role ≤ 2100) ∨ 2500 ≤ x.role) →
      (∀ v ∈ x.pos.toList ++ x.addr.toList, v ≤ 800 ∨ 2000 ≤ v) →
      let t := sampleStraps x s
      t.aon.straps.role = (if x.role ≤ 800 then 0 else if x.role ≤ 2100 then 2 else 1) ∧
        (∀ i < 4, t.aon.straps.pos.val.testBit i = decide (2000 ≤ vget x.pos i 0)) ∧
        (∀ i < 2, t.aon.straps.addr.val.testBit i = decide (2000 ≤ vget x.addr i 0)) ∧
        t = { s with freeCtr := t.freeCtr, aon := { s.aon with straps := t.aon.straps } }) ∧
    (s.aon.porHold = false → s.aon.held = false → ∃ t, exec .resetnAssert s = .next t ∧ t.aon.held = true ∧
      t.aon.seq = none ∧ t.tb.gross = false ∧ t.safeBlkHigh = false ∧
      ∀ c ∈ unitCodes, t.unitSt c = if s.unitSt c = .ret then .ret else .off) ∧
    (∀ (x : StrapLevels) (ms : Nat), s.aon.held = true → s.aon.porHold = false → s.aon.auto = false → ∃ t,
      exec (.resetnRelease x ms) s = .next t ∧ t.aon.held = false ∧ t.aon.straps = (sampleStraps x s).aon.straps ∧ t.aon.pinReset = true ∧
        t.aon.holdMs = min 65535 ms ∧ t.aon.stuck = (s.aon.stuck || decide (1000 < ms)) ∧
        (∀ c ∈ unitCodes, t.unitSt c = s.unitSt c) ∧ SameRegisters s t ∧ SameGallery s t) ∧
    (s.aon.porHold = false → exec .rcOscillatorRuns s = .next { s with aon := { s.aon with rcRuns := true } })

/-- A supply outside its window (of VIN, below 4.2 V or above 34 V) is recorded with its reading, raises its event, and with
SAFETY ON sets cause SUPPLY; VIN low holds NVM; back inside, the fault clears. -/
def Obligations.SupplyFaults : Prop :=
  ∀ (s : State) (mv : Nat), s.aon.porHold = false → s.aon.seq = none →
    (s.aon.vinUv = false → ∃ t, exec (.supplyFault .vcore mv) s = .next t ∧ t.aon.vcoreBad = true ∧
      t.aon.volts.vcore = mv ∧ (s.Runs → (t.evt 208).pend = true) ∧
      (s.isOn .safety → t.safe.cause = s.safe.cause ||| (1#17 <<< 15)) ∧ SameRegisters s t ∧ SameGallery s t ∧ t.tb = s.tb) ∧
    (mv < 4200 → ∃ t, exec (.supplyFault .vin mv) s = .next t ∧ t.aon.vinUv = true ∧ t.aon.vinOv = false ∧
      t.aon.volts.vin = mv ∧ (s.Runs → (t.evt 206).pend = true) ∧ t.nvm.stop = true ∧
      (s.isOn .safety → t.safe.cause = s.safe.cause ||| (1#17 <<< 15)) ∧ SameRegisters s t ∧ SameGallery s t ∧ t.tb = s.tb) ∧
    (34000 < mv → ∃ t, exec (.supplyFault .vin mv) s = .next t ∧ t.aon.vinOv = true ∧ t.aon.vinUv = false ∧
      t.aon.volts.vin = mv ∧ (s.Runs → (t.evt 207).pend = true) ∧
      (s.isOn .safety → t.safe.cause = s.safe.cause ||| (1#17 <<< 15)) ∧ SameRegisters s t ∧ SameGallery s t ∧ t.tb = s.tb) ∧
    (s.aon.vinUv = false → s.isOn .analog = true → ∃ t, exec (.supplyFault .vdda mv) s = .next t ∧ t.aon.vddaBad = true ∧
      t.aon.volts.vdda = mv ∧ (s.Runs → (t.evt 209).pend = true) ∧
      (s.isOn .safety → t.safe.cause = s.safe.cause ||| (1#17 <<< 15)) ∧ SameRegisters s t ∧ SameGallery s t ∧ t.tb = s.tb) ∧
    (s.aon.vinUv = false → ∃ t, exec (.supplyFault .v3p3 mv) s = .next t ∧ t.aon.v3p3Bad = true ∧
      t.aon.volts.v3p3 = mv ∧ (s.Runs → (t.evt 209).pend = true) ∧
      (s.isOn .safety → t.safe.cause = s.safe.cause ||| (1#17 <<< 15)) ∧ SameRegisters s t ∧ SameGallery s t ∧ t.tb = s.tb) ∧
    (∃ t, exec (.supplyFaultClear .vin mv) s = .next t ∧ t.aon.vinUv = false ∧ t.aon.vinOv = false ∧
      t.aon.volts.vin = mv ∧ SameRegisters s t ∧ SameGallery s t) ∧
    exec (.supplyFaultClear .v3p3 mv) s = .next { s with
      aon := { s.aon with volts := { s.aon.volts with v3p3 := mv }, v3p3Bad := false, ilim1Now := false } } ∧
    exec (.supplyFaultClear .vcore mv) s = .next { s with
      aon := { s.aon with volts := { s.aon.volts with vcore := mv }, vcoreBad := false, ilim0Now := false } } ∧
    exec (.supplyFaultClear .vdda mv) s = .next { s with
      aon := { s.aon with volts := { s.aon.volts with vdda := mv }, vddaBad := false } }

/-- Debug halt stops the atrium with its event and cause 13, and its release lets it go on; both note the instant. A
correctable word of a bank that is ON raises its event and changes no register, cell or cause; an uncorrectable
capture word becomes a quiet NaN, and no other byte of the Gallery changes; an uncorrectable word of a queue marks the
packet it belongs to and is an atrium error too (log 76); a word that its bank does not hold is none. A dispatcher or Corridor that does not answer in time is an atrium error: it sets ERR with its
event and, outside a pair, cause 12. -/
def Obligations.HaltAndErrors : Prop :=
  (∀ s : State, s.Runs →
     (s.atr.halted = false → ∃ t, exec .debugHalt s = .next t ∧ t.atr.halted = true ∧ t.atr.haltAt = s.now ∧
       (t.evt 225).pend = true ∧ (s.isOn .safety → t.safe.cause = s.safe.cause ||| (1#17 <<< 13)) ∧
       SameRegisters s t ∧ SameGallery s t ∧ t.tb = s.tb) ∧
     (s.atr.halted = true → exec .haltRelease s =
       .next { s with atr := { s.atr with halted := false, releaseAt := s.now } })) ∧
  (∀ (s : State) (g : Fin 16) (o : EccOwner), s.Runs → s.bankOn g.val = true →
     (o.inBank g.val = true → ∃ t, exec (.galleryScrub g .corr o) s = .next t ∧ (t.evt 164).pend = true ∧
       (t.evt 164).data = BitVec.ofNat 32 g.val ∧ SameRegisters s t ∧ SameGallery s t ∧ t.cells = s.cells ∧ t.safe = s.safe) ∧
     (∀ kind, o.inBank g.val = false → exec (.galleryScrub g kind o) s = .next s) ∧
     (∀ w : Nat, Memory.wf s.mem → w < 262144 → g.val = 6 + w / 65536 → ∃ t,
       exec (.galleryScrub g .uncorr (.capture w)) s = .next t ∧ (t.evt 165).pend = true ∧
       let a := 6 * 0x40000 + 4 * w
       (∀ i < 4, memRead t.mem (a + i) = BitVec.ofNat 8 (0x7FC00000 / 2 ^ (8 * i))) ∧
       (∀ b, (b < a ∨ a + 4 ≤ b) → memRead t.mem b = memRead s.mem b) ∧ SameRegisters s t) ∧
     (∀ (q : Fin 64) (i : Nat), g.val = 10 ∨ g.val = 11 → ∃ t,
       exec (.galleryScrub g .uncorr (.queue q i)) s = .next t ∧
         (t.queue q.val).pkts = (s.queue q.val).pkts.modify i (fun p => { p with ecc := true }) ∧
         (∀ m, m ≠ q.val → t.queue m = s.queue m) ∧ (s.atr.err = false → t.atr.err = true ∧ (t.evt 163).pend = true) ∧
         SameRegisters s t ∧ SameGallery s t)) ∧
  (∀ s : State, s.Runs → s.atr.err = false →
     (∃ t, exec .dispatchTimeout s = .next t ∧ t.atr.err = true ∧ (t.evt 163).pend = true ∧
       (s.isOn .safety → s.canHandOver = false → t.safe.cause = s.safe.cause ||| (1#17 <<< 12)) ∧
       SameRegisters s t ∧ SameGallery s t) ∧
     (∃ t, exec .corridorGrantTimeout s = .next t ∧ t.atr.err = true ∧ (t.evt 163).pend = true ∧
       (s.isOn .safety → s.canHandOver = false → t.safe.cause = s.safe.cause ||| (1#17 <<< 12)) ∧
       SameRegisters s t ∧ SameGallery s t))

/-! Configuration and non-volatile memory (chapters 14 and 15). -/

/-- CFG_WRITE of one committed register of SYS_TOPO, MOD_TC or a HALL_CELLS goes to its pending copy and leaves what acts
as it is; a write that is refused, for whatever word of it, changes nothing; the safety block is never written so.
CFG_READ of words that a read does not change returns them in ascending order, active or pending. -/
def Obligations.ConfigurationAccess : Prop :=
  (∀ s : State, s.Runs →
     (∀ (a v : Word) (d : RegDef), a.toNat ∈ [0x40, 0x104, 0x150000, 0x151000, 0x152000] →
       regDef s.aon.straps a.toNat = some d → ∃ t, exec (.cfgWrite [a, v]) s = .next t ∧ t.Replies .ok [] ∧
         t.regNext a.toNat = merge d.committed (s.regNext a.toNat) v ∧ (∀ b, b ≠ a.toNat → t.regNext b = s.regNext b) ∧
         (∀ b, t.reg b = s.reg b) ∧ t = { s with reply := t.reply, pend := t.pend }) ∧
     (∀ (w : List Word) (t : State) (r : Reply), exec (.cfgWrite w) s = .next t → t.reply = some r → r.status ≠ .ok →
       t = { s with reply := t.reply }) ∧
     (∀ a v : Word, a.toNat % 4 = 0 → 0x30000 ≤ a.toNat → a.toNat < 0x30100 → s.isOn .safety = true →
       exec (.cfgWrite [a, v]) s =
         .next { s with reply := some { status := if s.safe.confirmed then .locked else .badParam } })) ∧
  (∀ (s : State) (w0 w1 : Word), s.Runs →
     let a := fld w0 0 24
     let n := fld w1 0 10
     a % 4 = 0 → 0 < n → n ≤ 1019 → n ≤ s.replyLimit → readStatus a n s = .ok →
     (∀ i < n, a + 4 * i < 0x200000 ∧ a + 4 * i ≠ 0x10000 ∧ a + 4 * i ≠ 0x10038 ∧
       (a + 4 * i < 0x21000 ∨ 0x21400 ≤ a + 4 * i)) →
     let view := fun x => if bit w0 31 then pendView x s else regView x s
     exec (.cfgRead [w0, w1]) s =
       .next { s with reply := some { status := .ok, words := (List.range n).map fun i => view (a + 4 * i) } })

/-- CFG_COMMIT with every check met makes every pending value the active one and leaves the others, with an empty pending
set; where a check fails nothing but its result changes; CHECK_ONLY applies nothing; DISCARD drops every pending value. -/
def Obligations.ConfigurationCommit : Prop :=
  ∀ (s : State) (w0 : Word), s.Runs →
    (bit w0 1 = false → bit w0 0 = false → (configJudge s).1 = .ok → ∃ t, exec (.cfgCommit [w0]) s = .next t ∧
      t.Replies .ok [0xFFFFFF#32] ∧ t.pend = [] ∧
      (∀ a v, (∃ x ∈ s.pend, x.1 = a) → (∀ x ∈ s.pend, x.1 = a → x.2 = v) → tget t.cfg a = some v) ∧
      (∀ a, (∀ x ∈ s.pend, x.1 ≠ a) → tget t.cfg a = tget s.cfg a) ∧ SameGallery s t ∧ t.safe = s.safe ∧ t.tb = s.tb) ∧
    (bit w0 1 = false → (configJudge s).1 ≠ .ok → exec (.cfgCommit [w0]) s = .next { s with
      reply := some { status := (configJudge s).1, words := [BitVec.ofNat 32 (configJudge s).2] }
      atr := { s.atr with cfgResult := (configJudge s).1, cfgAddr := (configJudge s).2 } }) ∧
    (bit w0 1 = false → bit w0 0 = true → exec (.cfgCommitCheck [w0]) s = .next { s with
      reply := some { status := (configJudge s).1, words := [BitVec.ofNat 32 (configJudge s).2] }
      atr := { s.atr with cfgResult := (configJudge s).1, cfgAddr := (configJudge s).2 } }) ∧
    (bit w0 1 = true → exec (.cfgCommitDiscard [w0]) s = .next { s with
      reply := some { status := .ok, words := [0xFFFFFF#32] }, pend := []
      atr := { s.atr with cfgResult := .ok, cfgAddr := 0xFFFFFF } })

/-- SIGNAL_READ of local points answers their values at once; with a remote point among them it waits; SIGNAL_WRITE queues
its values, or refuses all of them; a write of FUNC changes that ball alone. -/
def Obligations.SignalsAndBalls : Prop :=
  ∀ s : State, s.Runs →
    (∀ w : List Word, 0 < w.length → w.length ≤ s.replyLimit → w.length ≤ 1019 →
      (∀ p ∈ w, s.remote (fld p 0 20) = false ∧ reservedPt (fld p 0 20 % 1024) = false) → exec (.signalRead w) s =
        .next { s with reply := some { status := .ok, words := w.map fun p => s.localPoint (fld p 0 20) } }) ∧
    (∀ p : Word, s.remote (fld p 0 20) = true → reservedPt (fld p 0 20 % 1024) = false → s.isOn .links = true →
      s.mapPresent.getLsbD (ptPos (fld p 0 20)) = true → ∃ t, exec (.signalRead [p]) s = .next t ∧ t.reply = none ∧
        t.stair.sigs = s.stair.sigs ++ [{ pts := [fld p 0 20], vals := [], pkt := s.host.cur }] ∧
        t = { s with reply := none, stair := t.stair, out := t.out }) ∧
    (∀ w : List Word, w.length % 2 = 0 →
      let st := ((pairsIn w).map (signalStatus s)).foldl firstStatus .ok
      (st = .ok → exec (.signalWrite w) s = .next { s with
        reply := some { status := .ok }
        atr := { s.atr with writes := s.atr.writes ++ (pairsIn w).map fun x => (x.1 % 65536, x.2) } }) ∧
      (st ≠ .ok → exec (.signalWrite w) s = .next { s with reply := some { status := st } })) ∧
    (∀ (i : Fin 16) (f : Fin 8), f.val < 6 → ∃ t, exec (.gpioFuncChange i f) s = .next t ∧
      fld (t.reg (0x800 + 4 * i.val)) 0 3 = f.val ∧ (∀ a, a ≠ 0x800 + 4 * i.val → t.reg a = s.reg a) ∧
      t = { s with cfg := t.cfg, atr := { s.atr with gpioPulse := t.atr.gpioPulse } })

/-- NVM_STORE queues a set with the next generation and answers ACCEPTED; NVM_LOAD of a set equal to what stands loads it
with nothing changed but the pending values it drops; of a set that differs it makes every field active as CFG_WRITE of the fields
and one CFG_COMMIT would, with the images, or changes none; without a set it answers NVM_FAIL; NVM_STATUS and LOG_READ
report. A page program that ends well brings its record one page on, and after the last page the record is committed;
one that fails is tried again on a spare sector; a sector's erase is counted and its records are gone. -/
def Obligations.NonVolatileMemory : Prop :=
  (∀ s : State, s.Runs → s.isOn .nvm = true →
     (s.setBusy = false → ∃ t gen j, exec (.nvmStore []) s = .next t ∧
       gen = (s.newestSet.map fun x => (x.2.gen + 1) % 2 ^ 32).getD 1 ∧
       t.reply = some { status := .accepted, words := [BitVec.ofNat 32 gen] } ∧ j ∈ t.nvm.jobs ∧ j.record.type = 0x01 ∧
       j.record.serial = (s.nvm.serial + 1) % 2 ^ 32 ∧ t = { s with reply := t.reply, nvm := t.nvm }) ∧
     (∀ (w0 : Word) (p : ParamSet), s.setBusy = false → fld w0 0 2 ≠ 3 → s.namedSet (fld w0 0 2) = some p →
       setUnits p s = [] → setImages p s = [] → ∃ t, exec (.nvmLoad [w0]) s = .next t ∧
         t.Replies .ok [BitVec.ofNat 32 p.gen, 0xFFFFFF#32] ∧ t.pend = [] ∧ t.cfg = s.cfg ∧
         (∀ k, (s.cell k).imgDue = false → t.cell k = s.cell k) ∧ SameGallery s t) ∧
     (∀ (w0 : Word) (p : ParamSet), s.setBusy = false → fld w0 0 2 ≠ 3 → s.namedSet (fld w0 0 2) = some p →
       let w := cfgWrite ((setUnits p s).flatMap (·.2)) { s with pend := [] }
       let fit := w.1 = .ok ∧ (configJudge w.2).1 = .ok ∧ ∀ x ∈ setImages p s, s.hallOn (x.1 / 21) = true;
       (fit → ∃ t, exec (.nvmLoad [w0]) s = .next t ∧ t.Replies .ok [BitVec.ofNat 32 p.gen, 0xFFFFFF#32] ∧ t.pend = [] ∧
         (∀ a v, (∃ x ∈ w.2.pend, x.1 = a) → (∀ x ∈ w.2.pend, x.1 = a → x.2 = v) → tget t.cfg a = some v) ∧
         (∀ a, (∀ x ∈ w.2.pend, x.1 ≠ a) → tget t.cfg a = tget w.2.cfg a) ∧
         (∀ x ∈ setImages p s, (t.cell x.1).image = x.2) ∧ SameGallery s t) ∧
       (¬ fit → ∃ t st a, exec (.nvmLoad [w0]) s = .next t ∧ st ≠ .ok ∧ t.Replies st [0, a] ∧
         t = { s with reply := t.reply, atr := { s.atr with cfgResult := t.atr.cfgResult, cfgAddr := t.atr.cfgAddr } })) ∧
     (∀ w0 : Word, s.setBusy = false → fld w0 0 2 ≠ 3 → s.namedSet (fld w0 0 2) = none → ∃ t,
       exec (.nvmLoad [w0]) s = .next t ∧ t.Replies .nvmFail [0, 0xFFFFFF#32] ∧ SameRegisters s t ∧ SameGallery s t) ∧
     (∃ ws, exec (.nvmStatus []) s = .next { s with reply := some { status := .ok, words := ws } } ∧
       ws = [nvmStatus s, nvmLog s, BitVec.ofNat 32 ((s.paramSet false).map (·.gen) |>.getD 0),
         BitVec.ofNat 32 ((s.paramSet true).map (·.gen) |>.getD 0),
         BitVec.ofNat 32 (s.nvm.recs.foldl (fun a r => max a r.serial) 0), s.reg 0x70008]) ∧
     (∀ w0 w1 : Word, fld w1 0 8 ≠ 0 →
       let l := s.logRecords.filter fun r => w0 == 0xFFFFFFFF#32 || decide (w0.toNat ≤ r.serial)
       l.length ≤ fld w1 0 8 → 7 * l.length + 2 ≤ s.replyLimit → exec (.logRead [w0, w1]) s = .next { s with
         reply := some { status := .ok, words := [BitVec.ofNat 32 l.length, 0xFFFFFFFF#32] ++ l.flatMap logWords } })) ∧
  (∀ s : State, s.isOn .nvm = true → s.aon.seq = none → s.nvm.offDue = false →
     (∀ (j : NvmJob) (r : List NvmJob), s.nvm.jobs = j :: r → s.nvm.busy = true → j.dropped = false →
       (0 < j.pages → ∃ t, exec (.nvmProgramDone true) s = .next t ∧
         (∃ x ∈ t.nvm.jobs, x.record.serial = j.record.serial ∧ x.pages = j.pages - 1) ∧ SameRegisters s t ∧ SameGallery s t) ∧
       (j.pages = 0 → j.after = .none → ∃ t, exec (.nvmProgramDone true) s = .next t ∧
         (∃ x ∈ t.nvm.recs, x.serial = j.record.serial ∧ x.data = j.record.data) ∧ SameRegisters s t ∧ SameGallery s t) ∧
       (j.retried = false → 0 < s.nvm.spare → ∃ t, exec (.nvmProgramDone false) s = .next t ∧
         t.nvm.jobs = { j with retried := true } :: r ∧ t.nvm.spare = s.nvm.spare - 1 ∧ t.nvm.recs = s.nvm.recs ∧
         SameRegisters s t ∧ SameGallery s t)) ∧
     (∀ x : Nat, s.nvm.erasing = some x → ∃ t, exec (.nvmEraseDone true) s = .next t ∧
       tget t.nvm.eraseCounts x = some ((tget s.nvm.eraseCounts x).getD 0 + 1) ∧ (∀ r ∈ t.nvm.recs, r.sector ≠ x) ∧
       (∀ r ∈ s.nvm.recs, r.sector ≠ x → r ∈ t.nvm.recs) ∧ SameRegisters s t ∧ SameGallery s t) ∧
     (∀ x : Nat, s.nvm.erasing = some x → s.nvm.eraseRetried = false → 0 < s.nvm.spare → ∃ t,
       exec (.nvmEraseDone false) s = .next t ∧ t.nvm.erasing = some x ∧ t.nvm.spare = s.nvm.spare - 1 ∧
         t.nvm.recs = s.nvm.recs ∧ SameRegisters s t ∧ SameGallery s t))

/-! Loops, injectors and capture (chapter 4). -/

/-- LOOP_SET writes the registers of its slot, or its setpoint alone, and nothing else of the context or of another one.
LOOP_COEF arms a checked set of coefficients for its landing and leaves the active set; LOOP_ENABLE arms EN; GROUP_SET
arms the group. Each names the landing, and no other slot or context changes. -/
def Obligations.LoopCommands : Prop :=
  (∀ (s : State) (q : Fin 64) (w0 cfg src dst sp : Word), s.Runs → s.ctxOn q.val = true → fld w0 0 4 < slotCount q.val →
     let i := fld w0 0 4
     let x := (s.ctx q.val).slot i
     (bit w0 8 = true → ∃ t, exec (.loopSet q [w0, cfg, src, dst, sp]) s = .next t ∧ t.Replies .ok [] ∧
       t.ctx q.val = (s.ctx q.val).setSlot i (fun x => { x with sp := sp }) ∧ (∀ m < 64, m ≠ q.val → t.ctx m = s.ctx m) ∧
       SameRegisters s t ∧ SameGallery s t ∧ t.tb = s.tb) ∧
     (bit w0 8 = false → loopSetCheck q.val x cfg src dst s = .ok → ∃ t,
       exec (.loopSet q [w0, cfg, src, dst, sp]) s = .next t ∧ t.Replies .ok [] ∧
       t.ctx q.val = (s.ctx q.val).setSlot i (fun x => { x with
         func := fld cfg 4 2, disc := bit cfg 2, sign := bit cfg 1, rSrc := (src >>> 16).setWidth 16
         ySrc := src.setWidth 16, ffSrc := (dst >>> 16).setWidth 16, outDst := dst.setWidth 16, sp := sp, follows := false }) ∧
       (∀ m < 64, m ≠ q.val → t.ctx m = s.ctx m) ∧ SameRegisters s t ∧ SameGallery s t ∧ t.tb = s.tb) ∧
     (bit w0 8 = false → loopSetCheck q.val x cfg src dst s ≠ .ok → exec (.loopSet q [w0, cfg, src, dst, sp]) s =
       .next { s with reply := some { status := loopSetCheck q.val x cfg src dst s } })) ∧
  (∀ (s : State) (q : Fin 64) (w0 : Word), s.Runs → s.ctxOn q.val = true → fld w0 0 4 < slotCount q.val →
     let i := fld w0 0 4
     let x := (s.ctx q.val).slot i
     (∀ l : List Word, l.length = 10 → bit w0 9 = false →
       (coefCheck q.val x (Coefs.ofList l) s = .ok → ∃ t, exec (.loopCoef q (w0 :: l)) s = .next t ∧
         (bit w0 8 = false → t.Replies .ok (loopRef s)) ∧
         ((t.ctx q.val).slot i).pend = Coefs.ofList l ∧ ((t.ctx q.val).slot i).armed = Coefs.ofList l ∧
         ((t.ctx q.val).slot i).arm = some (if bit w0 8 then .loadAll else .next) ∧
         ((t.ctx q.val).slot i).act = x.act ∧ (∀ j, j ≠ i → (t.ctx q.val).slot j = (s.ctx q.val).slot j) ∧
         (∀ m < 64, m ≠ q.val → t.ctx m = s.ctx m) ∧ SameRegisters s t ∧ SameGallery s t) ∧
       (coefCheck q.val x (Coefs.ofList l) s ≠ .ok → exec (.loopCoef q (w0 :: l)) s =
         .next { s with reply := some { status := coefCheck q.val x (Coefs.ofList l) s } })) ∧
     (bit w0 9 = true → coefCheck q.val x x.pend s = .ok → ∃ t, exec (.loopCoef q [w0]) s = .next t ∧
       ((t.ctx q.val).slot i).armed = x.pend ∧ ((t.ctx q.val).slot i).pend = x.pend ∧
       ((t.ctx q.val).slot i).arm = some (if bit w0 8 then .loadAll else .next) ∧
       (∀ j, j ≠ i → (t.ctx q.val).slot j = (s.ctx q.val).slot j) ∧ SameRegisters s t ∧ SameGallery s t) ∧
     (∀ u0 : Word, ptNone x.ySrc = false → bit w0 8 = false ∨ bit w0 9 = true ∨ F32.isFinite u0 = true → ∃ t,
       exec (.loopEnable q [w0, u0]) s = .next t ∧ t.Replies .ok (loopRef s) ∧
         t.ctx q.val = (s.ctx q.val).setSlot i (fun x => { x with
           enArm := some { en := bit w0 8, track := bit w0 9, u0 := u0 }, enReady := false }) ∧
         (∀ m < 64, m ≠ q.val → t.ctx m = s.ctx m) ∧ SameRegisters s t ∧ SameGallery s t) ∧
     (∀ w1 : Word, bit w0 12 = false → fld w0 8 4 = 15 ∨ fld w0 8 4 < groupCount q.val →
       x.heldSets.all (groupOk (decide (fld w0 8 4 < groupCount q.val))) = true → ∃ t,
       exec (.groupSet q [w0, w1]) s = .next t ∧ t.Replies .ok (loopRef s) ∧
         t.ctx q.val = (s.ctx q.val).setSlot i (fun x => { x with grpArm := some (fld w0 8 4), grpReady := false }) ∧
         (∀ m < 64, m ≠ q.val → t.ctx m = s.ctx m) ∧ SameRegisters s t ∧ SameGallery s t) ∧
     (∀ w1 : Word, bit w0 12 = true → fld w0 8 4 < groupCount q.val → destOk q.val (w1.setWidth 16) = true →
       x.heldSets.all (groupOk true) = true → dstInUse q.val i (fld w0 8 4) (w1.setWidth 16) (s.ctx q.val) = false → ∃ t,
       exec (.groupSet q [w0, w1]) s = .next t ∧ t.Replies .ok (loopRef s) ∧
         t.ctx q.val = ((s.ctx q.val).setSlot i (fun x => { x with grpArm := some (fld w0 8 4), grpReady := false })).setGroup
           (fld w0 8 4) (fun y => { y with dstArm := some (w1.setWidth 16), dstReady := false }) ∧
         (∀ m < 64, m ≠ q.val → t.ctx m = s.ctx m) ∧ SameRegisters s t ∧ SameGallery s t))

/-- INJECT starts an idle injector at once, or arms it for a compare, where its values pass, with DONE and ABORT clear; of a running
one it takes AMP alone, and an AMP of zero stops it with DONE; that the rest of the command is dropped then is the model's choice
(log 102), and that arming a CAPTURE clears its DONE, and a start those of an injector (log 91). A running injector's end
stops it with INJECT_DONE. CAPTURE arms the engine where its values pass; CAPTURE_READ of a stopped engine returns its
words, at most the buffer; when the samples after the trigger are there the capture is done with CAPTURE_DONE. -/
def Obligations.InjectionAndCapture : Prop :=
  (∀ s : State, s.Runs →
     (∀ (w0 : Word) (l : List Word), l.length = 6 → let n := fld w0 0 3
       let x := injOf l
       (injCheck x s = .ok → (vget s.atr.inj n {}).run = false → ∃ t, exec (.inject (w0 :: l)) s = .next t ∧ t.Replies .ok [] ∧
         (vget t.atr.inj n {}).cfg = x.cfg ∧ (vget t.atr.inj n {}).amp = x.amp ∧ (vget t.atr.inj n {}).dur = x.dur ∧
         (vget t.atr.inj n {}).done = false ∧ (vget t.atr.inj n {}).abort = false ∧
         (vget t.atr.inj n {}).run = !bit w0 8 ∧ (bit w0 8 = true → (vget t.atr.inj n {}).armedTc = true) ∧
         (∀ m, m ≠ n → vget t.atr.inj m {} = vget s.atr.inj m {}) ∧ t = { s with reply := t.reply, atr := t.atr }) ∧
       (injCheck x s = .ok → (vget s.atr.inj n {}).run = true →
         (injTakes (vget s.atr.inj n {}) x = false →
           exec (.inject (w0 :: l)) s = .next { s with reply := some { status := .state } }) ∧
         (injTakes (vget s.atr.inj n {}) x = true → F32.isZero x.amp = false → exec (.inject (w0 :: l)) s =
           .next { setInj n (fun y => { y with amp := x.amp }) s with reply := some { status := .ok } }) ∧
         (injTakes (vget s.atr.inj n {}) x = true → F32.isZero x.amp = true → ∃ t, exec (.inject (w0 :: l)) s = .next t ∧
           t.Replies .ok [] ∧ vget t.atr.inj n {} = { vget s.atr.inj n {} with
             amp := x.amp, run := false, armedTc := false, ready := false, done := true } ∧
           (t.evt 228).pend = true ∧ (t.evt 228).data = pack [(0, 3, n), (3, 1, 0)] ∧
           (∀ m, m ≠ n → vget t.atr.inj m {} = vget s.atr.inj m {}) ∧ SameRegisters s t ∧ SameGallery s t ∧ t.tb = s.tb)) ∧
       (injCheck x s ≠ .ok → exec (.inject (w0 :: l)) s = .next { s with reply := some { status := injCheck x s } })) ∧
     (∀ n : Fin 8, (vget s.atr.inj n.val {}).run = true → ∃ t, exec (.injectDone n) s = .next t ∧
       (vget t.atr.inj n.val {}).run = false ∧ (vget t.atr.inj n.val {}).done = true ∧ (t.evt 228).pend = true ∧
       (t.evt 228).data = pack [(0, 3, n.val), (3, 1, 0)] ∧ (∀ m, m ≠ n.val → vget t.atr.inj m {} = vget s.atr.inj m {}) ∧
       SameRegisters s t ∧ SameGallery s t ∧ t.tb = s.tb)) ∧
  (∀ s : State, s.Runs →
     (∀ (cfg pre : Word) (pts : List Word), pts.length = capChans cfg →
       (captureCheck cfg pre pts s = .ok → ∃ t, exec (.capture (cfg :: pre :: pts)) s = .next t ∧ t.Replies .ok [] ∧
         t.atr.cap.armed = true ∧ t.atr.cap.done = false ∧ t.atr.cap.count = 0 ∧ t.atr.cap.pre = fld pre 0 18 ∧
         t.atr.cap.cfg = cfg &&& 0xFFFFFF0F#32 ∧ t = { s with reply := t.reply, atr := { s.atr with cap := t.atr.cap } }) ∧
       (captureCheck cfg pre pts s ≠ .ok → exec (.capture (cfg :: pre :: pts)) s =
         .next { s with reply := some { status := captureCheck cfg pre pts s } })) ∧
     (∀ i c : Word, c.toNat ≤ s.replyLimit → i.toNat + c.toNat ≤ 262144 → (s.atr.cap.armed && !s.atr.cap.done) = false → ∃ t,
       exec (.captureRead [i, c]) s = .next t ∧
         t.Replies .ok ((List.range c.toNat).map fun j => capWord s (i.toNat + j)) ∧
         t = { s with reply := t.reply, freeCtr := t.freeCtr }) ∧
     (s.atr.cap.armed = true → s.atr.cap.triggered = true → capDepth s.atr.cap.cfg - s.atr.cap.pre ≤ s.atr.cap.since → ∃ t,
       exec .captureDone s = .next t ∧ t.atr.cap.armed = false ∧ t.atr.cap.done = true ∧ (t.evt 227).pend = true ∧
         t.atr.cap.count = s.atr.cap.count ∧ SameRegisters s t ∧ SameGallery s t ∧ t.tb = s.tb))

/-! Stages, cells and wear (chapters 5 to 7). -/

/-- STAGE_WRITE stages its fields and releases as a whole, after its checks, and touches no other cell. LOAD_ALL arms the
commit for the first landing at least LOAD_LEAD from now, reports stale cells, and is refused while one is armed; of
stair scope it waits for the positions that have not acknowledged. HALL_MODE takes a legal mode, in force from the
first landing at least two Tc away, and refuses any other. -/
def Obligations.Staging : Prop :=
  (∀ (s : State) (q : Fin 64) (w0 : Word) (l : List Word), s.Runs → s.installed q.val = true → s.hallOn (q.val / 21) = true →
     l.length = (setBits 10 w0.toNat).length → w0 &&& 0x07FF03FF#32 ≠ 0 → fld w0 0 10 &&& fld w0 16 10 = 0 →
     (bit w0 26 = true → bit w0 0 = true) →
     let pay := stagePayload (w0 :: l)
     let bound := if fld (s.boundField q.val 9 pay) 0 2 = 0 then s.boundField q.val 2 pay else s.boundField q.val 4 pay
     ((∀ x ∈ pay, hostOk x.1 (bit w0 26) bound x.2 = true) → ∃ t, exec (.stageWrite q (w0 :: l)) s = .next t ∧
       (∃ ws, t.Replies .ok ws) ∧ (∀ x ∈ pay, vget (t.cell q.val).staged x.1 {} = { val := some x.2 }) ∧
       (∀ i < 10, (fld w0 16 10).testBit i = true → vget (t.cell q.val).staged i {} = { release := true }) ∧
       (∀ i < 10, w0.getLsbD i = false → (fld w0 16 10).testBit i = false →
         vget (t.cell q.val).staged i {} = vget (s.cell q.val).staged i {}) ∧
       (∀ k, k ≠ q.val → t.cell k = s.cell k) ∧ t = { s with reply := t.reply, cells := t.cells }) ∧
     ((∃ x ∈ pay, hostOk x.1 (bit w0 26) bound x.2 = false) →
       exec (.stageWrite q (w0 :: l)) s = .next { s with reply := some { status := .range } })) ∧
  (∀ (s : State) (w0 : Word), s.Runs →
     (bit w0 0 = false → s.grid.armed = none → ∃ t, exec (.loadAll [w0]) s = .next t ∧
       t.Replies (if s.staleMask = 0 then .ok else .stale)
         (s.refFrom (s.now + s.loadLead) false ++ [lowW s.staleMask, highW s.staleMask, 0]) ∧
       t.grid.armed = some ((s.landingFrom (s.now + s.loadLead)).1, false) ∧ t.grid.modStale = s.staleMask ∧
       t.grid.next = s.grid.next ∧ SameRegisters s t ∧ SameGallery s t ∧ t.tb = s.tb) ∧
     (s.grid.armed ≠ none → exec (.loadAll [w0]) s = .next { s with reply := some { status := .state } }) ∧
     (bit w0 0 = true → s.grid.armed = none → s.mapPresent &&& ~~~(1#16 <<< s.pos) ≠ 0 → ∃ t,
       exec (.loadAll [w0]) s = .next t ∧ t.reply = none ∧ t.grid.armed =
         some ((s.landingFrom (s.now + max s.loadLead (2 * s.grid.tc))).1, true) ∧ t.grid.modStale = s.staleMask ∧
       SameRegisters s t ∧ SameGallery s t ∧ t.tb = s.tb)) ∧
  (∀ (s : State) (w0 v : Word), s.Runs → let h := fld w0 0 2
     (h < 3 → hallModeOk v = true → ∃ t, exec (.hallMode [w0, v]) s = .next t ∧
       t.Replies .ok (s.refFrom (s.now + 2 * s.grid.tc) false) ∧ t.reg (hallBase h + 4) = v &&& hallModMask ∧
       (∀ a, a ≠ hallBase h + 4 → t.reg a = s.reg a) ∧ (t.hall h).modUse = (s.hall h).modUse ∧
       (∃ m ∈ (t.hall h).modeArms, m.at_ = (s.landingFrom (s.now + 2 * s.grid.tc)).1 ∧ m.mod = some (v &&& hallModMask)) ∧
       (∀ x, x ≠ h → t.hall x = s.hall x) ∧ t = { s with reply := t.reply, cfg := t.cfg, halls := t.halls }) ∧
     (h = 3 ∨ hallModeOk v = false → exec (.hallMode [w0, v]) s = .next { s with reply := some { status := .badParam } }))

/-- SAFE_SET with ACTION 0 writes PAT_FAULT of the cells of its mask alone; with ACTION 1 those cells take the pattern, or keep a
stronger one they wait for. A cell of a hall that is not ON and a pattern other than block or bypass are refused. CELL_BYPASS takes
its cell out with the bypass pattern where enough cells stay; CELL_RESTORE starts phase 1 of the restore of a cell that is out, is
not marked, whose hall is not in error, and while no safe stack block is in force; both are refused otherwise. -/
def Obligations.CellService : Prop :=
  (∀ (s : State) (w0 lo hi : Word), s.Runs → let ks := maskCells [w0, lo, hi]
     ((∀ k ∈ ks, s.hallOn (k / 21) = true) → fld w0 1 2 = 1 ∨ fld w0 1 2 = 2 →
       (bit w0 0 = false → ∃ t, exec (.safeSet [w0, lo, hi]) s = .next t ∧
         t.Replies .ok [0, 0] ∧ (∀ k ∈ ks, t.patFault k = fld w0 1 2 ∧ bit (t.reg (ctxBase k + 0x100)) 5 = bit w0 3) ∧
         (∀ a, (∀ k ∈ ks, a ≠ ctxBase k + 0x100) → t.reg a = s.reg a) ∧ (∀ k, k ∉ ks → t.cell k = s.cell k) ∧
         t = { s with reply := t.reply, cfg := t.cfg, cells := t.cells }) ∧
       (bit w0 0 = true → ∃ t, exec (.safeRequest [w0, lo, hi]) s = .next t ∧
         t.Replies .ok (s.refFrom (s.now + 200 + s.lead) false) ∧
         (∀ k ∈ ks, (t.cell k).retry = false ∧ (t.cell k).req =
           some (max (((s.cell k).req.map (·.1)).getD 0) (fld w0 1 2), ((s.cell k).req.map (·.2)).getD s.now)) ∧
         (∀ k, k ∉ ks → t.cell k = s.cell k) ∧ t = { s with reply := t.reply, cells := t.cells, flights := t.flights })) ∧
     (∀ st, ((∃ k ∈ ks, s.hallOn (k / 21) = false) ∧ st = Status.domainOff) ∨
         ((∀ k ∈ ks, s.hallOn (k / 21) = true) ∧ fld w0 1 2 ≠ 1 ∧ fld w0 1 2 ≠ 2 ∧ st = .badParam) →
       exec (.safeRequest [w0, lo, hi]) s = .next { s with reply := some { status := st } } ∧
       exec (.safeSet [w0, lo, hi]) s = .next { s with reply := some { status := st } })) ∧
  (∀ (s : State) (q : Fin 64), s.Runs → s.installed q.val = true → s.hallOn (q.val / 21) = true →
     let c := s.cell q.val
     let stay := (s.strCells (q.val / 21)).filter fun i => i != q.val && s.isActive i && (s.cell i).req.isNone
     (c.mode ≠ .out → s.isActive q.val = false ∨ s.nReq (q.val / 21) ≤ stay.length → ∃ t,
       exec (.cellBypass q []) s = .next t ∧ t.Replies .ok (s.refFrom (s.now + 200 + s.lead) false) ∧
         (t.cell q.val).req = some (max ((c.req.map (·.1)).getD 0) 2, (c.req.map (·.2)).getD s.now) ∧
         (∀ k, k ≠ q.val → t.cell k = s.cell k) ∧ t = { s with reply := t.reply, cells := t.cells, flights := t.flights }) ∧
     (c.mode = .out ∨ (s.isActive q.val = true ∧ stay.length < s.nReq (q.val / 21)) →
       exec (.cellBypass q []) s = .next { s with reply := some { status := .state } }) ∧
     (let fit := (s.hall (q.val / 21)).err = false ∧ c.perm = false ∧ c.mode = .out ∧ c.retry = false ∧
        (s.hall (q.val / 21)).permPending = false ∧ s.ssb = false;
      (fit → ∃ t, exec (.cellRestore q []) s = .next t ∧
        t.reply = some { status := .accepted, words := s.refFrom (s.now + 200 + s.lead) false } ∧
        t.cell q.val = { c with
          mode := .restoring, restorePhase := 1, restoreAt := s.lb, restoreOk := 0, restoreWait := false, noLimit := false
          wdClear := true, act := (c.req.map (·.1)).getD c.act, req := none } ∧
        (∀ k, k ≠ q.val → t.cell k = s.cell k) ∧ t = { s with reply := t.reply, cells := t.cells }) ∧
      (¬ fit → exec (.cellRestore q []) s = .next { s with reply := some { status := .state } })))

/-- CT_CONFIG writes bytes of its cell's image copy that pass, and answers ACCEPTED where a transfer starts; its READ form
reads them; CLR_PERM ends the mark of a cell that is out; CT_STATUS reports the cell's words and its newest report. -/
def Obligations.CellImages : Prop :=
  ∀ (s : State) (q : Fin 64), s.Runs → s.installed q.val = true → s.hallOn (q.val / 21) = true →
    (∀ (w0 : Word) (l : List Word), let o := fld w0 0 11
      let n := fld w0 11 11
      bit w0 30 = false → bit w0 31 = false → 0 < n → o + n ≤ 1040 → l.length = (n + 3) / 4 → (s.cell q.val).transfer = none →
      let img := overlay (s.cell q.val).image o (bytesAt (wordBytes l) 0 n)
      writePasses s.qpre o n ((s.setCell q.val fun c => { c with image := img }).fullImage q.val) = true →
      writeReserved o n = false → ∃ t, exec (.ctConfig q (w0 :: l)) s = .next t ∧
        (t.cell q.val).image = img ∧ t.Replies (if (t.cell q.val).transfer.isSome then .accepted else .ok) [] ∧
        (∀ k, k ≠ q.val → t.cell k = s.cell k) ∧ t = { s with reply := t.reply, cells := t.cells }) ∧
    (∀ w0 : Word, bit w0 30 = true → bit w0 31 = false → 0 < fld w0 11 11 → fld w0 0 11 + fld w0 11 11 ≤ 1040 →
      let ws := bytesWords (bytesAt (s.fullImage q.val) (fld w0 0 11) (fld w0 11 11))
      exec (.ctConfigRead q [w0]) s = .next { s with reply := some { status := .ok, words := ws } }) ∧
    (∀ w0 : Word, bit w0 30 = false → bit w0 31 = true → fld w0 11 11 = 0 → fld w0 0 11 ≤ 1040 →
      ((s.cell q.val).mode = .out → (s.cell q.val).transfer = none → ∃ t, exec (.clrPerm q [w0]) s = .next t ∧ t.Replies .ok [] ∧
        (t.cell q.val).perm = false ∧ (t.cell q.val).image = (s.cell q.val).image ∧ (t.cell q.val).mode = .out ∧
        (∀ k, k ≠ q.val → t.cell k = s.cell k) ∧ SameRegisters s t ∧ SameGallery s t) ∧
      ((s.cell q.val).mode ≠ .out ∨ (s.cell q.val).transfer.isSome = true →
        exec (.clrPerm q [w0]) s = .next { s with reply := some { status := .state } })) ∧
    let ws := [trdBal s q.val, trdGuard s q.val, safeCfg s q.val, stgMask s q.val, trdNotch s q.val, trdThm s q.val,
      BitVec.ofNat 32 (s.cell q.val).staleFor] ++ bytesWords (bytesAt (s.cell q.val).report 0 64)
    exec (.ctStatus q []) s = .next { s with reply := some { status := .ok, words := ws } }

/-- A restore that lasts RESTORE_TMAX fails with RFAIL and its event, one that waits for the other cells of its string too; a retry
that has not rejoined takes PAT_FAULT, and a DERATE that lasts OT_TMAX becomes a bypass, each unless a stronger reaction was
decided for the cell in the last 10 µs. -/
def Obligations.CellTimeouts : Prop :=
  ∀ (s : State) (k : Fin 63), s.Runs → s.hallOn (k.val / 21) = true →
    let c := s.cell k.val
    (c.mode = .restoring → c.noLimit = false → ∃ t, exec (.restoreTimeout k) s = .next t ∧
      (t.cell k.val).mode = .out ∧ (t.cell k.val).rfail = true ∧ (t.cell k.val).restorePhase = 0 ∧
      (t.cell k.val).req.map (·.1) = some (s.patFault k.val) ∧ (t.evt (64 + k.val)).pend = true ∧
      (t.evt (64 + k.val)).data = 2 ∧ (∀ j, j ≠ k.val → t.cell j = s.cell j) ∧ SameRegisters s t ∧ SameGallery s t) ∧
    (c.retry = true → c.mode = .out → s.standby = false →
      let u := advanceTo (c.retryAt + 100000000) s
      let p := s.patFault k.val
      p = 1 ∨ p = 2 → ∃ t, exec (.retryTimeout k) s = .next t ∧ (t.cell k.val).lastClass = 2 ∧ (t.evt k.val).pend = true ∧
        (u.outranked k.val p = false → (t.cell k.val).retry = false ∧
          (t.cell k.val).req = some (max ((c.req.map (·.1)).getD 0) p, (c.req.map (·.2)).getD u.now)) ∧
        (u.outranked k.val p = true → (t.cell k.val).req = c.req) ∧
        (∀ j, j ≠ k.val → t.cell j = s.cell j) ∧ SameRegisters s t ∧ SameGallery s t ∧ t.tb = u.tb) ∧
    (c.derate = true → s.standby = false →
      let u := advanceTo (c.derateAt + fld (s.reg (hallBase (k.val / 21) + 0x5C)) 0 16 * 1000000000) s
      ∃ t, exec (.derateTimeout k) s = .next t ∧ (t.cell k.val).derate = false ∧ (t.cell k.val).lastClass = 4 ∧
        (t.evt k.val).pend = true ∧
        (c.inUse = true → u.outranked k.val 2 = false →
          (t.cell k.val).req = some (max ((c.req.map (·.1)).getD 0) 2, (c.req.map (·.2)).getD u.now)) ∧
        (c.inUse = false ∨ u.outranked k.val 2 = true → (t.cell k.val).req = c.req) ∧
        (∀ j, j ≠ k.val → t.cell j = s.cell j) ∧ SameRegisters s t ∧ SameGallery s t ∧ t.tb = u.tb)

/-- WEAR_READ reports a group's damage, life and junction temperature; WEAR_PARAM writes the parameters that are in range;
RESET clears the accumulated damage of the cell. The buffered samples of a cell go through each leg group in order and
are gone; a journal round queues a summary of every installed cell. -/
def Obligations.Wear : Prop :=
  (∀ (s : State) (w0 : Word), s.Runs → let k := fld w0 0 6
     let g := fld w0 8 2
     k < 63 → s.ctxOn k = true → g < 3 →
     let x := vget (s.cell k).wear g {}
     let ws := [lowW (BitVec.ofNat 64 x.damage), highW (BitVec.ofNat 64 x.damage), remaining x,
       BitVec.ofNat 32 (x.hist.filter fun e => e.2 == 65535).length, x.tj]
     (s.journalling k = false → fld w0 16 2 = 0 →
       exec (.wearRead [w0]) s = .next { s with reply := some { status := .ok, words := ws } }) ∧
     (s.journalling k = true → fld w0 16 2 ≠ 3 →
       exec (.wearRead [w0]) s = .next { s with reply := some { status := .state } }) ∧
     (∀ l : List Word, bit w0 17 = true → l.length = 15 → (∀ i < 15, wearInRange i (wd l i) = true) → ∃ t,
       exec (.wearParam (w0 :: l)) s = .next t ∧ t.Replies .ok [] ∧ (∀ i < 14, t.reg (wearBase k g + 4 * i) = wd l i) ∧
         t.reg (wearBase k g + 56) = wd l 14 &&& 3#32 ∧
         (∀ a, (∀ i < 15, a ≠ wearBase k g + 4 * i) → t.reg a = s.reg a) ∧ t = { s with reply := t.reply, cfg := t.cfg }) ∧
     (bit w0 17 = false → ∃ t, exec (.wearParamReset [w0]) s = .next t ∧ t.Replies .ok [] ∧
       (∀ i < 3, (vget (t.cell k).wear i {}).damage = 0 ∧ (vget (t.cell k).wear i {}).hist = [] ∧
         (vget (t.cell k).wear i {}).par = (vget (s.cell k).wear i {}).par) ∧ (t.cell k).warn = false ∧
       (∀ j, j ≠ k → t.cell j = s.cell j) ∧ t = { s with reply := t.reply, cells := t.cells })) ∧
  (∀ s : State,
     (∀ k : Fin 63, s.ctxOn k.val = true → ∃ t, exec (.junctionUpdate k) s = .next t ∧ (t.cell k.val).samples = [] ∧
       (∀ g < 3, vget (t.cell k.val).wear g {} =
         (s.cell k.val).samples.foldl (fun w x => groupSample g x s w) (vget (s.cell k.val).wear g {})) ∧
       (∀ j, j ≠ k.val → t.cell j = s.cell j) ∧ SameRegisters s t ∧ SameGallery s t ∧ t.tb = s.tb) ∧
     (s.isOn .nvm = true → ∃ t, exec .wearJournalRound s = .next t ∧
       (∀ k < 63, s.installed k = true → s.ctxOn k = true →
         ∃ j ∈ t.nvm.jobs, j.record.type = 0x10 ∧ j.record.key = k ∧ j.record.data = wearSummary (s.cell k)) ∧
       t = { s with nvm := t.nvm, atr := { s.atr with journalNext := t.atr.journalNext } }))

/-! Measurement (chapter 8). -/

/-- ADC_SEQ writes a sequence that passes its checks and, with START, triggers it at once; ADC_READ returns the words of
its enabled entries, with the filter latches due by then in them, and marks them read. A carrier point of a cell in a FIXED
duty stage and an edge at a trigger ball start every enabled sequence that names them, and no other. The oldest slice
conversion of a result word writes it with the code of its input in 62.5 µV, corrected where its slice is privileged, and marks
it new; a dropped request is counted; a filter output becomes the newest value once three are there. -/
def Obligations.Converters : Prop :=
  (∀ s : State, s.Runs → s.isOn .analog = true →
     (∀ (w0 cfg : Word) (l : List Word), l.length = 16 → let n := fld w0 0 4
       let ent : Vector Word 16 := Vector.ofFn fun e => wd l e.val
       (bit w0 8 = true → fld cfg 24 3 = 0) → seqCheck n cfg ent s = .ok → ∃ t,
         exec (.adcSeq (w0 :: cfg :: l)) s = .next t ∧ t.Replies .ok [] ∧ (t.adc n).cfg = cfg &&& 0x873FFFFF#32 ∧
           (∀ e < 16, vget (t.adc n).ent e 0 = vget ent e 0 &&& 0x81000F0F#32) ∧
           (bit w0 8 = true → bit cfg 31 = true → (t.adc n).time = BitVec.ofNat 64 (s.now + 2 * fld cfg 0 16) ∧
             ∀ e < 16, entOn (vget ent e 0) = true → entDsd (vget ent e 0) = false →
               (vget (t.adc n).res e {}).wait = true ∧ ∃ c ∈ (vget (t.adc n).res e {}).convs,
                 c.ent = vget (t.adc n).ent e 0 ∧ c.old = false ∧ c.late = false) ∧
           (∀ m, m ≠ n → t.adc m = s.adc m) ∧ SameRegisters s t ∧ SameGallery s t ∧ t.tb = s.tb) ∧
     (∀ w0 : Word, w0.toNat ≤ 15 → let n := w0.toNat
       let es := (List.range 16).filter fun e => entOn (vget (s.adc n).ent e 0)
       let u := settleSeq n s
       ∃ t, exec (.adcRead [w0]) s = .next t ∧ t.Replies .ok (es.map fun e => (readRes (vget (u.adc n).res e {})).1) ∧
         (∀ e ∈ es, vget (t.adc n).res e {} = (readRes (vget (u.adc n).res e {})).2) ∧
         (∀ e < 16, e ∉ es → vget (t.adc n).res e {} = vget (u.adc n).res e {}) ∧
         (∀ m, m ≠ n → t.adc m = s.adc m) ∧ SameRegisters s t ∧ SameGallery s t ∧
         t = { u with reply := t.reply, meas := { u.meas with seq := t.meas.seq } })) ∧
  (∀ s : State, s.Runs → s.isOn .analog = true →
     (∀ (k : Fin 63) (valley : Bool), let c := (s.cell k.val).stage
       s.ctxOn k.val = true → c.valid = true → c.lvl = false → c.cmodeIn = 0 → c.safe = 0 → ∃ t,
         exec (.carrierTrigger k valley) s = .next t ∧
           (∀ n < 16, seqOn (s.adc n) = true → seqTrig (s.adc n) = (if valley then 5 else 4) → seqArg (s.adc n) = k.val →
             (t.adc n).time = BitVec.ofNat 64 (s.now + 2 * seqDelay (s.adc n))) ∧
           (∀ n < 16, ¬ (seqTrig (s.adc n) = (if valley then 5 else 4) ∧ seqArg (s.adc n) = k.val) → t.adc n = s.adc n) ∧
           SameRegisters s t ∧ SameGallery s t ∧ t.cells = s.cells) ∧
     (∀ i : Fin 16, s.gpioFunc i.val = 3 → ∃ t, exec (.gpioTriggerEdge i) s = .next t ∧ t.atr.gpioIn.getLsbD i.val = true ∧
       (∀ n < 16, seqOn (s.adc n) = true → seqTrig (s.adc n) = 6 → seqArg (s.adc n) = i.val →
         (t.adc n).time = BitVec.ofNat 64 (s.now + 2 * seqDelay (s.adc n))) ∧
       (∀ n < 16, ¬ (seqTrig (s.adc n) = 6 ∧ seqArg (s.adc n) = i.val) → t.adc n = s.adc n) ∧
       SameRegisters s t ∧ SameGallery s t ∧ t.cells = s.cells)) ∧
  (∀ s : State, s.Runs → s.isOn .analog = true →
     (∀ (n e : Fin 16) (i : Sampled) (c : Conv), let r := vget (s.adc n.val).res e.val {}
       let raw := (clampCode (F32.rne (i.uv / (125 / 2)))).1
       r.slice = some c → ∃ t x, exec (.adcConversionDone n e i) s = .next t ∧ x = vget (t.adc n.val).res e.val {} ∧
         x.value = (if s.privileged (entUnit c.ent) then
           (unitCorrect (c.unit.getD (vget s.meas.role (entUnit c.ent) 0)) raw s).1 else raw) ∧
         x.seq = (r.seq + 1) % 256 ∧ x.any = true ∧ x.read = false ∧ x.convs = r.convs.erase c ∧ x.late = c.late ∧
         x.wait = (r.wait && c.old) ∧ x.test = (i.dac && s.dacMay c.ent (c.at_.getD (s.samplesAt (16 * n.val + e.val) c))) ∧ x.overrun = (r.overrun || (r.any && !r.read)) ∧
         (∀ m, m ≠ n.val → t.adc m = s.adc m) ∧ SameRegisters s t ∧ SameGallery s t ∧ t.tb = s.tb) ∧
     (∀ (n e : Fin 16) (c : Conv), (vget (s.adc n.val).res e.val {}).slice = some c → ∃ t,
       exec (.sliceRequestDrop n e) s = .next t ∧
         (vget (t.adc n.val).res e.val {}).convs = (vget (s.adc n.val).res e.val {}).convs.erase c ∧
         t.meas.drop = satInc 255 s.meas.drop ∧ (t.evt 185).pend = true ∧
         (t.evt 185).data = BitVec.ofNat 32 n.val ∧ (∀ m, m ≠ n.val → t.adc m = s.adc m) ∧ SameRegisters s t ∧ SameGallery s t) ∧
     (∀ (d : Fin 8) (y : Int), bit (s.dsdCfg d.val) 31 = true → ∃ t, exec (.dsdFilterOutput d y) s = .next t ∧
       (vget t.meas.dsd d.val {}).outputs = satInc 3 (vget s.meas.dsd d.val {}).outputs ∧
       (2 ≤ (vget s.meas.dsd d.val {}).outputs → (vget s.meas.dsd d.val {}).outputs ≤ 3 → (vget t.meas.dsd d.val {}).last =
         let code := clampCode (F32.rne ((32768 * y : Int) / ((fld (s.dsdCfg d.val) 0 9 ^ 3 : Nat) : Rat)))
         some (code.1, code.2 || s.aon.vddaBad)) ∧
       (∀ x, x ≠ d.val → vget t.meas.dsd x {} = vget s.meas.dsd x {}) ∧ t.cells = s.cells ∧ t.safe = s.safe ∧
       SameRegisters s t ∧ SameGallery s t ∧ t.tb = s.tb))

/-- Background calibration: CAL_PRIV sets it where its values pass and no round runs; a round starts, goes from
self-calibration to the comparisons and from those within their tolerance to the takeover, and a step that lasts too long
is left for the next role. -/
def Obligations.BackgroundCalibration : Prop :=
  ∀ s : State, s.isOn .analog = true →
    (∀ v : Word, s.Runs →
      (privCheck v s = .ok → exec (.calPriv [v]) s =
        .next { s with reply := some { status := .ok }, meas := { s.meas with priv := v &&& privMask } }) ∧
      (privCheck v s ≠ .ok → exec (.calPriv [v]) s = .next { s with reply := some { status := privCheck v s } })) ∧
    (s.mayRotate = true →
      (s.meas.round = none → exec .calRoundStart s = .next { s with meas := { s.meas with
        round := some { roles := setBits 8 s.meas.priv.toNat, step := .selfCal } } }) ∧
      (∀ r, s.meas.round = some r → exec .calRoundStart s = .next { s with meas := { s.meas with
        round := some { r with late := true }, rotLate := satInc 255 s.meas.rotLate } })) ∧
    (∀ r, s.meas.round = some r →
      (∀ gain offset : Rat, r.step = .selfCal → 995 / 1000 ≤ gain → gain ≤ 1005 / 1000 → -64 ≤ offset → offset ≤ 64 →
        r.roles ≠ [] → ∃ t, exec (.selfCalDone gain offset) s = .next t ∧ t.meas.round = some { r with step := .overlap } ∧
          vget t.meas.unitGain (vget s.meas.role 8 8) gain = gain ∧ t.meas.failed = s.meas.failed ∧
          t = { s with meas := t.meas }) ∧
      (∀ mean : Rat, r.step = .overlap → -(fld s.meas.priv 8 8 : Rat) ≤ mean → mean ≤ (fld s.meas.priv 8 8 : Rat) →
        exec (.overlapDone mean) s = .next { s with meas := { s.meas with
          round := some { r with step := .takeover, suspect := false } } }) ∧
      (r.step = .overlap → exec .overlapTimeout s = .next { s with meas := { s.meas with
        round := some { r with roles := r.roles.tail, step := .selfCal, again := false }
        rotLate := satInc 255 s.meas.rotLate } }))

/-- CAL_ZERO and CAL_FULL of a channel that may be calibrated are accepted and take the channel, once the filter latches due by
then are taken; CAL_ZERO's average is kept with CAL_DONE; an average not complete in time ends with RESULT STATE. -/
def Obligations.SystemCalibration : Prop :=
  ∀ s : State, s.Runs →
    (∀ w0 x : Word, let u := settleLatches s
      (calCheck false w0 u = .ok → exec (.calZero [w0, x]) s = .next { u with
        reply := some { status := .accepted }
        meas := { u.meas with
          calBusy := true, calChan := calChan w0, cal := some { full := false, chan := calChan w0, x := x }, calZero := none } }) ∧
      (calCheck true w0 u = .ok → exec (.calFull [w0, x]) s = .next { u with
        reply := some { status := .accepted }
        meas := { u.meas with
          calBusy := true, calChan := calChan w0, cal := some { full := true, chan := calChan w0, x := x } } }) ∧
      (calCheck false w0 u ≠ .ok →
        exec (.calZero [w0, x]) s = .next { u with reply := some { status := calCheck false w0 u } }) ∧
      (calCheck true w0 u ≠ .ok →
        exec (.calFull [w0, x]) s = .next { u with reply := some { status := calCheck true w0 u } })) ∧
    (∀ c : CalRun, s.meas.cal = some c →
      (c.full = false → c.clip = false → s.meas.calBusy = true → (if (chanCell c.chan).isSome then 64 else 256) ≤ c.n →
        (∀ j ∈ s.nvm.jobs, j.after ≠ .calDone) → ∃ t, exec .calAverageDone s = .next t ∧ t.meas.calBusy = false ∧
          t.meas.calResult = .ok ∧ t.meas.cal = none ∧ t.meas.calZero = some (c.chan, c.sum / (c.n : Rat), c.x) ∧
          (t.evt 183).pend = true ∧ SameRegisters s t ∧ SameGallery s t) ∧
      (c.n < (if (chanCell c.chan).isSome then 64 else 256) → ∃ t, exec .calTimeout s = .next t ∧ t.meas.calBusy = false ∧
        t.meas.calResult = .state ∧ t.meas.cal = none ∧ t.meas.calZero = s.meas.calZero ∧ (t.evt 183).pend = true ∧
        SameRegisters s t ∧ SameGallery s t))

/-- TEST_DAC takes its setting while no check runs and starts the check of MODE 1 or 2, and MODE 3 drives the output; a gain
check within 1 % of twice the code passes, an input that moves by more than half the code is open, and a check that cannot run ends with STALL and
TESTDAC_MISMATCH. -/
def Obligations.TestDac : Prop :=
  ∀ s : State, s.Runs → s.isOn .analog = true →
    (∀ v : Word, s.meas.tdacRun = false → let t := { s with
        reply := some { status := .ok }
        meas := { s.meas with tdac := v &&& 0xC1F00FFF#32, tdacRun := fld v 30 2 == 1 || fld v 30 2 == 2, tdacFrom := s.now } }
      (fld v 30 2 = 0 → exec (.testDac [v]) s = .next t) ∧
      (fld v 30 2 = 1 → fld v 20 4 ≤ 7 → exec (.testDacGain [v]) s = .next t) ∧
      (fld v 30 2 = 2 → exec (.testDacOpen [v]) s = .next t) ∧
      (fld v 30 2 = 3 → exec (.testDacOut [v]) s = .next t ∧ t.tdacOut = some (tdacCode t))) ∧
    (s.meas.tdacRun = true →
      (∀ v : Word, fld v 30 2 ≠ 1 → exec (.testDac [v]) s = .next { s with reply := some { status := .state } }) ∧
      (∀ diff : Int, fld s.meas.tdac 30 2 = 1 → 100 * (diff - 32 * tdacCode s).natAbs ≤ 32 * (tdacCode s).natAbs →
        -32768 ≤ diff → diff ≤ 32767 → exec (.testDacCheckDone diff) s = .next { s with meas := { s.meas with
          tdacRun := false, tdacPast := some (s.meas.tdac, s.meas.tdacFrom, s.now), tdacDone := true, tdacFail := false
          tdacOpen := false, tdacStall := false
          tdacDiff := BitVec.ofInt 16 diff } }) ∧
      (∀ diff : Int, fld s.meas.tdac 30 2 = 2 → 8 * (tdacCode s).natAbs < diff.natAbs → ∃ t,
        exec (.testDacCheckDone diff) s = .next t ∧ t.meas.tdacRun = false ∧ t.meas.tdacFail = true ∧ t.meas.tdacOpen = true ∧
          (t.evt 184).pend = true ∧ SameRegisters s t ∧ SameGallery s t) ∧
      (∃ t, exec .testDacStall s = .next t ∧ t.meas.tdacRun = false ∧ t.meas.tdacDone = true ∧ t.meas.tdacFail = true ∧
        t.meas.tdacStall = true ∧ (t.evt 184).pend = true ∧ SameRegisters s t ∧ SameGallery s t))


/-! Telemetry streams (chapter 14). -/

/-- STREAM_SET writes a stream's registers where it passes; STREAM_ENABLE notes the change and its landing; a frame put
together is sent, and FSER goes on whether or not it found room. -/
def Obligations.Streams : Prop :=
  ∀ s : State, s.Runs →
    (∀ (w0 cfg a b c d : Word) (pts : List Word), pts.length = cfgPoints cfg → let n := fld w0 0 3
      let st := streamCheck n cfg (pts.map fun p => fld p 0 20) s
      (st = .ok → ∃ t, exec (.streamSet (w0 :: cfg :: a :: b :: c :: d :: pts)) s = .next t ∧ t.Replies .ok [] ∧
        t.streamCfg n = cfg &&& 0x81FFFFFF#32 ∧ t.reg (streamBase n + 4) = a ∧
        (∀ i < cfgPoints cfg, t.reg (streamBase n + 0x400 + 4 * i) = wd pts i &&& 0xFFFFF#32) ∧
        (∀ x, x < streamBase n ∨ streamBase n + 0x800 ≤ x → t.reg x = s.reg x) ∧ t = { s with reply := t.reply, cfg := t.cfg }) ∧
      (st ≠ .ok → exec (.streamSet (w0 :: cfg :: a :: b :: c :: d :: pts)) s =
        .next { s with reply := some { status := st } })) ∧
    (∀ w0 : Word, s.bankOn 12 = true → s.bankOn 13 = true → s.isOn .net = true → ∃ t, exec (.streamEnable [w0]) s = .next t ∧
      t.Replies .ok (s.refFrom (s.now + 2 * s.grid.tc) false) ∧
      (∀ n < 8, (t.stream n).changes = if bit w0 n then
        (s.stream n).changes ++ [(bit w0 (8 + n), (s.landingFrom (s.now + 2 * s.grid.tc)).1)] else (s.stream n).changes) ∧
      (∀ n, (t.stream n).en = (s.stream n).en ∧ (t.stream n).due = (s.stream n).due) ∧
      t = { s with reply := t.reply, out := t.out, streams := t.streams }) ∧
    (∀ (n : Fin 8) (l : Nat) (seq : BitVec 16) (vals : List (Nat × Option F32)) (rest : List (Nat × BitVec 16 × List (Nat × Option F32))),
      let x := s.stream n.val
      let b := streamBytes n.val x.fser l seq (vals.map fun v => v.2.orElse fun _ => s.telemValue v.1 l)
      x.due = (l, seq, vals) :: rest → ∃ t, exec (.streamFrame n) s = .next t ∧
        (t.stream n.val).due = rest ∧ (t.stream n.val).fser = x.fser + 1 ∧
        (cfgUdp (s.streamCfg n.val) = false →
          (s.rsBytes + b.length ≤ 65536 → t.host.rs = s.host.rs ++ [b] ∧ (t.stream n.val).drop = x.drop) ∧
          (65536 < s.rsBytes + b.length → t.host.rs = s.host.rs ∧ (t.stream n.val).drop = satInc 65535 x.drop)) ∧
        (cfgUdp (s.streamCfg n.val) = true → t.host = s.host ∧
          (s.isOn .net = true ∧ t.out = .datagram (s.streamDest n.val) b :: s.out ∧ (t.stream n.val).drop = x.drop ∨
            t.out = s.out ∧ (t.stream n.val).drop = satInc 65535 x.drop)) ∧
        (∀ m, m ≠ n.val → t.stream m = s.stream m) ∧ SameRegisters s t ∧ SameGallery s t ∧ t.tb = s.tb)

/-! The twin (chapter 9). -/

/-- Heartbeats: what one says, what a good one brings, what a bad one ends, and what a path lost does; an active that loses
path 1 with path 2 up, or whose link goes down so, gives up the rings at once. -/
def Obligations.TwinHeartbeats : Prop :=
  ∀ s : State, s.paired = true →
    (s.linkUp = true → s.hbRuns = true → exec .hbtSend s =
      .next { s with out := .hbt (hbByte s) (s.twin.epoch.setWidth 8) (~~~(hbByte s ^^^ s.twin.epoch.setWidth 8)) :: s.out }) ∧
    (∀ h1 h2 : Byte, s.linkUp = true → ∃ t, exec (.hbtReceived h1 h2 (~~~(h1 ^^^ h2))) s = .next t ∧
      t.twin.hb1 = beat s.twin.hb1 ∧ t.twin.partnerActive = h1.getLsbD 5 ∧ t.twin.partnerHalt = h1.getLsbD 4 ∧
      t.twin.partnerInStep = h1.getLsbD 3 ∧ t.twin.strapErr = (h1.toNat / 64 == s.aon.straps.role.val) ∧
      (s.aon.straps.role ≠ 1 → t.twin.state = s.twin.state) ∧ SameRegisters s t ∧ SameGallery s t ∧ t.tb = s.tb) ∧
    (∀ h1 h2 h3 : Byte, s.linkUp = true → h3 ≠ ~~~(h1 ^^^ h2) → exec (.hbtReceived h1 h2 h3) s =
      .next { s with twin := { s.twin with hb1 := { s.twin.hb1 with run := 0 } } }) ∧
    exec .hbInEdge s = .next { s with twin := { s.twin with hb2 := beat s.twin.hb2 } } ∧
    (s.twin.hb1.state = 1 → ∃ t, exec .hb1Lost s = .next t ∧ t.twin.hb1 = { state := 2, run := 0 } ∧ (t.evt 210).pend = true ∧
      (s.twin.state = 1 → s.twin.hb2.state = 1 → t.twin.state = 3 ∧ t.twin.mute = true ∧ t.twin.ldn = true ∧
        t.twin.hbOut = false) ∧ SameRegisters s t ∧ SameGallery s t ∧ t.tb = s.tb) ∧
    (s.twin.hb2.state = 1 → ∃ t, exec .hb2Lost s = .next t ∧ t.twin.hb2 = { state := 2, run := 0 } ∧ (t.evt 211).pend = true ∧
      (s.twin.state = 1 → t.twin.state = 1) ∧ SameRegisters s t ∧ SameGallery s t ∧ t.tb = s.tb) ∧
    (s.isOn .links = true → exec (.twinLinkChange true) s = .next { s with twin := { s.twin with linkUp := true } } ∧
      ∃ t, exec (.twinLinkChange false) s = .next t ∧ t.twin.linkUp = false ∧ t = { s with twin := t.twin } ∧
        (s.twin.linkUp = true → s.twin.state = 1 → s.twin.hb1.state = 1 → s.twin.hb2.state = 1 → t.twin.state = 3 ∧
          t.twin.mute = true ∧ t.twin.hbOut = false))

/-- A takeover, forced where both paths are lost or were never up, or demanded by the active over a link that is up, or planned,
makes the standby the active with the next epoch and its event; a device that is no standby is not changed. The former active of
a planned handover is its standby in step. -/
def Obligations.TwinTakeover : Prop :=
  ∀ s : State, s.paired = true →
    let taken := fun (t : State) => t.twin.state = 1 ∧ t.twin.epoch = s.twin.epoch + 1 ∧
      t.twin.takeovers = satInc 65535 s.twin.takeovers ∧ t.twin.decisions = [] ∧ t.twin.segs = [] ∧
      (t.evt 212).pend = true ∧ SameRegisters s t ∧ SameGallery s t
    (s.standby = true →
      (s.pathsLost = true ∨ s.pathsNever = true → ∃ t, exec .force s = .next t ∧ taken t ∧ t.tb = s.tb) ∧
      (s.linkUp = true → ∃ t, exec .demReceived s = .next t ∧ taken t ∧ t.tb = s.tb) ∧
      (s.twin.state = 2 → s.twin.handed = false → s.isOn .timebase = true → ∃ t, exec .plannedTakeover s = .next t ∧ taken t ∧
        t.tb = (advanceTo s.dep s).tb)) ∧
    (s.standby = false → exec .force s = .next s) ∧ (s.standby = false ∨ s.linkUp = false → exec .demReceived s = .next s) ∧
    (s.twin.state = 2 → s.twin.handed = true → s.isOn .timebase = true →
      exec .plannedTakeover s = .next { s with twin := { s.twin with handed := false } }) ∧
    (∀ x, s.twin.state = 1 → s.twin.lsw = some x → s.isOn .timebase = true → ∃ t, exec .plannedTakeover s = .next t ∧
      t.twin = { s.twin with state := 2, epoch := s.twin.epoch + 1, lsw := none, stepMap := 0x3FF#10 } ∧
      t.tb = (advanceTo (x - s.lead) s).tb ∧ t = { s with tb := t.tb, twin := t.twin, flights := t.flights })

/-- The twin's commands: TWIN_STATUS reports; DEMOTE names its landing where the partner is in step and is refused otherwise; REJOIN
starts a transfer where R362 does not refuse it; that a heartbeat path that was never up refuses it too, and that what it compares
of the partner is in the standby's report, are the model's choice (log 84); a rejoin that
takes too long leaves the standby out of step; a standby's report is kept; forwarded commands wait for their apply instants beside
what is known of their packets, and leave in that order. -/
def Obligations.TwinCommands : Prop :=
  ∀ s : State, s.paired = true →
    exec (.twinStatus []) s =
      .next { s with reply := some { status := .ok, words := [twinStatus s, twinEpoch s, twinTofs s, s.reg 0x50000] } } ∧
    (s.twin.state = 1 → s.linkUp = true → s.twin.partnerInStep = true → let l := s.landingFrom (s.now + 2 * s.grid.tc)
      exec (.demote []) s = .next { s with
        reply := some { status := .ok, words := landRef l.1 (s.seqOf l.2) false }, twin := { s.twin with lsw := some l.1 } }) ∧
    (s.twin.state ≠ 1 ∨ s.linkUp = false ∨ s.twin.partnerInStep = false →
      exec (.demote []) s = .next { s with reply := some { status := .state } }) ∧
    (let fit := s.twin.state = 1 ∧ s.linkUp = true ∧ s.twin.hb1.state = 1 ∧ s.twin.hb2.state = 1 ∧ s.twin.partnerInStep = false ∧
        s.twin.partnerActive = false ∧ s.twin.transfer = false ∧ s.twin.partnerInfo = some s.info;
      (fit → exec (.rejoin []) s =
        .next { s with reply := some { status := .ok }, twin := { s.twin with transfer := true, units := 0 } }) ∧
      (¬ fit → exec (.rejoin []) s = .next { s with reply := some { status := .state } })) ∧
    exec .rejoinTimeout s = .next { s with twin :=
      if s.twin.state = 4 then { s.twin with state := 3 } else { s.twin with transfer := false } } ∧
    (∀ x : StandbyReport, s.linkUp = true → exec (.releasableReport x) s = .next { s with twin := { s.twin with
      partnerReleasable := x.releasable, partnerNeed := x.need, partnerInfo := some x.info, partnerSu := x.suUp } }) ∧
    (∀ (q : Fin 64) (seq : Word) (note : Option (BitVec 16 × Word)) (op : Byte) (w : List Word) (a : Nat), s.linkUp = true →
      s.standby = true → ∃ t, exec (.forwardedCommand q ⟨seq, note⟩ op w a) s = .next t ∧
        (note = none → t.host = s.host) ∧
        (∀ tag crc, note = some (tag, crc) → t.queue q.val = { s.queue q.val with
          fwdExpect := some (seq + 1)
          fwdRecent := ({ seq := seq, tag := tag, crc := crc } :: (s.queue q.val).fwdRecent).take 8 }) ∧
        (∀ m, m ≠ q.val → t.queue m = s.queue m) ∧
        t.twin = { s.twin with fwd := s.twin.fwd ++
          [{ queue := q, seq := seq, op := op, words := w, at_ := near40 a s, note := note }] } ∧
        t = { s with host := t.host, twin := t.twin }) ∧
    (∀ (f : Fwd) (r : List Fwd), earliest s.twin.fwd = some (f, r) →
      (∀ g ∈ s.twin.fwd, f.at_ ≤ g.at_) ∧ f ∈ s.twin.fwd ∧
      (f.pkt = none → f.op = 0 → f.words = [] → ∃ t, exec .pairApplyInstant s = .next t ∧ t.twin.fwd = r ∧
        t.tb = (advanceTo f.at_ s).tb ∧ SameRegisters s t ∧ SameGallery s t))

/-- What a standby takes from its active: decisions, the commit word, the measurement word, segment requests, the breaks of a ring
(each wraps its own copy from the departure named) and the state transfer; what an active hears of a newer partner supersedes it;
trains are stamped as they return, in a device of no pair too, and frames that differ take their bit out of step. What the words
carry that R335 does not lay out, the breaks in segment messages, the transfer's registers and the tenth CRC as the atrium's, is the
model's choice (logs 64, 84). -/
def Obligations.TwinTraffic : Prop :=
  (∀ (s : State) (f : Fin 9) (train : List Byte), s.ringOn f.val = true → s.aon.straps.role = 0 → s.standby = false →
    exec (.activeTrainObserved f train) s = .next (s.setFlight f.val fun x => { x with back := some s.now })) ∧
  ∀ s : State, s.paired = true → s.linkUp = true →
    (s.standby = true →
      (∀ (k : Fin 63) (react : Fin 8) (cls : Fin 8) (perm : Bool) (a : Nat), react = 1 ∨ react = 2 →
        (s.cell k.val).inUse = true → (s.cell k.val).req = none → (s.cell k.val).decided = [] → ∃ t,
        exec (.decisionWord (.cell k react cls perm a)) s = .next t ∧
          t.twin = { s.twin with decisions := (.cell k react cls perm a, false) :: s.twin.decisions } ∧
          (t.cell k.val).req = some (reactPat react.val, min s.now (near40 a s - s.lead - 200)) ∧
          (t.cell k.val).lastClass = cls.val ∧ (t.cell k.val).perm = ((s.cell k.val).perm || perm) ∧
          (∀ j, j ≠ k.val → t.cell j = s.cell j) ∧ SameRegisters s t ∧ SameGallery s t ∧ t.tb = s.tb) ∧
      (∀ a : Nat, s.isOn .safety = true → ∃ t, exec (.decisionWord (.ssb a)) s = .next t ∧
        t.safe.cause = s.safe.cause ||| (1#17 <<< 16) ∧ SameRegisters s t ∧ SameGallery s t) ∧
      (∀ (fresh : BitVec 9) (crcs : List Word),
        (∀ f ∈ s.running, fresh.getLsbD f = true → (s.flight f).rep = false ∧ wd crcs f = flightCrc f s) →
        (∃ f ∈ s.running, fresh.getLsbD f = true) → s.atr.missed = false →
        (9 < crcs.length → wd crcs 9 = atriumCrc s.newAtr) → ∃ t, exec (.commitWord fresh crcs) s = .next t ∧
          (∀ f ∈ s.running, fresh.getLsbD f = true → (t.flight f).newCtx = []) ∧
          (∀ f < 9, f ∉ s.running ∨ fresh.getLsbD f = false → t.flight f = s.flight f) ∧
          t.atr.newCtx = none ∧ t.twin = s.twin ∧ SameRegisters s t ∧ SameGallery s t ∧ t.tb = s.tb) ∧
      (∀ pts, exec (.measurementWord pts) s = .next { s with twin := { s.twin with measure := some pts } }) ∧
      (∀ (f : Fin 9) (m : SegmentMsg),
        let w := if m.safe = [] then s.twin else
          { s.twin with segs := (f.val, s.now, m.safe) :: s.twin.segs.filter fun y => y.1 != f.val }
        ((∀ h ∈ m.breaks, h ∈ (s.flight f.val).breaks) → exec (.segmentFrames f m) s = .next { s with twin := w }) ∧
        (∀ h, m.breaks = [h] → h ∉ (s.flight f.val).breaks → s.ringUp f.val = true → ∃ t,
          exec (.segmentFrames f m) s = .next t ∧ t.twin = w ∧ (t.flight f.val).breaks = h :: (s.flight f.val).breaks ∧
            (h, near40 m.from40 s) ∈ (t.flight f.val).due ∧ (t.evt (128 + f.val)).pend = true ∧ t.cells = s.cells ∧
            SameRegisters s t ∧ SameGallery s t ∧ t.tb = s.tb)) ∧
      (∀ x : TransferConfig, s.twin.state = 3 → ∃ t,
        exec (.stateTransferUnit (.config x)) s = .next t ∧ t.twin.state = 4 ∧ t.twin.epoch = x.epoch ∧ t.twin.stepMap = 0 ∧
          t.pend = x.pend ∧ t.stair.telemOut = x.telem ∧ t.aon.wakeSet = x.regs.wakeSet ∧ t.atr.cap.cfg = x.regs.capCfg ∧
          (s.isOn .analog = true → t.meas.priv = x.regs.priv) ∧ t.tb.pllAct = x.regs.pllAct ∧
          t.tb = { s.tb with tc := t.tb.tc, pllPend := x.regs.pllPend, pllAct := x.regs.pllAct } ∧
          (∀ c ∈ unitCodes, t.unitSt c = s.unitSt c) ∧ SameGallery s t ∧ t.safe = s.safe) ∧
      (∀ c inj arm, s.twin.state = 4 → ∃ t, exec (.stateTransferUnit (.atrium c inj arm)) s = .next t ∧ t.ctx 63 = c ∧
        t.twin.stepMap = s.twin.stepMap ||| (1#10 <<< 9) ∧
        t.twin.state = (if s.twin.stepMap ||| (1#10 <<< 9) = 0x3FF#10 then 2 else 4) ∧ SameRegisters s t ∧ SameGallery s t) ∧
      (∀ (f : Fin 9) (train : List Byte), s.ringOn f.val = true →
        let same := s.ringUp f.val = false ∨ (s.flight f.val).rep = true ∨ trailerOk train = false ∨
            (trainFrames train).flatMap (fun x => bytesAt x 0 36) = (s.flight f.val).heads
        (same → exec (.activeTrainObserved f train) s = .next { (s.setFlight f.val fun x => { x with back := some s.now }) with
          out := .stamp f s.standbyWest (low40 s.now) :: s.out }) ∧
        (¬ same → s.twin.stepMap.getLsbD f.val = true → ∃ t,
          exec (.activeTrainObserved f train) s = .next t ∧ t.twin.stepMap.getLsbD f.val = false ∧ (t.evt 213).pend = true ∧
            t.twin.diverge = satInc 63 s.twin.diverge ∧ (t.flight f.val).back = some s.now ∧
            .stamp f s.standbyWest (low40 s.now) ∈ t.out ∧ SameRegisters s t ∧ SameGallery s t)) ∧
      (∀ sum : Int, s.isOn .timebase = true → ∃ t, exec (.twinTimeMessage sum) s = .next t ∧
        t.twin.tofs = some (twinOffset sum s) ∧ (twinOffset sum s = 0 → t.tb = s.tb) ∧
        (twinOffset sum s ≠ 0 → s.anyHallOn = true → 0x01FF7CED92 ≤ t.tb.incr.toNat ∧ t.tb.incr.toNat ≤ 0x020083126E ∧
          t.tbAll = s.tbAll) ∧ SameRegisters s t ∧ SameGallery s t)) ∧
    (∀ (f : Fin 9) (epoch : BitVec 16), s.ringUp f.val = true → s.twin.state = 1 → ∃ t,
      exec (.partnerTrainReceived f (!s.trainWest) epoch) s = .next t ∧ (t.evt 214).pend = true ∧
        (t.evt 214).data = epoch.setWidth 32 ∧
        ((epoch - s.twin.epoch).toNat < 32768 → t.twin.state = 3 ∧ t.twin.leaving = true) ∧
        (32768 ≤ (epoch - s.twin.epoch).toNat → t.twin = s.twin) ∧ SameRegisters s t ∧ SameGallery s t)


/-! The stairwell (chapter 10). -/

/-- Ports, beacons and the loss of the newel: a port's change raises its event, and a standby reports its SU port to its active; a
frame that no way brings is none, and one whose CRC fails is counted; a follower takes what a BEACON carries and goes on at its Tc,
unless that is the Tc an announced change leaves; a newel's BEACON leaves at its port SD, and an active hands its content to the
standby; a lost newel and the end of holding raise theirs; PROMOTE counts only while the newel is lost; a position that leaves
STAIR_MAP is waited for no longer. The layout of a BEACON's payload and opcode 0xE3 of its hand-over (log 47), what
else is a position fault (log 48), what ends NEWEL_LOST and HOLD_EXP and when a beacon's Tc is taken (log 49), that a position that
leaves is waited for no longer (log 50), and what the two devices of a pair hand each other (log 51) are the model's choice. -/
def Obligations.StairBeacons : Prop :=
  ∀ s : State, s.Runs →
    exec (.stairStatus []) s =
      .next { s with reply := some { status := .ok, words := [stairStatus s, stairOfs s, stairMap s] } } ∧
    (s.isOn .links = true → ∀ sd up : Bool, ∃ t, exec (.stairPortChange sd up) s = .next t ∧
      t.stair = (if sd then { s.stair with downUp := up, heard := s.stair.heard.filter fun y => y.2.1 != StairVia.sd }
        else { s.stair with upUp := up, heard := s.stair.heard.filter fun y => y.2.1 != StairVia.su }) ∧
      (sd = false → s.standby = true → s.linkUp = true →
        .report { releasable := s.releasable, suUp := up, need := s.twinNeed, info := s.info } ∈ t.out) ∧
      (t.evt 215).pend = true ∧ SameRegisters s t ∧ SameGallery s t ∧ t.tb = s.tb) ∧
    (∀ (h : StairHdr) (m : BeaconMsg) (a : AnnounceMsg) (x y : Bool) (t2 t3 t4 : Int) (v : ShareMsg) (d : Nat)
        (e : TelemMsg) (l : List Nat) (w : List (Nat × F32)),
      ∀ c ∈ [(1#8, Instr.beacon ⟨h, m⟩), (2, .announce h a), (6, .annAck h x y), (3, .timeReq ⟨h, t2⟩),
          (4, .timeResp h (t2, t3) t4), (5, .share ⟨h, v⟩), (7, .stairStatusFrame h x y), (10, .telem h d e), (8, .sigReq h l),
          (9, .sigResp h w)],
        (s.stairHears c.1 h.via = false → exec c.2 s = .next s) ∧
        (s.stairHears c.1 h.via = true → h.crcOk = false →
          exec c.2 s = .next { s with stair := { s.stair with crcErr := satInc 255 s.stair.crcErr } })) ∧
    (∀ (h : StairHdr) (m : BeaconMsg), s.stairHears 1 h.via = true → h.crcOk = true → h.dst = 0xFF → h.via ≠ .sd → s.pos ≠ 0 →
      let u := samePosition h s
      (s.stair.promote = true → ∃ t, exec (.beacon ⟨h, m⟩) s = .next t ∧ t.stair = { u.stair with newelBack := true } ∧
        t = { u with stair := t.stair, out := t.out }) ∧
      (s.stair.promote = false → s.pos < m.count → h.src.val < s.pos →
        let left := s.stair.leftTc = some m.tc ∧ s.stair.newelTc ≠ some m.tc
        ∃ t, exec (.beacon ⟨h, m⟩) s = .next t ∧
        t.stair = { u.stair with
          newelLost := false, holdExp := false, count := m.count, shareMask := m.shareMask, present := m.mapPresent
          halls := m.mapHalls, newelTc := (if left then s.stair.newelTc else some m.tc)
          leftTc := (if left then s.stair.leftTc else none)
          anns := s.stair.anns.filter fun w => m.mapPresent &&& ~~~w.acked != 0 } ∧
        t.grid = (if ¬ left ∧ s.grid.tc ≠ m.tc ∧ s.grid.change = none then { s.grid with change := some (s.grid.next, m.tc) }
          else s.grid) ∧
        (s.stair.anns = [] → t = { u with stair := t.stair, grid := t.grid, out := t.out }) ∧
        SameRegisters s t ∧ SameGallery s t ∧ t.tb = s.tb)) ∧
    (s.downstream = true → s.newel = true →
      let b := Out.stair true (stairFrame 1 s.pos s.onChainW 0xFF 0 (beaconBytes s.beacon))
      (s.twin.state ≠ 1 ∨ s.linkUp = false → exec .beaconSend s = .next { s with out := b :: s.out }) ∧
      (s.twin.state = 1 → s.linkUp = true → s.beacon = s.ownBeacon ∧ ∃ l, exec .beaconSend s =
        .next { s with out := .forward 0 0 none 0xE3 l (low40 s.now) :: b :: s.out })) ∧
    (s.newel = false → s.stair.newelLost = false → ∃ t, exec .newelLost s = .next t ∧
      t.stair = { s.stair with newelLost := true, leftTc := none } ∧ (t.evt 217).pend = true ∧
      SameRegisters s t ∧ SameGallery s t ∧ t.tb = s.tb) ∧
    (s.newel = false → s.stair.newelLost = true → s.stair.holdExp = false → ∃ t, exec .holdExp s = .next t ∧
      t.stair = { s.stair with holdExp := true, sync := false, good := 0 } ∧ (t.evt 216).pend = true ∧
      SameRegisters s t ∧ SameGallery s t ∧ t.tb = s.tb) ∧
    (s.stair.newelLost = true → exec .promote s = .next { s with stair := { s.stair with promote := true } }) ∧
    (s.stair.newelLost = false → exec .promote s = .next s) ∧
    exec .followerRestore s = .next { s with stair := { s.stair with promote := false } } ∧
    (∀ p : Fin 16, let u := { s with stair := { s.stair with present := s.stair.present &&& ~~~(1#16 <<< p.val) } }
      ∃ t, exec (.stairMapPresenceLapse p) s = .next t ∧
        t.stair = { u.stair with anns := s.stair.anns.filter fun w => !annDone w u } ∧
        ((∀ w ∈ s.stair.anns, annDone w u = false) → t = u) ∧ SameRegisters s t ∧ SameGallery s t ∧ t.tb = s.tb)

/-- Time and status along the chain: a request notes its departure, the upstream device answers with its own instant, the
response, whose stamps name the instants next to its own, gives θ and counts towards SYNC; shared points are kept with the landing
they bear and relayed one hop further, and the newel keeps each position's STATUS. The payload layouts (log 47), what is a
position fault (log 48), and that SYNC sets again and SYNC_LOSS is raised as stated (log 49) are the model's choice. -/
def Obligations.StairTime : Prop :=
  ∀ s : State, s.Runs → s.isOn .links = true → s.isOn .timebase = true →
    (s.newel = false → s.stair.upUp = true → exec .timeReqSend s = .next { s with
      out := .stair false (stairFrame 3 s.pos s.onChainW 0xFF 0 []) :: s.out, stair := { s.stair with t1 := some s.tb16 } }) ∧
    (∀ (h : StairHdr) (t2 : Int), s.stair.downUp = true → h.via = .sd → h.crcOk = true → h.dst = 0xFF → ∃ t,
      exec (.timeReq ⟨h, t2⟩) s = .next t ∧
        t.out.head? = some (.stair true (stairFrame 4 s.pos s.onChainW 0xFF 0 (stampBytes t2 s.tb16))) ∧
        t.stair = (samePosition h s).stair ∧ SameRegisters s t ∧ SameGallery s t ∧ t.tb = s.tb) ∧
    (∀ (h : StairHdr) (t1 t2 t3 t4 : Int), s.newel = false → s.stair.upUp = true → h.via = .su → h.crcOk = true → h.dst = 0xFF →
      s.stair.t1 = some t1 → ∃ t, exec (.timeResp h (t2, t3) t4) s = .next t ∧ t.stair.t1 = none ∧
        let o := stairTheta t1 (stampNear t2 t4) (stampNear t3 t4) t4 (sfld (s.reg 0x50108) 0 16)
        t.stair.theta = some o ∧ (s.pos ≤ h.src.val → t.stair.posErr = true) ∧
          (o.natAbs ≤ 32 → t.stair.good = satInc 16 s.stair.good ∧ t.stair.bad = 0) ∧
          (320 < o.natAbs → t.stair.good = 0 ∧ t.stair.bad = satInc 16 s.stair.bad) ∧
          (o.natAbs ≤ 32 → 15 ≤ s.stair.good → s.stair.good ≤ 16 → t.stair.sync = true) ∧
          (320 < o.natAbs → 15 ≤ s.stair.bad → s.stair.bad ≤ 16 → s.stair.sync = true →
            t.stair.sync = false ∧ (t.evt 216).pend = true) ∧
          (s.standby = true ∨ s.stair.newelLost = true → t.tb = s.tb) ∧ SameRegisters s t ∧ SameGallery s t) ∧
    (∀ (h : StairHdr) (m : ShareMsg), s.stairHears 5 h.via = true → h.crcOk = true → h.dst = 0xFF → h.via ≠ .sd →
      s.newel = false → let u := samePosition h s
      ∃ t, exec (.share ⟨h, m⟩) s = .next t ∧ t.stair = { u.stair with shares := (m :: s.stair.shares).take 2 } ∧
        (h.via = .su → s.stair.downUp = true → t.out.head? =
          some (.stair true (stairFrame 5 h.src.val h.chainW h.dst (h.hops + 1) (shareBytes m)))) ∧
        t = { u with stair := t.stair, out := t.out }) ∧
    (s.standby = false → s.newel = false → s.stair.upUp = true →
      let x := Out.stair false (stairFrame 7 s.pos s.onChainW 0xFF 0 (statusBytes s.pos s.anyHallOn s.stair.sync))
      exec .statusSend s = .next { s with out := x :: s.out }) ∧
    (∀ (h : StairHdr) (ho y : Bool), s.stair.downUp = true → h.via = .sd → h.crcOk = true → h.dst = 0xFF →
      let u := samePosition h s
      (s.newel = true → ∃ t, exec (.stairStatusFrame h ho y) s = .next t ∧ t.stair = { u.stair with
          present := s.stair.present ||| (1#16 <<< h.src.val),
          halls := if ho then s.stair.halls ||| (1#16 <<< h.src.val) else s.stair.halls &&& ~~~(1#16 <<< h.src.val) } ∧
        t = { u with stair := t.stair, out := t.out }) ∧
      (s.newel = false → ∃ t, exec (.stairStatusFrame h ho y) s = .next t ∧ t = { u with out := t.out } ∧
        (s.stair.upUp = true → t.out.head? = some (.stair false
          (stairFrame 7 h.src.val h.chainW h.dst (h.hops + 1) (statusBytes h.src.val ho y)))) ∧
        (h.chainW = s.onChainW → h.src.val = s.pos → t.stair.posErr = true ∧
          (s.stair.posErr = false → (t.evt 215).pend = true))))

/-- Stair-scope landings and remote points: an announced landing is armed and acknowledged, acknowledgements complete the
wait, its end answers the oldest one; requested points are sent, and a response or its absence ends the read; telemetry values
and requests are kept, by a standby too, to which its active hands them on. The payload layouts (log 47), what a late
announcement and a wait's end do (log 50), what the devices of a pair hand each other (log 51) and how telemetry is asked for (log 87)
are the model's choice. -/
def Obligations.StairLandings : Prop :=
  ∀ s : State, s.Runs → s.isOn .links = true →
    (∀ (h : StairHdr), s.standby = false → s.stairHears 2 h.via = true → h.crcOk = true →
      h.dst = 0xFF ∨ h.dst = BitVec.ofNat 8 s.pos → let u := samePosition h s
      (∀ x, s.grid.armed = none → s.now + s.lead + 201 ≤ near40 x s → ∃ t, exec (.announce h (.loadAll x)) s = .next t ∧
        t.grid.armed = some ((s.landingFrom (near40 x s)).1, true) ∧ t.grid.modStale = s.staleMask ∧
        SameRegisters s t ∧ SameGallery s t ∧ t.tb = s.tb) ∧
      (∀ x a b, s.grid.armed = some (a, b) → a ≠ near40 x s → ∃ t, exec (.announce h (.loadAll x)) s = .next t ∧
        t = { u with out := t.out }) ∧
      (∀ tc lx, s.newel = false → ∃ t, exec (.announce h (.newTc tc lx)) s = .next t ∧
        t.grid = { s.grid with change := some (near40 lx s, tc) } ∧
        t.stair = { u.stair with newelTc := some tc, leftTc := some s.grid.tc } ∧
        t = { u with out := t.out, grid := t.grid, stair := t.stair })) ∧
    (∀ (h : StairHdr) (ok stale : Bool), s.stairHears 6 h.via = true → h.crcOk = true →
      h.dst = 0xFF ∨ h.dst = BitVec.ofNat 8 s.pos → ∃ t, exec (.annAck h ok stale) s = .next t ∧
        t.stair.anns = (ackFirst (1#16 <<< h.src.val) ok stale s.stair.anns).filter (fun w => !annDone w s) ∧
        SameRegisters s t ∧ SameGallery s t ∧ t.tb = s.tb) ∧
    (∀ (h : StairHdr) (tag : Nat) (m : TelemMsg), s.stairHears 0x0A h.via = true → h.crcOk = true →
      h.dst = 0xFF ∨ h.dst = BitVec.ofNat 8 s.pos → ∃ t, exec (.telem h tag m) s = .next t ∧
        (∀ vals, m = .values vals → ∀ v ∈ vals, (h.src.val, low40 tag, v.1 % 65536, v.2) ∈ t.stair.telem) ∧
        (∀ n dec pts, m = .ask n dec pts → pts ≠ [] →
          { owner := h.src, chainW := h.chainW, n := n, dec := max 1 dec, first := near40 tag s, pts := pts } ∈ t.stair.telemOut) ∧
        (s.twin.state = 1 → s.linkUp = true → h.via ≠ .twin →
          .stairTwin (stairFrame 0x0A h.src.val h.chainW h.dst h.hops (telemBytes tag m)) ∈ t.out) ∧
        t = { samePosition h s with stair := t.stair, out := t.out }) ∧
    (∀ (w : AnnWait) (r : List AnnWait), s.stair.anns = w :: r → ∃ t, exec .announceTimeout s = .next t ∧ t.stair.anns = r ∧
      (w.pkt ≠ none → t.reply = some (annReply w s)) ∧ SameRegisters s t ∧ SameGallery s t ∧ t.tb = s.tb) ∧
    (∀ (h : StairHdr), s.stairHears 8 h.via = true → h.crcOk = true → h.dst = BitVec.ofNat 8 s.pos → let u := samePosition h s
      ∀ pts : List Nat, s.standby = false → (if s.pos < h.src.val then s.stair.downUp else s.stair.upUp) = true →
        let x := Out.stair (decide (s.pos < h.src.val)) (stairFrame 9 s.pos s.onChainW (BitVec.ofNat 8 h.src.val) 0
          (respBytes (pts.map fun p => (p, u.localPoint p))))
        exec (.sigReq h pts) s = .next { u with out := x :: u.out }) ∧
    (∀ (h : StairHdr) (p : Nat) (v : F32), s.stairHears 9 h.via = true → h.crcOk = true → h.dst = BitVec.ofNat 8 s.pos →
      ptPos p = h.src.val → s.stair.sigs = [{ pts := [p], vals := [], pkt := none }] → ∃ t,
        exec (.sigResp h [(p, v)]) s = .next t ∧ t.Replies .ok [v] ∧ t.stair.sigs = [] ∧
          t = { samePosition h s with reply := t.reply, stair := t.stair, out := t.out }) ∧
    (∀ (w : SigWait) (r : List SigWait), s.stair.sigs = w :: r → ∃ t, exec .sigRespTimeout s = .next t ∧
      t.Replies .state [] ∧ t.stair.sigs = r ∧ SameRegisters s t ∧ SameGallery s t ∧ t.tb = s.tb)

/-! The period, the rings and the lanes (chapters 3 to 6). -/

/-- The instants of a period, each at its own fire tick: the sample latches what the host wrote, the gather trains go out,
the commit point takes an armed landing that is due, the deliver departure records the capture's sample and no other byte
(unless a hall's last trains leave with it, R444), keep-alives are counted, and a superseded or demoted device sends none (R352),
and a landing moves the grid on. -/
def Obligations.PeriodInstants : Prop :=
  ∀ s : State, s.Runs → s.isOn .timebase = true →
    (∃ t, exec .sampleInstant s = .next t ∧ t.tb = (advanceTo s.sampleAt s).tb ∧ t.atr.writes = [] ∧
      (∀ n < 64, ∀ i, ((t.ctx n).slot i).spUse = ((t.ctx n).slot i).sp ∧
        ((t.ctx n).slot i).armReady = ((t.ctx n).slot i).arm.isSome) ∧ SameRegisters s t ∧ SameGallery s t) ∧
    (∃ t, exec .gatherDeparture s = .next t ∧ t.tb = (advanceTo (s.sampleAt + 100) s).tb ∧
      (∀ f < 9, s.ringOn f = true → (t.flight f).outEast = (routes f s).any (fun r => !r.west) ∧
        (t.flight f).outWest = (routes f s).any (fun r => r.west) ∧ (t.flight f).lostNow = false ∧ (t.flight f).ewDelay = none) ∧
      ((∀ f < 9, s.ringOn f = true → routes f s ≠ []) → (∀ f < 9, s.ringOn f = false → t.flight f = s.flight f) ∧
        t = { s with tb := t.tb, flights := t.flights, out := t.out }) ∧ SameRegisters s t ∧ SameGallery s t) ∧
    (∃ t, exec .commitPoint s = .next t ∧ t.tb = (advanceTo (s.dep - 200) s).tb ∧
      (∀ a b, s.grid.armed = some (a, b) → a ≤ s.grid.next → t.grid.armed = none ∧ t.grid.snapDue = true) ∧
      (∀ a b, s.grid.armed = some (a, b) → s.grid.next < a → t.grid = s.grid) ∧ (s.grid.armed = none → t.grid = s.grid) ∧
      t = { s with tb := t.tb, grid := t.grid, cells := t.cells, halls := t.halls }) ∧
    (∀ bad skip, (∀ q, s.aon.seq = some q → q.lastTrain = false) → ∃ t, exec (.deliverDeparture bad skip) s = .next t ∧ t.tb = (advanceTo s.dep s).tb ∧
      let c := s.atr.cap
      let a0 := capAddr (c.count % capDepth c.cfg * capChans c.cfg)
      (∀ a, a < a0 ∨ a0 + 4 * capChans c.cfg ≤ a → memRead t.mem a = memRead s.mem a) ∧
      (c.armed = false ∨ c.done = true ∨ s.capBanks = false → SameGallery s t) ∧
      (c.armed = true → c.done = false → s.capBanks = true → c.triggered = false → c.dec = 0 →
        t.atr.cap.count = c.count + 1) ∧ SameRegisters s t) ∧
    (s.grid.keepAlive + 1 < parts s.grid.tc → ∃ t, exec .keepAliveDeparture s = .next t ∧
      t.grid = { s.grid with keepAlive := s.grid.keepAlive + 1 } ∧
      t.tb = (advanceTo (s.grid.now + (s.grid.keepAlive + 1) * s.grid.tc / parts s.grid.tc - s.lead) s).tb ∧
      (s.twin.leaving = true ∨ s.twin.mute = true → t.out = s.out ∧ t.twin.mute = true ∧ t.flights = s.flights) ∧
      (∀ k, (t.cell k).mode = (s.cell k).mode ∧ (t.cell k).req = (s.cell k).req ∧ (t.cell k).stage = (s.cell k).stage) ∧
      t.safe = s.safe ∧ SameRegisters s t ∧ SameGallery s t) ∧
    (∃ t, exec .landing s = .next t ∧ t.tb = (advanceTo s.grid.next s).tb ∧ t.grid.now = s.grid.next ∧
      t.grid.next = (s.landingFrom (s.grid.next + 1)).1 ∧ t.grid.seq = s.grid.seq + 1 ∧ t.grid.keepAlive = 0 ∧
      t.grid.snapDue = false ∧ t.atr.started = false ∧ (∀ f < 9, (t.flight f).loopsDone = false) ∧
      SameRegisters s t ∧ SameGallery s t)

/-- The work of a period: the atrium's loops start once, for all strings (the model's choice, log 78), and 3.1 µs after the sample instant
at the earliest while a gather is out, what the deadline finds, a sort's end, the mapping of a flight, and
the gather trains that return or are lost. -/
def Obligations.PeriodWork : Prop :=
  ∀ s : State, s.Runs →
    (s.atr.started = false → let u := if s.gathersOut then advanceTo (s.sampleAt + 3100) s else s
      ∃ t, exec .atriumLoopStart s = .next t ∧ t.atr.started = true ∧ t.atr.startAt = u.now ∧
        u.now ≤ t.atr.doneAt ∧ SameRegisters s t ∧ SameGallery s t ∧ t.tb = u.tb ∧ t.cells = s.cells) ∧
    (s.isOn .timebase = true → ∃ t, exec .atriumDeadline s = .next t ∧ t.tb = (advanceTo (s.dep - 1200) s).tb ∧
      t.atr.missed = (!s.atr.started || decide (s.dep - 1200 < s.atr.doneAt)) ∧ t.atr.done = !t.atr.missed ∧
      t = { s with tb := t.tb, atr := t.atr, halls := t.halls, out := t.out }) ∧
    (∀ h : Fin 3, s.hallOn h.val = true → s.atr.started = true → fld (s.modNow (s.strHead h.val)).1 0 2 ≠ 0 →
      (∃ t, exec (.hallSort h true) s = .next t ∧ (t.hall h.val).sorted = true ∧ (t.hall h.val).err = (s.hall h.val).err ∧
        SameRegisters s t ∧ SameGallery s t ∧ t.tb = s.tb) ∧
      (s.standby = false → (s.hall h.val).err = false → ∃ t, exec (.hallSort h false) s = .next t ∧
        (t.hall h.val).sorted = true ∧ (t.hall h.val).err = true ∧ (t.evt (160 + h.val)).pend = true ∧
        (t.hall h.val).order = (s.hall h.val).order ∧ SameRegisters s t ∧ SameGallery s t)) ∧
    (∀ f : Fin 9, s.ringUp f.val = true → (s.flight f.val).loopsDone = true → s.atr.started = true →
      (s.flight f.val).mapped = false ∨ (s.flight f.val).remap = true →
      let h := s.strHead (f.val / 3)
      fld (s.modNow h).1 0 2 = 0 ∨ (∀ g ∈ s.strHalls h, s.hallOn g = true → (s.hall g).sorted = true) → ∃ t,
        exec (.stageMapping f) s = .next t ∧ (t.flight f.val).mapped = true ∧ (t.hall (f.val / 3)).mapping = true ∧
          SameRegisters s t ∧ SameGallery s t ∧ t.tb = s.tb) ∧
    (∀ (f : Fin 9) (west : Bool) (r : Route), outRoute f.val west s = some r → s.ringOn f.val = true →
      (∀ tg train, r.back ∈ s.ends ∨ s.linkUp = true → ∃ t, exec (.gatherReturn f west tg train) s = .next t ∧
        (if west then (t.flight f.val).outWest else (t.flight f.val).outEast) = false ∧
        SameRegisters s t ∧ SameGallery s t ∧ t.tb = s.tb) ∧
      (∀ tg train, r.back ∉ s.ends → s.linkUp = false → exec (.gatherReturn f west tg train) s = .next s) ∧
      (∃ t, exec (.gatherLost f west) s = .next t ∧
        (if west then (t.flight f.val).outWest else (t.flight f.val).outEast) = false ∧ (t.flight f.val).lostNow = true ∧
        t.tb = (advanceTo (s.sampleAt + 100 + expectedTg f.val r s + 200) s).tb ∧ SameRegisters s t ∧ SameGallery s t))

/-- The rings: UNWRAP of a wrapped ring is taken or refused by its ports, a survey begins, or is refused, and keeps its result,
an alarm counts once and one with a bad check is counted, a break wraps the ring, a probe makes a loop sum with the period's own
gather, and a receiver's state is kept where the flight holds cells. That an alarm of a class or position out of the list is ignored is the
model's choice (log 93), and that GO during a survey is refused with STATE and GO clears DONE (log 94). -/
def Obligations.RingEvents : Prop :=
  ∀ (s : State) (f : Fin 9), s.Runs → s.fltOn f.val = true →
    ((s.flight f.val).wrapped = true →
      (s.portsUp f.val = true → exec (.unwrap f) s = .next (s.setFlight f.val fun x => { x with
        unwrapAt := some (s.landingFrom (s.now + 2 * s.grid.tc)).1 })) ∧
      (s.portsUp f.val = false → exec (.unwrap f) s = .next (s.setFlight f.val fun x => { x with unwrapRef := true }))) ∧
    (∀ v : Word, let blocked := ∀ i < s.ctCount f.val, fieldAt (s.cell (7 * f.val + i)).report 1 1 % 4 = 1
      (s.ctCount f.val ≤ fld v 0 3 → exec (.fltSurveyGo f v) s = .next { s with reply := some { status := .badParam } }) ∧
      (fld v 0 3 < s.ctCount f.val →
        (blocked → (s.flight f.val).survStep = 0 → exec (.fltSurveyGo f v) s = .next (s.setFlight f.val fun x => { x with
          survPos := fld v 0 3, survSide := bit v 8, survBusy := true, survStep := 1, survDone := false })) ∧
        (¬ blocked ∨ (s.flight f.val).survStep ≠ 0 →
          exec (.fltSurveyGo f v) s = .next { s with reply := some { status := .state } }))) ∧
    (∀ loop : Word,
      ((s.flight f.val).survStep = 3 → exec (.surveyDone f loop) s = .next (s.setFlight f.val fun x => { x with
        survBusy := false, survStep := 4, survDone := true, survRes := loop })) ∧
      ((s.flight f.val).survStep ≠ 3 → exec (.surveyDone f loop) s = .next s)) ∧
    (∀ (west : Bool) (a1 a2 a3 : Byte), s.ringOn f.val = true → let cls := a2.toNat % 128
      let j := a1.toNat / 16 % 8
      let k := 7 * f.val + j
      let hop := j + a2.toNat / 128
      let noted := (cls, s.now) :: (s.cell k).alms.filter fun a => decide (s.now ≤ a.2 + 10000)
      (a3 ≠ ~~~(a1 ^^^ a2) → exec (.almReceived f west a1 a2 a3) s =
        .next (s.setFlight f.val fun x => { x with almErr := satInc 7 x.almErr })) ∧
      (a3 = ~~~(a1 ^^^ a2) →
        (j = 7 ∨ cls = 0 ∨ 7 < cls ∨ s.hadAlarm k cls = true → exec (.almReceived f west a1 a2 a3) s = .next s) ∧
        (j < 7 → 0 < cls → cls ≤ 7 → s.hadAlarm k cls = false →
          (∃ t, exec (.almReceived f west a1 a2 a3) s = .next t ∧ (t.cell k).alms = noted ∧
            SameRegisters s t ∧ SameGallery s t ∧ t.tb = s.tb) ∧
          (s.standby = true → exec (.almReceived f west a1 a2 a3) s = .next (s.setCell k fun c => { c with alms := noted })) ∧
          (cls = 7 → s.standby = false → s.ringUp f.val = true → (s.flight f.val).breaks.contains hop = false → ∃ t,
            exec (.almReceived f west a1 a2 a3) s = .next t ∧ (t.flight f.val).breaks = hop :: (s.flight f.val).breaks ∧
              (t.evt (128 + f.val)).pend = true)))) ∧
    (∀ west : Bool, s.ringUp f.val = true → let hop := if west then s.ctCount f.val else 0
      (s.flight f.val).breaks.contains hop = false → ∃ t, exec (.ldnReceived f west) s = .next t ∧
        (t.flight f.val).breaks = hop :: (s.flight f.val).breaks ∧ (t.evt (128 + f.val)).pend = true ∧
        ((s.flight f.val).breaks = [] ∨ s.standby = true →
          (∀ g, g ≠ f.val → t.flight g = s.flight g) ∧ t.cells = s.cells) ∧ SameRegisters s t ∧ SameGallery s t) ∧
    (∀ (we ew : Nat) (r : Route), (routes f.val s).find? (fun r => r.whole) = some r → s.ringOn f.val = true →
      s.aon.straps.role = 0 ∨ s.linkUp = true → (s.flight f.val).ewDelay = some ew → ∃ t, exec (.prbArrival f we) s = .next t ∧
        (∀ x, x = takeSum r (ew + we) { s.flight f.val with ewDelay := none } →
          sumsOf r (t.flight f.val) = sumsOf r x ∧ (t.flight f.val).mRej = x.mRej ∧
          t.flight f.val = { x with kEast := (t.flight f.val).kEast, kWest := (t.flight f.val).kWest }) ∧
        (∀ g, g ≠ f.val → t.flight g = s.flight g) ∧ t = { s with flights := t.flights }) ∧
    (∀ we : Nat, (s.flight f.val).ewDelay = none ∨ (s.aon.straps.role ≠ 0 ∧ s.linkUp = false) →
      exec (.prbArrival f we) s = .next s) ∧
    (∀ west up : Bool,
      (s.ctCount f.val ≠ 0 → exec (.ringPortReceiverChange f west up) s = .next (s.setFlight f.val fun x =>
        if west then { x with westUp := up } else { x with eastUp := up })) ∧
      (s.ctCount f.val = 0 → exec (.ringPortReceiverChange f west up) s = .next s))

/-- A lane whose self-test passes is no longer in test; one that fails, the spare in the background too, is out of use with
its event. -/
def Obligations.LaneSelfTests : Prop :=
  ∀ (s : State) (l : Fin 14), s.Runs → s.isOn (laneDom l.val) = true →
    ((s.lane l.val).testing = true →
      (∃ t, exec (.laneSelfTestDone l true) s = .next t ∧ (t.lane l.val).testing = false ∧
        (t.lane l.val).role = (s.lane l.val).role ∧ t = { s with halls := t.halls, atr := { s.atr with lanes := t.atr.lanes } }) ∧
      (∃ t, exec (.laneSelfTestDone l false) s = .next t ∧ (t.lane l.val).role = 2 ∧ (t.evt (146 + l.val)).pend = true ∧
        SameRegisters s t ∧ SameGallery s t ∧ t.tb = s.tb)) ∧
    ((s.lane l.val).role = 1 → (s.lane l.val).flight = 15 → (s.lane l.val).testing = false →
      (∃ t, exec (.spareSelfTest l false) s = .next t ∧ (t.lane l.val).role = 2 ∧ (t.evt (146 + l.val)).pend = true ∧
        SameRegisters s t ∧ SameGallery s t ∧ t.tb = s.tb) ∧
      exec (.spareSelfTest l true) s = .next s)

/-! Thermal supervision (chapter 12). -/

/-- A sensor's failure and pin bits are cleared by written ones; a housekeeping round runs at the next multiple of its period
and publishes the readings; a late round sets its bit; a die at its shutdown level shuts down once, with cause 14,
which a die that stays so hot sets again. -/
def Obligations.ThermalRounds : Prop :=
  ∀ s : State, s.Runs →
    (∀ x : Sensor, s.sensorOn (sensorCode x) = true →
      (∃ t, exec (.sensorFailClear x) s = .next t ∧
        t.sens (sensorCode x) = { s.sens (sensorCode x) with fail := false, dev := 0 } ∧
        t = { s with therm := t.therm, cells := t.cells }) ∧
      (∃ t, exec (.sensorPinClear x) s = .next t ∧ (t.sens (sensorCode x)).pin = false ∧
        (t.sens (sensorCode x)).fail = (s.sens (sensorCode x)).fail ∧ t = { s with therm := t.therm, cells := t.cells })) ∧
    (∀ (th : Vector PinInput 4) (r : Rails) (v : Nat), s.isOn .timebase = true → s.atr.halted = false →
      let p := s.hkPeriod * 1000000
      let next := match s.therm.hkLast with
        | some l => max (gridUp p s.now) ((l / p + 1) * p)
        | none => gridUp p s.now
      ∃ t, exec (.hkRound th r v) s = .next t ∧ t.therm.hkLast = some next ∧ t.tb = (advanceTo next s).tb ∧
        t.therm.hkVolts = { vin := r.vin, vcore := r.vcore, v3p3 := r.v3p3, vdda := if s.vddaOn then v else 0 } ∧ SameRegisters s t ∧ SameGallery s t) ∧
    exec .hkLate s = .next { s with therm := { s.therm with hkLate := true } } ∧
    (∀ (d : Fin 4) (x : Int),
      (s.shutLevel ≤ x → s.therm.shut = false → s.aon.seq = none → ∃ t,
        exec (.dieShutdownCompare d (.val x)) s = .next t ∧ t.therm.shut = true ∧ (t.evt 205).pend = true ∧
          (s.isOn .safety = true → t.safe.cause = s.safe.cause ||| (1#17 <<< 14)) ∧
          (s.isOn .nvm = true → t.nvm.stop = true) ∧
          (s.isOn .nvm = true → s.nvm.busy = false → t.domSt .nvm = .off) ∧ SameGallery s t) ∧
      (s.shutLevel ≤ x → s.therm.shut = true → s.isOn .safety = true → ∃ t,
        exec (.dieShutdownCompare d (.val x)) s = .next t ∧ t.therm.shut = true ∧
          t.safe.cause = s.safe.cause ||| (1#17 <<< 14) ∧ SameRegisters s t ∧ SameGallery s t ∧ t.tb = s.tb) ∧
      (x < s.shutLevel → s.therm.shut = false → exec (.dieShutdownCompare d (.val x)) s =
        .next { s with therm := { s.therm with die := s.therm.die.set d (.val x) } }))
end

