-- ==== Sys2Proof/Laws/State.lean ====
section
/-! SUPPORT. The small laws of the state's parts: arrays by index, sparse tables, and one law per accessor and update. -/

namespace Sys2Proof.Machine

open Sys2Proof

/-! Arrays by index. -/

section Arrays

variable {α : Type} {n : Nat}

@[simp] theorem vget_vmod_same (v : Vector α n) (i : Nat) (f : α → α) (d : α) (h : i < n) :
    vget (vmod v i f) i d = f (vget v i d) := by
  simp [vget, vmod, h]

@[simp] theorem vget_vmod_ne (v : Vector α n) (i j : Nat) (f : α → α) (d : α) (h : i ≠ j) :
    vget (vmod v i f) j d = vget v j d := by
  unfold vget vmod
  split
  · simp [h]
  · rfl

theorem vmod_out (v : Vector α n) (i : Nat) (f : α → α) (h : n ≤ i) : vmod v i f = v := by
  simp [vmod, Nat.not_lt.mpr h]

@[simp] theorem vget_vset_same (v : Vector α n) (i : Nat) (x d : α) (h : i < n) : vget (vset v i x) i d = x := by
  simp [vset, h]

@[simp] theorem vget_vset_ne (v : Vector α n) (i j : Nat) (x d : α) (h : i ≠ j) :
    vget (vset v i x) j d = vget v j d := by
  simp [vset, h]

end Arrays

/-! Sparse tables. -/

@[simp] theorem tget_tset_same {α : Type} (t : Table α) (k : Nat) (x : α) : tget (tset t k x) k = some x := by
  induction t with
  | nil => simp [tset, tget]
  | cons e r ih =>
    obtain ⟨a, v⟩ := e
    unfold tset
    split
    · simp [tget]
    · split
      · simp [tget]
      · next h1 h2 => simp [tget, h2, h1, ih]

@[simp] theorem tget_tset_ne {α : Type} (t : Table α) (k j : Nat) (x : α) (h : k ≠ j) :
    tget (tset t k x) j = tget t j := by
  induction t with
  | nil => simp [tset, tget, h]
  | cons e r ih =>
    obtain ⟨a, v⟩ := e
    unfold tset
    split
    · next h1 =>
      by_cases h2 : j < k
      · have h3 : a ≠ j := by omega
        have h4 : j < a := by omega
        simp [tget, h, h2, h3, h4]
      · simp [tget, h, h2]
    · split
      · next h1 h2 => subst h2; simp [tget, h]
      · simp only [tget, ih]

/-! Registers. -/

@[simp] theorem setReg_reg_same (s : State) (a : Nat) (v : Word) : (s.setReg a v).reg a = v := by
  simp [State.setReg, State.reg]

@[simp] theorem setReg_reg_ne (s : State) (a b : Nat) (v : Word) (h : a ≠ b) : (s.setReg a v).reg b = s.reg b := by
  simp [State.setReg, State.reg, h]

@[simp] theorem setPend_regNext_same (s : State) (a : Nat) (v : Word) : (s.setPend a v).regNext a = v := by
  simp [State.setPend, State.regNext]

@[simp] theorem setPend_regNext_ne (s : State) (a b : Nat) (v : Word) (h : a ≠ b) :
    (s.setPend a v).regNext b = s.regNext b := by
  simp [State.setPend, State.regNext, State.reg, h]

@[simp] theorem setPend_reg (s : State) (a b : Nat) (v : Word) : (s.setPend a v).reg b = s.reg b := rfl

/-! Domains: an update that leaves AON alone leaves what is ON alone. -/

theorem isOn_congr {s t : State} (h : t.aon = s.aon) (d : Dom) : t.isOn d = s.isOn d := by
  simp [State.isOn, State.domSt, h]

theorem bankOn_congr {s t : State} (h : t.aon = s.aon) (g : Nat) : t.bankOn g = s.bankOn g := by
  simp [State.bankOn, State.bankSt, h]

theorem hallOn_congr {s t : State} (h : t.aon = s.aon) (i : Nat) : t.hallOn i = s.hallOn i := isOn_congr h _

theorem reg_congr {s t : State} (h : t.aon = s.aon) (hc : t.cfg = s.cfg) (a : Nat) : t.reg a = s.reg a := by
  simp [State.reg, h, hc]

/-! Indexed parts. -/

@[simp] theorem setCell_cell_same (s : State) (k : Nat) (f : Cell → Cell) (h : k < 63) :
    (s.setCell k f).cell k = f (s.cell k) :=
  vget_vmod_same s.cells _ _ _ h

@[simp] theorem setCell_cell_ne (s : State) (k j : Nat) (f : Cell → Cell) (h : k ≠ j) :
    (s.setCell k f).cell j = s.cell j :=
  vget_vmod_ne s.cells _ _ _ _ h

@[simp] theorem setFlight_flight_same (s : State) (k : Nat) (f : Flight → Flight) (h : k < 9) :
    (s.setFlight k f).flight k = f (s.flight k) :=
  vget_vmod_same s.flights _ _ _ h

@[simp] theorem setFlight_flight_ne (s : State) (k j : Nat) (f : Flight → Flight) (h : k ≠ j) :
    (s.setFlight k f).flight j = s.flight j :=
  vget_vmod_ne s.flights _ _ _ _ h

@[simp] theorem setHall_hall_same (s : State) (k : Nat) (f : HallS → HallS) (h : k < 3) :
    (s.setHall k f).hall k = f (s.hall k) :=
  vget_vmod_same s.halls _ _ _ h

@[simp] theorem setHall_hall_ne (s : State) (k j : Nat) (f : HallS → HallS) (h : k ≠ j) :
    (s.setHall k f).hall j = s.hall j :=
  vget_vmod_ne s.halls _ _ _ _ h

@[simp] theorem setTc_tc_same (s : State) (n : Nat) (f : Compare → Compare) (h : n < 16) :
    (s.setTc n f).tc n = f (s.tc n) :=
  vget_vmod_same s.tb.tc _ _ _ h

@[simp] theorem setTc_tc_ne (s : State) (n m : Nat) (f : Compare → Compare) (h : n ≠ m) :
    (s.setTc n f).tc m = s.tc m :=
  vget_vmod_ne s.tb.tc _ _ _ _ h

@[simp] theorem setQueue_queue_same (s : State) (n : Nat) (f : Queue → Queue) (h : n < 64) :
    (s.setQueue n f).queue n = f (s.queue n) :=
  vget_vmod_same s.host.q _ _ _ h

@[simp] theorem setQueue_queue_ne (s : State) (n m : Nat) (f : Queue → Queue) (h : n ≠ m) :
    (s.setQueue n f).queue m = s.queue m :=
  vget_vmod_ne s.host.q _ _ _ _ h

/-! One law per update of a part. -/

@[simp] theorem setReg_cfg (s : State) (a : Nat) (v : Word) : (s.setReg a v).cfg = tset s.cfg a v := rfl
@[simp] theorem setPend_pend (s : State) (a : Nat) (v : Word) : (s.setPend a v).pend = tset s.pend a v := rfl
@[simp] theorem setAon_aon (f : Aon → Aon) (s : State) : (setAon f s).aon = f s.aon := rfl
@[simp] theorem setMeas_meas (f : Meas → Meas) (s : State) : (setMeas f s).meas = f s.meas := rfl
@[simp] theorem setTwin_twin (f : Twin → Twin) (s : State) : (setTwin f s).twin = f s.twin := rfl
@[simp] theorem setStair_stair (f : Stair → Stair) (s : State) : (setStair f s).stair = f s.stair := rfl
@[simp] theorem setNvm_nvm (f : Nvm → Nvm) (s : State) : (setNvm f s).nvm = f s.nvm := rfl
@[simp] theorem setCap_atr (f : Capture → Capture) (s : State) :
    (setCap f s).atr = { s.atr with cap := f s.atr.cap } := rfl
@[simp] theorem setStream_streams (n : Nat) (f : Stream → Stream) (s : State) :
    (setStream n f s).streams = vmod s.streams n f := rfl
@[simp] theorem setWin_safe (o : Nat) (f : TestWindow → TestWindow) (s : State) :
    (setWin o f s).safe = { s.safe with win := vmod s.safe.win o f } := rfl
@[simp] theorem emit_out (o : Out) (s : State) : (emit o s).out = o :: s.out := rfl
@[simp] theorem reply_reply (x : Status) (w : List Word) (s : State) :
    (reply x w s).reply = some { status := x, words := w } := rfl
@[simp] theorem refuse_reply (x : Status) (s : State) : (refuse x s).reply = some { status := x } := rfl

/-! Host commands. -/

theorem command_run (f : State → State) (s : State) (h : s.isOn .atrium = true) : command true f s = f s := by
  simp [command, h]

theorem command_length (f : State → State) (s : State) : command false f s = refuse .badLength s := by
  simp [command]

theorem command_off (f : State → State) (s : State) (h : s.isOn .atrium = false) :
    command true f s = refuse .domainOff s := by
  simp [command, h]

end Sys2Proof.Machine
end

