-- ==== Sys2Proof/Laws/Combinators.lean ====
section
/-! SUPPORT. What the combinators of the meanings leave alone: a loop, a command and a fold leave a field alone where
their bodies do. -/

namespace Sys2Proof.Machine

open Sys2Proof

set_option linter.all false

theorem each_keep {α β σ : Type} (p : σ → β) (l : List α) (f : α → σ → σ) (s : σ)
    (h : ∀ x s, p (f x s) = p s) : p (each l f s) = p s := by
  unfold each; induction l generalizing s with
  | nil => rfl
  | cons x r ih => simp only [List.foldl_cons]; rw [ih, h]

theorem command_keep {β : Type} (p : State → β) (b : Bool) (f : State → State) (s : State)
    (hr : ∀ x, p (refuse x s) = p s) (h : ∀ s, p (f s) = p s) : p (command b f s) = p s := by
  unfold command; split
  · exact hr _
  · split
    · exact hr _
    · exact h s

theorem unless_keep {β : Type} (p : State → β) (f : State → State) (s : State) (h : ∀ s, p (f s) = p s) :
    p (unlessStandby f s) = p s := by unfold unlessStandby; split; · rfl
                                      · exact h s

@[simp] theorem each_pending {α : Type} (l : List α) (f : α → State → State) (s : State)
    (h : ∀ x s, (f x s).pending = s.pending) : (each l f s).pending = s.pending := by
  unfold each; induction l generalizing s with
  | nil => rfl
  | cons x r ih => simp only [List.foldl_cons]; rw [ih, h]

@[simp] theorem foldl_pending {α : Type} (l : List α) (f : State → α → State) (s : State)
    (h : ∀ s x, (f s x).pending = s.pending) : (l.foldl f s).pending = s.pending := by
  induction l generalizing s with
  | nil => rfl
  | cons x r ih => simp only [List.foldl_cons]; rw [ih, h]

@[simp] theorem foldl_snd_pending {α β : Type} (l : List α) (f : β × State → α → β × State) (s : β × State)
    (h : ∀ s x, (f s x).2.pending = s.2.pending) : (l.foldl f s).2.pending = s.2.pending := by
  induction l generalizing s with
  | nil => rfl
  | cons x r ih => simp only [List.foldl_cons]; rw [ih, h]

@[simp] theorem each_reply {α : Type} (l : List α) (f : α → State → State) (s : State)
    (h : ∀ x s, (f x s).reply = s.reply) : (each l f s).reply = s.reply := by
  unfold each; induction l generalizing s with
  | nil => rfl
  | cons x r ih => simp only [List.foldl_cons]; rw [ih, h]

@[simp] theorem foldl_reply {α : Type} (l : List α) (f : State → α → State) (s : State)
    (h : ∀ s x, (f s x).reply = s.reply) : (l.foldl f s).reply = s.reply := by
  induction l generalizing s with
  | nil => rfl
  | cons x r ih => simp only [List.foldl_cons]; rw [ih, h]

@[simp] theorem foldl_snd_reply {α β : Type} (l : List α) (f : β × State → α → β × State) (s : β × State)
    (h : ∀ s x, (f s x).2.reply = s.2.reply) : (l.foldl f s).2.reply = s.2.reply := by
  induction l generalizing s with
  | nil => rfl
  | cons x r ih => simp only [List.foldl_cons]; rw [ih, h]

@[simp] theorem each_out {α : Type} (l : List α) (f : α → State → State) (s : State)
    (h : ∀ x s, (f x s).out = s.out) : (each l f s).out = s.out := by
  unfold each; induction l generalizing s with
  | nil => rfl
  | cons x r ih => simp only [List.foldl_cons]; rw [ih, h]

@[simp] theorem foldl_out {α : Type} (l : List α) (f : State → α → State) (s : State)
    (h : ∀ s x, (f s x).out = s.out) : (l.foldl f s).out = s.out := by
  induction l generalizing s with
  | nil => rfl
  | cons x r ih => simp only [List.foldl_cons]; rw [ih, h]

@[simp] theorem foldl_snd_out {α β : Type} (l : List α) (f : β × State → α → β × State) (s : β × State)
    (h : ∀ s x, (f s x).2.out = s.2.out) : (l.foldl f s).2.out = s.2.out := by
  induction l generalizing s with
  | nil => rfl
  | cons x r ih => simp only [List.foldl_cons]; rw [ih, h]

@[simp] theorem each_freeCtr {α : Type} (l : List α) (f : α → State → State) (s : State)
    (h : ∀ x s, (f x s).freeCtr = s.freeCtr) : (each l f s).freeCtr = s.freeCtr := by
  unfold each; induction l generalizing s with
  | nil => rfl
  | cons x r ih => simp only [List.foldl_cons]; rw [ih, h]

@[simp] theorem foldl_freeCtr {α : Type} (l : List α) (f : State → α → State) (s : State)
    (h : ∀ s x, (f s x).freeCtr = s.freeCtr) : (l.foldl f s).freeCtr = s.freeCtr := by
  induction l generalizing s with
  | nil => rfl
  | cons x r ih => simp only [List.foldl_cons]; rw [ih, h]

@[simp] theorem foldl_snd_freeCtr {α β : Type} (l : List α) (f : β × State → α → β × State) (s : β × State)
    (h : ∀ s x, (f s x).2.freeCtr = s.2.freeCtr) : (l.foldl f s).2.freeCtr = s.2.freeCtr := by
  induction l generalizing s with
  | nil => rfl
  | cons x r ih => simp only [List.foldl_cons]; rw [ih, h]

@[simp] theorem each_aon {α : Type} (l : List α) (f : α → State → State) (s : State)
    (h : ∀ x s, (f x s).aon = s.aon) : (each l f s).aon = s.aon := by
  unfold each; induction l generalizing s with
  | nil => rfl
  | cons x r ih => simp only [List.foldl_cons]; rw [ih, h]

@[simp] theorem foldl_aon {α : Type} (l : List α) (f : State → α → State) (s : State)
    (h : ∀ s x, (f s x).aon = s.aon) : (l.foldl f s).aon = s.aon := by
  induction l generalizing s with
  | nil => rfl
  | cons x r ih => simp only [List.foldl_cons]; rw [ih, h]

@[simp] theorem foldl_snd_aon {α β : Type} (l : List α) (f : β × State → α → β × State) (s : β × State)
    (h : ∀ s x, (f s x).2.aon = s.2.aon) : (l.foldl f s).2.aon = s.2.aon := by
  induction l generalizing s with
  | nil => rfl
  | cons x r ih => simp only [List.foldl_cons]; rw [ih, h]

@[simp] theorem each_cfg {α : Type} (l : List α) (f : α → State → State) (s : State)
    (h : ∀ x s, (f x s).cfg = s.cfg) : (each l f s).cfg = s.cfg := by
  unfold each; induction l generalizing s with
  | nil => rfl
  | cons x r ih => simp only [List.foldl_cons]; rw [ih, h]

@[simp] theorem foldl_cfg {α : Type} (l : List α) (f : State → α → State) (s : State)
    (h : ∀ s x, (f s x).cfg = s.cfg) : (l.foldl f s).cfg = s.cfg := by
  induction l generalizing s with
  | nil => rfl
  | cons x r ih => simp only [List.foldl_cons]; rw [ih, h]

@[simp] theorem foldl_snd_cfg {α β : Type} (l : List α) (f : β × State → α → β × State) (s : β × State)
    (h : ∀ s x, (f s x).2.cfg = s.2.cfg) : (l.foldl f s).2.cfg = s.2.cfg := by
  induction l generalizing s with
  | nil => rfl
  | cons x r ih => simp only [List.foldl_cons]; rw [ih, h]

@[simp] theorem each_pend {α : Type} (l : List α) (f : α → State → State) (s : State)
    (h : ∀ x s, (f x s).pend = s.pend) : (each l f s).pend = s.pend := by
  unfold each; induction l generalizing s with
  | nil => rfl
  | cons x r ih => simp only [List.foldl_cons]; rw [ih, h]

@[simp] theorem foldl_pend {α : Type} (l : List α) (f : State → α → State) (s : State)
    (h : ∀ s x, (f s x).pend = s.pend) : (l.foldl f s).pend = s.pend := by
  induction l generalizing s with
  | nil => rfl
  | cons x r ih => simp only [List.foldl_cons]; rw [ih, h]

@[simp] theorem foldl_snd_pend {α β : Type} (l : List α) (f : β × State → α → β × State) (s : β × State)
    (h : ∀ s x, (f s x).2.pend = s.2.pend) : (l.foldl f s).2.pend = s.2.pend := by
  induction l generalizing s with
  | nil => rfl
  | cons x r ih => simp only [List.foldl_cons]; rw [ih, h]

@[simp] theorem each_tb {α : Type} (l : List α) (f : α → State → State) (s : State)
    (h : ∀ x s, (f x s).tb = s.tb) : (each l f s).tb = s.tb := by
  unfold each; induction l generalizing s with
  | nil => rfl
  | cons x r ih => simp only [List.foldl_cons]; rw [ih, h]

@[simp] theorem foldl_tb {α : Type} (l : List α) (f : State → α → State) (s : State)
    (h : ∀ s x, (f s x).tb = s.tb) : (l.foldl f s).tb = s.tb := by
  induction l generalizing s with
  | nil => rfl
  | cons x r ih => simp only [List.foldl_cons]; rw [ih, h]

@[simp] theorem foldl_snd_tb {α β : Type} (l : List α) (f : β × State → α → β × State) (s : β × State)
    (h : ∀ s x, (f s x).2.tb = s.2.tb) : (l.foldl f s).2.tb = s.2.tb := by
  induction l generalizing s with
  | nil => rfl
  | cons x r ih => simp only [List.foldl_cons]; rw [ih, h]

@[simp] theorem each_events {α : Type} (l : List α) (f : α → State → State) (s : State)
    (h : ∀ x s, (f x s).events = s.events) : (each l f s).events = s.events := by
  unfold each; induction l generalizing s with
  | nil => rfl
  | cons x r ih => simp only [List.foldl_cons]; rw [ih, h]

@[simp] theorem foldl_events {α : Type} (l : List α) (f : State → α → State) (s : State)
    (h : ∀ s x, (f s x).events = s.events) : (l.foldl f s).events = s.events := by
  induction l generalizing s with
  | nil => rfl
  | cons x r ih => simp only [List.foldl_cons]; rw [ih, h]

@[simp] theorem foldl_snd_events {α β : Type} (l : List α) (f : β × State → α → β × State) (s : β × State)
    (h : ∀ s x, (f s x).2.events = s.2.events) : (l.foldl f s).2.events = s.2.events := by
  induction l generalizing s with
  | nil => rfl
  | cons x r ih => simp only [List.foldl_cons]; rw [ih, h]

@[simp] theorem each_host {α : Type} (l : List α) (f : α → State → State) (s : State)
    (h : ∀ x s, (f x s).host = s.host) : (each l f s).host = s.host := by
  unfold each; induction l generalizing s with
  | nil => rfl
  | cons x r ih => simp only [List.foldl_cons]; rw [ih, h]

@[simp] theorem foldl_host {α : Type} (l : List α) (f : State → α → State) (s : State)
    (h : ∀ s x, (f s x).host = s.host) : (l.foldl f s).host = s.host := by
  induction l generalizing s with
  | nil => rfl
  | cons x r ih => simp only [List.foldl_cons]; rw [ih, h]

@[simp] theorem foldl_snd_host {α β : Type} (l : List α) (f : β × State → α → β × State) (s : β × State)
    (h : ∀ s x, (f s x).2.host = s.2.host) : (l.foldl f s).2.host = s.2.host := by
  induction l generalizing s with
  | nil => rfl
  | cons x r ih => simp only [List.foldl_cons]; rw [ih, h]

@[simp] theorem each_treads {α : Type} (l : List α) (f : α → State → State) (s : State)
    (h : ∀ x s, (f x s).treads = s.treads) : (each l f s).treads = s.treads := by
  unfold each; induction l generalizing s with
  | nil => rfl
  | cons x r ih => simp only [List.foldl_cons]; rw [ih, h]

@[simp] theorem foldl_treads {α : Type} (l : List α) (f : State → α → State) (s : State)
    (h : ∀ s x, (f s x).treads = s.treads) : (l.foldl f s).treads = s.treads := by
  induction l generalizing s with
  | nil => rfl
  | cons x r ih => simp only [List.foldl_cons]; rw [ih, h]

@[simp] theorem foldl_snd_treads {α β : Type} (l : List α) (f : β × State → α → β × State) (s : β × State)
    (h : ∀ s x, (f s x).2.treads = s.2.treads) : (l.foldl f s).2.treads = s.2.treads := by
  induction l generalizing s with
  | nil => rfl
  | cons x r ih => simp only [List.foldl_cons]; rw [ih, h]

@[simp] theorem each_cells {α : Type} (l : List α) (f : α → State → State) (s : State)
    (h : ∀ x s, (f x s).cells = s.cells) : (each l f s).cells = s.cells := by
  unfold each; induction l generalizing s with
  | nil => rfl
  | cons x r ih => simp only [List.foldl_cons]; rw [ih, h]

@[simp] theorem foldl_cells {α : Type} (l : List α) (f : State → α → State) (s : State)
    (h : ∀ s x, (f s x).cells = s.cells) : (l.foldl f s).cells = s.cells := by
  induction l generalizing s with
  | nil => rfl
  | cons x r ih => simp only [List.foldl_cons]; rw [ih, h]

@[simp] theorem foldl_snd_cells {α β : Type} (l : List α) (f : β × State → α → β × State) (s : β × State)
    (h : ∀ s x, (f s x).2.cells = s.2.cells) : (l.foldl f s).2.cells = s.2.cells := by
  induction l generalizing s with
  | nil => rfl
  | cons x r ih => simp only [List.foldl_cons]; rw [ih, h]

@[simp] theorem each_flights {α : Type} (l : List α) (f : α → State → State) (s : State)
    (h : ∀ x s, (f x s).flights = s.flights) : (each l f s).flights = s.flights := by
  unfold each; induction l generalizing s with
  | nil => rfl
  | cons x r ih => simp only [List.foldl_cons]; rw [ih, h]

@[simp] theorem foldl_flights {α : Type} (l : List α) (f : State → α → State) (s : State)
    (h : ∀ s x, (f s x).flights = s.flights) : (l.foldl f s).flights = s.flights := by
  induction l generalizing s with
  | nil => rfl
  | cons x r ih => simp only [List.foldl_cons]; rw [ih, h]

@[simp] theorem foldl_snd_flights {α β : Type} (l : List α) (f : β × State → α → β × State) (s : β × State)
    (h : ∀ s x, (f s x).2.flights = s.2.flights) : (l.foldl f s).2.flights = s.2.flights := by
  induction l generalizing s with
  | nil => rfl
  | cons x r ih => simp only [List.foldl_cons]; rw [ih, h]

@[simp] theorem each_halls {α : Type} (l : List α) (f : α → State → State) (s : State)
    (h : ∀ x s, (f x s).halls = s.halls) : (each l f s).halls = s.halls := by
  unfold each; induction l generalizing s with
  | nil => rfl
  | cons x r ih => simp only [List.foldl_cons]; rw [ih, h]

@[simp] theorem foldl_halls {α : Type} (l : List α) (f : State → α → State) (s : State)
    (h : ∀ s x, (f s x).halls = s.halls) : (l.foldl f s).halls = s.halls := by
  induction l generalizing s with
  | nil => rfl
  | cons x r ih => simp only [List.foldl_cons]; rw [ih, h]

@[simp] theorem foldl_snd_halls {α β : Type} (l : List α) (f : β × State → α → β × State) (s : β × State)
    (h : ∀ s x, (f s x).2.halls = s.2.halls) : (l.foldl f s).2.halls = s.2.halls := by
  induction l generalizing s with
  | nil => rfl
  | cons x r ih => simp only [List.foldl_cons]; rw [ih, h]

@[simp] theorem each_grid {α : Type} (l : List α) (f : α → State → State) (s : State)
    (h : ∀ x s, (f x s).grid = s.grid) : (each l f s).grid = s.grid := by
  unfold each; induction l generalizing s with
  | nil => rfl
  | cons x r ih => simp only [List.foldl_cons]; rw [ih, h]

@[simp] theorem foldl_grid {α : Type} (l : List α) (f : State → α → State) (s : State)
    (h : ∀ s x, (f s x).grid = s.grid) : (l.foldl f s).grid = s.grid := by
  induction l generalizing s with
  | nil => rfl
  | cons x r ih => simp only [List.foldl_cons]; rw [ih, h]

@[simp] theorem foldl_snd_grid {α β : Type} (l : List α) (f : β × State → α → β × State) (s : β × State)
    (h : ∀ s x, (f s x).2.grid = s.2.grid) : (l.foldl f s).2.grid = s.2.grid := by
  induction l generalizing s with
  | nil => rfl
  | cons x r ih => simp only [List.foldl_cons]; rw [ih, h]

@[simp] theorem each_atr {α : Type} (l : List α) (f : α → State → State) (s : State)
    (h : ∀ x s, (f x s).atr = s.atr) : (each l f s).atr = s.atr := by
  unfold each; induction l generalizing s with
  | nil => rfl
  | cons x r ih => simp only [List.foldl_cons]; rw [ih, h]

@[simp] theorem foldl_atr {α : Type} (l : List α) (f : State → α → State) (s : State)
    (h : ∀ s x, (f s x).atr = s.atr) : (l.foldl f s).atr = s.atr := by
  induction l generalizing s with
  | nil => rfl
  | cons x r ih => simp only [List.foldl_cons]; rw [ih, h]

@[simp] theorem foldl_snd_atr {α β : Type} (l : List α) (f : β × State → α → β × State) (s : β × State)
    (h : ∀ s x, (f s x).2.atr = s.2.atr) : (l.foldl f s).2.atr = s.2.atr := by
  induction l generalizing s with
  | nil => rfl
  | cons x r ih => simp only [List.foldl_cons]; rw [ih, h]

@[simp] theorem each_treadsOld {α : Type} (l : List α) (f : α → State → State) (s : State)
    (h : ∀ x s, (f x s).treadsOld = s.treadsOld) : (each l f s).treadsOld = s.treadsOld := by
  unfold each; induction l generalizing s with
  | nil => rfl
  | cons x r ih => simp only [List.foldl_cons]; rw [ih, h]

@[simp] theorem foldl_treadsOld {α : Type} (l : List α) (f : State → α → State) (s : State)
    (h : ∀ s x, (f s x).treadsOld = s.treadsOld) : (l.foldl f s).treadsOld = s.treadsOld := by
  induction l generalizing s with
  | nil => rfl
  | cons x r ih => simp only [List.foldl_cons]; rw [ih, h]

@[simp] theorem foldl_snd_treadsOld {α β : Type} (l : List α) (f : β × State → α → β × State) (s : β × State)
    (h : ∀ s x, (f s x).2.treadsOld = s.2.treadsOld) : (l.foldl f s).2.treadsOld = s.2.treadsOld := by
  induction l generalizing s with
  | nil => rfl
  | cons x r ih => simp only [List.foldl_cons]; rw [ih, h]

@[simp] theorem each_meas {α : Type} (l : List α) (f : α → State → State) (s : State)
    (h : ∀ x s, (f x s).meas = s.meas) : (each l f s).meas = s.meas := by
  unfold each; induction l generalizing s with
  | nil => rfl
  | cons x r ih => simp only [List.foldl_cons]; rw [ih, h]

@[simp] theorem foldl_meas {α : Type} (l : List α) (f : State → α → State) (s : State)
    (h : ∀ s x, (f s x).meas = s.meas) : (l.foldl f s).meas = s.meas := by
  induction l generalizing s with
  | nil => rfl
  | cons x r ih => simp only [List.foldl_cons]; rw [ih, h]

@[simp] theorem foldl_snd_meas {α β : Type} (l : List α) (f : β × State → α → β × State) (s : β × State)
    (h : ∀ s x, (f s x).2.meas = s.2.meas) : (l.foldl f s).2.meas = s.2.meas := by
  induction l generalizing s with
  | nil => rfl
  | cons x r ih => simp only [List.foldl_cons]; rw [ih, h]

@[simp] theorem each_safe {α : Type} (l : List α) (f : α → State → State) (s : State)
    (h : ∀ x s, (f x s).safe = s.safe) : (each l f s).safe = s.safe := by
  unfold each; induction l generalizing s with
  | nil => rfl
  | cons x r ih => simp only [List.foldl_cons]; rw [ih, h]

@[simp] theorem foldl_safe {α : Type} (l : List α) (f : State → α → State) (s : State)
    (h : ∀ s x, (f s x).safe = s.safe) : (l.foldl f s).safe = s.safe := by
  induction l generalizing s with
  | nil => rfl
  | cons x r ih => simp only [List.foldl_cons]; rw [ih, h]

@[simp] theorem foldl_snd_safe {α β : Type} (l : List α) (f : β × State → α → β × State) (s : β × State)
    (h : ∀ s x, (f s x).2.safe = s.2.safe) : (l.foldl f s).2.safe = s.2.safe := by
  induction l generalizing s with
  | nil => rfl
  | cons x r ih => simp only [List.foldl_cons]; rw [ih, h]

@[simp] theorem each_therm {α : Type} (l : List α) (f : α → State → State) (s : State)
    (h : ∀ x s, (f x s).therm = s.therm) : (each l f s).therm = s.therm := by
  unfold each; induction l generalizing s with
  | nil => rfl
  | cons x r ih => simp only [List.foldl_cons]; rw [ih, h]

@[simp] theorem foldl_therm {α : Type} (l : List α) (f : State → α → State) (s : State)
    (h : ∀ s x, (f s x).therm = s.therm) : (l.foldl f s).therm = s.therm := by
  induction l generalizing s with
  | nil => rfl
  | cons x r ih => simp only [List.foldl_cons]; rw [ih, h]

@[simp] theorem foldl_snd_therm {α β : Type} (l : List α) (f : β × State → α → β × State) (s : β × State)
    (h : ∀ s x, (f s x).2.therm = s.2.therm) : (l.foldl f s).2.therm = s.2.therm := by
  induction l generalizing s with
  | nil => rfl
  | cons x r ih => simp only [List.foldl_cons]; rw [ih, h]

@[simp] theorem each_twin {α : Type} (l : List α) (f : α → State → State) (s : State)
    (h : ∀ x s, (f x s).twin = s.twin) : (each l f s).twin = s.twin := by
  unfold each; induction l generalizing s with
  | nil => rfl
  | cons x r ih => simp only [List.foldl_cons]; rw [ih, h]

@[simp] theorem foldl_twin {α : Type} (l : List α) (f : State → α → State) (s : State)
    (h : ∀ s x, (f s x).twin = s.twin) : (l.foldl f s).twin = s.twin := by
  induction l generalizing s with
  | nil => rfl
  | cons x r ih => simp only [List.foldl_cons]; rw [ih, h]

@[simp] theorem foldl_snd_twin {α β : Type} (l : List α) (f : β × State → α → β × State) (s : β × State)
    (h : ∀ s x, (f s x).2.twin = s.2.twin) : (l.foldl f s).2.twin = s.2.twin := by
  induction l generalizing s with
  | nil => rfl
  | cons x r ih => simp only [List.foldl_cons]; rw [ih, h]

@[simp] theorem each_stair {α : Type} (l : List α) (f : α → State → State) (s : State)
    (h : ∀ x s, (f x s).stair = s.stair) : (each l f s).stair = s.stair := by
  unfold each; induction l generalizing s with
  | nil => rfl
  | cons x r ih => simp only [List.foldl_cons]; rw [ih, h]

@[simp] theorem foldl_stair {α : Type} (l : List α) (f : State → α → State) (s : State)
    (h : ∀ s x, (f s x).stair = s.stair) : (l.foldl f s).stair = s.stair := by
  induction l generalizing s with
  | nil => rfl
  | cons x r ih => simp only [List.foldl_cons]; rw [ih, h]

@[simp] theorem foldl_snd_stair {α β : Type} (l : List α) (f : β × State → α → β × State) (s : β × State)
    (h : ∀ s x, (f s x).2.stair = s.2.stair) : (l.foldl f s).2.stair = s.2.stair := by
  induction l generalizing s with
  | nil => rfl
  | cons x r ih => simp only [List.foldl_cons]; rw [ih, h]

@[simp] theorem each_nvm {α : Type} (l : List α) (f : α → State → State) (s : State)
    (h : ∀ x s, (f x s).nvm = s.nvm) : (each l f s).nvm = s.nvm := by
  unfold each; induction l generalizing s with
  | nil => rfl
  | cons x r ih => simp only [List.foldl_cons]; rw [ih, h]

@[simp] theorem foldl_nvm {α : Type} (l : List α) (f : State → α → State) (s : State)
    (h : ∀ s x, (f s x).nvm = s.nvm) : (l.foldl f s).nvm = s.nvm := by
  induction l generalizing s with
  | nil => rfl
  | cons x r ih => simp only [List.foldl_cons]; rw [ih, h]

@[simp] theorem foldl_snd_nvm {α β : Type} (l : List α) (f : β × State → α → β × State) (s : β × State)
    (h : ∀ s x, (f s x).2.nvm = s.2.nvm) : (l.foldl f s).2.nvm = s.2.nvm := by
  induction l generalizing s with
  | nil => rfl
  | cons x r ih => simp only [List.foldl_cons]; rw [ih, h]

@[simp] theorem each_streams {α : Type} (l : List α) (f : α → State → State) (s : State)
    (h : ∀ x s, (f x s).streams = s.streams) : (each l f s).streams = s.streams := by
  unfold each; induction l generalizing s with
  | nil => rfl
  | cons x r ih => simp only [List.foldl_cons]; rw [ih, h]

@[simp] theorem foldl_streams {α : Type} (l : List α) (f : State → α → State) (s : State)
    (h : ∀ s x, (f s x).streams = s.streams) : (l.foldl f s).streams = s.streams := by
  induction l generalizing s with
  | nil => rfl
  | cons x r ih => simp only [List.foldl_cons]; rw [ih, h]

@[simp] theorem foldl_snd_streams {α β : Type} (l : List α) (f : β × State → α → β × State) (s : β × State)
    (h : ∀ s x, (f s x).2.streams = s.2.streams) : (l.foldl f s).2.streams = s.2.streams := by
  induction l generalizing s with
  | nil => rfl
  | cons x r ih => simp only [List.foldl_cons]; rw [ih, h]

@[simp] theorem each_mem {α : Type} (l : List α) (f : α → State → State) (s : State)
    (h : ∀ x s, (f x s).mem = s.mem) : (each l f s).mem = s.mem := by
  unfold each; induction l generalizing s with
  | nil => rfl
  | cons x r ih => simp only [List.foldl_cons]; rw [ih, h]

@[simp] theorem foldl_mem {α : Type} (l : List α) (f : State → α → State) (s : State)
    (h : ∀ s x, (f s x).mem = s.mem) : (l.foldl f s).mem = s.mem := by
  induction l generalizing s with
  | nil => rfl
  | cons x r ih => simp only [List.foldl_cons]; rw [ih, h]

@[simp] theorem foldl_snd_mem {α β : Type} (l : List α) (f : β × State → α → β × State) (s : β × State)
    (h : ∀ s x, (f s x).2.mem = s.2.mem) : (l.foldl f s).2.mem = s.2.mem := by
  induction l generalizing s with
  | nil => rfl
  | cons x r ih => simp only [List.foldl_cons]; rw [ih, h]

@[simp] theorem command_pending (b : Bool) (f : State → State) (s : State)
    (h : ∀ s, (f s).pending = s.pending) : (command b f s).pending = s.pending := by
  unfold command; split
  · simp [refuse, Sys2Proof.Machine.reply]
  · split
    · simp [refuse, Sys2Proof.Machine.reply]
    · exact h s

@[simp] theorem analogCommand_pending (b : Bool) (f : State → State) (s : State)
    (h : ∀ s, (f s).pending = s.pending) : (analogCommand b f s).pending = s.pending := by
  refine command_pending _ _ _ fun s => ?_
  split
  · exact h s
  · rfl

@[simp] theorem cellCommand_pending (q : Fin 64) (b : Bool) (f : Nat → State → State) (s : State)
    (h : ∀ k s, (f k s).pending = s.pending) : (cellCommand q b f s).pending = s.pending := by
  refine command_pending _ _ _ fun s => ?_
  dsimp only
  split
  · rfl
  · split
    · rfl
    · exact h _ s

@[simp] theorem slotCommand_pending (q : Fin 64) (b : Bool) (f : Nat → State → State) (i : Nat) (s : State)
    (h : ∀ i s, (f i s).pending = s.pending) : (slotCommand q b f i s).pending = s.pending := by
  refine command_pending _ _ _ fun s => ?_
  split
  · rfl
  · split
    · rfl
    · exact h _ s

@[simp] theorem unlessStandby_pending (f : State → State) (s : State) (h : ∀ s, (f s).pending = s.pending) :
    (unlessStandby f s).pending = s.pending := by
  unfold unlessStandby; split
  · rfl
  · exact h s

@[simp] theorem unlessStandby_reply (f : State → State) (s : State) (h : ∀ s, (f s).reply = s.reply) :
    (unlessStandby f s).reply = s.reply := by
  unfold unlessStandby; split
  · rfl
  · exact h s

@[simp] theorem command_out (b : Bool) (f : State → State) (s : State)
    (h : ∀ s, (f s).out = s.out) : (command b f s).out = s.out := by
  unfold command; split
  · simp [refuse, Sys2Proof.Machine.reply]
  · split
    · simp [refuse, Sys2Proof.Machine.reply]
    · exact h s

@[simp] theorem analogCommand_out (b : Bool) (f : State → State) (s : State)
    (h : ∀ s, (f s).out = s.out) : (analogCommand b f s).out = s.out := by
  refine command_out _ _ _ fun s => ?_
  split
  · exact h s
  · rfl

@[simp] theorem cellCommand_out (q : Fin 64) (b : Bool) (f : Nat → State → State) (s : State)
    (h : ∀ k s, (f k s).out = s.out) : (cellCommand q b f s).out = s.out := by
  refine command_out _ _ _ fun s => ?_
  dsimp only
  split
  · rfl
  · split
    · rfl
    · exact h _ s

@[simp] theorem slotCommand_out (q : Fin 64) (b : Bool) (f : Nat → State → State) (i : Nat) (s : State)
    (h : ∀ i s, (f i s).out = s.out) : (slotCommand q b f i s).out = s.out := by
  refine command_out _ _ _ fun s => ?_
  split
  · rfl
  · split
    · rfl
    · exact h _ s

@[simp] theorem unlessStandby_out (f : State → State) (s : State) (h : ∀ s, (f s).out = s.out) :
    (unlessStandby f s).out = s.out := by
  unfold unlessStandby; split
  · rfl
  · exact h s

@[simp] theorem command_freeCtr (b : Bool) (f : State → State) (s : State)
    (h : ∀ s, (f s).freeCtr = s.freeCtr) : (command b f s).freeCtr = s.freeCtr := by
  unfold command; split
  · simp [refuse, Sys2Proof.Machine.reply]
  · split
    · simp [refuse, Sys2Proof.Machine.reply]
    · exact h s

@[simp] theorem analogCommand_freeCtr (b : Bool) (f : State → State) (s : State)
    (h : ∀ s, (f s).freeCtr = s.freeCtr) : (analogCommand b f s).freeCtr = s.freeCtr := by
  refine command_freeCtr _ _ _ fun s => ?_
  split
  · exact h s
  · rfl

@[simp] theorem cellCommand_freeCtr (q : Fin 64) (b : Bool) (f : Nat → State → State) (s : State)
    (h : ∀ k s, (f k s).freeCtr = s.freeCtr) : (cellCommand q b f s).freeCtr = s.freeCtr := by
  refine command_freeCtr _ _ _ fun s => ?_
  dsimp only
  split
  · rfl
  · split
    · rfl
    · exact h _ s

@[simp] theorem slotCommand_freeCtr (q : Fin 64) (b : Bool) (f : Nat → State → State) (i : Nat) (s : State)
    (h : ∀ i s, (f i s).freeCtr = s.freeCtr) : (slotCommand q b f i s).freeCtr = s.freeCtr := by
  refine command_freeCtr _ _ _ fun s => ?_
  split
  · rfl
  · split
    · rfl
    · exact h _ s

@[simp] theorem unlessStandby_freeCtr (f : State → State) (s : State) (h : ∀ s, (f s).freeCtr = s.freeCtr) :
    (unlessStandby f s).freeCtr = s.freeCtr := by
  unfold unlessStandby; split
  · rfl
  · exact h s

@[simp] theorem command_aon (b : Bool) (f : State → State) (s : State)
    (h : ∀ s, (f s).aon = s.aon) : (command b f s).aon = s.aon := by
  unfold command; split
  · simp [refuse, Sys2Proof.Machine.reply]
  · split
    · simp [refuse, Sys2Proof.Machine.reply]
    · exact h s

@[simp] theorem analogCommand_aon (b : Bool) (f : State → State) (s : State)
    (h : ∀ s, (f s).aon = s.aon) : (analogCommand b f s).aon = s.aon := by
  refine command_aon _ _ _ fun s => ?_
  split
  · exact h s
  · rfl

@[simp] theorem cellCommand_aon (q : Fin 64) (b : Bool) (f : Nat → State → State) (s : State)
    (h : ∀ k s, (f k s).aon = s.aon) : (cellCommand q b f s).aon = s.aon := by
  refine command_aon _ _ _ fun s => ?_
  dsimp only
  split
  · rfl
  · split
    · rfl
    · exact h _ s

@[simp] theorem slotCommand_aon (q : Fin 64) (b : Bool) (f : Nat → State → State) (i : Nat) (s : State)
    (h : ∀ i s, (f i s).aon = s.aon) : (slotCommand q b f i s).aon = s.aon := by
  refine command_aon _ _ _ fun s => ?_
  split
  · rfl
  · split
    · rfl
    · exact h _ s

@[simp] theorem unlessStandby_aon (f : State → State) (s : State) (h : ∀ s, (f s).aon = s.aon) :
    (unlessStandby f s).aon = s.aon := by
  unfold unlessStandby; split
  · rfl
  · exact h s

@[simp] theorem command_cfg (b : Bool) (f : State → State) (s : State)
    (h : ∀ s, (f s).cfg = s.cfg) : (command b f s).cfg = s.cfg := by
  unfold command; split
  · simp [refuse, Sys2Proof.Machine.reply]
  · split
    · simp [refuse, Sys2Proof.Machine.reply]
    · exact h s

@[simp] theorem analogCommand_cfg (b : Bool) (f : State → State) (s : State)
    (h : ∀ s, (f s).cfg = s.cfg) : (analogCommand b f s).cfg = s.cfg := by
  refine command_cfg _ _ _ fun s => ?_
  split
  · exact h s
  · rfl

@[simp] theorem cellCommand_cfg (q : Fin 64) (b : Bool) (f : Nat → State → State) (s : State)
    (h : ∀ k s, (f k s).cfg = s.cfg) : (cellCommand q b f s).cfg = s.cfg := by
  refine command_cfg _ _ _ fun s => ?_
  dsimp only
  split
  · rfl
  · split
    · rfl
    · exact h _ s

@[simp] theorem slotCommand_cfg (q : Fin 64) (b : Bool) (f : Nat → State → State) (i : Nat) (s : State)
    (h : ∀ i s, (f i s).cfg = s.cfg) : (slotCommand q b f i s).cfg = s.cfg := by
  refine command_cfg _ _ _ fun s => ?_
  split
  · rfl
  · split
    · rfl
    · exact h _ s

@[simp] theorem unlessStandby_cfg (f : State → State) (s : State) (h : ∀ s, (f s).cfg = s.cfg) :
    (unlessStandby f s).cfg = s.cfg := by
  unfold unlessStandby; split
  · rfl
  · exact h s

@[simp] theorem command_pend (b : Bool) (f : State → State) (s : State)
    (h : ∀ s, (f s).pend = s.pend) : (command b f s).pend = s.pend := by
  unfold command; split
  · simp [refuse, Sys2Proof.Machine.reply]
  · split
    · simp [refuse, Sys2Proof.Machine.reply]
    · exact h s

@[simp] theorem analogCommand_pend (b : Bool) (f : State → State) (s : State)
    (h : ∀ s, (f s).pend = s.pend) : (analogCommand b f s).pend = s.pend := by
  refine command_pend _ _ _ fun s => ?_
  split
  · exact h s
  · rfl

@[simp] theorem cellCommand_pend (q : Fin 64) (b : Bool) (f : Nat → State → State) (s : State)
    (h : ∀ k s, (f k s).pend = s.pend) : (cellCommand q b f s).pend = s.pend := by
  refine command_pend _ _ _ fun s => ?_
  dsimp only
  split
  · rfl
  · split
    · rfl
    · exact h _ s

@[simp] theorem slotCommand_pend (q : Fin 64) (b : Bool) (f : Nat → State → State) (i : Nat) (s : State)
    (h : ∀ i s, (f i s).pend = s.pend) : (slotCommand q b f i s).pend = s.pend := by
  refine command_pend _ _ _ fun s => ?_
  split
  · rfl
  · split
    · rfl
    · exact h _ s

@[simp] theorem unlessStandby_pend (f : State → State) (s : State) (h : ∀ s, (f s).pend = s.pend) :
    (unlessStandby f s).pend = s.pend := by
  unfold unlessStandby; split
  · rfl
  · exact h s

@[simp] theorem command_tb (b : Bool) (f : State → State) (s : State)
    (h : ∀ s, (f s).tb = s.tb) : (command b f s).tb = s.tb := by
  unfold command; split
  · simp [refuse, Sys2Proof.Machine.reply]
  · split
    · simp [refuse, Sys2Proof.Machine.reply]
    · exact h s

@[simp] theorem analogCommand_tb (b : Bool) (f : State → State) (s : State)
    (h : ∀ s, (f s).tb = s.tb) : (analogCommand b f s).tb = s.tb := by
  refine command_tb _ _ _ fun s => ?_
  split
  · exact h s
  · rfl

@[simp] theorem cellCommand_tb (q : Fin 64) (b : Bool) (f : Nat → State → State) (s : State)
    (h : ∀ k s, (f k s).tb = s.tb) : (cellCommand q b f s).tb = s.tb := by
  refine command_tb _ _ _ fun s => ?_
  dsimp only
  split
  · rfl
  · split
    · rfl
    · exact h _ s

@[simp] theorem slotCommand_tb (q : Fin 64) (b : Bool) (f : Nat → State → State) (i : Nat) (s : State)
    (h : ∀ i s, (f i s).tb = s.tb) : (slotCommand q b f i s).tb = s.tb := by
  refine command_tb _ _ _ fun s => ?_
  split
  · rfl
  · split
    · rfl
    · exact h _ s

@[simp] theorem unlessStandby_tb (f : State → State) (s : State) (h : ∀ s, (f s).tb = s.tb) :
    (unlessStandby f s).tb = s.tb := by
  unfold unlessStandby; split
  · rfl
  · exact h s

@[simp] theorem command_events (b : Bool) (f : State → State) (s : State)
    (h : ∀ s, (f s).events = s.events) : (command b f s).events = s.events := by
  unfold command; split
  · simp [refuse, Sys2Proof.Machine.reply]
  · split
    · simp [refuse, Sys2Proof.Machine.reply]
    · exact h s

@[simp] theorem analogCommand_events (b : Bool) (f : State → State) (s : State)
    (h : ∀ s, (f s).events = s.events) : (analogCommand b f s).events = s.events := by
  refine command_events _ _ _ fun s => ?_
  split
  · exact h s
  · rfl

@[simp] theorem cellCommand_events (q : Fin 64) (b : Bool) (f : Nat → State → State) (s : State)
    (h : ∀ k s, (f k s).events = s.events) : (cellCommand q b f s).events = s.events := by
  refine command_events _ _ _ fun s => ?_
  dsimp only
  split
  · rfl
  · split
    · rfl
    · exact h _ s

@[simp] theorem slotCommand_events (q : Fin 64) (b : Bool) (f : Nat → State → State) (i : Nat) (s : State)
    (h : ∀ i s, (f i s).events = s.events) : (slotCommand q b f i s).events = s.events := by
  refine command_events _ _ _ fun s => ?_
  split
  · rfl
  · split
    · rfl
    · exact h _ s

@[simp] theorem unlessStandby_events (f : State → State) (s : State) (h : ∀ s, (f s).events = s.events) :
    (unlessStandby f s).events = s.events := by
  unfold unlessStandby; split
  · rfl
  · exact h s

@[simp] theorem command_host (b : Bool) (f : State → State) (s : State)
    (h : ∀ s, (f s).host = s.host) : (command b f s).host = s.host := by
  unfold command; split
  · simp [refuse, Sys2Proof.Machine.reply]
  · split
    · simp [refuse, Sys2Proof.Machine.reply]
    · exact h s

@[simp] theorem analogCommand_host (b : Bool) (f : State → State) (s : State)
    (h : ∀ s, (f s).host = s.host) : (analogCommand b f s).host = s.host := by
  refine command_host _ _ _ fun s => ?_
  split
  · exact h s
  · rfl

@[simp] theorem cellCommand_host (q : Fin 64) (b : Bool) (f : Nat → State → State) (s : State)
    (h : ∀ k s, (f k s).host = s.host) : (cellCommand q b f s).host = s.host := by
  refine command_host _ _ _ fun s => ?_
  dsimp only
  split
  · rfl
  · split
    · rfl
    · exact h _ s

@[simp] theorem slotCommand_host (q : Fin 64) (b : Bool) (f : Nat → State → State) (i : Nat) (s : State)
    (h : ∀ i s, (f i s).host = s.host) : (slotCommand q b f i s).host = s.host := by
  refine command_host _ _ _ fun s => ?_
  split
  · rfl
  · split
    · rfl
    · exact h _ s

@[simp] theorem unlessStandby_host (f : State → State) (s : State) (h : ∀ s, (f s).host = s.host) :
    (unlessStandby f s).host = s.host := by
  unfold unlessStandby; split
  · rfl
  · exact h s

@[simp] theorem command_treads (b : Bool) (f : State → State) (s : State)
    (h : ∀ s, (f s).treads = s.treads) : (command b f s).treads = s.treads := by
  unfold command; split
  · simp [refuse, Sys2Proof.Machine.reply]
  · split
    · simp [refuse, Sys2Proof.Machine.reply]
    · exact h s

@[simp] theorem analogCommand_treads (b : Bool) (f : State → State) (s : State)
    (h : ∀ s, (f s).treads = s.treads) : (analogCommand b f s).treads = s.treads := by
  refine command_treads _ _ _ fun s => ?_
  split
  · exact h s
  · rfl

@[simp] theorem cellCommand_treads (q : Fin 64) (b : Bool) (f : Nat → State → State) (s : State)
    (h : ∀ k s, (f k s).treads = s.treads) : (cellCommand q b f s).treads = s.treads := by
  refine command_treads _ _ _ fun s => ?_
  dsimp only
  split
  · rfl
  · split
    · rfl
    · exact h _ s

@[simp] theorem slotCommand_treads (q : Fin 64) (b : Bool) (f : Nat → State → State) (i : Nat) (s : State)
    (h : ∀ i s, (f i s).treads = s.treads) : (slotCommand q b f i s).treads = s.treads := by
  refine command_treads _ _ _ fun s => ?_
  split
  · rfl
  · split
    · rfl
    · exact h _ s

@[simp] theorem unlessStandby_treads (f : State → State) (s : State) (h : ∀ s, (f s).treads = s.treads) :
    (unlessStandby f s).treads = s.treads := by
  unfold unlessStandby; split
  · rfl
  · exact h s

@[simp] theorem command_cells (b : Bool) (f : State → State) (s : State)
    (h : ∀ s, (f s).cells = s.cells) : (command b f s).cells = s.cells := by
  unfold command; split
  · simp [refuse, Sys2Proof.Machine.reply]
  · split
    · simp [refuse, Sys2Proof.Machine.reply]
    · exact h s

@[simp] theorem analogCommand_cells (b : Bool) (f : State → State) (s : State)
    (h : ∀ s, (f s).cells = s.cells) : (analogCommand b f s).cells = s.cells := by
  refine command_cells _ _ _ fun s => ?_
  split
  · exact h s
  · rfl

@[simp] theorem cellCommand_cells (q : Fin 64) (b : Bool) (f : Nat → State → State) (s : State)
    (h : ∀ k s, (f k s).cells = s.cells) : (cellCommand q b f s).cells = s.cells := by
  refine command_cells _ _ _ fun s => ?_
  dsimp only
  split
  · rfl
  · split
    · rfl
    · exact h _ s

@[simp] theorem slotCommand_cells (q : Fin 64) (b : Bool) (f : Nat → State → State) (i : Nat) (s : State)
    (h : ∀ i s, (f i s).cells = s.cells) : (slotCommand q b f i s).cells = s.cells := by
  refine command_cells _ _ _ fun s => ?_
  split
  · rfl
  · split
    · rfl
    · exact h _ s

@[simp] theorem unlessStandby_cells (f : State → State) (s : State) (h : ∀ s, (f s).cells = s.cells) :
    (unlessStandby f s).cells = s.cells := by
  unfold unlessStandby; split
  · rfl
  · exact h s

@[simp] theorem command_flights (b : Bool) (f : State → State) (s : State)
    (h : ∀ s, (f s).flights = s.flights) : (command b f s).flights = s.flights := by
  unfold command; split
  · simp [refuse, Sys2Proof.Machine.reply]
  · split
    · simp [refuse, Sys2Proof.Machine.reply]
    · exact h s

@[simp] theorem analogCommand_flights (b : Bool) (f : State → State) (s : State)
    (h : ∀ s, (f s).flights = s.flights) : (analogCommand b f s).flights = s.flights := by
  refine command_flights _ _ _ fun s => ?_
  split
  · exact h s
  · rfl

@[simp] theorem cellCommand_flights (q : Fin 64) (b : Bool) (f : Nat → State → State) (s : State)
    (h : ∀ k s, (f k s).flights = s.flights) : (cellCommand q b f s).flights = s.flights := by
  refine command_flights _ _ _ fun s => ?_
  dsimp only
  split
  · rfl
  · split
    · rfl
    · exact h _ s

@[simp] theorem slotCommand_flights (q : Fin 64) (b : Bool) (f : Nat → State → State) (i : Nat) (s : State)
    (h : ∀ i s, (f i s).flights = s.flights) : (slotCommand q b f i s).flights = s.flights := by
  refine command_flights _ _ _ fun s => ?_
  split
  · rfl
  · split
    · rfl
    · exact h _ s

@[simp] theorem unlessStandby_flights (f : State → State) (s : State) (h : ∀ s, (f s).flights = s.flights) :
    (unlessStandby f s).flights = s.flights := by
  unfold unlessStandby; split
  · rfl
  · exact h s

@[simp] theorem command_halls (b : Bool) (f : State → State) (s : State)
    (h : ∀ s, (f s).halls = s.halls) : (command b f s).halls = s.halls := by
  unfold command; split
  · simp [refuse, Sys2Proof.Machine.reply]
  · split
    · simp [refuse, Sys2Proof.Machine.reply]
    · exact h s

@[simp] theorem analogCommand_halls (b : Bool) (f : State → State) (s : State)
    (h : ∀ s, (f s).halls = s.halls) : (analogCommand b f s).halls = s.halls := by
  refine command_halls _ _ _ fun s => ?_
  split
  · exact h s
  · rfl

@[simp] theorem cellCommand_halls (q : Fin 64) (b : Bool) (f : Nat → State → State) (s : State)
    (h : ∀ k s, (f k s).halls = s.halls) : (cellCommand q b f s).halls = s.halls := by
  refine command_halls _ _ _ fun s => ?_
  dsimp only
  split
  · rfl
  · split
    · rfl
    · exact h _ s

@[simp] theorem slotCommand_halls (q : Fin 64) (b : Bool) (f : Nat → State → State) (i : Nat) (s : State)
    (h : ∀ i s, (f i s).halls = s.halls) : (slotCommand q b f i s).halls = s.halls := by
  refine command_halls _ _ _ fun s => ?_
  split
  · rfl
  · split
    · rfl
    · exact h _ s

@[simp] theorem unlessStandby_halls (f : State → State) (s : State) (h : ∀ s, (f s).halls = s.halls) :
    (unlessStandby f s).halls = s.halls := by
  unfold unlessStandby; split
  · rfl
  · exact h s

@[simp] theorem command_grid (b : Bool) (f : State → State) (s : State)
    (h : ∀ s, (f s).grid = s.grid) : (command b f s).grid = s.grid := by
  unfold command; split
  · simp [refuse, Sys2Proof.Machine.reply]
  · split
    · simp [refuse, Sys2Proof.Machine.reply]
    · exact h s

@[simp] theorem analogCommand_grid (b : Bool) (f : State → State) (s : State)
    (h : ∀ s, (f s).grid = s.grid) : (analogCommand b f s).grid = s.grid := by
  refine command_grid _ _ _ fun s => ?_
  split
  · exact h s
  · rfl

@[simp] theorem cellCommand_grid (q : Fin 64) (b : Bool) (f : Nat → State → State) (s : State)
    (h : ∀ k s, (f k s).grid = s.grid) : (cellCommand q b f s).grid = s.grid := by
  refine command_grid _ _ _ fun s => ?_
  dsimp only
  split
  · rfl
  · split
    · rfl
    · exact h _ s

@[simp] theorem slotCommand_grid (q : Fin 64) (b : Bool) (f : Nat → State → State) (i : Nat) (s : State)
    (h : ∀ i s, (f i s).grid = s.grid) : (slotCommand q b f i s).grid = s.grid := by
  refine command_grid _ _ _ fun s => ?_
  split
  · rfl
  · split
    · rfl
    · exact h _ s

@[simp] theorem unlessStandby_grid (f : State → State) (s : State) (h : ∀ s, (f s).grid = s.grid) :
    (unlessStandby f s).grid = s.grid := by
  unfold unlessStandby; split
  · rfl
  · exact h s

@[simp] theorem command_atr (b : Bool) (f : State → State) (s : State)
    (h : ∀ s, (f s).atr = s.atr) : (command b f s).atr = s.atr := by
  unfold command; split
  · simp [refuse, Sys2Proof.Machine.reply]
  · split
    · simp [refuse, Sys2Proof.Machine.reply]
    · exact h s

@[simp] theorem analogCommand_atr (b : Bool) (f : State → State) (s : State)
    (h : ∀ s, (f s).atr = s.atr) : (analogCommand b f s).atr = s.atr := by
  refine command_atr _ _ _ fun s => ?_
  split
  · exact h s
  · rfl

@[simp] theorem cellCommand_atr (q : Fin 64) (b : Bool) (f : Nat → State → State) (s : State)
    (h : ∀ k s, (f k s).atr = s.atr) : (cellCommand q b f s).atr = s.atr := by
  refine command_atr _ _ _ fun s => ?_
  dsimp only
  split
  · rfl
  · split
    · rfl
    · exact h _ s

@[simp] theorem slotCommand_atr (q : Fin 64) (b : Bool) (f : Nat → State → State) (i : Nat) (s : State)
    (h : ∀ i s, (f i s).atr = s.atr) : (slotCommand q b f i s).atr = s.atr := by
  refine command_atr _ _ _ fun s => ?_
  split
  · rfl
  · split
    · rfl
    · exact h _ s

@[simp] theorem unlessStandby_atr (f : State → State) (s : State) (h : ∀ s, (f s).atr = s.atr) :
    (unlessStandby f s).atr = s.atr := by
  unfold unlessStandby; split
  · rfl
  · exact h s

@[simp] theorem command_treadsOld (b : Bool) (f : State → State) (s : State)
    (h : ∀ s, (f s).treadsOld = s.treadsOld) : (command b f s).treadsOld = s.treadsOld := by
  unfold command; split
  · simp [refuse, Sys2Proof.Machine.reply]
  · split
    · simp [refuse, Sys2Proof.Machine.reply]
    · exact h s

@[simp] theorem analogCommand_treadsOld (b : Bool) (f : State → State) (s : State)
    (h : ∀ s, (f s).treadsOld = s.treadsOld) : (analogCommand b f s).treadsOld = s.treadsOld := by
  refine command_treadsOld _ _ _ fun s => ?_
  split
  · exact h s
  · rfl

@[simp] theorem cellCommand_treadsOld (q : Fin 64) (b : Bool) (f : Nat → State → State) (s : State)
    (h : ∀ k s, (f k s).treadsOld = s.treadsOld) : (cellCommand q b f s).treadsOld = s.treadsOld := by
  refine command_treadsOld _ _ _ fun s => ?_
  dsimp only
  split
  · rfl
  · split
    · rfl
    · exact h _ s

@[simp] theorem slotCommand_treadsOld (q : Fin 64) (b : Bool) (f : Nat → State → State) (i : Nat) (s : State)
    (h : ∀ i s, (f i s).treadsOld = s.treadsOld) : (slotCommand q b f i s).treadsOld = s.treadsOld := by
  refine command_treadsOld _ _ _ fun s => ?_
  split
  · rfl
  · split
    · rfl
    · exact h _ s

@[simp] theorem unlessStandby_treadsOld (f : State → State) (s : State) (h : ∀ s, (f s).treadsOld = s.treadsOld) :
    (unlessStandby f s).treadsOld = s.treadsOld := by
  unfold unlessStandby; split
  · rfl
  · exact h s

@[simp] theorem command_meas (b : Bool) (f : State → State) (s : State)
    (h : ∀ s, (f s).meas = s.meas) : (command b f s).meas = s.meas := by
  unfold command; split
  · simp [refuse, Sys2Proof.Machine.reply]
  · split
    · simp [refuse, Sys2Proof.Machine.reply]
    · exact h s

@[simp] theorem analogCommand_meas (b : Bool) (f : State → State) (s : State)
    (h : ∀ s, (f s).meas = s.meas) : (analogCommand b f s).meas = s.meas := by
  refine command_meas _ _ _ fun s => ?_
  split
  · exact h s
  · rfl

@[simp] theorem cellCommand_meas (q : Fin 64) (b : Bool) (f : Nat → State → State) (s : State)
    (h : ∀ k s, (f k s).meas = s.meas) : (cellCommand q b f s).meas = s.meas := by
  refine command_meas _ _ _ fun s => ?_
  dsimp only
  split
  · rfl
  · split
    · rfl
    · exact h _ s

@[simp] theorem slotCommand_meas (q : Fin 64) (b : Bool) (f : Nat → State → State) (i : Nat) (s : State)
    (h : ∀ i s, (f i s).meas = s.meas) : (slotCommand q b f i s).meas = s.meas := by
  refine command_meas _ _ _ fun s => ?_
  split
  · rfl
  · split
    · rfl
    · exact h _ s

@[simp] theorem unlessStandby_meas (f : State → State) (s : State) (h : ∀ s, (f s).meas = s.meas) :
    (unlessStandby f s).meas = s.meas := by
  unfold unlessStandby; split
  · rfl
  · exact h s

@[simp] theorem command_safe (b : Bool) (f : State → State) (s : State)
    (h : ∀ s, (f s).safe = s.safe) : (command b f s).safe = s.safe := by
  unfold command; split
  · simp [refuse, Sys2Proof.Machine.reply]
  · split
    · simp [refuse, Sys2Proof.Machine.reply]
    · exact h s

@[simp] theorem analogCommand_safe (b : Bool) (f : State → State) (s : State)
    (h : ∀ s, (f s).safe = s.safe) : (analogCommand b f s).safe = s.safe := by
  refine command_safe _ _ _ fun s => ?_
  split
  · exact h s
  · rfl

@[simp] theorem cellCommand_safe (q : Fin 64) (b : Bool) (f : Nat → State → State) (s : State)
    (h : ∀ k s, (f k s).safe = s.safe) : (cellCommand q b f s).safe = s.safe := by
  refine command_safe _ _ _ fun s => ?_
  dsimp only
  split
  · rfl
  · split
    · rfl
    · exact h _ s

@[simp] theorem slotCommand_safe (q : Fin 64) (b : Bool) (f : Nat → State → State) (i : Nat) (s : State)
    (h : ∀ i s, (f i s).safe = s.safe) : (slotCommand q b f i s).safe = s.safe := by
  refine command_safe _ _ _ fun s => ?_
  split
  · rfl
  · split
    · rfl
    · exact h _ s

@[simp] theorem unlessStandby_safe (f : State → State) (s : State) (h : ∀ s, (f s).safe = s.safe) :
    (unlessStandby f s).safe = s.safe := by
  unfold unlessStandby; split
  · rfl
  · exact h s

@[simp] theorem command_therm (b : Bool) (f : State → State) (s : State)
    (h : ∀ s, (f s).therm = s.therm) : (command b f s).therm = s.therm := by
  unfold command; split
  · simp [refuse, Sys2Proof.Machine.reply]
  · split
    · simp [refuse, Sys2Proof.Machine.reply]
    · exact h s

@[simp] theorem analogCommand_therm (b : Bool) (f : State → State) (s : State)
    (h : ∀ s, (f s).therm = s.therm) : (analogCommand b f s).therm = s.therm := by
  refine command_therm _ _ _ fun s => ?_
  split
  · exact h s
  · rfl

@[simp] theorem cellCommand_therm (q : Fin 64) (b : Bool) (f : Nat → State → State) (s : State)
    (h : ∀ k s, (f k s).therm = s.therm) : (cellCommand q b f s).therm = s.therm := by
  refine command_therm _ _ _ fun s => ?_
  dsimp only
  split
  · rfl
  · split
    · rfl
    · exact h _ s

@[simp] theorem slotCommand_therm (q : Fin 64) (b : Bool) (f : Nat → State → State) (i : Nat) (s : State)
    (h : ∀ i s, (f i s).therm = s.therm) : (slotCommand q b f i s).therm = s.therm := by
  refine command_therm _ _ _ fun s => ?_
  split
  · rfl
  · split
    · rfl
    · exact h _ s

@[simp] theorem unlessStandby_therm (f : State → State) (s : State) (h : ∀ s, (f s).therm = s.therm) :
    (unlessStandby f s).therm = s.therm := by
  unfold unlessStandby; split
  · rfl
  · exact h s

@[simp] theorem command_twin (b : Bool) (f : State → State) (s : State)
    (h : ∀ s, (f s).twin = s.twin) : (command b f s).twin = s.twin := by
  unfold command; split
  · simp [refuse, Sys2Proof.Machine.reply]
  · split
    · simp [refuse, Sys2Proof.Machine.reply]
    · exact h s

@[simp] theorem analogCommand_twin (b : Bool) (f : State → State) (s : State)
    (h : ∀ s, (f s).twin = s.twin) : (analogCommand b f s).twin = s.twin := by
  refine command_twin _ _ _ fun s => ?_
  split
  · exact h s
  · rfl

@[simp] theorem cellCommand_twin (q : Fin 64) (b : Bool) (f : Nat → State → State) (s : State)
    (h : ∀ k s, (f k s).twin = s.twin) : (cellCommand q b f s).twin = s.twin := by
  refine command_twin _ _ _ fun s => ?_
  dsimp only
  split
  · rfl
  · split
    · rfl
    · exact h _ s

@[simp] theorem slotCommand_twin (q : Fin 64) (b : Bool) (f : Nat → State → State) (i : Nat) (s : State)
    (h : ∀ i s, (f i s).twin = s.twin) : (slotCommand q b f i s).twin = s.twin := by
  refine command_twin _ _ _ fun s => ?_
  split
  · rfl
  · split
    · rfl
    · exact h _ s

@[simp] theorem unlessStandby_twin (f : State → State) (s : State) (h : ∀ s, (f s).twin = s.twin) :
    (unlessStandby f s).twin = s.twin := by
  unfold unlessStandby; split
  · rfl
  · exact h s

@[simp] theorem command_stair (b : Bool) (f : State → State) (s : State)
    (h : ∀ s, (f s).stair = s.stair) : (command b f s).stair = s.stair := by
  unfold command; split
  · simp [refuse, Sys2Proof.Machine.reply]
  · split
    · simp [refuse, Sys2Proof.Machine.reply]
    · exact h s

@[simp] theorem analogCommand_stair (b : Bool) (f : State → State) (s : State)
    (h : ∀ s, (f s).stair = s.stair) : (analogCommand b f s).stair = s.stair := by
  refine command_stair _ _ _ fun s => ?_
  split
  · exact h s
  · rfl

@[simp] theorem cellCommand_stair (q : Fin 64) (b : Bool) (f : Nat → State → State) (s : State)
    (h : ∀ k s, (f k s).stair = s.stair) : (cellCommand q b f s).stair = s.stair := by
  refine command_stair _ _ _ fun s => ?_
  dsimp only
  split
  · rfl
  · split
    · rfl
    · exact h _ s

@[simp] theorem slotCommand_stair (q : Fin 64) (b : Bool) (f : Nat → State → State) (i : Nat) (s : State)
    (h : ∀ i s, (f i s).stair = s.stair) : (slotCommand q b f i s).stair = s.stair := by
  refine command_stair _ _ _ fun s => ?_
  split
  · rfl
  · split
    · rfl
    · exact h _ s

@[simp] theorem unlessStandby_stair (f : State → State) (s : State) (h : ∀ s, (f s).stair = s.stair) :
    (unlessStandby f s).stair = s.stair := by
  unfold unlessStandby; split
  · rfl
  · exact h s

@[simp] theorem command_nvm (b : Bool) (f : State → State) (s : State)
    (h : ∀ s, (f s).nvm = s.nvm) : (command b f s).nvm = s.nvm := by
  unfold command; split
  · simp [refuse, Sys2Proof.Machine.reply]
  · split
    · simp [refuse, Sys2Proof.Machine.reply]
    · exact h s

@[simp] theorem analogCommand_nvm (b : Bool) (f : State → State) (s : State)
    (h : ∀ s, (f s).nvm = s.nvm) : (analogCommand b f s).nvm = s.nvm := by
  refine command_nvm _ _ _ fun s => ?_
  split
  · exact h s
  · rfl

@[simp] theorem cellCommand_nvm (q : Fin 64) (b : Bool) (f : Nat → State → State) (s : State)
    (h : ∀ k s, (f k s).nvm = s.nvm) : (cellCommand q b f s).nvm = s.nvm := by
  refine command_nvm _ _ _ fun s => ?_
  dsimp only
  split
  · rfl
  · split
    · rfl
    · exact h _ s

@[simp] theorem slotCommand_nvm (q : Fin 64) (b : Bool) (f : Nat → State → State) (i : Nat) (s : State)
    (h : ∀ i s, (f i s).nvm = s.nvm) : (slotCommand q b f i s).nvm = s.nvm := by
  refine command_nvm _ _ _ fun s => ?_
  split
  · rfl
  · split
    · rfl
    · exact h _ s

@[simp] theorem unlessStandby_nvm (f : State → State) (s : State) (h : ∀ s, (f s).nvm = s.nvm) :
    (unlessStandby f s).nvm = s.nvm := by
  unfold unlessStandby; split
  · rfl
  · exact h s

@[simp] theorem command_streams (b : Bool) (f : State → State) (s : State)
    (h : ∀ s, (f s).streams = s.streams) : (command b f s).streams = s.streams := by
  unfold command; split
  · simp [refuse, Sys2Proof.Machine.reply]
  · split
    · simp [refuse, Sys2Proof.Machine.reply]
    · exact h s

@[simp] theorem analogCommand_streams (b : Bool) (f : State → State) (s : State)
    (h : ∀ s, (f s).streams = s.streams) : (analogCommand b f s).streams = s.streams := by
  refine command_streams _ _ _ fun s => ?_
  split
  · exact h s
  · rfl

@[simp] theorem cellCommand_streams (q : Fin 64) (b : Bool) (f : Nat → State → State) (s : State)
    (h : ∀ k s, (f k s).streams = s.streams) : (cellCommand q b f s).streams = s.streams := by
  refine command_streams _ _ _ fun s => ?_
  dsimp only
  split
  · rfl
  · split
    · rfl
    · exact h _ s

@[simp] theorem slotCommand_streams (q : Fin 64) (b : Bool) (f : Nat → State → State) (i : Nat) (s : State)
    (h : ∀ i s, (f i s).streams = s.streams) : (slotCommand q b f i s).streams = s.streams := by
  refine command_streams _ _ _ fun s => ?_
  split
  · rfl
  · split
    · rfl
    · exact h _ s

@[simp] theorem unlessStandby_streams (f : State → State) (s : State) (h : ∀ s, (f s).streams = s.streams) :
    (unlessStandby f s).streams = s.streams := by
  unfold unlessStandby; split
  · rfl
  · exact h s

@[simp] theorem command_mem (b : Bool) (f : State → State) (s : State)
    (h : ∀ s, (f s).mem = s.mem) : (command b f s).mem = s.mem := by
  unfold command; split
  · simp [refuse, Sys2Proof.Machine.reply]
  · split
    · simp [refuse, Sys2Proof.Machine.reply]
    · exact h s

@[simp] theorem analogCommand_mem (b : Bool) (f : State → State) (s : State)
    (h : ∀ s, (f s).mem = s.mem) : (analogCommand b f s).mem = s.mem := by
  refine command_mem _ _ _ fun s => ?_
  split
  · exact h s
  · rfl

@[simp] theorem cellCommand_mem (q : Fin 64) (b : Bool) (f : Nat → State → State) (s : State)
    (h : ∀ k s, (f k s).mem = s.mem) : (cellCommand q b f s).mem = s.mem := by
  refine command_mem _ _ _ fun s => ?_
  dsimp only
  split
  · rfl
  · split
    · rfl
    · exact h _ s

@[simp] theorem slotCommand_mem (q : Fin 64) (b : Bool) (f : Nat → State → State) (i : Nat) (s : State)
    (h : ∀ i s, (f i s).mem = s.mem) : (slotCommand q b f i s).mem = s.mem := by
  refine command_mem _ _ _ fun s => ?_
  split
  · rfl
  · split
    · rfl
    · exact h _ s

@[simp] theorem unlessStandby_mem (f : State → State) (s : State) (h : ∀ s, (f s).mem = s.mem) :
    (unlessStandby f s).mem = s.mem := by
  unfold unlessStandby; split
  · rfl
  · exact h s

end Sys2Proof.Machine
end

