-- ==== Sys2Proof/Laws/FramesBase.lean ====
section
/-! SUPPORT. What each operation and each command leaves alone: the shared operations, the time base and the packets. A lemma `f_frame` names every part of the state
that `f` does not write. -/

namespace Sys2Proof.Machine

open Sys2Proof

set_option linter.all false

@[simp] theorem State.setReg_frame (s : State) (a1 : Nat) (a2 : Word) :
    (State.setReg s a1 a2).pending = s.pending ∧ (State.setReg s a1 a2).reply = s.reply ∧ (State.setReg s a1 a2).out = s.out ∧ (State.setReg s a1 a2).freeCtr = s.freeCtr ∧ (State.setReg s a1 a2).aon = s.aon ∧ (State.setReg s a1 a2).pend = s.pend ∧ (State.setReg s a1 a2).tb = s.tb ∧ (State.setReg s a1 a2).events = s.events ∧ (State.setReg s a1 a2).host = s.host ∧ (State.setReg s a1 a2).treads = s.treads ∧ (State.setReg s a1 a2).cells = s.cells ∧ (State.setReg s a1 a2).flights = s.flights ∧ (State.setReg s a1 a2).halls = s.halls ∧ (State.setReg s a1 a2).grid = s.grid ∧ (State.setReg s a1 a2).atr = s.atr ∧ (State.setReg s a1 a2).treadsOld = s.treadsOld ∧ (State.setReg s a1 a2).meas = s.meas ∧ (State.setReg s a1 a2).safe = s.safe ∧ (State.setReg s a1 a2).therm = s.therm ∧ (State.setReg s a1 a2).twin = s.twin ∧ (State.setReg s a1 a2).stair = s.stair ∧ (State.setReg s a1 a2).nvm = s.nvm ∧ (State.setReg s a1 a2).streams = s.streams ∧ (State.setReg s a1 a2).mem = s.mem := by
  unfold State.setReg
  (try dsimp only)
  (repeat' split) <;> simp [apply_ite]

@[simp] theorem State.setPend_frame (s : State) (a1 : Nat) (a2 : Word) :
    (State.setPend s a1 a2).pending = s.pending ∧ (State.setPend s a1 a2).reply = s.reply ∧ (State.setPend s a1 a2).out = s.out ∧ (State.setPend s a1 a2).freeCtr = s.freeCtr ∧ (State.setPend s a1 a2).aon = s.aon ∧ (State.setPend s a1 a2).cfg = s.cfg ∧ (State.setPend s a1 a2).tb = s.tb ∧ (State.setPend s a1 a2).events = s.events ∧ (State.setPend s a1 a2).host = s.host ∧ (State.setPend s a1 a2).treads = s.treads ∧ (State.setPend s a1 a2).cells = s.cells ∧ (State.setPend s a1 a2).flights = s.flights ∧ (State.setPend s a1 a2).halls = s.halls ∧ (State.setPend s a1 a2).grid = s.grid ∧ (State.setPend s a1 a2).atr = s.atr ∧ (State.setPend s a1 a2).treadsOld = s.treadsOld ∧ (State.setPend s a1 a2).meas = s.meas ∧ (State.setPend s a1 a2).safe = s.safe ∧ (State.setPend s a1 a2).therm = s.therm ∧ (State.setPend s a1 a2).twin = s.twin ∧ (State.setPend s a1 a2).stair = s.stair ∧ (State.setPend s a1 a2).nvm = s.nvm ∧ (State.setPend s a1 a2).streams = s.streams ∧ (State.setPend s a1 a2).mem = s.mem := by
  unfold State.setPend
  (try dsimp only)
  (repeat' split) <;> simp [apply_ite]

@[simp] theorem State.setCell_frame (s : State) (a1 : Nat) (a2 : Cell → Cell) :
    (State.setCell s a1 a2).pending = s.pending ∧ (State.setCell s a1 a2).reply = s.reply ∧ (State.setCell s a1 a2).out = s.out ∧ (State.setCell s a1 a2).freeCtr = s.freeCtr ∧ (State.setCell s a1 a2).aon = s.aon ∧ (State.setCell s a1 a2).cfg = s.cfg ∧ (State.setCell s a1 a2).pend = s.pend ∧ (State.setCell s a1 a2).tb = s.tb ∧ (State.setCell s a1 a2).events = s.events ∧ (State.setCell s a1 a2).host = s.host ∧ (State.setCell s a1 a2).treads = s.treads ∧ (State.setCell s a1 a2).flights = s.flights ∧ (State.setCell s a1 a2).halls = s.halls ∧ (State.setCell s a1 a2).grid = s.grid ∧ (State.setCell s a1 a2).atr = s.atr ∧ (State.setCell s a1 a2).treadsOld = s.treadsOld ∧ (State.setCell s a1 a2).meas = s.meas ∧ (State.setCell s a1 a2).safe = s.safe ∧ (State.setCell s a1 a2).therm = s.therm ∧ (State.setCell s a1 a2).twin = s.twin ∧ (State.setCell s a1 a2).stair = s.stair ∧ (State.setCell s a1 a2).nvm = s.nvm ∧ (State.setCell s a1 a2).streams = s.streams ∧ (State.setCell s a1 a2).mem = s.mem := by
  unfold State.setCell
  (try dsimp only)
  (repeat' split) <;> simp [apply_ite]

@[simp] theorem State.setFlight_frame (s : State) (a1 : Nat) (a2 : Flight → Flight) :
    (State.setFlight s a1 a2).pending = s.pending ∧ (State.setFlight s a1 a2).reply = s.reply ∧ (State.setFlight s a1 a2).out = s.out ∧ (State.setFlight s a1 a2).freeCtr = s.freeCtr ∧ (State.setFlight s a1 a2).aon = s.aon ∧ (State.setFlight s a1 a2).cfg = s.cfg ∧ (State.setFlight s a1 a2).pend = s.pend ∧ (State.setFlight s a1 a2).tb = s.tb ∧ (State.setFlight s a1 a2).events = s.events ∧ (State.setFlight s a1 a2).host = s.host ∧ (State.setFlight s a1 a2).treads = s.treads ∧ (State.setFlight s a1 a2).cells = s.cells ∧ (State.setFlight s a1 a2).halls = s.halls ∧ (State.setFlight s a1 a2).grid = s.grid ∧ (State.setFlight s a1 a2).atr = s.atr ∧ (State.setFlight s a1 a2).treadsOld = s.treadsOld ∧ (State.setFlight s a1 a2).meas = s.meas ∧ (State.setFlight s a1 a2).safe = s.safe ∧ (State.setFlight s a1 a2).therm = s.therm ∧ (State.setFlight s a1 a2).twin = s.twin ∧ (State.setFlight s a1 a2).stair = s.stair ∧ (State.setFlight s a1 a2).nvm = s.nvm ∧ (State.setFlight s a1 a2).streams = s.streams ∧ (State.setFlight s a1 a2).mem = s.mem := by
  unfold State.setFlight
  (try dsimp only)
  (repeat' split) <;> simp [apply_ite]

@[simp] theorem State.setHall_frame (s : State) (a1 : Nat) (a2 : HallS → HallS) :
    (State.setHall s a1 a2).pending = s.pending ∧ (State.setHall s a1 a2).reply = s.reply ∧ (State.setHall s a1 a2).out = s.out ∧ (State.setHall s a1 a2).freeCtr = s.freeCtr ∧ (State.setHall s a1 a2).aon = s.aon ∧ (State.setHall s a1 a2).cfg = s.cfg ∧ (State.setHall s a1 a2).pend = s.pend ∧ (State.setHall s a1 a2).tb = s.tb ∧ (State.setHall s a1 a2).events = s.events ∧ (State.setHall s a1 a2).host = s.host ∧ (State.setHall s a1 a2).treads = s.treads ∧ (State.setHall s a1 a2).cells = s.cells ∧ (State.setHall s a1 a2).flights = s.flights ∧ (State.setHall s a1 a2).grid = s.grid ∧ (State.setHall s a1 a2).atr = s.atr ∧ (State.setHall s a1 a2).treadsOld = s.treadsOld ∧ (State.setHall s a1 a2).meas = s.meas ∧ (State.setHall s a1 a2).safe = s.safe ∧ (State.setHall s a1 a2).therm = s.therm ∧ (State.setHall s a1 a2).twin = s.twin ∧ (State.setHall s a1 a2).stair = s.stair ∧ (State.setHall s a1 a2).nvm = s.nvm ∧ (State.setHall s a1 a2).streams = s.streams ∧ (State.setHall s a1 a2).mem = s.mem := by
  unfold State.setHall
  (try dsimp only)
  (repeat' split) <;> simp [apply_ite]

@[simp] theorem State.setCtx_frame (s : State) (a1 : Nat) (a2 : Ctx → Ctx) :
    (State.setCtx s a1 a2).pending = s.pending ∧ (State.setCtx s a1 a2).reply = s.reply ∧ (State.setCtx s a1 a2).out = s.out ∧ (State.setCtx s a1 a2).freeCtr = s.freeCtr ∧ (State.setCtx s a1 a2).aon = s.aon ∧ (State.setCtx s a1 a2).cfg = s.cfg ∧ (State.setCtx s a1 a2).pend = s.pend ∧ (State.setCtx s a1 a2).tb = s.tb ∧ (State.setCtx s a1 a2).events = s.events ∧ (State.setCtx s a1 a2).host = s.host ∧ (State.setCtx s a1 a2).cells = s.cells ∧ (State.setCtx s a1 a2).halls = s.halls ∧ (State.setCtx s a1 a2).grid = s.grid ∧ (State.setCtx s a1 a2).treadsOld = s.treadsOld ∧ (State.setCtx s a1 a2).meas = s.meas ∧ (State.setCtx s a1 a2).safe = s.safe ∧ (State.setCtx s a1 a2).therm = s.therm ∧ (State.setCtx s a1 a2).twin = s.twin ∧ (State.setCtx s a1 a2).stair = s.stair ∧ (State.setCtx s a1 a2).nvm = s.nvm ∧ (State.setCtx s a1 a2).streams = s.streams ∧ (State.setCtx s a1 a2).mem = s.mem := by
  unfold State.setCtx
  (try dsimp only)
  (repeat' split) <;> simp [apply_ite]

@[simp] theorem State.addTb_frame (s : State) (a1 : Nat) :
    (State.addTb s a1).pending = s.pending ∧ (State.addTb s a1).reply = s.reply ∧ (State.addTb s a1).out = s.out ∧ (State.addTb s a1).freeCtr = s.freeCtr ∧ (State.addTb s a1).aon = s.aon ∧ (State.addTb s a1).cfg = s.cfg ∧ (State.addTb s a1).pend = s.pend ∧ (State.addTb s a1).events = s.events ∧ (State.addTb s a1).host = s.host ∧ (State.addTb s a1).treads = s.treads ∧ (State.addTb s a1).cells = s.cells ∧ (State.addTb s a1).flights = s.flights ∧ (State.addTb s a1).halls = s.halls ∧ (State.addTb s a1).grid = s.grid ∧ (State.addTb s a1).atr = s.atr ∧ (State.addTb s a1).treadsOld = s.treadsOld ∧ (State.addTb s a1).meas = s.meas ∧ (State.addTb s a1).safe = s.safe ∧ (State.addTb s a1).therm = s.therm ∧ (State.addTb s a1).twin = s.twin ∧ (State.addTb s a1).stair = s.stair ∧ (State.addTb s a1).nvm = s.nvm ∧ (State.addTb s a1).streams = s.streams ∧ (State.addTb s a1).mem = s.mem := by
  unfold State.addTb
  (try dsimp only)
  (repeat' split) <;> simp [apply_ite]

@[simp] theorem tick_frame (s : State) :
    (tick s).pending = s.pending ∧ (tick s).reply = s.reply ∧ (tick s).out = s.out ∧ (tick s).freeCtr = s.freeCtr ∧ (tick s).aon = s.aon ∧ (tick s).cfg = s.cfg ∧ (tick s).pend = s.pend ∧ (tick s).events = s.events ∧ (tick s).host = s.host ∧ (tick s).treads = s.treads ∧ (tick s).cells = s.cells ∧ (tick s).flights = s.flights ∧ (tick s).halls = s.halls ∧ (tick s).grid = s.grid ∧ (tick s).atr = s.atr ∧ (tick s).treadsOld = s.treadsOld ∧ (tick s).meas = s.meas ∧ (tick s).safe = s.safe ∧ (tick s).therm = s.therm ∧ (tick s).twin = s.twin ∧ (tick s).stair = s.stair ∧ (tick s).nvm = s.nvm ∧ (tick s).streams = s.streams ∧ (tick s).mem = s.mem := by
  unfold tick
  (try dsimp only)
  (repeat' split) <;> simp [apply_ite]

@[simp] theorem advanceTo_frame (a0 : Nat) (s : State) :
    (advanceTo a0 s).pending = s.pending ∧ (advanceTo a0 s).reply = s.reply ∧ (advanceTo a0 s).out = s.out ∧ (advanceTo a0 s).freeCtr = s.freeCtr ∧ (advanceTo a0 s).aon = s.aon ∧ (advanceTo a0 s).cfg = s.cfg ∧ (advanceTo a0 s).pend = s.pend ∧ (advanceTo a0 s).events = s.events ∧ (advanceTo a0 s).host = s.host ∧ (advanceTo a0 s).treads = s.treads ∧ (advanceTo a0 s).cells = s.cells ∧ (advanceTo a0 s).flights = s.flights ∧ (advanceTo a0 s).halls = s.halls ∧ (advanceTo a0 s).grid = s.grid ∧ (advanceTo a0 s).atr = s.atr ∧ (advanceTo a0 s).treadsOld = s.treadsOld ∧ (advanceTo a0 s).meas = s.meas ∧ (advanceTo a0 s).safe = s.safe ∧ (advanceTo a0 s).therm = s.therm ∧ (advanceTo a0 s).twin = s.twin ∧ (advanceTo a0 s).stair = s.stair ∧ (advanceTo a0 s).nvm = s.nvm ∧ (advanceTo a0 s).streams = s.streams ∧ (advanceTo a0 s).mem = s.mem := by
  unfold advanceTo
  (try dsimp only)
  (repeat' split) <;> simp [apply_ite]

@[simp] theorem freeWord_frame (s : State) :
    (freeWord s).2.pending = s.pending ∧ (freeWord s).2.reply = s.reply ∧ (freeWord s).2.out = s.out ∧ (freeWord s).2.aon = s.aon ∧ (freeWord s).2.cfg = s.cfg ∧ (freeWord s).2.pend = s.pend ∧ (freeWord s).2.tb = s.tb ∧ (freeWord s).2.events = s.events ∧ (freeWord s).2.host = s.host ∧ (freeWord s).2.treads = s.treads ∧ (freeWord s).2.cells = s.cells ∧ (freeWord s).2.flights = s.flights ∧ (freeWord s).2.halls = s.halls ∧ (freeWord s).2.grid = s.grid ∧ (freeWord s).2.atr = s.atr ∧ (freeWord s).2.treadsOld = s.treadsOld ∧ (freeWord s).2.meas = s.meas ∧ (freeWord s).2.safe = s.safe ∧ (freeWord s).2.therm = s.therm ∧ (freeWord s).2.twin = s.twin ∧ (freeWord s).2.stair = s.stair ∧ (freeWord s).2.nvm = s.nvm ∧ (freeWord s).2.streams = s.streams ∧ (freeWord s).2.mem = s.mem := by
  unfold freeWord
  (try dsimp only)
  (repeat' split) <;> simp [apply_ite]

@[simp] theorem freeNat_frame (s : State) :
    (freeNat s).2.pending = s.pending ∧ (freeNat s).2.reply = s.reply ∧ (freeNat s).2.out = s.out ∧ (freeNat s).2.aon = s.aon ∧ (freeNat s).2.cfg = s.cfg ∧ (freeNat s).2.pend = s.pend ∧ (freeNat s).2.tb = s.tb ∧ (freeNat s).2.events = s.events ∧ (freeNat s).2.host = s.host ∧ (freeNat s).2.treads = s.treads ∧ (freeNat s).2.cells = s.cells ∧ (freeNat s).2.flights = s.flights ∧ (freeNat s).2.halls = s.halls ∧ (freeNat s).2.grid = s.grid ∧ (freeNat s).2.atr = s.atr ∧ (freeNat s).2.treadsOld = s.treadsOld ∧ (freeNat s).2.meas = s.meas ∧ (freeNat s).2.safe = s.safe ∧ (freeNat s).2.therm = s.therm ∧ (freeNat s).2.twin = s.twin ∧ (freeNat s).2.stair = s.stair ∧ (freeNat s).2.nvm = s.nvm ∧ (freeNat s).2.streams = s.streams ∧ (freeNat s).2.mem = s.mem := by
  unfold freeNat
  (try dsimp only)
  (repeat' split) <;> simp [apply_ite]

@[simp] theorem emit_frame (a0 : Out) (s : State) :
    (emit a0 s).pending = s.pending ∧ (emit a0 s).reply = s.reply ∧ (emit a0 s).freeCtr = s.freeCtr ∧ (emit a0 s).aon = s.aon ∧ (emit a0 s).cfg = s.cfg ∧ (emit a0 s).pend = s.pend ∧ (emit a0 s).tb = s.tb ∧ (emit a0 s).events = s.events ∧ (emit a0 s).host = s.host ∧ (emit a0 s).treads = s.treads ∧ (emit a0 s).cells = s.cells ∧ (emit a0 s).flights = s.flights ∧ (emit a0 s).halls = s.halls ∧ (emit a0 s).grid = s.grid ∧ (emit a0 s).atr = s.atr ∧ (emit a0 s).treadsOld = s.treadsOld ∧ (emit a0 s).meas = s.meas ∧ (emit a0 s).safe = s.safe ∧ (emit a0 s).therm = s.therm ∧ (emit a0 s).twin = s.twin ∧ (emit a0 s).stair = s.stair ∧ (emit a0 s).nvm = s.nvm ∧ (emit a0 s).streams = s.streams ∧ (emit a0 s).mem = s.mem := by
  unfold emit
  (try dsimp only)
  (repeat' split) <;> simp [apply_ite]

@[simp] theorem rsPush_frame (a0 : List Byte) (s : State) :
    (rsPush a0 s).pending = s.pending ∧ (rsPush a0 s).reply = s.reply ∧ (rsPush a0 s).out = s.out ∧ (rsPush a0 s).freeCtr = s.freeCtr ∧ (rsPush a0 s).aon = s.aon ∧ (rsPush a0 s).cfg = s.cfg ∧ (rsPush a0 s).pend = s.pend ∧ (rsPush a0 s).tb = s.tb ∧ (rsPush a0 s).events = s.events ∧ (rsPush a0 s).treads = s.treads ∧ (rsPush a0 s).cells = s.cells ∧ (rsPush a0 s).flights = s.flights ∧ (rsPush a0 s).halls = s.halls ∧ (rsPush a0 s).grid = s.grid ∧ (rsPush a0 s).atr = s.atr ∧ (rsPush a0 s).treadsOld = s.treadsOld ∧ (rsPush a0 s).meas = s.meas ∧ (rsPush a0 s).safe = s.safe ∧ (rsPush a0 s).therm = s.therm ∧ (rsPush a0 s).twin = s.twin ∧ (rsPush a0 s).stair = s.stair ∧ (rsPush a0 s).nvm = s.nvm ∧ (rsPush a0 s).streams = s.streams ∧ (rsPush a0 s).mem = s.mem := by
  unfold rsPush
  (try dsimp only)
  (repeat' split) <;> simp [apply_ite]

@[simp] theorem sendRecord_frame (a0 : Nat) (a1 : Word) (s : State) :
    (sendRecord a0 a1 s).pending = s.pending ∧ (sendRecord a0 a1 s).reply = s.reply ∧ (sendRecord a0 a1 s).freeCtr = s.freeCtr ∧ (sendRecord a0 a1 s).aon = s.aon ∧ (sendRecord a0 a1 s).cfg = s.cfg ∧ (sendRecord a0 a1 s).pend = s.pend ∧ (sendRecord a0 a1 s).tb = s.tb ∧ (sendRecord a0 a1 s).treads = s.treads ∧ (sendRecord a0 a1 s).cells = s.cells ∧ (sendRecord a0 a1 s).flights = s.flights ∧ (sendRecord a0 a1 s).halls = s.halls ∧ (sendRecord a0 a1 s).grid = s.grid ∧ (sendRecord a0 a1 s).atr = s.atr ∧ (sendRecord a0 a1 s).treadsOld = s.treadsOld ∧ (sendRecord a0 a1 s).meas = s.meas ∧ (sendRecord a0 a1 s).safe = s.safe ∧ (sendRecord a0 a1 s).therm = s.therm ∧ (sendRecord a0 a1 s).twin = s.twin ∧ (sendRecord a0 a1 s).stair = s.stair ∧ (sendRecord a0 a1 s).nvm = s.nvm ∧ (sendRecord a0 a1 s).streams = s.streams ∧ (sendRecord a0 a1 s).mem = s.mem := by
  unfold sendRecord
  (try dsimp only)
  (repeat' split) <;> simp [apply_ite]

@[simp] theorem setCap_frame (a0 : Capture → Capture) (s : State) :
    (setCap a0 s).pending = s.pending ∧ (setCap a0 s).reply = s.reply ∧ (setCap a0 s).out = s.out ∧ (setCap a0 s).freeCtr = s.freeCtr ∧ (setCap a0 s).aon = s.aon ∧ (setCap a0 s).cfg = s.cfg ∧ (setCap a0 s).pend = s.pend ∧ (setCap a0 s).tb = s.tb ∧ (setCap a0 s).events = s.events ∧ (setCap a0 s).host = s.host ∧ (setCap a0 s).treads = s.treads ∧ (setCap a0 s).cells = s.cells ∧ (setCap a0 s).flights = s.flights ∧ (setCap a0 s).halls = s.halls ∧ (setCap a0 s).grid = s.grid ∧ (setCap a0 s).treadsOld = s.treadsOld ∧ (setCap a0 s).meas = s.meas ∧ (setCap a0 s).safe = s.safe ∧ (setCap a0 s).therm = s.therm ∧ (setCap a0 s).twin = s.twin ∧ (setCap a0 s).stair = s.stair ∧ (setCap a0 s).nvm = s.nvm ∧ (setCap a0 s).streams = s.streams ∧ (setCap a0 s).mem = s.mem := by
  unfold setCap
  (try dsimp only)
  (repeat' split) <;> simp [apply_ite]

@[simp] theorem capTrigger_frame (s : State) :
    (capTrigger s).pending = s.pending ∧ (capTrigger s).reply = s.reply ∧ (capTrigger s).out = s.out ∧ (capTrigger s).freeCtr = s.freeCtr ∧ (capTrigger s).aon = s.aon ∧ (capTrigger s).cfg = s.cfg ∧ (capTrigger s).pend = s.pend ∧ (capTrigger s).tb = s.tb ∧ (capTrigger s).events = s.events ∧ (capTrigger s).host = s.host ∧ (capTrigger s).treads = s.treads ∧ (capTrigger s).cells = s.cells ∧ (capTrigger s).flights = s.flights ∧ (capTrigger s).halls = s.halls ∧ (capTrigger s).grid = s.grid ∧ (capTrigger s).treadsOld = s.treadsOld ∧ (capTrigger s).meas = s.meas ∧ (capTrigger s).safe = s.safe ∧ (capTrigger s).therm = s.therm ∧ (capTrigger s).twin = s.twin ∧ (capTrigger s).stair = s.stair ∧ (capTrigger s).nvm = s.nvm ∧ (capTrigger s).streams = s.streams ∧ (capTrigger s).mem = s.mem := by
  unfold capTrigger
  (try dsimp only)
  (repeat' split) <;> simp [apply_ite]

@[simp] theorem capEvent_frame (a0 : Nat) (s : State) :
    (capEvent a0 s).pending = s.pending ∧ (capEvent a0 s).reply = s.reply ∧ (capEvent a0 s).out = s.out ∧ (capEvent a0 s).freeCtr = s.freeCtr ∧ (capEvent a0 s).aon = s.aon ∧ (capEvent a0 s).cfg = s.cfg ∧ (capEvent a0 s).pend = s.pend ∧ (capEvent a0 s).tb = s.tb ∧ (capEvent a0 s).events = s.events ∧ (capEvent a0 s).host = s.host ∧ (capEvent a0 s).treads = s.treads ∧ (capEvent a0 s).cells = s.cells ∧ (capEvent a0 s).flights = s.flights ∧ (capEvent a0 s).halls = s.halls ∧ (capEvent a0 s).grid = s.grid ∧ (capEvent a0 s).treadsOld = s.treadsOld ∧ (capEvent a0 s).meas = s.meas ∧ (capEvent a0 s).safe = s.safe ∧ (capEvent a0 s).therm = s.therm ∧ (capEvent a0 s).twin = s.twin ∧ (capEvent a0 s).stair = s.stair ∧ (capEvent a0 s).nvm = s.nvm ∧ (capEvent a0 s).streams = s.streams ∧ (capEvent a0 s).mem = s.mem := by
  unfold capEvent
  (try dsimp only)
  (repeat' split) <;> simp [apply_ite]

@[simp] theorem raise_frame (a0 : Nat) (a1 : Word) (s : State) :
    (raise a0 a1 s).pending = s.pending ∧ (raise a0 a1 s).reply = s.reply ∧ (raise a0 a1 s).freeCtr = s.freeCtr ∧ (raise a0 a1 s).cfg = s.cfg ∧ (raise a0 a1 s).pend = s.pend ∧ (raise a0 a1 s).tb = s.tb ∧ (raise a0 a1 s).treads = s.treads ∧ (raise a0 a1 s).cells = s.cells ∧ (raise a0 a1 s).flights = s.flights ∧ (raise a0 a1 s).halls = s.halls ∧ (raise a0 a1 s).grid = s.grid ∧ (raise a0 a1 s).treadsOld = s.treadsOld ∧ (raise a0 a1 s).meas = s.meas ∧ (raise a0 a1 s).safe = s.safe ∧ (raise a0 a1 s).therm = s.therm ∧ (raise a0 a1 s).twin = s.twin ∧ (raise a0 a1 s).stair = s.stair ∧ (raise a0 a1 s).nvm = s.nvm ∧ (raise a0 a1 s).streams = s.streams ∧ (raise a0 a1 s).mem = s.mem := by
  unfold raise
  (try dsimp only)
  (repeat' split) <;> simp [apply_ite]

@[simp] theorem clearEvt_frame (a0 : Nat) (s : State) :
    (clearEvt a0 s).pending = s.pending ∧ (clearEvt a0 s).reply = s.reply ∧ (clearEvt a0 s).out = s.out ∧ (clearEvt a0 s).freeCtr = s.freeCtr ∧ (clearEvt a0 s).aon = s.aon ∧ (clearEvt a0 s).cfg = s.cfg ∧ (clearEvt a0 s).pend = s.pend ∧ (clearEvt a0 s).tb = s.tb ∧ (clearEvt a0 s).host = s.host ∧ (clearEvt a0 s).treads = s.treads ∧ (clearEvt a0 s).cells = s.cells ∧ (clearEvt a0 s).flights = s.flights ∧ (clearEvt a0 s).halls = s.halls ∧ (clearEvt a0 s).grid = s.grid ∧ (clearEvt a0 s).atr = s.atr ∧ (clearEvt a0 s).treadsOld = s.treadsOld ∧ (clearEvt a0 s).meas = s.meas ∧ (clearEvt a0 s).safe = s.safe ∧ (clearEvt a0 s).therm = s.therm ∧ (clearEvt a0 s).twin = s.twin ∧ (clearEvt a0 s).stair = s.stair ∧ (clearEvt a0 s).nvm = s.nvm ∧ (clearEvt a0 s).streams = s.streams ∧ (clearEvt a0 s).mem = s.mem := by
  unfold clearEvt
  (try dsimp only)
  (repeat' split) <;> simp [apply_ite]

@[simp] theorem reply_frame (a0 : Status) (a1 : List Word) (s : State) :
    (reply a0 a1 s).pending = s.pending ∧ (reply a0 a1 s).out = s.out ∧ (reply a0 a1 s).freeCtr = s.freeCtr ∧ (reply a0 a1 s).aon = s.aon ∧ (reply a0 a1 s).cfg = s.cfg ∧ (reply a0 a1 s).pend = s.pend ∧ (reply a0 a1 s).tb = s.tb ∧ (reply a0 a1 s).events = s.events ∧ (reply a0 a1 s).host = s.host ∧ (reply a0 a1 s).treads = s.treads ∧ (reply a0 a1 s).cells = s.cells ∧ (reply a0 a1 s).flights = s.flights ∧ (reply a0 a1 s).halls = s.halls ∧ (reply a0 a1 s).grid = s.grid ∧ (reply a0 a1 s).atr = s.atr ∧ (reply a0 a1 s).treadsOld = s.treadsOld ∧ (reply a0 a1 s).meas = s.meas ∧ (reply a0 a1 s).safe = s.safe ∧ (reply a0 a1 s).therm = s.therm ∧ (reply a0 a1 s).twin = s.twin ∧ (reply a0 a1 s).stair = s.stair ∧ (reply a0 a1 s).nvm = s.nvm ∧ (reply a0 a1 s).streams = s.streams ∧ (reply a0 a1 s).mem = s.mem := by
  unfold reply
  (try dsimp only)
  (repeat' split) <;> simp [apply_ite]

@[simp] theorem refuse_frame (a0 : Status) (s : State) :
    (refuse a0 s).pending = s.pending ∧ (refuse a0 s).out = s.out ∧ (refuse a0 s).freeCtr = s.freeCtr ∧ (refuse a0 s).aon = s.aon ∧ (refuse a0 s).cfg = s.cfg ∧ (refuse a0 s).pend = s.pend ∧ (refuse a0 s).tb = s.tb ∧ (refuse a0 s).events = s.events ∧ (refuse a0 s).host = s.host ∧ (refuse a0 s).treads = s.treads ∧ (refuse a0 s).cells = s.cells ∧ (refuse a0 s).flights = s.flights ∧ (refuse a0 s).halls = s.halls ∧ (refuse a0 s).grid = s.grid ∧ (refuse a0 s).atr = s.atr ∧ (refuse a0 s).treadsOld = s.treadsOld ∧ (refuse a0 s).meas = s.meas ∧ (refuse a0 s).safe = s.safe ∧ (refuse a0 s).therm = s.therm ∧ (refuse a0 s).twin = s.twin ∧ (refuse a0 s).stair = s.stair ∧ (refuse a0 s).nvm = s.nvm ∧ (refuse a0 s).streams = s.streams ∧ (refuse a0 s).mem = s.mem := by
  unfold refuse
  (try dsimp only)
  (repeat' split) <;> simp [apply_ite]

@[simp] theorem nvmStart_frame (s : State) :
    (nvmStart s).pending = s.pending ∧ (nvmStart s).reply = s.reply ∧ (nvmStart s).out = s.out ∧ (nvmStart s).freeCtr = s.freeCtr ∧ (nvmStart s).aon = s.aon ∧ (nvmStart s).cfg = s.cfg ∧ (nvmStart s).pend = s.pend ∧ (nvmStart s).tb = s.tb ∧ (nvmStart s).events = s.events ∧ (nvmStart s).host = s.host ∧ (nvmStart s).treads = s.treads ∧ (nvmStart s).cells = s.cells ∧ (nvmStart s).flights = s.flights ∧ (nvmStart s).halls = s.halls ∧ (nvmStart s).grid = s.grid ∧ (nvmStart s).atr = s.atr ∧ (nvmStart s).treadsOld = s.treadsOld ∧ (nvmStart s).meas = s.meas ∧ (nvmStart s).safe = s.safe ∧ (nvmStart s).therm = s.therm ∧ (nvmStart s).twin = s.twin ∧ (nvmStart s).stair = s.stair ∧ (nvmStart s).streams = s.streams ∧ (nvmStart s).mem = s.mem := by
  unfold nvmStart
  (try dsimp only)
  (repeat' split) <;> simp [apply_ite]

@[simp] theorem nvmWrite_frame (a0 : Byte) (a1 : Nat) (a2 : NvmData) (a3 : NvmThen) (s : State) :
    (nvmWrite a0 a1 a2 a3 s).pending = s.pending ∧ (nvmWrite a0 a1 a2 a3 s).reply = s.reply ∧ (nvmWrite a0 a1 a2 a3 s).out = s.out ∧ (nvmWrite a0 a1 a2 a3 s).freeCtr = s.freeCtr ∧ (nvmWrite a0 a1 a2 a3 s).aon = s.aon ∧ (nvmWrite a0 a1 a2 a3 s).cfg = s.cfg ∧ (nvmWrite a0 a1 a2 a3 s).pend = s.pend ∧ (nvmWrite a0 a1 a2 a3 s).tb = s.tb ∧ (nvmWrite a0 a1 a2 a3 s).events = s.events ∧ (nvmWrite a0 a1 a2 a3 s).host = s.host ∧ (nvmWrite a0 a1 a2 a3 s).treads = s.treads ∧ (nvmWrite a0 a1 a2 a3 s).cells = s.cells ∧ (nvmWrite a0 a1 a2 a3 s).flights = s.flights ∧ (nvmWrite a0 a1 a2 a3 s).halls = s.halls ∧ (nvmWrite a0 a1 a2 a3 s).grid = s.grid ∧ (nvmWrite a0 a1 a2 a3 s).atr = s.atr ∧ (nvmWrite a0 a1 a2 a3 s).treadsOld = s.treadsOld ∧ (nvmWrite a0 a1 a2 a3 s).meas = s.meas ∧ (nvmWrite a0 a1 a2 a3 s).safe = s.safe ∧ (nvmWrite a0 a1 a2 a3 s).therm = s.therm ∧ (nvmWrite a0 a1 a2 a3 s).twin = s.twin ∧ (nvmWrite a0 a1 a2 a3 s).stair = s.stair ∧ (nvmWrite a0 a1 a2 a3 s).streams = s.streams ∧ (nvmWrite a0 a1 a2 a3 s).mem = s.mem := by
  unfold nvmWrite
  (try dsimp only)
  (repeat' split) <;> simp [apply_ite]

@[simp] theorem logRecord_frame (a0 : Nat) (a1 : Byte) (a2 : BitVec 16) (a3 : Word) (a4 : Word) (s : State) :
    (logRecord a0 a1 a2 a3 a4 s).pending = s.pending ∧ (logRecord a0 a1 a2 a3 a4 s).reply = s.reply ∧ (logRecord a0 a1 a2 a3 a4 s).freeCtr = s.freeCtr ∧ (logRecord a0 a1 a2 a3 a4 s).cfg = s.cfg ∧ (logRecord a0 a1 a2 a3 a4 s).pend = s.pend ∧ (logRecord a0 a1 a2 a3 a4 s).tb = s.tb ∧ (logRecord a0 a1 a2 a3 a4 s).treads = s.treads ∧ (logRecord a0 a1 a2 a3 a4 s).cells = s.cells ∧ (logRecord a0 a1 a2 a3 a4 s).flights = s.flights ∧ (logRecord a0 a1 a2 a3 a4 s).halls = s.halls ∧ (logRecord a0 a1 a2 a3 a4 s).grid = s.grid ∧ (logRecord a0 a1 a2 a3 a4 s).treadsOld = s.treadsOld ∧ (logRecord a0 a1 a2 a3 a4 s).meas = s.meas ∧ (logRecord a0 a1 a2 a3 a4 s).safe = s.safe ∧ (logRecord a0 a1 a2 a3 a4 s).therm = s.therm ∧ (logRecord a0 a1 a2 a3 a4 s).twin = s.twin ∧ (logRecord a0 a1 a2 a3 a4 s).stair = s.stair ∧ (logRecord a0 a1 a2 a3 a4 s).streams = s.streams ∧ (logRecord a0 a1 a2 a3 a4 s).mem = s.mem := by
  unfold logRecord
  (try dsimp only)
  (repeat' split) <;> simp [apply_ite]

theorem execTbRead_frame (a0 : List Word) (s t : State) (h : execTbRead a0 s = .next t) :
    t.pending = s.pending ∧ t.out = s.out ∧ t.freeCtr = s.freeCtr ∧ t.aon = s.aon ∧ t.cfg = s.cfg ∧ t.pend = s.pend ∧ t.tb = s.tb ∧ t.events = s.events ∧ t.host = s.host ∧ t.treads = s.treads ∧ t.cells = s.cells ∧ t.flights = s.flights ∧ t.halls = s.halls ∧ t.grid = s.grid ∧ t.atr = s.atr ∧ t.treadsOld = s.treadsOld ∧ t.meas = s.meas ∧ t.safe = s.safe ∧ t.therm = s.therm ∧ t.twin = s.twin ∧ t.stair = s.stair ∧ t.nvm = s.nvm ∧ t.streams = s.streams ∧ t.mem = s.mem := by
  unfold execTbRead at h; cases h; (try dsimp only); (repeat' split) <;> simp [apply_ite]

@[simp] theorem setIncr_frame (a0 : Nat) (s : State) :
    (setIncr a0 s).2.pending = s.pending ∧ (setIncr a0 s).2.reply = s.reply ∧ (setIncr a0 s).2.out = s.out ∧ (setIncr a0 s).2.freeCtr = s.freeCtr ∧ (setIncr a0 s).2.aon = s.aon ∧ (setIncr a0 s).2.cfg = s.cfg ∧ (setIncr a0 s).2.pend = s.pend ∧ (setIncr a0 s).2.events = s.events ∧ (setIncr a0 s).2.host = s.host ∧ (setIncr a0 s).2.treads = s.treads ∧ (setIncr a0 s).2.cells = s.cells ∧ (setIncr a0 s).2.flights = s.flights ∧ (setIncr a0 s).2.halls = s.halls ∧ (setIncr a0 s).2.grid = s.grid ∧ (setIncr a0 s).2.atr = s.atr ∧ (setIncr a0 s).2.treadsOld = s.treadsOld ∧ (setIncr a0 s).2.meas = s.meas ∧ (setIncr a0 s).2.safe = s.safe ∧ (setIncr a0 s).2.therm = s.therm ∧ (setIncr a0 s).2.twin = s.twin ∧ (setIncr a0 s).2.stair = s.stair ∧ (setIncr a0 s).2.nvm = s.nvm ∧ (setIncr a0 s).2.streams = s.streams ∧ (setIncr a0 s).2.mem = s.mem := by
  unfold setIncr
  (try dsimp only)
  (repeat' split) <;> simp [apply_ite]

theorem execTbIncr_frame (a0 : List Word) (s t : State) (h : execTbIncr a0 s = .next t) :
    t.pending = s.pending ∧ t.out = s.out ∧ t.freeCtr = s.freeCtr ∧ t.aon = s.aon ∧ t.cfg = s.cfg ∧ t.pend = s.pend ∧ t.events = s.events ∧ t.host = s.host ∧ t.treads = s.treads ∧ t.cells = s.cells ∧ t.flights = s.flights ∧ t.halls = s.halls ∧ t.grid = s.grid ∧ t.atr = s.atr ∧ t.treadsOld = s.treadsOld ∧ t.meas = s.meas ∧ t.safe = s.safe ∧ t.therm = s.therm ∧ t.twin = s.twin ∧ t.stair = s.stair ∧ t.nvm = s.nvm ∧ t.streams = s.streams ∧ t.mem = s.mem := by
  unfold execTbIncr at h; cases h; (try dsimp only); (repeat' split) <;> simp [apply_ite]

@[simp] theorem tbStep_frame (a0 : Int) (s : State) :
    (tbStep a0 s).pending = s.pending ∧ (tbStep a0 s).reply = s.reply ∧ (tbStep a0 s).freeCtr = s.freeCtr ∧ (tbStep a0 s).cfg = s.cfg ∧ (tbStep a0 s).pend = s.pend ∧ (tbStep a0 s).treads = s.treads ∧ (tbStep a0 s).cells = s.cells ∧ (tbStep a0 s).flights = s.flights ∧ (tbStep a0 s).halls = s.halls ∧ (tbStep a0 s).treadsOld = s.treadsOld ∧ (tbStep a0 s).meas = s.meas ∧ (tbStep a0 s).safe = s.safe ∧ (tbStep a0 s).twin = s.twin ∧ (tbStep a0 s).stair = s.stair ∧ (tbStep a0 s).nvm = s.nvm ∧ (tbStep a0 s).streams = s.streams ∧ (tbStep a0 s).mem = s.mem := by
  unfold tbStep
  (try dsimp only)
  (repeat' split) <;> simp [apply_ite]

theorem execTbAdj_frame (a0 : List Word) (s t : State) (h : execTbAdj a0 s = .next t) :
    t.pending = s.pending ∧ t.freeCtr = s.freeCtr ∧ t.cfg = s.cfg ∧ t.pend = s.pend ∧ t.treads = s.treads ∧ t.cells = s.cells ∧ t.flights = s.flights ∧ t.halls = s.halls ∧ t.treadsOld = s.treadsOld ∧ t.meas = s.meas ∧ t.safe = s.safe ∧ t.twin = s.twin ∧ t.stair = s.stair ∧ t.nvm = s.nvm ∧ t.streams = s.streams ∧ t.mem = s.mem := by
  unfold execTbAdj at h; cases h; (try dsimp only); (repeat' split) <;> simp [apply_ite]

@[simp] theorem latchTime_frame (s : State) :
    (latchTime s).pending = s.pending ∧ (latchTime s).reply = s.reply ∧ (latchTime s).out = s.out ∧ (latchTime s).freeCtr = s.freeCtr ∧ (latchTime s).aon = s.aon ∧ (latchTime s).cfg = s.cfg ∧ (latchTime s).pend = s.pend ∧ (latchTime s).events = s.events ∧ (latchTime s).host = s.host ∧ (latchTime s).treads = s.treads ∧ (latchTime s).cells = s.cells ∧ (latchTime s).flights = s.flights ∧ (latchTime s).halls = s.halls ∧ (latchTime s).grid = s.grid ∧ (latchTime s).atr = s.atr ∧ (latchTime s).treadsOld = s.treadsOld ∧ (latchTime s).meas = s.meas ∧ (latchTime s).safe = s.safe ∧ (latchTime s).therm = s.therm ∧ (latchTime s).twin = s.twin ∧ (latchTime s).stair = s.stair ∧ (latchTime s).nvm = s.nvm ∧ (latchTime s).streams = s.streams ∧ (latchTime s).mem = s.mem := by
  unfold latchTime
  (try dsimp only)
  (repeat' split) <;> simp [apply_ite]

theorem execTbTimeLatch_frame (s t : State) (h : execTbTimeLatch s = .next t) :
    t.pending = s.pending ∧ t.reply = s.reply ∧ t.out = s.out ∧ t.freeCtr = s.freeCtr ∧ t.aon = s.aon ∧ t.cfg = s.cfg ∧ t.pend = s.pend ∧ t.events = s.events ∧ t.host = s.host ∧ t.treads = s.treads ∧ t.cells = s.cells ∧ t.flights = s.flights ∧ t.halls = s.halls ∧ t.grid = s.grid ∧ t.atr = s.atr ∧ t.treadsOld = s.treadsOld ∧ t.meas = s.meas ∧ t.safe = s.safe ∧ t.therm = s.therm ∧ t.twin = s.twin ∧ t.stair = s.stair ∧ t.nvm = s.nvm ∧ t.streams = s.streams ∧ t.mem = s.mem := by
  unfold execTbTimeLatch at h; cases h; (try dsimp only); (repeat' split) <;> simp [apply_ite]

@[simp] theorem latchStamp_frame (s : State) :
    (latchStamp s).pending = s.pending ∧ (latchStamp s).reply = s.reply ∧ (latchStamp s).out = s.out ∧ (latchStamp s).freeCtr = s.freeCtr ∧ (latchStamp s).aon = s.aon ∧ (latchStamp s).cfg = s.cfg ∧ (latchStamp s).pend = s.pend ∧ (latchStamp s).events = s.events ∧ (latchStamp s).host = s.host ∧ (latchStamp s).treads = s.treads ∧ (latchStamp s).cells = s.cells ∧ (latchStamp s).flights = s.flights ∧ (latchStamp s).halls = s.halls ∧ (latchStamp s).grid = s.grid ∧ (latchStamp s).atr = s.atr ∧ (latchStamp s).treadsOld = s.treadsOld ∧ (latchStamp s).meas = s.meas ∧ (latchStamp s).safe = s.safe ∧ (latchStamp s).therm = s.therm ∧ (latchStamp s).twin = s.twin ∧ (latchStamp s).stair = s.stair ∧ (latchStamp s).nvm = s.nvm ∧ (latchStamp s).streams = s.streams ∧ (latchStamp s).mem = s.mem := by
  unfold latchStamp
  (try dsimp only)
  (repeat' split) <;> simp [apply_ite]

theorem execTbSyncStampLatch_frame (s t : State) (h : execTbSyncStampLatch s = .next t) :
    t.pending = s.pending ∧ t.reply = s.reply ∧ t.out = s.out ∧ t.freeCtr = s.freeCtr ∧ t.aon = s.aon ∧ t.cfg = s.cfg ∧ t.pend = s.pend ∧ t.events = s.events ∧ t.host = s.host ∧ t.treads = s.treads ∧ t.cells = s.cells ∧ t.flights = s.flights ∧ t.halls = s.halls ∧ t.grid = s.grid ∧ t.atr = s.atr ∧ t.treadsOld = s.treadsOld ∧ t.meas = s.meas ∧ t.safe = s.safe ∧ t.therm = s.therm ∧ t.twin = s.twin ∧ t.stair = s.stair ∧ t.nvm = s.nvm ∧ t.streams = s.streams ∧ t.mem = s.mem := by
  unfold execTbSyncStampLatch at h; cases h; (try dsimp only); (repeat' split) <;> simp [apply_ite]

@[simp] theorem State.setTc_frame (s : State) (a1 : Nat) (a2 : Compare → Compare) :
    (State.setTc s a1 a2).pending = s.pending ∧ (State.setTc s a1 a2).reply = s.reply ∧ (State.setTc s a1 a2).out = s.out ∧ (State.setTc s a1 a2).freeCtr = s.freeCtr ∧ (State.setTc s a1 a2).aon = s.aon ∧ (State.setTc s a1 a2).cfg = s.cfg ∧ (State.setTc s a1 a2).pend = s.pend ∧ (State.setTc s a1 a2).events = s.events ∧ (State.setTc s a1 a2).host = s.host ∧ (State.setTc s a1 a2).treads = s.treads ∧ (State.setTc s a1 a2).cells = s.cells ∧ (State.setTc s a1 a2).flights = s.flights ∧ (State.setTc s a1 a2).halls = s.halls ∧ (State.setTc s a1 a2).grid = s.grid ∧ (State.setTc s a1 a2).atr = s.atr ∧ (State.setTc s a1 a2).treadsOld = s.treadsOld ∧ (State.setTc s a1 a2).meas = s.meas ∧ (State.setTc s a1 a2).safe = s.safe ∧ (State.setTc s a1 a2).therm = s.therm ∧ (State.setTc s a1 a2).twin = s.twin ∧ (State.setTc s a1 a2).stair = s.stair ∧ (State.setTc s a1 a2).nvm = s.nvm ∧ (State.setTc s a1 a2).streams = s.streams ∧ (State.setTc s a1 a2).mem = s.mem := by
  unfold State.setTc
  (try dsimp only)
  (repeat' split) <;> simp [apply_ite]

@[simp] theorem tcSet_frame (a0 : Nat) (a1 : BitVec 64) (a2 : Word) (a3 : Word) (s : State) :
    (tcSet a0 a1 a2 a3 s).2.pending = s.pending ∧ (tcSet a0 a1 a2 a3 s).2.reply = s.reply ∧ (tcSet a0 a1 a2 a3 s).2.out = s.out ∧ (tcSet a0 a1 a2 a3 s).2.freeCtr = s.freeCtr ∧ (tcSet a0 a1 a2 a3 s).2.aon = s.aon ∧ (tcSet a0 a1 a2 a3 s).2.cfg = s.cfg ∧ (tcSet a0 a1 a2 a3 s).2.pend = s.pend ∧ (tcSet a0 a1 a2 a3 s).2.events = s.events ∧ (tcSet a0 a1 a2 a3 s).2.host = s.host ∧ (tcSet a0 a1 a2 a3 s).2.treads = s.treads ∧ (tcSet a0 a1 a2 a3 s).2.cells = s.cells ∧ (tcSet a0 a1 a2 a3 s).2.flights = s.flights ∧ (tcSet a0 a1 a2 a3 s).2.halls = s.halls ∧ (tcSet a0 a1 a2 a3 s).2.grid = s.grid ∧ (tcSet a0 a1 a2 a3 s).2.atr = s.atr ∧ (tcSet a0 a1 a2 a3 s).2.treadsOld = s.treadsOld ∧ (tcSet a0 a1 a2 a3 s).2.meas = s.meas ∧ (tcSet a0 a1 a2 a3 s).2.safe = s.safe ∧ (tcSet a0 a1 a2 a3 s).2.therm = s.therm ∧ (tcSet a0 a1 a2 a3 s).2.twin = s.twin ∧ (tcSet a0 a1 a2 a3 s).2.stair = s.stair ∧ (tcSet a0 a1 a2 a3 s).2.nvm = s.nvm ∧ (tcSet a0 a1 a2 a3 s).2.streams = s.streams ∧ (tcSet a0 a1 a2 a3 s).2.mem = s.mem := by
  unfold tcSet
  (try dsimp only)
  (repeat' split) <;> simp [apply_ite]

theorem execTcSet_frame (a0 : List Word) (s t : State) (h : execTcSet a0 s = .next t) :
    t.pending = s.pending ∧ t.out = s.out ∧ t.freeCtr = s.freeCtr ∧ t.aon = s.aon ∧ t.cfg = s.cfg ∧ t.pend = s.pend ∧ t.events = s.events ∧ t.host = s.host ∧ t.treads = s.treads ∧ t.cells = s.cells ∧ t.flights = s.flights ∧ t.halls = s.halls ∧ t.grid = s.grid ∧ t.atr = s.atr ∧ t.treadsOld = s.treadsOld ∧ t.meas = s.meas ∧ t.safe = s.safe ∧ t.therm = s.therm ∧ t.twin = s.twin ∧ t.stair = s.stair ∧ t.nvm = s.nvm ∧ t.streams = s.streams ∧ t.mem = s.mem := by
  unfold execTcSet at h; cases h; (try dsimp only); (repeat' split) <;> simp [apply_ite]

@[simp] theorem pllWrite_frame (a0 : Nat) (a1 : Word) (s : State) :
    (pllWrite a0 a1 s).2.pending = s.pending ∧ (pllWrite a0 a1 s).2.reply = s.reply ∧ (pllWrite a0 a1 s).2.out = s.out ∧ (pllWrite a0 a1 s).2.freeCtr = s.freeCtr ∧ (pllWrite a0 a1 s).2.aon = s.aon ∧ (pllWrite a0 a1 s).2.cfg = s.cfg ∧ (pllWrite a0 a1 s).2.pend = s.pend ∧ (pllWrite a0 a1 s).2.events = s.events ∧ (pllWrite a0 a1 s).2.host = s.host ∧ (pllWrite a0 a1 s).2.treads = s.treads ∧ (pllWrite a0 a1 s).2.cells = s.cells ∧ (pllWrite a0 a1 s).2.flights = s.flights ∧ (pllWrite a0 a1 s).2.halls = s.halls ∧ (pllWrite a0 a1 s).2.grid = s.grid ∧ (pllWrite a0 a1 s).2.atr = s.atr ∧ (pllWrite a0 a1 s).2.treadsOld = s.treadsOld ∧ (pllWrite a0 a1 s).2.meas = s.meas ∧ (pllWrite a0 a1 s).2.safe = s.safe ∧ (pllWrite a0 a1 s).2.therm = s.therm ∧ (pllWrite a0 a1 s).2.twin = s.twin ∧ (pllWrite a0 a1 s).2.stair = s.stair ∧ (pllWrite a0 a1 s).2.nvm = s.nvm ∧ (pllWrite a0 a1 s).2.streams = s.streams ∧ (pllWrite a0 a1 s).2.mem = s.mem := by
  unfold pllWrite
  (try dsimp only)
  (repeat' split) <;> simp [apply_ite]

@[simp] theorem pllPairs_frame (a0 : List Word) (s : State) :
    (pllPairs a0 s).2.pending = s.pending ∧ (pllPairs a0 s).2.reply = s.reply ∧ (pllPairs a0 s).2.out = s.out ∧ (pllPairs a0 s).2.freeCtr = s.freeCtr ∧ (pllPairs a0 s).2.aon = s.aon ∧ (pllPairs a0 s).2.cfg = s.cfg ∧ (pllPairs a0 s).2.pend = s.pend ∧ (pllPairs a0 s).2.events = s.events ∧ (pllPairs a0 s).2.host = s.host ∧ (pllPairs a0 s).2.treads = s.treads ∧ (pllPairs a0 s).2.cells = s.cells ∧ (pllPairs a0 s).2.flights = s.flights ∧ (pllPairs a0 s).2.halls = s.halls ∧ (pllPairs a0 s).2.grid = s.grid ∧ (pllPairs a0 s).2.atr = s.atr ∧ (pllPairs a0 s).2.treadsOld = s.treadsOld ∧ (pllPairs a0 s).2.meas = s.meas ∧ (pllPairs a0 s).2.safe = s.safe ∧ (pllPairs a0 s).2.therm = s.therm ∧ (pllPairs a0 s).2.twin = s.twin ∧ (pllPairs a0 s).2.stair = s.stair ∧ (pllPairs a0 s).2.nvm = s.nvm ∧ (pllPairs a0 s).2.streams = s.streams ∧ (pllPairs a0 s).2.mem = s.mem := by
  induction a0 using List.twoStepInduction generalizing s with
  | nil => simp [pllPairs]
  | singleton x => simp [pllPairs]
  | cons_cons x y l ih _ =>
    unfold pllPairs; dsimp only
    by_cases c : 4 ≤ x.toNat <;> simp [c, ih]

theorem execPllSet_frame (a0 : List Word) (s t : State) (h : execPllSet a0 s = .next t) :
    t.pending = s.pending ∧ t.out = s.out ∧ t.freeCtr = s.freeCtr ∧ t.aon = s.aon ∧ t.cfg = s.cfg ∧ t.pend = s.pend ∧ t.events = s.events ∧ t.host = s.host ∧ t.treads = s.treads ∧ t.cells = s.cells ∧ t.flights = s.flights ∧ t.halls = s.halls ∧ t.grid = s.grid ∧ t.atr = s.atr ∧ t.treadsOld = s.treadsOld ∧ t.meas = s.meas ∧ t.safe = s.safe ∧ t.therm = s.therm ∧ t.twin = s.twin ∧ t.stair = s.stair ∧ t.nvm = s.nvm ∧ t.streams = s.streams ∧ t.mem = s.mem := by
  unfold execPllSet at h; cases h; (try dsimp only); (repeat' split) <;> simp [apply_ite]

@[simp] theorem dsdRestart_frame (a0 : Nat) (s : State) :
    (dsdRestart a0 s).pending = s.pending ∧ (dsdRestart a0 s).reply = s.reply ∧ (dsdRestart a0 s).out = s.out ∧ (dsdRestart a0 s).freeCtr = s.freeCtr ∧ (dsdRestart a0 s).aon = s.aon ∧ (dsdRestart a0 s).cfg = s.cfg ∧ (dsdRestart a0 s).pend = s.pend ∧ (dsdRestart a0 s).tb = s.tb ∧ (dsdRestart a0 s).events = s.events ∧ (dsdRestart a0 s).host = s.host ∧ (dsdRestart a0 s).treads = s.treads ∧ (dsdRestart a0 s).cells = s.cells ∧ (dsdRestart a0 s).flights = s.flights ∧ (dsdRestart a0 s).halls = s.halls ∧ (dsdRestart a0 s).grid = s.grid ∧ (dsdRestart a0 s).atr = s.atr ∧ (dsdRestart a0 s).treadsOld = s.treadsOld ∧ (dsdRestart a0 s).safe = s.safe ∧ (dsdRestart a0 s).therm = s.therm ∧ (dsdRestart a0 s).twin = s.twin ∧ (dsdRestart a0 s).stair = s.stair ∧ (dsdRestart a0 s).nvm = s.nvm ∧ (dsdRestart a0 s).streams = s.streams ∧ (dsdRestart a0 s).mem = s.mem := by
  unfold dsdRestart
  (try dsimp only)
  (repeat' split) <;> simp [apply_ite]

@[simp] theorem pllCommit_frame (s : State) :
    (pllCommit s).pending = s.pending ∧ (pllCommit s).reply = s.reply ∧ (pllCommit s).out = s.out ∧ (pllCommit s).freeCtr = s.freeCtr ∧ (pllCommit s).aon = s.aon ∧ (pllCommit s).cfg = s.cfg ∧ (pllCommit s).pend = s.pend ∧ (pllCommit s).events = s.events ∧ (pllCommit s).host = s.host ∧ (pllCommit s).treads = s.treads ∧ (pllCommit s).cells = s.cells ∧ (pllCommit s).flights = s.flights ∧ (pllCommit s).halls = s.halls ∧ (pllCommit s).grid = s.grid ∧ (pllCommit s).atr = s.atr ∧ (pllCommit s).treadsOld = s.treadsOld ∧ (pllCommit s).safe = s.safe ∧ (pllCommit s).therm = s.therm ∧ (pllCommit s).twin = s.twin ∧ (pllCommit s).stair = s.stair ∧ (pllCommit s).nvm = s.nvm ∧ (pllCommit s).streams = s.streams ∧ (pllCommit s).mem = s.mem := by
  unfold pllCommit
  (try dsimp only)
  (repeat' split) <;> simp [apply_ite]

theorem execPllCommit_frame (a0 : List Word) (s t : State) (h : execPllCommit a0 s = .next t) :
    t.pending = s.pending ∧ t.out = s.out ∧ t.freeCtr = s.freeCtr ∧ t.aon = s.aon ∧ t.cfg = s.cfg ∧ t.pend = s.pend ∧ t.events = s.events ∧ t.host = s.host ∧ t.treads = s.treads ∧ t.cells = s.cells ∧ t.flights = s.flights ∧ t.halls = s.halls ∧ t.grid = s.grid ∧ t.atr = s.atr ∧ t.treadsOld = s.treadsOld ∧ t.safe = s.safe ∧ t.therm = s.therm ∧ t.twin = s.twin ∧ t.stair = s.stair ∧ t.nvm = s.nvm ∧ t.streams = s.streams ∧ t.mem = s.mem := by
  unfold execPllCommit at h; cases h; (try dsimp only); (repeat' split) <;> simp [apply_ite]

@[simp] theorem coast_frame (a0 : Bool) (s : State) :
    (coast a0 s).pending = s.pending ∧ (coast a0 s).reply = s.reply ∧ (coast a0 s).freeCtr = s.freeCtr ∧ (coast a0 s).cfg = s.cfg ∧ (coast a0 s).pend = s.pend ∧ (coast a0 s).treads = s.treads ∧ (coast a0 s).cells = s.cells ∧ (coast a0 s).flights = s.flights ∧ (coast a0 s).halls = s.halls ∧ (coast a0 s).grid = s.grid ∧ (coast a0 s).treadsOld = s.treadsOld ∧ (coast a0 s).meas = s.meas ∧ (coast a0 s).safe = s.safe ∧ (coast a0 s).therm = s.therm ∧ (coast a0 s).twin = s.twin ∧ (coast a0 s).stair = s.stair ∧ (coast a0 s).nvm = s.nvm ∧ (coast a0 s).streams = s.streams ∧ (coast a0 s).mem = s.mem := by
  unfold coast
  (try dsimp only)
  (repeat' split) <;> simp [apply_ite]

theorem execRefLoss_frame (s t : State) (h : execRefLoss s = .next t) :
    t.pending = s.pending ∧ t.reply = s.reply ∧ t.freeCtr = s.freeCtr ∧ t.cfg = s.cfg ∧ t.pend = s.pend ∧ t.treads = s.treads ∧ t.cells = s.cells ∧ t.flights = s.flights ∧ t.halls = s.halls ∧ t.grid = s.grid ∧ t.treadsOld = s.treadsOld ∧ t.meas = s.meas ∧ t.safe = s.safe ∧ t.therm = s.therm ∧ t.twin = s.twin ∧ t.stair = s.stair ∧ t.nvm = s.nvm ∧ t.streams = s.streams ∧ t.mem = s.mem := by
  unfold execRefLoss at h; cases h; (try dsimp only); (repeat' split) <;> simp [apply_ite]

theorem execPlltUnlock_frame (s t : State) (h : execPlltUnlock s = .next t) :
    t.pending = s.pending ∧ t.reply = s.reply ∧ t.freeCtr = s.freeCtr ∧ t.cfg = s.cfg ∧ t.pend = s.pend ∧ t.treads = s.treads ∧ t.cells = s.cells ∧ t.flights = s.flights ∧ t.halls = s.halls ∧ t.grid = s.grid ∧ t.treadsOld = s.treadsOld ∧ t.meas = s.meas ∧ t.safe = s.safe ∧ t.therm = s.therm ∧ t.twin = s.twin ∧ t.stair = s.stair ∧ t.nvm = s.nvm ∧ t.streams = s.streams ∧ t.mem = s.mem := by
  unfold execPlltUnlock at h; cases h; (try dsimp only); (repeat' split) <;> simp [apply_ite]

theorem execPlllUnlock_frame (s t : State) (h : execPlllUnlock s = .next t) :
    t.pending = s.pending ∧ t.reply = s.reply ∧ t.freeCtr = s.freeCtr ∧ t.cfg = s.cfg ∧ t.pend = s.pend ∧ t.treads = s.treads ∧ t.cells = s.cells ∧ t.flights = s.flights ∧ t.halls = s.halls ∧ t.grid = s.grid ∧ t.treadsOld = s.treadsOld ∧ t.meas = s.meas ∧ t.safe = s.safe ∧ t.therm = s.therm ∧ t.twin = s.twin ∧ t.stair = s.stair ∧ t.nvm = s.nvm ∧ t.streams = s.streams ∧ t.mem = s.mem := by
  unfold execPlllUnlock at h; cases h; (try dsimp only); (repeat' split) <;> simp [apply_ite]

theorem execReferenceReturn_frame (s t : State) (h : execReferenceReturn s = .next t) :
    t.pending = s.pending ∧ t.reply = s.reply ∧ t.out = s.out ∧ t.freeCtr = s.freeCtr ∧ t.aon = s.aon ∧ t.cfg = s.cfg ∧ t.pend = s.pend ∧ t.events = s.events ∧ t.host = s.host ∧ t.treads = s.treads ∧ t.cells = s.cells ∧ t.flights = s.flights ∧ t.halls = s.halls ∧ t.grid = s.grid ∧ t.atr = s.atr ∧ t.treadsOld = s.treadsOld ∧ t.meas = s.meas ∧ t.safe = s.safe ∧ t.therm = s.therm ∧ t.twin = s.twin ∧ t.stair = s.stair ∧ t.nvm = s.nvm ∧ t.streams = s.streams ∧ t.mem = s.mem := by
  unfold execReferenceReturn at h; cases h; (try dsimp only); (repeat' split) <;> simp [apply_ite]

theorem execPllRelock_frame (a0 : Bool) (s t : State) (h : execPllRelock a0 s = .next t) :
    t.pending = s.pending ∧ t.reply = s.reply ∧ t.out = s.out ∧ t.freeCtr = s.freeCtr ∧ t.aon = s.aon ∧ t.cfg = s.cfg ∧ t.pend = s.pend ∧ t.events = s.events ∧ t.host = s.host ∧ t.treads = s.treads ∧ t.cells = s.cells ∧ t.flights = s.flights ∧ t.halls = s.halls ∧ t.grid = s.grid ∧ t.atr = s.atr ∧ t.treadsOld = s.treadsOld ∧ t.meas = s.meas ∧ t.safe = s.safe ∧ t.therm = s.therm ∧ t.twin = s.twin ∧ t.stair = s.stair ∧ t.nvm = s.nvm ∧ t.streams = s.streams ∧ t.mem = s.mem := by
  unfold execPllRelock at h; cases h; (try dsimp only); (repeat' split) <;> simp [apply_ite]

@[simp] theorem clearUntrusted_frame (s : State) :
    (clearUntrusted s).pending = s.pending ∧ (clearUntrusted s).reply = s.reply ∧ (clearUntrusted s).out = s.out ∧ (clearUntrusted s).freeCtr = s.freeCtr ∧ (clearUntrusted s).aon = s.aon ∧ (clearUntrusted s).cfg = s.cfg ∧ (clearUntrusted s).pend = s.pend ∧ (clearUntrusted s).events = s.events ∧ (clearUntrusted s).host = s.host ∧ (clearUntrusted s).treads = s.treads ∧ (clearUntrusted s).cells = s.cells ∧ (clearUntrusted s).flights = s.flights ∧ (clearUntrusted s).halls = s.halls ∧ (clearUntrusted s).grid = s.grid ∧ (clearUntrusted s).atr = s.atr ∧ (clearUntrusted s).treadsOld = s.treadsOld ∧ (clearUntrusted s).meas = s.meas ∧ (clearUntrusted s).safe = s.safe ∧ (clearUntrusted s).therm = s.therm ∧ (clearUntrusted s).twin = s.twin ∧ (clearUntrusted s).stair = s.stair ∧ (clearUntrusted s).nvm = s.nvm ∧ (clearUntrusted s).streams = s.streams ∧ (clearUntrusted s).mem = s.mem := by
  unfold clearUntrusted
  (try dsimp only)
  (repeat' split) <;> simp [apply_ite]

theorem execUntrustedClear_frame (s t : State) (h : execUntrustedClear s = .next t) :
    t.pending = s.pending ∧ t.reply = s.reply ∧ t.out = s.out ∧ t.freeCtr = s.freeCtr ∧ t.aon = s.aon ∧ t.cfg = s.cfg ∧ t.pend = s.pend ∧ t.events = s.events ∧ t.host = s.host ∧ t.treads = s.treads ∧ t.cells = s.cells ∧ t.flights = s.flights ∧ t.halls = s.halls ∧ t.grid = s.grid ∧ t.atr = s.atr ∧ t.treadsOld = s.treadsOld ∧ t.meas = s.meas ∧ t.safe = s.safe ∧ t.therm = s.therm ∧ t.twin = s.twin ∧ t.stair = s.stair ∧ t.nvm = s.nvm ∧ t.streams = s.streams ∧ t.mem = s.mem := by
  unfold execUntrustedClear at h; cases h; (try dsimp only); (repeat' split) <;> simp [apply_ite]

theorem execSyncOutPulse_frame (s t : State) (h : execSyncOutPulse s = .next t) :
    t.pending = s.pending ∧ t.reply = s.reply ∧ t.out = s.out ∧ t.freeCtr = s.freeCtr ∧ t.aon = s.aon ∧ t.cfg = s.cfg ∧ t.pend = s.pend ∧ t.events = s.events ∧ t.host = s.host ∧ t.treads = s.treads ∧ t.cells = s.cells ∧ t.flights = s.flights ∧ t.halls = s.halls ∧ t.grid = s.grid ∧ t.atr = s.atr ∧ t.treadsOld = s.treadsOld ∧ t.meas = s.meas ∧ t.safe = s.safe ∧ t.therm = s.therm ∧ t.twin = s.twin ∧ t.stair = s.stair ∧ t.nvm = s.nvm ∧ t.streams = s.streams ∧ t.mem = s.mem := by
  unfold execSyncOutPulse at h; cases h; (try dsimp only); (repeat' split) <;> simp [apply_ite]

theorem execSyncOutPulseEnd_frame (s t : State) (h : execSyncOutPulseEnd s = .next t) :
    t.pending = s.pending ∧ t.reply = s.reply ∧ t.out = s.out ∧ t.freeCtr = s.freeCtr ∧ t.aon = s.aon ∧ t.cfg = s.cfg ∧ t.pend = s.pend ∧ t.events = s.events ∧ t.host = s.host ∧ t.treads = s.treads ∧ t.cells = s.cells ∧ t.flights = s.flights ∧ t.halls = s.halls ∧ t.grid = s.grid ∧ t.atr = s.atr ∧ t.treadsOld = s.treadsOld ∧ t.meas = s.meas ∧ t.safe = s.safe ∧ t.therm = s.therm ∧ t.twin = s.twin ∧ t.stair = s.stair ∧ t.nvm = s.nvm ∧ t.streams = s.streams ∧ t.mem = s.mem := by
  unfold execSyncOutPulseEnd at h; cases h; (try dsimp only); (repeat' split) <;> simp [apply_ite]

@[simp] theorem ptpTs_frame (a0 : Nat) (s : State) :
    (ptpTs a0 s).pending = s.pending ∧ (ptpTs a0 s).reply = s.reply ∧ (ptpTs a0 s).freeCtr = s.freeCtr ∧ (ptpTs a0 s).cfg = s.cfg ∧ (ptpTs a0 s).pend = s.pend ∧ (ptpTs a0 s).tb = s.tb ∧ (ptpTs a0 s).treads = s.treads ∧ (ptpTs a0 s).cells = s.cells ∧ (ptpTs a0 s).flights = s.flights ∧ (ptpTs a0 s).halls = s.halls ∧ (ptpTs a0 s).grid = s.grid ∧ (ptpTs a0 s).treadsOld = s.treadsOld ∧ (ptpTs a0 s).meas = s.meas ∧ (ptpTs a0 s).safe = s.safe ∧ (ptpTs a0 s).therm = s.therm ∧ (ptpTs a0 s).twin = s.twin ∧ (ptpTs a0 s).stair = s.stair ∧ (ptpTs a0 s).nvm = s.nvm ∧ (ptpTs a0 s).streams = s.streams ∧ (ptpTs a0 s).mem = s.mem := by
  unfold ptpTs
  (try dsimp only)
  (repeat' split) <;> simp [apply_ite]

theorem execSyncInEdge_frame (a0 : BitVec 64) (a1 : Word) (s t : State) (h : execSyncInEdge a0 a1 s = .next t) :
    t.pending = s.pending ∧ t.reply = s.reply ∧ t.freeCtr = s.freeCtr ∧ t.cfg = s.cfg ∧ t.pend = s.pend ∧ t.treads = s.treads ∧ t.cells = s.cells ∧ t.flights = s.flights ∧ t.halls = s.halls ∧ t.grid = s.grid ∧ t.treadsOld = s.treadsOld ∧ t.meas = s.meas ∧ t.safe = s.safe ∧ t.therm = s.therm ∧ t.twin = s.twin ∧ t.stair = s.stair ∧ t.nvm = s.nvm ∧ t.streams = s.streams ∧ t.mem = s.mem := by
  unfold execSyncInEdge at h; cases h; (try dsimp only); (repeat' split) <;> simp [apply_ite]

theorem execGpioPulseEnd_frame (a0 : Fin 16) (s t : State) (h : execGpioPulseEnd a0 s = .next t) :
    t.pending = s.pending ∧ t.reply = s.reply ∧ t.out = s.out ∧ t.freeCtr = s.freeCtr ∧ t.aon = s.aon ∧ t.cfg = s.cfg ∧ t.pend = s.pend ∧ t.events = s.events ∧ t.host = s.host ∧ t.treads = s.treads ∧ t.cells = s.cells ∧ t.flights = s.flights ∧ t.halls = s.halls ∧ t.grid = s.grid ∧ t.treadsOld = s.treadsOld ∧ t.meas = s.meas ∧ t.safe = s.safe ∧ t.therm = s.therm ∧ t.twin = s.twin ∧ t.stair = s.stair ∧ t.nvm = s.nvm ∧ t.streams = s.streams ∧ t.mem = s.mem := by
  unfold execGpioPulseEnd at h; cases h; (try dsimp only); (repeat' split) <;> simp [apply_ite]

@[simp] theorem discardFrame_frame (s : State) :
    (discardFrame s).pending = s.pending ∧ (discardFrame s).reply = s.reply ∧ (discardFrame s).out = s.out ∧ (discardFrame s).freeCtr = s.freeCtr ∧ (discardFrame s).aon = s.aon ∧ (discardFrame s).cfg = s.cfg ∧ (discardFrame s).pend = s.pend ∧ (discardFrame s).tb = s.tb ∧ (discardFrame s).events = s.events ∧ (discardFrame s).treads = s.treads ∧ (discardFrame s).cells = s.cells ∧ (discardFrame s).flights = s.flights ∧ (discardFrame s).halls = s.halls ∧ (discardFrame s).grid = s.grid ∧ (discardFrame s).atr = s.atr ∧ (discardFrame s).treadsOld = s.treadsOld ∧ (discardFrame s).meas = s.meas ∧ (discardFrame s).safe = s.safe ∧ (discardFrame s).therm = s.therm ∧ (discardFrame s).twin = s.twin ∧ (discardFrame s).stair = s.stair ∧ (discardFrame s).nvm = s.nvm ∧ (discardFrame s).streams = s.streams ∧ (discardFrame s).mem = s.mem := by
  unfold discardFrame
  (try dsimp only)
  (repeat' split) <;> simp [apply_ite]

theorem execPtpFrameRx_frame (a0 : Word) (a1 : BitVec 16) (a2 : NetAddr) (a3 : BitVec 64) (a4 : Word) (a5 : List Byte) (s t : State) (h : execPtpFrameRx a0 a1 a2 a3 a4 a5 s = .next t) :
    t.pending = s.pending ∧ t.reply = s.reply ∧ t.freeCtr = s.freeCtr ∧ t.cfg = s.cfg ∧ t.pend = s.pend ∧ t.tb = s.tb ∧ t.treads = s.treads ∧ t.cells = s.cells ∧ t.flights = s.flights ∧ t.halls = s.halls ∧ t.grid = s.grid ∧ t.treadsOld = s.treadsOld ∧ t.meas = s.meas ∧ t.safe = s.safe ∧ t.therm = s.therm ∧ t.twin = s.twin ∧ t.stair = s.stair ∧ t.nvm = s.nvm ∧ t.streams = s.streams ∧ t.mem = s.mem := by
  unfold execPtpFrameRx at h; cases h; (try dsimp only); (repeat' split) <;> simp [apply_ite]

@[simp] theorem ptpGo_frame (a0 : Nat) (s : State) :
    (ptpGo a0 s).pending = s.pending ∧ (ptpGo a0 s).reply = s.reply ∧ (ptpGo a0 s).out = s.out ∧ (ptpGo a0 s).freeCtr = s.freeCtr ∧ (ptpGo a0 s).aon = s.aon ∧ (ptpGo a0 s).cfg = s.cfg ∧ (ptpGo a0 s).pend = s.pend ∧ (ptpGo a0 s).tb = s.tb ∧ (ptpGo a0 s).events = s.events ∧ (ptpGo a0 s).treads = s.treads ∧ (ptpGo a0 s).cells = s.cells ∧ (ptpGo a0 s).flights = s.flights ∧ (ptpGo a0 s).halls = s.halls ∧ (ptpGo a0 s).grid = s.grid ∧ (ptpGo a0 s).atr = s.atr ∧ (ptpGo a0 s).treadsOld = s.treadsOld ∧ (ptpGo a0 s).meas = s.meas ∧ (ptpGo a0 s).safe = s.safe ∧ (ptpGo a0 s).therm = s.therm ∧ (ptpGo a0 s).twin = s.twin ∧ (ptpGo a0 s).stair = s.stair ∧ (ptpGo a0 s).nvm = s.nvm ∧ (ptpGo a0 s).streams = s.streams ∧ (ptpGo a0 s).mem = s.mem := by
  unfold ptpGo
  (try dsimp only)
  (repeat' split) <;> simp [apply_ite]

theorem execPtpTxGo_frame (a0 : Fin 4) (s t : State) (h : execPtpTxGo a0 s = .next t) :
    t.pending = s.pending ∧ t.reply = s.reply ∧ t.out = s.out ∧ t.freeCtr = s.freeCtr ∧ t.aon = s.aon ∧ t.cfg = s.cfg ∧ t.pend = s.pend ∧ t.tb = s.tb ∧ t.events = s.events ∧ t.treads = s.treads ∧ t.cells = s.cells ∧ t.flights = s.flights ∧ t.halls = s.halls ∧ t.grid = s.grid ∧ t.atr = s.atr ∧ t.treadsOld = s.treadsOld ∧ t.meas = s.meas ∧ t.safe = s.safe ∧ t.therm = s.therm ∧ t.twin = s.twin ∧ t.stair = s.stair ∧ t.nvm = s.nvm ∧ t.streams = s.streams ∧ t.mem = s.mem := by
  unfold execPtpTxGo at h; cases h; (try dsimp only); (repeat' split) <;> simp [apply_ite]

theorem execPtpTxDone_frame (a0 : Fin 4) (s t : State) (h : execPtpTxDone a0 s = .next t) :
    t.pending = s.pending ∧ t.reply = s.reply ∧ t.freeCtr = s.freeCtr ∧ t.cfg = s.cfg ∧ t.pend = s.pend ∧ t.tb = s.tb ∧ t.treads = s.treads ∧ t.cells = s.cells ∧ t.flights = s.flights ∧ t.halls = s.halls ∧ t.grid = s.grid ∧ t.treadsOld = s.treadsOld ∧ t.meas = s.meas ∧ t.safe = s.safe ∧ t.therm = s.therm ∧ t.twin = s.twin ∧ t.stair = s.stair ∧ t.nvm = s.nvm ∧ t.streams = s.streams ∧ t.mem = s.mem := by
  unfold execPtpTxDone at h; cases h; dsimp only
  refine ⟨?_, ?_, ?_, ?_, ?_, ?_, ?_, ?_, ?_, ?_, ?_, ?_, ?_, ?_, ?_, ?_, ?_, ?_, ?_, ?_⟩
  · split
    · simp only [ptpTs_frame, emit_frame]
    · rfl
  · split
    · simp only [ptpTs_frame, emit_frame]
    · rfl
  · split
    · simp only [ptpTs_frame, emit_frame]
    · rfl
  · split
    · simp only [ptpTs_frame, emit_frame]
    · rfl
  · split
    · simp only [ptpTs_frame, emit_frame]
    · rfl
  · split
    · simp only [ptpTs_frame, emit_frame]
    · rfl
  · split
    · simp only [ptpTs_frame, emit_frame]
    · rfl
  · split
    · simp only [ptpTs_frame, emit_frame]
    · rfl
  · split
    · simp only [ptpTs_frame, emit_frame]
    · rfl
  · split
    · simp only [ptpTs_frame, emit_frame]
    · rfl
  · split
    · simp only [ptpTs_frame, emit_frame]
    · rfl
  · split
    · simp only [ptpTs_frame, emit_frame]
    · rfl
  · split
    · simp only [ptpTs_frame, emit_frame]
    · rfl
  · split
    · simp only [ptpTs_frame, emit_frame]
    · rfl
  · split
    · simp only [ptpTs_frame, emit_frame]
    · rfl
  · split
    · simp only [ptpTs_frame, emit_frame]
    · rfl
  · split
    · simp only [ptpTs_frame, emit_frame]
    · rfl
  · split
    · simp only [ptpTs_frame, emit_frame]
    · rfl
  · split
    · simp only [ptpTs_frame, emit_frame]
    · rfl
  · split
    · simp only [ptpTs_frame, emit_frame]
    · rfl

@[simp] theorem sendReplyAt_frame (a0 : Nat) (a1 : Pkt) (a2 : Reply) (s : State) :
    (sendReplyAt a0 a1 a2 s).pending = s.pending ∧ (sendReplyAt a0 a1 a2 s).reply = s.reply ∧ (sendReplyAt a0 a1 a2 s).freeCtr = s.freeCtr ∧ (sendReplyAt a0 a1 a2 s).cfg = s.cfg ∧ (sendReplyAt a0 a1 a2 s).pend = s.pend ∧ (sendReplyAt a0 a1 a2 s).tb = s.tb ∧ (sendReplyAt a0 a1 a2 s).events = s.events ∧ (sendReplyAt a0 a1 a2 s).treads = s.treads ∧ (sendReplyAt a0 a1 a2 s).cells = s.cells ∧ (sendReplyAt a0 a1 a2 s).flights = s.flights ∧ (sendReplyAt a0 a1 a2 s).halls = s.halls ∧ (sendReplyAt a0 a1 a2 s).grid = s.grid ∧ (sendReplyAt a0 a1 a2 s).atr = s.atr ∧ (sendReplyAt a0 a1 a2 s).treadsOld = s.treadsOld ∧ (sendReplyAt a0 a1 a2 s).meas = s.meas ∧ (sendReplyAt a0 a1 a2 s).safe = s.safe ∧ (sendReplyAt a0 a1 a2 s).therm = s.therm ∧ (sendReplyAt a0 a1 a2 s).twin = s.twin ∧ (sendReplyAt a0 a1 a2 s).stair = s.stair ∧ (sendReplyAt a0 a1 a2 s).nvm = s.nvm ∧ (sendReplyAt a0 a1 a2 s).streams = s.streams ∧ (sendReplyAt a0 a1 a2 s).mem = s.mem := by
  unfold sendReplyAt
  (try dsimp only)
  (repeat' split) <;> simp [apply_ite]

@[simp] theorem sendReply_frame (a0 : Pkt) (a1 : Reply) (s : State) :
    (sendReply a0 a1 s).pending = s.pending ∧ (sendReply a0 a1 s).reply = s.reply ∧ (sendReply a0 a1 s).freeCtr = s.freeCtr ∧ (sendReply a0 a1 s).cfg = s.cfg ∧ (sendReply a0 a1 s).pend = s.pend ∧ (sendReply a0 a1 s).tb = s.tb ∧ (sendReply a0 a1 s).events = s.events ∧ (sendReply a0 a1 s).treads = s.treads ∧ (sendReply a0 a1 s).cells = s.cells ∧ (sendReply a0 a1 s).flights = s.flights ∧ (sendReply a0 a1 s).halls = s.halls ∧ (sendReply a0 a1 s).grid = s.grid ∧ (sendReply a0 a1 s).atr = s.atr ∧ (sendReply a0 a1 s).treadsOld = s.treadsOld ∧ (sendReply a0 a1 s).meas = s.meas ∧ (sendReply a0 a1 s).safe = s.safe ∧ (sendReply a0 a1 s).therm = s.therm ∧ (sendReply a0 a1 s).twin = s.twin ∧ (sendReply a0 a1 s).stair = s.stair ∧ (sendReply a0 a1 s).nvm = s.nvm ∧ (sendReply a0 a1 s).streams = s.streams ∧ (sendReply a0 a1 s).mem = s.mem := by
  unfold sendReply
  (try dsimp only)
  (repeat' split) <;> simp [apply_ite]

@[simp] theorem State.setQueue_frame (s : State) (a1 : Nat) (a2 : Queue → Queue) :
    (State.setQueue s a1 a2).pending = s.pending ∧ (State.setQueue s a1 a2).reply = s.reply ∧ (State.setQueue s a1 a2).out = s.out ∧ (State.setQueue s a1 a2).freeCtr = s.freeCtr ∧ (State.setQueue s a1 a2).aon = s.aon ∧ (State.setQueue s a1 a2).cfg = s.cfg ∧ (State.setQueue s a1 a2).pend = s.pend ∧ (State.setQueue s a1 a2).tb = s.tb ∧ (State.setQueue s a1 a2).events = s.events ∧ (State.setQueue s a1 a2).treads = s.treads ∧ (State.setQueue s a1 a2).cells = s.cells ∧ (State.setQueue s a1 a2).flights = s.flights ∧ (State.setQueue s a1 a2).halls = s.halls ∧ (State.setQueue s a1 a2).grid = s.grid ∧ (State.setQueue s a1 a2).atr = s.atr ∧ (State.setQueue s a1 a2).treadsOld = s.treadsOld ∧ (State.setQueue s a1 a2).meas = s.meas ∧ (State.setQueue s a1 a2).safe = s.safe ∧ (State.setQueue s a1 a2).therm = s.therm ∧ (State.setQueue s a1 a2).twin = s.twin ∧ (State.setQueue s a1 a2).stair = s.stair ∧ (State.setQueue s a1 a2).nvm = s.nvm ∧ (State.setQueue s a1 a2).streams = s.streams ∧ (State.setQueue s a1 a2).mem = s.mem := by
  unfold State.setQueue
  (try dsimp only)
  (repeat' split) <;> simp [apply_ite]

@[simp] theorem answer_frame (a0 : Pkt) (a1 : Reply) (s : State) :
    (answer a0 a1 s).pending = s.pending ∧ (answer a0 a1 s).reply = s.reply ∧ (answer a0 a1 s).freeCtr = s.freeCtr ∧ (answer a0 a1 s).cfg = s.cfg ∧ (answer a0 a1 s).pend = s.pend ∧ (answer a0 a1 s).tb = s.tb ∧ (answer a0 a1 s).events = s.events ∧ (answer a0 a1 s).treads = s.treads ∧ (answer a0 a1 s).cells = s.cells ∧ (answer a0 a1 s).flights = s.flights ∧ (answer a0 a1 s).halls = s.halls ∧ (answer a0 a1 s).grid = s.grid ∧ (answer a0 a1 s).atr = s.atr ∧ (answer a0 a1 s).treadsOld = s.treadsOld ∧ (answer a0 a1 s).meas = s.meas ∧ (answer a0 a1 s).safe = s.safe ∧ (answer a0 a1 s).therm = s.therm ∧ (answer a0 a1 s).twin = s.twin ∧ (answer a0 a1 s).stair = s.stair ∧ (answer a0 a1 s).nvm = s.nvm ∧ (answer a0 a1 s).streams = s.streams ∧ (answer a0 a1 s).mem = s.mem := by
  unfold answer
  (try dsimp only)
  (repeat' split) <;> simp [apply_ite]

@[simp] theorem finish_frame (a0 : Option Pkt) (a1 : Reply) (s : State) :
    (finish a0 a1 s).pending = s.pending ∧ (finish a0 a1 s).freeCtr = s.freeCtr ∧ (finish a0 a1 s).cfg = s.cfg ∧ (finish a0 a1 s).pend = s.pend ∧ (finish a0 a1 s).tb = s.tb ∧ (finish a0 a1 s).events = s.events ∧ (finish a0 a1 s).treads = s.treads ∧ (finish a0 a1 s).cells = s.cells ∧ (finish a0 a1 s).flights = s.flights ∧ (finish a0 a1 s).halls = s.halls ∧ (finish a0 a1 s).grid = s.grid ∧ (finish a0 a1 s).atr = s.atr ∧ (finish a0 a1 s).treadsOld = s.treadsOld ∧ (finish a0 a1 s).meas = s.meas ∧ (finish a0 a1 s).safe = s.safe ∧ (finish a0 a1 s).therm = s.therm ∧ (finish a0 a1 s).twin = s.twin ∧ (finish a0 a1 s).stair = s.stair ∧ (finish a0 a1 s).nvm = s.nvm ∧ (finish a0 a1 s).streams = s.streams ∧ (finish a0 a1 s).mem = s.mem := by
  unfold finish
  (try dsimp only)
  (repeat' split) <;> simp [apply_ite]

@[simp] theorem wait_frame (s : State) :
    (wait s).pending = s.pending ∧ (wait s).out = s.out ∧ (wait s).freeCtr = s.freeCtr ∧ (wait s).aon = s.aon ∧ (wait s).cfg = s.cfg ∧ (wait s).pend = s.pend ∧ (wait s).tb = s.tb ∧ (wait s).events = s.events ∧ (wait s).host = s.host ∧ (wait s).treads = s.treads ∧ (wait s).cells = s.cells ∧ (wait s).flights = s.flights ∧ (wait s).halls = s.halls ∧ (wait s).grid = s.grid ∧ (wait s).atr = s.atr ∧ (wait s).treadsOld = s.treadsOld ∧ (wait s).meas = s.meas ∧ (wait s).safe = s.safe ∧ (wait s).therm = s.therm ∧ (wait s).twin = s.twin ∧ (wait s).stair = s.stair ∧ (wait s).nvm = s.nvm ∧ (wait s).streams = s.streams ∧ (wait s).mem = s.mem := by
  unfold wait
  (try dsimp only)
  (repeat' split) <;> simp [apply_ite]

@[simp] theorem turnAway_frame (a0 : Pkt) (a1 : Status) (a2 : List Word) (s : State) :
    (turnAway a0 a1 a2 s).pending = s.pending ∧ (turnAway a0 a1 a2 s).freeCtr = s.freeCtr ∧ (turnAway a0 a1 a2 s).cfg = s.cfg ∧ (turnAway a0 a1 a2 s).pend = s.pend ∧ (turnAway a0 a1 a2 s).tb = s.tb ∧ (turnAway a0 a1 a2 s).events = s.events ∧ (turnAway a0 a1 a2 s).treads = s.treads ∧ (turnAway a0 a1 a2 s).cells = s.cells ∧ (turnAway a0 a1 a2 s).flights = s.flights ∧ (turnAway a0 a1 a2 s).halls = s.halls ∧ (turnAway a0 a1 a2 s).grid = s.grid ∧ (turnAway a0 a1 a2 s).atr = s.atr ∧ (turnAway a0 a1 a2 s).treadsOld = s.treadsOld ∧ (turnAway a0 a1 a2 s).meas = s.meas ∧ (turnAway a0 a1 a2 s).safe = s.safe ∧ (turnAway a0 a1 a2 s).therm = s.therm ∧ (turnAway a0 a1 a2 s).twin = s.twin ∧ (turnAway a0 a1 a2 s).stair = s.stair ∧ (turnAway a0 a1 a2 s).nvm = s.nvm ∧ (turnAway a0 a1 a2 s).streams = s.streams ∧ (turnAway a0 a1 a2 s).mem = s.mem := by
  unfold turnAway
  (try dsimp only)
  (repeat' split) <;> simp [apply_ite]

@[simp] theorem accept_frame (a0 : Pkt) (a1 : Word) (a2 : Nat) (s : State) :
    (accept a0 a1 a2 s).pending = s.pending ∧ (accept a0 a1 a2 s).out = s.out ∧ (accept a0 a1 a2 s).freeCtr = s.freeCtr ∧ (accept a0 a1 a2 s).aon = s.aon ∧ (accept a0 a1 a2 s).cfg = s.cfg ∧ (accept a0 a1 a2 s).pend = s.pend ∧ (accept a0 a1 a2 s).tb = s.tb ∧ (accept a0 a1 a2 s).events = s.events ∧ (accept a0 a1 a2 s).treads = s.treads ∧ (accept a0 a1 a2 s).cells = s.cells ∧ (accept a0 a1 a2 s).flights = s.flights ∧ (accept a0 a1 a2 s).halls = s.halls ∧ (accept a0 a1 a2 s).grid = s.grid ∧ (accept a0 a1 a2 s).atr = s.atr ∧ (accept a0 a1 a2 s).treadsOld = s.treadsOld ∧ (accept a0 a1 a2 s).meas = s.meas ∧ (accept a0 a1 a2 s).safe = s.safe ∧ (accept a0 a1 a2 s).therm = s.therm ∧ (accept a0 a1 a2 s).twin = s.twin ∧ (accept a0 a1 a2 s).stair = s.stair ∧ (accept a0 a1 a2 s).nvm = s.nvm ∧ (accept a0 a1 a2 s).streams = s.streams ∧ (accept a0 a1 a2 s).mem = s.mem := by
  unfold accept
  (try dsimp only)
  (repeat' split) <;> simp [apply_ite]

@[simp] theorem room_frame (a0 : Pkt) (a1 : Word) (a2 : Nat) (s : State) :
    (room a0 a1 a2 s).pending = s.pending ∧ (room a0 a1 a2 s).freeCtr = s.freeCtr ∧ (room a0 a1 a2 s).cfg = s.cfg ∧ (room a0 a1 a2 s).pend = s.pend ∧ (room a0 a1 a2 s).tb = s.tb ∧ (room a0 a1 a2 s).treads = s.treads ∧ (room a0 a1 a2 s).cells = s.cells ∧ (room a0 a1 a2 s).flights = s.flights ∧ (room a0 a1 a2 s).halls = s.halls ∧ (room a0 a1 a2 s).grid = s.grid ∧ (room a0 a1 a2 s).treadsOld = s.treadsOld ∧ (room a0 a1 a2 s).meas = s.meas ∧ (room a0 a1 a2 s).safe = s.safe ∧ (room a0 a1 a2 s).therm = s.therm ∧ (room a0 a1 a2 s).twin = s.twin ∧ (room a0 a1 a2 s).stair = s.stair ∧ (room a0 a1 a2 s).nvm = s.nvm ∧ (room a0 a1 a2 s).streams = s.streams ∧ (room a0 a1 a2 s).mem = s.mem := by
  unfold room
  (try dsimp only)
  (repeat' split) <;> simp [apply_ite]

@[simp] theorem sequence_frame (a0 : Pkt) (a1 : Word) (a2 : Nat) (s : State) :
    (sequence a0 a1 a2 s).pending = s.pending ∧ (sequence a0 a1 a2 s).freeCtr = s.freeCtr ∧ (sequence a0 a1 a2 s).cfg = s.cfg ∧ (sequence a0 a1 a2 s).pend = s.pend ∧ (sequence a0 a1 a2 s).tb = s.tb ∧ (sequence a0 a1 a2 s).treads = s.treads ∧ (sequence a0 a1 a2 s).cells = s.cells ∧ (sequence a0 a1 a2 s).flights = s.flights ∧ (sequence a0 a1 a2 s).halls = s.halls ∧ (sequence a0 a1 a2 s).grid = s.grid ∧ (sequence a0 a1 a2 s).treadsOld = s.treadsOld ∧ (sequence a0 a1 a2 s).meas = s.meas ∧ (sequence a0 a1 a2 s).safe = s.safe ∧ (sequence a0 a1 a2 s).therm = s.therm ∧ (sequence a0 a1 a2 s).twin = s.twin ∧ (sequence a0 a1 a2 s).stair = s.stair ∧ (sequence a0 a1 a2 s).nvm = s.nvm ∧ (sequence a0 a1 a2 s).streams = s.streams ∧ (sequence a0 a1 a2 s).mem = s.mem := by
  unfold sequence
  (try dsimp only)
  (repeat' split) <;> simp [apply_ite]

@[simp] theorem checkPacket_frame (a0 : Transport) (a1 : NetAddr) (a2 : List Byte) (s : State) :
    (checkPacket a0 a1 a2 s).pending = s.pending ∧ (checkPacket a0 a1 a2 s).freeCtr = s.freeCtr ∧ (checkPacket a0 a1 a2 s).cfg = s.cfg ∧ (checkPacket a0 a1 a2 s).pend = s.pend ∧ (checkPacket a0 a1 a2 s).tb = s.tb ∧ (checkPacket a0 a1 a2 s).treads = s.treads ∧ (checkPacket a0 a1 a2 s).cells = s.cells ∧ (checkPacket a0 a1 a2 s).flights = s.flights ∧ (checkPacket a0 a1 a2 s).halls = s.halls ∧ (checkPacket a0 a1 a2 s).grid = s.grid ∧ (checkPacket a0 a1 a2 s).treadsOld = s.treadsOld ∧ (checkPacket a0 a1 a2 s).meas = s.meas ∧ (checkPacket a0 a1 a2 s).safe = s.safe ∧ (checkPacket a0 a1 a2 s).therm = s.therm ∧ (checkPacket a0 a1 a2 s).twin = s.twin ∧ (checkPacket a0 a1 a2 s).stair = s.stair ∧ (checkPacket a0 a1 a2 s).nvm = s.nvm ∧ (checkPacket a0 a1 a2 s).streams = s.streams ∧ (checkPacket a0 a1 a2 s).mem = s.mem := by
  unfold checkPacket
  (try dsimp only)
  (repeat' split) <;> simp [apply_ite]

theorem execCommandPacket_frame (a0 : Transport) (a1 : NetAddr) (a2 : List Byte) (s t : State) (h : execCommandPacket a0 a1 a2 s = .next t) :
    t.pending = s.pending ∧ t.freeCtr = s.freeCtr ∧ t.cfg = s.cfg ∧ t.pend = s.pend ∧ t.tb = s.tb ∧ t.treads = s.treads ∧ t.cells = s.cells ∧ t.flights = s.flights ∧ t.halls = s.halls ∧ t.grid = s.grid ∧ t.treadsOld = s.treadsOld ∧ t.meas = s.meas ∧ t.safe = s.safe ∧ t.therm = s.therm ∧ t.twin = s.twin ∧ t.stair = s.stair ∧ t.nvm = s.nvm ∧ t.streams = s.streams ∧ t.mem = s.mem := by
  unfold execCommandPacket at h; cases h; (try dsimp only); (repeat' split) <;> simp [apply_ite]

theorem execPacketExecuteTime_frame (a0 : Fin 64) (s t : State) (h : execPacketExecuteTime a0 s = .next t) :
    t.pending = s.pending ∧ t.reply = s.reply ∧ t.out = s.out ∧ t.freeCtr = s.freeCtr ∧ t.aon = s.aon ∧ t.cfg = s.cfg ∧ t.pend = s.pend ∧ t.events = s.events ∧ t.host = s.host ∧ t.treads = s.treads ∧ t.cells = s.cells ∧ t.flights = s.flights ∧ t.halls = s.halls ∧ t.grid = s.grid ∧ t.atr = s.atr ∧ t.treadsOld = s.treadsOld ∧ t.meas = s.meas ∧ t.safe = s.safe ∧ t.therm = s.therm ∧ t.twin = s.twin ∧ t.stair = s.stair ∧ t.nvm = s.nvm ∧ t.streams = s.streams ∧ t.mem = s.mem := by
  unfold execPacketExecuteTime at h; cases h; (try dsimp only); (repeat' split) <;> simp [apply_ite]

theorem execRsRead_frame (a0 : Nat) (s t : State) (h : execRsRead a0 s = .next t) :
    t.pending = s.pending ∧ t.reply = s.reply ∧ t.freeCtr = s.freeCtr ∧ t.aon = s.aon ∧ t.cfg = s.cfg ∧ t.pend = s.pend ∧ t.tb = s.tb ∧ t.events = s.events ∧ t.treads = s.treads ∧ t.cells = s.cells ∧ t.flights = s.flights ∧ t.halls = s.halls ∧ t.grid = s.grid ∧ t.atr = s.atr ∧ t.treadsOld = s.treadsOld ∧ t.meas = s.meas ∧ t.safe = s.safe ∧ t.therm = s.therm ∧ t.twin = s.twin ∧ t.stair = s.stair ∧ t.nvm = s.nvm ∧ t.streams = s.streams ∧ t.mem = s.mem := by
  unfold execRsRead at h; cases h; (try dsimp only); (repeat' split) <;> simp [apply_ite]

theorem execStatRead_frame (s t : State) (h : execStatRead s = .next t) :
    t.pending = s.pending ∧ t.reply = s.reply ∧ t.freeCtr = s.freeCtr ∧ t.aon = s.aon ∧ t.cfg = s.cfg ∧ t.pend = s.pend ∧ t.tb = s.tb ∧ t.events = s.events ∧ t.host = s.host ∧ t.treads = s.treads ∧ t.cells = s.cells ∧ t.flights = s.flights ∧ t.halls = s.halls ∧ t.grid = s.grid ∧ t.atr = s.atr ∧ t.treadsOld = s.treadsOld ∧ t.meas = s.meas ∧ t.safe = s.safe ∧ t.therm = s.therm ∧ t.twin = s.twin ∧ t.stair = s.stair ∧ t.nvm = s.nvm ∧ t.streams = s.streams ∧ t.mem = s.mem := by
  unfold execStatRead at h; cases h; (try dsimp only); (repeat' split) <;> simp [apply_ite]

theorem execSpiCodeIgnored_frame (a0 : Byte) (s t : State) (h : execSpiCodeIgnored a0 s = .next t) :
    t.pending = s.pending ∧ t.reply = s.reply ∧ t.out = s.out ∧ t.freeCtr = s.freeCtr ∧ t.aon = s.aon ∧ t.cfg = s.cfg ∧ t.pend = s.pend ∧ t.tb = s.tb ∧ t.events = s.events ∧ t.treads = s.treads ∧ t.cells = s.cells ∧ t.flights = s.flights ∧ t.halls = s.halls ∧ t.grid = s.grid ∧ t.atr = s.atr ∧ t.treadsOld = s.treadsOld ∧ t.meas = s.meas ∧ t.safe = s.safe ∧ t.therm = s.therm ∧ t.twin = s.twin ∧ t.stair = s.stair ∧ t.nvm = s.nvm ∧ t.streams = s.streams ∧ t.mem = s.mem := by
  unfold execSpiCodeIgnored at h; cases h; (try dsimp only); (repeat' split) <;> simp [apply_ite]

theorem execArpRequest_frame (a0 : Word) (a1 : NetAddr) (s t : State) (h : execArpRequest a0 a1 s = .next t) :
    t.pending = s.pending ∧ t.reply = s.reply ∧ t.freeCtr = s.freeCtr ∧ t.aon = s.aon ∧ t.cfg = s.cfg ∧ t.pend = s.pend ∧ t.tb = s.tb ∧ t.events = s.events ∧ t.treads = s.treads ∧ t.cells = s.cells ∧ t.flights = s.flights ∧ t.halls = s.halls ∧ t.grid = s.grid ∧ t.atr = s.atr ∧ t.treadsOld = s.treadsOld ∧ t.meas = s.meas ∧ t.safe = s.safe ∧ t.therm = s.therm ∧ t.twin = s.twin ∧ t.stair = s.stair ∧ t.nvm = s.nvm ∧ t.streams = s.streams ∧ t.mem = s.mem := by
  unfold execArpRequest at h; cases h; (try dsimp only); (repeat' split) <;> simp [apply_ite]

theorem execEthFrameDiscard_frame (s t : State) (h : execEthFrameDiscard s = .next t) :
    t.pending = s.pending ∧ t.reply = s.reply ∧ t.out = s.out ∧ t.freeCtr = s.freeCtr ∧ t.aon = s.aon ∧ t.cfg = s.cfg ∧ t.pend = s.pend ∧ t.tb = s.tb ∧ t.events = s.events ∧ t.treads = s.treads ∧ t.cells = s.cells ∧ t.flights = s.flights ∧ t.halls = s.halls ∧ t.grid = s.grid ∧ t.atr = s.atr ∧ t.treadsOld = s.treadsOld ∧ t.meas = s.meas ∧ t.safe = s.safe ∧ t.therm = s.therm ∧ t.twin = s.twin ∧ t.stair = s.stair ∧ t.nvm = s.nvm ∧ t.streams = s.streams ∧ t.mem = s.mem := by
  unfold execEthFrameDiscard at h; cases h; (try dsimp only); (repeat' split) <;> simp [apply_ite]

theorem execPhyLinkPoll_frame (a0 : PhyRead) (s t : State) (h : execPhyLinkPoll a0 s = .next t) :
    t.pending = s.pending ∧ t.reply = s.reply ∧ t.freeCtr = s.freeCtr ∧ t.cfg = s.cfg ∧ t.pend = s.pend ∧ t.tb = s.tb ∧ t.treads = s.treads ∧ t.cells = s.cells ∧ t.flights = s.flights ∧ t.halls = s.halls ∧ t.grid = s.grid ∧ t.treadsOld = s.treadsOld ∧ t.meas = s.meas ∧ t.safe = s.safe ∧ t.therm = s.therm ∧ t.twin = s.twin ∧ t.stair = s.stair ∧ t.nvm = s.nvm ∧ t.streams = s.streams ∧ t.mem = s.mem := by
  unfold execPhyLinkPoll at h; cases h; (try dsimp only); (repeat' split) <;> simp [apply_ite]

theorem execPhyResetRelease_frame (s t : State) (h : execPhyResetRelease s = .next t) :
    t.pending = s.pending ∧ t.reply = s.reply ∧ t.out = s.out ∧ t.freeCtr = s.freeCtr ∧ t.aon = s.aon ∧ t.cfg = s.cfg ∧ t.pend = s.pend ∧ t.tb = s.tb ∧ t.events = s.events ∧ t.treads = s.treads ∧ t.cells = s.cells ∧ t.flights = s.flights ∧ t.halls = s.halls ∧ t.grid = s.grid ∧ t.atr = s.atr ∧ t.treadsOld = s.treadsOld ∧ t.meas = s.meas ∧ t.safe = s.safe ∧ t.therm = s.therm ∧ t.twin = s.twin ∧ t.stair = s.stair ∧ t.nvm = s.nvm ∧ t.streams = s.streams ∧ t.mem = s.mem := by
  unfold execPhyResetRelease at h; cases h; (try dsimp only); (repeat' split) <;> simp [apply_ite]

@[simp] theorem stairSend_frame (a0 : Bool) (a1 : Byte) (a2 : Byte) (a3 : List Byte) (s : State) :
    (stairSend a0 a1 a2 a3 s).pending = s.pending ∧ (stairSend a0 a1 a2 a3 s).reply = s.reply ∧ (stairSend a0 a1 a2 a3 s).freeCtr = s.freeCtr ∧ (stairSend a0 a1 a2 a3 s).aon = s.aon ∧ (stairSend a0 a1 a2 a3 s).cfg = s.cfg ∧ (stairSend a0 a1 a2 a3 s).pend = s.pend ∧ (stairSend a0 a1 a2 a3 s).tb = s.tb ∧ (stairSend a0 a1 a2 a3 s).events = s.events ∧ (stairSend a0 a1 a2 a3 s).host = s.host ∧ (stairSend a0 a1 a2 a3 s).treads = s.treads ∧ (stairSend a0 a1 a2 a3 s).cells = s.cells ∧ (stairSend a0 a1 a2 a3 s).flights = s.flights ∧ (stairSend a0 a1 a2 a3 s).halls = s.halls ∧ (stairSend a0 a1 a2 a3 s).grid = s.grid ∧ (stairSend a0 a1 a2 a3 s).atr = s.atr ∧ (stairSend a0 a1 a2 a3 s).treadsOld = s.treadsOld ∧ (stairSend a0 a1 a2 a3 s).meas = s.meas ∧ (stairSend a0 a1 a2 a3 s).safe = s.safe ∧ (stairSend a0 a1 a2 a3 s).therm = s.therm ∧ (stairSend a0 a1 a2 a3 s).twin = s.twin ∧ (stairSend a0 a1 a2 a3 s).stair = s.stair ∧ (stairSend a0 a1 a2 a3 s).nvm = s.nvm ∧ (stairSend a0 a1 a2 a3 s).streams = s.streams ∧ (stairSend a0 a1 a2 a3 s).mem = s.mem := by
  unfold stairSend
  (try dsimp only)
  (repeat' split) <;> simp [apply_ite]

@[simp] theorem stairTo_frame (a0 : Nat) (a1 : Byte) (a2 : List Byte) (s : State) :
    (stairTo a0 a1 a2 s).pending = s.pending ∧ (stairTo a0 a1 a2 s).reply = s.reply ∧ (stairTo a0 a1 a2 s).freeCtr = s.freeCtr ∧ (stairTo a0 a1 a2 s).aon = s.aon ∧ (stairTo a0 a1 a2 s).cfg = s.cfg ∧ (stairTo a0 a1 a2 s).pend = s.pend ∧ (stairTo a0 a1 a2 s).tb = s.tb ∧ (stairTo a0 a1 a2 s).events = s.events ∧ (stairTo a0 a1 a2 s).host = s.host ∧ (stairTo a0 a1 a2 s).treads = s.treads ∧ (stairTo a0 a1 a2 s).cells = s.cells ∧ (stairTo a0 a1 a2 s).flights = s.flights ∧ (stairTo a0 a1 a2 s).halls = s.halls ∧ (stairTo a0 a1 a2 s).grid = s.grid ∧ (stairTo a0 a1 a2 s).atr = s.atr ∧ (stairTo a0 a1 a2 s).treadsOld = s.treadsOld ∧ (stairTo a0 a1 a2 s).meas = s.meas ∧ (stairTo a0 a1 a2 s).safe = s.safe ∧ (stairTo a0 a1 a2 s).therm = s.therm ∧ (stairTo a0 a1 a2 s).twin = s.twin ∧ (stairTo a0 a1 a2 s).stair = s.stair ∧ (stairTo a0 a1 a2 s).nvm = s.nvm ∧ (stairTo a0 a1 a2 s).streams = s.streams ∧ (stairTo a0 a1 a2 s).mem = s.mem := by
  unfold stairTo
  (try dsimp only)
  (repeat' split) <;> simp [apply_ite]

@[simp] theorem stairBoth_frame (a0 : Byte) (a1 : List Byte) (s : State) :
    (stairBoth a0 a1 s).pending = s.pending ∧ (stairBoth a0 a1 s).reply = s.reply ∧ (stairBoth a0 a1 s).freeCtr = s.freeCtr ∧ (stairBoth a0 a1 s).aon = s.aon ∧ (stairBoth a0 a1 s).cfg = s.cfg ∧ (stairBoth a0 a1 s).pend = s.pend ∧ (stairBoth a0 a1 s).tb = s.tb ∧ (stairBoth a0 a1 s).events = s.events ∧ (stairBoth a0 a1 s).host = s.host ∧ (stairBoth a0 a1 s).treads = s.treads ∧ (stairBoth a0 a1 s).cells = s.cells ∧ (stairBoth a0 a1 s).flights = s.flights ∧ (stairBoth a0 a1 s).halls = s.halls ∧ (stairBoth a0 a1 s).grid = s.grid ∧ (stairBoth a0 a1 s).atr = s.atr ∧ (stairBoth a0 a1 s).treadsOld = s.treadsOld ∧ (stairBoth a0 a1 s).meas = s.meas ∧ (stairBoth a0 a1 s).safe = s.safe ∧ (stairBoth a0 a1 s).therm = s.therm ∧ (stairBoth a0 a1 s).twin = s.twin ∧ (stairBoth a0 a1 s).stair = s.stair ∧ (stairBoth a0 a1 s).nvm = s.nvm ∧ (stairBoth a0 a1 s).streams = s.streams ∧ (stairBoth a0 a1 s).mem = s.mem := by
  unfold stairBoth
  (try dsimp only)
  (repeat' split) <;> simp [apply_ite]

end Sys2Proof.Machine
end

