-- ==== Sys2Proof/Laws/FramesSafety.lean ====
section
/-! SUPPORT. What each operation and each command leaves alone: cells, safety, temperature, wear and measurement. A lemma `f_frame` names every part of the state
that `f` does not write. -/

namespace Sys2Proof.Machine

open Sys2Proof

set_option linter.all false

@[simp] theorem sendBlk_frame (a0 : Nat) (s : State) :
    (sendBlk a0 s).pending = s.pending ∧ (sendBlk a0 s).reply = s.reply ∧ (sendBlk a0 s).freeCtr = s.freeCtr ∧ (sendBlk a0 s).aon = s.aon ∧ (sendBlk a0 s).cfg = s.cfg ∧ (sendBlk a0 s).pend = s.pend ∧ (sendBlk a0 s).tb = s.tb ∧ (sendBlk a0 s).events = s.events ∧ (sendBlk a0 s).host = s.host ∧ (sendBlk a0 s).treads = s.treads ∧ (sendBlk a0 s).cells = s.cells ∧ (sendBlk a0 s).flights = s.flights ∧ (sendBlk a0 s).halls = s.halls ∧ (sendBlk a0 s).grid = s.grid ∧ (sendBlk a0 s).atr = s.atr ∧ (sendBlk a0 s).treadsOld = s.treadsOld ∧ (sendBlk a0 s).meas = s.meas ∧ (sendBlk a0 s).safe = s.safe ∧ (sendBlk a0 s).therm = s.therm ∧ (sendBlk a0 s).twin = s.twin ∧ (sendBlk a0 s).stair = s.stair ∧ (sendBlk a0 s).nvm = s.nvm ∧ (sendBlk a0 s).streams = s.streams ∧ (sendBlk a0 s).mem = s.mem := by
  unfold sendBlk
  (try dsimp only)
  (repeat' split) <;> simp [apply_ite]

@[simp] theorem sendDecision_frame (a0 : Decision) (s : State) :
    (sendDecision a0 s).pending = s.pending ∧ (sendDecision a0 s).reply = s.reply ∧ (sendDecision a0 s).freeCtr = s.freeCtr ∧ (sendDecision a0 s).aon = s.aon ∧ (sendDecision a0 s).cfg = s.cfg ∧ (sendDecision a0 s).pend = s.pend ∧ (sendDecision a0 s).tb = s.tb ∧ (sendDecision a0 s).events = s.events ∧ (sendDecision a0 s).host = s.host ∧ (sendDecision a0 s).treads = s.treads ∧ (sendDecision a0 s).cells = s.cells ∧ (sendDecision a0 s).flights = s.flights ∧ (sendDecision a0 s).halls = s.halls ∧ (sendDecision a0 s).grid = s.grid ∧ (sendDecision a0 s).atr = s.atr ∧ (sendDecision a0 s).treadsOld = s.treadsOld ∧ (sendDecision a0 s).meas = s.meas ∧ (sendDecision a0 s).safe = s.safe ∧ (sendDecision a0 s).therm = s.therm ∧ (sendDecision a0 s).twin = s.twin ∧ (sendDecision a0 s).stair = s.stair ∧ (sendDecision a0 s).nvm = s.nvm ∧ (sendDecision a0 s).streams = s.streams ∧ (sendDecision a0 s).mem = s.mem := by
  unfold sendDecision
  (try dsimp only)
  (repeat' split) <;> simp [apply_ite]

@[simp] theorem ssbEntry_frame (s : State) :
    (ssbEntry s).pending = s.pending ∧ (ssbEntry s).reply = s.reply ∧ (ssbEntry s).freeCtr = s.freeCtr ∧ (ssbEntry s).cfg = s.cfg ∧ (ssbEntry s).pend = s.pend ∧ (ssbEntry s).tb = s.tb ∧ (ssbEntry s).treads = s.treads ∧ (ssbEntry s).flights = s.flights ∧ (ssbEntry s).halls = s.halls ∧ (ssbEntry s).grid = s.grid ∧ (ssbEntry s).treadsOld = s.treadsOld ∧ (ssbEntry s).meas = s.meas ∧ (ssbEntry s).therm = s.therm ∧ (ssbEntry s).twin = s.twin ∧ (ssbEntry s).stair = s.stair ∧ (ssbEntry s).streams = s.streams ∧ (ssbEntry s).mem = s.mem := by
  unfold ssbEntry
  (try dsimp only)
  (repeat' split) <;> simp [apply_ite]

@[simp] theorem setCause_frame (a0 : Nat) (s : State) :
    (setCause a0 s).pending = s.pending ∧ (setCause a0 s).reply = s.reply ∧ (setCause a0 s).freeCtr = s.freeCtr ∧ (setCause a0 s).cfg = s.cfg ∧ (setCause a0 s).pend = s.pend ∧ (setCause a0 s).tb = s.tb ∧ (setCause a0 s).treads = s.treads ∧ (setCause a0 s).flights = s.flights ∧ (setCause a0 s).halls = s.halls ∧ (setCause a0 s).grid = s.grid ∧ (setCause a0 s).treadsOld = s.treadsOld ∧ (setCause a0 s).meas = s.meas ∧ (setCause a0 s).therm = s.therm ∧ (setCause a0 s).twin = s.twin ∧ (setCause a0 s).stair = s.stair ∧ (setCause a0 s).streams = s.streams ∧ (setCause a0 s).mem = s.mem := by
  unfold setCause
  (try dsimp only)
  (repeat' split) <;> simp [apply_ite]

@[simp] theorem overtake_frame (a0 : Nat) (s : State) :
    (overtake a0 s).pending = s.pending ∧ (overtake a0 s).reply = s.reply ∧ (overtake a0 s).out = s.out ∧ (overtake a0 s).freeCtr = s.freeCtr ∧ (overtake a0 s).aon = s.aon ∧ (overtake a0 s).cfg = s.cfg ∧ (overtake a0 s).pend = s.pend ∧ (overtake a0 s).tb = s.tb ∧ (overtake a0 s).events = s.events ∧ (overtake a0 s).host = s.host ∧ (overtake a0 s).treads = s.treads ∧ (overtake a0 s).cells = s.cells ∧ (overtake a0 s).halls = s.halls ∧ (overtake a0 s).grid = s.grid ∧ (overtake a0 s).atr = s.atr ∧ (overtake a0 s).treadsOld = s.treadsOld ∧ (overtake a0 s).meas = s.meas ∧ (overtake a0 s).safe = s.safe ∧ (overtake a0 s).therm = s.therm ∧ (overtake a0 s).twin = s.twin ∧ (overtake a0 s).stair = s.stair ∧ (overtake a0 s).nvm = s.nvm ∧ (overtake a0 s).streams = s.streams ∧ (overtake a0 s).mem = s.mem := by
  unfold overtake
  (try dsimp only)
  (repeat' split) <;> simp [apply_ite]

@[simp] theorem leaveWith_frame (a0 : Nat) (a1 : Option Nat → Nat) (s : State) :
    (leaveWith a0 a1 s).pending = s.pending ∧ (leaveWith a0 a1 s).reply = s.reply ∧ (leaveWith a0 a1 s).out = s.out ∧ (leaveWith a0 a1 s).freeCtr = s.freeCtr ∧ (leaveWith a0 a1 s).aon = s.aon ∧ (leaveWith a0 a1 s).cfg = s.cfg ∧ (leaveWith a0 a1 s).pend = s.pend ∧ (leaveWith a0 a1 s).tb = s.tb ∧ (leaveWith a0 a1 s).events = s.events ∧ (leaveWith a0 a1 s).host = s.host ∧ (leaveWith a0 a1 s).treads = s.treads ∧ (leaveWith a0 a1 s).halls = s.halls ∧ (leaveWith a0 a1 s).grid = s.grid ∧ (leaveWith a0 a1 s).atr = s.atr ∧ (leaveWith a0 a1 s).treadsOld = s.treadsOld ∧ (leaveWith a0 a1 s).meas = s.meas ∧ (leaveWith a0 a1 s).safe = s.safe ∧ (leaveWith a0 a1 s).therm = s.therm ∧ (leaveWith a0 a1 s).twin = s.twin ∧ (leaveWith a0 a1 s).stair = s.stair ∧ (leaveWith a0 a1 s).nvm = s.nvm ∧ (leaveWith a0 a1 s).streams = s.streams ∧ (leaveWith a0 a1 s).mem = s.mem := by
  unfold leaveWith
  (try dsimp only)
  (repeat' split) <;> simp [apply_ite]

@[simp] theorem leave_frame (a0 : Nat) (a1 : Nat) (s : State) :
    (leave a0 a1 s).pending = s.pending ∧ (leave a0 a1 s).reply = s.reply ∧ (leave a0 a1 s).out = s.out ∧ (leave a0 a1 s).freeCtr = s.freeCtr ∧ (leave a0 a1 s).aon = s.aon ∧ (leave a0 a1 s).cfg = s.cfg ∧ (leave a0 a1 s).pend = s.pend ∧ (leave a0 a1 s).tb = s.tb ∧ (leave a0 a1 s).events = s.events ∧ (leave a0 a1 s).host = s.host ∧ (leave a0 a1 s).treads = s.treads ∧ (leave a0 a1 s).halls = s.halls ∧ (leave a0 a1 s).grid = s.grid ∧ (leave a0 a1 s).atr = s.atr ∧ (leave a0 a1 s).treadsOld = s.treadsOld ∧ (leave a0 a1 s).meas = s.meas ∧ (leave a0 a1 s).safe = s.safe ∧ (leave a0 a1 s).therm = s.therm ∧ (leave a0 a1 s).twin = s.twin ∧ (leave a0 a1 s).stair = s.stair ∧ (leave a0 a1 s).nvm = s.nvm ∧ (leave a0 a1 s).streams = s.streams ∧ (leave a0 a1 s).mem = s.mem := by
  unfold leave
  (try dsimp only)
  (repeat' split) <;> simp [apply_ite]

@[simp] theorem leaveRest_frame (a0 : Nat) (a1 : Nat) (s : State) :
    (leaveRest a0 a1 s).pending = s.pending ∧ (leaveRest a0 a1 s).reply = s.reply ∧ (leaveRest a0 a1 s).out = s.out ∧ (leaveRest a0 a1 s).freeCtr = s.freeCtr ∧ (leaveRest a0 a1 s).aon = s.aon ∧ (leaveRest a0 a1 s).cfg = s.cfg ∧ (leaveRest a0 a1 s).pend = s.pend ∧ (leaveRest a0 a1 s).tb = s.tb ∧ (leaveRest a0 a1 s).events = s.events ∧ (leaveRest a0 a1 s).host = s.host ∧ (leaveRest a0 a1 s).treads = s.treads ∧ (leaveRest a0 a1 s).halls = s.halls ∧ (leaveRest a0 a1 s).grid = s.grid ∧ (leaveRest a0 a1 s).atr = s.atr ∧ (leaveRest a0 a1 s).treadsOld = s.treadsOld ∧ (leaveRest a0 a1 s).meas = s.meas ∧ (leaveRest a0 a1 s).safe = s.safe ∧ (leaveRest a0 a1 s).therm = s.therm ∧ (leaveRest a0 a1 s).twin = s.twin ∧ (leaveRest a0 a1 s).stair = s.stair ∧ (leaveRest a0 a1 s).nvm = s.nvm ∧ (leaveRest a0 a1 s).streams = s.streams ∧ (leaveRest a0 a1 s).mem = s.mem := by
  unfold leaveRest
  (try dsimp only)
  (repeat' split) <;> simp [apply_ite]

@[simp] theorem hallOut_frame (a0 : Nat) (s : State) :
    (hallOut a0 s).pending = s.pending ∧ (hallOut a0 s).reply = s.reply ∧ (hallOut a0 s).freeCtr = s.freeCtr ∧ (hallOut a0 s).aon = s.aon ∧ (hallOut a0 s).cfg = s.cfg ∧ (hallOut a0 s).pend = s.pend ∧ (hallOut a0 s).tb = s.tb ∧ (hallOut a0 s).events = s.events ∧ (hallOut a0 s).host = s.host ∧ (hallOut a0 s).treads = s.treads ∧ (hallOut a0 s).halls = s.halls ∧ (hallOut a0 s).grid = s.grid ∧ (hallOut a0 s).atr = s.atr ∧ (hallOut a0 s).treadsOld = s.treadsOld ∧ (hallOut a0 s).meas = s.meas ∧ (hallOut a0 s).safe = s.safe ∧ (hallOut a0 s).therm = s.therm ∧ (hallOut a0 s).twin = s.twin ∧ (hallOut a0 s).stair = s.stair ∧ (hallOut a0 s).nvm = s.nvm ∧ (hallOut a0 s).streams = s.streams ∧ (hallOut a0 s).mem = s.mem := by
  unfold hallOut
  (try dsimp only)
  (repeat' split) <;> simp [apply_ite]

@[simp] theorem hallRest_frame (a0 : Nat) (s : State) :
    (hallRest a0 s).pending = s.pending ∧ (hallRest a0 s).reply = s.reply ∧ (hallRest a0 s).out = s.out ∧ (hallRest a0 s).freeCtr = s.freeCtr ∧ (hallRest a0 s).aon = s.aon ∧ (hallRest a0 s).cfg = s.cfg ∧ (hallRest a0 s).pend = s.pend ∧ (hallRest a0 s).tb = s.tb ∧ (hallRest a0 s).events = s.events ∧ (hallRest a0 s).host = s.host ∧ (hallRest a0 s).treads = s.treads ∧ (hallRest a0 s).halls = s.halls ∧ (hallRest a0 s).grid = s.grid ∧ (hallRest a0 s).atr = s.atr ∧ (hallRest a0 s).treadsOld = s.treadsOld ∧ (hallRest a0 s).meas = s.meas ∧ (hallRest a0 s).safe = s.safe ∧ (hallRest a0 s).therm = s.therm ∧ (hallRest a0 s).twin = s.twin ∧ (hallRest a0 s).stair = s.stair ∧ (hallRest a0 s).nvm = s.nvm ∧ (hallRest a0 s).streams = s.streams ∧ (hallRest a0 s).mem = s.mem := by
  unfold hallRest
  (try dsimp only)
  (repeat' split) <;> simp [apply_ite]

@[simp] theorem shortfall_frame (a0 : Nat) (s : State) :
    (shortfall a0 s).pending = s.pending ∧ (shortfall a0 s).reply = s.reply ∧ (shortfall a0 s).freeCtr = s.freeCtr ∧ (shortfall a0 s).cfg = s.cfg ∧ (shortfall a0 s).pend = s.pend ∧ (shortfall a0 s).tb = s.tb ∧ (shortfall a0 s).treads = s.treads ∧ (shortfall a0 s).grid = s.grid ∧ (shortfall a0 s).treadsOld = s.treadsOld ∧ (shortfall a0 s).meas = s.meas ∧ (shortfall a0 s).therm = s.therm ∧ (shortfall a0 s).twin = s.twin ∧ (shortfall a0 s).stair = s.stair ∧ (shortfall a0 s).streams = s.streams ∧ (shortfall a0 s).mem = s.mem := by
  unfold shortfall; (try dsimp only)
  refine ⟨?_, ?_, ?_, ?_, ?_, ?_, ?_, ?_, ?_, ?_, ?_, ?_, ?_, ?_, ?_⟩
  · repeat' (first | (simp [apply_ite State.pending]; done) | with_reducible refine (each_keep State.pending _ _ _ (fun _ _ => ?_)).trans ?_ | with_reducible refine command_keep State.pending _ _ _ (fun _ => ?_) (fun _ => ?_) | split)
  · repeat' (first | (simp [apply_ite State.reply]; done) | with_reducible refine (each_keep State.reply _ _ _ (fun _ _ => ?_)).trans ?_ | with_reducible refine command_keep State.reply _ _ _ (fun _ => ?_) (fun _ => ?_) | split)
  · repeat' (first | (simp [apply_ite State.freeCtr]; done) | with_reducible refine (each_keep State.freeCtr _ _ _ (fun _ _ => ?_)).trans ?_ | with_reducible refine command_keep State.freeCtr _ _ _ (fun _ => ?_) (fun _ => ?_) | split)
  · repeat' (first | (simp [apply_ite State.cfg]; done) | with_reducible refine (each_keep State.cfg _ _ _ (fun _ _ => ?_)).trans ?_ | with_reducible refine command_keep State.cfg _ _ _ (fun _ => ?_) (fun _ => ?_) | split)
  · repeat' (first | (simp [apply_ite State.pend]; done) | with_reducible refine (each_keep State.pend _ _ _ (fun _ _ => ?_)).trans ?_ | with_reducible refine command_keep State.pend _ _ _ (fun _ => ?_) (fun _ => ?_) | split)
  · repeat' (first | (simp [apply_ite State.tb]; done) | with_reducible refine (each_keep State.tb _ _ _ (fun _ _ => ?_)).trans ?_ | with_reducible refine command_keep State.tb _ _ _ (fun _ => ?_) (fun _ => ?_) | split)
  · repeat' (first | (simp [apply_ite State.treads]; done) | with_reducible refine (each_keep State.treads _ _ _ (fun _ _ => ?_)).trans ?_ | with_reducible refine command_keep State.treads _ _ _ (fun _ => ?_) (fun _ => ?_) | split)
  · repeat' (first | (simp [apply_ite State.grid]; done) | with_reducible refine (each_keep State.grid _ _ _ (fun _ _ => ?_)).trans ?_ | with_reducible refine command_keep State.grid _ _ _ (fun _ => ?_) (fun _ => ?_) | split)
  · repeat' (first | (simp [apply_ite State.treadsOld]; done) | with_reducible refine (each_keep State.treadsOld _ _ _ (fun _ _ => ?_)).trans ?_ | with_reducible refine command_keep State.treadsOld _ _ _ (fun _ => ?_) (fun _ => ?_) | split)
  · repeat' (first | (simp [apply_ite State.meas]; done) | with_reducible refine (each_keep State.meas _ _ _ (fun _ _ => ?_)).trans ?_ | with_reducible refine command_keep State.meas _ _ _ (fun _ => ?_) (fun _ => ?_) | split)
  · repeat' (first | (simp [apply_ite State.therm]; done) | with_reducible refine (each_keep State.therm _ _ _ (fun _ _ => ?_)).trans ?_ | with_reducible refine command_keep State.therm _ _ _ (fun _ => ?_) (fun _ => ?_) | split)
  · repeat' (first | (simp [apply_ite State.twin]; done) | with_reducible refine (each_keep State.twin _ _ _ (fun _ _ => ?_)).trans ?_ | with_reducible refine command_keep State.twin _ _ _ (fun _ => ?_) (fun _ => ?_) | split)
  · repeat' (first | (simp [apply_ite State.stair]; done) | with_reducible refine (each_keep State.stair _ _ _ (fun _ _ => ?_)).trans ?_ | with_reducible refine command_keep State.stair _ _ _ (fun _ => ?_) (fun _ => ?_) | split)
  · repeat' (first | (simp [apply_ite State.streams]; done) | with_reducible refine (each_keep State.streams _ _ _ (fun _ _ => ?_)).trans ?_ | with_reducible refine command_keep State.streams _ _ _ (fun _ => ?_) (fun _ => ?_) | split)
  · repeat' (first | (simp [apply_ite State.mem]; done) | with_reducible refine (each_keep State.mem _ _ _ (fun _ _ => ?_)).trans ?_ | with_reducible refine command_keep State.mem _ _ _ (fun _ => ?_) (fun _ => ?_) | split)

@[simp] theorem hallFall_frame (a0 : Nat) (s : State) :
    (hallFall a0 s).pending = s.pending ∧ (hallFall a0 s).reply = s.reply ∧ (hallFall a0 s).freeCtr = s.freeCtr ∧ (hallFall a0 s).cfg = s.cfg ∧ (hallFall a0 s).pend = s.pend ∧ (hallFall a0 s).tb = s.tb ∧ (hallFall a0 s).treads = s.treads ∧ (hallFall a0 s).grid = s.grid ∧ (hallFall a0 s).treadsOld = s.treadsOld ∧ (hallFall a0 s).meas = s.meas ∧ (hallFall a0 s).therm = s.therm ∧ (hallFall a0 s).twin = s.twin ∧ (hallFall a0 s).stair = s.stair ∧ (hallFall a0 s).streams = s.streams ∧ (hallFall a0 s).mem = s.mem := by
  unfold hallFall
  (try dsimp only)
  (repeat' split) <;> simp [apply_ite]

@[simp] theorem hallError_frame (a0 : Nat) (a1 : Nat) (s : State) :
    (hallError a0 a1 s).pending = s.pending ∧ (hallError a0 a1 s).reply = s.reply ∧ (hallError a0 a1 s).freeCtr = s.freeCtr ∧ (hallError a0 a1 s).cfg = s.cfg ∧ (hallError a0 a1 s).pend = s.pend ∧ (hallError a0 a1 s).tb = s.tb ∧ (hallError a0 a1 s).treads = s.treads ∧ (hallError a0 a1 s).grid = s.grid ∧ (hallError a0 a1 s).treadsOld = s.treadsOld ∧ (hallError a0 a1 s).meas = s.meas ∧ (hallError a0 a1 s).therm = s.therm ∧ (hallError a0 a1 s).twin = s.twin ∧ (hallError a0 a1 s).stair = s.stair ∧ (hallError a0 a1 s).streams = s.streams ∧ (hallError a0 a1 s).mem = s.mem := by
  unfold hallError
  (try dsimp only)
  (repeat' split) <;> simp [apply_ite]

@[simp] theorem setPerm_frame (a0 : Nat) (s : State) :
    (setPerm a0 s).pending = s.pending ∧ (setPerm a0 s).reply = s.reply ∧ (setPerm a0 s).freeCtr = s.freeCtr ∧ (setPerm a0 s).cfg = s.cfg ∧ (setPerm a0 s).pend = s.pend ∧ (setPerm a0 s).tb = s.tb ∧ (setPerm a0 s).treads = s.treads ∧ (setPerm a0 s).flights = s.flights ∧ (setPerm a0 s).halls = s.halls ∧ (setPerm a0 s).grid = s.grid ∧ (setPerm a0 s).treadsOld = s.treadsOld ∧ (setPerm a0 s).meas = s.meas ∧ (setPerm a0 s).safe = s.safe ∧ (setPerm a0 s).therm = s.therm ∧ (setPerm a0 s).twin = s.twin ∧ (setPerm a0 s).stair = s.stair ∧ (setPerm a0 s).streams = s.streams ∧ (setPerm a0 s).mem = s.mem := by
  unfold setPerm
  (try dsimp only)
  (repeat' split) <;> simp [apply_ite]

@[simp] theorem noteDecision_frame (a0 : Nat) (a1 : Nat) (a2 : Nat) (s : State) :
    (noteDecision a0 a1 a2 s).pending = s.pending ∧ (noteDecision a0 a1 a2 s).reply = s.reply ∧ (noteDecision a0 a1 a2 s).out = s.out ∧ (noteDecision a0 a1 a2 s).freeCtr = s.freeCtr ∧ (noteDecision a0 a1 a2 s).aon = s.aon ∧ (noteDecision a0 a1 a2 s).cfg = s.cfg ∧ (noteDecision a0 a1 a2 s).pend = s.pend ∧ (noteDecision a0 a1 a2 s).tb = s.tb ∧ (noteDecision a0 a1 a2 s).events = s.events ∧ (noteDecision a0 a1 a2 s).host = s.host ∧ (noteDecision a0 a1 a2 s).treads = s.treads ∧ (noteDecision a0 a1 a2 s).flights = s.flights ∧ (noteDecision a0 a1 a2 s).halls = s.halls ∧ (noteDecision a0 a1 a2 s).grid = s.grid ∧ (noteDecision a0 a1 a2 s).atr = s.atr ∧ (noteDecision a0 a1 a2 s).treadsOld = s.treadsOld ∧ (noteDecision a0 a1 a2 s).meas = s.meas ∧ (noteDecision a0 a1 a2 s).safe = s.safe ∧ (noteDecision a0 a1 a2 s).therm = s.therm ∧ (noteDecision a0 a1 a2 s).twin = s.twin ∧ (noteDecision a0 a1 a2 s).stair = s.stair ∧ (noteDecision a0 a1 a2 s).nvm = s.nvm ∧ (noteDecision a0 a1 a2 s).streams = s.streams ∧ (noteDecision a0 a1 a2 s).mem = s.mem := by
  unfold noteDecision
  (try dsimp only)
  (repeat' split) <;> simp [apply_ite]

@[simp] theorem derateCell_frame (a0 : Nat) (s : State) :
    (derateCell a0 s).pending = s.pending ∧ (derateCell a0 s).reply = s.reply ∧ (derateCell a0 s).out = s.out ∧ (derateCell a0 s).freeCtr = s.freeCtr ∧ (derateCell a0 s).aon = s.aon ∧ (derateCell a0 s).cfg = s.cfg ∧ (derateCell a0 s).pend = s.pend ∧ (derateCell a0 s).tb = s.tb ∧ (derateCell a0 s).events = s.events ∧ (derateCell a0 s).host = s.host ∧ (derateCell a0 s).treads = s.treads ∧ (derateCell a0 s).halls = s.halls ∧ (derateCell a0 s).grid = s.grid ∧ (derateCell a0 s).atr = s.atr ∧ (derateCell a0 s).treadsOld = s.treadsOld ∧ (derateCell a0 s).meas = s.meas ∧ (derateCell a0 s).safe = s.safe ∧ (derateCell a0 s).therm = s.therm ∧ (derateCell a0 s).twin = s.twin ∧ (derateCell a0 s).stair = s.stair ∧ (derateCell a0 s).nvm = s.nvm ∧ (derateCell a0 s).streams = s.streams ∧ (derateCell a0 s).mem = s.mem := by
  unfold derateCell
  (try dsimp only)
  (repeat' split) <;> simp [apply_ite]

@[simp] theorem carryOut_frame (a0 : Nat) (a1 : Nat) (a2 : Nat) (s : State) :
    (carryOut a0 a1 a2 s).pending = s.pending ∧ (carryOut a0 a1 a2 s).reply = s.reply ∧ (carryOut a0 a1 a2 s).freeCtr = s.freeCtr ∧ (carryOut a0 a1 a2 s).cfg = s.cfg ∧ (carryOut a0 a1 a2 s).pend = s.pend ∧ (carryOut a0 a1 a2 s).tb = s.tb ∧ (carryOut a0 a1 a2 s).treads = s.treads ∧ (carryOut a0 a1 a2 s).halls = s.halls ∧ (carryOut a0 a1 a2 s).grid = s.grid ∧ (carryOut a0 a1 a2 s).treadsOld = s.treadsOld ∧ (carryOut a0 a1 a2 s).meas = s.meas ∧ (carryOut a0 a1 a2 s).therm = s.therm ∧ (carryOut a0 a1 a2 s).twin = s.twin ∧ (carryOut a0 a1 a2 s).stair = s.stair ∧ (carryOut a0 a1 a2 s).streams = s.streams ∧ (carryOut a0 a1 a2 s).mem = s.mem := by
  unfold carryOut
  (try dsimp only)
  (repeat' split) <;> simp [apply_ite]

@[simp] theorem decide'_frame (a0 : Nat) (a1 : Nat) (a2 : Nat) (a3 : Nat) (s : State) :
    (decide' a0 a1 a2 a3 s).pending = s.pending ∧ (decide' a0 a1 a2 a3 s).reply = s.reply ∧ (decide' a0 a1 a2 a3 s).freeCtr = s.freeCtr ∧ (decide' a0 a1 a2 a3 s).cfg = s.cfg ∧ (decide' a0 a1 a2 a3 s).pend = s.pend ∧ (decide' a0 a1 a2 a3 s).tb = s.tb ∧ (decide' a0 a1 a2 a3 s).treads = s.treads ∧ (decide' a0 a1 a2 a3 s).halls = s.halls ∧ (decide' a0 a1 a2 a3 s).grid = s.grid ∧ (decide' a0 a1 a2 a3 s).treadsOld = s.treadsOld ∧ (decide' a0 a1 a2 a3 s).meas = s.meas ∧ (decide' a0 a1 a2 a3 s).therm = s.therm ∧ (decide' a0 a1 a2 a3 s).twin = s.twin ∧ (decide' a0 a1 a2 a3 s).stair = s.stair ∧ (decide' a0 a1 a2 a3 s).streams = s.streams ∧ (decide' a0 a1 a2 a3 s).mem = s.mem := by
  unfold decide'
  (try dsimp only)
  (repeat' split) <;> simp [apply_ite]

@[simp] theorem decideGs_frame (a0 : Nat) (a1 : Nat) (a2 : Bool) (s : State) :
    (decideGs a0 a1 a2 s).pending = s.pending ∧ (decideGs a0 a1 a2 s).reply = s.reply ∧ (decideGs a0 a1 a2 s).freeCtr = s.freeCtr ∧ (decideGs a0 a1 a2 s).cfg = s.cfg ∧ (decideGs a0 a1 a2 s).pend = s.pend ∧ (decideGs a0 a1 a2 s).tb = s.tb ∧ (decideGs a0 a1 a2 s).treads = s.treads ∧ (decideGs a0 a1 a2 s).halls = s.halls ∧ (decideGs a0 a1 a2 s).grid = s.grid ∧ (decideGs a0 a1 a2 s).treadsOld = s.treadsOld ∧ (decideGs a0 a1 a2 s).meas = s.meas ∧ (decideGs a0 a1 a2 s).therm = s.therm ∧ (decideGs a0 a1 a2 s).twin = s.twin ∧ (decideGs a0 a1 a2 s).stair = s.stair ∧ (decideGs a0 a1 a2 s).streams = s.streams ∧ (decideGs a0 a1 a2 s).mem = s.mem := by
  unfold decideGs
  (try dsimp only)
  (repeat' split) <;> simp [apply_ite]

@[simp] theorem decideClass_frame (a0 : Nat) (a1 : Nat) (a2 : Nat) (s : State) :
    (decideClass a0 a1 a2 s).pending = s.pending ∧ (decideClass a0 a1 a2 s).reply = s.reply ∧ (decideClass a0 a1 a2 s).freeCtr = s.freeCtr ∧ (decideClass a0 a1 a2 s).cfg = s.cfg ∧ (decideClass a0 a1 a2 s).pend = s.pend ∧ (decideClass a0 a1 a2 s).tb = s.tb ∧ (decideClass a0 a1 a2 s).treads = s.treads ∧ (decideClass a0 a1 a2 s).halls = s.halls ∧ (decideClass a0 a1 a2 s).grid = s.grid ∧ (decideClass a0 a1 a2 s).treadsOld = s.treadsOld ∧ (decideClass a0 a1 a2 s).meas = s.meas ∧ (decideClass a0 a1 a2 s).therm = s.therm ∧ (decideClass a0 a1 a2 s).twin = s.twin ∧ (decideClass a0 a1 a2 s).stair = s.stair ∧ (decideClass a0 a1 a2 s).streams = s.streams ∧ (decideClass a0 a1 a2 s).mem = s.mem := by
  unfold decideClass
  (try dsimp only)
  (repeat' split) <;> simp [apply_ite]

@[simp] theorem treadError_frame (a0 : Nat) (s : State) :
    (treadError a0 s).pending = s.pending ∧ (treadError a0 s).reply = s.reply ∧ (treadError a0 s).freeCtr = s.freeCtr ∧ (treadError a0 s).cfg = s.cfg ∧ (treadError a0 s).pend = s.pend ∧ (treadError a0 s).tb = s.tb ∧ (treadError a0 s).treads = s.treads ∧ (treadError a0 s).halls = s.halls ∧ (treadError a0 s).grid = s.grid ∧ (treadError a0 s).treadsOld = s.treadsOld ∧ (treadError a0 s).meas = s.meas ∧ (treadError a0 s).therm = s.therm ∧ (treadError a0 s).twin = s.twin ∧ (treadError a0 s).stair = s.stair ∧ (treadError a0 s).streams = s.streams ∧ (treadError a0 s).mem = s.mem := by
  unfold treadError
  (try dsimp only)
  (repeat' split) <;> simp [apply_ite]

@[simp] theorem emergency_frame (s : State) :
    (emergency s).pending = s.pending ∧ (emergency s).reply = s.reply ∧ (emergency s).freeCtr = s.freeCtr ∧ (emergency s).aon = s.aon ∧ (emergency s).cfg = s.cfg ∧ (emergency s).pend = s.pend ∧ (emergency s).tb = s.tb ∧ (emergency s).events = s.events ∧ (emergency s).host = s.host ∧ (emergency s).treads = s.treads ∧ (emergency s).cells = s.cells ∧ (emergency s).flights = s.flights ∧ (emergency s).halls = s.halls ∧ (emergency s).grid = s.grid ∧ (emergency s).atr = s.atr ∧ (emergency s).treadsOld = s.treadsOld ∧ (emergency s).meas = s.meas ∧ (emergency s).safe = s.safe ∧ (emergency s).therm = s.therm ∧ (emergency s).stair = s.stair ∧ (emergency s).nvm = s.nvm ∧ (emergency s).streams = s.streams ∧ (emergency s).mem = s.mem := by
  unfold emergency
  (try dsimp only)
  (repeat' split) <;> simp [apply_ite]

@[simp] theorem blockOrHandOver_frame (a0 : Nat) (s : State) :
    (blockOrHandOver a0 s).pending = s.pending ∧ (blockOrHandOver a0 s).reply = s.reply ∧ (blockOrHandOver a0 s).freeCtr = s.freeCtr ∧ (blockOrHandOver a0 s).cfg = s.cfg ∧ (blockOrHandOver a0 s).pend = s.pend ∧ (blockOrHandOver a0 s).tb = s.tb ∧ (blockOrHandOver a0 s).treads = s.treads ∧ (blockOrHandOver a0 s).flights = s.flights ∧ (blockOrHandOver a0 s).halls = s.halls ∧ (blockOrHandOver a0 s).grid = s.grid ∧ (blockOrHandOver a0 s).treadsOld = s.treadsOld ∧ (blockOrHandOver a0 s).meas = s.meas ∧ (blockOrHandOver a0 s).therm = s.therm ∧ (blockOrHandOver a0 s).stair = s.stair ∧ (blockOrHandOver a0 s).streams = s.streams ∧ (blockOrHandOver a0 s).mem = s.mem := by
  unfold blockOrHandOver
  (try dsimp only)
  (repeat' split) <;> simp [apply_ite]

@[simp] theorem atriumError_frame (a0 : Nat) (s : State) :
    (atriumError a0 s).pending = s.pending ∧ (atriumError a0 s).reply = s.reply ∧ (atriumError a0 s).freeCtr = s.freeCtr ∧ (atriumError a0 s).cfg = s.cfg ∧ (atriumError a0 s).pend = s.pend ∧ (atriumError a0 s).tb = s.tb ∧ (atriumError a0 s).treads = s.treads ∧ (atriumError a0 s).flights = s.flights ∧ (atriumError a0 s).halls = s.halls ∧ (atriumError a0 s).grid = s.grid ∧ (atriumError a0 s).treadsOld = s.treadsOld ∧ (atriumError a0 s).meas = s.meas ∧ (atriumError a0 s).therm = s.therm ∧ (atriumError a0 s).stair = s.stair ∧ (atriumError a0 s).streams = s.streams ∧ (atriumError a0 s).mem = s.mem := by
  unfold atriumError
  (try dsimp only)
  (repeat' split) <;> simp [apply_ite]

theorem execDispatchTimeout_frame (s t : State) (h : execDispatchTimeout s = .next t) :
    t.pending = s.pending ∧ t.reply = s.reply ∧ t.freeCtr = s.freeCtr ∧ t.cfg = s.cfg ∧ t.pend = s.pend ∧ t.tb = s.tb ∧ t.treads = s.treads ∧ t.flights = s.flights ∧ t.halls = s.halls ∧ t.grid = s.grid ∧ t.treadsOld = s.treadsOld ∧ t.meas = s.meas ∧ t.therm = s.therm ∧ t.stair = s.stair ∧ t.streams = s.streams ∧ t.mem = s.mem := by
  unfold execDispatchTimeout at h; cases h; (try dsimp only); (repeat' split) <;> simp [apply_ite]

theorem execCorridorGrantTimeout_frame (s t : State) (h : execCorridorGrantTimeout s = .next t) :
    t.pending = s.pending ∧ t.reply = s.reply ∧ t.freeCtr = s.freeCtr ∧ t.cfg = s.cfg ∧ t.pend = s.pend ∧ t.tb = s.tb ∧ t.treads = s.treads ∧ t.flights = s.flights ∧ t.halls = s.halls ∧ t.grid = s.grid ∧ t.treadsOld = s.treadsOld ∧ t.meas = s.meas ∧ t.therm = s.therm ∧ t.stair = s.stair ∧ t.streams = s.streams ∧ t.mem = s.mem := by
  unfold execCorridorGrantTimeout at h; cases h; (try dsimp only); (repeat' split) <;> simp [apply_ite]

theorem execSafeParam_frame (a0 : List Word) (s t : State) (h : execSafeParam a0 s = .next t) :
    t.pending = s.pending ∧ t.out = s.out ∧ t.freeCtr = s.freeCtr ∧ t.aon = s.aon ∧ t.cfg = s.cfg ∧ t.pend = s.pend ∧ t.tb = s.tb ∧ t.events = s.events ∧ t.host = s.host ∧ t.treads = s.treads ∧ t.cells = s.cells ∧ t.flights = s.flights ∧ t.halls = s.halls ∧ t.grid = s.grid ∧ t.atr = s.atr ∧ t.treadsOld = s.treadsOld ∧ t.meas = s.meas ∧ t.therm = s.therm ∧ t.twin = s.twin ∧ t.stair = s.stair ∧ t.nvm = s.nvm ∧ t.streams = s.streams ∧ t.mem = s.mem := by
  unfold execSafeParam at h; cases h
  refine ⟨?_, ?_, ?_, ?_, ?_, ?_, ?_, ?_, ?_, ?_, ?_, ?_, ?_, ?_, ?_, ?_, ?_, ?_, ?_, ?_, ?_, ?_, ?_⟩
  · repeat' (first | (simp [apply_ite State.pending]; done) | with_reducible refine (each_keep State.pending _ _ _ (fun _ _ => ?_)).trans ?_ | with_reducible refine command_keep State.pending _ _ _ (fun _ => ?_) (fun _ => ?_) | split)
  · repeat' (first | (simp [apply_ite State.out]; done) | with_reducible refine (each_keep State.out _ _ _ (fun _ _ => ?_)).trans ?_ | with_reducible refine command_keep State.out _ _ _ (fun _ => ?_) (fun _ => ?_) | split)
  · repeat' (first | (simp [apply_ite State.freeCtr]; done) | with_reducible refine (each_keep State.freeCtr _ _ _ (fun _ _ => ?_)).trans ?_ | with_reducible refine command_keep State.freeCtr _ _ _ (fun _ => ?_) (fun _ => ?_) | split)
  · repeat' (first | (simp [apply_ite State.aon]; done) | with_reducible refine (each_keep State.aon _ _ _ (fun _ _ => ?_)).trans ?_ | with_reducible refine command_keep State.aon _ _ _ (fun _ => ?_) (fun _ => ?_) | split)
  · repeat' (first | (simp [apply_ite State.cfg]; done) | with_reducible refine (each_keep State.cfg _ _ _ (fun _ _ => ?_)).trans ?_ | with_reducible refine command_keep State.cfg _ _ _ (fun _ => ?_) (fun _ => ?_) | split)
  · repeat' (first | (simp [apply_ite State.pend]; done) | with_reducible refine (each_keep State.pend _ _ _ (fun _ _ => ?_)).trans ?_ | with_reducible refine command_keep State.pend _ _ _ (fun _ => ?_) (fun _ => ?_) | split)
  · repeat' (first | (simp [apply_ite State.tb]; done) | with_reducible refine (each_keep State.tb _ _ _ (fun _ _ => ?_)).trans ?_ | with_reducible refine command_keep State.tb _ _ _ (fun _ => ?_) (fun _ => ?_) | split)
  · repeat' (first | (simp [apply_ite State.events]; done) | with_reducible refine (each_keep State.events _ _ _ (fun _ _ => ?_)).trans ?_ | with_reducible refine command_keep State.events _ _ _ (fun _ => ?_) (fun _ => ?_) | split)
  · repeat' (first | (simp [apply_ite State.host]; done) | with_reducible refine (each_keep State.host _ _ _ (fun _ _ => ?_)).trans ?_ | with_reducible refine command_keep State.host _ _ _ (fun _ => ?_) (fun _ => ?_) | split)
  · repeat' (first | (simp [apply_ite State.treads]; done) | with_reducible refine (each_keep State.treads _ _ _ (fun _ _ => ?_)).trans ?_ | with_reducible refine command_keep State.treads _ _ _ (fun _ => ?_) (fun _ => ?_) | split)
  · repeat' (first | (simp [apply_ite State.cells]; done) | with_reducible refine (each_keep State.cells _ _ _ (fun _ _ => ?_)).trans ?_ | with_reducible refine command_keep State.cells _ _ _ (fun _ => ?_) (fun _ => ?_) | split)
  · repeat' (first | (simp [apply_ite State.flights]; done) | with_reducible refine (each_keep State.flights _ _ _ (fun _ _ => ?_)).trans ?_ | with_reducible refine command_keep State.flights _ _ _ (fun _ => ?_) (fun _ => ?_) | split)
  · repeat' (first | (simp [apply_ite State.halls]; done) | with_reducible refine (each_keep State.halls _ _ _ (fun _ _ => ?_)).trans ?_ | with_reducible refine command_keep State.halls _ _ _ (fun _ => ?_) (fun _ => ?_) | split)
  · repeat' (first | (simp [apply_ite State.grid]; done) | with_reducible refine (each_keep State.grid _ _ _ (fun _ _ => ?_)).trans ?_ | with_reducible refine command_keep State.grid _ _ _ (fun _ => ?_) (fun _ => ?_) | split)
  · repeat' (first | (simp [apply_ite State.atr]; done) | with_reducible refine (each_keep State.atr _ _ _ (fun _ _ => ?_)).trans ?_ | with_reducible refine command_keep State.atr _ _ _ (fun _ => ?_) (fun _ => ?_) | split)
  · repeat' (first | (simp [apply_ite State.treadsOld]; done) | with_reducible refine (each_keep State.treadsOld _ _ _ (fun _ _ => ?_)).trans ?_ | with_reducible refine command_keep State.treadsOld _ _ _ (fun _ => ?_) (fun _ => ?_) | split)
  · repeat' (first | (simp [apply_ite State.meas]; done) | with_reducible refine (each_keep State.meas _ _ _ (fun _ _ => ?_)).trans ?_ | with_reducible refine command_keep State.meas _ _ _ (fun _ => ?_) (fun _ => ?_) | split)
  · repeat' (first | (simp [apply_ite State.therm]; done) | with_reducible refine (each_keep State.therm _ _ _ (fun _ _ => ?_)).trans ?_ | with_reducible refine command_keep State.therm _ _ _ (fun _ => ?_) (fun _ => ?_) | split)
  · repeat' (first | (simp [apply_ite State.twin]; done) | with_reducible refine (each_keep State.twin _ _ _ (fun _ _ => ?_)).trans ?_ | with_reducible refine command_keep State.twin _ _ _ (fun _ => ?_) (fun _ => ?_) | split)
  · repeat' (first | (simp [apply_ite State.stair]; done) | with_reducible refine (each_keep State.stair _ _ _ (fun _ _ => ?_)).trans ?_ | with_reducible refine command_keep State.stair _ _ _ (fun _ => ?_) (fun _ => ?_) | split)
  · repeat' (first | (simp [apply_ite State.nvm]; done) | with_reducible refine (each_keep State.nvm _ _ _ (fun _ _ => ?_)).trans ?_ | with_reducible refine command_keep State.nvm _ _ _ (fun _ => ?_) (fun _ => ?_) | split)
  · repeat' (first | (simp [apply_ite State.streams]; done) | with_reducible refine (each_keep State.streams _ _ _ (fun _ _ => ?_)).trans ?_ | with_reducible refine command_keep State.streams _ _ _ (fun _ => ?_) (fun _ => ?_) | split)
  · repeat' (first | (simp [apply_ite State.mem]; done) | with_reducible refine (each_keep State.mem _ _ _ (fun _ _ => ?_)).trans ?_ | with_reducible refine command_keep State.mem _ _ _ (fun _ => ?_) (fun _ => ?_) | split)

theorem execSafeCrcRead_frame (a0 : List Word) (s t : State) (h : execSafeCrcRead a0 s = .next t) :
    t.pending = s.pending ∧ t.out = s.out ∧ t.freeCtr = s.freeCtr ∧ t.aon = s.aon ∧ t.cfg = s.cfg ∧ t.pend = s.pend ∧ t.tb = s.tb ∧ t.events = s.events ∧ t.host = s.host ∧ t.treads = s.treads ∧ t.cells = s.cells ∧ t.flights = s.flights ∧ t.halls = s.halls ∧ t.grid = s.grid ∧ t.atr = s.atr ∧ t.treadsOld = s.treadsOld ∧ t.meas = s.meas ∧ t.safe = s.safe ∧ t.therm = s.therm ∧ t.twin = s.twin ∧ t.stair = s.stair ∧ t.nvm = s.nvm ∧ t.streams = s.streams ∧ t.mem = s.mem := by
  unfold execSafeCrcRead at h; cases h; (try dsimp only); (repeat' split) <;> simp [apply_ite]

theorem execSafeConfirm_frame (a0 : List Word) (s t : State) (h : execSafeConfirm a0 s = .next t) :
    t.pending = s.pending ∧ t.out = s.out ∧ t.freeCtr = s.freeCtr ∧ t.aon = s.aon ∧ t.cfg = s.cfg ∧ t.pend = s.pend ∧ t.tb = s.tb ∧ t.events = s.events ∧ t.host = s.host ∧ t.treads = s.treads ∧ t.cells = s.cells ∧ t.flights = s.flights ∧ t.halls = s.halls ∧ t.grid = s.grid ∧ t.atr = s.atr ∧ t.treadsOld = s.treadsOld ∧ t.meas = s.meas ∧ t.safe = s.safe ∧ t.therm = s.therm ∧ t.twin = s.twin ∧ t.stair = s.stair ∧ t.streams = s.streams ∧ t.mem = s.mem := by
  unfold execSafeConfirm at h; cases h
  refine ⟨?_, ?_, ?_, ?_, ?_, ?_, ?_, ?_, ?_, ?_, ?_, ?_, ?_, ?_, ?_, ?_, ?_, ?_, ?_, ?_, ?_, ?_, ?_⟩
  · repeat' (first | (simp [apply_ite State.pending]; done) | with_reducible refine (each_keep State.pending _ _ _ (fun _ _ => ?_)).trans ?_ | with_reducible refine command_keep State.pending _ _ _ (fun _ => ?_) (fun _ => ?_) | split)
  · repeat' (first | (simp [apply_ite State.out]; done) | with_reducible refine (each_keep State.out _ _ _ (fun _ _ => ?_)).trans ?_ | with_reducible refine command_keep State.out _ _ _ (fun _ => ?_) (fun _ => ?_) | split)
  · repeat' (first | (simp [apply_ite State.freeCtr]; done) | with_reducible refine (each_keep State.freeCtr _ _ _ (fun _ _ => ?_)).trans ?_ | with_reducible refine command_keep State.freeCtr _ _ _ (fun _ => ?_) (fun _ => ?_) | split)
  · repeat' (first | (simp [apply_ite State.aon]; done) | with_reducible refine (each_keep State.aon _ _ _ (fun _ _ => ?_)).trans ?_ | with_reducible refine command_keep State.aon _ _ _ (fun _ => ?_) (fun _ => ?_) | split)
  · repeat' (first | (simp [apply_ite State.cfg]; done) | with_reducible refine (each_keep State.cfg _ _ _ (fun _ _ => ?_)).trans ?_ | with_reducible refine command_keep State.cfg _ _ _ (fun _ => ?_) (fun _ => ?_) | split)
  · repeat' (first | (simp [apply_ite State.pend]; done) | with_reducible refine (each_keep State.pend _ _ _ (fun _ _ => ?_)).trans ?_ | with_reducible refine command_keep State.pend _ _ _ (fun _ => ?_) (fun _ => ?_) | split)
  · repeat' (first | (simp [apply_ite State.tb]; done) | with_reducible refine (each_keep State.tb _ _ _ (fun _ _ => ?_)).trans ?_ | with_reducible refine command_keep State.tb _ _ _ (fun _ => ?_) (fun _ => ?_) | split)
  · repeat' (first | (simp [apply_ite State.events]; done) | with_reducible refine (each_keep State.events _ _ _ (fun _ _ => ?_)).trans ?_ | with_reducible refine command_keep State.events _ _ _ (fun _ => ?_) (fun _ => ?_) | split)
  · repeat' (first | (simp [apply_ite State.host]; done) | with_reducible refine (each_keep State.host _ _ _ (fun _ _ => ?_)).trans ?_ | with_reducible refine command_keep State.host _ _ _ (fun _ => ?_) (fun _ => ?_) | split)
  · repeat' (first | (simp [apply_ite State.treads]; done) | with_reducible refine (each_keep State.treads _ _ _ (fun _ _ => ?_)).trans ?_ | with_reducible refine command_keep State.treads _ _ _ (fun _ => ?_) (fun _ => ?_) | split)
  · repeat' (first | (simp [apply_ite State.cells]; done) | with_reducible refine (each_keep State.cells _ _ _ (fun _ _ => ?_)).trans ?_ | with_reducible refine command_keep State.cells _ _ _ (fun _ => ?_) (fun _ => ?_) | split)
  · repeat' (first | (simp [apply_ite State.flights]; done) | with_reducible refine (each_keep State.flights _ _ _ (fun _ _ => ?_)).trans ?_ | with_reducible refine command_keep State.flights _ _ _ (fun _ => ?_) (fun _ => ?_) | split)
  · repeat' (first | (simp [apply_ite State.halls]; done) | with_reducible refine (each_keep State.halls _ _ _ (fun _ _ => ?_)).trans ?_ | with_reducible refine command_keep State.halls _ _ _ (fun _ => ?_) (fun _ => ?_) | split)
  · repeat' (first | (simp [apply_ite State.grid]; done) | with_reducible refine (each_keep State.grid _ _ _ (fun _ _ => ?_)).trans ?_ | with_reducible refine command_keep State.grid _ _ _ (fun _ => ?_) (fun _ => ?_) | split)
  · repeat' (first | (simp [apply_ite State.atr]; done) | with_reducible refine (each_keep State.atr _ _ _ (fun _ _ => ?_)).trans ?_ | with_reducible refine command_keep State.atr _ _ _ (fun _ => ?_) (fun _ => ?_) | split)
  · repeat' (first | (simp [apply_ite State.treadsOld]; done) | with_reducible refine (each_keep State.treadsOld _ _ _ (fun _ _ => ?_)).trans ?_ | with_reducible refine command_keep State.treadsOld _ _ _ (fun _ => ?_) (fun _ => ?_) | split)
  · repeat' (first | (simp [apply_ite State.meas]; done) | with_reducible refine (each_keep State.meas _ _ _ (fun _ _ => ?_)).trans ?_ | with_reducible refine command_keep State.meas _ _ _ (fun _ => ?_) (fun _ => ?_) | split)
  · repeat' (first | (simp [apply_ite State.safe]; done) | with_reducible refine (each_keep State.safe _ _ _ (fun _ _ => ?_)).trans ?_ | with_reducible refine command_keep State.safe _ _ _ (fun _ => ?_) (fun _ => ?_) | split)
  · repeat' (first | (simp [apply_ite State.therm]; done) | with_reducible refine (each_keep State.therm _ _ _ (fun _ _ => ?_)).trans ?_ | with_reducible refine command_keep State.therm _ _ _ (fun _ => ?_) (fun _ => ?_) | split)
  · repeat' (first | (simp [apply_ite State.twin]; done) | with_reducible refine (each_keep State.twin _ _ _ (fun _ _ => ?_)).trans ?_ | with_reducible refine command_keep State.twin _ _ _ (fun _ => ?_) (fun _ => ?_) | split)
  · repeat' (first | (simp [apply_ite State.stair]; done) | with_reducible refine (each_keep State.stair _ _ _ (fun _ _ => ?_)).trans ?_ | with_reducible refine command_keep State.stair _ _ _ (fun _ => ?_) (fun _ => ?_) | split)
  · repeat' (first | (simp [apply_ite State.streams]; done) | with_reducible refine (each_keep State.streams _ _ _ (fun _ _ => ?_)).trans ?_ | with_reducible refine command_keep State.streams _ _ _ (fun _ => ?_) (fun _ => ?_) | split)
  · repeat' (first | (simp [apply_ite State.mem]; done) | with_reducible refine (each_keep State.mem _ _ _ (fun _ _ => ?_)).trans ?_ | with_reducible refine command_keep State.mem _ _ _ (fun _ => ?_) (fun _ => ?_) | split)

@[simp] theorem unconfirmed_frame (s : State) :
    (unconfirmed s).pending = s.pending ∧ (unconfirmed s).reply = s.reply ∧ (unconfirmed s).freeCtr = s.freeCtr ∧ (unconfirmed s).cfg = s.cfg ∧ (unconfirmed s).pend = s.pend ∧ (unconfirmed s).tb = s.tb ∧ (unconfirmed s).treads = s.treads ∧ (unconfirmed s).flights = s.flights ∧ (unconfirmed s).halls = s.halls ∧ (unconfirmed s).grid = s.grid ∧ (unconfirmed s).treadsOld = s.treadsOld ∧ (unconfirmed s).meas = s.meas ∧ (unconfirmed s).therm = s.therm ∧ (unconfirmed s).twin = s.twin ∧ (unconfirmed s).stair = s.stair ∧ (unconfirmed s).streams = s.streams ∧ (unconfirmed s).mem = s.mem := by
  unfold unconfirmed
  (try dsimp only)
  (repeat' split) <;> simp [apply_ite]

@[simp] theorem confirmLost_frame (a0 : NvmThen) (s : State) :
    (confirmLost a0 s).pending = s.pending ∧ (confirmLost a0 s).freeCtr = s.freeCtr ∧ (confirmLost a0 s).cfg = s.cfg ∧ (confirmLost a0 s).pend = s.pend ∧ (confirmLost a0 s).tb = s.tb ∧ (confirmLost a0 s).events = s.events ∧ (confirmLost a0 s).treads = s.treads ∧ (confirmLost a0 s).cells = s.cells ∧ (confirmLost a0 s).flights = s.flights ∧ (confirmLost a0 s).halls = s.halls ∧ (confirmLost a0 s).grid = s.grid ∧ (confirmLost a0 s).atr = s.atr ∧ (confirmLost a0 s).treadsOld = s.treadsOld ∧ (confirmLost a0 s).meas = s.meas ∧ (confirmLost a0 s).safe = s.safe ∧ (confirmLost a0 s).therm = s.therm ∧ (confirmLost a0 s).twin = s.twin ∧ (confirmLost a0 s).stair = s.stair ∧ (confirmLost a0 s).nvm = s.nvm ∧ (confirmLost a0 s).streams = s.streams ∧ (confirmLost a0 s).mem = s.mem := by
  unfold confirmLost
  (try dsimp only)
  (repeat' split) <;> simp [apply_ite]

@[simp] theorem dropConfirms_frame (s : State) :
    (dropConfirms s).pending = s.pending ∧ (dropConfirms s).freeCtr = s.freeCtr ∧ (dropConfirms s).cfg = s.cfg ∧ (dropConfirms s).pend = s.pend ∧ (dropConfirms s).tb = s.tb ∧ (dropConfirms s).events = s.events ∧ (dropConfirms s).treads = s.treads ∧ (dropConfirms s).cells = s.cells ∧ (dropConfirms s).flights = s.flights ∧ (dropConfirms s).halls = s.halls ∧ (dropConfirms s).grid = s.grid ∧ (dropConfirms s).atr = s.atr ∧ (dropConfirms s).treadsOld = s.treadsOld ∧ (dropConfirms s).meas = s.meas ∧ (dropConfirms s).safe = s.safe ∧ (dropConfirms s).therm = s.therm ∧ (dropConfirms s).twin = s.twin ∧ (dropConfirms s).stair = s.stair ∧ (dropConfirms s).streams = s.streams ∧ (dropConfirms s).mem = s.mem := by
  unfold dropConfirms
  (try dsimp only)
  (repeat' split) <;> simp [apply_ite]

theorem execSafeConfirmWithdraw_frame (a0 : List Word) (s t : State) (h : execSafeConfirmWithdraw a0 s = .next t) :
    t.pending = s.pending ∧ t.freeCtr = s.freeCtr ∧ t.cfg = s.cfg ∧ t.pend = s.pend ∧ t.tb = s.tb ∧ t.treads = s.treads ∧ t.flights = s.flights ∧ t.halls = s.halls ∧ t.grid = s.grid ∧ t.treadsOld = s.treadsOld ∧ t.meas = s.meas ∧ t.therm = s.therm ∧ t.twin = s.twin ∧ t.stair = s.stair ∧ t.streams = s.streams ∧ t.mem = s.mem := by
  unfold execSafeConfirmWithdraw at h; cases h; (try dsimp only); (repeat' split) <;> simp [apply_ite]

@[simp] theorem confirmDone_frame (a0 : Option Pkt) (a1 : Word) (s : State) :
    (confirmDone a0 a1 s).pending = s.pending ∧ (confirmDone a0 a1 s).freeCtr = s.freeCtr ∧ (confirmDone a0 a1 s).cfg = s.cfg ∧ (confirmDone a0 a1 s).pend = s.pend ∧ (confirmDone a0 a1 s).tb = s.tb ∧ (confirmDone a0 a1 s).events = s.events ∧ (confirmDone a0 a1 s).treads = s.treads ∧ (confirmDone a0 a1 s).cells = s.cells ∧ (confirmDone a0 a1 s).flights = s.flights ∧ (confirmDone a0 a1 s).halls = s.halls ∧ (confirmDone a0 a1 s).grid = s.grid ∧ (confirmDone a0 a1 s).atr = s.atr ∧ (confirmDone a0 a1 s).treadsOld = s.treadsOld ∧ (confirmDone a0 a1 s).meas = s.meas ∧ (confirmDone a0 a1 s).therm = s.therm ∧ (confirmDone a0 a1 s).twin = s.twin ∧ (confirmDone a0 a1 s).stair = s.stair ∧ (confirmDone a0 a1 s).nvm = s.nvm ∧ (confirmDone a0 a1 s).streams = s.streams ∧ (confirmDone a0 a1 s).mem = s.mem := by
  unfold confirmDone
  (try dsimp only)
  (repeat' split) <;> simp [apply_ite]

@[simp] theorem crcFail_frame (s : State) :
    (crcFail s).pending = s.pending ∧ (crcFail s).reply = s.reply ∧ (crcFail s).freeCtr = s.freeCtr ∧ (crcFail s).cfg = s.cfg ∧ (crcFail s).pend = s.pend ∧ (crcFail s).tb = s.tb ∧ (crcFail s).treads = s.treads ∧ (crcFail s).flights = s.flights ∧ (crcFail s).halls = s.halls ∧ (crcFail s).grid = s.grid ∧ (crcFail s).treadsOld = s.treadsOld ∧ (crcFail s).meas = s.meas ∧ (crcFail s).therm = s.therm ∧ (crcFail s).twin = s.twin ∧ (crcFail s).stair = s.stair ∧ (crcFail s).streams = s.streams ∧ (crcFail s).mem = s.mem := by
  unfold crcFail
  (try dsimp only)
  (repeat' split) <;> simp [apply_ite]

theorem execCheckValueRecompute_frame (s t : State) (h : execCheckValueRecompute s = .next t) :
    t.pending = s.pending ∧ t.reply = s.reply ∧ t.freeCtr = s.freeCtr ∧ t.cfg = s.cfg ∧ t.pend = s.pend ∧ t.tb = s.tb ∧ t.treads = s.treads ∧ t.flights = s.flights ∧ t.halls = s.halls ∧ t.grid = s.grid ∧ t.treadsOld = s.treadsOld ∧ t.meas = s.meas ∧ t.therm = s.therm ∧ t.twin = s.twin ∧ t.stair = s.stair ∧ t.streams = s.streams ∧ t.mem = s.mem := by
  unfold execCheckValueRecompute at h; cases h; (try dsimp only); (repeat' split) <;> simp [apply_ite]

@[simp] theorem safetyArrive_frame (s : State) :
    (safetyArrive s).pending = s.pending ∧ (safetyArrive s).reply = s.reply ∧ (safetyArrive s).freeCtr = s.freeCtr ∧ (safetyArrive s).cfg = s.cfg ∧ (safetyArrive s).pend = s.pend ∧ (safetyArrive s).tb = s.tb ∧ (safetyArrive s).treads = s.treads ∧ (safetyArrive s).flights = s.flights ∧ (safetyArrive s).halls = s.halls ∧ (safetyArrive s).grid = s.grid ∧ (safetyArrive s).treadsOld = s.treadsOld ∧ (safetyArrive s).meas = s.meas ∧ (safetyArrive s).therm = s.therm ∧ (safetyArrive s).twin = s.twin ∧ (safetyArrive s).stair = s.stair ∧ (safetyArrive s).streams = s.streams ∧ (safetyArrive s).mem = s.mem := by
  unfold safetyArrive
  (try dsimp only)
  (repeat' split) <;> simp [apply_ite]

@[simp] theorem safetyLoad_frame (s : State) :
    (safetyLoad s).pending = s.pending ∧ (safetyLoad s).reply = s.reply ∧ (safetyLoad s).freeCtr = s.freeCtr ∧ (safetyLoad s).cfg = s.cfg ∧ (safetyLoad s).pend = s.pend ∧ (safetyLoad s).tb = s.tb ∧ (safetyLoad s).treads = s.treads ∧ (safetyLoad s).flights = s.flights ∧ (safetyLoad s).halls = s.halls ∧ (safetyLoad s).grid = s.grid ∧ (safetyLoad s).treadsOld = s.treadsOld ∧ (safetyLoad s).meas = s.meas ∧ (safetyLoad s).therm = s.therm ∧ (safetyLoad s).twin = s.twin ∧ (safetyLoad s).stair = s.stair ∧ (safetyLoad s).streams = s.streams ∧ (safetyLoad s).mem = s.mem := by
  unfold safetyLoad
  (try dsimp only)
  (repeat' split) <;> simp [apply_ite]

theorem execSafeStatus_frame (a0 : List Word) (s t : State) (h : execSafeStatus a0 s = .next t) :
    t.pending = s.pending ∧ t.out = s.out ∧ t.freeCtr = s.freeCtr ∧ t.aon = s.aon ∧ t.cfg = s.cfg ∧ t.pend = s.pend ∧ t.tb = s.tb ∧ t.events = s.events ∧ t.host = s.host ∧ t.treads = s.treads ∧ t.cells = s.cells ∧ t.flights = s.flights ∧ t.halls = s.halls ∧ t.grid = s.grid ∧ t.atr = s.atr ∧ t.treadsOld = s.treadsOld ∧ t.meas = s.meas ∧ t.safe = s.safe ∧ t.therm = s.therm ∧ t.twin = s.twin ∧ t.stair = s.stair ∧ t.nvm = s.nvm ∧ t.streams = s.streams ∧ t.mem = s.mem := by
  unfold execSafeStatus at h; cases h; (try dsimp only); (repeat' split) <;> simp [apply_ite]

@[simp] theorem releaseNow_frame (s : State) :
    (releaseNow s).pending = s.pending ∧ (releaseNow s).reply = s.reply ∧ (releaseNow s).out = s.out ∧ (releaseNow s).freeCtr = s.freeCtr ∧ (releaseNow s).aon = s.aon ∧ (releaseNow s).cfg = s.cfg ∧ (releaseNow s).pend = s.pend ∧ (releaseNow s).tb = s.tb ∧ (releaseNow s).events = s.events ∧ (releaseNow s).host = s.host ∧ (releaseNow s).treads = s.treads ∧ (releaseNow s).cells = s.cells ∧ (releaseNow s).flights = s.flights ∧ (releaseNow s).halls = s.halls ∧ (releaseNow s).grid = s.grid ∧ (releaseNow s).atr = s.atr ∧ (releaseNow s).treadsOld = s.treadsOld ∧ (releaseNow s).meas = s.meas ∧ (releaseNow s).therm = s.therm ∧ (releaseNow s).twin = s.twin ∧ (releaseNow s).stair = s.stair ∧ (releaseNow s).nvm = s.nvm ∧ (releaseNow s).streams = s.streams ∧ (releaseNow s).mem = s.mem := by
  unfold releaseNow
  (try dsimp only)
  (repeat' split) <;> simp [apply_ite]

theorem execRelease_frame (a0 : List Word) (s t : State) (h : execRelease a0 s = .next t) :
    t.pending = s.pending ∧ t.out = s.out ∧ t.freeCtr = s.freeCtr ∧ t.aon = s.aon ∧ t.cfg = s.cfg ∧ t.pend = s.pend ∧ t.tb = s.tb ∧ t.events = s.events ∧ t.host = s.host ∧ t.treads = s.treads ∧ t.cells = s.cells ∧ t.flights = s.flights ∧ t.halls = s.halls ∧ t.grid = s.grid ∧ t.atr = s.atr ∧ t.treadsOld = s.treadsOld ∧ t.meas = s.meas ∧ t.therm = s.therm ∧ t.twin = s.twin ∧ t.stair = s.stair ∧ t.nvm = s.nvm ∧ t.streams = s.streams ∧ t.mem = s.mem := by
  unfold execRelease at h; cases h
  refine ⟨?_, ?_, ?_, ?_, ?_, ?_, ?_, ?_, ?_, ?_, ?_, ?_, ?_, ?_, ?_, ?_, ?_, ?_, ?_, ?_, ?_, ?_, ?_⟩
  · repeat' (first | (simp [apply_ite State.pending]; done) | with_reducible refine (each_keep State.pending _ _ _ (fun _ _ => ?_)).trans ?_ | with_reducible refine command_keep State.pending _ _ _ (fun _ => ?_) (fun _ => ?_) | split)
  · repeat' (first | (simp [apply_ite State.out]; done) | with_reducible refine (each_keep State.out _ _ _ (fun _ _ => ?_)).trans ?_ | with_reducible refine command_keep State.out _ _ _ (fun _ => ?_) (fun _ => ?_) | split)
  · repeat' (first | (simp [apply_ite State.freeCtr]; done) | with_reducible refine (each_keep State.freeCtr _ _ _ (fun _ _ => ?_)).trans ?_ | with_reducible refine command_keep State.freeCtr _ _ _ (fun _ => ?_) (fun _ => ?_) | split)
  · repeat' (first | (simp [apply_ite State.aon]; done) | with_reducible refine (each_keep State.aon _ _ _ (fun _ _ => ?_)).trans ?_ | with_reducible refine command_keep State.aon _ _ _ (fun _ => ?_) (fun _ => ?_) | split)
  · repeat' (first | (simp [apply_ite State.cfg]; done) | with_reducible refine (each_keep State.cfg _ _ _ (fun _ _ => ?_)).trans ?_ | with_reducible refine command_keep State.cfg _ _ _ (fun _ => ?_) (fun _ => ?_) | split)
  · repeat' (first | (simp [apply_ite State.pend]; done) | with_reducible refine (each_keep State.pend _ _ _ (fun _ _ => ?_)).trans ?_ | with_reducible refine command_keep State.pend _ _ _ (fun _ => ?_) (fun _ => ?_) | split)
  · repeat' (first | (simp [apply_ite State.tb]; done) | with_reducible refine (each_keep State.tb _ _ _ (fun _ _ => ?_)).trans ?_ | with_reducible refine command_keep State.tb _ _ _ (fun _ => ?_) (fun _ => ?_) | split)
  · repeat' (first | (simp [apply_ite State.events]; done) | with_reducible refine (each_keep State.events _ _ _ (fun _ _ => ?_)).trans ?_ | with_reducible refine command_keep State.events _ _ _ (fun _ => ?_) (fun _ => ?_) | split)
  · repeat' (first | (simp [apply_ite State.host]; done) | with_reducible refine (each_keep State.host _ _ _ (fun _ _ => ?_)).trans ?_ | with_reducible refine command_keep State.host _ _ _ (fun _ => ?_) (fun _ => ?_) | split)
  · repeat' (first | (simp [apply_ite State.treads]; done) | with_reducible refine (each_keep State.treads _ _ _ (fun _ _ => ?_)).trans ?_ | with_reducible refine command_keep State.treads _ _ _ (fun _ => ?_) (fun _ => ?_) | split)
  · repeat' (first | (simp [apply_ite State.cells]; done) | with_reducible refine (each_keep State.cells _ _ _ (fun _ _ => ?_)).trans ?_ | with_reducible refine command_keep State.cells _ _ _ (fun _ => ?_) (fun _ => ?_) | split)
  · repeat' (first | (simp [apply_ite State.flights]; done) | with_reducible refine (each_keep State.flights _ _ _ (fun _ _ => ?_)).trans ?_ | with_reducible refine command_keep State.flights _ _ _ (fun _ => ?_) (fun _ => ?_) | split)
  · repeat' (first | (simp [apply_ite State.halls]; done) | with_reducible refine (each_keep State.halls _ _ _ (fun _ _ => ?_)).trans ?_ | with_reducible refine command_keep State.halls _ _ _ (fun _ => ?_) (fun _ => ?_) | split)
  · repeat' (first | (simp [apply_ite State.grid]; done) | with_reducible refine (each_keep State.grid _ _ _ (fun _ _ => ?_)).trans ?_ | with_reducible refine command_keep State.grid _ _ _ (fun _ => ?_) (fun _ => ?_) | split)
  · repeat' (first | (simp [apply_ite State.atr]; done) | with_reducible refine (each_keep State.atr _ _ _ (fun _ _ => ?_)).trans ?_ | with_reducible refine command_keep State.atr _ _ _ (fun _ => ?_) (fun _ => ?_) | split)
  · repeat' (first | (simp [apply_ite State.treadsOld]; done) | with_reducible refine (each_keep State.treadsOld _ _ _ (fun _ _ => ?_)).trans ?_ | with_reducible refine command_keep State.treadsOld _ _ _ (fun _ => ?_) (fun _ => ?_) | split)
  · repeat' (first | (simp [apply_ite State.meas]; done) | with_reducible refine (each_keep State.meas _ _ _ (fun _ _ => ?_)).trans ?_ | with_reducible refine command_keep State.meas _ _ _ (fun _ => ?_) (fun _ => ?_) | split)
  · repeat' (first | (simp [apply_ite State.therm]; done) | with_reducible refine (each_keep State.therm _ _ _ (fun _ _ => ?_)).trans ?_ | with_reducible refine command_keep State.therm _ _ _ (fun _ => ?_) (fun _ => ?_) | split)
  · repeat' (first | (simp [apply_ite State.twin]; done) | with_reducible refine (each_keep State.twin _ _ _ (fun _ _ => ?_)).trans ?_ | with_reducible refine command_keep State.twin _ _ _ (fun _ => ?_) (fun _ => ?_) | split)
  · repeat' (first | (simp [apply_ite State.stair]; done) | with_reducible refine (each_keep State.stair _ _ _ (fun _ _ => ?_)).trans ?_ | with_reducible refine command_keep State.stair _ _ _ (fun _ => ?_) (fun _ => ?_) | split)
  · repeat' (first | (simp [apply_ite State.nvm]; done) | with_reducible refine (each_keep State.nvm _ _ _ (fun _ _ => ?_)).trans ?_ | with_reducible refine command_keep State.nvm _ _ _ (fun _ => ?_) (fun _ => ?_) | split)
  · repeat' (first | (simp [apply_ite State.streams]; done) | with_reducible refine (each_keep State.streams _ _ _ (fun _ _ => ?_)).trans ?_ | with_reducible refine command_keep State.streams _ _ _ (fun _ => ?_) (fun _ => ?_) | split)
  · repeat' (first | (simp [apply_ite State.mem]; done) | with_reducible refine (each_keep State.mem _ _ _ (fun _ _ => ?_)).trans ?_ | with_reducible refine command_keep State.mem _ _ _ (fun _ => ?_) (fun _ => ?_) | split)

theorem execDemand_frame (s t : State) (h : execDemand s = .next t) :
    t.pending = s.pending ∧ t.reply = s.reply ∧ t.freeCtr = s.freeCtr ∧ t.cfg = s.cfg ∧ t.pend = s.pend ∧ t.tb = s.tb ∧ t.treads = s.treads ∧ t.flights = s.flights ∧ t.halls = s.halls ∧ t.grid = s.grid ∧ t.treadsOld = s.treadsOld ∧ t.meas = s.meas ∧ t.therm = s.therm ∧ t.twin = s.twin ∧ t.stair = s.stair ∧ t.streams = s.streams ∧ t.mem = s.mem := by
  unfold execDemand at h; cases h; (try dsimp only); (repeat' split) <;> simp [apply_ite]

@[simp] theorem testFault_frame (a0 : BitVec 4) (a1 : Nat) (s : State) :
    (testFault a0 a1 s).pending = s.pending ∧ (testFault a0 a1 s).reply = s.reply ∧ (testFault a0 a1 s).freeCtr = s.freeCtr ∧ (testFault a0 a1 s).cfg = s.cfg ∧ (testFault a0 a1 s).pend = s.pend ∧ (testFault a0 a1 s).tb = s.tb ∧ (testFault a0 a1 s).treads = s.treads ∧ (testFault a0 a1 s).flights = s.flights ∧ (testFault a0 a1 s).halls = s.halls ∧ (testFault a0 a1 s).grid = s.grid ∧ (testFault a0 a1 s).treadsOld = s.treadsOld ∧ (testFault a0 a1 s).meas = s.meas ∧ (testFault a0 a1 s).therm = s.therm ∧ (testFault a0 a1 s).twin = s.twin ∧ (testFault a0 a1 s).stair = s.stair ∧ (testFault a0 a1 s).streams = s.streams ∧ (testFault a0 a1 s).mem = s.mem := by
  unfold testFault
  (try dsimp only)
  (repeat' split) <;> simp [apply_ite]

@[simp] theorem judgeCross_frame (a0 : Byte) (a1 : Nat) (s : State) :
    (judgeCross a0 a1 s).pending = s.pending ∧ (judgeCross a0 a1 s).reply = s.reply ∧ (judgeCross a0 a1 s).freeCtr = s.freeCtr ∧ (judgeCross a0 a1 s).cfg = s.cfg ∧ (judgeCross a0 a1 s).pend = s.pend ∧ (judgeCross a0 a1 s).tb = s.tb ∧ (judgeCross a0 a1 s).treads = s.treads ∧ (judgeCross a0 a1 s).flights = s.flights ∧ (judgeCross a0 a1 s).halls = s.halls ∧ (judgeCross a0 a1 s).grid = s.grid ∧ (judgeCross a0 a1 s).treadsOld = s.treadsOld ∧ (judgeCross a0 a1 s).meas = s.meas ∧ (judgeCross a0 a1 s).therm = s.therm ∧ (judgeCross a0 a1 s).twin = s.twin ∧ (judgeCross a0 a1 s).stair = s.stair ∧ (judgeCross a0 a1 s).streams = s.streams ∧ (judgeCross a0 a1 s).mem = s.mem := by
  unfold judgeCross
  (try dsimp only)
  (repeat' split) <;> simp [apply_ite]

@[simp] theorem fbFault_frame (s : State) :
    (fbFault s).pending = s.pending ∧ (fbFault s).reply = s.reply ∧ (fbFault s).freeCtr = s.freeCtr ∧ (fbFault s).cfg = s.cfg ∧ (fbFault s).pend = s.pend ∧ (fbFault s).tb = s.tb ∧ (fbFault s).treads = s.treads ∧ (fbFault s).flights = s.flights ∧ (fbFault s).halls = s.halls ∧ (fbFault s).grid = s.grid ∧ (fbFault s).treadsOld = s.treadsOld ∧ (fbFault s).meas = s.meas ∧ (fbFault s).therm = s.therm ∧ (fbFault s).twin = s.twin ∧ (fbFault s).stair = s.stair ∧ (fbFault s).streams = s.streams ∧ (fbFault s).mem = s.mem := by
  unfold fbFault
  (try dsimp only)
  (repeat' split) <;> simp [apply_ite]

theorem execSafetyInputSample_frame (a0 : Byte) (a1 : Bool) (a2 : BitVec 2) (s t : State) (h : execSafetyInputSample a0 a1 a2 s = .next t) :
    t.pending = s.pending ∧ t.reply = s.reply ∧ t.freeCtr = s.freeCtr ∧ t.cfg = s.cfg ∧ t.pend = s.pend ∧ t.tb = s.tb ∧ t.treads = s.treads ∧ t.flights = s.flights ∧ t.halls = s.halls ∧ t.grid = s.grid ∧ t.treadsOld = s.treadsOld ∧ t.meas = s.meas ∧ t.therm = s.therm ∧ t.twin = s.twin ∧ t.stair = s.stair ∧ t.streams = s.streams ∧ t.mem = s.mem := by
  unfold execSafetyInputSample at h; cases h; (try dsimp only); (repeat' split) <;> simp [apply_ite]

theorem execSinDemand_frame (a0 : Fin 4) (a1 : Bool) (s t : State) (h : execSinDemand a0 a1 s = .next t) :
    t.pending = s.pending ∧ t.reply = s.reply ∧ t.freeCtr = s.freeCtr ∧ t.cfg = s.cfg ∧ t.pend = s.pend ∧ t.tb = s.tb ∧ t.treads = s.treads ∧ t.flights = s.flights ∧ t.halls = s.halls ∧ t.grid = s.grid ∧ t.treadsOld = s.treadsOld ∧ t.meas = s.meas ∧ t.therm = s.therm ∧ t.twin = s.twin ∧ t.stair = s.stair ∧ t.streams = s.streams ∧ t.mem = s.mem := by
  unfold execSinDemand at h; cases h; (try dsimp only); (repeat' split) <;> simp [apply_ite]

theorem execSinDisc_frame (a0 : Fin 4) (s t : State) (h : execSinDisc a0 s = .next t) :
    t.pending = s.pending ∧ t.reply = s.reply ∧ t.freeCtr = s.freeCtr ∧ t.cfg = s.cfg ∧ t.pend = s.pend ∧ t.tb = s.tb ∧ t.treads = s.treads ∧ t.flights = s.flights ∧ t.halls = s.halls ∧ t.grid = s.grid ∧ t.treadsOld = s.treadsOld ∧ t.meas = s.meas ∧ t.therm = s.therm ∧ t.twin = s.twin ∧ t.stair = s.stair ∧ t.streams = s.streams ∧ t.mem = s.mem := by
  unfold execSinDisc at h; cases h; (try dsimp only); (repeat' split) <;> simp [apply_ite]

@[simp] theorem setWin_frame (a0 : Nat) (a1 : TestWindow → TestWindow) (s : State) :
    (setWin a0 a1 s).pending = s.pending ∧ (setWin a0 a1 s).reply = s.reply ∧ (setWin a0 a1 s).out = s.out ∧ (setWin a0 a1 s).freeCtr = s.freeCtr ∧ (setWin a0 a1 s).aon = s.aon ∧ (setWin a0 a1 s).cfg = s.cfg ∧ (setWin a0 a1 s).pend = s.pend ∧ (setWin a0 a1 s).tb = s.tb ∧ (setWin a0 a1 s).events = s.events ∧ (setWin a0 a1 s).host = s.host ∧ (setWin a0 a1 s).treads = s.treads ∧ (setWin a0 a1 s).cells = s.cells ∧ (setWin a0 a1 s).flights = s.flights ∧ (setWin a0 a1 s).halls = s.halls ∧ (setWin a0 a1 s).grid = s.grid ∧ (setWin a0 a1 s).atr = s.atr ∧ (setWin a0 a1 s).treadsOld = s.treadsOld ∧ (setWin a0 a1 s).meas = s.meas ∧ (setWin a0 a1 s).therm = s.therm ∧ (setWin a0 a1 s).twin = s.twin ∧ (setWin a0 a1 s).stair = s.stair ∧ (setWin a0 a1 s).nvm = s.nvm ∧ (setWin a0 a1 s).streams = s.streams ∧ (setWin a0 a1 s).mem = s.mem := by
  unfold setWin
  (try dsimp only)
  (repeat' split) <;> simp [apply_ite]

theorem execTpoPulse_frame (a0 : Fin 2) (s t : State) (h : execTpoPulse a0 s = .next t) :
    t.pending = s.pending ∧ t.reply = s.reply ∧ t.out = s.out ∧ t.freeCtr = s.freeCtr ∧ t.aon = s.aon ∧ t.cfg = s.cfg ∧ t.pend = s.pend ∧ t.events = s.events ∧ t.host = s.host ∧ t.treads = s.treads ∧ t.cells = s.cells ∧ t.flights = s.flights ∧ t.halls = s.halls ∧ t.grid = s.grid ∧ t.atr = s.atr ∧ t.treadsOld = s.treadsOld ∧ t.meas = s.meas ∧ t.therm = s.therm ∧ t.twin = s.twin ∧ t.stair = s.stair ∧ t.nvm = s.nvm ∧ t.streams = s.streams ∧ t.mem = s.mem := by
  unfold execTpoPulse at h; cases h; (try dsimp only); (repeat' split) <;> simp [apply_ite]

theorem execTpoPulseEnd_frame (a0 : Fin 2) (s t : State) (h : execTpoPulseEnd a0 s = .next t) :
    t.pending = s.pending ∧ t.reply = s.reply ∧ t.out = s.out ∧ t.freeCtr = s.freeCtr ∧ t.aon = s.aon ∧ t.cfg = s.cfg ∧ t.pend = s.pend ∧ t.events = s.events ∧ t.host = s.host ∧ t.treads = s.treads ∧ t.cells = s.cells ∧ t.flights = s.flights ∧ t.halls = s.halls ∧ t.grid = s.grid ∧ t.atr = s.atr ∧ t.treadsOld = s.treadsOld ∧ t.meas = s.meas ∧ t.therm = s.therm ∧ t.twin = s.twin ∧ t.stair = s.stair ∧ t.nvm = s.nvm ∧ t.streams = s.streams ∧ t.mem = s.mem := by
  unfold execTpoPulseEnd at h; cases h; (try dsimp only); (repeat' split) <;> simp [apply_ite]

theorem execTestWindowEnd_frame (a0 : Fin 2) (s t : State) (h : execTestWindowEnd a0 s = .next t) :
    t.pending = s.pending ∧ t.reply = s.reply ∧ t.freeCtr = s.freeCtr ∧ t.cfg = s.cfg ∧ t.pend = s.pend ∧ t.treads = s.treads ∧ t.flights = s.flights ∧ t.halls = s.halls ∧ t.grid = s.grid ∧ t.treadsOld = s.treadsOld ∧ t.meas = s.meas ∧ t.therm = s.therm ∧ t.twin = s.twin ∧ t.stair = s.stair ∧ t.streams = s.streams ∧ t.mem = s.mem := by
  unfold execTestWindowEnd at h; cases h; (try dsimp only); (repeat' split) <;> simp [apply_ite]

theorem execFbReadbackFault_frame (s t : State) (h : execFbReadbackFault s = .next t) :
    t.pending = s.pending ∧ t.reply = s.reply ∧ t.freeCtr = s.freeCtr ∧ t.cfg = s.cfg ∧ t.pend = s.pend ∧ t.tb = s.tb ∧ t.treads = s.treads ∧ t.flights = s.flights ∧ t.halls = s.halls ∧ t.grid = s.grid ∧ t.treadsOld = s.treadsOld ∧ t.meas = s.meas ∧ t.therm = s.therm ∧ t.twin = s.twin ∧ t.stair = s.stair ∧ t.streams = s.streams ∧ t.mem = s.mem := by
  unfold execFbReadbackFault at h; cases h; (try dsimp only); (repeat' split) <;> simp [apply_ite]

theorem execFbTExpiry_frame (s t : State) (h : execFbTExpiry s = .next t) :
    t.pending = s.pending ∧ t.reply = s.reply ∧ t.freeCtr = s.freeCtr ∧ t.cfg = s.cfg ∧ t.pend = s.pend ∧ t.tb = s.tb ∧ t.treads = s.treads ∧ t.flights = s.flights ∧ t.halls = s.halls ∧ t.grid = s.grid ∧ t.treadsOld = s.treadsOld ∧ t.meas = s.meas ∧ t.therm = s.therm ∧ t.twin = s.twin ∧ t.stair = s.stair ∧ t.streams = s.streams ∧ t.mem = s.mem := by
  unfold execFbTExpiry at h; cases h; (try dsimp only); (repeat' split) <;> simp [apply_ite]

@[simp] theorem State.setSens_frame (s : State) (a1 : Nat) (a2 : SensorState → SensorState) :
    (State.setSens s a1 a2).pending = s.pending ∧ (State.setSens s a1 a2).reply = s.reply ∧ (State.setSens s a1 a2).out = s.out ∧ (State.setSens s a1 a2).freeCtr = s.freeCtr ∧ (State.setSens s a1 a2).aon = s.aon ∧ (State.setSens s a1 a2).cfg = s.cfg ∧ (State.setSens s a1 a2).pend = s.pend ∧ (State.setSens s a1 a2).tb = s.tb ∧ (State.setSens s a1 a2).events = s.events ∧ (State.setSens s a1 a2).host = s.host ∧ (State.setSens s a1 a2).treads = s.treads ∧ (State.setSens s a1 a2).flights = s.flights ∧ (State.setSens s a1 a2).halls = s.halls ∧ (State.setSens s a1 a2).grid = s.grid ∧ (State.setSens s a1 a2).atr = s.atr ∧ (State.setSens s a1 a2).treadsOld = s.treadsOld ∧ (State.setSens s a1 a2).meas = s.meas ∧ (State.setSens s a1 a2).safe = s.safe ∧ (State.setSens s a1 a2).twin = s.twin ∧ (State.setSens s a1 a2).stair = s.stair ∧ (State.setSens s a1 a2).nvm = s.nvm ∧ (State.setSens s a1 a2).streams = s.streams ∧ (State.setSens s a1 a2).mem = s.mem := by
  unfold State.setSens
  (try dsimp only)
  (repeat' split) <;> simp [apply_ite]

@[simp] theorem failSensor_frame (a0 : Nat) (s : State) :
    (failSensor a0 s).pending = s.pending ∧ (failSensor a0 s).reply = s.reply ∧ (failSensor a0 s).freeCtr = s.freeCtr ∧ (failSensor a0 s).cfg = s.cfg ∧ (failSensor a0 s).pend = s.pend ∧ (failSensor a0 s).tb = s.tb ∧ (failSensor a0 s).treads = s.treads ∧ (failSensor a0 s).flights = s.flights ∧ (failSensor a0 s).halls = s.halls ∧ (failSensor a0 s).grid = s.grid ∧ (failSensor a0 s).treadsOld = s.treadsOld ∧ (failSensor a0 s).meas = s.meas ∧ (failSensor a0 s).safe = s.safe ∧ (failSensor a0 s).twin = s.twin ∧ (failSensor a0 s).stair = s.stair ∧ (failSensor a0 s).nvm = s.nvm ∧ (failSensor a0 s).streams = s.streams ∧ (failSensor a0 s).mem = s.mem := by
  unfold failSensor
  (try dsimp only)
  (repeat' split) <;> simp [apply_ite]

@[simp] theorem crossCheck_frame (a0 : Table Int) (a1 : State) (a2 : Nat) (s : State) :
    (crossCheck a0 a1 a2 s).pending = s.pending ∧ (crossCheck a0 a1 a2 s).reply = s.reply ∧ (crossCheck a0 a1 a2 s).freeCtr = s.freeCtr ∧ (crossCheck a0 a1 a2 s).cfg = s.cfg ∧ (crossCheck a0 a1 a2 s).pend = s.pend ∧ (crossCheck a0 a1 a2 s).tb = s.tb ∧ (crossCheck a0 a1 a2 s).treads = s.treads ∧ (crossCheck a0 a1 a2 s).flights = s.flights ∧ (crossCheck a0 a1 a2 s).halls = s.halls ∧ (crossCheck a0 a1 a2 s).grid = s.grid ∧ (crossCheck a0 a1 a2 s).treadsOld = s.treadsOld ∧ (crossCheck a0 a1 a2 s).meas = s.meas ∧ (crossCheck a0 a1 a2 s).safe = s.safe ∧ (crossCheck a0 a1 a2 s).twin = s.twin ∧ (crossCheck a0 a1 a2 s).stair = s.stair ∧ (crossCheck a0 a1 a2 s).nvm = s.nvm ∧ (crossCheck a0 a1 a2 s).streams = s.streams ∧ (crossCheck a0 a1 a2 s).mem = s.mem := by
  unfold crossCheck
  (try dsimp only)
  (repeat' split) <;> simp [apply_ite]

@[simp] theorem supervise_frame (a0 : Table Int) (a1 : State) (a2 : Nat) (s : State) :
    (supervise a0 a1 a2 s).pending = s.pending ∧ (supervise a0 a1 a2 s).reply = s.reply ∧ (supervise a0 a1 a2 s).out = s.out ∧ (supervise a0 a1 a2 s).freeCtr = s.freeCtr ∧ (supervise a0 a1 a2 s).aon = s.aon ∧ (supervise a0 a1 a2 s).cfg = s.cfg ∧ (supervise a0 a1 a2 s).pend = s.pend ∧ (supervise a0 a1 a2 s).tb = s.tb ∧ (supervise a0 a1 a2 s).events = s.events ∧ (supervise a0 a1 a2 s).host = s.host ∧ (supervise a0 a1 a2 s).treads = s.treads ∧ (supervise a0 a1 a2 s).flights = s.flights ∧ (supervise a0 a1 a2 s).halls = s.halls ∧ (supervise a0 a1 a2 s).grid = s.grid ∧ (supervise a0 a1 a2 s).atr = s.atr ∧ (supervise a0 a1 a2 s).treadsOld = s.treadsOld ∧ (supervise a0 a1 a2 s).meas = s.meas ∧ (supervise a0 a1 a2 s).safe = s.safe ∧ (supervise a0 a1 a2 s).twin = s.twin ∧ (supervise a0 a1 a2 s).stair = s.stair ∧ (supervise a0 a1 a2 s).nvm = s.nvm ∧ (supervise a0 a1 a2 s).streams = s.streams ∧ (supervise a0 a1 a2 s).mem = s.mem := by
  unfold supervise
  (try dsimp only)
  (repeat' split) <;> simp [apply_ite]

@[simp] theorem rateCheck_frame (a0 : Nat) (s : State) :
    (rateCheck a0 s).pending = s.pending ∧ (rateCheck a0 s).reply = s.reply ∧ (rateCheck a0 s).freeCtr = s.freeCtr ∧ (rateCheck a0 s).cfg = s.cfg ∧ (rateCheck a0 s).pend = s.pend ∧ (rateCheck a0 s).tb = s.tb ∧ (rateCheck a0 s).treads = s.treads ∧ (rateCheck a0 s).flights = s.flights ∧ (rateCheck a0 s).halls = s.halls ∧ (rateCheck a0 s).grid = s.grid ∧ (rateCheck a0 s).treadsOld = s.treadsOld ∧ (rateCheck a0 s).meas = s.meas ∧ (rateCheck a0 s).safe = s.safe ∧ (rateCheck a0 s).twin = s.twin ∧ (rateCheck a0 s).stair = s.stair ∧ (rateCheck a0 s).nvm = s.nvm ∧ (rateCheck a0 s).streams = s.streams ∧ (rateCheck a0 s).mem = s.mem := by
  unfold rateCheck
  (try dsimp only)
  (repeat' split) <;> simp [apply_ite]

@[simp] theorem warnCheck_frame (a0 : List Nat) (s : State) :
    (warnCheck a0 s).pending = s.pending ∧ (warnCheck a0 s).reply = s.reply ∧ (warnCheck a0 s).freeCtr = s.freeCtr ∧ (warnCheck a0 s).cfg = s.cfg ∧ (warnCheck a0 s).pend = s.pend ∧ (warnCheck a0 s).tb = s.tb ∧ (warnCheck a0 s).treads = s.treads ∧ (warnCheck a0 s).cells = s.cells ∧ (warnCheck a0 s).flights = s.flights ∧ (warnCheck a0 s).halls = s.halls ∧ (warnCheck a0 s).grid = s.grid ∧ (warnCheck a0 s).treadsOld = s.treadsOld ∧ (warnCheck a0 s).meas = s.meas ∧ (warnCheck a0 s).safe = s.safe ∧ (warnCheck a0 s).twin = s.twin ∧ (warnCheck a0 s).stair = s.stair ∧ (warnCheck a0 s).nvm = s.nvm ∧ (warnCheck a0 s).streams = s.streams ∧ (warnCheck a0 s).mem = s.mem := by
  unfold warnCheck
  (try dsimp only)
  (repeat' split) <;> simp [apply_ite]

@[simp] theorem enforce_frame (s : State) :
    (enforce s).pending = s.pending ∧ (enforce s).reply = s.reply ∧ (enforce s).freeCtr = s.freeCtr ∧ (enforce s).cfg = s.cfg ∧ (enforce s).pend = s.pend ∧ (enforce s).tb = s.tb ∧ (enforce s).treads = s.treads ∧ (enforce s).cells = s.cells ∧ (enforce s).flights = s.flights ∧ (enforce s).halls = s.halls ∧ (enforce s).grid = s.grid ∧ (enforce s).treadsOld = s.treadsOld ∧ (enforce s).meas = s.meas ∧ (enforce s).safe = s.safe ∧ (enforce s).twin = s.twin ∧ (enforce s).stair = s.stair ∧ (enforce s).nvm = s.nvm ∧ (enforce s).streams = s.streams ∧ (enforce s).mem = s.mem := by
  unfold enforce
  (try dsimp only)
  (repeat' split) <;> simp [apply_ite]

@[simp] theorem judgeGrace_frame (s : State) :
    (judgeGrace s).pending = s.pending ∧ (judgeGrace s).reply = s.reply ∧ (judgeGrace s).freeCtr = s.freeCtr ∧ (judgeGrace s).cfg = s.cfg ∧ (judgeGrace s).pend = s.pend ∧ (judgeGrace s).tb = s.tb ∧ (judgeGrace s).treads = s.treads ∧ (judgeGrace s).cells = s.cells ∧ (judgeGrace s).flights = s.flights ∧ (judgeGrace s).halls = s.halls ∧ (judgeGrace s).grid = s.grid ∧ (judgeGrace s).treadsOld = s.treadsOld ∧ (judgeGrace s).meas = s.meas ∧ (judgeGrace s).safe = s.safe ∧ (judgeGrace s).twin = s.twin ∧ (judgeGrace s).stair = s.stair ∧ (judgeGrace s).nvm = s.nvm ∧ (judgeGrace s).streams = s.streams ∧ (judgeGrace s).mem = s.mem := by
  unfold judgeGrace
  (try dsimp only)
  (repeat' split) <;> simp [apply_ite]

@[simp] theorem throttleStep_frame (a0 : List Nat) (s : State) :
    (throttleStep a0 s).pending = s.pending ∧ (throttleStep a0 s).reply = s.reply ∧ (throttleStep a0 s).freeCtr = s.freeCtr ∧ (throttleStep a0 s).cfg = s.cfg ∧ (throttleStep a0 s).pend = s.pend ∧ (throttleStep a0 s).tb = s.tb ∧ (throttleStep a0 s).treads = s.treads ∧ (throttleStep a0 s).cells = s.cells ∧ (throttleStep a0 s).flights = s.flights ∧ (throttleStep a0 s).halls = s.halls ∧ (throttleStep a0 s).grid = s.grid ∧ (throttleStep a0 s).treadsOld = s.treadsOld ∧ (throttleStep a0 s).meas = s.meas ∧ (throttleStep a0 s).safe = s.safe ∧ (throttleStep a0 s).twin = s.twin ∧ (throttleStep a0 s).stair = s.stair ∧ (throttleStep a0 s).nvm = s.nvm ∧ (throttleStep a0 s).streams = s.streams ∧ (throttleStep a0 s).mem = s.mem := by
  unfold throttleStep
  (try dsimp only)
  (repeat' split) <;> simp [apply_ite]

@[simp] theorem meanPower_frame (s : State) :
    (meanPower s).pending = s.pending ∧ (meanPower s).reply = s.reply ∧ (meanPower s).out = s.out ∧ (meanPower s).freeCtr = s.freeCtr ∧ (meanPower s).aon = s.aon ∧ (meanPower s).cfg = s.cfg ∧ (meanPower s).pend = s.pend ∧ (meanPower s).tb = s.tb ∧ (meanPower s).events = s.events ∧ (meanPower s).host = s.host ∧ (meanPower s).treads = s.treads ∧ (meanPower s).cells = s.cells ∧ (meanPower s).flights = s.flights ∧ (meanPower s).halls = s.halls ∧ (meanPower s).grid = s.grid ∧ (meanPower s).atr = s.atr ∧ (meanPower s).treadsOld = s.treadsOld ∧ (meanPower s).meas = s.meas ∧ (meanPower s).safe = s.safe ∧ (meanPower s).twin = s.twin ∧ (meanPower s).stair = s.stair ∧ (meanPower s).nvm = s.nvm ∧ (meanPower s).streams = s.streams ∧ (meanPower s).mem = s.mem := by
  unfold meanPower
  (try dsimp only)
  (repeat' split) <;> simp [apply_ite]

@[simp] theorem keepRs_frame (a0 : List (Reading × Option F32)) (s : State) :
    (keepRs a0 s).pending = s.pending ∧ (keepRs a0 s).reply = s.reply ∧ (keepRs a0 s).out = s.out ∧ (keepRs a0 s).freeCtr = s.freeCtr ∧ (keepRs a0 s).aon = s.aon ∧ (keepRs a0 s).cfg = s.cfg ∧ (keepRs a0 s).pend = s.pend ∧ (keepRs a0 s).tb = s.tb ∧ (keepRs a0 s).events = s.events ∧ (keepRs a0 s).host = s.host ∧ (keepRs a0 s).treads = s.treads ∧ (keepRs a0 s).cells = s.cells ∧ (keepRs a0 s).flights = s.flights ∧ (keepRs a0 s).halls = s.halls ∧ (keepRs a0 s).grid = s.grid ∧ (keepRs a0 s).atr = s.atr ∧ (keepRs a0 s).treadsOld = s.treadsOld ∧ (keepRs a0 s).meas = s.meas ∧ (keepRs a0 s).safe = s.safe ∧ (keepRs a0 s).twin = s.twin ∧ (keepRs a0 s).stair = s.stair ∧ (keepRs a0 s).nvm = s.nvm ∧ (keepRs a0 s).streams = s.streams ∧ (keepRs a0 s).mem = s.mem := by
  unfold keepRs; (try dsimp only)
  refine ⟨?_, ?_, ?_, ?_, ?_, ?_, ?_, ?_, ?_, ?_, ?_, ?_, ?_, ?_, ?_, ?_, ?_, ?_, ?_, ?_, ?_, ?_, ?_, ?_⟩
  · repeat' (first | (simp [apply_ite State.pending]; done) | with_reducible refine (each_keep State.pending _ _ _ (fun _ _ => ?_)).trans ?_ | with_reducible refine command_keep State.pending _ _ _ (fun _ => ?_) (fun _ => ?_) | split)
  · repeat' (first | (simp [apply_ite State.reply]; done) | with_reducible refine (each_keep State.reply _ _ _ (fun _ _ => ?_)).trans ?_ | with_reducible refine command_keep State.reply _ _ _ (fun _ => ?_) (fun _ => ?_) | split)
  · repeat' (first | (simp [apply_ite State.out]; done) | with_reducible refine (each_keep State.out _ _ _ (fun _ _ => ?_)).trans ?_ | with_reducible refine command_keep State.out _ _ _ (fun _ => ?_) (fun _ => ?_) | split)
  · repeat' (first | (simp [apply_ite State.freeCtr]; done) | with_reducible refine (each_keep State.freeCtr _ _ _ (fun _ _ => ?_)).trans ?_ | with_reducible refine command_keep State.freeCtr _ _ _ (fun _ => ?_) (fun _ => ?_) | split)
  · repeat' (first | (simp [apply_ite State.aon]; done) | with_reducible refine (each_keep State.aon _ _ _ (fun _ _ => ?_)).trans ?_ | with_reducible refine command_keep State.aon _ _ _ (fun _ => ?_) (fun _ => ?_) | split)
  · repeat' (first | (simp [apply_ite State.cfg]; done) | with_reducible refine (each_keep State.cfg _ _ _ (fun _ _ => ?_)).trans ?_ | with_reducible refine command_keep State.cfg _ _ _ (fun _ => ?_) (fun _ => ?_) | split)
  · repeat' (first | (simp [apply_ite State.pend]; done) | with_reducible refine (each_keep State.pend _ _ _ (fun _ _ => ?_)).trans ?_ | with_reducible refine command_keep State.pend _ _ _ (fun _ => ?_) (fun _ => ?_) | split)
  · repeat' (first | (simp [apply_ite State.tb]; done) | with_reducible refine (each_keep State.tb _ _ _ (fun _ _ => ?_)).trans ?_ | with_reducible refine command_keep State.tb _ _ _ (fun _ => ?_) (fun _ => ?_) | split)
  · repeat' (first | (simp [apply_ite State.events]; done) | with_reducible refine (each_keep State.events _ _ _ (fun _ _ => ?_)).trans ?_ | with_reducible refine command_keep State.events _ _ _ (fun _ => ?_) (fun _ => ?_) | split)
  · repeat' (first | (simp [apply_ite State.host]; done) | with_reducible refine (each_keep State.host _ _ _ (fun _ _ => ?_)).trans ?_ | with_reducible refine command_keep State.host _ _ _ (fun _ => ?_) (fun _ => ?_) | split)
  · repeat' (first | (simp [apply_ite State.treads]; done) | with_reducible refine (each_keep State.treads _ _ _ (fun _ _ => ?_)).trans ?_ | with_reducible refine command_keep State.treads _ _ _ (fun _ => ?_) (fun _ => ?_) | split)
  · repeat' (first | (simp [apply_ite State.cells]; done) | with_reducible refine (each_keep State.cells _ _ _ (fun _ _ => ?_)).trans ?_ | with_reducible refine command_keep State.cells _ _ _ (fun _ => ?_) (fun _ => ?_) | split)
  · repeat' (first | (simp [apply_ite State.flights]; done) | with_reducible refine (each_keep State.flights _ _ _ (fun _ _ => ?_)).trans ?_ | with_reducible refine command_keep State.flights _ _ _ (fun _ => ?_) (fun _ => ?_) | split)
  · repeat' (first | (simp [apply_ite State.halls]; done) | with_reducible refine (each_keep State.halls _ _ _ (fun _ _ => ?_)).trans ?_ | with_reducible refine command_keep State.halls _ _ _ (fun _ => ?_) (fun _ => ?_) | split)
  · repeat' (first | (simp [apply_ite State.grid]; done) | with_reducible refine (each_keep State.grid _ _ _ (fun _ _ => ?_)).trans ?_ | with_reducible refine command_keep State.grid _ _ _ (fun _ => ?_) (fun _ => ?_) | split)
  · repeat' (first | (simp [apply_ite State.atr]; done) | with_reducible refine (each_keep State.atr _ _ _ (fun _ _ => ?_)).trans ?_ | with_reducible refine command_keep State.atr _ _ _ (fun _ => ?_) (fun _ => ?_) | split)
  · repeat' (first | (simp [apply_ite State.treadsOld]; done) | with_reducible refine (each_keep State.treadsOld _ _ _ (fun _ _ => ?_)).trans ?_ | with_reducible refine command_keep State.treadsOld _ _ _ (fun _ => ?_) (fun _ => ?_) | split)
  · repeat' (first | (simp [apply_ite State.meas]; done) | with_reducible refine (each_keep State.meas _ _ _ (fun _ _ => ?_)).trans ?_ | with_reducible refine command_keep State.meas _ _ _ (fun _ => ?_) (fun _ => ?_) | split)
  · repeat' (first | (simp [apply_ite State.safe]; done) | with_reducible refine (each_keep State.safe _ _ _ (fun _ _ => ?_)).trans ?_ | with_reducible refine command_keep State.safe _ _ _ (fun _ => ?_) (fun _ => ?_) | split)
  · repeat' (first | (simp [apply_ite State.twin]; done) | with_reducible refine (each_keep State.twin _ _ _ (fun _ _ => ?_)).trans ?_ | with_reducible refine command_keep State.twin _ _ _ (fun _ => ?_) (fun _ => ?_) | split)
  · repeat' (first | (simp [apply_ite State.stair]; done) | with_reducible refine (each_keep State.stair _ _ _ (fun _ _ => ?_)).trans ?_ | with_reducible refine command_keep State.stair _ _ _ (fun _ => ?_) (fun _ => ?_) | split)
  · repeat' (first | (simp [apply_ite State.nvm]; done) | with_reducible refine (each_keep State.nvm _ _ _ (fun _ _ => ?_)).trans ?_ | with_reducible refine command_keep State.nvm _ _ _ (fun _ => ?_) (fun _ => ?_) | split)
  · repeat' (first | (simp [apply_ite State.streams]; done) | with_reducible refine (each_keep State.streams _ _ _ (fun _ _ => ?_)).trans ?_ | with_reducible refine command_keep State.streams _ _ _ (fun _ => ?_) (fun _ => ?_) | split)
  · repeat' (first | (simp [apply_ite State.mem]; done) | with_reducible refine (each_keep State.mem _ _ _ (fun _ _ => ?_)).trans ?_ | with_reducible refine command_keep State.mem _ _ _ (fun _ => ?_) (fun _ => ?_) | split)

@[simp] theorem failBad_frame (a0 : List (Nat × Reading)) (s : State) :
    (failBad a0 s).pending = s.pending ∧ (failBad a0 s).reply = s.reply ∧ (failBad a0 s).freeCtr = s.freeCtr ∧ (failBad a0 s).cfg = s.cfg ∧ (failBad a0 s).pend = s.pend ∧ (failBad a0 s).tb = s.tb ∧ (failBad a0 s).treads = s.treads ∧ (failBad a0 s).flights = s.flights ∧ (failBad a0 s).halls = s.halls ∧ (failBad a0 s).grid = s.grid ∧ (failBad a0 s).treadsOld = s.treadsOld ∧ (failBad a0 s).meas = s.meas ∧ (failBad a0 s).safe = s.safe ∧ (failBad a0 s).twin = s.twin ∧ (failBad a0 s).stair = s.stair ∧ (failBad a0 s).nvm = s.nvm ∧ (failBad a0 s).streams = s.streams ∧ (failBad a0 s).mem = s.mem := by
  unfold failBad
  (try dsimp only)
  (repeat' split) <;> simp [apply_ite]

@[simp] theorem dropRates_frame (s : State) :
    (dropRates s).pending = s.pending ∧ (dropRates s).reply = s.reply ∧ (dropRates s).out = s.out ∧ (dropRates s).freeCtr = s.freeCtr ∧ (dropRates s).aon = s.aon ∧ (dropRates s).cfg = s.cfg ∧ (dropRates s).pend = s.pend ∧ (dropRates s).tb = s.tb ∧ (dropRates s).events = s.events ∧ (dropRates s).host = s.host ∧ (dropRates s).treads = s.treads ∧ (dropRates s).flights = s.flights ∧ (dropRates s).halls = s.halls ∧ (dropRates s).grid = s.grid ∧ (dropRates s).atr = s.atr ∧ (dropRates s).treadsOld = s.treadsOld ∧ (dropRates s).meas = s.meas ∧ (dropRates s).safe = s.safe ∧ (dropRates s).twin = s.twin ∧ (dropRates s).stair = s.stair ∧ (dropRates s).nvm = s.nvm ∧ (dropRates s).streams = s.streams ∧ (dropRates s).mem = s.mem := by
  unfold dropRates
  (try dsimp only)
  (repeat' split) <;> simp [apply_ite]

@[simp] theorem thermalRound_frame (a0 : Vector PinInput 4) (s : State) :
    (thermalRound a0 s).pending = s.pending ∧ (thermalRound a0 s).reply = s.reply ∧ (thermalRound a0 s).freeCtr = s.freeCtr ∧ (thermalRound a0 s).cfg = s.cfg ∧ (thermalRound a0 s).pend = s.pend ∧ (thermalRound a0 s).tb = s.tb ∧ (thermalRound a0 s).treads = s.treads ∧ (thermalRound a0 s).flights = s.flights ∧ (thermalRound a0 s).halls = s.halls ∧ (thermalRound a0 s).grid = s.grid ∧ (thermalRound a0 s).treadsOld = s.treadsOld ∧ (thermalRound a0 s).meas = s.meas ∧ (thermalRound a0 s).safe = s.safe ∧ (thermalRound a0 s).twin = s.twin ∧ (thermalRound a0 s).stair = s.stair ∧ (thermalRound a0 s).nvm = s.nvm ∧ (thermalRound a0 s).streams = s.streams ∧ (thermalRound a0 s).mem = s.mem := by
  unfold thermalRound
  (try dsimp only)
  (repeat' split) <;> simp [apply_ite]

@[simp] theorem ceilingStep_frame (a0 : F32) (a1 : F32) (a2 : F32) (s : State) :
    (ceilingStep a0 a1 a2 s).pending = s.pending ∧ (ceilingStep a0 a1 a2 s).reply = s.reply ∧ (ceilingStep a0 a1 a2 s).out = s.out ∧ (ceilingStep a0 a1 a2 s).freeCtr = s.freeCtr ∧ (ceilingStep a0 a1 a2 s).aon = s.aon ∧ (ceilingStep a0 a1 a2 s).cfg = s.cfg ∧ (ceilingStep a0 a1 a2 s).pend = s.pend ∧ (ceilingStep a0 a1 a2 s).tb = s.tb ∧ (ceilingStep a0 a1 a2 s).events = s.events ∧ (ceilingStep a0 a1 a2 s).host = s.host ∧ (ceilingStep a0 a1 a2 s).treads = s.treads ∧ (ceilingStep a0 a1 a2 s).cells = s.cells ∧ (ceilingStep a0 a1 a2 s).flights = s.flights ∧ (ceilingStep a0 a1 a2 s).halls = s.halls ∧ (ceilingStep a0 a1 a2 s).grid = s.grid ∧ (ceilingStep a0 a1 a2 s).atr = s.atr ∧ (ceilingStep a0 a1 a2 s).treadsOld = s.treadsOld ∧ (ceilingStep a0 a1 a2 s).meas = s.meas ∧ (ceilingStep a0 a1 a2 s).safe = s.safe ∧ (ceilingStep a0 a1 a2 s).twin = s.twin ∧ (ceilingStep a0 a1 a2 s).stair = s.stair ∧ (ceilingStep a0 a1 a2 s).nvm = s.nvm ∧ (ceilingStep a0 a1 a2 s).streams = s.streams ∧ (ceilingStep a0 a1 a2 s).mem = s.mem := by
  unfold ceilingStep
  (try dsimp only)
  (repeat' split) <;> simp [apply_ite]

theorem execHkLate_frame (s t : State) (h : execHkLate s = .next t) :
    t.pending = s.pending ∧ t.reply = s.reply ∧ t.out = s.out ∧ t.freeCtr = s.freeCtr ∧ t.aon = s.aon ∧ t.cfg = s.cfg ∧ t.pend = s.pend ∧ t.tb = s.tb ∧ t.events = s.events ∧ t.host = s.host ∧ t.treads = s.treads ∧ t.cells = s.cells ∧ t.flights = s.flights ∧ t.halls = s.halls ∧ t.grid = s.grid ∧ t.atr = s.atr ∧ t.treadsOld = s.treadsOld ∧ t.meas = s.meas ∧ t.safe = s.safe ∧ t.twin = s.twin ∧ t.stair = s.stair ∧ t.nvm = s.nvm ∧ t.streams = s.streams ∧ t.mem = s.mem := by
  unfold execHkLate at h; cases h; (try dsimp only); (repeat' split) <;> simp [apply_ite]

@[simp] theorem clearFail_frame (a0 : Nat) (s : State) :
    (clearFail a0 s).pending = s.pending ∧ (clearFail a0 s).reply = s.reply ∧ (clearFail a0 s).out = s.out ∧ (clearFail a0 s).freeCtr = s.freeCtr ∧ (clearFail a0 s).aon = s.aon ∧ (clearFail a0 s).cfg = s.cfg ∧ (clearFail a0 s).pend = s.pend ∧ (clearFail a0 s).tb = s.tb ∧ (clearFail a0 s).events = s.events ∧ (clearFail a0 s).host = s.host ∧ (clearFail a0 s).treads = s.treads ∧ (clearFail a0 s).flights = s.flights ∧ (clearFail a0 s).halls = s.halls ∧ (clearFail a0 s).grid = s.grid ∧ (clearFail a0 s).atr = s.atr ∧ (clearFail a0 s).treadsOld = s.treadsOld ∧ (clearFail a0 s).meas = s.meas ∧ (clearFail a0 s).safe = s.safe ∧ (clearFail a0 s).twin = s.twin ∧ (clearFail a0 s).stair = s.stair ∧ (clearFail a0 s).nvm = s.nvm ∧ (clearFail a0 s).streams = s.streams ∧ (clearFail a0 s).mem = s.mem := by
  unfold clearFail
  (try dsimp only)
  (repeat' split) <;> simp [apply_ite]

@[simp] theorem clearPin_frame (a0 : Nat) (s : State) :
    (clearPin a0 s).pending = s.pending ∧ (clearPin a0 s).reply = s.reply ∧ (clearPin a0 s).out = s.out ∧ (clearPin a0 s).freeCtr = s.freeCtr ∧ (clearPin a0 s).aon = s.aon ∧ (clearPin a0 s).cfg = s.cfg ∧ (clearPin a0 s).pend = s.pend ∧ (clearPin a0 s).tb = s.tb ∧ (clearPin a0 s).events = s.events ∧ (clearPin a0 s).host = s.host ∧ (clearPin a0 s).treads = s.treads ∧ (clearPin a0 s).flights = s.flights ∧ (clearPin a0 s).halls = s.halls ∧ (clearPin a0 s).grid = s.grid ∧ (clearPin a0 s).atr = s.atr ∧ (clearPin a0 s).treadsOld = s.treadsOld ∧ (clearPin a0 s).meas = s.meas ∧ (clearPin a0 s).safe = s.safe ∧ (clearPin a0 s).twin = s.twin ∧ (clearPin a0 s).stair = s.stair ∧ (clearPin a0 s).nvm = s.nvm ∧ (clearPin a0 s).streams = s.streams ∧ (clearPin a0 s).mem = s.mem := by
  unfold clearPin
  (try dsimp only)
  (repeat' split) <;> simp [apply_ite]

theorem execSensorFailClear_frame (a0 : Sensor) (s t : State) (h : execSensorFailClear a0 s = .next t) :
    t.pending = s.pending ∧ t.reply = s.reply ∧ t.out = s.out ∧ t.freeCtr = s.freeCtr ∧ t.aon = s.aon ∧ t.cfg = s.cfg ∧ t.pend = s.pend ∧ t.tb = s.tb ∧ t.events = s.events ∧ t.host = s.host ∧ t.treads = s.treads ∧ t.flights = s.flights ∧ t.halls = s.halls ∧ t.grid = s.grid ∧ t.atr = s.atr ∧ t.treadsOld = s.treadsOld ∧ t.meas = s.meas ∧ t.safe = s.safe ∧ t.twin = s.twin ∧ t.stair = s.stair ∧ t.nvm = s.nvm ∧ t.streams = s.streams ∧ t.mem = s.mem := by
  unfold execSensorFailClear at h; cases h; (try dsimp only); (repeat' split) <;> simp [apply_ite]

theorem execSensorPinClear_frame (a0 : Sensor) (s t : State) (h : execSensorPinClear a0 s = .next t) :
    t.pending = s.pending ∧ t.reply = s.reply ∧ t.out = s.out ∧ t.freeCtr = s.freeCtr ∧ t.aon = s.aon ∧ t.cfg = s.cfg ∧ t.pend = s.pend ∧ t.tb = s.tb ∧ t.events = s.events ∧ t.host = s.host ∧ t.treads = s.treads ∧ t.flights = s.flights ∧ t.halls = s.halls ∧ t.grid = s.grid ∧ t.atr = s.atr ∧ t.treadsOld = s.treadsOld ∧ t.meas = s.meas ∧ t.safe = s.safe ∧ t.twin = s.twin ∧ t.stair = s.stair ∧ t.nvm = s.nvm ∧ t.streams = s.streams ∧ t.mem = s.mem := by
  unfold execSensorPinClear at h; cases h; (try dsimp only); (repeat' split) <;> simp [apply_ite]

@[simp] theorem wearParams_frame (s : State) :
    (wearParams s).pending = s.pending ∧ (wearParams s).reply = s.reply ∧ (wearParams s).out = s.out ∧ (wearParams s).freeCtr = s.freeCtr ∧ (wearParams s).aon = s.aon ∧ (wearParams s).cfg = s.cfg ∧ (wearParams s).pend = s.pend ∧ (wearParams s).tb = s.tb ∧ (wearParams s).events = s.events ∧ (wearParams s).host = s.host ∧ (wearParams s).treads = s.treads ∧ (wearParams s).flights = s.flights ∧ (wearParams s).halls = s.halls ∧ (wearParams s).grid = s.grid ∧ (wearParams s).atr = s.atr ∧ (wearParams s).treadsOld = s.treadsOld ∧ (wearParams s).meas = s.meas ∧ (wearParams s).safe = s.safe ∧ (wearParams s).therm = s.therm ∧ (wearParams s).twin = s.twin ∧ (wearParams s).stair = s.stair ∧ (wearParams s).nvm = s.nvm ∧ (wearParams s).streams = s.streams ∧ (wearParams s).mem = s.mem := by
  unfold wearParams
  (try dsimp only)
  (repeat' split) <;> simp [apply_ite]

@[simp] theorem wearLimit_frame (a0 : Nat) (s : State) :
    (wearLimit a0 s).pending = s.pending ∧ (wearLimit a0 s).reply = s.reply ∧ (wearLimit a0 s).freeCtr = s.freeCtr ∧ (wearLimit a0 s).cfg = s.cfg ∧ (wearLimit a0 s).pend = s.pend ∧ (wearLimit a0 s).tb = s.tb ∧ (wearLimit a0 s).treads = s.treads ∧ (wearLimit a0 s).flights = s.flights ∧ (wearLimit a0 s).halls = s.halls ∧ (wearLimit a0 s).grid = s.grid ∧ (wearLimit a0 s).treadsOld = s.treadsOld ∧ (wearLimit a0 s).meas = s.meas ∧ (wearLimit a0 s).safe = s.safe ∧ (wearLimit a0 s).therm = s.therm ∧ (wearLimit a0 s).twin = s.twin ∧ (wearLimit a0 s).stair = s.stair ∧ (wearLimit a0 s).nvm = s.nvm ∧ (wearLimit a0 s).streams = s.streams ∧ (wearLimit a0 s).mem = s.mem := by
  unfold wearLimit
  (try dsimp only)
  (repeat' split) <;> simp [apply_ite]

@[simp] theorem wearRearm_frame (s : State) :
    (wearRearm s).pending = s.pending ∧ (wearRearm s).reply = s.reply ∧ (wearRearm s).freeCtr = s.freeCtr ∧ (wearRearm s).cfg = s.cfg ∧ (wearRearm s).pend = s.pend ∧ (wearRearm s).tb = s.tb ∧ (wearRearm s).treads = s.treads ∧ (wearRearm s).flights = s.flights ∧ (wearRearm s).halls = s.halls ∧ (wearRearm s).grid = s.grid ∧ (wearRearm s).treadsOld = s.treadsOld ∧ (wearRearm s).meas = s.meas ∧ (wearRearm s).safe = s.safe ∧ (wearRearm s).therm = s.therm ∧ (wearRearm s).twin = s.twin ∧ (wearRearm s).stair = s.stair ∧ (wearRearm s).nvm = s.nvm ∧ (wearRearm s).streams = s.streams ∧ (wearRearm s).mem = s.mem := by
  unfold wearRearm
  (try dsimp only)
  (repeat' split) <;> simp [apply_ite]

theorem execJunctionUpdate_frame (a0 : Fin 63) (s t : State) (h : execJunctionUpdate a0 s = .next t) :
    t.pending = s.pending ∧ t.reply = s.reply ∧ t.freeCtr = s.freeCtr ∧ t.cfg = s.cfg ∧ t.pend = s.pend ∧ t.tb = s.tb ∧ t.treads = s.treads ∧ t.flights = s.flights ∧ t.halls = s.halls ∧ t.grid = s.grid ∧ t.treadsOld = s.treadsOld ∧ t.meas = s.meas ∧ t.safe = s.safe ∧ t.therm = s.therm ∧ t.twin = s.twin ∧ t.stair = s.stair ∧ t.nvm = s.nvm ∧ t.streams = s.streams ∧ t.mem = s.mem := by
  unfold execJunctionUpdate at h; cases h; (try dsimp only); (repeat' split) <;> simp [apply_ite]

@[simp] theorem bufferSample_frame (a0 : Nat) (a1 : WearSample) (s : State) :
    (bufferSample a0 a1 s).pending = s.pending ∧ (bufferSample a0 a1 s).reply = s.reply ∧ (bufferSample a0 a1 s).out = s.out ∧ (bufferSample a0 a1 s).freeCtr = s.freeCtr ∧ (bufferSample a0 a1 s).aon = s.aon ∧ (bufferSample a0 a1 s).cfg = s.cfg ∧ (bufferSample a0 a1 s).pend = s.pend ∧ (bufferSample a0 a1 s).tb = s.tb ∧ (bufferSample a0 a1 s).events = s.events ∧ (bufferSample a0 a1 s).host = s.host ∧ (bufferSample a0 a1 s).treads = s.treads ∧ (bufferSample a0 a1 s).flights = s.flights ∧ (bufferSample a0 a1 s).halls = s.halls ∧ (bufferSample a0 a1 s).grid = s.grid ∧ (bufferSample a0 a1 s).atr = s.atr ∧ (bufferSample a0 a1 s).treadsOld = s.treadsOld ∧ (bufferSample a0 a1 s).meas = s.meas ∧ (bufferSample a0 a1 s).safe = s.safe ∧ (bufferSample a0 a1 s).therm = s.therm ∧ (bufferSample a0 a1 s).twin = s.twin ∧ (bufferSample a0 a1 s).stair = s.stair ∧ (bufferSample a0 a1 s).nvm = s.nvm ∧ (bufferSample a0 a1 s).streams = s.streams ∧ (bufferSample a0 a1 s).mem = s.mem := by
  unfold bufferSample
  (try dsimp only)
  (repeat' split) <;> simp [apply_ite]

theorem execWearRead_frame (a0 : List Word) (s t : State) (h : execWearRead a0 s = .next t) :
    t.pending = s.pending ∧ t.out = s.out ∧ t.freeCtr = s.freeCtr ∧ t.aon = s.aon ∧ t.cfg = s.cfg ∧ t.pend = s.pend ∧ t.tb = s.tb ∧ t.events = s.events ∧ t.host = s.host ∧ t.treads = s.treads ∧ t.cells = s.cells ∧ t.flights = s.flights ∧ t.halls = s.halls ∧ t.grid = s.grid ∧ t.atr = s.atr ∧ t.treadsOld = s.treadsOld ∧ t.meas = s.meas ∧ t.safe = s.safe ∧ t.therm = s.therm ∧ t.twin = s.twin ∧ t.stair = s.stair ∧ t.nvm = s.nvm ∧ t.streams = s.streams ∧ t.mem = s.mem := by
  unfold execWearRead at h; cases h
  refine ⟨?_, ?_, ?_, ?_, ?_, ?_, ?_, ?_, ?_, ?_, ?_, ?_, ?_, ?_, ?_, ?_, ?_, ?_, ?_, ?_, ?_, ?_, ?_, ?_⟩
  · repeat' (first | (simp [apply_ite State.pending]; done) | with_reducible refine (each_keep State.pending _ _ _ (fun _ _ => ?_)).trans ?_ | with_reducible refine command_keep State.pending _ _ _ (fun _ => ?_) (fun _ => ?_) | split)
  · repeat' (first | (simp [apply_ite State.out]; done) | with_reducible refine (each_keep State.out _ _ _ (fun _ _ => ?_)).trans ?_ | with_reducible refine command_keep State.out _ _ _ (fun _ => ?_) (fun _ => ?_) | split)
  · repeat' (first | (simp [apply_ite State.freeCtr]; done) | with_reducible refine (each_keep State.freeCtr _ _ _ (fun _ _ => ?_)).trans ?_ | with_reducible refine command_keep State.freeCtr _ _ _ (fun _ => ?_) (fun _ => ?_) | split)
  · repeat' (first | (simp [apply_ite State.aon]; done) | with_reducible refine (each_keep State.aon _ _ _ (fun _ _ => ?_)).trans ?_ | with_reducible refine command_keep State.aon _ _ _ (fun _ => ?_) (fun _ => ?_) | split)
  · repeat' (first | (simp [apply_ite State.cfg]; done) | with_reducible refine (each_keep State.cfg _ _ _ (fun _ _ => ?_)).trans ?_ | with_reducible refine command_keep State.cfg _ _ _ (fun _ => ?_) (fun _ => ?_) | split)
  · repeat' (first | (simp [apply_ite State.pend]; done) | with_reducible refine (each_keep State.pend _ _ _ (fun _ _ => ?_)).trans ?_ | with_reducible refine command_keep State.pend _ _ _ (fun _ => ?_) (fun _ => ?_) | split)
  · repeat' (first | (simp [apply_ite State.tb]; done) | with_reducible refine (each_keep State.tb _ _ _ (fun _ _ => ?_)).trans ?_ | with_reducible refine command_keep State.tb _ _ _ (fun _ => ?_) (fun _ => ?_) | split)
  · repeat' (first | (simp [apply_ite State.events]; done) | with_reducible refine (each_keep State.events _ _ _ (fun _ _ => ?_)).trans ?_ | with_reducible refine command_keep State.events _ _ _ (fun _ => ?_) (fun _ => ?_) | split)
  · repeat' (first | (simp [apply_ite State.host]; done) | with_reducible refine (each_keep State.host _ _ _ (fun _ _ => ?_)).trans ?_ | with_reducible refine command_keep State.host _ _ _ (fun _ => ?_) (fun _ => ?_) | split)
  · repeat' (first | (simp [apply_ite State.treads]; done) | with_reducible refine (each_keep State.treads _ _ _ (fun _ _ => ?_)).trans ?_ | with_reducible refine command_keep State.treads _ _ _ (fun _ => ?_) (fun _ => ?_) | split)
  · repeat' (first | (simp [apply_ite State.cells]; done) | with_reducible refine (each_keep State.cells _ _ _ (fun _ _ => ?_)).trans ?_ | with_reducible refine command_keep State.cells _ _ _ (fun _ => ?_) (fun _ => ?_) | split)
  · repeat' (first | (simp [apply_ite State.flights]; done) | with_reducible refine (each_keep State.flights _ _ _ (fun _ _ => ?_)).trans ?_ | with_reducible refine command_keep State.flights _ _ _ (fun _ => ?_) (fun _ => ?_) | split)
  · repeat' (first | (simp [apply_ite State.halls]; done) | with_reducible refine (each_keep State.halls _ _ _ (fun _ _ => ?_)).trans ?_ | with_reducible refine command_keep State.halls _ _ _ (fun _ => ?_) (fun _ => ?_) | split)
  · repeat' (first | (simp [apply_ite State.grid]; done) | with_reducible refine (each_keep State.grid _ _ _ (fun _ _ => ?_)).trans ?_ | with_reducible refine command_keep State.grid _ _ _ (fun _ => ?_) (fun _ => ?_) | split)
  · repeat' (first | (simp [apply_ite State.atr]; done) | with_reducible refine (each_keep State.atr _ _ _ (fun _ _ => ?_)).trans ?_ | with_reducible refine command_keep State.atr _ _ _ (fun _ => ?_) (fun _ => ?_) | split)
  · repeat' (first | (simp [apply_ite State.treadsOld]; done) | with_reducible refine (each_keep State.treadsOld _ _ _ (fun _ _ => ?_)).trans ?_ | with_reducible refine command_keep State.treadsOld _ _ _ (fun _ => ?_) (fun _ => ?_) | split)
  · repeat' (first | (simp [apply_ite State.meas]; done) | with_reducible refine (each_keep State.meas _ _ _ (fun _ _ => ?_)).trans ?_ | with_reducible refine command_keep State.meas _ _ _ (fun _ => ?_) (fun _ => ?_) | split)
  · repeat' (first | (simp [apply_ite State.safe]; done) | with_reducible refine (each_keep State.safe _ _ _ (fun _ _ => ?_)).trans ?_ | with_reducible refine command_keep State.safe _ _ _ (fun _ => ?_) (fun _ => ?_) | split)
  · repeat' (first | (simp [apply_ite State.therm]; done) | with_reducible refine (each_keep State.therm _ _ _ (fun _ _ => ?_)).trans ?_ | with_reducible refine command_keep State.therm _ _ _ (fun _ => ?_) (fun _ => ?_) | split)
  · repeat' (first | (simp [apply_ite State.twin]; done) | with_reducible refine (each_keep State.twin _ _ _ (fun _ _ => ?_)).trans ?_ | with_reducible refine command_keep State.twin _ _ _ (fun _ => ?_) (fun _ => ?_) | split)
  · repeat' (first | (simp [apply_ite State.stair]; done) | with_reducible refine (each_keep State.stair _ _ _ (fun _ _ => ?_)).trans ?_ | with_reducible refine command_keep State.stair _ _ _ (fun _ => ?_) (fun _ => ?_) | split)
  · repeat' (first | (simp [apply_ite State.nvm]; done) | with_reducible refine (each_keep State.nvm _ _ _ (fun _ _ => ?_)).trans ?_ | with_reducible refine command_keep State.nvm _ _ _ (fun _ => ?_) (fun _ => ?_) | split)
  · repeat' (first | (simp [apply_ite State.streams]; done) | with_reducible refine (each_keep State.streams _ _ _ (fun _ _ => ?_)).trans ?_ | with_reducible refine command_keep State.streams _ _ _ (fun _ => ?_) (fun _ => ?_) | split)
  · repeat' (first | (simp [apply_ite State.mem]; done) | with_reducible refine (each_keep State.mem _ _ _ (fun _ _ => ?_)).trans ?_ | with_reducible refine command_keep State.mem _ _ _ (fun _ => ?_) (fun _ => ?_) | split)

@[simp] theorem wearReset_frame (a0 : Nat) (s : State) :
    (wearReset a0 s).pending = s.pending ∧ (wearReset a0 s).reply = s.reply ∧ (wearReset a0 s).out = s.out ∧ (wearReset a0 s).freeCtr = s.freeCtr ∧ (wearReset a0 s).aon = s.aon ∧ (wearReset a0 s).cfg = s.cfg ∧ (wearReset a0 s).pend = s.pend ∧ (wearReset a0 s).tb = s.tb ∧ (wearReset a0 s).events = s.events ∧ (wearReset a0 s).host = s.host ∧ (wearReset a0 s).treads = s.treads ∧ (wearReset a0 s).flights = s.flights ∧ (wearReset a0 s).halls = s.halls ∧ (wearReset a0 s).grid = s.grid ∧ (wearReset a0 s).atr = s.atr ∧ (wearReset a0 s).treadsOld = s.treadsOld ∧ (wearReset a0 s).meas = s.meas ∧ (wearReset a0 s).safe = s.safe ∧ (wearReset a0 s).therm = s.therm ∧ (wearReset a0 s).twin = s.twin ∧ (wearReset a0 s).stair = s.stair ∧ (wearReset a0 s).nvm = s.nvm ∧ (wearReset a0 s).streams = s.streams ∧ (wearReset a0 s).mem = s.mem := by
  unfold wearReset
  (try dsimp only)
  (repeat' split) <;> simp [apply_ite]

@[simp] theorem wearParam_frame (a0 : Bool) (a1 : List Word) (s : State) :
    (wearParam a0 a1 s).pending = s.pending ∧ (wearParam a0 a1 s).out = s.out ∧ (wearParam a0 a1 s).freeCtr = s.freeCtr ∧ (wearParam a0 a1 s).aon = s.aon ∧ (wearParam a0 a1 s).pend = s.pend ∧ (wearParam a0 a1 s).tb = s.tb ∧ (wearParam a0 a1 s).events = s.events ∧ (wearParam a0 a1 s).host = s.host ∧ (wearParam a0 a1 s).treads = s.treads ∧ (wearParam a0 a1 s).flights = s.flights ∧ (wearParam a0 a1 s).halls = s.halls ∧ (wearParam a0 a1 s).grid = s.grid ∧ (wearParam a0 a1 s).atr = s.atr ∧ (wearParam a0 a1 s).treadsOld = s.treadsOld ∧ (wearParam a0 a1 s).meas = s.meas ∧ (wearParam a0 a1 s).safe = s.safe ∧ (wearParam a0 a1 s).therm = s.therm ∧ (wearParam a0 a1 s).twin = s.twin ∧ (wearParam a0 a1 s).stair = s.stair ∧ (wearParam a0 a1 s).nvm = s.nvm ∧ (wearParam a0 a1 s).streams = s.streams ∧ (wearParam a0 a1 s).mem = s.mem := by
  unfold wearParam
  (try dsimp only)
  (repeat' split) <;> simp [apply_ite]

theorem execWearParam_frame (a0 : List Word) (s t : State) (h : execWearParam a0 s = .next t) :
    t.pending = s.pending ∧ t.out = s.out ∧ t.freeCtr = s.freeCtr ∧ t.aon = s.aon ∧ t.pend = s.pend ∧ t.tb = s.tb ∧ t.events = s.events ∧ t.host = s.host ∧ t.treads = s.treads ∧ t.flights = s.flights ∧ t.halls = s.halls ∧ t.grid = s.grid ∧ t.atr = s.atr ∧ t.treadsOld = s.treadsOld ∧ t.meas = s.meas ∧ t.safe = s.safe ∧ t.therm = s.therm ∧ t.twin = s.twin ∧ t.stair = s.stair ∧ t.nvm = s.nvm ∧ t.streams = s.streams ∧ t.mem = s.mem := by
  unfold execWearParam at h; cases h; (try dsimp only); (repeat' split) <;> simp [apply_ite]

theorem execWearParamReset_frame (a0 : List Word) (s t : State) (h : execWearParamReset a0 s = .next t) :
    t.pending = s.pending ∧ t.out = s.out ∧ t.freeCtr = s.freeCtr ∧ t.aon = s.aon ∧ t.pend = s.pend ∧ t.tb = s.tb ∧ t.events = s.events ∧ t.host = s.host ∧ t.treads = s.treads ∧ t.flights = s.flights ∧ t.halls = s.halls ∧ t.grid = s.grid ∧ t.atr = s.atr ∧ t.treadsOld = s.treadsOld ∧ t.meas = s.meas ∧ t.safe = s.safe ∧ t.therm = s.therm ∧ t.twin = s.twin ∧ t.stair = s.stair ∧ t.nvm = s.nvm ∧ t.streams = s.streams ∧ t.mem = s.mem := by
  unfold execWearParamReset at h; cases h; (try dsimp only); (repeat' split) <;> simp [apply_ite]

@[simp] theorem journalSummary_frame (a0 : Nat) (a1 : NvmThen) (s : State) :
    (journalSummary a0 a1 s).pending = s.pending ∧ (journalSummary a0 a1 s).reply = s.reply ∧ (journalSummary a0 a1 s).out = s.out ∧ (journalSummary a0 a1 s).freeCtr = s.freeCtr ∧ (journalSummary a0 a1 s).aon = s.aon ∧ (journalSummary a0 a1 s).cfg = s.cfg ∧ (journalSummary a0 a1 s).pend = s.pend ∧ (journalSummary a0 a1 s).tb = s.tb ∧ (journalSummary a0 a1 s).events = s.events ∧ (journalSummary a0 a1 s).host = s.host ∧ (journalSummary a0 a1 s).treads = s.treads ∧ (journalSummary a0 a1 s).cells = s.cells ∧ (journalSummary a0 a1 s).flights = s.flights ∧ (journalSummary a0 a1 s).halls = s.halls ∧ (journalSummary a0 a1 s).grid = s.grid ∧ (journalSummary a0 a1 s).atr = s.atr ∧ (journalSummary a0 a1 s).treadsOld = s.treadsOld ∧ (journalSummary a0 a1 s).meas = s.meas ∧ (journalSummary a0 a1 s).safe = s.safe ∧ (journalSummary a0 a1 s).therm = s.therm ∧ (journalSummary a0 a1 s).twin = s.twin ∧ (journalSummary a0 a1 s).stair = s.stair ∧ (journalSummary a0 a1 s).streams = s.streams ∧ (journalSummary a0 a1 s).mem = s.mem := by
  unfold journalSummary
  (try dsimp only)
  (repeat' split) <;> simp [apply_ite]

@[simp] theorem journalHist_frame (a0 : Nat) (a1 : NvmThen) (s : State) :
    (journalHist a0 a1 s).pending = s.pending ∧ (journalHist a0 a1 s).reply = s.reply ∧ (journalHist a0 a1 s).out = s.out ∧ (journalHist a0 a1 s).freeCtr = s.freeCtr ∧ (journalHist a0 a1 s).aon = s.aon ∧ (journalHist a0 a1 s).cfg = s.cfg ∧ (journalHist a0 a1 s).pend = s.pend ∧ (journalHist a0 a1 s).tb = s.tb ∧ (journalHist a0 a1 s).events = s.events ∧ (journalHist a0 a1 s).host = s.host ∧ (journalHist a0 a1 s).treads = s.treads ∧ (journalHist a0 a1 s).cells = s.cells ∧ (journalHist a0 a1 s).flights = s.flights ∧ (journalHist a0 a1 s).halls = s.halls ∧ (journalHist a0 a1 s).grid = s.grid ∧ (journalHist a0 a1 s).atr = s.atr ∧ (journalHist a0 a1 s).treadsOld = s.treadsOld ∧ (journalHist a0 a1 s).meas = s.meas ∧ (journalHist a0 a1 s).safe = s.safe ∧ (journalHist a0 a1 s).therm = s.therm ∧ (journalHist a0 a1 s).twin = s.twin ∧ (journalHist a0 a1 s).stair = s.stair ∧ (journalHist a0 a1 s).streams = s.streams ∧ (journalHist a0 a1 s).mem = s.mem := by
  unfold journalHist
  (try dsimp only)
  (repeat' split) <;> simp [apply_ite]

@[simp] theorem journalRound_frame (s : State) :
    (journalRound s).pending = s.pending ∧ (journalRound s).reply = s.reply ∧ (journalRound s).out = s.out ∧ (journalRound s).freeCtr = s.freeCtr ∧ (journalRound s).aon = s.aon ∧ (journalRound s).cfg = s.cfg ∧ (journalRound s).pend = s.pend ∧ (journalRound s).tb = s.tb ∧ (journalRound s).events = s.events ∧ (journalRound s).host = s.host ∧ (journalRound s).treads = s.treads ∧ (journalRound s).cells = s.cells ∧ (journalRound s).flights = s.flights ∧ (journalRound s).halls = s.halls ∧ (journalRound s).grid = s.grid ∧ (journalRound s).treadsOld = s.treadsOld ∧ (journalRound s).meas = s.meas ∧ (journalRound s).safe = s.safe ∧ (journalRound s).therm = s.therm ∧ (journalRound s).twin = s.twin ∧ (journalRound s).stair = s.stair ∧ (journalRound s).streams = s.streams ∧ (journalRound s).mem = s.mem := by
  unfold journalRound
  (try dsimp only)
  (repeat' split) <;> simp [apply_ite]

theorem execWearJournalRound_frame (s t : State) (h : execWearJournalRound s = .next t) :
    t.pending = s.pending ∧ t.reply = s.reply ∧ t.out = s.out ∧ t.freeCtr = s.freeCtr ∧ t.aon = s.aon ∧ t.cfg = s.cfg ∧ t.pend = s.pend ∧ t.tb = s.tb ∧ t.events = s.events ∧ t.host = s.host ∧ t.treads = s.treads ∧ t.cells = s.cells ∧ t.flights = s.flights ∧ t.halls = s.halls ∧ t.grid = s.grid ∧ t.treadsOld = s.treadsOld ∧ t.meas = s.meas ∧ t.safe = s.safe ∧ t.therm = s.therm ∧ t.twin = s.twin ∧ t.stair = s.stair ∧ t.streams = s.streams ∧ t.mem = s.mem := by
  unfold execWearJournalRound at h; cases h; (try dsimp only); (repeat' split) <;> simp [apply_ite]

@[simp] theorem wearLoad_frame (a0 : Nat) (s : State) :
    (wearLoad a0 s).pending = s.pending ∧ (wearLoad a0 s).reply = s.reply ∧ (wearLoad a0 s).out = s.out ∧ (wearLoad a0 s).freeCtr = s.freeCtr ∧ (wearLoad a0 s).aon = s.aon ∧ (wearLoad a0 s).cfg = s.cfg ∧ (wearLoad a0 s).pend = s.pend ∧ (wearLoad a0 s).tb = s.tb ∧ (wearLoad a0 s).events = s.events ∧ (wearLoad a0 s).host = s.host ∧ (wearLoad a0 s).treads = s.treads ∧ (wearLoad a0 s).flights = s.flights ∧ (wearLoad a0 s).halls = s.halls ∧ (wearLoad a0 s).grid = s.grid ∧ (wearLoad a0 s).atr = s.atr ∧ (wearLoad a0 s).treadsOld = s.treadsOld ∧ (wearLoad a0 s).meas = s.meas ∧ (wearLoad a0 s).safe = s.safe ∧ (wearLoad a0 s).therm = s.therm ∧ (wearLoad a0 s).twin = s.twin ∧ (wearLoad a0 s).stair = s.stair ∧ (wearLoad a0 s).nvm = s.nvm ∧ (wearLoad a0 s).streams = s.streams ∧ (wearLoad a0 s).mem = s.mem := by
  unfold wearLoad
  (try dsimp only)
  (repeat' split) <;> simp [apply_ite]

@[simp] theorem setMeas_frame (a0 : Meas → Meas) (s : State) :
    (setMeas a0 s).pending = s.pending ∧ (setMeas a0 s).reply = s.reply ∧ (setMeas a0 s).out = s.out ∧ (setMeas a0 s).freeCtr = s.freeCtr ∧ (setMeas a0 s).aon = s.aon ∧ (setMeas a0 s).cfg = s.cfg ∧ (setMeas a0 s).pend = s.pend ∧ (setMeas a0 s).tb = s.tb ∧ (setMeas a0 s).events = s.events ∧ (setMeas a0 s).host = s.host ∧ (setMeas a0 s).treads = s.treads ∧ (setMeas a0 s).cells = s.cells ∧ (setMeas a0 s).flights = s.flights ∧ (setMeas a0 s).halls = s.halls ∧ (setMeas a0 s).grid = s.grid ∧ (setMeas a0 s).atr = s.atr ∧ (setMeas a0 s).treadsOld = s.treadsOld ∧ (setMeas a0 s).safe = s.safe ∧ (setMeas a0 s).therm = s.therm ∧ (setMeas a0 s).twin = s.twin ∧ (setMeas a0 s).stair = s.stair ∧ (setMeas a0 s).nvm = s.nvm ∧ (setMeas a0 s).streams = s.streams ∧ (setMeas a0 s).mem = s.mem := by
  unfold setMeas
  (try dsimp only)
  (repeat' split) <;> simp [apply_ite]

@[simp] theorem setAdc_frame (a0 : Nat) (a1 : AdcSeq → AdcSeq) (s : State) :
    (setAdc a0 a1 s).pending = s.pending ∧ (setAdc a0 a1 s).reply = s.reply ∧ (setAdc a0 a1 s).out = s.out ∧ (setAdc a0 a1 s).freeCtr = s.freeCtr ∧ (setAdc a0 a1 s).aon = s.aon ∧ (setAdc a0 a1 s).cfg = s.cfg ∧ (setAdc a0 a1 s).pend = s.pend ∧ (setAdc a0 a1 s).tb = s.tb ∧ (setAdc a0 a1 s).events = s.events ∧ (setAdc a0 a1 s).host = s.host ∧ (setAdc a0 a1 s).treads = s.treads ∧ (setAdc a0 a1 s).cells = s.cells ∧ (setAdc a0 a1 s).flights = s.flights ∧ (setAdc a0 a1 s).halls = s.halls ∧ (setAdc a0 a1 s).grid = s.grid ∧ (setAdc a0 a1 s).atr = s.atr ∧ (setAdc a0 a1 s).treadsOld = s.treadsOld ∧ (setAdc a0 a1 s).safe = s.safe ∧ (setAdc a0 a1 s).therm = s.therm ∧ (setAdc a0 a1 s).twin = s.twin ∧ (setAdc a0 a1 s).stair = s.stair ∧ (setAdc a0 a1 s).nvm = s.nvm ∧ (setAdc a0 a1 s).streams = s.streams ∧ (setAdc a0 a1 s).mem = s.mem := by
  unfold setAdc
  (try dsimp only)
  (repeat' split) <;> simp [apply_ite]

@[simp] theorem setRes_frame (a0 : Nat) (a1 : Nat) (a2 : ResWord → ResWord) (s : State) :
    (setRes a0 a1 a2 s).pending = s.pending ∧ (setRes a0 a1 a2 s).reply = s.reply ∧ (setRes a0 a1 a2 s).out = s.out ∧ (setRes a0 a1 a2 s).freeCtr = s.freeCtr ∧ (setRes a0 a1 a2 s).aon = s.aon ∧ (setRes a0 a1 a2 s).cfg = s.cfg ∧ (setRes a0 a1 a2 s).pend = s.pend ∧ (setRes a0 a1 a2 s).tb = s.tb ∧ (setRes a0 a1 a2 s).events = s.events ∧ (setRes a0 a1 a2 s).host = s.host ∧ (setRes a0 a1 a2 s).treads = s.treads ∧ (setRes a0 a1 a2 s).cells = s.cells ∧ (setRes a0 a1 a2 s).flights = s.flights ∧ (setRes a0 a1 a2 s).halls = s.halls ∧ (setRes a0 a1 a2 s).grid = s.grid ∧ (setRes a0 a1 a2 s).atr = s.atr ∧ (setRes a0 a1 a2 s).treadsOld = s.treadsOld ∧ (setRes a0 a1 a2 s).safe = s.safe ∧ (setRes a0 a1 a2 s).therm = s.therm ∧ (setRes a0 a1 a2 s).twin = s.twin ∧ (setRes a0 a1 a2 s).stair = s.stair ∧ (setRes a0 a1 a2 s).nvm = s.nvm ∧ (setRes a0 a1 a2 s).streams = s.streams ∧ (setRes a0 a1 a2 s).mem = s.mem := by
  unfold setRes
  (try dsimp only)
  (repeat' split) <;> simp [apply_ite]

@[simp] theorem calTake_frame (a0 : BitVec 16) (a1 : Nat) (a2 : Int) (a3 : Bool) (s : State) :
    (calTake a0 a1 a2 a3 s).pending = s.pending ∧ (calTake a0 a1 a2 a3 s).reply = s.reply ∧ (calTake a0 a1 a2 a3 s).out = s.out ∧ (calTake a0 a1 a2 a3 s).freeCtr = s.freeCtr ∧ (calTake a0 a1 a2 a3 s).aon = s.aon ∧ (calTake a0 a1 a2 a3 s).cfg = s.cfg ∧ (calTake a0 a1 a2 a3 s).pend = s.pend ∧ (calTake a0 a1 a2 a3 s).tb = s.tb ∧ (calTake a0 a1 a2 a3 s).events = s.events ∧ (calTake a0 a1 a2 a3 s).host = s.host ∧ (calTake a0 a1 a2 a3 s).treads = s.treads ∧ (calTake a0 a1 a2 a3 s).cells = s.cells ∧ (calTake a0 a1 a2 a3 s).flights = s.flights ∧ (calTake a0 a1 a2 a3 s).halls = s.halls ∧ (calTake a0 a1 a2 a3 s).grid = s.grid ∧ (calTake a0 a1 a2 a3 s).atr = s.atr ∧ (calTake a0 a1 a2 a3 s).treadsOld = s.treadsOld ∧ (calTake a0 a1 a2 a3 s).safe = s.safe ∧ (calTake a0 a1 a2 a3 s).therm = s.therm ∧ (calTake a0 a1 a2 a3 s).twin = s.twin ∧ (calTake a0 a1 a2 a3 s).stair = s.stair ∧ (calTake a0 a1 a2 a3 s).nvm = s.nvm ∧ (calTake a0 a1 a2 a3 s).streams = s.streams ∧ (calTake a0 a1 a2 a3 s).mem = s.mem := by
  unfold calTake
  (try dsimp only)
  (repeat' split) <;> simp [apply_ite]

@[simp] theorem calFeed_frame (a0 : Nat) (a1 : Nat) (a2 : Int) (a3 : Bool) (s : State) :
    (calFeed a0 a1 a2 a3 s).pending = s.pending ∧ (calFeed a0 a1 a2 a3 s).reply = s.reply ∧ (calFeed a0 a1 a2 a3 s).out = s.out ∧ (calFeed a0 a1 a2 a3 s).freeCtr = s.freeCtr ∧ (calFeed a0 a1 a2 a3 s).aon = s.aon ∧ (calFeed a0 a1 a2 a3 s).cfg = s.cfg ∧ (calFeed a0 a1 a2 a3 s).pend = s.pend ∧ (calFeed a0 a1 a2 a3 s).tb = s.tb ∧ (calFeed a0 a1 a2 a3 s).events = s.events ∧ (calFeed a0 a1 a2 a3 s).host = s.host ∧ (calFeed a0 a1 a2 a3 s).treads = s.treads ∧ (calFeed a0 a1 a2 a3 s).cells = s.cells ∧ (calFeed a0 a1 a2 a3 s).flights = s.flights ∧ (calFeed a0 a1 a2 a3 s).halls = s.halls ∧ (calFeed a0 a1 a2 a3 s).grid = s.grid ∧ (calFeed a0 a1 a2 a3 s).atr = s.atr ∧ (calFeed a0 a1 a2 a3 s).treadsOld = s.treadsOld ∧ (calFeed a0 a1 a2 a3 s).safe = s.safe ∧ (calFeed a0 a1 a2 a3 s).therm = s.therm ∧ (calFeed a0 a1 a2 a3 s).twin = s.twin ∧ (calFeed a0 a1 a2 a3 s).stair = s.stair ∧ (calFeed a0 a1 a2 a3 s).nvm = s.nvm ∧ (calFeed a0 a1 a2 a3 s).streams = s.streams ∧ (calFeed a0 a1 a2 a3 s).mem = s.mem := by
  unfold calFeed
  (try dsimp only)
  (repeat' split) <;> simp [apply_ite]

@[simp] theorem complete_frame (a0 : Nat) (a1 : Nat) (a2 : Conv) (a3 : BitVec 16) (a4 : Bool) (a5 : Bool) (a6 : Bool) (s : State) :
    (complete a0 a1 a2 a3 a4 a5 a6 s).pending = s.pending ∧ (complete a0 a1 a2 a3 a4 a5 a6 s).reply = s.reply ∧ (complete a0 a1 a2 a3 a4 a5 a6 s).freeCtr = s.freeCtr ∧ (complete a0 a1 a2 a3 a4 a5 a6 s).cfg = s.cfg ∧ (complete a0 a1 a2 a3 a4 a5 a6 s).pend = s.pend ∧ (complete a0 a1 a2 a3 a4 a5 a6 s).tb = s.tb ∧ (complete a0 a1 a2 a3 a4 a5 a6 s).treads = s.treads ∧ (complete a0 a1 a2 a3 a4 a5 a6 s).cells = s.cells ∧ (complete a0 a1 a2 a3 a4 a5 a6 s).flights = s.flights ∧ (complete a0 a1 a2 a3 a4 a5 a6 s).halls = s.halls ∧ (complete a0 a1 a2 a3 a4 a5 a6 s).grid = s.grid ∧ (complete a0 a1 a2 a3 a4 a5 a6 s).treadsOld = s.treadsOld ∧ (complete a0 a1 a2 a3 a4 a5 a6 s).safe = s.safe ∧ (complete a0 a1 a2 a3 a4 a5 a6 s).therm = s.therm ∧ (complete a0 a1 a2 a3 a4 a5 a6 s).twin = s.twin ∧ (complete a0 a1 a2 a3 a4 a5 a6 s).stair = s.stair ∧ (complete a0 a1 a2 a3 a4 a5 a6 s).nvm = s.nvm ∧ (complete a0 a1 a2 a3 a4 a5 a6 s).streams = s.streams ∧ (complete a0 a1 a2 a3 a4 a5 a6 s).mem = s.mem := by
  unfold complete
  (try dsimp only)
  (repeat' split) <;> simp [apply_ite]

@[simp] theorem settleSeq_frame (a0 : Nat) (s : State) :
    (settleSeq a0 s).pending = s.pending ∧ (settleSeq a0 s).reply = s.reply ∧ (settleSeq a0 s).freeCtr = s.freeCtr ∧ (settleSeq a0 s).cfg = s.cfg ∧ (settleSeq a0 s).pend = s.pend ∧ (settleSeq a0 s).tb = s.tb ∧ (settleSeq a0 s).treads = s.treads ∧ (settleSeq a0 s).cells = s.cells ∧ (settleSeq a0 s).flights = s.flights ∧ (settleSeq a0 s).halls = s.halls ∧ (settleSeq a0 s).grid = s.grid ∧ (settleSeq a0 s).treadsOld = s.treadsOld ∧ (settleSeq a0 s).safe = s.safe ∧ (settleSeq a0 s).therm = s.therm ∧ (settleSeq a0 s).twin = s.twin ∧ (settleSeq a0 s).stair = s.stair ∧ (settleSeq a0 s).nvm = s.nvm ∧ (settleSeq a0 s).streams = s.streams ∧ (settleSeq a0 s).mem = s.mem := by
  unfold settleSeq
  (try dsimp only)
  (repeat' split) <;> simp [apply_ite]

@[simp] theorem settleLatches_frame (s : State) :
    (settleLatches s).pending = s.pending ∧ (settleLatches s).reply = s.reply ∧ (settleLatches s).freeCtr = s.freeCtr ∧ (settleLatches s).cfg = s.cfg ∧ (settleLatches s).pend = s.pend ∧ (settleLatches s).tb = s.tb ∧ (settleLatches s).treads = s.treads ∧ (settleLatches s).cells = s.cells ∧ (settleLatches s).flights = s.flights ∧ (settleLatches s).halls = s.halls ∧ (settleLatches s).grid = s.grid ∧ (settleLatches s).treadsOld = s.treadsOld ∧ (settleLatches s).safe = s.safe ∧ (settleLatches s).therm = s.therm ∧ (settleLatches s).twin = s.twin ∧ (settleLatches s).stair = s.stair ∧ (settleLatches s).nvm = s.nvm ∧ (settleLatches s).streams = s.streams ∧ (settleLatches s).mem = s.mem := by
  unfold settleLatches
  (try dsimp only)
  (repeat' split) <;> simp [apply_ite]

@[simp] theorem dropEntry_frame (a0 : Nat) (s : State) :
    (dropEntry a0 s).pending = s.pending ∧ (dropEntry a0 s).reply = s.reply ∧ (dropEntry a0 s).freeCtr = s.freeCtr ∧ (dropEntry a0 s).cfg = s.cfg ∧ (dropEntry a0 s).pend = s.pend ∧ (dropEntry a0 s).tb = s.tb ∧ (dropEntry a0 s).treads = s.treads ∧ (dropEntry a0 s).cells = s.cells ∧ (dropEntry a0 s).flights = s.flights ∧ (dropEntry a0 s).halls = s.halls ∧ (dropEntry a0 s).grid = s.grid ∧ (dropEntry a0 s).treadsOld = s.treadsOld ∧ (dropEntry a0 s).safe = s.safe ∧ (dropEntry a0 s).therm = s.therm ∧ (dropEntry a0 s).twin = s.twin ∧ (dropEntry a0 s).stair = s.stair ∧ (dropEntry a0 s).nvm = s.nvm ∧ (dropEntry a0 s).streams = s.streams ∧ (dropEntry a0 s).mem = s.mem := by
  unfold dropEntry
  (try dsimp only)
  (repeat' split) <;> simp [apply_ite]

@[simp] theorem dropUnsampled_frame (a0 : Nat) (a1 : Nat) (s : State) :
    (dropUnsampled a0 a1 s).pending = s.pending ∧ (dropUnsampled a0 a1 s).reply = s.reply ∧ (dropUnsampled a0 a1 s).freeCtr = s.freeCtr ∧ (dropUnsampled a0 a1 s).cfg = s.cfg ∧ (dropUnsampled a0 a1 s).pend = s.pend ∧ (dropUnsampled a0 a1 s).tb = s.tb ∧ (dropUnsampled a0 a1 s).treads = s.treads ∧ (dropUnsampled a0 a1 s).cells = s.cells ∧ (dropUnsampled a0 a1 s).flights = s.flights ∧ (dropUnsampled a0 a1 s).halls = s.halls ∧ (dropUnsampled a0 a1 s).grid = s.grid ∧ (dropUnsampled a0 a1 s).treadsOld = s.treadsOld ∧ (dropUnsampled a0 a1 s).safe = s.safe ∧ (dropUnsampled a0 a1 s).therm = s.therm ∧ (dropUnsampled a0 a1 s).twin = s.twin ∧ (dropUnsampled a0 a1 s).stair = s.stair ∧ (dropUnsampled a0 a1 s).nvm = s.nvm ∧ (dropUnsampled a0 a1 s).streams = s.streams ∧ (dropUnsampled a0 a1 s).mem = s.mem := by
  unfold dropUnsampled
  (try dsimp only)
  (repeat' split) <;> simp [apply_ite]

@[simp] theorem trigger_frame (a0 : Nat) (a1 : Nat) (a2 : Bool) (s : State) :
    (trigger a0 a1 a2 s).pending = s.pending ∧ (trigger a0 a1 a2 s).reply = s.reply ∧ (trigger a0 a1 a2 s).freeCtr = s.freeCtr ∧ (trigger a0 a1 a2 s).cfg = s.cfg ∧ (trigger a0 a1 a2 s).pend = s.pend ∧ (trigger a0 a1 a2 s).tb = s.tb ∧ (trigger a0 a1 a2 s).treads = s.treads ∧ (trigger a0 a1 a2 s).cells = s.cells ∧ (trigger a0 a1 a2 s).flights = s.flights ∧ (trigger a0 a1 a2 s).halls = s.halls ∧ (trigger a0 a1 a2 s).grid = s.grid ∧ (trigger a0 a1 a2 s).treadsOld = s.treadsOld ∧ (trigger a0 a1 a2 s).safe = s.safe ∧ (trigger a0 a1 a2 s).therm = s.therm ∧ (trigger a0 a1 a2 s).twin = s.twin ∧ (trigger a0 a1 a2 s).stair = s.stair ∧ (trigger a0 a1 a2 s).nvm = s.nvm ∧ (trigger a0 a1 a2 s).streams = s.streams ∧ (trigger a0 a1 a2 s).mem = s.mem := by
  unfold trigger
  (try dsimp only)
  (repeat' split) <;> simp [apply_ite]

@[simp] theorem triggerAll_frame (a0 : Nat) (a1 : Nat) (a2 : Nat) (s : State) :
    (triggerAll a0 a1 a2 s).pending = s.pending ∧ (triggerAll a0 a1 a2 s).reply = s.reply ∧ (triggerAll a0 a1 a2 s).freeCtr = s.freeCtr ∧ (triggerAll a0 a1 a2 s).cfg = s.cfg ∧ (triggerAll a0 a1 a2 s).pend = s.pend ∧ (triggerAll a0 a1 a2 s).tb = s.tb ∧ (triggerAll a0 a1 a2 s).treads = s.treads ∧ (triggerAll a0 a1 a2 s).cells = s.cells ∧ (triggerAll a0 a1 a2 s).flights = s.flights ∧ (triggerAll a0 a1 a2 s).halls = s.halls ∧ (triggerAll a0 a1 a2 s).grid = s.grid ∧ (triggerAll a0 a1 a2 s).treadsOld = s.treadsOld ∧ (triggerAll a0 a1 a2 s).safe = s.safe ∧ (triggerAll a0 a1 a2 s).therm = s.therm ∧ (triggerAll a0 a1 a2 s).twin = s.twin ∧ (triggerAll a0 a1 a2 s).stair = s.stair ∧ (triggerAll a0 a1 a2 s).nvm = s.nvm ∧ (triggerAll a0 a1 a2 s).streams = s.streams ∧ (triggerAll a0 a1 a2 s).mem = s.mem := by
  unfold triggerAll
  (try dsimp only)
  (repeat' split) <;> simp [apply_ite]

theorem execCarrierTrigger_frame (a0 : Fin 63) (a1 : Bool) (s t : State) (h : execCarrierTrigger a0 a1 s = .next t) :
    t.pending = s.pending ∧ t.reply = s.reply ∧ t.freeCtr = s.freeCtr ∧ t.cfg = s.cfg ∧ t.pend = s.pend ∧ t.tb = s.tb ∧ t.treads = s.treads ∧ t.cells = s.cells ∧ t.flights = s.flights ∧ t.halls = s.halls ∧ t.grid = s.grid ∧ t.treadsOld = s.treadsOld ∧ t.safe = s.safe ∧ t.therm = s.therm ∧ t.twin = s.twin ∧ t.stair = s.stair ∧ t.nvm = s.nvm ∧ t.streams = s.streams ∧ t.mem = s.mem := by
  unfold execCarrierTrigger at h; cases h; (try dsimp only); (repeat' split) <;> simp [apply_ite]

theorem execGpioTriggerEdge_frame (a0 : Fin 16) (s t : State) (h : execGpioTriggerEdge a0 s = .next t) :
    t.pending = s.pending ∧ t.reply = s.reply ∧ t.freeCtr = s.freeCtr ∧ t.cfg = s.cfg ∧ t.pend = s.pend ∧ t.tb = s.tb ∧ t.treads = s.treads ∧ t.cells = s.cells ∧ t.flights = s.flights ∧ t.halls = s.halls ∧ t.grid = s.grid ∧ t.treadsOld = s.treadsOld ∧ t.safe = s.safe ∧ t.therm = s.therm ∧ t.twin = s.twin ∧ t.stair = s.stair ∧ t.nvm = s.nvm ∧ t.streams = s.streams ∧ t.mem = s.mem := by
  unfold execGpioTriggerEdge at h; cases h; (try dsimp only); (repeat' split) <;> simp [apply_ite]

theorem execAdcConversionDone_frame (a0 : Fin 16) (a1 : Fin 16) (a2 : Sampled) (s t : State) (h : execAdcConversionDone a0 a1 a2 s = .next t) :
    t.pending = s.pending ∧ t.reply = s.reply ∧ t.freeCtr = s.freeCtr ∧ t.cfg = s.cfg ∧ t.pend = s.pend ∧ t.tb = s.tb ∧ t.treads = s.treads ∧ t.cells = s.cells ∧ t.flights = s.flights ∧ t.halls = s.halls ∧ t.grid = s.grid ∧ t.treadsOld = s.treadsOld ∧ t.safe = s.safe ∧ t.therm = s.therm ∧ t.twin = s.twin ∧ t.stair = s.stair ∧ t.nvm = s.nvm ∧ t.streams = s.streams ∧ t.mem = s.mem := by
  unfold execAdcConversionDone at h; cases h; (try dsimp only); (repeat' split) <;> simp [apply_ite]

theorem execSliceRequestDrop_frame (a0 : Fin 16) (a1 : Fin 16) (s t : State) (h : execSliceRequestDrop a0 a1 s = .next t) :
    t.pending = s.pending ∧ t.reply = s.reply ∧ t.freeCtr = s.freeCtr ∧ t.cfg = s.cfg ∧ t.pend = s.pend ∧ t.tb = s.tb ∧ t.treads = s.treads ∧ t.cells = s.cells ∧ t.flights = s.flights ∧ t.halls = s.halls ∧ t.grid = s.grid ∧ t.treadsOld = s.treadsOld ∧ t.safe = s.safe ∧ t.therm = s.therm ∧ t.twin = s.twin ∧ t.stair = s.stair ∧ t.nvm = s.nvm ∧ t.streams = s.streams ∧ t.mem = s.mem := by
  unfold execSliceRequestDrop at h; cases h; (try dsimp only); (repeat' split) <;> simp [apply_ite]

theorem execDsdFilterOutput_frame (a0 : Fin 8) (a1 : Int) (s t : State) (h : execDsdFilterOutput a0 a1 s = .next t) :
    t.pending = s.pending ∧ t.reply = s.reply ∧ t.freeCtr = s.freeCtr ∧ t.cfg = s.cfg ∧ t.pend = s.pend ∧ t.tb = s.tb ∧ t.treads = s.treads ∧ t.cells = s.cells ∧ t.flights = s.flights ∧ t.halls = s.halls ∧ t.grid = s.grid ∧ t.treadsOld = s.treadsOld ∧ t.safe = s.safe ∧ t.therm = s.therm ∧ t.twin = s.twin ∧ t.stair = s.stair ∧ t.nvm = s.nvm ∧ t.streams = s.streams ∧ t.mem = s.mem := by
  unfold execDsdFilterOutput at h; cases h; (try dsimp only); (repeat' split) <;> simp [apply_ite]

@[simp] theorem hostReadRes_frame (a0 : Nat) (a1 : Nat) (s : State) :
    (hostReadRes a0 a1 s).2.pending = s.pending ∧ (hostReadRes a0 a1 s).2.reply = s.reply ∧ (hostReadRes a0 a1 s).2.freeCtr = s.freeCtr ∧ (hostReadRes a0 a1 s).2.cfg = s.cfg ∧ (hostReadRes a0 a1 s).2.pend = s.pend ∧ (hostReadRes a0 a1 s).2.tb = s.tb ∧ (hostReadRes a0 a1 s).2.treads = s.treads ∧ (hostReadRes a0 a1 s).2.cells = s.cells ∧ (hostReadRes a0 a1 s).2.flights = s.flights ∧ (hostReadRes a0 a1 s).2.halls = s.halls ∧ (hostReadRes a0 a1 s).2.grid = s.grid ∧ (hostReadRes a0 a1 s).2.treadsOld = s.treadsOld ∧ (hostReadRes a0 a1 s).2.safe = s.safe ∧ (hostReadRes a0 a1 s).2.therm = s.therm ∧ (hostReadRes a0 a1 s).2.twin = s.twin ∧ (hostReadRes a0 a1 s).2.stair = s.stair ∧ (hostReadRes a0 a1 s).2.nvm = s.nvm ∧ (hostReadRes a0 a1 s).2.streams = s.streams ∧ (hostReadRes a0 a1 s).2.mem = s.mem := by
  unfold hostReadRes
  (try dsimp only)
  (repeat' split) <;> simp [apply_ite]

theorem execAdcRead_frame (a0 : List Word) (s t : State) (h : execAdcRead a0 s = .next t) :
    t.pending = s.pending ∧ t.freeCtr = s.freeCtr ∧ t.cfg = s.cfg ∧ t.pend = s.pend ∧ t.tb = s.tb ∧ t.treads = s.treads ∧ t.cells = s.cells ∧ t.flights = s.flights ∧ t.halls = s.halls ∧ t.grid = s.grid ∧ t.treadsOld = s.treadsOld ∧ t.safe = s.safe ∧ t.therm = s.therm ∧ t.twin = s.twin ∧ t.stair = s.stair ∧ t.nvm = s.nvm ∧ t.streams = s.streams ∧ t.mem = s.mem := by
  unfold execAdcRead at h; cases h; (try dsimp only); (repeat' split) <;> simp [apply_ite]

@[simp] theorem writeSeq_frame (a0 : Nat) (a1 : Word) (a2 : Vector Word 16) (s : State) :
    (writeSeq a0 a1 a2 s).pending = s.pending ∧ (writeSeq a0 a1 a2 s).reply = s.reply ∧ (writeSeq a0 a1 a2 s).freeCtr = s.freeCtr ∧ (writeSeq a0 a1 a2 s).cfg = s.cfg ∧ (writeSeq a0 a1 a2 s).pend = s.pend ∧ (writeSeq a0 a1 a2 s).tb = s.tb ∧ (writeSeq a0 a1 a2 s).treads = s.treads ∧ (writeSeq a0 a1 a2 s).cells = s.cells ∧ (writeSeq a0 a1 a2 s).flights = s.flights ∧ (writeSeq a0 a1 a2 s).halls = s.halls ∧ (writeSeq a0 a1 a2 s).grid = s.grid ∧ (writeSeq a0 a1 a2 s).treadsOld = s.treadsOld ∧ (writeSeq a0 a1 a2 s).safe = s.safe ∧ (writeSeq a0 a1 a2 s).therm = s.therm ∧ (writeSeq a0 a1 a2 s).twin = s.twin ∧ (writeSeq a0 a1 a2 s).stair = s.stair ∧ (writeSeq a0 a1 a2 s).nvm = s.nvm ∧ (writeSeq a0 a1 a2 s).streams = s.streams ∧ (writeSeq a0 a1 a2 s).mem = s.mem := by
  unfold writeSeq
  (try dsimp only)
  (repeat' split) <;> simp [apply_ite]

theorem execAdcSeq_frame (a0 : List Word) (s t : State) (h : execAdcSeq a0 s = .next t) :
    t.pending = s.pending ∧ t.freeCtr = s.freeCtr ∧ t.cfg = s.cfg ∧ t.pend = s.pend ∧ t.tb = s.tb ∧ t.treads = s.treads ∧ t.cells = s.cells ∧ t.flights = s.flights ∧ t.halls = s.halls ∧ t.grid = s.grid ∧ t.treadsOld = s.treadsOld ∧ t.safe = s.safe ∧ t.therm = s.therm ∧ t.twin = s.twin ∧ t.stair = s.stair ∧ t.nvm = s.nvm ∧ t.streams = s.streams ∧ t.mem = s.mem := by
  unfold execAdcSeq at h; cases h
  refine ⟨?_, ?_, ?_, ?_, ?_, ?_, ?_, ?_, ?_, ?_, ?_, ?_, ?_, ?_, ?_, ?_, ?_, ?_⟩
  · refine analogCommand_pending _ _ _ fun s => ?_
    (try dsimp only); (repeat' split) <;> simp
  · refine analogCommand_freeCtr _ _ _ fun s => ?_
    (try dsimp only); (repeat' split) <;> simp
  · refine analogCommand_cfg _ _ _ fun s => ?_
    (try dsimp only); (repeat' split) <;> simp
  · refine analogCommand_pend _ _ _ fun s => ?_
    (try dsimp only); (repeat' split) <;> simp
  · refine analogCommand_tb _ _ _ fun s => ?_
    (try dsimp only); (repeat' split) <;> simp
  · refine analogCommand_treads _ _ _ fun s => ?_
    (try dsimp only); (repeat' split) <;> simp
  · refine analogCommand_cells _ _ _ fun s => ?_
    (try dsimp only); (repeat' split) <;> simp
  · refine analogCommand_flights _ _ _ fun s => ?_
    (try dsimp only); (repeat' split) <;> simp
  · refine analogCommand_halls _ _ _ fun s => ?_
    (try dsimp only); (repeat' split) <;> simp
  · refine analogCommand_grid _ _ _ fun s => ?_
    (try dsimp only); (repeat' split) <;> simp
  · refine analogCommand_treadsOld _ _ _ fun s => ?_
    (try dsimp only); (repeat' split) <;> simp
  · refine analogCommand_safe _ _ _ fun s => ?_
    (try dsimp only); (repeat' split) <;> simp
  · refine analogCommand_therm _ _ _ fun s => ?_
    (try dsimp only); (repeat' split) <;> simp
  · refine analogCommand_twin _ _ _ fun s => ?_
    (try dsimp only); (repeat' split) <;> simp
  · refine analogCommand_stair _ _ _ fun s => ?_
    (try dsimp only); (repeat' split) <;> simp
  · refine analogCommand_nvm _ _ _ fun s => ?_
    (try dsimp only); (repeat' split) <;> simp
  · refine analogCommand_streams _ _ _ fun s => ?_
    (try dsimp only); (repeat' split) <;> simp
  · refine analogCommand_mem _ _ _ fun s => ?_
    (try dsimp only); (repeat' split) <;> simp

theorem execCalPriv_frame (a0 : List Word) (s t : State) (h : execCalPriv a0 s = .next t) :
    t.pending = s.pending ∧ t.out = s.out ∧ t.freeCtr = s.freeCtr ∧ t.aon = s.aon ∧ t.cfg = s.cfg ∧ t.pend = s.pend ∧ t.tb = s.tb ∧ t.events = s.events ∧ t.host = s.host ∧ t.treads = s.treads ∧ t.cells = s.cells ∧ t.flights = s.flights ∧ t.halls = s.halls ∧ t.grid = s.grid ∧ t.atr = s.atr ∧ t.treadsOld = s.treadsOld ∧ t.safe = s.safe ∧ t.therm = s.therm ∧ t.twin = s.twin ∧ t.stair = s.stair ∧ t.nvm = s.nvm ∧ t.streams = s.streams ∧ t.mem = s.mem := by
  unfold execCalPriv at h; cases h
  refine ⟨?_, ?_, ?_, ?_, ?_, ?_, ?_, ?_, ?_, ?_, ?_, ?_, ?_, ?_, ?_, ?_, ?_, ?_, ?_, ?_, ?_, ?_, ?_⟩
  · refine analogCommand_pending _ _ _ fun s => ?_
    (try dsimp only); (repeat' split) <;> simp
  · refine analogCommand_out _ _ _ fun s => ?_
    (try dsimp only); (repeat' split) <;> simp
  · refine analogCommand_freeCtr _ _ _ fun s => ?_
    (try dsimp only); (repeat' split) <;> simp
  · refine analogCommand_aon _ _ _ fun s => ?_
    (try dsimp only); (repeat' split) <;> simp
  · refine analogCommand_cfg _ _ _ fun s => ?_
    (try dsimp only); (repeat' split) <;> simp
  · refine analogCommand_pend _ _ _ fun s => ?_
    (try dsimp only); (repeat' split) <;> simp
  · refine analogCommand_tb _ _ _ fun s => ?_
    (try dsimp only); (repeat' split) <;> simp
  · refine analogCommand_events _ _ _ fun s => ?_
    (try dsimp only); (repeat' split) <;> simp
  · refine analogCommand_host _ _ _ fun s => ?_
    (try dsimp only); (repeat' split) <;> simp
  · refine analogCommand_treads _ _ _ fun s => ?_
    (try dsimp only); (repeat' split) <;> simp
  · refine analogCommand_cells _ _ _ fun s => ?_
    (try dsimp only); (repeat' split) <;> simp
  · refine analogCommand_flights _ _ _ fun s => ?_
    (try dsimp only); (repeat' split) <;> simp
  · refine analogCommand_halls _ _ _ fun s => ?_
    (try dsimp only); (repeat' split) <;> simp
  · refine analogCommand_grid _ _ _ fun s => ?_
    (try dsimp only); (repeat' split) <;> simp
  · refine analogCommand_atr _ _ _ fun s => ?_
    (try dsimp only); (repeat' split) <;> simp
  · refine analogCommand_treadsOld _ _ _ fun s => ?_
    (try dsimp only); (repeat' split) <;> simp
  · refine analogCommand_safe _ _ _ fun s => ?_
    (try dsimp only); (repeat' split) <;> simp
  · refine analogCommand_therm _ _ _ fun s => ?_
    (try dsimp only); (repeat' split) <;> simp
  · refine analogCommand_twin _ _ _ fun s => ?_
    (try dsimp only); (repeat' split) <;> simp
  · refine analogCommand_stair _ _ _ fun s => ?_
    (try dsimp only); (repeat' split) <;> simp
  · refine analogCommand_nvm _ _ _ fun s => ?_
    (try dsimp only); (repeat' split) <;> simp
  · refine analogCommand_streams _ _ _ fun s => ?_
    (try dsimp only); (repeat' split) <;> simp
  · refine analogCommand_mem _ _ _ fun s => ?_
    (try dsimp only); (repeat' split) <;> simp

@[simp] theorem endRound_frame (s : State) :
    (endRound s).pending = s.pending ∧ (endRound s).reply = s.reply ∧ (endRound s).out = s.out ∧ (endRound s).freeCtr = s.freeCtr ∧ (endRound s).aon = s.aon ∧ (endRound s).cfg = s.cfg ∧ (endRound s).pend = s.pend ∧ (endRound s).tb = s.tb ∧ (endRound s).events = s.events ∧ (endRound s).host = s.host ∧ (endRound s).treads = s.treads ∧ (endRound s).cells = s.cells ∧ (endRound s).flights = s.flights ∧ (endRound s).halls = s.halls ∧ (endRound s).grid = s.grid ∧ (endRound s).atr = s.atr ∧ (endRound s).treadsOld = s.treadsOld ∧ (endRound s).safe = s.safe ∧ (endRound s).therm = s.therm ∧ (endRound s).twin = s.twin ∧ (endRound s).stair = s.stair ∧ (endRound s).nvm = s.nvm ∧ (endRound s).streams = s.streams ∧ (endRound s).mem = s.mem := by
  unfold endRound
  (try dsimp only)
  (repeat' split) <;> simp [apply_ite]

theorem execCalRoundStart_frame (s t : State) (h : execCalRoundStart s = .next t) :
    t.pending = s.pending ∧ t.reply = s.reply ∧ t.out = s.out ∧ t.freeCtr = s.freeCtr ∧ t.aon = s.aon ∧ t.cfg = s.cfg ∧ t.pend = s.pend ∧ t.tb = s.tb ∧ t.events = s.events ∧ t.host = s.host ∧ t.treads = s.treads ∧ t.cells = s.cells ∧ t.flights = s.flights ∧ t.halls = s.halls ∧ t.grid = s.grid ∧ t.atr = s.atr ∧ t.treadsOld = s.treadsOld ∧ t.safe = s.safe ∧ t.therm = s.therm ∧ t.twin = s.twin ∧ t.stair = s.stair ∧ t.nvm = s.nvm ∧ t.streams = s.streams ∧ t.mem = s.mem := by
  unfold execCalRoundStart at h; cases h; (try dsimp only); (repeat' split) <;> simp [apply_ite]

@[simp] theorem setRound_frame (a0 : CalRound → CalRound) (s : State) :
    (setRound a0 s).pending = s.pending ∧ (setRound a0 s).reply = s.reply ∧ (setRound a0 s).out = s.out ∧ (setRound a0 s).freeCtr = s.freeCtr ∧ (setRound a0 s).aon = s.aon ∧ (setRound a0 s).cfg = s.cfg ∧ (setRound a0 s).pend = s.pend ∧ (setRound a0 s).tb = s.tb ∧ (setRound a0 s).events = s.events ∧ (setRound a0 s).host = s.host ∧ (setRound a0 s).treads = s.treads ∧ (setRound a0 s).cells = s.cells ∧ (setRound a0 s).flights = s.flights ∧ (setRound a0 s).halls = s.halls ∧ (setRound a0 s).grid = s.grid ∧ (setRound a0 s).atr = s.atr ∧ (setRound a0 s).treadsOld = s.treadsOld ∧ (setRound a0 s).safe = s.safe ∧ (setRound a0 s).therm = s.therm ∧ (setRound a0 s).twin = s.twin ∧ (setRound a0 s).stair = s.stair ∧ (setRound a0 s).nvm = s.nvm ∧ (setRound a0 s).streams = s.streams ∧ (setRound a0 s).mem = s.mem := by
  unfold setRound
  (try dsimp only)
  (repeat' split) <;> simp [apply_ite]

@[simp] theorem failUnit_frame (a0 : Nat) (s : State) :
    (failUnit a0 s).pending = s.pending ∧ (failUnit a0 s).reply = s.reply ∧ (failUnit a0 s).freeCtr = s.freeCtr ∧ (failUnit a0 s).cfg = s.cfg ∧ (failUnit a0 s).pend = s.pend ∧ (failUnit a0 s).tb = s.tb ∧ (failUnit a0 s).treads = s.treads ∧ (failUnit a0 s).cells = s.cells ∧ (failUnit a0 s).flights = s.flights ∧ (failUnit a0 s).halls = s.halls ∧ (failUnit a0 s).grid = s.grid ∧ (failUnit a0 s).treadsOld = s.treadsOld ∧ (failUnit a0 s).safe = s.safe ∧ (failUnit a0 s).therm = s.therm ∧ (failUnit a0 s).twin = s.twin ∧ (failUnit a0 s).stair = s.stair ∧ (failUnit a0 s).nvm = s.nvm ∧ (failUnit a0 s).streams = s.streams ∧ (failUnit a0 s).mem = s.mem := by
  unfold failUnit
  (try dsimp only)
  (repeat' split) <;> simp [apply_ite]

@[simp] theorem stopRotation_frame (s : State) :
    (stopRotation s).pending = s.pending ∧ (stopRotation s).reply = s.reply ∧ (stopRotation s).out = s.out ∧ (stopRotation s).freeCtr = s.freeCtr ∧ (stopRotation s).aon = s.aon ∧ (stopRotation s).cfg = s.cfg ∧ (stopRotation s).pend = s.pend ∧ (stopRotation s).tb = s.tb ∧ (stopRotation s).events = s.events ∧ (stopRotation s).host = s.host ∧ (stopRotation s).treads = s.treads ∧ (stopRotation s).cells = s.cells ∧ (stopRotation s).flights = s.flights ∧ (stopRotation s).halls = s.halls ∧ (stopRotation s).grid = s.grid ∧ (stopRotation s).atr = s.atr ∧ (stopRotation s).treadsOld = s.treadsOld ∧ (stopRotation s).safe = s.safe ∧ (stopRotation s).therm = s.therm ∧ (stopRotation s).twin = s.twin ∧ (stopRotation s).stair = s.stair ∧ (stopRotation s).nvm = s.nvm ∧ (stopRotation s).streams = s.streams ∧ (stopRotation s).mem = s.mem := by
  unfold stopRotation
  (try dsimp only)
  (repeat' split) <;> simp [apply_ite]

@[simp] theorem takeUnitCal_frame (a0 : Nat) (a1 : Rat) (a2 : Rat) (s : State) :
    (takeUnitCal a0 a1 a2 s).pending = s.pending ∧ (takeUnitCal a0 a1 a2 s).reply = s.reply ∧ (takeUnitCal a0 a1 a2 s).freeCtr = s.freeCtr ∧ (takeUnitCal a0 a1 a2 s).cfg = s.cfg ∧ (takeUnitCal a0 a1 a2 s).pend = s.pend ∧ (takeUnitCal a0 a1 a2 s).tb = s.tb ∧ (takeUnitCal a0 a1 a2 s).treads = s.treads ∧ (takeUnitCal a0 a1 a2 s).cells = s.cells ∧ (takeUnitCal a0 a1 a2 s).flights = s.flights ∧ (takeUnitCal a0 a1 a2 s).halls = s.halls ∧ (takeUnitCal a0 a1 a2 s).grid = s.grid ∧ (takeUnitCal a0 a1 a2 s).treadsOld = s.treadsOld ∧ (takeUnitCal a0 a1 a2 s).safe = s.safe ∧ (takeUnitCal a0 a1 a2 s).therm = s.therm ∧ (takeUnitCal a0 a1 a2 s).twin = s.twin ∧ (takeUnitCal a0 a1 a2 s).stair = s.stair ∧ (takeUnitCal a0 a1 a2 s).nvm = s.nvm ∧ (takeUnitCal a0 a1 a2 s).streams = s.streams ∧ (takeUnitCal a0 a1 a2 s).mem = s.mem := by
  unfold takeUnitCal
  (try dsimp only)
  (repeat' split) <;> simp [apply_ite]

theorem execSelfCalDone_frame (a0 : Rat) (a1 : Rat) (s t : State) (h : execSelfCalDone a0 a1 s = .next t) :
    t.pending = s.pending ∧ t.reply = s.reply ∧ t.freeCtr = s.freeCtr ∧ t.cfg = s.cfg ∧ t.pend = s.pend ∧ t.tb = s.tb ∧ t.treads = s.treads ∧ t.cells = s.cells ∧ t.flights = s.flights ∧ t.halls = s.halls ∧ t.grid = s.grid ∧ t.treadsOld = s.treadsOld ∧ t.safe = s.safe ∧ t.therm = s.therm ∧ t.twin = s.twin ∧ t.stair = s.stair ∧ t.nvm = s.nvm ∧ t.streams = s.streams ∧ t.mem = s.mem := by
  unfold execSelfCalDone at h; cases h; (try dsimp only); (repeat' split) <;> simp [apply_ite]

theorem execOverlapDone_frame (a0 : Rat) (s t : State) (h : execOverlapDone a0 s = .next t) :
    t.pending = s.pending ∧ t.reply = s.reply ∧ t.out = s.out ∧ t.freeCtr = s.freeCtr ∧ t.aon = s.aon ∧ t.cfg = s.cfg ∧ t.pend = s.pend ∧ t.tb = s.tb ∧ t.events = s.events ∧ t.host = s.host ∧ t.treads = s.treads ∧ t.cells = s.cells ∧ t.flights = s.flights ∧ t.halls = s.halls ∧ t.grid = s.grid ∧ t.atr = s.atr ∧ t.treadsOld = s.treadsOld ∧ t.safe = s.safe ∧ t.therm = s.therm ∧ t.twin = s.twin ∧ t.stair = s.stair ∧ t.nvm = s.nvm ∧ t.streams = s.streams ∧ t.mem = s.mem := by
  unfold execOverlapDone at h; cases h; (try dsimp only); (repeat' split) <;> simp [apply_ite]

theorem execOverlapTimeout_frame (s t : State) (h : execOverlapTimeout s = .next t) :
    t.pending = s.pending ∧ t.reply = s.reply ∧ t.out = s.out ∧ t.freeCtr = s.freeCtr ∧ t.aon = s.aon ∧ t.cfg = s.cfg ∧ t.pend = s.pend ∧ t.tb = s.tb ∧ t.events = s.events ∧ t.host = s.host ∧ t.treads = s.treads ∧ t.cells = s.cells ∧ t.flights = s.flights ∧ t.halls = s.halls ∧ t.grid = s.grid ∧ t.atr = s.atr ∧ t.treadsOld = s.treadsOld ∧ t.safe = s.safe ∧ t.therm = s.therm ∧ t.twin = s.twin ∧ t.stair = s.stair ∧ t.nvm = s.nvm ∧ t.streams = s.streams ∧ t.mem = s.mem := by
  unfold execOverlapTimeout at h; cases h; (try dsimp only); (repeat' split) <;> simp [apply_ite]

@[simp] theorem partRole_frame (a0 : Nat) (a1 : Nat) (s : State) :
    (partRole a0 a1 s).pending = s.pending ∧ (partRole a0 a1 s).reply = s.reply ∧ (partRole a0 a1 s).out = s.out ∧ (partRole a0 a1 s).freeCtr = s.freeCtr ∧ (partRole a0 a1 s).aon = s.aon ∧ (partRole a0 a1 s).cfg = s.cfg ∧ (partRole a0 a1 s).pend = s.pend ∧ (partRole a0 a1 s).tb = s.tb ∧ (partRole a0 a1 s).events = s.events ∧ (partRole a0 a1 s).host = s.host ∧ (partRole a0 a1 s).treads = s.treads ∧ (partRole a0 a1 s).cells = s.cells ∧ (partRole a0 a1 s).flights = s.flights ∧ (partRole a0 a1 s).halls = s.halls ∧ (partRole a0 a1 s).grid = s.grid ∧ (partRole a0 a1 s).atr = s.atr ∧ (partRole a0 a1 s).treadsOld = s.treadsOld ∧ (partRole a0 a1 s).safe = s.safe ∧ (partRole a0 a1 s).therm = s.therm ∧ (partRole a0 a1 s).twin = s.twin ∧ (partRole a0 a1 s).stair = s.stair ∧ (partRole a0 a1 s).nvm = s.nvm ∧ (partRole a0 a1 s).streams = s.streams ∧ (partRole a0 a1 s).mem = s.mem := by
  unfold partRole
  (try dsimp only)
  (repeat' split) <;> simp [apply_ite]

@[simp] theorem takeover_frame (s : State) :
    (takeover s).pending = s.pending ∧ (takeover s).reply = s.reply ∧ (takeover s).freeCtr = s.freeCtr ∧ (takeover s).cfg = s.cfg ∧ (takeover s).pend = s.pend ∧ (takeover s).tb = s.tb ∧ (takeover s).treads = s.treads ∧ (takeover s).cells = s.cells ∧ (takeover s).flights = s.flights ∧ (takeover s).halls = s.halls ∧ (takeover s).grid = s.grid ∧ (takeover s).treadsOld = s.treadsOld ∧ (takeover s).safe = s.safe ∧ (takeover s).therm = s.therm ∧ (takeover s).twin = s.twin ∧ (takeover s).stair = s.stair ∧ (takeover s).nvm = s.nvm ∧ (takeover s).streams = s.streams ∧ (takeover s).mem = s.mem := by
  unfold takeover
  (try dsimp only)
  (repeat' split) <;> simp [apply_ite]

@[simp] theorem calStart_frame (a0 : Bool) (a1 : List Word) (s : State) :
    (calStart a0 a1 s).pending = s.pending ∧ (calStart a0 a1 s).freeCtr = s.freeCtr ∧ (calStart a0 a1 s).cfg = s.cfg ∧ (calStart a0 a1 s).pend = s.pend ∧ (calStart a0 a1 s).tb = s.tb ∧ (calStart a0 a1 s).treads = s.treads ∧ (calStart a0 a1 s).cells = s.cells ∧ (calStart a0 a1 s).flights = s.flights ∧ (calStart a0 a1 s).halls = s.halls ∧ (calStart a0 a1 s).grid = s.grid ∧ (calStart a0 a1 s).treadsOld = s.treadsOld ∧ (calStart a0 a1 s).safe = s.safe ∧ (calStart a0 a1 s).therm = s.therm ∧ (calStart a0 a1 s).twin = s.twin ∧ (calStart a0 a1 s).stair = s.stair ∧ (calStart a0 a1 s).nvm = s.nvm ∧ (calStart a0 a1 s).streams = s.streams ∧ (calStart a0 a1 s).mem = s.mem := by
  unfold calStart; (try dsimp only)
  refine ⟨?_, ?_, ?_, ?_, ?_, ?_, ?_, ?_, ?_, ?_, ?_, ?_, ?_, ?_, ?_, ?_, ?_, ?_⟩
  · repeat' (first | (simp [apply_ite State.pending]; done) | with_reducible refine (each_keep State.pending _ _ _ (fun _ _ => ?_)).trans ?_ | with_reducible refine command_keep State.pending _ _ _ (fun _ => ?_) (fun _ => ?_) | split)
  · repeat' (first | (simp [apply_ite State.freeCtr]; done) | with_reducible refine (each_keep State.freeCtr _ _ _ (fun _ _ => ?_)).trans ?_ | with_reducible refine command_keep State.freeCtr _ _ _ (fun _ => ?_) (fun _ => ?_) | split)
  · repeat' (first | (simp [apply_ite State.cfg]; done) | with_reducible refine (each_keep State.cfg _ _ _ (fun _ _ => ?_)).trans ?_ | with_reducible refine command_keep State.cfg _ _ _ (fun _ => ?_) (fun _ => ?_) | split)
  · repeat' (first | (simp [apply_ite State.pend]; done) | with_reducible refine (each_keep State.pend _ _ _ (fun _ _ => ?_)).trans ?_ | with_reducible refine command_keep State.pend _ _ _ (fun _ => ?_) (fun _ => ?_) | split)
  · repeat' (first | (simp [apply_ite State.tb]; done) | with_reducible refine (each_keep State.tb _ _ _ (fun _ _ => ?_)).trans ?_ | with_reducible refine command_keep State.tb _ _ _ (fun _ => ?_) (fun _ => ?_) | split)
  · repeat' (first | (simp [apply_ite State.treads]; done) | with_reducible refine (each_keep State.treads _ _ _ (fun _ _ => ?_)).trans ?_ | with_reducible refine command_keep State.treads _ _ _ (fun _ => ?_) (fun _ => ?_) | split)
  · repeat' (first | (simp [apply_ite State.cells]; done) | with_reducible refine (each_keep State.cells _ _ _ (fun _ _ => ?_)).trans ?_ | with_reducible refine command_keep State.cells _ _ _ (fun _ => ?_) (fun _ => ?_) | split)
  · repeat' (first | (simp [apply_ite State.flights]; done) | with_reducible refine (each_keep State.flights _ _ _ (fun _ _ => ?_)).trans ?_ | with_reducible refine command_keep State.flights _ _ _ (fun _ => ?_) (fun _ => ?_) | split)
  · repeat' (first | (simp [apply_ite State.halls]; done) | with_reducible refine (each_keep State.halls _ _ _ (fun _ _ => ?_)).trans ?_ | with_reducible refine command_keep State.halls _ _ _ (fun _ => ?_) (fun _ => ?_) | split)
  · repeat' (first | (simp [apply_ite State.grid]; done) | with_reducible refine (each_keep State.grid _ _ _ (fun _ _ => ?_)).trans ?_ | with_reducible refine command_keep State.grid _ _ _ (fun _ => ?_) (fun _ => ?_) | split)
  · repeat' (first | (simp [apply_ite State.treadsOld]; done) | with_reducible refine (each_keep State.treadsOld _ _ _ (fun _ _ => ?_)).trans ?_ | with_reducible refine command_keep State.treadsOld _ _ _ (fun _ => ?_) (fun _ => ?_) | split)
  · repeat' (first | (simp [apply_ite State.safe]; done) | with_reducible refine (each_keep State.safe _ _ _ (fun _ _ => ?_)).trans ?_ | with_reducible refine command_keep State.safe _ _ _ (fun _ => ?_) (fun _ => ?_) | split)
  · repeat' (first | (simp [apply_ite State.therm]; done) | with_reducible refine (each_keep State.therm _ _ _ (fun _ _ => ?_)).trans ?_ | with_reducible refine command_keep State.therm _ _ _ (fun _ => ?_) (fun _ => ?_) | split)
  · repeat' (first | (simp [apply_ite State.twin]; done) | with_reducible refine (each_keep State.twin _ _ _ (fun _ _ => ?_)).trans ?_ | with_reducible refine command_keep State.twin _ _ _ (fun _ => ?_) (fun _ => ?_) | split)
  · repeat' (first | (simp [apply_ite State.stair]; done) | with_reducible refine (each_keep State.stair _ _ _ (fun _ _ => ?_)).trans ?_ | with_reducible refine command_keep State.stair _ _ _ (fun _ => ?_) (fun _ => ?_) | split)
  · repeat' (first | (simp [apply_ite State.nvm]; done) | with_reducible refine (each_keep State.nvm _ _ _ (fun _ _ => ?_)).trans ?_ | with_reducible refine command_keep State.nvm _ _ _ (fun _ => ?_) (fun _ => ?_) | split)
  · repeat' (first | (simp [apply_ite State.streams]; done) | with_reducible refine (each_keep State.streams _ _ _ (fun _ _ => ?_)).trans ?_ | with_reducible refine command_keep State.streams _ _ _ (fun _ => ?_) (fun _ => ?_) | split)
  · repeat' (first | (simp [apply_ite State.mem]; done) | with_reducible refine (each_keep State.mem _ _ _ (fun _ _ => ?_)).trans ?_ | with_reducible refine command_keep State.mem _ _ _ (fun _ => ?_) (fun _ => ?_) | split)

theorem execCalZero_frame (a0 : List Word) (s t : State) (h : execCalZero a0 s = .next t) :
    t.pending = s.pending ∧ t.freeCtr = s.freeCtr ∧ t.cfg = s.cfg ∧ t.pend = s.pend ∧ t.tb = s.tb ∧ t.treads = s.treads ∧ t.cells = s.cells ∧ t.flights = s.flights ∧ t.halls = s.halls ∧ t.grid = s.grid ∧ t.treadsOld = s.treadsOld ∧ t.safe = s.safe ∧ t.therm = s.therm ∧ t.twin = s.twin ∧ t.stair = s.stair ∧ t.nvm = s.nvm ∧ t.streams = s.streams ∧ t.mem = s.mem := by
  unfold execCalZero at h; cases h; (try dsimp only); (repeat' split) <;> simp [apply_ite]

theorem execCalFull_frame (a0 : List Word) (s t : State) (h : execCalFull a0 s = .next t) :
    t.pending = s.pending ∧ t.freeCtr = s.freeCtr ∧ t.cfg = s.cfg ∧ t.pend = s.pend ∧ t.tb = s.tb ∧ t.treads = s.treads ∧ t.cells = s.cells ∧ t.flights = s.flights ∧ t.halls = s.halls ∧ t.grid = s.grid ∧ t.treadsOld = s.treadsOld ∧ t.safe = s.safe ∧ t.therm = s.therm ∧ t.twin = s.twin ∧ t.stair = s.stair ∧ t.nvm = s.nvm ∧ t.streams = s.streams ∧ t.mem = s.mem := by
  unfold execCalFull at h; cases h; (try dsimp only); (repeat' split) <;> simp [apply_ite]

@[simp] theorem calEnd_frame (a0 : Status) (s : State) :
    (calEnd a0 s).pending = s.pending ∧ (calEnd a0 s).reply = s.reply ∧ (calEnd a0 s).freeCtr = s.freeCtr ∧ (calEnd a0 s).cfg = s.cfg ∧ (calEnd a0 s).pend = s.pend ∧ (calEnd a0 s).tb = s.tb ∧ (calEnd a0 s).treads = s.treads ∧ (calEnd a0 s).cells = s.cells ∧ (calEnd a0 s).flights = s.flights ∧ (calEnd a0 s).halls = s.halls ∧ (calEnd a0 s).grid = s.grid ∧ (calEnd a0 s).treadsOld = s.treadsOld ∧ (calEnd a0 s).safe = s.safe ∧ (calEnd a0 s).therm = s.therm ∧ (calEnd a0 s).twin = s.twin ∧ (calEnd a0 s).stair = s.stair ∧ (calEnd a0 s).nvm = s.nvm ∧ (calEnd a0 s).streams = s.streams ∧ (calEnd a0 s).mem = s.mem := by
  unfold calEnd
  (try dsimp only)
  (repeat' split) <;> simp [apply_ite]

theorem execCalTimeout_frame (s t : State) (h : execCalTimeout s = .next t) :
    t.pending = s.pending ∧ t.reply = s.reply ∧ t.freeCtr = s.freeCtr ∧ t.cfg = s.cfg ∧ t.pend = s.pend ∧ t.tb = s.tb ∧ t.treads = s.treads ∧ t.cells = s.cells ∧ t.flights = s.flights ∧ t.halls = s.halls ∧ t.grid = s.grid ∧ t.treadsOld = s.treadsOld ∧ t.safe = s.safe ∧ t.therm = s.therm ∧ t.twin = s.twin ∧ t.stair = s.stair ∧ t.nvm = s.nvm ∧ t.streams = s.streams ∧ t.mem = s.mem := by
  unfold execCalTimeout at h; cases h; (try dsimp only); (repeat' split) <;> simp [apply_ite]

@[simp] theorem tdacStart_frame (a0 : Word) (s : State) :
    (tdacStart a0 s).pending = s.pending ∧ (tdacStart a0 s).reply = s.reply ∧ (tdacStart a0 s).out = s.out ∧ (tdacStart a0 s).freeCtr = s.freeCtr ∧ (tdacStart a0 s).aon = s.aon ∧ (tdacStart a0 s).cfg = s.cfg ∧ (tdacStart a0 s).pend = s.pend ∧ (tdacStart a0 s).tb = s.tb ∧ (tdacStart a0 s).events = s.events ∧ (tdacStart a0 s).host = s.host ∧ (tdacStart a0 s).treads = s.treads ∧ (tdacStart a0 s).cells = s.cells ∧ (tdacStart a0 s).flights = s.flights ∧ (tdacStart a0 s).halls = s.halls ∧ (tdacStart a0 s).grid = s.grid ∧ (tdacStart a0 s).atr = s.atr ∧ (tdacStart a0 s).treadsOld = s.treadsOld ∧ (tdacStart a0 s).safe = s.safe ∧ (tdacStart a0 s).therm = s.therm ∧ (tdacStart a0 s).twin = s.twin ∧ (tdacStart a0 s).stair = s.stair ∧ (tdacStart a0 s).nvm = s.nvm ∧ (tdacStart a0 s).streams = s.streams ∧ (tdacStart a0 s).mem = s.mem := by
  unfold tdacStart
  (try dsimp only)
  (repeat' split) <;> simp [apply_ite]

@[simp] theorem testDac_frame (a0 : List Word) (s : State) :
    (testDac a0 s).pending = s.pending ∧ (testDac a0 s).out = s.out ∧ (testDac a0 s).freeCtr = s.freeCtr ∧ (testDac a0 s).aon = s.aon ∧ (testDac a0 s).cfg = s.cfg ∧ (testDac a0 s).pend = s.pend ∧ (testDac a0 s).tb = s.tb ∧ (testDac a0 s).events = s.events ∧ (testDac a0 s).host = s.host ∧ (testDac a0 s).treads = s.treads ∧ (testDac a0 s).cells = s.cells ∧ (testDac a0 s).flights = s.flights ∧ (testDac a0 s).halls = s.halls ∧ (testDac a0 s).grid = s.grid ∧ (testDac a0 s).atr = s.atr ∧ (testDac a0 s).treadsOld = s.treadsOld ∧ (testDac a0 s).safe = s.safe ∧ (testDac a0 s).therm = s.therm ∧ (testDac a0 s).twin = s.twin ∧ (testDac a0 s).stair = s.stair ∧ (testDac a0 s).nvm = s.nvm ∧ (testDac a0 s).streams = s.streams ∧ (testDac a0 s).mem = s.mem := by
  unfold testDac
  (try dsimp only)
  (repeat' split) <;> simp [apply_ite]

theorem execTestDac_frame (a0 : List Word) (s t : State) (h : execTestDac a0 s = .next t) :
    t.pending = s.pending ∧ t.out = s.out ∧ t.freeCtr = s.freeCtr ∧ t.aon = s.aon ∧ t.cfg = s.cfg ∧ t.pend = s.pend ∧ t.tb = s.tb ∧ t.events = s.events ∧ t.host = s.host ∧ t.treads = s.treads ∧ t.cells = s.cells ∧ t.flights = s.flights ∧ t.halls = s.halls ∧ t.grid = s.grid ∧ t.atr = s.atr ∧ t.treadsOld = s.treadsOld ∧ t.safe = s.safe ∧ t.therm = s.therm ∧ t.twin = s.twin ∧ t.stair = s.stair ∧ t.nvm = s.nvm ∧ t.streams = s.streams ∧ t.mem = s.mem := by
  unfold execTestDac at h; cases h; (try dsimp only); (repeat' split) <;> simp [apply_ite]

theorem execTestDacGain_frame (a0 : List Word) (s t : State) (h : execTestDacGain a0 s = .next t) :
    t.pending = s.pending ∧ t.out = s.out ∧ t.freeCtr = s.freeCtr ∧ t.aon = s.aon ∧ t.cfg = s.cfg ∧ t.pend = s.pend ∧ t.tb = s.tb ∧ t.events = s.events ∧ t.host = s.host ∧ t.treads = s.treads ∧ t.cells = s.cells ∧ t.flights = s.flights ∧ t.halls = s.halls ∧ t.grid = s.grid ∧ t.atr = s.atr ∧ t.treadsOld = s.treadsOld ∧ t.safe = s.safe ∧ t.therm = s.therm ∧ t.twin = s.twin ∧ t.stair = s.stair ∧ t.nvm = s.nvm ∧ t.streams = s.streams ∧ t.mem = s.mem := by
  unfold execTestDacGain at h; cases h; (try dsimp only); (repeat' split) <;> simp [apply_ite]

theorem execTestDacOpen_frame (a0 : List Word) (s t : State) (h : execTestDacOpen a0 s = .next t) :
    t.pending = s.pending ∧ t.out = s.out ∧ t.freeCtr = s.freeCtr ∧ t.aon = s.aon ∧ t.cfg = s.cfg ∧ t.pend = s.pend ∧ t.tb = s.tb ∧ t.events = s.events ∧ t.host = s.host ∧ t.treads = s.treads ∧ t.cells = s.cells ∧ t.flights = s.flights ∧ t.halls = s.halls ∧ t.grid = s.grid ∧ t.atr = s.atr ∧ t.treadsOld = s.treadsOld ∧ t.safe = s.safe ∧ t.therm = s.therm ∧ t.twin = s.twin ∧ t.stair = s.stair ∧ t.nvm = s.nvm ∧ t.streams = s.streams ∧ t.mem = s.mem := by
  unfold execTestDacOpen at h; cases h; (try dsimp only); (repeat' split) <;> simp [apply_ite]

theorem execTestDacOut_frame (a0 : List Word) (s t : State) (h : execTestDacOut a0 s = .next t) :
    t.pending = s.pending ∧ t.out = s.out ∧ t.freeCtr = s.freeCtr ∧ t.aon = s.aon ∧ t.cfg = s.cfg ∧ t.pend = s.pend ∧ t.tb = s.tb ∧ t.events = s.events ∧ t.host = s.host ∧ t.treads = s.treads ∧ t.cells = s.cells ∧ t.flights = s.flights ∧ t.halls = s.halls ∧ t.grid = s.grid ∧ t.atr = s.atr ∧ t.treadsOld = s.treadsOld ∧ t.safe = s.safe ∧ t.therm = s.therm ∧ t.twin = s.twin ∧ t.stair = s.stair ∧ t.nvm = s.nvm ∧ t.streams = s.streams ∧ t.mem = s.mem := by
  unfold execTestDacOut at h; cases h; (try dsimp only); (repeat' split) <;> simp [apply_ite]

@[simp] theorem tdacEnd_frame (a0 : Bool) (a1 : Bool) (a2 : Bool) (a3 : BitVec 16) (s : State) :
    (tdacEnd a0 a1 a2 a3 s).pending = s.pending ∧ (tdacEnd a0 a1 a2 a3 s).reply = s.reply ∧ (tdacEnd a0 a1 a2 a3 s).freeCtr = s.freeCtr ∧ (tdacEnd a0 a1 a2 a3 s).cfg = s.cfg ∧ (tdacEnd a0 a1 a2 a3 s).pend = s.pend ∧ (tdacEnd a0 a1 a2 a3 s).tb = s.tb ∧ (tdacEnd a0 a1 a2 a3 s).treads = s.treads ∧ (tdacEnd a0 a1 a2 a3 s).cells = s.cells ∧ (tdacEnd a0 a1 a2 a3 s).flights = s.flights ∧ (tdacEnd a0 a1 a2 a3 s).halls = s.halls ∧ (tdacEnd a0 a1 a2 a3 s).grid = s.grid ∧ (tdacEnd a0 a1 a2 a3 s).treadsOld = s.treadsOld ∧ (tdacEnd a0 a1 a2 a3 s).safe = s.safe ∧ (tdacEnd a0 a1 a2 a3 s).therm = s.therm ∧ (tdacEnd a0 a1 a2 a3 s).twin = s.twin ∧ (tdacEnd a0 a1 a2 a3 s).stair = s.stair ∧ (tdacEnd a0 a1 a2 a3 s).nvm = s.nvm ∧ (tdacEnd a0 a1 a2 a3 s).streams = s.streams ∧ (tdacEnd a0 a1 a2 a3 s).mem = s.mem := by
  unfold tdacEnd
  (try dsimp only)
  (repeat' split) <;> simp [apply_ite]

theorem execTestDacCheckDone_frame (a0 : Int) (s t : State) (h : execTestDacCheckDone a0 s = .next t) :
    t.pending = s.pending ∧ t.reply = s.reply ∧ t.cfg = s.cfg ∧ t.pend = s.pend ∧ t.tb = s.tb ∧ t.treads = s.treads ∧ t.cells = s.cells ∧ t.flights = s.flights ∧ t.halls = s.halls ∧ t.grid = s.grid ∧ t.treadsOld = s.treadsOld ∧ t.safe = s.safe ∧ t.therm = s.therm ∧ t.twin = s.twin ∧ t.stair = s.stair ∧ t.nvm = s.nvm ∧ t.streams = s.streams ∧ t.mem = s.mem := by
  unfold execTestDacCheckDone at h; cases h; (try dsimp only); (repeat' split) <;> simp [apply_ite]

theorem execTestDacStall_frame (s t : State) (h : execTestDacStall s = .next t) :
    t.pending = s.pending ∧ t.reply = s.reply ∧ t.freeCtr = s.freeCtr ∧ t.cfg = s.cfg ∧ t.pend = s.pend ∧ t.tb = s.tb ∧ t.treads = s.treads ∧ t.cells = s.cells ∧ t.flights = s.flights ∧ t.halls = s.halls ∧ t.grid = s.grid ∧ t.treadsOld = s.treadsOld ∧ t.safe = s.safe ∧ t.therm = s.therm ∧ t.twin = s.twin ∧ t.stair = s.stair ∧ t.nvm = s.nvm ∧ t.streams = s.streams ∧ t.mem = s.mem := by
  unfold execTestDacStall at h; cases h; (try dsimp only); (repeat' split) <;> simp [apply_ite]

@[simp] theorem takeMap_frame (a0 : F32) (s : State) :
    (takeMap a0 s).pending = s.pending ∧ (takeMap a0 s).reply = s.reply ∧ (takeMap a0 s).out = s.out ∧ (takeMap a0 s).freeCtr = s.freeCtr ∧ (takeMap a0 s).aon = s.aon ∧ (takeMap a0 s).cfg = s.cfg ∧ (takeMap a0 s).pend = s.pend ∧ (takeMap a0 s).tb = s.tb ∧ (takeMap a0 s).events = s.events ∧ (takeMap a0 s).host = s.host ∧ (takeMap a0 s).treads = s.treads ∧ (takeMap a0 s).cells = s.cells ∧ (takeMap a0 s).flights = s.flights ∧ (takeMap a0 s).halls = s.halls ∧ (takeMap a0 s).grid = s.grid ∧ (takeMap a0 s).treadsOld = s.treadsOld ∧ (takeMap a0 s).meas = s.meas ∧ (takeMap a0 s).safe = s.safe ∧ (takeMap a0 s).therm = s.therm ∧ (takeMap a0 s).twin = s.twin ∧ (takeMap a0 s).stair = s.stair ∧ (takeMap a0 s).nvm = s.nvm ∧ (takeMap a0 s).streams = s.streams ∧ (takeMap a0 s).mem = s.mem := by
  unfold takeMap
  (try dsimp only)
  (repeat' split) <;> simp [apply_ite]

@[simp] theorem mapEval_frame (a0 : F32) (s : State) :
    (mapEval a0 s).pending = s.pending ∧ (mapEval a0 s).reply = s.reply ∧ (mapEval a0 s).freeCtr = s.freeCtr ∧ (mapEval a0 s).cfg = s.cfg ∧ (mapEval a0 s).pend = s.pend ∧ (mapEval a0 s).tb = s.tb ∧ (mapEval a0 s).treads = s.treads ∧ (mapEval a0 s).cells = s.cells ∧ (mapEval a0 s).flights = s.flights ∧ (mapEval a0 s).halls = s.halls ∧ (mapEval a0 s).grid = s.grid ∧ (mapEval a0 s).treadsOld = s.treadsOld ∧ (mapEval a0 s).safe = s.safe ∧ (mapEval a0 s).therm = s.therm ∧ (mapEval a0 s).twin = s.twin ∧ (mapEval a0 s).stair = s.stair ∧ (mapEval a0 s).nvm = s.nvm ∧ (mapEval a0 s).streams = s.streams ∧ (mapEval a0 s).mem = s.mem := by
  unfold mapEval
  (try dsimp only)
  (repeat' split) <;> simp [apply_ite]

@[simp] theorem calibrateUnits_frame (s : State) :
    (calibrateUnits s).pending = s.pending ∧ (calibrateUnits s).reply = s.reply ∧ (calibrateUnits s).cfg = s.cfg ∧ (calibrateUnits s).pend = s.pend ∧ (calibrateUnits s).tb = s.tb ∧ (calibrateUnits s).treads = s.treads ∧ (calibrateUnits s).cells = s.cells ∧ (calibrateUnits s).flights = s.flights ∧ (calibrateUnits s).halls = s.halls ∧ (calibrateUnits s).grid = s.grid ∧ (calibrateUnits s).treadsOld = s.treadsOld ∧ (calibrateUnits s).safe = s.safe ∧ (calibrateUnits s).therm = s.therm ∧ (calibrateUnits s).twin = s.twin ∧ (calibrateUnits s).stair = s.stair ∧ (calibrateUnits s).nvm = s.nvm ∧ (calibrateUnits s).streams = s.streams ∧ (calibrateUnits s).mem = s.mem := by
  unfold calibrateUnits
  (try dsimp only)
  (repeat' split) <;> simp [apply_ite]

@[simp] theorem analogUp_frame (s : State) :
    (analogUp s).pending = s.pending ∧ (analogUp s).reply = s.reply ∧ (analogUp s).cfg = s.cfg ∧ (analogUp s).pend = s.pend ∧ (analogUp s).tb = s.tb ∧ (analogUp s).treads = s.treads ∧ (analogUp s).cells = s.cells ∧ (analogUp s).flights = s.flights ∧ (analogUp s).halls = s.halls ∧ (analogUp s).grid = s.grid ∧ (analogUp s).treadsOld = s.treadsOld ∧ (analogUp s).safe = s.safe ∧ (analogUp s).therm = s.therm ∧ (analogUp s).twin = s.twin ∧ (analogUp s).stair = s.stair ∧ (analogUp s).nvm = s.nvm ∧ (analogUp s).streams = s.streams ∧ (analogUp s).mem = s.mem := by
  unfold analogUp
  (try dsimp only)
  (repeat' split) <;> simp [apply_ite]

end Sys2Proof.Machine
end

