-- ==== Sys2Proof/Laws/FramesControl.lean ====
section
/-! SUPPORT. What each operation and each command leaves alone: streams, loops, lanes and guards. A lemma `f_frame` names every part of the state
that `f` does not write. -/

namespace Sys2Proof.Machine

open Sys2Proof

set_option linter.all false

@[simp] theorem injStop_frame (a0 : Nat) (a1 : Bool) (s : State) :
    (injStop a0 a1 s).pending = s.pending ∧ (injStop a0 a1 s).reply = s.reply ∧ (injStop a0 a1 s).freeCtr = s.freeCtr ∧ (injStop a0 a1 s).cfg = s.cfg ∧ (injStop a0 a1 s).pend = s.pend ∧ (injStop a0 a1 s).tb = s.tb ∧ (injStop a0 a1 s).treads = s.treads ∧ (injStop a0 a1 s).cells = s.cells ∧ (injStop a0 a1 s).flights = s.flights ∧ (injStop a0 a1 s).halls = s.halls ∧ (injStop a0 a1 s).grid = s.grid ∧ (injStop a0 a1 s).treadsOld = s.treadsOld ∧ (injStop a0 a1 s).meas = s.meas ∧ (injStop a0 a1 s).safe = s.safe ∧ (injStop a0 a1 s).therm = s.therm ∧ (injStop a0 a1 s).twin = s.twin ∧ (injStop a0 a1 s).stair = s.stair ∧ (injStop a0 a1 s).nvm = s.nvm ∧ (injStop a0 a1 s).streams = s.streams ∧ (injStop a0 a1 s).mem = s.mem := by
  unfold injStop
  (try dsimp only)
  (repeat' split) <;> simp [apply_ite]

@[simp] theorem injGuard_frame (a0 : Nat) (s : State) :
    (injGuard a0 s).pending = s.pending ∧ (injGuard a0 s).reply = s.reply ∧ (injGuard a0 s).freeCtr = s.freeCtr ∧ (injGuard a0 s).cfg = s.cfg ∧ (injGuard a0 s).pend = s.pend ∧ (injGuard a0 s).tb = s.tb ∧ (injGuard a0 s).treads = s.treads ∧ (injGuard a0 s).cells = s.cells ∧ (injGuard a0 s).flights = s.flights ∧ (injGuard a0 s).halls = s.halls ∧ (injGuard a0 s).grid = s.grid ∧ (injGuard a0 s).treadsOld = s.treadsOld ∧ (injGuard a0 s).meas = s.meas ∧ (injGuard a0 s).safe = s.safe ∧ (injGuard a0 s).therm = s.therm ∧ (injGuard a0 s).twin = s.twin ∧ (injGuard a0 s).stair = s.stair ∧ (injGuard a0 s).nvm = s.nvm ∧ (injGuard a0 s).streams = s.streams ∧ (injGuard a0 s).mem = s.mem := by
  unfold injGuard
  (try dsimp only)
  (repeat' split) <;> simp [apply_ite]

theorem execInjectDone_frame (a0 : Fin 8) (s t : State) (h : execInjectDone a0 s = .next t) :
    t.pending = s.pending ∧ t.reply = s.reply ∧ t.freeCtr = s.freeCtr ∧ t.cfg = s.cfg ∧ t.pend = s.pend ∧ t.tb = s.tb ∧ t.treads = s.treads ∧ t.cells = s.cells ∧ t.flights = s.flights ∧ t.halls = s.halls ∧ t.grid = s.grid ∧ t.treadsOld = s.treadsOld ∧ t.meas = s.meas ∧ t.safe = s.safe ∧ t.therm = s.therm ∧ t.twin = s.twin ∧ t.stair = s.stair ∧ t.nvm = s.nvm ∧ t.streams = s.streams ∧ t.mem = s.mem := by
  unfold execInjectDone at h; cases h; (try dsimp only); (repeat' split) <;> simp [apply_ite]

@[simp] theorem loopSet_frame (a0 : Nat) (a1 : Nat) (a2 : Word) (a3 : Word) (a4 : Word) (a5 : Word) (s : State) :
    (loopSet a0 a1 a2 a3 a4 a5 s).2.pending = s.pending ∧ (loopSet a0 a1 a2 a3 a4 a5 s).2.reply = s.reply ∧ (loopSet a0 a1 a2 a3 a4 a5 s).2.out = s.out ∧ (loopSet a0 a1 a2 a3 a4 a5 s).2.freeCtr = s.freeCtr ∧ (loopSet a0 a1 a2 a3 a4 a5 s).2.aon = s.aon ∧ (loopSet a0 a1 a2 a3 a4 a5 s).2.cfg = s.cfg ∧ (loopSet a0 a1 a2 a3 a4 a5 s).2.pend = s.pend ∧ (loopSet a0 a1 a2 a3 a4 a5 s).2.tb = s.tb ∧ (loopSet a0 a1 a2 a3 a4 a5 s).2.events = s.events ∧ (loopSet a0 a1 a2 a3 a4 a5 s).2.host = s.host ∧ (loopSet a0 a1 a2 a3 a4 a5 s).2.cells = s.cells ∧ (loopSet a0 a1 a2 a3 a4 a5 s).2.halls = s.halls ∧ (loopSet a0 a1 a2 a3 a4 a5 s).2.grid = s.grid ∧ (loopSet a0 a1 a2 a3 a4 a5 s).2.treadsOld = s.treadsOld ∧ (loopSet a0 a1 a2 a3 a4 a5 s).2.meas = s.meas ∧ (loopSet a0 a1 a2 a3 a4 a5 s).2.safe = s.safe ∧ (loopSet a0 a1 a2 a3 a4 a5 s).2.therm = s.therm ∧ (loopSet a0 a1 a2 a3 a4 a5 s).2.twin = s.twin ∧ (loopSet a0 a1 a2 a3 a4 a5 s).2.stair = s.stair ∧ (loopSet a0 a1 a2 a3 a4 a5 s).2.nvm = s.nvm ∧ (loopSet a0 a1 a2 a3 a4 a5 s).2.streams = s.streams ∧ (loopSet a0 a1 a2 a3 a4 a5 s).2.mem = s.mem := by
  unfold loopSet
  (try dsimp only)
  (repeat' split) <;> simp [apply_ite]

theorem execLoopSet_frame (a0 : Fin 64) (a1 : List Word) (s t : State) (h : execLoopSet a0 a1 s = .next t) :
    t.pending = s.pending ∧ t.out = s.out ∧ t.freeCtr = s.freeCtr ∧ t.aon = s.aon ∧ t.cfg = s.cfg ∧ t.pend = s.pend ∧ t.tb = s.tb ∧ t.events = s.events ∧ t.host = s.host ∧ t.cells = s.cells ∧ t.halls = s.halls ∧ t.grid = s.grid ∧ t.treadsOld = s.treadsOld ∧ t.meas = s.meas ∧ t.safe = s.safe ∧ t.therm = s.therm ∧ t.twin = s.twin ∧ t.stair = s.stair ∧ t.nvm = s.nvm ∧ t.streams = s.streams ∧ t.mem = s.mem := by
  unfold execLoopSet at h; cases h; (try dsimp only); (repeat' split) <;> simp [apply_ite]

theorem execLoopCoef_frame (a0 : Fin 64) (a1 : List Word) (s t : State) (h : execLoopCoef a0 a1 s = .next t) :
    t.pending = s.pending ∧ t.out = s.out ∧ t.freeCtr = s.freeCtr ∧ t.aon = s.aon ∧ t.cfg = s.cfg ∧ t.pend = s.pend ∧ t.tb = s.tb ∧ t.events = s.events ∧ t.host = s.host ∧ t.cells = s.cells ∧ t.halls = s.halls ∧ t.grid = s.grid ∧ t.treadsOld = s.treadsOld ∧ t.meas = s.meas ∧ t.safe = s.safe ∧ t.therm = s.therm ∧ t.twin = s.twin ∧ t.stair = s.stair ∧ t.nvm = s.nvm ∧ t.streams = s.streams ∧ t.mem = s.mem := by
  unfold execLoopCoef at h; cases h
  refine ⟨?_, ?_, ?_, ?_, ?_, ?_, ?_, ?_, ?_, ?_, ?_, ?_, ?_, ?_, ?_, ?_, ?_, ?_, ?_, ?_, ?_⟩
  · refine slotCommand_pending _ _ _ _ _ fun i s => ?_
    (try dsimp only); (repeat' split) <;> simp
  · refine slotCommand_out _ _ _ _ _ fun i s => ?_
    (try dsimp only); (repeat' split) <;> simp
  · refine slotCommand_freeCtr _ _ _ _ _ fun i s => ?_
    (try dsimp only); (repeat' split) <;> simp
  · refine slotCommand_aon _ _ _ _ _ fun i s => ?_
    (try dsimp only); (repeat' split) <;> simp
  · refine slotCommand_cfg _ _ _ _ _ fun i s => ?_
    (try dsimp only); (repeat' split) <;> simp
  · refine slotCommand_pend _ _ _ _ _ fun i s => ?_
    (try dsimp only); (repeat' split) <;> simp
  · refine slotCommand_tb _ _ _ _ _ fun i s => ?_
    (try dsimp only); (repeat' split) <;> simp
  · refine slotCommand_events _ _ _ _ _ fun i s => ?_
    (try dsimp only); (repeat' split) <;> simp
  · refine slotCommand_host _ _ _ _ _ fun i s => ?_
    (try dsimp only); (repeat' split) <;> simp
  · refine slotCommand_cells _ _ _ _ _ fun i s => ?_
    (try dsimp only); (repeat' split) <;> simp
  · refine slotCommand_halls _ _ _ _ _ fun i s => ?_
    (try dsimp only); (repeat' split) <;> simp
  · refine slotCommand_grid _ _ _ _ _ fun i s => ?_
    (try dsimp only); (repeat' split) <;> simp
  · refine slotCommand_treadsOld _ _ _ _ _ fun i s => ?_
    (try dsimp only); (repeat' split) <;> simp
  · refine slotCommand_meas _ _ _ _ _ fun i s => ?_
    (try dsimp only); (repeat' split) <;> simp
  · refine slotCommand_safe _ _ _ _ _ fun i s => ?_
    (try dsimp only); (repeat' split) <;> simp
  · refine slotCommand_therm _ _ _ _ _ fun i s => ?_
    (try dsimp only); (repeat' split) <;> simp
  · refine slotCommand_twin _ _ _ _ _ fun i s => ?_
    (try dsimp only); (repeat' split) <;> simp
  · refine slotCommand_stair _ _ _ _ _ fun i s => ?_
    (try dsimp only); (repeat' split) <;> simp
  · refine slotCommand_nvm _ _ _ _ _ fun i s => ?_
    (try dsimp only); (repeat' split) <;> simp
  · refine slotCommand_streams _ _ _ _ _ fun i s => ?_
    (try dsimp only); (repeat' split) <;> simp
  · refine slotCommand_mem _ _ _ _ _ fun i s => ?_
    (try dsimp only); (repeat' split) <;> simp

theorem execLoopEnable_frame (a0 : Fin 64) (a1 : List Word) (s t : State) (h : execLoopEnable a0 a1 s = .next t) :
    t.pending = s.pending ∧ t.out = s.out ∧ t.freeCtr = s.freeCtr ∧ t.aon = s.aon ∧ t.cfg = s.cfg ∧ t.pend = s.pend ∧ t.tb = s.tb ∧ t.events = s.events ∧ t.host = s.host ∧ t.cells = s.cells ∧ t.halls = s.halls ∧ t.grid = s.grid ∧ t.treadsOld = s.treadsOld ∧ t.meas = s.meas ∧ t.safe = s.safe ∧ t.therm = s.therm ∧ t.twin = s.twin ∧ t.stair = s.stair ∧ t.nvm = s.nvm ∧ t.streams = s.streams ∧ t.mem = s.mem := by
  unfold execLoopEnable at h; cases h; (try dsimp only); (repeat' split) <;> simp [apply_ite]

theorem execGroupSet_frame (a0 : Fin 64) (a1 : List Word) (s t : State) (h : execGroupSet a0 a1 s = .next t) :
    t.pending = s.pending ∧ t.out = s.out ∧ t.freeCtr = s.freeCtr ∧ t.aon = s.aon ∧ t.cfg = s.cfg ∧ t.pend = s.pend ∧ t.tb = s.tb ∧ t.events = s.events ∧ t.host = s.host ∧ t.cells = s.cells ∧ t.halls = s.halls ∧ t.grid = s.grid ∧ t.treadsOld = s.treadsOld ∧ t.meas = s.meas ∧ t.safe = s.safe ∧ t.therm = s.therm ∧ t.twin = s.twin ∧ t.stair = s.stair ∧ t.nvm = s.nvm ∧ t.streams = s.streams ∧ t.mem = s.mem := by
  unfold execGroupSet at h; cases h
  refine ⟨?_, ?_, ?_, ?_, ?_, ?_, ?_, ?_, ?_, ?_, ?_, ?_, ?_, ?_, ?_, ?_, ?_, ?_, ?_, ?_, ?_⟩
  · repeat' (first | (simp [apply_ite State.pending]; done) | with_reducible refine (each_keep State.pending _ _ _ (fun _ _ => ?_)).trans ?_ | with_reducible refine command_keep State.pending _ _ _ (fun _ => ?_) (fun _ => ?_) | split)
  · repeat' (first | (simp [apply_ite State.out]; done) | with_reducible refine (each_keep State.out _ _ _ (fun _ _ => ?_)).trans ?_ | with_reducible refine command_keep State.out _ _ _ (fun _ => ?_) (fun _ => ?_) | split)
  · repeat' (first | (simp [apply_ite State.freeCtr]; done) | with_reducible refine (each_keep State.freeCtr _ _ _ (fun _ _ => ?_)).trans ?_ | with_reducible refine command_keep State.freeCtr _ _ _ (fun _ => ?_) (fun _ => ?_) | split)
  · repeat' (first | (simp [apply_ite State.aon]; done) | with_reducible refine (each_keep State.aon _ _ _ (fun _ _ => ?_)).trans ?_ | with_reducible refine command_keep State.aon _ _ _ (fun _ => ?_) (fun _ => ?_) | split)
  · repeat' (first | (simp [apply_ite State.cfg]; done) | with_reducible refine (each_keep State.cfg _ _ _ (fun _ _ => ?_)).trans ?_ | with_reducible refine command_keep State.cfg _ _ _ (fun _ => ?_) (fun _ => ?_) | split)
  · repeat' (first | (simp [apply_ite State.pend]; done) | with_reducible refine (each_keep State.pend _ _ _ (fun _ _ => ?_)).trans ?_ | with_reducible refine command_keep State.pend _ _ _ (fun _ => ?_) (fun _ => ?_) | split)
  · repeat' (first | (simp [apply_ite State.tb]; done) | with_reducible refine (each_keep State.tb _ _ _ (fun _ _ => ?_)).trans ?_ | with_reducible refine command_keep State.tb _ _ _ (fun _ => ?_) (fun _ => ?_) | split)
  · repeat' (first | (simp [apply_ite State.events]; done) | with_reducible refine (each_keep State.events _ _ _ (fun _ _ => ?_)).trans ?_ | with_reducible refine command_keep State.events _ _ _ (fun _ => ?_) (fun _ => ?_) | split)
  · repeat' (first | (simp [apply_ite State.host]; done) | with_reducible refine (each_keep State.host _ _ _ (fun _ _ => ?_)).trans ?_ | with_reducible refine command_keep State.host _ _ _ (fun _ => ?_) (fun _ => ?_) | split)
  · repeat' (first | (simp [apply_ite State.cells]; done) | with_reducible refine (each_keep State.cells _ _ _ (fun _ _ => ?_)).trans ?_ | with_reducible refine command_keep State.cells _ _ _ (fun _ => ?_) (fun _ => ?_) | split)
  · repeat' (first | (simp [apply_ite State.halls]; done) | with_reducible refine (each_keep State.halls _ _ _ (fun _ _ => ?_)).trans ?_ | with_reducible refine command_keep State.halls _ _ _ (fun _ => ?_) (fun _ => ?_) | split)
  · repeat' (first | (simp [apply_ite State.grid]; done) | with_reducible refine (each_keep State.grid _ _ _ (fun _ _ => ?_)).trans ?_ | with_reducible refine command_keep State.grid _ _ _ (fun _ => ?_) (fun _ => ?_) | split)
  · repeat' (first | (simp [apply_ite State.treadsOld]; done) | with_reducible refine (each_keep State.treadsOld _ _ _ (fun _ _ => ?_)).trans ?_ | with_reducible refine command_keep State.treadsOld _ _ _ (fun _ => ?_) (fun _ => ?_) | split)
  · repeat' (first | (simp [apply_ite State.meas]; done) | with_reducible refine (each_keep State.meas _ _ _ (fun _ _ => ?_)).trans ?_ | with_reducible refine command_keep State.meas _ _ _ (fun _ => ?_) (fun _ => ?_) | split)
  · repeat' (first | (simp [apply_ite State.safe]; done) | with_reducible refine (each_keep State.safe _ _ _ (fun _ _ => ?_)).trans ?_ | with_reducible refine command_keep State.safe _ _ _ (fun _ => ?_) (fun _ => ?_) | split)
  · repeat' (first | (simp [apply_ite State.therm]; done) | with_reducible refine (each_keep State.therm _ _ _ (fun _ _ => ?_)).trans ?_ | with_reducible refine command_keep State.therm _ _ _ (fun _ => ?_) (fun _ => ?_) | split)
  · repeat' (first | (simp [apply_ite State.twin]; done) | with_reducible refine (each_keep State.twin _ _ _ (fun _ _ => ?_)).trans ?_ | with_reducible refine command_keep State.twin _ _ _ (fun _ => ?_) (fun _ => ?_) | split)
  · repeat' (first | (simp [apply_ite State.stair]; done) | with_reducible refine (each_keep State.stair _ _ _ (fun _ _ => ?_)).trans ?_ | with_reducible refine command_keep State.stair _ _ _ (fun _ => ?_) (fun _ => ?_) | split)
  · repeat' (first | (simp [apply_ite State.nvm]; done) | with_reducible refine (each_keep State.nvm _ _ _ (fun _ _ => ?_)).trans ?_ | with_reducible refine command_keep State.nvm _ _ _ (fun _ => ?_) (fun _ => ?_) | split)
  · repeat' (first | (simp [apply_ite State.streams]; done) | with_reducible refine (each_keep State.streams _ _ _ (fun _ _ => ?_)).trans ?_ | with_reducible refine command_keep State.streams _ _ _ (fun _ => ?_) (fun _ => ?_) | split)
  · repeat' (first | (simp [apply_ite State.mem]; done) | with_reducible refine (each_keep State.mem _ _ _ (fun _ _ => ?_)).trans ?_ | with_reducible refine command_keep State.mem _ _ _ (fun _ => ?_) (fun _ => ?_) | split)

@[simp] theorem capInjector_frame (a0 : Nat) (s : State) :
    (capInjector a0 s).pending = s.pending ∧ (capInjector a0 s).reply = s.reply ∧ (capInjector a0 s).out = s.out ∧ (capInjector a0 s).freeCtr = s.freeCtr ∧ (capInjector a0 s).aon = s.aon ∧ (capInjector a0 s).cfg = s.cfg ∧ (capInjector a0 s).pend = s.pend ∧ (capInjector a0 s).tb = s.tb ∧ (capInjector a0 s).events = s.events ∧ (capInjector a0 s).host = s.host ∧ (capInjector a0 s).treads = s.treads ∧ (capInjector a0 s).cells = s.cells ∧ (capInjector a0 s).flights = s.flights ∧ (capInjector a0 s).halls = s.halls ∧ (capInjector a0 s).grid = s.grid ∧ (capInjector a0 s).treadsOld = s.treadsOld ∧ (capInjector a0 s).meas = s.meas ∧ (capInjector a0 s).safe = s.safe ∧ (capInjector a0 s).therm = s.therm ∧ (capInjector a0 s).twin = s.twin ∧ (capInjector a0 s).stair = s.stair ∧ (capInjector a0 s).nvm = s.nvm ∧ (capInjector a0 s).streams = s.streams ∧ (capInjector a0 s).mem = s.mem := by
  unfold capInjector
  (try dsimp only)
  (repeat' split) <;> simp [apply_ite]

@[simp] theorem captureArm_frame (a0 : Word) (a1 : Word) (a2 : List Word) (s : State) :
    (captureArm a0 a1 a2 s).pending = s.pending ∧ (captureArm a0 a1 a2 s).reply = s.reply ∧ (captureArm a0 a1 a2 s).out = s.out ∧ (captureArm a0 a1 a2 s).freeCtr = s.freeCtr ∧ (captureArm a0 a1 a2 s).aon = s.aon ∧ (captureArm a0 a1 a2 s).cfg = s.cfg ∧ (captureArm a0 a1 a2 s).pend = s.pend ∧ (captureArm a0 a1 a2 s).tb = s.tb ∧ (captureArm a0 a1 a2 s).events = s.events ∧ (captureArm a0 a1 a2 s).host = s.host ∧ (captureArm a0 a1 a2 s).treads = s.treads ∧ (captureArm a0 a1 a2 s).cells = s.cells ∧ (captureArm a0 a1 a2 s).flights = s.flights ∧ (captureArm a0 a1 a2 s).halls = s.halls ∧ (captureArm a0 a1 a2 s).grid = s.grid ∧ (captureArm a0 a1 a2 s).treadsOld = s.treadsOld ∧ (captureArm a0 a1 a2 s).meas = s.meas ∧ (captureArm a0 a1 a2 s).safe = s.safe ∧ (captureArm a0 a1 a2 s).therm = s.therm ∧ (captureArm a0 a1 a2 s).twin = s.twin ∧ (captureArm a0 a1 a2 s).stair = s.stair ∧ (captureArm a0 a1 a2 s).nvm = s.nvm ∧ (captureArm a0 a1 a2 s).streams = s.streams ∧ (captureArm a0 a1 a2 s).mem = s.mem := by
  unfold captureArm
  (try dsimp only)
  (repeat' split) <;> simp [apply_ite]

@[simp] theorem captureSet_frame (a0 : Word) (a1 : Word) (a2 : List Word) (s : State) :
    (captureSet a0 a1 a2 s).2.pending = s.pending ∧ (captureSet a0 a1 a2 s).2.reply = s.reply ∧ (captureSet a0 a1 a2 s).2.out = s.out ∧ (captureSet a0 a1 a2 s).2.freeCtr = s.freeCtr ∧ (captureSet a0 a1 a2 s).2.aon = s.aon ∧ (captureSet a0 a1 a2 s).2.cfg = s.cfg ∧ (captureSet a0 a1 a2 s).2.pend = s.pend ∧ (captureSet a0 a1 a2 s).2.tb = s.tb ∧ (captureSet a0 a1 a2 s).2.events = s.events ∧ (captureSet a0 a1 a2 s).2.host = s.host ∧ (captureSet a0 a1 a2 s).2.treads = s.treads ∧ (captureSet a0 a1 a2 s).2.cells = s.cells ∧ (captureSet a0 a1 a2 s).2.flights = s.flights ∧ (captureSet a0 a1 a2 s).2.halls = s.halls ∧ (captureSet a0 a1 a2 s).2.grid = s.grid ∧ (captureSet a0 a1 a2 s).2.treadsOld = s.treadsOld ∧ (captureSet a0 a1 a2 s).2.meas = s.meas ∧ (captureSet a0 a1 a2 s).2.safe = s.safe ∧ (captureSet a0 a1 a2 s).2.therm = s.therm ∧ (captureSet a0 a1 a2 s).2.twin = s.twin ∧ (captureSet a0 a1 a2 s).2.stair = s.stair ∧ (captureSet a0 a1 a2 s).2.nvm = s.nvm ∧ (captureSet a0 a1 a2 s).2.streams = s.streams ∧ (captureSet a0 a1 a2 s).2.mem = s.mem := by
  unfold captureSet
  (try dsimp only)
  (repeat' split) <;> simp [apply_ite]

theorem execCapture_frame (a0 : List Word) (s t : State) (h : execCapture a0 s = .next t) :
    t.pending = s.pending ∧ t.out = s.out ∧ t.freeCtr = s.freeCtr ∧ t.aon = s.aon ∧ t.cfg = s.cfg ∧ t.pend = s.pend ∧ t.tb = s.tb ∧ t.events = s.events ∧ t.host = s.host ∧ t.treads = s.treads ∧ t.cells = s.cells ∧ t.flights = s.flights ∧ t.halls = s.halls ∧ t.grid = s.grid ∧ t.treadsOld = s.treadsOld ∧ t.meas = s.meas ∧ t.safe = s.safe ∧ t.therm = s.therm ∧ t.twin = s.twin ∧ t.stair = s.stair ∧ t.nvm = s.nvm ∧ t.streams = s.streams ∧ t.mem = s.mem := by
  unfold execCapture at h; cases h; (try dsimp only); (repeat' split) <;> simp [apply_ite]

@[simp] theorem capFrame_frame (a0 : State) (s : State) :
    (capFrame a0 s).pending = s.pending ∧ (capFrame a0 s).reply = s.reply ∧ (capFrame a0 s).out = s.out ∧ (capFrame a0 s).freeCtr = s.freeCtr ∧ (capFrame a0 s).aon = s.aon ∧ (capFrame a0 s).cfg = s.cfg ∧ (capFrame a0 s).pend = s.pend ∧ (capFrame a0 s).tb = s.tb ∧ (capFrame a0 s).events = s.events ∧ (capFrame a0 s).host = s.host ∧ (capFrame a0 s).treads = s.treads ∧ (capFrame a0 s).cells = s.cells ∧ (capFrame a0 s).flights = s.flights ∧ (capFrame a0 s).halls = s.halls ∧ (capFrame a0 s).grid = s.grid ∧ (capFrame a0 s).atr = s.atr ∧ (capFrame a0 s).treadsOld = s.treadsOld ∧ (capFrame a0 s).meas = s.meas ∧ (capFrame a0 s).safe = s.safe ∧ (capFrame a0 s).therm = s.therm ∧ (capFrame a0 s).twin = s.twin ∧ (capFrame a0 s).stair = s.stair ∧ (capFrame a0 s).nvm = s.nvm ∧ (capFrame a0 s).streams = s.streams := by
  unfold capFrame
  (try dsimp only)
  (repeat' split) <;> simp [apply_ite]

@[simp] theorem capSample_frame (a0 : Nat) (a1 : State) (s : State) :
    (capSample a0 a1 s).pending = s.pending ∧ (capSample a0 a1 s).reply = s.reply ∧ (capSample a0 a1 s).out = s.out ∧ (capSample a0 a1 s).freeCtr = s.freeCtr ∧ (capSample a0 a1 s).aon = s.aon ∧ (capSample a0 a1 s).cfg = s.cfg ∧ (capSample a0 a1 s).pend = s.pend ∧ (capSample a0 a1 s).tb = s.tb ∧ (capSample a0 a1 s).events = s.events ∧ (capSample a0 a1 s).host = s.host ∧ (capSample a0 a1 s).treads = s.treads ∧ (capSample a0 a1 s).cells = s.cells ∧ (capSample a0 a1 s).flights = s.flights ∧ (capSample a0 a1 s).halls = s.halls ∧ (capSample a0 a1 s).grid = s.grid ∧ (capSample a0 a1 s).treadsOld = s.treadsOld ∧ (capSample a0 a1 s).meas = s.meas ∧ (capSample a0 a1 s).safe = s.safe ∧ (capSample a0 a1 s).therm = s.therm ∧ (capSample a0 a1 s).twin = s.twin ∧ (capSample a0 a1 s).stair = s.stair ∧ (capSample a0 a1 s).nvm = s.nvm ∧ (capSample a0 a1 s).streams = s.streams := by
  unfold capSample
  (try dsimp only)
  (repeat' split) <;> simp [apply_ite]

@[simp] theorem captureEnd_frame (a0 : Bool) (s : State) :
    (captureEnd a0 s).pending = s.pending ∧ (captureEnd a0 s).reply = s.reply ∧ (captureEnd a0 s).freeCtr = s.freeCtr ∧ (captureEnd a0 s).cfg = s.cfg ∧ (captureEnd a0 s).pend = s.pend ∧ (captureEnd a0 s).tb = s.tb ∧ (captureEnd a0 s).treads = s.treads ∧ (captureEnd a0 s).cells = s.cells ∧ (captureEnd a0 s).flights = s.flights ∧ (captureEnd a0 s).halls = s.halls ∧ (captureEnd a0 s).grid = s.grid ∧ (captureEnd a0 s).treadsOld = s.treadsOld ∧ (captureEnd a0 s).meas = s.meas ∧ (captureEnd a0 s).safe = s.safe ∧ (captureEnd a0 s).therm = s.therm ∧ (captureEnd a0 s).twin = s.twin ∧ (captureEnd a0 s).stair = s.stair ∧ (captureEnd a0 s).nvm = s.nvm ∧ (captureEnd a0 s).streams = s.streams ∧ (captureEnd a0 s).mem = s.mem := by
  unfold captureEnd
  (try dsimp only)
  (repeat' split) <;> simp [apply_ite]

theorem execCaptureDone_frame (s t : State) (h : execCaptureDone s = .next t) :
    t.pending = s.pending ∧ t.reply = s.reply ∧ t.freeCtr = s.freeCtr ∧ t.cfg = s.cfg ∧ t.pend = s.pend ∧ t.tb = s.tb ∧ t.treads = s.treads ∧ t.cells = s.cells ∧ t.flights = s.flights ∧ t.halls = s.halls ∧ t.grid = s.grid ∧ t.treadsOld = s.treadsOld ∧ t.meas = s.meas ∧ t.safe = s.safe ∧ t.therm = s.therm ∧ t.twin = s.twin ∧ t.stair = s.stair ∧ t.nvm = s.nvm ∧ t.streams = s.streams ∧ t.mem = s.mem := by
  unfold execCaptureDone at h; cases h; (try dsimp only); (repeat' split) <;> simp [apply_ite]

@[simp] theorem capTcChange_frame (s : State) :
    (capTcChange s).pending = s.pending ∧ (capTcChange s).reply = s.reply ∧ (capTcChange s).freeCtr = s.freeCtr ∧ (capTcChange s).cfg = s.cfg ∧ (capTcChange s).pend = s.pend ∧ (capTcChange s).tb = s.tb ∧ (capTcChange s).treads = s.treads ∧ (capTcChange s).cells = s.cells ∧ (capTcChange s).flights = s.flights ∧ (capTcChange s).halls = s.halls ∧ (capTcChange s).grid = s.grid ∧ (capTcChange s).treadsOld = s.treadsOld ∧ (capTcChange s).meas = s.meas ∧ (capTcChange s).safe = s.safe ∧ (capTcChange s).therm = s.therm ∧ (capTcChange s).twin = s.twin ∧ (capTcChange s).stair = s.stair ∧ (capTcChange s).nvm = s.nvm ∧ (capTcChange s).streams = s.streams ∧ (capTcChange s).mem = s.mem := by
  unfold capTcChange
  (try dsimp only)
  (repeat' split) <;> simp [apply_ite]

theorem execCaptureRead_frame (a0 : List Word) (s t : State) (h : execCaptureRead a0 s = .next t) :
    t.pending = s.pending ∧ t.out = s.out ∧ t.aon = s.aon ∧ t.cfg = s.cfg ∧ t.pend = s.pend ∧ t.tb = s.tb ∧ t.events = s.events ∧ t.host = s.host ∧ t.treads = s.treads ∧ t.cells = s.cells ∧ t.flights = s.flights ∧ t.halls = s.halls ∧ t.grid = s.grid ∧ t.atr = s.atr ∧ t.treadsOld = s.treadsOld ∧ t.meas = s.meas ∧ t.safe = s.safe ∧ t.therm = s.therm ∧ t.twin = s.twin ∧ t.stair = s.stair ∧ t.nvm = s.nvm ∧ t.streams = s.streams ∧ t.mem = s.mem := by
  unfold execCaptureRead at h; cases h
  refine ⟨?_, ?_, ?_, ?_, ?_, ?_, ?_, ?_, ?_, ?_, ?_, ?_, ?_, ?_, ?_, ?_, ?_, ?_, ?_, ?_, ?_, ?_, ?_⟩
  · repeat' (first | (simp [apply_ite State.pending]; done) | with_reducible refine (each_keep State.pending _ _ _ (fun _ _ => ?_)).trans ?_ | with_reducible refine command_keep State.pending _ _ _ (fun _ => ?_) (fun _ => ?_) | split)
  · repeat' (first | (simp [apply_ite State.out]; done) | with_reducible refine (each_keep State.out _ _ _ (fun _ _ => ?_)).trans ?_ | with_reducible refine command_keep State.out _ _ _ (fun _ => ?_) (fun _ => ?_) | split)
  · repeat' (first | (simp [apply_ite State.aon]; done) | with_reducible refine (each_keep State.aon _ _ _ (fun _ _ => ?_)).trans ?_ | with_reducible refine command_keep State.aon _ _ _ (fun _ => ?_) (fun _ => ?_) | split)
  · repeat' (first | (simp [apply_ite State.cfg]; done) | with_reducible refine (each_keep State.cfg _ _ _ (fun _ _ => ?_)).trans ?_ | with_reducible refine command_keep State.cfg _ _ _ (fun _ => ?_) (fun _ => ?_) | split)
  · repeat' (first | (simp [apply_ite State.pend]; done) | with_reducible refine (each_keep State.pend _ _ _ (fun _ _ => ?_)).trans ?_ | with_reducible refine command_keep State.pend _ _ _ (fun _ => ?_) (fun _ => ?_) | split)
  · repeat' (first | (simp [apply_ite State.tb]; done) | with_reducible refine (each_keep State.tb _ _ _ (fun _ _ => ?_)).trans ?_ | with_reducible refine command_keep State.tb _ _ _ (fun _ => ?_) (fun _ => ?_) | split)
  · repeat' (first | (simp [apply_ite State.events]; done) | with_reducible refine (each_keep State.events _ _ _ (fun _ _ => ?_)).trans ?_ | with_reducible refine command_keep State.events _ _ _ (fun _ => ?_) (fun _ => ?_) | split)
  · repeat' (first | (simp [apply_ite State.host]; done) | with_reducible refine (each_keep State.host _ _ _ (fun _ _ => ?_)).trans ?_ | with_reducible refine command_keep State.host _ _ _ (fun _ => ?_) (fun _ => ?_) | split)
  · repeat' (first | (simp [apply_ite State.treads]; done) | with_reducible refine (each_keep State.treads _ _ _ (fun _ _ => ?_)).trans ?_ | with_reducible refine command_keep State.treads _ _ _ (fun _ => ?_) (fun _ => ?_) | split)
  · repeat' (first | (simp [apply_ite State.cells]; done) | with_reducible refine (each_keep State.cells _ _ _ (fun _ _ => ?_)).trans ?_ | with_reducible refine command_keep State.cells _ _ _ (fun _ => ?_) (fun _ => ?_) | split)
  · repeat' (first | (simp [apply_ite State.flights]; done) | with_reducible refine (each_keep State.flights _ _ _ (fun _ _ => ?_)).trans ?_ | with_reducible refine command_keep State.flights _ _ _ (fun _ => ?_) (fun _ => ?_) | split)
  · repeat' (first | (simp [apply_ite State.halls]; done) | with_reducible refine (each_keep State.halls _ _ _ (fun _ _ => ?_)).trans ?_ | with_reducible refine command_keep State.halls _ _ _ (fun _ => ?_) (fun _ => ?_) | split)
  · repeat' (first | (simp [apply_ite State.grid]; done) | with_reducible refine (each_keep State.grid _ _ _ (fun _ _ => ?_)).trans ?_ | with_reducible refine command_keep State.grid _ _ _ (fun _ => ?_) (fun _ => ?_) | split)
  · repeat' (first | (simp [apply_ite State.atr]; done) | with_reducible refine (each_keep State.atr _ _ _ (fun _ _ => ?_)).trans ?_ | with_reducible refine command_keep State.atr _ _ _ (fun _ => ?_) (fun _ => ?_) | split)
  · repeat' (first | (simp [apply_ite State.treadsOld]; done) | with_reducible refine (each_keep State.treadsOld _ _ _ (fun _ _ => ?_)).trans ?_ | with_reducible refine command_keep State.treadsOld _ _ _ (fun _ => ?_) (fun _ => ?_) | split)
  · repeat' (first | (simp [apply_ite State.meas]; done) | with_reducible refine (each_keep State.meas _ _ _ (fun _ _ => ?_)).trans ?_ | with_reducible refine command_keep State.meas _ _ _ (fun _ => ?_) (fun _ => ?_) | split)
  · repeat' (first | (simp [apply_ite State.safe]; done) | with_reducible refine (each_keep State.safe _ _ _ (fun _ _ => ?_)).trans ?_ | with_reducible refine command_keep State.safe _ _ _ (fun _ => ?_) (fun _ => ?_) | split)
  · repeat' (first | (simp [apply_ite State.therm]; done) | with_reducible refine (each_keep State.therm _ _ _ (fun _ _ => ?_)).trans ?_ | with_reducible refine command_keep State.therm _ _ _ (fun _ => ?_) (fun _ => ?_) | split)
  · repeat' (first | (simp [apply_ite State.twin]; done) | with_reducible refine (each_keep State.twin _ _ _ (fun _ _ => ?_)).trans ?_ | with_reducible refine command_keep State.twin _ _ _ (fun _ => ?_) (fun _ => ?_) | split)
  · repeat' (first | (simp [apply_ite State.stair]; done) | with_reducible refine (each_keep State.stair _ _ _ (fun _ _ => ?_)).trans ?_ | with_reducible refine command_keep State.stair _ _ _ (fun _ => ?_) (fun _ => ?_) | split)
  · repeat' (first | (simp [apply_ite State.nvm]; done) | with_reducible refine (each_keep State.nvm _ _ _ (fun _ _ => ?_)).trans ?_ | with_reducible refine command_keep State.nvm _ _ _ (fun _ => ?_) (fun _ => ?_) | split)
  · repeat' (first | (simp [apply_ite State.streams]; done) | with_reducible refine (each_keep State.streams _ _ _ (fun _ _ => ?_)).trans ?_ | with_reducible refine command_keep State.streams _ _ _ (fun _ => ?_) (fun _ => ?_) | split)
  · repeat' (first | (simp [apply_ite State.mem]; done) | with_reducible refine (each_keep State.mem _ _ _ (fun _ _ => ?_)).trans ?_ | with_reducible refine command_keep State.mem _ _ _ (fun _ => ?_) (fun _ => ?_) | split)

@[simp] theorem setInj_frame (a0 : Nat) (a1 : Injector → Injector) (s : State) :
    (setInj a0 a1 s).pending = s.pending ∧ (setInj a0 a1 s).reply = s.reply ∧ (setInj a0 a1 s).out = s.out ∧ (setInj a0 a1 s).freeCtr = s.freeCtr ∧ (setInj a0 a1 s).aon = s.aon ∧ (setInj a0 a1 s).cfg = s.cfg ∧ (setInj a0 a1 s).pend = s.pend ∧ (setInj a0 a1 s).tb = s.tb ∧ (setInj a0 a1 s).events = s.events ∧ (setInj a0 a1 s).host = s.host ∧ (setInj a0 a1 s).treads = s.treads ∧ (setInj a0 a1 s).cells = s.cells ∧ (setInj a0 a1 s).flights = s.flights ∧ (setInj a0 a1 s).halls = s.halls ∧ (setInj a0 a1 s).grid = s.grid ∧ (setInj a0 a1 s).treadsOld = s.treadsOld ∧ (setInj a0 a1 s).meas = s.meas ∧ (setInj a0 a1 s).safe = s.safe ∧ (setInj a0 a1 s).therm = s.therm ∧ (setInj a0 a1 s).twin = s.twin ∧ (setInj a0 a1 s).stair = s.stair ∧ (setInj a0 a1 s).nvm = s.nvm ∧ (setInj a0 a1 s).streams = s.streams ∧ (setInj a0 a1 s).mem = s.mem := by
  unfold setInj
  (try dsimp only)
  (repeat' split) <;> simp [apply_ite]

@[simp] theorem injBegin_frame (a0 : Nat) (s : State) :
    (injBegin a0 s).pending = s.pending ∧ (injBegin a0 s).reply = s.reply ∧ (injBegin a0 s).out = s.out ∧ (injBegin a0 s).freeCtr = s.freeCtr ∧ (injBegin a0 s).aon = s.aon ∧ (injBegin a0 s).cfg = s.cfg ∧ (injBegin a0 s).pend = s.pend ∧ (injBegin a0 s).tb = s.tb ∧ (injBegin a0 s).events = s.events ∧ (injBegin a0 s).host = s.host ∧ (injBegin a0 s).treads = s.treads ∧ (injBegin a0 s).cells = s.cells ∧ (injBegin a0 s).flights = s.flights ∧ (injBegin a0 s).halls = s.halls ∧ (injBegin a0 s).grid = s.grid ∧ (injBegin a0 s).treadsOld = s.treadsOld ∧ (injBegin a0 s).meas = s.meas ∧ (injBegin a0 s).safe = s.safe ∧ (injBegin a0 s).therm = s.therm ∧ (injBegin a0 s).twin = s.twin ∧ (injBegin a0 s).stair = s.stair ∧ (injBegin a0 s).nvm = s.nvm ∧ (injBegin a0 s).streams = s.streams ∧ (injBegin a0 s).mem = s.mem := by
  unfold injBegin
  (try dsimp only)
  (repeat' split) <;> simp [apply_ite]

@[simp] theorem injectSet_frame (a0 : Nat) (a1 : Bool) (a2 : Injector) (s : State) :
    (injectSet a0 a1 a2 s).2.pending = s.pending ∧ (injectSet a0 a1 a2 s).2.reply = s.reply ∧ (injectSet a0 a1 a2 s).2.freeCtr = s.freeCtr ∧ (injectSet a0 a1 a2 s).2.cfg = s.cfg ∧ (injectSet a0 a1 a2 s).2.pend = s.pend ∧ (injectSet a0 a1 a2 s).2.tb = s.tb ∧ (injectSet a0 a1 a2 s).2.treads = s.treads ∧ (injectSet a0 a1 a2 s).2.cells = s.cells ∧ (injectSet a0 a1 a2 s).2.flights = s.flights ∧ (injectSet a0 a1 a2 s).2.halls = s.halls ∧ (injectSet a0 a1 a2 s).2.grid = s.grid ∧ (injectSet a0 a1 a2 s).2.treadsOld = s.treadsOld ∧ (injectSet a0 a1 a2 s).2.meas = s.meas ∧ (injectSet a0 a1 a2 s).2.safe = s.safe ∧ (injectSet a0 a1 a2 s).2.therm = s.therm ∧ (injectSet a0 a1 a2 s).2.twin = s.twin ∧ (injectSet a0 a1 a2 s).2.stair = s.stair ∧ (injectSet a0 a1 a2 s).2.nvm = s.nvm ∧ (injectSet a0 a1 a2 s).2.streams = s.streams ∧ (injectSet a0 a1 a2 s).2.mem = s.mem := by
  unfold injectSet
  (try dsimp only)
  (repeat' split) <;> simp [apply_ite]

theorem execInject_frame (a0 : List Word) (s t : State) (h : execInject a0 s = .next t) :
    t.pending = s.pending ∧ t.freeCtr = s.freeCtr ∧ t.cfg = s.cfg ∧ t.pend = s.pend ∧ t.tb = s.tb ∧ t.treads = s.treads ∧ t.cells = s.cells ∧ t.flights = s.flights ∧ t.halls = s.halls ∧ t.grid = s.grid ∧ t.treadsOld = s.treadsOld ∧ t.meas = s.meas ∧ t.safe = s.safe ∧ t.therm = s.therm ∧ t.twin = s.twin ∧ t.stair = s.stair ∧ t.nvm = s.nvm ∧ t.streams = s.streams ∧ t.mem = s.mem := by
  unfold execInject at h; cases h; (try dsimp only); (repeat' split) <;> simp [apply_ite]

@[simp] theorem startTransfer_frame (a0 : Nat) (s : State) :
    (startTransfer a0 s).pending = s.pending ∧ (startTransfer a0 s).reply = s.reply ∧ (startTransfer a0 s).out = s.out ∧ (startTransfer a0 s).freeCtr = s.freeCtr ∧ (startTransfer a0 s).aon = s.aon ∧ (startTransfer a0 s).cfg = s.cfg ∧ (startTransfer a0 s).pend = s.pend ∧ (startTransfer a0 s).tb = s.tb ∧ (startTransfer a0 s).events = s.events ∧ (startTransfer a0 s).host = s.host ∧ (startTransfer a0 s).treads = s.treads ∧ (startTransfer a0 s).flights = s.flights ∧ (startTransfer a0 s).halls = s.halls ∧ (startTransfer a0 s).grid = s.grid ∧ (startTransfer a0 s).atr = s.atr ∧ (startTransfer a0 s).treadsOld = s.treadsOld ∧ (startTransfer a0 s).meas = s.meas ∧ (startTransfer a0 s).safe = s.safe ∧ (startTransfer a0 s).therm = s.therm ∧ (startTransfer a0 s).twin = s.twin ∧ (startTransfer a0 s).stair = s.stair ∧ (startTransfer a0 s).nvm = s.nvm ∧ (startTransfer a0 s).streams = s.streams ∧ (startTransfer a0 s).mem = s.mem := by
  unfold startTransfer
  (try dsimp only)
  (repeat' split) <;> simp [apply_ite]

@[simp] theorem clearPerm_frame (a0 : Nat) (s : State) :
    (clearPerm a0 s).pending = s.pending ∧ (clearPerm a0 s).reply = s.reply ∧ (clearPerm a0 s).freeCtr = s.freeCtr ∧ (clearPerm a0 s).cfg = s.cfg ∧ (clearPerm a0 s).pend = s.pend ∧ (clearPerm a0 s).tb = s.tb ∧ (clearPerm a0 s).treads = s.treads ∧ (clearPerm a0 s).flights = s.flights ∧ (clearPerm a0 s).halls = s.halls ∧ (clearPerm a0 s).grid = s.grid ∧ (clearPerm a0 s).treadsOld = s.treadsOld ∧ (clearPerm a0 s).meas = s.meas ∧ (clearPerm a0 s).safe = s.safe ∧ (clearPerm a0 s).therm = s.therm ∧ (clearPerm a0 s).twin = s.twin ∧ (clearPerm a0 s).stair = s.stair ∧ (clearPerm a0 s).streams = s.streams ∧ (clearPerm a0 s).mem = s.mem := by
  unfold clearPerm
  (try dsimp only)
  (repeat' split) <;> simp [apply_ite]

@[simp] theorem ctConfig_frame (a0 : Fin 64) (a1 : List Word) (s : State) :
    (ctConfig a0 a1 s).pending = s.pending ∧ (ctConfig a0 a1 s).freeCtr = s.freeCtr ∧ (ctConfig a0 a1 s).cfg = s.cfg ∧ (ctConfig a0 a1 s).pend = s.pend ∧ (ctConfig a0 a1 s).tb = s.tb ∧ (ctConfig a0 a1 s).treads = s.treads ∧ (ctConfig a0 a1 s).flights = s.flights ∧ (ctConfig a0 a1 s).halls = s.halls ∧ (ctConfig a0 a1 s).grid = s.grid ∧ (ctConfig a0 a1 s).treadsOld = s.treadsOld ∧ (ctConfig a0 a1 s).meas = s.meas ∧ (ctConfig a0 a1 s).safe = s.safe ∧ (ctConfig a0 a1 s).therm = s.therm ∧ (ctConfig a0 a1 s).twin = s.twin ∧ (ctConfig a0 a1 s).stair = s.stair ∧ (ctConfig a0 a1 s).streams = s.streams ∧ (ctConfig a0 a1 s).mem = s.mem := by
  unfold ctConfig; (try dsimp only)
  refine ⟨?_, ?_, ?_, ?_, ?_, ?_, ?_, ?_, ?_, ?_, ?_, ?_, ?_, ?_, ?_, ?_, ?_⟩
  · repeat' (first | (simp [apply_ite State.pending]; done) | with_reducible refine (each_keep State.pending _ _ _ (fun _ _ => ?_)).trans ?_ | with_reducible refine command_keep State.pending _ _ _ (fun _ => ?_) (fun _ => ?_) | split)
  · repeat' (first | (simp [apply_ite State.freeCtr]; done) | with_reducible refine (each_keep State.freeCtr _ _ _ (fun _ _ => ?_)).trans ?_ | with_reducible refine command_keep State.freeCtr _ _ _ (fun _ => ?_) (fun _ => ?_) | split)
  · repeat' (first | (simp [apply_ite State.cfg]; done) | with_reducible refine (each_keep State.cfg _ _ _ (fun _ _ => ?_)).trans ?_ | with_reducible refine command_keep State.cfg _ _ _ (fun _ => ?_) (fun _ => ?_) | split)
  · repeat' (first | (simp [apply_ite State.pend]; done) | with_reducible refine (each_keep State.pend _ _ _ (fun _ _ => ?_)).trans ?_ | with_reducible refine command_keep State.pend _ _ _ (fun _ => ?_) (fun _ => ?_) | split)
  · repeat' (first | (simp [apply_ite State.tb]; done) | with_reducible refine (each_keep State.tb _ _ _ (fun _ _ => ?_)).trans ?_ | with_reducible refine command_keep State.tb _ _ _ (fun _ => ?_) (fun _ => ?_) | split)
  · repeat' (first | (simp [apply_ite State.treads]; done) | with_reducible refine (each_keep State.treads _ _ _ (fun _ _ => ?_)).trans ?_ | with_reducible refine command_keep State.treads _ _ _ (fun _ => ?_) (fun _ => ?_) | split)
  · repeat' (first | (simp [apply_ite State.flights]; done) | with_reducible refine (each_keep State.flights _ _ _ (fun _ _ => ?_)).trans ?_ | with_reducible refine command_keep State.flights _ _ _ (fun _ => ?_) (fun _ => ?_) | split)
  · repeat' (first | (simp [apply_ite State.halls]; done) | with_reducible refine (each_keep State.halls _ _ _ (fun _ _ => ?_)).trans ?_ | with_reducible refine command_keep State.halls _ _ _ (fun _ => ?_) (fun _ => ?_) | split)
  · repeat' (first | (simp [apply_ite State.grid]; done) | with_reducible refine (each_keep State.grid _ _ _ (fun _ _ => ?_)).trans ?_ | with_reducible refine command_keep State.grid _ _ _ (fun _ => ?_) (fun _ => ?_) | split)
  · repeat' (first | (simp [apply_ite State.treadsOld]; done) | with_reducible refine (each_keep State.treadsOld _ _ _ (fun _ _ => ?_)).trans ?_ | with_reducible refine command_keep State.treadsOld _ _ _ (fun _ => ?_) (fun _ => ?_) | split)
  · repeat' (first | (simp [apply_ite State.meas]; done) | with_reducible refine (each_keep State.meas _ _ _ (fun _ _ => ?_)).trans ?_ | with_reducible refine command_keep State.meas _ _ _ (fun _ => ?_) (fun _ => ?_) | split)
  · repeat' (first | (simp [apply_ite State.safe]; done) | with_reducible refine (each_keep State.safe _ _ _ (fun _ _ => ?_)).trans ?_ | with_reducible refine command_keep State.safe _ _ _ (fun _ => ?_) (fun _ => ?_) | split)
  · repeat' (first | (simp [apply_ite State.therm]; done) | with_reducible refine (each_keep State.therm _ _ _ (fun _ _ => ?_)).trans ?_ | with_reducible refine command_keep State.therm _ _ _ (fun _ => ?_) (fun _ => ?_) | split)
  · repeat' (first | (simp [apply_ite State.twin]; done) | with_reducible refine (each_keep State.twin _ _ _ (fun _ _ => ?_)).trans ?_ | with_reducible refine command_keep State.twin _ _ _ (fun _ => ?_) (fun _ => ?_) | split)
  · repeat' (first | (simp [apply_ite State.stair]; done) | with_reducible refine (each_keep State.stair _ _ _ (fun _ _ => ?_)).trans ?_ | with_reducible refine command_keep State.stair _ _ _ (fun _ => ?_) (fun _ => ?_) | split)
  · repeat' (first | (simp [apply_ite State.streams]; done) | with_reducible refine (each_keep State.streams _ _ _ (fun _ _ => ?_)).trans ?_ | with_reducible refine command_keep State.streams _ _ _ (fun _ => ?_) (fun _ => ?_) | split)
  · repeat' (first | (simp [apply_ite State.mem]; done) | with_reducible refine (each_keep State.mem _ _ _ (fun _ _ => ?_)).trans ?_ | with_reducible refine command_keep State.mem _ _ _ (fun _ => ?_) (fun _ => ?_) | split)

theorem execCtConfig_frame (a0 : Fin 64) (a1 : List Word) (s t : State) (h : execCtConfig a0 a1 s = .next t) :
    t.pending = s.pending ∧ t.freeCtr = s.freeCtr ∧ t.cfg = s.cfg ∧ t.pend = s.pend ∧ t.tb = s.tb ∧ t.treads = s.treads ∧ t.flights = s.flights ∧ t.halls = s.halls ∧ t.grid = s.grid ∧ t.treadsOld = s.treadsOld ∧ t.meas = s.meas ∧ t.safe = s.safe ∧ t.therm = s.therm ∧ t.twin = s.twin ∧ t.stair = s.stair ∧ t.streams = s.streams ∧ t.mem = s.mem := by
  unfold execCtConfig at h; cases h; (try dsimp only); (repeat' split) <;> simp [apply_ite]

theorem execCtConfigRead_frame (a0 : Fin 64) (a1 : List Word) (s t : State) (h : execCtConfigRead a0 a1 s = .next t) :
    t.pending = s.pending ∧ t.freeCtr = s.freeCtr ∧ t.cfg = s.cfg ∧ t.pend = s.pend ∧ t.tb = s.tb ∧ t.treads = s.treads ∧ t.flights = s.flights ∧ t.halls = s.halls ∧ t.grid = s.grid ∧ t.treadsOld = s.treadsOld ∧ t.meas = s.meas ∧ t.safe = s.safe ∧ t.therm = s.therm ∧ t.twin = s.twin ∧ t.stair = s.stair ∧ t.streams = s.streams ∧ t.mem = s.mem := by
  unfold execCtConfigRead at h; cases h; (try dsimp only); (repeat' split) <;> simp [apply_ite]

theorem execClrPerm_frame (a0 : Fin 64) (a1 : List Word) (s t : State) (h : execClrPerm a0 a1 s = .next t) :
    t.pending = s.pending ∧ t.freeCtr = s.freeCtr ∧ t.cfg = s.cfg ∧ t.pend = s.pend ∧ t.tb = s.tb ∧ t.treads = s.treads ∧ t.flights = s.flights ∧ t.halls = s.halls ∧ t.grid = s.grid ∧ t.treadsOld = s.treadsOld ∧ t.meas = s.meas ∧ t.safe = s.safe ∧ t.therm = s.therm ∧ t.twin = s.twin ∧ t.stair = s.stair ∧ t.streams = s.streams ∧ t.mem = s.mem := by
  unfold execClrPerm at h; cases h; (try dsimp only); (repeat' split) <;> simp [apply_ite]

theorem execCtStatus_frame (a0 : Fin 64) (a1 : List Word) (s t : State) (h : execCtStatus a0 a1 s = .next t) :
    t.pending = s.pending ∧ t.out = s.out ∧ t.freeCtr = s.freeCtr ∧ t.aon = s.aon ∧ t.cfg = s.cfg ∧ t.pend = s.pend ∧ t.tb = s.tb ∧ t.events = s.events ∧ t.host = s.host ∧ t.treads = s.treads ∧ t.cells = s.cells ∧ t.flights = s.flights ∧ t.halls = s.halls ∧ t.grid = s.grid ∧ t.atr = s.atr ∧ t.treadsOld = s.treadsOld ∧ t.meas = s.meas ∧ t.safe = s.safe ∧ t.therm = s.therm ∧ t.twin = s.twin ∧ t.stair = s.stair ∧ t.nvm = s.nvm ∧ t.streams = s.streams ∧ t.mem = s.mem := by
  unfold execCtStatus at h; cases h; (try dsimp only); (repeat' split) <;> simp [apply_ite]

@[simp] theorem setPattern_frame (a0 : Nat) (a1 : Bool) (a2 : Nat) (s : State) :
    (setPattern a0 a1 a2 s).pending = s.pending ∧ (setPattern a0 a1 a2 s).reply = s.reply ∧ (setPattern a0 a1 a2 s).out = s.out ∧ (setPattern a0 a1 a2 s).freeCtr = s.freeCtr ∧ (setPattern a0 a1 a2 s).aon = s.aon ∧ (setPattern a0 a1 a2 s).pend = s.pend ∧ (setPattern a0 a1 a2 s).tb = s.tb ∧ (setPattern a0 a1 a2 s).events = s.events ∧ (setPattern a0 a1 a2 s).host = s.host ∧ (setPattern a0 a1 a2 s).treads = s.treads ∧ (setPattern a0 a1 a2 s).flights = s.flights ∧ (setPattern a0 a1 a2 s).halls = s.halls ∧ (setPattern a0 a1 a2 s).grid = s.grid ∧ (setPattern a0 a1 a2 s).atr = s.atr ∧ (setPattern a0 a1 a2 s).treadsOld = s.treadsOld ∧ (setPattern a0 a1 a2 s).meas = s.meas ∧ (setPattern a0 a1 a2 s).safe = s.safe ∧ (setPattern a0 a1 a2 s).therm = s.therm ∧ (setPattern a0 a1 a2 s).twin = s.twin ∧ (setPattern a0 a1 a2 s).stair = s.stair ∧ (setPattern a0 a1 a2 s).nvm = s.nvm ∧ (setPattern a0 a1 a2 s).streams = s.streams ∧ (setPattern a0 a1 a2 s).mem = s.mem := by
  unfold setPattern
  (try dsimp only)
  (repeat' split) <;> simp [apply_ite]

@[simp] theorem safeRequest_frame (a0 : List Word) (s : State) :
    (safeRequest a0 s).pending = s.pending ∧ (safeRequest a0 s).out = s.out ∧ (safeRequest a0 s).freeCtr = s.freeCtr ∧ (safeRequest a0 s).aon = s.aon ∧ (safeRequest a0 s).cfg = s.cfg ∧ (safeRequest a0 s).pend = s.pend ∧ (safeRequest a0 s).tb = s.tb ∧ (safeRequest a0 s).events = s.events ∧ (safeRequest a0 s).host = s.host ∧ (safeRequest a0 s).treads = s.treads ∧ (safeRequest a0 s).halls = s.halls ∧ (safeRequest a0 s).grid = s.grid ∧ (safeRequest a0 s).atr = s.atr ∧ (safeRequest a0 s).treadsOld = s.treadsOld ∧ (safeRequest a0 s).meas = s.meas ∧ (safeRequest a0 s).safe = s.safe ∧ (safeRequest a0 s).therm = s.therm ∧ (safeRequest a0 s).twin = s.twin ∧ (safeRequest a0 s).stair = s.stair ∧ (safeRequest a0 s).nvm = s.nvm ∧ (safeRequest a0 s).streams = s.streams ∧ (safeRequest a0 s).mem = s.mem := by
  unfold safeRequest
  (try dsimp only)
  (repeat' split) <;> simp [apply_ite]

@[simp] theorem safePatterns_frame (a0 : List Word) (s : State) :
    (safePatterns a0 s).pending = s.pending ∧ (safePatterns a0 s).out = s.out ∧ (safePatterns a0 s).freeCtr = s.freeCtr ∧ (safePatterns a0 s).aon = s.aon ∧ (safePatterns a0 s).pend = s.pend ∧ (safePatterns a0 s).tb = s.tb ∧ (safePatterns a0 s).events = s.events ∧ (safePatterns a0 s).host = s.host ∧ (safePatterns a0 s).treads = s.treads ∧ (safePatterns a0 s).flights = s.flights ∧ (safePatterns a0 s).halls = s.halls ∧ (safePatterns a0 s).grid = s.grid ∧ (safePatterns a0 s).atr = s.atr ∧ (safePatterns a0 s).treadsOld = s.treadsOld ∧ (safePatterns a0 s).meas = s.meas ∧ (safePatterns a0 s).safe = s.safe ∧ (safePatterns a0 s).therm = s.therm ∧ (safePatterns a0 s).twin = s.twin ∧ (safePatterns a0 s).stair = s.stair ∧ (safePatterns a0 s).nvm = s.nvm ∧ (safePatterns a0 s).streams = s.streams ∧ (safePatterns a0 s).mem = s.mem := by
  unfold safePatterns
  (try dsimp only)
  (repeat' split) <;> simp [apply_ite]

@[simp] theorem safeSet_frame (a0 : List Word) (s : State) :
    (safeSet a0 s).pending = s.pending ∧ (safeSet a0 s).out = s.out ∧ (safeSet a0 s).freeCtr = s.freeCtr ∧ (safeSet a0 s).aon = s.aon ∧ (safeSet a0 s).pend = s.pend ∧ (safeSet a0 s).tb = s.tb ∧ (safeSet a0 s).events = s.events ∧ (safeSet a0 s).host = s.host ∧ (safeSet a0 s).treads = s.treads ∧ (safeSet a0 s).halls = s.halls ∧ (safeSet a0 s).grid = s.grid ∧ (safeSet a0 s).atr = s.atr ∧ (safeSet a0 s).treadsOld = s.treadsOld ∧ (safeSet a0 s).meas = s.meas ∧ (safeSet a0 s).safe = s.safe ∧ (safeSet a0 s).therm = s.therm ∧ (safeSet a0 s).twin = s.twin ∧ (safeSet a0 s).stair = s.stair ∧ (safeSet a0 s).nvm = s.nvm ∧ (safeSet a0 s).streams = s.streams ∧ (safeSet a0 s).mem = s.mem := by
  unfold safeSet
  (try dsimp only)
  (repeat' split) <;> simp [apply_ite]

theorem execSafeSet_frame (a0 : List Word) (s t : State) (h : execSafeSet a0 s = .next t) :
    t.pending = s.pending ∧ t.out = s.out ∧ t.freeCtr = s.freeCtr ∧ t.aon = s.aon ∧ t.pend = s.pend ∧ t.tb = s.tb ∧ t.events = s.events ∧ t.host = s.host ∧ t.treads = s.treads ∧ t.halls = s.halls ∧ t.grid = s.grid ∧ t.atr = s.atr ∧ t.treadsOld = s.treadsOld ∧ t.meas = s.meas ∧ t.safe = s.safe ∧ t.therm = s.therm ∧ t.twin = s.twin ∧ t.stair = s.stair ∧ t.nvm = s.nvm ∧ t.streams = s.streams ∧ t.mem = s.mem := by
  unfold execSafeSet at h; cases h; (try dsimp only); (repeat' split) <;> simp [apply_ite]

theorem execSafeRequest_frame (a0 : List Word) (s t : State) (h : execSafeRequest a0 s = .next t) :
    t.pending = s.pending ∧ t.out = s.out ∧ t.freeCtr = s.freeCtr ∧ t.aon = s.aon ∧ t.pend = s.pend ∧ t.tb = s.tb ∧ t.events = s.events ∧ t.host = s.host ∧ t.treads = s.treads ∧ t.halls = s.halls ∧ t.grid = s.grid ∧ t.atr = s.atr ∧ t.treadsOld = s.treadsOld ∧ t.meas = s.meas ∧ t.safe = s.safe ∧ t.therm = s.therm ∧ t.twin = s.twin ∧ t.stair = s.stair ∧ t.nvm = s.nvm ∧ t.streams = s.streams ∧ t.mem = s.mem := by
  unfold execSafeRequest at h; cases h; (try dsimp only); (repeat' split) <;> simp [apply_ite]

theorem execCellBypass_frame (a0 : Fin 64) (a1 : List Word) (s t : State) (h : execCellBypass a0 a1 s = .next t) :
    t.pending = s.pending ∧ t.out = s.out ∧ t.freeCtr = s.freeCtr ∧ t.aon = s.aon ∧ t.cfg = s.cfg ∧ t.pend = s.pend ∧ t.tb = s.tb ∧ t.events = s.events ∧ t.host = s.host ∧ t.treads = s.treads ∧ t.halls = s.halls ∧ t.grid = s.grid ∧ t.atr = s.atr ∧ t.treadsOld = s.treadsOld ∧ t.meas = s.meas ∧ t.safe = s.safe ∧ t.therm = s.therm ∧ t.twin = s.twin ∧ t.stair = s.stair ∧ t.nvm = s.nvm ∧ t.streams = s.streams ∧ t.mem = s.mem := by
  unfold execCellBypass at h; cases h
  refine ⟨?_, ?_, ?_, ?_, ?_, ?_, ?_, ?_, ?_, ?_, ?_, ?_, ?_, ?_, ?_, ?_, ?_, ?_, ?_, ?_, ?_, ?_⟩
  · repeat' (first | (simp [apply_ite State.pending]; done) | with_reducible refine (each_keep State.pending _ _ _ (fun _ _ => ?_)).trans ?_ | with_reducible refine command_keep State.pending _ _ _ (fun _ => ?_) (fun _ => ?_) | split)
  · repeat' (first | (simp [apply_ite State.out]; done) | with_reducible refine (each_keep State.out _ _ _ (fun _ _ => ?_)).trans ?_ | with_reducible refine command_keep State.out _ _ _ (fun _ => ?_) (fun _ => ?_) | split)
  · repeat' (first | (simp [apply_ite State.freeCtr]; done) | with_reducible refine (each_keep State.freeCtr _ _ _ (fun _ _ => ?_)).trans ?_ | with_reducible refine command_keep State.freeCtr _ _ _ (fun _ => ?_) (fun _ => ?_) | split)
  · repeat' (first | (simp [apply_ite State.aon]; done) | with_reducible refine (each_keep State.aon _ _ _ (fun _ _ => ?_)).trans ?_ | with_reducible refine command_keep State.aon _ _ _ (fun _ => ?_) (fun _ => ?_) | split)
  · repeat' (first | (simp [apply_ite State.cfg]; done) | with_reducible refine (each_keep State.cfg _ _ _ (fun _ _ => ?_)).trans ?_ | with_reducible refine command_keep State.cfg _ _ _ (fun _ => ?_) (fun _ => ?_) | split)
  · repeat' (first | (simp [apply_ite State.pend]; done) | with_reducible refine (each_keep State.pend _ _ _ (fun _ _ => ?_)).trans ?_ | with_reducible refine command_keep State.pend _ _ _ (fun _ => ?_) (fun _ => ?_) | split)
  · repeat' (first | (simp [apply_ite State.tb]; done) | with_reducible refine (each_keep State.tb _ _ _ (fun _ _ => ?_)).trans ?_ | with_reducible refine command_keep State.tb _ _ _ (fun _ => ?_) (fun _ => ?_) | split)
  · repeat' (first | (simp [apply_ite State.events]; done) | with_reducible refine (each_keep State.events _ _ _ (fun _ _ => ?_)).trans ?_ | with_reducible refine command_keep State.events _ _ _ (fun _ => ?_) (fun _ => ?_) | split)
  · repeat' (first | (simp [apply_ite State.host]; done) | with_reducible refine (each_keep State.host _ _ _ (fun _ _ => ?_)).trans ?_ | with_reducible refine command_keep State.host _ _ _ (fun _ => ?_) (fun _ => ?_) | split)
  · repeat' (first | (simp [apply_ite State.treads]; done) | with_reducible refine (each_keep State.treads _ _ _ (fun _ _ => ?_)).trans ?_ | with_reducible refine command_keep State.treads _ _ _ (fun _ => ?_) (fun _ => ?_) | split)
  · repeat' (first | (simp [apply_ite State.halls]; done) | with_reducible refine (each_keep State.halls _ _ _ (fun _ _ => ?_)).trans ?_ | with_reducible refine command_keep State.halls _ _ _ (fun _ => ?_) (fun _ => ?_) | split)
  · repeat' (first | (simp [apply_ite State.grid]; done) | with_reducible refine (each_keep State.grid _ _ _ (fun _ _ => ?_)).trans ?_ | with_reducible refine command_keep State.grid _ _ _ (fun _ => ?_) (fun _ => ?_) | split)
  · repeat' (first | (simp [apply_ite State.atr]; done) | with_reducible refine (each_keep State.atr _ _ _ (fun _ _ => ?_)).trans ?_ | with_reducible refine command_keep State.atr _ _ _ (fun _ => ?_) (fun _ => ?_) | split)
  · repeat' (first | (simp [apply_ite State.treadsOld]; done) | with_reducible refine (each_keep State.treadsOld _ _ _ (fun _ _ => ?_)).trans ?_ | with_reducible refine command_keep State.treadsOld _ _ _ (fun _ => ?_) (fun _ => ?_) | split)
  · repeat' (first | (simp [apply_ite State.meas]; done) | with_reducible refine (each_keep State.meas _ _ _ (fun _ _ => ?_)).trans ?_ | with_reducible refine command_keep State.meas _ _ _ (fun _ => ?_) (fun _ => ?_) | split)
  · repeat' (first | (simp [apply_ite State.safe]; done) | with_reducible refine (each_keep State.safe _ _ _ (fun _ _ => ?_)).trans ?_ | with_reducible refine command_keep State.safe _ _ _ (fun _ => ?_) (fun _ => ?_) | split)
  · repeat' (first | (simp [apply_ite State.therm]; done) | with_reducible refine (each_keep State.therm _ _ _ (fun _ _ => ?_)).trans ?_ | with_reducible refine command_keep State.therm _ _ _ (fun _ => ?_) (fun _ => ?_) | split)
  · repeat' (first | (simp [apply_ite State.twin]; done) | with_reducible refine (each_keep State.twin _ _ _ (fun _ _ => ?_)).trans ?_ | with_reducible refine command_keep State.twin _ _ _ (fun _ => ?_) (fun _ => ?_) | split)
  · repeat' (first | (simp [apply_ite State.stair]; done) | with_reducible refine (each_keep State.stair _ _ _ (fun _ _ => ?_)).trans ?_ | with_reducible refine command_keep State.stair _ _ _ (fun _ => ?_) (fun _ => ?_) | split)
  · repeat' (first | (simp [apply_ite State.nvm]; done) | with_reducible refine (each_keep State.nvm _ _ _ (fun _ _ => ?_)).trans ?_ | with_reducible refine command_keep State.nvm _ _ _ (fun _ => ?_) (fun _ => ?_) | split)
  · repeat' (first | (simp [apply_ite State.streams]; done) | with_reducible refine (each_keep State.streams _ _ _ (fun _ _ => ?_)).trans ?_ | with_reducible refine command_keep State.streams _ _ _ (fun _ => ?_) (fun _ => ?_) | split)
  · repeat' (first | (simp [apply_ite State.mem]; done) | with_reducible refine (each_keep State.mem _ _ _ (fun _ _ => ?_)).trans ?_ | with_reducible refine command_keep State.mem _ _ _ (fun _ => ?_) (fun _ => ?_) | split)

theorem execCellRestore_frame (a0 : Fin 64) (a1 : List Word) (s t : State) (h : execCellRestore a0 a1 s = .next t) :
    t.pending = s.pending ∧ t.out = s.out ∧ t.freeCtr = s.freeCtr ∧ t.aon = s.aon ∧ t.cfg = s.cfg ∧ t.pend = s.pend ∧ t.tb = s.tb ∧ t.events = s.events ∧ t.host = s.host ∧ t.treads = s.treads ∧ t.flights = s.flights ∧ t.halls = s.halls ∧ t.grid = s.grid ∧ t.atr = s.atr ∧ t.treadsOld = s.treadsOld ∧ t.meas = s.meas ∧ t.safe = s.safe ∧ t.therm = s.therm ∧ t.twin = s.twin ∧ t.stair = s.stair ∧ t.nvm = s.nvm ∧ t.streams = s.streams ∧ t.mem = s.mem := by
  unfold execCellRestore at h; cases h; (try dsimp only); (repeat' split) <;> simp [apply_ite]

@[simp] theorem restoreEnds_frame (a0 : Nat) (s : State) :
    (restoreEnds a0 s).pending = s.pending ∧ (restoreEnds a0 s).reply = s.reply ∧ (restoreEnds a0 s).out = s.out ∧ (restoreEnds a0 s).freeCtr = s.freeCtr ∧ (restoreEnds a0 s).aon = s.aon ∧ (restoreEnds a0 s).cfg = s.cfg ∧ (restoreEnds a0 s).pend = s.pend ∧ (restoreEnds a0 s).tb = s.tb ∧ (restoreEnds a0 s).events = s.events ∧ (restoreEnds a0 s).host = s.host ∧ (restoreEnds a0 s).treads = s.treads ∧ (restoreEnds a0 s).flights = s.flights ∧ (restoreEnds a0 s).halls = s.halls ∧ (restoreEnds a0 s).grid = s.grid ∧ (restoreEnds a0 s).atr = s.atr ∧ (restoreEnds a0 s).treadsOld = s.treadsOld ∧ (restoreEnds a0 s).meas = s.meas ∧ (restoreEnds a0 s).safe = s.safe ∧ (restoreEnds a0 s).therm = s.therm ∧ (restoreEnds a0 s).twin = s.twin ∧ (restoreEnds a0 s).stair = s.stair ∧ (restoreEnds a0 s).nvm = s.nvm ∧ (restoreEnds a0 s).streams = s.streams ∧ (restoreEnds a0 s).mem = s.mem := by
  unfold restoreEnds
  (try dsimp only)
  (repeat' split) <;> simp [apply_ite]

@[simp] theorem restoreFail_frame (a0 : Nat) (s : State) :
    (restoreFail a0 s).pending = s.pending ∧ (restoreFail a0 s).reply = s.reply ∧ (restoreFail a0 s).freeCtr = s.freeCtr ∧ (restoreFail a0 s).cfg = s.cfg ∧ (restoreFail a0 s).pend = s.pend ∧ (restoreFail a0 s).tb = s.tb ∧ (restoreFail a0 s).treads = s.treads ∧ (restoreFail a0 s).flights = s.flights ∧ (restoreFail a0 s).halls = s.halls ∧ (restoreFail a0 s).grid = s.grid ∧ (restoreFail a0 s).treadsOld = s.treadsOld ∧ (restoreFail a0 s).meas = s.meas ∧ (restoreFail a0 s).safe = s.safe ∧ (restoreFail a0 s).therm = s.therm ∧ (restoreFail a0 s).twin = s.twin ∧ (restoreFail a0 s).stair = s.stair ∧ (restoreFail a0 s).nvm = s.nvm ∧ (restoreFail a0 s).streams = s.streams ∧ (restoreFail a0 s).mem = s.mem := by
  unfold restoreFail
  (try dsimp only)
  (repeat' split) <;> simp [apply_ite]

theorem execRestoreTimeout_frame (a0 : Fin 63) (s t : State) (h : execRestoreTimeout a0 s = .next t) :
    t.pending = s.pending ∧ t.reply = s.reply ∧ t.freeCtr = s.freeCtr ∧ t.cfg = s.cfg ∧ t.pend = s.pend ∧ t.treads = s.treads ∧ t.flights = s.flights ∧ t.halls = s.halls ∧ t.grid = s.grid ∧ t.treadsOld = s.treadsOld ∧ t.meas = s.meas ∧ t.safe = s.safe ∧ t.therm = s.therm ∧ t.twin = s.twin ∧ t.stair = s.stair ∧ t.nvm = s.nvm ∧ t.streams = s.streams ∧ t.mem = s.mem := by
  unfold execRestoreTimeout at h; cases h; (try dsimp only); (repeat' split) <;> simp [apply_ite]

theorem execRetryTimeout_frame (a0 : Fin 63) (s t : State) (h : execRetryTimeout a0 s = .next t) :
    t.pending = s.pending ∧ t.reply = s.reply ∧ t.freeCtr = s.freeCtr ∧ t.cfg = s.cfg ∧ t.pend = s.pend ∧ t.treads = s.treads ∧ t.halls = s.halls ∧ t.grid = s.grid ∧ t.treadsOld = s.treadsOld ∧ t.meas = s.meas ∧ t.therm = s.therm ∧ t.twin = s.twin ∧ t.stair = s.stair ∧ t.streams = s.streams ∧ t.mem = s.mem := by
  unfold execRetryTimeout at h; cases h; (try dsimp only); (repeat' split) <;> simp [apply_ite]

theorem execDerateTimeout_frame (a0 : Fin 63) (s t : State) (h : execDerateTimeout a0 s = .next t) :
    t.pending = s.pending ∧ t.reply = s.reply ∧ t.freeCtr = s.freeCtr ∧ t.cfg = s.cfg ∧ t.pend = s.pend ∧ t.treads = s.treads ∧ t.halls = s.halls ∧ t.grid = s.grid ∧ t.treadsOld = s.treadsOld ∧ t.meas = s.meas ∧ t.therm = s.therm ∧ t.twin = s.twin ∧ t.stair = s.stair ∧ t.streams = s.streams ∧ t.mem = s.mem := by
  unfold execDerateTimeout at h; cases h; (try dsimp only); (repeat' split) <;> simp [apply_ite]

@[simp] theorem setLane_frame (a0 : Nat) (a1 : Lane → Lane) (s : State) :
    (setLane a0 a1 s).pending = s.pending ∧ (setLane a0 a1 s).reply = s.reply ∧ (setLane a0 a1 s).out = s.out ∧ (setLane a0 a1 s).freeCtr = s.freeCtr ∧ (setLane a0 a1 s).aon = s.aon ∧ (setLane a0 a1 s).cfg = s.cfg ∧ (setLane a0 a1 s).pend = s.pend ∧ (setLane a0 a1 s).tb = s.tb ∧ (setLane a0 a1 s).events = s.events ∧ (setLane a0 a1 s).host = s.host ∧ (setLane a0 a1 s).treads = s.treads ∧ (setLane a0 a1 s).cells = s.cells ∧ (setLane a0 a1 s).flights = s.flights ∧ (setLane a0 a1 s).grid = s.grid ∧ (setLane a0 a1 s).treadsOld = s.treadsOld ∧ (setLane a0 a1 s).meas = s.meas ∧ (setLane a0 a1 s).safe = s.safe ∧ (setLane a0 a1 s).therm = s.therm ∧ (setLane a0 a1 s).twin = s.twin ∧ (setLane a0 a1 s).stair = s.stair ∧ (setLane a0 a1 s).nvm = s.nvm ∧ (setLane a0 a1 s).streams = s.streams ∧ (setLane a0 a1 s).mem = s.mem := by
  unfold setLane
  (try dsimp only)
  (repeat' split) <;> simp [apply_ite]

@[simp] theorem placeLanes_frame (a0 : Nat) (s : State) :
    (placeLanes a0 s).pending = s.pending ∧ (placeLanes a0 s).reply = s.reply ∧ (placeLanes a0 s).out = s.out ∧ (placeLanes a0 s).freeCtr = s.freeCtr ∧ (placeLanes a0 s).aon = s.aon ∧ (placeLanes a0 s).cfg = s.cfg ∧ (placeLanes a0 s).pend = s.pend ∧ (placeLanes a0 s).tb = s.tb ∧ (placeLanes a0 s).events = s.events ∧ (placeLanes a0 s).host = s.host ∧ (placeLanes a0 s).treads = s.treads ∧ (placeLanes a0 s).cells = s.cells ∧ (placeLanes a0 s).grid = s.grid ∧ (placeLanes a0 s).atr = s.atr ∧ (placeLanes a0 s).treadsOld = s.treadsOld ∧ (placeLanes a0 s).meas = s.meas ∧ (placeLanes a0 s).safe = s.safe ∧ (placeLanes a0 s).therm = s.therm ∧ (placeLanes a0 s).twin = s.twin ∧ (placeLanes a0 s).stair = s.stair ∧ (placeLanes a0 s).nvm = s.nvm ∧ (placeLanes a0 s).streams = s.streams ∧ (placeLanes a0 s).mem = s.mem := by
  unfold placeLanes
  (try dsimp only)
  (repeat' split) <;> simp [apply_ite]

@[simp] theorem placeAtrium_frame (s : State) :
    (placeAtrium s).pending = s.pending ∧ (placeAtrium s).reply = s.reply ∧ (placeAtrium s).out = s.out ∧ (placeAtrium s).freeCtr = s.freeCtr ∧ (placeAtrium s).aon = s.aon ∧ (placeAtrium s).cfg = s.cfg ∧ (placeAtrium s).pend = s.pend ∧ (placeAtrium s).tb = s.tb ∧ (placeAtrium s).events = s.events ∧ (placeAtrium s).host = s.host ∧ (placeAtrium s).treads = s.treads ∧ (placeAtrium s).cells = s.cells ∧ (placeAtrium s).flights = s.flights ∧ (placeAtrium s).halls = s.halls ∧ (placeAtrium s).grid = s.grid ∧ (placeAtrium s).treadsOld = s.treadsOld ∧ (placeAtrium s).meas = s.meas ∧ (placeAtrium s).safe = s.safe ∧ (placeAtrium s).therm = s.therm ∧ (placeAtrium s).twin = s.twin ∧ (placeAtrium s).stair = s.stair ∧ (placeAtrium s).nvm = s.nvm ∧ (placeAtrium s).streams = s.streams ∧ (placeAtrium s).mem = s.mem := by
  unfold placeAtrium
  (try dsimp only)
  (repeat' split) <;> simp [apply_ite]

@[simp] theorem endSplit_frame (a0 : Nat) (s : State) :
    (endSplit a0 s).pending = s.pending ∧ (endSplit a0 s).reply = s.reply ∧ (endSplit a0 s).out = s.out ∧ (endSplit a0 s).freeCtr = s.freeCtr ∧ (endSplit a0 s).aon = s.aon ∧ (endSplit a0 s).cfg = s.cfg ∧ (endSplit a0 s).pend = s.pend ∧ (endSplit a0 s).tb = s.tb ∧ (endSplit a0 s).events = s.events ∧ (endSplit a0 s).host = s.host ∧ (endSplit a0 s).treads = s.treads ∧ (endSplit a0 s).cells = s.cells ∧ (endSplit a0 s).grid = s.grid ∧ (endSplit a0 s).treadsOld = s.treadsOld ∧ (endSplit a0 s).meas = s.meas ∧ (endSplit a0 s).safe = s.safe ∧ (endSplit a0 s).therm = s.therm ∧ (endSplit a0 s).twin = s.twin ∧ (endSplit a0 s).stair = s.stair ∧ (endSplit a0 s).nvm = s.nvm ∧ (endSplit a0 s).streams = s.streams ∧ (endSplit a0 s).mem = s.mem := by
  unfold endSplit
  (try dsimp only)
  (repeat' split) <;> simp [apply_ite]

@[simp] theorem moveHall_frame (a0 : Nat) (a1 : Nat) (a2 : Nat) (s : State) :
    (moveHall a0 a1 a2 s).pending = s.pending ∧ (moveHall a0 a1 a2 s).reply = s.reply ∧ (moveHall a0 a1 a2 s).out = s.out ∧ (moveHall a0 a1 a2 s).freeCtr = s.freeCtr ∧ (moveHall a0 a1 a2 s).aon = s.aon ∧ (moveHall a0 a1 a2 s).cfg = s.cfg ∧ (moveHall a0 a1 a2 s).pend = s.pend ∧ (moveHall a0 a1 a2 s).tb = s.tb ∧ (moveHall a0 a1 a2 s).events = s.events ∧ (moveHall a0 a1 a2 s).host = s.host ∧ (moveHall a0 a1 a2 s).treads = s.treads ∧ (moveHall a0 a1 a2 s).cells = s.cells ∧ (moveHall a0 a1 a2 s).grid = s.grid ∧ (moveHall a0 a1 a2 s).treadsOld = s.treadsOld ∧ (moveHall a0 a1 a2 s).meas = s.meas ∧ (moveHall a0 a1 a2 s).safe = s.safe ∧ (moveHall a0 a1 a2 s).therm = s.therm ∧ (moveHall a0 a1 a2 s).twin = s.twin ∧ (moveHall a0 a1 a2 s).stair = s.stair ∧ (moveHall a0 a1 a2 s).nvm = s.nvm ∧ (moveHall a0 a1 a2 s).streams = s.streams ∧ (moveHall a0 a1 a2 s).mem = s.mem := by
  unfold moveHall
  (try dsimp only)
  (repeat' split) <;> simp [apply_ite]

@[simp] theorem moveAtrium_frame (a0 : Nat) (a1 : Nat) (s : State) :
    (moveAtrium a0 a1 s).pending = s.pending ∧ (moveAtrium a0 a1 s).reply = s.reply ∧ (moveAtrium a0 a1 s).out = s.out ∧ (moveAtrium a0 a1 s).freeCtr = s.freeCtr ∧ (moveAtrium a0 a1 s).aon = s.aon ∧ (moveAtrium a0 a1 s).cfg = s.cfg ∧ (moveAtrium a0 a1 s).pend = s.pend ∧ (moveAtrium a0 a1 s).tb = s.tb ∧ (moveAtrium a0 a1 s).events = s.events ∧ (moveAtrium a0 a1 s).host = s.host ∧ (moveAtrium a0 a1 s).treads = s.treads ∧ (moveAtrium a0 a1 s).cells = s.cells ∧ (moveAtrium a0 a1 s).flights = s.flights ∧ (moveAtrium a0 a1 s).grid = s.grid ∧ (moveAtrium a0 a1 s).treadsOld = s.treadsOld ∧ (moveAtrium a0 a1 s).meas = s.meas ∧ (moveAtrium a0 a1 s).safe = s.safe ∧ (moveAtrium a0 a1 s).therm = s.therm ∧ (moveAtrium a0 a1 s).twin = s.twin ∧ (moveAtrium a0 a1 s).stair = s.stair ∧ (moveAtrium a0 a1 s).nvm = s.nvm ∧ (moveAtrium a0 a1 s).streams = s.streams ∧ (moveAtrium a0 a1 s).mem = s.mem := by
  unfold moveAtrium
  (try dsimp only)
  (repeat' split) <;> simp [apply_ite]

@[simp] theorem laneFault_frame (a0 : Nat) (s : State) :
    (laneFault a0 s).pending = s.pending ∧ (laneFault a0 s).reply = s.reply ∧ (laneFault a0 s).freeCtr = s.freeCtr ∧ (laneFault a0 s).cfg = s.cfg ∧ (laneFault a0 s).pend = s.pend ∧ (laneFault a0 s).tb = s.tb ∧ (laneFault a0 s).treads = s.treads ∧ (laneFault a0 s).grid = s.grid ∧ (laneFault a0 s).treadsOld = s.treadsOld ∧ (laneFault a0 s).meas = s.meas ∧ (laneFault a0 s).therm = s.therm ∧ (laneFault a0 s).stair = s.stair ∧ (laneFault a0 s).streams = s.streams ∧ (laneFault a0 s).mem = s.mem := by
  unfold laneFault
  (try dsimp only)
  (repeat' split) <;> simp [apply_ite]

@[simp] theorem lanePass_frame (a0 : Nat) (s : State) :
    (lanePass a0 s).pending = s.pending ∧ (lanePass a0 s).reply = s.reply ∧ (lanePass a0 s).out = s.out ∧ (lanePass a0 s).freeCtr = s.freeCtr ∧ (lanePass a0 s).aon = s.aon ∧ (lanePass a0 s).cfg = s.cfg ∧ (lanePass a0 s).pend = s.pend ∧ (lanePass a0 s).tb = s.tb ∧ (lanePass a0 s).events = s.events ∧ (lanePass a0 s).host = s.host ∧ (lanePass a0 s).treads = s.treads ∧ (lanePass a0 s).cells = s.cells ∧ (lanePass a0 s).flights = s.flights ∧ (lanePass a0 s).grid = s.grid ∧ (lanePass a0 s).treadsOld = s.treadsOld ∧ (lanePass a0 s).meas = s.meas ∧ (lanePass a0 s).safe = s.safe ∧ (lanePass a0 s).therm = s.therm ∧ (lanePass a0 s).twin = s.twin ∧ (lanePass a0 s).stair = s.stair ∧ (lanePass a0 s).nvm = s.nvm ∧ (lanePass a0 s).streams = s.streams ∧ (lanePass a0 s).mem = s.mem := by
  unfold lanePass
  (try dsimp only)
  (repeat' split) <;> simp [apply_ite]

theorem execLaneSelfTestDone_frame (a0 : Fin 14) (a1 : Bool) (s t : State) (h : execLaneSelfTestDone a0 a1 s = .next t) :
    t.pending = s.pending ∧ t.reply = s.reply ∧ t.freeCtr = s.freeCtr ∧ t.cfg = s.cfg ∧ t.pend = s.pend ∧ t.tb = s.tb ∧ t.treads = s.treads ∧ t.grid = s.grid ∧ t.treadsOld = s.treadsOld ∧ t.meas = s.meas ∧ t.therm = s.therm ∧ t.stair = s.stair ∧ t.streams = s.streams ∧ t.mem = s.mem := by
  unfold execLaneSelfTestDone at h; cases h; (try dsimp only); (repeat' split) <;> simp [apply_ite]

theorem execSpareSelfTest_frame (a0 : Fin 14) (a1 : Bool) (s t : State) (h : execSpareSelfTest a0 a1 s = .next t) :
    t.pending = s.pending ∧ t.reply = s.reply ∧ t.freeCtr = s.freeCtr ∧ t.cfg = s.cfg ∧ t.pend = s.pend ∧ t.tb = s.tb ∧ t.treads = s.treads ∧ t.grid = s.grid ∧ t.treadsOld = s.treadsOld ∧ t.meas = s.meas ∧ t.therm = s.therm ∧ t.stair = s.stair ∧ t.streams = s.streams ∧ t.mem = s.mem := by
  unfold execSpareSelfTest at h; cases h; (try dsimp only); (repeat' split) <;> simp [apply_ite]

@[simp] theorem mismatchTests_frame (a0 : Nat) (a1 : Nat) (s : State) :
    (mismatchTests a0 a1 s).pending = s.pending ∧ (mismatchTests a0 a1 s).reply = s.reply ∧ (mismatchTests a0 a1 s).out = s.out ∧ (mismatchTests a0 a1 s).freeCtr = s.freeCtr ∧ (mismatchTests a0 a1 s).aon = s.aon ∧ (mismatchTests a0 a1 s).cfg = s.cfg ∧ (mismatchTests a0 a1 s).pend = s.pend ∧ (mismatchTests a0 a1 s).tb = s.tb ∧ (mismatchTests a0 a1 s).events = s.events ∧ (mismatchTests a0 a1 s).host = s.host ∧ (mismatchTests a0 a1 s).treads = s.treads ∧ (mismatchTests a0 a1 s).cells = s.cells ∧ (mismatchTests a0 a1 s).flights = s.flights ∧ (mismatchTests a0 a1 s).grid = s.grid ∧ (mismatchTests a0 a1 s).treadsOld = s.treadsOld ∧ (mismatchTests a0 a1 s).meas = s.meas ∧ (mismatchTests a0 a1 s).safe = s.safe ∧ (mismatchTests a0 a1 s).therm = s.therm ∧ (mismatchTests a0 a1 s).twin = s.twin ∧ (mismatchTests a0 a1 s).stair = s.stair ∧ (mismatchTests a0 a1 s).nvm = s.nvm ∧ (mismatchTests a0 a1 s).streams = s.streams ∧ (mismatchTests a0 a1 s).mem = s.mem := by
  unfold mismatchTests
  (try dsimp only)
  (repeat' split) <;> simp [apply_ite]

@[simp] theorem countMiss_frame (a0 : Nat) (s : State) :
    (countMiss a0 s).pending = s.pending ∧ (countMiss a0 s).reply = s.reply ∧ (countMiss a0 s).out = s.out ∧ (countMiss a0 s).freeCtr = s.freeCtr ∧ (countMiss a0 s).aon = s.aon ∧ (countMiss a0 s).cfg = s.cfg ∧ (countMiss a0 s).pend = s.pend ∧ (countMiss a0 s).tb = s.tb ∧ (countMiss a0 s).events = s.events ∧ (countMiss a0 s).host = s.host ∧ (countMiss a0 s).treads = s.treads ∧ (countMiss a0 s).cells = s.cells ∧ (countMiss a0 s).flights = s.flights ∧ (countMiss a0 s).grid = s.grid ∧ (countMiss a0 s).treadsOld = s.treadsOld ∧ (countMiss a0 s).meas = s.meas ∧ (countMiss a0 s).safe = s.safe ∧ (countMiss a0 s).therm = s.therm ∧ (countMiss a0 s).twin = s.twin ∧ (countMiss a0 s).stair = s.stair ∧ (countMiss a0 s).nvm = s.nvm ∧ (countMiss a0 s).streams = s.streams ∧ (countMiss a0 s).mem = s.mem := by
  unfold countMiss
  (try dsimp only)
  (repeat' split) <;> simp [apply_ite]

@[simp] theorem setSlack_frame (a0 : Nat) (a1 : Rat) (s : State) :
    (setSlack a0 a1 s).pending = s.pending ∧ (setSlack a0 a1 s).reply = s.reply ∧ (setSlack a0 a1 s).out = s.out ∧ (setSlack a0 a1 s).freeCtr = s.freeCtr ∧ (setSlack a0 a1 s).aon = s.aon ∧ (setSlack a0 a1 s).cfg = s.cfg ∧ (setSlack a0 a1 s).pend = s.pend ∧ (setSlack a0 a1 s).tb = s.tb ∧ (setSlack a0 a1 s).events = s.events ∧ (setSlack a0 a1 s).host = s.host ∧ (setSlack a0 a1 s).treads = s.treads ∧ (setSlack a0 a1 s).cells = s.cells ∧ (setSlack a0 a1 s).flights = s.flights ∧ (setSlack a0 a1 s).grid = s.grid ∧ (setSlack a0 a1 s).treadsOld = s.treadsOld ∧ (setSlack a0 a1 s).meas = s.meas ∧ (setSlack a0 a1 s).safe = s.safe ∧ (setSlack a0 a1 s).therm = s.therm ∧ (setSlack a0 a1 s).twin = s.twin ∧ (setSlack a0 a1 s).stair = s.stair ∧ (setSlack a0 a1 s).nvm = s.nvm ∧ (setSlack a0 a1 s).streams = s.streams ∧ (setSlack a0 a1 s).mem = s.mem := by
  unfold setSlack
  (try dsimp only)
  (repeat' split) <;> simp [apply_ite]

@[simp] theorem slackEvent_frame (a0 : List Nat) (s : State) :
    (slackEvent a0 s).pending = s.pending ∧ (slackEvent a0 s).reply = s.reply ∧ (slackEvent a0 s).freeCtr = s.freeCtr ∧ (slackEvent a0 s).cfg = s.cfg ∧ (slackEvent a0 s).pend = s.pend ∧ (slackEvent a0 s).tb = s.tb ∧ (slackEvent a0 s).treads = s.treads ∧ (slackEvent a0 s).cells = s.cells ∧ (slackEvent a0 s).flights = s.flights ∧ (slackEvent a0 s).halls = s.halls ∧ (slackEvent a0 s).grid = s.grid ∧ (slackEvent a0 s).treadsOld = s.treadsOld ∧ (slackEvent a0 s).meas = s.meas ∧ (slackEvent a0 s).safe = s.safe ∧ (slackEvent a0 s).therm = s.therm ∧ (slackEvent a0 s).twin = s.twin ∧ (slackEvent a0 s).stair = s.stair ∧ (slackEvent a0 s).nvm = s.nvm ∧ (slackEvent a0 s).streams = s.streams ∧ (slackEvent a0 s).mem = s.mem := by
  unfold slackEvent
  (try dsimp only)
  (repeat' split) <;> simp [apply_ite]

@[simp] theorem setStream_frame (a0 : Nat) (a1 : Stream → Stream) (s : State) :
    (setStream a0 a1 s).pending = s.pending ∧ (setStream a0 a1 s).reply = s.reply ∧ (setStream a0 a1 s).out = s.out ∧ (setStream a0 a1 s).freeCtr = s.freeCtr ∧ (setStream a0 a1 s).aon = s.aon ∧ (setStream a0 a1 s).cfg = s.cfg ∧ (setStream a0 a1 s).pend = s.pend ∧ (setStream a0 a1 s).tb = s.tb ∧ (setStream a0 a1 s).events = s.events ∧ (setStream a0 a1 s).host = s.host ∧ (setStream a0 a1 s).treads = s.treads ∧ (setStream a0 a1 s).cells = s.cells ∧ (setStream a0 a1 s).flights = s.flights ∧ (setStream a0 a1 s).halls = s.halls ∧ (setStream a0 a1 s).grid = s.grid ∧ (setStream a0 a1 s).atr = s.atr ∧ (setStream a0 a1 s).treadsOld = s.treadsOld ∧ (setStream a0 a1 s).meas = s.meas ∧ (setStream a0 a1 s).safe = s.safe ∧ (setStream a0 a1 s).therm = s.therm ∧ (setStream a0 a1 s).twin = s.twin ∧ (setStream a0 a1 s).stair = s.stair ∧ (setStream a0 a1 s).nvm = s.nvm ∧ (setStream a0 a1 s).mem = s.mem := by
  unfold setStream
  (try dsimp only)
  (repeat' split) <;> simp [apply_ite]

@[simp] theorem streamWrite_frame (a0 : Nat) (a1 : List Word) (s : State) :
    (streamWrite a0 a1 s).pending = s.pending ∧ (streamWrite a0 a1 s).reply = s.reply ∧ (streamWrite a0 a1 s).out = s.out ∧ (streamWrite a0 a1 s).freeCtr = s.freeCtr ∧ (streamWrite a0 a1 s).aon = s.aon ∧ (streamWrite a0 a1 s).pend = s.pend ∧ (streamWrite a0 a1 s).tb = s.tb ∧ (streamWrite a0 a1 s).events = s.events ∧ (streamWrite a0 a1 s).host = s.host ∧ (streamWrite a0 a1 s).treads = s.treads ∧ (streamWrite a0 a1 s).cells = s.cells ∧ (streamWrite a0 a1 s).flights = s.flights ∧ (streamWrite a0 a1 s).halls = s.halls ∧ (streamWrite a0 a1 s).grid = s.grid ∧ (streamWrite a0 a1 s).atr = s.atr ∧ (streamWrite a0 a1 s).treadsOld = s.treadsOld ∧ (streamWrite a0 a1 s).meas = s.meas ∧ (streamWrite a0 a1 s).safe = s.safe ∧ (streamWrite a0 a1 s).therm = s.therm ∧ (streamWrite a0 a1 s).twin = s.twin ∧ (streamWrite a0 a1 s).stair = s.stair ∧ (streamWrite a0 a1 s).nvm = s.nvm ∧ (streamWrite a0 a1 s).streams = s.streams ∧ (streamWrite a0 a1 s).mem = s.mem := by
  unfold streamWrite
  (try dsimp only)
  (repeat' split) <;> simp [apply_ite]

theorem execStreamSet_frame (a0 : List Word) (s t : State) (h : execStreamSet a0 s = .next t) :
    t.pending = s.pending ∧ t.out = s.out ∧ t.freeCtr = s.freeCtr ∧ t.aon = s.aon ∧ t.pend = s.pend ∧ t.tb = s.tb ∧ t.events = s.events ∧ t.host = s.host ∧ t.treads = s.treads ∧ t.cells = s.cells ∧ t.flights = s.flights ∧ t.halls = s.halls ∧ t.grid = s.grid ∧ t.atr = s.atr ∧ t.treadsOld = s.treadsOld ∧ t.meas = s.meas ∧ t.safe = s.safe ∧ t.therm = s.therm ∧ t.twin = s.twin ∧ t.stair = s.stair ∧ t.nvm = s.nvm ∧ t.streams = s.streams ∧ t.mem = s.mem := by
  unfold execStreamSet at h; cases h
  refine ⟨?_, ?_, ?_, ?_, ?_, ?_, ?_, ?_, ?_, ?_, ?_, ?_, ?_, ?_, ?_, ?_, ?_, ?_, ?_, ?_, ?_, ?_, ?_⟩
  · refine command_pending _ _ _ fun s => ?_
    (try dsimp only); (repeat' split) <;> simp
  · refine command_out _ _ _ fun s => ?_
    (try dsimp only); (repeat' split) <;> simp
  · refine command_freeCtr _ _ _ fun s => ?_
    (try dsimp only); (repeat' split) <;> simp
  · refine command_aon _ _ _ fun s => ?_
    (try dsimp only); (repeat' split) <;> simp
  · refine command_pend _ _ _ fun s => ?_
    (try dsimp only); (repeat' split) <;> simp
  · refine command_tb _ _ _ fun s => ?_
    (try dsimp only); (repeat' split) <;> simp
  · refine command_events _ _ _ fun s => ?_
    (try dsimp only); (repeat' split) <;> simp
  · refine command_host _ _ _ fun s => ?_
    (try dsimp only); (repeat' split) <;> simp
  · refine command_treads _ _ _ fun s => ?_
    (try dsimp only); (repeat' split) <;> simp
  · refine command_cells _ _ _ fun s => ?_
    (try dsimp only); (repeat' split) <;> simp
  · refine command_flights _ _ _ fun s => ?_
    (try dsimp only); (repeat' split) <;> simp
  · refine command_halls _ _ _ fun s => ?_
    (try dsimp only); (repeat' split) <;> simp
  · refine command_grid _ _ _ fun s => ?_
    (try dsimp only); (repeat' split) <;> simp
  · refine command_atr _ _ _ fun s => ?_
    (try dsimp only); (repeat' split) <;> simp
  · refine command_treadsOld _ _ _ fun s => ?_
    (try dsimp only); (repeat' split) <;> simp
  · refine command_meas _ _ _ fun s => ?_
    (try dsimp only); (repeat' split) <;> simp
  · refine command_safe _ _ _ fun s => ?_
    (try dsimp only); (repeat' split) <;> simp
  · refine command_therm _ _ _ fun s => ?_
    (try dsimp only); (repeat' split) <;> simp
  · refine command_twin _ _ _ fun s => ?_
    (try dsimp only); (repeat' split) <;> simp
  · refine command_stair _ _ _ fun s => ?_
    (try dsimp only); (repeat' split) <;> simp
  · refine command_nvm _ _ _ fun s => ?_
    (try dsimp only); (repeat' split) <;> simp
  · refine command_streams _ _ _ fun s => ?_
    (try dsimp only); (repeat' split) <;> simp
  · refine command_mem _ _ _ fun s => ?_
    (try dsimp only); (repeat' split) <;> simp

@[simp] theorem askRemote_frame (a0 : Fin 8) (a1 : Bool) (a2 : Nat) (s : State) :
    (askRemote a0 a1 a2 s).pending = s.pending ∧ (askRemote a0 a1 a2 s).reply = s.reply ∧ (askRemote a0 a1 a2 s).freeCtr = s.freeCtr ∧ (askRemote a0 a1 a2 s).aon = s.aon ∧ (askRemote a0 a1 a2 s).cfg = s.cfg ∧ (askRemote a0 a1 a2 s).pend = s.pend ∧ (askRemote a0 a1 a2 s).tb = s.tb ∧ (askRemote a0 a1 a2 s).events = s.events ∧ (askRemote a0 a1 a2 s).host = s.host ∧ (askRemote a0 a1 a2 s).treads = s.treads ∧ (askRemote a0 a1 a2 s).cells = s.cells ∧ (askRemote a0 a1 a2 s).flights = s.flights ∧ (askRemote a0 a1 a2 s).halls = s.halls ∧ (askRemote a0 a1 a2 s).grid = s.grid ∧ (askRemote a0 a1 a2 s).atr = s.atr ∧ (askRemote a0 a1 a2 s).treadsOld = s.treadsOld ∧ (askRemote a0 a1 a2 s).meas = s.meas ∧ (askRemote a0 a1 a2 s).safe = s.safe ∧ (askRemote a0 a1 a2 s).therm = s.therm ∧ (askRemote a0 a1 a2 s).twin = s.twin ∧ (askRemote a0 a1 a2 s).stair = s.stair ∧ (askRemote a0 a1 a2 s).nvm = s.nvm ∧ (askRemote a0 a1 a2 s).streams = s.streams ∧ (askRemote a0 a1 a2 s).mem = s.mem := by
  unfold askRemote
  (try dsimp only)
  (repeat' split) <;> simp [apply_ite]

@[simp] theorem telemSample_frame (a0 : Nat) (a1 : State) (s : State) :
    (telemSample a0 a1 s).pending = s.pending ∧ (telemSample a0 a1 s).reply = s.reply ∧ (telemSample a0 a1 s).freeCtr = s.freeCtr ∧ (telemSample a0 a1 s).aon = s.aon ∧ (telemSample a0 a1 s).cfg = s.cfg ∧ (telemSample a0 a1 s).pend = s.pend ∧ (telemSample a0 a1 s).tb = s.tb ∧ (telemSample a0 a1 s).events = s.events ∧ (telemSample a0 a1 s).host = s.host ∧ (telemSample a0 a1 s).treads = s.treads ∧ (telemSample a0 a1 s).cells = s.cells ∧ (telemSample a0 a1 s).flights = s.flights ∧ (telemSample a0 a1 s).halls = s.halls ∧ (telemSample a0 a1 s).grid = s.grid ∧ (telemSample a0 a1 s).atr = s.atr ∧ (telemSample a0 a1 s).treadsOld = s.treadsOld ∧ (telemSample a0 a1 s).meas = s.meas ∧ (telemSample a0 a1 s).safe = s.safe ∧ (telemSample a0 a1 s).therm = s.therm ∧ (telemSample a0 a1 s).twin = s.twin ∧ (telemSample a0 a1 s).nvm = s.nvm ∧ (telemSample a0 a1 s).streams = s.streams ∧ (telemSample a0 a1 s).mem = s.mem := by
  unfold telemSample
  (try dsimp only)
  (repeat' split) <;> simp [apply_ite]

theorem execStreamEnable_frame (a0 : List Word) (s t : State) (h : execStreamEnable a0 s = .next t) :
    t.pending = s.pending ∧ t.freeCtr = s.freeCtr ∧ t.aon = s.aon ∧ t.cfg = s.cfg ∧ t.pend = s.pend ∧ t.tb = s.tb ∧ t.events = s.events ∧ t.host = s.host ∧ t.treads = s.treads ∧ t.cells = s.cells ∧ t.flights = s.flights ∧ t.halls = s.halls ∧ t.grid = s.grid ∧ t.atr = s.atr ∧ t.treadsOld = s.treadsOld ∧ t.meas = s.meas ∧ t.safe = s.safe ∧ t.therm = s.therm ∧ t.twin = s.twin ∧ t.stair = s.stair ∧ t.nvm = s.nvm ∧ t.mem = s.mem := by
  unfold execStreamEnable at h; cases h; (try dsimp only); (repeat' split) <;> simp [apply_ite]

@[simp] theorem streamSample_frame (a0 : Nat) (a1 : BitVec 16) (a2 : State) (s : State) :
    (streamSample a0 a1 a2 s).pending = s.pending ∧ (streamSample a0 a1 a2 s).reply = s.reply ∧ (streamSample a0 a1 a2 s).out = s.out ∧ (streamSample a0 a1 a2 s).freeCtr = s.freeCtr ∧ (streamSample a0 a1 a2 s).aon = s.aon ∧ (streamSample a0 a1 a2 s).cfg = s.cfg ∧ (streamSample a0 a1 a2 s).pend = s.pend ∧ (streamSample a0 a1 a2 s).tb = s.tb ∧ (streamSample a0 a1 a2 s).events = s.events ∧ (streamSample a0 a1 a2 s).host = s.host ∧ (streamSample a0 a1 a2 s).treads = s.treads ∧ (streamSample a0 a1 a2 s).cells = s.cells ∧ (streamSample a0 a1 a2 s).flights = s.flights ∧ (streamSample a0 a1 a2 s).halls = s.halls ∧ (streamSample a0 a1 a2 s).grid = s.grid ∧ (streamSample a0 a1 a2 s).atr = s.atr ∧ (streamSample a0 a1 a2 s).treadsOld = s.treadsOld ∧ (streamSample a0 a1 a2 s).meas = s.meas ∧ (streamSample a0 a1 a2 s).safe = s.safe ∧ (streamSample a0 a1 a2 s).therm = s.therm ∧ (streamSample a0 a1 a2 s).twin = s.twin ∧ (streamSample a0 a1 a2 s).stair = s.stair ∧ (streamSample a0 a1 a2 s).nvm = s.nvm ∧ (streamSample a0 a1 a2 s).mem = s.mem := by
  unfold streamSample; (try dsimp only)
  refine ⟨?_, ?_, ?_, ?_, ?_, ?_, ?_, ?_, ?_, ?_, ?_, ?_, ?_, ?_, ?_, ?_, ?_, ?_, ?_, ?_, ?_, ?_, ?_, ?_⟩
  · repeat' (first | (simp [apply_ite State.pending]; done) | with_reducible refine (each_keep State.pending _ _ _ (fun _ _ => ?_)).trans ?_ | with_reducible refine command_keep State.pending _ _ _ (fun _ => ?_) (fun _ => ?_) | split)
  · repeat' (first | (simp [apply_ite State.reply]; done) | with_reducible refine (each_keep State.reply _ _ _ (fun _ _ => ?_)).trans ?_ | with_reducible refine command_keep State.reply _ _ _ (fun _ => ?_) (fun _ => ?_) | split)
  · repeat' (first | (simp [apply_ite State.out]; done) | with_reducible refine (each_keep State.out _ _ _ (fun _ _ => ?_)).trans ?_ | with_reducible refine command_keep State.out _ _ _ (fun _ => ?_) (fun _ => ?_) | split)
  · repeat' (first | (simp [apply_ite State.freeCtr]; done) | with_reducible refine (each_keep State.freeCtr _ _ _ (fun _ _ => ?_)).trans ?_ | with_reducible refine command_keep State.freeCtr _ _ _ (fun _ => ?_) (fun _ => ?_) | split)
  · repeat' (first | (simp [apply_ite State.aon]; done) | with_reducible refine (each_keep State.aon _ _ _ (fun _ _ => ?_)).trans ?_ | with_reducible refine command_keep State.aon _ _ _ (fun _ => ?_) (fun _ => ?_) | split)
  · repeat' (first | (simp [apply_ite State.cfg]; done) | with_reducible refine (each_keep State.cfg _ _ _ (fun _ _ => ?_)).trans ?_ | with_reducible refine command_keep State.cfg _ _ _ (fun _ => ?_) (fun _ => ?_) | split)
  · repeat' (first | (simp [apply_ite State.pend]; done) | with_reducible refine (each_keep State.pend _ _ _ (fun _ _ => ?_)).trans ?_ | with_reducible refine command_keep State.pend _ _ _ (fun _ => ?_) (fun _ => ?_) | split)
  · repeat' (first | (simp [apply_ite State.tb]; done) | with_reducible refine (each_keep State.tb _ _ _ (fun _ _ => ?_)).trans ?_ | with_reducible refine command_keep State.tb _ _ _ (fun _ => ?_) (fun _ => ?_) | split)
  · repeat' (first | (simp [apply_ite State.events]; done) | with_reducible refine (each_keep State.events _ _ _ (fun _ _ => ?_)).trans ?_ | with_reducible refine command_keep State.events _ _ _ (fun _ => ?_) (fun _ => ?_) | split)
  · repeat' (first | (simp [apply_ite State.host]; done) | with_reducible refine (each_keep State.host _ _ _ (fun _ _ => ?_)).trans ?_ | with_reducible refine command_keep State.host _ _ _ (fun _ => ?_) (fun _ => ?_) | split)
  · repeat' (first | (simp [apply_ite State.treads]; done) | with_reducible refine (each_keep State.treads _ _ _ (fun _ _ => ?_)).trans ?_ | with_reducible refine command_keep State.treads _ _ _ (fun _ => ?_) (fun _ => ?_) | split)
  · repeat' (first | (simp [apply_ite State.cells]; done) | with_reducible refine (each_keep State.cells _ _ _ (fun _ _ => ?_)).trans ?_ | with_reducible refine command_keep State.cells _ _ _ (fun _ => ?_) (fun _ => ?_) | split)
  · repeat' (first | (simp [apply_ite State.flights]; done) | with_reducible refine (each_keep State.flights _ _ _ (fun _ _ => ?_)).trans ?_ | with_reducible refine command_keep State.flights _ _ _ (fun _ => ?_) (fun _ => ?_) | split)
  · repeat' (first | (simp [apply_ite State.halls]; done) | with_reducible refine (each_keep State.halls _ _ _ (fun _ _ => ?_)).trans ?_ | with_reducible refine command_keep State.halls _ _ _ (fun _ => ?_) (fun _ => ?_) | split)
  · repeat' (first | (simp [apply_ite State.grid]; done) | with_reducible refine (each_keep State.grid _ _ _ (fun _ _ => ?_)).trans ?_ | with_reducible refine command_keep State.grid _ _ _ (fun _ => ?_) (fun _ => ?_) | split)
  · repeat' (first | (simp [apply_ite State.atr]; done) | with_reducible refine (each_keep State.atr _ _ _ (fun _ _ => ?_)).trans ?_ | with_reducible refine command_keep State.atr _ _ _ (fun _ => ?_) (fun _ => ?_) | split)
  · repeat' (first | (simp [apply_ite State.treadsOld]; done) | with_reducible refine (each_keep State.treadsOld _ _ _ (fun _ _ => ?_)).trans ?_ | with_reducible refine command_keep State.treadsOld _ _ _ (fun _ => ?_) (fun _ => ?_) | split)
  · repeat' (first | (simp [apply_ite State.meas]; done) | with_reducible refine (each_keep State.meas _ _ _ (fun _ _ => ?_)).trans ?_ | with_reducible refine command_keep State.meas _ _ _ (fun _ => ?_) (fun _ => ?_) | split)
  · repeat' (first | (simp [apply_ite State.safe]; done) | with_reducible refine (each_keep State.safe _ _ _ (fun _ _ => ?_)).trans ?_ | with_reducible refine command_keep State.safe _ _ _ (fun _ => ?_) (fun _ => ?_) | split)
  · repeat' (first | (simp [apply_ite State.therm]; done) | with_reducible refine (each_keep State.therm _ _ _ (fun _ _ => ?_)).trans ?_ | with_reducible refine command_keep State.therm _ _ _ (fun _ => ?_) (fun _ => ?_) | split)
  · repeat' (first | (simp [apply_ite State.twin]; done) | with_reducible refine (each_keep State.twin _ _ _ (fun _ _ => ?_)).trans ?_ | with_reducible refine command_keep State.twin _ _ _ (fun _ => ?_) (fun _ => ?_) | split)
  · repeat' (first | (simp [apply_ite State.stair]; done) | with_reducible refine (each_keep State.stair _ _ _ (fun _ _ => ?_)).trans ?_ | with_reducible refine command_keep State.stair _ _ _ (fun _ => ?_) (fun _ => ?_) | split)
  · repeat' (first | (simp [apply_ite State.nvm]; done) | with_reducible refine (each_keep State.nvm _ _ _ (fun _ _ => ?_)).trans ?_ | with_reducible refine command_keep State.nvm _ _ _ (fun _ => ?_) (fun _ => ?_) | split)
  · repeat' (first | (simp [apply_ite State.mem]; done) | with_reducible refine (each_keep State.mem _ _ _ (fun _ _ => ?_)).trans ?_ | with_reducible refine command_keep State.mem _ _ _ (fun _ => ?_) (fun _ => ?_) | split)

@[simp] theorem netFree_frame (s : State) :
    (netFree s).2.pending = s.pending ∧ (netFree s).2.reply = s.reply ∧ (netFree s).2.out = s.out ∧ (netFree s).2.aon = s.aon ∧ (netFree s).2.cfg = s.cfg ∧ (netFree s).2.pend = s.pend ∧ (netFree s).2.tb = s.tb ∧ (netFree s).2.events = s.events ∧ (netFree s).2.host = s.host ∧ (netFree s).2.treads = s.treads ∧ (netFree s).2.cells = s.cells ∧ (netFree s).2.flights = s.flights ∧ (netFree s).2.halls = s.halls ∧ (netFree s).2.grid = s.grid ∧ (netFree s).2.atr = s.atr ∧ (netFree s).2.treadsOld = s.treadsOld ∧ (netFree s).2.meas = s.meas ∧ (netFree s).2.safe = s.safe ∧ (netFree s).2.therm = s.therm ∧ (netFree s).2.twin = s.twin ∧ (netFree s).2.stair = s.stair ∧ (netFree s).2.nvm = s.nvm ∧ (netFree s).2.streams = s.streams ∧ (netFree s).2.mem = s.mem := by
  unfold netFree
  (try dsimp only)
  (repeat' split) <;> simp [apply_ite]

theorem execStreamFrame_frame (a0 : Fin 8) (s t : State) (h : execStreamFrame a0 s = .next t) :
    t.pending = s.pending ∧ t.reply = s.reply ∧ t.aon = s.aon ∧ t.cfg = s.cfg ∧ t.pend = s.pend ∧ t.tb = s.tb ∧ t.events = s.events ∧ t.treads = s.treads ∧ t.cells = s.cells ∧ t.flights = s.flights ∧ t.halls = s.halls ∧ t.grid = s.grid ∧ t.atr = s.atr ∧ t.treadsOld = s.treadsOld ∧ t.meas = s.meas ∧ t.safe = s.safe ∧ t.therm = s.therm ∧ t.twin = s.twin ∧ t.stair = s.stair ∧ t.nvm = s.nvm ∧ t.mem = s.mem := by
  unfold execStreamFrame at h; cases h; (try dsimp only); (repeat' split) <;> simp [apply_ite]

end Sys2Proof.Machine
end

