-- ==== Sys2Proof/Laws/FramesRing.lean ====
section
/-! SUPPORT. What each operation and each command leaves alone: the stage mapping, the rings, the atrium and the landing. A lemma `f_frame` names every part of the state
that `f` does not write. -/

namespace Sys2Proof.Machine

open Sys2Proof

set_option linter.all false

@[simp] theorem mapStringFrames_frame (a0 : Nat) (s : State) :
    (mapStringFrames a0 s).1.pending = s.pending ∧ (mapStringFrames a0 s).1.reply = s.reply ∧ (mapStringFrames a0 s).1.out = s.out ∧ (mapStringFrames a0 s).1.freeCtr = s.freeCtr ∧ (mapStringFrames a0 s).1.aon = s.aon ∧ (mapStringFrames a0 s).1.cfg = s.cfg ∧ (mapStringFrames a0 s).1.pend = s.pend ∧ (mapStringFrames a0 s).1.tb = s.tb ∧ (mapStringFrames a0 s).1.events = s.events ∧ (mapStringFrames a0 s).1.host = s.host ∧ (mapStringFrames a0 s).1.treads = s.treads ∧ (mapStringFrames a0 s).1.flights = s.flights ∧ (mapStringFrames a0 s).1.halls = s.halls ∧ (mapStringFrames a0 s).1.grid = s.grid ∧ (mapStringFrames a0 s).1.atr = s.atr ∧ (mapStringFrames a0 s).1.treadsOld = s.treadsOld ∧ (mapStringFrames a0 s).1.meas = s.meas ∧ (mapStringFrames a0 s).1.safe = s.safe ∧ (mapStringFrames a0 s).1.therm = s.therm ∧ (mapStringFrames a0 s).1.twin = s.twin ∧ (mapStringFrames a0 s).1.stair = s.stair ∧ (mapStringFrames a0 s).1.nvm = s.nvm ∧ (mapStringFrames a0 s).1.streams = s.streams ∧ (mapStringFrames a0 s).1.mem = s.mem := by
  unfold mapStringFrames
  refine ⟨?_, ?_, ?_, ?_, ?_, ?_, ?_, ?_, ?_, ?_, ?_, ?_, ?_, ?_, ?_, ?_, ?_, ?_, ?_, ?_, ?_, ?_, ?_, ?_⟩
  · refine (each_keep (fun x : State × List Nat => x.1.pending) _ _ _ fun _ _ => ?_).trans ?_
    · split <;> simp
    · simp
  · refine (each_keep (fun x : State × List Nat => x.1.reply) _ _ _ fun _ _ => ?_).trans ?_
    · split <;> simp
    · simp
  · refine (each_keep (fun x : State × List Nat => x.1.out) _ _ _ fun _ _ => ?_).trans ?_
    · split <;> simp
    · simp
  · refine (each_keep (fun x : State × List Nat => x.1.freeCtr) _ _ _ fun _ _ => ?_).trans ?_
    · split <;> simp
    · simp
  · refine (each_keep (fun x : State × List Nat => x.1.aon) _ _ _ fun _ _ => ?_).trans ?_
    · split <;> simp
    · simp
  · refine (each_keep (fun x : State × List Nat => x.1.cfg) _ _ _ fun _ _ => ?_).trans ?_
    · split <;> simp
    · simp
  · refine (each_keep (fun x : State × List Nat => x.1.pend) _ _ _ fun _ _ => ?_).trans ?_
    · split <;> simp
    · simp
  · refine (each_keep (fun x : State × List Nat => x.1.tb) _ _ _ fun _ _ => ?_).trans ?_
    · split <;> simp
    · simp
  · refine (each_keep (fun x : State × List Nat => x.1.events) _ _ _ fun _ _ => ?_).trans ?_
    · split <;> simp
    · simp
  · refine (each_keep (fun x : State × List Nat => x.1.host) _ _ _ fun _ _ => ?_).trans ?_
    · split <;> simp
    · simp
  · refine (each_keep (fun x : State × List Nat => x.1.treads) _ _ _ fun _ _ => ?_).trans ?_
    · split <;> simp
    · simp
  · refine (each_keep (fun x : State × List Nat => x.1.flights) _ _ _ fun _ _ => ?_).trans ?_
    · split <;> simp
    · simp
  · refine (each_keep (fun x : State × List Nat => x.1.halls) _ _ _ fun _ _ => ?_).trans ?_
    · split <;> simp
    · simp
  · refine (each_keep (fun x : State × List Nat => x.1.grid) _ _ _ fun _ _ => ?_).trans ?_
    · split <;> simp
    · simp
  · refine (each_keep (fun x : State × List Nat => x.1.atr) _ _ _ fun _ _ => ?_).trans ?_
    · split <;> simp
    · simp
  · refine (each_keep (fun x : State × List Nat => x.1.treadsOld) _ _ _ fun _ _ => ?_).trans ?_
    · split <;> simp
    · simp
  · refine (each_keep (fun x : State × List Nat => x.1.meas) _ _ _ fun _ _ => ?_).trans ?_
    · split <;> simp
    · simp
  · refine (each_keep (fun x : State × List Nat => x.1.safe) _ _ _ fun _ _ => ?_).trans ?_
    · split <;> simp
    · simp
  · refine (each_keep (fun x : State × List Nat => x.1.therm) _ _ _ fun _ _ => ?_).trans ?_
    · split <;> simp
    · simp
  · refine (each_keep (fun x : State × List Nat => x.1.twin) _ _ _ fun _ _ => ?_).trans ?_
    · split <;> simp
    · simp
  · refine (each_keep (fun x : State × List Nat => x.1.stair) _ _ _ fun _ _ => ?_).trans ?_
    · split <;> simp
    · simp
  · refine (each_keep (fun x : State × List Nat => x.1.nvm) _ _ _ fun _ _ => ?_).trans ?_
    · split <;> simp
    · simp
  · refine (each_keep (fun x : State × List Nat => x.1.streams) _ _ _ fun _ _ => ?_).trans ?_
    · split <;> simp
    · simp
  · refine (each_keep (fun x : State × List Nat => x.1.mem) _ _ _ fun _ _ => ?_).trans ?_
    · split <;> simp
    · simp

@[simp] theorem holdExpired_frame (a0 : Nat) (s : State) :
    (holdExpired a0 s).pending = s.pending ∧ (holdExpired a0 s).reply = s.reply ∧ (holdExpired a0 s).freeCtr = s.freeCtr ∧ (holdExpired a0 s).cfg = s.cfg ∧ (holdExpired a0 s).pend = s.pend ∧ (holdExpired a0 s).tb = s.tb ∧ (holdExpired a0 s).treads = s.treads ∧ (holdExpired a0 s).halls = s.halls ∧ (holdExpired a0 s).grid = s.grid ∧ (holdExpired a0 s).treadsOld = s.treadsOld ∧ (holdExpired a0 s).meas = s.meas ∧ (holdExpired a0 s).therm = s.therm ∧ (holdExpired a0 s).twin = s.twin ∧ (holdExpired a0 s).stair = s.stair ∧ (holdExpired a0 s).streams = s.streams ∧ (holdExpired a0 s).mem = s.mem := by
  unfold holdExpired
  (try dsimp only)
  (repeat' split) <;> simp [apply_ite]

@[simp] theorem setAtrPt_frame (a0 : Nat) (a1 : F32) (s : State) :
    (setAtrPt a0 a1 s).pending = s.pending ∧ (setAtrPt a0 a1 s).reply = s.reply ∧ (setAtrPt a0 a1 s).out = s.out ∧ (setAtrPt a0 a1 s).freeCtr = s.freeCtr ∧ (setAtrPt a0 a1 s).aon = s.aon ∧ (setAtrPt a0 a1 s).cfg = s.cfg ∧ (setAtrPt a0 a1 s).pend = s.pend ∧ (setAtrPt a0 a1 s).tb = s.tb ∧ (setAtrPt a0 a1 s).events = s.events ∧ (setAtrPt a0 a1 s).host = s.host ∧ (setAtrPt a0 a1 s).treads = s.treads ∧ (setAtrPt a0 a1 s).cells = s.cells ∧ (setAtrPt a0 a1 s).flights = s.flights ∧ (setAtrPt a0 a1 s).halls = s.halls ∧ (setAtrPt a0 a1 s).grid = s.grid ∧ (setAtrPt a0 a1 s).treadsOld = s.treadsOld ∧ (setAtrPt a0 a1 s).meas = s.meas ∧ (setAtrPt a0 a1 s).safe = s.safe ∧ (setAtrPt a0 a1 s).therm = s.therm ∧ (setAtrPt a0 a1 s).twin = s.twin ∧ (setAtrPt a0 a1 s).stair = s.stair ∧ (setAtrPt a0 a1 s).nvm = s.nvm ∧ (setAtrPt a0 a1 s).streams = s.streams ∧ (setAtrPt a0 a1 s).mem = s.mem := by
  unfold setAtrPt
  (try dsimp only)
  (repeat' split) <;> simp [apply_ite]

@[simp] theorem publishVavg_frame (a0 : Nat) (s : State) :
    (publishVavg a0 s).pending = s.pending ∧ (publishVavg a0 s).reply = s.reply ∧ (publishVavg a0 s).out = s.out ∧ (publishVavg a0 s).freeCtr = s.freeCtr ∧ (publishVavg a0 s).aon = s.aon ∧ (publishVavg a0 s).cfg = s.cfg ∧ (publishVavg a0 s).pend = s.pend ∧ (publishVavg a0 s).tb = s.tb ∧ (publishVavg a0 s).events = s.events ∧ (publishVavg a0 s).host = s.host ∧ (publishVavg a0 s).treads = s.treads ∧ (publishVavg a0 s).cells = s.cells ∧ (publishVavg a0 s).flights = s.flights ∧ (publishVavg a0 s).halls = s.halls ∧ (publishVavg a0 s).grid = s.grid ∧ (publishVavg a0 s).treadsOld = s.treadsOld ∧ (publishVavg a0 s).meas = s.meas ∧ (publishVavg a0 s).safe = s.safe ∧ (publishVavg a0 s).therm = s.therm ∧ (publishVavg a0 s).twin = s.twin ∧ (publishVavg a0 s).stair = s.stair ∧ (publishVavg a0 s).nvm = s.nvm ∧ (publishVavg a0 s).streams = s.streams ∧ (publishVavg a0 s).mem = s.mem := by
  unfold publishVavg
  (try dsimp only)
  (repeat' split) <;> simp [apply_ite]

theorem execStageMapping_frame (a0 : Fin 9) (s t : State) (h : execStageMapping a0 s = .next t) :
    t.pending = s.pending ∧ t.reply = s.reply ∧ t.cfg = s.cfg ∧ t.pend = s.pend ∧ t.tb = s.tb ∧ t.treads = s.treads ∧ t.grid = s.grid ∧ t.treadsOld = s.treadsOld ∧ t.meas = s.meas ∧ t.therm = s.therm ∧ t.twin = s.twin ∧ t.stair = s.stair ∧ t.streams = s.streams ∧ t.mem = s.mem := by
  unfold execStageMapping at h; cases h; (try dsimp only); (repeat' split) <;> simp [apply_ite]

@[simp] theorem publishPlace_frame (a0 : Nat) (s : State) :
    (publishPlace a0 s).pending = s.pending ∧ (publishPlace a0 s).reply = s.reply ∧ (publishPlace a0 s).out = s.out ∧ (publishPlace a0 s).freeCtr = s.freeCtr ∧ (publishPlace a0 s).aon = s.aon ∧ (publishPlace a0 s).cfg = s.cfg ∧ (publishPlace a0 s).pend = s.pend ∧ (publishPlace a0 s).tb = s.tb ∧ (publishPlace a0 s).events = s.events ∧ (publishPlace a0 s).host = s.host ∧ (publishPlace a0 s).cells = s.cells ∧ (publishPlace a0 s).halls = s.halls ∧ (publishPlace a0 s).grid = s.grid ∧ (publishPlace a0 s).treadsOld = s.treadsOld ∧ (publishPlace a0 s).meas = s.meas ∧ (publishPlace a0 s).safe = s.safe ∧ (publishPlace a0 s).therm = s.therm ∧ (publishPlace a0 s).twin = s.twin ∧ (publishPlace a0 s).stair = s.stair ∧ (publishPlace a0 s).nvm = s.nvm ∧ (publishPlace a0 s).streams = s.streams ∧ (publishPlace a0 s).mem = s.mem := by
  unfold publishPlace
  (try dsimp only)
  (repeat' split) <;> simp [apply_ite]

@[simp] theorem sortString_frame (a0 : Nat) (s : State) :
    (sortString a0 s).pending = s.pending ∧ (sortString a0 s).reply = s.reply ∧ (sortString a0 s).out = s.out ∧ (sortString a0 s).freeCtr = s.freeCtr ∧ (sortString a0 s).aon = s.aon ∧ (sortString a0 s).cfg = s.cfg ∧ (sortString a0 s).pend = s.pend ∧ (sortString a0 s).tb = s.tb ∧ (sortString a0 s).events = s.events ∧ (sortString a0 s).host = s.host ∧ (sortString a0 s).cells = s.cells ∧ (sortString a0 s).grid = s.grid ∧ (sortString a0 s).treadsOld = s.treadsOld ∧ (sortString a0 s).meas = s.meas ∧ (sortString a0 s).safe = s.safe ∧ (sortString a0 s).therm = s.therm ∧ (sortString a0 s).twin = s.twin ∧ (sortString a0 s).stair = s.stair ∧ (sortString a0 s).nvm = s.nvm ∧ (sortString a0 s).streams = s.streams ∧ (sortString a0 s).mem = s.mem := by
  unfold sortString
  (try dsimp only)
  (repeat' split) <;> simp [apply_ite]

theorem execHallSort_frame (a0 : Fin 3) (a1 : Bool) (s t : State) (h : execHallSort a0 a1 s = .next t) :
    t.pending = s.pending ∧ t.reply = s.reply ∧ t.freeCtr = s.freeCtr ∧ t.cfg = s.cfg ∧ t.pend = s.pend ∧ t.tb = s.tb ∧ t.grid = s.grid ∧ t.treadsOld = s.treadsOld ∧ t.meas = s.meas ∧ t.therm = s.therm ∧ t.twin = s.twin ∧ t.stair = s.stair ∧ t.streams = s.streams ∧ t.mem = s.mem := by
  unfold execHallSort at h; cases h; (try dsimp only); (repeat' split) <;> simp [apply_ite]

@[simp] theorem armMode_frame (a0 : Nat) (a1 : Option Word) (a2 : Option Word) (s : State) :
    (armMode a0 a1 a2 s).pending = s.pending ∧ (armMode a0 a1 a2 s).reply = s.reply ∧ (armMode a0 a1 a2 s).out = s.out ∧ (armMode a0 a1 a2 s).freeCtr = s.freeCtr ∧ (armMode a0 a1 a2 s).aon = s.aon ∧ (armMode a0 a1 a2 s).cfg = s.cfg ∧ (armMode a0 a1 a2 s).pend = s.pend ∧ (armMode a0 a1 a2 s).tb = s.tb ∧ (armMode a0 a1 a2 s).events = s.events ∧ (armMode a0 a1 a2 s).host = s.host ∧ (armMode a0 a1 a2 s).treads = s.treads ∧ (armMode a0 a1 a2 s).cells = s.cells ∧ (armMode a0 a1 a2 s).flights = s.flights ∧ (armMode a0 a1 a2 s).grid = s.grid ∧ (armMode a0 a1 a2 s).atr = s.atr ∧ (armMode a0 a1 a2 s).treadsOld = s.treadsOld ∧ (armMode a0 a1 a2 s).meas = s.meas ∧ (armMode a0 a1 a2 s).safe = s.safe ∧ (armMode a0 a1 a2 s).therm = s.therm ∧ (armMode a0 a1 a2 s).twin = s.twin ∧ (armMode a0 a1 a2 s).stair = s.stair ∧ (armMode a0 a1 a2 s).nvm = s.nvm ∧ (armMode a0 a1 a2 s).streams = s.streams ∧ (armMode a0 a1 a2 s).mem = s.mem := by
  unfold armMode
  (try dsimp only)
  (repeat' split) <;> simp [apply_ite]

@[simp] theorem hallMode_frame (a0 : Nat) (a1 : Word) (s : State) :
    (hallMode a0 a1 s).2.pending = s.pending ∧ (hallMode a0 a1 s).2.reply = s.reply ∧ (hallMode a0 a1 s).2.out = s.out ∧ (hallMode a0 a1 s).2.freeCtr = s.freeCtr ∧ (hallMode a0 a1 s).2.aon = s.aon ∧ (hallMode a0 a1 s).2.pend = s.pend ∧ (hallMode a0 a1 s).2.tb = s.tb ∧ (hallMode a0 a1 s).2.events = s.events ∧ (hallMode a0 a1 s).2.host = s.host ∧ (hallMode a0 a1 s).2.treads = s.treads ∧ (hallMode a0 a1 s).2.cells = s.cells ∧ (hallMode a0 a1 s).2.flights = s.flights ∧ (hallMode a0 a1 s).2.grid = s.grid ∧ (hallMode a0 a1 s).2.atr = s.atr ∧ (hallMode a0 a1 s).2.treadsOld = s.treadsOld ∧ (hallMode a0 a1 s).2.meas = s.meas ∧ (hallMode a0 a1 s).2.safe = s.safe ∧ (hallMode a0 a1 s).2.therm = s.therm ∧ (hallMode a0 a1 s).2.twin = s.twin ∧ (hallMode a0 a1 s).2.stair = s.stair ∧ (hallMode a0 a1 s).2.nvm = s.nvm ∧ (hallMode a0 a1 s).2.streams = s.streams ∧ (hallMode a0 a1 s).2.mem = s.mem := by
  unfold hallMode
  (try dsimp only)
  (repeat' split) <;> simp [apply_ite]

theorem execHallMode_frame (a0 : List Word) (s t : State) (h : execHallMode a0 s = .next t) :
    t.pending = s.pending ∧ t.out = s.out ∧ t.freeCtr = s.freeCtr ∧ t.aon = s.aon ∧ t.pend = s.pend ∧ t.tb = s.tb ∧ t.events = s.events ∧ t.host = s.host ∧ t.treads = s.treads ∧ t.cells = s.cells ∧ t.flights = s.flights ∧ t.grid = s.grid ∧ t.atr = s.atr ∧ t.treadsOld = s.treadsOld ∧ t.meas = s.meas ∧ t.safe = s.safe ∧ t.therm = s.therm ∧ t.twin = s.twin ∧ t.stair = s.stair ∧ t.nvm = s.nvm ∧ t.streams = s.streams ∧ t.mem = s.mem := by
  unfold execHallMode at h; cases h; (try dsimp only); (repeat' split) <;> simp [apply_ite]

@[simp] theorem stageApply_frame (a0 : Nat) (a1 : Word) (a2 : List (Nat × Word)) (s : State) :
    (stageApply a0 a1 a2 s).pending = s.pending ∧ (stageApply a0 a1 a2 s).reply = s.reply ∧ (stageApply a0 a1 a2 s).out = s.out ∧ (stageApply a0 a1 a2 s).freeCtr = s.freeCtr ∧ (stageApply a0 a1 a2 s).aon = s.aon ∧ (stageApply a0 a1 a2 s).cfg = s.cfg ∧ (stageApply a0 a1 a2 s).pend = s.pend ∧ (stageApply a0 a1 a2 s).tb = s.tb ∧ (stageApply a0 a1 a2 s).events = s.events ∧ (stageApply a0 a1 a2 s).host = s.host ∧ (stageApply a0 a1 a2 s).treads = s.treads ∧ (stageApply a0 a1 a2 s).flights = s.flights ∧ (stageApply a0 a1 a2 s).halls = s.halls ∧ (stageApply a0 a1 a2 s).grid = s.grid ∧ (stageApply a0 a1 a2 s).atr = s.atr ∧ (stageApply a0 a1 a2 s).treadsOld = s.treadsOld ∧ (stageApply a0 a1 a2 s).meas = s.meas ∧ (stageApply a0 a1 a2 s).safe = s.safe ∧ (stageApply a0 a1 a2 s).therm = s.therm ∧ (stageApply a0 a1 a2 s).twin = s.twin ∧ (stageApply a0 a1 a2 s).stair = s.stair ∧ (stageApply a0 a1 a2 s).nvm = s.nvm ∧ (stageApply a0 a1 a2 s).streams = s.streams ∧ (stageApply a0 a1 a2 s).mem = s.mem := by
  unfold stageApply
  (try dsimp only)
  (repeat' split) <;> simp [apply_ite]

theorem execStageWrite_frame (a0 : Fin 64) (a1 : List Word) (s t : State) (h : execStageWrite a0 a1 s = .next t) :
    t.pending = s.pending ∧ t.out = s.out ∧ t.freeCtr = s.freeCtr ∧ t.aon = s.aon ∧ t.cfg = s.cfg ∧ t.pend = s.pend ∧ t.tb = s.tb ∧ t.events = s.events ∧ t.host = s.host ∧ t.treads = s.treads ∧ t.flights = s.flights ∧ t.halls = s.halls ∧ t.grid = s.grid ∧ t.atr = s.atr ∧ t.treadsOld = s.treadsOld ∧ t.meas = s.meas ∧ t.safe = s.safe ∧ t.therm = s.therm ∧ t.twin = s.twin ∧ t.stair = s.stair ∧ t.nvm = s.nvm ∧ t.streams = s.streams ∧ t.mem = s.mem := by
  unfold execStageWrite at h; cases h; (try dsimp only); (repeat' split) <;> simp [apply_ite]

@[simp] theorem armLoads_frame (a0 : Nat) (s : State) :
    (armLoads a0 s).pending = s.pending ∧ (armLoads a0 s).reply = s.reply ∧ (armLoads a0 s).out = s.out ∧ (armLoads a0 s).freeCtr = s.freeCtr ∧ (armLoads a0 s).aon = s.aon ∧ (armLoads a0 s).cfg = s.cfg ∧ (armLoads a0 s).pend = s.pend ∧ (armLoads a0 s).tb = s.tb ∧ (armLoads a0 s).events = s.events ∧ (armLoads a0 s).host = s.host ∧ (armLoads a0 s).cells = s.cells ∧ (armLoads a0 s).halls = s.halls ∧ (armLoads a0 s).grid = s.grid ∧ (armLoads a0 s).treadsOld = s.treadsOld ∧ (armLoads a0 s).meas = s.meas ∧ (armLoads a0 s).safe = s.safe ∧ (armLoads a0 s).therm = s.therm ∧ (armLoads a0 s).twin = s.twin ∧ (armLoads a0 s).stair = s.stair ∧ (armLoads a0 s).nvm = s.nvm ∧ (armLoads a0 s).streams = s.streams ∧ (armLoads a0 s).mem = s.mem := by
  unfold armLoads
  (try dsimp only)
  (repeat' split) <;> simp [apply_ite]

@[simp] theorem judgeStale_frame (s : State) :
    (judgeStale s).pending = s.pending ∧ (judgeStale s).reply = s.reply ∧ (judgeStale s).freeCtr = s.freeCtr ∧ (judgeStale s).cfg = s.cfg ∧ (judgeStale s).pend = s.pend ∧ (judgeStale s).tb = s.tb ∧ (judgeStale s).treads = s.treads ∧ (judgeStale s).flights = s.flights ∧ (judgeStale s).halls = s.halls ∧ (judgeStale s).treadsOld = s.treadsOld ∧ (judgeStale s).meas = s.meas ∧ (judgeStale s).safe = s.safe ∧ (judgeStale s).therm = s.therm ∧ (judgeStale s).twin = s.twin ∧ (judgeStale s).stair = s.stair ∧ (judgeStale s).nvm = s.nvm ∧ (judgeStale s).streams = s.streams ∧ (judgeStale s).mem = s.mem := by
  unfold judgeStale
  (try dsimp only)
  (repeat' split) <;> simp [apply_ite]

@[simp] theorem armCommit_frame (a0 : Nat × Nat) (a1 : Bool) (s : State) :
    (armCommit a0 a1 s).pending = s.pending ∧ (armCommit a0 a1 s).reply = s.reply ∧ (armCommit a0 a1 s).out = s.out ∧ (armCommit a0 a1 s).freeCtr = s.freeCtr ∧ (armCommit a0 a1 s).aon = s.aon ∧ (armCommit a0 a1 s).cfg = s.cfg ∧ (armCommit a0 a1 s).pend = s.pend ∧ (armCommit a0 a1 s).tb = s.tb ∧ (armCommit a0 a1 s).events = s.events ∧ (armCommit a0 a1 s).host = s.host ∧ (armCommit a0 a1 s).cells = s.cells ∧ (armCommit a0 a1 s).halls = s.halls ∧ (armCommit a0 a1 s).treadsOld = s.treadsOld ∧ (armCommit a0 a1 s).meas = s.meas ∧ (armCommit a0 a1 s).safe = s.safe ∧ (armCommit a0 a1 s).therm = s.therm ∧ (armCommit a0 a1 s).twin = s.twin ∧ (armCommit a0 a1 s).stair = s.stair ∧ (armCommit a0 a1 s).nvm = s.nvm ∧ (armCommit a0 a1 s).streams = s.streams ∧ (armCommit a0 a1 s).mem = s.mem := by
  unfold armCommit
  (try dsimp only)
  (repeat' split) <;> simp [apply_ite]

@[simp] theorem loadAllLocal_frame (s : State) :
    (loadAllLocal s).2.2.pending = s.pending ∧ (loadAllLocal s).2.2.reply = s.reply ∧ (loadAllLocal s).2.2.freeCtr = s.freeCtr ∧ (loadAllLocal s).2.2.cfg = s.cfg ∧ (loadAllLocal s).2.2.pend = s.pend ∧ (loadAllLocal s).2.2.tb = s.tb ∧ (loadAllLocal s).2.2.halls = s.halls ∧ (loadAllLocal s).2.2.treadsOld = s.treadsOld ∧ (loadAllLocal s).2.2.meas = s.meas ∧ (loadAllLocal s).2.2.safe = s.safe ∧ (loadAllLocal s).2.2.therm = s.therm ∧ (loadAllLocal s).2.2.twin = s.twin ∧ (loadAllLocal s).2.2.stair = s.stair ∧ (loadAllLocal s).2.2.nvm = s.nvm ∧ (loadAllLocal s).2.2.streams = s.streams ∧ (loadAllLocal s).2.2.mem = s.mem := by
  unfold loadAllLocal
  (try dsimp only)
  (repeat' split) <;> simp [apply_ite]

@[simp] theorem latchDab_frame (a0 : Nat) (s : State) :
    (latchDab a0 s).pending = s.pending ∧ (latchDab a0 s).reply = s.reply ∧ (latchDab a0 s).out = s.out ∧ (latchDab a0 s).freeCtr = s.freeCtr ∧ (latchDab a0 s).aon = s.aon ∧ (latchDab a0 s).cfg = s.cfg ∧ (latchDab a0 s).pend = s.pend ∧ (latchDab a0 s).tb = s.tb ∧ (latchDab a0 s).events = s.events ∧ (latchDab a0 s).host = s.host ∧ (latchDab a0 s).treads = s.treads ∧ (latchDab a0 s).cells = s.cells ∧ (latchDab a0 s).flights = s.flights ∧ (latchDab a0 s).grid = s.grid ∧ (latchDab a0 s).atr = s.atr ∧ (latchDab a0 s).treadsOld = s.treadsOld ∧ (latchDab a0 s).meas = s.meas ∧ (latchDab a0 s).safe = s.safe ∧ (latchDab a0 s).therm = s.therm ∧ (latchDab a0 s).twin = s.twin ∧ (latchDab a0 s).stair = s.stair ∧ (latchDab a0 s).nvm = s.nvm ∧ (latchDab a0 s).streams = s.streams ∧ (latchDab a0 s).mem = s.mem := by
  unfold latchDab
  (try dsimp only)
  (repeat' split) <;> simp [apply_ite]

theorem execCommitPoint_frame (s t : State) (h : execCommitPoint s = .next t) :
    t.pending = s.pending ∧ t.reply = s.reply ∧ t.out = s.out ∧ t.freeCtr = s.freeCtr ∧ t.aon = s.aon ∧ t.cfg = s.cfg ∧ t.pend = s.pend ∧ t.events = s.events ∧ t.host = s.host ∧ t.treads = s.treads ∧ t.flights = s.flights ∧ t.atr = s.atr ∧ t.treadsOld = s.treadsOld ∧ t.meas = s.meas ∧ t.safe = s.safe ∧ t.therm = s.therm ∧ t.twin = s.twin ∧ t.stair = s.stair ∧ t.nvm = s.nvm ∧ t.streams = s.streams ∧ t.mem = s.mem := by
  unfold execCommitPoint at h; cases h; (try dsimp only); (repeat' split) <;> simp [apply_ite]

@[simp] theorem receiveSet_frame (a0 : Nat) (a1 : Bool) (a2 : Byte) (a3 : Byte) (a4 : Byte) (a5 : Byte) (s : State) :
    (receiveSet a0 a1 a2 a3 a4 a5 s).2.pending = s.pending ∧ (receiveSet a0 a1 a2 a3 a4 a5 s).2.reply = s.reply ∧ (receiveSet a0 a1 a2 a3 a4 a5 s).2.out = s.out ∧ (receiveSet a0 a1 a2 a3 a4 a5 s).2.freeCtr = s.freeCtr ∧ (receiveSet a0 a1 a2 a3 a4 a5 s).2.aon = s.aon ∧ (receiveSet a0 a1 a2 a3 a4 a5 s).2.cfg = s.cfg ∧ (receiveSet a0 a1 a2 a3 a4 a5 s).2.pend = s.pend ∧ (receiveSet a0 a1 a2 a3 a4 a5 s).2.tb = s.tb ∧ (receiveSet a0 a1 a2 a3 a4 a5 s).2.events = s.events ∧ (receiveSet a0 a1 a2 a3 a4 a5 s).2.host = s.host ∧ (receiveSet a0 a1 a2 a3 a4 a5 s).2.treads = s.treads ∧ (receiveSet a0 a1 a2 a3 a4 a5 s).2.cells = s.cells ∧ (receiveSet a0 a1 a2 a3 a4 a5 s).2.halls = s.halls ∧ (receiveSet a0 a1 a2 a3 a4 a5 s).2.grid = s.grid ∧ (receiveSet a0 a1 a2 a3 a4 a5 s).2.atr = s.atr ∧ (receiveSet a0 a1 a2 a3 a4 a5 s).2.treadsOld = s.treadsOld ∧ (receiveSet a0 a1 a2 a3 a4 a5 s).2.meas = s.meas ∧ (receiveSet a0 a1 a2 a3 a4 a5 s).2.safe = s.safe ∧ (receiveSet a0 a1 a2 a3 a4 a5 s).2.therm = s.therm ∧ (receiveSet a0 a1 a2 a3 a4 a5 s).2.twin = s.twin ∧ (receiveSet a0 a1 a2 a3 a4 a5 s).2.stair = s.stair ∧ (receiveSet a0 a1 a2 a3 a4 a5 s).2.nvm = s.nvm ∧ (receiveSet a0 a1 a2 a3 a4 a5 s).2.streams = s.streams ∧ (receiveSet a0 a1 a2 a3 a4 a5 s).2.mem = s.mem := by
  unfold receiveSet
  (try dsimp only)
  (repeat' split) <;> simp [apply_ite]

@[simp] theorem tellBreak_frame (a0 : Nat) (a1 : Nat) (s : State) :
    (tellBreak a0 a1 s).pending = s.pending ∧ (tellBreak a0 a1 s).reply = s.reply ∧ (tellBreak a0 a1 s).freeCtr = s.freeCtr ∧ (tellBreak a0 a1 s).aon = s.aon ∧ (tellBreak a0 a1 s).cfg = s.cfg ∧ (tellBreak a0 a1 s).pend = s.pend ∧ (tellBreak a0 a1 s).tb = s.tb ∧ (tellBreak a0 a1 s).events = s.events ∧ (tellBreak a0 a1 s).host = s.host ∧ (tellBreak a0 a1 s).treads = s.treads ∧ (tellBreak a0 a1 s).cells = s.cells ∧ (tellBreak a0 a1 s).flights = s.flights ∧ (tellBreak a0 a1 s).halls = s.halls ∧ (tellBreak a0 a1 s).grid = s.grid ∧ (tellBreak a0 a1 s).atr = s.atr ∧ (tellBreak a0 a1 s).treadsOld = s.treadsOld ∧ (tellBreak a0 a1 s).meas = s.meas ∧ (tellBreak a0 a1 s).safe = s.safe ∧ (tellBreak a0 a1 s).therm = s.therm ∧ (tellBreak a0 a1 s).twin = s.twin ∧ (tellBreak a0 a1 s).stair = s.stair ∧ (tellBreak a0 a1 s).nvm = s.nvm ∧ (tellBreak a0 a1 s).streams = s.streams ∧ (tellBreak a0 a1 s).mem = s.mem := by
  unfold tellBreak
  (try dsimp only)
  (repeat' split) <;> simp [apply_ite]

@[simp] theorem breakAt_frame (a0 : Nat) (a1 : Nat) (s : State) :
    (breakAt a0 a1 s).pending = s.pending ∧ (breakAt a0 a1 s).reply = s.reply ∧ (breakAt a0 a1 s).freeCtr = s.freeCtr ∧ (breakAt a0 a1 s).cfg = s.cfg ∧ (breakAt a0 a1 s).pend = s.pend ∧ (breakAt a0 a1 s).tb = s.tb ∧ (breakAt a0 a1 s).treads = s.treads ∧ (breakAt a0 a1 s).halls = s.halls ∧ (breakAt a0 a1 s).grid = s.grid ∧ (breakAt a0 a1 s).treadsOld = s.treadsOld ∧ (breakAt a0 a1 s).meas = s.meas ∧ (breakAt a0 a1 s).therm = s.therm ∧ (breakAt a0 a1 s).twin = s.twin ∧ (breakAt a0 a1 s).stair = s.stair ∧ (breakAt a0 a1 s).streams = s.streams ∧ (breakAt a0 a1 s).mem = s.mem := by
  unfold breakAt
  (try dsimp only)
  (repeat' split) <;> simp [apply_ite]

@[simp] theorem breakLost_frame (a0 : Nat) (s : State) :
    (breakLost a0 s).pending = s.pending ∧ (breakLost a0 s).reply = s.reply ∧ (breakLost a0 s).freeCtr = s.freeCtr ∧ (breakLost a0 s).cfg = s.cfg ∧ (breakLost a0 s).pend = s.pend ∧ (breakLost a0 s).tb = s.tb ∧ (breakLost a0 s).treads = s.treads ∧ (breakLost a0 s).cells = s.cells ∧ (breakLost a0 s).halls = s.halls ∧ (breakLost a0 s).grid = s.grid ∧ (breakLost a0 s).treadsOld = s.treadsOld ∧ (breakLost a0 s).meas = s.meas ∧ (breakLost a0 s).safe = s.safe ∧ (breakLost a0 s).therm = s.therm ∧ (breakLost a0 s).twin = s.twin ∧ (breakLost a0 s).stair = s.stair ∧ (breakLost a0 s).nvm = s.nvm ∧ (breakLost a0 s).streams = s.streams ∧ (breakLost a0 s).mem = s.mem := by
  unfold breakLost
  (try dsimp only)
  (repeat' split) <;> simp [apply_ite]

@[simp] theorem locate_frame (a0 : Nat) (a1 : Nat) (a2 : List Byte) (s : State) :
    (locate a0 a1 a2 s).pending = s.pending ∧ (locate a0 a1 a2 s).reply = s.reply ∧ (locate a0 a1 a2 s).freeCtr = s.freeCtr ∧ (locate a0 a1 a2 s).cfg = s.cfg ∧ (locate a0 a1 a2 s).pend = s.pend ∧ (locate a0 a1 a2 s).tb = s.tb ∧ (locate a0 a1 a2 s).treads = s.treads ∧ (locate a0 a1 a2 s).halls = s.halls ∧ (locate a0 a1 a2 s).grid = s.grid ∧ (locate a0 a1 a2 s).treadsOld = s.treadsOld ∧ (locate a0 a1 a2 s).meas = s.meas ∧ (locate a0 a1 a2 s).therm = s.therm ∧ (locate a0 a1 a2 s).twin = s.twin ∧ (locate a0 a1 a2 s).stair = s.stair ∧ (locate a0 a1 a2 s).streams = s.streams ∧ (locate a0 a1 a2 s).mem = s.mem := by
  unfold locate
  (try dsimp only)
  (repeat' split) <;> simp [apply_ite]

theorem execLdnReceived_frame (a0 : Fin 9) (a1 : Bool) (s t : State) (h : execLdnReceived a0 a1 s = .next t) :
    t.pending = s.pending ∧ t.reply = s.reply ∧ t.freeCtr = s.freeCtr ∧ t.cfg = s.cfg ∧ t.pend = s.pend ∧ t.tb = s.tb ∧ t.treads = s.treads ∧ t.halls = s.halls ∧ t.grid = s.grid ∧ t.treadsOld = s.treadsOld ∧ t.meas = s.meas ∧ t.therm = s.therm ∧ t.twin = s.twin ∧ t.stair = s.stair ∧ t.streams = s.streams ∧ t.mem = s.mem := by
  unfold execLdnReceived at h; cases h; (try dsimp only); (repeat' split) <;> simp [apply_ite]

theorem execRingPortReceiverChange_frame (a0 : Fin 9) (a1 : Bool) (a2 : Bool) (s t : State) (h : execRingPortReceiverChange a0 a1 a2 s = .next t) :
    t.pending = s.pending ∧ t.reply = s.reply ∧ t.out = s.out ∧ t.freeCtr = s.freeCtr ∧ t.aon = s.aon ∧ t.cfg = s.cfg ∧ t.pend = s.pend ∧ t.tb = s.tb ∧ t.events = s.events ∧ t.host = s.host ∧ t.treads = s.treads ∧ t.cells = s.cells ∧ t.halls = s.halls ∧ t.grid = s.grid ∧ t.atr = s.atr ∧ t.treadsOld = s.treadsOld ∧ t.meas = s.meas ∧ t.safe = s.safe ∧ t.therm = s.therm ∧ t.twin = s.twin ∧ t.stair = s.stair ∧ t.nvm = s.nvm ∧ t.streams = s.streams ∧ t.mem = s.mem := by
  unfold execRingPortReceiverChange at h; cases h; (try dsimp only); (repeat' split) <;> simp [apply_ite]

@[simp] theorem unwrapRing_frame (a0 : Nat) (s : State) :
    (unwrapRing a0 s).pending = s.pending ∧ (unwrapRing a0 s).reply = s.reply ∧ (unwrapRing a0 s).out = s.out ∧ (unwrapRing a0 s).freeCtr = s.freeCtr ∧ (unwrapRing a0 s).aon = s.aon ∧ (unwrapRing a0 s).cfg = s.cfg ∧ (unwrapRing a0 s).pend = s.pend ∧ (unwrapRing a0 s).tb = s.tb ∧ (unwrapRing a0 s).events = s.events ∧ (unwrapRing a0 s).host = s.host ∧ (unwrapRing a0 s).treads = s.treads ∧ (unwrapRing a0 s).cells = s.cells ∧ (unwrapRing a0 s).halls = s.halls ∧ (unwrapRing a0 s).grid = s.grid ∧ (unwrapRing a0 s).atr = s.atr ∧ (unwrapRing a0 s).treadsOld = s.treadsOld ∧ (unwrapRing a0 s).meas = s.meas ∧ (unwrapRing a0 s).safe = s.safe ∧ (unwrapRing a0 s).therm = s.therm ∧ (unwrapRing a0 s).twin = s.twin ∧ (unwrapRing a0 s).stair = s.stair ∧ (unwrapRing a0 s).nvm = s.nvm ∧ (unwrapRing a0 s).streams = s.streams ∧ (unwrapRing a0 s).mem = s.mem := by
  unfold unwrapRing
  (try dsimp only)
  (repeat' split) <;> simp [apply_ite]

theorem execUnwrap_frame (a0 : Fin 9) (s t : State) (h : execUnwrap a0 s = .next t) :
    t.pending = s.pending ∧ t.reply = s.reply ∧ t.out = s.out ∧ t.freeCtr = s.freeCtr ∧ t.aon = s.aon ∧ t.cfg = s.cfg ∧ t.pend = s.pend ∧ t.tb = s.tb ∧ t.events = s.events ∧ t.host = s.host ∧ t.treads = s.treads ∧ t.cells = s.cells ∧ t.halls = s.halls ∧ t.grid = s.grid ∧ t.atr = s.atr ∧ t.treadsOld = s.treadsOld ∧ t.meas = s.meas ∧ t.safe = s.safe ∧ t.therm = s.therm ∧ t.twin = s.twin ∧ t.stair = s.stair ∧ t.nvm = s.nvm ∧ t.streams = s.streams ∧ t.mem = s.mem := by
  unfold execUnwrap at h; cases h; (try dsimp only); (repeat' split) <;> simp [apply_ite]

@[simp] theorem noteK_frame (a0 : Nat) (a1 : Route) (s : State) :
    (noteK a0 a1 s).pending = s.pending ∧ (noteK a0 a1 s).reply = s.reply ∧ (noteK a0 a1 s).out = s.out ∧ (noteK a0 a1 s).freeCtr = s.freeCtr ∧ (noteK a0 a1 s).aon = s.aon ∧ (noteK a0 a1 s).cfg = s.cfg ∧ (noteK a0 a1 s).pend = s.pend ∧ (noteK a0 a1 s).tb = s.tb ∧ (noteK a0 a1 s).events = s.events ∧ (noteK a0 a1 s).host = s.host ∧ (noteK a0 a1 s).treads = s.treads ∧ (noteK a0 a1 s).cells = s.cells ∧ (noteK a0 a1 s).halls = s.halls ∧ (noteK a0 a1 s).grid = s.grid ∧ (noteK a0 a1 s).atr = s.atr ∧ (noteK a0 a1 s).treadsOld = s.treadsOld ∧ (noteK a0 a1 s).meas = s.meas ∧ (noteK a0 a1 s).safe = s.safe ∧ (noteK a0 a1 s).therm = s.therm ∧ (noteK a0 a1 s).twin = s.twin ∧ (noteK a0 a1 s).stair = s.stair ∧ (noteK a0 a1 s).nvm = s.nvm ∧ (noteK a0 a1 s).streams = s.streams ∧ (noteK a0 a1 s).mem = s.mem := by
  unfold noteK
  (try dsimp only)
  (repeat' split) <;> simp [apply_ite]

theorem execPrbArrival_frame (a0 : Fin 9) (a1 : Nat) (s t : State) (h : execPrbArrival a0 a1 s = .next t) :
    t.pending = s.pending ∧ t.reply = s.reply ∧ t.out = s.out ∧ t.freeCtr = s.freeCtr ∧ t.aon = s.aon ∧ t.cfg = s.cfg ∧ t.pend = s.pend ∧ t.tb = s.tb ∧ t.events = s.events ∧ t.host = s.host ∧ t.treads = s.treads ∧ t.cells = s.cells ∧ t.halls = s.halls ∧ t.grid = s.grid ∧ t.atr = s.atr ∧ t.treadsOld = s.treadsOld ∧ t.meas = s.meas ∧ t.safe = s.safe ∧ t.therm = s.therm ∧ t.twin = s.twin ∧ t.stair = s.stair ∧ t.nvm = s.nvm ∧ t.streams = s.streams ∧ t.mem = s.mem := by
  unfold execPrbArrival at h; cases h; (try dsimp only); (repeat' split) <;> simp [apply_ite]

@[simp] theorem endHold_frame (a0 : Nat) (a1 : Route) (s : State) :
    (endHold a0 a1 s).pending = s.pending ∧ (endHold a0 a1 s).reply = s.reply ∧ (endHold a0 a1 s).out = s.out ∧ (endHold a0 a1 s).freeCtr = s.freeCtr ∧ (endHold a0 a1 s).aon = s.aon ∧ (endHold a0 a1 s).cfg = s.cfg ∧ (endHold a0 a1 s).pend = s.pend ∧ (endHold a0 a1 s).tb = s.tb ∧ (endHold a0 a1 s).events = s.events ∧ (endHold a0 a1 s).host = s.host ∧ (endHold a0 a1 s).treads = s.treads ∧ (endHold a0 a1 s).cells = s.cells ∧ (endHold a0 a1 s).halls = s.halls ∧ (endHold a0 a1 s).grid = s.grid ∧ (endHold a0 a1 s).atr = s.atr ∧ (endHold a0 a1 s).treadsOld = s.treadsOld ∧ (endHold a0 a1 s).meas = s.meas ∧ (endHold a0 a1 s).safe = s.safe ∧ (endHold a0 a1 s).therm = s.therm ∧ (endHold a0 a1 s).twin = s.twin ∧ (endHold a0 a1 s).stair = s.stair ∧ (endHold a0 a1 s).nvm = s.nvm ∧ (endHold a0 a1 s).streams = s.streams ∧ (endHold a0 a1 s).mem = s.mem := by
  unfold endHold
  (try dsimp only)
  (repeat' split) <;> simp [apply_ite]

@[simp] theorem reportPoints_frame (a0 : Nat) (a1 : List Byte) (s : State) :
    (reportPoints a0 a1 s).pending = s.pending ∧ (reportPoints a0 a1 s).reply = s.reply ∧ (reportPoints a0 a1 s).out = s.out ∧ (reportPoints a0 a1 s).freeCtr = s.freeCtr ∧ (reportPoints a0 a1 s).aon = s.aon ∧ (reportPoints a0 a1 s).cfg = s.cfg ∧ (reportPoints a0 a1 s).pend = s.pend ∧ (reportPoints a0 a1 s).tb = s.tb ∧ (reportPoints a0 a1 s).events = s.events ∧ (reportPoints a0 a1 s).host = s.host ∧ (reportPoints a0 a1 s).cells = s.cells ∧ (reportPoints a0 a1 s).halls = s.halls ∧ (reportPoints a0 a1 s).grid = s.grid ∧ (reportPoints a0 a1 s).treadsOld = s.treadsOld ∧ (reportPoints a0 a1 s).meas = s.meas ∧ (reportPoints a0 a1 s).safe = s.safe ∧ (reportPoints a0 a1 s).therm = s.therm ∧ (reportPoints a0 a1 s).twin = s.twin ∧ (reportPoints a0 a1 s).stair = s.stair ∧ (reportPoints a0 a1 s).nvm = s.nvm ∧ (reportPoints a0 a1 s).streams = s.streams ∧ (reportPoints a0 a1 s).mem = s.mem := by
  unfold reportPoints
  (try dsimp only)
  (repeat' split) <;> simp [apply_ite]

@[simp] theorem stalePoint_frame (a0 : Nat) (s : State) :
    (stalePoint a0 s).pending = s.pending ∧ (stalePoint a0 s).reply = s.reply ∧ (stalePoint a0 s).out = s.out ∧ (stalePoint a0 s).freeCtr = s.freeCtr ∧ (stalePoint a0 s).aon = s.aon ∧ (stalePoint a0 s).cfg = s.cfg ∧ (stalePoint a0 s).pend = s.pend ∧ (stalePoint a0 s).tb = s.tb ∧ (stalePoint a0 s).events = s.events ∧ (stalePoint a0 s).host = s.host ∧ (stalePoint a0 s).cells = s.cells ∧ (stalePoint a0 s).halls = s.halls ∧ (stalePoint a0 s).grid = s.grid ∧ (stalePoint a0 s).treadsOld = s.treadsOld ∧ (stalePoint a0 s).meas = s.meas ∧ (stalePoint a0 s).safe = s.safe ∧ (stalePoint a0 s).therm = s.therm ∧ (stalePoint a0 s).twin = s.twin ∧ (stalePoint a0 s).stair = s.stair ∧ (stalePoint a0 s).nvm = s.nvm ∧ (stalePoint a0 s).streams = s.streams ∧ (stalePoint a0 s).mem = s.mem := by
  unfold stalePoint
  (try dsimp only)
  (repeat' split) <;> simp [apply_ite]

@[simp] theorem keepReport_frame (a0 : Nat) (a1 : List Byte) (s : State) :
    (keepReport a0 a1 s).pending = s.pending ∧ (keepReport a0 a1 s).reply = s.reply ∧ (keepReport a0 a1 s).out = s.out ∧ (keepReport a0 a1 s).freeCtr = s.freeCtr ∧ (keepReport a0 a1 s).aon = s.aon ∧ (keepReport a0 a1 s).cfg = s.cfg ∧ (keepReport a0 a1 s).pend = s.pend ∧ (keepReport a0 a1 s).tb = s.tb ∧ (keepReport a0 a1 s).events = s.events ∧ (keepReport a0 a1 s).host = s.host ∧ (keepReport a0 a1 s).halls = s.halls ∧ (keepReport a0 a1 s).grid = s.grid ∧ (keepReport a0 a1 s).treadsOld = s.treadsOld ∧ (keepReport a0 a1 s).safe = s.safe ∧ (keepReport a0 a1 s).therm = s.therm ∧ (keepReport a0 a1 s).twin = s.twin ∧ (keepReport a0 a1 s).stair = s.stair ∧ (keepReport a0 a1 s).nvm = s.nvm ∧ (keepReport a0 a1 s).streams = s.streams ∧ (keepReport a0 a1 s).mem = s.mem := by
  unfold keepReport
  (try dsimp only)
  (repeat' split) <;> simp [apply_ite]

@[simp] theorem reportSelf_frame (a0 : Nat) (a1 : Bool) (a2 : List Byte) (a3 : List Byte) (s : State) :
    (reportSelf a0 a1 a2 a3 s).pending = s.pending ∧ (reportSelf a0 a1 a2 a3 s).reply = s.reply ∧ (reportSelf a0 a1 a2 a3 s).freeCtr = s.freeCtr ∧ (reportSelf a0 a1 a2 a3 s).cfg = s.cfg ∧ (reportSelf a0 a1 a2 a3 s).pend = s.pend ∧ (reportSelf a0 a1 a2 a3 s).tb = s.tb ∧ (reportSelf a0 a1 a2 a3 s).treads = s.treads ∧ (reportSelf a0 a1 a2 a3 s).halls = s.halls ∧ (reportSelf a0 a1 a2 a3 s).grid = s.grid ∧ (reportSelf a0 a1 a2 a3 s).treadsOld = s.treadsOld ∧ (reportSelf a0 a1 a2 a3 s).meas = s.meas ∧ (reportSelf a0 a1 a2 a3 s).therm = s.therm ∧ (reportSelf a0 a1 a2 a3 s).twin = s.twin ∧ (reportSelf a0 a1 a2 a3 s).stair = s.stair ∧ (reportSelf a0 a1 a2 a3 s).streams = s.streams ∧ (reportSelf a0 a1 a2 a3 s).mem = s.mem := by
  unfold reportSelf
  (try dsimp only)
  (repeat' split) <;> simp [apply_ite]

@[simp] theorem reportGs_frame (a0 : Nat) (a1 : List Byte) (s : State) :
    (reportGs a0 a1 s).pending = s.pending ∧ (reportGs a0 a1 s).reply = s.reply ∧ (reportGs a0 a1 s).freeCtr = s.freeCtr ∧ (reportGs a0 a1 s).cfg = s.cfg ∧ (reportGs a0 a1 s).pend = s.pend ∧ (reportGs a0 a1 s).tb = s.tb ∧ (reportGs a0 a1 s).treads = s.treads ∧ (reportGs a0 a1 s).halls = s.halls ∧ (reportGs a0 a1 s).grid = s.grid ∧ (reportGs a0 a1 s).treadsOld = s.treadsOld ∧ (reportGs a0 a1 s).meas = s.meas ∧ (reportGs a0 a1 s).therm = s.therm ∧ (reportGs a0 a1 s).twin = s.twin ∧ (reportGs a0 a1 s).stair = s.stair ∧ (reportGs a0 a1 s).streams = s.streams ∧ (reportGs a0 a1 s).mem = s.mem := by
  unfold reportGs
  (try dsimp only)
  (repeat' split) <;> simp [apply_ite]

@[simp] theorem reportClass_frame (a0 : Nat) (a1 : List Byte) (a2 : Nat) (s : State) :
    (reportClass a0 a1 a2 s).pending = s.pending ∧ (reportClass a0 a1 a2 s).reply = s.reply ∧ (reportClass a0 a1 a2 s).freeCtr = s.freeCtr ∧ (reportClass a0 a1 a2 s).cfg = s.cfg ∧ (reportClass a0 a1 a2 s).pend = s.pend ∧ (reportClass a0 a1 a2 s).tb = s.tb ∧ (reportClass a0 a1 a2 s).treads = s.treads ∧ (reportClass a0 a1 a2 s).halls = s.halls ∧ (reportClass a0 a1 a2 s).grid = s.grid ∧ (reportClass a0 a1 a2 s).treadsOld = s.treadsOld ∧ (reportClass a0 a1 a2 s).meas = s.meas ∧ (reportClass a0 a1 a2 s).therm = s.therm ∧ (reportClass a0 a1 a2 s).twin = s.twin ∧ (reportClass a0 a1 a2 s).stair = s.stair ∧ (reportClass a0 a1 a2 s).streams = s.streams ∧ (reportClass a0 a1 a2 s).mem = s.mem := by
  unfold reportClass
  (try dsimp only)
  (repeat' split) <;> simp [apply_ite]

@[simp] theorem reportFaults_frame (a0 : Nat) (a1 : List Byte) (a2 : List Byte) (s : State) :
    (reportFaults a0 a1 a2 s).pending = s.pending ∧ (reportFaults a0 a1 a2 s).reply = s.reply ∧ (reportFaults a0 a1 a2 s).freeCtr = s.freeCtr ∧ (reportFaults a0 a1 a2 s).cfg = s.cfg ∧ (reportFaults a0 a1 a2 s).pend = s.pend ∧ (reportFaults a0 a1 a2 s).tb = s.tb ∧ (reportFaults a0 a1 a2 s).treads = s.treads ∧ (reportFaults a0 a1 a2 s).halls = s.halls ∧ (reportFaults a0 a1 a2 s).grid = s.grid ∧ (reportFaults a0 a1 a2 s).treadsOld = s.treadsOld ∧ (reportFaults a0 a1 a2 s).meas = s.meas ∧ (reportFaults a0 a1 a2 s).therm = s.therm ∧ (reportFaults a0 a1 a2 s).twin = s.twin ∧ (reportFaults a0 a1 a2 s).stair = s.stair ∧ (reportFaults a0 a1 a2 s).streams = s.streams ∧ (reportFaults a0 a1 a2 s).mem = s.mem := by
  unfold reportFaults
  (try dsimp only)
  (repeat' split) <;> simp [apply_ite]

@[simp] theorem reportRetry_frame (a0 : Nat) (a1 : List Byte) (s : State) :
    (reportRetry a0 a1 s).pending = s.pending ∧ (reportRetry a0 a1 s).reply = s.reply ∧ (reportRetry a0 a1 s).freeCtr = s.freeCtr ∧ (reportRetry a0 a1 s).cfg = s.cfg ∧ (reportRetry a0 a1 s).pend = s.pend ∧ (reportRetry a0 a1 s).tb = s.tb ∧ (reportRetry a0 a1 s).treads = s.treads ∧ (reportRetry a0 a1 s).halls = s.halls ∧ (reportRetry a0 a1 s).grid = s.grid ∧ (reportRetry a0 a1 s).treadsOld = s.treadsOld ∧ (reportRetry a0 a1 s).meas = s.meas ∧ (reportRetry a0 a1 s).therm = s.therm ∧ (reportRetry a0 a1 s).twin = s.twin ∧ (reportRetry a0 a1 s).stair = s.stair ∧ (reportRetry a0 a1 s).streams = s.streams ∧ (reportRetry a0 a1 s).mem = s.mem := by
  unfold reportRetry
  (try dsimp only)
  (repeat' split) <;> simp [apply_ite]

@[simp] theorem reportUnder_frame (a0 : Nat) (s : State) :
    (reportUnder a0 s).pending = s.pending ∧ (reportUnder a0 s).reply = s.reply ∧ (reportUnder a0 s).freeCtr = s.freeCtr ∧ (reportUnder a0 s).cfg = s.cfg ∧ (reportUnder a0 s).pend = s.pend ∧ (reportUnder a0 s).tb = s.tb ∧ (reportUnder a0 s).treads = s.treads ∧ (reportUnder a0 s).halls = s.halls ∧ (reportUnder a0 s).grid = s.grid ∧ (reportUnder a0 s).treadsOld = s.treadsOld ∧ (reportUnder a0 s).meas = s.meas ∧ (reportUnder a0 s).therm = s.therm ∧ (reportUnder a0 s).twin = s.twin ∧ (reportUnder a0 s).stair = s.stair ∧ (reportUnder a0 s).streams = s.streams ∧ (reportUnder a0 s).mem = s.mem := by
  unfold reportUnder
  (try dsimp only)
  (repeat' split) <;> simp [apply_ite]

@[simp] theorem reportDerate_frame (a0 : Nat) (a1 : List Byte) (s : State) :
    (reportDerate a0 a1 s).pending = s.pending ∧ (reportDerate a0 a1 s).reply = s.reply ∧ (reportDerate a0 a1 s).out = s.out ∧ (reportDerate a0 a1 s).freeCtr = s.freeCtr ∧ (reportDerate a0 a1 s).aon = s.aon ∧ (reportDerate a0 a1 s).cfg = s.cfg ∧ (reportDerate a0 a1 s).pend = s.pend ∧ (reportDerate a0 a1 s).tb = s.tb ∧ (reportDerate a0 a1 s).events = s.events ∧ (reportDerate a0 a1 s).host = s.host ∧ (reportDerate a0 a1 s).treads = s.treads ∧ (reportDerate a0 a1 s).flights = s.flights ∧ (reportDerate a0 a1 s).halls = s.halls ∧ (reportDerate a0 a1 s).grid = s.grid ∧ (reportDerate a0 a1 s).atr = s.atr ∧ (reportDerate a0 a1 s).treadsOld = s.treadsOld ∧ (reportDerate a0 a1 s).meas = s.meas ∧ (reportDerate a0 a1 s).safe = s.safe ∧ (reportDerate a0 a1 s).therm = s.therm ∧ (reportDerate a0 a1 s).twin = s.twin ∧ (reportDerate a0 a1 s).stair = s.stair ∧ (reportDerate a0 a1 s).nvm = s.nvm ∧ (reportDerate a0 a1 s).streams = s.streams ∧ (reportDerate a0 a1 s).mem = s.mem := by
  unfold reportDerate
  (try dsimp only)
  (repeat' split) <;> simp [apply_ite]

@[simp] theorem reportRestore_frame (a0 : Nat) (a1 : List Byte) (s : State) :
    (reportRestore a0 a1 s).pending = s.pending ∧ (reportRestore a0 a1 s).reply = s.reply ∧ (reportRestore a0 a1 s).out = s.out ∧ (reportRestore a0 a1 s).freeCtr = s.freeCtr ∧ (reportRestore a0 a1 s).aon = s.aon ∧ (reportRestore a0 a1 s).cfg = s.cfg ∧ (reportRestore a0 a1 s).pend = s.pend ∧ (reportRestore a0 a1 s).tb = s.tb ∧ (reportRestore a0 a1 s).events = s.events ∧ (reportRestore a0 a1 s).host = s.host ∧ (reportRestore a0 a1 s).treads = s.treads ∧ (reportRestore a0 a1 s).flights = s.flights ∧ (reportRestore a0 a1 s).halls = s.halls ∧ (reportRestore a0 a1 s).grid = s.grid ∧ (reportRestore a0 a1 s).atr = s.atr ∧ (reportRestore a0 a1 s).treadsOld = s.treadsOld ∧ (reportRestore a0 a1 s).meas = s.meas ∧ (reportRestore a0 a1 s).safe = s.safe ∧ (reportRestore a0 a1 s).therm = s.therm ∧ (reportRestore a0 a1 s).twin = s.twin ∧ (reportRestore a0 a1 s).stair = s.stair ∧ (reportRestore a0 a1 s).nvm = s.nvm ∧ (reportRestore a0 a1 s).streams = s.streams ∧ (reportRestore a0 a1 s).mem = s.mem := by
  unfold reportRestore
  (try dsimp only)
  (repeat' split) <;> simp [apply_ite]

@[simp] theorem reportTime_frame (a0 : Nat) (a1 : List Byte) (s : State) :
    (reportTime a0 a1 s).pending = s.pending ∧ (reportTime a0 a1 s).reply = s.reply ∧ (reportTime a0 a1 s).freeCtr = s.freeCtr ∧ (reportTime a0 a1 s).cfg = s.cfg ∧ (reportTime a0 a1 s).pend = s.pend ∧ (reportTime a0 a1 s).tb = s.tb ∧ (reportTime a0 a1 s).treads = s.treads ∧ (reportTime a0 a1 s).halls = s.halls ∧ (reportTime a0 a1 s).grid = s.grid ∧ (reportTime a0 a1 s).treadsOld = s.treadsOld ∧ (reportTime a0 a1 s).meas = s.meas ∧ (reportTime a0 a1 s).therm = s.therm ∧ (reportTime a0 a1 s).twin = s.twin ∧ (reportTime a0 a1 s).stair = s.stair ∧ (reportTime a0 a1 s).streams = s.streams ∧ (reportTime a0 a1 s).mem = s.mem := by
  unfold reportTime
  (try dsimp only)
  (repeat' split) <;> simp [apply_ite]

@[simp] theorem reportCrc_frame (a0 : Nat) (a1 : List Byte) (s : State) :
    (reportCrc a0 a1 s).pending = s.pending ∧ (reportCrc a0 a1 s).reply = s.reply ∧ (reportCrc a0 a1 s).freeCtr = s.freeCtr ∧ (reportCrc a0 a1 s).cfg = s.cfg ∧ (reportCrc a0 a1 s).pend = s.pend ∧ (reportCrc a0 a1 s).tb = s.tb ∧ (reportCrc a0 a1 s).treads = s.treads ∧ (reportCrc a0 a1 s).halls = s.halls ∧ (reportCrc a0 a1 s).grid = s.grid ∧ (reportCrc a0 a1 s).treadsOld = s.treadsOld ∧ (reportCrc a0 a1 s).meas = s.meas ∧ (reportCrc a0 a1 s).therm = s.therm ∧ (reportCrc a0 a1 s).twin = s.twin ∧ (reportCrc a0 a1 s).stair = s.stair ∧ (reportCrc a0 a1 s).streams = s.streams ∧ (reportCrc a0 a1 s).mem = s.mem := by
  unfold reportCrc
  (try dsimp only)
  (repeat' split) <;> simp [apply_ite]

@[simp] theorem dropDecisions_frame (a0 : Nat) (a1 : List Byte) (s : State) :
    (dropDecisions a0 a1 s).pending = s.pending ∧ (dropDecisions a0 a1 s).reply = s.reply ∧ (dropDecisions a0 a1 s).out = s.out ∧ (dropDecisions a0 a1 s).freeCtr = s.freeCtr ∧ (dropDecisions a0 a1 s).aon = s.aon ∧ (dropDecisions a0 a1 s).cfg = s.cfg ∧ (dropDecisions a0 a1 s).pend = s.pend ∧ (dropDecisions a0 a1 s).tb = s.tb ∧ (dropDecisions a0 a1 s).events = s.events ∧ (dropDecisions a0 a1 s).host = s.host ∧ (dropDecisions a0 a1 s).treads = s.treads ∧ (dropDecisions a0 a1 s).cells = s.cells ∧ (dropDecisions a0 a1 s).flights = s.flights ∧ (dropDecisions a0 a1 s).halls = s.halls ∧ (dropDecisions a0 a1 s).grid = s.grid ∧ (dropDecisions a0 a1 s).atr = s.atr ∧ (dropDecisions a0 a1 s).treadsOld = s.treadsOld ∧ (dropDecisions a0 a1 s).meas = s.meas ∧ (dropDecisions a0 a1 s).safe = s.safe ∧ (dropDecisions a0 a1 s).therm = s.therm ∧ (dropDecisions a0 a1 s).stair = s.stair ∧ (dropDecisions a0 a1 s).nvm = s.nvm ∧ (dropDecisions a0 a1 s).streams = s.streams ∧ (dropDecisions a0 a1 s).mem = s.mem := by
  unfold dropDecisions
  (try dsimp only)
  (repeat' split) <;> simp [apply_ite]

@[simp] theorem freshReport_frame (a0 : Nat) (a1 : List Byte) (s : State) :
    (freshReport a0 a1 s).pending = s.pending ∧ (freshReport a0 a1 s).reply = s.reply ∧ (freshReport a0 a1 s).freeCtr = s.freeCtr ∧ (freshReport a0 a1 s).cfg = s.cfg ∧ (freshReport a0 a1 s).pend = s.pend ∧ (freshReport a0 a1 s).tb = s.tb ∧ (freshReport a0 a1 s).treads = s.treads ∧ (freshReport a0 a1 s).halls = s.halls ∧ (freshReport a0 a1 s).grid = s.grid ∧ (freshReport a0 a1 s).treadsOld = s.treadsOld ∧ (freshReport a0 a1 s).meas = s.meas ∧ (freshReport a0 a1 s).therm = s.therm ∧ (freshReport a0 a1 s).twin = s.twin ∧ (freshReport a0 a1 s).stair = s.stair ∧ (freshReport a0 a1 s).streams = s.streams ∧ (freshReport a0 a1 s).mem = s.mem := by
  unfold freshReport
  (try dsimp only)
  (repeat' split) <;> simp [apply_ite]

@[simp] theorem reportDecisions_frame (a0 : Nat) (a1 : Bool) (a2 : List Byte) (a3 : List Byte) (s : State) :
    (reportDecisions a0 a1 a2 a3 s).pending = s.pending ∧ (reportDecisions a0 a1 a2 a3 s).reply = s.reply ∧ (reportDecisions a0 a1 a2 a3 s).freeCtr = s.freeCtr ∧ (reportDecisions a0 a1 a2 a3 s).cfg = s.cfg ∧ (reportDecisions a0 a1 a2 a3 s).pend = s.pend ∧ (reportDecisions a0 a1 a2 a3 s).tb = s.tb ∧ (reportDecisions a0 a1 a2 a3 s).treads = s.treads ∧ (reportDecisions a0 a1 a2 a3 s).halls = s.halls ∧ (reportDecisions a0 a1 a2 a3 s).grid = s.grid ∧ (reportDecisions a0 a1 a2 a3 s).treadsOld = s.treadsOld ∧ (reportDecisions a0 a1 a2 a3 s).meas = s.meas ∧ (reportDecisions a0 a1 a2 a3 s).therm = s.therm ∧ (reportDecisions a0 a1 a2 a3 s).stair = s.stair ∧ (reportDecisions a0 a1 a2 a3 s).streams = s.streams ∧ (reportDecisions a0 a1 a2 a3 s).mem = s.mem := by
  unfold reportDecisions
  (try dsimp only)
  (repeat' split) <;> simp [apply_ite]

@[simp] theorem takeReport_frame (a0 : Nat) (a1 : List Byte) (s : State) :
    (takeReport a0 a1 s).pending = s.pending ∧ (takeReport a0 a1 s).reply = s.reply ∧ (takeReport a0 a1 s).freeCtr = s.freeCtr ∧ (takeReport a0 a1 s).cfg = s.cfg ∧ (takeReport a0 a1 s).pend = s.pend ∧ (takeReport a0 a1 s).tb = s.tb ∧ (takeReport a0 a1 s).halls = s.halls ∧ (takeReport a0 a1 s).grid = s.grid ∧ (takeReport a0 a1 s).treadsOld = s.treadsOld ∧ (takeReport a0 a1 s).therm = s.therm ∧ (takeReport a0 a1 s).stair = s.stair ∧ (takeReport a0 a1 s).streams = s.streams ∧ (takeReport a0 a1 s).mem = s.mem := by
  unfold takeReport
  (try dsimp only)
  (repeat' split) <;> simp [apply_ite]

@[simp] theorem missReport_frame (a0 : Nat) (s : State) :
    (missReport a0 s).pending = s.pending ∧ (missReport a0 s).reply = s.reply ∧ (missReport a0 s).freeCtr = s.freeCtr ∧ (missReport a0 s).cfg = s.cfg ∧ (missReport a0 s).pend = s.pend ∧ (missReport a0 s).tb = s.tb ∧ (missReport a0 s).halls = s.halls ∧ (missReport a0 s).grid = s.grid ∧ (missReport a0 s).treadsOld = s.treadsOld ∧ (missReport a0 s).meas = s.meas ∧ (missReport a0 s).therm = s.therm ∧ (missReport a0 s).twin = s.twin ∧ (missReport a0 s).stair = s.stair ∧ (missReport a0 s).streams = s.streams ∧ (missReport a0 s).mem = s.mem := by
  unfold missReport
  (try dsimp only)
  (repeat' split) <;> simp [apply_ite]

@[simp] theorem countGather_frame (a0 : Nat) (s : State) :
    (countGather a0 s).pending = s.pending ∧ (countGather a0 s).reply = s.reply ∧ (countGather a0 s).out = s.out ∧ (countGather a0 s).freeCtr = s.freeCtr ∧ (countGather a0 s).aon = s.aon ∧ (countGather a0 s).cfg = s.cfg ∧ (countGather a0 s).pend = s.pend ∧ (countGather a0 s).tb = s.tb ∧ (countGather a0 s).events = s.events ∧ (countGather a0 s).host = s.host ∧ (countGather a0 s).treads = s.treads ∧ (countGather a0 s).flights = s.flights ∧ (countGather a0 s).halls = s.halls ∧ (countGather a0 s).grid = s.grid ∧ (countGather a0 s).atr = s.atr ∧ (countGather a0 s).treadsOld = s.treadsOld ∧ (countGather a0 s).meas = s.meas ∧ (countGather a0 s).safe = s.safe ∧ (countGather a0 s).therm = s.therm ∧ (countGather a0 s).twin = s.twin ∧ (countGather a0 s).stair = s.stair ∧ (countGather a0 s).nvm = s.nvm ∧ (countGather a0 s).streams = s.streams ∧ (countGather a0 s).mem = s.mem := by
  unfold countGather
  (try dsimp only)
  (repeat' split) <;> simp [apply_ite]

@[simp] theorem sampleCell_frame (a0 : Nat) (s : State) :
    (sampleCell a0 s).pending = s.pending ∧ (sampleCell a0 s).reply = s.reply ∧ (sampleCell a0 s).out = s.out ∧ (sampleCell a0 s).freeCtr = s.freeCtr ∧ (sampleCell a0 s).aon = s.aon ∧ (sampleCell a0 s).cfg = s.cfg ∧ (sampleCell a0 s).pend = s.pend ∧ (sampleCell a0 s).tb = s.tb ∧ (sampleCell a0 s).events = s.events ∧ (sampleCell a0 s).host = s.host ∧ (sampleCell a0 s).treads = s.treads ∧ (sampleCell a0 s).flights = s.flights ∧ (sampleCell a0 s).halls = s.halls ∧ (sampleCell a0 s).grid = s.grid ∧ (sampleCell a0 s).atr = s.atr ∧ (sampleCell a0 s).treadsOld = s.treadsOld ∧ (sampleCell a0 s).meas = s.meas ∧ (sampleCell a0 s).safe = s.safe ∧ (sampleCell a0 s).therm = s.therm ∧ (sampleCell a0 s).twin = s.twin ∧ (sampleCell a0 s).stair = s.stair ∧ (sampleCell a0 s).nvm = s.nvm ∧ (sampleCell a0 s).streams = s.streams ∧ (sampleCell a0 s).mem = s.mem := by
  unfold sampleCell
  (try dsimp only)
  (repeat' split) <;> simp [apply_ite]

@[simp] theorem takeSlots_frame (a0 : Nat) (a1 : Route) (a2 : List (List Byte)) (s : State) :
    (takeSlots a0 a1 a2 s).pending = s.pending ∧ (takeSlots a0 a1 a2 s).reply = s.reply ∧ (takeSlots a0 a1 a2 s).freeCtr = s.freeCtr ∧ (takeSlots a0 a1 a2 s).cfg = s.cfg ∧ (takeSlots a0 a1 a2 s).pend = s.pend ∧ (takeSlots a0 a1 a2 s).tb = s.tb ∧ (takeSlots a0 a1 a2 s).halls = s.halls ∧ (takeSlots a0 a1 a2 s).grid = s.grid ∧ (takeSlots a0 a1 a2 s).treadsOld = s.treadsOld ∧ (takeSlots a0 a1 a2 s).therm = s.therm ∧ (takeSlots a0 a1 a2 s).stair = s.stair ∧ (takeSlots a0 a1 a2 s).streams = s.streams ∧ (takeSlots a0 a1 a2 s).mem = s.mem := by
  unfold takeSlots
  (try dsimp only)
  (repeat' split) <;> simp [apply_ite]

@[simp] theorem missUnserved_frame (a0 : Nat) (s : State) :
    (missUnserved a0 s).pending = s.pending ∧ (missUnserved a0 s).reply = s.reply ∧ (missUnserved a0 s).freeCtr = s.freeCtr ∧ (missUnserved a0 s).cfg = s.cfg ∧ (missUnserved a0 s).pend = s.pend ∧ (missUnserved a0 s).tb = s.tb ∧ (missUnserved a0 s).halls = s.halls ∧ (missUnserved a0 s).grid = s.grid ∧ (missUnserved a0 s).treadsOld = s.treadsOld ∧ (missUnserved a0 s).meas = s.meas ∧ (missUnserved a0 s).therm = s.therm ∧ (missUnserved a0 s).twin = s.twin ∧ (missUnserved a0 s).stair = s.stair ∧ (missUnserved a0 s).streams = s.streams ∧ (missUnserved a0 s).mem = s.mem := by
  unfold missUnserved
  (try dsimp only)
  (repeat' split) <;> simp [apply_ite]

@[simp] theorem runFlight_frame (a0 : Nat) (s : State) :
    (runFlight a0 s).pending = s.pending ∧ (runFlight a0 s).reply = s.reply ∧ (runFlight a0 s).freeCtr = s.freeCtr ∧ (runFlight a0 s).cfg = s.cfg ∧ (runFlight a0 s).pend = s.pend ∧ (runFlight a0 s).tb = s.tb ∧ (runFlight a0 s).treads = s.treads ∧ (runFlight a0 s).halls = s.halls ∧ (runFlight a0 s).grid = s.grid ∧ (runFlight a0 s).treadsOld = s.treadsOld ∧ (runFlight a0 s).meas = s.meas ∧ (runFlight a0 s).therm = s.therm ∧ (runFlight a0 s).twin = s.twin ∧ (runFlight a0 s).stair = s.stair ∧ (runFlight a0 s).streams = s.streams ∧ (runFlight a0 s).mem = s.mem := by
  unfold runFlight
  (try dsimp only)
  (repeat' split) <;> simp [apply_ite]

@[simp] theorem gatherDone_frame (a0 : Nat) (s : State) :
    (gatherDone a0 s).pending = s.pending ∧ (gatherDone a0 s).reply = s.reply ∧ (gatherDone a0 s).freeCtr = s.freeCtr ∧ (gatherDone a0 s).cfg = s.cfg ∧ (gatherDone a0 s).pend = s.pend ∧ (gatherDone a0 s).tb = s.tb ∧ (gatherDone a0 s).halls = s.halls ∧ (gatherDone a0 s).grid = s.grid ∧ (gatherDone a0 s).treadsOld = s.treadsOld ∧ (gatherDone a0 s).meas = s.meas ∧ (gatherDone a0 s).therm = s.therm ∧ (gatherDone a0 s).twin = s.twin ∧ (gatherDone a0 s).stair = s.stair ∧ (gatherDone a0 s).streams = s.streams ∧ (gatherDone a0 s).mem = s.mem := by
  unfold gatherDone
  (try dsimp only)
  (repeat' split) <;> simp [apply_ite]

@[simp] theorem gatherOut_frame (a0 : Nat) (s : State) :
    (gatherOut a0 s).pending = s.pending ∧ (gatherOut a0 s).reply = s.reply ∧ (gatherOut a0 s).freeCtr = s.freeCtr ∧ (gatherOut a0 s).cfg = s.cfg ∧ (gatherOut a0 s).pend = s.pend ∧ (gatherOut a0 s).tb = s.tb ∧ (gatherOut a0 s).halls = s.halls ∧ (gatherOut a0 s).grid = s.grid ∧ (gatherOut a0 s).treadsOld = s.treadsOld ∧ (gatherOut a0 s).meas = s.meas ∧ (gatherOut a0 s).therm = s.therm ∧ (gatherOut a0 s).twin = s.twin ∧ (gatherOut a0 s).stair = s.stair ∧ (gatherOut a0 s).streams = s.streams ∧ (gatherOut a0 s).mem = s.mem := by
  unfold gatherOut
  (try dsimp only)
  (repeat' split) <;> simp [apply_ite]

theorem execGatherDeparture_frame (s t : State) (h : execGatherDeparture s = .next t) :
    t.pending = s.pending ∧ t.reply = s.reply ∧ t.freeCtr = s.freeCtr ∧ t.cfg = s.cfg ∧ t.pend = s.pend ∧ t.halls = s.halls ∧ t.grid = s.grid ∧ t.treadsOld = s.treadsOld ∧ t.meas = s.meas ∧ t.therm = s.therm ∧ t.twin = s.twin ∧ t.stair = s.stair ∧ t.streams = s.streams ∧ t.mem = s.mem := by
  unfold execGatherDeparture at h; cases h; (try dsimp only); (repeat' split) <;> simp [apply_ite]

@[simp] theorem measureRoute_frame (a0 : Nat) (a1 : Nat) (a2 : Route) (s : State) :
    (measureRoute a0 a1 a2 s).pending = s.pending ∧ (measureRoute a0 a1 a2 s).reply = s.reply ∧ (measureRoute a0 a1 a2 s).out = s.out ∧ (measureRoute a0 a1 a2 s).freeCtr = s.freeCtr ∧ (measureRoute a0 a1 a2 s).aon = s.aon ∧ (measureRoute a0 a1 a2 s).cfg = s.cfg ∧ (measureRoute a0 a1 a2 s).pend = s.pend ∧ (measureRoute a0 a1 a2 s).tb = s.tb ∧ (measureRoute a0 a1 a2 s).events = s.events ∧ (measureRoute a0 a1 a2 s).host = s.host ∧ (measureRoute a0 a1 a2 s).treads = s.treads ∧ (measureRoute a0 a1 a2 s).cells = s.cells ∧ (measureRoute a0 a1 a2 s).halls = s.halls ∧ (measureRoute a0 a1 a2 s).grid = s.grid ∧ (measureRoute a0 a1 a2 s).atr = s.atr ∧ (measureRoute a0 a1 a2 s).treadsOld = s.treadsOld ∧ (measureRoute a0 a1 a2 s).meas = s.meas ∧ (measureRoute a0 a1 a2 s).safe = s.safe ∧ (measureRoute a0 a1 a2 s).therm = s.therm ∧ (measureRoute a0 a1 a2 s).twin = s.twin ∧ (measureRoute a0 a1 a2 s).stair = s.stair ∧ (measureRoute a0 a1 a2 s).nvm = s.nvm ∧ (measureRoute a0 a1 a2 s).streams = s.streams ∧ (measureRoute a0 a1 a2 s).mem = s.mem := by
  unfold measureRoute
  (try dsimp only)
  (repeat' split) <;> simp [apply_ite]

@[simp] theorem routeIn_frame (a0 : Nat) (a1 : Bool) (a2 : Bool) (s : State) :
    (routeIn a0 a1 a2 s).pending = s.pending ∧ (routeIn a0 a1 a2 s).reply = s.reply ∧ (routeIn a0 a1 a2 s).out = s.out ∧ (routeIn a0 a1 a2 s).freeCtr = s.freeCtr ∧ (routeIn a0 a1 a2 s).aon = s.aon ∧ (routeIn a0 a1 a2 s).cfg = s.cfg ∧ (routeIn a0 a1 a2 s).pend = s.pend ∧ (routeIn a0 a1 a2 s).tb = s.tb ∧ (routeIn a0 a1 a2 s).events = s.events ∧ (routeIn a0 a1 a2 s).host = s.host ∧ (routeIn a0 a1 a2 s).treads = s.treads ∧ (routeIn a0 a1 a2 s).cells = s.cells ∧ (routeIn a0 a1 a2 s).halls = s.halls ∧ (routeIn a0 a1 a2 s).grid = s.grid ∧ (routeIn a0 a1 a2 s).atr = s.atr ∧ (routeIn a0 a1 a2 s).treadsOld = s.treadsOld ∧ (routeIn a0 a1 a2 s).meas = s.meas ∧ (routeIn a0 a1 a2 s).safe = s.safe ∧ (routeIn a0 a1 a2 s).therm = s.therm ∧ (routeIn a0 a1 a2 s).twin = s.twin ∧ (routeIn a0 a1 a2 s).stair = s.stair ∧ (routeIn a0 a1 a2 s).nvm = s.nvm ∧ (routeIn a0 a1 a2 s).streams = s.streams ∧ (routeIn a0 a1 a2 s).mem = s.mem := by
  unfold routeIn
  (try dsimp only)
  (repeat' split) <;> simp [apply_ite]

@[simp] theorem relayGather_frame (a0 : Fin 9) (a1 : Route) (a2 : Nat) (a3 : Word) (a4 : List (List Byte)) (s : State) :
    (relayGather a0 a1 a2 a3 a4 s).pending = s.pending ∧ (relayGather a0 a1 a2 a3 a4 s).reply = s.reply ∧ (relayGather a0 a1 a2 a3 a4 s).freeCtr = s.freeCtr ∧ (relayGather a0 a1 a2 a3 a4 s).aon = s.aon ∧ (relayGather a0 a1 a2 a3 a4 s).cfg = s.cfg ∧ (relayGather a0 a1 a2 a3 a4 s).pend = s.pend ∧ (relayGather a0 a1 a2 a3 a4 s).tb = s.tb ∧ (relayGather a0 a1 a2 a3 a4 s).events = s.events ∧ (relayGather a0 a1 a2 a3 a4 s).host = s.host ∧ (relayGather a0 a1 a2 a3 a4 s).treads = s.treads ∧ (relayGather a0 a1 a2 a3 a4 s).cells = s.cells ∧ (relayGather a0 a1 a2 a3 a4 s).flights = s.flights ∧ (relayGather a0 a1 a2 a3 a4 s).halls = s.halls ∧ (relayGather a0 a1 a2 a3 a4 s).grid = s.grid ∧ (relayGather a0 a1 a2 a3 a4 s).atr = s.atr ∧ (relayGather a0 a1 a2 a3 a4 s).treadsOld = s.treadsOld ∧ (relayGather a0 a1 a2 a3 a4 s).meas = s.meas ∧ (relayGather a0 a1 a2 a3 a4 s).safe = s.safe ∧ (relayGather a0 a1 a2 a3 a4 s).therm = s.therm ∧ (relayGather a0 a1 a2 a3 a4 s).twin = s.twin ∧ (relayGather a0 a1 a2 a3 a4 s).stair = s.stair ∧ (relayGather a0 a1 a2 a3 a4 s).nvm = s.nvm ∧ (relayGather a0 a1 a2 a3 a4 s).streams = s.streams ∧ (relayGather a0 a1 a2 a3 a4 s).mem = s.mem := by
  unfold relayGather
  (try dsimp only)
  (repeat' split) <;> simp [apply_ite]

theorem execGatherReturn_frame (a0 : Fin 9) (a1 : Bool) (a2 : Nat) (a3 : GatherTrain) (s t : State) (h : execGatherReturn a0 a1 a2 a3 s = .next t) :
    t.pending = s.pending ∧ t.reply = s.reply ∧ t.freeCtr = s.freeCtr ∧ t.cfg = s.cfg ∧ t.pend = s.pend ∧ t.tb = s.tb ∧ t.halls = s.halls ∧ t.grid = s.grid ∧ t.treadsOld = s.treadsOld ∧ t.therm = s.therm ∧ t.stair = s.stair ∧ t.streams = s.streams ∧ t.mem = s.mem := by
  unfold execGatherReturn at h; cases h; (try dsimp only); (repeat' split) <;> simp [apply_ite]

theorem execGatherLost_frame (a0 : Fin 9) (a1 : Bool) (s t : State) (h : execGatherLost a0 a1 s = .next t) :
    t.pending = s.pending ∧ t.reply = s.reply ∧ t.freeCtr = s.freeCtr ∧ t.cfg = s.cfg ∧ t.pend = s.pend ∧ t.halls = s.halls ∧ t.grid = s.grid ∧ t.treadsOld = s.treadsOld ∧ t.therm = s.therm ∧ t.stair = s.stair ∧ t.streams = s.streams ∧ t.mem = s.mem := by
  unfold execGatherLost at h; cases h; (try dsimp only); (repeat' split) <;> simp [apply_ite]

@[simp] theorem countSc_frame (a0 : Nat) (s : State) :
    (countSc a0 s).pending = s.pending ∧ (countSc a0 s).reply = s.reply ∧ (countSc a0 s).freeCtr = s.freeCtr ∧ (countSc a0 s).cfg = s.cfg ∧ (countSc a0 s).pend = s.pend ∧ (countSc a0 s).tb = s.tb ∧ (countSc a0 s).treads = s.treads ∧ (countSc a0 s).grid = s.grid ∧ (countSc a0 s).treadsOld = s.treadsOld ∧ (countSc a0 s).meas = s.meas ∧ (countSc a0 s).therm = s.therm ∧ (countSc a0 s).twin = s.twin ∧ (countSc a0 s).stair = s.stair ∧ (countSc a0 s).streams = s.streams ∧ (countSc a0 s).mem = s.mem := by
  unfold countSc
  (try dsimp only)
  (repeat' split) <;> simp [apply_ite]

@[simp] theorem noteAlarm_frame (a0 : Nat) (a1 : Nat) (s : State) :
    (noteAlarm a0 a1 s).pending = s.pending ∧ (noteAlarm a0 a1 s).reply = s.reply ∧ (noteAlarm a0 a1 s).out = s.out ∧ (noteAlarm a0 a1 s).freeCtr = s.freeCtr ∧ (noteAlarm a0 a1 s).aon = s.aon ∧ (noteAlarm a0 a1 s).cfg = s.cfg ∧ (noteAlarm a0 a1 s).pend = s.pend ∧ (noteAlarm a0 a1 s).tb = s.tb ∧ (noteAlarm a0 a1 s).events = s.events ∧ (noteAlarm a0 a1 s).host = s.host ∧ (noteAlarm a0 a1 s).treads = s.treads ∧ (noteAlarm a0 a1 s).flights = s.flights ∧ (noteAlarm a0 a1 s).halls = s.halls ∧ (noteAlarm a0 a1 s).grid = s.grid ∧ (noteAlarm a0 a1 s).atr = s.atr ∧ (noteAlarm a0 a1 s).treadsOld = s.treadsOld ∧ (noteAlarm a0 a1 s).meas = s.meas ∧ (noteAlarm a0 a1 s).safe = s.safe ∧ (noteAlarm a0 a1 s).therm = s.therm ∧ (noteAlarm a0 a1 s).twin = s.twin ∧ (noteAlarm a0 a1 s).stair = s.stair ∧ (noteAlarm a0 a1 s).nvm = s.nvm ∧ (noteAlarm a0 a1 s).streams = s.streams ∧ (noteAlarm a0 a1 s).mem = s.mem := by
  unfold noteAlarm
  (try dsimp only)
  (repeat' split) <;> simp [apply_ite]

@[simp] theorem alarm_frame (a0 : Nat) (a1 : Nat) (s : State) :
    (alarm a0 a1 s).pending = s.pending ∧ (alarm a0 a1 s).reply = s.reply ∧ (alarm a0 a1 s).freeCtr = s.freeCtr ∧ (alarm a0 a1 s).cfg = s.cfg ∧ (alarm a0 a1 s).pend = s.pend ∧ (alarm a0 a1 s).tb = s.tb ∧ (alarm a0 a1 s).treads = s.treads ∧ (alarm a0 a1 s).grid = s.grid ∧ (alarm a0 a1 s).treadsOld = s.treadsOld ∧ (alarm a0 a1 s).meas = s.meas ∧ (alarm a0 a1 s).therm = s.therm ∧ (alarm a0 a1 s).twin = s.twin ∧ (alarm a0 a1 s).stair = s.stair ∧ (alarm a0 a1 s).streams = s.streams ∧ (alarm a0 a1 s).mem = s.mem := by
  unfold alarm
  (try dsimp only)
  (repeat' split) <;> simp [apply_ite]

theorem execAlmReceived_frame (a0 : Fin 9) (a1 : Bool) (a2 : Byte) (a3 : Byte) (a4 : Byte) (s t : State) (h : execAlmReceived a0 a1 a2 a3 a4 s = .next t) :
    t.pending = s.pending ∧ t.reply = s.reply ∧ t.freeCtr = s.freeCtr ∧ t.cfg = s.cfg ∧ t.pend = s.pend ∧ t.tb = s.tb ∧ t.treads = s.treads ∧ t.grid = s.grid ∧ t.treadsOld = s.treadsOld ∧ t.meas = s.meas ∧ t.therm = s.therm ∧ t.twin = s.twin ∧ t.stair = s.stair ∧ t.streams = s.streams ∧ t.mem = s.mem := by
  unfold execAlmReceived at h; cases h; (try dsimp only); (repeat' split) <;> simp [apply_ite]

@[simp] theorem surveyGo_frame (a0 : Nat) (a1 : Word) (s : State) :
    (surveyGo a0 a1 s).2.pending = s.pending ∧ (surveyGo a0 a1 s).2.reply = s.reply ∧ (surveyGo a0 a1 s).2.out = s.out ∧ (surveyGo a0 a1 s).2.freeCtr = s.freeCtr ∧ (surveyGo a0 a1 s).2.aon = s.aon ∧ (surveyGo a0 a1 s).2.cfg = s.cfg ∧ (surveyGo a0 a1 s).2.pend = s.pend ∧ (surveyGo a0 a1 s).2.tb = s.tb ∧ (surveyGo a0 a1 s).2.events = s.events ∧ (surveyGo a0 a1 s).2.host = s.host ∧ (surveyGo a0 a1 s).2.treads = s.treads ∧ (surveyGo a0 a1 s).2.cells = s.cells ∧ (surveyGo a0 a1 s).2.halls = s.halls ∧ (surveyGo a0 a1 s).2.grid = s.grid ∧ (surveyGo a0 a1 s).2.atr = s.atr ∧ (surveyGo a0 a1 s).2.treadsOld = s.treadsOld ∧ (surveyGo a0 a1 s).2.meas = s.meas ∧ (surveyGo a0 a1 s).2.safe = s.safe ∧ (surveyGo a0 a1 s).2.therm = s.therm ∧ (surveyGo a0 a1 s).2.twin = s.twin ∧ (surveyGo a0 a1 s).2.stair = s.stair ∧ (surveyGo a0 a1 s).2.nvm = s.nvm ∧ (surveyGo a0 a1 s).2.streams = s.streams ∧ (surveyGo a0 a1 s).2.mem = s.mem := by
  unfold surveyGo
  (try dsimp only)
  (repeat' split) <;> simp [apply_ite]

theorem execFltSurveyGo_frame (a0 : Fin 9) (a1 : Word) (s t : State) (h : execFltSurveyGo a0 a1 s = .next t) :
    t.pending = s.pending ∧ t.out = s.out ∧ t.freeCtr = s.freeCtr ∧ t.aon = s.aon ∧ t.cfg = s.cfg ∧ t.pend = s.pend ∧ t.tb = s.tb ∧ t.events = s.events ∧ t.host = s.host ∧ t.treads = s.treads ∧ t.cells = s.cells ∧ t.halls = s.halls ∧ t.grid = s.grid ∧ t.atr = s.atr ∧ t.treadsOld = s.treadsOld ∧ t.meas = s.meas ∧ t.safe = s.safe ∧ t.therm = s.therm ∧ t.twin = s.twin ∧ t.stair = s.stair ∧ t.nvm = s.nvm ∧ t.streams = s.streams ∧ t.mem = s.mem := by
  unfold execFltSurveyGo at h; cases h; (try dsimp only); (repeat' split) <;> simp [apply_ite]

theorem execSurveyDone_frame (a0 : Fin 9) (a1 : Word) (s t : State) (h : execSurveyDone a0 a1 s = .next t) :
    t.pending = s.pending ∧ t.reply = s.reply ∧ t.out = s.out ∧ t.freeCtr = s.freeCtr ∧ t.aon = s.aon ∧ t.cfg = s.cfg ∧ t.pend = s.pend ∧ t.tb = s.tb ∧ t.events = s.events ∧ t.host = s.host ∧ t.treads = s.treads ∧ t.cells = s.cells ∧ t.halls = s.halls ∧ t.grid = s.grid ∧ t.atr = s.atr ∧ t.treadsOld = s.treadsOld ∧ t.meas = s.meas ∧ t.safe = s.safe ∧ t.therm = s.therm ∧ t.twin = s.twin ∧ t.stair = s.stair ∧ t.nvm = s.nvm ∧ t.streams = s.streams ∧ t.mem = s.mem := by
  unfold execSurveyDone at h; cases h; (try dsimp only); (repeat' split) <;> simp [apply_ite]

@[simp] theorem sendProbe_frame (a0 : Nat) (s : State) :
    (sendProbe a0 s).pending = s.pending ∧ (sendProbe a0 s).reply = s.reply ∧ (sendProbe a0 s).freeCtr = s.freeCtr ∧ (sendProbe a0 s).aon = s.aon ∧ (sendProbe a0 s).cfg = s.cfg ∧ (sendProbe a0 s).pend = s.pend ∧ (sendProbe a0 s).tb = s.tb ∧ (sendProbe a0 s).events = s.events ∧ (sendProbe a0 s).host = s.host ∧ (sendProbe a0 s).treads = s.treads ∧ (sendProbe a0 s).cells = s.cells ∧ (sendProbe a0 s).flights = s.flights ∧ (sendProbe a0 s).halls = s.halls ∧ (sendProbe a0 s).grid = s.grid ∧ (sendProbe a0 s).atr = s.atr ∧ (sendProbe a0 s).treadsOld = s.treadsOld ∧ (sendProbe a0 s).meas = s.meas ∧ (sendProbe a0 s).safe = s.safe ∧ (sendProbe a0 s).therm = s.therm ∧ (sendProbe a0 s).twin = s.twin ∧ (sendProbe a0 s).stair = s.stair ∧ (sendProbe a0 s).nvm = s.nvm ∧ (sendProbe a0 s).streams = s.streams ∧ (sendProbe a0 s).mem = s.mem := by
  unfold sendProbe
  (try dsimp only)
  (repeat' split) <;> simp [apply_ite]

@[simp] theorem surveyTrain_frame (a0 : Nat) (s : State) :
    (surveyTrain a0 s).pending = s.pending ∧ (surveyTrain a0 s).reply = s.reply ∧ (surveyTrain a0 s).freeCtr = s.freeCtr ∧ (surveyTrain a0 s).aon = s.aon ∧ (surveyTrain a0 s).cfg = s.cfg ∧ (surveyTrain a0 s).pend = s.pend ∧ (surveyTrain a0 s).tb = s.tb ∧ (surveyTrain a0 s).events = s.events ∧ (surveyTrain a0 s).host = s.host ∧ (surveyTrain a0 s).treads = s.treads ∧ (surveyTrain a0 s).cells = s.cells ∧ (surveyTrain a0 s).halls = s.halls ∧ (surveyTrain a0 s).grid = s.grid ∧ (surveyTrain a0 s).atr = s.atr ∧ (surveyTrain a0 s).treadsOld = s.treadsOld ∧ (surveyTrain a0 s).meas = s.meas ∧ (surveyTrain a0 s).safe = s.safe ∧ (surveyTrain a0 s).therm = s.therm ∧ (surveyTrain a0 s).twin = s.twin ∧ (surveyTrain a0 s).stair = s.stair ∧ (surveyTrain a0 s).nvm = s.nvm ∧ (surveyTrain a0 s).streams = s.streams ∧ (surveyTrain a0 s).mem = s.mem := by
  unfold surveyTrain
  (try dsimp only)
  (repeat' split) <;> simp [apply_ite]

@[simp] theorem energyPoints_frame (s : State) :
    (energyPoints s).pending = s.pending ∧ (energyPoints s).reply = s.reply ∧ (energyPoints s).out = s.out ∧ (energyPoints s).freeCtr = s.freeCtr ∧ (energyPoints s).aon = s.aon ∧ (energyPoints s).cfg = s.cfg ∧ (energyPoints s).pend = s.pend ∧ (energyPoints s).tb = s.tb ∧ (energyPoints s).events = s.events ∧ (energyPoints s).host = s.host ∧ (energyPoints s).treads = s.treads ∧ (energyPoints s).cells = s.cells ∧ (energyPoints s).flights = s.flights ∧ (energyPoints s).halls = s.halls ∧ (energyPoints s).grid = s.grid ∧ (energyPoints s).treadsOld = s.treadsOld ∧ (energyPoints s).meas = s.meas ∧ (energyPoints s).safe = s.safe ∧ (energyPoints s).therm = s.therm ∧ (energyPoints s).twin = s.twin ∧ (energyPoints s).stair = s.stair ∧ (energyPoints s).nvm = s.nvm ∧ (energyPoints s).streams = s.streams ∧ (energyPoints s).mem = s.mem := by
  unfold energyPoints
  (try dsimp only)
  (repeat' split) <;> simp [apply_ite]

@[simp] theorem setAtrPts_frame (a0 : List (Nat × F32)) (s : State) :
    (setAtrPts a0 s).pending = s.pending ∧ (setAtrPts a0 s).reply = s.reply ∧ (setAtrPts a0 s).out = s.out ∧ (setAtrPts a0 s).freeCtr = s.freeCtr ∧ (setAtrPts a0 s).aon = s.aon ∧ (setAtrPts a0 s).cfg = s.cfg ∧ (setAtrPts a0 s).pend = s.pend ∧ (setAtrPts a0 s).tb = s.tb ∧ (setAtrPts a0 s).events = s.events ∧ (setAtrPts a0 s).host = s.host ∧ (setAtrPts a0 s).treads = s.treads ∧ (setAtrPts a0 s).cells = s.cells ∧ (setAtrPts a0 s).flights = s.flights ∧ (setAtrPts a0 s).halls = s.halls ∧ (setAtrPts a0 s).grid = s.grid ∧ (setAtrPts a0 s).treadsOld = s.treadsOld ∧ (setAtrPts a0 s).meas = s.meas ∧ (setAtrPts a0 s).safe = s.safe ∧ (setAtrPts a0 s).therm = s.therm ∧ (setAtrPts a0 s).twin = s.twin ∧ (setAtrPts a0 s).stair = s.stair ∧ (setAtrPts a0 s).nvm = s.nvm ∧ (setAtrPts a0 s).streams = s.streams ∧ (setAtrPts a0 s).mem = s.mem := by
  unfold setAtrPts
  (try dsimp only)
  (repeat' split) <;> simp [apply_ite]

@[simp] theorem armPoint_frame (a0 : Nat) (s : State) :
    (armPoint a0 s).pending = s.pending ∧ (armPoint a0 s).reply = s.reply ∧ (armPoint a0 s).out = s.out ∧ (armPoint a0 s).freeCtr = s.freeCtr ∧ (armPoint a0 s).aon = s.aon ∧ (armPoint a0 s).cfg = s.cfg ∧ (armPoint a0 s).pend = s.pend ∧ (armPoint a0 s).tb = s.tb ∧ (armPoint a0 s).events = s.events ∧ (armPoint a0 s).host = s.host ∧ (armPoint a0 s).treads = s.treads ∧ (armPoint a0 s).cells = s.cells ∧ (armPoint a0 s).flights = s.flights ∧ (armPoint a0 s).halls = s.halls ∧ (armPoint a0 s).grid = s.grid ∧ (armPoint a0 s).treadsOld = s.treadsOld ∧ (armPoint a0 s).meas = s.meas ∧ (armPoint a0 s).safe = s.safe ∧ (armPoint a0 s).therm = s.therm ∧ (armPoint a0 s).twin = s.twin ∧ (armPoint a0 s).stair = s.stair ∧ (armPoint a0 s).nvm = s.nvm ∧ (armPoint a0 s).streams = s.streams ∧ (armPoint a0 s).mem = s.mem := by
  unfold armPoint
  (try dsimp only)
  (repeat' split) <;> simp [apply_ite]

@[simp] theorem sharesIn_frame (s : State) :
    (sharesIn s).pending = s.pending ∧ (sharesIn s).reply = s.reply ∧ (sharesIn s).out = s.out ∧ (sharesIn s).freeCtr = s.freeCtr ∧ (sharesIn s).aon = s.aon ∧ (sharesIn s).cfg = s.cfg ∧ (sharesIn s).pend = s.pend ∧ (sharesIn s).tb = s.tb ∧ (sharesIn s).events = s.events ∧ (sharesIn s).host = s.host ∧ (sharesIn s).treads = s.treads ∧ (sharesIn s).cells = s.cells ∧ (sharesIn s).flights = s.flights ∧ (sharesIn s).halls = s.halls ∧ (sharesIn s).grid = s.grid ∧ (sharesIn s).treadsOld = s.treadsOld ∧ (sharesIn s).meas = s.meas ∧ (sharesIn s).safe = s.safe ∧ (sharesIn s).therm = s.therm ∧ (sharesIn s).twin = s.twin ∧ (sharesIn s).nvm = s.nvm ∧ (sharesIn s).streams = s.streams ∧ (sharesIn s).mem = s.mem := by
  unfold sharesIn
  (try dsimp only)
  (repeat' split) <;> simp [apply_ite]

@[simp] theorem measureIn_frame (s : State) :
    (measureIn s).pending = s.pending ∧ (measureIn s).reply = s.reply ∧ (measureIn s).freeCtr = s.freeCtr ∧ (measureIn s).cfg = s.cfg ∧ (measureIn s).pend = s.pend ∧ (measureIn s).tb = s.tb ∧ (measureIn s).treads = s.treads ∧ (measureIn s).cells = s.cells ∧ (measureIn s).flights = s.flights ∧ (measureIn s).halls = s.halls ∧ (measureIn s).grid = s.grid ∧ (measureIn s).treadsOld = s.treadsOld ∧ (measureIn s).safe = s.safe ∧ (measureIn s).therm = s.therm ∧ (measureIn s).stair = s.stair ∧ (measureIn s).nvm = s.nvm ∧ (measureIn s).streams = s.streams ∧ (measureIn s).mem = s.mem := by
  unfold measureIn
  (try dsimp only)
  (repeat' split) <;> simp [apply_ite]

@[simp] theorem runAtrium_frame (s : State) :
    (runAtrium s).pending = s.pending ∧ (runAtrium s).reply = s.reply ∧ (runAtrium s).freeCtr = s.freeCtr ∧ (runAtrium s).cfg = s.cfg ∧ (runAtrium s).pend = s.pend ∧ (runAtrium s).tb = s.tb ∧ (runAtrium s).treads = s.treads ∧ (runAtrium s).cells = s.cells ∧ (runAtrium s).flights = s.flights ∧ (runAtrium s).halls = s.halls ∧ (runAtrium s).grid = s.grid ∧ (runAtrium s).treadsOld = s.treadsOld ∧ (runAtrium s).meas = s.meas ∧ (runAtrium s).safe = s.safe ∧ (runAtrium s).therm = s.therm ∧ (runAtrium s).twin = s.twin ∧ (runAtrium s).stair = s.stair ∧ (runAtrium s).nvm = s.nvm ∧ (runAtrium s).streams = s.streams ∧ (runAtrium s).mem = s.mem := by
  unfold runAtrium
  (try dsimp only)
  (repeat' split) <;> simp [apply_ite]

theorem execAtriumLoopStart_frame (s t : State) (h : execAtriumLoopStart s = .next t) :
    t.pending = s.pending ∧ t.reply = s.reply ∧ t.cfg = s.cfg ∧ t.pend = s.pend ∧ t.treads = s.treads ∧ t.cells = s.cells ∧ t.flights = s.flights ∧ t.halls = s.halls ∧ t.grid = s.grid ∧ t.treadsOld = s.treadsOld ∧ t.safe = s.safe ∧ t.nvm = s.nvm ∧ t.streams = s.streams ∧ t.mem = s.mem := by
  unfold execAtriumLoopStart at h; cases h; (try dsimp only); (repeat' split) <;> simp [apply_ite]

@[simp] theorem forwardShare_frame (a0 : ShareMsg) (s : State) :
    (forwardShare a0 s).pending = s.pending ∧ (forwardShare a0 s).reply = s.reply ∧ (forwardShare a0 s).freeCtr = s.freeCtr ∧ (forwardShare a0 s).aon = s.aon ∧ (forwardShare a0 s).cfg = s.cfg ∧ (forwardShare a0 s).pend = s.pend ∧ (forwardShare a0 s).tb = s.tb ∧ (forwardShare a0 s).events = s.events ∧ (forwardShare a0 s).host = s.host ∧ (forwardShare a0 s).treads = s.treads ∧ (forwardShare a0 s).cells = s.cells ∧ (forwardShare a0 s).flights = s.flights ∧ (forwardShare a0 s).halls = s.halls ∧ (forwardShare a0 s).grid = s.grid ∧ (forwardShare a0 s).atr = s.atr ∧ (forwardShare a0 s).treadsOld = s.treadsOld ∧ (forwardShare a0 s).meas = s.meas ∧ (forwardShare a0 s).safe = s.safe ∧ (forwardShare a0 s).therm = s.therm ∧ (forwardShare a0 s).twin = s.twin ∧ (forwardShare a0 s).stair = s.stair ∧ (forwardShare a0 s).nvm = s.nvm ∧ (forwardShare a0 s).streams = s.streams ∧ (forwardShare a0 s).mem = s.mem := by
  unfold forwardShare
  (try dsimp only)
  (repeat' split) <;> simp [apply_ite]

theorem execAtriumDeadline_frame (s t : State) (h : execAtriumDeadline s = .next t) :
    t.pending = s.pending ∧ t.reply = s.reply ∧ t.freeCtr = s.freeCtr ∧ t.aon = s.aon ∧ t.cfg = s.cfg ∧ t.pend = s.pend ∧ t.events = s.events ∧ t.host = s.host ∧ t.treads = s.treads ∧ t.cells = s.cells ∧ t.flights = s.flights ∧ t.grid = s.grid ∧ t.treadsOld = s.treadsOld ∧ t.meas = s.meas ∧ t.safe = s.safe ∧ t.therm = s.therm ∧ t.twin = s.twin ∧ t.stair = s.stair ∧ t.nvm = s.nvm ∧ t.streams = s.streams ∧ t.mem = s.mem := by
  unfold execAtriumDeadline at h; cases h; (try dsimp only); (repeat' split) <;> simp [apply_ite]

@[simp] theorem hostPoint_frame (a0 : Nat × F32) (s : State) :
    (hostPoint a0 s).pending = s.pending ∧ (hostPoint a0 s).reply = s.reply ∧ (hostPoint a0 s).out = s.out ∧ (hostPoint a0 s).freeCtr = s.freeCtr ∧ (hostPoint a0 s).aon = s.aon ∧ (hostPoint a0 s).cfg = s.cfg ∧ (hostPoint a0 s).pend = s.pend ∧ (hostPoint a0 s).tb = s.tb ∧ (hostPoint a0 s).events = s.events ∧ (hostPoint a0 s).host = s.host ∧ (hostPoint a0 s).cells = s.cells ∧ (hostPoint a0 s).halls = s.halls ∧ (hostPoint a0 s).grid = s.grid ∧ (hostPoint a0 s).treadsOld = s.treadsOld ∧ (hostPoint a0 s).meas = s.meas ∧ (hostPoint a0 s).safe = s.safe ∧ (hostPoint a0 s).therm = s.therm ∧ (hostPoint a0 s).twin = s.twin ∧ (hostPoint a0 s).stair = s.stair ∧ (hostPoint a0 s).nvm = s.nvm ∧ (hostPoint a0 s).streams = s.streams ∧ (hostPoint a0 s).mem = s.mem := by
  unfold hostPoint
  (try dsimp only)
  (repeat' split) <;> simp [apply_ite]

theorem execSampleInstant_frame (s t : State) (h : execSampleInstant s = .next t) :
    t.pending = s.pending ∧ t.reply = s.reply ∧ t.freeCtr = s.freeCtr ∧ t.cfg = s.cfg ∧ t.pend = s.pend ∧ t.cells = s.cells ∧ t.halls = s.halls ∧ t.grid = s.grid ∧ t.safe = s.safe ∧ t.therm = s.therm ∧ t.twin = s.twin ∧ t.stair = s.stair ∧ t.nvm = s.nvm ∧ t.streams = s.streams ∧ t.mem = s.mem := by
  unfold execSampleInstant at h; cases h; (try dsimp only); (repeat' split) <;> simp [apply_ite]

@[simp] theorem turnDirs_frame (a0 : Nat) (s : State) :
    (turnDirs a0 s).pending = s.pending ∧ (turnDirs a0 s).reply = s.reply ∧ (turnDirs a0 s).out = s.out ∧ (turnDirs a0 s).freeCtr = s.freeCtr ∧ (turnDirs a0 s).aon = s.aon ∧ (turnDirs a0 s).cfg = s.cfg ∧ (turnDirs a0 s).pend = s.pend ∧ (turnDirs a0 s).tb = s.tb ∧ (turnDirs a0 s).events = s.events ∧ (turnDirs a0 s).host = s.host ∧ (turnDirs a0 s).treads = s.treads ∧ (turnDirs a0 s).halls = s.halls ∧ (turnDirs a0 s).grid = s.grid ∧ (turnDirs a0 s).atr = s.atr ∧ (turnDirs a0 s).treadsOld = s.treadsOld ∧ (turnDirs a0 s).meas = s.meas ∧ (turnDirs a0 s).safe = s.safe ∧ (turnDirs a0 s).therm = s.therm ∧ (turnDirs a0 s).twin = s.twin ∧ (turnDirs a0 s).stair = s.stair ∧ (turnDirs a0 s).nvm = s.nvm ∧ (turnDirs a0 s).streams = s.streams ∧ (turnDirs a0 s).mem = s.mem := by
  unfold turnDirs
  (try dsimp only)
  (repeat' split) <;> simp [apply_ite]

@[simp] theorem switchRoute_frame (a0 : Nat) (a1 : Nat) (a2 : Nat) (s : State) :
    (switchRoute a0 a1 a2 s).pending = s.pending ∧ (switchRoute a0 a1 a2 s).reply = s.reply ∧ (switchRoute a0 a1 a2 s).out = s.out ∧ (switchRoute a0 a1 a2 s).freeCtr = s.freeCtr ∧ (switchRoute a0 a1 a2 s).aon = s.aon ∧ (switchRoute a0 a1 a2 s).cfg = s.cfg ∧ (switchRoute a0 a1 a2 s).pend = s.pend ∧ (switchRoute a0 a1 a2 s).tb = s.tb ∧ (switchRoute a0 a1 a2 s).events = s.events ∧ (switchRoute a0 a1 a2 s).host = s.host ∧ (switchRoute a0 a1 a2 s).treads = s.treads ∧ (switchRoute a0 a1 a2 s).halls = s.halls ∧ (switchRoute a0 a1 a2 s).grid = s.grid ∧ (switchRoute a0 a1 a2 s).atr = s.atr ∧ (switchRoute a0 a1 a2 s).treadsOld = s.treadsOld ∧ (switchRoute a0 a1 a2 s).meas = s.meas ∧ (switchRoute a0 a1 a2 s).safe = s.safe ∧ (switchRoute a0 a1 a2 s).therm = s.therm ∧ (switchRoute a0 a1 a2 s).twin = s.twin ∧ (switchRoute a0 a1 a2 s).stair = s.stair ∧ (switchRoute a0 a1 a2 s).nvm = s.nvm ∧ (switchRoute a0 a1 a2 s).streams = s.streams ∧ (switchRoute a0 a1 a2 s).mem = s.mem := by
  unfold switchRoute
  (try dsimp only)
  (repeat' split) <;> simp [apply_ite]

@[simp] theorem commitFlight_frame (a0 : Nat) (s : State) :
    (commitFlight a0 s).pending = s.pending ∧ (commitFlight a0 s).reply = s.reply ∧ (commitFlight a0 s).out = s.out ∧ (commitFlight a0 s).freeCtr = s.freeCtr ∧ (commitFlight a0 s).aon = s.aon ∧ (commitFlight a0 s).cfg = s.cfg ∧ (commitFlight a0 s).pend = s.pend ∧ (commitFlight a0 s).tb = s.tb ∧ (commitFlight a0 s).events = s.events ∧ (commitFlight a0 s).host = s.host ∧ (commitFlight a0 s).cells = s.cells ∧ (commitFlight a0 s).halls = s.halls ∧ (commitFlight a0 s).grid = s.grid ∧ (commitFlight a0 s).atr = s.atr ∧ (commitFlight a0 s).treadsOld = s.treadsOld ∧ (commitFlight a0 s).meas = s.meas ∧ (commitFlight a0 s).safe = s.safe ∧ (commitFlight a0 s).therm = s.therm ∧ (commitFlight a0 s).twin = s.twin ∧ (commitFlight a0 s).stair = s.stair ∧ (commitFlight a0 s).nvm = s.nvm ∧ (commitFlight a0 s).streams = s.streams ∧ (commitFlight a0 s).mem = s.mem := by
  unfold commitFlight
  (try dsimp only)
  (repeat' split) <;> simp [apply_ite]

@[simp] theorem commitAtrium_frame (s : State) :
    (commitAtrium s).pending = s.pending ∧ (commitAtrium s).reply = s.reply ∧ (commitAtrium s).out = s.out ∧ (commitAtrium s).freeCtr = s.freeCtr ∧ (commitAtrium s).aon = s.aon ∧ (commitAtrium s).cfg = s.cfg ∧ (commitAtrium s).pend = s.pend ∧ (commitAtrium s).tb = s.tb ∧ (commitAtrium s).events = s.events ∧ (commitAtrium s).host = s.host ∧ (commitAtrium s).treads = s.treads ∧ (commitAtrium s).cells = s.cells ∧ (commitAtrium s).flights = s.flights ∧ (commitAtrium s).halls = s.halls ∧ (commitAtrium s).grid = s.grid ∧ (commitAtrium s).treadsOld = s.treadsOld ∧ (commitAtrium s).meas = s.meas ∧ (commitAtrium s).safe = s.safe ∧ (commitAtrium s).therm = s.therm ∧ (commitAtrium s).twin = s.twin ∧ (commitAtrium s).stair = s.stair ∧ (commitAtrium s).nvm = s.nvm ∧ (commitAtrium s).streams = s.streams ∧ (commitAtrium s).mem = s.mem := by
  unfold commitAtrium
  (try dsimp only)
  (repeat' split) <;> simp [apply_ite]

@[simp] theorem missLanes_frame (a0 : Nat) (a1 : Nat) (s : State) :
    (missLanes a0 a1 s).2.pending = s.pending ∧ (missLanes a0 a1 s).2.reply = s.reply ∧ (missLanes a0 a1 s).2.out = s.out ∧ (missLanes a0 a1 s).2.aon = s.aon ∧ (missLanes a0 a1 s).2.cfg = s.cfg ∧ (missLanes a0 a1 s).2.pend = s.pend ∧ (missLanes a0 a1 s).2.tb = s.tb ∧ (missLanes a0 a1 s).2.events = s.events ∧ (missLanes a0 a1 s).2.host = s.host ∧ (missLanes a0 a1 s).2.treads = s.treads ∧ (missLanes a0 a1 s).2.cells = s.cells ∧ (missLanes a0 a1 s).2.flights = s.flights ∧ (missLanes a0 a1 s).2.halls = s.halls ∧ (missLanes a0 a1 s).2.grid = s.grid ∧ (missLanes a0 a1 s).2.atr = s.atr ∧ (missLanes a0 a1 s).2.treadsOld = s.treadsOld ∧ (missLanes a0 a1 s).2.meas = s.meas ∧ (missLanes a0 a1 s).2.safe = s.safe ∧ (missLanes a0 a1 s).2.therm = s.therm ∧ (missLanes a0 a1 s).2.twin = s.twin ∧ (missLanes a0 a1 s).2.stair = s.stair ∧ (missLanes a0 a1 s).2.nvm = s.nvm ∧ (missLanes a0 a1 s).2.streams = s.streams ∧ (missLanes a0 a1 s).2.mem = s.mem := by
  unfold missLanes
  (try dsimp only)
  (repeat' split) <;> simp [apply_ite]

@[simp] theorem moveAtriumWork_frame (a0 : Nat) (s : State) :
    (moveAtriumWork a0 s).pending = s.pending ∧ (moveAtriumWork a0 s).reply = s.reply ∧ (moveAtriumWork a0 s).out = s.out ∧ (moveAtriumWork a0 s).freeCtr = s.freeCtr ∧ (moveAtriumWork a0 s).aon = s.aon ∧ (moveAtriumWork a0 s).cfg = s.cfg ∧ (moveAtriumWork a0 s).pend = s.pend ∧ (moveAtriumWork a0 s).tb = s.tb ∧ (moveAtriumWork a0 s).events = s.events ∧ (moveAtriumWork a0 s).host = s.host ∧ (moveAtriumWork a0 s).treads = s.treads ∧ (moveAtriumWork a0 s).cells = s.cells ∧ (moveAtriumWork a0 s).flights = s.flights ∧ (moveAtriumWork a0 s).grid = s.grid ∧ (moveAtriumWork a0 s).treadsOld = s.treadsOld ∧ (moveAtriumWork a0 s).meas = s.meas ∧ (moveAtriumWork a0 s).safe = s.safe ∧ (moveAtriumWork a0 s).therm = s.therm ∧ (moveAtriumWork a0 s).twin = s.twin ∧ (moveAtriumWork a0 s).stair = s.stair ∧ (moveAtriumWork a0 s).nvm = s.nvm ∧ (moveAtriumWork a0 s).streams = s.streams ∧ (moveAtriumWork a0 s).mem = s.mem := by
  unfold moveAtriumWork
  (try dsimp only)
  (repeat' split) <;> simp [apply_ite]

@[simp] theorem moveWork_frame (a0 : Nat) (a1 : Nat) (s : State) :
    (moveWork a0 a1 s).pending = s.pending ∧ (moveWork a0 a1 s).reply = s.reply ∧ (moveWork a0 a1 s).out = s.out ∧ (moveWork a0 a1 s).freeCtr = s.freeCtr ∧ (moveWork a0 a1 s).aon = s.aon ∧ (moveWork a0 a1 s).cfg = s.cfg ∧ (moveWork a0 a1 s).pend = s.pend ∧ (moveWork a0 a1 s).tb = s.tb ∧ (moveWork a0 a1 s).events = s.events ∧ (moveWork a0 a1 s).host = s.host ∧ (moveWork a0 a1 s).treads = s.treads ∧ (moveWork a0 a1 s).cells = s.cells ∧ (moveWork a0 a1 s).grid = s.grid ∧ (moveWork a0 a1 s).treadsOld = s.treadsOld ∧ (moveWork a0 a1 s).meas = s.meas ∧ (moveWork a0 a1 s).safe = s.safe ∧ (moveWork a0 a1 s).therm = s.therm ∧ (moveWork a0 a1 s).twin = s.twin ∧ (moveWork a0 a1 s).stair = s.stair ∧ (moveWork a0 a1 s).nvm = s.nvm ∧ (moveWork a0 a1 s).streams = s.streams ∧ (moveWork a0 a1 s).mem = s.mem := by
  unfold moveWork
  (try dsimp only)
  (repeat' split) <;> simp [apply_ite]

@[simp] theorem missFlight_frame (a0 : Nat) (a1 : Nat) (s : State) :
    (missFlight a0 a1 s).pending = s.pending ∧ (missFlight a0 a1 s).reply = s.reply ∧ (missFlight a0 a1 s).cfg = s.cfg ∧ (missFlight a0 a1 s).pend = s.pend ∧ (missFlight a0 a1 s).tb = s.tb ∧ (missFlight a0 a1 s).treads = s.treads ∧ (missFlight a0 a1 s).grid = s.grid ∧ (missFlight a0 a1 s).treadsOld = s.treadsOld ∧ (missFlight a0 a1 s).meas = s.meas ∧ (missFlight a0 a1 s).therm = s.therm ∧ (missFlight a0 a1 s).twin = s.twin ∧ (missFlight a0 a1 s).stair = s.stair ∧ (missFlight a0 a1 s).streams = s.streams ∧ (missFlight a0 a1 s).mem = s.mem := by
  unfold missFlight
  (try dsimp only)
  (repeat' split) <;> simp [apply_ite]

@[simp] theorem completeFlight_frame (a0 : Nat) (s : State) :
    (completeFlight a0 s).pending = s.pending ∧ (completeFlight a0 s).reply = s.reply ∧ (completeFlight a0 s).freeCtr = s.freeCtr ∧ (completeFlight a0 s).cfg = s.cfg ∧ (completeFlight a0 s).pend = s.pend ∧ (completeFlight a0 s).tb = s.tb ∧ (completeFlight a0 s).cells = s.cells ∧ (completeFlight a0 s).halls = s.halls ∧ (completeFlight a0 s).grid = s.grid ∧ (completeFlight a0 s).treadsOld = s.treadsOld ∧ (completeFlight a0 s).meas = s.meas ∧ (completeFlight a0 s).safe = s.safe ∧ (completeFlight a0 s).therm = s.therm ∧ (completeFlight a0 s).twin = s.twin ∧ (completeFlight a0 s).stair = s.stair ∧ (completeFlight a0 s).nvm = s.nvm ∧ (completeFlight a0 s).streams = s.streams ∧ (completeFlight a0 s).mem = s.mem := by
  unfold completeFlight
  (try dsimp only)
  (repeat' split) <;> simp [apply_ite]

@[simp] theorem lateCommit_frame (a0 : Nat) (s : State) :
    (lateCommit a0 s).pending = s.pending ∧ (lateCommit a0 s).reply = s.reply ∧ (lateCommit a0 s).freeCtr = s.freeCtr ∧ (lateCommit a0 s).cfg = s.cfg ∧ (lateCommit a0 s).pend = s.pend ∧ (lateCommit a0 s).tb = s.tb ∧ (lateCommit a0 s).treads = s.treads ∧ (lateCommit a0 s).cells = s.cells ∧ (lateCommit a0 s).flights = s.flights ∧ (lateCommit a0 s).halls = s.halls ∧ (lateCommit a0 s).treadsOld = s.treadsOld ∧ (lateCommit a0 s).meas = s.meas ∧ (lateCommit a0 s).safe = s.safe ∧ (lateCommit a0 s).therm = s.therm ∧ (lateCommit a0 s).twin = s.twin ∧ (lateCommit a0 s).stair = s.stair ∧ (lateCommit a0 s).nvm = s.nvm ∧ (lateCommit a0 s).streams = s.streams ∧ (lateCommit a0 s).mem = s.mem := by
  unfold lateCommit
  (try dsimp only)
  (repeat' split) <;> simp [apply_ite]

@[simp] theorem settle_frame (a0 : Nat) (a1 : Judged) (a2 : Nat) (s : State) :
    (settle a0 a1 a2 s).pending = s.pending ∧ (settle a0 a1 a2 s).reply = s.reply ∧ (settle a0 a1 a2 s).cfg = s.cfg ∧ (settle a0 a1 a2 s).pend = s.pend ∧ (settle a0 a1 a2 s).tb = s.tb ∧ (settle a0 a1 a2 s).treadsOld = s.treadsOld ∧ (settle a0 a1 a2 s).meas = s.meas ∧ (settle a0 a1 a2 s).therm = s.therm ∧ (settle a0 a1 a2 s).twin = s.twin ∧ (settle a0 a1 a2 s).stair = s.stair ∧ (settle a0 a1 a2 s).streams = s.streams ∧ (settle a0 a1 a2 s).mem = s.mem := by
  unfold settle
  (try dsimp only)
  (repeat' split) <;> simp [apply_ite]

@[simp] theorem markShadow_frame (a0 : Nat) (a1 : Nat) (s : State) :
    (markShadow a0 a1 s).pending = s.pending ∧ (markShadow a0 a1 s).reply = s.reply ∧ (markShadow a0 a1 s).out = s.out ∧ (markShadow a0 a1 s).freeCtr = s.freeCtr ∧ (markShadow a0 a1 s).aon = s.aon ∧ (markShadow a0 a1 s).cfg = s.cfg ∧ (markShadow a0 a1 s).pend = s.pend ∧ (markShadow a0 a1 s).tb = s.tb ∧ (markShadow a0 a1 s).events = s.events ∧ (markShadow a0 a1 s).host = s.host ∧ (markShadow a0 a1 s).treads = s.treads ∧ (markShadow a0 a1 s).cells = s.cells ∧ (markShadow a0 a1 s).flights = s.flights ∧ (markShadow a0 a1 s).grid = s.grid ∧ (markShadow a0 a1 s).treadsOld = s.treadsOld ∧ (markShadow a0 a1 s).meas = s.meas ∧ (markShadow a0 a1 s).safe = s.safe ∧ (markShadow a0 a1 s).therm = s.therm ∧ (markShadow a0 a1 s).twin = s.twin ∧ (markShadow a0 a1 s).stair = s.stair ∧ (markShadow a0 a1 s).nvm = s.nvm ∧ (markShadow a0 a1 s).streams = s.streams ∧ (markShadow a0 a1 s).mem = s.mem := by
  unfold markShadow
  (try dsimp only)
  (repeat' split) <;> simp [apply_ite]

@[simp] theorem countSkip_frame (s : State) :
    (countSkip s).pending = s.pending ∧ (countSkip s).reply = s.reply ∧ (countSkip s).out = s.out ∧ (countSkip s).freeCtr = s.freeCtr ∧ (countSkip s).aon = s.aon ∧ (countSkip s).cfg = s.cfg ∧ (countSkip s).pend = s.pend ∧ (countSkip s).tb = s.tb ∧ (countSkip s).events = s.events ∧ (countSkip s).host = s.host ∧ (countSkip s).treads = s.treads ∧ (countSkip s).cells = s.cells ∧ (countSkip s).flights = s.flights ∧ (countSkip s).halls = s.halls ∧ (countSkip s).grid = s.grid ∧ (countSkip s).treadsOld = s.treadsOld ∧ (countSkip s).meas = s.meas ∧ (countSkip s).safe = s.safe ∧ (countSkip s).therm = s.therm ∧ (countSkip s).twin = s.twin ∧ (countSkip s).stair = s.stair ∧ (countSkip s).nvm = s.nvm ∧ (countSkip s).streams = s.streams ∧ (countSkip s).mem = s.mem := by
  unfold countSkip
  (try dsimp only)
  (repeat' split) <;> simp [apply_ite]

@[simp] theorem checkOne_frame (a0 : BitVec 10) (a1 : BitVec 10) (a2 : Nat) (a3 : Nat) (a4 : Nat) (a5 : Bool) (x : BitVec 10 × State) :
    (checkOne a0 a1 a2 a3 a4 a5 x).2.pending = x.2.pending ∧ (checkOne a0 a1 a2 a3 a4 a5 x).2.reply = x.2.reply ∧ (checkOne a0 a1 a2 a3 a4 a5 x).2.out = x.2.out ∧ (checkOne a0 a1 a2 a3 a4 a5 x).2.freeCtr = x.2.freeCtr ∧ (checkOne a0 a1 a2 a3 a4 a5 x).2.aon = x.2.aon ∧ (checkOne a0 a1 a2 a3 a4 a5 x).2.cfg = x.2.cfg ∧ (checkOne a0 a1 a2 a3 a4 a5 x).2.pend = x.2.pend ∧ (checkOne a0 a1 a2 a3 a4 a5 x).2.tb = x.2.tb ∧ (checkOne a0 a1 a2 a3 a4 a5 x).2.events = x.2.events ∧ (checkOne a0 a1 a2 a3 a4 a5 x).2.host = x.2.host ∧ (checkOne a0 a1 a2 a3 a4 a5 x).2.treads = x.2.treads ∧ (checkOne a0 a1 a2 a3 a4 a5 x).2.cells = x.2.cells ∧ (checkOne a0 a1 a2 a3 a4 a5 x).2.flights = x.2.flights ∧ (checkOne a0 a1 a2 a3 a4 a5 x).2.grid = x.2.grid ∧ (checkOne a0 a1 a2 a3 a4 a5 x).2.treadsOld = x.2.treadsOld ∧ (checkOne a0 a1 a2 a3 a4 a5 x).2.meas = x.2.meas ∧ (checkOne a0 a1 a2 a3 a4 a5 x).2.safe = x.2.safe ∧ (checkOne a0 a1 a2 a3 a4 a5 x).2.therm = x.2.therm ∧ (checkOne a0 a1 a2 a3 a4 a5 x).2.twin = x.2.twin ∧ (checkOne a0 a1 a2 a3 a4 a5 x).2.stair = x.2.stair ∧ (checkOne a0 a1 a2 a3 a4 a5 x).2.nvm = x.2.nvm ∧ (checkOne a0 a1 a2 a3 a4 a5 x).2.streams = x.2.streams ∧ (checkOne a0 a1 a2 a3 a4 a5 x).2.mem = x.2.mem := by
  unfold checkOne
  (try dsimp only)
  (repeat' split) <;> simp [apply_ite]

@[simp] theorem checkHall_frame (a0 : BitVec 10) (a1 : BitVec 10) (a2 : Nat) (x : BitVec 10 × State) :
    (checkHall a0 a1 a2 x).2.pending = x.2.pending ∧ (checkHall a0 a1 a2 x).2.reply = x.2.reply ∧ (checkHall a0 a1 a2 x).2.out = x.2.out ∧ (checkHall a0 a1 a2 x).2.freeCtr = x.2.freeCtr ∧ (checkHall a0 a1 a2 x).2.aon = x.2.aon ∧ (checkHall a0 a1 a2 x).2.cfg = x.2.cfg ∧ (checkHall a0 a1 a2 x).2.pend = x.2.pend ∧ (checkHall a0 a1 a2 x).2.tb = x.2.tb ∧ (checkHall a0 a1 a2 x).2.events = x.2.events ∧ (checkHall a0 a1 a2 x).2.host = x.2.host ∧ (checkHall a0 a1 a2 x).2.treads = x.2.treads ∧ (checkHall a0 a1 a2 x).2.cells = x.2.cells ∧ (checkHall a0 a1 a2 x).2.flights = x.2.flights ∧ (checkHall a0 a1 a2 x).2.grid = x.2.grid ∧ (checkHall a0 a1 a2 x).2.treadsOld = x.2.treadsOld ∧ (checkHall a0 a1 a2 x).2.meas = x.2.meas ∧ (checkHall a0 a1 a2 x).2.safe = x.2.safe ∧ (checkHall a0 a1 a2 x).2.therm = x.2.therm ∧ (checkHall a0 a1 a2 x).2.twin = x.2.twin ∧ (checkHall a0 a1 a2 x).2.stair = x.2.stair ∧ (checkHall a0 a1 a2 x).2.nvm = x.2.nvm ∧ (checkHall a0 a1 a2 x).2.streams = x.2.streams ∧ (checkHall a0 a1 a2 x).2.mem = x.2.mem := by
  unfold checkHall
  (try dsimp only)
  (repeat' split) <;> simp [apply_ite]

@[simp] theorem checkAtrium_frame (a0 : BitVec 10) (a1 : BitVec 10) (x : BitVec 10 × State) :
    (checkAtrium a0 a1 x).2.pending = x.2.pending ∧ (checkAtrium a0 a1 x).2.reply = x.2.reply ∧ (checkAtrium a0 a1 x).2.out = x.2.out ∧ (checkAtrium a0 a1 x).2.freeCtr = x.2.freeCtr ∧ (checkAtrium a0 a1 x).2.aon = x.2.aon ∧ (checkAtrium a0 a1 x).2.cfg = x.2.cfg ∧ (checkAtrium a0 a1 x).2.pend = x.2.pend ∧ (checkAtrium a0 a1 x).2.tb = x.2.tb ∧ (checkAtrium a0 a1 x).2.events = x.2.events ∧ (checkAtrium a0 a1 x).2.host = x.2.host ∧ (checkAtrium a0 a1 x).2.treads = x.2.treads ∧ (checkAtrium a0 a1 x).2.cells = x.2.cells ∧ (checkAtrium a0 a1 x).2.flights = x.2.flights ∧ (checkAtrium a0 a1 x).2.grid = x.2.grid ∧ (checkAtrium a0 a1 x).2.treadsOld = x.2.treadsOld ∧ (checkAtrium a0 a1 x).2.meas = x.2.meas ∧ (checkAtrium a0 a1 x).2.safe = x.2.safe ∧ (checkAtrium a0 a1 x).2.therm = x.2.therm ∧ (checkAtrium a0 a1 x).2.twin = x.2.twin ∧ (checkAtrium a0 a1 x).2.stair = x.2.stair ∧ (checkAtrium a0 a1 x).2.nvm = x.2.nvm ∧ (checkAtrium a0 a1 x).2.streams = x.2.streams ∧ (checkAtrium a0 a1 x).2.mem = x.2.mem := by
  unfold checkAtrium
  (try dsimp only)
  (repeat' split) <;> simp [apply_ite]

@[simp] theorem shadowChecks_frame (a0 : BitVec 10) (a1 : BitVec 10) (s : State) :
    (shadowChecks a0 a1 s).2.pending = s.pending ∧ (shadowChecks a0 a1 s).2.reply = s.reply ∧ (shadowChecks a0 a1 s).2.out = s.out ∧ (shadowChecks a0 a1 s).2.freeCtr = s.freeCtr ∧ (shadowChecks a0 a1 s).2.aon = s.aon ∧ (shadowChecks a0 a1 s).2.cfg = s.cfg ∧ (shadowChecks a0 a1 s).2.pend = s.pend ∧ (shadowChecks a0 a1 s).2.tb = s.tb ∧ (shadowChecks a0 a1 s).2.events = s.events ∧ (shadowChecks a0 a1 s).2.host = s.host ∧ (shadowChecks a0 a1 s).2.treads = s.treads ∧ (shadowChecks a0 a1 s).2.cells = s.cells ∧ (shadowChecks a0 a1 s).2.flights = s.flights ∧ (shadowChecks a0 a1 s).2.grid = s.grid ∧ (shadowChecks a0 a1 s).2.treadsOld = s.treadsOld ∧ (shadowChecks a0 a1 s).2.meas = s.meas ∧ (shadowChecks a0 a1 s).2.safe = s.safe ∧ (shadowChecks a0 a1 s).2.therm = s.therm ∧ (shadowChecks a0 a1 s).2.twin = s.twin ∧ (shadowChecks a0 a1 s).2.stair = s.stair ∧ (shadowChecks a0 a1 s).2.nvm = s.nvm ∧ (shadowChecks a0 a1 s).2.streams = s.streams ∧ (shadowChecks a0 a1 s).2.mem = s.mem := by
  unfold shadowChecks; dsimp only
  refine ⟨?_, ?_, ?_, ?_, ?_, ?_, ?_, ?_, ?_, ?_, ?_, ?_, ?_, ?_, ?_, ?_, ?_, ?_, ?_, ?_, ?_, ?_, ?_⟩
  · simp; refine (each_keep (fun x : BitVec 10 × State => x.2.pending) _ _ _ fun _ _ => ?_).trans ?_ <;> simp
  · simp; refine (each_keep (fun x : BitVec 10 × State => x.2.reply) _ _ _ fun _ _ => ?_).trans ?_ <;> simp
  · simp; refine (each_keep (fun x : BitVec 10 × State => x.2.out) _ _ _ fun _ _ => ?_).trans ?_ <;> simp
  · simp; refine (each_keep (fun x : BitVec 10 × State => x.2.freeCtr) _ _ _ fun _ _ => ?_).trans ?_ <;> simp
  · simp; refine (each_keep (fun x : BitVec 10 × State => x.2.aon) _ _ _ fun _ _ => ?_).trans ?_ <;> simp
  · simp; refine (each_keep (fun x : BitVec 10 × State => x.2.cfg) _ _ _ fun _ _ => ?_).trans ?_ <;> simp
  · simp; refine (each_keep (fun x : BitVec 10 × State => x.2.pend) _ _ _ fun _ _ => ?_).trans ?_ <;> simp
  · simp; refine (each_keep (fun x : BitVec 10 × State => x.2.tb) _ _ _ fun _ _ => ?_).trans ?_ <;> simp
  · simp; refine (each_keep (fun x : BitVec 10 × State => x.2.events) _ _ _ fun _ _ => ?_).trans ?_ <;> simp
  · simp; refine (each_keep (fun x : BitVec 10 × State => x.2.host) _ _ _ fun _ _ => ?_).trans ?_ <;> simp
  · simp; refine (each_keep (fun x : BitVec 10 × State => x.2.treads) _ _ _ fun _ _ => ?_).trans ?_ <;> simp
  · simp; refine (each_keep (fun x : BitVec 10 × State => x.2.cells) _ _ _ fun _ _ => ?_).trans ?_ <;> simp
  · simp; refine (each_keep (fun x : BitVec 10 × State => x.2.flights) _ _ _ fun _ _ => ?_).trans ?_ <;> simp
  · simp; refine (each_keep (fun x : BitVec 10 × State => x.2.grid) _ _ _ fun _ _ => ?_).trans ?_ <;> simp
  · simp; refine (each_keep (fun x : BitVec 10 × State => x.2.treadsOld) _ _ _ fun _ _ => ?_).trans ?_ <;> simp
  · simp; refine (each_keep (fun x : BitVec 10 × State => x.2.meas) _ _ _ fun _ _ => ?_).trans ?_ <;> simp
  · simp; refine (each_keep (fun x : BitVec 10 × State => x.2.safe) _ _ _ fun _ _ => ?_).trans ?_ <;> simp
  · simp; refine (each_keep (fun x : BitVec 10 × State => x.2.therm) _ _ _ fun _ _ => ?_).trans ?_ <;> simp
  · simp; refine (each_keep (fun x : BitVec 10 × State => x.2.twin) _ _ _ fun _ _ => ?_).trans ?_ <;> simp
  · simp; refine (each_keep (fun x : BitVec 10 × State => x.2.stair) _ _ _ fun _ _ => ?_).trans ?_ <;> simp
  · simp; refine (each_keep (fun x : BitVec 10 × State => x.2.nvm) _ _ _ fun _ _ => ?_).trans ?_ <;> simp
  · simp; refine (each_keep (fun x : BitVec 10 × State => x.2.streams) _ _ _ fun _ _ => ?_).trans ?_ <;> simp
  · simp; refine (each_keep (fun x : BitVec 10 × State => x.2.mem) _ _ _ fun _ _ => ?_).trans ?_ <;> simp

@[simp] theorem missEvents_frame (a0 : BitVec 9) (a1 : BitVec 10) (s : State) :
    (missEvents a0 a1 s).pending = s.pending ∧ (missEvents a0 a1 s).reply = s.reply ∧ (missEvents a0 a1 s).freeCtr = s.freeCtr ∧ (missEvents a0 a1 s).cfg = s.cfg ∧ (missEvents a0 a1 s).pend = s.pend ∧ (missEvents a0 a1 s).tb = s.tb ∧ (missEvents a0 a1 s).treads = s.treads ∧ (missEvents a0 a1 s).cells = s.cells ∧ (missEvents a0 a1 s).flights = s.flights ∧ (missEvents a0 a1 s).halls = s.halls ∧ (missEvents a0 a1 s).grid = s.grid ∧ (missEvents a0 a1 s).treadsOld = s.treadsOld ∧ (missEvents a0 a1 s).meas = s.meas ∧ (missEvents a0 a1 s).safe = s.safe ∧ (missEvents a0 a1 s).therm = s.therm ∧ (missEvents a0 a1 s).twin = s.twin ∧ (missEvents a0 a1 s).stair = s.stair ∧ (missEvents a0 a1 s).nvm = s.nvm ∧ (missEvents a0 a1 s).streams = s.streams ∧ (missEvents a0 a1 s).mem = s.mem := by
  unfold missEvents
  (try dsimp only)
  (repeat' split) <;> simp [apply_ite]

@[simp] theorem settleAll_frame (a0 : Nat) (a1 : List (Nat × Judged)) (s : State) :
    (settleAll a0 a1 s).pending = s.pending ∧ (settleAll a0 a1 s).reply = s.reply ∧ (settleAll a0 a1 s).cfg = s.cfg ∧ (settleAll a0 a1 s).pend = s.pend ∧ (settleAll a0 a1 s).tb = s.tb ∧ (settleAll a0 a1 s).treadsOld = s.treadsOld ∧ (settleAll a0 a1 s).meas = s.meas ∧ (settleAll a0 a1 s).therm = s.therm ∧ (settleAll a0 a1 s).twin = s.twin ∧ (settleAll a0 a1 s).stair = s.stair ∧ (settleAll a0 a1 s).streams = s.streams ∧ (settleAll a0 a1 s).mem = s.mem := by
  unfold settleAll
  (try dsimp only)
  (repeat' split) <;> simp [apply_ite]

@[simp] theorem settleAtrium_frame (s : State) :
    (settleAtrium s).pending = s.pending ∧ (settleAtrium s).reply = s.reply ∧ (settleAtrium s).freeCtr = s.freeCtr ∧ (settleAtrium s).cfg = s.cfg ∧ (settleAtrium s).pend = s.pend ∧ (settleAtrium s).tb = s.tb ∧ (settleAtrium s).treads = s.treads ∧ (settleAtrium s).cells = s.cells ∧ (settleAtrium s).flights = s.flights ∧ (settleAtrium s).halls = s.halls ∧ (settleAtrium s).grid = s.grid ∧ (settleAtrium s).treadsOld = s.treadsOld ∧ (settleAtrium s).meas = s.meas ∧ (settleAtrium s).safe = s.safe ∧ (settleAtrium s).therm = s.therm ∧ (settleAtrium s).twin = s.twin ∧ (settleAtrium s).stair = s.stair ∧ (settleAtrium s).nvm = s.nvm ∧ (settleAtrium s).streams = s.streams ∧ (settleAtrium s).mem = s.mem := by
  unfold settleAtrium
  (try dsimp only)
  (repeat' split) <;> simp [apply_ite]

@[simp] theorem judgePeriod_frame (a0 : BitVec 10) (a1 : BitVec 10) (s : State) :
    (judgePeriod a0 a1 s).pending = s.pending ∧ (judgePeriod a0 a1 s).reply = s.reply ∧ (judgePeriod a0 a1 s).cfg = s.cfg ∧ (judgePeriod a0 a1 s).pend = s.pend ∧ (judgePeriod a0 a1 s).tb = s.tb ∧ (judgePeriod a0 a1 s).treadsOld = s.treadsOld ∧ (judgePeriod a0 a1 s).meas = s.meas ∧ (judgePeriod a0 a1 s).therm = s.therm ∧ (judgePeriod a0 a1 s).twin = s.twin ∧ (judgePeriod a0 a1 s).stair = s.stair ∧ (judgePeriod a0 a1 s).streams = s.streams ∧ (judgePeriod a0 a1 s).mem = s.mem := by
  unfold judgePeriod
  (try dsimp only)
  (repeat' split) <;> simp [apply_ite]

@[simp] theorem sentConfig_frame (a0 : Nat) (s : State) :
    (sentConfig a0 s).pending = s.pending ∧ (sentConfig a0 s).reply = s.reply ∧ (sentConfig a0 s).out = s.out ∧ (sentConfig a0 s).freeCtr = s.freeCtr ∧ (sentConfig a0 s).aon = s.aon ∧ (sentConfig a0 s).cfg = s.cfg ∧ (sentConfig a0 s).pend = s.pend ∧ (sentConfig a0 s).tb = s.tb ∧ (sentConfig a0 s).events = s.events ∧ (sentConfig a0 s).host = s.host ∧ (sentConfig a0 s).treads = s.treads ∧ (sentConfig a0 s).flights = s.flights ∧ (sentConfig a0 s).halls = s.halls ∧ (sentConfig a0 s).grid = s.grid ∧ (sentConfig a0 s).atr = s.atr ∧ (sentConfig a0 s).treadsOld = s.treadsOld ∧ (sentConfig a0 s).meas = s.meas ∧ (sentConfig a0 s).safe = s.safe ∧ (sentConfig a0 s).therm = s.therm ∧ (sentConfig a0 s).twin = s.twin ∧ (sentConfig a0 s).stair = s.stair ∧ (sentConfig a0 s).nvm = s.nvm ∧ (sentConfig a0 s).streams = s.streams ∧ (sentConfig a0 s).mem = s.mem := by
  unfold sentConfig
  (try dsimp only)
  (repeat' split) <;> simp [apply_ite]

@[simp] theorem State.heard_frame (s : State) (a1 : Nat) (a2 : Nat) :
    (State.heard s a1 a2).pending = s.pending ∧ (State.heard s a1 a2).reply = s.reply ∧ (State.heard s a1 a2).out = s.out ∧ (State.heard s a1 a2).freeCtr = s.freeCtr ∧ (State.heard s a1 a2).aon = s.aon ∧ (State.heard s a1 a2).cfg = s.cfg ∧ (State.heard s a1 a2).pend = s.pend ∧ (State.heard s a1 a2).tb = s.tb ∧ (State.heard s a1 a2).events = s.events ∧ (State.heard s a1 a2).host = s.host ∧ (State.heard s a1 a2).treads = s.treads ∧ (State.heard s a1 a2).flights = s.flights ∧ (State.heard s a1 a2).halls = s.halls ∧ (State.heard s a1 a2).grid = s.grid ∧ (State.heard s a1 a2).atr = s.atr ∧ (State.heard s a1 a2).treadsOld = s.treadsOld ∧ (State.heard s a1 a2).meas = s.meas ∧ (State.heard s a1 a2).therm = s.therm ∧ (State.heard s a1 a2).twin = s.twin ∧ (State.heard s a1 a2).stair = s.stair ∧ (State.heard s a1 a2).nvm = s.nvm ∧ (State.heard s a1 a2).streams = s.streams ∧ (State.heard s a1 a2).mem = s.mem := by
  unfold State.heard
  (try dsimp only)
  (repeat' split) <;> simp [apply_ite]

@[simp] theorem finalFrame_frame (a0 : Nat) (a1 : Nat) (s : State) :
    (finalFrame a0 a1 s).pending = s.pending ∧ (finalFrame a0 a1 s).reply = s.reply ∧ (finalFrame a0 a1 s).out = s.out ∧ (finalFrame a0 a1 s).freeCtr = s.freeCtr ∧ (finalFrame a0 a1 s).aon = s.aon ∧ (finalFrame a0 a1 s).cfg = s.cfg ∧ (finalFrame a0 a1 s).pend = s.pend ∧ (finalFrame a0 a1 s).tb = s.tb ∧ (finalFrame a0 a1 s).events = s.events ∧ (finalFrame a0 a1 s).host = s.host ∧ (finalFrame a0 a1 s).treads = s.treads ∧ (finalFrame a0 a1 s).flights = s.flights ∧ (finalFrame a0 a1 s).halls = s.halls ∧ (finalFrame a0 a1 s).grid = s.grid ∧ (finalFrame a0 a1 s).atr = s.atr ∧ (finalFrame a0 a1 s).treadsOld = s.treadsOld ∧ (finalFrame a0 a1 s).meas = s.meas ∧ (finalFrame a0 a1 s).therm = s.therm ∧ (finalFrame a0 a1 s).twin = s.twin ∧ (finalFrame a0 a1 s).stair = s.stair ∧ (finalFrame a0 a1 s).nvm = s.nvm ∧ (finalFrame a0 a1 s).streams = s.streams ∧ (finalFrame a0 a1 s).mem = s.mem := by
  unfold finalFrame
  (try dsimp only)
  (repeat' split) <;> simp [apply_ite]

@[simp] theorem countNotch_frame (a0 : Nat) (s : State) :
    (countNotch a0 s).pending = s.pending ∧ (countNotch a0 s).reply = s.reply ∧ (countNotch a0 s).out = s.out ∧ (countNotch a0 s).freeCtr = s.freeCtr ∧ (countNotch a0 s).aon = s.aon ∧ (countNotch a0 s).cfg = s.cfg ∧ (countNotch a0 s).pend = s.pend ∧ (countNotch a0 s).tb = s.tb ∧ (countNotch a0 s).events = s.events ∧ (countNotch a0 s).host = s.host ∧ (countNotch a0 s).treads = s.treads ∧ (countNotch a0 s).flights = s.flights ∧ (countNotch a0 s).halls = s.halls ∧ (countNotch a0 s).grid = s.grid ∧ (countNotch a0 s).atr = s.atr ∧ (countNotch a0 s).treadsOld = s.treadsOld ∧ (countNotch a0 s).meas = s.meas ∧ (countNotch a0 s).safe = s.safe ∧ (countNotch a0 s).therm = s.therm ∧ (countNotch a0 s).twin = s.twin ∧ (countNotch a0 s).stair = s.stair ∧ (countNotch a0 s).nvm = s.nvm ∧ (countNotch a0 s).streams = s.streams ∧ (countNotch a0 s).mem = s.mem := by
  unfold countNotch
  (try dsimp only)
  (repeat' split) <;> simp [apply_ite]

@[simp] theorem keepFrame_frame (a0 : State) (a1 : Nat) (s : State) :
    (keepFrame a0 a1 s).pending = s.pending ∧ (keepFrame a0 a1 s).reply = s.reply ∧ (keepFrame a0 a1 s).out = s.out ∧ (keepFrame a0 a1 s).freeCtr = s.freeCtr ∧ (keepFrame a0 a1 s).aon = s.aon ∧ (keepFrame a0 a1 s).cfg = s.cfg ∧ (keepFrame a0 a1 s).pend = s.pend ∧ (keepFrame a0 a1 s).tb = s.tb ∧ (keepFrame a0 a1 s).events = s.events ∧ (keepFrame a0 a1 s).host = s.host ∧ (keepFrame a0 a1 s).treads = s.treads ∧ (keepFrame a0 a1 s).flights = s.flights ∧ (keepFrame a0 a1 s).halls = s.halls ∧ (keepFrame a0 a1 s).grid = s.grid ∧ (keepFrame a0 a1 s).atr = s.atr ∧ (keepFrame a0 a1 s).treadsOld = s.treadsOld ∧ (keepFrame a0 a1 s).meas = s.meas ∧ (keepFrame a0 a1 s).safe = s.safe ∧ (keepFrame a0 a1 s).therm = s.therm ∧ (keepFrame a0 a1 s).twin = s.twin ∧ (keepFrame a0 a1 s).stair = s.stair ∧ (keepFrame a0 a1 s).nvm = s.nvm ∧ (keepFrame a0 a1 s).streams = s.streams ∧ (keepFrame a0 a1 s).mem = s.mem := by
  unfold keepFrame
  (try dsimp only)
  (repeat' split) <;> simp [apply_ite]

@[simp] theorem refreshString_frame (a0 : Nat) (s : State) :
    (refreshString a0 s).pending = s.pending ∧ (refreshString a0 s).reply = s.reply ∧ (refreshString a0 s).freeCtr = s.freeCtr ∧ (refreshString a0 s).cfg = s.cfg ∧ (refreshString a0 s).pend = s.pend ∧ (refreshString a0 s).tb = s.tb ∧ (refreshString a0 s).treads = s.treads ∧ (refreshString a0 s).halls = s.halls ∧ (refreshString a0 s).grid = s.grid ∧ (refreshString a0 s).treadsOld = s.treadsOld ∧ (refreshString a0 s).meas = s.meas ∧ (refreshString a0 s).therm = s.therm ∧ (refreshString a0 s).twin = s.twin ∧ (refreshString a0 s).stair = s.stair ∧ (refreshString a0 s).streams = s.streams ∧ (refreshString a0 s).mem = s.mem := by
  unfold refreshString
  (try dsimp only)
  (repeat' split) <;> simp [apply_ite]

@[simp] theorem refreshFrames_frame (s : State) :
    (refreshFrames s).pending = s.pending ∧ (refreshFrames s).reply = s.reply ∧ (refreshFrames s).freeCtr = s.freeCtr ∧ (refreshFrames s).cfg = s.cfg ∧ (refreshFrames s).pend = s.pend ∧ (refreshFrames s).tb = s.tb ∧ (refreshFrames s).treads = s.treads ∧ (refreshFrames s).halls = s.halls ∧ (refreshFrames s).grid = s.grid ∧ (refreshFrames s).treadsOld = s.treadsOld ∧ (refreshFrames s).meas = s.meas ∧ (refreshFrames s).therm = s.therm ∧ (refreshFrames s).twin = s.twin ∧ (refreshFrames s).stair = s.stair ∧ (refreshFrames s).streams = s.streams ∧ (refreshFrames s).mem = s.mem := by
  unfold refreshFrames
  (try dsimp only)
  (repeat' split) <;> simp [apply_ite]

@[simp] theorem slotFrame_frame (a0 : List Byte) (a1 : Nat) (a2 : Route) (a3 : Nat) (s : State) :
    (slotFrame a0 a1 a2 a3 s).2.pending = s.pending ∧ (slotFrame a0 a1 a2 a3 s).2.reply = s.reply ∧ (slotFrame a0 a1 a2 a3 s).2.out = s.out ∧ (slotFrame a0 a1 a2 a3 s).2.freeCtr = s.freeCtr ∧ (slotFrame a0 a1 a2 a3 s).2.aon = s.aon ∧ (slotFrame a0 a1 a2 a3 s).2.cfg = s.cfg ∧ (slotFrame a0 a1 a2 a3 s).2.pend = s.pend ∧ (slotFrame a0 a1 a2 a3 s).2.tb = s.tb ∧ (slotFrame a0 a1 a2 a3 s).2.events = s.events ∧ (slotFrame a0 a1 a2 a3 s).2.host = s.host ∧ (slotFrame a0 a1 a2 a3 s).2.treads = s.treads ∧ (slotFrame a0 a1 a2 a3 s).2.halls = s.halls ∧ (slotFrame a0 a1 a2 a3 s).2.grid = s.grid ∧ (slotFrame a0 a1 a2 a3 s).2.atr = s.atr ∧ (slotFrame a0 a1 a2 a3 s).2.treadsOld = s.treadsOld ∧ (slotFrame a0 a1 a2 a3 s).2.meas = s.meas ∧ (slotFrame a0 a1 a2 a3 s).2.safe = s.safe ∧ (slotFrame a0 a1 a2 a3 s).2.therm = s.therm ∧ (slotFrame a0 a1 a2 a3 s).2.twin = s.twin ∧ (slotFrame a0 a1 a2 a3 s).2.stair = s.stair ∧ (slotFrame a0 a1 a2 a3 s).2.nvm = s.nvm ∧ (slotFrame a0 a1 a2 a3 s).2.streams = s.streams ∧ (slotFrame a0 a1 a2 a3 s).2.mem = s.mem := by
  unfold slotFrame
  (try dsimp only)
  (repeat' split) <;> simp [apply_ite]

@[simp] theorem slotFrames_frame (a0 : List Byte) (a1 : Nat) (a2 : Route) (a3 : List Nat) (s : State) :
    (slotFrames a0 a1 a2 a3 s).2.pending = s.pending ∧ (slotFrames a0 a1 a2 a3 s).2.reply = s.reply ∧ (slotFrames a0 a1 a2 a3 s).2.out = s.out ∧ (slotFrames a0 a1 a2 a3 s).2.freeCtr = s.freeCtr ∧ (slotFrames a0 a1 a2 a3 s).2.aon = s.aon ∧ (slotFrames a0 a1 a2 a3 s).2.cfg = s.cfg ∧ (slotFrames a0 a1 a2 a3 s).2.pend = s.pend ∧ (slotFrames a0 a1 a2 a3 s).2.tb = s.tb ∧ (slotFrames a0 a1 a2 a3 s).2.events = s.events ∧ (slotFrames a0 a1 a2 a3 s).2.host = s.host ∧ (slotFrames a0 a1 a2 a3 s).2.treads = s.treads ∧ (slotFrames a0 a1 a2 a3 s).2.halls = s.halls ∧ (slotFrames a0 a1 a2 a3 s).2.grid = s.grid ∧ (slotFrames a0 a1 a2 a3 s).2.atr = s.atr ∧ (slotFrames a0 a1 a2 a3 s).2.treadsOld = s.treadsOld ∧ (slotFrames a0 a1 a2 a3 s).2.meas = s.meas ∧ (slotFrames a0 a1 a2 a3 s).2.safe = s.safe ∧ (slotFrames a0 a1 a2 a3 s).2.therm = s.therm ∧ (slotFrames a0 a1 a2 a3 s).2.twin = s.twin ∧ (slotFrames a0 a1 a2 a3 s).2.stair = s.stair ∧ (slotFrames a0 a1 a2 a3 s).2.nvm = s.nvm ∧ (slotFrames a0 a1 a2 a3 s).2.streams = s.streams ∧ (slotFrames a0 a1 a2 a3 s).2.mem = s.mem := by
  induction a3 generalizing s with
  | nil => simp [slotFrames]
  | cons j r ih => simp [slotFrames, ih]

@[simp] theorem extraFrame_frame (a0 : List Byte) (a1 : Nat) (a2 : Option Nat) (s : State) :
    (extraFrame a0 a1 a2 s).2.pending = s.pending ∧ (extraFrame a0 a1 a2 s).2.reply = s.reply ∧ (extraFrame a0 a1 a2 s).2.out = s.out ∧ (extraFrame a0 a1 a2 s).2.freeCtr = s.freeCtr ∧ (extraFrame a0 a1 a2 s).2.aon = s.aon ∧ (extraFrame a0 a1 a2 s).2.cfg = s.cfg ∧ (extraFrame a0 a1 a2 s).2.pend = s.pend ∧ (extraFrame a0 a1 a2 s).2.tb = s.tb ∧ (extraFrame a0 a1 a2 s).2.events = s.events ∧ (extraFrame a0 a1 a2 s).2.host = s.host ∧ (extraFrame a0 a1 a2 s).2.treads = s.treads ∧ (extraFrame a0 a1 a2 s).2.flights = s.flights ∧ (extraFrame a0 a1 a2 s).2.halls = s.halls ∧ (extraFrame a0 a1 a2 s).2.grid = s.grid ∧ (extraFrame a0 a1 a2 s).2.atr = s.atr ∧ (extraFrame a0 a1 a2 s).2.treadsOld = s.treadsOld ∧ (extraFrame a0 a1 a2 s).2.meas = s.meas ∧ (extraFrame a0 a1 a2 s).2.safe = s.safe ∧ (extraFrame a0 a1 a2 s).2.therm = s.therm ∧ (extraFrame a0 a1 a2 s).2.twin = s.twin ∧ (extraFrame a0 a1 a2 s).2.stair = s.stair ∧ (extraFrame a0 a1 a2 s).2.nvm = s.nvm ∧ (extraFrame a0 a1 a2 s).2.streams = s.streams ∧ (extraFrame a0 a1 a2 s).2.mem = s.mem := by
  unfold extraFrame
  (try dsimp only)
  (repeat' split) <;> simp [apply_ite]

@[simp] theorem depart_frame (a0 : Nat) (a1 : Route) (a2 : List Byte) (s : State) :
    (depart a0 a1 a2 s).pending = s.pending ∧ (depart a0 a1 a2 s).reply = s.reply ∧ (depart a0 a1 a2 s).freeCtr = s.freeCtr ∧ (depart a0 a1 a2 s).aon = s.aon ∧ (depart a0 a1 a2 s).cfg = s.cfg ∧ (depart a0 a1 a2 s).pend = s.pend ∧ (depart a0 a1 a2 s).tb = s.tb ∧ (depart a0 a1 a2 s).events = s.events ∧ (depart a0 a1 a2 s).host = s.host ∧ (depart a0 a1 a2 s).treads = s.treads ∧ (depart a0 a1 a2 s).cells = s.cells ∧ (depart a0 a1 a2 s).flights = s.flights ∧ (depart a0 a1 a2 s).halls = s.halls ∧ (depart a0 a1 a2 s).grid = s.grid ∧ (depart a0 a1 a2 s).atr = s.atr ∧ (depart a0 a1 a2 s).treadsOld = s.treadsOld ∧ (depart a0 a1 a2 s).meas = s.meas ∧ (depart a0 a1 a2 s).safe = s.safe ∧ (depart a0 a1 a2 s).therm = s.therm ∧ (depart a0 a1 a2 s).twin = s.twin ∧ (depart a0 a1 a2 s).stair = s.stair ∧ (depart a0 a1 a2 s).nvm = s.nvm ∧ (depart a0 a1 a2 s).streams = s.streams ∧ (depart a0 a1 a2 s).mem = s.mem := by
  unfold depart
  (try dsimp only)
  (repeat' split) <;> simp [apply_ite]

@[simp] theorem sendRoute_frame (a0 : Nat) (a1 : Route) (s : State) :
    (sendRoute a0 a1 s).pending = s.pending ∧ (sendRoute a0 a1 s).reply = s.reply ∧ (sendRoute a0 a1 s).freeCtr = s.freeCtr ∧ (sendRoute a0 a1 s).aon = s.aon ∧ (sendRoute a0 a1 s).cfg = s.cfg ∧ (sendRoute a0 a1 s).pend = s.pend ∧ (sendRoute a0 a1 s).tb = s.tb ∧ (sendRoute a0 a1 s).events = s.events ∧ (sendRoute a0 a1 s).host = s.host ∧ (sendRoute a0 a1 s).treads = s.treads ∧ (sendRoute a0 a1 s).halls = s.halls ∧ (sendRoute a0 a1 s).grid = s.grid ∧ (sendRoute a0 a1 s).atr = s.atr ∧ (sendRoute a0 a1 s).treadsOld = s.treadsOld ∧ (sendRoute a0 a1 s).meas = s.meas ∧ (sendRoute a0 a1 s).safe = s.safe ∧ (sendRoute a0 a1 s).therm = s.therm ∧ (sendRoute a0 a1 s).twin = s.twin ∧ (sendRoute a0 a1 s).stair = s.stair ∧ (sendRoute a0 a1 s).nvm = s.nvm ∧ (sendRoute a0 a1 s).streams = s.streams ∧ (sendRoute a0 a1 s).mem = s.mem := by
  unfold sendRoute
  (try dsimp only)
  (repeat' split) <;> simp [apply_ite]

@[simp] theorem rerouteDone_frame (a0 : Nat) (s : State) :
    (rerouteDone a0 s).pending = s.pending ∧ (rerouteDone a0 s).reply = s.reply ∧ (rerouteDone a0 s).freeCtr = s.freeCtr ∧ (rerouteDone a0 s).cfg = s.cfg ∧ (rerouteDone a0 s).pend = s.pend ∧ (rerouteDone a0 s).tb = s.tb ∧ (rerouteDone a0 s).treads = s.treads ∧ (rerouteDone a0 s).cells = s.cells ∧ (rerouteDone a0 s).halls = s.halls ∧ (rerouteDone a0 s).grid = s.grid ∧ (rerouteDone a0 s).treadsOld = s.treadsOld ∧ (rerouteDone a0 s).meas = s.meas ∧ (rerouteDone a0 s).safe = s.safe ∧ (rerouteDone a0 s).therm = s.therm ∧ (rerouteDone a0 s).twin = s.twin ∧ (rerouteDone a0 s).stair = s.stair ∧ (rerouteDone a0 s).nvm = s.nvm ∧ (rerouteDone a0 s).streams = s.streams ∧ (rerouteDone a0 s).mem = s.mem := by
  unfold rerouteDone
  (try dsimp only)
  (repeat' split) <;> simp [apply_ite]

@[simp] theorem sendFlight_frame (a0 : Nat) (s : State) :
    (sendFlight a0 s).pending = s.pending ∧ (sendFlight a0 s).reply = s.reply ∧ (sendFlight a0 s).freeCtr = s.freeCtr ∧ (sendFlight a0 s).cfg = s.cfg ∧ (sendFlight a0 s).pend = s.pend ∧ (sendFlight a0 s).tb = s.tb ∧ (sendFlight a0 s).treads = s.treads ∧ (sendFlight a0 s).halls = s.halls ∧ (sendFlight a0 s).grid = s.grid ∧ (sendFlight a0 s).treadsOld = s.treadsOld ∧ (sendFlight a0 s).meas = s.meas ∧ (sendFlight a0 s).safe = s.safe ∧ (sendFlight a0 s).therm = s.therm ∧ (sendFlight a0 s).twin = s.twin ∧ (sendFlight a0 s).stair = s.stair ∧ (sendFlight a0 s).nvm = s.nvm ∧ (sendFlight a0 s).streams = s.streams ∧ (sendFlight a0 s).mem = s.mem := by
  unfold sendFlight
  (try dsimp only)
  (repeat' split) <;> simp [apply_ite]

@[simp] theorem sendCommit_frame (s : State) :
    (sendCommit s).pending = s.pending ∧ (sendCommit s).reply = s.reply ∧ (sendCommit s).freeCtr = s.freeCtr ∧ (sendCommit s).aon = s.aon ∧ (sendCommit s).cfg = s.cfg ∧ (sendCommit s).pend = s.pend ∧ (sendCommit s).tb = s.tb ∧ (sendCommit s).events = s.events ∧ (sendCommit s).host = s.host ∧ (sendCommit s).treads = s.treads ∧ (sendCommit s).cells = s.cells ∧ (sendCommit s).flights = s.flights ∧ (sendCommit s).halls = s.halls ∧ (sendCommit s).grid = s.grid ∧ (sendCommit s).atr = s.atr ∧ (sendCommit s).treadsOld = s.treadsOld ∧ (sendCommit s).meas = s.meas ∧ (sendCommit s).safe = s.safe ∧ (sendCommit s).therm = s.therm ∧ (sendCommit s).twin = s.twin ∧ (sendCommit s).stair = s.stair ∧ (sendCommit s).nvm = s.nvm ∧ (sendCommit s).streams = s.streams ∧ (sendCommit s).mem = s.mem := by
  unfold sendCommit
  (try dsimp only)
  (repeat' split) <;> simp [apply_ite]

@[simp] theorem linkOrder_frame (a0 : Nat) (s : State) :
    (linkOrder a0 s).pending = s.pending ∧ (linkOrder a0 s).reply = s.reply ∧ (linkOrder a0 s).freeCtr = s.freeCtr ∧ (linkOrder a0 s).aon = s.aon ∧ (linkOrder a0 s).cfg = s.cfg ∧ (linkOrder a0 s).pend = s.pend ∧ (linkOrder a0 s).tb = s.tb ∧ (linkOrder a0 s).events = s.events ∧ (linkOrder a0 s).host = s.host ∧ (linkOrder a0 s).treads = s.treads ∧ (linkOrder a0 s).cells = s.cells ∧ (linkOrder a0 s).flights = s.flights ∧ (linkOrder a0 s).halls = s.halls ∧ (linkOrder a0 s).grid = s.grid ∧ (linkOrder a0 s).atr = s.atr ∧ (linkOrder a0 s).treadsOld = s.treadsOld ∧ (linkOrder a0 s).meas = s.meas ∧ (linkOrder a0 s).safe = s.safe ∧ (linkOrder a0 s).therm = s.therm ∧ (linkOrder a0 s).twin = s.twin ∧ (linkOrder a0 s).stair = s.stair ∧ (linkOrder a0 s).nvm = s.nvm ∧ (linkOrder a0 s).streams = s.streams ∧ (linkOrder a0 s).mem = s.mem := by
  unfold linkOrder
  (try dsimp only)
  (repeat' split) <;> simp [apply_ite]

@[simp] theorem setTwin_frame (a0 : Twin → Twin) (s : State) :
    (setTwin a0 s).pending = s.pending ∧ (setTwin a0 s).reply = s.reply ∧ (setTwin a0 s).out = s.out ∧ (setTwin a0 s).freeCtr = s.freeCtr ∧ (setTwin a0 s).aon = s.aon ∧ (setTwin a0 s).cfg = s.cfg ∧ (setTwin a0 s).pend = s.pend ∧ (setTwin a0 s).tb = s.tb ∧ (setTwin a0 s).events = s.events ∧ (setTwin a0 s).host = s.host ∧ (setTwin a0 s).treads = s.treads ∧ (setTwin a0 s).cells = s.cells ∧ (setTwin a0 s).flights = s.flights ∧ (setTwin a0 s).halls = s.halls ∧ (setTwin a0 s).grid = s.grid ∧ (setTwin a0 s).atr = s.atr ∧ (setTwin a0 s).treadsOld = s.treadsOld ∧ (setTwin a0 s).meas = s.meas ∧ (setTwin a0 s).safe = s.safe ∧ (setTwin a0 s).therm = s.therm ∧ (setTwin a0 s).stair = s.stair ∧ (setTwin a0 s).nvm = s.nvm ∧ (setTwin a0 s).streams = s.streams ∧ (setTwin a0 s).mem = s.mem := by
  unfold setTwin
  (try dsimp only)
  (repeat' split) <;> simp [apply_ite]

@[simp] theorem turnRing_frame (a0 : Nat) (s : State) :
    (turnRing a0 s).pending = s.pending ∧ (turnRing a0 s).reply = s.reply ∧ (turnRing a0 s).out = s.out ∧ (turnRing a0 s).freeCtr = s.freeCtr ∧ (turnRing a0 s).aon = s.aon ∧ (turnRing a0 s).cfg = s.cfg ∧ (turnRing a0 s).pend = s.pend ∧ (turnRing a0 s).tb = s.tb ∧ (turnRing a0 s).events = s.events ∧ (turnRing a0 s).host = s.host ∧ (turnRing a0 s).treads = s.treads ∧ (turnRing a0 s).cells = s.cells ∧ (turnRing a0 s).halls = s.halls ∧ (turnRing a0 s).grid = s.grid ∧ (turnRing a0 s).atr = s.atr ∧ (turnRing a0 s).treadsOld = s.treadsOld ∧ (turnRing a0 s).meas = s.meas ∧ (turnRing a0 s).safe = s.safe ∧ (turnRing a0 s).therm = s.therm ∧ (turnRing a0 s).twin = s.twin ∧ (turnRing a0 s).stair = s.stair ∧ (turnRing a0 s).nvm = s.nvm ∧ (turnRing a0 s).streams = s.streams ∧ (turnRing a0 s).mem = s.mem := by
  unfold turnRing
  (try dsimp only)
  (repeat' split) <;> simp [apply_ite]

@[simp] theorem handOver_frame (s : State) :
    (handOver s).pending = s.pending ∧ (handOver s).reply = s.reply ∧ (handOver s).out = s.out ∧ (handOver s).freeCtr = s.freeCtr ∧ (handOver s).aon = s.aon ∧ (handOver s).cfg = s.cfg ∧ (handOver s).pend = s.pend ∧ (handOver s).tb = s.tb ∧ (handOver s).events = s.events ∧ (handOver s).host = s.host ∧ (handOver s).treads = s.treads ∧ (handOver s).cells = s.cells ∧ (handOver s).halls = s.halls ∧ (handOver s).grid = s.grid ∧ (handOver s).atr = s.atr ∧ (handOver s).treadsOld = s.treadsOld ∧ (handOver s).meas = s.meas ∧ (handOver s).safe = s.safe ∧ (handOver s).therm = s.therm ∧ (handOver s).stair = s.stair ∧ (handOver s).nvm = s.nvm ∧ (handOver s).streams = s.streams ∧ (handOver s).mem = s.mem := by
  unfold handOver
  (try dsimp only)
  (repeat' split) <;> simp [apply_ite]

@[simp] theorem splitStep_frame (a0 : Nat) (a1 : Rat) (s : State) :
    (splitStep a0 a1 s).pending = s.pending ∧ (splitStep a0 a1 s).reply = s.reply ∧ (splitStep a0 a1 s).out = s.out ∧ (splitStep a0 a1 s).freeCtr = s.freeCtr ∧ (splitStep a0 a1 s).aon = s.aon ∧ (splitStep a0 a1 s).cfg = s.cfg ∧ (splitStep a0 a1 s).pend = s.pend ∧ (splitStep a0 a1 s).tb = s.tb ∧ (splitStep a0 a1 s).events = s.events ∧ (splitStep a0 a1 s).host = s.host ∧ (splitStep a0 a1 s).treads = s.treads ∧ (splitStep a0 a1 s).cells = s.cells ∧ (splitStep a0 a1 s).grid = s.grid ∧ (splitStep a0 a1 s).treadsOld = s.treadsOld ∧ (splitStep a0 a1 s).meas = s.meas ∧ (splitStep a0 a1 s).safe = s.safe ∧ (splitStep a0 a1 s).therm = s.therm ∧ (splitStep a0 a1 s).twin = s.twin ∧ (splitStep a0 a1 s).stair = s.stair ∧ (splitStep a0 a1 s).nvm = s.nvm ∧ (splitStep a0 a1 s).streams = s.streams ∧ (splitStep a0 a1 s).mem = s.mem := by
  unfold splitStep
  (try dsimp only)
  (repeat' split) <;> simp [apply_ite]

@[simp] theorem slackStep_frame (a0 : List (Nat × List Nat × Rat)) (a1 : Nat) (s : State) :
    (slackStep a0 a1 s).pending = s.pending ∧ (slackStep a0 a1 s).reply = s.reply ∧ (slackStep a0 a1 s).freeCtr = s.freeCtr ∧ (slackStep a0 a1 s).cfg = s.cfg ∧ (slackStep a0 a1 s).pend = s.pend ∧ (slackStep a0 a1 s).tb = s.tb ∧ (slackStep a0 a1 s).treads = s.treads ∧ (slackStep a0 a1 s).cells = s.cells ∧ (slackStep a0 a1 s).grid = s.grid ∧ (slackStep a0 a1 s).treadsOld = s.treadsOld ∧ (slackStep a0 a1 s).meas = s.meas ∧ (slackStep a0 a1 s).safe = s.safe ∧ (slackStep a0 a1 s).therm = s.therm ∧ (slackStep a0 a1 s).twin = s.twin ∧ (slackStep a0 a1 s).stair = s.stair ∧ (slackStep a0 a1 s).nvm = s.nvm ∧ (slackStep a0 a1 s).streams = s.streams ∧ (slackStep a0 a1 s).mem = s.mem := by
  unfold slackStep
  (try dsimp only)
  (repeat' split) <;> simp [apply_ite]

@[simp] theorem quiet_frame (s : State) :
    (quiet s).pending = s.pending ∧ (quiet s).reply = s.reply ∧ (quiet s).out = s.out ∧ (quiet s).freeCtr = s.freeCtr ∧ (quiet s).aon = s.aon ∧ (quiet s).cfg = s.cfg ∧ (quiet s).pend = s.pend ∧ (quiet s).tb = s.tb ∧ (quiet s).events = s.events ∧ (quiet s).host = s.host ∧ (quiet s).treads = s.treads ∧ (quiet s).cells = s.cells ∧ (quiet s).flights = s.flights ∧ (quiet s).halls = s.halls ∧ (quiet s).grid = s.grid ∧ (quiet s).atr = s.atr ∧ (quiet s).treadsOld = s.treadsOld ∧ (quiet s).meas = s.meas ∧ (quiet s).safe = s.safe ∧ (quiet s).therm = s.therm ∧ (quiet s).stair = s.stair ∧ (quiet s).nvm = s.nvm ∧ (quiet s).streams = s.streams ∧ (quiet s).mem = s.mem := by
  unfold quiet
  (try dsimp only)
  (repeat' split) <;> simp [apply_ite]

@[simp] theorem departure_frame (a0 : BitVec 10) (a1 : BitVec 10) (s : State) :
    (departure a0 a1 s).pending = s.pending ∧ (departure a0 a1 s).reply = s.reply ∧ (departure a0 a1 s).cfg = s.cfg ∧ (departure a0 a1 s).pend = s.pend ∧ (departure a0 a1 s).treadsOld = s.treadsOld ∧ (departure a0 a1 s).meas = s.meas ∧ (departure a0 a1 s).therm = s.therm ∧ (departure a0 a1 s).stair = s.stair ∧ (departure a0 a1 s).streams = s.streams ∧ (departure a0 a1 s).mem = s.mem := by
  unfold departure
  (try dsimp only)
  (repeat' split) <;> simp [apply_ite]

@[simp] theorem keepAliveRoute_frame (a0 : Nat) (a1 : Nat) (a2 : Route) (s : State) :
    (keepAliveRoute a0 a1 a2 s).pending = s.pending ∧ (keepAliveRoute a0 a1 a2 s).reply = s.reply ∧ (keepAliveRoute a0 a1 a2 s).freeCtr = s.freeCtr ∧ (keepAliveRoute a0 a1 a2 s).aon = s.aon ∧ (keepAliveRoute a0 a1 a2 s).cfg = s.cfg ∧ (keepAliveRoute a0 a1 a2 s).pend = s.pend ∧ (keepAliveRoute a0 a1 a2 s).tb = s.tb ∧ (keepAliveRoute a0 a1 a2 s).events = s.events ∧ (keepAliveRoute a0 a1 a2 s).host = s.host ∧ (keepAliveRoute a0 a1 a2 s).treads = s.treads ∧ (keepAliveRoute a0 a1 a2 s).halls = s.halls ∧ (keepAliveRoute a0 a1 a2 s).grid = s.grid ∧ (keepAliveRoute a0 a1 a2 s).atr = s.atr ∧ (keepAliveRoute a0 a1 a2 s).treadsOld = s.treadsOld ∧ (keepAliveRoute a0 a1 a2 s).meas = s.meas ∧ (keepAliveRoute a0 a1 a2 s).therm = s.therm ∧ (keepAliveRoute a0 a1 a2 s).twin = s.twin ∧ (keepAliveRoute a0 a1 a2 s).stair = s.stair ∧ (keepAliveRoute a0 a1 a2 s).nvm = s.nvm ∧ (keepAliveRoute a0 a1 a2 s).streams = s.streams ∧ (keepAliveRoute a0 a1 a2 s).mem = s.mem := by
  unfold keepAliveRoute
  (try dsimp only)
  (repeat' split) <;> simp [apply_ite]

@[simp] theorem keepAliveFlight_frame (a0 : Nat) (a1 : Nat) (s : State) :
    (keepAliveFlight a0 a1 s).pending = s.pending ∧ (keepAliveFlight a0 a1 s).reply = s.reply ∧ (keepAliveFlight a0 a1 s).freeCtr = s.freeCtr ∧ (keepAliveFlight a0 a1 s).cfg = s.cfg ∧ (keepAliveFlight a0 a1 s).pend = s.pend ∧ (keepAliveFlight a0 a1 s).tb = s.tb ∧ (keepAliveFlight a0 a1 s).treads = s.treads ∧ (keepAliveFlight a0 a1 s).halls = s.halls ∧ (keepAliveFlight a0 a1 s).grid = s.grid ∧ (keepAliveFlight a0 a1 s).treadsOld = s.treadsOld ∧ (keepAliveFlight a0 a1 s).meas = s.meas ∧ (keepAliveFlight a0 a1 s).therm = s.therm ∧ (keepAliveFlight a0 a1 s).twin = s.twin ∧ (keepAliveFlight a0 a1 s).stair = s.stair ∧ (keepAliveFlight a0 a1 s).nvm = s.nvm ∧ (keepAliveFlight a0 a1 s).streams = s.streams ∧ (keepAliveFlight a0 a1 s).mem = s.mem := by
  unfold keepAliveFlight; (try dsimp only)
  refine ⟨?_, ?_, ?_, ?_, ?_, ?_, ?_, ?_, ?_, ?_, ?_, ?_, ?_, ?_, ?_, ?_, ?_⟩
  · repeat' (first | (simp [apply_ite State.pending]; done) | with_reducible refine (each_keep State.pending _ _ _ (fun _ _ => ?_)).trans ?_ | with_reducible refine command_keep State.pending _ _ _ (fun _ => ?_) (fun _ => ?_) | split)
  · repeat' (first | (simp [apply_ite State.reply]; done) | with_reducible refine (each_keep State.reply _ _ _ (fun _ _ => ?_)).trans ?_ | with_reducible refine command_keep State.reply _ _ _ (fun _ => ?_) (fun _ => ?_) | split)
  · repeat' (first | (simp [apply_ite State.freeCtr]; done) | with_reducible refine (each_keep State.freeCtr _ _ _ (fun _ _ => ?_)).trans ?_ | with_reducible refine command_keep State.freeCtr _ _ _ (fun _ => ?_) (fun _ => ?_) | split)
  · repeat' (first | (simp [apply_ite State.cfg]; done) | with_reducible refine (each_keep State.cfg _ _ _ (fun _ _ => ?_)).trans ?_ | with_reducible refine command_keep State.cfg _ _ _ (fun _ => ?_) (fun _ => ?_) | split)
  · repeat' (first | (simp [apply_ite State.pend]; done) | with_reducible refine (each_keep State.pend _ _ _ (fun _ _ => ?_)).trans ?_ | with_reducible refine command_keep State.pend _ _ _ (fun _ => ?_) (fun _ => ?_) | split)
  · repeat' (first | (simp [apply_ite State.tb]; done) | with_reducible refine (each_keep State.tb _ _ _ (fun _ _ => ?_)).trans ?_ | with_reducible refine command_keep State.tb _ _ _ (fun _ => ?_) (fun _ => ?_) | split)
  · repeat' (first | (simp [apply_ite State.treads]; done) | with_reducible refine (each_keep State.treads _ _ _ (fun _ _ => ?_)).trans ?_ | with_reducible refine command_keep State.treads _ _ _ (fun _ => ?_) (fun _ => ?_) | split)
  · repeat' (first | (simp [apply_ite State.halls]; done) | with_reducible refine (each_keep State.halls _ _ _ (fun _ _ => ?_)).trans ?_ | with_reducible refine command_keep State.halls _ _ _ (fun _ => ?_) (fun _ => ?_) | split)
  · repeat' (first | (simp [apply_ite State.grid]; done) | with_reducible refine (each_keep State.grid _ _ _ (fun _ _ => ?_)).trans ?_ | with_reducible refine command_keep State.grid _ _ _ (fun _ => ?_) (fun _ => ?_) | split)
  · repeat' (first | (simp [apply_ite State.treadsOld]; done) | with_reducible refine (each_keep State.treadsOld _ _ _ (fun _ _ => ?_)).trans ?_ | with_reducible refine command_keep State.treadsOld _ _ _ (fun _ => ?_) (fun _ => ?_) | split)
  · repeat' (first | (simp [apply_ite State.meas]; done) | with_reducible refine (each_keep State.meas _ _ _ (fun _ _ => ?_)).trans ?_ | with_reducible refine command_keep State.meas _ _ _ (fun _ => ?_) (fun _ => ?_) | split)
  · repeat' (first | (simp [apply_ite State.therm]; done) | with_reducible refine (each_keep State.therm _ _ _ (fun _ _ => ?_)).trans ?_ | with_reducible refine command_keep State.therm _ _ _ (fun _ => ?_) (fun _ => ?_) | split)
  · repeat' (first | (simp [apply_ite State.twin]; done) | with_reducible refine (each_keep State.twin _ _ _ (fun _ _ => ?_)).trans ?_ | with_reducible refine command_keep State.twin _ _ _ (fun _ => ?_) (fun _ => ?_) | split)
  · repeat' (first | (simp [apply_ite State.stair]; done) | with_reducible refine (each_keep State.stair _ _ _ (fun _ _ => ?_)).trans ?_ | with_reducible refine command_keep State.stair _ _ _ (fun _ => ?_) (fun _ => ?_) | split)
  · repeat' (first | (simp [apply_ite State.nvm]; done) | with_reducible refine (each_keep State.nvm _ _ _ (fun _ _ => ?_)).trans ?_ | with_reducible refine command_keep State.nvm _ _ _ (fun _ => ?_) (fun _ => ?_) | split)
  · repeat' (first | (simp [apply_ite State.streams]; done) | with_reducible refine (each_keep State.streams _ _ _ (fun _ _ => ?_)).trans ?_ | with_reducible refine command_keep State.streams _ _ _ (fun _ => ?_) (fun _ => ?_) | split)
  · repeat' (first | (simp [apply_ite State.mem]; done) | with_reducible refine (each_keep State.mem _ _ _ (fun _ _ => ?_)).trans ?_ | with_reducible refine command_keep State.mem _ _ _ (fun _ => ?_) (fun _ => ?_) | split)

theorem execKeepAliveDeparture_frame (s t : State) (h : execKeepAliveDeparture s = .next t) :
    t.pending = s.pending ∧ t.reply = s.reply ∧ t.freeCtr = s.freeCtr ∧ t.cfg = s.cfg ∧ t.pend = s.pend ∧ t.treads = s.treads ∧ t.halls = s.halls ∧ t.treadsOld = s.treadsOld ∧ t.meas = s.meas ∧ t.therm = s.therm ∧ t.stair = s.stair ∧ t.nvm = s.nvm ∧ t.streams = s.streams ∧ t.mem = s.mem := by
  unfold execKeepAliveDeparture at h; cases h; (try dsimp only); (repeat' split) <;> simp [apply_ite]

@[simp] theorem phaseTwo_frame (a0 : Nat) (s : State) :
    (phaseTwo a0 s).pending = s.pending ∧ (phaseTwo a0 s).reply = s.reply ∧ (phaseTwo a0 s).out = s.out ∧ (phaseTwo a0 s).freeCtr = s.freeCtr ∧ (phaseTwo a0 s).aon = s.aon ∧ (phaseTwo a0 s).cfg = s.cfg ∧ (phaseTwo a0 s).pend = s.pend ∧ (phaseTwo a0 s).tb = s.tb ∧ (phaseTwo a0 s).events = s.events ∧ (phaseTwo a0 s).host = s.host ∧ (phaseTwo a0 s).halls = s.halls ∧ (phaseTwo a0 s).grid = s.grid ∧ (phaseTwo a0 s).treadsOld = s.treadsOld ∧ (phaseTwo a0 s).meas = s.meas ∧ (phaseTwo a0 s).safe = s.safe ∧ (phaseTwo a0 s).therm = s.therm ∧ (phaseTwo a0 s).stair = s.stair ∧ (phaseTwo a0 s).nvm = s.nvm ∧ (phaseTwo a0 s).streams = s.streams ∧ (phaseTwo a0 s).mem = s.mem := by
  unfold phaseTwo
  (try dsimp only)
  (repeat' split) <;> simp [apply_ite]

@[simp] theorem ssbLanded_frame (s : State) :
    (ssbLanded s).pending = s.pending ∧ (ssbLanded s).reply = s.reply ∧ (ssbLanded s).out = s.out ∧ (ssbLanded s).freeCtr = s.freeCtr ∧ (ssbLanded s).aon = s.aon ∧ (ssbLanded s).cfg = s.cfg ∧ (ssbLanded s).pend = s.pend ∧ (ssbLanded s).tb = s.tb ∧ (ssbLanded s).events = s.events ∧ (ssbLanded s).host = s.host ∧ (ssbLanded s).treads = s.treads ∧ (ssbLanded s).cells = s.cells ∧ (ssbLanded s).flights = s.flights ∧ (ssbLanded s).halls = s.halls ∧ (ssbLanded s).grid = s.grid ∧ (ssbLanded s).atr = s.atr ∧ (ssbLanded s).treadsOld = s.treadsOld ∧ (ssbLanded s).meas = s.meas ∧ (ssbLanded s).therm = s.therm ∧ (ssbLanded s).twin = s.twin ∧ (ssbLanded s).stair = s.stair ∧ (ssbLanded s).nvm = s.nvm ∧ (ssbLanded s).streams = s.streams ∧ (ssbLanded s).mem = s.mem := by
  unfold ssbLanded
  (try dsimp only)
  (repeat' split) <;> simp [apply_ite]

@[simp] theorem serveCell_frame (a0 : Nat) (a1 : List Nat) (a2 : Nat) (s : State) :
    (serveCell a0 a1 a2 s).pending = s.pending ∧ (serveCell a0 a1 a2 s).reply = s.reply ∧ (serveCell a0 a1 a2 s).freeCtr = s.freeCtr ∧ (serveCell a0 a1 a2 s).cfg = s.cfg ∧ (serveCell a0 a1 a2 s).pend = s.pend ∧ (serveCell a0 a1 a2 s).tb = s.tb ∧ (serveCell a0 a1 a2 s).halls = s.halls ∧ (serveCell a0 a1 a2 s).grid = s.grid ∧ (serveCell a0 a1 a2 s).treadsOld = s.treadsOld ∧ (serveCell a0 a1 a2 s).meas = s.meas ∧ (serveCell a0 a1 a2 s).safe = s.safe ∧ (serveCell a0 a1 a2 s).therm = s.therm ∧ (serveCell a0 a1 a2 s).stair = s.stair ∧ (serveCell a0 a1 a2 s).nvm = s.nvm ∧ (serveCell a0 a1 a2 s).streams = s.streams ∧ (serveCell a0 a1 a2 s).mem = s.mem := by
  unfold serveCell
  (try dsimp only)
  (repeat' split) <;> simp [apply_ite]

@[simp] theorem shortfallStep_frame (a0 : Nat) (s : State) :
    (shortfallStep a0 s).pending = s.pending ∧ (shortfallStep a0 s).reply = s.reply ∧ (shortfallStep a0 s).freeCtr = s.freeCtr ∧ (shortfallStep a0 s).cfg = s.cfg ∧ (shortfallStep a0 s).pend = s.pend ∧ (shortfallStep a0 s).tb = s.tb ∧ (shortfallStep a0 s).treads = s.treads ∧ (shortfallStep a0 s).grid = s.grid ∧ (shortfallStep a0 s).treadsOld = s.treadsOld ∧ (shortfallStep a0 s).meas = s.meas ∧ (shortfallStep a0 s).therm = s.therm ∧ (shortfallStep a0 s).twin = s.twin ∧ (shortfallStep a0 s).stair = s.stair ∧ (shortfallStep a0 s).streams = s.streams ∧ (shortfallStep a0 s).mem = s.mem := by
  unfold shortfallStep
  (try dsimp only)
  (repeat' split) <;> simp [apply_ite]

@[simp] theorem landPts_frame (a0 : List (Nat × F32)) (s : State) :
    (landPts a0 s).pending = s.pending ∧ (landPts a0 s).reply = s.reply ∧ (landPts a0 s).out = s.out ∧ (landPts a0 s).freeCtr = s.freeCtr ∧ (landPts a0 s).aon = s.aon ∧ (landPts a0 s).cfg = s.cfg ∧ (landPts a0 s).pend = s.pend ∧ (landPts a0 s).tb = s.tb ∧ (landPts a0 s).events = s.events ∧ (landPts a0 s).host = s.host ∧ (landPts a0 s).cells = s.cells ∧ (landPts a0 s).halls = s.halls ∧ (landPts a0 s).grid = s.grid ∧ (landPts a0 s).treadsOld = s.treadsOld ∧ (landPts a0 s).meas = s.meas ∧ (landPts a0 s).safe = s.safe ∧ (landPts a0 s).therm = s.therm ∧ (landPts a0 s).twin = s.twin ∧ (landPts a0 s).stair = s.stair ∧ (landPts a0 s).nvm = s.nvm ∧ (landPts a0 s).streams = s.streams ∧ (landPts a0 s).mem = s.mem := by
  unfold landPts
  (try dsimp only)
  (repeat' split) <;> simp [apply_ite]

@[simp] theorem landString_frame (a0 : Nat) (s : State) :
    (landString a0 s).pending = s.pending ∧ (landString a0 s).reply = s.reply ∧ (landString a0 s).freeCtr = s.freeCtr ∧ (landString a0 s).cfg = s.cfg ∧ (landString a0 s).pend = s.pend ∧ (landString a0 s).tb = s.tb ∧ (landString a0 s).grid = s.grid ∧ (landString a0 s).treadsOld = s.treadsOld ∧ (landString a0 s).meas = s.meas ∧ (landString a0 s).safe = s.safe ∧ (landString a0 s).therm = s.therm ∧ (landString a0 s).stair = s.stair ∧ (landString a0 s).nvm = s.nvm ∧ (landString a0 s).streams = s.streams ∧ (landString a0 s).mem = s.mem := by
  unfold landString
  (try dsimp only)
  (repeat' split) <;> simp [apply_ite]

@[simp] theorem landMode_frame (a0 : Nat) (s : State) :
    (landMode a0 s).pending = s.pending ∧ (landMode a0 s).reply = s.reply ∧ (landMode a0 s).out = s.out ∧ (landMode a0 s).freeCtr = s.freeCtr ∧ (landMode a0 s).aon = s.aon ∧ (landMode a0 s).cfg = s.cfg ∧ (landMode a0 s).pend = s.pend ∧ (landMode a0 s).tb = s.tb ∧ (landMode a0 s).events = s.events ∧ (landMode a0 s).host = s.host ∧ (landMode a0 s).treads = s.treads ∧ (landMode a0 s).cells = s.cells ∧ (landMode a0 s).flights = s.flights ∧ (landMode a0 s).grid = s.grid ∧ (landMode a0 s).atr = s.atr ∧ (landMode a0 s).treadsOld = s.treadsOld ∧ (landMode a0 s).meas = s.meas ∧ (landMode a0 s).safe = s.safe ∧ (landMode a0 s).therm = s.therm ∧ (landMode a0 s).twin = s.twin ∧ (landMode a0 s).stair = s.stair ∧ (landMode a0 s).nvm = s.nvm ∧ (landMode a0 s).streams = s.streams ∧ (landMode a0 s).mem = s.mem := by
  unfold landMode
  (try dsimp only)
  (repeat' split) <;> simp [apply_ite]

@[simp] theorem rollGrid_frame (s : State) :
    (rollGrid s).pending = s.pending ∧ (rollGrid s).reply = s.reply ∧ (rollGrid s).out = s.out ∧ (rollGrid s).freeCtr = s.freeCtr ∧ (rollGrid s).aon = s.aon ∧ (rollGrid s).cfg = s.cfg ∧ (rollGrid s).pend = s.pend ∧ (rollGrid s).tb = s.tb ∧ (rollGrid s).events = s.events ∧ (rollGrid s).host = s.host ∧ (rollGrid s).treads = s.treads ∧ (rollGrid s).cells = s.cells ∧ (rollGrid s).flights = s.flights ∧ (rollGrid s).halls = s.halls ∧ (rollGrid s).atr = s.atr ∧ (rollGrid s).treadsOld = s.treadsOld ∧ (rollGrid s).meas = s.meas ∧ (rollGrid s).safe = s.safe ∧ (rollGrid s).therm = s.therm ∧ (rollGrid s).twin = s.twin ∧ (rollGrid s).stair = s.stair ∧ (rollGrid s).nvm = s.nvm ∧ (rollGrid s).streams = s.streams ∧ (rollGrid s).mem = s.mem := by
  unfold rollGrid
  (try dsimp only)
  (repeat' split) <;> simp [apply_ite]

@[simp] theorem freshPeriod_frame (s : State) :
    (freshPeriod s).pending = s.pending ∧ (freshPeriod s).reply = s.reply ∧ (freshPeriod s).out = s.out ∧ (freshPeriod s).freeCtr = s.freeCtr ∧ (freshPeriod s).aon = s.aon ∧ (freshPeriod s).cfg = s.cfg ∧ (freshPeriod s).pend = s.pend ∧ (freshPeriod s).tb = s.tb ∧ (freshPeriod s).events = s.events ∧ (freshPeriod s).host = s.host ∧ (freshPeriod s).treads = s.treads ∧ (freshPeriod s).cells = s.cells ∧ (freshPeriod s).grid = s.grid ∧ (freshPeriod s).treadsOld = s.treadsOld ∧ (freshPeriod s).meas = s.meas ∧ (freshPeriod s).safe = s.safe ∧ (freshPeriod s).therm = s.therm ∧ (freshPeriod s).twin = s.twin ∧ (freshPeriod s).stair = s.stair ∧ (freshPeriod s).nvm = s.nvm ∧ (freshPeriod s).streams = s.streams ∧ (freshPeriod s).mem = s.mem := by
  unfold freshPeriod
  (try dsimp only)
  (repeat' split) <;> simp [apply_ite]

@[simp] theorem unwrapLanding_frame (a0 : Nat) (s : State) :
    (unwrapLanding a0 s).pending = s.pending ∧ (unwrapLanding a0 s).reply = s.reply ∧ (unwrapLanding a0 s).freeCtr = s.freeCtr ∧ (unwrapLanding a0 s).cfg = s.cfg ∧ (unwrapLanding a0 s).pend = s.pend ∧ (unwrapLanding a0 s).tb = s.tb ∧ (unwrapLanding a0 s).treads = s.treads ∧ (unwrapLanding a0 s).cells = s.cells ∧ (unwrapLanding a0 s).halls = s.halls ∧ (unwrapLanding a0 s).grid = s.grid ∧ (unwrapLanding a0 s).treadsOld = s.treadsOld ∧ (unwrapLanding a0 s).meas = s.meas ∧ (unwrapLanding a0 s).safe = s.safe ∧ (unwrapLanding a0 s).therm = s.therm ∧ (unwrapLanding a0 s).twin = s.twin ∧ (unwrapLanding a0 s).stair = s.stair ∧ (unwrapLanding a0 s).nvm = s.nvm ∧ (unwrapLanding a0 s).streams = s.streams ∧ (unwrapLanding a0 s).mem = s.mem := by
  unfold unwrapLanding
  (try dsimp only)
  (repeat' split) <;> simp [apply_ite]

@[simp] theorem stageCell_frame (a0 : Nat) (a1 : Nat) (s : State) :
    (stageCell a0 a1 s).pending = s.pending ∧ (stageCell a0 a1 s).reply = s.reply ∧ (stageCell a0 a1 s).out = s.out ∧ (stageCell a0 a1 s).freeCtr = s.freeCtr ∧ (stageCell a0 a1 s).aon = s.aon ∧ (stageCell a0 a1 s).cfg = s.cfg ∧ (stageCell a0 a1 s).pend = s.pend ∧ (stageCell a0 a1 s).tb = s.tb ∧ (stageCell a0 a1 s).events = s.events ∧ (stageCell a0 a1 s).host = s.host ∧ (stageCell a0 a1 s).treads = s.treads ∧ (stageCell a0 a1 s).flights = s.flights ∧ (stageCell a0 a1 s).halls = s.halls ∧ (stageCell a0 a1 s).grid = s.grid ∧ (stageCell a0 a1 s).atr = s.atr ∧ (stageCell a0 a1 s).treadsOld = s.treadsOld ∧ (stageCell a0 a1 s).meas = s.meas ∧ (stageCell a0 a1 s).safe = s.safe ∧ (stageCell a0 a1 s).therm = s.therm ∧ (stageCell a0 a1 s).twin = s.twin ∧ (stageCell a0 a1 s).stair = s.stair ∧ (stageCell a0 a1 s).nvm = s.nvm ∧ (stageCell a0 a1 s).streams = s.streams ∧ (stageCell a0 a1 s).mem = s.mem := by
  unfold stageCell
  (try dsimp only)
  (repeat' split) <;> simp [apply_ite]

@[simp] theorem State.applied_frame (s : State) :
    (State.applied s).pending = s.pending ∧ (State.applied s).reply = s.reply ∧ (State.applied s).freeCtr = s.freeCtr ∧ (State.applied s).cfg = s.cfg ∧ (State.applied s).pend = s.pend ∧ (State.applied s).tb = s.tb ∧ (State.applied s).grid = s.grid ∧ (State.applied s).treadsOld = s.treadsOld ∧ (State.applied s).meas = s.meas ∧ (State.applied s).safe = s.safe ∧ (State.applied s).therm = s.therm ∧ (State.applied s).stair = s.stair ∧ (State.applied s).nvm = s.nvm ∧ (State.applied s).streams = s.streams ∧ (State.applied s).mem = s.mem := by
  unfold State.applied
  (try dsimp only)
  (repeat' split) <;> simp [apply_ite]

@[simp] theorem departSampled_frame (a0 : BitVec 10) (a1 : BitVec 10) (s : State) :
    (departSampled a0 a1 s).pending = s.pending ∧ (departSampled a0 a1 s).reply = s.reply ∧ (departSampled a0 a1 s).cfg = s.cfg ∧ (departSampled a0 a1 s).pend = s.pend ∧ (departSampled a0 a1 s).treadsOld = s.treadsOld ∧ (departSampled a0 a1 s).meas = s.meas ∧ (departSampled a0 a1 s).therm = s.therm := by
  unfold departSampled
  (try dsimp only)
  (repeat' split) <;> simp [apply_ite]

@[simp] theorem transferStep_frame (s : State) :
    (transferStep s).pending = s.pending ∧ (transferStep s).reply = s.reply ∧ (transferStep s).freeCtr = s.freeCtr ∧ (transferStep s).aon = s.aon ∧ (transferStep s).cfg = s.cfg ∧ (transferStep s).pend = s.pend ∧ (transferStep s).tb = s.tb ∧ (transferStep s).events = s.events ∧ (transferStep s).host = s.host ∧ (transferStep s).treads = s.treads ∧ (transferStep s).cells = s.cells ∧ (transferStep s).flights = s.flights ∧ (transferStep s).halls = s.halls ∧ (transferStep s).grid = s.grid ∧ (transferStep s).atr = s.atr ∧ (transferStep s).treadsOld = s.treadsOld ∧ (transferStep s).meas = s.meas ∧ (transferStep s).safe = s.safe ∧ (transferStep s).therm = s.therm ∧ (transferStep s).stair = s.stair ∧ (transferStep s).nvm = s.nvm ∧ (transferStep s).streams = s.streams ∧ (transferStep s).mem = s.mem := by
  unfold transferStep
  (try dsimp only)
  (repeat' split) <;> simp [apply_ite]

@[simp] theorem sendReport_frame (s : State) :
    (sendReport s).pending = s.pending ∧ (sendReport s).reply = s.reply ∧ (sendReport s).freeCtr = s.freeCtr ∧ (sendReport s).aon = s.aon ∧ (sendReport s).cfg = s.cfg ∧ (sendReport s).pend = s.pend ∧ (sendReport s).tb = s.tb ∧ (sendReport s).events = s.events ∧ (sendReport s).host = s.host ∧ (sendReport s).treads = s.treads ∧ (sendReport s).cells = s.cells ∧ (sendReport s).flights = s.flights ∧ (sendReport s).halls = s.halls ∧ (sendReport s).grid = s.grid ∧ (sendReport s).atr = s.atr ∧ (sendReport s).treadsOld = s.treadsOld ∧ (sendReport s).meas = s.meas ∧ (sendReport s).safe = s.safe ∧ (sendReport s).therm = s.therm ∧ (sendReport s).twin = s.twin ∧ (sendReport s).stair = s.stair ∧ (sendReport s).nvm = s.nvm ∧ (sendReport s).streams = s.streams ∧ (sendReport s).mem = s.mem := by
  unfold sendReport
  (try dsimp only)
  (repeat' split) <;> simp [apply_ite]

@[simp] theorem reportReleasable_frame (s : State) :
    (reportReleasable s).pending = s.pending ∧ (reportReleasable s).reply = s.reply ∧ (reportReleasable s).freeCtr = s.freeCtr ∧ (reportReleasable s).aon = s.aon ∧ (reportReleasable s).cfg = s.cfg ∧ (reportReleasable s).pend = s.pend ∧ (reportReleasable s).tb = s.tb ∧ (reportReleasable s).events = s.events ∧ (reportReleasable s).host = s.host ∧ (reportReleasable s).treads = s.treads ∧ (reportReleasable s).cells = s.cells ∧ (reportReleasable s).flights = s.flights ∧ (reportReleasable s).halls = s.halls ∧ (reportReleasable s).grid = s.grid ∧ (reportReleasable s).atr = s.atr ∧ (reportReleasable s).treadsOld = s.treadsOld ∧ (reportReleasable s).meas = s.meas ∧ (reportReleasable s).safe = s.safe ∧ (reportReleasable s).therm = s.therm ∧ (reportReleasable s).twin = s.twin ∧ (reportReleasable s).stair = s.stair ∧ (reportReleasable s).nvm = s.nvm ∧ (reportReleasable s).streams = s.streams ∧ (reportReleasable s).mem = s.mem := by
  unfold reportReleasable
  (try dsimp only)
  (repeat' split) <;> simp [apply_ite]

theorem execLanding_frame (s t : State) (h : execLanding s = .next t) :
    t.pending = s.pending ∧ t.reply = s.reply ∧ t.freeCtr = s.freeCtr ∧ t.cfg = s.cfg ∧ t.pend = s.pend ∧ t.treadsOld = s.treadsOld ∧ t.therm = s.therm ∧ t.stair = s.stair ∧ t.streams = s.streams ∧ t.mem = s.mem := by
  unfold execLanding at h; cases h; (try dsimp only); (repeat' split) <;> simp [apply_ite]

end Sys2Proof.Machine
end

