-- ==== Sys2Proof/Laws/FramesUnits.lean ====
section
/-! SUPPORT. What each operation and each command leaves alone: the pair, the memory, power and the stairwell. A lemma `f_frame` names every part of the state
that `f` does not write. -/

namespace Sys2Proof.Machine

open Sys2Proof

set_option linter.all false

@[simp] theorem servo_frame (a0 : Int) (s : State) :
    (servo a0 s).pending = s.pending ∧ (servo a0 s).reply = s.reply ∧ (servo a0 s).cfg = s.cfg ∧ (servo a0 s).pend = s.pend ∧ (servo a0 s).treads = s.treads ∧ (servo a0 s).cells = s.cells ∧ (servo a0 s).flights = s.flights ∧ (servo a0 s).halls = s.halls ∧ (servo a0 s).treadsOld = s.treadsOld ∧ (servo a0 s).meas = s.meas ∧ (servo a0 s).safe = s.safe ∧ (servo a0 s).twin = s.twin ∧ (servo a0 s).stair = s.stair ∧ (servo a0 s).nvm = s.nvm ∧ (servo a0 s).streams = s.streams ∧ (servo a0 s).mem = s.mem := by
  unfold servo
  (try dsimp only)
  (repeat' split) <;> simp [apply_ite]

@[simp] theorem takeFaults_frame (a0 : Nat) (s : State) :
    (takeFaults a0 s).pending = s.pending ∧ (takeFaults a0 s).reply = s.reply ∧ (takeFaults a0 s).freeCtr = s.freeCtr ∧ (takeFaults a0 s).cfg = s.cfg ∧ (takeFaults a0 s).pend = s.pend ∧ (takeFaults a0 s).tb = s.tb ∧ (takeFaults a0 s).treads = s.treads ∧ (takeFaults a0 s).halls = s.halls ∧ (takeFaults a0 s).grid = s.grid ∧ (takeFaults a0 s).treadsOld = s.treadsOld ∧ (takeFaults a0 s).meas = s.meas ∧ (takeFaults a0 s).therm = s.therm ∧ (takeFaults a0 s).twin = s.twin ∧ (takeFaults a0 s).stair = s.stair ∧ (takeFaults a0 s).streams = s.streams ∧ (takeFaults a0 s).mem = s.mem := by
  unfold takeFaults
  (try dsimp only)
  (repeat' split) <;> simp [apply_ite]

@[simp] theorem wrapAtPartner_frame (a0 : Nat) (s : State) :
    (wrapAtPartner a0 s).pending = s.pending ∧ (wrapAtPartner a0 s).reply = s.reply ∧ (wrapAtPartner a0 s).freeCtr = s.freeCtr ∧ (wrapAtPartner a0 s).cfg = s.cfg ∧ (wrapAtPartner a0 s).pend = s.pend ∧ (wrapAtPartner a0 s).tb = s.tb ∧ (wrapAtPartner a0 s).treads = s.treads ∧ (wrapAtPartner a0 s).halls = s.halls ∧ (wrapAtPartner a0 s).grid = s.grid ∧ (wrapAtPartner a0 s).treadsOld = s.treadsOld ∧ (wrapAtPartner a0 s).meas = s.meas ∧ (wrapAtPartner a0 s).therm = s.therm ∧ (wrapAtPartner a0 s).twin = s.twin ∧ (wrapAtPartner a0 s).stair = s.stair ∧ (wrapAtPartner a0 s).streams = s.streams ∧ (wrapAtPartner a0 s).mem = s.mem := by
  unfold wrapAtPartner
  (try dsimp only)
  (repeat' split) <;> simp [apply_ite]

@[simp] theorem newEpoch_frame (s : State) :
    (newEpoch s).pending = s.pending ∧ (newEpoch s).reply = s.reply ∧ (newEpoch s).freeCtr = s.freeCtr ∧ (newEpoch s).cfg = s.cfg ∧ (newEpoch s).pend = s.pend ∧ (newEpoch s).tb = s.tb ∧ (newEpoch s).treads = s.treads ∧ (newEpoch s).cells = s.cells ∧ (newEpoch s).flights = s.flights ∧ (newEpoch s).halls = s.halls ∧ (newEpoch s).grid = s.grid ∧ (newEpoch s).treadsOld = s.treadsOld ∧ (newEpoch s).meas = s.meas ∧ (newEpoch s).safe = s.safe ∧ (newEpoch s).therm = s.therm ∧ (newEpoch s).stair = s.stair ∧ (newEpoch s).nvm = s.nvm ∧ (newEpoch s).streams = s.streams ∧ (newEpoch s).mem = s.mem := by
  unfold newEpoch
  (try dsimp only)
  (repeat' split) <;> simp [apply_ite]

@[simp] theorem takeQueues_frame (s : State) :
    (takeQueues s).pending = s.pending ∧ (takeQueues s).reply = s.reply ∧ (takeQueues s).out = s.out ∧ (takeQueues s).freeCtr = s.freeCtr ∧ (takeQueues s).aon = s.aon ∧ (takeQueues s).cfg = s.cfg ∧ (takeQueues s).pend = s.pend ∧ (takeQueues s).tb = s.tb ∧ (takeQueues s).events = s.events ∧ (takeQueues s).treads = s.treads ∧ (takeQueues s).cells = s.cells ∧ (takeQueues s).flights = s.flights ∧ (takeQueues s).halls = s.halls ∧ (takeQueues s).grid = s.grid ∧ (takeQueues s).atr = s.atr ∧ (takeQueues s).treadsOld = s.treadsOld ∧ (takeQueues s).meas = s.meas ∧ (takeQueues s).safe = s.safe ∧ (takeQueues s).therm = s.therm ∧ (takeQueues s).twin = s.twin ∧ (takeQueues s).stair = s.stair ∧ (takeQueues s).nvm = s.nvm ∧ (takeQueues s).streams = s.streams ∧ (takeQueues s).mem = s.mem := by
  unfold takeQueues
  (try dsimp only)
  (repeat' split) <;> simp [apply_ite]

@[simp] theorem takeRings_frame (s : State) :
    (takeRings s).pending = s.pending ∧ (takeRings s).reply = s.reply ∧ (takeRings s).freeCtr = s.freeCtr ∧ (takeRings s).cfg = s.cfg ∧ (takeRings s).pend = s.pend ∧ (takeRings s).tb = s.tb ∧ (takeRings s).treads = s.treads ∧ (takeRings s).halls = s.halls ∧ (takeRings s).grid = s.grid ∧ (takeRings s).treadsOld = s.treadsOld ∧ (takeRings s).meas = s.meas ∧ (takeRings s).therm = s.therm ∧ (takeRings s).stair = s.stair ∧ (takeRings s).streams = s.streams ∧ (takeRings s).mem = s.mem := by
  unfold takeRings
  (try dsimp only)
  (repeat' split) <;> simp [apply_ite]

@[simp] theorem lostTakeover_frame (s : State) :
    (lostTakeover s).pending = s.pending ∧ (lostTakeover s).reply = s.reply ∧ (lostTakeover s).freeCtr = s.freeCtr ∧ (lostTakeover s).cfg = s.cfg ∧ (lostTakeover s).pend = s.pend ∧ (lostTakeover s).tb = s.tb ∧ (lostTakeover s).treads = s.treads ∧ (lostTakeover s).halls = s.halls ∧ (lostTakeover s).grid = s.grid ∧ (lostTakeover s).treadsOld = s.treadsOld ∧ (lostTakeover s).meas = s.meas ∧ (lostTakeover s).therm = s.therm ∧ (lostTakeover s).stair = s.stair ∧ (lostTakeover s).streams = s.streams ∧ (lostTakeover s).mem = s.mem := by
  unfold lostTakeover
  (try dsimp only)
  (repeat' split) <;> simp [apply_ite]

@[simp] theorem forceNow_frame (s : State) :
    (forceNow s).pending = s.pending ∧ (forceNow s).reply = s.reply ∧ (forceNow s).freeCtr = s.freeCtr ∧ (forceNow s).cfg = s.cfg ∧ (forceNow s).pend = s.pend ∧ (forceNow s).tb = s.tb ∧ (forceNow s).treads = s.treads ∧ (forceNow s).halls = s.halls ∧ (forceNow s).grid = s.grid ∧ (forceNow s).treadsOld = s.treadsOld ∧ (forceNow s).meas = s.meas ∧ (forceNow s).therm = s.therm ∧ (forceNow s).stair = s.stair ∧ (forceNow s).streams = s.streams ∧ (forceNow s).mem = s.mem := by
  unfold forceNow
  (try dsimp only)
  (repeat' split) <;> simp [apply_ite]

theorem execForce_frame (s t : State) (h : execForce s = .next t) :
    t.pending = s.pending ∧ t.reply = s.reply ∧ t.freeCtr = s.freeCtr ∧ t.cfg = s.cfg ∧ t.pend = s.pend ∧ t.tb = s.tb ∧ t.treads = s.treads ∧ t.halls = s.halls ∧ t.grid = s.grid ∧ t.treadsOld = s.treadsOld ∧ t.meas = s.meas ∧ t.therm = s.therm ∧ t.stair = s.stair ∧ t.streams = s.streams ∧ t.mem = s.mem := by
  unfold execForce at h; cases h; (try dsimp only); (repeat' split) <;> simp [apply_ite]

theorem execDemReceived_frame (s t : State) (h : execDemReceived s = .next t) :
    t.pending = s.pending ∧ t.reply = s.reply ∧ t.freeCtr = s.freeCtr ∧ t.cfg = s.cfg ∧ t.pend = s.pend ∧ t.tb = s.tb ∧ t.treads = s.treads ∧ t.halls = s.halls ∧ t.grid = s.grid ∧ t.treadsOld = s.treadsOld ∧ t.meas = s.meas ∧ t.therm = s.therm ∧ t.stair = s.stair ∧ t.streams = s.streams ∧ t.mem = s.mem := by
  unfold execDemReceived at h; cases h; (try dsimp only); (repeat' split) <;> simp [apply_ite]

@[simp] theorem demoteNow_frame (s : State) :
    (demoteNow s).pending = s.pending ∧ (demoteNow s).reply = s.reply ∧ (demoteNow s).out = s.out ∧ (demoteNow s).freeCtr = s.freeCtr ∧ (demoteNow s).aon = s.aon ∧ (demoteNow s).cfg = s.cfg ∧ (demoteNow s).pend = s.pend ∧ (demoteNow s).tb = s.tb ∧ (demoteNow s).events = s.events ∧ (demoteNow s).host = s.host ∧ (demoteNow s).treads = s.treads ∧ (demoteNow s).cells = s.cells ∧ (demoteNow s).flights = s.flights ∧ (demoteNow s).halls = s.halls ∧ (demoteNow s).grid = s.grid ∧ (demoteNow s).atr = s.atr ∧ (demoteNow s).treadsOld = s.treadsOld ∧ (demoteNow s).meas = s.meas ∧ (demoteNow s).safe = s.safe ∧ (demoteNow s).therm = s.therm ∧ (demoteNow s).stair = s.stair ∧ (demoteNow s).nvm = s.nvm ∧ (demoteNow s).streams = s.streams ∧ (demoteNow s).mem = s.mem := by
  unfold demoteNow
  (try dsimp only)
  (repeat' split) <;> simp [apply_ite]

@[simp] theorem superseded_frame (s : State) :
    (superseded s).pending = s.pending ∧ (superseded s).reply = s.reply ∧ (superseded s).out = s.out ∧ (superseded s).freeCtr = s.freeCtr ∧ (superseded s).aon = s.aon ∧ (superseded s).cfg = s.cfg ∧ (superseded s).pend = s.pend ∧ (superseded s).tb = s.tb ∧ (superseded s).events = s.events ∧ (superseded s).host = s.host ∧ (superseded s).treads = s.treads ∧ (superseded s).cells = s.cells ∧ (superseded s).flights = s.flights ∧ (superseded s).halls = s.halls ∧ (superseded s).grid = s.grid ∧ (superseded s).atr = s.atr ∧ (superseded s).treadsOld = s.treadsOld ∧ (superseded s).meas = s.meas ∧ (superseded s).safe = s.safe ∧ (superseded s).therm = s.therm ∧ (superseded s).stair = s.stair ∧ (superseded s).nvm = s.nvm ∧ (superseded s).streams = s.streams ∧ (superseded s).mem = s.mem := by
  unfold superseded
  (try dsimp only)
  (repeat' split) <;> simp [apply_ite]

theorem execPartnerTrainReceived_frame (a0 : Fin 9) (a1 : Bool) (a2 : BitVec 16) (s t : State) (h : execPartnerTrainReceived a0 a1 a2 s = .next t) :
    t.pending = s.pending ∧ t.reply = s.reply ∧ t.freeCtr = s.freeCtr ∧ t.cfg = s.cfg ∧ t.pend = s.pend ∧ t.tb = s.tb ∧ t.treads = s.treads ∧ t.cells = s.cells ∧ t.flights = s.flights ∧ t.halls = s.halls ∧ t.grid = s.grid ∧ t.treadsOld = s.treadsOld ∧ t.meas = s.meas ∧ t.safe = s.safe ∧ t.therm = s.therm ∧ t.stair = s.stair ∧ t.nvm = s.nvm ∧ t.streams = s.streams ∧ t.mem = s.mem := by
  unfold execPartnerTrainReceived at h; cases h; (try dsimp only); (repeat' split) <;> simp [apply_ite]

@[simp] theorem resumeHb_frame (s : State) :
    (resumeHb s).pending = s.pending ∧ (resumeHb s).reply = s.reply ∧ (resumeHb s).out = s.out ∧ (resumeHb s).freeCtr = s.freeCtr ∧ (resumeHb s).aon = s.aon ∧ (resumeHb s).cfg = s.cfg ∧ (resumeHb s).pend = s.pend ∧ (resumeHb s).tb = s.tb ∧ (resumeHb s).events = s.events ∧ (resumeHb s).host = s.host ∧ (resumeHb s).treads = s.treads ∧ (resumeHb s).cells = s.cells ∧ (resumeHb s).flights = s.flights ∧ (resumeHb s).halls = s.halls ∧ (resumeHb s).grid = s.grid ∧ (resumeHb s).atr = s.atr ∧ (resumeHb s).treadsOld = s.treadsOld ∧ (resumeHb s).meas = s.meas ∧ (resumeHb s).safe = s.safe ∧ (resumeHb s).therm = s.therm ∧ (resumeHb s).stair = s.stair ∧ (resumeHb s).nvm = s.nvm ∧ (resumeHb s).streams = s.streams ∧ (resumeHb s).mem = s.mem := by
  unfold resumeHb
  (try dsimp only)
  (repeat' split) <;> simp [apply_ite]

@[simp] theorem transferDone_frame (s : State) :
    (transferDone s).pending = s.pending ∧ (transferDone s).reply = s.reply ∧ (transferDone s).freeCtr = s.freeCtr ∧ (transferDone s).cfg = s.cfg ∧ (transferDone s).pend = s.pend ∧ (transferDone s).tb = s.tb ∧ (transferDone s).treads = s.treads ∧ (transferDone s).cells = s.cells ∧ (transferDone s).flights = s.flights ∧ (transferDone s).halls = s.halls ∧ (transferDone s).grid = s.grid ∧ (transferDone s).treadsOld = s.treadsOld ∧ (transferDone s).meas = s.meas ∧ (transferDone s).safe = s.safe ∧ (transferDone s).therm = s.therm ∧ (transferDone s).stair = s.stair ∧ (transferDone s).nvm = s.nvm ∧ (transferDone s).streams = s.streams ∧ (transferDone s).mem = s.mem := by
  unfold transferDone
  (try dsimp only)
  (repeat' split) <;> simp [apply_ite]

@[simp] theorem hearActive_frame (s : State) :
    (hearActive s).pending = s.pending ∧ (hearActive s).reply = s.reply ∧ (hearActive s).out = s.out ∧ (hearActive s).freeCtr = s.freeCtr ∧ (hearActive s).aon = s.aon ∧ (hearActive s).cfg = s.cfg ∧ (hearActive s).pend = s.pend ∧ (hearActive s).tb = s.tb ∧ (hearActive s).events = s.events ∧ (hearActive s).host = s.host ∧ (hearActive s).treads = s.treads ∧ (hearActive s).cells = s.cells ∧ (hearActive s).flights = s.flights ∧ (hearActive s).halls = s.halls ∧ (hearActive s).grid = s.grid ∧ (hearActive s).atr = s.atr ∧ (hearActive s).treadsOld = s.treadsOld ∧ (hearActive s).meas = s.meas ∧ (hearActive s).safe = s.safe ∧ (hearActive s).therm = s.therm ∧ (hearActive s).stair = s.stair ∧ (hearActive s).nvm = s.nvm ∧ (hearActive s).streams = s.streams ∧ (hearActive s).mem = s.mem := by
  unfold hearActive
  (try dsimp only)
  (repeat' split) <;> simp [apply_ite]

@[simp] theorem goodBeat_frame (a0 : Byte) (s : State) :
    (goodBeat a0 s).pending = s.pending ∧ (goodBeat a0 s).reply = s.reply ∧ (goodBeat a0 s).freeCtr = s.freeCtr ∧ (goodBeat a0 s).cfg = s.cfg ∧ (goodBeat a0 s).pend = s.pend ∧ (goodBeat a0 s).tb = s.tb ∧ (goodBeat a0 s).treads = s.treads ∧ (goodBeat a0 s).cells = s.cells ∧ (goodBeat a0 s).flights = s.flights ∧ (goodBeat a0 s).halls = s.halls ∧ (goodBeat a0 s).grid = s.grid ∧ (goodBeat a0 s).treadsOld = s.treadsOld ∧ (goodBeat a0 s).meas = s.meas ∧ (goodBeat a0 s).safe = s.safe ∧ (goodBeat a0 s).therm = s.therm ∧ (goodBeat a0 s).stair = s.stair ∧ (goodBeat a0 s).nvm = s.nvm ∧ (goodBeat a0 s).streams = s.streams ∧ (goodBeat a0 s).mem = s.mem := by
  unfold goodBeat
  (try dsimp only)
  (repeat' split) <;> simp [apply_ite]

theorem execHbtReceived_frame (a0 : Byte) (a1 : Byte) (a2 : Byte) (s t : State) (h : execHbtReceived a0 a1 a2 s = .next t) :
    t.pending = s.pending ∧ t.reply = s.reply ∧ t.freeCtr = s.freeCtr ∧ t.cfg = s.cfg ∧ t.pend = s.pend ∧ t.tb = s.tb ∧ t.treads = s.treads ∧ t.cells = s.cells ∧ t.flights = s.flights ∧ t.halls = s.halls ∧ t.grid = s.grid ∧ t.treadsOld = s.treadsOld ∧ t.meas = s.meas ∧ t.safe = s.safe ∧ t.therm = s.therm ∧ t.stair = s.stair ∧ t.nvm = s.nvm ∧ t.streams = s.streams ∧ t.mem = s.mem := by
  unfold execHbtReceived at h; cases h; (try dsimp only); (repeat' split) <;> simp [apply_ite]

theorem execHbInEdge_frame (s t : State) (h : execHbInEdge s = .next t) :
    t.pending = s.pending ∧ t.reply = s.reply ∧ t.out = s.out ∧ t.freeCtr = s.freeCtr ∧ t.aon = s.aon ∧ t.cfg = s.cfg ∧ t.pend = s.pend ∧ t.tb = s.tb ∧ t.events = s.events ∧ t.host = s.host ∧ t.treads = s.treads ∧ t.cells = s.cells ∧ t.flights = s.flights ∧ t.halls = s.halls ∧ t.grid = s.grid ∧ t.atr = s.atr ∧ t.treadsOld = s.treadsOld ∧ t.meas = s.meas ∧ t.safe = s.safe ∧ t.therm = s.therm ∧ t.stair = s.stair ∧ t.nvm = s.nvm ∧ t.streams = s.streams ∧ t.mem = s.mem := by
  unfold execHbInEdge at h; cases h; (try dsimp only); (repeat' split) <;> simp [apply_ite]

theorem execHb1Lost_frame (s t : State) (h : execHb1Lost s = .next t) :
    t.pending = s.pending ∧ t.reply = s.reply ∧ t.freeCtr = s.freeCtr ∧ t.cfg = s.cfg ∧ t.pend = s.pend ∧ t.tb = s.tb ∧ t.treads = s.treads ∧ t.halls = s.halls ∧ t.grid = s.grid ∧ t.treadsOld = s.treadsOld ∧ t.meas = s.meas ∧ t.therm = s.therm ∧ t.stair = s.stair ∧ t.streams = s.streams ∧ t.mem = s.mem := by
  unfold execHb1Lost at h; cases h; (try dsimp only); (repeat' split) <;> simp [apply_ite]

theorem execHb2Lost_frame (s t : State) (h : execHb2Lost s = .next t) :
    t.pending = s.pending ∧ t.reply = s.reply ∧ t.freeCtr = s.freeCtr ∧ t.cfg = s.cfg ∧ t.pend = s.pend ∧ t.tb = s.tb ∧ t.treads = s.treads ∧ t.halls = s.halls ∧ t.grid = s.grid ∧ t.treadsOld = s.treadsOld ∧ t.meas = s.meas ∧ t.therm = s.therm ∧ t.stair = s.stair ∧ t.streams = s.streams ∧ t.mem = s.mem := by
  unfold execHb2Lost at h; cases h; (try dsimp only); (repeat' split) <;> simp [apply_ite]

@[simp] theorem linkDown_frame (s : State) :
    (linkDown s).pending = s.pending ∧ (linkDown s).reply = s.reply ∧ (linkDown s).out = s.out ∧ (linkDown s).freeCtr = s.freeCtr ∧ (linkDown s).aon = s.aon ∧ (linkDown s).cfg = s.cfg ∧ (linkDown s).pend = s.pend ∧ (linkDown s).tb = s.tb ∧ (linkDown s).events = s.events ∧ (linkDown s).host = s.host ∧ (linkDown s).treads = s.treads ∧ (linkDown s).cells = s.cells ∧ (linkDown s).flights = s.flights ∧ (linkDown s).halls = s.halls ∧ (linkDown s).grid = s.grid ∧ (linkDown s).atr = s.atr ∧ (linkDown s).treadsOld = s.treadsOld ∧ (linkDown s).meas = s.meas ∧ (linkDown s).safe = s.safe ∧ (linkDown s).therm = s.therm ∧ (linkDown s).stair = s.stair ∧ (linkDown s).nvm = s.nvm ∧ (linkDown s).streams = s.streams ∧ (linkDown s).mem = s.mem := by
  unfold linkDown
  (try dsimp only)
  (repeat' split) <;> simp [apply_ite]

theorem execTwinLinkChange_frame (a0 : Bool) (s t : State) (h : execTwinLinkChange a0 s = .next t) :
    t.pending = s.pending ∧ t.reply = s.reply ∧ t.out = s.out ∧ t.freeCtr = s.freeCtr ∧ t.aon = s.aon ∧ t.cfg = s.cfg ∧ t.pend = s.pend ∧ t.tb = s.tb ∧ t.events = s.events ∧ t.host = s.host ∧ t.treads = s.treads ∧ t.cells = s.cells ∧ t.flights = s.flights ∧ t.halls = s.halls ∧ t.grid = s.grid ∧ t.atr = s.atr ∧ t.treadsOld = s.treadsOld ∧ t.meas = s.meas ∧ t.safe = s.safe ∧ t.therm = s.therm ∧ t.stair = s.stair ∧ t.nvm = s.nvm ∧ t.streams = s.streams ∧ t.mem = s.mem := by
  unfold execTwinLinkChange at h; cases h; (try dsimp only); (repeat' split) <;> simp [apply_ite]

theorem execHbtSend_frame (s t : State) (h : execHbtSend s = .next t) :
    t.pending = s.pending ∧ t.reply = s.reply ∧ t.freeCtr = s.freeCtr ∧ t.aon = s.aon ∧ t.cfg = s.cfg ∧ t.pend = s.pend ∧ t.tb = s.tb ∧ t.events = s.events ∧ t.host = s.host ∧ t.treads = s.treads ∧ t.cells = s.cells ∧ t.flights = s.flights ∧ t.halls = s.halls ∧ t.grid = s.grid ∧ t.atr = s.atr ∧ t.treadsOld = s.treadsOld ∧ t.meas = s.meas ∧ t.safe = s.safe ∧ t.therm = s.therm ∧ t.twin = s.twin ∧ t.stair = s.stair ∧ t.nvm = s.nvm ∧ t.streams = s.streams ∧ t.mem = s.mem := by
  unfold execHbtSend at h; cases h; (try dsimp only); (repeat' split) <;> simp [apply_ite]

theorem execDemote_frame (a0 : List Word) (s t : State) (h : execDemote a0 s = .next t) :
    t.pending = s.pending ∧ t.out = s.out ∧ t.freeCtr = s.freeCtr ∧ t.aon = s.aon ∧ t.cfg = s.cfg ∧ t.pend = s.pend ∧ t.tb = s.tb ∧ t.events = s.events ∧ t.host = s.host ∧ t.treads = s.treads ∧ t.cells = s.cells ∧ t.flights = s.flights ∧ t.halls = s.halls ∧ t.grid = s.grid ∧ t.atr = s.atr ∧ t.treadsOld = s.treadsOld ∧ t.meas = s.meas ∧ t.safe = s.safe ∧ t.therm = s.therm ∧ t.stair = s.stair ∧ t.nvm = s.nvm ∧ t.streams = s.streams ∧ t.mem = s.mem := by
  unfold execDemote at h; cases h; (try dsimp only); (repeat' split) <;> simp [apply_ite]

theorem execPlannedTakeover_frame (s t : State) (h : execPlannedTakeover s = .next t) :
    t.pending = s.pending ∧ t.reply = s.reply ∧ t.freeCtr = s.freeCtr ∧ t.cfg = s.cfg ∧ t.pend = s.pend ∧ t.treads = s.treads ∧ t.cells = s.cells ∧ t.halls = s.halls ∧ t.grid = s.grid ∧ t.treadsOld = s.treadsOld ∧ t.meas = s.meas ∧ t.safe = s.safe ∧ t.therm = s.therm ∧ t.stair = s.stair ∧ t.nvm = s.nvm ∧ t.streams = s.streams ∧ t.mem = s.mem := by
  unfold execPlannedTakeover at h; cases h; (try dsimp only); (repeat' split) <;> simp [apply_ite]

@[simp] theorem atLanding_frame (a0 : Nat) (a1 : State) (s : State) :
    (atLanding a0 a1 s).pending = s.pending ∧ (atLanding a0 a1 s).reply = s.reply ∧ (atLanding a0 a1 s).out = s.out ∧ (atLanding a0 a1 s).freeCtr = s.freeCtr ∧ (atLanding a0 a1 s).aon = s.aon ∧ (atLanding a0 a1 s).cfg = s.cfg ∧ (atLanding a0 a1 s).pend = s.pend ∧ (atLanding a0 a1 s).tb = s.tb ∧ (atLanding a0 a1 s).events = s.events ∧ (atLanding a0 a1 s).host = s.host ∧ (atLanding a0 a1 s).treads = s.treads ∧ (atLanding a0 a1 s).flights = s.flights ∧ (atLanding a0 a1 s).halls = s.halls ∧ (atLanding a0 a1 s).grid = s.grid ∧ (atLanding a0 a1 s).atr = s.atr ∧ (atLanding a0 a1 s).treadsOld = s.treadsOld ∧ (atLanding a0 a1 s).meas = s.meas ∧ (atLanding a0 a1 s).safe = s.safe ∧ (atLanding a0 a1 s).therm = s.therm ∧ (atLanding a0 a1 s).twin = s.twin ∧ (atLanding a0 a1 s).stair = s.stair ∧ (atLanding a0 a1 s).nvm = s.nvm ∧ (atLanding a0 a1 s).streams = s.streams ∧ (atLanding a0 a1 s).mem = s.mem := by
  unfold atLanding
  (try dsimp only)
  (repeat' split) <;> simp [apply_ite]

@[simp] theorem takeCellWord_frame (a0 : Nat) (a1 : Nat) (a2 : Nat) (a3 : Bool) (a4 : Nat) (s : State) :
    (takeCellWord a0 a1 a2 a3 a4 s).pending = s.pending ∧ (takeCellWord a0 a1 a2 a3 a4 s).reply = s.reply ∧ (takeCellWord a0 a1 a2 a3 a4 s).freeCtr = s.freeCtr ∧ (takeCellWord a0 a1 a2 a3 a4 s).cfg = s.cfg ∧ (takeCellWord a0 a1 a2 a3 a4 s).pend = s.pend ∧ (takeCellWord a0 a1 a2 a3 a4 s).tb = s.tb ∧ (takeCellWord a0 a1 a2 a3 a4 s).treads = s.treads ∧ (takeCellWord a0 a1 a2 a3 a4 s).halls = s.halls ∧ (takeCellWord a0 a1 a2 a3 a4 s).grid = s.grid ∧ (takeCellWord a0 a1 a2 a3 a4 s).treadsOld = s.treadsOld ∧ (takeCellWord a0 a1 a2 a3 a4 s).meas = s.meas ∧ (takeCellWord a0 a1 a2 a3 a4 s).therm = s.therm ∧ (takeCellWord a0 a1 a2 a3 a4 s).twin = s.twin ∧ (takeCellWord a0 a1 a2 a3 a4 s).stair = s.stair ∧ (takeCellWord a0 a1 a2 a3 a4 s).streams = s.streams ∧ (takeCellWord a0 a1 a2 a3 a4 s).mem = s.mem := by
  unfold takeCellWord
  (try dsimp only)
  (repeat' split) <;> simp [apply_ite]

@[simp] theorem takeHallWord_frame (a0 : Nat) (a1 : Nat) (s : State) :
    (takeHallWord a0 a1 s).pending = s.pending ∧ (takeHallWord a0 a1 s).reply = s.reply ∧ (takeHallWord a0 a1 s).freeCtr = s.freeCtr ∧ (takeHallWord a0 a1 s).cfg = s.cfg ∧ (takeHallWord a0 a1 s).pend = s.pend ∧ (takeHallWord a0 a1 s).tb = s.tb ∧ (takeHallWord a0 a1 s).treads = s.treads ∧ (takeHallWord a0 a1 s).grid = s.grid ∧ (takeHallWord a0 a1 s).treadsOld = s.treadsOld ∧ (takeHallWord a0 a1 s).meas = s.meas ∧ (takeHallWord a0 a1 s).therm = s.therm ∧ (takeHallWord a0 a1 s).twin = s.twin ∧ (takeHallWord a0 a1 s).stair = s.stair ∧ (takeHallWord a0 a1 s).streams = s.streams ∧ (takeHallWord a0 a1 s).mem = s.mem := by
  unfold takeHallWord
  (try dsimp only)
  (repeat' split) <;> simp [apply_ite]

@[simp] theorem takeRestoreWord_frame (a0 : Nat) (a1 : Nat) (s : State) :
    (takeRestoreWord a0 a1 s).pending = s.pending ∧ (takeRestoreWord a0 a1 s).reply = s.reply ∧ (takeRestoreWord a0 a1 s).out = s.out ∧ (takeRestoreWord a0 a1 s).freeCtr = s.freeCtr ∧ (takeRestoreWord a0 a1 s).aon = s.aon ∧ (takeRestoreWord a0 a1 s).cfg = s.cfg ∧ (takeRestoreWord a0 a1 s).pend = s.pend ∧ (takeRestoreWord a0 a1 s).tb = s.tb ∧ (takeRestoreWord a0 a1 s).events = s.events ∧ (takeRestoreWord a0 a1 s).host = s.host ∧ (takeRestoreWord a0 a1 s).treads = s.treads ∧ (takeRestoreWord a0 a1 s).flights = s.flights ∧ (takeRestoreWord a0 a1 s).halls = s.halls ∧ (takeRestoreWord a0 a1 s).grid = s.grid ∧ (takeRestoreWord a0 a1 s).atr = s.atr ∧ (takeRestoreWord a0 a1 s).treadsOld = s.treadsOld ∧ (takeRestoreWord a0 a1 s).meas = s.meas ∧ (takeRestoreWord a0 a1 s).safe = s.safe ∧ (takeRestoreWord a0 a1 s).therm = s.therm ∧ (takeRestoreWord a0 a1 s).twin = s.twin ∧ (takeRestoreWord a0 a1 s).stair = s.stair ∧ (takeRestoreWord a0 a1 s).nvm = s.nvm ∧ (takeRestoreWord a0 a1 s).streams = s.streams ∧ (takeRestoreWord a0 a1 s).mem = s.mem := by
  unfold takeRestoreWord
  (try dsimp only)
  (repeat' split) <;> simp [apply_ite]

@[simp] theorem takeSsbWord_frame (a0 : Nat) (s : State) :
    (takeSsbWord a0 s).pending = s.pending ∧ (takeSsbWord a0 s).reply = s.reply ∧ (takeSsbWord a0 s).freeCtr = s.freeCtr ∧ (takeSsbWord a0 s).cfg = s.cfg ∧ (takeSsbWord a0 s).pend = s.pend ∧ (takeSsbWord a0 s).tb = s.tb ∧ (takeSsbWord a0 s).treads = s.treads ∧ (takeSsbWord a0 s).flights = s.flights ∧ (takeSsbWord a0 s).halls = s.halls ∧ (takeSsbWord a0 s).grid = s.grid ∧ (takeSsbWord a0 s).treadsOld = s.treadsOld ∧ (takeSsbWord a0 s).meas = s.meas ∧ (takeSsbWord a0 s).therm = s.therm ∧ (takeSsbWord a0 s).twin = s.twin ∧ (takeSsbWord a0 s).stair = s.stair ∧ (takeSsbWord a0 s).streams = s.streams ∧ (takeSsbWord a0 s).mem = s.mem := by
  unfold takeSsbWord
  (try dsimp only)
  (repeat' split) <;> simp [apply_ite]

theorem execDecisionWord_frame (a0 : Decision) (s t : State) (h : execDecisionWord a0 s = .next t) :
    t.pending = s.pending ∧ t.reply = s.reply ∧ t.freeCtr = s.freeCtr ∧ t.cfg = s.cfg ∧ t.pend = s.pend ∧ t.tb = s.tb ∧ t.treads = s.treads ∧ t.grid = s.grid ∧ t.treadsOld = s.treadsOld ∧ t.meas = s.meas ∧ t.therm = s.therm ∧ t.stair = s.stair ∧ t.streams = s.streams ∧ t.mem = s.mem := by
  unfold execDecisionWord at h; cases h; (try dsimp only); (repeat' split) <;> simp [apply_ite]

theorem execMeasurementWord_frame (a0 : List (Nat × F32)) (s t : State) (h : execMeasurementWord a0 s = .next t) :
    t.pending = s.pending ∧ t.reply = s.reply ∧ t.out = s.out ∧ t.freeCtr = s.freeCtr ∧ t.aon = s.aon ∧ t.cfg = s.cfg ∧ t.pend = s.pend ∧ t.tb = s.tb ∧ t.events = s.events ∧ t.host = s.host ∧ t.treads = s.treads ∧ t.cells = s.cells ∧ t.flights = s.flights ∧ t.halls = s.halls ∧ t.grid = s.grid ∧ t.atr = s.atr ∧ t.treadsOld = s.treadsOld ∧ t.meas = s.meas ∧ t.safe = s.safe ∧ t.therm = s.therm ∧ t.stair = s.stair ∧ t.nvm = s.nvm ∧ t.streams = s.streams ∧ t.mem = s.mem := by
  unfold execMeasurementWord at h; cases h; (try dsimp only); (repeat' split) <;> simp [apply_ite]

@[simp] theorem takeBreak_frame (a0 : Nat) (a1 : Nat) (a2 : Nat) (s : State) :
    (takeBreak a0 a1 a2 s).pending = s.pending ∧ (takeBreak a0 a1 a2 s).reply = s.reply ∧ (takeBreak a0 a1 a2 s).freeCtr = s.freeCtr ∧ (takeBreak a0 a1 a2 s).cfg = s.cfg ∧ (takeBreak a0 a1 a2 s).pend = s.pend ∧ (takeBreak a0 a1 a2 s).tb = s.tb ∧ (takeBreak a0 a1 a2 s).treads = s.treads ∧ (takeBreak a0 a1 a2 s).halls = s.halls ∧ (takeBreak a0 a1 a2 s).grid = s.grid ∧ (takeBreak a0 a1 a2 s).treadsOld = s.treadsOld ∧ (takeBreak a0 a1 a2 s).meas = s.meas ∧ (takeBreak a0 a1 a2 s).therm = s.therm ∧ (takeBreak a0 a1 a2 s).twin = s.twin ∧ (takeBreak a0 a1 a2 s).stair = s.stair ∧ (takeBreak a0 a1 a2 s).streams = s.streams ∧ (takeBreak a0 a1 a2 s).mem = s.mem := by
  unfold takeBreak
  (try dsimp only)
  (repeat' split) <;> simp [apply_ite]

theorem execSegmentFrames_frame (a0 : Fin 9) (a1 : SegmentMsg) (s t : State) (h : execSegmentFrames a0 a1 s = .next t) :
    t.pending = s.pending ∧ t.reply = s.reply ∧ t.freeCtr = s.freeCtr ∧ t.cfg = s.cfg ∧ t.pend = s.pend ∧ t.tb = s.tb ∧ t.treads = s.treads ∧ t.halls = s.halls ∧ t.grid = s.grid ∧ t.treadsOld = s.treadsOld ∧ t.meas = s.meas ∧ t.therm = s.therm ∧ t.stair = s.stair ∧ t.streams = s.streams ∧ t.mem = s.mem := by
  unfold execSegmentFrames at h; cases h; (try dsimp only); (repeat' split) <;> simp [apply_ite]

@[simp] theorem diverge_frame (a0 : BitVec 10) (s : State) :
    (diverge a0 s).pending = s.pending ∧ (diverge a0 s).reply = s.reply ∧ (diverge a0 s).freeCtr = s.freeCtr ∧ (diverge a0 s).cfg = s.cfg ∧ (diverge a0 s).pend = s.pend ∧ (diverge a0 s).tb = s.tb ∧ (diverge a0 s).treads = s.treads ∧ (diverge a0 s).cells = s.cells ∧ (diverge a0 s).flights = s.flights ∧ (diverge a0 s).halls = s.halls ∧ (diverge a0 s).grid = s.grid ∧ (diverge a0 s).treadsOld = s.treadsOld ∧ (diverge a0 s).meas = s.meas ∧ (diverge a0 s).safe = s.safe ∧ (diverge a0 s).therm = s.therm ∧ (diverge a0 s).stair = s.stair ∧ (diverge a0 s).nvm = s.nvm ∧ (diverge a0 s).streams = s.streams ∧ (diverge a0 s).mem = s.mem := by
  unfold diverge
  (try dsimp only)
  (repeat' split) <;> simp [apply_ite]

@[simp] theorem freshFlight_frame (a0 : Nat) (s : State) :
    (freshFlight a0 s).pending = s.pending ∧ (freshFlight a0 s).reply = s.reply ∧ (freshFlight a0 s).out = s.out ∧ (freshFlight a0 s).freeCtr = s.freeCtr ∧ (freshFlight a0 s).aon = s.aon ∧ (freshFlight a0 s).cfg = s.cfg ∧ (freshFlight a0 s).pend = s.pend ∧ (freshFlight a0 s).tb = s.tb ∧ (freshFlight a0 s).events = s.events ∧ (freshFlight a0 s).host = s.host ∧ (freshFlight a0 s).cells = s.cells ∧ (freshFlight a0 s).halls = s.halls ∧ (freshFlight a0 s).grid = s.grid ∧ (freshFlight a0 s).atr = s.atr ∧ (freshFlight a0 s).treadsOld = s.treadsOld ∧ (freshFlight a0 s).meas = s.meas ∧ (freshFlight a0 s).safe = s.safe ∧ (freshFlight a0 s).therm = s.therm ∧ (freshFlight a0 s).stair = s.stair ∧ (freshFlight a0 s).nvm = s.nvm ∧ (freshFlight a0 s).streams = s.streams ∧ (freshFlight a0 s).mem = s.mem := by
  unfold freshFlight
  (try dsimp only)
  (repeat' split) <;> simp [apply_ite]

@[simp] theorem freshAtrium_frame (a0 : Bool) (s : State) :
    (freshAtrium a0 s).pending = s.pending ∧ (freshAtrium a0 s).reply = s.reply ∧ (freshAtrium a0 s).freeCtr = s.freeCtr ∧ (freshAtrium a0 s).cfg = s.cfg ∧ (freshAtrium a0 s).pend = s.pend ∧ (freshAtrium a0 s).tb = s.tb ∧ (freshAtrium a0 s).treads = s.treads ∧ (freshAtrium a0 s).cells = s.cells ∧ (freshAtrium a0 s).flights = s.flights ∧ (freshAtrium a0 s).halls = s.halls ∧ (freshAtrium a0 s).grid = s.grid ∧ (freshAtrium a0 s).treadsOld = s.treadsOld ∧ (freshAtrium a0 s).meas = s.meas ∧ (freshAtrium a0 s).safe = s.safe ∧ (freshAtrium a0 s).therm = s.therm ∧ (freshAtrium a0 s).stair = s.stair ∧ (freshAtrium a0 s).nvm = s.nvm ∧ (freshAtrium a0 s).streams = s.streams ∧ (freshAtrium a0 s).mem = s.mem := by
  unfold freshAtrium
  (try dsimp only)
  (repeat' split) <;> simp [apply_ite]

theorem execCommitWord_frame (a0 : BitVec 9) (a1 : List Word) (s t : State) (h : execCommitWord a0 a1 s = .next t) :
    t.pending = s.pending ∧ t.reply = s.reply ∧ t.freeCtr = s.freeCtr ∧ t.cfg = s.cfg ∧ t.pend = s.pend ∧ t.tb = s.tb ∧ t.cells = s.cells ∧ t.halls = s.halls ∧ t.grid = s.grid ∧ t.treadsOld = s.treadsOld ∧ t.meas = s.meas ∧ t.safe = s.safe ∧ t.therm = s.therm ∧ t.stair = s.stair ∧ t.nvm = s.nvm ∧ t.streams = s.streams ∧ t.mem = s.mem := by
  unfold execCommitWord at h; cases h; (try dsimp only); (repeat' split) <;> simp [apply_ite]

theorem execActiveTrainObserved_frame (a0 : Fin 9) (a1 : List Byte) (s t : State) (h : execActiveTrainObserved a0 a1 s = .next t) :
    t.pending = s.pending ∧ t.reply = s.reply ∧ t.freeCtr = s.freeCtr ∧ t.cfg = s.cfg ∧ t.pend = s.pend ∧ t.tb = s.tb ∧ t.treads = s.treads ∧ t.cells = s.cells ∧ t.halls = s.halls ∧ t.grid = s.grid ∧ t.treadsOld = s.treadsOld ∧ t.meas = s.meas ∧ t.safe = s.safe ∧ t.therm = s.therm ∧ t.stair = s.stair ∧ t.nvm = s.nvm ∧ t.streams = s.streams ∧ t.mem = s.mem := by
  unfold execActiveTrainObserved at h; cases h; (try dsimp only); (repeat' split) <;> simp [apply_ite]

theorem execReleasableReport_frame (a0 : StandbyReport) (s t : State) (h : execReleasableReport a0 s = .next t) :
    t.pending = s.pending ∧ t.reply = s.reply ∧ t.out = s.out ∧ t.freeCtr = s.freeCtr ∧ t.aon = s.aon ∧ t.cfg = s.cfg ∧ t.pend = s.pend ∧ t.tb = s.tb ∧ t.events = s.events ∧ t.host = s.host ∧ t.treads = s.treads ∧ t.cells = s.cells ∧ t.flights = s.flights ∧ t.halls = s.halls ∧ t.grid = s.grid ∧ t.atr = s.atr ∧ t.treadsOld = s.treadsOld ∧ t.meas = s.meas ∧ t.safe = s.safe ∧ t.therm = s.therm ∧ t.stair = s.stair ∧ t.nvm = s.nvm ∧ t.streams = s.streams ∧ t.mem = s.mem := by
  unfold execReleasableReport at h; cases h; (try dsimp only); (repeat' split) <;> simp [apply_ite]

@[simp] theorem followPartner_frame (a0 : Int) (s : State) :
    (followPartner a0 s).pending = s.pending ∧ (followPartner a0 s).reply = s.reply ∧ (followPartner a0 s).cfg = s.cfg ∧ (followPartner a0 s).pend = s.pend ∧ (followPartner a0 s).treads = s.treads ∧ (followPartner a0 s).cells = s.cells ∧ (followPartner a0 s).flights = s.flights ∧ (followPartner a0 s).halls = s.halls ∧ (followPartner a0 s).treadsOld = s.treadsOld ∧ (followPartner a0 s).meas = s.meas ∧ (followPartner a0 s).safe = s.safe ∧ (followPartner a0 s).stair = s.stair ∧ (followPartner a0 s).nvm = s.nvm ∧ (followPartner a0 s).streams = s.streams ∧ (followPartner a0 s).mem = s.mem := by
  unfold followPartner
  (try dsimp only)
  (repeat' split) <;> simp [apply_ite]

theorem execTwinTimeMessage_frame (a0 : Int) (s t : State) (h : execTwinTimeMessage a0 s = .next t) :
    t.pending = s.pending ∧ t.reply = s.reply ∧ t.cfg = s.cfg ∧ t.pend = s.pend ∧ t.treads = s.treads ∧ t.cells = s.cells ∧ t.flights = s.flights ∧ t.halls = s.halls ∧ t.treadsOld = s.treadsOld ∧ t.meas = s.meas ∧ t.safe = s.safe ∧ t.stair = s.stair ∧ t.nvm = s.nvm ∧ t.streams = s.streams ∧ t.mem = s.mem := by
  unfold execTwinTimeMessage at h; cases h; (try dsimp only); (repeat' split) <;> simp [apply_ite]

theorem execRejoin_frame (a0 : List Word) (s t : State) (h : execRejoin a0 s = .next t) :
    t.pending = s.pending ∧ t.out = s.out ∧ t.freeCtr = s.freeCtr ∧ t.aon = s.aon ∧ t.cfg = s.cfg ∧ t.pend = s.pend ∧ t.tb = s.tb ∧ t.events = s.events ∧ t.host = s.host ∧ t.treads = s.treads ∧ t.cells = s.cells ∧ t.flights = s.flights ∧ t.halls = s.halls ∧ t.grid = s.grid ∧ t.atr = s.atr ∧ t.treadsOld = s.treadsOld ∧ t.meas = s.meas ∧ t.safe = s.safe ∧ t.therm = s.therm ∧ t.stair = s.stair ∧ t.nvm = s.nvm ∧ t.streams = s.streams ∧ t.mem = s.mem := by
  unfold execRejoin at h; cases h
  refine ⟨?_, ?_, ?_, ?_, ?_, ?_, ?_, ?_, ?_, ?_, ?_, ?_, ?_, ?_, ?_, ?_, ?_, ?_, ?_, ?_, ?_, ?_, ?_⟩
  · repeat' (first | (simp [apply_ite State.pending]; done) | with_reducible refine (each_keep State.pending _ _ _ (fun _ _ => ?_)).trans ?_ | with_reducible refine command_keep State.pending _ _ _ (fun _ => ?_) (fun _ => ?_) | split)
  · repeat' (first | (simp [apply_ite State.out]; done) | with_reducible refine (each_keep State.out _ _ _ (fun _ _ => ?_)).trans ?_ | with_reducible refine command_keep State.out _ _ _ (fun _ => ?_) (fun _ => ?_) | split)
  · repeat' (first | (simp [apply_ite State.freeCtr]; done) | with_reducible refine (each_keep State.freeCtr _ _ _ (fun _ _ => ?_)).trans ?_ | with_reducible refine command_keep State.freeCtr _ _ _ (fun _ => ?_) (fun _ => ?_) | split)
  · repeat' (first | (simp [apply_ite State.aon]; done) | with_reducible refine (each_keep State.aon _ _ _ (fun _ _ => ?_)).trans ?_ | with_reducible refine command_keep State.aon _ _ _ (fun _ => ?_) (fun _ => ?_) | split)
  · repeat' (first | (simp [apply_ite State.cfg]; done) | with_reducible refine (each_keep State.cfg _ _ _ (fun _ _ => ?_)).trans ?_ | with_reducible refine command_keep State.cfg _ _ _ (fun _ => ?_) (fun _ => ?_) | split)
  · repeat' (first | (simp [apply_ite State.pend]; done) | with_reducible refine (each_keep State.pend _ _ _ (fun _ _ => ?_)).trans ?_ | with_reducible refine command_keep State.pend _ _ _ (fun _ => ?_) (fun _ => ?_) | split)
  · repeat' (first | (simp [apply_ite State.tb]; done) | with_reducible refine (each_keep State.tb _ _ _ (fun _ _ => ?_)).trans ?_ | with_reducible refine command_keep State.tb _ _ _ (fun _ => ?_) (fun _ => ?_) | split)
  · repeat' (first | (simp [apply_ite State.events]; done) | with_reducible refine (each_keep State.events _ _ _ (fun _ _ => ?_)).trans ?_ | with_reducible refine command_keep State.events _ _ _ (fun _ => ?_) (fun _ => ?_) | split)
  · repeat' (first | (simp [apply_ite State.host]; done) | with_reducible refine (each_keep State.host _ _ _ (fun _ _ => ?_)).trans ?_ | with_reducible refine command_keep State.host _ _ _ (fun _ => ?_) (fun _ => ?_) | split)
  · repeat' (first | (simp [apply_ite State.treads]; done) | with_reducible refine (each_keep State.treads _ _ _ (fun _ _ => ?_)).trans ?_ | with_reducible refine command_keep State.treads _ _ _ (fun _ => ?_) (fun _ => ?_) | split)
  · repeat' (first | (simp [apply_ite State.cells]; done) | with_reducible refine (each_keep State.cells _ _ _ (fun _ _ => ?_)).trans ?_ | with_reducible refine command_keep State.cells _ _ _ (fun _ => ?_) (fun _ => ?_) | split)
  · repeat' (first | (simp [apply_ite State.flights]; done) | with_reducible refine (each_keep State.flights _ _ _ (fun _ _ => ?_)).trans ?_ | with_reducible refine command_keep State.flights _ _ _ (fun _ => ?_) (fun _ => ?_) | split)
  · repeat' (first | (simp [apply_ite State.halls]; done) | with_reducible refine (each_keep State.halls _ _ _ (fun _ _ => ?_)).trans ?_ | with_reducible refine command_keep State.halls _ _ _ (fun _ => ?_) (fun _ => ?_) | split)
  · repeat' (first | (simp [apply_ite State.grid]; done) | with_reducible refine (each_keep State.grid _ _ _ (fun _ _ => ?_)).trans ?_ | with_reducible refine command_keep State.grid _ _ _ (fun _ => ?_) (fun _ => ?_) | split)
  · repeat' (first | (simp [apply_ite State.atr]; done) | with_reducible refine (each_keep State.atr _ _ _ (fun _ _ => ?_)).trans ?_ | with_reducible refine command_keep State.atr _ _ _ (fun _ => ?_) (fun _ => ?_) | split)
  · repeat' (first | (simp [apply_ite State.treadsOld]; done) | with_reducible refine (each_keep State.treadsOld _ _ _ (fun _ _ => ?_)).trans ?_ | with_reducible refine command_keep State.treadsOld _ _ _ (fun _ => ?_) (fun _ => ?_) | split)
  · repeat' (first | (simp [apply_ite State.meas]; done) | with_reducible refine (each_keep State.meas _ _ _ (fun _ _ => ?_)).trans ?_ | with_reducible refine command_keep State.meas _ _ _ (fun _ => ?_) (fun _ => ?_) | split)
  · repeat' (first | (simp [apply_ite State.safe]; done) | with_reducible refine (each_keep State.safe _ _ _ (fun _ _ => ?_)).trans ?_ | with_reducible refine command_keep State.safe _ _ _ (fun _ => ?_) (fun _ => ?_) | split)
  · repeat' (first | (simp [apply_ite State.therm]; done) | with_reducible refine (each_keep State.therm _ _ _ (fun _ _ => ?_)).trans ?_ | with_reducible refine command_keep State.therm _ _ _ (fun _ => ?_) (fun _ => ?_) | split)
  · repeat' (first | (simp [apply_ite State.stair]; done) | with_reducible refine (each_keep State.stair _ _ _ (fun _ _ => ?_)).trans ?_ | with_reducible refine command_keep State.stair _ _ _ (fun _ => ?_) (fun _ => ?_) | split)
  · repeat' (first | (simp [apply_ite State.nvm]; done) | with_reducible refine (each_keep State.nvm _ _ _ (fun _ _ => ?_)).trans ?_ | with_reducible refine command_keep State.nvm _ _ _ (fun _ => ?_) (fun _ => ?_) | split)
  · repeat' (first | (simp [apply_ite State.streams]; done) | with_reducible refine (each_keep State.streams _ _ _ (fun _ _ => ?_)).trans ?_ | with_reducible refine command_keep State.streams _ _ _ (fun _ => ?_) (fun _ => ?_) | split)
  · repeat' (first | (simp [apply_ite State.mem]; done) | with_reducible refine (each_keep State.mem _ _ _ (fun _ _ => ?_)).trans ?_ | with_reducible refine command_keep State.mem _ _ _ (fun _ => ?_) (fun _ => ?_) | split)

@[simp] theorem takeRegs_frame (a0 : UnitRegs) (s : State) :
    (takeRegs a0 s).pending = s.pending ∧ (takeRegs a0 s).reply = s.reply ∧ (takeRegs a0 s).freeCtr = s.freeCtr ∧ (takeRegs a0 s).cfg = s.cfg ∧ (takeRegs a0 s).pend = s.pend ∧ (takeRegs a0 s).treads = s.treads ∧ (takeRegs a0 s).cells = s.cells ∧ (takeRegs a0 s).flights = s.flights ∧ (takeRegs a0 s).halls = s.halls ∧ (takeRegs a0 s).grid = s.grid ∧ (takeRegs a0 s).treadsOld = s.treadsOld ∧ (takeRegs a0 s).safe = s.safe ∧ (takeRegs a0 s).therm = s.therm ∧ (takeRegs a0 s).twin = s.twin ∧ (takeRegs a0 s).stair = s.stair ∧ (takeRegs a0 s).nvm = s.nvm ∧ (takeRegs a0 s).streams = s.streams ∧ (takeRegs a0 s).mem = s.mem := by
  unfold takeRegs
  (try dsimp only)
  (repeat' split) <;> simp [apply_ite]

@[simp] theorem takeGrid_frame (a0 : Nat) (a1 : Option (Nat × Nat)) (s : State) :
    (takeGrid a0 a1 s).pending = s.pending ∧ (takeGrid a0 a1 s).reply = s.reply ∧ (takeGrid a0 a1 s).out = s.out ∧ (takeGrid a0 a1 s).freeCtr = s.freeCtr ∧ (takeGrid a0 a1 s).aon = s.aon ∧ (takeGrid a0 a1 s).cfg = s.cfg ∧ (takeGrid a0 a1 s).pend = s.pend ∧ (takeGrid a0 a1 s).tb = s.tb ∧ (takeGrid a0 a1 s).events = s.events ∧ (takeGrid a0 a1 s).host = s.host ∧ (takeGrid a0 a1 s).treads = s.treads ∧ (takeGrid a0 a1 s).cells = s.cells ∧ (takeGrid a0 a1 s).flights = s.flights ∧ (takeGrid a0 a1 s).halls = s.halls ∧ (takeGrid a0 a1 s).atr = s.atr ∧ (takeGrid a0 a1 s).treadsOld = s.treadsOld ∧ (takeGrid a0 a1 s).meas = s.meas ∧ (takeGrid a0 a1 s).safe = s.safe ∧ (takeGrid a0 a1 s).therm = s.therm ∧ (takeGrid a0 a1 s).twin = s.twin ∧ (takeGrid a0 a1 s).stair = s.stair ∧ (takeGrid a0 a1 s).nvm = s.nvm ∧ (takeGrid a0 a1 s).streams = s.streams ∧ (takeGrid a0 a1 s).mem = s.mem := by
  unfold takeGrid
  (try dsimp only)
  (repeat' split) <;> simp [apply_ite]

@[simp] theorem takeConfig_frame (a0 : TransferConfig) (s : State) :
    (takeConfig a0 s).pending = s.pending ∧ (takeConfig a0 s).reply = s.reply ∧ (takeConfig a0 s).freeCtr = s.freeCtr ∧ (takeConfig a0 s).treadsOld = s.treadsOld ∧ (takeConfig a0 s).safe = s.safe ∧ (takeConfig a0 s).therm = s.therm ∧ (takeConfig a0 s).nvm = s.nvm ∧ (takeConfig a0 s).streams = s.streams ∧ (takeConfig a0 s).mem = s.mem := by
  unfold takeConfig
  (try dsimp only)
  (repeat' split) <;> simp [apply_ite]

@[simp] theorem stepReached_frame (s : State) :
    (stepReached s).pending = s.pending ∧ (stepReached s).reply = s.reply ∧ (stepReached s).out = s.out ∧ (stepReached s).freeCtr = s.freeCtr ∧ (stepReached s).aon = s.aon ∧ (stepReached s).cfg = s.cfg ∧ (stepReached s).pend = s.pend ∧ (stepReached s).tb = s.tb ∧ (stepReached s).events = s.events ∧ (stepReached s).host = s.host ∧ (stepReached s).treads = s.treads ∧ (stepReached s).cells = s.cells ∧ (stepReached s).flights = s.flights ∧ (stepReached s).halls = s.halls ∧ (stepReached s).grid = s.grid ∧ (stepReached s).atr = s.atr ∧ (stepReached s).treadsOld = s.treadsOld ∧ (stepReached s).meas = s.meas ∧ (stepReached s).safe = s.safe ∧ (stepReached s).therm = s.therm ∧ (stepReached s).stair = s.stair ∧ (stepReached s).nvm = s.nvm ∧ (stepReached s).streams = s.streams ∧ (stepReached s).mem = s.mem := by
  unfold stepReached
  (try dsimp only)
  (repeat' split) <;> simp [apply_ite]

@[simp] theorem takeUnit_frame (a0 : TransferUnit) (s : State) :
    (takeUnit a0 s).pending = s.pending ∧ (takeUnit a0 s).reply = s.reply ∧ (takeUnit a0 s).freeCtr = s.freeCtr ∧ (takeUnit a0 s).treadsOld = s.treadsOld ∧ (takeUnit a0 s).safe = s.safe ∧ (takeUnit a0 s).therm = s.therm ∧ (takeUnit a0 s).nvm = s.nvm ∧ (takeUnit a0 s).streams = s.streams ∧ (takeUnit a0 s).mem = s.mem := by
  unfold takeUnit
  (try dsimp only)
  (repeat' split) <;> simp [apply_ite]

theorem execStateTransferUnit_frame (a0 : TransferUnit) (s t : State) (h : execStateTransferUnit a0 s = .next t) :
    t.pending = s.pending ∧ t.reply = s.reply ∧ t.freeCtr = s.freeCtr ∧ t.treadsOld = s.treadsOld ∧ t.safe = s.safe ∧ t.therm = s.therm ∧ t.nvm = s.nvm ∧ t.streams = s.streams ∧ t.mem = s.mem := by
  unfold execStateTransferUnit at h; cases h; (try dsimp only); (repeat' split) <;> simp [apply_ite]

theorem execRejoinTimeout_frame (s t : State) (h : execRejoinTimeout s = .next t) :
    t.pending = s.pending ∧ t.reply = s.reply ∧ t.out = s.out ∧ t.freeCtr = s.freeCtr ∧ t.aon = s.aon ∧ t.cfg = s.cfg ∧ t.pend = s.pend ∧ t.tb = s.tb ∧ t.events = s.events ∧ t.host = s.host ∧ t.treads = s.treads ∧ t.cells = s.cells ∧ t.flights = s.flights ∧ t.halls = s.halls ∧ t.grid = s.grid ∧ t.atr = s.atr ∧ t.treadsOld = s.treadsOld ∧ t.meas = s.meas ∧ t.safe = s.safe ∧ t.therm = s.therm ∧ t.stair = s.stair ∧ t.nvm = s.nvm ∧ t.streams = s.streams ∧ t.mem = s.mem := by
  unfold execRejoinTimeout at h; cases h; (try dsimp only); (repeat' split) <;> simp [apply_ite]

@[simp] theorem noteForwarded_frame (a0 : Fin 64) (a1 : Word) (a2 : Option (BitVec 16 × Word)) (s : State) :
    (noteForwarded a0 a1 a2 s).pending = s.pending ∧ (noteForwarded a0 a1 a2 s).reply = s.reply ∧ (noteForwarded a0 a1 a2 s).out = s.out ∧ (noteForwarded a0 a1 a2 s).freeCtr = s.freeCtr ∧ (noteForwarded a0 a1 a2 s).aon = s.aon ∧ (noteForwarded a0 a1 a2 s).cfg = s.cfg ∧ (noteForwarded a0 a1 a2 s).pend = s.pend ∧ (noteForwarded a0 a1 a2 s).tb = s.tb ∧ (noteForwarded a0 a1 a2 s).events = s.events ∧ (noteForwarded a0 a1 a2 s).treads = s.treads ∧ (noteForwarded a0 a1 a2 s).cells = s.cells ∧ (noteForwarded a0 a1 a2 s).flights = s.flights ∧ (noteForwarded a0 a1 a2 s).halls = s.halls ∧ (noteForwarded a0 a1 a2 s).grid = s.grid ∧ (noteForwarded a0 a1 a2 s).atr = s.atr ∧ (noteForwarded a0 a1 a2 s).treadsOld = s.treadsOld ∧ (noteForwarded a0 a1 a2 s).meas = s.meas ∧ (noteForwarded a0 a1 a2 s).safe = s.safe ∧ (noteForwarded a0 a1 a2 s).therm = s.therm ∧ (noteForwarded a0 a1 a2 s).twin = s.twin ∧ (noteForwarded a0 a1 a2 s).stair = s.stair ∧ (noteForwarded a0 a1 a2 s).nvm = s.nvm ∧ (noteForwarded a0 a1 a2 s).streams = s.streams ∧ (noteForwarded a0 a1 a2 s).mem = s.mem := by
  unfold noteForwarded
  (try dsimp only)
  (repeat' split) <;> simp [apply_ite]

theorem execForwardedCommand_frame (a0 : Fin 64) (a1 : FwdTag) (a2 : Byte) (a3 : List Word) (a4 : Nat) (s t : State) (h : execForwardedCommand a0 a1 a2 a3 a4 s = .next t) :
    t.pending = s.pending ∧ t.reply = s.reply ∧ t.out = s.out ∧ t.freeCtr = s.freeCtr ∧ t.aon = s.aon ∧ t.cfg = s.cfg ∧ t.pend = s.pend ∧ t.tb = s.tb ∧ t.events = s.events ∧ t.treads = s.treads ∧ t.cells = s.cells ∧ t.flights = s.flights ∧ t.halls = s.halls ∧ t.grid = s.grid ∧ t.atr = s.atr ∧ t.treadsOld = s.treadsOld ∧ t.meas = s.meas ∧ t.safe = s.safe ∧ t.therm = s.therm ∧ t.stair = s.stair ∧ t.nvm = s.nvm ∧ t.streams = s.streams ∧ t.mem = s.mem := by
  unfold execForwardedCommand at h; cases h; (try dsimp only); (repeat' split) <;> simp [apply_ite]

theorem execTwinStatus_frame (a0 : List Word) (s t : State) (h : execTwinStatus a0 s = .next t) :
    t.pending = s.pending ∧ t.out = s.out ∧ t.freeCtr = s.freeCtr ∧ t.aon = s.aon ∧ t.cfg = s.cfg ∧ t.pend = s.pend ∧ t.tb = s.tb ∧ t.events = s.events ∧ t.host = s.host ∧ t.treads = s.treads ∧ t.cells = s.cells ∧ t.flights = s.flights ∧ t.halls = s.halls ∧ t.grid = s.grid ∧ t.atr = s.atr ∧ t.treadsOld = s.treadsOld ∧ t.meas = s.meas ∧ t.safe = s.safe ∧ t.therm = s.therm ∧ t.twin = s.twin ∧ t.stair = s.stair ∧ t.nvm = s.nvm ∧ t.streams = s.streams ∧ t.mem = s.mem := by
  unfold execTwinStatus at h; cases h; (try dsimp only); (repeat' split) <;> simp [apply_ite]

@[simp] theorem setNvm_frame (a0 : Nvm → Nvm) (s : State) :
    (setNvm a0 s).pending = s.pending ∧ (setNvm a0 s).reply = s.reply ∧ (setNvm a0 s).out = s.out ∧ (setNvm a0 s).freeCtr = s.freeCtr ∧ (setNvm a0 s).aon = s.aon ∧ (setNvm a0 s).cfg = s.cfg ∧ (setNvm a0 s).pend = s.pend ∧ (setNvm a0 s).tb = s.tb ∧ (setNvm a0 s).events = s.events ∧ (setNvm a0 s).host = s.host ∧ (setNvm a0 s).treads = s.treads ∧ (setNvm a0 s).cells = s.cells ∧ (setNvm a0 s).flights = s.flights ∧ (setNvm a0 s).halls = s.halls ∧ (setNvm a0 s).grid = s.grid ∧ (setNvm a0 s).atr = s.atr ∧ (setNvm a0 s).treadsOld = s.treadsOld ∧ (setNvm a0 s).meas = s.meas ∧ (setNvm a0 s).safe = s.safe ∧ (setNvm a0 s).therm = s.therm ∧ (setNvm a0 s).twin = s.twin ∧ (setNvm a0 s).stair = s.stair ∧ (setNvm a0 s).streams = s.streams ∧ (setNvm a0 s).mem = s.mem := by
  unfold setNvm
  (try dsimp only)
  (repeat' split) <;> simp [apply_ite]

@[simp] theorem useCal_frame (a0 : BitVec 16) (a1 : F32) (a2 : F32) (s : State) :
    (useCal a0 a1 a2 s).pending = s.pending ∧ (useCal a0 a1 a2 s).reply = s.reply ∧ (useCal a0 a1 a2 s).out = s.out ∧ (useCal a0 a1 a2 s).freeCtr = s.freeCtr ∧ (useCal a0 a1 a2 s).aon = s.aon ∧ (useCal a0 a1 a2 s).pend = s.pend ∧ (useCal a0 a1 a2 s).tb = s.tb ∧ (useCal a0 a1 a2 s).events = s.events ∧ (useCal a0 a1 a2 s).host = s.host ∧ (useCal a0 a1 a2 s).treads = s.treads ∧ (useCal a0 a1 a2 s).flights = s.flights ∧ (useCal a0 a1 a2 s).halls = s.halls ∧ (useCal a0 a1 a2 s).grid = s.grid ∧ (useCal a0 a1 a2 s).atr = s.atr ∧ (useCal a0 a1 a2 s).treadsOld = s.treadsOld ∧ (useCal a0 a1 a2 s).meas = s.meas ∧ (useCal a0 a1 a2 s).safe = s.safe ∧ (useCal a0 a1 a2 s).therm = s.therm ∧ (useCal a0 a1 a2 s).twin = s.twin ∧ (useCal a0 a1 a2 s).stair = s.stair ∧ (useCal a0 a1 a2 s).nvm = s.nvm ∧ (useCal a0 a1 a2 s).streams = s.streams ∧ (useCal a0 a1 a2 s).mem = s.mem := by
  unfold useCal
  (try dsimp only)
  (repeat' split) <;> simp [apply_ite]

@[simp] theorem sendCal_frame (a0 : BitVec 16) (a1 : F32) (a2 : F32) (s : State) :
    (sendCal a0 a1 a2 s).pending = s.pending ∧ (sendCal a0 a1 a2 s).reply = s.reply ∧ (sendCal a0 a1 a2 s).freeCtr = s.freeCtr ∧ (sendCal a0 a1 a2 s).aon = s.aon ∧ (sendCal a0 a1 a2 s).cfg = s.cfg ∧ (sendCal a0 a1 a2 s).pend = s.pend ∧ (sendCal a0 a1 a2 s).tb = s.tb ∧ (sendCal a0 a1 a2 s).events = s.events ∧ (sendCal a0 a1 a2 s).host = s.host ∧ (sendCal a0 a1 a2 s).treads = s.treads ∧ (sendCal a0 a1 a2 s).cells = s.cells ∧ (sendCal a0 a1 a2 s).flights = s.flights ∧ (sendCal a0 a1 a2 s).halls = s.halls ∧ (sendCal a0 a1 a2 s).grid = s.grid ∧ (sendCal a0 a1 a2 s).atr = s.atr ∧ (sendCal a0 a1 a2 s).treadsOld = s.treadsOld ∧ (sendCal a0 a1 a2 s).meas = s.meas ∧ (sendCal a0 a1 a2 s).safe = s.safe ∧ (sendCal a0 a1 a2 s).therm = s.therm ∧ (sendCal a0 a1 a2 s).twin = s.twin ∧ (sendCal a0 a1 a2 s).stair = s.stair ∧ (sendCal a0 a1 a2 s).nvm = s.nvm ∧ (sendCal a0 a1 a2 s).streams = s.streams ∧ (sendCal a0 a1 a2 s).mem = s.mem := by
  unfold sendCal
  (try dsimp only)
  (repeat' split) <;> simp [apply_ite]

@[simp] theorem takeCal_frame (a0 : List Word) (s : State) :
    (takeCal a0 s).pending = s.pending ∧ (takeCal a0 s).reply = s.reply ∧ (takeCal a0 s).out = s.out ∧ (takeCal a0 s).freeCtr = s.freeCtr ∧ (takeCal a0 s).aon = s.aon ∧ (takeCal a0 s).pend = s.pend ∧ (takeCal a0 s).tb = s.tb ∧ (takeCal a0 s).events = s.events ∧ (takeCal a0 s).host = s.host ∧ (takeCal a0 s).treads = s.treads ∧ (takeCal a0 s).flights = s.flights ∧ (takeCal a0 s).halls = s.halls ∧ (takeCal a0 s).grid = s.grid ∧ (takeCal a0 s).atr = s.atr ∧ (takeCal a0 s).treadsOld = s.treadsOld ∧ (takeCal a0 s).meas = s.meas ∧ (takeCal a0 s).safe = s.safe ∧ (takeCal a0 s).therm = s.therm ∧ (takeCal a0 s).twin = s.twin ∧ (takeCal a0 s).stair = s.stair ∧ (takeCal a0 s).nvm = s.nvm ∧ (takeCal a0 s).streams = s.streams ∧ (takeCal a0 s).mem = s.mem := by
  unfold takeCal
  (try dsimp only)
  (repeat' split) <;> simp [apply_ite]

@[simp] theorem recordDone_frame (a0 : NvmJob) (a1 : Bool) (s : State) :
    (recordDone a0 a1 s).pending = s.pending ∧ (recordDone a0 a1 s).freeCtr = s.freeCtr ∧ (recordDone a0 a1 s).pend = s.pend ∧ (recordDone a0 a1 s).tb = s.tb ∧ (recordDone a0 a1 s).treads = s.treads ∧ (recordDone a0 a1 s).flights = s.flights ∧ (recordDone a0 a1 s).halls = s.halls ∧ (recordDone a0 a1 s).grid = s.grid ∧ (recordDone a0 a1 s).treadsOld = s.treadsOld ∧ (recordDone a0 a1 s).therm = s.therm ∧ (recordDone a0 a1 s).twin = s.twin ∧ (recordDone a0 a1 s).stair = s.stair ∧ (recordDone a0 a1 s).streams = s.streams ∧ (recordDone a0 a1 s).mem = s.mem := by
  unfold recordDone
  (try dsimp only)
  (repeat' split) <;> simp [apply_ite]

@[simp] theorem commitRecord_frame (a0 : NvmJob) (s : State) :
    (commitRecord a0 s).pending = s.pending ∧ (commitRecord a0 s).freeCtr = s.freeCtr ∧ (commitRecord a0 s).pend = s.pend ∧ (commitRecord a0 s).tb = s.tb ∧ (commitRecord a0 s).treads = s.treads ∧ (commitRecord a0 s).flights = s.flights ∧ (commitRecord a0 s).halls = s.halls ∧ (commitRecord a0 s).grid = s.grid ∧ (commitRecord a0 s).treadsOld = s.treadsOld ∧ (commitRecord a0 s).therm = s.therm ∧ (commitRecord a0 s).twin = s.twin ∧ (commitRecord a0 s).stair = s.stair ∧ (commitRecord a0 s).streams = s.streams ∧ (commitRecord a0 s).mem = s.mem := by
  unfold commitRecord
  (try dsimp only)
  (repeat' split) <;> simp [apply_ite]

@[simp] theorem takeSpare_frame (a0 : Nat) (s : State) :
    (takeSpare a0 s).pending = s.pending ∧ (takeSpare a0 s).reply = s.reply ∧ (takeSpare a0 s).freeCtr = s.freeCtr ∧ (takeSpare a0 s).cfg = s.cfg ∧ (takeSpare a0 s).pend = s.pend ∧ (takeSpare a0 s).tb = s.tb ∧ (takeSpare a0 s).treads = s.treads ∧ (takeSpare a0 s).cells = s.cells ∧ (takeSpare a0 s).flights = s.flights ∧ (takeSpare a0 s).halls = s.halls ∧ (takeSpare a0 s).grid = s.grid ∧ (takeSpare a0 s).treadsOld = s.treadsOld ∧ (takeSpare a0 s).meas = s.meas ∧ (takeSpare a0 s).safe = s.safe ∧ (takeSpare a0 s).therm = s.therm ∧ (takeSpare a0 s).twin = s.twin ∧ (takeSpare a0 s).stair = s.stair ∧ (takeSpare a0 s).streams = s.streams ∧ (takeSpare a0 s).mem = s.mem := by
  unfold takeSpare
  (try dsimp only)
  (repeat' split) <;> simp [apply_ite]

@[simp] theorem failRecord_frame (a0 : NvmJob) (s : State) :
    (failRecord a0 s).pending = s.pending ∧ (failRecord a0 s).freeCtr = s.freeCtr ∧ (failRecord a0 s).pend = s.pend ∧ (failRecord a0 s).tb = s.tb ∧ (failRecord a0 s).treads = s.treads ∧ (failRecord a0 s).flights = s.flights ∧ (failRecord a0 s).halls = s.halls ∧ (failRecord a0 s).grid = s.grid ∧ (failRecord a0 s).treadsOld = s.treadsOld ∧ (failRecord a0 s).therm = s.therm ∧ (failRecord a0 s).twin = s.twin ∧ (failRecord a0 s).stair = s.stair ∧ (failRecord a0 s).streams = s.streams ∧ (failRecord a0 s).mem = s.mem := by
  unfold failRecord
  (try dsimp only)
  (repeat' split) <;> simp [apply_ite]

@[simp] theorem nvmLeave_frame (s : State) :
    (nvmLeave s).pending = s.pending ∧ (nvmLeave s).freeCtr = s.freeCtr ∧ (nvmLeave s).pend = s.pend ∧ (nvmLeave s).tb = s.tb ∧ (nvmLeave s).treads = s.treads ∧ (nvmLeave s).flights = s.flights ∧ (nvmLeave s).halls = s.halls ∧ (nvmLeave s).grid = s.grid ∧ (nvmLeave s).treadsOld = s.treadsOld ∧ (nvmLeave s).therm = s.therm ∧ (nvmLeave s).twin = s.twin ∧ (nvmLeave s).stair = s.stair ∧ (nvmLeave s).streams = s.streams ∧ (nvmLeave s).mem = s.mem := by
  unfold nvmLeave
  (try dsimp only)
  (repeat' split) <;> simp [apply_ite]

@[simp] theorem nvmHold_frame (s : State) :
    (nvmHold s).pending = s.pending ∧ (nvmHold s).reply = s.reply ∧ (nvmHold s).out = s.out ∧ (nvmHold s).freeCtr = s.freeCtr ∧ (nvmHold s).aon = s.aon ∧ (nvmHold s).cfg = s.cfg ∧ (nvmHold s).pend = s.pend ∧ (nvmHold s).tb = s.tb ∧ (nvmHold s).events = s.events ∧ (nvmHold s).host = s.host ∧ (nvmHold s).treads = s.treads ∧ (nvmHold s).cells = s.cells ∧ (nvmHold s).flights = s.flights ∧ (nvmHold s).halls = s.halls ∧ (nvmHold s).grid = s.grid ∧ (nvmHold s).atr = s.atr ∧ (nvmHold s).treadsOld = s.treadsOld ∧ (nvmHold s).meas = s.meas ∧ (nvmHold s).safe = s.safe ∧ (nvmHold s).therm = s.therm ∧ (nvmHold s).twin = s.twin ∧ (nvmHold s).stair = s.stair ∧ (nvmHold s).streams = s.streams ∧ (nvmHold s).mem = s.mem := by
  unfold nvmHold
  (try dsimp only)
  (repeat' split) <;> simp [apply_ite]

@[simp] theorem nvmGo_frame (s : State) :
    (nvmGo s).pending = s.pending ∧ (nvmGo s).reply = s.reply ∧ (nvmGo s).out = s.out ∧ (nvmGo s).freeCtr = s.freeCtr ∧ (nvmGo s).aon = s.aon ∧ (nvmGo s).cfg = s.cfg ∧ (nvmGo s).pend = s.pend ∧ (nvmGo s).tb = s.tb ∧ (nvmGo s).events = s.events ∧ (nvmGo s).host = s.host ∧ (nvmGo s).treads = s.treads ∧ (nvmGo s).cells = s.cells ∧ (nvmGo s).flights = s.flights ∧ (nvmGo s).halls = s.halls ∧ (nvmGo s).grid = s.grid ∧ (nvmGo s).atr = s.atr ∧ (nvmGo s).treadsOld = s.treadsOld ∧ (nvmGo s).meas = s.meas ∧ (nvmGo s).safe = s.safe ∧ (nvmGo s).therm = s.therm ∧ (nvmGo s).twin = s.twin ∧ (nvmGo s).stair = s.stair ∧ (nvmGo s).streams = s.streams ∧ (nvmGo s).mem = s.mem := by
  unfold nvmGo
  (try dsimp only)
  (repeat' split) <;> simp [apply_ite]

@[simp] theorem pageFailed_frame (a0 : NvmJob) (a1 : List NvmJob) (s : State) :
    (pageFailed a0 a1 s).pending = s.pending ∧ (pageFailed a0 a1 s).freeCtr = s.freeCtr ∧ (pageFailed a0 a1 s).pend = s.pend ∧ (pageFailed a0 a1 s).tb = s.tb ∧ (pageFailed a0 a1 s).treads = s.treads ∧ (pageFailed a0 a1 s).flights = s.flights ∧ (pageFailed a0 a1 s).halls = s.halls ∧ (pageFailed a0 a1 s).grid = s.grid ∧ (pageFailed a0 a1 s).treadsOld = s.treadsOld ∧ (pageFailed a0 a1 s).therm = s.therm ∧ (pageFailed a0 a1 s).twin = s.twin ∧ (pageFailed a0 a1 s).stair = s.stair ∧ (pageFailed a0 a1 s).streams = s.streams ∧ (pageFailed a0 a1 s).mem = s.mem := by
  unfold pageFailed
  (try dsimp only)
  (repeat' split) <;> simp [apply_ite]

@[simp] theorem pageWritten_frame (a0 : NvmJob) (a1 : List NvmJob) (s : State) :
    (pageWritten a0 a1 s).pending = s.pending ∧ (pageWritten a0 a1 s).freeCtr = s.freeCtr ∧ (pageWritten a0 a1 s).pend = s.pend ∧ (pageWritten a0 a1 s).tb = s.tb ∧ (pageWritten a0 a1 s).treads = s.treads ∧ (pageWritten a0 a1 s).flights = s.flights ∧ (pageWritten a0 a1 s).halls = s.halls ∧ (pageWritten a0 a1 s).grid = s.grid ∧ (pageWritten a0 a1 s).treadsOld = s.treadsOld ∧ (pageWritten a0 a1 s).therm = s.therm ∧ (pageWritten a0 a1 s).twin = s.twin ∧ (pageWritten a0 a1 s).stair = s.stair ∧ (pageWritten a0 a1 s).streams = s.streams ∧ (pageWritten a0 a1 s).mem = s.mem := by
  unfold pageWritten
  (try dsimp only)
  (repeat' split) <;> simp [apply_ite]

@[simp] theorem pageDone_frame (a0 : Bool) (s : State) :
    (pageDone a0 s).pending = s.pending ∧ (pageDone a0 s).freeCtr = s.freeCtr ∧ (pageDone a0 s).pend = s.pend ∧ (pageDone a0 s).tb = s.tb ∧ (pageDone a0 s).treads = s.treads ∧ (pageDone a0 s).flights = s.flights ∧ (pageDone a0 s).halls = s.halls ∧ (pageDone a0 s).grid = s.grid ∧ (pageDone a0 s).treadsOld = s.treadsOld ∧ (pageDone a0 s).therm = s.therm ∧ (pageDone a0 s).twin = s.twin ∧ (pageDone a0 s).stair = s.stair ∧ (pageDone a0 s).streams = s.streams ∧ (pageDone a0 s).mem = s.mem := by
  unfold pageDone
  (try dsimp only)
  (repeat' split) <;> simp [apply_ite]

@[simp] theorem sectorErased_frame (a0 : Nat) (s : State) :
    (sectorErased a0 s).pending = s.pending ∧ (sectorErased a0 s).reply = s.reply ∧ (sectorErased a0 s).freeCtr = s.freeCtr ∧ (sectorErased a0 s).cfg = s.cfg ∧ (sectorErased a0 s).pend = s.pend ∧ (sectorErased a0 s).tb = s.tb ∧ (sectorErased a0 s).treads = s.treads ∧ (sectorErased a0 s).cells = s.cells ∧ (sectorErased a0 s).flights = s.flights ∧ (sectorErased a0 s).halls = s.halls ∧ (sectorErased a0 s).grid = s.grid ∧ (sectorErased a0 s).treadsOld = s.treadsOld ∧ (sectorErased a0 s).meas = s.meas ∧ (sectorErased a0 s).safe = s.safe ∧ (sectorErased a0 s).therm = s.therm ∧ (sectorErased a0 s).twin = s.twin ∧ (sectorErased a0 s).stair = s.stair ∧ (sectorErased a0 s).streams = s.streams ∧ (sectorErased a0 s).mem = s.mem := by
  unfold sectorErased
  (try dsimp only)
  (repeat' split) <;> simp [apply_ite]

@[simp] theorem eraseDone_frame (a0 : Bool) (s : State) :
    (eraseDone a0 s).pending = s.pending ∧ (eraseDone a0 s).reply = s.reply ∧ (eraseDone a0 s).freeCtr = s.freeCtr ∧ (eraseDone a0 s).cfg = s.cfg ∧ (eraseDone a0 s).pend = s.pend ∧ (eraseDone a0 s).tb = s.tb ∧ (eraseDone a0 s).treads = s.treads ∧ (eraseDone a0 s).cells = s.cells ∧ (eraseDone a0 s).flights = s.flights ∧ (eraseDone a0 s).halls = s.halls ∧ (eraseDone a0 s).grid = s.grid ∧ (eraseDone a0 s).treadsOld = s.treadsOld ∧ (eraseDone a0 s).meas = s.meas ∧ (eraseDone a0 s).safe = s.safe ∧ (eraseDone a0 s).therm = s.therm ∧ (eraseDone a0 s).twin = s.twin ∧ (eraseDone a0 s).stair = s.stair ∧ (eraseDone a0 s).streams = s.streams ∧ (eraseDone a0 s).mem = s.mem := by
  unfold eraseDone
  (try dsimp only)
  (repeat' split) <;> simp [apply_ite]

theorem execNvmEraseDone_frame (a0 : Bool) (s t : State) (h : execNvmEraseDone a0 s = .next t) :
    t.pending = s.pending ∧ t.reply = s.reply ∧ t.freeCtr = s.freeCtr ∧ t.cfg = s.cfg ∧ t.pend = s.pend ∧ t.tb = s.tb ∧ t.treads = s.treads ∧ t.cells = s.cells ∧ t.flights = s.flights ∧ t.halls = s.halls ∧ t.grid = s.grid ∧ t.treadsOld = s.treadsOld ∧ t.meas = s.meas ∧ t.safe = s.safe ∧ t.therm = s.therm ∧ t.twin = s.twin ∧ t.stair = s.stair ∧ t.streams = s.streams ∧ t.mem = s.mem := by
  unfold execNvmEraseDone at h; cases h; (try dsimp only); (repeat' split) <;> simp [apply_ite]

@[simp] theorem restorePerm_frame (a0 : Nat) (s : State) :
    (restorePerm a0 s).pending = s.pending ∧ (restorePerm a0 s).reply = s.reply ∧ (restorePerm a0 s).out = s.out ∧ (restorePerm a0 s).freeCtr = s.freeCtr ∧ (restorePerm a0 s).aon = s.aon ∧ (restorePerm a0 s).cfg = s.cfg ∧ (restorePerm a0 s).pend = s.pend ∧ (restorePerm a0 s).tb = s.tb ∧ (restorePerm a0 s).events = s.events ∧ (restorePerm a0 s).host = s.host ∧ (restorePerm a0 s).treads = s.treads ∧ (restorePerm a0 s).flights = s.flights ∧ (restorePerm a0 s).grid = s.grid ∧ (restorePerm a0 s).atr = s.atr ∧ (restorePerm a0 s).treadsOld = s.treadsOld ∧ (restorePerm a0 s).meas = s.meas ∧ (restorePerm a0 s).safe = s.safe ∧ (restorePerm a0 s).therm = s.therm ∧ (restorePerm a0 s).twin = s.twin ∧ (restorePerm a0 s).stair = s.stair ∧ (restorePerm a0 s).nvm = s.nvm ∧ (restorePerm a0 s).streams = s.streams ∧ (restorePerm a0 s).mem = s.mem := by
  unfold restorePerm
  (try dsimp only)
  (repeat' split) <;> simp [apply_ite]

theorem execLogRead_frame (a0 : List Word) (s t : State) (h : execLogRead a0 s = .next t) :
    t.pending = s.pending ∧ t.out = s.out ∧ t.freeCtr = s.freeCtr ∧ t.aon = s.aon ∧ t.cfg = s.cfg ∧ t.pend = s.pend ∧ t.tb = s.tb ∧ t.events = s.events ∧ t.host = s.host ∧ t.treads = s.treads ∧ t.cells = s.cells ∧ t.flights = s.flights ∧ t.halls = s.halls ∧ t.grid = s.grid ∧ t.atr = s.atr ∧ t.treadsOld = s.treadsOld ∧ t.meas = s.meas ∧ t.safe = s.safe ∧ t.therm = s.therm ∧ t.twin = s.twin ∧ t.stair = s.stair ∧ t.nvm = s.nvm ∧ t.streams = s.streams ∧ t.mem = s.mem := by
  unfold execLogRead at h; cases h; (try dsimp only); (repeat' split) <;> simp [apply_ite]

theorem execNvmStatus_frame (a0 : List Word) (s t : State) (h : execNvmStatus a0 s = .next t) :
    t.pending = s.pending ∧ t.out = s.out ∧ t.freeCtr = s.freeCtr ∧ t.aon = s.aon ∧ t.cfg = s.cfg ∧ t.pend = s.pend ∧ t.tb = s.tb ∧ t.events = s.events ∧ t.host = s.host ∧ t.treads = s.treads ∧ t.cells = s.cells ∧ t.flights = s.flights ∧ t.halls = s.halls ∧ t.grid = s.grid ∧ t.atr = s.atr ∧ t.treadsOld = s.treadsOld ∧ t.meas = s.meas ∧ t.safe = s.safe ∧ t.therm = s.therm ∧ t.twin = s.twin ∧ t.stair = s.stair ∧ t.nvm = s.nvm ∧ t.streams = s.streams ∧ t.mem = s.mem := by
  unfold execNvmStatus at h; cases h; (try dsimp only); (repeat' split) <;> simp [apply_ite]

@[simp] theorem loadCal_frame (a0 : List (BitVec 16)) (s : State) :
    (loadCal a0 s).pending = s.pending ∧ (loadCal a0 s).reply = s.reply ∧ (loadCal a0 s).out = s.out ∧ (loadCal a0 s).freeCtr = s.freeCtr ∧ (loadCal a0 s).aon = s.aon ∧ (loadCal a0 s).pend = s.pend ∧ (loadCal a0 s).tb = s.tb ∧ (loadCal a0 s).events = s.events ∧ (loadCal a0 s).host = s.host ∧ (loadCal a0 s).treads = s.treads ∧ (loadCal a0 s).cells = s.cells ∧ (loadCal a0 s).flights = s.flights ∧ (loadCal a0 s).halls = s.halls ∧ (loadCal a0 s).grid = s.grid ∧ (loadCal a0 s).atr = s.atr ∧ (loadCal a0 s).treadsOld = s.treadsOld ∧ (loadCal a0 s).meas = s.meas ∧ (loadCal a0 s).safe = s.safe ∧ (loadCal a0 s).therm = s.therm ∧ (loadCal a0 s).twin = s.twin ∧ (loadCal a0 s).stair = s.stair ∧ (loadCal a0 s).nvm = s.nvm ∧ (loadCal a0 s).streams = s.streams ∧ (loadCal a0 s).mem = s.mem := by
  unfold loadCal; (try dsimp only)
  refine ⟨?_, ?_, ?_, ?_, ?_, ?_, ?_, ?_, ?_, ?_, ?_, ?_, ?_, ?_, ?_, ?_, ?_, ?_, ?_, ?_, ?_, ?_, ?_, ?_⟩
  · repeat' (first | with_reducible refine (each_keep State.pending _ _ _ (fun _ _ => ?_)).trans ?_ | with_reducible refine (unless_keep State.pending _ _ (fun _ => ?_)).trans ?_ | split | (simp [apply_ite State.pending]; done))
  · repeat' (first | with_reducible refine (each_keep State.reply _ _ _ (fun _ _ => ?_)).trans ?_ | with_reducible refine (unless_keep State.reply _ _ (fun _ => ?_)).trans ?_ | split | (simp [apply_ite State.reply]; done))
  · repeat' (first | with_reducible refine (each_keep State.out _ _ _ (fun _ _ => ?_)).trans ?_ | with_reducible refine (unless_keep State.out _ _ (fun _ => ?_)).trans ?_ | split | (simp [apply_ite State.out]; done))
  · repeat' (first | with_reducible refine (each_keep State.freeCtr _ _ _ (fun _ _ => ?_)).trans ?_ | with_reducible refine (unless_keep State.freeCtr _ _ (fun _ => ?_)).trans ?_ | split | (simp [apply_ite State.freeCtr]; done))
  · repeat' (first | with_reducible refine (each_keep State.aon _ _ _ (fun _ _ => ?_)).trans ?_ | with_reducible refine (unless_keep State.aon _ _ (fun _ => ?_)).trans ?_ | split | (simp [apply_ite State.aon]; done))
  · repeat' (first | with_reducible refine (each_keep State.pend _ _ _ (fun _ _ => ?_)).trans ?_ | with_reducible refine (unless_keep State.pend _ _ (fun _ => ?_)).trans ?_ | split | (simp [apply_ite State.pend]; done))
  · repeat' (first | with_reducible refine (each_keep State.tb _ _ _ (fun _ _ => ?_)).trans ?_ | with_reducible refine (unless_keep State.tb _ _ (fun _ => ?_)).trans ?_ | split | (simp [apply_ite State.tb]; done))
  · repeat' (first | with_reducible refine (each_keep State.events _ _ _ (fun _ _ => ?_)).trans ?_ | with_reducible refine (unless_keep State.events _ _ (fun _ => ?_)).trans ?_ | split | (simp [apply_ite State.events]; done))
  · repeat' (first | with_reducible refine (each_keep State.host _ _ _ (fun _ _ => ?_)).trans ?_ | with_reducible refine (unless_keep State.host _ _ (fun _ => ?_)).trans ?_ | split | (simp [apply_ite State.host]; done))
  · repeat' (first | with_reducible refine (each_keep State.treads _ _ _ (fun _ _ => ?_)).trans ?_ | with_reducible refine (unless_keep State.treads _ _ (fun _ => ?_)).trans ?_ | split | (simp [apply_ite State.treads]; done))
  · repeat' (first | with_reducible refine (each_keep State.cells _ _ _ (fun _ _ => ?_)).trans ?_ | with_reducible refine (unless_keep State.cells _ _ (fun _ => ?_)).trans ?_ | split | (simp [apply_ite State.cells]; done))
  · repeat' (first | with_reducible refine (each_keep State.flights _ _ _ (fun _ _ => ?_)).trans ?_ | with_reducible refine (unless_keep State.flights _ _ (fun _ => ?_)).trans ?_ | split | (simp [apply_ite State.flights]; done))
  · repeat' (first | with_reducible refine (each_keep State.halls _ _ _ (fun _ _ => ?_)).trans ?_ | with_reducible refine (unless_keep State.halls _ _ (fun _ => ?_)).trans ?_ | split | (simp [apply_ite State.halls]; done))
  · repeat' (first | with_reducible refine (each_keep State.grid _ _ _ (fun _ _ => ?_)).trans ?_ | with_reducible refine (unless_keep State.grid _ _ (fun _ => ?_)).trans ?_ | split | (simp [apply_ite State.grid]; done))
  · repeat' (first | with_reducible refine (each_keep State.atr _ _ _ (fun _ _ => ?_)).trans ?_ | with_reducible refine (unless_keep State.atr _ _ (fun _ => ?_)).trans ?_ | split | (simp [apply_ite State.atr]; done))
  · repeat' (first | with_reducible refine (each_keep State.treadsOld _ _ _ (fun _ _ => ?_)).trans ?_ | with_reducible refine (unless_keep State.treadsOld _ _ (fun _ => ?_)).trans ?_ | split | (simp [apply_ite State.treadsOld]; done))
  · repeat' (first | with_reducible refine (each_keep State.meas _ _ _ (fun _ _ => ?_)).trans ?_ | with_reducible refine (unless_keep State.meas _ _ (fun _ => ?_)).trans ?_ | split | (simp [apply_ite State.meas]; done))
  · repeat' (first | with_reducible refine (each_keep State.safe _ _ _ (fun _ _ => ?_)).trans ?_ | with_reducible refine (unless_keep State.safe _ _ (fun _ => ?_)).trans ?_ | split | (simp [apply_ite State.safe]; done))
  · repeat' (first | with_reducible refine (each_keep State.therm _ _ _ (fun _ _ => ?_)).trans ?_ | with_reducible refine (unless_keep State.therm _ _ (fun _ => ?_)).trans ?_ | split | (simp [apply_ite State.therm]; done))
  · repeat' (first | with_reducible refine (each_keep State.twin _ _ _ (fun _ _ => ?_)).trans ?_ | with_reducible refine (unless_keep State.twin _ _ (fun _ => ?_)).trans ?_ | split | (simp [apply_ite State.twin]; done))
  · repeat' (first | with_reducible refine (each_keep State.stair _ _ _ (fun _ _ => ?_)).trans ?_ | with_reducible refine (unless_keep State.stair _ _ (fun _ => ?_)).trans ?_ | split | (simp [apply_ite State.stair]; done))
  · repeat' (first | with_reducible refine (each_keep State.nvm _ _ _ (fun _ _ => ?_)).trans ?_ | with_reducible refine (unless_keep State.nvm _ _ (fun _ => ?_)).trans ?_ | split | (simp [apply_ite State.nvm]; done))
  · repeat' (first | with_reducible refine (each_keep State.streams _ _ _ (fun _ _ => ?_)).trans ?_ | with_reducible refine (unless_keep State.streams _ _ (fun _ => ?_)).trans ?_ | split | (simp [apply_ite State.streams]; done))
  · repeat' (first | with_reducible refine (each_keep State.mem _ _ _ (fun _ _ => ?_)).trans ?_ | with_reducible refine (unless_keep State.mem _ _ (fun _ => ?_)).trans ?_ | split | (simp [apply_ite State.mem]; done))

@[simp] theorem calStore_frame (a0 : CalRun) (a1 : Rat) (a2 : Rat) (a3 : F32) (s : State) :
    (calStore a0 a1 a2 a3 s).pending = s.pending ∧ (calStore a0 a1 a2 a3 s).freeCtr = s.freeCtr ∧ (calStore a0 a1 a2 a3 s).pend = s.pend ∧ (calStore a0 a1 a2 a3 s).tb = s.tb ∧ (calStore a0 a1 a2 a3 s).treads = s.treads ∧ (calStore a0 a1 a2 a3 s).flights = s.flights ∧ (calStore a0 a1 a2 a3 s).halls = s.halls ∧ (calStore a0 a1 a2 a3 s).grid = s.grid ∧ (calStore a0 a1 a2 a3 s).treadsOld = s.treadsOld ∧ (calStore a0 a1 a2 a3 s).therm = s.therm ∧ (calStore a0 a1 a2 a3 s).twin = s.twin ∧ (calStore a0 a1 a2 a3 s).stair = s.stair ∧ (calStore a0 a1 a2 a3 s).streams = s.streams ∧ (calStore a0 a1 a2 a3 s).mem = s.mem := by
  unfold calStore
  (try dsimp only)
  (repeat' split) <;> simp [apply_ite]

theorem execCalAverageDone_frame (s t : State) (h : execCalAverageDone s = .next t) :
    t.pending = s.pending ∧ t.freeCtr = s.freeCtr ∧ t.pend = s.pend ∧ t.tb = s.tb ∧ t.treads = s.treads ∧ t.flights = s.flights ∧ t.halls = s.halls ∧ t.grid = s.grid ∧ t.treadsOld = s.treadsOld ∧ t.therm = s.therm ∧ t.twin = s.twin ∧ t.stair = s.stair ∧ t.streams = s.streams ∧ t.mem = s.mem := by
  unfold execCalAverageDone at h; cases h; (try dsimp only); (repeat' split) <;> simp [apply_ite]

@[simp] theorem nvmOn_frame (s : State) :
    (nvmOn s).pending = s.pending ∧ (nvmOn s).reply = s.reply ∧ (nvmOn s).out = s.out ∧ (nvmOn s).freeCtr = s.freeCtr ∧ (nvmOn s).aon = s.aon ∧ (nvmOn s).cfg = s.cfg ∧ (nvmOn s).pend = s.pend ∧ (nvmOn s).tb = s.tb ∧ (nvmOn s).events = s.events ∧ (nvmOn s).host = s.host ∧ (nvmOn s).treads = s.treads ∧ (nvmOn s).cells = s.cells ∧ (nvmOn s).flights = s.flights ∧ (nvmOn s).halls = s.halls ∧ (nvmOn s).grid = s.grid ∧ (nvmOn s).atr = s.atr ∧ (nvmOn s).treadsOld = s.treadsOld ∧ (nvmOn s).meas = s.meas ∧ (nvmOn s).safe = s.safe ∧ (nvmOn s).therm = s.therm ∧ (nvmOn s).twin = s.twin ∧ (nvmOn s).stair = s.stair ∧ (nvmOn s).streams = s.streams ∧ (nvmOn s).mem = s.mem := by
  unfold nvmOn
  (try dsimp only)
  (repeat' split) <;> simp [apply_ite]

@[simp] theorem nvmWork_frame (s : State) :
    (nvmWork s).pending = s.pending ∧ (nvmWork s).reply = s.reply ∧ (nvmWork s).out = s.out ∧ (nvmWork s).freeCtr = s.freeCtr ∧ (nvmWork s).cfg = s.cfg ∧ (nvmWork s).pend = s.pend ∧ (nvmWork s).tb = s.tb ∧ (nvmWork s).events = s.events ∧ (nvmWork s).host = s.host ∧ (nvmWork s).treads = s.treads ∧ (nvmWork s).flights = s.flights ∧ (nvmWork s).grid = s.grid ∧ (nvmWork s).treadsOld = s.treadsOld ∧ (nvmWork s).meas = s.meas ∧ (nvmWork s).safe = s.safe ∧ (nvmWork s).therm = s.therm ∧ (nvmWork s).twin = s.twin ∧ (nvmWork s).stair = s.stair ∧ (nvmWork s).streams = s.streams ∧ (nvmWork s).mem = s.mem := by
  unfold nvmWork
  (try dsimp only)
  (repeat' split) <;> simp [apply_ite]

@[simp] theorem setAon_frame (a0 : Aon → Aon) (s : State) :
    (setAon a0 s).pending = s.pending ∧ (setAon a0 s).reply = s.reply ∧ (setAon a0 s).out = s.out ∧ (setAon a0 s).freeCtr = s.freeCtr ∧ (setAon a0 s).cfg = s.cfg ∧ (setAon a0 s).pend = s.pend ∧ (setAon a0 s).tb = s.tb ∧ (setAon a0 s).events = s.events ∧ (setAon a0 s).host = s.host ∧ (setAon a0 s).treads = s.treads ∧ (setAon a0 s).cells = s.cells ∧ (setAon a0 s).flights = s.flights ∧ (setAon a0 s).halls = s.halls ∧ (setAon a0 s).grid = s.grid ∧ (setAon a0 s).atr = s.atr ∧ (setAon a0 s).treadsOld = s.treadsOld ∧ (setAon a0 s).meas = s.meas ∧ (setAon a0 s).safe = s.safe ∧ (setAon a0 s).therm = s.therm ∧ (setAon a0 s).twin = s.twin ∧ (setAon a0 s).stair = s.stair ∧ (setAon a0 s).nvm = s.nvm ∧ (setAon a0 s).streams = s.streams ∧ (setAon a0 s).mem = s.mem := by
  unfold setAon
  (try dsimp only)
  (repeat' split) <;> simp [apply_ite]

@[simp] theorem setUnit_frame (a0 : Nat) (a1 : DomState) (s : State) :
    (setUnit a0 a1 s).pending = s.pending ∧ (setUnit a0 a1 s).reply = s.reply ∧ (setUnit a0 a1 s).out = s.out ∧ (setUnit a0 a1 s).freeCtr = s.freeCtr ∧ (setUnit a0 a1 s).cfg = s.cfg ∧ (setUnit a0 a1 s).pend = s.pend ∧ (setUnit a0 a1 s).tb = s.tb ∧ (setUnit a0 a1 s).events = s.events ∧ (setUnit a0 a1 s).host = s.host ∧ (setUnit a0 a1 s).treads = s.treads ∧ (setUnit a0 a1 s).cells = s.cells ∧ (setUnit a0 a1 s).flights = s.flights ∧ (setUnit a0 a1 s).halls = s.halls ∧ (setUnit a0 a1 s).grid = s.grid ∧ (setUnit a0 a1 s).atr = s.atr ∧ (setUnit a0 a1 s).treadsOld = s.treadsOld ∧ (setUnit a0 a1 s).meas = s.meas ∧ (setUnit a0 a1 s).safe = s.safe ∧ (setUnit a0 a1 s).therm = s.therm ∧ (setUnit a0 a1 s).twin = s.twin ∧ (setUnit a0 a1 s).stair = s.stair ∧ (setUnit a0 a1 s).nvm = s.nvm ∧ (setUnit a0 a1 s).streams = s.streams ∧ (setUnit a0 a1 s).mem = s.mem := by
  unfold setUnit
  (try dsimp only)
  (repeat' split) <;> simp [apply_ite]

@[simp] theorem changed_frame (a0 : Nat) (a1 : Bool) (s : State) :
    (changed a0 a1 s).pending = s.pending ∧ (changed a0 a1 s).reply = s.reply ∧ (changed a0 a1 s).freeCtr = s.freeCtr ∧ (changed a0 a1 s).cfg = s.cfg ∧ (changed a0 a1 s).pend = s.pend ∧ (changed a0 a1 s).tb = s.tb ∧ (changed a0 a1 s).treads = s.treads ∧ (changed a0 a1 s).cells = s.cells ∧ (changed a0 a1 s).flights = s.flights ∧ (changed a0 a1 s).halls = s.halls ∧ (changed a0 a1 s).grid = s.grid ∧ (changed a0 a1 s).treadsOld = s.treadsOld ∧ (changed a0 a1 s).meas = s.meas ∧ (changed a0 a1 s).safe = s.safe ∧ (changed a0 a1 s).therm = s.therm ∧ (changed a0 a1 s).twin = s.twin ∧ (changed a0 a1 s).stair = s.stair ∧ (changed a0 a1 s).nvm = s.nvm ∧ (changed a0 a1 s).streams = s.streams ∧ (changed a0 a1 s).mem = s.mem := by
  unfold changed
  (try dsimp only)
  (repeat' split) <;> simp [apply_ite]

@[simp] theorem aonIdle_frame (s : State) :
    (aonIdle s).pending = s.pending ∧ (aonIdle s).reply = s.reply ∧ (aonIdle s).out = s.out ∧ (aonIdle s).freeCtr = s.freeCtr ∧ (aonIdle s).cfg = s.cfg ∧ (aonIdle s).pend = s.pend ∧ (aonIdle s).tb = s.tb ∧ (aonIdle s).events = s.events ∧ (aonIdle s).host = s.host ∧ (aonIdle s).treads = s.treads ∧ (aonIdle s).cells = s.cells ∧ (aonIdle s).flights = s.flights ∧ (aonIdle s).halls = s.halls ∧ (aonIdle s).grid = s.grid ∧ (aonIdle s).atr = s.atr ∧ (aonIdle s).treadsOld = s.treadsOld ∧ (aonIdle s).meas = s.meas ∧ (aonIdle s).safe = s.safe ∧ (aonIdle s).therm = s.therm ∧ (aonIdle s).twin = s.twin ∧ (aonIdle s).stair = s.stair ∧ (aonIdle s).nvm = s.nvm ∧ (aonIdle s).streams = s.streams ∧ (aonIdle s).mem = s.mem := by
  unfold aonIdle
  (try dsimp only)
  (repeat' split) <;> simp [apply_ite]

@[simp] theorem rcIdle_frame (s : State) :
    (rcIdle s).pending = s.pending ∧ (rcIdle s).reply = s.reply ∧ (rcIdle s).out = s.out ∧ (rcIdle s).freeCtr = s.freeCtr ∧ (rcIdle s).cfg = s.cfg ∧ (rcIdle s).pend = s.pend ∧ (rcIdle s).tb = s.tb ∧ (rcIdle s).events = s.events ∧ (rcIdle s).host = s.host ∧ (rcIdle s).treads = s.treads ∧ (rcIdle s).cells = s.cells ∧ (rcIdle s).flights = s.flights ∧ (rcIdle s).halls = s.halls ∧ (rcIdle s).grid = s.grid ∧ (rcIdle s).atr = s.atr ∧ (rcIdle s).treadsOld = s.treadsOld ∧ (rcIdle s).meas = s.meas ∧ (rcIdle s).safe = s.safe ∧ (rcIdle s).therm = s.therm ∧ (rcIdle s).twin = s.twin ∧ (rcIdle s).stair = s.stair ∧ (rcIdle s).nvm = s.nvm ∧ (rcIdle s).streams = s.streams ∧ (rcIdle s).mem = s.mem := by
  unfold rcIdle
  (try dsimp only)
  (repeat' split) <;> simp [apply_ite]

@[simp] theorem dropCfg_frame (a0 : Dom) (s : State) :
    (dropCfg a0 s).pending = s.pending ∧ (dropCfg a0 s).reply = s.reply ∧ (dropCfg a0 s).out = s.out ∧ (dropCfg a0 s).freeCtr = s.freeCtr ∧ (dropCfg a0 s).aon = s.aon ∧ (dropCfg a0 s).pend = s.pend ∧ (dropCfg a0 s).tb = s.tb ∧ (dropCfg a0 s).events = s.events ∧ (dropCfg a0 s).host = s.host ∧ (dropCfg a0 s).treads = s.treads ∧ (dropCfg a0 s).cells = s.cells ∧ (dropCfg a0 s).flights = s.flights ∧ (dropCfg a0 s).halls = s.halls ∧ (dropCfg a0 s).grid = s.grid ∧ (dropCfg a0 s).atr = s.atr ∧ (dropCfg a0 s).treadsOld = s.treadsOld ∧ (dropCfg a0 s).meas = s.meas ∧ (dropCfg a0 s).safe = s.safe ∧ (dropCfg a0 s).therm = s.therm ∧ (dropCfg a0 s).twin = s.twin ∧ (dropCfg a0 s).stair = s.stair ∧ (dropCfg a0 s).nvm = s.nvm ∧ (dropCfg a0 s).streams = s.streams ∧ (dropCfg a0 s).mem = s.mem := by
  unfold dropCfg
  (try dsimp only)
  (repeat' split) <;> simp [apply_ite]

@[simp] theorem dropPend_frame (a0 : Dom) (s : State) :
    (dropPend a0 s).pending = s.pending ∧ (dropPend a0 s).reply = s.reply ∧ (dropPend a0 s).out = s.out ∧ (dropPend a0 s).freeCtr = s.freeCtr ∧ (dropPend a0 s).aon = s.aon ∧ (dropPend a0 s).cfg = s.cfg ∧ (dropPend a0 s).tb = s.tb ∧ (dropPend a0 s).events = s.events ∧ (dropPend a0 s).host = s.host ∧ (dropPend a0 s).treads = s.treads ∧ (dropPend a0 s).cells = s.cells ∧ (dropPend a0 s).flights = s.flights ∧ (dropPend a0 s).halls = s.halls ∧ (dropPend a0 s).grid = s.grid ∧ (dropPend a0 s).atr = s.atr ∧ (dropPend a0 s).treadsOld = s.treadsOld ∧ (dropPend a0 s).meas = s.meas ∧ (dropPend a0 s).safe = s.safe ∧ (dropPend a0 s).therm = s.therm ∧ (dropPend a0 s).twin = s.twin ∧ (dropPend a0 s).stair = s.stair ∧ (dropPend a0 s).nvm = s.nvm ∧ (dropPend a0 s).streams = s.streams ∧ (dropPend a0 s).mem = s.mem := by
  unfold dropPend
  (try dsimp only)
  (repeat' split) <;> simp [apply_ite]

@[simp] theorem shedAtrium_frame (a0 : Bool) (s : State) :
    (shedAtrium a0 s).pending = s.pending ∧ (shedAtrium a0 s).reply = s.reply ∧ (shedAtrium a0 s).out = s.out ∧ (shedAtrium a0 s).freeCtr = s.freeCtr ∧ (shedAtrium a0 s).cfg = s.cfg ∧ (shedAtrium a0 s).pend = s.pend ∧ (shedAtrium a0 s).tb = s.tb ∧ (shedAtrium a0 s).treads = s.treads ∧ (shedAtrium a0 s).cells = s.cells ∧ (shedAtrium a0 s).flights = s.flights ∧ (shedAtrium a0 s).treadsOld = s.treadsOld ∧ (shedAtrium a0 s).meas = s.meas ∧ (shedAtrium a0 s).safe = s.safe ∧ (shedAtrium a0 s).nvm = s.nvm ∧ (shedAtrium a0 s).mem = s.mem := by
  unfold shedAtrium
  (try dsimp only)
  (repeat' split) <;> simp [apply_ite]

@[simp] theorem shedHall_frame (a0 : Nat) (a1 : Bool) (s : State) :
    (shedHall a0 a1 s).pending = s.pending ∧ (shedHall a0 a1 s).reply = s.reply ∧ (shedHall a0 a1 s).out = s.out ∧ (shedHall a0 a1 s).freeCtr = s.freeCtr ∧ (shedHall a0 a1 s).aon = s.aon ∧ (shedHall a0 a1 s).cfg = s.cfg ∧ (shedHall a0 a1 s).pend = s.pend ∧ (shedHall a0 a1 s).tb = s.tb ∧ (shedHall a0 a1 s).events = s.events ∧ (shedHall a0 a1 s).host = s.host ∧ (shedHall a0 a1 s).grid = s.grid ∧ (shedHall a0 a1 s).atr = s.atr ∧ (shedHall a0 a1 s).meas = s.meas ∧ (shedHall a0 a1 s).safe = s.safe ∧ (shedHall a0 a1 s).therm = s.therm ∧ (shedHall a0 a1 s).twin = s.twin ∧ (shedHall a0 a1 s).stair = s.stair ∧ (shedHall a0 a1 s).nvm = s.nvm ∧ (shedHall a0 a1 s).streams = s.streams ∧ (shedHall a0 a1 s).mem = s.mem := by
  unfold shedHall; dsimp only
  refine ⟨?_, ?_, ?_, ?_, ?_, ?_, ?_, ?_, ?_, ?_, ?_, ?_, ?_, ?_, ?_, ?_, ?_, ?_, ?_, ?_⟩
  · simp only [each_pending, implies_true]
  · simp only [each_reply, implies_true]
  · simp only [each_out, implies_true]
  · simp only [each_freeCtr, implies_true]
  · simp only [each_aon, implies_true]
  · simp only [each_cfg, implies_true]
  · simp only [each_pend, implies_true]
  · simp only [each_tb, implies_true]
  · simp only [each_events, implies_true]
  · simp only [each_host, implies_true]
  · simp only [each_grid, implies_true]
  · simp only [each_atr, implies_true]
  · simp only [each_meas, implies_true]
  · simp only [each_safe, implies_true]
  · simp only [each_therm, implies_true]
  · simp only [each_twin, implies_true]
  · simp only [each_stair, implies_true]
  · simp only [each_nvm, implies_true]
  · simp only [each_streams, implies_true]
  · simp only [each_mem, implies_true]

@[simp] theorem stairDown_frame (s : State) :
    (stairDown s).pending = s.pending ∧ (stairDown s).reply = s.reply ∧ (stairDown s).freeCtr = s.freeCtr ∧ (stairDown s).cfg = s.cfg ∧ (stairDown s).pend = s.pend ∧ (stairDown s).tb = s.tb ∧ (stairDown s).treads = s.treads ∧ (stairDown s).cells = s.cells ∧ (stairDown s).flights = s.flights ∧ (stairDown s).halls = s.halls ∧ (stairDown s).grid = s.grid ∧ (stairDown s).treadsOld = s.treadsOld ∧ (stairDown s).meas = s.meas ∧ (stairDown s).safe = s.safe ∧ (stairDown s).therm = s.therm ∧ (stairDown s).twin = s.twin ∧ (stairDown s).nvm = s.nvm ∧ (stairDown s).streams = s.streams ∧ (stairDown s).mem = s.mem := by
  unfold stairDown
  (try dsimp only)
  (repeat' split) <;> simp [apply_ite]

@[simp] theorem shedNet_frame (a0 : Bool) (s : State) :
    (shedNet a0 s).pending = s.pending ∧ (shedNet a0 s).reply = s.reply ∧ (shedNet a0 s).out = s.out ∧ (shedNet a0 s).freeCtr = s.freeCtr ∧ (shedNet a0 s).aon = s.aon ∧ (shedNet a0 s).cfg = s.cfg ∧ (shedNet a0 s).pend = s.pend ∧ (shedNet a0 s).tb = s.tb ∧ (shedNet a0 s).events = s.events ∧ (shedNet a0 s).treads = s.treads ∧ (shedNet a0 s).cells = s.cells ∧ (shedNet a0 s).flights = s.flights ∧ (shedNet a0 s).halls = s.halls ∧ (shedNet a0 s).grid = s.grid ∧ (shedNet a0 s).atr = s.atr ∧ (shedNet a0 s).treadsOld = s.treadsOld ∧ (shedNet a0 s).meas = s.meas ∧ (shedNet a0 s).safe = s.safe ∧ (shedNet a0 s).therm = s.therm ∧ (shedNet a0 s).twin = s.twin ∧ (shedNet a0 s).stair = s.stair ∧ (shedNet a0 s).nvm = s.nvm ∧ (shedNet a0 s).streams = s.streams ∧ (shedNet a0 s).mem = s.mem := by
  unfold shedNet
  (try dsimp only)
  (repeat' split) <;> simp [apply_ite]

@[simp] theorem shed_frame (a0 : Nat) (a1 : Bool) (s : State) :
    (shed a0 a1 s).pending = s.pending ∧ (shed a0 a1 s).freeCtr = s.freeCtr ∧ (shed a0 a1 s).mem = s.mem := by
  unfold shed
  (try dsimp only)
  (repeat' split) <;> simp [apply_ite]

@[simp] theorem nvmOff_frame (s : State) :
    (nvmOff s).pending = s.pending ∧ (nvmOff s).freeCtr = s.freeCtr ∧ (nvmOff s).mem = s.mem := by
  unfold nvmOff
  (try dsimp only)
  (repeat' split) <;> simp [apply_ite]

@[simp] theorem nvmDue_frame (s : State) :
    (nvmDue s).pending = s.pending ∧ (nvmDue s).freeCtr = s.freeCtr ∧ (nvmDue s).mem = s.mem := by
  unfold nvmDue
  (try dsimp only)
  (repeat' split) <;> simp [apply_ite]

@[simp] theorem shedBank_frame (a0 : Nat) (a1 : Bool) (s : State) :
    (shedBank a0 a1 s).pending = s.pending ∧ (shedBank a0 a1 s).reply = s.reply ∧ (shedBank a0 a1 s).out = s.out ∧ (shedBank a0 a1 s).freeCtr = s.freeCtr ∧ (shedBank a0 a1 s).aon = s.aon ∧ (shedBank a0 a1 s).cfg = s.cfg ∧ (shedBank a0 a1 s).pend = s.pend ∧ (shedBank a0 a1 s).tb = s.tb ∧ (shedBank a0 a1 s).events = s.events ∧ (shedBank a0 a1 s).host = s.host ∧ (shedBank a0 a1 s).treads = s.treads ∧ (shedBank a0 a1 s).cells = s.cells ∧ (shedBank a0 a1 s).flights = s.flights ∧ (shedBank a0 a1 s).halls = s.halls ∧ (shedBank a0 a1 s).grid = s.grid ∧ (shedBank a0 a1 s).treadsOld = s.treadsOld ∧ (shedBank a0 a1 s).meas = s.meas ∧ (shedBank a0 a1 s).safe = s.safe ∧ (shedBank a0 a1 s).therm = s.therm ∧ (shedBank a0 a1 s).twin = s.twin ∧ (shedBank a0 a1 s).stair = s.stair ∧ (shedBank a0 a1 s).nvm = s.nvm := by
  unfold shedBank
  (try dsimp only)
  (repeat' split) <;> simp [apply_ite]

@[simp] theorem takeRetCrc_frame (a0 : Nat) (s : State) :
    (takeRetCrc a0 s).pending = s.pending ∧ (takeRetCrc a0 s).reply = s.reply ∧ (takeRetCrc a0 s).out = s.out ∧ (takeRetCrc a0 s).cfg = s.cfg ∧ (takeRetCrc a0 s).pend = s.pend ∧ (takeRetCrc a0 s).tb = s.tb ∧ (takeRetCrc a0 s).events = s.events ∧ (takeRetCrc a0 s).host = s.host ∧ (takeRetCrc a0 s).treads = s.treads ∧ (takeRetCrc a0 s).cells = s.cells ∧ (takeRetCrc a0 s).flights = s.flights ∧ (takeRetCrc a0 s).halls = s.halls ∧ (takeRetCrc a0 s).grid = s.grid ∧ (takeRetCrc a0 s).atr = s.atr ∧ (takeRetCrc a0 s).treadsOld = s.treadsOld ∧ (takeRetCrc a0 s).meas = s.meas ∧ (takeRetCrc a0 s).safe = s.safe ∧ (takeRetCrc a0 s).therm = s.therm ∧ (takeRetCrc a0 s).twin = s.twin ∧ (takeRetCrc a0 s).stair = s.stair ∧ (takeRetCrc a0 s).nvm = s.nvm ∧ (takeRetCrc a0 s).streams = s.streams ∧ (takeRetCrc a0 s).mem = s.mem := by
  unfold takeRetCrc
  (try dsimp only)
  (repeat' split) <;> simp [apply_ite]

@[simp] theorem markLost_frame (a0 : Nat) (s : State) :
    (markLost a0 s).pending = s.pending ∧ (markLost a0 s).reply = s.reply ∧ (markLost a0 s).out = s.out ∧ (markLost a0 s).freeCtr = s.freeCtr ∧ (markLost a0 s).cfg = s.cfg ∧ (markLost a0 s).pend = s.pend ∧ (markLost a0 s).tb = s.tb ∧ (markLost a0 s).events = s.events ∧ (markLost a0 s).host = s.host ∧ (markLost a0 s).treads = s.treads ∧ (markLost a0 s).cells = s.cells ∧ (markLost a0 s).flights = s.flights ∧ (markLost a0 s).halls = s.halls ∧ (markLost a0 s).grid = s.grid ∧ (markLost a0 s).atr = s.atr ∧ (markLost a0 s).treadsOld = s.treadsOld ∧ (markLost a0 s).meas = s.meas ∧ (markLost a0 s).safe = s.safe ∧ (markLost a0 s).therm = s.therm ∧ (markLost a0 s).twin = s.twin ∧ (markLost a0 s).stair = s.stair ∧ (markLost a0 s).nvm = s.nvm ∧ (markLost a0 s).streams = s.streams ∧ (markLost a0 s).mem = s.mem := by
  unfold markLost
  (try dsimp only)
  (repeat' split) <;> simp [apply_ite]

@[simp] theorem logLost_frame (s : State) :
    (logLost s).pending = s.pending ∧ (logLost s).reply = s.reply ∧ (logLost s).freeCtr = s.freeCtr ∧ (logLost s).cfg = s.cfg ∧ (logLost s).pend = s.pend ∧ (logLost s).tb = s.tb ∧ (logLost s).treads = s.treads ∧ (logLost s).cells = s.cells ∧ (logLost s).flights = s.flights ∧ (logLost s).halls = s.halls ∧ (logLost s).grid = s.grid ∧ (logLost s).treadsOld = s.treadsOld ∧ (logLost s).meas = s.meas ∧ (logLost s).safe = s.safe ∧ (logLost s).therm = s.therm ∧ (logLost s).twin = s.twin ∧ (logLost s).stair = s.stair ∧ (logLost s).streams = s.streams ∧ (logLost s).mem = s.mem := by
  unfold logLost
  (try dsimp only)
  (repeat' split) <;> simp [apply_ite]

@[simp] theorem holdLost_frame (s : State) :
    (holdLost s).pending = s.pending ∧ (holdLost s).reply = s.reply ∧ (holdLost s).out = s.out ∧ (holdLost s).freeCtr = s.freeCtr ∧ (holdLost s).cfg = s.cfg ∧ (holdLost s).pend = s.pend ∧ (holdLost s).tb = s.tb ∧ (holdLost s).events = s.events ∧ (holdLost s).host = s.host ∧ (holdLost s).treads = s.treads ∧ (holdLost s).cells = s.cells ∧ (holdLost s).flights = s.flights ∧ (holdLost s).halls = s.halls ∧ (holdLost s).grid = s.grid ∧ (holdLost s).atr = s.atr ∧ (holdLost s).treadsOld = s.treadsOld ∧ (holdLost s).meas = s.meas ∧ (holdLost s).safe = s.safe ∧ (holdLost s).therm = s.therm ∧ (holdLost s).twin = s.twin ∧ (holdLost s).stair = s.stair ∧ (holdLost s).nvm = s.nvm ∧ (holdLost s).streams = s.streams ∧ (holdLost s).mem = s.mem := by
  unfold holdLost
  (try dsimp only)
  (repeat' split) <;> simp [apply_ite]

@[simp] theorem tellLost_frame (s : State) :
    (tellLost s).pending = s.pending ∧ (tellLost s).reply = s.reply ∧ (tellLost s).freeCtr = s.freeCtr ∧ (tellLost s).cfg = s.cfg ∧ (tellLost s).pend = s.pend ∧ (tellLost s).tb = s.tb ∧ (tellLost s).treads = s.treads ∧ (tellLost s).cells = s.cells ∧ (tellLost s).flights = s.flights ∧ (tellLost s).halls = s.halls ∧ (tellLost s).grid = s.grid ∧ (tellLost s).treadsOld = s.treadsOld ∧ (tellLost s).meas = s.meas ∧ (tellLost s).safe = s.safe ∧ (tellLost s).therm = s.therm ∧ (tellLost s).twin = s.twin ∧ (tellLost s).stair = s.stair ∧ (tellLost s).streams = s.streams ∧ (tellLost s).mem = s.mem := by
  unfold tellLost
  (try dsimp only)
  (repeat' split) <;> simp [apply_ite]

@[simp] theorem gridStart_frame (s : State) :
    (gridStart s).pending = s.pending ∧ (gridStart s).reply = s.reply ∧ (gridStart s).freeCtr = s.freeCtr ∧ (gridStart s).cfg = s.cfg ∧ (gridStart s).pend = s.pend ∧ (gridStart s).tb = s.tb ∧ (gridStart s).treads = s.treads ∧ (gridStart s).cells = s.cells ∧ (gridStart s).flights = s.flights ∧ (gridStart s).halls = s.halls ∧ (gridStart s).treadsOld = s.treadsOld ∧ (gridStart s).meas = s.meas ∧ (gridStart s).safe = s.safe ∧ (gridStart s).therm = s.therm ∧ (gridStart s).twin = s.twin ∧ (gridStart s).stair = s.stair ∧ (gridStart s).nvm = s.nvm ∧ (gridStart s).streams = s.streams ∧ (gridStart s).mem = s.mem := by
  unfold gridStart
  (try dsimp only)
  (repeat' split) <;> simp [apply_ite]

@[simp] theorem hallRegs_frame (a0 : Nat) (s : State) :
    (hallRegs a0 s).pending = s.pending ∧ (hallRegs a0 s).reply = s.reply ∧ (hallRegs a0 s).out = s.out ∧ (hallRegs a0 s).freeCtr = s.freeCtr ∧ (hallRegs a0 s).aon = s.aon ∧ (hallRegs a0 s).cfg = s.cfg ∧ (hallRegs a0 s).pend = s.pend ∧ (hallRegs a0 s).tb = s.tb ∧ (hallRegs a0 s).events = s.events ∧ (hallRegs a0 s).host = s.host ∧ (hallRegs a0 s).treads = s.treads ∧ (hallRegs a0 s).cells = s.cells ∧ (hallRegs a0 s).flights = s.flights ∧ (hallRegs a0 s).grid = s.grid ∧ (hallRegs a0 s).atr = s.atr ∧ (hallRegs a0 s).treadsOld = s.treadsOld ∧ (hallRegs a0 s).meas = s.meas ∧ (hallRegs a0 s).safe = s.safe ∧ (hallRegs a0 s).therm = s.therm ∧ (hallRegs a0 s).twin = s.twin ∧ (hallRegs a0 s).stair = s.stair ∧ (hallRegs a0 s).nvm = s.nvm ∧ (hallRegs a0 s).streams = s.streams ∧ (hallRegs a0 s).mem = s.mem := by
  unfold hallRegs
  (try dsimp only)
  (repeat' split) <;> simp [apply_ite]

@[simp] theorem atriumArrive_frame (a0 : Bool) (s : State) :
    (atriumArrive a0 s).pending = s.pending ∧ (atriumArrive a0 s).reply = s.reply ∧ (atriumArrive a0 s).freeCtr = s.freeCtr ∧ (atriumArrive a0 s).cfg = s.cfg ∧ (atriumArrive a0 s).pend = s.pend ∧ (atriumArrive a0 s).tb = s.tb ∧ (atriumArrive a0 s).treads = s.treads ∧ (atriumArrive a0 s).cells = s.cells ∧ (atriumArrive a0 s).flights = s.flights ∧ (atriumArrive a0 s).treadsOld = s.treadsOld ∧ (atriumArrive a0 s).meas = s.meas ∧ (atriumArrive a0 s).safe = s.safe ∧ (atriumArrive a0 s).stair = s.stair ∧ (atriumArrive a0 s).streams = s.streams ∧ (atriumArrive a0 s).mem = s.mem := by
  unfold atriumArrive
  (try dsimp only)
  (repeat' split) <;> simp [apply_ite]

@[simp] theorem hallArrive_frame (a0 : Nat) (a1 : Bool) (s : State) :
    (hallArrive a0 a1 s).pending = s.pending ∧ (hallArrive a0 a1 s).reply = s.reply ∧ (hallArrive a0 a1 s).out = s.out ∧ (hallArrive a0 a1 s).freeCtr = s.freeCtr ∧ (hallArrive a0 a1 s).aon = s.aon ∧ (hallArrive a0 a1 s).cfg = s.cfg ∧ (hallArrive a0 a1 s).pend = s.pend ∧ (hallArrive a0 a1 s).tb = s.tb ∧ (hallArrive a0 a1 s).events = s.events ∧ (hallArrive a0 a1 s).host = s.host ∧ (hallArrive a0 a1 s).grid = s.grid ∧ (hallArrive a0 a1 s).atr = s.atr ∧ (hallArrive a0 a1 s).treadsOld = s.treadsOld ∧ (hallArrive a0 a1 s).meas = s.meas ∧ (hallArrive a0 a1 s).safe = s.safe ∧ (hallArrive a0 a1 s).therm = s.therm ∧ (hallArrive a0 a1 s).twin = s.twin ∧ (hallArrive a0 a1 s).stair = s.stair ∧ (hallArrive a0 a1 s).nvm = s.nvm ∧ (hallArrive a0 a1 s).streams = s.streams ∧ (hallArrive a0 a1 s).mem = s.mem := by
  unfold hallArrive
  (try dsimp only)
  (repeat' split) <;> simp [apply_ite]

@[simp] theorem hallWork_frame (a0 : Nat) (s : State) :
    (hallWork a0 s).pending = s.pending ∧ (hallWork a0 s).reply = s.reply ∧ (hallWork a0 s).out = s.out ∧ (hallWork a0 s).freeCtr = s.freeCtr ∧ (hallWork a0 s).aon = s.aon ∧ (hallWork a0 s).pend = s.pend ∧ (hallWork a0 s).tb = s.tb ∧ (hallWork a0 s).events = s.events ∧ (hallWork a0 s).host = s.host ∧ (hallWork a0 s).treads = s.treads ∧ (hallWork a0 s).flights = s.flights ∧ (hallWork a0 s).grid = s.grid ∧ (hallWork a0 s).atr = s.atr ∧ (hallWork a0 s).treadsOld = s.treadsOld ∧ (hallWork a0 s).meas = s.meas ∧ (hallWork a0 s).safe = s.safe ∧ (hallWork a0 s).therm = s.therm ∧ (hallWork a0 s).twin = s.twin ∧ (hallWork a0 s).stair = s.stair ∧ (hallWork a0 s).nvm = s.nvm ∧ (hallWork a0 s).streams = s.streams ∧ (hallWork a0 s).mem = s.mem := by
  unfold hallWork
  (try dsimp only)
  (repeat' split) <;> simp [apply_ite]

@[simp] theorem timebaseArrive_frame (s : State) :
    (timebaseArrive s).pending = s.pending ∧ (timebaseArrive s).reply = s.reply ∧ (timebaseArrive s).freeCtr = s.freeCtr ∧ (timebaseArrive s).cfg = s.cfg ∧ (timebaseArrive s).pend = s.pend ∧ (timebaseArrive s).treads = s.treads ∧ (timebaseArrive s).cells = s.cells ∧ (timebaseArrive s).flights = s.flights ∧ (timebaseArrive s).halls = s.halls ∧ (timebaseArrive s).treadsOld = s.treadsOld ∧ (timebaseArrive s).meas = s.meas ∧ (timebaseArrive s).safe = s.safe ∧ (timebaseArrive s).twin = s.twin ∧ (timebaseArrive s).stair = s.stair ∧ (timebaseArrive s).nvm = s.nvm ∧ (timebaseArrive s).streams = s.streams ∧ (timebaseArrive s).mem = s.mem := by
  unfold timebaseArrive
  (try dsimp only)
  (repeat' split) <;> simp [apply_ite]

@[simp] theorem arrive_frame (a0 : Nat) (a1 : Bool) (s : State) :
    (arrive a0 a1 s).pending = s.pending ∧ (arrive a0 a1 s).reply = s.reply ∧ (arrive a0 a1 s).freeCtr = s.freeCtr ∧ (arrive a0 a1 s).cfg = s.cfg ∧ (arrive a0 a1 s).pend = s.pend ∧ (arrive a0 a1 s).treadsOld = s.treadsOld ∧ (arrive a0 a1 s).meas = s.meas ∧ (arrive a0 a1 s).stair = s.stair ∧ (arrive a0 a1 s).streams = s.streams ∧ (arrive a0 a1 s).mem = s.mem := by
  unfold arrive
  (try dsimp only)
  (repeat' split) <;> simp [apply_ite]

@[simp] theorem arrivalWork_frame (a0 : Nat) (s : State) :
    (arrivalWork a0 s).pending = s.pending ∧ (arrivalWork a0 s).reply = s.reply ∧ (arrivalWork a0 s).pend = s.pend ∧ (arrivalWork a0 s).tb = s.tb ∧ (arrivalWork a0 s).treads = s.treads ∧ (arrivalWork a0 s).flights = s.flights ∧ (arrivalWork a0 s).grid = s.grid ∧ (arrivalWork a0 s).treadsOld = s.treadsOld ∧ (arrivalWork a0 s).therm = s.therm ∧ (arrivalWork a0 s).twin = s.twin ∧ (arrivalWork a0 s).stair = s.stair ∧ (arrivalWork a0 s).streams = s.streams ∧ (arrivalWork a0 s).mem = s.mem := by
  unfold arrivalWork
  (try dsimp only)
  (repeat' split) <;> simp [apply_ite]

@[simp] theorem setSeq_frame (a0 : PowerSeq → PowerSeq) (s : State) :
    (setSeq a0 s).pending = s.pending ∧ (setSeq a0 s).reply = s.reply ∧ (setSeq a0 s).out = s.out ∧ (setSeq a0 s).freeCtr = s.freeCtr ∧ (setSeq a0 s).cfg = s.cfg ∧ (setSeq a0 s).pend = s.pend ∧ (setSeq a0 s).tb = s.tb ∧ (setSeq a0 s).events = s.events ∧ (setSeq a0 s).host = s.host ∧ (setSeq a0 s).treads = s.treads ∧ (setSeq a0 s).cells = s.cells ∧ (setSeq a0 s).flights = s.flights ∧ (setSeq a0 s).halls = s.halls ∧ (setSeq a0 s).grid = s.grid ∧ (setSeq a0 s).atr = s.atr ∧ (setSeq a0 s).treadsOld = s.treadsOld ∧ (setSeq a0 s).meas = s.meas ∧ (setSeq a0 s).safe = s.safe ∧ (setSeq a0 s).therm = s.therm ∧ (setSeq a0 s).twin = s.twin ∧ (setSeq a0 s).stair = s.stair ∧ (setSeq a0 s).nvm = s.nvm ∧ (setSeq a0 s).streams = s.streams ∧ (setSeq a0 s).mem = s.mem := by
  unfold setSeq
  (try dsimp only)
  (repeat' split) <;> simp [apply_ite]

@[simp] theorem takeUnit'_frame (a0 : Nat) (s : State) :
    (takeUnit' a0 s).pending = s.pending ∧ (takeUnit' a0 s).reply = s.reply ∧ (takeUnit' a0 s).out = s.out ∧ (takeUnit' a0 s).freeCtr = s.freeCtr ∧ (takeUnit' a0 s).cfg = s.cfg ∧ (takeUnit' a0 s).pend = s.pend ∧ (takeUnit' a0 s).tb = s.tb ∧ (takeUnit' a0 s).events = s.events ∧ (takeUnit' a0 s).host = s.host ∧ (takeUnit' a0 s).treads = s.treads ∧ (takeUnit' a0 s).cells = s.cells ∧ (takeUnit' a0 s).flights = s.flights ∧ (takeUnit' a0 s).halls = s.halls ∧ (takeUnit' a0 s).grid = s.grid ∧ (takeUnit' a0 s).atr = s.atr ∧ (takeUnit' a0 s).treadsOld = s.treadsOld ∧ (takeUnit' a0 s).meas = s.meas ∧ (takeUnit' a0 s).safe = s.safe ∧ (takeUnit' a0 s).therm = s.therm ∧ (takeUnit' a0 s).twin = s.twin ∧ (takeUnit' a0 s).stair = s.stair ∧ (takeUnit' a0 s).nvm = s.nvm ∧ (takeUnit' a0 s).streams = s.streams ∧ (takeUnit' a0 s).mem = s.mem := by
  unfold takeUnit'
  (try dsimp only)
  (repeat' split) <;> simp [apply_ite]

@[simp] theorem closeBanks_frame (s : State) :
    (closeBanks s).pending = s.pending ∧ (closeBanks s).reply = s.reply ∧ (closeBanks s).out = s.out ∧ (closeBanks s).freeCtr = s.freeCtr ∧ (closeBanks s).cfg = s.cfg ∧ (closeBanks s).pend = s.pend ∧ (closeBanks s).tb = s.tb ∧ (closeBanks s).events = s.events ∧ (closeBanks s).host = s.host ∧ (closeBanks s).treads = s.treads ∧ (closeBanks s).cells = s.cells ∧ (closeBanks s).flights = s.flights ∧ (closeBanks s).halls = s.halls ∧ (closeBanks s).grid = s.grid ∧ (closeBanks s).atr = s.atr ∧ (closeBanks s).treadsOld = s.treadsOld ∧ (closeBanks s).meas = s.meas ∧ (closeBanks s).safe = s.safe ∧ (closeBanks s).therm = s.therm ∧ (closeBanks s).twin = s.twin ∧ (closeBanks s).stair = s.stair ∧ (closeBanks s).nvm = s.nvm ∧ (closeBanks s).streams = s.streams ∧ (closeBanks s).mem = s.mem := by
  unfold closeBanks
  (try dsimp only)
  (repeat' split) <;> simp [apply_ite]

@[simp] theorem checkBanks_frame (a0 : Word) (s : State) :
    (checkBanks a0 s).pending = s.pending ∧ (checkBanks a0 s).reply = s.reply ∧ (checkBanks a0 s).freeCtr = s.freeCtr ∧ (checkBanks a0 s).cfg = s.cfg ∧ (checkBanks a0 s).pend = s.pend ∧ (checkBanks a0 s).tb = s.tb ∧ (checkBanks a0 s).treads = s.treads ∧ (checkBanks a0 s).cells = s.cells ∧ (checkBanks a0 s).flights = s.flights ∧ (checkBanks a0 s).halls = s.halls ∧ (checkBanks a0 s).grid = s.grid ∧ (checkBanks a0 s).treadsOld = s.treadsOld ∧ (checkBanks a0 s).meas = s.meas ∧ (checkBanks a0 s).safe = s.safe ∧ (checkBanks a0 s).therm = s.therm ∧ (checkBanks a0 s).twin = s.twin ∧ (checkBanks a0 s).stair = s.stair := by
  unfold checkBanks
  (try dsimp only)
  (repeat' split) <;> simp [apply_ite]

@[simp] theorem beginStep_frame (s : State) :
    (beginStep s).pending = s.pending ∧ (beginStep s).reply = s.reply ∧ (beginStep s).out = s.out ∧ (beginStep s).freeCtr = s.freeCtr ∧ (beginStep s).cfg = s.cfg ∧ (beginStep s).pend = s.pend ∧ (beginStep s).tb = s.tb ∧ (beginStep s).events = s.events ∧ (beginStep s).host = s.host ∧ (beginStep s).treads = s.treads ∧ (beginStep s).cells = s.cells ∧ (beginStep s).flights = s.flights ∧ (beginStep s).halls = s.halls ∧ (beginStep s).grid = s.grid ∧ (beginStep s).atr = s.atr ∧ (beginStep s).treadsOld = s.treadsOld ∧ (beginStep s).meas = s.meas ∧ (beginStep s).safe = s.safe ∧ (beginStep s).therm = s.therm ∧ (beginStep s).twin = s.twin ∧ (beginStep s).stair = s.stair ∧ (beginStep s).nvm = s.nvm ∧ (beginStep s).streams = s.streams ∧ (beginStep s).mem = s.mem := by
  unfold beginStep
  (try dsimp only)
  (repeat' split) <;> simp [apply_ite]

@[simp] theorem stepTime_frame (a0 : Nat) (s : State) :
    (stepTime a0 s).pending = s.pending ∧ (stepTime a0 s).reply = s.reply ∧ (stepTime a0 s).out = s.out ∧ (stepTime a0 s).cfg = s.cfg ∧ (stepTime a0 s).pend = s.pend ∧ (stepTime a0 s).tb = s.tb ∧ (stepTime a0 s).events = s.events ∧ (stepTime a0 s).host = s.host ∧ (stepTime a0 s).treads = s.treads ∧ (stepTime a0 s).cells = s.cells ∧ (stepTime a0 s).flights = s.flights ∧ (stepTime a0 s).halls = s.halls ∧ (stepTime a0 s).grid = s.grid ∧ (stepTime a0 s).atr = s.atr ∧ (stepTime a0 s).treadsOld = s.treadsOld ∧ (stepTime a0 s).meas = s.meas ∧ (stepTime a0 s).safe = s.safe ∧ (stepTime a0 s).therm = s.therm ∧ (stepTime a0 s).twin = s.twin ∧ (stepTime a0 s).stair = s.stair ∧ (stepTime a0 s).nvm = s.nvm ∧ (stepTime a0 s).streams = s.streams ∧ (stepTime a0 s).mem = s.mem := by
  unfold stepTime
  (try dsimp only)
  (repeat' split) <;> simp [apply_ite]

@[simp] theorem wakeRun_frame (s : State) :
    (wakeRun s).pending = s.pending ∧ (wakeRun s).reply = s.reply ∧ (wakeRun s).out = s.out ∧ (wakeRun s).freeCtr = s.freeCtr ∧ (wakeRun s).cfg = s.cfg ∧ (wakeRun s).pend = s.pend ∧ (wakeRun s).tb = s.tb ∧ (wakeRun s).events = s.events ∧ (wakeRun s).host = s.host ∧ (wakeRun s).treads = s.treads ∧ (wakeRun s).cells = s.cells ∧ (wakeRun s).flights = s.flights ∧ (wakeRun s).halls = s.halls ∧ (wakeRun s).grid = s.grid ∧ (wakeRun s).atr = s.atr ∧ (wakeRun s).treadsOld = s.treadsOld ∧ (wakeRun s).meas = s.meas ∧ (wakeRun s).safe = s.safe ∧ (wakeRun s).therm = s.therm ∧ (wakeRun s).twin = s.twin ∧ (wakeRun s).stair = s.stair ∧ (wakeRun s).nvm = s.nvm ∧ (wakeRun s).streams = s.streams ∧ (wakeRun s).mem = s.mem := by
  unfold wakeRun
  (try dsimp only)
  (repeat' split) <;> simp [apply_ite]

@[simp] theorem startWake_frame (s : State) :
    (startWake s).pending = s.pending ∧ (startWake s).reply = s.reply ∧ (startWake s).out = s.out ∧ (startWake s).freeCtr = s.freeCtr ∧ (startWake s).cfg = s.cfg ∧ (startWake s).pend = s.pend ∧ (startWake s).tb = s.tb ∧ (startWake s).events = s.events ∧ (startWake s).host = s.host ∧ (startWake s).treads = s.treads ∧ (startWake s).cells = s.cells ∧ (startWake s).flights = s.flights ∧ (startWake s).halls = s.halls ∧ (startWake s).grid = s.grid ∧ (startWake s).atr = s.atr ∧ (startWake s).treadsOld = s.treadsOld ∧ (startWake s).meas = s.meas ∧ (startWake s).safe = s.safe ∧ (startWake s).therm = s.therm ∧ (startWake s).twin = s.twin ∧ (startWake s).stair = s.stair ∧ (startWake s).nvm = s.nvm ∧ (startWake s).streams = s.streams ∧ (startWake s).mem = s.mem := by
  unfold startWake
  (try dsimp only)
  (repeat' split) <;> simp [apply_ite]

@[simp] theorem seqReply_frame (a0 : PowerSeq) (s : State) :
    (seqReply a0 s).pending = s.pending ∧ (seqReply a0 s).freeCtr = s.freeCtr ∧ (seqReply a0 s).cfg = s.cfg ∧ (seqReply a0 s).pend = s.pend ∧ (seqReply a0 s).tb = s.tb ∧ (seqReply a0 s).events = s.events ∧ (seqReply a0 s).treads = s.treads ∧ (seqReply a0 s).cells = s.cells ∧ (seqReply a0 s).flights = s.flights ∧ (seqReply a0 s).halls = s.halls ∧ (seqReply a0 s).grid = s.grid ∧ (seqReply a0 s).atr = s.atr ∧ (seqReply a0 s).treadsOld = s.treadsOld ∧ (seqReply a0 s).meas = s.meas ∧ (seqReply a0 s).safe = s.safe ∧ (seqReply a0 s).therm = s.therm ∧ (seqReply a0 s).twin = s.twin ∧ (seqReply a0 s).stair = s.stair ∧ (seqReply a0 s).nvm = s.nvm ∧ (seqReply a0 s).streams = s.streams ∧ (seqReply a0 s).mem = s.mem := by
  unfold seqReply
  (try dsimp only)
  (repeat' split) <;> simp [apply_ite]

@[simp] theorem wakeNext_frame (s : State) :
    (wakeNext s).pending = s.pending ∧ (wakeNext s).reply = s.reply ∧ (wakeNext s).out = s.out ∧ (wakeNext s).freeCtr = s.freeCtr ∧ (wakeNext s).cfg = s.cfg ∧ (wakeNext s).pend = s.pend ∧ (wakeNext s).tb = s.tb ∧ (wakeNext s).events = s.events ∧ (wakeNext s).host = s.host ∧ (wakeNext s).treads = s.treads ∧ (wakeNext s).cells = s.cells ∧ (wakeNext s).flights = s.flights ∧ (wakeNext s).halls = s.halls ∧ (wakeNext s).grid = s.grid ∧ (wakeNext s).atr = s.atr ∧ (wakeNext s).treadsOld = s.treadsOld ∧ (wakeNext s).meas = s.meas ∧ (wakeNext s).safe = s.safe ∧ (wakeNext s).therm = s.therm ∧ (wakeNext s).twin = s.twin ∧ (wakeNext s).stair = s.stair ∧ (wakeNext s).nvm = s.nvm ∧ (wakeNext s).streams = s.streams ∧ (wakeNext s).mem = s.mem := by
  unfold wakeNext
  (try dsimp only)
  (repeat' split) <;> simp [apply_ite]

@[simp] theorem seqEnd_frame (s : State) :
    (seqEnd s).pending = s.pending ∧ (seqEnd s).pend = s.pend ∧ (seqEnd s).tb = s.tb ∧ (seqEnd s).treads = s.treads ∧ (seqEnd s).flights = s.flights ∧ (seqEnd s).grid = s.grid ∧ (seqEnd s).treadsOld = s.treadsOld ∧ (seqEnd s).therm = s.therm ∧ (seqEnd s).twin = s.twin ∧ (seqEnd s).stair = s.stair ∧ (seqEnd s).streams = s.streams ∧ (seqEnd s).mem = s.mem := by
  unfold seqEnd
  (try dsimp only)
  (repeat' split) <;> simp [apply_ite]

@[simp] theorem bringUp_frame (s : State) :
    (bringUp s).pending = s.pending ∧ (bringUp s).pend = s.pend ∧ (bringUp s).tb = s.tb ∧ (bringUp s).treads = s.treads ∧ (bringUp s).flights = s.flights ∧ (bringUp s).grid = s.grid ∧ (bringUp s).treadsOld = s.treadsOld ∧ (bringUp s).therm = s.therm ∧ (bringUp s).twin = s.twin ∧ (bringUp s).stair = s.stair ∧ (bringUp s).streams = s.streams ∧ (bringUp s).mem = s.mem := by
  unfold bringUp
  (try dsimp only)
  (repeat' split) <;> simp [apply_ite]

@[simp] theorem leaveUnit_frame (a0 : Nat) (a1 : Bool) (s : State) :
    (leaveUnit a0 a1 s).2.pending = s.pending ∧ (leaveUnit a0 a1 s).2.freeCtr = s.freeCtr := by
  unfold leaveUnit
  (try dsimp only)
  (repeat' split) <;> simp [apply_ite]

@[simp] theorem leaveAll_frame (a0 : List (Nat × Bool)) (s : State) :
    (leaveAll a0 s).pending = s.pending := by
  induction a0 generalizing s with
  | nil => simp [leaveAll]
  | cons x r ih => simp [leaveAll, ih, apply_ite State.pending]

@[simp] theorem nvmQuiesce_frame (s : State) :
    (nvmQuiesce s).pending = s.pending ∧ (nvmQuiesce s).freeCtr = s.freeCtr ∧ (nvmQuiesce s).pend = s.pend ∧ (nvmQuiesce s).tb = s.tb ∧ (nvmQuiesce s).treads = s.treads ∧ (nvmQuiesce s).flights = s.flights ∧ (nvmQuiesce s).halls = s.halls ∧ (nvmQuiesce s).grid = s.grid ∧ (nvmQuiesce s).treadsOld = s.treadsOld ∧ (nvmQuiesce s).therm = s.therm ∧ (nvmQuiesce s).twin = s.twin ∧ (nvmQuiesce s).stair = s.stair ∧ (nvmQuiesce s).streams = s.streams ∧ (nvmQuiesce s).mem = s.mem := by
  unfold nvmQuiesce
  (try dsimp only)
  (repeat' split) <;> simp [apply_ite]

@[simp] theorem leaveBegin_frame (a0 : PowerSeq) (s : State) :
    (leaveBegin a0 s).pending = s.pending := by
  unfold leaveBegin
  (try dsimp only)
  (repeat' split) <;> simp [apply_ite]

@[simp] theorem lastPattern_frame (a0 : Nat) (s : State) :
    (lastPattern a0 s).pending = s.pending ∧ (lastPattern a0 s).reply = s.reply ∧ (lastPattern a0 s).out = s.out ∧ (lastPattern a0 s).freeCtr = s.freeCtr ∧ (lastPattern a0 s).aon = s.aon ∧ (lastPattern a0 s).cfg = s.cfg ∧ (lastPattern a0 s).pend = s.pend ∧ (lastPattern a0 s).tb = s.tb ∧ (lastPattern a0 s).events = s.events ∧ (lastPattern a0 s).host = s.host ∧ (lastPattern a0 s).treads = s.treads ∧ (lastPattern a0 s).flights = s.flights ∧ (lastPattern a0 s).halls = s.halls ∧ (lastPattern a0 s).grid = s.grid ∧ (lastPattern a0 s).atr = s.atr ∧ (lastPattern a0 s).treadsOld = s.treadsOld ∧ (lastPattern a0 s).meas = s.meas ∧ (lastPattern a0 s).safe = s.safe ∧ (lastPattern a0 s).therm = s.therm ∧ (lastPattern a0 s).twin = s.twin ∧ (lastPattern a0 s).stair = s.stair ∧ (lastPattern a0 s).nvm = s.nvm ∧ (lastPattern a0 s).streams = s.streams ∧ (lastPattern a0 s).mem = s.mem := by
  unfold lastPattern
  (try dsimp only)
  (repeat' split) <;> simp [apply_ite]

@[simp] theorem journalled_frame (s : State) :
    (journalled s).pending = s.pending := by
  unfold journalled
  (try dsimp only)
  (repeat' split) <;> simp [apply_ite]

@[simp] theorem lastTrainGone_frame (s : State) :
    (lastTrainGone s).pending = s.pending := by
  unfold lastTrainGone
  (try dsimp only)
  (repeat' split) <;> simp [apply_ite]

theorem execDeliverDeparture_frame (a0 : BitVec 10) (a1 : BitVec 10) (s t : State) (h : execDeliverDeparture a0 a1 s = .next t) :
    t.pending = s.pending := by
  unfold execDeliverDeparture at h; cases h; (try dsimp only); (repeat' split) <;> simp [apply_ite]

@[simp] theorem powerBegin_frame (a0 : List Word) (s : State) :
    (powerBegin a0 s).pending = s.pending := by
  unfold powerBegin
  (try dsimp only)
  (repeat' split) <;> simp [apply_ite]

@[simp] theorem powerSet_frame (a0 : List Word) (s : State) :
    (powerSet a0 s).pending = s.pending := by
  unfold powerSet
  (try dsimp only)
  (repeat' split) <;> simp [apply_ite]

theorem execPowerSet_frame (a0 : List Word) (s t : State) (h : execPowerSet a0 s = .next t) :
    t.pending = s.pending := by
  unfold execPowerSet at h; cases h; (try dsimp only); (repeat' split) <;> simp [apply_ite]

theorem execRetEntryDone_frame (a0 : Fin 32) (s t : State) (h : execRetEntryDone a0 s = .next t) :
    t.pending = s.pending := by
  unfold execRetEntryDone at h; cases h; (try dsimp only); (repeat' split) <;> simp [apply_ite]

theorem execWakeGo_frame (s t : State) (h : execWakeGo s = .next t) :
    t.pending = s.pending ∧ t.reply = s.reply ∧ t.out = s.out ∧ t.freeCtr = s.freeCtr ∧ t.cfg = s.cfg ∧ t.pend = s.pend ∧ t.tb = s.tb ∧ t.events = s.events ∧ t.host = s.host ∧ t.treads = s.treads ∧ t.cells = s.cells ∧ t.flights = s.flights ∧ t.halls = s.halls ∧ t.grid = s.grid ∧ t.atr = s.atr ∧ t.treadsOld = s.treadsOld ∧ t.meas = s.meas ∧ t.safe = s.safe ∧ t.therm = s.therm ∧ t.twin = s.twin ∧ t.stair = s.stair ∧ t.nvm = s.nvm ∧ t.streams = s.streams ∧ t.mem = s.mem := by
  unfold execWakeGo at h; cases h; (try dsimp only); (repeat' split) <;> simp [apply_ite]

@[simp] theorem arriveAt_frame (a0 : Nat) (a1 : Word) (s : State) :
    (arriveAt a0 a1 s).pending = s.pending ∧ (arriveAt a0 a1 s).freeCtr = s.freeCtr ∧ (arriveAt a0 a1 s).mem = s.mem := by
  unfold arriveAt
  (try dsimp only)
  (repeat' split) <;> simp [apply_ite]

@[simp] theorem nextStep_frame (s : State) :
    (nextStep s).pending = s.pending ∧ (nextStep s).pend = s.pend ∧ (nextStep s).tb = s.tb ∧ (nextStep s).treads = s.treads ∧ (nextStep s).flights = s.flights ∧ (nextStep s).grid = s.grid ∧ (nextStep s).treadsOld = s.treadsOld ∧ (nextStep s).therm = s.therm ∧ (nextStep s).twin = s.twin ∧ (nextStep s).stair = s.stair ∧ (nextStep s).streams = s.streams ∧ (nextStep s).mem = s.mem := by
  unfold nextStep
  (try dsimp only)
  (repeat' split) <;> simp [apply_ite]

@[simp] theorem stepEffect_frame (a0 : Nat) (a1 : Word) (a2 : Fin 4) (s : State) :
    (stepEffect a0 a1 a2 s).pending = s.pending ∧ (stepEffect a0 a1 a2 s).freeCtr = s.freeCtr := by
  unfold stepEffect
  (try dsimp only)
  (repeat' split) <;> simp [apply_ite]

@[simp] theorem markFail_frame (a0 : Nat) (s : State) :
    (markFail a0 s).pending = s.pending ∧ (markFail a0 s).reply = s.reply ∧ (markFail a0 s).freeCtr = s.freeCtr ∧ (markFail a0 s).cfg = s.cfg ∧ (markFail a0 s).pend = s.pend ∧ (markFail a0 s).tb = s.tb ∧ (markFail a0 s).treads = s.treads ∧ (markFail a0 s).cells = s.cells ∧ (markFail a0 s).flights = s.flights ∧ (markFail a0 s).halls = s.halls ∧ (markFail a0 s).grid = s.grid ∧ (markFail a0 s).treadsOld = s.treadsOld ∧ (markFail a0 s).meas = s.meas ∧ (markFail a0 s).safe = s.safe ∧ (markFail a0 s).therm = s.therm ∧ (markFail a0 s).twin = s.twin ∧ (markFail a0 s).stair = s.stair ∧ (markFail a0 s).streams = s.streams ∧ (markFail a0 s).mem = s.mem := by
  unfold markFail
  (try dsimp only)
  (repeat' split) <;> simp [apply_ite]

@[simp] theorem allOff_frame (s : State) :
    (allOff s).pending = s.pending ∧ (allOff s).freeCtr = s.freeCtr := by
  unfold allOff
  (try dsimp only)
  (repeat' split) <;> simp [apply_ite]

@[simp] theorem giveBack_frame (a0 : List (Nat × Bool)) (s : State) :
    (giveBack a0 s).pending = s.pending := by
  unfold giveBack; (try dsimp only)
  · repeat' (first | (simp [apply_ite State.pending]; done) | with_reducible refine (each_keep State.pending _ _ _ (fun _ _ => ?_)).trans ?_ | with_reducible refine command_keep State.pending _ _ _ (fun _ => ?_) (fun _ => ?_) | split)

@[simp] theorem failShared_frame (s : State) :
    (failShared s).pending = s.pending := by
  unfold failShared
  (try dsimp only)
  (repeat' split) <;> simp [apply_ite]

@[simp] theorem failDomain_frame (a0 : Nat) (s : State) :
    (failDomain a0 s).pending = s.pending := by
  unfold failDomain
  (try dsimp only)
  (repeat' split) <;> simp [apply_ite]

@[simp] theorem stepFail_frame (s : State) :
    (stepFail s).pending = s.pending := by
  unfold stepFail
  (try dsimp only)
  (repeat' split) <;> simp [apply_ite]

theorem execWakeStepDone_frame (a0 : Word) (a1 : Fin 4) (s t : State) (h : execWakeStepDone a0 a1 s = .next t) :
    t.pending = s.pending := by
  unfold execWakeStepDone at h; cases h; (try dsimp only); (repeat' split) <;> simp [apply_ite]

theorem execWakeStepFail_frame (s t : State) (h : execWakeStepFail s = .next t) :
    t.pending = s.pending := by
  unfold execWakeStepFail at h; cases h; (try dsimp only); (repeat' split) <;> simp [apply_ite]

theorem execPowerGet_frame (a0 : List Word) (s t : State) (h : execPowerGet a0 s = .next t) :
    t.pending = s.pending ∧ t.out = s.out ∧ t.freeCtr = s.freeCtr ∧ t.aon = s.aon ∧ t.cfg = s.cfg ∧ t.pend = s.pend ∧ t.tb = s.tb ∧ t.events = s.events ∧ t.host = s.host ∧ t.treads = s.treads ∧ t.cells = s.cells ∧ t.flights = s.flights ∧ t.halls = s.halls ∧ t.grid = s.grid ∧ t.atr = s.atr ∧ t.treadsOld = s.treadsOld ∧ t.meas = s.meas ∧ t.safe = s.safe ∧ t.therm = s.therm ∧ t.twin = s.twin ∧ t.stair = s.stair ∧ t.nvm = s.nvm ∧ t.streams = s.streams ∧ t.mem = s.mem := by
  unfold execPowerGet at h; cases h; (try dsimp only); (repeat' split) <;> simp [apply_ite]

@[simp] theorem vcoreSet_frame (a0 : Word) (s : State) :
    (vcoreSet a0 s).pending = s.pending ∧ (vcoreSet a0 s).reply = s.reply ∧ (vcoreSet a0 s).out = s.out ∧ (vcoreSet a0 s).freeCtr = s.freeCtr ∧ (vcoreSet a0 s).cfg = s.cfg ∧ (vcoreSet a0 s).pend = s.pend ∧ (vcoreSet a0 s).tb = s.tb ∧ (vcoreSet a0 s).events = s.events ∧ (vcoreSet a0 s).host = s.host ∧ (vcoreSet a0 s).treads = s.treads ∧ (vcoreSet a0 s).cells = s.cells ∧ (vcoreSet a0 s).flights = s.flights ∧ (vcoreSet a0 s).halls = s.halls ∧ (vcoreSet a0 s).grid = s.grid ∧ (vcoreSet a0 s).atr = s.atr ∧ (vcoreSet a0 s).treadsOld = s.treadsOld ∧ (vcoreSet a0 s).meas = s.meas ∧ (vcoreSet a0 s).safe = s.safe ∧ (vcoreSet a0 s).therm = s.therm ∧ (vcoreSet a0 s).twin = s.twin ∧ (vcoreSet a0 s).stair = s.stair ∧ (vcoreSet a0 s).nvm = s.nvm ∧ (vcoreSet a0 s).streams = s.streams ∧ (vcoreSet a0 s).mem = s.mem := by
  unfold vcoreSet
  (try dsimp only)
  (repeat' split) <;> simp [apply_ite]

@[simp] theorem vcoreNow_frame (s : State) :
    (vcoreNow s).pending = s.pending ∧ (vcoreNow s).reply = s.reply ∧ (vcoreNow s).out = s.out ∧ (vcoreNow s).cfg = s.cfg ∧ (vcoreNow s).pend = s.pend ∧ (vcoreNow s).tb = s.tb ∧ (vcoreNow s).events = s.events ∧ (vcoreNow s).host = s.host ∧ (vcoreNow s).treads = s.treads ∧ (vcoreNow s).cells = s.cells ∧ (vcoreNow s).flights = s.flights ∧ (vcoreNow s).halls = s.halls ∧ (vcoreNow s).grid = s.grid ∧ (vcoreNow s).atr = s.atr ∧ (vcoreNow s).treadsOld = s.treadsOld ∧ (vcoreNow s).meas = s.meas ∧ (vcoreNow s).safe = s.safe ∧ (vcoreNow s).therm = s.therm ∧ (vcoreNow s).twin = s.twin ∧ (vcoreNow s).stair = s.stair ∧ (vcoreNow s).nvm = s.nvm ∧ (vcoreNow s).streams = s.streams ∧ (vcoreNow s).mem = s.mem := by
  unfold vcoreNow
  (try dsimp only)
  (repeat' split) <;> simp [apply_ite]

theorem execVcoreSet_frame (a0 : List Word) (s t : State) (h : execVcoreSet a0 s = .next t) :
    t.pending = s.pending ∧ t.out = s.out ∧ t.cfg = s.cfg ∧ t.pend = s.pend ∧ t.tb = s.tb ∧ t.events = s.events ∧ t.host = s.host ∧ t.treads = s.treads ∧ t.cells = s.cells ∧ t.flights = s.flights ∧ t.halls = s.halls ∧ t.grid = s.grid ∧ t.atr = s.atr ∧ t.treadsOld = s.treadsOld ∧ t.meas = s.meas ∧ t.safe = s.safe ∧ t.therm = s.therm ∧ t.twin = s.twin ∧ t.stair = s.stair ∧ t.nvm = s.nvm ∧ t.streams = s.streams ∧ t.mem = s.mem := by
  unfold execVcoreSet at h; cases h
  refine ⟨?_, ?_, ?_, ?_, ?_, ?_, ?_, ?_, ?_, ?_, ?_, ?_, ?_, ?_, ?_, ?_, ?_, ?_, ?_, ?_, ?_, ?_⟩
  · refine command_pending _ _ _ fun s => ?_
    (try dsimp only); (repeat' split) <;> simp
  · refine command_out _ _ _ fun s => ?_
    (try dsimp only); (repeat' split) <;> simp
  · refine command_cfg _ _ _ fun s => ?_
    (try dsimp only); (repeat' split) <;> simp
  · refine command_pend _ _ _ fun s => ?_
    (try dsimp only); (repeat' split) <;> simp
  · refine command_tb _ _ _ fun s => ?_
    (try dsimp only); (repeat' split) <;> simp
  · refine command_events _ _ _ fun s => ?_
    (try dsimp only); (repeat' split) <;> simp
  · refine command_host _ _ _ fun s => ?_
    (try dsimp only); (repeat' split) <;> simp
  · refine command_treads _ _ _ fun s => ?_
    (try dsimp only); (repeat' split) <;> simp
  · refine command_cells _ _ _ fun s => ?_
    (try dsimp only); (repeat' split) <;> simp
  · refine command_flights _ _ _ fun s => ?_
    (try dsimp only); (repeat' split) <;> simp
  · refine command_halls _ _ _ fun s => ?_
    (try dsimp only); (repeat' split) <;> simp
  · refine command_grid _ _ _ fun s => ?_
    (try dsimp only); (repeat' split) <;> simp
  · refine command_atr _ _ _ fun s => ?_
    (try dsimp only); (repeat' split) <;> simp
  · refine command_treadsOld _ _ _ fun s => ?_
    (try dsimp only); (repeat' split) <;> simp
  · refine command_meas _ _ _ fun s => ?_
    (try dsimp only); (repeat' split) <;> simp
  · refine command_safe _ _ _ fun s => ?_
    (try dsimp only); (repeat' split) <;> simp
  · refine command_therm _ _ _ fun s => ?_
    (try dsimp only); (repeat' split) <;> simp
  · refine command_twin _ _ _ fun s => ?_
    (try dsimp only); (repeat' split) <;> simp
  · refine command_stair _ _ _ fun s => ?_
    (try dsimp only); (repeat' split) <;> simp
  · refine command_nvm _ _ _ fun s => ?_
    (try dsimp only); (repeat' split) <;> simp
  · refine command_streams _ _ _ fun s => ?_
    (try dsimp only); (repeat' split) <;> simp
  · refine command_mem _ _ _ fun s => ?_
    (try dsimp only); (repeat' split) <;> simp

theorem execVcoreSettled_frame (a0 : Nat) (s t : State) (h : execVcoreSettled a0 s = .next t) :
    t.pending = s.pending ∧ t.freeCtr = s.freeCtr ∧ t.cfg = s.cfg ∧ t.pend = s.pend ∧ t.tb = s.tb ∧ t.events = s.events ∧ t.treads = s.treads ∧ t.cells = s.cells ∧ t.flights = s.flights ∧ t.halls = s.halls ∧ t.grid = s.grid ∧ t.atr = s.atr ∧ t.treadsOld = s.treadsOld ∧ t.meas = s.meas ∧ t.safe = s.safe ∧ t.therm = s.therm ∧ t.twin = s.twin ∧ t.stair = s.stair ∧ t.nvm = s.nvm ∧ t.streams = s.streams ∧ t.mem = s.mem := by
  unfold execVcoreSettled at h; cases h; (try dsimp only); (repeat' split) <;> simp [apply_ite]

@[simp] theorem resetDomain_frame (a0 : Nat) (s : State) :
    (resetDomain a0 s).pending = s.pending ∧ (resetDomain a0 s).freeCtr = s.freeCtr ∧ (resetDomain a0 s).mem = s.mem := by
  unfold resetDomain
  (try dsimp only)
  (repeat' split) <;> simp [apply_ite]

theorem execDomainReset_frame (a0 : List Word) (s t : State) (h : execDomainReset a0 s = .next t) :
    t.pending = s.pending ∧ t.freeCtr = s.freeCtr ∧ t.mem = s.mem := by
  unfold execDomainReset at h; cases h
  refine ⟨?_, ?_, ?_⟩
  · repeat' (first | (simp [apply_ite State.pending]; done) | with_reducible refine (each_keep State.pending _ _ _ (fun _ _ => ?_)).trans ?_ | with_reducible refine command_keep State.pending _ _ _ (fun _ => ?_) (fun _ => ?_) | split)
  · repeat' (first | (simp [apply_ite State.freeCtr]; done) | with_reducible refine (each_keep State.freeCtr _ _ _ (fun _ _ => ?_)).trans ?_ | with_reducible refine command_keep State.freeCtr _ _ _ (fun _ => ?_) (fun _ => ?_) | split)
  · repeat' (first | (simp [apply_ite State.mem]; done) | with_reducible refine (each_keep State.mem _ _ _ (fun _ _ => ?_)).trans ?_ | with_reducible refine command_keep State.mem _ _ _ (fun _ => ?_) (fun _ => ?_) | split)

@[simp] theorem porState_frame (s : State) :
    (porState s).pending = s.pending ∧ (porState s).out = s.out ∧ (porState s).freeCtr = s.freeCtr := by
  unfold porState
  (try dsimp only)
  (repeat' split) <;> simp [apply_ite]

theorem execPowerOnReset_frame (s t : State) (h : execPowerOnReset s = .next t) :
    t.pending = s.pending ∧ t.out = s.out ∧ t.freeCtr = s.freeCtr := by
  unfold execPowerOnReset at h; cases h; (try dsimp only); (repeat' split) <;> simp [apply_ite]

@[simp] theorem sampleStraps_frame (a0 : StrapLevels) (s : State) :
    (sampleStraps a0 s).pending = s.pending ∧ (sampleStraps a0 s).reply = s.reply ∧ (sampleStraps a0 s).out = s.out ∧ (sampleStraps a0 s).cfg = s.cfg ∧ (sampleStraps a0 s).pend = s.pend ∧ (sampleStraps a0 s).tb = s.tb ∧ (sampleStraps a0 s).events = s.events ∧ (sampleStraps a0 s).host = s.host ∧ (sampleStraps a0 s).treads = s.treads ∧ (sampleStraps a0 s).cells = s.cells ∧ (sampleStraps a0 s).flights = s.flights ∧ (sampleStraps a0 s).halls = s.halls ∧ (sampleStraps a0 s).grid = s.grid ∧ (sampleStraps a0 s).atr = s.atr ∧ (sampleStraps a0 s).treadsOld = s.treadsOld ∧ (sampleStraps a0 s).meas = s.meas ∧ (sampleStraps a0 s).safe = s.safe ∧ (sampleStraps a0 s).therm = s.therm ∧ (sampleStraps a0 s).twin = s.twin ∧ (sampleStraps a0 s).stair = s.stair ∧ (sampleStraps a0 s).nvm = s.nvm ∧ (sampleStraps a0 s).streams = s.streams ∧ (sampleStraps a0 s).mem = s.mem := by
  unfold sampleStraps
  (try dsimp only)
  (repeat' split) <;> simp [apply_ite]

theorem execPorRelease_frame (a0 : StrapLevels) (s t : State) (h : execPorRelease a0 s = .next t) :
    t.pending = s.pending ∧ t.reply = s.reply ∧ t.out = s.out ∧ t.cfg = s.cfg ∧ t.pend = s.pend ∧ t.tb = s.tb ∧ t.events = s.events ∧ t.host = s.host ∧ t.treads = s.treads ∧ t.cells = s.cells ∧ t.flights = s.flights ∧ t.halls = s.halls ∧ t.grid = s.grid ∧ t.atr = s.atr ∧ t.treadsOld = s.treadsOld ∧ t.meas = s.meas ∧ t.safe = s.safe ∧ t.therm = s.therm ∧ t.twin = s.twin ∧ t.stair = s.stair ∧ t.nvm = s.nvm ∧ t.streams = s.streams ∧ t.mem = s.mem := by
  unfold execPorRelease at h; cases h; (try dsimp only); (repeat' split) <;> simp [apply_ite]

@[simp] theorem dropAnswers_frame (s : State) :
    (dropAnswers s).pending = s.pending ∧ (dropAnswers s).reply = s.reply ∧ (dropAnswers s).out = s.out ∧ (dropAnswers s).freeCtr = s.freeCtr ∧ (dropAnswers s).aon = s.aon ∧ (dropAnswers s).cfg = s.cfg ∧ (dropAnswers s).pend = s.pend ∧ (dropAnswers s).tb = s.tb ∧ (dropAnswers s).events = s.events ∧ (dropAnswers s).host = s.host ∧ (dropAnswers s).treads = s.treads ∧ (dropAnswers s).cells = s.cells ∧ (dropAnswers s).flights = s.flights ∧ (dropAnswers s).halls = s.halls ∧ (dropAnswers s).grid = s.grid ∧ (dropAnswers s).atr = s.atr ∧ (dropAnswers s).treadsOld = s.treadsOld ∧ (dropAnswers s).meas = s.meas ∧ (dropAnswers s).safe = s.safe ∧ (dropAnswers s).therm = s.therm ∧ (dropAnswers s).twin = s.twin ∧ (dropAnswers s).stair = s.stair ∧ (dropAnswers s).streams = s.streams ∧ (dropAnswers s).mem = s.mem := by
  unfold dropAnswers
  (try dsimp only)
  (repeat' split) <;> simp [apply_ite]

@[simp] theorem resetAll_frame (s : State) :
    (resetAll s).pending = s.pending ∧ (resetAll s).freeCtr = s.freeCtr := by
  unfold resetAll
  (try dsimp only)
  (repeat' split) <;> simp [apply_ite]

theorem execResetnAssert_frame (s t : State) (h : execResetnAssert s = .next t) :
    t.pending = s.pending ∧ t.freeCtr = s.freeCtr := by
  unfold execResetnAssert at h; cases h; (try dsimp only); (repeat' split) <;> simp [apply_ite]

theorem execResetnRelease_frame (a0 : StrapLevels) (a1 : Nat) (s t : State) (h : execResetnRelease a0 a1 s = .next t) :
    t.pending = s.pending ∧ t.reply = s.reply ∧ t.cfg = s.cfg ∧ t.pend = s.pend ∧ t.tb = s.tb ∧ t.treads = s.treads ∧ t.cells = s.cells ∧ t.flights = s.flights ∧ t.halls = s.halls ∧ t.grid = s.grid ∧ t.treadsOld = s.treadsOld ∧ t.meas = s.meas ∧ t.safe = s.safe ∧ t.therm = s.therm ∧ t.twin = s.twin ∧ t.stair = s.stair ∧ t.streams = s.streams ∧ t.mem = s.mem := by
  unfold execResetnRelease at h; cases h; (try dsimp only); (repeat' split) <;> simp [apply_ite]

theorem execRcOscillatorRuns_frame (s t : State) (h : execRcOscillatorRuns s = .next t) :
    t.pending = s.pending ∧ t.reply = s.reply ∧ t.out = s.out ∧ t.freeCtr = s.freeCtr ∧ t.cfg = s.cfg ∧ t.pend = s.pend ∧ t.tb = s.tb ∧ t.events = s.events ∧ t.host = s.host ∧ t.treads = s.treads ∧ t.cells = s.cells ∧ t.flights = s.flights ∧ t.halls = s.halls ∧ t.grid = s.grid ∧ t.atr = s.atr ∧ t.treadsOld = s.treadsOld ∧ t.meas = s.meas ∧ t.safe = s.safe ∧ t.therm = s.therm ∧ t.twin = s.twin ∧ t.stair = s.stair ∧ t.nvm = s.nvm ∧ t.streams = s.streams ∧ t.mem = s.mem := by
  unfold execRcOscillatorRuns at h; cases h; (try dsimp only); (repeat' split) <;> simp [apply_ite]

@[simp] theorem markSupply_frame (a0 : Supply) (a1 : Nat) (a2 : Bool) (s : State) :
    (markSupply a0 a1 a2 s).pending = s.pending ∧ (markSupply a0 a1 a2 s).reply = s.reply ∧ (markSupply a0 a1 a2 s).out = s.out ∧ (markSupply a0 a1 a2 s).freeCtr = s.freeCtr ∧ (markSupply a0 a1 a2 s).cfg = s.cfg ∧ (markSupply a0 a1 a2 s).pend = s.pend ∧ (markSupply a0 a1 a2 s).tb = s.tb ∧ (markSupply a0 a1 a2 s).events = s.events ∧ (markSupply a0 a1 a2 s).host = s.host ∧ (markSupply a0 a1 a2 s).treads = s.treads ∧ (markSupply a0 a1 a2 s).cells = s.cells ∧ (markSupply a0 a1 a2 s).flights = s.flights ∧ (markSupply a0 a1 a2 s).halls = s.halls ∧ (markSupply a0 a1 a2 s).grid = s.grid ∧ (markSupply a0 a1 a2 s).atr = s.atr ∧ (markSupply a0 a1 a2 s).treadsOld = s.treadsOld ∧ (markSupply a0 a1 a2 s).meas = s.meas ∧ (markSupply a0 a1 a2 s).safe = s.safe ∧ (markSupply a0 a1 a2 s).therm = s.therm ∧ (markSupply a0 a1 a2 s).twin = s.twin ∧ (markSupply a0 a1 a2 s).stair = s.stair ∧ (markSupply a0 a1 a2 s).nvm = s.nvm ∧ (markSupply a0 a1 a2 s).streams = s.streams ∧ (markSupply a0 a1 a2 s).mem = s.mem := by
  unfold markSupply
  (try dsimp only)
  (repeat' split) <;> simp [apply_ite]

@[simp] theorem supplyEvent_frame (a0 : Supply) (a1 : Nat) (s : State) :
    (supplyEvent a0 a1 s).pending = s.pending ∧ (supplyEvent a0 a1 s).reply = s.reply ∧ (supplyEvent a0 a1 s).freeCtr = s.freeCtr ∧ (supplyEvent a0 a1 s).cfg = s.cfg ∧ (supplyEvent a0 a1 s).pend = s.pend ∧ (supplyEvent a0 a1 s).tb = s.tb ∧ (supplyEvent a0 a1 s).treads = s.treads ∧ (supplyEvent a0 a1 s).cells = s.cells ∧ (supplyEvent a0 a1 s).flights = s.flights ∧ (supplyEvent a0 a1 s).halls = s.halls ∧ (supplyEvent a0 a1 s).grid = s.grid ∧ (supplyEvent a0 a1 s).treadsOld = s.treadsOld ∧ (supplyEvent a0 a1 s).meas = s.meas ∧ (supplyEvent a0 a1 s).safe = s.safe ∧ (supplyEvent a0 a1 s).therm = s.therm ∧ (supplyEvent a0 a1 s).twin = s.twin ∧ (supplyEvent a0 a1 s).stair = s.stair ∧ (supplyEvent a0 a1 s).nvm = s.nvm ∧ (supplyEvent a0 a1 s).streams = s.streams ∧ (supplyEvent a0 a1 s).mem = s.mem := by
  unfold supplyEvent
  (try dsimp only)
  (repeat' split) <;> simp [apply_ite]

@[simp] theorem limitNow_frame (a0 : Supply) (s : State) :
    (limitNow a0 s).pending = s.pending ∧ (limitNow a0 s).reply = s.reply ∧ (limitNow a0 s).out = s.out ∧ (limitNow a0 s).cfg = s.cfg ∧ (limitNow a0 s).pend = s.pend ∧ (limitNow a0 s).tb = s.tb ∧ (limitNow a0 s).events = s.events ∧ (limitNow a0 s).host = s.host ∧ (limitNow a0 s).treads = s.treads ∧ (limitNow a0 s).cells = s.cells ∧ (limitNow a0 s).flights = s.flights ∧ (limitNow a0 s).halls = s.halls ∧ (limitNow a0 s).grid = s.grid ∧ (limitNow a0 s).atr = s.atr ∧ (limitNow a0 s).treadsOld = s.treadsOld ∧ (limitNow a0 s).meas = s.meas ∧ (limitNow a0 s).safe = s.safe ∧ (limitNow a0 s).therm = s.therm ∧ (limitNow a0 s).twin = s.twin ∧ (limitNow a0 s).stair = s.stair ∧ (limitNow a0 s).nvm = s.nvm ∧ (limitNow a0 s).streams = s.streams ∧ (limitNow a0 s).mem = s.mem := by
  unfold limitNow
  (try dsimp only)
  (repeat' split) <;> simp [apply_ite]

@[simp] theorem dropRet_frame (s : State) :
    (dropRet s).pending = s.pending := by
  unfold dropRet
  (try dsimp only)
  (repeat' split) <;> simp [apply_ite]

theorem execSupplyFault_frame (a0 : Supply) (a1 : Nat) (s t : State) (h : execSupplyFault a0 a1 s = .next t) :
    t.pending = s.pending := by
  unfold execSupplyFault at h; cases h; (try dsimp only); (repeat' split) <;> simp [apply_ite]

theorem execSupplyFaultClear_frame (a0 : Supply) (a1 : Nat) (s t : State) (h : execSupplyFaultClear a0 a1 s = .next t) :
    t.pending = s.pending ∧ t.reply = s.reply ∧ t.out = s.out ∧ t.freeCtr = s.freeCtr ∧ t.cfg = s.cfg ∧ t.pend = s.pend ∧ t.tb = s.tb ∧ t.events = s.events ∧ t.host = s.host ∧ t.treads = s.treads ∧ t.cells = s.cells ∧ t.flights = s.flights ∧ t.halls = s.halls ∧ t.grid = s.grid ∧ t.atr = s.atr ∧ t.treadsOld = s.treadsOld ∧ t.meas = s.meas ∧ t.safe = s.safe ∧ t.therm = s.therm ∧ t.twin = s.twin ∧ t.stair = s.stair ∧ t.streams = s.streams ∧ t.mem = s.mem := by
  unfold execSupplyFaultClear at h; cases h; (try dsimp only); (repeat' split) <;> simp [apply_ite]

theorem execDebugHalt_frame (s t : State) (h : execDebugHalt s = .next t) :
    t.pending = s.pending ∧ t.reply = s.reply ∧ t.freeCtr = s.freeCtr ∧ t.cfg = s.cfg ∧ t.pend = s.pend ∧ t.tb = s.tb ∧ t.treads = s.treads ∧ t.flights = s.flights ∧ t.halls = s.halls ∧ t.grid = s.grid ∧ t.treadsOld = s.treadsOld ∧ t.meas = s.meas ∧ t.therm = s.therm ∧ t.twin = s.twin ∧ t.stair = s.stair ∧ t.streams = s.streams ∧ t.mem = s.mem := by
  unfold execDebugHalt at h; cases h; (try dsimp only); (repeat' split) <;> simp [apply_ite]

theorem execHaltRelease_frame (s t : State) (h : execHaltRelease s = .next t) :
    t.pending = s.pending ∧ t.reply = s.reply ∧ t.out = s.out ∧ t.freeCtr = s.freeCtr ∧ t.aon = s.aon ∧ t.cfg = s.cfg ∧ t.pend = s.pend ∧ t.tb = s.tb ∧ t.events = s.events ∧ t.host = s.host ∧ t.treads = s.treads ∧ t.cells = s.cells ∧ t.flights = s.flights ∧ t.halls = s.halls ∧ t.grid = s.grid ∧ t.treadsOld = s.treadsOld ∧ t.meas = s.meas ∧ t.safe = s.safe ∧ t.therm = s.therm ∧ t.twin = s.twin ∧ t.stair = s.stair ∧ t.nvm = s.nvm ∧ t.streams = s.streams ∧ t.mem = s.mem := by
  unfold execHaltRelease at h; cases h; (try dsimp only); (repeat' split) <;> simp [apply_ite]

theorem execHkRound_frame (a0 : Vector PinInput 4) (a1 : Rails) (a2 : Nat) (s t : State) (h : execHkRound a0 a1 a2 s = .next t) :
    t.pending = s.pending ∧ t.reply = s.reply ∧ t.freeCtr = s.freeCtr ∧ t.cfg = s.cfg ∧ t.pend = s.pend ∧ t.treads = s.treads ∧ t.flights = s.flights ∧ t.halls = s.halls ∧ t.grid = s.grid ∧ t.treadsOld = s.treadsOld ∧ t.meas = s.meas ∧ t.safe = s.safe ∧ t.twin = s.twin ∧ t.stair = s.stair ∧ t.nvm = s.nvm ∧ t.streams = s.streams ∧ t.mem = s.mem := by
  unfold execHkRound at h; cases h; (try dsimp only); (repeat' split) <;> simp [apply_ite]

@[simp] theorem dieShutdown_frame (a0 : Nat) (s : State) :
    (dieShutdown a0 s).pending = s.pending := by
  unfold dieShutdown
  (try dsimp only)
  (repeat' split) <;> simp [apply_ite]

theorem execDieShutdownCompare_frame (a0 : Fin 4) (a1 : Reading) (s t : State) (h : execDieShutdownCompare a0 a1 s = .next t) :
    t.pending = s.pending := by
  unfold execDieShutdownCompare at h; cases h; (try dsimp only); (repeat' split) <;> simp [apply_ite]

theorem execNvmProgramDone_frame (a0 : Bool) (s t : State) (h : execNvmProgramDone a0 s = .next t) :
    t.pending = s.pending := by
  unfold execNvmProgramDone at h; cases h; (try dsimp only); (repeat' split) <;> simp [apply_ite]

@[simp] theorem contain_frame (a0 : EccOwner) (s : State) :
    (contain a0 s).pending = s.pending ∧ (contain a0 s).reply = s.reply ∧ (contain a0 s).freeCtr = s.freeCtr ∧ (contain a0 s).cfg = s.cfg ∧ (contain a0 s).pend = s.pend ∧ (contain a0 s).tb = s.tb ∧ (contain a0 s).treads = s.treads ∧ (contain a0 s).grid = s.grid ∧ (contain a0 s).treadsOld = s.treadsOld ∧ (contain a0 s).meas = s.meas ∧ (contain a0 s).therm = s.therm ∧ (contain a0 s).stair = s.stair := by
  unfold contain
  (try dsimp only)
  (repeat' split) <;> simp [apply_ite]

theorem execGalleryScrub_frame (a0 : Fin 16) (a1 : EccKind) (a2 : EccOwner) (s t : State) (h : execGalleryScrub a0 a1 a2 s = .next t) :
    t.pending = s.pending ∧ t.reply = s.reply ∧ t.freeCtr = s.freeCtr ∧ t.cfg = s.cfg ∧ t.pend = s.pend ∧ t.tb = s.tb ∧ t.treads = s.treads ∧ t.grid = s.grid ∧ t.treadsOld = s.treadsOld ∧ t.meas = s.meas ∧ t.therm = s.therm ∧ t.stair = s.stair := by
  unfold execGalleryScrub at h; cases h; (try dsimp only); (repeat' split) <;> simp [apply_ite]

@[simp] theorem setStair_frame (a0 : Stair → Stair) (s : State) :
    (setStair a0 s).pending = s.pending ∧ (setStair a0 s).reply = s.reply ∧ (setStair a0 s).out = s.out ∧ (setStair a0 s).freeCtr = s.freeCtr ∧ (setStair a0 s).aon = s.aon ∧ (setStair a0 s).cfg = s.cfg ∧ (setStair a0 s).pend = s.pend ∧ (setStair a0 s).tb = s.tb ∧ (setStair a0 s).events = s.events ∧ (setStair a0 s).host = s.host ∧ (setStair a0 s).treads = s.treads ∧ (setStair a0 s).cells = s.cells ∧ (setStair a0 s).flights = s.flights ∧ (setStair a0 s).halls = s.halls ∧ (setStair a0 s).grid = s.grid ∧ (setStair a0 s).atr = s.atr ∧ (setStair a0 s).treadsOld = s.treadsOld ∧ (setStair a0 s).meas = s.meas ∧ (setStair a0 s).safe = s.safe ∧ (setStair a0 s).therm = s.therm ∧ (setStair a0 s).twin = s.twin ∧ (setStair a0 s).nvm = s.nvm ∧ (setStair a0 s).streams = s.streams ∧ (setStair a0 s).mem = s.mem := by
  unfold setStair
  (try dsimp only)
  (repeat' split) <;> simp [apply_ite]

@[simp] theorem posFault_frame (s : State) :
    (posFault s).pending = s.pending ∧ (posFault s).reply = s.reply ∧ (posFault s).freeCtr = s.freeCtr ∧ (posFault s).cfg = s.cfg ∧ (posFault s).pend = s.pend ∧ (posFault s).tb = s.tb ∧ (posFault s).treads = s.treads ∧ (posFault s).cells = s.cells ∧ (posFault s).flights = s.flights ∧ (posFault s).halls = s.halls ∧ (posFault s).grid = s.grid ∧ (posFault s).treadsOld = s.treadsOld ∧ (posFault s).meas = s.meas ∧ (posFault s).safe = s.safe ∧ (posFault s).therm = s.therm ∧ (posFault s).twin = s.twin ∧ (posFault s).nvm = s.nvm ∧ (posFault s).streams = s.streams ∧ (posFault s).mem = s.mem := by
  unfold posFault
  (try dsimp only)
  (repeat' split) <;> simp [apply_ite]

@[simp] theorem samePosition_frame (a0 : StairHdr) (s : State) :
    (samePosition a0 s).pending = s.pending ∧ (samePosition a0 s).reply = s.reply ∧ (samePosition a0 s).freeCtr = s.freeCtr ∧ (samePosition a0 s).cfg = s.cfg ∧ (samePosition a0 s).pend = s.pend ∧ (samePosition a0 s).tb = s.tb ∧ (samePosition a0 s).treads = s.treads ∧ (samePosition a0 s).cells = s.cells ∧ (samePosition a0 s).flights = s.flights ∧ (samePosition a0 s).halls = s.halls ∧ (samePosition a0 s).grid = s.grid ∧ (samePosition a0 s).treadsOld = s.treadsOld ∧ (samePosition a0 s).meas = s.meas ∧ (samePosition a0 s).safe = s.safe ∧ (samePosition a0 s).therm = s.therm ∧ (samePosition a0 s).twin = s.twin ∧ (samePosition a0 s).nvm = s.nvm ∧ (samePosition a0 s).streams = s.streams ∧ (samePosition a0 s).mem = s.mem := by
  unfold samePosition
  (try dsimp only)
  (repeat' split) <;> simp [apply_ite]

@[simp] theorem stairRelay_frame (a0 : StairHdr) (a1 : Byte) (a2 : List Byte) (s : State) :
    (stairRelay a0 a1 a2 s).pending = s.pending ∧ (stairRelay a0 a1 a2 s).reply = s.reply ∧ (stairRelay a0 a1 a2 s).freeCtr = s.freeCtr ∧ (stairRelay a0 a1 a2 s).aon = s.aon ∧ (stairRelay a0 a1 a2 s).cfg = s.cfg ∧ (stairRelay a0 a1 a2 s).pend = s.pend ∧ (stairRelay a0 a1 a2 s).tb = s.tb ∧ (stairRelay a0 a1 a2 s).events = s.events ∧ (stairRelay a0 a1 a2 s).host = s.host ∧ (stairRelay a0 a1 a2 s).treads = s.treads ∧ (stairRelay a0 a1 a2 s).cells = s.cells ∧ (stairRelay a0 a1 a2 s).flights = s.flights ∧ (stairRelay a0 a1 a2 s).halls = s.halls ∧ (stairRelay a0 a1 a2 s).grid = s.grid ∧ (stairRelay a0 a1 a2 s).atr = s.atr ∧ (stairRelay a0 a1 a2 s).treadsOld = s.treadsOld ∧ (stairRelay a0 a1 a2 s).meas = s.meas ∧ (stairRelay a0 a1 a2 s).safe = s.safe ∧ (stairRelay a0 a1 a2 s).therm = s.therm ∧ (stairRelay a0 a1 a2 s).twin = s.twin ∧ (stairRelay a0 a1 a2 s).stair = s.stair ∧ (stairRelay a0 a1 a2 s).nvm = s.nvm ∧ (stairRelay a0 a1 a2 s).streams = s.streams ∧ (stairRelay a0 a1 a2 s).mem = s.mem := by
  unfold stairRelay
  (try dsimp only)
  (repeat' split) <;> simp [apply_ite]

@[simp] theorem stairToActive_frame (a0 : StairHdr) (a1 : Byte) (a2 : List Byte) (s : State) :
    (stairToActive a0 a1 a2 s).pending = s.pending ∧ (stairToActive a0 a1 a2 s).reply = s.reply ∧ (stairToActive a0 a1 a2 s).freeCtr = s.freeCtr ∧ (stairToActive a0 a1 a2 s).aon = s.aon ∧ (stairToActive a0 a1 a2 s).cfg = s.cfg ∧ (stairToActive a0 a1 a2 s).pend = s.pend ∧ (stairToActive a0 a1 a2 s).tb = s.tb ∧ (stairToActive a0 a1 a2 s).events = s.events ∧ (stairToActive a0 a1 a2 s).host = s.host ∧ (stairToActive a0 a1 a2 s).treads = s.treads ∧ (stairToActive a0 a1 a2 s).cells = s.cells ∧ (stairToActive a0 a1 a2 s).flights = s.flights ∧ (stairToActive a0 a1 a2 s).halls = s.halls ∧ (stairToActive a0 a1 a2 s).grid = s.grid ∧ (stairToActive a0 a1 a2 s).atr = s.atr ∧ (stairToActive a0 a1 a2 s).treadsOld = s.treadsOld ∧ (stairToActive a0 a1 a2 s).meas = s.meas ∧ (stairToActive a0 a1 a2 s).safe = s.safe ∧ (stairToActive a0 a1 a2 s).therm = s.therm ∧ (stairToActive a0 a1 a2 s).twin = s.twin ∧ (stairToActive a0 a1 a2 s).stair = s.stair ∧ (stairToActive a0 a1 a2 s).nvm = s.nvm ∧ (stairToActive a0 a1 a2 s).streams = s.streams ∧ (stairToActive a0 a1 a2 s).mem = s.mem := by
  unfold stairToActive
  (try dsimp only)
  (repeat' split) <;> simp [apply_ite]

@[simp] theorem stairTake_pending (h : StairHdr) (type : Byte) (payload : List Byte) (pass : Bool)
    (act : State → State) (s : State) (k : ∀ s, (act s).pending = s.pending) : (stairTake h type payload pass act s).pending = s.pending := by
  unfold stairTake; dsimp only; (repeat' split) <;> simp [k]

@[simp] theorem stairTake_reply (h : StairHdr) (type : Byte) (payload : List Byte) (pass : Bool)
    (act : State → State) (s : State) (k : ∀ s, (act s).reply = s.reply) : (stairTake h type payload pass act s).reply = s.reply := by
  unfold stairTake; dsimp only; (repeat' split) <;> simp [k]

@[simp] theorem stairTake_freeCtr (h : StairHdr) (type : Byte) (payload : List Byte) (pass : Bool)
    (act : State → State) (s : State) (k : ∀ s, (act s).freeCtr = s.freeCtr) : (stairTake h type payload pass act s).freeCtr = s.freeCtr := by
  unfold stairTake; dsimp only; (repeat' split) <;> simp [k]

@[simp] theorem stairTake_cfg (h : StairHdr) (type : Byte) (payload : List Byte) (pass : Bool)
    (act : State → State) (s : State) (k : ∀ s, (act s).cfg = s.cfg) : (stairTake h type payload pass act s).cfg = s.cfg := by
  unfold stairTake; dsimp only; (repeat' split) <;> simp [k]

@[simp] theorem stairTake_pend (h : StairHdr) (type : Byte) (payload : List Byte) (pass : Bool)
    (act : State → State) (s : State) (k : ∀ s, (act s).pend = s.pend) : (stairTake h type payload pass act s).pend = s.pend := by
  unfold stairTake; dsimp only; (repeat' split) <;> simp [k]

@[simp] theorem stairTake_tb (h : StairHdr) (type : Byte) (payload : List Byte) (pass : Bool)
    (act : State → State) (s : State) (k : ∀ s, (act s).tb = s.tb) : (stairTake h type payload pass act s).tb = s.tb := by
  unfold stairTake; dsimp only; (repeat' split) <;> simp [k]

@[simp] theorem stairTake_treads (h : StairHdr) (type : Byte) (payload : List Byte) (pass : Bool)
    (act : State → State) (s : State) (k : ∀ s, (act s).treads = s.treads) : (stairTake h type payload pass act s).treads = s.treads := by
  unfold stairTake; dsimp only; (repeat' split) <;> simp [k]

@[simp] theorem stairTake_cells (h : StairHdr) (type : Byte) (payload : List Byte) (pass : Bool)
    (act : State → State) (s : State) (k : ∀ s, (act s).cells = s.cells) : (stairTake h type payload pass act s).cells = s.cells := by
  unfold stairTake; dsimp only; (repeat' split) <;> simp [k]

@[simp] theorem stairTake_flights (h : StairHdr) (type : Byte) (payload : List Byte) (pass : Bool)
    (act : State → State) (s : State) (k : ∀ s, (act s).flights = s.flights) : (stairTake h type payload pass act s).flights = s.flights := by
  unfold stairTake; dsimp only; (repeat' split) <;> simp [k]

@[simp] theorem stairTake_halls (h : StairHdr) (type : Byte) (payload : List Byte) (pass : Bool)
    (act : State → State) (s : State) (k : ∀ s, (act s).halls = s.halls) : (stairTake h type payload pass act s).halls = s.halls := by
  unfold stairTake; dsimp only; (repeat' split) <;> simp [k]

@[simp] theorem stairTake_grid (h : StairHdr) (type : Byte) (payload : List Byte) (pass : Bool)
    (act : State → State) (s : State) (k : ∀ s, (act s).grid = s.grid) : (stairTake h type payload pass act s).grid = s.grid := by
  unfold stairTake; dsimp only; (repeat' split) <;> simp [k]

@[simp] theorem stairTake_treadsOld (h : StairHdr) (type : Byte) (payload : List Byte) (pass : Bool)
    (act : State → State) (s : State) (k : ∀ s, (act s).treadsOld = s.treadsOld) : (stairTake h type payload pass act s).treadsOld = s.treadsOld := by
  unfold stairTake; dsimp only; (repeat' split) <;> simp [k]

@[simp] theorem stairTake_meas (h : StairHdr) (type : Byte) (payload : List Byte) (pass : Bool)
    (act : State → State) (s : State) (k : ∀ s, (act s).meas = s.meas) : (stairTake h type payload pass act s).meas = s.meas := by
  unfold stairTake; dsimp only; (repeat' split) <;> simp [k]

@[simp] theorem stairTake_safe (h : StairHdr) (type : Byte) (payload : List Byte) (pass : Bool)
    (act : State → State) (s : State) (k : ∀ s, (act s).safe = s.safe) : (stairTake h type payload pass act s).safe = s.safe := by
  unfold stairTake; dsimp only; (repeat' split) <;> simp [k]

@[simp] theorem stairTake_therm (h : StairHdr) (type : Byte) (payload : List Byte) (pass : Bool)
    (act : State → State) (s : State) (k : ∀ s, (act s).therm = s.therm) : (stairTake h type payload pass act s).therm = s.therm := by
  unfold stairTake; dsimp only; (repeat' split) <;> simp [k]

@[simp] theorem stairTake_twin (h : StairHdr) (type : Byte) (payload : List Byte) (pass : Bool)
    (act : State → State) (s : State) (k : ∀ s, (act s).twin = s.twin) : (stairTake h type payload pass act s).twin = s.twin := by
  unfold stairTake; dsimp only; (repeat' split) <;> simp [k]

@[simp] theorem stairTake_nvm (h : StairHdr) (type : Byte) (payload : List Byte) (pass : Bool)
    (act : State → State) (s : State) (k : ∀ s, (act s).nvm = s.nvm) : (stairTake h type payload pass act s).nvm = s.nvm := by
  unfold stairTake; dsimp only; (repeat' split) <;> simp [k]

@[simp] theorem stairTake_streams (h : StairHdr) (type : Byte) (payload : List Byte) (pass : Bool)
    (act : State → State) (s : State) (k : ∀ s, (act s).streams = s.streams) : (stairTake h type payload pass act s).streams = s.streams := by
  unfold stairTake; dsimp only; (repeat' split) <;> simp [k]

@[simp] theorem stairTake_mem (h : StairHdr) (type : Byte) (payload : List Byte) (pass : Bool)
    (act : State → State) (s : State) (k : ∀ s, (act s).mem = s.mem) : (stairTake h type payload pass act s).mem = s.mem := by
  unfold stairTake; dsimp only; (repeat' split) <;> simp [k]

theorem execStairPortChange_frame (a0 : Bool) (a1 : Bool) (s t : State) (h : execStairPortChange a0 a1 s = .next t) :
    t.pending = s.pending ∧ t.reply = s.reply ∧ t.freeCtr = s.freeCtr ∧ t.cfg = s.cfg ∧ t.pend = s.pend ∧ t.tb = s.tb ∧ t.treads = s.treads ∧ t.cells = s.cells ∧ t.flights = s.flights ∧ t.halls = s.halls ∧ t.grid = s.grid ∧ t.treadsOld = s.treadsOld ∧ t.meas = s.meas ∧ t.safe = s.safe ∧ t.therm = s.therm ∧ t.twin = s.twin ∧ t.nvm = s.nvm ∧ t.streams = s.streams ∧ t.mem = s.mem := by
  unfold execStairPortChange at h; cases h; (try dsimp only); (repeat' split) <;> simp [apply_ite]

@[simp] theorem annCheck_frame (s : State) :
    (annCheck s).pending = s.pending ∧ (annCheck s).freeCtr = s.freeCtr ∧ (annCheck s).cfg = s.cfg ∧ (annCheck s).pend = s.pend ∧ (annCheck s).tb = s.tb ∧ (annCheck s).events = s.events ∧ (annCheck s).treads = s.treads ∧ (annCheck s).cells = s.cells ∧ (annCheck s).flights = s.flights ∧ (annCheck s).halls = s.halls ∧ (annCheck s).grid = s.grid ∧ (annCheck s).atr = s.atr ∧ (annCheck s).treadsOld = s.treadsOld ∧ (annCheck s).meas = s.meas ∧ (annCheck s).safe = s.safe ∧ (annCheck s).therm = s.therm ∧ (annCheck s).twin = s.twin ∧ (annCheck s).nvm = s.nvm ∧ (annCheck s).streams = s.streams ∧ (annCheck s).mem = s.mem := by
  unfold annCheck; (try dsimp only)
  refine ⟨?_, ?_, ?_, ?_, ?_, ?_, ?_, ?_, ?_, ?_, ?_, ?_, ?_, ?_, ?_, ?_, ?_, ?_, ?_, ?_⟩
  · repeat' (first | (simp [apply_ite State.pending]; done) | with_reducible refine (each_keep State.pending _ _ _ (fun _ _ => ?_)).trans ?_ | with_reducible refine command_keep State.pending _ _ _ (fun _ => ?_) (fun _ => ?_) | split)
  · repeat' (first | (simp [apply_ite State.freeCtr]; done) | with_reducible refine (each_keep State.freeCtr _ _ _ (fun _ _ => ?_)).trans ?_ | with_reducible refine command_keep State.freeCtr _ _ _ (fun _ => ?_) (fun _ => ?_) | split)
  · repeat' (first | (simp [apply_ite State.cfg]; done) | with_reducible refine (each_keep State.cfg _ _ _ (fun _ _ => ?_)).trans ?_ | with_reducible refine command_keep State.cfg _ _ _ (fun _ => ?_) (fun _ => ?_) | split)
  · repeat' (first | (simp [apply_ite State.pend]; done) | with_reducible refine (each_keep State.pend _ _ _ (fun _ _ => ?_)).trans ?_ | with_reducible refine command_keep State.pend _ _ _ (fun _ => ?_) (fun _ => ?_) | split)
  · repeat' (first | (simp [apply_ite State.tb]; done) | with_reducible refine (each_keep State.tb _ _ _ (fun _ _ => ?_)).trans ?_ | with_reducible refine command_keep State.tb _ _ _ (fun _ => ?_) (fun _ => ?_) | split)
  · repeat' (first | (simp [apply_ite State.events]; done) | with_reducible refine (each_keep State.events _ _ _ (fun _ _ => ?_)).trans ?_ | with_reducible refine command_keep State.events _ _ _ (fun _ => ?_) (fun _ => ?_) | split)
  · repeat' (first | (simp [apply_ite State.treads]; done) | with_reducible refine (each_keep State.treads _ _ _ (fun _ _ => ?_)).trans ?_ | with_reducible refine command_keep State.treads _ _ _ (fun _ => ?_) (fun _ => ?_) | split)
  · repeat' (first | (simp [apply_ite State.cells]; done) | with_reducible refine (each_keep State.cells _ _ _ (fun _ _ => ?_)).trans ?_ | with_reducible refine command_keep State.cells _ _ _ (fun _ => ?_) (fun _ => ?_) | split)
  · repeat' (first | (simp [apply_ite State.flights]; done) | with_reducible refine (each_keep State.flights _ _ _ (fun _ _ => ?_)).trans ?_ | with_reducible refine command_keep State.flights _ _ _ (fun _ => ?_) (fun _ => ?_) | split)
  · repeat' (first | (simp [apply_ite State.halls]; done) | with_reducible refine (each_keep State.halls _ _ _ (fun _ _ => ?_)).trans ?_ | with_reducible refine command_keep State.halls _ _ _ (fun _ => ?_) (fun _ => ?_) | split)
  · repeat' (first | (simp [apply_ite State.grid]; done) | with_reducible refine (each_keep State.grid _ _ _ (fun _ _ => ?_)).trans ?_ | with_reducible refine command_keep State.grid _ _ _ (fun _ => ?_) (fun _ => ?_) | split)
  · repeat' (first | (simp [apply_ite State.atr]; done) | with_reducible refine (each_keep State.atr _ _ _ (fun _ _ => ?_)).trans ?_ | with_reducible refine command_keep State.atr _ _ _ (fun _ => ?_) (fun _ => ?_) | split)
  · repeat' (first | (simp [apply_ite State.treadsOld]; done) | with_reducible refine (each_keep State.treadsOld _ _ _ (fun _ _ => ?_)).trans ?_ | with_reducible refine command_keep State.treadsOld _ _ _ (fun _ => ?_) (fun _ => ?_) | split)
  · repeat' (first | (simp [apply_ite State.meas]; done) | with_reducible refine (each_keep State.meas _ _ _ (fun _ _ => ?_)).trans ?_ | with_reducible refine command_keep State.meas _ _ _ (fun _ => ?_) (fun _ => ?_) | split)
  · repeat' (first | (simp [apply_ite State.safe]; done) | with_reducible refine (each_keep State.safe _ _ _ (fun _ _ => ?_)).trans ?_ | with_reducible refine command_keep State.safe _ _ _ (fun _ => ?_) (fun _ => ?_) | split)
  · repeat' (first | (simp [apply_ite State.therm]; done) | with_reducible refine (each_keep State.therm _ _ _ (fun _ _ => ?_)).trans ?_ | with_reducible refine command_keep State.therm _ _ _ (fun _ => ?_) (fun _ => ?_) | split)
  · repeat' (first | (simp [apply_ite State.twin]; done) | with_reducible refine (each_keep State.twin _ _ _ (fun _ _ => ?_)).trans ?_ | with_reducible refine command_keep State.twin _ _ _ (fun _ => ?_) (fun _ => ?_) | split)
  · repeat' (first | (simp [apply_ite State.nvm]; done) | with_reducible refine (each_keep State.nvm _ _ _ (fun _ _ => ?_)).trans ?_ | with_reducible refine command_keep State.nvm _ _ _ (fun _ => ?_) (fun _ => ?_) | split)
  · repeat' (first | (simp [apply_ite State.streams]; done) | with_reducible refine (each_keep State.streams _ _ _ (fun _ _ => ?_)).trans ?_ | with_reducible refine command_keep State.streams _ _ _ (fun _ => ?_) (fun _ => ?_) | split)
  · repeat' (first | (simp [apply_ite State.mem]; done) | with_reducible refine (each_keep State.mem _ _ _ (fun _ _ => ?_)).trans ?_ | with_reducible refine command_keep State.mem _ _ _ (fun _ => ?_) (fun _ => ?_) | split)

theorem execStairMapPresenceLapse_frame (a0 : Fin 16) (s t : State) (h : execStairMapPresenceLapse a0 s = .next t) :
    t.pending = s.pending ∧ t.freeCtr = s.freeCtr ∧ t.cfg = s.cfg ∧ t.pend = s.pend ∧ t.tb = s.tb ∧ t.events = s.events ∧ t.treads = s.treads ∧ t.cells = s.cells ∧ t.flights = s.flights ∧ t.halls = s.halls ∧ t.grid = s.grid ∧ t.atr = s.atr ∧ t.treadsOld = s.treadsOld ∧ t.meas = s.meas ∧ t.safe = s.safe ∧ t.therm = s.therm ∧ t.twin = s.twin ∧ t.nvm = s.nvm ∧ t.streams = s.streams ∧ t.mem = s.mem := by
  unfold execStairMapPresenceLapse at h; cases h; (try dsimp only); (repeat' split) <;> simp [apply_ite]

@[simp] theorem loadAllStair_frame (a0 : Option Pkt) (s : State) :
    (loadAllStair a0 s).2.pending = s.pending ∧ (loadAllStair a0 s).2.reply = s.reply ∧ (loadAllStair a0 s).2.freeCtr = s.freeCtr ∧ (loadAllStair a0 s).2.cfg = s.cfg ∧ (loadAllStair a0 s).2.pend = s.pend ∧ (loadAllStair a0 s).2.tb = s.tb ∧ (loadAllStair a0 s).2.halls = s.halls ∧ (loadAllStair a0 s).2.treadsOld = s.treadsOld ∧ (loadAllStair a0 s).2.meas = s.meas ∧ (loadAllStair a0 s).2.safe = s.safe ∧ (loadAllStair a0 s).2.therm = s.therm ∧ (loadAllStair a0 s).2.twin = s.twin ∧ (loadAllStair a0 s).2.nvm = s.nvm ∧ (loadAllStair a0 s).2.streams = s.streams ∧ (loadAllStair a0 s).2.mem = s.mem := by
  unfold loadAllStair
  (try dsimp only)
  (repeat' split) <;> simp [apply_ite]

@[simp] theorem loadAllWide_frame (s : State) :
    (loadAllWide s).pending = s.pending ∧ (loadAllWide s).freeCtr = s.freeCtr ∧ (loadAllWide s).cfg = s.cfg ∧ (loadAllWide s).pend = s.pend ∧ (loadAllWide s).tb = s.tb ∧ (loadAllWide s).halls = s.halls ∧ (loadAllWide s).treadsOld = s.treadsOld ∧ (loadAllWide s).meas = s.meas ∧ (loadAllWide s).safe = s.safe ∧ (loadAllWide s).therm = s.therm ∧ (loadAllWide s).twin = s.twin ∧ (loadAllWide s).nvm = s.nvm ∧ (loadAllWide s).streams = s.streams ∧ (loadAllWide s).mem = s.mem := by
  unfold loadAllWide
  (try dsimp only)
  (repeat' split) <;> simp [apply_ite]

theorem execLoadAll_frame (a0 : List Word) (s t : State) (h : execLoadAll a0 s = .next t) :
    t.pending = s.pending ∧ t.freeCtr = s.freeCtr ∧ t.cfg = s.cfg ∧ t.pend = s.pend ∧ t.tb = s.tb ∧ t.halls = s.halls ∧ t.treadsOld = s.treadsOld ∧ t.meas = s.meas ∧ t.safe = s.safe ∧ t.therm = s.therm ∧ t.twin = s.twin ∧ t.nvm = s.nvm ∧ t.streams = s.streams ∧ t.mem = s.mem := by
  unfold execLoadAll at h; cases h; (try dsimp only); (repeat' split) <;> simp [apply_ite]

@[simp] theorem loadAllWrite_frame (a0 : Bool) (s : State) :
    (loadAllWrite a0 s).2.pending = s.pending ∧ (loadAllWrite a0 s).2.freeCtr = s.freeCtr ∧ (loadAllWrite a0 s).2.cfg = s.cfg ∧ (loadAllWrite a0 s).2.pend = s.pend ∧ (loadAllWrite a0 s).2.tb = s.tb ∧ (loadAllWrite a0 s).2.halls = s.halls ∧ (loadAllWrite a0 s).2.treadsOld = s.treadsOld ∧ (loadAllWrite a0 s).2.meas = s.meas ∧ (loadAllWrite a0 s).2.safe = s.safe ∧ (loadAllWrite a0 s).2.therm = s.therm ∧ (loadAllWrite a0 s).2.twin = s.twin ∧ (loadAllWrite a0 s).2.nvm = s.nvm ∧ (loadAllWrite a0 s).2.streams = s.streams ∧ (loadAllWrite a0 s).2.mem = s.mem := by
  unfold loadAllWrite
  (try dsimp only)
  (repeat' split) <;> simp [apply_ite]

@[simp] theorem announced_frame (a0 : Nat) (s : State) :
    (announced a0 s).2.2.pending = s.pending ∧ (announced a0 s).2.2.reply = s.reply ∧ (announced a0 s).2.2.freeCtr = s.freeCtr ∧ (announced a0 s).2.2.cfg = s.cfg ∧ (announced a0 s).2.2.pend = s.pend ∧ (announced a0 s).2.2.tb = s.tb ∧ (announced a0 s).2.2.halls = s.halls ∧ (announced a0 s).2.2.treadsOld = s.treadsOld ∧ (announced a0 s).2.2.meas = s.meas ∧ (announced a0 s).2.2.safe = s.safe ∧ (announced a0 s).2.2.therm = s.therm ∧ (announced a0 s).2.2.twin = s.twin ∧ (announced a0 s).2.2.stair = s.stair ∧ (announced a0 s).2.2.nvm = s.nvm ∧ (announced a0 s).2.2.streams = s.streams ∧ (announced a0 s).2.2.mem = s.mem := by
  unfold announced
  (try dsimp only)
  (repeat' split) <;> simp [apply_ite]

@[simp] theorem moveTc_frame (a0 : Nat) (a1 : Nat) (s : State) :
    (moveTc a0 a1 s).pending = s.pending ∧ (moveTc a0 a1 s).reply = s.reply ∧ (moveTc a0 a1 s).out = s.out ∧ (moveTc a0 a1 s).freeCtr = s.freeCtr ∧ (moveTc a0 a1 s).aon = s.aon ∧ (moveTc a0 a1 s).cfg = s.cfg ∧ (moveTc a0 a1 s).pend = s.pend ∧ (moveTc a0 a1 s).tb = s.tb ∧ (moveTc a0 a1 s).events = s.events ∧ (moveTc a0 a1 s).host = s.host ∧ (moveTc a0 a1 s).treads = s.treads ∧ (moveTc a0 a1 s).cells = s.cells ∧ (moveTc a0 a1 s).flights = s.flights ∧ (moveTc a0 a1 s).halls = s.halls ∧ (moveTc a0 a1 s).atr = s.atr ∧ (moveTc a0 a1 s).treadsOld = s.treadsOld ∧ (moveTc a0 a1 s).meas = s.meas ∧ (moveTc a0 a1 s).safe = s.safe ∧ (moveTc a0 a1 s).therm = s.therm ∧ (moveTc a0 a1 s).twin = s.twin ∧ (moveTc a0 a1 s).nvm = s.nvm ∧ (moveTc a0 a1 s).streams = s.streams ∧ (moveTc a0 a1 s).mem = s.mem := by
  unfold moveTc
  (try dsimp only)
  (repeat' split) <;> simp [apply_ite]

@[simp] theorem forwardAnn_frame (a0 : AnnounceMsg) (s : State) :
    (forwardAnn a0 s).pending = s.pending ∧ (forwardAnn a0 s).reply = s.reply ∧ (forwardAnn a0 s).freeCtr = s.freeCtr ∧ (forwardAnn a0 s).aon = s.aon ∧ (forwardAnn a0 s).cfg = s.cfg ∧ (forwardAnn a0 s).pend = s.pend ∧ (forwardAnn a0 s).tb = s.tb ∧ (forwardAnn a0 s).events = s.events ∧ (forwardAnn a0 s).host = s.host ∧ (forwardAnn a0 s).treads = s.treads ∧ (forwardAnn a0 s).cells = s.cells ∧ (forwardAnn a0 s).flights = s.flights ∧ (forwardAnn a0 s).halls = s.halls ∧ (forwardAnn a0 s).grid = s.grid ∧ (forwardAnn a0 s).atr = s.atr ∧ (forwardAnn a0 s).treadsOld = s.treadsOld ∧ (forwardAnn a0 s).meas = s.meas ∧ (forwardAnn a0 s).safe = s.safe ∧ (forwardAnn a0 s).therm = s.therm ∧ (forwardAnn a0 s).twin = s.twin ∧ (forwardAnn a0 s).stair = s.stair ∧ (forwardAnn a0 s).nvm = s.nvm ∧ (forwardAnn a0 s).streams = s.streams ∧ (forwardAnn a0 s).mem = s.mem := by
  unfold forwardAnn
  (try dsimp only)
  (repeat' split) <;> simp [apply_ite]

@[simp] theorem takeAnnounce_frame (a0 : Fin 16) (a1 : AnnounceMsg) (s : State) :
    (takeAnnounce a0 a1 s).pending = s.pending ∧ (takeAnnounce a0 a1 s).reply = s.reply ∧ (takeAnnounce a0 a1 s).freeCtr = s.freeCtr ∧ (takeAnnounce a0 a1 s).cfg = s.cfg ∧ (takeAnnounce a0 a1 s).pend = s.pend ∧ (takeAnnounce a0 a1 s).tb = s.tb ∧ (takeAnnounce a0 a1 s).halls = s.halls ∧ (takeAnnounce a0 a1 s).treadsOld = s.treadsOld ∧ (takeAnnounce a0 a1 s).meas = s.meas ∧ (takeAnnounce a0 a1 s).safe = s.safe ∧ (takeAnnounce a0 a1 s).therm = s.therm ∧ (takeAnnounce a0 a1 s).twin = s.twin ∧ (takeAnnounce a0 a1 s).nvm = s.nvm ∧ (takeAnnounce a0 a1 s).streams = s.streams ∧ (takeAnnounce a0 a1 s).mem = s.mem := by
  unfold takeAnnounce
  (try dsimp only)
  (repeat' split) <;> simp [apply_ite]

theorem execAnnounce_frame (a0 : StairHdr) (a1 : AnnounceMsg) (s t : State) (h : execAnnounce a0 a1 s = .next t) :
    t.pending = s.pending ∧ t.reply = s.reply ∧ t.freeCtr = s.freeCtr ∧ t.cfg = s.cfg ∧ t.pend = s.pend ∧ t.tb = s.tb ∧ t.halls = s.halls ∧ t.treadsOld = s.treadsOld ∧ t.meas = s.meas ∧ t.safe = s.safe ∧ t.therm = s.therm ∧ t.twin = s.twin ∧ t.nvm = s.nvm ∧ t.streams = s.streams ∧ t.mem = s.mem := by
  unfold execAnnounce at h; cases h; (try dsimp only); (repeat' split) <;> simp [apply_ite]

theorem execAnnAck_frame (a0 : StairHdr) (a1 : Bool) (a2 : Bool) (s t : State) (h : execAnnAck a0 a1 a2 s = .next t) :
    t.pending = s.pending ∧ t.freeCtr = s.freeCtr ∧ t.cfg = s.cfg ∧ t.pend = s.pend ∧ t.tb = s.tb ∧ t.treads = s.treads ∧ t.cells = s.cells ∧ t.flights = s.flights ∧ t.halls = s.halls ∧ t.grid = s.grid ∧ t.treadsOld = s.treadsOld ∧ t.meas = s.meas ∧ t.safe = s.safe ∧ t.therm = s.therm ∧ t.twin = s.twin ∧ t.nvm = s.nvm ∧ t.streams = s.streams ∧ t.mem = s.mem := by
  unfold execAnnAck at h; cases h; (try dsimp only); (repeat' split) <;> simp [apply_ite]

theorem execAnnounceTimeout_frame (s t : State) (h : execAnnounceTimeout s = .next t) :
    t.pending = s.pending ∧ t.freeCtr = s.freeCtr ∧ t.cfg = s.cfg ∧ t.pend = s.pend ∧ t.tb = s.tb ∧ t.events = s.events ∧ t.treads = s.treads ∧ t.cells = s.cells ∧ t.flights = s.flights ∧ t.halls = s.halls ∧ t.grid = s.grid ∧ t.atr = s.atr ∧ t.treadsOld = s.treadsOld ∧ t.meas = s.meas ∧ t.safe = s.safe ∧ t.therm = s.therm ∧ t.twin = s.twin ∧ t.nvm = s.nvm ∧ t.streams = s.streams ∧ t.mem = s.mem := by
  unfold execAnnounceTimeout at h; cases h; (try dsimp only); (repeat' split) <;> simp [apply_ite]

@[simp] theorem beaconTc_frame (a0 : Nat) (s : State) :
    (beaconTc a0 s).pending = s.pending ∧ (beaconTc a0 s).reply = s.reply ∧ (beaconTc a0 s).out = s.out ∧ (beaconTc a0 s).freeCtr = s.freeCtr ∧ (beaconTc a0 s).aon = s.aon ∧ (beaconTc a0 s).cfg = s.cfg ∧ (beaconTc a0 s).pend = s.pend ∧ (beaconTc a0 s).tb = s.tb ∧ (beaconTc a0 s).events = s.events ∧ (beaconTc a0 s).host = s.host ∧ (beaconTc a0 s).treads = s.treads ∧ (beaconTc a0 s).cells = s.cells ∧ (beaconTc a0 s).flights = s.flights ∧ (beaconTc a0 s).halls = s.halls ∧ (beaconTc a0 s).atr = s.atr ∧ (beaconTc a0 s).treadsOld = s.treadsOld ∧ (beaconTc a0 s).meas = s.meas ∧ (beaconTc a0 s).safe = s.safe ∧ (beaconTc a0 s).therm = s.therm ∧ (beaconTc a0 s).twin = s.twin ∧ (beaconTc a0 s).nvm = s.nvm ∧ (beaconTc a0 s).streams = s.streams ∧ (beaconTc a0 s).mem = s.mem := by
  unfold beaconTc
  (try dsimp only)
  (repeat' split) <;> simp [apply_ite]

@[simp] theorem takeBeacon_frame (a0 : Fin 16) (a1 : BeaconMsg) (s : State) :
    (takeBeacon a0 a1 s).pending = s.pending ∧ (takeBeacon a0 a1 s).freeCtr = s.freeCtr ∧ (takeBeacon a0 a1 s).cfg = s.cfg ∧ (takeBeacon a0 a1 s).pend = s.pend ∧ (takeBeacon a0 a1 s).tb = s.tb ∧ (takeBeacon a0 a1 s).treads = s.treads ∧ (takeBeacon a0 a1 s).cells = s.cells ∧ (takeBeacon a0 a1 s).flights = s.flights ∧ (takeBeacon a0 a1 s).halls = s.halls ∧ (takeBeacon a0 a1 s).treadsOld = s.treadsOld ∧ (takeBeacon a0 a1 s).meas = s.meas ∧ (takeBeacon a0 a1 s).safe = s.safe ∧ (takeBeacon a0 a1 s).therm = s.therm ∧ (takeBeacon a0 a1 s).twin = s.twin ∧ (takeBeacon a0 a1 s).nvm = s.nvm ∧ (takeBeacon a0 a1 s).streams = s.streams ∧ (takeBeacon a0 a1 s).mem = s.mem := by
  unfold takeBeacon
  (try dsimp only)
  (repeat' split) <;> simp [apply_ite]

theorem execBeacon_frame (a0 : StairMsg BeaconMsg) (s t : State) (h : execBeacon a0 s = .next t) :
    t.pending = s.pending ∧ t.freeCtr = s.freeCtr ∧ t.cfg = s.cfg ∧ t.pend = s.pend ∧ t.tb = s.tb ∧ t.treads = s.treads ∧ t.cells = s.cells ∧ t.flights = s.flights ∧ t.halls = s.halls ∧ t.treadsOld = s.treadsOld ∧ t.meas = s.meas ∧ t.safe = s.safe ∧ t.therm = s.therm ∧ t.twin = s.twin ∧ t.nvm = s.nvm ∧ t.streams = s.streams ∧ t.mem = s.mem := by
  unfold execBeacon at h; cases h
  refine ⟨?_, ?_, ?_, ?_, ?_, ?_, ?_, ?_, ?_, ?_, ?_, ?_, ?_, ?_, ?_, ?_, ?_⟩
  · refine stairTake_pending _ _ _ _ _ _ fun s => ?_
    (try dsimp only); (repeat' split) <;> simp
  · refine stairTake_freeCtr _ _ _ _ _ _ fun s => ?_
    (try dsimp only); (repeat' split) <;> simp
  · refine stairTake_cfg _ _ _ _ _ _ fun s => ?_
    (try dsimp only); (repeat' split) <;> simp
  · refine stairTake_pend _ _ _ _ _ _ fun s => ?_
    (try dsimp only); (repeat' split) <;> simp
  · refine stairTake_tb _ _ _ _ _ _ fun s => ?_
    (try dsimp only); (repeat' split) <;> simp
  · refine stairTake_treads _ _ _ _ _ _ fun s => ?_
    (try dsimp only); (repeat' split) <;> simp
  · refine stairTake_cells _ _ _ _ _ _ fun s => ?_
    (try dsimp only); (repeat' split) <;> simp
  · refine stairTake_flights _ _ _ _ _ _ fun s => ?_
    (try dsimp only); (repeat' split) <;> simp
  · refine stairTake_halls _ _ _ _ _ _ fun s => ?_
    (try dsimp only); (repeat' split) <;> simp
  · refine stairTake_treadsOld _ _ _ _ _ _ fun s => ?_
    (try dsimp only); (repeat' split) <;> simp
  · refine stairTake_meas _ _ _ _ _ _ fun s => ?_
    (try dsimp only); (repeat' split) <;> simp
  · refine stairTake_safe _ _ _ _ _ _ fun s => ?_
    (try dsimp only); (repeat' split) <;> simp
  · refine stairTake_therm _ _ _ _ _ _ fun s => ?_
    (try dsimp only); (repeat' split) <;> simp
  · refine stairTake_twin _ _ _ _ _ _ fun s => ?_
    (try dsimp only); (repeat' split) <;> simp
  · refine stairTake_nvm _ _ _ _ _ _ fun s => ?_
    (try dsimp only); (repeat' split) <;> simp
  · refine stairTake_streams _ _ _ _ _ _ fun s => ?_
    (try dsimp only); (repeat' split) <;> simp
  · refine stairTake_mem _ _ _ _ _ _ fun s => ?_
    (try dsimp only); (repeat' split) <;> simp

@[simp] theorem forwardBeacon_frame (s : State) :
    (forwardBeacon s).pending = s.pending ∧ (forwardBeacon s).reply = s.reply ∧ (forwardBeacon s).freeCtr = s.freeCtr ∧ (forwardBeacon s).aon = s.aon ∧ (forwardBeacon s).cfg = s.cfg ∧ (forwardBeacon s).pend = s.pend ∧ (forwardBeacon s).tb = s.tb ∧ (forwardBeacon s).events = s.events ∧ (forwardBeacon s).host = s.host ∧ (forwardBeacon s).treads = s.treads ∧ (forwardBeacon s).cells = s.cells ∧ (forwardBeacon s).flights = s.flights ∧ (forwardBeacon s).halls = s.halls ∧ (forwardBeacon s).grid = s.grid ∧ (forwardBeacon s).atr = s.atr ∧ (forwardBeacon s).treadsOld = s.treadsOld ∧ (forwardBeacon s).meas = s.meas ∧ (forwardBeacon s).safe = s.safe ∧ (forwardBeacon s).therm = s.therm ∧ (forwardBeacon s).twin = s.twin ∧ (forwardBeacon s).stair = s.stair ∧ (forwardBeacon s).nvm = s.nvm ∧ (forwardBeacon s).streams = s.streams ∧ (forwardBeacon s).mem = s.mem := by
  unfold forwardBeacon
  (try dsimp only)
  (repeat' split) <;> simp [apply_ite]

@[simp] theorem takeForwardedBeacon_frame (a0 : List Word) (s : State) :
    (takeForwardedBeacon a0 s).pending = s.pending ∧ (takeForwardedBeacon a0 s).reply = s.reply ∧ (takeForwardedBeacon a0 s).out = s.out ∧ (takeForwardedBeacon a0 s).freeCtr = s.freeCtr ∧ (takeForwardedBeacon a0 s).aon = s.aon ∧ (takeForwardedBeacon a0 s).cfg = s.cfg ∧ (takeForwardedBeacon a0 s).pend = s.pend ∧ (takeForwardedBeacon a0 s).tb = s.tb ∧ (takeForwardedBeacon a0 s).events = s.events ∧ (takeForwardedBeacon a0 s).host = s.host ∧ (takeForwardedBeacon a0 s).treads = s.treads ∧ (takeForwardedBeacon a0 s).cells = s.cells ∧ (takeForwardedBeacon a0 s).flights = s.flights ∧ (takeForwardedBeacon a0 s).halls = s.halls ∧ (takeForwardedBeacon a0 s).grid = s.grid ∧ (takeForwardedBeacon a0 s).atr = s.atr ∧ (takeForwardedBeacon a0 s).treadsOld = s.treadsOld ∧ (takeForwardedBeacon a0 s).meas = s.meas ∧ (takeForwardedBeacon a0 s).safe = s.safe ∧ (takeForwardedBeacon a0 s).therm = s.therm ∧ (takeForwardedBeacon a0 s).twin = s.twin ∧ (takeForwardedBeacon a0 s).nvm = s.nvm ∧ (takeForwardedBeacon a0 s).streams = s.streams ∧ (takeForwardedBeacon a0 s).mem = s.mem := by
  unfold takeForwardedBeacon
  (try dsimp only)
  (repeat' split) <;> simp [apply_ite]

theorem execBeaconSend_frame (s t : State) (h : execBeaconSend s = .next t) :
    t.pending = s.pending ∧ t.reply = s.reply ∧ t.freeCtr = s.freeCtr ∧ t.aon = s.aon ∧ t.cfg = s.cfg ∧ t.pend = s.pend ∧ t.tb = s.tb ∧ t.events = s.events ∧ t.host = s.host ∧ t.treads = s.treads ∧ t.cells = s.cells ∧ t.flights = s.flights ∧ t.halls = s.halls ∧ t.grid = s.grid ∧ t.atr = s.atr ∧ t.treadsOld = s.treadsOld ∧ t.meas = s.meas ∧ t.safe = s.safe ∧ t.therm = s.therm ∧ t.twin = s.twin ∧ t.stair = s.stair ∧ t.nvm = s.nvm ∧ t.streams = s.streams ∧ t.mem = s.mem := by
  unfold execBeaconSend at h; cases h; (try dsimp only); (repeat' split) <;> simp [apply_ite]

theorem execNewelLost_frame (s t : State) (h : execNewelLost s = .next t) :
    t.pending = s.pending ∧ t.reply = s.reply ∧ t.freeCtr = s.freeCtr ∧ t.cfg = s.cfg ∧ t.pend = s.pend ∧ t.tb = s.tb ∧ t.treads = s.treads ∧ t.cells = s.cells ∧ t.flights = s.flights ∧ t.halls = s.halls ∧ t.grid = s.grid ∧ t.treadsOld = s.treadsOld ∧ t.meas = s.meas ∧ t.safe = s.safe ∧ t.therm = s.therm ∧ t.twin = s.twin ∧ t.nvm = s.nvm ∧ t.streams = s.streams ∧ t.mem = s.mem := by
  unfold execNewelLost at h; cases h; (try dsimp only); (repeat' split) <;> simp [apply_ite]

theorem execHoldExp_frame (s t : State) (h : execHoldExp s = .next t) :
    t.pending = s.pending ∧ t.reply = s.reply ∧ t.freeCtr = s.freeCtr ∧ t.cfg = s.cfg ∧ t.pend = s.pend ∧ t.tb = s.tb ∧ t.treads = s.treads ∧ t.cells = s.cells ∧ t.flights = s.flights ∧ t.halls = s.halls ∧ t.grid = s.grid ∧ t.treadsOld = s.treadsOld ∧ t.meas = s.meas ∧ t.safe = s.safe ∧ t.therm = s.therm ∧ t.twin = s.twin ∧ t.nvm = s.nvm ∧ t.streams = s.streams ∧ t.mem = s.mem := by
  unfold execHoldExp at h; cases h; (try dsimp only); (repeat' split) <;> simp [apply_ite]

@[simp] theorem promoteWrite_frame (a0 : Bool) (s : State) :
    (promoteWrite a0 s).2.pending = s.pending ∧ (promoteWrite a0 s).2.reply = s.reply ∧ (promoteWrite a0 s).2.out = s.out ∧ (promoteWrite a0 s).2.freeCtr = s.freeCtr ∧ (promoteWrite a0 s).2.aon = s.aon ∧ (promoteWrite a0 s).2.cfg = s.cfg ∧ (promoteWrite a0 s).2.pend = s.pend ∧ (promoteWrite a0 s).2.tb = s.tb ∧ (promoteWrite a0 s).2.events = s.events ∧ (promoteWrite a0 s).2.host = s.host ∧ (promoteWrite a0 s).2.treads = s.treads ∧ (promoteWrite a0 s).2.cells = s.cells ∧ (promoteWrite a0 s).2.flights = s.flights ∧ (promoteWrite a0 s).2.halls = s.halls ∧ (promoteWrite a0 s).2.grid = s.grid ∧ (promoteWrite a0 s).2.atr = s.atr ∧ (promoteWrite a0 s).2.treadsOld = s.treadsOld ∧ (promoteWrite a0 s).2.meas = s.meas ∧ (promoteWrite a0 s).2.safe = s.safe ∧ (promoteWrite a0 s).2.therm = s.therm ∧ (promoteWrite a0 s).2.twin = s.twin ∧ (promoteWrite a0 s).2.nvm = s.nvm ∧ (promoteWrite a0 s).2.streams = s.streams ∧ (promoteWrite a0 s).2.mem = s.mem := by
  unfold promoteWrite
  (try dsimp only)
  (repeat' split) <;> simp [apply_ite]

theorem execPromote_frame (s t : State) (h : execPromote s = .next t) :
    t.pending = s.pending ∧ t.reply = s.reply ∧ t.out = s.out ∧ t.freeCtr = s.freeCtr ∧ t.aon = s.aon ∧ t.cfg = s.cfg ∧ t.pend = s.pend ∧ t.tb = s.tb ∧ t.events = s.events ∧ t.host = s.host ∧ t.treads = s.treads ∧ t.cells = s.cells ∧ t.flights = s.flights ∧ t.halls = s.halls ∧ t.grid = s.grid ∧ t.atr = s.atr ∧ t.treadsOld = s.treadsOld ∧ t.meas = s.meas ∧ t.safe = s.safe ∧ t.therm = s.therm ∧ t.twin = s.twin ∧ t.nvm = s.nvm ∧ t.streams = s.streams ∧ t.mem = s.mem := by
  unfold execPromote at h; cases h; (try dsimp only); (repeat' split) <;> simp [apply_ite]

theorem execFollowerRestore_frame (s t : State) (h : execFollowerRestore s = .next t) :
    t.pending = s.pending ∧ t.reply = s.reply ∧ t.out = s.out ∧ t.freeCtr = s.freeCtr ∧ t.aon = s.aon ∧ t.cfg = s.cfg ∧ t.pend = s.pend ∧ t.tb = s.tb ∧ t.events = s.events ∧ t.host = s.host ∧ t.treads = s.treads ∧ t.cells = s.cells ∧ t.flights = s.flights ∧ t.halls = s.halls ∧ t.grid = s.grid ∧ t.atr = s.atr ∧ t.treadsOld = s.treadsOld ∧ t.meas = s.meas ∧ t.safe = s.safe ∧ t.therm = s.therm ∧ t.twin = s.twin ∧ t.nvm = s.nvm ∧ t.streams = s.streams ∧ t.mem = s.mem := by
  unfold execFollowerRestore at h; cases h; (try dsimp only); (repeat' split) <;> simp [apply_ite]

theorem execTimeReqSend_frame (s t : State) (h : execTimeReqSend s = .next t) :
    t.pending = s.pending ∧ t.reply = s.reply ∧ t.freeCtr = s.freeCtr ∧ t.aon = s.aon ∧ t.cfg = s.cfg ∧ t.pend = s.pend ∧ t.tb = s.tb ∧ t.events = s.events ∧ t.host = s.host ∧ t.treads = s.treads ∧ t.cells = s.cells ∧ t.flights = s.flights ∧ t.halls = s.halls ∧ t.grid = s.grid ∧ t.atr = s.atr ∧ t.treadsOld = s.treadsOld ∧ t.meas = s.meas ∧ t.safe = s.safe ∧ t.therm = s.therm ∧ t.twin = s.twin ∧ t.nvm = s.nvm ∧ t.streams = s.streams ∧ t.mem = s.mem := by
  unfold execTimeReqSend at h; cases h; (try dsimp only); (repeat' split) <;> simp [apply_ite]

theorem execTimeReq_frame (a0 : StairMsg Int) (s t : State) (h : execTimeReq a0 s = .next t) :
    t.pending = s.pending ∧ t.reply = s.reply ∧ t.freeCtr = s.freeCtr ∧ t.cfg = s.cfg ∧ t.pend = s.pend ∧ t.tb = s.tb ∧ t.treads = s.treads ∧ t.cells = s.cells ∧ t.flights = s.flights ∧ t.halls = s.halls ∧ t.grid = s.grid ∧ t.treadsOld = s.treadsOld ∧ t.meas = s.meas ∧ t.safe = s.safe ∧ t.therm = s.therm ∧ t.twin = s.twin ∧ t.nvm = s.nvm ∧ t.streams = s.streams ∧ t.mem = s.mem := by
  unfold execTimeReq at h; cases h; (try dsimp only); (repeat' split) <;> simp [apply_ite]

@[simp] theorem syncStep_frame (a0 : Int) (s : State) :
    (syncStep a0 s).pending = s.pending ∧ (syncStep a0 s).reply = s.reply ∧ (syncStep a0 s).freeCtr = s.freeCtr ∧ (syncStep a0 s).cfg = s.cfg ∧ (syncStep a0 s).pend = s.pend ∧ (syncStep a0 s).tb = s.tb ∧ (syncStep a0 s).treads = s.treads ∧ (syncStep a0 s).cells = s.cells ∧ (syncStep a0 s).flights = s.flights ∧ (syncStep a0 s).halls = s.halls ∧ (syncStep a0 s).grid = s.grid ∧ (syncStep a0 s).treadsOld = s.treadsOld ∧ (syncStep a0 s).meas = s.meas ∧ (syncStep a0 s).safe = s.safe ∧ (syncStep a0 s).therm = s.therm ∧ (syncStep a0 s).twin = s.twin ∧ (syncStep a0 s).nvm = s.nvm ∧ (syncStep a0 s).streams = s.streams ∧ (syncStep a0 s).mem = s.mem := by
  unfold syncStep
  (try dsimp only)
  (repeat' split) <;> simp [apply_ite]

@[simp] theorem takeTimeResp_frame (a0 : Int) (a1 : Int) (a2 : Int) (a3 : Int) (s : State) :
    (takeTimeResp a0 a1 a2 a3 s).pending = s.pending ∧ (takeTimeResp a0 a1 a2 a3 s).reply = s.reply ∧ (takeTimeResp a0 a1 a2 a3 s).cfg = s.cfg ∧ (takeTimeResp a0 a1 a2 a3 s).pend = s.pend ∧ (takeTimeResp a0 a1 a2 a3 s).treads = s.treads ∧ (takeTimeResp a0 a1 a2 a3 s).cells = s.cells ∧ (takeTimeResp a0 a1 a2 a3 s).flights = s.flights ∧ (takeTimeResp a0 a1 a2 a3 s).halls = s.halls ∧ (takeTimeResp a0 a1 a2 a3 s).treadsOld = s.treadsOld ∧ (takeTimeResp a0 a1 a2 a3 s).meas = s.meas ∧ (takeTimeResp a0 a1 a2 a3 s).safe = s.safe ∧ (takeTimeResp a0 a1 a2 a3 s).twin = s.twin ∧ (takeTimeResp a0 a1 a2 a3 s).nvm = s.nvm ∧ (takeTimeResp a0 a1 a2 a3 s).streams = s.streams ∧ (takeTimeResp a0 a1 a2 a3 s).mem = s.mem := by
  unfold takeTimeResp
  (try dsimp only)
  (repeat' split) <;> simp [apply_ite]

theorem execTimeResp_frame (a0 : StairHdr) (a1 : Int × Int) (a2 : Int) (s t : State) (h : execTimeResp a0 a1 a2 s = .next t) :
    t.pending = s.pending ∧ t.reply = s.reply ∧ t.cfg = s.cfg ∧ t.pend = s.pend ∧ t.treads = s.treads ∧ t.cells = s.cells ∧ t.flights = s.flights ∧ t.halls = s.halls ∧ t.treadsOld = s.treadsOld ∧ t.meas = s.meas ∧ t.safe = s.safe ∧ t.twin = s.twin ∧ t.nvm = s.nvm ∧ t.streams = s.streams ∧ t.mem = s.mem := by
  unfold execTimeResp at h; cases h
  refine ⟨?_, ?_, ?_, ?_, ?_, ?_, ?_, ?_, ?_, ?_, ?_, ?_, ?_, ?_, ?_⟩
  · refine stairTake_pending _ _ _ _ _ _ fun s => ?_
    (try dsimp only); (repeat' split) <;> simp
  · refine stairTake_reply _ _ _ _ _ _ fun s => ?_
    (try dsimp only); (repeat' split) <;> simp
  · refine stairTake_cfg _ _ _ _ _ _ fun s => ?_
    (try dsimp only); (repeat' split) <;> simp
  · refine stairTake_pend _ _ _ _ _ _ fun s => ?_
    (try dsimp only); (repeat' split) <;> simp
  · refine stairTake_treads _ _ _ _ _ _ fun s => ?_
    (try dsimp only); (repeat' split) <;> simp
  · refine stairTake_cells _ _ _ _ _ _ fun s => ?_
    (try dsimp only); (repeat' split) <;> simp
  · refine stairTake_flights _ _ _ _ _ _ fun s => ?_
    (try dsimp only); (repeat' split) <;> simp
  · refine stairTake_halls _ _ _ _ _ _ fun s => ?_
    (try dsimp only); (repeat' split) <;> simp
  · refine stairTake_treadsOld _ _ _ _ _ _ fun s => ?_
    (try dsimp only); (repeat' split) <;> simp
  · refine stairTake_meas _ _ _ _ _ _ fun s => ?_
    (try dsimp only); (repeat' split) <;> simp
  · refine stairTake_safe _ _ _ _ _ _ fun s => ?_
    (try dsimp only); (repeat' split) <;> simp
  · refine stairTake_twin _ _ _ _ _ _ fun s => ?_
    (try dsimp only); (repeat' split) <;> simp
  · refine stairTake_nvm _ _ _ _ _ _ fun s => ?_
    (try dsimp only); (repeat' split) <;> simp
  · refine stairTake_streams _ _ _ _ _ _ fun s => ?_
    (try dsimp only); (repeat' split) <;> simp
  · refine stairTake_mem _ _ _ _ _ _ fun s => ?_
    (try dsimp only); (repeat' split) <;> simp

theorem execShare_frame (a0 : StairMsg ShareMsg) (s t : State) (h : execShare a0 s = .next t) :
    t.pending = s.pending ∧ t.reply = s.reply ∧ t.freeCtr = s.freeCtr ∧ t.cfg = s.cfg ∧ t.pend = s.pend ∧ t.tb = s.tb ∧ t.treads = s.treads ∧ t.cells = s.cells ∧ t.flights = s.flights ∧ t.halls = s.halls ∧ t.grid = s.grid ∧ t.treadsOld = s.treadsOld ∧ t.meas = s.meas ∧ t.safe = s.safe ∧ t.therm = s.therm ∧ t.twin = s.twin ∧ t.nvm = s.nvm ∧ t.streams = s.streams ∧ t.mem = s.mem := by
  unfold execShare at h; cases h; (try dsimp only); (repeat' split) <;> simp [apply_ite]

theorem execStatusSend_frame (s t : State) (h : execStatusSend s = .next t) :
    t.pending = s.pending ∧ t.reply = s.reply ∧ t.freeCtr = s.freeCtr ∧ t.aon = s.aon ∧ t.cfg = s.cfg ∧ t.pend = s.pend ∧ t.tb = s.tb ∧ t.events = s.events ∧ t.host = s.host ∧ t.treads = s.treads ∧ t.cells = s.cells ∧ t.flights = s.flights ∧ t.halls = s.halls ∧ t.grid = s.grid ∧ t.atr = s.atr ∧ t.treadsOld = s.treadsOld ∧ t.meas = s.meas ∧ t.safe = s.safe ∧ t.therm = s.therm ∧ t.twin = s.twin ∧ t.stair = s.stair ∧ t.nvm = s.nvm ∧ t.streams = s.streams ∧ t.mem = s.mem := by
  unfold execStatusSend at h; cases h; (try dsimp only); (repeat' split) <;> simp [apply_ite]

theorem execStairStatusFrame_frame (a0 : StairHdr) (a1 : Bool) (a2 : Bool) (s t : State) (h : execStairStatusFrame a0 a1 a2 s = .next t) :
    t.pending = s.pending ∧ t.reply = s.reply ∧ t.freeCtr = s.freeCtr ∧ t.cfg = s.cfg ∧ t.pend = s.pend ∧ t.tb = s.tb ∧ t.treads = s.treads ∧ t.cells = s.cells ∧ t.flights = s.flights ∧ t.halls = s.halls ∧ t.grid = s.grid ∧ t.treadsOld = s.treadsOld ∧ t.meas = s.meas ∧ t.safe = s.safe ∧ t.therm = s.therm ∧ t.twin = s.twin ∧ t.nvm = s.nvm ∧ t.streams = s.streams ∧ t.mem = s.mem := by
  unfold execStairStatusFrame at h; cases h; (try dsimp only); (repeat' split) <;> simp [apply_ite]

@[simp] theorem askTelem_frame (a0 : StairHdr) (a1 : Fin 8) (a2 : Nat) (a3 : Nat) (a4 : List Nat) (s : State) :
    (askTelem a0 a1 a2 a3 a4 s).pending = s.pending ∧ (askTelem a0 a1 a2 a3 a4 s).reply = s.reply ∧ (askTelem a0 a1 a2 a3 a4 s).out = s.out ∧ (askTelem a0 a1 a2 a3 a4 s).freeCtr = s.freeCtr ∧ (askTelem a0 a1 a2 a3 a4 s).aon = s.aon ∧ (askTelem a0 a1 a2 a3 a4 s).cfg = s.cfg ∧ (askTelem a0 a1 a2 a3 a4 s).pend = s.pend ∧ (askTelem a0 a1 a2 a3 a4 s).tb = s.tb ∧ (askTelem a0 a1 a2 a3 a4 s).events = s.events ∧ (askTelem a0 a1 a2 a3 a4 s).host = s.host ∧ (askTelem a0 a1 a2 a3 a4 s).treads = s.treads ∧ (askTelem a0 a1 a2 a3 a4 s).cells = s.cells ∧ (askTelem a0 a1 a2 a3 a4 s).flights = s.flights ∧ (askTelem a0 a1 a2 a3 a4 s).halls = s.halls ∧ (askTelem a0 a1 a2 a3 a4 s).grid = s.grid ∧ (askTelem a0 a1 a2 a3 a4 s).atr = s.atr ∧ (askTelem a0 a1 a2 a3 a4 s).treadsOld = s.treadsOld ∧ (askTelem a0 a1 a2 a3 a4 s).meas = s.meas ∧ (askTelem a0 a1 a2 a3 a4 s).safe = s.safe ∧ (askTelem a0 a1 a2 a3 a4 s).therm = s.therm ∧ (askTelem a0 a1 a2 a3 a4 s).twin = s.twin ∧ (askTelem a0 a1 a2 a3 a4 s).nvm = s.nvm ∧ (askTelem a0 a1 a2 a3 a4 s).streams = s.streams ∧ (askTelem a0 a1 a2 a3 a4 s).mem = s.mem := by
  unfold askTelem
  (try dsimp only)
  (repeat' split) <;> simp [apply_ite]

@[simp] theorem keepTelem_frame (a0 : Fin 16) (a1 : Nat) (a2 : List (Nat × F32)) (s : State) :
    (keepTelem a0 a1 a2 s).pending = s.pending ∧ (keepTelem a0 a1 a2 s).reply = s.reply ∧ (keepTelem a0 a1 a2 s).out = s.out ∧ (keepTelem a0 a1 a2 s).freeCtr = s.freeCtr ∧ (keepTelem a0 a1 a2 s).aon = s.aon ∧ (keepTelem a0 a1 a2 s).cfg = s.cfg ∧ (keepTelem a0 a1 a2 s).pend = s.pend ∧ (keepTelem a0 a1 a2 s).tb = s.tb ∧ (keepTelem a0 a1 a2 s).events = s.events ∧ (keepTelem a0 a1 a2 s).host = s.host ∧ (keepTelem a0 a1 a2 s).treads = s.treads ∧ (keepTelem a0 a1 a2 s).cells = s.cells ∧ (keepTelem a0 a1 a2 s).flights = s.flights ∧ (keepTelem a0 a1 a2 s).halls = s.halls ∧ (keepTelem a0 a1 a2 s).grid = s.grid ∧ (keepTelem a0 a1 a2 s).atr = s.atr ∧ (keepTelem a0 a1 a2 s).treadsOld = s.treadsOld ∧ (keepTelem a0 a1 a2 s).meas = s.meas ∧ (keepTelem a0 a1 a2 s).safe = s.safe ∧ (keepTelem a0 a1 a2 s).therm = s.therm ∧ (keepTelem a0 a1 a2 s).twin = s.twin ∧ (keepTelem a0 a1 a2 s).nvm = s.nvm ∧ (keepTelem a0 a1 a2 s).streams = s.streams ∧ (keepTelem a0 a1 a2 s).mem = s.mem := by
  unfold keepTelem
  (try dsimp only)
  (repeat' split) <;> simp [apply_ite]

@[simp] theorem telemToStandby_frame (a0 : StairHdr) (a1 : List Byte) (s : State) :
    (telemToStandby a0 a1 s).pending = s.pending ∧ (telemToStandby a0 a1 s).reply = s.reply ∧ (telemToStandby a0 a1 s).freeCtr = s.freeCtr ∧ (telemToStandby a0 a1 s).aon = s.aon ∧ (telemToStandby a0 a1 s).cfg = s.cfg ∧ (telemToStandby a0 a1 s).pend = s.pend ∧ (telemToStandby a0 a1 s).tb = s.tb ∧ (telemToStandby a0 a1 s).events = s.events ∧ (telemToStandby a0 a1 s).host = s.host ∧ (telemToStandby a0 a1 s).treads = s.treads ∧ (telemToStandby a0 a1 s).cells = s.cells ∧ (telemToStandby a0 a1 s).flights = s.flights ∧ (telemToStandby a0 a1 s).halls = s.halls ∧ (telemToStandby a0 a1 s).grid = s.grid ∧ (telemToStandby a0 a1 s).atr = s.atr ∧ (telemToStandby a0 a1 s).treadsOld = s.treadsOld ∧ (telemToStandby a0 a1 s).meas = s.meas ∧ (telemToStandby a0 a1 s).safe = s.safe ∧ (telemToStandby a0 a1 s).therm = s.therm ∧ (telemToStandby a0 a1 s).twin = s.twin ∧ (telemToStandby a0 a1 s).stair = s.stair ∧ (telemToStandby a0 a1 s).nvm = s.nvm ∧ (telemToStandby a0 a1 s).streams = s.streams ∧ (telemToStandby a0 a1 s).mem = s.mem := by
  unfold telemToStandby
  (try dsimp only)
  (repeat' split) <;> simp [apply_ite]

theorem execTelem_frame (a0 : StairHdr) (a1 : Nat) (a2 : TelemMsg) (s t : State) (h : execTelem a0 a1 a2 s = .next t) :
    t.pending = s.pending ∧ t.reply = s.reply ∧ t.freeCtr = s.freeCtr ∧ t.cfg = s.cfg ∧ t.pend = s.pend ∧ t.tb = s.tb ∧ t.treads = s.treads ∧ t.cells = s.cells ∧ t.flights = s.flights ∧ t.halls = s.halls ∧ t.grid = s.grid ∧ t.treadsOld = s.treadsOld ∧ t.meas = s.meas ∧ t.safe = s.safe ∧ t.therm = s.therm ∧ t.twin = s.twin ∧ t.nvm = s.nvm ∧ t.streams = s.streams ∧ t.mem = s.mem := by
  unfold execTelem at h; cases h; (try dsimp only); (repeat' split) <;> simp [apply_ite]

theorem execSigReq_frame (a0 : StairHdr) (a1 : List Nat) (s t : State) (h : execSigReq a0 a1 s = .next t) :
    t.pending = s.pending ∧ t.reply = s.reply ∧ t.freeCtr = s.freeCtr ∧ t.cfg = s.cfg ∧ t.pend = s.pend ∧ t.tb = s.tb ∧ t.treads = s.treads ∧ t.cells = s.cells ∧ t.flights = s.flights ∧ t.halls = s.halls ∧ t.grid = s.grid ∧ t.treadsOld = s.treadsOld ∧ t.meas = s.meas ∧ t.safe = s.safe ∧ t.therm = s.therm ∧ t.twin = s.twin ∧ t.nvm = s.nvm ∧ t.streams = s.streams ∧ t.mem = s.mem := by
  unfold execSigReq at h; cases h; (try dsimp only); (repeat' split) <;> simp [apply_ite]

@[simp] theorem takeSignals_frame (a0 : Nat) (a1 : List (Nat × F32)) (s : State) :
    (takeSignals a0 a1 s).pending = s.pending ∧ (takeSignals a0 a1 s).freeCtr = s.freeCtr ∧ (takeSignals a0 a1 s).cfg = s.cfg ∧ (takeSignals a0 a1 s).pend = s.pend ∧ (takeSignals a0 a1 s).tb = s.tb ∧ (takeSignals a0 a1 s).events = s.events ∧ (takeSignals a0 a1 s).treads = s.treads ∧ (takeSignals a0 a1 s).cells = s.cells ∧ (takeSignals a0 a1 s).flights = s.flights ∧ (takeSignals a0 a1 s).halls = s.halls ∧ (takeSignals a0 a1 s).grid = s.grid ∧ (takeSignals a0 a1 s).atr = s.atr ∧ (takeSignals a0 a1 s).treadsOld = s.treadsOld ∧ (takeSignals a0 a1 s).meas = s.meas ∧ (takeSignals a0 a1 s).safe = s.safe ∧ (takeSignals a0 a1 s).therm = s.therm ∧ (takeSignals a0 a1 s).twin = s.twin ∧ (takeSignals a0 a1 s).nvm = s.nvm ∧ (takeSignals a0 a1 s).streams = s.streams ∧ (takeSignals a0 a1 s).mem = s.mem := by
  unfold takeSignals
  (try dsimp only)
  (repeat' split) <;> simp [apply_ite]

theorem execSigResp_frame (a0 : StairHdr) (a1 : List (Nat × F32)) (s t : State) (h : execSigResp a0 a1 s = .next t) :
    t.pending = s.pending ∧ t.freeCtr = s.freeCtr ∧ t.cfg = s.cfg ∧ t.pend = s.pend ∧ t.tb = s.tb ∧ t.treads = s.treads ∧ t.cells = s.cells ∧ t.flights = s.flights ∧ t.halls = s.halls ∧ t.grid = s.grid ∧ t.treadsOld = s.treadsOld ∧ t.meas = s.meas ∧ t.safe = s.safe ∧ t.therm = s.therm ∧ t.twin = s.twin ∧ t.nvm = s.nvm ∧ t.streams = s.streams ∧ t.mem = s.mem := by
  unfold execSigResp at h; cases h; (try dsimp only); (repeat' split) <;> simp [apply_ite]

theorem execSigRespTimeout_frame (s t : State) (h : execSigRespTimeout s = .next t) :
    t.pending = s.pending ∧ t.freeCtr = s.freeCtr ∧ t.cfg = s.cfg ∧ t.pend = s.pend ∧ t.tb = s.tb ∧ t.events = s.events ∧ t.treads = s.treads ∧ t.cells = s.cells ∧ t.flights = s.flights ∧ t.halls = s.halls ∧ t.grid = s.grid ∧ t.atr = s.atr ∧ t.treadsOld = s.treadsOld ∧ t.meas = s.meas ∧ t.safe = s.safe ∧ t.therm = s.therm ∧ t.twin = s.twin ∧ t.nvm = s.nvm ∧ t.streams = s.streams ∧ t.mem = s.mem := by
  unfold execSigRespTimeout at h; cases h; (try dsimp only); (repeat' split) <;> simp [apply_ite]

theorem execSignalRead_frame (a0 : List Word) (s t : State) (h : execSignalRead a0 s = .next t) :
    t.pending = s.pending ∧ t.freeCtr = s.freeCtr ∧ t.aon = s.aon ∧ t.cfg = s.cfg ∧ t.pend = s.pend ∧ t.tb = s.tb ∧ t.events = s.events ∧ t.host = s.host ∧ t.treads = s.treads ∧ t.cells = s.cells ∧ t.flights = s.flights ∧ t.halls = s.halls ∧ t.grid = s.grid ∧ t.atr = s.atr ∧ t.treadsOld = s.treadsOld ∧ t.meas = s.meas ∧ t.safe = s.safe ∧ t.therm = s.therm ∧ t.twin = s.twin ∧ t.nvm = s.nvm ∧ t.streams = s.streams ∧ t.mem = s.mem := by
  unfold execSignalRead at h; cases h
  refine ⟨?_, ?_, ?_, ?_, ?_, ?_, ?_, ?_, ?_, ?_, ?_, ?_, ?_, ?_, ?_, ?_, ?_, ?_, ?_, ?_, ?_, ?_⟩
  · refine command_pending _ _ _ fun s => ?_
    (try dsimp only); (repeat' split) <;> simp
  · refine command_freeCtr _ _ _ fun s => ?_
    (try dsimp only); (repeat' split) <;> simp
  · refine command_aon _ _ _ fun s => ?_
    (try dsimp only); (repeat' split) <;> simp
  · refine command_cfg _ _ _ fun s => ?_
    (try dsimp only); (repeat' split) <;> simp
  · refine command_pend _ _ _ fun s => ?_
    (try dsimp only); (repeat' split) <;> simp
  · refine command_tb _ _ _ fun s => ?_
    (try dsimp only); (repeat' split) <;> simp
  · refine command_events _ _ _ fun s => ?_
    (try dsimp only); (repeat' split) <;> simp
  · refine command_host _ _ _ fun s => ?_
    (try dsimp only); (repeat' split) <;> simp
  · refine command_treads _ _ _ fun s => ?_
    (try dsimp only); (repeat' split) <;> simp
  · refine command_cells _ _ _ fun s => ?_
    (try dsimp only); (repeat' split) <;> simp
  · refine command_flights _ _ _ fun s => ?_
    (try dsimp only); (repeat' split) <;> simp
  · refine command_halls _ _ _ fun s => ?_
    (try dsimp only); (repeat' split) <;> simp
  · refine command_grid _ _ _ fun s => ?_
    (try dsimp only); (repeat' split) <;> simp
  · refine command_atr _ _ _ fun s => ?_
    (try dsimp only); (repeat' split) <;> simp
  · refine command_treadsOld _ _ _ fun s => ?_
    (try dsimp only); (repeat' split) <;> simp
  · refine command_meas _ _ _ fun s => ?_
    (try dsimp only); (repeat' split) <;> simp
  · refine command_safe _ _ _ fun s => ?_
    (try dsimp only); (repeat' split) <;> simp
  · refine command_therm _ _ _ fun s => ?_
    (try dsimp only); (repeat' split) <;> simp
  · refine command_twin _ _ _ fun s => ?_
    (try dsimp only); (repeat' split) <;> simp
  · refine command_nvm _ _ _ fun s => ?_
    (try dsimp only); (repeat' split) <;> simp
  · refine command_streams _ _ _ fun s => ?_
    (try dsimp only); (repeat' split) <;> simp
  · refine command_mem _ _ _ fun s => ?_
    (try dsimp only); (repeat' split) <;> simp

theorem execStairStatus_frame (a0 : List Word) (s t : State) (h : execStairStatus a0 s = .next t) :
    t.pending = s.pending ∧ t.out = s.out ∧ t.freeCtr = s.freeCtr ∧ t.aon = s.aon ∧ t.cfg = s.cfg ∧ t.pend = s.pend ∧ t.tb = s.tb ∧ t.events = s.events ∧ t.host = s.host ∧ t.treads = s.treads ∧ t.cells = s.cells ∧ t.flights = s.flights ∧ t.halls = s.halls ∧ t.grid = s.grid ∧ t.atr = s.atr ∧ t.treadsOld = s.treadsOld ∧ t.meas = s.meas ∧ t.safe = s.safe ∧ t.therm = s.therm ∧ t.twin = s.twin ∧ t.stair = s.stair ∧ t.nvm = s.nvm ∧ t.streams = s.streams ∧ t.mem = s.mem := by
  unfold execStairStatus at h; cases h; (try dsimp only); (repeat' split) <;> simp [apply_ite]

@[simp] theorem galleryRead_frame (a0 : Nat) (s : State) :
    (galleryRead a0 s).2.pending = s.pending ∧ (galleryRead a0 s).2.reply = s.reply ∧ (galleryRead a0 s).2.out = s.out ∧ (galleryRead a0 s).2.aon = s.aon ∧ (galleryRead a0 s).2.cfg = s.cfg ∧ (galleryRead a0 s).2.pend = s.pend ∧ (galleryRead a0 s).2.tb = s.tb ∧ (galleryRead a0 s).2.events = s.events ∧ (galleryRead a0 s).2.host = s.host ∧ (galleryRead a0 s).2.treads = s.treads ∧ (galleryRead a0 s).2.cells = s.cells ∧ (galleryRead a0 s).2.flights = s.flights ∧ (galleryRead a0 s).2.halls = s.halls ∧ (galleryRead a0 s).2.grid = s.grid ∧ (galleryRead a0 s).2.atr = s.atr ∧ (galleryRead a0 s).2.treadsOld = s.treadsOld ∧ (galleryRead a0 s).2.meas = s.meas ∧ (galleryRead a0 s).2.safe = s.safe ∧ (galleryRead a0 s).2.therm = s.therm ∧ (galleryRead a0 s).2.twin = s.twin ∧ (galleryRead a0 s).2.stair = s.stair ∧ (galleryRead a0 s).2.nvm = s.nvm ∧ (galleryRead a0 s).2.streams = s.streams ∧ (galleryRead a0 s).2.mem = s.mem := by
  unfold galleryRead; refine ⟨?_, ?_, ?_, ?_, ?_, ?_, ?_, ?_, ?_, ?_, ?_, ?_, ?_, ?_, ?_, ?_, ?_, ?_, ?_, ?_, ?_, ?_, ?_, ?_⟩ <;> split <;> rfl

@[simp] theorem cfgReadWord_frame (a0 : Bool) (a1 : Nat) (s : State) :
    (cfgReadWord a0 a1 s).2.pending = s.pending ∧ (cfgReadWord a0 a1 s).2.reply = s.reply ∧ (cfgReadWord a0 a1 s).2.cfg = s.cfg ∧ (cfgReadWord a0 a1 s).2.pend = s.pend ∧ (cfgReadWord a0 a1 s).2.treads = s.treads ∧ (cfgReadWord a0 a1 s).2.cells = s.cells ∧ (cfgReadWord a0 a1 s).2.flights = s.flights ∧ (cfgReadWord a0 a1 s).2.halls = s.halls ∧ (cfgReadWord a0 a1 s).2.grid = s.grid ∧ (cfgReadWord a0 a1 s).2.treadsOld = s.treadsOld ∧ (cfgReadWord a0 a1 s).2.safe = s.safe ∧ (cfgReadWord a0 a1 s).2.therm = s.therm ∧ (cfgReadWord a0 a1 s).2.twin = s.twin ∧ (cfgReadWord a0 a1 s).2.stair = s.stair ∧ (cfgReadWord a0 a1 s).2.nvm = s.nvm ∧ (cfgReadWord a0 a1 s).2.streams = s.streams ∧ (cfgReadWord a0 a1 s).2.mem = s.mem := by
  unfold cfgReadWord
  (try dsimp only)
  (repeat' split) <;> simp [apply_ite]

@[simp] theorem cfgReadWords_frame (a0 : Bool) (a1 : Nat) (a2 : Nat) (s : State) :
    (cfgReadWords a0 a1 a2 s).2.pending = s.pending ∧ (cfgReadWords a0 a1 a2 s).2.reply = s.reply ∧ (cfgReadWords a0 a1 a2 s).2.cfg = s.cfg ∧ (cfgReadWords a0 a1 a2 s).2.pend = s.pend ∧ (cfgReadWords a0 a1 a2 s).2.treads = s.treads ∧ (cfgReadWords a0 a1 a2 s).2.cells = s.cells ∧ (cfgReadWords a0 a1 a2 s).2.flights = s.flights ∧ (cfgReadWords a0 a1 a2 s).2.halls = s.halls ∧ (cfgReadWords a0 a1 a2 s).2.grid = s.grid ∧ (cfgReadWords a0 a1 a2 s).2.treadsOld = s.treadsOld ∧ (cfgReadWords a0 a1 a2 s).2.safe = s.safe ∧ (cfgReadWords a0 a1 a2 s).2.therm = s.therm ∧ (cfgReadWords a0 a1 a2 s).2.twin = s.twin ∧ (cfgReadWords a0 a1 a2 s).2.stair = s.stair ∧ (cfgReadWords a0 a1 a2 s).2.nvm = s.nvm ∧ (cfgReadWords a0 a1 a2 s).2.streams = s.streams ∧ (cfgReadWords a0 a1 a2 s).2.mem = s.mem := by
  unfold cfgReadWords
  (try dsimp only)
  (repeat' split) <;> simp [apply_ite]

theorem execCfgRead_frame (a0 : List Word) (s t : State) (h : execCfgRead a0 s = .next t) :
    t.pending = s.pending ∧ t.cfg = s.cfg ∧ t.pend = s.pend ∧ t.treads = s.treads ∧ t.cells = s.cells ∧ t.flights = s.flights ∧ t.halls = s.halls ∧ t.grid = s.grid ∧ t.treadsOld = s.treadsOld ∧ t.safe = s.safe ∧ t.therm = s.therm ∧ t.twin = s.twin ∧ t.stair = s.stair ∧ t.nvm = s.nvm ∧ t.streams = s.streams ∧ t.mem = s.mem := by
  unfold execCfgRead at h; cases h
  refine ⟨?_, ?_, ?_, ?_, ?_, ?_, ?_, ?_, ?_, ?_, ?_, ?_, ?_, ?_, ?_, ?_⟩
  · refine command_pending _ _ _ fun s => ?_
    (try dsimp only); (repeat' split) <;> simp
  · refine command_cfg _ _ _ fun s => ?_
    (try dsimp only); (repeat' split) <;> simp
  · refine command_pend _ _ _ fun s => ?_
    (try dsimp only); (repeat' split) <;> simp
  · refine command_treads _ _ _ fun s => ?_
    (try dsimp only); (repeat' split) <;> simp
  · refine command_cells _ _ _ fun s => ?_
    (try dsimp only); (repeat' split) <;> simp
  · refine command_flights _ _ _ fun s => ?_
    (try dsimp only); (repeat' split) <;> simp
  · refine command_halls _ _ _ fun s => ?_
    (try dsimp only); (repeat' split) <;> simp
  · refine command_grid _ _ _ fun s => ?_
    (try dsimp only); (repeat' split) <;> simp
  · refine command_treadsOld _ _ _ fun s => ?_
    (try dsimp only); (repeat' split) <;> simp
  · refine command_safe _ _ _ fun s => ?_
    (try dsimp only); (repeat' split) <;> simp
  · refine command_therm _ _ _ fun s => ?_
    (try dsimp only); (repeat' split) <;> simp
  · refine command_twin _ _ _ fun s => ?_
    (try dsimp only); (repeat' split) <;> simp
  · refine command_stair _ _ _ fun s => ?_
    (try dsimp only); (repeat' split) <;> simp
  · refine command_nvm _ _ _ fun s => ?_
    (try dsimp only); (repeat' split) <;> simp
  · refine command_streams _ _ _ fun s => ?_
    (try dsimp only); (repeat' split) <;> simp
  · refine command_mem _ _ _ fun s => ?_
    (try dsimp only); (repeat' split) <;> simp

end Sys2Proof.Machine
end

