-- ==== Sys2Proof/Laws/FramesConfig.lean ====
section
/-! SUPPORT. What each operation and each command leaves alone: configuration, the system opcodes and the dispatch. A lemma `f_frame` names every part of the state
that `f` does not write. -/

namespace Sys2Proof.Machine

open Sys2Proof

set_option linter.all false

@[simp] theorem plainWrite_frame (a0 : Nat) (a1 : Word) (s : State) :
    (plainWrite a0 a1 s).pending = s.pending ∧ (plainWrite a0 a1 s).reply = s.reply ∧ (plainWrite a0 a1 s).out = s.out ∧ (plainWrite a0 a1 s).freeCtr = s.freeCtr ∧ (plainWrite a0 a1 s).aon = s.aon ∧ (plainWrite a0 a1 s).tb = s.tb ∧ (plainWrite a0 a1 s).events = s.events ∧ (plainWrite a0 a1 s).host = s.host ∧ (plainWrite a0 a1 s).treads = s.treads ∧ (plainWrite a0 a1 s).cells = s.cells ∧ (plainWrite a0 a1 s).flights = s.flights ∧ (plainWrite a0 a1 s).halls = s.halls ∧ (plainWrite a0 a1 s).grid = s.grid ∧ (plainWrite a0 a1 s).atr = s.atr ∧ (plainWrite a0 a1 s).treadsOld = s.treadsOld ∧ (plainWrite a0 a1 s).meas = s.meas ∧ (plainWrite a0 a1 s).safe = s.safe ∧ (plainWrite a0 a1 s).therm = s.therm ∧ (plainWrite a0 a1 s).twin = s.twin ∧ (plainWrite a0 a1 s).stair = s.stair ∧ (plainWrite a0 a1 s).nvm = s.nvm ∧ (plainWrite a0 a1 s).streams = s.streams ∧ (plainWrite a0 a1 s).mem = s.mem := by
  unfold plainWrite
  (try dsimp only)
  (repeat' split) <;> simp [apply_ite]

@[simp] theorem writeInj_frame (a0 : Nat) (a1 : List (Nat × Word)) (s : State) :
    (writeInj a0 a1 s).2.pending = s.pending ∧ (writeInj a0 a1 s).2.reply = s.reply ∧ (writeInj a0 a1 s).2.freeCtr = s.freeCtr ∧ (writeInj a0 a1 s).2.cfg = s.cfg ∧ (writeInj a0 a1 s).2.pend = s.pend ∧ (writeInj a0 a1 s).2.tb = s.tb ∧ (writeInj a0 a1 s).2.treads = s.treads ∧ (writeInj a0 a1 s).2.cells = s.cells ∧ (writeInj a0 a1 s).2.flights = s.flights ∧ (writeInj a0 a1 s).2.halls = s.halls ∧ (writeInj a0 a1 s).2.grid = s.grid ∧ (writeInj a0 a1 s).2.treadsOld = s.treadsOld ∧ (writeInj a0 a1 s).2.meas = s.meas ∧ (writeInj a0 a1 s).2.safe = s.safe ∧ (writeInj a0 a1 s).2.therm = s.therm ∧ (writeInj a0 a1 s).2.twin = s.twin ∧ (writeInj a0 a1 s).2.stair = s.stair ∧ (writeInj a0 a1 s).2.nvm = s.nvm ∧ (writeInj a0 a1 s).2.streams = s.streams ∧ (writeInj a0 a1 s).2.mem = s.mem := by
  unfold writeInj
  (try dsimp only)
  (repeat' split) <;> simp [apply_ite]

@[simp] theorem writeCap_frame (a0 : List (Nat × Word)) (s : State) :
    (writeCap a0 s).2.pending = s.pending ∧ (writeCap a0 s).2.reply = s.reply ∧ (writeCap a0 s).2.out = s.out ∧ (writeCap a0 s).2.freeCtr = s.freeCtr ∧ (writeCap a0 s).2.aon = s.aon ∧ (writeCap a0 s).2.cfg = s.cfg ∧ (writeCap a0 s).2.pend = s.pend ∧ (writeCap a0 s).2.tb = s.tb ∧ (writeCap a0 s).2.events = s.events ∧ (writeCap a0 s).2.host = s.host ∧ (writeCap a0 s).2.treads = s.treads ∧ (writeCap a0 s).2.cells = s.cells ∧ (writeCap a0 s).2.flights = s.flights ∧ (writeCap a0 s).2.halls = s.halls ∧ (writeCap a0 s).2.grid = s.grid ∧ (writeCap a0 s).2.treadsOld = s.treadsOld ∧ (writeCap a0 s).2.meas = s.meas ∧ (writeCap a0 s).2.safe = s.safe ∧ (writeCap a0 s).2.therm = s.therm ∧ (writeCap a0 s).2.twin = s.twin ∧ (writeCap a0 s).2.stair = s.stair ∧ (writeCap a0 s).2.nvm = s.nvm ∧ (writeCap a0 s).2.streams = s.streams ∧ (writeCap a0 s).2.mem = s.mem := by
  unfold writeCap
  (try dsimp only)
  (repeat' split) <;> simp [apply_ite]

@[simp] theorem writeIncr_frame (a0 : List (Nat × Word)) (s : State) :
    (writeIncr a0 s).2.pending = s.pending ∧ (writeIncr a0 s).2.reply = s.reply ∧ (writeIncr a0 s).2.out = s.out ∧ (writeIncr a0 s).2.freeCtr = s.freeCtr ∧ (writeIncr a0 s).2.aon = s.aon ∧ (writeIncr a0 s).2.cfg = s.cfg ∧ (writeIncr a0 s).2.pend = s.pend ∧ (writeIncr a0 s).2.events = s.events ∧ (writeIncr a0 s).2.host = s.host ∧ (writeIncr a0 s).2.treads = s.treads ∧ (writeIncr a0 s).2.cells = s.cells ∧ (writeIncr a0 s).2.flights = s.flights ∧ (writeIncr a0 s).2.halls = s.halls ∧ (writeIncr a0 s).2.grid = s.grid ∧ (writeIncr a0 s).2.atr = s.atr ∧ (writeIncr a0 s).2.treadsOld = s.treadsOld ∧ (writeIncr a0 s).2.meas = s.meas ∧ (writeIncr a0 s).2.safe = s.safe ∧ (writeIncr a0 s).2.therm = s.therm ∧ (writeIncr a0 s).2.twin = s.twin ∧ (writeIncr a0 s).2.stair = s.stair ∧ (writeIncr a0 s).2.nvm = s.nvm ∧ (writeIncr a0 s).2.streams = s.streams ∧ (writeIncr a0 s).2.mem = s.mem := by
  unfold writeIncr
  (try dsimp only)
  (repeat' split) <;> simp [apply_ite]

@[simp] theorem writeAdj_frame (a0 : List (Nat × Word)) (s : State) :
    (writeAdj a0 s).2.pending = s.pending ∧ (writeAdj a0 s).2.reply = s.reply ∧ (writeAdj a0 s).2.freeCtr = s.freeCtr ∧ (writeAdj a0 s).2.cfg = s.cfg ∧ (writeAdj a0 s).2.pend = s.pend ∧ (writeAdj a0 s).2.treads = s.treads ∧ (writeAdj a0 s).2.cells = s.cells ∧ (writeAdj a0 s).2.flights = s.flights ∧ (writeAdj a0 s).2.halls = s.halls ∧ (writeAdj a0 s).2.treadsOld = s.treadsOld ∧ (writeAdj a0 s).2.meas = s.meas ∧ (writeAdj a0 s).2.safe = s.safe ∧ (writeAdj a0 s).2.twin = s.twin ∧ (writeAdj a0 s).2.stair = s.stair ∧ (writeAdj a0 s).2.nvm = s.nvm ∧ (writeAdj a0 s).2.streams = s.streams ∧ (writeAdj a0 s).2.mem = s.mem := by
  unfold writeAdj
  (try dsimp only)
  (repeat' split) <;> simp [apply_ite]

@[simp] theorem writeTc_frame (a0 : Nat) (a1 : List (Nat × Word)) (s : State) :
    (writeTc a0 a1 s).2.pending = s.pending ∧ (writeTc a0 a1 s).2.reply = s.reply ∧ (writeTc a0 a1 s).2.out = s.out ∧ (writeTc a0 a1 s).2.freeCtr = s.freeCtr ∧ (writeTc a0 a1 s).2.aon = s.aon ∧ (writeTc a0 a1 s).2.cfg = s.cfg ∧ (writeTc a0 a1 s).2.pend = s.pend ∧ (writeTc a0 a1 s).2.events = s.events ∧ (writeTc a0 a1 s).2.host = s.host ∧ (writeTc a0 a1 s).2.treads = s.treads ∧ (writeTc a0 a1 s).2.cells = s.cells ∧ (writeTc a0 a1 s).2.flights = s.flights ∧ (writeTc a0 a1 s).2.halls = s.halls ∧ (writeTc a0 a1 s).2.grid = s.grid ∧ (writeTc a0 a1 s).2.atr = s.atr ∧ (writeTc a0 a1 s).2.treadsOld = s.treadsOld ∧ (writeTc a0 a1 s).2.meas = s.meas ∧ (writeTc a0 a1 s).2.safe = s.safe ∧ (writeTc a0 a1 s).2.therm = s.therm ∧ (writeTc a0 a1 s).2.twin = s.twin ∧ (writeTc a0 a1 s).2.stair = s.stair ∧ (writeTc a0 a1 s).2.nvm = s.nvm ∧ (writeTc a0 a1 s).2.streams = s.streams ∧ (writeTc a0 a1 s).2.mem = s.mem := by
  unfold writeTc
  (try dsimp only)
  (repeat' split) <;> simp [apply_ite]

@[simp] theorem writeAdc_frame (a0 : Nat) (a1 : List (Nat × Word)) (s : State) :
    (writeAdc a0 a1 s).2.pending = s.pending ∧ (writeAdc a0 a1 s).2.reply = s.reply ∧ (writeAdc a0 a1 s).2.freeCtr = s.freeCtr ∧ (writeAdc a0 a1 s).2.cfg = s.cfg ∧ (writeAdc a0 a1 s).2.pend = s.pend ∧ (writeAdc a0 a1 s).2.tb = s.tb ∧ (writeAdc a0 a1 s).2.treads = s.treads ∧ (writeAdc a0 a1 s).2.cells = s.cells ∧ (writeAdc a0 a1 s).2.flights = s.flights ∧ (writeAdc a0 a1 s).2.halls = s.halls ∧ (writeAdc a0 a1 s).2.grid = s.grid ∧ (writeAdc a0 a1 s).2.treadsOld = s.treadsOld ∧ (writeAdc a0 a1 s).2.safe = s.safe ∧ (writeAdc a0 a1 s).2.therm = s.therm ∧ (writeAdc a0 a1 s).2.twin = s.twin ∧ (writeAdc a0 a1 s).2.stair = s.stair ∧ (writeAdc a0 a1 s).2.nvm = s.nvm ∧ (writeAdc a0 a1 s).2.streams = s.streams ∧ (writeAdc a0 a1 s).2.mem = s.mem := by
  unfold writeAdc
  (try dsimp only)
  (repeat' split) <;> simp [apply_ite]

@[simp] theorem writeStream_frame (a0 : Nat) (a1 : List (Nat × Word)) (s : State) :
    (writeStream a0 a1 s).2.pending = s.pending ∧ (writeStream a0 a1 s).2.reply = s.reply ∧ (writeStream a0 a1 s).2.out = s.out ∧ (writeStream a0 a1 s).2.freeCtr = s.freeCtr ∧ (writeStream a0 a1 s).2.aon = s.aon ∧ (writeStream a0 a1 s).2.tb = s.tb ∧ (writeStream a0 a1 s).2.events = s.events ∧ (writeStream a0 a1 s).2.host = s.host ∧ (writeStream a0 a1 s).2.treads = s.treads ∧ (writeStream a0 a1 s).2.cells = s.cells ∧ (writeStream a0 a1 s).2.flights = s.flights ∧ (writeStream a0 a1 s).2.halls = s.halls ∧ (writeStream a0 a1 s).2.grid = s.grid ∧ (writeStream a0 a1 s).2.atr = s.atr ∧ (writeStream a0 a1 s).2.treadsOld = s.treadsOld ∧ (writeStream a0 a1 s).2.meas = s.meas ∧ (writeStream a0 a1 s).2.safe = s.safe ∧ (writeStream a0 a1 s).2.therm = s.therm ∧ (writeStream a0 a1 s).2.twin = s.twin ∧ (writeStream a0 a1 s).2.stair = s.stair ∧ (writeStream a0 a1 s).2.nvm = s.nvm ∧ (writeStream a0 a1 s).2.mem = s.mem := by
  unfold writeStream
  (try dsimp only)
  (repeat' split) <;> simp [apply_ite]

@[simp] theorem writeSlot_frame (a0 : Nat) (a1 : List (Nat × Word)) (s : State) :
    (writeSlot a0 a1 s).2.pending = s.pending ∧ (writeSlot a0 a1 s).2.reply = s.reply ∧ (writeSlot a0 a1 s).2.out = s.out ∧ (writeSlot a0 a1 s).2.freeCtr = s.freeCtr ∧ (writeSlot a0 a1 s).2.aon = s.aon ∧ (writeSlot a0 a1 s).2.cfg = s.cfg ∧ (writeSlot a0 a1 s).2.pend = s.pend ∧ (writeSlot a0 a1 s).2.tb = s.tb ∧ (writeSlot a0 a1 s).2.events = s.events ∧ (writeSlot a0 a1 s).2.host = s.host ∧ (writeSlot a0 a1 s).2.cells = s.cells ∧ (writeSlot a0 a1 s).2.halls = s.halls ∧ (writeSlot a0 a1 s).2.grid = s.grid ∧ (writeSlot a0 a1 s).2.treadsOld = s.treadsOld ∧ (writeSlot a0 a1 s).2.meas = s.meas ∧ (writeSlot a0 a1 s).2.safe = s.safe ∧ (writeSlot a0 a1 s).2.therm = s.therm ∧ (writeSlot a0 a1 s).2.twin = s.twin ∧ (writeSlot a0 a1 s).2.stair = s.stair ∧ (writeSlot a0 a1 s).2.nvm = s.nvm ∧ (writeSlot a0 a1 s).2.streams = s.streams ∧ (writeSlot a0 a1 s).2.mem = s.mem := by
  unfold writeSlot
  (try dsimp only)
  (repeat' split) <;> simp [apply_ite]

@[simp] theorem writeTdac_frame (a0 : Word) (s : State) :
    (writeTdac a0 s).2.pending = s.pending ∧ (writeTdac a0 s).2.reply = s.reply ∧ (writeTdac a0 s).2.out = s.out ∧ (writeTdac a0 s).2.freeCtr = s.freeCtr ∧ (writeTdac a0 s).2.aon = s.aon ∧ (writeTdac a0 s).2.cfg = s.cfg ∧ (writeTdac a0 s).2.pend = s.pend ∧ (writeTdac a0 s).2.tb = s.tb ∧ (writeTdac a0 s).2.events = s.events ∧ (writeTdac a0 s).2.host = s.host ∧ (writeTdac a0 s).2.treads = s.treads ∧ (writeTdac a0 s).2.cells = s.cells ∧ (writeTdac a0 s).2.flights = s.flights ∧ (writeTdac a0 s).2.halls = s.halls ∧ (writeTdac a0 s).2.grid = s.grid ∧ (writeTdac a0 s).2.atr = s.atr ∧ (writeTdac a0 s).2.treadsOld = s.treadsOld ∧ (writeTdac a0 s).2.safe = s.safe ∧ (writeTdac a0 s).2.therm = s.therm ∧ (writeTdac a0 s).2.twin = s.twin ∧ (writeTdac a0 s).2.stair = s.stair ∧ (writeTdac a0 s).2.nvm = s.nvm ∧ (writeTdac a0 s).2.streams = s.streams ∧ (writeTdac a0 s).2.mem = s.mem := by
  unfold writeTdac
  (try dsimp only)
  (repeat' split) <;> simp [apply_ite]

@[simp] theorem writeGpio_frame (a0 : Nat) (a1 : Word) (s : State) :
    (writeGpio a0 a1 s).2.pending = s.pending ∧ (writeGpio a0 a1 s).2.reply = s.reply ∧ (writeGpio a0 a1 s).2.out = s.out ∧ (writeGpio a0 a1 s).2.freeCtr = s.freeCtr ∧ (writeGpio a0 a1 s).2.aon = s.aon ∧ (writeGpio a0 a1 s).2.tb = s.tb ∧ (writeGpio a0 a1 s).2.events = s.events ∧ (writeGpio a0 a1 s).2.host = s.host ∧ (writeGpio a0 a1 s).2.treads = s.treads ∧ (writeGpio a0 a1 s).2.cells = s.cells ∧ (writeGpio a0 a1 s).2.flights = s.flights ∧ (writeGpio a0 a1 s).2.halls = s.halls ∧ (writeGpio a0 a1 s).2.grid = s.grid ∧ (writeGpio a0 a1 s).2.treadsOld = s.treadsOld ∧ (writeGpio a0 a1 s).2.meas = s.meas ∧ (writeGpio a0 a1 s).2.safe = s.safe ∧ (writeGpio a0 a1 s).2.therm = s.therm ∧ (writeGpio a0 a1 s).2.twin = s.twin ∧ (writeGpio a0 a1 s).2.stair = s.stair ∧ (writeGpio a0 a1 s).2.nvm = s.nvm ∧ (writeGpio a0 a1 s).2.streams = s.streams ∧ (writeGpio a0 a1 s).2.mem = s.mem := by
  unfold writeGpio
  (try dsimp only)
  (repeat' split) <;> simp [apply_ite]

@[simp] theorem writeModCtrl_frame (a0 : Word) (s : State) :
    (writeModCtrl a0 s).2.pending = s.pending ∧ (writeModCtrl a0 s).2.freeCtr = s.freeCtr ∧ (writeModCtrl a0 s).2.tb = s.tb ∧ (writeModCtrl a0 s).2.halls = s.halls ∧ (writeModCtrl a0 s).2.treadsOld = s.treadsOld ∧ (writeModCtrl a0 s).2.meas = s.meas ∧ (writeModCtrl a0 s).2.safe = s.safe ∧ (writeModCtrl a0 s).2.therm = s.therm ∧ (writeModCtrl a0 s).2.twin = s.twin ∧ (writeModCtrl a0 s).2.nvm = s.nvm ∧ (writeModCtrl a0 s).2.streams = s.streams ∧ (writeModCtrl a0 s).2.mem = s.mem := by
  unfold writeModCtrl
  (try dsimp only)
  (repeat' split) <;> simp [apply_ite]

@[simp] theorem writeAon_frame (a0 : Nat) (a1 : Word) (s : State) :
    (writeAon a0 a1 s).2.pending = s.pending ∧ (writeAon a0 a1 s).2.reply = s.reply ∧ (writeAon a0 a1 s).2.out = s.out ∧ (writeAon a0 a1 s).2.freeCtr = s.freeCtr ∧ (writeAon a0 a1 s).2.cfg = s.cfg ∧ (writeAon a0 a1 s).2.pend = s.pend ∧ (writeAon a0 a1 s).2.tb = s.tb ∧ (writeAon a0 a1 s).2.events = s.events ∧ (writeAon a0 a1 s).2.host = s.host ∧ (writeAon a0 a1 s).2.treads = s.treads ∧ (writeAon a0 a1 s).2.cells = s.cells ∧ (writeAon a0 a1 s).2.flights = s.flights ∧ (writeAon a0 a1 s).2.halls = s.halls ∧ (writeAon a0 a1 s).2.grid = s.grid ∧ (writeAon a0 a1 s).2.atr = s.atr ∧ (writeAon a0 a1 s).2.treadsOld = s.treadsOld ∧ (writeAon a0 a1 s).2.meas = s.meas ∧ (writeAon a0 a1 s).2.safe = s.safe ∧ (writeAon a0 a1 s).2.therm = s.therm ∧ (writeAon a0 a1 s).2.twin = s.twin ∧ (writeAon a0 a1 s).2.stair = s.stair ∧ (writeAon a0 a1 s).2.nvm = s.nvm ∧ (writeAon a0 a1 s).2.streams = s.streams ∧ (writeAon a0 a1 s).2.mem = s.mem := by
  unfold writeAon
  (try dsimp only)
  (repeat' split) <;> simp [apply_ite]

@[simp] theorem writeSlackLo_frame (a0 : Nat) (a1 : Word) (s : State) :
    (writeSlackLo a0 a1 s).pending = s.pending ∧ (writeSlackLo a0 a1 s).reply = s.reply ∧ (writeSlackLo a0 a1 s).out = s.out ∧ (writeSlackLo a0 a1 s).freeCtr = s.freeCtr ∧ (writeSlackLo a0 a1 s).aon = s.aon ∧ (writeSlackLo a0 a1 s).cfg = s.cfg ∧ (writeSlackLo a0 a1 s).pend = s.pend ∧ (writeSlackLo a0 a1 s).tb = s.tb ∧ (writeSlackLo a0 a1 s).events = s.events ∧ (writeSlackLo a0 a1 s).host = s.host ∧ (writeSlackLo a0 a1 s).treads = s.treads ∧ (writeSlackLo a0 a1 s).cells = s.cells ∧ (writeSlackLo a0 a1 s).flights = s.flights ∧ (writeSlackLo a0 a1 s).grid = s.grid ∧ (writeSlackLo a0 a1 s).treadsOld = s.treadsOld ∧ (writeSlackLo a0 a1 s).meas = s.meas ∧ (writeSlackLo a0 a1 s).safe = s.safe ∧ (writeSlackLo a0 a1 s).therm = s.therm ∧ (writeSlackLo a0 a1 s).twin = s.twin ∧ (writeSlackLo a0 a1 s).stair = s.stair ∧ (writeSlackLo a0 a1 s).nvm = s.nvm ∧ (writeSlackLo a0 a1 s).streams = s.streams ∧ (writeSlackLo a0 a1 s).mem = s.mem := by
  unfold writeSlackLo
  (try dsimp only)
  (repeat' split) <;> simp [apply_ite]

@[simp] theorem writeThmStatus_frame (a0 : Word) (s : State) :
    (writeThmStatus a0 s).pending = s.pending ∧ (writeThmStatus a0 s).reply = s.reply ∧ (writeThmStatus a0 s).out = s.out ∧ (writeThmStatus a0 s).freeCtr = s.freeCtr ∧ (writeThmStatus a0 s).aon = s.aon ∧ (writeThmStatus a0 s).cfg = s.cfg ∧ (writeThmStatus a0 s).pend = s.pend ∧ (writeThmStatus a0 s).tb = s.tb ∧ (writeThmStatus a0 s).events = s.events ∧ (writeThmStatus a0 s).host = s.host ∧ (writeThmStatus a0 s).treads = s.treads ∧ (writeThmStatus a0 s).flights = s.flights ∧ (writeThmStatus a0 s).halls = s.halls ∧ (writeThmStatus a0 s).grid = s.grid ∧ (writeThmStatus a0 s).atr = s.atr ∧ (writeThmStatus a0 s).treadsOld = s.treadsOld ∧ (writeThmStatus a0 s).meas = s.meas ∧ (writeThmStatus a0 s).safe = s.safe ∧ (writeThmStatus a0 s).twin = s.twin ∧ (writeThmStatus a0 s).stair = s.stair ∧ (writeThmStatus a0 s).nvm = s.nvm ∧ (writeThmStatus a0 s).streams = s.streams ∧ (writeThmStatus a0 s).mem = s.mem := by
  unfold writeThmStatus; (try dsimp only)
  refine ⟨?_, ?_, ?_, ?_, ?_, ?_, ?_, ?_, ?_, ?_, ?_, ?_, ?_, ?_, ?_, ?_, ?_, ?_, ?_, ?_, ?_, ?_, ?_⟩
  · repeat' (first | (simp [apply_ite State.pending]; done) | with_reducible refine (each_keep State.pending _ _ _ (fun _ _ => ?_)).trans ?_ | with_reducible refine command_keep State.pending _ _ _ (fun _ => ?_) (fun _ => ?_) | split)
  · repeat' (first | (simp [apply_ite State.reply]; done) | with_reducible refine (each_keep State.reply _ _ _ (fun _ _ => ?_)).trans ?_ | with_reducible refine command_keep State.reply _ _ _ (fun _ => ?_) (fun _ => ?_) | split)
  · repeat' (first | (simp [apply_ite State.out]; done) | with_reducible refine (each_keep State.out _ _ _ (fun _ _ => ?_)).trans ?_ | with_reducible refine command_keep State.out _ _ _ (fun _ => ?_) (fun _ => ?_) | split)
  · repeat' (first | (simp [apply_ite State.freeCtr]; done) | with_reducible refine (each_keep State.freeCtr _ _ _ (fun _ _ => ?_)).trans ?_ | with_reducible refine command_keep State.freeCtr _ _ _ (fun _ => ?_) (fun _ => ?_) | split)
  · repeat' (first | (simp [apply_ite State.aon]; done) | with_reducible refine (each_keep State.aon _ _ _ (fun _ _ => ?_)).trans ?_ | with_reducible refine command_keep State.aon _ _ _ (fun _ => ?_) (fun _ => ?_) | split)
  · repeat' (first | (simp [apply_ite State.cfg]; done) | with_reducible refine (each_keep State.cfg _ _ _ (fun _ _ => ?_)).trans ?_ | with_reducible refine command_keep State.cfg _ _ _ (fun _ => ?_) (fun _ => ?_) | split)
  · repeat' (first | (simp [apply_ite State.pend]; done) | with_reducible refine (each_keep State.pend _ _ _ (fun _ _ => ?_)).trans ?_ | with_reducible refine command_keep State.pend _ _ _ (fun _ => ?_) (fun _ => ?_) | split)
  · repeat' (first | (simp [apply_ite State.tb]; done) | with_reducible refine (each_keep State.tb _ _ _ (fun _ _ => ?_)).trans ?_ | with_reducible refine command_keep State.tb _ _ _ (fun _ => ?_) (fun _ => ?_) | split)
  · repeat' (first | (simp [apply_ite State.events]; done) | with_reducible refine (each_keep State.events _ _ _ (fun _ _ => ?_)).trans ?_ | with_reducible refine command_keep State.events _ _ _ (fun _ => ?_) (fun _ => ?_) | split)
  · repeat' (first | (simp [apply_ite State.host]; done) | with_reducible refine (each_keep State.host _ _ _ (fun _ _ => ?_)).trans ?_ | with_reducible refine command_keep State.host _ _ _ (fun _ => ?_) (fun _ => ?_) | split)
  · repeat' (first | (simp [apply_ite State.treads]; done) | with_reducible refine (each_keep State.treads _ _ _ (fun _ _ => ?_)).trans ?_ | with_reducible refine command_keep State.treads _ _ _ (fun _ => ?_) (fun _ => ?_) | split)
  · repeat' (first | (simp [apply_ite State.flights]; done) | with_reducible refine (each_keep State.flights _ _ _ (fun _ _ => ?_)).trans ?_ | with_reducible refine command_keep State.flights _ _ _ (fun _ => ?_) (fun _ => ?_) | split)
  · repeat' (first | (simp [apply_ite State.halls]; done) | with_reducible refine (each_keep State.halls _ _ _ (fun _ _ => ?_)).trans ?_ | with_reducible refine command_keep State.halls _ _ _ (fun _ => ?_) (fun _ => ?_) | split)
  · repeat' (first | (simp [apply_ite State.grid]; done) | with_reducible refine (each_keep State.grid _ _ _ (fun _ _ => ?_)).trans ?_ | with_reducible refine command_keep State.grid _ _ _ (fun _ => ?_) (fun _ => ?_) | split)
  · repeat' (first | (simp [apply_ite State.atr]; done) | with_reducible refine (each_keep State.atr _ _ _ (fun _ _ => ?_)).trans ?_ | with_reducible refine command_keep State.atr _ _ _ (fun _ => ?_) (fun _ => ?_) | split)
  · repeat' (first | (simp [apply_ite State.treadsOld]; done) | with_reducible refine (each_keep State.treadsOld _ _ _ (fun _ _ => ?_)).trans ?_ | with_reducible refine command_keep State.treadsOld _ _ _ (fun _ => ?_) (fun _ => ?_) | split)
  · repeat' (first | (simp [apply_ite State.meas]; done) | with_reducible refine (each_keep State.meas _ _ _ (fun _ _ => ?_)).trans ?_ | with_reducible refine command_keep State.meas _ _ _ (fun _ => ?_) (fun _ => ?_) | split)
  · repeat' (first | (simp [apply_ite State.safe]; done) | with_reducible refine (each_keep State.safe _ _ _ (fun _ _ => ?_)).trans ?_ | with_reducible refine command_keep State.safe _ _ _ (fun _ => ?_) (fun _ => ?_) | split)
  · repeat' (first | (simp [apply_ite State.twin]; done) | with_reducible refine (each_keep State.twin _ _ _ (fun _ _ => ?_)).trans ?_ | with_reducible refine command_keep State.twin _ _ _ (fun _ => ?_) (fun _ => ?_) | split)
  · repeat' (first | (simp [apply_ite State.stair]; done) | with_reducible refine (each_keep State.stair _ _ _ (fun _ _ => ?_)).trans ?_ | with_reducible refine command_keep State.stair _ _ _ (fun _ => ?_) (fun _ => ?_) | split)
  · repeat' (first | (simp [apply_ite State.nvm]; done) | with_reducible refine (each_keep State.nvm _ _ _ (fun _ _ => ?_)).trans ?_ | with_reducible refine command_keep State.nvm _ _ _ (fun _ => ?_) (fun _ => ?_) | split)
  · repeat' (first | (simp [apply_ite State.streams]; done) | with_reducible refine (each_keep State.streams _ _ _ (fun _ _ => ?_)).trans ?_ | with_reducible refine command_keep State.streams _ _ _ (fun _ => ?_) (fun _ => ?_) | split)
  · repeat' (first | (simp [apply_ite State.mem]; done) | with_reducible refine (each_keep State.mem _ _ _ (fun _ _ => ?_)).trans ?_ | with_reducible refine command_keep State.mem _ _ _ (fun _ => ?_) (fun _ => ?_) | split)

@[simp] theorem writeTrdThm_frame (a0 : Nat) (a1 : Word) (s : State) :
    (writeTrdThm a0 a1 s).pending = s.pending ∧ (writeTrdThm a0 a1 s).reply = s.reply ∧ (writeTrdThm a0 a1 s).out = s.out ∧ (writeTrdThm a0 a1 s).freeCtr = s.freeCtr ∧ (writeTrdThm a0 a1 s).aon = s.aon ∧ (writeTrdThm a0 a1 s).cfg = s.cfg ∧ (writeTrdThm a0 a1 s).pend = s.pend ∧ (writeTrdThm a0 a1 s).tb = s.tb ∧ (writeTrdThm a0 a1 s).events = s.events ∧ (writeTrdThm a0 a1 s).host = s.host ∧ (writeTrdThm a0 a1 s).treads = s.treads ∧ (writeTrdThm a0 a1 s).flights = s.flights ∧ (writeTrdThm a0 a1 s).halls = s.halls ∧ (writeTrdThm a0 a1 s).grid = s.grid ∧ (writeTrdThm a0 a1 s).atr = s.atr ∧ (writeTrdThm a0 a1 s).treadsOld = s.treadsOld ∧ (writeTrdThm a0 a1 s).meas = s.meas ∧ (writeTrdThm a0 a1 s).safe = s.safe ∧ (writeTrdThm a0 a1 s).twin = s.twin ∧ (writeTrdThm a0 a1 s).stair = s.stair ∧ (writeTrdThm a0 a1 s).nvm = s.nvm ∧ (writeTrdThm a0 a1 s).streams = s.streams ∧ (writeTrdThm a0 a1 s).mem = s.mem := by
  unfold writeTrdThm; (try dsimp only)
  refine ⟨?_, ?_, ?_, ?_, ?_, ?_, ?_, ?_, ?_, ?_, ?_, ?_, ?_, ?_, ?_, ?_, ?_, ?_, ?_, ?_, ?_, ?_, ?_⟩
  · repeat' (first | (simp [apply_ite State.pending]; done) | with_reducible refine (each_keep State.pending _ _ _ (fun _ _ => ?_)).trans ?_ | with_reducible refine command_keep State.pending _ _ _ (fun _ => ?_) (fun _ => ?_) | split)
  · repeat' (first | (simp [apply_ite State.reply]; done) | with_reducible refine (each_keep State.reply _ _ _ (fun _ _ => ?_)).trans ?_ | with_reducible refine command_keep State.reply _ _ _ (fun _ => ?_) (fun _ => ?_) | split)
  · repeat' (first | (simp [apply_ite State.out]; done) | with_reducible refine (each_keep State.out _ _ _ (fun _ _ => ?_)).trans ?_ | with_reducible refine command_keep State.out _ _ _ (fun _ => ?_) (fun _ => ?_) | split)
  · repeat' (first | (simp [apply_ite State.freeCtr]; done) | with_reducible refine (each_keep State.freeCtr _ _ _ (fun _ _ => ?_)).trans ?_ | with_reducible refine command_keep State.freeCtr _ _ _ (fun _ => ?_) (fun _ => ?_) | split)
  · repeat' (first | (simp [apply_ite State.aon]; done) | with_reducible refine (each_keep State.aon _ _ _ (fun _ _ => ?_)).trans ?_ | with_reducible refine command_keep State.aon _ _ _ (fun _ => ?_) (fun _ => ?_) | split)
  · repeat' (first | (simp [apply_ite State.cfg]; done) | with_reducible refine (each_keep State.cfg _ _ _ (fun _ _ => ?_)).trans ?_ | with_reducible refine command_keep State.cfg _ _ _ (fun _ => ?_) (fun _ => ?_) | split)
  · repeat' (first | (simp [apply_ite State.pend]; done) | with_reducible refine (each_keep State.pend _ _ _ (fun _ _ => ?_)).trans ?_ | with_reducible refine command_keep State.pend _ _ _ (fun _ => ?_) (fun _ => ?_) | split)
  · repeat' (first | (simp [apply_ite State.tb]; done) | with_reducible refine (each_keep State.tb _ _ _ (fun _ _ => ?_)).trans ?_ | with_reducible refine command_keep State.tb _ _ _ (fun _ => ?_) (fun _ => ?_) | split)
  · repeat' (first | (simp [apply_ite State.events]; done) | with_reducible refine (each_keep State.events _ _ _ (fun _ _ => ?_)).trans ?_ | with_reducible refine command_keep State.events _ _ _ (fun _ => ?_) (fun _ => ?_) | split)
  · repeat' (first | (simp [apply_ite State.host]; done) | with_reducible refine (each_keep State.host _ _ _ (fun _ _ => ?_)).trans ?_ | with_reducible refine command_keep State.host _ _ _ (fun _ => ?_) (fun _ => ?_) | split)
  · repeat' (first | (simp [apply_ite State.treads]; done) | with_reducible refine (each_keep State.treads _ _ _ (fun _ _ => ?_)).trans ?_ | with_reducible refine command_keep State.treads _ _ _ (fun _ => ?_) (fun _ => ?_) | split)
  · repeat' (first | (simp [apply_ite State.flights]; done) | with_reducible refine (each_keep State.flights _ _ _ (fun _ _ => ?_)).trans ?_ | with_reducible refine command_keep State.flights _ _ _ (fun _ => ?_) (fun _ => ?_) | split)
  · repeat' (first | (simp [apply_ite State.halls]; done) | with_reducible refine (each_keep State.halls _ _ _ (fun _ _ => ?_)).trans ?_ | with_reducible refine command_keep State.halls _ _ _ (fun _ => ?_) (fun _ => ?_) | split)
  · repeat' (first | (simp [apply_ite State.grid]; done) | with_reducible refine (each_keep State.grid _ _ _ (fun _ _ => ?_)).trans ?_ | with_reducible refine command_keep State.grid _ _ _ (fun _ => ?_) (fun _ => ?_) | split)
  · repeat' (first | (simp [apply_ite State.atr]; done) | with_reducible refine (each_keep State.atr _ _ _ (fun _ _ => ?_)).trans ?_ | with_reducible refine command_keep State.atr _ _ _ (fun _ => ?_) (fun _ => ?_) | split)
  · repeat' (first | (simp [apply_ite State.treadsOld]; done) | with_reducible refine (each_keep State.treadsOld _ _ _ (fun _ _ => ?_)).trans ?_ | with_reducible refine command_keep State.treadsOld _ _ _ (fun _ => ?_) (fun _ => ?_) | split)
  · repeat' (first | (simp [apply_ite State.meas]; done) | with_reducible refine (each_keep State.meas _ _ _ (fun _ _ => ?_)).trans ?_ | with_reducible refine command_keep State.meas _ _ _ (fun _ => ?_) (fun _ => ?_) | split)
  · repeat' (first | (simp [apply_ite State.safe]; done) | with_reducible refine (each_keep State.safe _ _ _ (fun _ _ => ?_)).trans ?_ | with_reducible refine command_keep State.safe _ _ _ (fun _ => ?_) (fun _ => ?_) | split)
  · repeat' (first | (simp [apply_ite State.twin]; done) | with_reducible refine (each_keep State.twin _ _ _ (fun _ _ => ?_)).trans ?_ | with_reducible refine command_keep State.twin _ _ _ (fun _ => ?_) (fun _ => ?_) | split)
  · repeat' (first | (simp [apply_ite State.stair]; done) | with_reducible refine (each_keep State.stair _ _ _ (fun _ _ => ?_)).trans ?_ | with_reducible refine command_keep State.stair _ _ _ (fun _ => ?_) (fun _ => ?_) | split)
  · repeat' (first | (simp [apply_ite State.nvm]; done) | with_reducible refine (each_keep State.nvm _ _ _ (fun _ _ => ?_)).trans ?_ | with_reducible refine command_keep State.nvm _ _ _ (fun _ => ?_) (fun _ => ?_) | split)
  · repeat' (first | (simp [apply_ite State.streams]; done) | with_reducible refine (each_keep State.streams _ _ _ (fun _ _ => ?_)).trans ?_ | with_reducible refine command_keep State.streams _ _ _ (fun _ => ?_) (fun _ => ?_) | split)
  · repeat' (first | (simp [apply_ite State.mem]; done) | with_reducible refine (each_keep State.mem _ _ _ (fun _ _ => ?_)).trans ?_ | with_reducible refine command_keep State.mem _ _ _ (fun _ => ?_) (fun _ => ?_) | split)

@[simp] theorem writeTrdStatus_frame (a0 : Nat) (a1 : Nat) (a2 : Word) (s : State) :
    (writeTrdStatus a0 a1 a2 s).pending = s.pending ∧ (writeTrdStatus a0 a1 a2 s).reply = s.reply ∧ (writeTrdStatus a0 a1 a2 s).out = s.out ∧ (writeTrdStatus a0 a1 a2 s).freeCtr = s.freeCtr ∧ (writeTrdStatus a0 a1 a2 s).aon = s.aon ∧ (writeTrdStatus a0 a1 a2 s).cfg = s.cfg ∧ (writeTrdStatus a0 a1 a2 s).pend = s.pend ∧ (writeTrdStatus a0 a1 a2 s).tb = s.tb ∧ (writeTrdStatus a0 a1 a2 s).events = s.events ∧ (writeTrdStatus a0 a1 a2 s).host = s.host ∧ (writeTrdStatus a0 a1 a2 s).treads = s.treads ∧ (writeTrdStatus a0 a1 a2 s).flights = s.flights ∧ (writeTrdStatus a0 a1 a2 s).halls = s.halls ∧ (writeTrdStatus a0 a1 a2 s).grid = s.grid ∧ (writeTrdStatus a0 a1 a2 s).atr = s.atr ∧ (writeTrdStatus a0 a1 a2 s).treadsOld = s.treadsOld ∧ (writeTrdStatus a0 a1 a2 s).meas = s.meas ∧ (writeTrdStatus a0 a1 a2 s).safe = s.safe ∧ (writeTrdStatus a0 a1 a2 s).twin = s.twin ∧ (writeTrdStatus a0 a1 a2 s).stair = s.stair ∧ (writeTrdStatus a0 a1 a2 s).nvm = s.nvm ∧ (writeTrdStatus a0 a1 a2 s).streams = s.streams ∧ (writeTrdStatus a0 a1 a2 s).mem = s.mem := by
  unfold writeTrdStatus
  (try dsimp only)
  (repeat' split) <;> simp [apply_ite]

@[simp] theorem writeFlt_frame (a0 : Nat) (a1 : Nat) (a2 : Word) (s : State) :
    (writeFlt a0 a1 a2 s).2.pending = s.pending ∧ (writeFlt a0 a1 a2 s).2.reply = s.reply ∧ (writeFlt a0 a1 a2 s).2.out = s.out ∧ (writeFlt a0 a1 a2 s).2.freeCtr = s.freeCtr ∧ (writeFlt a0 a1 a2 s).2.aon = s.aon ∧ (writeFlt a0 a1 a2 s).2.tb = s.tb ∧ (writeFlt a0 a1 a2 s).2.events = s.events ∧ (writeFlt a0 a1 a2 s).2.host = s.host ∧ (writeFlt a0 a1 a2 s).2.treads = s.treads ∧ (writeFlt a0 a1 a2 s).2.cells = s.cells ∧ (writeFlt a0 a1 a2 s).2.halls = s.halls ∧ (writeFlt a0 a1 a2 s).2.grid = s.grid ∧ (writeFlt a0 a1 a2 s).2.atr = s.atr ∧ (writeFlt a0 a1 a2 s).2.treadsOld = s.treadsOld ∧ (writeFlt a0 a1 a2 s).2.meas = s.meas ∧ (writeFlt a0 a1 a2 s).2.safe = s.safe ∧ (writeFlt a0 a1 a2 s).2.therm = s.therm ∧ (writeFlt a0 a1 a2 s).2.twin = s.twin ∧ (writeFlt a0 a1 a2 s).2.stair = s.stair ∧ (writeFlt a0 a1 a2 s).2.nvm = s.nvm ∧ (writeFlt a0 a1 a2 s).2.streams = s.streams ∧ (writeFlt a0 a1 a2 s).2.mem = s.mem := by
  unfold writeFlt
  (try dsimp only)
  (repeat' split) <;> simp [apply_ite]

@[simp] theorem writeHall_frame (a0 : Nat) (a1 : Nat) (a2 : Word) (s : State) :
    (writeHall a0 a1 a2 s).2.pending = s.pending ∧ (writeHall a0 a1 a2 s).2.reply = s.reply ∧ (writeHall a0 a1 a2 s).2.out = s.out ∧ (writeHall a0 a1 a2 s).2.freeCtr = s.freeCtr ∧ (writeHall a0 a1 a2 s).2.aon = s.aon ∧ (writeHall a0 a1 a2 s).2.tb = s.tb ∧ (writeHall a0 a1 a2 s).2.events = s.events ∧ (writeHall a0 a1 a2 s).2.host = s.host ∧ (writeHall a0 a1 a2 s).2.treads = s.treads ∧ (writeHall a0 a1 a2 s).2.cells = s.cells ∧ (writeHall a0 a1 a2 s).2.flights = s.flights ∧ (writeHall a0 a1 a2 s).2.grid = s.grid ∧ (writeHall a0 a1 a2 s).2.treadsOld = s.treadsOld ∧ (writeHall a0 a1 a2 s).2.meas = s.meas ∧ (writeHall a0 a1 a2 s).2.safe = s.safe ∧ (writeHall a0 a1 a2 s).2.therm = s.therm ∧ (writeHall a0 a1 a2 s).2.twin = s.twin ∧ (writeHall a0 a1 a2 s).2.stair = s.stair ∧ (writeHall a0 a1 a2 s).2.nvm = s.nvm ∧ (writeHall a0 a1 a2 s).2.streams = s.streams ∧ (writeHall a0 a1 a2 s).2.mem = s.mem := by
  unfold writeHall
  (try dsimp only)
  (repeat' split) <;> simp [apply_ite]

@[simp] theorem writePtpTail_frame (a0 : Word) (s : State) :
    (writePtpTail a0 s).pending = s.pending ∧ (writePtpTail a0 s).reply = s.reply ∧ (writePtpTail a0 s).out = s.out ∧ (writePtpTail a0 s).freeCtr = s.freeCtr ∧ (writePtpTail a0 s).aon = s.aon ∧ (writePtpTail a0 s).cfg = s.cfg ∧ (writePtpTail a0 s).pend = s.pend ∧ (writePtpTail a0 s).tb = s.tb ∧ (writePtpTail a0 s).events = s.events ∧ (writePtpTail a0 s).treads = s.treads ∧ (writePtpTail a0 s).cells = s.cells ∧ (writePtpTail a0 s).flights = s.flights ∧ (writePtpTail a0 s).halls = s.halls ∧ (writePtpTail a0 s).grid = s.grid ∧ (writePtpTail a0 s).atr = s.atr ∧ (writePtpTail a0 s).treadsOld = s.treadsOld ∧ (writePtpTail a0 s).meas = s.meas ∧ (writePtpTail a0 s).safe = s.safe ∧ (writePtpTail a0 s).therm = s.therm ∧ (writePtpTail a0 s).twin = s.twin ∧ (writePtpTail a0 s).stair = s.stair ∧ (writePtpTail a0 s).nvm = s.nvm ∧ (writePtpTail a0 s).streams = s.streams ∧ (writePtpTail a0 s).mem = s.mem := by
  unfold writePtpTail
  (try dsimp only)
  (repeat' split) <;> simp [apply_ite]

@[simp] theorem writePtpTx_frame (a0 : Nat) (a1 : List (Nat × Word)) (s : State) :
    (writePtpTx a0 a1 s).pending = s.pending ∧ (writePtpTx a0 a1 s).reply = s.reply ∧ (writePtpTx a0 a1 s).out = s.out ∧ (writePtpTx a0 a1 s).freeCtr = s.freeCtr ∧ (writePtpTx a0 a1 s).aon = s.aon ∧ (writePtpTx a0 a1 s).cfg = s.cfg ∧ (writePtpTx a0 a1 s).pend = s.pend ∧ (writePtpTx a0 a1 s).tb = s.tb ∧ (writePtpTx a0 a1 s).events = s.events ∧ (writePtpTx a0 a1 s).treads = s.treads ∧ (writePtpTx a0 a1 s).cells = s.cells ∧ (writePtpTx a0 a1 s).flights = s.flights ∧ (writePtpTx a0 a1 s).halls = s.halls ∧ (writePtpTx a0 a1 s).grid = s.grid ∧ (writePtpTx a0 a1 s).atr = s.atr ∧ (writePtpTx a0 a1 s).treadsOld = s.treadsOld ∧ (writePtpTx a0 a1 s).meas = s.meas ∧ (writePtpTx a0 a1 s).safe = s.safe ∧ (writePtpTx a0 a1 s).therm = s.therm ∧ (writePtpTx a0 a1 s).twin = s.twin ∧ (writePtpTx a0 a1 s).stair = s.stair ∧ (writePtpTx a0 a1 s).nvm = s.nvm ∧ (writePtpTx a0 a1 s).streams = s.streams ∧ (writePtpTx a0 a1 s).mem = s.mem := by
  unfold writePtpTx
  refine ⟨?_, ?_, ?_, ?_, ?_, ?_, ?_, ?_, ?_, ?_, ?_, ?_, ?_, ?_, ?_, ?_, ?_, ?_, ?_, ?_, ?_, ?_, ?_, ?_⟩
  · simp only [apply_ite State.pending, ptpGo_frame, ite_self]
  · simp only [apply_ite State.reply, ptpGo_frame, ite_self]
  · simp only [apply_ite State.out, ptpGo_frame, ite_self]
  · simp only [apply_ite State.freeCtr, ptpGo_frame, ite_self]
  · simp only [apply_ite State.aon, ptpGo_frame, ite_self]
  · simp only [apply_ite State.cfg, ptpGo_frame, ite_self]
  · simp only [apply_ite State.pend, ptpGo_frame, ite_self]
  · simp only [apply_ite State.tb, ptpGo_frame, ite_self]
  · simp only [apply_ite State.events, ptpGo_frame, ite_self]
  · simp only [apply_ite State.treads, ptpGo_frame, ite_self]
  · simp only [apply_ite State.cells, ptpGo_frame, ite_self]
  · simp only [apply_ite State.flights, ptpGo_frame, ite_self]
  · simp only [apply_ite State.halls, ptpGo_frame, ite_self]
  · simp only [apply_ite State.grid, ptpGo_frame, ite_self]
  · simp only [apply_ite State.atr, ptpGo_frame, ite_self]
  · simp only [apply_ite State.treadsOld, ptpGo_frame, ite_self]
  · simp only [apply_ite State.meas, ptpGo_frame, ite_self]
  · simp only [apply_ite State.safe, ptpGo_frame, ite_self]
  · simp only [apply_ite State.therm, ptpGo_frame, ite_self]
  · simp only [apply_ite State.twin, ptpGo_frame, ite_self]
  · simp only [apply_ite State.stair, ptpGo_frame, ite_self]
  · simp only [apply_ite State.nvm, ptpGo_frame, ite_self]
  · simp only [apply_ite State.streams, ptpGo_frame, ite_self]
  · simp only [apply_ite State.mem, ptpGo_frame, ite_self]

@[simp] theorem writeHost_frame (a0 : Nat) (a1 : Word) (s : State) :
    (writeHost a0 a1 s).2.pending = s.pending ∧ (writeHost a0 a1 s).2.reply = s.reply ∧ (writeHost a0 a1 s).2.out = s.out ∧ (writeHost a0 a1 s).2.freeCtr = s.freeCtr ∧ (writeHost a0 a1 s).2.aon = s.aon ∧ (writeHost a0 a1 s).2.tb = s.tb ∧ (writeHost a0 a1 s).2.treads = s.treads ∧ (writeHost a0 a1 s).2.cells = s.cells ∧ (writeHost a0 a1 s).2.flights = s.flights ∧ (writeHost a0 a1 s).2.halls = s.halls ∧ (writeHost a0 a1 s).2.grid = s.grid ∧ (writeHost a0 a1 s).2.atr = s.atr ∧ (writeHost a0 a1 s).2.treadsOld = s.treadsOld ∧ (writeHost a0 a1 s).2.meas = s.meas ∧ (writeHost a0 a1 s).2.safe = s.safe ∧ (writeHost a0 a1 s).2.therm = s.therm ∧ (writeHost a0 a1 s).2.twin = s.twin ∧ (writeHost a0 a1 s).2.stair = s.stair ∧ (writeHost a0 a1 s).2.nvm = s.nvm ∧ (writeHost a0 a1 s).2.streams = s.streams ∧ (writeHost a0 a1 s).2.mem = s.mem := by
  unfold writeHost
  (try dsimp only)
  (repeat' split) <;> simp [apply_ite]

@[simp] theorem writeAna_frame (a0 : Nat) (a1 : Word) (s : State) :
    (writeAna a0 a1 s).2.pending = s.pending ∧ (writeAna a0 a1 s).2.reply = s.reply ∧ (writeAna a0 a1 s).2.out = s.out ∧ (writeAna a0 a1 s).2.freeCtr = s.freeCtr ∧ (writeAna a0 a1 s).2.aon = s.aon ∧ (writeAna a0 a1 s).2.tb = s.tb ∧ (writeAna a0 a1 s).2.events = s.events ∧ (writeAna a0 a1 s).2.host = s.host ∧ (writeAna a0 a1 s).2.treads = s.treads ∧ (writeAna a0 a1 s).2.cells = s.cells ∧ (writeAna a0 a1 s).2.flights = s.flights ∧ (writeAna a0 a1 s).2.halls = s.halls ∧ (writeAna a0 a1 s).2.grid = s.grid ∧ (writeAna a0 a1 s).2.atr = s.atr ∧ (writeAna a0 a1 s).2.treadsOld = s.treadsOld ∧ (writeAna a0 a1 s).2.safe = s.safe ∧ (writeAna a0 a1 s).2.therm = s.therm ∧ (writeAna a0 a1 s).2.twin = s.twin ∧ (writeAna a0 a1 s).2.stair = s.stair ∧ (writeAna a0 a1 s).2.nvm = s.nvm ∧ (writeAna a0 a1 s).2.streams = s.streams ∧ (writeAna a0 a1 s).2.mem = s.mem := by
  unfold writeAna
  (try dsimp only)
  (repeat' split) <;> simp [apply_ite]

@[simp] theorem writeTb_frame (a0 : Nat) (a1 : Word) (s : State) :
    (writeTb a0 a1 s).2.pending = s.pending ∧ (writeTb a0 a1 s).2.reply = s.reply ∧ (writeTb a0 a1 s).2.out = s.out ∧ (writeTb a0 a1 s).2.freeCtr = s.freeCtr ∧ (writeTb a0 a1 s).2.aon = s.aon ∧ (writeTb a0 a1 s).2.events = s.events ∧ (writeTb a0 a1 s).2.host = s.host ∧ (writeTb a0 a1 s).2.treads = s.treads ∧ (writeTb a0 a1 s).2.cells = s.cells ∧ (writeTb a0 a1 s).2.flights = s.flights ∧ (writeTb a0 a1 s).2.halls = s.halls ∧ (writeTb a0 a1 s).2.grid = s.grid ∧ (writeTb a0 a1 s).2.atr = s.atr ∧ (writeTb a0 a1 s).2.treadsOld = s.treadsOld ∧ (writeTb a0 a1 s).2.safe = s.safe ∧ (writeTb a0 a1 s).2.therm = s.therm ∧ (writeTb a0 a1 s).2.twin = s.twin ∧ (writeTb a0 a1 s).2.stair = s.stair ∧ (writeTb a0 a1 s).2.nvm = s.nvm ∧ (writeTb a0 a1 s).2.streams = s.streams ∧ (writeTb a0 a1 s).2.mem = s.mem := by
  unfold writeTb
  (try dsimp only)
  (repeat' split) <;> simp [apply_ite]

@[simp] theorem writeTwin_frame (a0 : Nat) (a1 : Word) (s : State) :
    (writeTwin a0 a1 s).2.pending = s.pending ∧ (writeTwin a0 a1 s).2.reply = s.reply ∧ (writeTwin a0 a1 s).2.freeCtr = s.freeCtr ∧ (writeTwin a0 a1 s).2.tb = s.tb ∧ (writeTwin a0 a1 s).2.treads = s.treads ∧ (writeTwin a0 a1 s).2.halls = s.halls ∧ (writeTwin a0 a1 s).2.grid = s.grid ∧ (writeTwin a0 a1 s).2.treadsOld = s.treadsOld ∧ (writeTwin a0 a1 s).2.meas = s.meas ∧ (writeTwin a0 a1 s).2.therm = s.therm ∧ (writeTwin a0 a1 s).2.streams = s.streams ∧ (writeTwin a0 a1 s).2.mem = s.mem := by
  unfold writeTwin
  (try dsimp only)
  (repeat' split) <;> simp [apply_ite]

@[simp] theorem writeLow_frame (a0 : Nat) (a1 : Word) (s : State) :
    (writeLow a0 a1 s).2.pending = s.pending ∧ (writeLow a0 a1 s).2.freeCtr = s.freeCtr ∧ (writeLow a0 a1 s).2.tb = s.tb ∧ (writeLow a0 a1 s).2.treadsOld = s.treadsOld ∧ (writeLow a0 a1 s).2.meas = s.meas ∧ (writeLow a0 a1 s).2.safe = s.safe ∧ (writeLow a0 a1 s).2.therm = s.therm ∧ (writeLow a0 a1 s).2.twin = s.twin ∧ (writeLow a0 a1 s).2.nvm = s.nvm ∧ (writeLow a0 a1 s).2.streams = s.streams ∧ (writeLow a0 a1 s).2.mem = s.mem := by
  unfold writeLow
  (try dsimp only)
  (repeat' split) <;> simp [apply_ite]

@[simp] theorem writeThm_frame (a0 : Nat) (a1 : Word) (s : State) :
    (writeThm a0 a1 s).pending = s.pending ∧ (writeThm a0 a1 s).reply = s.reply ∧ (writeThm a0 a1 s).out = s.out ∧ (writeThm a0 a1 s).freeCtr = s.freeCtr ∧ (writeThm a0 a1 s).aon = s.aon ∧ (writeThm a0 a1 s).tb = s.tb ∧ (writeThm a0 a1 s).events = s.events ∧ (writeThm a0 a1 s).host = s.host ∧ (writeThm a0 a1 s).treads = s.treads ∧ (writeThm a0 a1 s).flights = s.flights ∧ (writeThm a0 a1 s).halls = s.halls ∧ (writeThm a0 a1 s).grid = s.grid ∧ (writeThm a0 a1 s).atr = s.atr ∧ (writeThm a0 a1 s).treadsOld = s.treadsOld ∧ (writeThm a0 a1 s).meas = s.meas ∧ (writeThm a0 a1 s).safe = s.safe ∧ (writeThm a0 a1 s).twin = s.twin ∧ (writeThm a0 a1 s).stair = s.stair ∧ (writeThm a0 a1 s).nvm = s.nvm ∧ (writeThm a0 a1 s).streams = s.streams ∧ (writeThm a0 a1 s).mem = s.mem := by
  unfold writeThm
  (try dsimp only)
  (repeat' split) <;> simp [apply_ite]

@[simp] theorem writeOne_frame (a0 : Nat) (a1 : Word) (s : State) :
    (writeOne a0 a1 s).2.pending = s.pending ∧ (writeOne a0 a1 s).2.freeCtr = s.freeCtr ∧ (writeOne a0 a1 s).2.treadsOld = s.treadsOld ∧ (writeOne a0 a1 s).2.streams = s.streams ∧ (writeOne a0 a1 s).2.mem = s.mem := by
  unfold writeOne
  refine ⟨?_, ?_, ?_, ?_, ?_⟩
  · simp [apply_ite Prod.snd, apply_ite State.pending]
  · simp [apply_ite Prod.snd, apply_ite State.freeCtr]
  · simp [apply_ite Prod.snd, apply_ite State.treadsOld]
  · simp [apply_ite Prod.snd, apply_ite State.streams]
  · simp [apply_ite Prod.snd, apply_ite State.mem]

@[simp] theorem writeUnit_frame (a0 : Nat) (a1 : List (Nat × Word)) (s : State) :
    (writeUnit a0 a1 s).2.pending = s.pending ∧ (writeUnit a0 a1 s).2.freeCtr = s.freeCtr ∧ (writeUnit a0 a1 s).2.treadsOld = s.treadsOld ∧ (writeUnit a0 a1 s).2.mem = s.mem := by
  unfold writeUnit
  (try dsimp only)
  (repeat' split) <;> simp [apply_ite]

@[simp] theorem cfgWrite_frame (a0 : List (Nat × Word)) (s : State) :
    (cfgWrite a0 s).2.pending = s.pending ∧ (cfgWrite a0 s).2.freeCtr = s.freeCtr ∧ (cfgWrite a0 s).2.treadsOld = s.treadsOld ∧ (cfgWrite a0 s).2.mem = s.mem := by
  unfold cfgWrite
  (try dsimp only)
  (repeat' split) <;> simp [apply_ite]

theorem execCfgWrite_frame (a0 : List Word) (s t : State) (h : execCfgWrite a0 s = .next t) :
    t.pending = s.pending ∧ t.freeCtr = s.freeCtr ∧ t.treadsOld = s.treadsOld ∧ t.mem = s.mem := by
  unfold execCfgWrite at h; cases h; (try dsimp only); (repeat' split) <;> simp [apply_ite]

theorem execEvtPendClear_frame (a0 : Fin 8) (a1 : Word) (s t : State) (h : execEvtPendClear a0 a1 s = .next t) :
    t.pending = s.pending ∧ t.reply = s.reply ∧ t.out = s.out ∧ t.freeCtr = s.freeCtr ∧ t.aon = s.aon ∧ t.tb = s.tb ∧ t.treads = s.treads ∧ t.cells = s.cells ∧ t.flights = s.flights ∧ t.halls = s.halls ∧ t.grid = s.grid ∧ t.atr = s.atr ∧ t.treadsOld = s.treadsOld ∧ t.meas = s.meas ∧ t.safe = s.safe ∧ t.therm = s.therm ∧ t.twin = s.twin ∧ t.stair = s.stair ∧ t.nvm = s.nvm ∧ t.streams = s.streams ∧ t.mem = s.mem := by
  unfold execEvtPendClear at h; cases h; (try dsimp only); (repeat' split) <;> simp [apply_ite]

theorem execGpioFuncChange_frame (a0 : Fin 16) (a1 : Fin 8) (s t : State) (h : execGpioFuncChange a0 a1 s = .next t) :
    t.pending = s.pending ∧ t.reply = s.reply ∧ t.out = s.out ∧ t.freeCtr = s.freeCtr ∧ t.aon = s.aon ∧ t.tb = s.tb ∧ t.events = s.events ∧ t.host = s.host ∧ t.treads = s.treads ∧ t.cells = s.cells ∧ t.flights = s.flights ∧ t.halls = s.halls ∧ t.grid = s.grid ∧ t.treadsOld = s.treadsOld ∧ t.meas = s.meas ∧ t.safe = s.safe ∧ t.therm = s.therm ∧ t.twin = s.twin ∧ t.stair = s.stair ∧ t.nvm = s.nvm ∧ t.streams = s.streams ∧ t.mem = s.mem := by
  unfold execGpioFuncChange at h; cases h; (try dsimp only); (repeat' split) <;> simp [apply_ite]

@[simp] theorem applyPend_frame (s : State) :
    (applyPend s).pending = s.pending ∧ (applyPend s).reply = s.reply ∧ (applyPend s).out = s.out ∧ (applyPend s).freeCtr = s.freeCtr ∧ (applyPend s).aon = s.aon ∧ (applyPend s).tb = s.tb ∧ (applyPend s).events = s.events ∧ (applyPend s).host = s.host ∧ (applyPend s).treads = s.treads ∧ (applyPend s).cells = s.cells ∧ (applyPend s).flights = s.flights ∧ (applyPend s).halls = s.halls ∧ (applyPend s).grid = s.grid ∧ (applyPend s).atr = s.atr ∧ (applyPend s).treadsOld = s.treadsOld ∧ (applyPend s).meas = s.meas ∧ (applyPend s).safe = s.safe ∧ (applyPend s).therm = s.therm ∧ (applyPend s).twin = s.twin ∧ (applyPend s).stair = s.stair ∧ (applyPend s).nvm = s.nvm ∧ (applyPend s).streams = s.streams ∧ (applyPend s).mem = s.mem := by
  unfold applyPend
  (try dsimp only)
  (repeat' split) <;> simp [apply_ite]

@[simp] theorem newTc_frame (s : State) :
    (newTc s).pending = s.pending ∧ (newTc s).reply = s.reply ∧ (newTc s).freeCtr = s.freeCtr ∧ (newTc s).aon = s.aon ∧ (newTc s).cfg = s.cfg ∧ (newTc s).pend = s.pend ∧ (newTc s).tb = s.tb ∧ (newTc s).events = s.events ∧ (newTc s).host = s.host ∧ (newTc s).treads = s.treads ∧ (newTc s).cells = s.cells ∧ (newTc s).flights = s.flights ∧ (newTc s).halls = s.halls ∧ (newTc s).atr = s.atr ∧ (newTc s).treadsOld = s.treadsOld ∧ (newTc s).meas = s.meas ∧ (newTc s).safe = s.safe ∧ (newTc s).therm = s.therm ∧ (newTc s).twin = s.twin ∧ (newTc s).stair = s.stair ∧ (newTc s).nvm = s.nvm ∧ (newTc s).streams = s.streams ∧ (newTc s).mem = s.mem := by
  unfold newTc
  (try dsimp only)
  (repeat' split) <;> simp [apply_ite]

@[simp] theorem newDsd_frame (a0 : Word) (a1 : Nat) (s : State) :
    (newDsd a0 a1 s).pending = s.pending ∧ (newDsd a0 a1 s).reply = s.reply ∧ (newDsd a0 a1 s).out = s.out ∧ (newDsd a0 a1 s).freeCtr = s.freeCtr ∧ (newDsd a0 a1 s).aon = s.aon ∧ (newDsd a0 a1 s).cfg = s.cfg ∧ (newDsd a0 a1 s).pend = s.pend ∧ (newDsd a0 a1 s).tb = s.tb ∧ (newDsd a0 a1 s).events = s.events ∧ (newDsd a0 a1 s).host = s.host ∧ (newDsd a0 a1 s).treads = s.treads ∧ (newDsd a0 a1 s).cells = s.cells ∧ (newDsd a0 a1 s).flights = s.flights ∧ (newDsd a0 a1 s).halls = s.halls ∧ (newDsd a0 a1 s).grid = s.grid ∧ (newDsd a0 a1 s).atr = s.atr ∧ (newDsd a0 a1 s).treadsOld = s.treadsOld ∧ (newDsd a0 a1 s).safe = s.safe ∧ (newDsd a0 a1 s).therm = s.therm ∧ (newDsd a0 a1 s).twin = s.twin ∧ (newDsd a0 a1 s).stair = s.stair ∧ (newDsd a0 a1 s).nvm = s.nvm ∧ (newDsd a0 a1 s).streams = s.streams ∧ (newDsd a0 a1 s).mem = s.mem := by
  unfold newDsd
  (try dsimp only)
  (repeat' split) <;> simp [apply_ite]

@[simp] theorem committed_frame (a0 : Nat) (a1 : Word) (s : State) :
    (committed a0 a1 s).pending = s.pending ∧ (committed a0 a1 s).reply = s.reply ∧ (committed a0 a1 s).freeCtr = s.freeCtr ∧ (committed a0 a1 s).cfg = s.cfg ∧ (committed a0 a1 s).pend = s.pend ∧ (committed a0 a1 s).tb = s.tb ∧ (committed a0 a1 s).halls = s.halls ∧ (committed a0 a1 s).treadsOld = s.treadsOld ∧ (committed a0 a1 s).safe = s.safe ∧ (committed a0 a1 s).therm = s.therm ∧ (committed a0 a1 s).twin = s.twin ∧ (committed a0 a1 s).stair = s.stair ∧ (committed a0 a1 s).nvm = s.nvm ∧ (committed a0 a1 s).streams = s.streams ∧ (committed a0 a1 s).mem = s.mem := by
  unfold committed
  (try dsimp only)
  (repeat' split) <;> simp [apply_ite]

@[simp] theorem endWrites_frame (s : State) :
    (endWrites s).pending = s.pending ∧ (endWrites s).reply = s.reply ∧ (endWrites s).out = s.out ∧ (endWrites s).freeCtr = s.freeCtr ∧ (endWrites s).aon = s.aon ∧ (endWrites s).cfg = s.cfg ∧ (endWrites s).pend = s.pend ∧ (endWrites s).tb = s.tb ∧ (endWrites s).events = s.events ∧ (endWrites s).host = s.host ∧ (endWrites s).treads = s.treads ∧ (endWrites s).cells = s.cells ∧ (endWrites s).flights = s.flights ∧ (endWrites s).halls = s.halls ∧ (endWrites s).grid = s.grid ∧ (endWrites s).treadsOld = s.treadsOld ∧ (endWrites s).meas = s.meas ∧ (endWrites s).safe = s.safe ∧ (endWrites s).therm = s.therm ∧ (endWrites s).twin = s.twin ∧ (endWrites s).stair = s.stair ∧ (endWrites s).nvm = s.nvm ∧ (endWrites s).streams = s.streams ∧ (endWrites s).mem = s.mem := by
  unfold endWrites
  (try dsimp only)
  (repeat' split) <;> simp [apply_ite]

@[simp] theorem commitAll_frame (s : State) :
    (commitAll s).pending = s.pending ∧ (commitAll s).reply = s.reply ∧ (commitAll s).freeCtr = s.freeCtr ∧ (commitAll s).tb = s.tb ∧ (commitAll s).halls = s.halls ∧ (commitAll s).treadsOld = s.treadsOld ∧ (commitAll s).safe = s.safe ∧ (commitAll s).therm = s.therm ∧ (commitAll s).twin = s.twin ∧ (commitAll s).stair = s.stair ∧ (commitAll s).nvm = s.nvm ∧ (commitAll s).streams = s.streams ∧ (commitAll s).mem = s.mem := by
  unfold commitAll
  (try dsimp only)
  (repeat' split) <;> simp [apply_ite]

@[simp] theorem cfgResult_frame (a0 : Status) (a1 : Nat) (s : State) :
    (cfgResult a0 a1 s).pending = s.pending ∧ (cfgResult a0 a1 s).reply = s.reply ∧ (cfgResult a0 a1 s).out = s.out ∧ (cfgResult a0 a1 s).freeCtr = s.freeCtr ∧ (cfgResult a0 a1 s).aon = s.aon ∧ (cfgResult a0 a1 s).cfg = s.cfg ∧ (cfgResult a0 a1 s).pend = s.pend ∧ (cfgResult a0 a1 s).tb = s.tb ∧ (cfgResult a0 a1 s).events = s.events ∧ (cfgResult a0 a1 s).host = s.host ∧ (cfgResult a0 a1 s).treads = s.treads ∧ (cfgResult a0 a1 s).cells = s.cells ∧ (cfgResult a0 a1 s).flights = s.flights ∧ (cfgResult a0 a1 s).halls = s.halls ∧ (cfgResult a0 a1 s).grid = s.grid ∧ (cfgResult a0 a1 s).treadsOld = s.treadsOld ∧ (cfgResult a0 a1 s).meas = s.meas ∧ (cfgResult a0 a1 s).safe = s.safe ∧ (cfgResult a0 a1 s).therm = s.therm ∧ (cfgResult a0 a1 s).twin = s.twin ∧ (cfgResult a0 a1 s).stair = s.stair ∧ (cfgResult a0 a1 s).nvm = s.nvm ∧ (cfgResult a0 a1 s).streams = s.streams ∧ (cfgResult a0 a1 s).mem = s.mem := by
  unfold cfgResult
  (try dsimp only)
  (repeat' split) <;> simp [apply_ite]

@[simp] theorem commit_frame (a0 : Bool) (s : State) :
    (commit a0 s).2.2.pending = s.pending ∧ (commit a0 s).2.2.reply = s.reply ∧ (commit a0 s).2.2.freeCtr = s.freeCtr ∧ (commit a0 s).2.2.tb = s.tb ∧ (commit a0 s).2.2.halls = s.halls ∧ (commit a0 s).2.2.treadsOld = s.treadsOld ∧ (commit a0 s).2.2.safe = s.safe ∧ (commit a0 s).2.2.therm = s.therm ∧ (commit a0 s).2.2.twin = s.twin ∧ (commit a0 s).2.2.stair = s.stair ∧ (commit a0 s).2.2.nvm = s.nvm ∧ (commit a0 s).2.2.streams = s.streams ∧ (commit a0 s).2.2.mem = s.mem := by
  unfold commit
  (try dsimp only)
  (repeat' split) <;> simp [apply_ite]

@[simp] theorem cfgCommit_frame (a0 : List Word) (s : State) :
    (cfgCommit a0 s).pending = s.pending ∧ (cfgCommit a0 s).freeCtr = s.freeCtr ∧ (cfgCommit a0 s).tb = s.tb ∧ (cfgCommit a0 s).halls = s.halls ∧ (cfgCommit a0 s).treadsOld = s.treadsOld ∧ (cfgCommit a0 s).safe = s.safe ∧ (cfgCommit a0 s).therm = s.therm ∧ (cfgCommit a0 s).twin = s.twin ∧ (cfgCommit a0 s).stair = s.stair ∧ (cfgCommit a0 s).nvm = s.nvm ∧ (cfgCommit a0 s).streams = s.streams ∧ (cfgCommit a0 s).mem = s.mem := by
  unfold cfgCommit
  (try dsimp only)
  (repeat' split) <;> simp [apply_ite]

theorem execCfgCommit_frame (a0 : List Word) (s t : State) (h : execCfgCommit a0 s = .next t) :
    t.pending = s.pending ∧ t.freeCtr = s.freeCtr ∧ t.tb = s.tb ∧ t.halls = s.halls ∧ t.treadsOld = s.treadsOld ∧ t.safe = s.safe ∧ t.therm = s.therm ∧ t.twin = s.twin ∧ t.stair = s.stair ∧ t.nvm = s.nvm ∧ t.streams = s.streams ∧ t.mem = s.mem := by
  unfold execCfgCommit at h; cases h; (try dsimp only); (repeat' split) <;> simp [apply_ite]

theorem execCfgCommitCheck_frame (a0 : List Word) (s t : State) (h : execCfgCommitCheck a0 s = .next t) :
    t.pending = s.pending ∧ t.freeCtr = s.freeCtr ∧ t.tb = s.tb ∧ t.halls = s.halls ∧ t.treadsOld = s.treadsOld ∧ t.safe = s.safe ∧ t.therm = s.therm ∧ t.twin = s.twin ∧ t.stair = s.stair ∧ t.nvm = s.nvm ∧ t.streams = s.streams ∧ t.mem = s.mem := by
  unfold execCfgCommitCheck at h; cases h; (try dsimp only); (repeat' split) <;> simp [apply_ite]

theorem execCfgCommitDiscard_frame (a0 : List Word) (s t : State) (h : execCfgCommitDiscard a0 s = .next t) :
    t.pending = s.pending ∧ t.freeCtr = s.freeCtr ∧ t.tb = s.tb ∧ t.halls = s.halls ∧ t.treadsOld = s.treadsOld ∧ t.safe = s.safe ∧ t.therm = s.therm ∧ t.twin = s.twin ∧ t.stair = s.stair ∧ t.nvm = s.nvm ∧ t.streams = s.streams ∧ t.mem = s.mem := by
  unfold execCfgCommitDiscard at h; cases h; (try dsimp only); (repeat' split) <;> simp [apply_ite]

theorem execSignalWrite_frame (a0 : List Word) (s t : State) (h : execSignalWrite a0 s = .next t) :
    t.pending = s.pending ∧ t.out = s.out ∧ t.freeCtr = s.freeCtr ∧ t.aon = s.aon ∧ t.cfg = s.cfg ∧ t.pend = s.pend ∧ t.tb = s.tb ∧ t.events = s.events ∧ t.host = s.host ∧ t.treads = s.treads ∧ t.cells = s.cells ∧ t.flights = s.flights ∧ t.halls = s.halls ∧ t.grid = s.grid ∧ t.treadsOld = s.treadsOld ∧ t.meas = s.meas ∧ t.safe = s.safe ∧ t.therm = s.therm ∧ t.twin = s.twin ∧ t.stair = s.stair ∧ t.nvm = s.nvm ∧ t.streams = s.streams ∧ t.mem = s.mem := by
  unfold execSignalWrite at h; cases h
  refine ⟨?_, ?_, ?_, ?_, ?_, ?_, ?_, ?_, ?_, ?_, ?_, ?_, ?_, ?_, ?_, ?_, ?_, ?_, ?_, ?_, ?_, ?_, ?_⟩
  · refine command_pending _ _ _ fun s => ?_
    (try dsimp only); (repeat' split) <;> simp
  · refine command_out _ _ _ fun s => ?_
    (try dsimp only); (repeat' split) <;> simp
  · refine command_freeCtr _ _ _ fun s => ?_
    (try dsimp only); (repeat' split) <;> simp
  · refine command_aon _ _ _ fun s => ?_
    (try dsimp only); (repeat' split) <;> simp
  · refine command_cfg _ _ _ fun s => ?_
    (try dsimp only); (repeat' split) <;> simp
  · refine command_pend _ _ _ fun s => ?_
    (try dsimp only); (repeat' split) <;> simp
  · refine command_tb _ _ _ fun s => ?_
    (try dsimp only); (repeat' split) <;> simp
  · refine command_events _ _ _ fun s => ?_
    (try dsimp only); (repeat' split) <;> simp
  · refine command_host _ _ _ fun s => ?_
    (try dsimp only); (repeat' split) <;> simp
  · refine command_treads _ _ _ fun s => ?_
    (try dsimp only); (repeat' split) <;> simp
  · refine command_cells _ _ _ fun s => ?_
    (try dsimp only); (repeat' split) <;> simp
  · refine command_flights _ _ _ fun s => ?_
    (try dsimp only); (repeat' split) <;> simp
  · refine command_halls _ _ _ fun s => ?_
    (try dsimp only); (repeat' split) <;> simp
  · refine command_grid _ _ _ fun s => ?_
    (try dsimp only); (repeat' split) <;> simp
  · refine command_treadsOld _ _ _ fun s => ?_
    (try dsimp only); (repeat' split) <;> simp
  · refine command_meas _ _ _ fun s => ?_
    (try dsimp only); (repeat' split) <;> simp
  · refine command_safe _ _ _ fun s => ?_
    (try dsimp only); (repeat' split) <;> simp
  · refine command_therm _ _ _ fun s => ?_
    (try dsimp only); (repeat' split) <;> simp
  · refine command_twin _ _ _ fun s => ?_
    (try dsimp only); (repeat' split) <;> simp
  · refine command_stair _ _ _ fun s => ?_
    (try dsimp only); (repeat' split) <;> simp
  · refine command_nvm _ _ _ fun s => ?_
    (try dsimp only); (repeat' split) <;> simp
  · refine command_streams _ _ _ fun s => ?_
    (try dsimp only); (repeat' split) <;> simp
  · refine command_mem _ _ _ fun s => ?_
    (try dsimp only); (repeat' split) <;> simp

theorem execNvmStore_frame (a0 : List Word) (s t : State) (h : execNvmStore a0 s = .next t) :
    t.pending = s.pending ∧ t.freeCtr = s.freeCtr ∧ t.cfg = s.cfg ∧ t.pend = s.pend ∧ t.tb = s.tb ∧ t.treads = s.treads ∧ t.cells = s.cells ∧ t.flights = s.flights ∧ t.halls = s.halls ∧ t.grid = s.grid ∧ t.treadsOld = s.treadsOld ∧ t.safe = s.safe ∧ t.therm = s.therm ∧ t.twin = s.twin ∧ t.stair = s.stair ∧ t.streams = s.streams ∧ t.mem = s.mem := by
  unfold execNvmStore at h; cases h
  refine ⟨?_, ?_, ?_, ?_, ?_, ?_, ?_, ?_, ?_, ?_, ?_, ?_, ?_, ?_, ?_, ?_, ?_⟩
  · repeat' (first | (simp [apply_ite State.pending]; done) | with_reducible refine (each_keep State.pending _ _ _ (fun _ _ => ?_)).trans ?_ | with_reducible refine command_keep State.pending _ _ _ (fun _ => ?_) (fun _ => ?_) | split)
  · repeat' (first | (simp [apply_ite State.freeCtr]; done) | with_reducible refine (each_keep State.freeCtr _ _ _ (fun _ _ => ?_)).trans ?_ | with_reducible refine command_keep State.freeCtr _ _ _ (fun _ => ?_) (fun _ => ?_) | split)
  · repeat' (first | (simp [apply_ite State.cfg]; done) | with_reducible refine (each_keep State.cfg _ _ _ (fun _ _ => ?_)).trans ?_ | with_reducible refine command_keep State.cfg _ _ _ (fun _ => ?_) (fun _ => ?_) | split)
  · repeat' (first | (simp [apply_ite State.pend]; done) | with_reducible refine (each_keep State.pend _ _ _ (fun _ _ => ?_)).trans ?_ | with_reducible refine command_keep State.pend _ _ _ (fun _ => ?_) (fun _ => ?_) | split)
  · repeat' (first | (simp [apply_ite State.tb]; done) | with_reducible refine (each_keep State.tb _ _ _ (fun _ _ => ?_)).trans ?_ | with_reducible refine command_keep State.tb _ _ _ (fun _ => ?_) (fun _ => ?_) | split)
  · repeat' (first | (simp [apply_ite State.treads]; done) | with_reducible refine (each_keep State.treads _ _ _ (fun _ _ => ?_)).trans ?_ | with_reducible refine command_keep State.treads _ _ _ (fun _ => ?_) (fun _ => ?_) | split)
  · repeat' (first | (simp [apply_ite State.cells]; done) | with_reducible refine (each_keep State.cells _ _ _ (fun _ _ => ?_)).trans ?_ | with_reducible refine command_keep State.cells _ _ _ (fun _ => ?_) (fun _ => ?_) | split)
  · repeat' (first | (simp [apply_ite State.flights]; done) | with_reducible refine (each_keep State.flights _ _ _ (fun _ _ => ?_)).trans ?_ | with_reducible refine command_keep State.flights _ _ _ (fun _ => ?_) (fun _ => ?_) | split)
  · repeat' (first | (simp [apply_ite State.halls]; done) | with_reducible refine (each_keep State.halls _ _ _ (fun _ _ => ?_)).trans ?_ | with_reducible refine command_keep State.halls _ _ _ (fun _ => ?_) (fun _ => ?_) | split)
  · repeat' (first | (simp [apply_ite State.grid]; done) | with_reducible refine (each_keep State.grid _ _ _ (fun _ _ => ?_)).trans ?_ | with_reducible refine command_keep State.grid _ _ _ (fun _ => ?_) (fun _ => ?_) | split)
  · repeat' (first | (simp [apply_ite State.treadsOld]; done) | with_reducible refine (each_keep State.treadsOld _ _ _ (fun _ _ => ?_)).trans ?_ | with_reducible refine command_keep State.treadsOld _ _ _ (fun _ => ?_) (fun _ => ?_) | split)
  · repeat' (first | (simp [apply_ite State.safe]; done) | with_reducible refine (each_keep State.safe _ _ _ (fun _ _ => ?_)).trans ?_ | with_reducible refine command_keep State.safe _ _ _ (fun _ => ?_) (fun _ => ?_) | split)
  · repeat' (first | (simp [apply_ite State.therm]; done) | with_reducible refine (each_keep State.therm _ _ _ (fun _ _ => ?_)).trans ?_ | with_reducible refine command_keep State.therm _ _ _ (fun _ => ?_) (fun _ => ?_) | split)
  · repeat' (first | (simp [apply_ite State.twin]; done) | with_reducible refine (each_keep State.twin _ _ _ (fun _ _ => ?_)).trans ?_ | with_reducible refine command_keep State.twin _ _ _ (fun _ => ?_) (fun _ => ?_) | split)
  · repeat' (first | (simp [apply_ite State.stair]; done) | with_reducible refine (each_keep State.stair _ _ _ (fun _ _ => ?_)).trans ?_ | with_reducible refine command_keep State.stair _ _ _ (fun _ => ?_) (fun _ => ?_) | split)
  · repeat' (first | (simp [apply_ite State.streams]; done) | with_reducible refine (each_keep State.streams _ _ _ (fun _ _ => ?_)).trans ?_ | with_reducible refine command_keep State.streams _ _ _ (fun _ => ?_) (fun _ => ?_) | split)
  · repeat' (first | (simp [apply_ite State.mem]; done) | with_reducible refine (each_keep State.mem _ _ _ (fun _ _ => ?_)).trans ?_ | with_reducible refine command_keep State.mem _ _ _ (fun _ => ?_) (fun _ => ?_) | split)

@[simp] theorem applySet_frame (a0 : ParamSet) (s : State) :
    (applySet a0 s).2.2.pending = s.pending ∧ (applySet a0 s).2.2.freeCtr = s.freeCtr ∧ (applySet a0 s).2.2.treadsOld = s.treadsOld ∧ (applySet a0 s).2.2.mem = s.mem := by
  unfold applySet
  (try dsimp only)
  (repeat' split) <;> simp [apply_ite]

@[simp] theorem loadReply_frame (a0 : Nat) (x : Status × Nat × State) :
    (loadReply a0 x).pending = x.2.2.pending ∧ (loadReply a0 x).out = x.2.2.out ∧ (loadReply a0 x).freeCtr = x.2.2.freeCtr ∧ (loadReply a0 x).aon = x.2.2.aon ∧ (loadReply a0 x).cfg = x.2.2.cfg ∧ (loadReply a0 x).pend = x.2.2.pend ∧ (loadReply a0 x).tb = x.2.2.tb ∧ (loadReply a0 x).events = x.2.2.events ∧ (loadReply a0 x).host = x.2.2.host ∧ (loadReply a0 x).treads = x.2.2.treads ∧ (loadReply a0 x).cells = x.2.2.cells ∧ (loadReply a0 x).flights = x.2.2.flights ∧ (loadReply a0 x).halls = x.2.2.halls ∧ (loadReply a0 x).grid = x.2.2.grid ∧ (loadReply a0 x).atr = x.2.2.atr ∧ (loadReply a0 x).treadsOld = x.2.2.treadsOld ∧ (loadReply a0 x).meas = x.2.2.meas ∧ (loadReply a0 x).safe = x.2.2.safe ∧ (loadReply a0 x).therm = x.2.2.therm ∧ (loadReply a0 x).twin = x.2.2.twin ∧ (loadReply a0 x).stair = x.2.2.stair ∧ (loadReply a0 x).nvm = x.2.2.nvm ∧ (loadReply a0 x).streams = x.2.2.streams ∧ (loadReply a0 x).mem = x.2.2.mem := by
  unfold loadReply
  (try dsimp only)
  (repeat' split) <;> simp [apply_ite]

theorem execNvmLoad_frame (a0 : List Word) (s t : State) (h : execNvmLoad a0 s = .next t) :
    t.pending = s.pending ∧ t.freeCtr = s.freeCtr ∧ t.treadsOld = s.treadsOld ∧ t.mem = s.mem := by
  unfold execNvmLoad at h; cases h
  refine ⟨?_, ?_, ?_, ?_⟩
  · refine command_pending _ _ _ fun s => ?_
    (try dsimp only); (repeat' split) <;> simp
  · refine command_freeCtr _ _ _ fun s => ?_
    (try dsimp only); (repeat' split) <;> simp
  · refine command_treadsOld _ _ _ fun s => ?_
    (try dsimp only); (repeat' split) <;> simp
  · refine command_mem _ _ _ fun s => ?_
    (try dsimp only); (repeat' split) <;> simp

@[simp] theorem nop_frame (a0 : List Word) (s : State) :
    (nop a0 s).pending = s.pending ∧ (nop a0 s).out = s.out ∧ (nop a0 s).freeCtr = s.freeCtr ∧ (nop a0 s).aon = s.aon ∧ (nop a0 s).cfg = s.cfg ∧ (nop a0 s).pend = s.pend ∧ (nop a0 s).tb = s.tb ∧ (nop a0 s).events = s.events ∧ (nop a0 s).host = s.host ∧ (nop a0 s).treads = s.treads ∧ (nop a0 s).cells = s.cells ∧ (nop a0 s).flights = s.flights ∧ (nop a0 s).halls = s.halls ∧ (nop a0 s).grid = s.grid ∧ (nop a0 s).atr = s.atr ∧ (nop a0 s).treadsOld = s.treadsOld ∧ (nop a0 s).meas = s.meas ∧ (nop a0 s).safe = s.safe ∧ (nop a0 s).therm = s.therm ∧ (nop a0 s).twin = s.twin ∧ (nop a0 s).stair = s.stair ∧ (nop a0 s).nvm = s.nvm ∧ (nop a0 s).streams = s.streams ∧ (nop a0 s).mem = s.mem := by
  unfold nop
  (try dsimp only)
  (repeat' split) <;> simp [apply_ite]

theorem execNop_frame (a0 : List Word) (s t : State) (h : execNop a0 s = .next t) :
    t.pending = s.pending ∧ t.out = s.out ∧ t.freeCtr = s.freeCtr ∧ t.aon = s.aon ∧ t.cfg = s.cfg ∧ t.pend = s.pend ∧ t.tb = s.tb ∧ t.events = s.events ∧ t.host = s.host ∧ t.treads = s.treads ∧ t.cells = s.cells ∧ t.flights = s.flights ∧ t.halls = s.halls ∧ t.grid = s.grid ∧ t.atr = s.atr ∧ t.treadsOld = s.treadsOld ∧ t.meas = s.meas ∧ t.safe = s.safe ∧ t.therm = s.therm ∧ t.twin = s.twin ∧ t.stair = s.stair ∧ t.nvm = s.nvm ∧ t.streams = s.streams ∧ t.mem = s.mem := by
  unfold execNop at h; cases h; (try dsimp only); (repeat' split) <;> simp [apply_ite]

theorem execResync_frame (a0 : Fin 64) (a1 : Word) (s t : State) (h : execResync a0 a1 s = .next t) :
    t.pending = s.pending ∧ t.out = s.out ∧ t.freeCtr = s.freeCtr ∧ t.aon = s.aon ∧ t.cfg = s.cfg ∧ t.pend = s.pend ∧ t.tb = s.tb ∧ t.events = s.events ∧ t.treads = s.treads ∧ t.cells = s.cells ∧ t.flights = s.flights ∧ t.halls = s.halls ∧ t.grid = s.grid ∧ t.atr = s.atr ∧ t.treadsOld = s.treadsOld ∧ t.meas = s.meas ∧ t.safe = s.safe ∧ t.therm = s.therm ∧ t.twin = s.twin ∧ t.stair = s.stair ∧ t.nvm = s.nvm ∧ t.streams = s.streams ∧ t.mem = s.mem := by
  unfold execResync at h; cases h; (try dsimp only); (repeat' split) <;> simp [apply_ite]

@[simp] theorem identify_frame (a0 : List Word) (s : State) :
    (identify a0 s).pending = s.pending ∧ (identify a0 s).out = s.out ∧ (identify a0 s).freeCtr = s.freeCtr ∧ (identify a0 s).aon = s.aon ∧ (identify a0 s).cfg = s.cfg ∧ (identify a0 s).pend = s.pend ∧ (identify a0 s).tb = s.tb ∧ (identify a0 s).events = s.events ∧ (identify a0 s).host = s.host ∧ (identify a0 s).treads = s.treads ∧ (identify a0 s).cells = s.cells ∧ (identify a0 s).flights = s.flights ∧ (identify a0 s).halls = s.halls ∧ (identify a0 s).grid = s.grid ∧ (identify a0 s).atr = s.atr ∧ (identify a0 s).treadsOld = s.treadsOld ∧ (identify a0 s).meas = s.meas ∧ (identify a0 s).safe = s.safe ∧ (identify a0 s).therm = s.therm ∧ (identify a0 s).twin = s.twin ∧ (identify a0 s).stair = s.stair ∧ (identify a0 s).nvm = s.nvm ∧ (identify a0 s).streams = s.streams ∧ (identify a0 s).mem = s.mem := by
  unfold identify
  (try dsimp only)
  (repeat' split) <;> simp [apply_ite]

theorem execIdentify_frame (a0 : List Word) (s t : State) (h : execIdentify a0 s = .next t) :
    t.pending = s.pending ∧ t.out = s.out ∧ t.freeCtr = s.freeCtr ∧ t.aon = s.aon ∧ t.cfg = s.cfg ∧ t.pend = s.pend ∧ t.tb = s.tb ∧ t.events = s.events ∧ t.host = s.host ∧ t.treads = s.treads ∧ t.cells = s.cells ∧ t.flights = s.flights ∧ t.halls = s.halls ∧ t.grid = s.grid ∧ t.atr = s.atr ∧ t.treadsOld = s.treadsOld ∧ t.meas = s.meas ∧ t.safe = s.safe ∧ t.therm = s.therm ∧ t.twin = s.twin ∧ t.stair = s.stair ∧ t.nvm = s.nvm ∧ t.streams = s.streams ∧ t.mem = s.mem := by
  unfold execIdentify at h; cases h; (try dsimp only); (repeat' split) <;> simp [apply_ite]

@[simp] theorem status_frame (a0 : List Word) (s : State) :
    (status a0 s).pending = s.pending ∧ (status a0 s).out = s.out ∧ (status a0 s).freeCtr = s.freeCtr ∧ (status a0 s).aon = s.aon ∧ (status a0 s).cfg = s.cfg ∧ (status a0 s).pend = s.pend ∧ (status a0 s).tb = s.tb ∧ (status a0 s).events = s.events ∧ (status a0 s).host = s.host ∧ (status a0 s).treads = s.treads ∧ (status a0 s).cells = s.cells ∧ (status a0 s).flights = s.flights ∧ (status a0 s).halls = s.halls ∧ (status a0 s).grid = s.grid ∧ (status a0 s).atr = s.atr ∧ (status a0 s).treadsOld = s.treadsOld ∧ (status a0 s).meas = s.meas ∧ (status a0 s).safe = s.safe ∧ (status a0 s).therm = s.therm ∧ (status a0 s).twin = s.twin ∧ (status a0 s).stair = s.stair ∧ (status a0 s).nvm = s.nvm ∧ (status a0 s).streams = s.streams ∧ (status a0 s).mem = s.mem := by
  unfold status
  (try dsimp only)
  (repeat' split) <;> simp [apply_ite]

theorem execStatus_frame (a0 : List Word) (s t : State) (h : execStatus a0 s = .next t) :
    t.pending = s.pending ∧ t.out = s.out ∧ t.freeCtr = s.freeCtr ∧ t.aon = s.aon ∧ t.cfg = s.cfg ∧ t.pend = s.pend ∧ t.tb = s.tb ∧ t.events = s.events ∧ t.host = s.host ∧ t.treads = s.treads ∧ t.cells = s.cells ∧ t.flights = s.flights ∧ t.halls = s.halls ∧ t.grid = s.grid ∧ t.atr = s.atr ∧ t.treadsOld = s.treadsOld ∧ t.meas = s.meas ∧ t.safe = s.safe ∧ t.therm = s.therm ∧ t.twin = s.twin ∧ t.stair = s.stair ∧ t.nvm = s.nvm ∧ t.streams = s.streams ∧ t.mem = s.mem := by
  unfold execStatus at h; cases h; (try dsimp only); (repeat' split) <;> simp [apply_ite]

theorem execEventRoute_frame (a0 : List Word) (s t : State) (h : execEventRoute a0 s = .next t) :
    t.pending = s.pending ∧ t.out = s.out ∧ t.freeCtr = s.freeCtr ∧ t.aon = s.aon ∧ t.pend = s.pend ∧ t.tb = s.tb ∧ t.events = s.events ∧ t.host = s.host ∧ t.treads = s.treads ∧ t.cells = s.cells ∧ t.flights = s.flights ∧ t.halls = s.halls ∧ t.grid = s.grid ∧ t.atr = s.atr ∧ t.treadsOld = s.treadsOld ∧ t.meas = s.meas ∧ t.safe = s.safe ∧ t.therm = s.therm ∧ t.twin = s.twin ∧ t.stair = s.stair ∧ t.nvm = s.nvm ∧ t.streams = s.streams ∧ t.mem = s.mem := by
  unfold execEventRoute at h; cases h; (try dsimp only); (repeat' split) <;> simp [apply_ite]

theorem execEventRead_frame (a0 : List Word) (s t : State) (h : execEventRead a0 s = .next t) :
    t.pending = s.pending ∧ t.out = s.out ∧ t.freeCtr = s.freeCtr ∧ t.aon = s.aon ∧ t.cfg = s.cfg ∧ t.pend = s.pend ∧ t.tb = s.tb ∧ t.host = s.host ∧ t.treads = s.treads ∧ t.cells = s.cells ∧ t.flights = s.flights ∧ t.halls = s.halls ∧ t.grid = s.grid ∧ t.atr = s.atr ∧ t.treadsOld = s.treadsOld ∧ t.meas = s.meas ∧ t.safe = s.safe ∧ t.therm = s.therm ∧ t.twin = s.twin ∧ t.stair = s.stair ∧ t.nvm = s.nvm ∧ t.streams = s.streams ∧ t.mem = s.mem := by
  unfold execEventRead at h; cases h; (try dsimp only); (repeat' split) <;> simp [apply_ite]

@[simp] theorem compareAdc_frame (a0 : Nat) (a1 : Bool) (s : State) :
    (compareAdc a0 a1 s).pending = s.pending ∧ (compareAdc a0 a1 s).reply = s.reply ∧ (compareAdc a0 a1 s).freeCtr = s.freeCtr ∧ (compareAdc a0 a1 s).cfg = s.cfg ∧ (compareAdc a0 a1 s).pend = s.pend ∧ (compareAdc a0 a1 s).tb = s.tb ∧ (compareAdc a0 a1 s).treads = s.treads ∧ (compareAdc a0 a1 s).cells = s.cells ∧ (compareAdc a0 a1 s).flights = s.flights ∧ (compareAdc a0 a1 s).halls = s.halls ∧ (compareAdc a0 a1 s).grid = s.grid ∧ (compareAdc a0 a1 s).treadsOld = s.treadsOld ∧ (compareAdc a0 a1 s).safe = s.safe ∧ (compareAdc a0 a1 s).therm = s.therm ∧ (compareAdc a0 a1 s).twin = s.twin ∧ (compareAdc a0 a1 s).stair = s.stair ∧ (compareAdc a0 a1 s).nvm = s.nvm ∧ (compareAdc a0 a1 s).streams = s.streams ∧ (compareAdc a0 a1 s).mem = s.mem := by
  unfold compareAdc
  (try dsimp only)
  (repeat' split) <;> simp [apply_ite]

@[simp] theorem comparePulse_frame (a0 : Nat) (a1 : Nat) (s : State) :
    (comparePulse a0 a1 s).pending = s.pending ∧ (comparePulse a0 a1 s).reply = s.reply ∧ (comparePulse a0 a1 s).out = s.out ∧ (comparePulse a0 a1 s).freeCtr = s.freeCtr ∧ (comparePulse a0 a1 s).aon = s.aon ∧ (comparePulse a0 a1 s).cfg = s.cfg ∧ (comparePulse a0 a1 s).pend = s.pend ∧ (comparePulse a0 a1 s).tb = s.tb ∧ (comparePulse a0 a1 s).events = s.events ∧ (comparePulse a0 a1 s).host = s.host ∧ (comparePulse a0 a1 s).treads = s.treads ∧ (comparePulse a0 a1 s).cells = s.cells ∧ (comparePulse a0 a1 s).flights = s.flights ∧ (comparePulse a0 a1 s).halls = s.halls ∧ (comparePulse a0 a1 s).grid = s.grid ∧ (comparePulse a0 a1 s).treadsOld = s.treadsOld ∧ (comparePulse a0 a1 s).meas = s.meas ∧ (comparePulse a0 a1 s).safe = s.safe ∧ (comparePulse a0 a1 s).therm = s.therm ∧ (comparePulse a0 a1 s).twin = s.twin ∧ (comparePulse a0 a1 s).stair = s.stair ∧ (comparePulse a0 a1 s).nvm = s.nvm ∧ (comparePulse a0 a1 s).streams = s.streams ∧ (comparePulse a0 a1 s).mem = s.mem := by
  unfold comparePulse
  (try dsimp only)
  (repeat' split) <;> simp [apply_ite]

@[simp] theorem carrierSync_frame (a0 : Nat) (s : State) :
    (carrierSync a0 s).pending = s.pending ∧ (carrierSync a0 s).reply = s.reply ∧ (carrierSync a0 s).out = s.out ∧ (carrierSync a0 s).freeCtr = s.freeCtr ∧ (carrierSync a0 s).aon = s.aon ∧ (carrierSync a0 s).cfg = s.cfg ∧ (carrierSync a0 s).pend = s.pend ∧ (carrierSync a0 s).tb = s.tb ∧ (carrierSync a0 s).events = s.events ∧ (carrierSync a0 s).host = s.host ∧ (carrierSync a0 s).treads = s.treads ∧ (carrierSync a0 s).cells = s.cells ∧ (carrierSync a0 s).flights = s.flights ∧ (carrierSync a0 s).grid = s.grid ∧ (carrierSync a0 s).atr = s.atr ∧ (carrierSync a0 s).treadsOld = s.treadsOld ∧ (carrierSync a0 s).meas = s.meas ∧ (carrierSync a0 s).safe = s.safe ∧ (carrierSync a0 s).therm = s.therm ∧ (carrierSync a0 s).twin = s.twin ∧ (carrierSync a0 s).stair = s.stair ∧ (carrierSync a0 s).nvm = s.nvm ∧ (carrierSync a0 s).streams = s.streams ∧ (carrierSync a0 s).mem = s.mem := by
  unfold carrierSync
  (try dsimp only)
  (repeat' split) <;> simp [apply_ite]

@[simp] theorem compareAction_frame (a0 : Compare) (a1 : Bool) (s : State) :
    (compareAction a0 a1 s).pending = s.pending ∧ (compareAction a0 a1 s).reply = s.reply ∧ (compareAction a0 a1 s).freeCtr = s.freeCtr ∧ (compareAction a0 a1 s).cfg = s.cfg ∧ (compareAction a0 a1 s).pend = s.pend ∧ (compareAction a0 a1 s).tb = s.tb ∧ (compareAction a0 a1 s).treads = s.treads ∧ (compareAction a0 a1 s).cells = s.cells ∧ (compareAction a0 a1 s).flights = s.flights ∧ (compareAction a0 a1 s).grid = s.grid ∧ (compareAction a0 a1 s).treadsOld = s.treadsOld ∧ (compareAction a0 a1 s).safe = s.safe ∧ (compareAction a0 a1 s).therm = s.therm ∧ (compareAction a0 a1 s).twin = s.twin ∧ (compareAction a0 a1 s).stair = s.stair ∧ (compareAction a0 a1 s).nvm = s.nvm ∧ (compareAction a0 a1 s).streams = s.streams ∧ (compareAction a0 a1 s).mem = s.mem := by
  unfold compareAction
  (try dsimp only)
  (repeat' split) <;> simp [apply_ite]

@[simp] theorem fireCompare_frame (a0 : Nat) (s : State) :
    (fireCompare a0 s).pending = s.pending ∧ (fireCompare a0 s).reply = s.reply ∧ (fireCompare a0 s).freeCtr = s.freeCtr ∧ (fireCompare a0 s).cfg = s.cfg ∧ (fireCompare a0 s).pend = s.pend ∧ (fireCompare a0 s).treads = s.treads ∧ (fireCompare a0 s).cells = s.cells ∧ (fireCompare a0 s).flights = s.flights ∧ (fireCompare a0 s).grid = s.grid ∧ (fireCompare a0 s).treadsOld = s.treadsOld ∧ (fireCompare a0 s).safe = s.safe ∧ (fireCompare a0 s).therm = s.therm ∧ (fireCompare a0 s).twin = s.twin ∧ (fireCompare a0 s).stair = s.stair ∧ (fireCompare a0 s).nvm = s.nvm ∧ (fireCompare a0 s).streams = s.streams ∧ (fireCompare a0 s).mem = s.mem := by
  unfold fireCompare
  (try dsimp only)
  (repeat' split) <;> simp [apply_ite]

theorem execCompareFire_frame (a0 : Fin 16) (s t : State) (h : execCompareFire a0 s = .next t) :
    t.pending = s.pending ∧ t.reply = s.reply ∧ t.freeCtr = s.freeCtr ∧ t.cfg = s.cfg ∧ t.pend = s.pend ∧ t.treads = s.treads ∧ t.cells = s.cells ∧ t.flights = s.flights ∧ t.grid = s.grid ∧ t.treadsOld = s.treadsOld ∧ t.safe = s.safe ∧ t.therm = s.therm ∧ t.twin = s.twin ∧ t.stair = s.stair ∧ t.nvm = s.nvm ∧ t.streams = s.streams ∧ t.mem = s.mem := by
  unfold execCompareFire at h; cases h; (try dsimp only); (repeat' split) <;> simp [apply_ite]

theorem execTbUntrusted_frame (s t : State) (h : execTbUntrusted s = .next t) :
    t.pending = s.pending ∧ t.reply = s.reply ∧ t.freeCtr = s.freeCtr ∧ t.cfg = s.cfg ∧ t.pend = s.pend ∧ t.treads = s.treads ∧ t.flights = s.flights ∧ t.halls = s.halls ∧ t.grid = s.grid ∧ t.treadsOld = s.treadsOld ∧ t.meas = s.meas ∧ t.therm = s.therm ∧ t.twin = s.twin ∧ t.stair = s.stair ∧ t.streams = s.streams ∧ t.mem = s.mem := by
  unfold execTbUntrusted at h; cases h; (try dsimp only); (repeat' split) <;> simp [apply_ite]

theorem execGrossFrequencyError_frame (a0 : Bool) (a1 : Bool) (s t : State) (h : execGrossFrequencyError a0 a1 s = .next t) :
    t.pending = s.pending ∧ t.reply = s.reply ∧ t.freeCtr = s.freeCtr ∧ t.cfg = s.cfg ∧ t.pend = s.pend ∧ t.treads = s.treads ∧ t.flights = s.flights ∧ t.halls = s.halls ∧ t.grid = s.grid ∧ t.treadsOld = s.treadsOld ∧ t.meas = s.meas ∧ t.therm = s.therm ∧ t.stair = s.stair ∧ t.streams = s.streams ∧ t.mem = s.mem := by
  unfold execGrossFrequencyError at h; cases h; (try dsimp only); (repeat' split) <;> simp [apply_ite]

@[simp] theorem mgmtRead_frame (a0 : Nat) (s : State) :
    (mgmtRead a0 s).pending = s.pending ∧ (mgmtRead a0 s).reply = s.reply ∧ (mgmtRead a0 s).cfg = s.cfg ∧ (mgmtRead a0 s).pend = s.pend ∧ (mgmtRead a0 s).tb = s.tb ∧ (mgmtRead a0 s).events = s.events ∧ (mgmtRead a0 s).host = s.host ∧ (mgmtRead a0 s).treads = s.treads ∧ (mgmtRead a0 s).cells = s.cells ∧ (mgmtRead a0 s).flights = s.flights ∧ (mgmtRead a0 s).halls = s.halls ∧ (mgmtRead a0 s).grid = s.grid ∧ (mgmtRead a0 s).atr = s.atr ∧ (mgmtRead a0 s).treadsOld = s.treadsOld ∧ (mgmtRead a0 s).meas = s.meas ∧ (mgmtRead a0 s).safe = s.safe ∧ (mgmtRead a0 s).therm = s.therm ∧ (mgmtRead a0 s).twin = s.twin ∧ (mgmtRead a0 s).stair = s.stair ∧ (mgmtRead a0 s).nvm = s.nvm ∧ (mgmtRead a0 s).streams = s.streams ∧ (mgmtRead a0 s).mem = s.mem := by
  unfold mgmtRead
  (try dsimp only)
  (repeat' split) <;> simp [apply_ite]

theorem execMgmtAddressMatch_frame (a0 : MgmtAddr) (s t : State) (h : execMgmtAddressMatch a0 s = .next t) :
    t.pending = s.pending ∧ t.reply = s.reply ∧ t.cfg = s.cfg ∧ t.pend = s.pend ∧ t.tb = s.tb ∧ t.events = s.events ∧ t.host = s.host ∧ t.treads = s.treads ∧ t.cells = s.cells ∧ t.flights = s.flights ∧ t.halls = s.halls ∧ t.grid = s.grid ∧ t.atr = s.atr ∧ t.treadsOld = s.treadsOld ∧ t.meas = s.meas ∧ t.safe = s.safe ∧ t.therm = s.therm ∧ t.twin = s.twin ∧ t.stair = s.stair ∧ t.nvm = s.nvm ∧ t.streams = s.streams ∧ t.mem = s.mem := by
  unfold execMgmtAddressMatch at h; cases h; (try dsimp only); (repeat' split) <;> simp [apply_ite]

theorem execMgmtRegisterWrite_frame (a0 : Nat) (a1 : List Byte) (s t : State) (h : execMgmtRegisterWrite a0 a1 s = .next t) :
    t.pending = s.pending ∧ t.reply = s.reply ∧ t.freeCtr = s.freeCtr ∧ t.cfg = s.cfg ∧ t.pend = s.pend ∧ t.tb = s.tb ∧ t.events = s.events ∧ t.host = s.host ∧ t.treads = s.treads ∧ t.cells = s.cells ∧ t.flights = s.flights ∧ t.halls = s.halls ∧ t.grid = s.grid ∧ t.atr = s.atr ∧ t.treadsOld = s.treadsOld ∧ t.meas = s.meas ∧ t.safe = s.safe ∧ t.therm = s.therm ∧ t.twin = s.twin ∧ t.stair = s.stair ∧ t.nvm = s.nvm ∧ t.streams = s.streams ∧ t.mem = s.mem := by
  unfold execMgmtRegisterWrite at h; cases h; (try dsimp only); (repeat' split) <;> simp [apply_ite]

theorem after_pending (r : Res) (s : State) (h : ∀ t, r = .next t → t.pending = s.pending) :
    (after r s).pending = s.pending := by
  unfold after; split
  · exact h _ rfl
  · rfl

theorem runContext_frame (a0 : Nat) (a1 : Fin 64) (a2 : List Word) (s t : State) (h : runContext a0 a1 a2 s = .next t) : t.pending = s.pending := by
  unfold runContext at h; split at h
  · exact (execLoopSet_frame _ _ _ _ h).1
  · exact (execLoopCoef_frame _ _ _ _ h).1
  · exact (execLoopEnable_frame _ _ _ _ h).1
  · exact (execGroupSet_frame _ _ _ _ h).1
  · exact (execStageWrite_frame _ _ _ _ h).1
  · exact (execCellBypass_frame _ _ _ _ h).1
  · exact (execCellRestore_frame _ _ _ _ h).1
  · exact (execCtConfig_frame _ _ _ _ h).1
  · exact (execCtStatus_frame _ _ _ _ h).1
  · cases h; simp

theorem runDevice_frame (a0 : Nat) (a1 : List Word) (s t : State) (h : runDevice a0 a1 s = .next t) : t.pending = s.pending := by
  unfold runDevice at h; split at h
  · exact (execCfgWrite_frame _ _ _ h).1
  · exact (execCfgRead_frame _ _ _ h).1
  · exact (execCfgCommit_frame _ _ _ h).1
  · exact (execSignalRead_frame _ _ _ h).1
  · exact (execSignalWrite_frame _ _ _ h).1
  · exact (execInject_frame _ _ _ h).1
  · exact (execCapture_frame _ _ _ h).1
  · exact (execCaptureRead_frame _ _ _ h).1
  · exact (execLoadAll_frame _ _ _ h).1
  · exact (execSafeSet_frame _ _ _ h).1
  · exact (execHallMode_frame _ _ _ h).1
  · exact (execWearRead_frame _ _ _ h).1
  · split at h
    · exact (execWearParamReset_frame _ _ _ h).1
    · exact (execWearParam_frame _ _ _ h).1
  · cases h; simp

theorem runSystem_frame (a0 : Nat) (a1 : List Word) (s t : State) (h : runSystem a0 a1 s = .next t) : t.pending = s.pending := by
  unfold runSystem at h; split at h
  · exact (execNop_frame _ _ _ h).1
  · exact (execIdentify_frame _ _ _ h).1
  · exact (execStatus_frame _ _ _ h).1
  · exact execPowerSet_frame _ _ _ h
  · exact (execPowerGet_frame _ _ _ h).1
  · exact (execVcoreSet_frame _ _ _ h).1
  · exact (execDomainReset_frame _ _ _ h).1
  · exact (execEventRoute_frame _ _ _ h).1
  · exact (execEventRead_frame _ _ _ h).1
  · cases h; simp

theorem runRest_frame (a0 : Nat) (a1 : List Word) (s t : State) (h : runRest a0 a1 s = .next t) : t.pending = s.pending := by
  unfold runRest at h; split at h
  · exact (execAdcSeq_frame _ _ _ h).1
  · exact (execAdcRead_frame _ _ _ h).1
  · exact (execCalZero_frame _ _ _ h).1
  · exact (execCalFull_frame _ _ _ h).1
  · exact (execCalPriv_frame _ _ _ h).1
  · exact (execTestDac_frame _ _ _ h).1
  · exact (execTbRead_frame _ _ _ h).1
  · exact (execTbIncr_frame _ _ _ h).1
  · exact (execTbAdj_frame _ _ _ h).1
  · exact (execTcSet_frame _ _ _ h).1
  · exact (execPllSet_frame _ _ _ h).1
  · exact (execPllCommit_frame _ _ _ h).1
  · exact (execSafeParam_frame _ _ _ h).1
  · exact (execSafeCrcRead_frame _ _ _ h).1
  · split at h
    · exact (execSafeConfirmWithdraw_frame _ _ _ h).1
    · exact (execSafeConfirm_frame _ _ _ h).1
  · exact (execRelease_frame _ _ _ h).1
  · exact (execSafeStatus_frame _ _ _ h).1
  · exact (execNvmStore_frame _ _ _ h).1
  · exact (execNvmLoad_frame _ _ _ h).1
  · exact (execLogRead_frame _ _ _ h).1
  · exact (execNvmStatus_frame _ _ _ h).1
  · exact (execStreamSet_frame _ _ _ h).1
  · exact (execStreamEnable_frame _ _ _ h).1
  · exact (execTwinStatus_frame _ _ _ h).1
  · exact (execDemote_frame _ _ _ h).1
  · exact (execRejoin_frame _ _ _ h).1
  · exact (execStairStatus_frame _ _ _ h).1
  · cases h; simp

@[simp] theorem runOp_frame (a0 : Byte) (a1 : Fin 64) (a2 : List Word) (s : State) :
    (runOp a0 a1 a2 s).pending = s.pending := by
  unfold runOp
  refine after_pending _ _ fun t h => ?_
  split at h
  · exact runSystem_frame _ _ _ _ h
  · split at h
    · exact runContext_frame _ _ _ _ _ h
    · split at h
      · exact runDevice_frame _ _ _ _ h
      · exact runRest_frame _ _ _ _ h

@[simp] theorem forward_frame (a0 : Pkt) (s : State) :
    (forward a0 s).pending = s.pending ∧ (forward a0 s).freeCtr = s.freeCtr ∧ (forward a0 s).aon = s.aon ∧ (forward a0 s).cfg = s.cfg ∧ (forward a0 s).pend = s.pend ∧ (forward a0 s).tb = s.tb ∧ (forward a0 s).events = s.events ∧ (forward a0 s).host = s.host ∧ (forward a0 s).treads = s.treads ∧ (forward a0 s).cells = s.cells ∧ (forward a0 s).flights = s.flights ∧ (forward a0 s).halls = s.halls ∧ (forward a0 s).grid = s.grid ∧ (forward a0 s).atr = s.atr ∧ (forward a0 s).treadsOld = s.treadsOld ∧ (forward a0 s).meas = s.meas ∧ (forward a0 s).safe = s.safe ∧ (forward a0 s).therm = s.therm ∧ (forward a0 s).stair = s.stair ∧ (forward a0 s).nvm = s.nvm ∧ (forward a0 s).streams = s.streams ∧ (forward a0 s).mem = s.mem := by
  unfold forward
  (try dsimp only)
  (repeat' split) <;> simp [apply_ite]

@[simp] theorem standbyAnswer_frame (a0 : Pkt) (s : State) :
    (standbyAnswer a0 s).pending = s.pending := by
  unfold standbyAnswer
  (try dsimp only)
  (repeat' split) <;> simp [apply_ite]

@[simp] theorem execute_frame (a0 : Pkt) (s : State) :
    (execute a0 s).pending = s.pending := by
  unfold execute
  (try dsimp only)
  (repeat' split) <;> simp [apply_ite]

@[simp] theorem internal_frame (s : State) :
    (internal s).pending = s.pending ∧ (internal s).freeCtr = s.freeCtr ∧ (internal s).cfg = s.cfg ∧ (internal s).pend = s.pend ∧ (internal s).tb = s.tb ∧ (internal s).treads = s.treads ∧ (internal s).cells = s.cells ∧ (internal s).flights = s.flights ∧ (internal s).halls = s.halls ∧ (internal s).grid = s.grid ∧ (internal s).treadsOld = s.treadsOld ∧ (internal s).meas = s.meas ∧ (internal s).safe = s.safe ∧ (internal s).therm = s.therm ∧ (internal s).twin = s.twin ∧ (internal s).stair = s.stair ∧ (internal s).streams = s.streams ∧ (internal s).mem = s.mem := by
  unfold internal
  (try dsimp only)
  (repeat' split) <;> simp [apply_ite]

theorem serve_pending (p : Pkt) (run : State → State) (s : State) (h : ∀ s, (run s).pending = s.pending) :
    (serve p run s).pending = s.pending := by
  unfold serve; dsimp only
  split
  · simp [h]
  · split <;> simp [h]

theorem execQueueDispatch_frame (s t : State) (h : execQueueDispatch s = .next t) :
    t.pending = s.pending := by
  unfold execQueueDispatch at h; cases h
  split
  · rfl
  · split
    · rfl
    · refine serve_pending _ _ _ fun s => ?_
      split <;> simp

@[simp] theorem runForwarded_frame (a0 : Fwd) (s : State) :
    (runForwarded a0 s).pending = s.pending := by
  unfold runForwarded
  (try dsimp only)
  (repeat' split) <;> simp [apply_ite]

@[simp] theorem noteDone_frame (a0 : Fwd) (s : State) :
    (noteDone a0 s).pending = s.pending ∧ (noteDone a0 s).reply = s.reply ∧ (noteDone a0 s).out = s.out ∧ (noteDone a0 s).freeCtr = s.freeCtr ∧ (noteDone a0 s).aon = s.aon ∧ (noteDone a0 s).cfg = s.cfg ∧ (noteDone a0 s).pend = s.pend ∧ (noteDone a0 s).tb = s.tb ∧ (noteDone a0 s).events = s.events ∧ (noteDone a0 s).treads = s.treads ∧ (noteDone a0 s).cells = s.cells ∧ (noteDone a0 s).flights = s.flights ∧ (noteDone a0 s).halls = s.halls ∧ (noteDone a0 s).grid = s.grid ∧ (noteDone a0 s).atr = s.atr ∧ (noteDone a0 s).treadsOld = s.treadsOld ∧ (noteDone a0 s).meas = s.meas ∧ (noteDone a0 s).safe = s.safe ∧ (noteDone a0 s).therm = s.therm ∧ (noteDone a0 s).twin = s.twin ∧ (noteDone a0 s).stair = s.stair ∧ (noteDone a0 s).nvm = s.nvm ∧ (noteDone a0 s).streams = s.streams ∧ (noteDone a0 s).mem = s.mem := by
  unfold noteDone
  (try dsimp only)
  (repeat' split) <;> simp [apply_ite]

theorem execPairApplyInstant_frame (s t : State) (h : execPairApplyInstant s = .next t) :
    t.pending = s.pending := by
  unfold execPairApplyInstant at h; cases h
  split
  · rfl
  · split
    · rfl
    · dsimp only
      split
      · exact (serve_pending _ _ _ fun s => by simp).trans (by simp)
      · simp

@[simp] theorem runMailbox_frame (a0 : Pkt) (a1 : Nat) (s : State) :
    (runMailbox a0 a1 s).pending = s.pending := by
  unfold runMailbox
  split
  · simp
  · split
    · simp
    · split
      · simp
      · split
        · simp
        · simp
        · simp
        · simp
        · exact after_pending _ _ fun t h => (execPowerGet_frame _ _ _ h).1

theorem execMailboxPacket_frame (a0 : List Byte) (s t : State) (h : execMailboxPacket a0 s = .next t) :
    t.pending = s.pending := by
  unfold execMailboxPacket at h; cases h
  split
  · rfl
  · split
    · simp
    · dsimp only
      split
      · split <;> simp
      · split
        · simp
        · split
          · simp [apply_ite State.pending]
          · exact (serve_pending _ _ _ fun s => by simp).trans (by simp)

end Sys2Proof.Machine
end

