-- ==== Sys2Proof/Laws/Memory.lean ====
section
/-! SUPPORT. The laws of the Gallery's bytes: a read after a write, and the canonical form, which every operation of
memory keeps. -/

namespace Sys2Proof.Machine

open Sys2Proof

/-- No entry lies below `a`. -/
theorem memRead_below (m : List Host.Cell) (a : Nat) (h : ∀ c ∈ m, a < c.1) : memRead m a = 0 := by
  induction m with
  | nil => rfl
  | cons c r ih =>
    have hc : a < c.1 := h c (by simp)
    have : c.1 ≠ a := by omega
    simp only [memRead, this, if_false]
    exact ih fun x hx => h x (by simp [hx])

theorem memWrite_keys (m : List Host.Cell) (a : Nat) (x : Byte) (c : Host.Cell) (h : c ∈ memWrite m a x) :
    c = (a, x) ∧ x ≠ 0 ∨ c ∈ m := by
  induction m with
  | nil =>
    simp only [memWrite] at h
    split at h <;> simp_all
  | cons e r ih =>
    obtain ⟨b, v⟩ := e
    simp only [memWrite] at h
    split at h
    · split at h
      · exact .inr h
      · simp only [List.mem_cons] at h ⊢
        rcases h with h | h | h <;> simp_all
    · split at h
      · split at h
        · exact .inr (by simp [h])
        · simp only [List.mem_cons] at h ⊢
          rcases h with h | h <;> simp_all
      · simp only [List.mem_cons] at h ⊢
        rcases h with h | h
        · exact .inr (.inl h)
        · exact (ih h).imp id .inr

/-- A write keeps the canonical form. -/
theorem memWrite_wf (m : List Host.Cell) (a : Nat) (x : Byte) (h : Memory.wf m) : Memory.wf (memWrite m a x) := by
  induction m with
  | nil =>
    simp only [memWrite]
    split <;> simp_all [Memory.wf]
  | cons e r ih =>
    obtain ⟨b, v⟩ := e
    obtain ⟨hp, hz⟩ := h
    simp only [List.map_cons, List.pairwise_cons] at hp
    have hr : Memory.wf r := ⟨hp.2, fun c hc => hz c (by simp [hc])⟩
    simp only [memWrite]
    split
    · next hab =>
      split
      · exact ⟨by simpa using hp, hz⟩
      · next hx =>
        refine ⟨?_, ?_⟩
        · simp only [List.map_cons, List.pairwise_cons]
          refine ⟨?_, by simpa using hp⟩
          intro k hk
          simp only [List.mem_cons] at hk
          rcases hk with hk | hk
          · omega
          · have := hp.1 k hk; omega
        · intro c hc
          simp only [List.mem_cons] at hc
          rcases hc with rfl | hc
          · exact hx
          · exact hz c (by simpa using hc)
    · split
      · next hne hba =>
        split
        · exact hr
        · next hx =>
          refine ⟨?_, ?_⟩
          · simp only [List.map_cons, List.pairwise_cons]
            exact ⟨by subst hba; exact hp.1, hp.2⟩
          · intro c hc
            simp only [List.mem_cons] at hc
            rcases hc with rfl | hc
            · exact hx
            · exact hz c (by simp [hc])
      · next hne hba =>
        have hw := ih hr
        refine ⟨?_, ?_⟩
        · simp only [List.map_cons, List.pairwise_cons]
          refine ⟨?_, hw.1⟩
          intro k hk
          obtain ⟨c, hc, rfl⟩ := List.mem_map.mp hk
          rcases memWrite_keys r a x c hc with ⟨rfl, -⟩ | hc
          · simp only; omega
          · exact hp.1 _ (List.mem_map.mpr ⟨c, hc, rfl⟩)
        · intro c hc
          simp only [List.mem_cons] at hc
          rcases hc with rfl | hc
          · exact hz _ (by simp)
          · exact hw.2 c hc

theorem memWrites_wf (l : List Byte) (m : List Host.Cell) (a : Nat) (h : Memory.wf m) : Memory.wf (memWrites m a l) := by
  induction l generalizing m a with
  | nil => exact h
  | cons b r ih => exact ih _ _ (memWrite_wf m a b h)

theorem memClear_wf (m : List Host.Cell) (a b : Nat) (h : Memory.wf m) : Memory.wf (memClear m a b) := by
  refine ⟨?_, fun c hc => h.2 c (List.mem_filter.mp hc).1⟩
  exact h.1.sublist (List.Sublist.map _ List.filter_sublist)

/-- A byte reads as written. -/
theorem memRead_memWrite_same (m : List Host.Cell) (a : Nat) (x : Byte) (h : Memory.wf m) :
    memRead (memWrite m a x) a = x := by
  induction m with
  | nil =>
    simp only [memWrite]
    split
    · next hx => simp [memRead, hx]
    · simp [memRead]
  | cons e r ih =>
    obtain ⟨b, v⟩ := e
    obtain ⟨hp, hz⟩ := h
    simp only [List.map_cons, List.pairwise_cons] at hp
    have hr : Memory.wf r := ⟨hp.2, fun c hc => hz c (by simp [hc])⟩
    have hb : ∀ c ∈ r, b < c.1 := fun c hc => hp.1 _ (List.mem_map.mpr ⟨c, hc, rfl⟩)
    simp only [memWrite]
    split
    · next hab =>
      split
      · next hx =>
        rw [hx]
        exact memRead_below _ _ fun c hc => by
          simp only [List.mem_cons] at hc
          rcases hc with rfl | hc
          · exact hab
          · have := hb c hc; omega
      · simp [memRead]
    · split
      · next hne hba =>
        split
        · next hx => rw [hx]; exact memRead_below _ _ fun c hc => by have := hb c hc; omega
        · simp [memRead]
      · next hne hba => simp [memRead, hba, ih hr]

/-- A write leaves every other byte alone. -/
theorem memRead_memWrite_ne (m : List Host.Cell) (a j : Nat) (x : Byte) (h : a ≠ j) :
    memRead (memWrite m a x) j = memRead m j := by
  induction m with
  | nil =>
    simp only [memWrite]
    split <;> simp [memRead, h]
  | cons e r ih =>
    obtain ⟨b, v⟩ := e
    simp only [memWrite]
    split
    · split
      · rfl
      · simp [memRead, h]
    · split
      · next hba =>
        subst hba
        split <;> simp [memRead, h]
      · simp only [memRead, ih]

theorem memRead_memWrites_out (l : List Byte) (m : List Host.Cell) (a j : Nat) (h : j < a ∨ a + l.length ≤ j) :
    memRead (memWrites m a l) j = memRead m j := by
  induction l generalizing m a with
  | nil => rfl
  | cons b r ih =>
    simp only [List.length_cons] at h
    have h1 : a ≠ j := by omega
    simp only [memWrites]
    rw [ih (memWrite m a b) (a + 1) (by omega), memRead_memWrite_ne m a j b h1]

end Sys2Proof.Machine
end

