-- ==== Sys2Proof/Machine/Balls.lean ====
section
/-! DEFINITION. The signal balls: type, domain and state of each (Table 16-3, R529), the strap bias (R532), and the levels the
model's own outputs drive. -/

namespace Sys2Proof.Machine

open Sys2Proof

/-- The signal balls of Table 16-3, a differential pair as one; `n` numbers the ball of its row. -/
inductive Ball where
  | ringTx (f : Fin 9) (west : Bool)
  | ringRx (f : Fin 9) (west : Bool)
  | twinTx (n : Fin 4)
  | twinRx (n : Fin 4)
  | stairTx (sd : Bool)
  | stairRx (sd : Bool)
  | ethTx | ethRx
  | hbOut | hbIn
  | twinRole
  | stairPos (n : Fin 4)
  | addr (n : Fin 2)
  | xin | xout
  | clkout (n : Fin 2)
  | syncOut | syncIn
  | hsCs | hsSck
  | hsIo (n : Fin 4)
  | hirq (n : Fin 2)
  | mscl | msda
  | mdc | mdio | phyRst
  | ain (n : Fin 16)
  | vrefp | vrefn
  | tdacOut
  | dsd (n : Fin 8)
  | dsclk (n : Fin 2)
  | th (n : Fin 4)
  | sin (ch : Fin 8)
  | tpo (n : Fin 2)
  | safeBlk | safeFb
  | resetn | fault
  | tck | tms | tdi | tdo | trst
  | gpio (n : Fin 16)
  | bkGate (n : Fin 2)
  | bkSense (n : Fin 2)
  deriving DecidableEq, Repr

/-- The types of Table 16-3. -/
inductive BallType where
  | cmlO | cmlI | pam4O | pam4I | o | i | is | io | od | t3 | a | hvI | hvO | gd
  deriving DecidableEq, Repr

/-- What a ball shows: the states of Table 16-3, a level its function drives, or `function`, the state its function gives, which no
field of the model holds. -/
inductive BallState where
  | idle | terminated | low | high | highZ | released | ignored | active | strapBias | pullDown | pullUp | oscOff | bufferOff
  | toVssa | tapReset | sensing | function
  deriving DecidableEq, Repr

/-- The types of a ball: one, but of MSDA, which is a Schmitt-trigger input and an open-drain output. -/
def Ball.type (b : Ball) : List BallType :=
  match b with
  | .ringTx _ _ | .stairTx _ | .ethTx => [.cmlO]
  | .ringRx _ _ | .stairRx _ | .ethRx => [.cmlI]
  | .twinTx _ => [.pam4O]
  | .twinRx _ => [.pam4I]
  | .twinRole => [.t3]
  | .hbOut | .clkout _ | .syncOut | .mdc | .phyRst | .dsclk _ | .safeBlk | .tdo => [.o]
  | .stairPos _ | .addr _ | .dsd _ | .tck | .tms | .tdi | .trst => [.i]
  | .hbIn | .syncIn | .hsCs | .hsSck | .mscl | .safeFb | .resetn => [.is]
  | .msda => [.is, .od]
  | .hsIo _ | .mdio | .gpio _ => [.io]
  | .hirq _ | .fault => [.od]
  | .xin | .xout | .ain _ | .vrefp | .vrefn | .tdacOut | .th _ | .bkSense _ => [.a]
  | .sin _ => [.hvI]
  | .tpo _ => [.hvO]
  | .bkGate _ => [.gd]

/-- The domain of a ball, none for those of AON. -/
def Ball.domain (b : Ball) : Option Dom :=
  match b with
  | .ringTx f _ | .ringRx f _ => some (hallDom (f.val / 3))
  | .twinTx _ | .twinRx _ | .stairTx _ | .stairRx _ => some .links
  | .ethTx | .ethRx | .mdc | .mdio | .phyRst => some .net
  | .xin | .xout | .clkout _ | .syncOut | .syncIn | .dsclk _ => some .timebase
  | .ain _ | .vrefp | .vrefn | .tdacOut | .dsd _ => some .analog
  | .sin _ | .tpo _ | .safeBlk | .safeFb => some .safety
  | .twinRole | .stairPos _ | .addr _ | .mscl | .msda | .resetn | .fault | .bkGate _ | .bkSense _ => none
  | .hbOut | .hbIn | .hsCs | .hsSck | .hsIo _ | .hirq _ | .th _ | .tck | .tms | .tdi | .tdo | .trst | .gpio _ => some .atrium

/-- State in reset of a ball outside AON (Table 16-3). -/
def Ball.inReset (b : Ball) : BallState :=
  match b with
  | .ringTx _ _ | .twinTx _ | .stairTx _ | .ethTx => .idle
  | .ringRx _ _ | .twinRx _ | .stairRx _ | .ethRx => .terminated
  | .hbOut | .xout | .clkout _ | .syncOut | .mdc | .phyRst | .dsclk _ | .tpo _ | .safeBlk | .fault | .bkGate _ => .low
  | .hbIn | .syncIn | .hsCs | .hsSck | .dsd _ | .sin _ | .safeFb => .ignored
  | .hsIo _ | .mdio | .ain _ | .tdacOut | .th _ | .tdo | .gpio _ => .highZ
  | .hirq _ => .released
  | .xin => .oscOff
  | .vrefp => .bufferOff
  | .vrefn => .toVssa
  | .tck | .tms | .tdi | .trst => .tapReset
  | .mscl | .msda => .active
  | .twinRole => .strapBias
  | .stairPos _ | .addr _ => .pullDown
  | .resetn => .pullUp
  | .bkSense _ => .sensing

/-- A reset holds: power-on reset, or RESETn low. -/
def State.inReset (s : State) : Bool := s.aon.porHold || s.aon.held

/-- Digital balls lose their drive with V3P3 (R529). -/
def BallType.needsV3p3 (t : BallType) : Bool :=
  match t with
  | .i | .is | .o | .io | .od => true
  | _ => false

def levelState (high : Bool) : BallState := if high then .high else .low

/-- A buck runs: it is ready, or its step of a sequence has started it and it is in its soft start (R436, R450). -/
def State.buckRuns (s : State) (n : Nat) : Bool :=
  (if n = 0 then s.aon.bk0Ok else s.aon.bk1Ok)
    || match s.aon.seq with
      | some q => q.steps.head? == some (2 + n)
      | none => false

/-- An AON ball. The strap bias is applied while a reset holds and is gone from the sampling on (R532); a stopped buck's gates are
low. -/
def State.aonBall (s : State) (b : Ball) : BallState :=
  match b with
  | .twinRole | .stairPos _ | .addr _ => if s.inReset then b.inReset else .highZ
  | .fault => if s.faultLow then .low else .released
  | .bkGate n => if s.buckRuns n.val then .function else .low
  | _ => b.inReset

/-- A ball whose domain is ON. -/
def State.liveBall (s : State) (b : Ball) : BallState :=
  match b with
  | .safeBlk => levelState s.safeBlkHigh
  | .tpo n => levelState (s.tpoHigh n.val)
  | .phyRst => levelState s.phyRstHigh
  | .hirq n => if s.hirqLow n.val then .low else .released
  | .gpio n => match s.gpioOut n.val with
    | some l => levelState l
    | none => .highZ
  | .hbOut => if s.hbOutRuns then .function else .low
  | .syncOut => levelState s.tb.syncOut
  | .tdacOut => if fld s.meas.tdac 30 2 = 3 then .function else .highZ
  | _ => .function

/-- What a signal ball shows (R529): its state in reset while a reset holds or its domain is not ON, high-impedance for a digital ball
while V3P3, which BK1 supplies, is absent, else what its function drives. -/
def State.ball (s : State) (b : Ball) : BallState :=
  match b.domain with
  | none => s.aonBall b
  | some d =>
    if b.type.any BallType.needsV3p3 && !s.aon.bk1Ok then .highZ
    else if s.inReset || !s.isOn d then b.inReset
    else s.liveBall b

end Sys2Proof.Machine
end

