-- ==== Sys2Proof/Tests/Slice0.lean ====
section
/-! SUPPORT. The model's own tests: ill-formed terms that the checks refuse, small steps whose results come from the spec's
words or from hand calculation, and for each statement with hypotheses states and operands that meet them. -/

namespace Sys2Proof.Tests

set_option Elab.async false

open Sys2Proof Sys2Proof.Machine

/-- The state a command leads to. -/
def run (c : Instr) (s : State) : State :=
  match exec c s with
  | .next t => t
  | _ => State.reset

/-- The status of the last reply. -/
def told (c : Instr) (s : State) : Option Status := (run c s).reply.map (·.status)

/-- Every domain and bank ON, outside a pair, at position 0. -/
def on : State := { State.reset with aon := { State.reset.aon with
  dom := Vector.replicate 10 .on, bank := Vector.replicate 16 .on, porHold := false, rcRuns := true } }

/-- The same with some units OFF. -/
def off (l : List Nat) : State := l.foldl (fun s c => setUnit c .off s) on

/-- One cell in ring 0 (FLT_CFG with CT_COUNT 1 of flight 0), in the string of hall A. -/
def oneCell : State := on.setReg (fltBase 0) 1#32

/-- An active of a pair strapped E, its link up and both heartbeat paths up. -/
def active : State := { on with
  aon := { on.aon with straps := { role := 1, pos := 0, addr := 0 } }
  twin := { state := 1, linkUp := true, hb1 := { state := 1 }, hb2 := { state := 1 }, hbOut := true } }

/-- The standby in step of such a pair. -/
def standby : State := { on with
  aon := { on.aon with straps := { role := 2, pos := 0, addr := 0 } }
  twin := { state := 2, linkUp := true, hb1 := { state := 1 }, hb2 := { state := 1 }, stepMap := 0x3FF#10, partnerInStep := true } }

/-- A follower of the stairwell at position 2 with both ports up. -/
def follower : State := { on with
  aon := { on.aon with straps := { role := 0, pos := 2, addr := 0 } }
  stair := { on.stair with upUp := true, downUp := true } }

/-- Tests of the same on one state. -/
def cell (k : Nat) (f : Cell → Cell) (s : State) : State := s.setCell k f

/-! For each statement with hypotheses, states and operands that meet them, clause by clause. -/

theorem meets_EmptyQueueTicks : on.pending = [] ∧ on.isOn .timebase = true ∧ (off [0]).pending = [] ∧
    (off [0]).isOn .timebase = false := by decide +kernel

theorem meets_CanonicalKept : State.reset.Canonical ∧ step State.reset = .next State.reset := by
  exact ⟨by unfold State.Canonical; decide, rfl⟩

theorem meets_CommandsLeaveTheQueue : exec (.nop []) on = .next (run (.nop []) on) ∧ mayStore (.nop []) = false := by
  exact ⟨rfl, rfl⟩

/-- A byte in bank G6, and a wake at step 4 that has taken that bank from RET. -/
def kept : State := { off [4, 5, 6] with mem := [(0x180000, 9)] }
def checking : State := { kept with aon := { kept.aon with
  seq := some { kind := .wake, steps := [4, 5], took := [(22, true)] }, bank := vset kept.aon.bank 6 .trans } }
theorem meets_GalleryFrame : takesBanks .resetnAssert = true ∧ exec .resetnAssert kept = .next (run .resetnAssert kept) ∧
    exec (.wakeStepDone 0x400000#32 0) checking = .next (run (.wakeStepDone 0x400000#32 0) checking) ∧
    exec (.deliverDeparture 0 0) kept = .next (run (.deliverDeparture 0 0) kept) ∧
    exec (.galleryScrub 6 .uncorr (.capture 0)) kept = .next (run (.galleryScrub 6 .uncorr (.capture 0)) kept) := by
  exact ⟨rfl, rfl, rfl, rfl, rfl⟩
theorem test_bank_off_reads_zero : bankAt 0x180000 = 6 ∧ memRead (run .resetnAssert kept).mem 0x180000 = 0 ∧
    (run .resetnAssert kept).bankSt 6 = .off ∧ checkFails (.wakeStepDone 0x400000#32 0) 6 = true := by decide +kernel
theorem test_bad_bank_reads_zero : memRead (run (.wakeStepDone 0x400000#32 0) checking).mem 0x180000 = 0 ∧
    (run (.wakeStepDone 0x400000#32 0) checking).bankSt 6 = .on ∧
    memRead (run (.wakeStepDone 0#32 0) checking).mem 0x180000 = 9 := by decide +kernel

theorem meets_SystemOpcodes : on.Runs ∧ ([] : List Word).length ≤ 1 := by decide +kernel

/-- One pending event. -/
def evt5 : State := { on with events := { on.events with slots := vmod on.events.slots 5 fun x => { x with pend := true } } }

theorem meets_EventOpcodes : on.Runs ∧ fld 0x2E5#32 8 9 = 2 ∧ fld 0x2E5#32 0 8 + 2 ≤ 231 ∧ fld 0xE700#32 8 9 = 231 ∧
    fld 0xE700#32 0 8 + 231 ≤ 231 ∧ evt5.Runs ∧ bit 0x10501#32 1 = false ∧ fld 0x10501#32 8 8 + fld 0x10501#32 16 9 ≤ 256 ∧
    0 < fld 0x10501#32 16 9 ∧ (evt5.evt (fld 0x10501#32 8 8)).pend = true ∧ bit 2#32 1 = true ∧ fld 0x501#32 16 9 = 0 ∧
    256 < fld 0x2FF00#32 8 8 + fld 0x2FF00#32 16 9 := by decide +kernel

/-- TB_INCR at both ends of its range and one beyond each; a follower's servo owns the time base. -/
theorem meets_TimeBaseReads : on.Runs ∧ on.isOn .timebase = true ∧ on.servoOwns = false ∧ follower.servoOwns = true ∧
    0xFF7CED92 + 1 * 2 ^ 32 = 0x01FF7CED92 ∧ (0xFF7CED92#32).toNat + fld 1#32 0 8 * 2 ^ 32 = 0x01FF7CED92 ∧
    (0x83126E#32).toNat + fld 2#32 0 8 * 2 ^ 32 = 0x020083126E ∧ (0xFF7CED91#32).toNat + fld 1#32 0 8 * 2 ^ 32 < 0x01FF7CED92 ∧
    0x020083126E < (0x83126F#32).toNat + fld 2#32 0 8 * 2 ^ 32 := by decide +kernel

/-- Every hall OFF, and with one ON. -/
theorem meets_TimeBaseStep : (off [4, 5, 6]).Runs ∧ (off [4, 5, 6]).isOn .timebase = true ∧
    (off [4, 5, 6]).servoOwns = false ∧ (off [4, 5, 6]).anyHallOn = false ∧ on.anyHallOn = true := by decide +kernel

/-- A compare armed for the coming tick's time, for an earlier one, and for one too far past. -/
def clock : State := { on with tb := { on.tb with ns := 0x10000000000#64 } }
theorem meets_Compares : clock.Runs ∧ clock.isOn .timebase = true ∧ tcCheck 0 0x80000000#32 clock = .ok ∧
    (tick clock).now = 0x10000000002 ∧ (tick clock).now ≤ (dw 2#32 0x100#32).toNat ∧
    (dw 1#32 0x100#32).toNat < (tick clock).now ∧ (tick clock).now ≤ (dw 1#32 0x100#32).toNat + 2 ^ 39 ∧
    ¬ (tick clock).now ≤ (dw 0#32 0x7F#32).toNat + 2 ^ 39 ∧
    ((clock.setTc 3 fun c => { c with en := true }).tc 3).en = true ∧
    ((clock.setTc 3 fun c => { c with en := true, period := 20 }).tc 3).period ≠ 0 ∧ (clock.tc 3).firedAt ≠ some clock.tbAll ∧
    ((clock.setTc 3 fun c => { c with firedAt := some clock.tbAll }).tc 3).firedAt = some clock.tbAll := by decide +kernel

theorem meets_PllOutputs : on.Runs ∧ (3#32).toNat < 4 ∧ fld 16#32 0 16 = 16 ∧ fld 500#32 0 16 = 500 := by decide +kernel

/-- Both PLLs unlocked, the reference lost and back. -/
def lost : State := { on with tb := { on.tb with refLoss := true, lUnlock := true, tUnlock := true } }
theorem meets_ClockErrors : on.tb.lUnlock = false ∧ lost.tb.reacquire = false ∧ on.isOn .timebase = true ∧ lost.isOn .timebase = true ∧ lost.tb.refLoss = true ∧
    on.tb.refLoss = false ∧ on.tb.tUnlock = false ∧ { lost with tb := { lost.tb with reacquire := true } }.tb.tUnlock = true ∧
    on.isOn .safety = true ∧ lost.tb.lUnlock = true ∧ bit (lost.reg 0x10104) 16 = false ∧
    bit ((lost.setReg 0x10104 0x10000#32).reg 0x10104) 16 = true ∧ (true || false) = true := by decide +kernel

/-- SYNC_OUT on, muted while untrusted, high, and SYNC_IN on; a compare pulse. -/
def syncs : State := on.setReg 0x10030 0xE0000001#32
theorem meets_SyncAndPulses : syncs.isOn .timebase = true ∧ bit (syncs.reg 0x10030) 31 = true ∧
    (bit (syncs.reg 0x10030) 30 && syncs.tb.untrusted) = false ∧ bit (syncs.reg 0x10030) 29 = true ∧
    (let s := { syncs with tb := { syncs.tb with untrusted := true, syncOut := true } }
     (bit (s.reg 0x10030) 30 && s.tb.untrusted) = true ∧ s.tb.syncOut = true) ∧
    (let s := { on with atr := { on.atr with gpioPulse := 0x8000#16 } }
     s.Runs ∧ s.atr.gpioPulse.getLsbD 15 = true) := by decide +kernel

/-- PTP on, a ring with room and a full one, and a slot that waits. -/
def ptp : State := on.setReg 0x60100 1#32
theorem meets_PtpRings : ptp.isOn .net = true ∧ bit (ptp.reg 0x60100) 0 = true ∧ ptpAddr (ptp.reg 0x60004) ptp = true ∧
    (319#16 = 319 ∨ 319#16 = 320) ∧ ptp.host.ptpOwned ≠ 16 ∧ ptp.host.ptpHead < 16 ∧
    { ptp with host := { ptp.host with ptpOwned := 16 } }.host.ptpOwned = 16 ∧
    (let s := { ptp with host := { ptp.host with ptpTx := vmod ptp.host.ptpTx 3 fun x => { x with go := true } } }
     s.isOn .net = true ∧ (vget s.host.ptpTx 3 {}).go = true) := by decide +kernel

theorem meets_FireTick : on.isOn .timebase = true ∧ 0 < on.tb.incr.toNat ∧ on.tbAll < 1 * 2 ^ 32 ∧ 1 + 256 < 2 ^ 64 := by
  decide +kernel

/-- A NOP for queue 5 with sequence number `n`. -/
def nopPkt (n : Nat) : List Byte := withCrc (leBytes 2 0x6D63 ++ [0#8, 5#8] ++ leBytes 4 0 ++ leBytes 4 n ++ leBytes 4 0)

theorem meets_PacketArrival : on.Runs ∧ badMark (nopPkt 0) = false ∧ lengthOk .spi (nopPkt 0) on = true ∧
    crcOk (nopPkt 0) = true ∧ (headerOf .spi {} (nopPkt 0)).queue = 5 ∧ on.depth 5 ≠ 0 ∧
    (headerOf .spi {} (nopPkt 0)).seq = (on.queue 5).expect ∧ (on.queue 5).pkts.length < on.depth 5 ∧
    ((nopPkt 0).length + 63) / 64 ≤ on.sharedFree + on.ownFree 5 ∧ badMark [] = true ∧
    lengthOk .spi (nopPkt 0 ++ [0]) on = false ∧ crcOk ((nopPkt 0).set 4 1) = false ∧ lengthOk .spi ((nopPkt 0).set 4 1) on = true ∧
    (on.setReg 0x60214 0).depth 5 = 0 ∧ isResync (headerOf .spi {} (nopPkt 1)) = false ∧ crcOk (nopPkt 1) = true ∧
    0 < ((headerOf .spi {} (nopPkt 1)).seq - (on.queue 5).expect).toNat := by decide +kernel

/-- That packet waiting in its queue. -/
def queued : State := on.setQueue 5 fun q => { q with pkts := [headerOf .spi {} (nopPkt 0)] }
theorem meets_QueueExecution : chosen queued = some (headerOf .spi {} (nopPkt 0)) ∧ queued.Runs ∧ queued.atr.halted = false ∧
    queued.sequencerBusy = false ∧
    queued.twin.state = 0 ∧ (headerOf .spi {} (nopPkt 0)).ecc = false ∧ (headerOf .spi {} (nopPkt 0)).transport = .spi ∧
    (headerOf .spi {} (nopPkt 0)).op = 0 ∧ (headerOf .spi {} (nopPkt 0)).words = [] ∧
    (queued.queue 5).pkts = [headerOf .spi {} (nopPkt 0)] := by decide +kernel

theorem meets_Ports : on.Runs ∧ on.isOn .net = true ∧ on.host.phyUp ≠ true ∧ (0#8 ≠ 1 ∧ 0#8 ≠ 2 ∧ 0#8 ≠ 3) ∧
    on.mgmtOpen = true ∧ on.aon.wakeOnAddr = false ∧ { on with aon := { on.aon with wakeOnAddr := true } }.mgmtOpen = true ∧
    (0x34#7).toNat = 0x34 + on.aon.straps.addr.val ∧ (0x35#7).toNat ≠ 0x34 + on.aon.straps.addr.val ∧
    ({ addr := 0x34 } : MgmtAddr).read = none ∧ ({ addr := 0x34, read := some 4 } : MgmtAddr).read = some 4 ∧ wakeSetOk (0xCC000307#32 &&& 0xFFFF03FF#32) on = true ∧
    (let l := withCrc (leBytes 2 0x6D63 ++ [1#8, 0#8] ++ leBytes 4 0 ++ leBytes 4 0 ++ leBytes 4 0)
     badMark l = false ∧ lengthOk .i2c l on = true ∧ crcOk l = true ∧ fieldAt l 12 4 = 0 ∧ (headerOf .i2c {} l).op = 1 ∧
       (headerOf .i2c {} l).words = []) := by decide +kernel

theorem meets_SafetyParameters : on.Runs ∧ on.isOn .safety = true ∧ on.isOn .nvm = true ∧ on.safe.confirmed = false ∧
    fld 0x103F#32 8 7 = 16 ∧ fld 0x103F#32 0 6 = 63 ∧ fld 0x101#32 8 7 = 1 ∧ fld 0x101#32 0 6 + 1 ≤ 64 ∧
    blockSources (blockWrite 1 [vget on.safe.block 1 0] on.safe.block) = true ∧
    blockRange (blockWrite 1 [vget on.safe.block 1 0] on.safe.block) = true ∧
    { on with safe := { on.safe with confirmed := true } }.safe.confirmed = true := by
  decide +kernel

theorem other_word (x : Word) : x + 1 ≠ x := by
  intro h
  have := congrArg BitVec.toNat h
  simp at this
  omega

/-- A confirmation's value, and another one. -/
theorem meets_WrongCheck : blockCheck on.safe.block + 1 ≠ blockCheck on.safe.block ∧
    (let s := { on with safe := { on.safe with confirmed := true, conf := blockCheck on.safe.block + 1 } }
     s.isOn .safety = true ∧ s.safe.confirmed = true ∧ blockCheck s.safe.block ≠ s.safe.conf) :=
  ⟨other_word _, by decide, rfl, fun h => other_word _ h.symm⟩

/-- A device whose causes may all be released: block confirmed and equal to its check value, MASK written, every pair safe for SIN_FILT samples. -/
def calm : State := { on with safe := { on.safe with confirmed := true, conf := blockCheck on.safe.block, runRun := Vector.replicate 4 158 } }
theorem meets_SafetyRelease : calm.Runs ∧ calm.isOn .safety = true ∧ calm.releasable = true ∧
    (calm.twin.state == 1 && calm.twin.partnerInStep) = false ∧ on.releasable = false ∧
    (let s := { active with twin := { active.twin with partnerInStep := true } }
     (s.twin.state == 1 && s.twin.partnerInStep) = true ∧ s.twin.partnerReleasable = false) := by decide +kernel

/-- No cause is set, and a die shuts down at 140 °C. -/
def released : State := { on with safe := { on.safe with cause := 0 } }.setReg 0x40024 0x0F001180#32
theorem meets_Blocks : released.isOn .safety = true ∧ released.safe.cause = 0 ∧ released.Runs ∧ released.ends ≠ [] ∧
    released.isOn .nvm = true ∧ released.nvm.offDue = false ∧ (setUnit 9 .off released).isOn .nvm = false ∧
    (setUnit 9 .off released).aon.heldLog.length < 16 ∧ (setUnit 9 .off released).safe.cause = 0 ∧
    (released.setReg (fltBase 0) 1#32).ringUp 0 = true ∧ released.now + 200 ≤ 200 := by decide +kernel
theorem meets_CausesBlock : on.isOn .safety = true ∧ on.pairOn 0 = true ∧ on.pairOn 3 = true ∧ { on with safe := { on.safe with fbWait := true } }.safe.fbWait = true := by decide +kernel

/-- Test-pulse outputs enabled, and one window in each of its phases. -/
def pulses (w : TestWindow) : State := { on with safe := { on.safe with
  block := vset on.safe.block 1 0x300#32, win := Vector.replicate 2 w } }
theorem meets_SafetyInputs : on.isOn .safety = true ∧ (∀ o < 2, (vget on.safe.win o {}).open_ = false ∧
    (vget on.safe.win o {}).judge = false) ∧ (pulses {}).isOn .safety = true ∧ tpoEn (pulses {}).safe.block 0 = true ∧ tpoEn (pulses {}).safe.block 1 = true ∧
    (vget (pulses { low := true }).safe.win 1 {}).low = true ∧ (vget (pulses { open_ := true }).safe.win 1 {}).open_ = true := by
  decide +kernel

/-- POWER_SET: bank 6 OFF, NVM ON, and a TIMEBASE OFF that others need. -/
theorem meets_PowerSet : (off [4, 5, 6]).aon.seq = none ∧ (off [4, 5, 6]).aon.held = false ∧ (off [4, 5, 6]).aon.porHold = false ∧
    (off [4, 5, 6]).aon.wakeDue = false ∧ (off [4, 5, 6]).standby = false ∧ (off [4, 5, 6, 9]).standby = false ∧
    { on with aon := { on.aon with held := true } }.aon.held = true ∧ State.reset.aon.porHold = true ∧
    standby.twin.state = 2 ∧ standby.aon.held = false ∧ standby.aon.porHold = false ∧ standby.aon.seq = none ∧
    (9 ∈ unitCodes ∧ target [0xFFF3FFFF#32, 0xFFFFFFFF#32] 9 = 0 ∧ stCode (standby.unitSt 9) ≠ 0) ∧
    powerRefused [0xFFFFF3FF#32, 0xFFFFFFFF#32] (off [0, 1, 2, 4, 5, 6, 7, 9]) = true ∧
    powerRefused [0xFFFFFFFF#32, 0xFFFFCFFF#32] (off [4, 5, 6]) = false ∧
    (∀ c ∈ unitCodes, target [0xFFFFFFFF#32, 0xFFFFCFFF#32] c = 0 ∨ target [0xFFFFFFFF#32, 0xFFFFCFFF#32] c = 3) ∧
    (∀ c ∈ [4, 5, 6, 9], target [0xFFFFFFFF#32, 0xFFFFCFFF#32] c = 3) ∧
    powerRefused [0xFFFBFFFF#32, 0xFFFFFFFF#32] (off [4, 5, 6, 9]) = false ∧
    (∀ c ∈ unitCodes, target [0xFFFBFFFF#32, 0xFFFFFFFF#32] c = 2 ∨ target [0xFFFBFFFF#32, 0xFFFFFFFF#32] c = 3) ∧
    target [0xFFFBFFFF#32, 0xFFFFFFFF#32] 9 = 2 ∧ (off [4, 5, 6, 9]).unitSt 9 ≠ .on ∧ (off [4, 5, 6, 9]).aon.seq = none ∧
    { on with aon := { on.aon with seq := some { kind := .wake } } }.aon.seq = some { kind := .wake } := by decide +kernel

/-- VCORE_SET at 8, 32 and 33 with a hall ON, at 7 with and without; the running setpoint and another. -/
theorem meets_PowerReadings : on.Runs ∧ 32 < (33#32).toNat ∧ (7#32).toNat < 8 ∧ on.anyHallOn = true ∧
    (off [4, 5, 6]).Runs ∧ (off [4, 5, 6]).anyHallOn = false ∧ (32#32).toNat ≤ 32 ∧ 8 ≤ (8#32).toNat ∧
    (8#32).toNat ≠ on.aon.vcoreCode ∧ on.aon.vcoreMoving = false ∧ (BitVec.ofNat 32 on.aon.vcoreCode).toNat = on.aon.vcoreCode ∧
    on.aon.vcoreCode ≤ 32 ∧ 8 ≤ on.aon.vcoreCode ∧ on.aon.porHold = false ∧
    (let s := { on with aon := { on.aon with vcoreMoving := true, vcoreWait := [none] } }
     s.Runs ∧ s.aon.vcoreMoving = true ∧ s.aon.porHold = false ∧ s.aon.vcoreWait ≠ []) := by decide +kernel

theorem meets_DomainReset : (off [4, 5, 6]).Runs ∧ (∀ d ∈ [0, 2, 3, 7, 8, 9], (off [4, 5, 6]).isOn (domOf d) = true ∧
    resetOk d (off [4, 5, 6]) = true) ∧ (off [4, 5, 6]).aon.seq = none ∧ (off [4, 5, 6]).nvm.jobs = [] ∧
    fld 9#32 0 4 = 9 ∧ fld 1#32 0 4 = 1 ∧ 9 < fld 10#32 0 4 ∧ on.isOn .hallB = true ∧
    resetOk 5 { on with halls := vmod on.halls 1 fun h => { h with err := true } } = true := by decide +kernel

theorem meets_WakeSequence : on.aon.held = false ∧ on.aon.porHold = false ∧ on.aon.seq = none ∧ on.aon.wakeDue = false ∧
    { on with aon := { on.aon with seq := some { kind := .wake } } }.aon.seq = some { kind := .wake } ∧
    PowerSeq.kind { kind := .set } ≠ .wake ∧
    (let s := { off [9] with aon := { (off [9]).aon with wakeSet := 0x200#32 } }
     s.aon.seq = none ∧ s.aon.held = false ∧ bit s.aon.wakeSet 9 = true ∧ s.unitSt 9 ≠ .on) ∧
    (∀ c ∈ [9, 17], ∃ q : PowerSeq, q.steps = [c] ∧ 9 ≤ c ∧ c ≤ 17 ∧ c ∉ ([] : List Nat) ∧
      { on with aon := { on.aon with seq := some q } }.aon.held = false) ∧
    (let q : PowerSeq := { kind := .set, retWait := [3] }
     q.retWait = [3] ∧ q.leave = [] ∧ 3 ∉ q.bring ∧ 3 ∈ unitCodes) ∧ on.nvm.offDue = false ∧
    (let q : PowerSeq := { kind := .wake, steps := [7, 8] }
     q.steps = 7 :: 8 :: [] ∧ 7 ≤ 8 ∧ 8 ≤ 17 ∧ (2 : Fin 4) ≠ 0 ∧ q.kind = .wake ∧ checking.bankSt 6 = .trans ∧
       checking.aon.held = false ∧ checking.aon.porHold = false) := by
  refine ⟨rfl, rfl, rfl, rfl, rfl, by decide +kernel, by decide +kernel, ?_, by decide +kernel, by decide +kernel, by decide +kernel⟩
  intro c hc
  exact ⟨{ kind := .wake, steps := [c] }, rfl, by simp at hc; omega, by simp at hc; omega, by simp, rfl⟩

/-- A wake's shared steps from the first on, and step 7 without a reference. -/
theorem test_wake_steps : (let s := { off [0, 1] with aon := { (off [0, 1]).aon with
      seq := some { kind := .wake, steps := [1, 2, 3, 4], bring := [0] } } }
     let t := run (.wakeStepDone 0 0) (run (.wakeStepDone 0 0) s)
     t.aon.bk0Ok = true ∧ t.aon.seq.map (·.steps) = some [3, 4] ∧ (run (.wakeStepDone 0 0) t).unitSt 0 = .trans) ∧
    (let s := { off [0, 1] with aon := { (off [0, 1]).aon with seq := some { kind := .wake, steps := [7, 8] } } }
     (run (.wakeStepDone 0 0) s).aon.wakeStep = 7 ∧ (run (.wakeStepDone 0 0) s).aon.seq = none ∧
       (run (.wakeStepDone 0 1) s).tb.refRate = 1) := by decide +kernel

theorem meets_Resets : State.reset.aon.porHold = true ∧ on.aon.porHold = false ∧ on.aon.held = false ∧
    { on with aon := { on.aon with held := true, auto := false } }.aon.held = true ∧
    { on with aon := { on.aon with held := true, auto := false } }.aon.auto = false ∧
    (∀ x ∈ [(⟨800, #v[0, 800, 2000, 3300], #v[800, 2000]⟩ : StrapLevels), ⟨1200, #v[0, 0, 0, 0], #v[0, 0]⟩,
        ⟨2100, #v[0, 0, 0, 0], #v[0, 0]⟩, ⟨2500, #v[0, 0, 0, 0], #v[0, 0]⟩],
      (x.role ≤ 800 ∨ (1200 ≤ x.role ∧ x.role ≤ 2100) ∨ 2500 ≤ x.role) ∧
        ∀ v ∈ x.pos.toList ++ x.addr.toList, v ≤ 800 ∨ 2000 ≤ v) := by decide +kernel

theorem meets_SupplyFaults : on.aon.porHold = false ∧ on.aon.seq = none ∧ on.aon.vinUv = false ∧ on.Runs ∧
    on.isOn .safety = true ∧ on.isOn .analog = true ∧ 4199 < 4200 ∧ 34000 < 34001 := by decide +kernel

/-- A queue with a packet, and capture word 0. -/
theorem meets_HaltAndErrors : on.Runs ∧ on.atr.halted = false ∧ on.isOn .safety = true ∧
    { on with atr := { on.atr with halted := true } }.atr.halted = true ∧ on.bankOn 0 = true ∧ on.bankOn 15 = true ∧
    Memory.wf on.mem = true ∧ (queued.queue 5).pkts = headerOf .spi {} (nopPkt 0) :: [] ∧ queued.Runs ∧
    queued.bankOn 3 = true ∧ queued.bankOn 10 = true ∧ queued.atr.err = false ∧ (EccOwner.wear 62).inBank 5 = true ∧
    (EccOwner.wear 62).inBank 6 = false ∧ (EccOwner.capture 262143).inBank 9 = true ∧ on.atr.err = false ∧ on.canHandOver = false := by decide +kernel

/-- Each of the five registers, a block address at its first and last word, and the bounds of a read. -/
theorem meets_ConfigurationAccess : on.Runs ∧
    (∀ a ∈ [0x40, 0x104, 0x150000, 0x151000, 0x152000], (regDef on.aon.straps a).isSome = true) ∧
    (0x30000#32).toNat % 4 = 0 ∧ 0x30000 ≤ (0x30000#32).toNat ∧ (0x300FC#32).toNat < 0x30100 ∧ (0x300FC#32).toNat % 4 = 0 ∧
    on.isOn .safety = true ∧ on.safe.confirmed = false ∧ fld 0x80000000#32 0 24 = 0 ∧ fld 1#32 0 10 = 1 ∧
    readStatus 0 1 on = .ok ∧ 1 ≤ on.replyLimit ∧ readStatus 0x21400 1 on = .ok := by decide +kernel

theorem meets_RefusedWrite : ∃ t r, exec (.cfgWrite [1#32, 0#32]) on = .next t ∧ t.reply = some r ∧ r.status ≠ .ok :=
  ⟨_, _, rfl, rfl, by decide +kernel⟩

/-- Pending sets that pass and that fail. -/
def pended (l : Table Word) : State := { on with pend := l }
theorem meets_ConfigurationCommit : bit 0#32 0 = false ∧ bit 0#32 1 = false ∧ bit 1#32 0 = true ∧ bit 2#32 1 = true ∧
    (pended []).Runs ∧ (configJudge (pended [])).1 = .ok ∧ (pended [(0x150030, 0x7F800000#32)]).Runs := by decide +kernel

theorem foldl_ok (l : List Status) : ∀ a, l.foldl firstStatus a = .ok → a = .ok ∧ ∀ x ∈ l, x = .ok := by
  induction l with
  | nil => intro a h; exact ⟨h, by simp⟩
  | cons y l ih =>
    intro a h
    obtain ⟨h1, h2⟩ := ih _ h
    have : a = .ok ∧ y = .ok := by
      revert h1; cases a <;> cases y <;> decide
    refine ⟨this.1, ?_⟩
    intro x hx
    rcases List.mem_cons.1 hx with rfl | hx
    · exact this.2
    · exact h2 x hx

/-- An infinite HALL_WEAR_W of hall A fails the commit. -/
theorem meets_CommitFails : (configJudge (pended [(0x150030, 0x7F800000#32)])).1 ≠ .ok := by
  intro h
  have hm : (0x150030, Status.range) ∈ configFails (pended [(0x150030, 0x7F800000#32)]) := by
    have : (0x150030, Status.range) ∈ [0, 1, 2].flatMap (rangeHall (applyPend (pended [(0x150030, 0x7F800000#32)]))) := by
      decide +kernel
    simp only [configFails, List.mem_append, this, true_or, or_true]
  have := (foldl_ok _ _ h).2 .range (List.mem_map_of_mem hm)
  cases this

theorem meets_SignalsAndBalls : on.Runs ∧ on.replyLimit ≥ 1 ∧ on.remote (fld 0#32 0 20) = false ∧
    reservedPt (fld 0#32 0 20 % 1024) = false ∧
    (let s := { follower with stair := { follower.stair with present := 0xFFFF#16 } }
     s.Runs ∧ s.remote (fld 0x00000#32 0 20) = true ∧ reservedPt (fld 0x00000#32 0 20 % 1024) = false ∧ s.isOn .links = true ∧
       s.mapPresent.getLsbD (ptPos (fld 0x00000#32 0 20)) = true) ∧
    ((pairsIn [0xFC01#32, 0#32]).map (signalStatus on)).foldl firstStatus .ok = .ok ∧
    ((pairsIn [0xFFFFF#32, 0#32]).map (signalStatus on)).foldl firstStatus .ok ≠ .ok ∧
    (0 < 6 ∧ 5 < 6) := by decide +kernel

/-- A set in copy A equal to what stands, a job of each kind, and an erase under way. -/
def job (p : Nat) (r : Bool) : NvmJob :=
  { record := { serial := 7, type := 0x10, key := 0, data := .wearHist [] }, pages := p, retried := r }
def stored : State := { on with nvm := { on.nvm with
  recs := [{ serial := 1, type := 0x01, key := 0, data := .param false { gen := 4, regs := [], images := [] } }] } }
theorem meets_NonVolatileMemory : on.Runs ∧ on.isOn .nvm = true ∧ on.setBusy = false ∧ fld 0#32 0 2 ≠ 3 ∧
    on.namedSet (fld 0#32 0 2) = none ∧ stored.Runs ∧ stored.setBusy = false ∧
    stored.namedSet (fld 1#32 0 2) = some { gen := 4, regs := [], images := [] } ∧
    setUnits { gen := 4, regs := [], images := [] } stored = [] ∧ setImages { gen := 4, regs := [], images := [] } stored = [] ∧
    fld 1#32 0 8 ≠ 0 ∧ on.logRecords = [] ∧ 2 ≤ on.replyLimit ∧ on.aon.seq = none ∧ on.nvm.offDue = false ∧
    (∀ n ∈ [0, 1], let s := { on with nvm := { on.nvm with jobs := [job n false], busy := true } }
      s.isOn .nvm = true ∧ s.nvm.jobs = job n false :: [] ∧ s.nvm.busy = true ∧ (job n false).after = .none ∧ (job n false).dropped = false ∧
        (job n false).retried = false ∧ 0 < s.nvm.spare) ∧
    (let s := { on with nvm := { on.nvm with erasing := some 3 } }
     s.nvm.erasing = some 3 ∧ s.nvm.eraseRetried = false ∧ 0 < s.nvm.spare) := by decide +kernel

/-- A set that differs in one register of NET, and one with a field that a write refuses. -/
def setOf (a : Nat) (v : Word) : ParamSet := { gen := 4, regs := [(a, v)], images := [] }
def differs (a : Nat) (v : Word) : State := { on with nvm := { on.nvm with
  recs := [{ serial := 1, type := 0x01, key := 0, data := .param false (setOf a v) }] } }
theorem meets_NvmLoad : (differs 0x60108 5).setBusy = false ∧ (differs 0x60108 5).namedSet 1 = some (setOf 0x60108 5) ∧
    (let s := differs 0x60108 5
     let w := cfgWrite ((setUnits (setOf 0x60108 5) s).flatMap (·.2)) { s with pend := [] }
     w.1 = .ok ∧ w.2.pend = [] ∧ (configJudge w.2).1 = .ok ∧ setImages (setOf 0x60108 5) s = []) ∧
    (let s := differs 0x3F00 1
     (cfgWrite ((setUnits (setOf 0x3F00 1) s).flatMap (·.2)) { s with pend := [] }).1 ≠ .ok) := by decide +kernel
theorem test_nvm_load : told (.nvmLoad [1]) (differs 0x60108 5) = some .ok ∧ (run (.nvmLoad [1]) (differs 0x60108 5)).reg 0x60108 = 5 := by
  decide +kernel

/-- A slot with a Y_SRC and an enabled one. -/
def loops (f : Slot → Slot) (n : Nat) : State := on.setCtx n fun c => c.setSlot 0 f
/-- Twice the unit gain with a correction range of one. -/
def coefs : List Word := [0x40000000, 0, 0, 0, 0, 0x3F800000, 0x3F800000, 0xBF800000, 0x3F800000, 0]
theorem meets_LoopCommands : on.Runs ∧ on.ctxOn 0 = true ∧ on.ctxOn 63 = true ∧ fld 5#32 0 4 < slotCount 0 ∧
    fld 15#32 0 4 < slotCount 63 ∧ bit 0x100#32 8 = true ∧ bit 0x200#32 9 = true ∧ bit 0x200#32 8 = false ∧
    loopSetCheck 63 ((on.ctx 63).slot 0) 0#32 0xFFFFFFFF#32 0xFFFFFFFF#32 on = .ok ∧
    loopSetCheck 63 ((on.ctx 63).slot 0) 0x20#32 0xFFFFFFFF#32 0xFFFFFFFF#32 on ≠ .ok ∧
    coefs.length = 10 ∧ coefCheck 63 ((on.ctx 63).slot 15) (Coefs.ofList coefs) on = .ok ∧
    coefCheck 63 ((on.ctx 63).slot 15) (Coefs.ofList (coefs.set 7 0x40000000)) on ≠ .ok ∧
    coefCheck 0 ((on.ctx 0).slot 5) ((on.ctx 0).slot 5).pend on = .ok ∧
    (let s := loops (fun x => { x with ySrc := 0 }) 63
     s.Runs ∧ ptNone ((s.ctx 63).slot 0).ySrc = false ∧ bit 0#32 8 = false ∧ F32.isFinite 0x3F800000#32 = true) ∧
    fld 0xF00#32 8 4 = 15 ∧ fld 0x700#32 8 4 < groupCount 63 ∧ bit 0x700#32 12 = false ∧ bit 0x1700#32 12 = true ∧
    fld 0x1700#32 8 4 < groupCount 63 ∧ destOk 63 ((0xFFFF#32).setWidth 16) = true ∧
    ((on.ctx 63).slot 0).heldSets.all (groupOk true) = true ∧
    dstInUse 63 0 7 ((0xFFFF#32).setWidth 16) (on.ctx 63) = false := by decide +kernel

/-- An injector of loop 0 of the atrium at constant amplitude, idle and running without an end; the engine in each phase. -/
def injecting : State := loops (fun x => { x with ySrc := 0, en := true }) 63
def injWords : List Word := [0x3F000000#32, 0x3F800000#32, 0, 0, 0, 0]
theorem meets_InjectionAndCapture : injecting.Runs ∧ injWords.length = 6 ∧
    injCheck (injOf injWords) injecting = .ok ∧ (vget injecting.atr.inj (fld 7#32 0 3) {}).run = false ∧
    injCheck (injOf injWords) on ≠ .ok ∧ bit 0x107#32 8 = true ∧
    (let s := { injecting with atr := { injecting.atr with inj := vset injecting.atr.inj 7 { injOf injWords with run := true } } }
     s.Runs ∧ injCheck (injOf injWords) s = .ok ∧ (vget s.atr.inj 7 {}).run = true ∧
       injTakes (vget s.atr.inj 7 {}) (injOf injWords) = true ∧ F32.isZero (injOf injWords).amp = false ∧
       injTakes (vget s.atr.inj 7 {}) (injOf (injWords.set 1 0)) = true ∧ F32.isZero (injOf (injWords.set 1 0)).amp = true ∧
       injCheck (injOf (injWords.set 1 0)) s = .ok ∧
       injTakes (vget s.atr.inj 7 {}) (injOf (injWords.set 2 9)) = false ∧ injCheck (injOf (injWords.set 2 9)) s = .ok) ∧
    [0#32].length = capChans 0x10000#32 ∧ captureCheck 0x10000#32 262143#32 [0#32] on = .ok ∧
    captureCheck 0x10000#32 0#32 [768#32] on ≠ .ok ∧ (on.atr.cap.armed && !on.atr.cap.done) = false ∧
    (262143#32).toNat + (1#32).toNat ≤ 262144 ∧ (1#32).toNat ≤ on.replyLimit ∧
    (let s := { on with atr := { on.atr with cap := { on.atr.cap with armed := true, triggered := true, since := 262144 } } }
     s.Runs ∧ s.atr.cap.armed = true ∧ s.atr.cap.triggered = true ∧ capDepth s.atr.cap.cfg - s.atr.cap.pre ≤ s.atr.cap.since) :=
  by decide +kernel

theorem meets_Staging : oneCell.Runs ∧ oneCell.installed 0 = true ∧ oneCell.hallOn (0 / 21) = true ∧
    [7#32].length = (setBits 10 (0x4#32).toNat).length ∧ fld 0x4#32 0 10 &&& fld 0x4#32 16 10 = 0 ∧ bit 0x4#32 26 = false ∧
    hostOk 2 false 0 (1280000#32) = true ∧ hostOk 2 false 0 (1279999#32) = false ∧
    [0#32, 0#32].length = (setBits 10 (0x4000003#32).toNat).length ∧ bit 0x4000003#32 0 = true ∧
    bit 0#32 0 = false ∧ oneCell.grid.armed = none ∧ bit 1#32 0 = true ∧
    { oneCell with grid := { oneCell.grid with armed := some (5, true) } }.grid.armed ≠ none ∧
    (let s := { oneCell with stair := { oneCell.stair with present := 0x8001#16 } }
     s.Runs ∧ s.grid.armed = none ∧ s.mapPresent &&& ~~~(1#16 <<< s.pos) ≠ 0) ∧
    fld 2#32 0 2 < 3 ∧ hallModeOk 0#32 = true ∧ hallModeOk 3#32 = false ∧ fld 3#32 0 2 = 3 := by decide +kernel

/-- Cells that are out of service, without and with an alarm's retry under way. -/
def outCell : State := oneCell.setCell 0 fun c => { c with mode := .out }
theorem meets_CellService : oneCell.Runs ∧ (∀ k ∈ maskCells [5#32, 1#32, 0x40000000#32], oneCell.hallOn (k / 21) = true) ∧
    fld 2#32 1 2 = 1 ∧ fld 5#32 1 2 = 2 ∧ bit 2#32 0 = false ∧ bit 5#32 0 = true ∧
    0 ∈ maskCells [5#32, 1#32, 0x40000000#32] ∧ 62 ∈ maskCells [5#32, 1#32, 0x40000000#32] ∧
    (off [4]).hallOn (0 / 21) = false ∧ 0 ∈ maskCells [2#32, 1#32, 0#32] ∧ fld 0#32 1 2 = 0 ∧ fld 6#32 1 2 = 3 ∧
    (off [4]).Runs ∧ oneCell.installed 0 = true ∧ oneCell.hallOn (0 / 21) = true ∧
    (let s := ((on.setReg (fltBase 0) 2#32).setCell 0 fun c => { c with mode := .active }).setCell 1 fun c => { c with mode := .active }
     let stay := (s.strCells 0).filter fun i => i != 0 && s.isActive i && (s.cell i).req.isNone
     s.Runs ∧ s.installed 0 = true ∧ s.hallOn (0 / 21) = true ∧ (s.cell 0).mode ≠ .out ∧ s.nReq 0 ≤ stay.length ∧
       (let u := { s with halls := vmod s.halls 0 fun h => { h with nReq := 2 } }
        u.isActive 0 = true ∧ u.installed 0 = true ∧ stay.length < u.nReq (0 / 21))) ∧
    outCell.Runs ∧ (outCell.cell 0).mode = .out ∧ outCell.installed 0 = true ∧ outCell.hallOn (0 / 21) = true ∧
    (let s := { outCell with safe := { outCell.safe with cause := 0 } }
     s.Runs ∧ s.installed 0 = true ∧ s.hallOn (0 / 21) = true ∧ (s.hall (0 / 21)).err = false ∧ (s.cell 0).perm = false ∧
       (s.cell 0).mode = .out ∧ (s.cell 0).retry = false ∧ (s.hall (0 / 21)).permPending = false ∧ s.ssb = false) ∧
    outCell.ssb = true := by decide +kernel

/-- A write of the first word the host may write, the last bytes of an image for a read, and CLR_PERM. -/
theorem meets_CellImages : oneCell.Runs ∧ oneCell.installed 0 = true ∧ oneCell.hallOn (0 / 21) = true ∧
    bit 0x2008#32 30 = false ∧ bit 0x2008#32 31 = false ∧ 0 < fld 0x2008#32 11 11 ∧ fld 0x2008#32 0 11 + fld 0x2008#32 11 11 ≤ 1040 ∧
    [0#32].length = (fld 0x2008#32 11 11 + 3) / 4 ∧ (oneCell.cell 0).transfer = none ∧
    writeReserved (fld 0x2008#32 0 11) (fld 0x2008#32 11 11) = false ∧
    (let img := overlay (oneCell.cell 0).image 8 (bytesAt (wordBytes [0x00640064#32]) 0 4)
     writePasses oneCell.qpre 8 4 ((oneCell.setCell 0 fun c => { c with image := img }).fullImage 0) = true) ∧
    bit 0x40000C0F#32 30 = true ∧ bit 0x40000C0F#32 31 = false ∧ fld 0x40000C0F#32 0 11 + fld 0x40000C0F#32 11 11 ≤ 1040 ∧
    0 < fld 0x40000C0F#32 11 11 ∧ bit 0x80000000#32 30 = false ∧ bit 0x80000000#32 31 = true ∧ fld 0x80000000#32 11 11 = 0 ∧
    (outCell.cell 0).mode = .out ∧ ((oneCell.setCell 0 fun c => { c with mode := .active }).cell 0).mode ≠ .out ∧ outCell.Runs ∧ outCell.installed 0 = true := by decide +kernel

/-- A restore that waits for its string; retries and derates, alone and behind a decision for a whole hall. -/
theorem meets_CellTimeouts : oneCell.Runs ∧ oneCell.hallOn (0 / 21) = true ∧ on.hallOn (62 / 21) = true ∧
    (let c := (oneCell.setCell 0 fun c => { c with mode := .restoring, restoreWait := true }).cell 0
     c.mode = .restoring ∧ c.noLimit = false) ∧
    (let s := oneCell.setCell 0 fun c => { c with mode := .out, retry := true }
     let v := oneCell.setCell 0 fun c => { c with mode := .out, retry := true, decided := [(3, 100000000)] }
     s.Runs ∧ (s.cell 0).retry = true ∧ (s.cell 0).mode = .out ∧ s.standby = false ∧ (s.patFault 0 = 1 ∨ s.patFault 0 = 2) ∧
       (advanceTo 0 s).outranked 0 2 = false ∧ v.outranked 0 2 = true ∧ (v.cell 0).mode = .out) ∧
    (let s := oneCell.setCell 0 fun c => { c with mode := .active, derate := true }
     let v := oneCell.setCell 0 fun c => { c with mode := .active, derate := true, decided := [(4, 0)] }
     s.Runs ∧ (s.cell 0).derate = true ∧ (s.cell 0).inUse = true ∧ s.standby = false ∧ s.outranked 0 2 = false ∧
       v.outranked 0 2 = true ∧ (v.cell 0).derate = true) ∧
    ({ mode := .out, derate := true } : Cell).inUse = false := by decide +kernel

/-- Cells 0 and 62, leg groups 0 and 2, with and without a journal round of the cell. -/
def wearPar : List Word := (List.range 15).map fun i => (on.reg (wearBase 0 0 + 4 * i))
theorem meets_Wear : on.Runs ∧ fld 0x13E#32 0 6 = 62 ∧ fld 0x23E#32 8 2 < 3 ∧ on.ctxOn 62 = true ∧ on.ctxOn 0 = true ∧
    on.journalling 0 = false ∧ fld 0#32 16 2 = 0 ∧ bit 0x20000#32 17 = true ∧ wearPar.length = 15 ∧
    (∀ i < 15, wearInRange i (wd wearPar i) = true) ∧ bit 0x10000#32 17 = false ∧ on.isOn .nvm = true ∧
    (let s := { on with nvm := { on.nvm with jobs := [{ record := { serial := 1, type := 0x10, key := 0, data := wearSummary (on.cell 0) }, pages := 1 }] } }
     s.Runs ∧ s.ctxOn 0 = true ∧ s.journalling 0 = true) := by decide +kernel

/-- Sequence 15 with entry 15 enabled on unit 7, started, its request due; sequence 3 on the peaks of cell 62; sequence 4
on ball 15. -/
def seqWords : List Word := List.replicate 15 0#32 ++ [0x80000700#32]
def measuring : State :=
  let s := { on with meas := { on.meas with seq := vset on.meas.seq 15 { cfg := 0x80000000#32, ent := Vector.ofFn fun e => wd seqWords e.val } } }
  let r : ResWord := { convs := [{ ent := wd seqWords 15, req := 0 }], wait := true }
  { s with meas := { s.meas with seq := vmod s.meas.seq 15 fun q => { q with res := vset q.res 15 r } } }
theorem meets_Converters : on.Runs ∧ on.isOn .analog = true ∧ seqWords.length = 16 ∧
    fld 0x80000000#32 24 3 = 0 ∧ bit 0x10F#32 8 = true ∧ bit 0x80000000#32 31 = true ∧ fld 0x10F#32 0 4 = 15 ∧
    seqCheck 15 0x80000000#32 (Vector.ofFn fun e => wd seqWords e.val) on = .ok ∧
    (15#32).toNat ≤ 15 ∧ measuring.Runs ∧ entOn (vget (measuring.adc 15).ent 15 0) = true ∧
    ((vget (measuring.adc 15).res 15 {}).slice = some { ent := wd seqWords 15, req := 0 } ∧ entOn (wd seqWords 15) = true ∧
       entDsd (wd seqWords 15) = false ∧ measuring.privileged (entUnit (wd seqWords 15)) = false ∧
       measuring.meas.tdacRun = false) ∧
    (let s := on.setCell 62 fun c => { c with stage := { c.stage with valid := true, lvl := false, cmodeIn := 0, safe := 0 } }
     let c := (s.cell 62).stage
     s.Runs ∧ s.ctxOn 62 = true ∧ c.valid = true ∧ c.lvl = false ∧ c.cmodeIn = 0 ∧ c.safe = 0) ∧
    (let s := on.setReg 0x83C 3#32
     s.Runs ∧ s.gpioFunc 15 = 3) ∧
    (let s := on.setReg 0x2211C 0x80000100#32
     s.Runs ∧ bit (s.dsdCfg 7) 31 = true ∧
       2 ≤ (vget { s with meas := { s.meas with dsd := vset s.meas.dsd 7 { outputs := 2 } } }.meas.dsd 7 {}).outputs) := by
  decide +kernel

/-- A round of converter 3 at each of its steps. -/
def rotating (step : CalStep) : State :=
  { on with meas := { on.meas with round := some { roles := [3], step := step }, priv := 0x803E0408#32 } }
theorem meets_BackgroundCalibration : on.isOn .analog = true ∧ on.Runs ∧ privCheck 0x803E0408#32 on = .ok ∧
    privCheck 0#32 on ≠ .ok ∧
    { rotating .selfCal with meas := { (rotating .selfCal).meas with round := none } }.mayRotate = true ∧
    (rotating .selfCal).mayRotate = true ∧
    ((995 : Rat) / 1000 ≤ 995 / 1000 ∧ (1005 : Rat) / 1000 ≤ 1005 / 1000 ∧ (-64 : Rat) ≤ -64 ∧ (64 : Rat) ≤ 64) ∧
    (rotating .overlap).meas.round = some { roles := [3], step := .overlap } ∧
    (-(fld (rotating .overlap).meas.priv 8 8 : Rat) ≤ -4 ∧ (4 : Rat) ≤ (fld (rotating .overlap).meas.priv 8 8 : Rat)) := by
  decide +kernel

/-- Channel 0 of the analogue block, mapped to a cell, and a calibration that has its samples or lacks them. -/
def mapped : State := on.setReg 0x23000 0x80000000#32
theorem meets_SystemCalibration : mapped.Runs ∧ calCheck false 0#32 mapped = .ok ∧
    calCheck true 0#32 { mapped with meas := { mapped.meas with calZero := some (calChan 0#32, 0, 0) } } = .ok ∧
    calCheck false 0x8000#32 mapped ≠ .ok ∧
    (let c : CalRun := { full := false, chan := calChan 0#32, x := 0, n := 256 }
     c.full = false ∧ c.clip = false ∧ (if (chanCell c.chan).isSome then 64 else 256) ≤ c.n ∧
       { on with meas := { on.meas with calBusy := true, cal := some c } }.meas.calBusy = true ∧ on.nvm.jobs = [] ∧
       (255 < if (chanCell c.chan).isSome then 64 else 256)) := by decide +kernel

/-- The codes of the least and the largest difference that passes at code 100, and one that is open. -/
theorem meets_TestDac : on.Runs ∧ on.isOn .analog = true ∧ on.meas.tdacRun = false ∧
    fld 0#32 30 2 = 0 ∧ fld 0x40700000#32 30 2 = 1 ∧ fld 0x40700000#32 20 4 ≤ 7 ∧ fld 0x80000000#32 30 2 = 2 ∧
    fld 0xC0000000#32 30 2 = 3 ∧
    (let s := { on with meas := { on.meas with tdac := 0x40000064#32, tdacRun := true } }
     s.Runs ∧ s.meas.tdacRun = true ∧ fld s.meas.tdac 30 2 = 1 ∧
       ∀ d ∈ [(3168 : Int), 3232], 100 * (d - 32 * tdacCode s).natAbs ≤ 32 * (tdacCode s).natAbs) ∧
    (let s := { on with meas := { on.meas with tdac := 0x80000064#32, tdacRun := true } }
     s.Runs ∧ fld s.meas.tdac 30 2 = 2 ∧ 8 * (tdacCode s).natAbs < (801 : Int).natAbs) := by decide +kernel

/-- A stream of one point, and one whose frame is due, with room for it and without. -/
theorem meets_Streams : on.Runs ∧ [0#32].length = cfgPoints 0x10001#32 ∧
    streamCheck 7 0x10001#32 ([0#32].map fun p => fld p 0 20) on = .ok ∧
    streamCheck 7 0x10001#32 ([768#32].map fun p => fld p 0 20) on ≠ .ok ∧
    on.bankOn 12 = true ∧ on.bankOn 13 = true ∧ on.isOn .net = true ∧ bit 0x80#32 7 = true ∧
    (setStream 7 (fun x => { x with due := [(5, 0, [])] }) on).stream 7 = { on.stream 7 with due := [(5, 0, [])] } ∧
    cfgUdp (on.streamCfg 7) = false ∧ on.rsBytes + (streamBytes 7 0 5 0 []).length ≤ 65536 ∧
    cfgUdp ((on.setReg (streamBase 7) 0x80000000#32).streamCfg 7) = true := by decide +kernel
theorem meets_StreamFull : 65536 < ({ on with host := { on.host with rs := [List.replicate 65536 0] } } : State).rsBytes +
    (streamBytes 7 0 5 0 []).length := by
  have h : ∀ a b : Nat, 0 < b → 65536 < 65536 + b := by omega
  simp only [State.rsBytes, List.map_cons, List.map_nil, List.sum_cons, List.sum_nil, List.length_replicate, Nat.add_zero]
  exact h 0 _ (by decide +kernel)

theorem meets_TwinHeartbeats : active.paired = true ∧ active.linkUp = true ∧ active.hbRuns = true ∧
    standby.aon.straps.role ≠ 1 ∧ standby.paired = true ∧ 0#8 ≠ ~~~(0#8 ^^^ 0#8) ∧ active.twin.hb1.state = 1 ∧
    active.twin.state = 1 ∧ active.twin.hb2.state = 1 ∧ active.isOn .links = true ∧ active.twin.linkUp = true := by decide +kernel

/-- Both paths lost, never up, and a switch at 40 µs agreed. -/
theorem meets_TwinTakeover : standby.paired = true ∧ standby.standby = true ∧ standby.twin.state = 2 ∧
    standby.isOn .timebase = true ∧ active.standby = false ∧ standby.linkUp = true ∧ standby.twin.handed = false ∧
    { standby with twin := { standby.twin with handed := true } }.twin.state = 2 ∧
    { standby with twin := { standby.twin with linkUp := false } }.linkUp = false ∧
    { standby with twin := { standby.twin with hb1 := { state := 2 }, hb2 := { state := 2 } } }.pathsLost = true ∧
    { standby with twin := { standby.twin with hb1 := { state := 0 }, hb2 := { state := 0 } } }.pathsNever = true ∧
    (let s := { active with twin := { active.twin with lsw := some 40000 } }
     s.paired = true ∧ s.twin.state = 1 ∧ s.twin.lsw = some 40000 ∧ s.isOn .timebase = true) := by decide +kernel

theorem meets_TwinCommands : active.paired = true ∧ active.twin.state = 1 ∧ active.linkUp = true ∧
    { active with twin := { active.twin with partnerInStep := true } }.twin.partnerInStep = true ∧
    active.twin.partnerInStep = false ∧ standby.linkUp = true ∧ standby.standby = true ∧
    (let f := fun (a : Nat) => ({ queue := 5, seq := 0, op := 0, words := [], at_ := a } : Fwd)
     earliest [f 90, f 60] = some (f 60, [f 90]) ∧ (f 60).pkt = none ∧ (f 60).op = 0 ∧ (f 60).words = []) := by decide +kernel
theorem meets_Rejoin : (let s := { active with twin := { active.twin with partnerInfo := some active.info } }
     s.twin.state = 1 ∧ s.linkUp = true ∧ s.twin.hb1.state = 1 ∧ s.twin.hb2.state = 1 ∧ s.twin.partnerInStep = false ∧
        s.twin.partnerActive = false ∧ s.twin.transfer = false ∧ s.twin.partnerInfo = some s.info) ∧
    active.twin.partnerInfo = none :=
  ⟨⟨rfl, by decide, rfl, rfl, rfl, rfl, rfl, rfl⟩, rfl⟩

/-- A running ring of the standby (flight 0 with one cell), and an epoch on either side of the half. -/
def ring : State :=
  let s := standby.setReg (fltBase 0) 1#32
  s.setFlight 0 fun x => { x with eastUp := true, westUp := true }
/-- A deliver train without a frame, its trailer right. -/
def emptyTrain : List Byte :=
  List.replicate 16 0 ++ leBytes 4 (crc32c (List.replicate 12 0)).toNat ++ List.replicate 4 0
theorem meets_TwinTraffic : standby.paired = true ∧ standby.linkUp = true ∧ standby.standby = true ∧
    (standby.setCell 62 fun c => { c with mode := .active }).standby = true ∧
    ((standby.setCell 62 fun c => { c with mode := .active }).cell 62).inUse = true ∧ (standby.cell 62).req = none ∧
    (standby.cell 62).decided = [] ∧ standby.isOn .safety = true ∧ ring.ringUp 0 = true ∧ (ring.flight 0).rep = false ∧
    (1 ∉ (ring.flight 0).breaks ∧ ring.ringOn 0 = true) ∧ (oneCell.ringOn 0 = true ∧ oneCell.aon.straps.role = 0 ∧
      oneCell.standby = false) ∧ ring.atr.missed = false ∧ (List.replicate 9 (0#32)).length ≤ 9 ∧
    0 ∈ ring.running ∧ (1#9).getLsbD 0 = true ∧ ring.twin.stepMap.getLsbD 0 = true ∧
    { ring with twin := { ring.twin with state := 3 } }.standby = true ∧ trailerOk [] = false ∧ trailerOk emptyTrain = true ∧
    (trainFrames emptyTrain).flatMap (fun x => bytesAt x 0 36) ≠
      ((ring.setFlight 0 fun x => { x with heads := [1] }).flight 0).heads := by
  decide +kernel

/-- A beacon from the newel, whose Tc differs. -/
def beacon0 : BeaconMsg := { tc := 40000, count := 16, shareMask := 0, mapPresent := 0, mapHalls := 0 }
/-- A frame of position `p` that comes by `v`, to one position or to all. -/
def header (v : StairVia) (p : Fin 16) (dst : Byte) : StairHdr :=
  { via := v, src := p, chainW := false, dst := dst, hops := 1, crcOk := true }
theorem meets_StairBeacons : follower.Runs ∧ follower.isOn .links = true ∧ follower.pos ≠ 0 ∧
    (∀ ty ∈ [(1 : Byte), 2, 3, 4, 5, 6, 7, 8, 9, 10], follower.stairHears ty .su = true ∧ follower.stairHears ty .sd = true ∧
      follower.stairHears ty .twin = false) ∧ { header .su 0 0xFF with crcOk := false }.crcOk = false ∧
    (header .su 0 0xFF).via ≠ .sd ∧ (header .su 0 0xFF).dst = 0xFF ∧ (header .su 0 0xFF).crcOk = true ∧
    follower.stair.promote = false ∧ follower.pos < beacon0.count ∧ (header .su 0 0xFF).src.val < follower.pos ∧
    follower.stair.anns = [] ∧
    { follower with stair := { follower.stair with promote := true } }.stair.promote = true ∧
    (standby.Runs ∧ standby.isOn .links = true ∧ standby.standby = true ∧ standby.linkUp = true) ∧
    follower.newel = false ∧ follower.stair.newelLost = false ∧ follower.stair.holdExp = false ∧
    { follower with stair := { follower.stair with newelLost := true } }.stair.newelLost = true ∧
    (let s := { on with stair := { on.stair with downUp := true } }
     s.Runs ∧ s.downstream = true ∧ s.newel = true ∧ s.twin.state ≠ 1) ∧
    (let s := { active with stair := { on.stair with downUp := true } }
     s.Runs ∧ s.downstream = true ∧ s.newel = true ∧ s.twin.state = 1 ∧ s.linkUp = true) := by decide +kernel

/-- θ of 32 and of 321 sixteenths of a nanosecond, with 15 measurements on that side. -/
theorem meets_StairTime : follower.Runs ∧ follower.isOn .links = true ∧ follower.isOn .timebase = true ∧
    follower.newel = false ∧ follower.stair.upUp = true ∧ follower.stair.downUp = true ∧ follower.standby = false ∧
    (let s := { follower with stair := { follower.stair with t1 := some 100, good := 15, bad := 15, sync := true } }
     s.stair.t1 = some 100 ∧ (stairTheta 100 (stampNear 132 100) (stampNear 132 100) 100 0).natAbs ≤ 32 ∧
       320 < (stairTheta 100 (stampNear 421 100) (stampNear 421 100) 100 0).natAbs ∧
       15 ≤ s.stair.good ∧ s.stair.good ≤ 16 ∧ 15 ≤ s.stair.bad ∧ s.stair.sync = true) ∧
    follower.stairHears 5 .su = true ∧ (header .sd 2 0xFF).src.val = follower.pos ∧
    (header .sd 2 0xFF).chainW = follower.onChainW ∧ follower.pos ≤ (header .su 2 0xFF).src.val ∧
    follower.stair.posErr = false ∧
    (let s := { on with stair := { on.stair with downUp := true } }
     s.Runs ∧ s.isOn .links = true ∧ s.stair.downUp = true ∧ s.newel = true) := by decide +kernel

theorem meets_StairLandings : follower.Runs ∧ follower.isOn .links = true ∧ follower.standby = false ∧
    (∀ ty ∈ [(2 : Byte), 6, 8, 9, 10], follower.stairHears ty .su = true) ∧
    (header .su 5 2).dst = BitVec.ofNat 8 follower.pos ∧ (header .su 5 2).crcOk = true ∧
    (header .su 5 2).src.val = 5 ∧ [0] ≠ ([] : List Nat) ∧ (header .su 5 2).via ≠ .twin ∧
    (let s := { active with stair := { active.stair with upUp := true, downUp := true } }
     s.Runs ∧ s.isOn .links = true ∧ s.twin.state = 1 ∧ s.linkUp = true ∧ s.stairHears 10 .sd = true) ∧
    follower.grid.armed = none ∧ follower.now + follower.lead + 201 ≤ near40 100000 follower ∧ follower.newel = false ∧
    (let s := { follower with grid := { follower.grid with armed := some (7, true) } }
     s.grid.armed = some (7, true) ∧ 7 ≠ near40 100000 s) ∧
    (let w : AnnWait := { acked := 0, accept := 0, stale := 0, pkt := some (headerOf .spi {} (nopPkt 0)), words := [] }
     { follower with stair := { follower.stair with anns := [w] } }.stair.anns = w :: [] ∧ w.pkt ≠ none) ∧
    ((if follower.pos < (3 : Fin 16).val then follower.stair.downUp else follower.stair.upUp) = true) ∧
    ((if follower.pos < (0 : Fin 16).val then follower.stair.downUp else follower.stair.upUp) = true) ∧
    ptPos 0x50003 = (5 : Fin 16).val ∧
    { follower with stair := { follower.stair with sigs := [{ pts := [0x50003], vals := [], pkt := none }] } }.stair.sigs =
      [{ pts := [0x50003], vals := [], pkt := none }] := by decide +kernel

/-- A landing armed for the coming one and for a later one, a capture at work, and two parts in a period of 40 µs. -/
theorem meets_PeriodInstants : on.Runs ∧ on.isOn .timebase = true ∧
    (let s := { oneCell with grid := { oneCell.grid with armed := some (oneCell.grid.next, false) } }
     s.grid.armed = some (s.grid.next, false) ∧ s.grid.next ≤ s.grid.next) ∧ on.grid.next < on.grid.next + 1 ∧ on.grid.armed = none ∧
    oneCell.ringUp 0 = true ∧ oneCell.ringUp 8 = false ∧ (routes 0 oneCell).isEmpty = false ∧ on.aon.seq = none ∧
    { on with aon := { on.aon with seq := some { kind := .set } } }.aon.seq = some { kind := .set } ∧
    (({ kind := .set } : PowerSeq)).lastTrain = false ∧
    (let s := { on with atr := { on.atr with cap := { on.atr.cap with armed := true } } }
     s.atr.cap.armed = true ∧ s.atr.cap.done = false ∧ s.capBanks = true ∧ s.atr.cap.triggered = false ∧ s.atr.cap.dec = 0) ∧
    on.atr.cap.armed = false ∧
    { on with grid := { on.grid with tc := 40000 } }.grid.keepAlive + 1 < parts 40000 ∧
    { active with twin := { active.twin with leaving := true } }.twin.leaving = true ∧
    { active with twin := { active.twin with mute := true } }.twin.mute = true ∧ oneCell.ringOn 0 = true ∧ oneCell.ringOn 8 = false := by decide +kernel

/-- Hall A at work with one cell in flight 0, whose train is out eastward. -/
def atWork : State :=
  let s := { oneCell with atr := { oneCell.atr with started := true } }
  (s.setReg (hallBase 0 + 4) 1#32).setFlight 0 fun x => { x with outEast := true, loopsDone := true }
theorem meets_PeriodWork : on.Runs ∧ on.atr.started = false ∧ on.isOn .timebase = true ∧ atWork.Runs ∧
    atWork.hallOn 0 = true ∧ atWork.atr.started = true ∧ atWork.standby = false ∧ (atWork.hall 0).err = false ∧
    fld ((({ atWork with halls := vmod atWork.halls 0 fun h => { h with modUse := 1#32 } } : State)).modNow
      (atWork.strHead 0)).1 0 2 ≠ 0 ∧
    atWork.ringUp 0 = true ∧ (atWork.flight 0).loopsDone = true ∧ (atWork.flight 0).mapped = false ∧
    (let s := { atWork with halls := Vector.replicate 3 { sorted := true } }
     ∀ g ∈ s.strHalls (s.strHead (0 / 3)), s.hallOn g = true → (s.hall g).sorted = true) ∧
    fld (oneCell.modNow (oneCell.strHead (0 / 3))).1 0 2 = 0 ∧
    (outRoute 0 false atWork).isSome = true ∧ atWork.ringOn 0 = true ∧ ((outRoute 0 false atWork).all fun r => atWork.ends.contains r.back) = true ∧
    (let s := ((active.setReg (fltBase 0) 1#32).setFlight 0 fun x => { x with outEast := true })
     let u := { s with twin := { s.twin with linkUp := false } }
     (outRoute 0 false u).isSome = true ∧ u.ringOn 0 = true ∧ u.linkUp = false ∧
       ((outRoute 0 false u).all fun r => !u.ends.contains r.back) = true) := by decide +kernel

theorem meets_RingEvents : oneCell.Runs ∧ oneCell.fltOn 0 = true ∧ oneCell.fltOn 8 = true ∧ oneCell.ringUp 0 = true ∧
    (let s := oneCell.setFlight 0 fun x => { x with breaks := [1], survStep := 3, ewDelay := some 9 }
     s.Runs ∧ (s.flight 0).wrapped = true ∧ s.portsUp 0 = false ∧ (s.flight 0).survStep = 3 ∧
       (s.flight 0).ewDelay = some 9 ∧ ((routes 0 s).find? fun r => r.whole).isSome = true) ∧
    oneCell.aon.straps.role = 0 ∧ active.linkUp = true ∧ active.aon.straps.role ≠ 0 ∧
    ({ active with twin := { active.twin with linkUp := false } } : State).linkUp = false ∧
    (oneCell.flight 0).ewDelay = none ∧ (oneCell.flight 0).survStep ≠ 3 ∧ oneCell.standby = false ∧ (oneCell.flight 0).breaks = [] ∧
    oneCell.ctCount 0 ≠ 0 ∧ oneCell.ctCount 8 = 0 ∧ oneCell.ctCount 0 ≤ fld 0x80000001#32 0 3 ∧
    ¬ (∀ i < oneCell.ctCount 0, fieldAt (oneCell.cell (7 * 0 + i)).report 1 1 % 4 = 1) ∧ ring.standby = true ∧
    (let s := (oneCell.setFlight 0 fun x => { x with breaks := [1], eastUp := true, westUp := true }).setCell 0 fun c =>
        { c with freshAt := some 0, ports := 3 }
     (s.flight 0).wrapped = true ∧ s.portsUp 0 = true) ∧
    (let s := oneCell.setCell 0 fun c => { c with report := [0#8, 1#8] ++ List.replicate 62 0 }
     fld 0x80000000#32 0 3 < s.ctCount 0 ∧ (s.flight 0).survStep = 0 ∧
       ∀ i < s.ctCount 0, fieldAt (s.cell (7 * 0 + i)).report 1 1 % 4 = 1) ∧
    (0xFA#8 = ~~~(0x00#8 ^^^ 0x05#8) ∧ (0x00#8).toNat / 16 % 8 < 7 ∧ 0 < (0x05#8).toNat % 128 ∧ (0x05#8).toNat % 128 ≤ 7 ∧
      (0x70#8).toNat / 16 % 8 = 7 ∧ (0x08#8).toNat % 128 = 8 ∧ oneCell.ringOn 0 = true ∧ (oneCell.setCell 0 fun c => { c with alms := [(7, 0)] }).hadAlarm 0 7 = true ∧
      oneCell.hadAlarm 0 5 = false ∧ (oneCell.setCell 0 fun c => { c with alms := [(5, 0)] }).hadAlarm 0 5 = true) ∧
    (0xF8#8 = ~~~(0x00#8 ^^^ 0x07#8) ∧ (0x07#8).toNat % 128 = 7 ∧ (oneCell.flight 0).breaks.contains 0 = false ∧
      (oneCell.flight 0).breaks.contains (oneCell.ctCount 0) = false) ∧ 0#8 ≠ ~~~(0x00#8 ^^^ 0x05#8) := by decide +kernel

/-- A lane in test, and the spare of hall A. -/
theorem meets_LaneSelfTests : on.Runs ∧ on.isOn (laneDom 0) = true ∧ on.isOn (laneDom 13) = true ∧
    ((setLane 0 (fun x => { x with testing := true }) on).lane 0).testing = true ∧
    (let x := (setLane 3 (fun x => { x with role := 1, flight := 15 }) on).lane 3
     x.role = 1 ∧ x.flight = 15 ∧ x.testing = false) := by decide +kernel

/-- Sensors of each kind, a reading at the shutdown level and one below it. -/
theorem meets_ThermalRounds : on.Runs ∧ on.sensorOn (sensorCode (.die 3)) = true ∧ on.sensorOn (sensorCode (.th 3)) = true ∧
    on.sensorOn (sensorCode (.cell 62 3)) = true ∧ on.isOn .timebase = true ∧ on.atr.halted = false ∧
    (on.setReg 0x40024 0x0F001180#32).shutLevel = 4480 ∧ on.therm.shut = false ∧ on.aon.seq = none ∧
    on.isOn .safety = true ∧ on.isOn .nvm = true ∧ on.nvm.busy = false ∧
    (let s := { on.setReg 0x40024 0x0F001180#32 with therm := { on.therm with shut := true } }
     s.Runs ∧ s.shutLevel = 4480 ∧ s.therm.shut = true ∧ s.isOn .safety = true) := by decide +kernel

/-! Ill-formed terms, one for each check: refused. -/

/-- A payload of 1021 words. -/
def long : List Word := List.replicate 1021 0

theorem wf_payload : (Instr.cfgRead long).wf = false ∧ (Instr.cfgRead (long.drop 1)).wf = true ∧
    (Instr.forwardedCommand 0 ⟨0, none⟩ 0 long 0).wf = false := by decide +kernel
theorem wf_rows_of_one_opcode : (Instr.nop [1]).wf = false ∧ (Instr.cfgCommit [1]).wf = false ∧ (Instr.cfgCommit [2]).wf = false ∧
    (Instr.cfgCommitCheck [0]).wf = false ∧ (Instr.cfgCommitCheck [3]).wf = false ∧ (Instr.cfgCommitDiscard [1]).wf = false ∧
    (Instr.safeSet [1, 0, 0]).wf = false ∧ (Instr.safeRequest [0, 0, 0]).wf = false ∧
    (Instr.ctConfig 0 [0x40000000]).wf = false ∧ (Instr.ctConfig 0 [0x80000000]).wf = false ∧
    (Instr.ctConfigRead 0 [0]).wf = false ∧ (Instr.ctConfigRead 0 [0xC0000000]).wf = false ∧
    (Instr.clrPerm 0 [0]).wf = false ∧ (Instr.clrPerm 0 [0xC0000000]).wf = false ∧
    (Instr.wearParam [0x10000]).wf = false ∧ (Instr.wearParamReset [0]).wf = false ∧ (Instr.testDac [0x40000000]).wf = false ∧
    (Instr.testDacGain [0]).wf = false ∧ (Instr.testDacOpen [0x40000000]).wf = false ∧ (Instr.testDacOut [0]).wf = false ∧
    (Instr.safeConfirm [1, 0]).wf = false ∧ (Instr.safeConfirmWithdraw [0, 0]).wf = false := by decide +kernel
theorem wf_registers : (Instr.fltSurveyGo 0 0).wf = false ∧ (Instr.mgmtRegisterWrite 0x1000000 [0]).wf = false ∧
    (Instr.mgmtRegisterWrite 0 []).wf = false ∧ (Instr.rsRead 0).wf = false := by decide +kernel
theorem wf_lengths : (Instr.spiCodeIgnored 1).wf = false ∧ (Instr.spiCodeIgnored 2).wf = false ∧ (Instr.spiCodeIgnored 3).wf = false ∧
    (Instr.gatherReturn 0 false 0 ⟨0, [[0]]⟩).wf = false ∧
    (Instr.gatherReturn 0 false 0 ⟨0, List.replicate 8 (List.replicate 64 0)⟩).wf = false ∧
    (Instr.commitWord 0 (List.replicate 9 0)).wf = false ∧ (Instr.activeTrainObserved 0 [0]).wf = false ∧
    (Instr.activeTrainObserved 0 (List.replicate 48 0)).wf = false ∧ (Instr.activeTrainObserved 0 (List.replicate 456 0)).wf = false ∧
    (Instr.share ⟨header .su 0 0xFF, ⟨0, [(1, 0), (1, 0)]⟩⟩).wf = false ∧ (Instr.galleryScrub 15 .uncorr (.wear 0)).wf = false ∧ (Instr.retEntryDone 10).wf = false ∧ (Instr.retEntryDone 15).wf = false := by
  decide +kernel

/-! The manual's check values and worked examples. -/

/-- The string "123456789" (R108, R109). -/
def digits : List Byte := [0x31, 0x32, 0x33, 0x34, 0x35, 0x36, 0x37, 0x38, 0x39]
theorem test_crc16 : crc16 digits = 0x29B1 := by decide +kernel
theorem test_crc32c : crc32c digits = 0xE3069283 := by decide +kernel

/-- Example A newel of chapter 2: TB 18.5 ppm slow. -/
theorem test_tb_incr : told (.tbIncr [0xFFFD933E, 0x01]) on = some .ok ∧
    (run (.tbIncr [0xFFFD933E, 0x01]) on).tb.incr = 0x1FFFD933E := by decide +kernel

/-- CLKOUT0 and DSCLK0 of Example A in chapter 2: pending until the commit, which takes both. -/
theorem test_pll : told (.pllSet [0, 0x80000190]) on = some .ok ∧ told (.pllSet [2, 0x800001F5]) on = some .range ∧
    (vget (run (.pllCommit []) (run (.pllSet [0, 0x80000190]) on)).tb.pllAct 0 {}).div = 400 := by decide +kernel

/-- Example B of chapter 2: the header's landing time lies 2.6 µs ahead across the wrap. -/
theorem test_low40 : low40 1099511630000 = 0x8B0 ∧ (low40 1099511630000 + 2 ^ 40 - low40 1099511627400) % 2 ^ 40 = 2600 := by
  decide

/-- Tables 03-11 and 03-12: hop constants of Example B, on a lone device and as the E device of a pair. -/
def wired (role : Fin 3) (brk : List Nat) : State :=
  let s := each ([1, 2, 3, 4, 5, 6].map fun i => (i, 0x01700170#32)) (fun x s => s.setReg (fltBase 0 + 0x100 + 4 * x.1) x.2) on
  let s := ((s.setReg (fltBase 0) 7#32).setReg (fltBase 0 + 0x100) 0x05F004F0#32).setReg (fltBase 0 + 0x11C) 0x04F005F0#32
  let s := { s with aon := { s.aon with straps := { role := role, pos := 0, addr := 0 } } }
  { s with twin := { s.twin with state := if role = 0 then 0 else 1 } }.setFlight 0 fun x => { x with
    breaks := brk, routed := brk, seg := !brk.isEmpty }
def tgOf (s : State) : List Nat := (routes 0 s).map fun r => expectedTg 0 r s
theorem test_route_arithmetic : tgOf (wired 0 []) = [2800] ∧ tgOf (wired 1 []) = [2860] ∧ tgOf (wired 1 [7]) = [2938] ∧
    tgOf (wired 1 [0]) = [2998] := by decide +kernel
theorem test_deliver_transit : ((routes 0 (wired 0 [])).map fun r => routeTransit (wired 0 []) 0 r) = [1849 * 16] := by
  decide +kernel

/-- Table of chapter 4, Example A: the new set lands at UMAX = 245 without a step. -/
def newSet : Coefs :=
  { kp := F32.ofRat (105 / 100), ki := F32.ofNat 198, kt := F32.ofNat 200, b := F32.ofRat (8 / 10), umax := F32.ofNat 245 }
def swapped : Slot := { ({} : Slot) with
  disc := false, i := 0x43390000, u := 0x43898000, w := 0x43750000
  act := newSet }
def swapIn : LoopIn :=
  { r := F32.ofNat 1250, y := F32.ofNat 950, ffSrc := none, injR := 0, injY := 0, injU := 0, injecting := 0, ts := F32.ofRat (2 / 100000) }
theorem test_bumpless : (loopCompute swapIn (.land (F32.ofNat 245)) false swapped).uSat = F32.ofNat 245 := by decide +kernel

/-- Chapter 5, Example A: IN_PHASE 0.46 + 5/21 and 0.58 + 4/20; Example B: m = 4 of x = 4.35, DAB_PHI nearest 0.12. -/
theorem test_phase : phaseCode (46 / 100 + 5 / 21) = 0xB2B65E99 ∧ phaseCode (58 / 100 + 4 / 20) = 0xC7AE147B := by decide +kernel
theorem test_level_count : levelCount 2 (435 / 100) [0, 1, 2, 3, 4, 5, 6] = 4 := by decide +kernel
theorem test_dab_phi : encode (-1) 1 (2 ^ 31) (2 ^ 31 - 1) (F32.ofRat (12 / 100)) = some 0x0F5C28F0 := by decide +kernel

/-- Chapter 6, Example B: seven rounds on the previous order give 3, 0, 1, 6, 2, 4, 5. -/
def keyB (k : Nat) : F32 :=
  F32.ofRat ([-3, -1, 4, -5, 5, 12, 0].getD k 0 / 1000)
theorem test_sort : sortRounds keyB (F32.ofRat (4 / 1000)) 7 [3, 0, 5, 1, 6, 2, 4] = [3, 0, 1, 6, 2, 4, 5] := by decide +kernel

/-- Chapter 6, Example B: a notch starts at 9 500 ns of a 10 µs period. -/
theorem test_notch : notchStart 10000 500 = 9500 := by decide

/-- Chapter 8, Example B: the result word before, at and after its completion. -/
theorem test_result_words :
    (readRes { value := 0x31FC, seq := 0x11, any := true, read := true, wait := true }).1 = 0x061131FC ∧
    (readRes { value := 0x3200, seq := 0x12, any := true }).1 = 0x01123200 ∧
    (readRes (readRes { value := 0x3200, seq := 0x12, any := true }).2).1 = 0x04123200 := by decide +kernel

/-! Small steps. -/

theorem test_front_first : step { on with pending := [.untrustedClear, .demand] } = exec .untrustedClear { on with pending := [.demand] } :=
  rfl

/-- A rate of 2.0 ns advances TB by 2 ns a tick (R55). -/
theorem test_idle_tick : (match step on with | .next t => t.now | _ => 1) = 2 := by decide +kernel

theorem test_nop : told (.nop []) on = some .ok ∧ told (.nop [0, 0]) on = some .badLength := by decide +kernel
theorem test_tc_set_late : told (.tcSet [0, 0, 0, 0, 0x80000000]) { on with tb := { on.tb with ns := 0xFF000000000#64 } } =
    some .late := by decide +kernel
theorem test_release_refused : told (.release []) on = some .state := by decide +kernel
theorem test_demand : (run .demand on).ssb = true ∧ (run .demand on).safe.cause.getLsbD 7 = true := by decide +kernel
theorem test_cell_bypass_bad_queue : told (.cellBypass 8 []) oneCell = some .badParam := by decide +kernel
theorem test_load_all_twice : told (.loadAll [0]) (run (.loadAll [0]) on) = some .state := by decide +kernel
theorem test_stage_release : told (.stageWrite 0 [0x40000]) oneCell = some .ok ∧
    (vget ((run (.stageWrite 0 [0x40000]) oneCell).cell 0).staged 2 {}).release = true := by decide +kernel
theorem test_domain_reset_atrium : told (.domainReset [1]) on = some .state := by decide +kernel
theorem test_vcore_range : told (.vcoreSet [33]) on = some .range := by decide +kernel
theorem test_nvm_store : told (.nvmStore []) on = some .accepted ∧ told (.nvmStore []) (run (.nvmStore []) on) = some .nvmBusy := by
  decide +kernel
theorem test_demote_alone : told (.demote []) active = some .state := by decide +kernel
theorem test_safe_param_locked : told (.safeParam [0x101, 0]) { on with safe := { on.safe with confirmed := true } } = some .locked := by
  decide +kernel
theorem test_supply : (run (.supplyFault .vin 9999) on).aon.vinUv = true ∧ ((run (.supplyFault .vin 9999) on).evt 206).pend = true := by
  decide +kernel
theorem test_shutdown_record_waits : let t := run (.dieShutdownCompare 1 (.val 4480)) released
    t.isOn .nvm = false ∧ t.aon.heldLog.map (·.event) = [192] ∧ t.nvm.jobs = [] ∧ t.therm.shut = true := by decide +kernel
theorem test_vin_record_waits : let t := run (.supplyFault .vin 9999) released
    t.nvm.busy = false ∧ t.nvm.jobs.length = 1 ∧ t.nvm.stop = true := by decide +kernel
theorem test_ldn_breaks : ((run (.ldnReceived 0 true) oneCell).flight 0).breaks = [1] ∧
    ((run (.ldnReceived 0 false) oneCell).flight 0).breaks = [0] := by decide +kernel
/-- DEMAND is bit 31 of SAFE_CTRL. -/
theorem test_safe_ctrl : (run (.cfgWrite [0x30110, 0x80000000]) released).safe.cause.getLsbD 7 = true ∧
    (run (.cfgWrite [0x30110, 1]) released).safe.cause.getLsbD 7 = false := by decide +kernel
/-- Table 16-4: TWIN_ROLE tied to V3P3, STAIR_POS0 and STAIR_POS2 high, ADDR1 high. -/
theorem test_straps : (run (.porRelease ⟨3300, #v[3300, 0, 3300, 0], #v[0, 3300]⟩) State.reset).aon.straps =
    { role := 1, pos := 5, addr := 2 } := by decide +kernel
/-- A share of a landing that has passed is not written (R377). -/
theorem test_share_late : let s := { follower with stair := { follower.stair with shareMask := 1, shares := [⟨1, [(0, 5)]⟩] } }
    (sharesIn s).stair.shareStale = true ∧ (sharesIn s).atr.ctx.pts = s.atr.ctx.pts := by decide +kernel
theorem test_gpio_reserved : (run (.gpioFuncChange 3 6) on).gpioFunc 3 = on.gpioFunc 3 := by decide +kernel
theorem test_domain_off : told (.tbRead []) (off [0, 1, 4, 5, 6]) ≠ some .ok := by decide +kernel

end Sys2Proof.Tests
end

section
/-! Proofs about the system opcodes NOP, RESYNC, IDENTIFY and STATUS (Table 15-2, R472): what each does while ATRIUM is ON. -/

namespace Sys2Proof.Machine

open Sys2Proof

variable {s : State}

/-- NOP takes no word or one, which it ignores. -/
theorem execNop_on {w : List Word} (hs : s.Runs) (hw : w.length ≤ 1) : execNop w s = .next (refuse .ok s) := by
  simp [execNop, nop, show s.isOn .atrium = true from hs, Nat.not_lt.mpr hw]

theorem execResync_on (q : Fin 64) (sn : Word) (hs : s.Runs) :
    execResync q sn s =
      .next (refuse .ok (s.setQueue q.val fun x => { x with expect := sn + 1, recent := [] })) := by
  simp [execResync, show s.isOn .atrium = true from hs]

theorem execIdentify_on (hs : s.Runs) : execIdentify [] s = .next (reply .ok (identityWords s) s) := by
  simp [execIdentify, identify, show s.isOn .atrium = true from hs]

theorem execStatus_on (hs : s.Runs) : execStatus [] s = .next (reply .ok (statusWords s) s) := by
  simp [execStatus, status, show s.isOn .atrium = true from hs]

end Sys2Proof.Machine

open Sys2Proof.Machine in
/-- Settles O7, opcode by opcode: what each one does while ATRIUM is ON gives its reply and leaves the rest. -/
theorem systemOpcodes : Obligations.SystemOpcodes := by
  unfold Obligations.SystemOpcodes
  intro s hs
  refine ⟨fun w hw => ?nop, fun q n => ?resync, ?identify, ?status⟩
  case nop => exact execNop_on hs hw
  case resync => exact execResync_on q n hs
  case identify => exact execIdentify_on hs
  case status => exact execStatus_on hs

end

section
/-! What keeps the banks' states: the operations that write AON write no bank but through `setUnit`. -/

namespace Sys2Proof.Machine

open Sys2Proof

@[simp] theorem each_banks {α : Type} (l : List α) (f : α → State → State) (s : State)
    (h : ∀ x s, (f x s).aon.bank = s.aon.bank) : (each l f s).aon.bank = s.aon.bank :=
  each_keep (fun s => s.aon.bank) l f s h

/-- AON holds an event that arises while ATRIUM is not ON; nothing else of AON changes (R484). -/
theorem raise_aon (e : Nat) (w : Word) (s : State) : (raise e w s).aon =
    if s.isOn .atrium = false ∧ evtHeld e = true then
      { s.aon with heldEvents := s.aon.heldEvents ++ [{ num := e, data := w }] } else s.aon := by
  unfold raise
  cases h : s.isOn .atrium
  · cases evtHeld e <;> simp
  · simp [apply_ite State.aon]

@[simp] theorem raise_banks (e : Nat) (w : Word) (s : State) : (raise e w s).aon.bank = s.aon.bank := by
  rw [raise_aon]
  split <;> rfl

@[simp] theorem raise_seq (e : Nat) (w : Word) (s : State) : (raise e w s).aon.seq = s.aon.seq := by
  rw [raise_aon]
  split <;> rfl

@[simp] theorem logRecord_banks (e : Nat) (kind : Byte) (key : BitVec 16) (data cause : Word) (s : State) :
    (logRecord e kind key data cause s).aon.bank = s.aon.bank := by
  unfold logRecord
  dsimp only
  (repeat' split) <;> simp

@[simp] theorem logRecord_seq (e : Nat) (kind : Byte) (key : BitVec 16) (data cause : Word) (s : State) :
    (logRecord e kind key data cause s).aon.seq = s.aon.seq := by
  unfold logRecord
  dsimp only
  (repeat' split) <;> simp

@[simp] theorem ssbEntry_banks (s : State) : (ssbEntry s).aon.bank = s.aon.bank := by simp [ssbEntry]

@[simp] theorem setCause_banks (i : Nat) (s : State) : (setCause i s).aon.bank = s.aon.bank := by
  unfold setCause
  dsimp only
  (repeat' split) <;> simp

@[simp] theorem answer_banks (p : Pkt) (r : Reply) (s : State) : (answer p r s).aon.bank = s.aon.bank := by
  unfold answer sendReply sendReplyAt
  dsimp only
  (repeat' split) <;> simp

@[simp] theorem finish_banks (p : Option Pkt) (r : Reply) (s : State) : (finish p r s).aon.bank = s.aon.bank := by
  cases p <;> simp [finish]

@[simp] theorem unconfirmed_banks (s : State) : (unconfirmed s).aon.bank = s.aon.bank := by
  unfold unconfirmed
  split <;> simp

@[simp] theorem crcFail_banks (s : State) : (crcFail s).aon.bank = s.aon.bank := by
  unfold crcFail
  dsimp only
  split <;> simp

@[simp] theorem safetyLoad_banks (s : State) : (safetyLoad s).aon.bank = s.aon.bank := by
  unfold safetyLoad
  dsimp only
  (repeat' split) <;> simp

@[simp] theorem failUnit_banks (u : Nat) (s : State) : (failUnit u s).aon.bank = s.aon.bank := by
  unfold failUnit
  dsimp only
  split <;> simp

@[simp] theorem takeUnitCal_banks (u : Nat) (g o : Rat) (s : State) : (takeUnitCal u g o s).aon.bank = s.aon.bank := by
  unfold takeUnitCal
  dsimp only
  (repeat' split) <;> simp

@[simp] theorem analogUp_banks (s : State) : (analogUp s).aon.bank = s.aon.bank := by
  simp [analogUp, calibrateUnits]

/-! Page programs and what waits for them. -/

@[simp] theorem calEnd_banks (st : Status) (s : State) : (calEnd st s).aon.bank = s.aon.bank := by simp [calEnd]

@[simp] theorem confirmDone_banks (p : Option Pkt) (w : Word) (s : State) : (confirmDone p w s).aon.bank = s.aon.bank := by
  unfold confirmDone
  split <;> simp

@[simp] theorem recordDone_banks (j : NvmJob) (ok : Bool) (s : State) : (recordDone j ok s).aon.bank = s.aon.bank := by
  unfold recordDone
  dsimp only
  (repeat' split) <;> simp

@[simp] theorem commitRecord_banks (j : NvmJob) (s : State) : (commitRecord j s).aon.bank = s.aon.bank := by
  simp [commitRecord]

@[simp] theorem takeSpare_banks (x : Nat) (s : State) : (takeSpare x s).aon.bank = s.aon.bank := by
  unfold takeSpare
  dsimp only
  split <;> simp

@[simp] theorem failRecord_banks (j : NvmJob) (s : State) : (failRecord j s).aon.bank = s.aon.bank := by
  unfold failRecord
  dsimp only
  split <;> simp

@[simp] theorem nvmLeave_banks (s : State) : (nvmLeave s).aon.bank = s.aon.bank := by simp [nvmLeave]

@[simp] theorem pageDone_banks (ok : Bool) (s : State) : (pageDone ok s).aon.bank = s.aon.bank := by
  unfold pageDone pageWritten pageFailed
  dsimp only
  (repeat' split) <;> simp

@[simp] theorem nvmWork_banks (s : State) : (nvmWork s).aon.bank = s.aon.bank := by
  unfold nvmWork
  dsimp only
  split <;> simp [apply_ite State.aon]

/-! Power sequences. -/

@[simp] theorem setSeq_banks (f : PowerSeq → PowerSeq) (s : State) : (setSeq f s).aon.bank = s.aon.bank := rfl

@[simp] theorem changed_banks (c : Nat) (rst : Bool) (s : State) : (changed c rst s).aon.bank = s.aon.bank := by
  simp [changed]

@[simp] theorem aonIdle_banks (s : State) : (aonIdle s).aon.bank = s.aon.bank := rfl

@[simp] theorem stairDown_banks (s : State) : (stairDown s).aon.bank = s.aon.bank := by
  unfold stairDown
  dsimp only
  split <;> simp

/-- What a domain loses as it leaves ON is none of the banks. -/
@[simp] theorem shed_banks (d : Nat) (keep : Bool) (s : State) : (shed d keep s).aon.bank = s.aon.bank := by
  unfold shed
  dsimp only
  split <;> cases keep <;> simp [shedAtrium]

theorem setUnit_banks_dom {c : Nat} (x : DomState) (s : State) (h : c < 16) :
    (setUnit c x s).aon.bank = s.aon.bank := by simp [setUnit, h]

@[simp] theorem takeRetCrc_banks (c : Nat) (s : State) : (takeRetCrc c s).aon.bank = s.aon.bank := by
  unfold takeRetCrc
  dsimp only
  split <;> simp

@[simp] theorem arrivalWork_banks (d : Nat) (s : State) : (arrivalWork d s).aon.bank = s.aon.bank := by
  unfold arrivalWork
  (repeat' split) <;> simp

@[simp] theorem seqReply_banks (q : PowerSeq) (s : State) : (seqReply q s).aon.bank = s.aon.bank := by
  unfold seqReply
  split <;> simp

end Sys2Proof.Machine
end

section
/-! The Gallery as banks leave ON: a byte reads as before, or 0 in a bank that is not ON. -/

namespace Sys2Proof.Machine

open Sys2Proof

/-- A byte made 0 by a clear lies between its bounds; every other one reads as before. -/
theorem memRead_memClear (m : List Host.Cell) (a b j : Nat) :
    memRead (memClear m a b) j = if a ≤ j ∧ j < b then 0 else memRead m j := by
  induction m with
  | nil => simp [memClear, memRead]
  | cons c r ih =>
    obtain ⟨k, v⟩ := c
    by_cases hk : a ≤ k ∧ k < b
    · have hc : memClear ((k, v) :: r) a b = memClear r a b := List.filter_cons_of_neg (by simp [hk])
      rw [hc, ih]
      split
      · rfl
      · next hj =>
        have : k ≠ j := fun h => hj (h ▸ hk)
        simp [memRead, this]
    · have hc : memClear ((k, v) :: r) a b = (k, v) :: memClear r a b :=
        List.filter_cons_of_pos (by simpa [imp_iff_not_or] using hk)
      rw [hc]
      by_cases hj : k = j
      · subst hj
        simp [memRead, hk]
      · simp [memRead, hj, ih]

/-- Memory `m'` has the canonical form where `m` has it, and each byte of it reads as in `m`, or reads 0 in a bank of `P`. -/
def LosesIn (P : Nat → Prop) (m m' : List Host.Cell) : Prop :=
  (Memory.wf m → Memory.wf m') ∧ ∀ a, memRead m' a = memRead m a ∨ memRead m' a = 0 ∧ P (bankAt a)

theorem LosesIn.refl (P : Nat → Prop) (m : List Host.Cell) : LosesIn P m m := ⟨id, fun _ => .inl rfl⟩

theorem LosesIn.mono {P Q : Nat → Prop} {m m' : List Host.Cell} (h : LosesIn P m m') (hPQ : ∀ g, P g → Q g) :
    LosesIn Q m m' :=
  ⟨h.1, fun a => (h.2 a).imp id fun ⟨h0, hP⟩ => ⟨h0, hPQ _ hP⟩⟩

theorem LosesIn.trans {P : Nat → Prop} {m m' m'' : List Host.Cell} (h : LosesIn P m m') (h' : LosesIn P m' m'') :
    LosesIn P m m'' := by
  refine ⟨fun hm => h'.1 (h.1 hm), fun a => ?_⟩
  rcases h'.2 a with h1 | h1
  · rw [h1]; exact h.2 a
  · exact .inr h1

/-- Clearing a bank loses bytes in that bank alone. -/
theorem losesIn_memClear (m : List Host.Cell) (g : Nat) :
    LosesIn (· = g) m (memClear m (bankBase g) (bankBase (g + 1))) := by
  refine ⟨memClear_wf m _ _, fun a => ?_⟩
  rw [memRead_memClear]
  split
  · next h =>
    refine .inr ⟨rfl, ?_⟩
    simp only [bankBase, bankAt] at h ⊢
    omega
  · exact .inl rfl

/-- No bank comes ON from `s` to `t`, and the Gallery loses bytes in banks that are not ON in `t` alone. -/
structure Sheds (s t : State) : Prop where
  mem : LosesIn (fun g => t.bankSt g ≠ .on) s.mem t.mem
  banks : ∀ g, t.bankSt g = .on → s.bankSt g = .on

namespace Sheds

variable {s t u : State}

theorem trans (h : Sheds s t) (h' : Sheds t u) : Sheds s u where
  mem := (h.mem.mono fun g hg hu => hg (h'.banks g hu)).trans h'.mem
  banks g hg := h.banks g (h'.banks g hg)

/-- `trans` with its steps named last to first. -/
theorem after (h' : Sheds t u) (h : Sheds s t) : Sheds s u := h.trans h'

/-- An operation that writes no byte and takes no bank to ON. -/
theorem of_mem (hm : t.mem = s.mem) (hb : ∀ g, t.bankSt g = .on → s.bankSt g = .on) : Sheds s t where
  mem := hm ▸ LosesIn.refl _ _
  banks := hb

/-- An operation that writes neither the Gallery nor the banks' states. -/
theorem of_same (hm : t.mem = s.mem) (hb : t.aon.bank = s.aon.bank) : Sheds s t :=
  of_mem hm fun g hg => by simpa [State.bankSt, hb] using hg

theorem refl (s : State) : Sheds s s := of_same rfl rfl

theorem each {α : Type} (l : List α) (f : α → State → State) (s : State) (h : ∀ x s, Sheds s (f x s)) :
    Sheds s (each l f s) := by
  unfold Machine.each
  induction l generalizing s with
  | nil => exact refl s
  | cons x r ih => exact (h x s).trans (ih (f x s))

end Sheds

/-! A unit that changes its state. -/

/-- A unit taken to a state other than ON leaves every bank that is ON in that state. -/
theorem setUnit_bankSt_on {c g : Nat} {x : DomState} {s : State} (hx : x ≠ .on) (h : (setUnit c x s).bankSt g = .on) :
    s.bankSt g = .on ∧ (16 ≤ c → c - 16 ≠ g) := by
  by_cases hc : c < 16
  · simp only [State.bankSt, setUnit_banks_dom x s hc] at h
    exact ⟨h, fun h' => absurd hc (by omega)⟩
  · have hb : (setUnit c x s).aon.bank = vset s.aon.bank (c - 16) x := by simp [setUnit, hc]
    rw [State.bankSt, hb] at h
    by_cases hg : c - 16 = g
    · subst hg
      by_cases hr : c - 16 < 16
      · rw [vget_vset_same _ _ _ _ hr] at h
        exact absurd h hx
      · simp [vget, hr] at h
    · rw [vget_vset_ne _ _ _ _ _ hg] at h
      exact ⟨h, fun _ => hg⟩

theorem setUnit_sheds {c : Nat} {x : DomState} {s : State} (hx : x ≠ .on) : Sheds s (setUnit c x s) :=
  .of_mem (by simp) fun _ h => (setUnit_bankSt_on hx h).1

theorem shedBank_mem (g : Nat) (keep : Bool) (s : State) :
    (shedBank g keep s).mem = if keep then s.mem else memClear s.mem (bankBase g) (bankBase (g + 1)) := by
  unfold shedBank
  dsimp only
  (repeat' split) <;> simp

theorem shed_sheds (d : Nat) (keep : Bool) (s : State) : Sheds s (shed d keep s) := .of_same (by simp) (by simp)

/-- A unit leaves ON, or a transition to it, with what it loses. -/
theorem unitLeaves_sheds {c : Nat} {x : DomState} {keep : Bool} {s : State} (hx : x ≠ .on) :
    Sheds s (setUnit c x (if c < 16 then shed c keep s else shedBank (c - 16) keep s)) := by
  split
  · exact (shed_sheds c keep s).trans (setUnit_sheds hx)
  · next hc =>
    have hb : ∀ g, (setUnit c x (shedBank (c - 16) keep s)).bankSt g = .on → s.bankSt g = .on ∧ c - 16 ≠ g := fun g h => by
      obtain ⟨h1, h2⟩ := setUnit_bankSt_on hx h
      exact ⟨by simpa [State.bankSt] using h1, h2 (by omega)⟩
    refine ⟨?_, fun g hg => (hb g hg).1⟩
    have hm : (setUnit c x (shedBank (c - 16) keep s)).mem =
        if keep then s.mem else memClear s.mem (bankBase (c - 16)) (bankBase (c - 16 + 1)) := by
      simp only [setUnit_frame, shedBank_mem]
    rw [hm]
    cases keep
    · exact (losesIn_memClear s.mem (c - 16)).mono fun g hg h => (hb g h).2 hg.symm
    · exact LosesIn.refl _ _

theorem changed_sheds (c : Nat) (rst : Bool) (s : State) : Sheds s (changed c rst s) := .of_same (by simp) (by simp)

theorem leaveUnit_sheds (c : Nat) (ret : Bool) (s : State) : Sheds s (leaveUnit c ret s).2 := by
  unfold leaveUnit
  cases ret
  · exact (unitLeaves_sheds (by decide)).trans (changed_sheds _ _ _)
  · exact unitLeaves_sheds (by decide)

/-! Units that come ON only begin to, here: their banks are in transition. -/

theorem setSeq_sheds (f : PowerSeq → PowerSeq) (s : State) : Sheds s (setSeq f s) := .of_same (by simp) (by simp)

theorem takeUnit'_sheds (c : Nat) (s : State) : Sheds s (takeUnit' c s) :=
  (setSeq_sheds _ _).after (setUnit_sheds (by decide))

theorem closeBanks_sheds (s : State) : Sheds s (closeBanks s) := by
  unfold closeBanks
  split
  · exact .refl s
  · exact .each _ _ _ takeUnit'_sheds

theorem beginStep_sheds (s : State) : Sheds s (beginStep s) := by
  unfold beginStep
  split
  · exact .refl s
  · split
    · exact .refl s
    · next c _ _ =>
      have hc : Sheds s (if c = 4 ∨ c = 0 then closeBanks s else s) := by
        split
        · exact closeBanks_sheds s
        · exact .refl s
      refine Sheds.after ?_ hc
      generalize (if c = 4 ∨ c = 0 then closeBanks s else s) = u
      dsimp only
      split
      · split
        · exact .refl u
        · exact takeUnit'_sheds _ u
      · exact .refl u

theorem wakeRun_sheds (s : State) : Sheds s (wakeRun s) := by
  unfold wakeRun
  dsimp only
  split
  · exact .of_same rfl rfl
  · exact (beginStep_sheds _).after (.of_same (by simp) (by simp))

theorem startWake_sheds (s : State) : Sheds s (startWake s) := by
  unfold startWake
  split
  · exact .refl s
  · split
    · split
      · exact .refl s
      · exact .of_same rfl rfl
    · exact wakeRun_sheds s

theorem wakeNext_sheds (s : State) : Sheds s (wakeNext s) := by
  unfold wakeNext
  split
  · exact startWake_sheds s
  · exact .refl s

theorem seqEnd_sheds (s : State) : Sheds s (seqEnd s) := by
  unfold seqEnd
  split
  · exact .refl s
  · exact (wakeNext_sheds _).after (.of_same (by simp) (by simp))

theorem bringUp_sheds (s : State) : Sheds s (bringUp s) := by
  unfold bringUp
  split
  · exact .refl s
  · dsimp only
    split
    · exact seqEnd_sheds s
    · exact (beginStep_sheds _).after (setSeq_sheds _ s)

/-! What POWER_SET, the resets and the failures of a sequence take out of ON. -/

theorem leaveAll_sheds (l : List (Nat × Bool)) (s : State) : Sheds s (leaveAll l s) := by
  induction l generalizing s with
  | nil => exact (bringUp_sheds _).after (setSeq_sheds _ s)
  | cons x rest ih =>
    have hx := leaveUnit_sheds x.1 x.2 s
    rw [leaveAll]
    split
    · exact hx.trans (setSeq_sheds _ _)
    · exact hx.trans (ih _)

@[simp] theorem nvmQuiesce_banks (s : State) : (nvmQuiesce s).aon.bank = s.aon.bank := by
  unfold nvmQuiesce
  dsimp only
  split <;> simp

theorem leaveBegin_sheds (q : PowerSeq) (s : State) : Sheds s (leaveBegin q s) := by
  unfold leaveBegin
  dsimp only
  refine (leaveAll_sheds _ _).after ?_
  split
  · exact .of_same (by simp) (by simp)
  · exact setSeq_sheds _ s

theorem journalled_sheds (s : State) : Sheds s (journalled s) := by
  unfold journalled
  split
  · exact .refl s
  · split
    · exact .refl s
    · dsimp only
      split
      · exact (leaveBegin_sheds _ _).after (.of_same (by simp) (by simp))
      · exact .of_same (by simp) (by simp)

theorem lastTrainGone_sheds (s : State) : Sheds s (lastTrainGone s) := by
  unfold lastTrainGone
  split
  · split
    · exact leaveBegin_sheds _ s
    · exact .refl s
  · exact .refl s

theorem powerSet_sheds (w : List Word) (s : State) : Sheds s (powerSet w s) := by
  unfold powerSet
  split
  · exact .refl s
  · split
    · exact .of_same rfl rfl
    · split
      · exact .of_same rfl rfl
      · split
        · exact .of_same rfl rfl
        · unfold powerBegin
          dsimp only
          split
          · refine (bringUp_sheds _).after (.of_same ?_ ?_) <;> split <;> simp
          · refine (journalled_sheds _).after (.of_same ?_ ?_) <;> split <;> simp

theorem allOff_sheds (s : State) : Sheds s (allOff s) := by
  have off : ∀ (c : Nat) (s : State), Sheds s (if s.unitSt c == .on then (leaveUnit c false s).2 else s) := fun c s => by
    split
    · exact leaveUnit_sheds c false s
    · exact .refl s
  exact (Sheds.each _ _ _ off).trans (.each _ _ _ off)

theorem takeRetCrc_sheds (c : Nat) (s : State) : Sheds s (takeRetCrc c s) := .of_same (by simp) (by simp)

theorem giveBack_sheds (took : List (Nat × Bool)) (s : State) : Sheds s (giveBack took s) := by
  refine .each _ _ _ fun x s => ?_
  split
  · exact (takeRetCrc_sheds _ _).after (setUnit_sheds (by decide))
  · exact unitLeaves_sheds (by decide)

theorem failShared_sheds (s : State) : Sheds s (failShared s) := by
  unfold failShared
  split
  · exact .refl s
  · next q _ =>
    dsimp only
    refine Sheds.trans (t := if (q.kind != .wake && q.kind != .set) = true then setUnit 0 .off (shed 0 false (allOff s))
      else giveBack q.took s) ?_ ?_
    · split
      · exact (allOff_sheds s).trans ((shed_sheds _ _ _).trans (setUnit_sheds (by decide)))
      · exact giveBack_sheds _ s
    · refine (wakeNext_sheds _).after (.of_same ?_ ?_) <;> split <;> simp

theorem resetAll_sheds (s : State) : Sheds s (resetAll s) := by
  have off : ∀ (c : Nat) (s : State), Sheds s (if s.unitSt c = .on ∨ s.unitSt c = .trans then
      setUnit c .off (if c < 16 then shed c false s else shedBank (c - 16) false s) else s) := fun c s => by
    split
    · exact unitLeaves_sheds (by decide)
    · exact .refl s
  have hjobs : Sheds s (dropAnswers s) := .of_same rfl rfl
  have hdom := hjobs.trans (.each (1 :: [9, 8, 7, 6, 5, 4, 3, 2, 0]) _ _ off)
  have hall := hdom.trans (.each ((List.range 16).map (16 + ·)) _ _ off)
  refine hall.trans (.of_same ?_ ?_) <;> simp only [resetAll, aonIdle_frame, setAon_frame, aonIdle_banks, setAon_aon]

theorem dropRet_sheds (s : State) : Sheds s (dropRet s) := by
  unfold dropRet
  split
  · exact .refl s
  · split
    · exact .refl s
    · refine (leaveAll_sheds _ _).after ((setSeq_sheds _ _).after (.each _ _ _ fun c s => ?_))
      exact (unitLeaves_sheds (by decide)).trans (changed_sheds _ _ _)

end Sys2Proof.Machine
end

section
/-! Which commands write the Gallery. -/

namespace Sys2Proof.Machine

open Sys2Proof

/-- A command that `mayStore` does not name leaves the Gallery's bytes alone: the frame of its meaning says so. -/
theorem exec_mem {c : Instr} {s t : State} (hc : mayStore c = false) (hx : exec c s = .next t) : t.mem = s.mem := by
  cases c with
  | nop _ => simp only [execNop_frame _ s t hx]
  | resync _ _ => simp only [execResync_frame _ _ s t hx]
  | identify _ => simp only [execIdentify_frame _ s t hx]
  | status _ => simp only [execStatus_frame _ s t hx]
  | powerGet _ => simp only [execPowerGet_frame _ s t hx]
  | vcoreSet _ => simp only [execVcoreSet_frame _ s t hx]
  | domainReset _ => simp only [execDomainReset_frame _ s t hx]
  | eventRoute _ => simp only [execEventRoute_frame _ s t hx]
  | eventRead _ => simp only [execEventRead_frame _ s t hx]
  | cfgWrite _ => simp only [execCfgWrite_frame _ s t hx]
  | cfgRead _ => simp only [execCfgRead_frame _ s t hx]
  | cfgCommit _ => simp only [execCfgCommit_frame _ s t hx]
  | cfgCommitCheck _ => simp only [execCfgCommitCheck_frame _ s t hx]
  | cfgCommitDiscard _ => simp only [execCfgCommitDiscard_frame _ s t hx]
  | signalRead _ => simp only [execSignalRead_frame _ s t hx]
  | signalWrite _ => simp only [execSignalWrite_frame _ s t hx]
  | loopSet _ _ => simp only [execLoopSet_frame _ _ s t hx]
  | loopCoef _ _ => simp only [execLoopCoef_frame _ _ s t hx]
  | loopEnable _ _ => simp only [execLoopEnable_frame _ _ s t hx]
  | groupSet _ _ => simp only [execGroupSet_frame _ _ s t hx]
  | inject _ => simp only [execInject_frame _ s t hx]
  | capture _ => simp only [execCapture_frame _ s t hx]
  | captureRead _ => simp only [execCaptureRead_frame _ s t hx]
  | stageWrite _ _ => simp only [execStageWrite_frame _ _ s t hx]
  | loadAll _ => simp only [execLoadAll_frame _ s t hx]
  | safeSet _ => simp only [execSafeSet_frame _ s t hx]
  | safeRequest _ => simp only [execSafeRequest_frame _ s t hx]
  | hallMode _ => simp only [execHallMode_frame _ s t hx]
  | cellBypass _ _ => simp only [execCellBypass_frame _ _ s t hx]
  | cellRestore _ _ => simp only [execCellRestore_frame _ _ s t hx]
  | ctConfig _ _ => simp only [execCtConfig_frame _ _ s t hx]
  | ctConfigRead _ _ => simp only [execCtConfigRead_frame _ _ s t hx]
  | clrPerm _ _ => simp only [execClrPerm_frame _ _ s t hx]
  | ctStatus _ _ => simp only [execCtStatus_frame _ _ s t hx]
  | wearRead _ => simp only [execWearRead_frame _ s t hx]
  | wearParam _ => simp only [execWearParam_frame _ s t hx]
  | wearParamReset _ => simp only [execWearParamReset_frame _ s t hx]
  | adcSeq _ => simp only [execAdcSeq_frame _ s t hx]
  | adcRead _ => simp only [execAdcRead_frame _ s t hx]
  | calZero _ => simp only [execCalZero_frame _ s t hx]
  | calFull _ => simp only [execCalFull_frame _ s t hx]
  | calPriv _ => simp only [execCalPriv_frame _ s t hx]
  | testDac _ => simp only [execTestDac_frame _ s t hx]
  | testDacGain _ => simp only [execTestDacGain_frame _ s t hx]
  | testDacOpen _ => simp only [execTestDacOpen_frame _ s t hx]
  | testDacOut _ => simp only [execTestDacOut_frame _ s t hx]
  | tbRead _ => simp only [execTbRead_frame _ s t hx]
  | tbIncr _ => simp only [execTbIncr_frame _ s t hx]
  | tbAdj _ => simp only [execTbAdj_frame _ s t hx]
  | tcSet _ => simp only [execTcSet_frame _ s t hx]
  | pllSet _ => simp only [execPllSet_frame _ s t hx]
  | pllCommit _ => simp only [execPllCommit_frame _ s t hx]
  | safeParam _ => simp only [execSafeParam_frame _ s t hx]
  | safeCrcRead _ => simp only [execSafeCrcRead_frame _ s t hx]
  | safeConfirm _ => simp only [execSafeConfirm_frame _ s t hx]
  | safeConfirmWithdraw _ => simp only [execSafeConfirmWithdraw_frame _ s t hx]
  | release _ => simp only [execRelease_frame _ s t hx]
  | safeStatus _ => simp only [execSafeStatus_frame _ s t hx]
  | nvmStore _ => simp only [execNvmStore_frame _ s t hx]
  | nvmLoad _ => simp only [execNvmLoad_frame _ s t hx]
  | logRead _ => simp only [execLogRead_frame _ s t hx]
  | nvmStatus _ => simp only [execNvmStatus_frame _ s t hx]
  | streamSet _ => simp only [execStreamSet_frame _ s t hx]
  | streamEnable _ => simp only [execStreamEnable_frame _ s t hx]
  | twinStatus _ => simp only [execTwinStatus_frame _ s t hx]
  | demote _ => simp only [execDemote_frame _ s t hx]
  | rejoin _ => simp only [execRejoin_frame _ s t hx]
  | stairStatus _ => simp only [execStairStatus_frame _ s t hx]
  | tbTimeLatch => simp only [execTbTimeLatch_frame s t hx]
  | tbSyncStampLatch => simp only [execTbSyncStampLatch_frame s t hx]
  | unwrap _ => simp only [execUnwrap_frame _ s t hx]
  | fltSurveyGo _ _ => simp only [execFltSurveyGo_frame _ _ s t hx]
  | surveyDone _ _ => simp only [execSurveyDone_frame _ _ s t hx]
  | demand => simp only [execDemand_frame s t hx]
  | force => simp only [execForce_frame s t hx]
  | promote => simp only [execPromote_frame s t hx]
  | followerRestore => simp only [execFollowerRestore_frame s t hx]
  | wakeGo => simp only [execWakeGo_frame s t hx]
  | evtPendClear _ _ => simp only [execEvtPendClear_frame _ _ s t hx]
  | untrustedClear => simp only [execUntrustedClear_frame s t hx]
  | ptpTxGo _ => simp only [execPtpTxGo_frame _ s t hx]
  | ptpTxDone _ => simp only [execPtpTxDone_frame _ s t hx]
  | sensorFailClear _ => simp only [execSensorFailClear_frame _ s t hx]
  | sensorPinClear _ => simp only [execSensorPinClear_frame _ s t hx]
  | gpioFuncChange _ _ => simp only [execGpioFuncChange_frame _ _ s t hx]
  | mgmtRegisterWrite _ _ => simp only [execMgmtRegisterWrite_frame _ _ s t hx]
  | mgmtAddressMatch _ => simp only [execMgmtAddressMatch_frame _ s t hx]
  | commandPacket _ _ _ => simp only [execCommandPacket_frame _ _ _ s t hx]
  | rsRead _ => simp only [execRsRead_frame _ s t hx]
  | statRead => simp only [execStatRead_frame s t hx]
  | spiCodeIgnored _ => simp only [execSpiCodeIgnored_frame _ s t hx]
  | arpRequest _ _ => simp only [execArpRequest_frame _ _ s t hx]
  | ptpFrameRx _ _ _ _ _ _ => simp only [execPtpFrameRx_frame _ _ _ _ _ _ s t hx]
  | ethFrameDiscard => simp only [execEthFrameDiscard_frame s t hx]
  | packetExecuteTime _ => simp only [execPacketExecuteTime_frame _ s t hx]
  | gatherDeparture => simp only [execGatherDeparture_frame s t hx]
  | gatherReturn _ _ _ _ => simp only [execGatherReturn_frame _ _ _ _ s t hx]
  | gatherLost _ _ => simp only [execGatherLost_frame _ _ s t hx]
  | atriumLoopStart => simp only [execAtriumLoopStart_frame s t hx]
  | hallSort _ _ => simp only [execHallSort_frame _ _ s t hx]
  | stageMapping _ => simp only [execStageMapping_frame _ s t hx]
  | atriumDeadline => simp only [execAtriumDeadline_frame s t hx]
  | commitPoint => simp only [execCommitPoint_frame s t hx]
  | keepAliveDeparture => simp only [execKeepAliveDeparture_frame s t hx]
  | landing => simp only [execLanding_frame s t hx]
  | sampleInstant => simp only [execSampleInstant_frame s t hx]
  | almReceived f west a1 a2 a3 => simp only [execAlmReceived_frame f west a1 a2 a3 s t hx]
  | ldnReceived _ _ => simp only [execLdnReceived_frame _ _ s t hx]
  | prbArrival _ _ => simp only [execPrbArrival_frame _ _ s t hx]
  | compareFire _ => simp only [execCompareFire_frame _ s t hx]
  | gpioPulseEnd _ => simp only [execGpioPulseEnd_frame _ s t hx]
  | syncOutPulse => simp only [execSyncOutPulse_frame s t hx]
  | syncOutPulseEnd => simp only [execSyncOutPulseEnd_frame s t hx]
  | syncInEdge _ _ => simp only [execSyncInEdge_frame _ _ s t hx]
  | refLoss => simp only [execRefLoss_frame s t hx]
  | plltUnlock => simp only [execPlltUnlock_frame s t hx]
  | plllUnlock => simp only [execPlllUnlock_frame s t hx]
  | pllRelock _ => simp only [execPllRelock_frame _ s t hx]
  | tbUntrusted => simp only [execTbUntrusted_frame s t hx]
  | grossFrequencyError _ _ => simp only [execGrossFrequencyError_frame _ _ s t hx]
  | dispatchTimeout => simp only [execDispatchTimeout_frame s t hx]
  | corridorGrantTimeout => simp only [execCorridorGrantTimeout_frame s t hx]
  | laneSelfTestDone _ _ => simp only [execLaneSelfTestDone_frame _ _ s t hx]
  | spareSelfTest _ _ => simp only [execSpareSelfTest_frame _ _ s t hx]
  | injectDone _ => simp only [execInjectDone_frame _ s t hx]
  | captureDone => simp only [execCaptureDone_frame s t hx]
  | restoreTimeout _ => simp only [execRestoreTimeout_frame _ s t hx]
  | retryTimeout _ => simp only [execRetryTimeout_frame _ s t hx]
  | derateTimeout _ => simp only [execDerateTimeout_frame _ s t hx]
  | junctionUpdate _ => simp only [execJunctionUpdate_frame _ s t hx]
  | wearJournalRound => simp only [execWearJournalRound_frame s t hx]
  | calRoundStart => simp only [execCalRoundStart_frame s t hx]
  | selfCalDone _ _ => simp only [execSelfCalDone_frame _ _ s t hx]
  | overlapDone _ => simp only [execOverlapDone_frame _ s t hx]
  | overlapTimeout => simp only [execOverlapTimeout_frame s t hx]
  | carrierTrigger _ _ => simp only [execCarrierTrigger_frame _ _ s t hx]
  | gpioTriggerEdge _ => simp only [execGpioTriggerEdge_frame _ s t hx]
  | adcConversionDone _ _ _ => simp only [execAdcConversionDone_frame _ _ _ s t hx]
  | sliceRequestDrop _ _ => simp only [execSliceRequestDrop_frame _ _ s t hx]
  | dsdFilterOutput _ _ => simp only [execDsdFilterOutput_frame _ _ s t hx]
  | calAverageDone => simp only [execCalAverageDone_frame s t hx]
  | calTimeout => simp only [execCalTimeout_frame s t hx]
  | testDacCheckDone _ => simp only [execTestDacCheckDone_frame _ s t hx]
  | testDacStall => simp only [execTestDacStall_frame s t hx]
  | hbtReceived _ _ _ => simp only [execHbtReceived_frame _ _ _ s t hx]
  | hbInEdge => simp only [execHbInEdge_frame s t hx]
  | hb1Lost => simp only [execHb1Lost_frame s t hx]
  | hb2Lost => simp only [execHb2Lost_frame s t hx]
  | twinLinkChange _ => simp only [execTwinLinkChange_frame _ s t hx]
  | demReceived => simp only [execDemReceived_frame s t hx]
  | decisionWord _ => simp only [execDecisionWord_frame _ s t hx]
  | commitWord _ _ => simp only [execCommitWord_frame _ _ s t hx]
  | measurementWord _ => simp only [execMeasurementWord_frame _ s t hx]
  | forwardedCommand _ _ _ _ _ => simp only [execForwardedCommand_frame _ _ _ _ _ s t hx]
  | twinTimeMessage _ => simp only [execTwinTimeMessage_frame _ s t hx]
  | stateTransferUnit _ => simp only [execStateTransferUnit_frame _ s t hx]
  | rejoinTimeout => simp only [execRejoinTimeout_frame s t hx]
  | releasableReport _ => simp only [execReleasableReport_frame _ s t hx]
  | partnerTrainReceived _ _ _ => simp only [execPartnerTrainReceived_frame _ _ _ s t hx]
  | activeTrainObserved _ _ => simp only [execActiveTrainObserved_frame _ _ s t hx]
  | plannedTakeover => simp only [execPlannedTakeover_frame s t hx]
  | beacon _ => simp only [execBeacon_frame _ s t hx]
  | beaconSend => simp only [execBeaconSend_frame s t hx]
  | announce _ _ => simp only [execAnnounce_frame _ _ s t hx]
  | annAck _ _ _ => simp only [execAnnAck_frame _ _ _ s t hx]
  | announceTimeout => simp only [execAnnounceTimeout_frame s t hx]
  | timeReqSend => simp only [execTimeReqSend_frame s t hx]
  | timeReq _ => simp only [execTimeReq_frame _ s t hx]
  | timeResp _ _ _ => simp only [execTimeResp_frame _ _ _ s t hx]
  | share _ => simp only [execShare_frame _ s t hx]
  | statusSend => simp only [execStatusSend_frame s t hx]
  | stairStatusFrame _ _ _ => simp only [execStairStatusFrame_frame _ _ _ s t hx]
  | sigReq _ _ => simp only [execSigReq_frame _ _ s t hx]
  | sigResp _ _ => simp only [execSigResp_frame _ _ s t hx]
  | sigRespTimeout => simp only [execSigRespTimeout_frame s t hx]
  | telem _ _ _ => simp only [execTelem_frame _ _ _ s t hx]
  | stairPortChange _ _ => simp only [execStairPortChange_frame _ _ s t hx]
  | newelLost => simp only [execNewelLost_frame s t hx]
  | holdExp => simp only [execHoldExp_frame s t hx]
  | streamFrame _ => simp only [execStreamFrame_frame _ s t hx]
  | sinDemand j b => simp only [execSinDemand_frame j b s t hx]
  | sinDisc _ => simp only [execSinDisc_frame _ s t hx]
  | tpoPulse _ => simp only [execTpoPulse_frame _ s t hx]
  | testWindowEnd _ => simp only [execTestWindowEnd_frame _ s t hx]
  | fbReadbackFault => simp only [execFbReadbackFault_frame s t hx]
  | fbTExpiry => simp only [execFbTExpiry_frame s t hx]
  | checkValueRecompute => simp only [execCheckValueRecompute_frame s t hx]
  | hkRound _ _ _ => simp only [execHkRound_frame _ _ _ s t hx]
  | hkLate => simp only [execHkLate_frame s t hx]
  | supplyFaultClear _ _ => simp only [execSupplyFaultClear_frame _ _ s t hx]
  | debugHalt => simp only [execDebugHalt_frame s t hx]
  | haltRelease => simp only [execHaltRelease_frame s t hx]
  | porRelease _ => simp only [execPorRelease_frame _ s t hx]
  | resetnRelease _ _ => simp only [execResetnRelease_frame _ _ s t hx]
  | vcoreSettled _ => simp only [execVcoreSettled_frame _ s t hx]
  | phyLinkPoll _ => simp only [execPhyLinkPoll_frame _ s t hx]
  | phyResetRelease => simp only [execPhyResetRelease_frame s t hx]
  | nvmEraseDone _ => simp only [execNvmEraseDone_frame _ s t hx]
  | hbtSend => simp only [execHbtSend_frame s t hx]
  | tpoPulseEnd _ => simp only [execTpoPulseEnd_frame _ s t hx]
  | safetyInputSample _ _ _ => simp only [execSafetyInputSample_frame _ _ _ s t hx]
  | referenceReturn => simp only [execReferenceReturn_frame s t hx]
  | ringPortReceiverChange _ _ _ => simp only [execRingPortReceiverChange_frame _ _ _ s t hx]
  | segmentFrames _ _ => simp only [execSegmentFrames_frame _ _ s t hx]
  | rcOscillatorRuns => simp only [execRcOscillatorRuns_frame s t hx]
  | stairMapPresenceLapse _ => simp only [execStairMapPresenceLapse_frame _ s t hx]
  | powerSet _ | mailboxPacket _ | queueDispatch | deliverDeparture _ _ | galleryScrub _ _ _ | pairApplyInstant
  | dieShutdownCompare _ _ | supplyFault _ _ | powerOnReset | resetnAssert | wakeStepDone _ _ | wakeStepFail | retEntryDone _
  | nvmProgramDone _ => exact Bool.noConfusion hc

end Sys2Proof.Machine
end

section
/-! What the commands that take banks out of ON do to the Gallery. -/

namespace Sys2Proof.Machine

open Sys2Proof

/-- The Gallery loses bytes in banks that are not ON in `t` alone. -/
def Loses (s t : State) : Prop := LosesIn (fun g => t.bankSt g ≠ .on) s.mem t.mem

namespace Loses

variable {s t u : State}

theorem of_mem (h : t.mem = s.mem) : Loses s t := by
  rw [Loses, h]
  exact LosesIn.refl _ _

theorem of_sheds (h : Sheds s t) : Loses s t := h.mem

/-- What follows writes neither the Gallery nor the banks' states. -/
theorem congr_right (h : Loses s t) (hm : u.mem = t.mem) (hb : u.aon.bank = t.aon.bank) : Loses s u := by
  simpa only [Loses, hm, State.bankSt, hb] using h

/-- What goes before does not write the Gallery. -/
theorem congr_left (h : Loses t u) (hm : t.mem = s.mem) : Loses s u := by simpa only [Loses, hm] using h

end Loses

/-! Packets in hand: of the opcodes, POWER_SET alone takes banks out of ON. -/

theorem execPowerSet_loses {w : List Word} {s t : State} (h : execPowerSet w s = .next t) : Loses s t := by
  unfold execPowerSet at h
  cases h
  dsimp only
  split
  · exact .of_mem rfl
  · exact .of_sheds (powerSet_sheds w s)

theorem after_loses {r : Res} {s : State} (h : ∀ t, r = .next t → Loses s t) : Loses s (after r s) := by
  cases r with
  | next t => exact h t rfl
  | fault _ => exact .of_mem rfl
  | refused _ => exact .of_mem rfl

theorem runSystem_loses {n : Nat} {w : List Word} {s t : State} (h : runSystem n w s = .next t) : Loses s t := by
  unfold runSystem at h
  split at h
  · exact .of_mem (exec_mem (c := .nop w) rfl h)
  · exact .of_mem (exec_mem (c := .identify w) rfl h)
  · exact .of_mem (exec_mem (c := .status w) rfl h)
  · exact execPowerSet_loses h
  · exact .of_mem (exec_mem (c := .powerGet w) rfl h)
  · exact .of_mem (exec_mem (c := .vcoreSet w) rfl h)
  · exact .of_mem (exec_mem (c := .domainReset w) rfl h)
  · exact .of_mem (exec_mem (c := .eventRoute w) rfl h)
  · exact .of_mem (exec_mem (c := .eventRead w) rfl h)
  · cases h; exact .of_mem rfl

theorem runContext_mem {n : Nat} {q : Fin 64} {w : List Word} {s t : State} (h : runContext n q w s = .next t) :
    t.mem = s.mem := by
  unfold runContext at h
  split at h
  · exact exec_mem (c := .loopSet q w) rfl h
  · exact exec_mem (c := .loopCoef q w) rfl h
  · exact exec_mem (c := .loopEnable q w) rfl h
  · exact exec_mem (c := .groupSet q w) rfl h
  · exact exec_mem (c := .stageWrite q w) rfl h
  · exact exec_mem (c := .cellBypass q w) rfl h
  · exact exec_mem (c := .cellRestore q w) rfl h
  · exact exec_mem (c := .ctConfig q w) rfl h
  · exact exec_mem (c := .ctStatus q w) rfl h
  · cases h; rfl

theorem runDevice_mem {n : Nat} {w : List Word} {s t : State} (h : runDevice n w s = .next t) : t.mem = s.mem := by
  unfold runDevice at h
  split at h
  · exact exec_mem (c := .cfgWrite w) rfl h
  · exact exec_mem (c := .cfgRead w) rfl h
  · exact exec_mem (c := .cfgCommit w) rfl h
  · exact exec_mem (c := .signalRead w) rfl h
  · exact exec_mem (c := .signalWrite w) rfl h
  · exact exec_mem (c := .inject w) rfl h
  · exact exec_mem (c := .capture w) rfl h
  · exact exec_mem (c := .captureRead w) rfl h
  · exact exec_mem (c := .loadAll w) rfl h
  · exact exec_mem (c := .safeSet w) rfl h
  · exact exec_mem (c := .hallMode w) rfl h
  · exact exec_mem (c := .wearRead w) rfl h
  · split at h
    · exact exec_mem (c := .wearParamReset w) rfl h
    · exact exec_mem (c := .wearParam w) rfl h
  · cases h; rfl

theorem runRest_mem {n : Nat} {w : List Word} {s t : State} (h : runRest n w s = .next t) : t.mem = s.mem := by
  unfold runRest at h
  split at h
  · exact exec_mem (c := .adcSeq w) rfl h
  · exact exec_mem (c := .adcRead w) rfl h
  · exact exec_mem (c := .calZero w) rfl h
  · exact exec_mem (c := .calFull w) rfl h
  · exact exec_mem (c := .calPriv w) rfl h
  · exact exec_mem (c := .testDac w) rfl h
  · exact exec_mem (c := .tbRead w) rfl h
  · exact exec_mem (c := .tbIncr w) rfl h
  · exact exec_mem (c := .tbAdj w) rfl h
  · exact exec_mem (c := .tcSet w) rfl h
  · exact exec_mem (c := .pllSet w) rfl h
  · exact exec_mem (c := .pllCommit w) rfl h
  · exact exec_mem (c := .safeParam w) rfl h
  · exact exec_mem (c := .safeCrcRead w) rfl h
  · split at h
    · exact exec_mem (c := .safeConfirmWithdraw w) rfl h
    · exact exec_mem (c := .safeConfirm w) rfl h
  · exact exec_mem (c := .release w) rfl h
  · exact exec_mem (c := .safeStatus w) rfl h
  · exact exec_mem (c := .nvmStore w) rfl h
  · exact exec_mem (c := .nvmLoad w) rfl h
  · exact exec_mem (c := .logRead w) rfl h
  · exact exec_mem (c := .nvmStatus w) rfl h
  · exact exec_mem (c := .streamSet w) rfl h
  · exact exec_mem (c := .streamEnable w) rfl h
  · exact exec_mem (c := .twinStatus w) rfl h
  · exact exec_mem (c := .demote w) rfl h
  · exact exec_mem (c := .rejoin w) rfl h
  · exact exec_mem (c := .stairStatus w) rfl h
  · cases h; rfl

theorem runOp_loses (op : Byte) (q : Fin 64) (w : List Word) (s : State) : Loses s (runOp op q w s) := by
  unfold runOp
  refine after_loses fun t h => ?_
  split at h
  · exact runSystem_loses h
  · split at h
    · exact .of_mem (runContext_mem h)
    · split at h
      · exact .of_mem (runDevice_mem h)
      · exact .of_mem (runRest_mem h)

theorem standbyAnswer_loses (p : Pkt) (s : State) : Loses s (standbyAnswer p s) := by
  have h : Loses s (runOp p.op p.queue p.words { s with reply := none }) := (runOp_loses _ _ _ _).congr_left rfl
  unfold standbyAnswer
  dsimp only
  split
  · split
    · exact h
    · exact .of_mem rfl
  · exact .of_mem rfl

theorem execute_loses (p : Pkt) (s : State) : Loses s (execute p s) := by
  unfold execute
  split
  · exact standbyAnswer_loses p s
  · split
    · exact .of_mem (by simp)
    · exact runOp_loses _ _ _ _

theorem runForwarded_loses (f : Fwd) (s : State) : Loses s (runForwarded f s) := by
  unfold runForwarded
  split
  · exact .of_mem rfl
  · split
    · exact .of_sheds (powerSet_sheds _ s)
    · dsimp only
      split
      · exact .of_mem (by split <;> simp [takeCal])
      · split
        · exact .of_mem (by simp)
        · split
          · exact .of_mem rfl
          · split
            · exact .of_mem (by simp)
            · split
              · exact .of_mem (by split <;> simp)
              · split
                · exact .of_mem (by simp)
                · exact runOp_loses _ _ _ _

theorem runMailbox_loses (p : Pkt) (nb : Nat) (s : State) : Loses s (runMailbox p nb s) := by
  unfold runMailbox
  split
  · exact .of_mem rfl
  · split
    · exact .of_mem rfl
    · split
      · exact .of_mem rfl
      · split
        · exact .of_mem (by simp)
        · exact .of_mem (by simp)
        · exact .of_mem (by simp)
        · exact execute_loses p s
        · exact after_loses fun t h => .of_mem (exec_mem (c := .powerGet p.words) rfl h)

theorem serve_loses (p : Pkt) (run : State → State) (s : State) (h : ∀ s, Loses s (run s)) : Loses s (serve p run s) := by
  have hr : Loses s (run { s with host := { s.host with cur := some p } }) := (h _).congr_left rfl
  unfold serve
  dsimp only
  split
  · exact hr.congr_right (by simp) (by simp)
  · split
    · exact hr.congr_right rfl rfl
    · exact hr.congr_right (by simp) (by simp)

theorem execQueueDispatch_loses {s t : State} (h : execQueueDispatch s = .next t) : Loses s t := by
  unfold execQueueDispatch at h
  cases h
  split
  · exact .of_mem rfl
  · split
    · exact .of_mem rfl
    · refine serve_loses _ _ _ fun s => ?_
      split
      · exact .of_mem (by simp)
      · exact execute_loses _ s

theorem noteDone_loses {f : Fwd} {s t : State} (h : Loses s t) : Loses s (noteDone f t) :=
  h.congr_right (by simp) (by simp)

theorem rcIdle_loses {s t : State} (h : Loses s t) : Loses s (rcIdle t) := h.congr_right rfl rfl

theorem execPairApplyInstant_loses {s t : State} (h : execPairApplyInstant s = .next t) : Loses s t := by
  unfold execPairApplyInstant at h
  cases h
  split
  · exact .of_mem rfl
  · split
    · exact .of_mem rfl
    · next f r _ =>
      dsimp only
      split
      · exact (serve_loses _ _ _ (runForwarded_loses f)).congr_left (by simp)
      · exact noteDone_loses ((runForwarded_loses f _).congr_left (by simp))

theorem execMailboxPacket_loses {b : List Byte} {s t : State} (h : execMailboxPacket b s = .next t) : Loses s t := by
  unfold execMailboxPacket at h
  cases h
  split
  · exact .of_mem rfl
  · split
    · exact .of_mem rfl
    · dsimp only
      split
      · exact .of_mem (by split <;> simp)
      · split
        · exact .of_mem (by simp)
        · split
          · exact .of_mem (by split <;> simp)
          · exact rcIdle_loses ((serve_loses _ _ _ (runMailbox_loses _ _)).congr_left (by simp))

/-! Power and reset. -/

theorem execRetEntryDone_loses {d : Fin 32} {s t : State} (h : execRetEntryDone d s = .next t) : Loses s t := by
  unfold execRetEntryDone at h
  cases h
  split
  · exact .of_mem rfl
  · split
    · exact .of_mem rfl
    · exact (Loses.of_sheds (leaveAll_sheds _ _)).congr_left (by simp)

theorem execPowerOnReset_loses {s t : State} (h : execPowerOnReset s = .next t) : Loses s t := by
  unfold execPowerOnReset at h
  cases h
  have off : ∀ g, (porState s).bankSt g = .off := fun g => by
    simp only [porState, State.bankSt, vget]
    by_cases hg : g < 16
    · simp [hg]
    · simp [hg]
  exact ⟨fun _ => ⟨List.Pairwise.nil, fun c hc => absurd hc (List.not_mem_nil (a := c))⟩, fun a => .inr ⟨rfl, by simp [off]⟩⟩

theorem execResetnAssert_loses {s t : State} (h : execResetnAssert s = .next t) : Loses s t := by
  unfold execResetnAssert at h
  cases h
  split
  · exact .of_mem rfl
  · exact .of_sheds (resetAll_sheds s)

theorem execSupplyFault_loses {p : Supply} {mv : Nat} {s t : State} (h : execSupplyFault p mv s = .next t) : Loses s t := by
  have fault : ∀ u : State, u.mem = s.mem → Loses s (if u.aon.vinUv && !s.aon.vinUv then dropRet u else u) := fun u hu => by
    split
    · exact (Loses.of_sheds (dropRet_sheds u)).congr_left hu
    · exact .of_mem hu
  unfold execSupplyFault at h
  cases h
  split
  · exact .of_mem rfl
  · exact fault _ (by simp [apply_ite State.mem])

theorem dieShutdown_loses (d : Nat) (s : State) : Loses s (dieShutdown d s) := by
  have shut : ∀ u : State, u.mem = s.mem →
      Loses s (if u.isOn .nvm && !u.nvm.busy then journalled (nvmDue u) else u) := fun u hu => by
    split
    · exact (Loses.of_sheds (journalled_sheds _)).congr_left (by simp [hu])
    · exact .of_mem hu
  unfold dieShutdown
  exact shut _ (by simp [apply_ite State.mem])

theorem execDieShutdownCompare_loses {d : Fin 4} {x : Reading} {s t : State} (h : execDieShutdownCompare d x s = .next t) :
    Loses s t := by
  have read : ∀ (hot : Bool) (u : State), u.mem = s.mem → Loses s (if hot && !u.therm.shut then dieShutdown d.val u
      else if hot then setCause 14 u
      else if u.therm.shut && u.dieCool then nvmGo { u with therm := { u.therm with shut := false } } else u) :=
    fun hot u hu => by
      split
      · exact (dieShutdown_loses _ u).congr_left hu
      · refine .of_mem ?_
        split
        · simp [hu]
        · split <;> simp [hu]
  unfold execDieShutdownCompare at h
  cases h
  split
  · exact .of_mem rfl
  · exact read _ _ rfl

theorem execNvmProgramDone_loses {ok : Bool} {s t : State} (h : execNvmProgramDone ok s = .next t) : Loses s t := by
  unfold execNvmProgramDone at h
  cases h
  exact (Loses.of_sheds (journalled_sheds _)).congr_left (by simp)

end Sys2Proof.Machine
end

section
/-! The steps of a wake: banks come ON, and one whose retained contents fail their check is cleared (R447). -/

namespace Sys2Proof.Machine

open Sys2Proof

/-- What `x` of a list may lose, the loop over the list loses. -/
theorem each_losesIn {α : Type} {P : Nat → Prop} (l : List α) (f : α → State → State) (s : State)
    (h : ∀ x ∈ l, ∀ s : State, LosesIn P s.mem (f x s).mem) : LosesIn P s.mem (each l f s).mem := by
  unfold each
  induction l generalizing s with
  | nil => exact LosesIn.refl _ _
  | cons x r ih =>
    exact (h x List.mem_cons_self s).trans (ih (f x s) fun y hy => h y (List.mem_cons_of_mem _ hy))

/-- The check of the banks whose switches have closed clears those that came from RET and fail it. -/
theorem checkBanks_losesIn {bad : Word} {s : State} {q : PowerSeq} (hq : s.aon.seq = some q) :
    LosesIn (fun g => bit bad (16 + g) = true ∧ (16 + g, true) ∈ q.took) s.mem (checkBanks bad s).mem := by
  unfold checkBanks
  simp only [hq, tellLost_frame]
  refine each_losesIn _ _ _ fun x hx u => ?_
  obtain ⟨htook, -, hbank⟩ : x ∈ q.took ∧ s.unitSt x.1 = .trans ∧ 16 ≤ x.1 := by simpa using hx
  split
  · next hbad =>
    obtain ⟨hret, hbit⟩ : x.2 = true ∧ bit bad x.1 = true := by simpa using hbad
    simp only [markLost_frame, shedBank_mem, changed_frame, setUnit_frame]
    refine (losesIn_memClear u.mem (x.1 - 16)).mono fun g hg => ?_
    obtain rfl : x = (16 + g, true) := Prod.ext (by simp only; omega) hret
    exact ⟨hbit, htook⟩
  · simp only [changed_frame, setUnit_frame]
    exact LosesIn.refl _ _

@[simp] theorem markFail_banks (c : Nat) (s : State) : (markFail c s).aon.bank = s.aon.bank := by simp [markFail]

theorem markFail_seq {c : Nat} {s : State} {q : PowerSeq} (h : s.aon.seq = some q) :
    (markFail c s).aon.seq = some { q with failed := true } := by
  simp [markFail, setSeq, h]

/-- A failed step loses what its units take with them, and of the banks that came from RET in step 4 what fails its check. -/
theorem stepFail_losesIn {s : State} {q : PowerSeq} (hq : s.aon.seq = some q) :
    LosesIn (fun g => (stepFail s).bankSt g ≠ .on ∨ (16 + g, true) ∈ q.took) s.mem (stepFail s).mem := by
  unfold stepFail
  simp only [hq]
  split
  · exact LosesIn.refl _ _
  · next c rest hsteps =>
    by_cases hc0 : c = 0
    · rw [if_pos hc0]
      exact LosesIn.refl _ _
    · rw [if_neg hc0]
      split
      · have hm : Sheds s (failShared (markFail c s)) := (failShared_sheds _).after (.of_same (by simp) (by simp))
        exact hm.mem.mono fun g hg => .inl hg
      · have hseq := markFail_seq (c := c) hq
        unfold failDomain
        simp only [nextStep_frame, setSeq_frame]
        by_cases hc : c = 4
        · subst hc
          set u := setUnit (stepDom 4) .off (shed (stepDom 4) false (markFail 4 s)) with hu
          have hus : (freeWord u).2.aon.seq = some { q with failed := true } := by
            simpa [hu, stepDom, shed, dropPend, dropCfg, setUnit] using hseq
          have hum : (freeWord u).2.mem = s.mem := by simp [hu]
          have := checkBanks_losesIn (bad := (freeWord u).1) hus
          rw [hum] at this
          simpa using this.mono (Q := fun g => _ ∨ (16 + g, true) ∈ q.took) fun g hg => .inr hg.2
        · simp only [if_neg hc, setUnit_frame, shed_frame, markFail_frame]
          exact LosesIn.refl _ _

/-- The end of a step writes the Gallery where it checks banks alone. -/
theorem stepEffect_mem {c : Nat} {bad : Word} {ref : Fin 4} {s : State} (h : ¬ (c = 0 ∨ c = 4)) :
    (stepEffect c bad ref s).mem = s.mem := by
  unfold stepEffect
  simp only [h, if_false]
  (repeat' split) <;> simp

theorem stepEffect_check {c : Nat} {bad : Word} {ref : Fin 4} {s : State} (h : c = 0 ∨ c = 4) :
    stepEffect c bad ref s = checkBanks bad s := by
  rcases h with rfl | rfl <;> rfl

/-- Where a byte may be lost by `c`: in a bank that is not ON after it, or in one that came from RET in the sequence running and whose
check failed. -/
def lostIn (c : Instr) (s t : State) (g : Nat) : Prop :=
  t.bankSt g ≠ .on ∨ (checkFails c g = true ∧ ∃ q, s.aon.seq = some q ∧ (16 + g, true) ∈ q.took)

theorem Loses.lostIn {s t : State} (h : Loses s t) (c : Instr) : LosesIn (lostIn c s t) s.mem t.mem :=
  h.mono fun _ hg => .inl hg

theorem execWakeStepFail_losesIn {s t : State} (h : execWakeStepFail s = .next t) :
    LosesIn (lostIn .wakeStepFail s t) s.mem t.mem := by
  unfold execWakeStepFail at h
  cases h
  cases hq : s.aon.seq with
  | none =>
    simp only [stepFail, hq]
    exact LosesIn.refl _ _
  | some q => exact (stepFail_losesIn hq).mono fun g hg => hg.imp id fun ht => ⟨rfl, q, hq, ht⟩

theorem execWakeStepDone_losesIn {bad : Word} {ref : Fin 4} {s t : State} (h : execWakeStepDone bad ref s = .next t) :
    LosesIn (lostIn (.wakeStepDone bad ref) s t) s.mem t.mem := by
  unfold execWakeStepDone at h
  cases h
  cases hq : s.aon.seq with
  | none => exact LosesIn.refl _ _
  | some q =>
    dsimp only
    cases hs : q.steps with
    | nil => exact LosesIn.refl _ _
    | cons c rest =>
      dsimp only
      by_cases hc : c = 7 ∧ ref = 0
      · have hf : stepFail s = failShared (markFail 7 s) := by simp [stepFail, hq, hs, hc.1]
        have hm : Sheds s (failShared (markFail 7 s)) := (failShared_sheds _).after (.of_same (by simp) (by simp))
        rw [if_pos hc, hf]
        exact hm.mem.mono fun g hg => .inl hg
      · rw [if_neg hc]
        simp only [nextStep_frame]
        by_cases hc4 : c = 0 ∨ c = 4
        · obtain ⟨q', hq', htook⟩ : ∃ q', (stepTime c s).aon.seq = some q' ∧ q'.took = q.took := by
            unfold stepTime
            dsimp only
            split <;> simp [setSeq, hq]
          have := checkBanks_losesIn (bad := bad) hq'
          rw [htook, show (stepTime c s).mem = s.mem by simp] at this
          rw [stepEffect_check hc4]
          exact this.mono fun g hg => .inr ⟨hg.1, q, hq, hg.2⟩
        · rw [stepEffect_mem hc4]
          simp only [stepTime_frame]
          exact LosesIn.refl _ _

end Sys2Proof.Machine
end

section
/-! What the decisions on cells and halls leave alone (R21, R25, R31 to R36, R249, R290 to R294): a property of the state that the
parts of a decision keep, every decision keeps. -/

namespace Sys2Proof.Machine

open Sys2Proof

theorem each_inv {α : Type} {Q : State → Prop} (l : List α) (f : α → State → State) (s : State)
    (h : ∀ x s, Q s → Q (f x s)) (hs : Q s) : Q (each l f s) := by
  unfold each
  induction l generalizing s with
  | nil => exact hs
  | cons x r ih => exact ih _ (h x s hs)

/-- `Q` outlasts every part of a decision: what is sent, events and records, causes, the cells' service states, the flights' overtaken
mappings, and a hall's shortfall and SC alarms. -/
structure DecisionKeeps (Q : State → Prop) : Prop where
  emit : ∀ o s, Q s → Q (emit o s)
  raise : ∀ e w s, Q s → Q (raise e w s)
  log : ∀ e k y w c s, Q s → Q (logRecord e k y w c s)
  safe : ∀ x (s : State), Q s → Q { s with safe := x }
  cell : ∀ k (g : Cell → Cell) s, (∀ c, (g c).alms = c.alms) → Q s → Q (s.setCell k g)
  ends : ∀ s : State, Q s → Q { s with cells := s.cells.map Cell.endRestore }
  remap : ∀ f (p : Flight → Bool) s, Q s → Q (s.setFlight f fun x => { x with remap := p x })
  short : ∀ h b s, Q s → Q (s.setHall h fun x => { x with shortfall := b })

namespace DecisionKeeps

variable {Q : State → Prop} {s : State}

theorem sendBlk (hQ : DecisionKeeps Q) (f : Nat) (h : Q s) : Q (sendBlk f s) := by
  unfold Machine.sendBlk
  split
  · exact each_inv _ _ _ (fun _ _ => hQ.emit _ _) h
  · exact h

theorem sendDecision (hQ : DecisionKeeps Q) (d : Decision) (h : Q s) : Q (sendDecision d s) := by
  unfold Machine.sendDecision
  split
  · exact hQ.emit _ _ h
  · exact h

theorem ssbEntry (hQ : DecisionKeeps Q) (h : Q s) : Q (ssbEntry s) := by
  unfold Machine.ssbEntry
  exact hQ.log _ _ _ _ _ _ (hQ.safe _ _ (hQ.ends _ (each_inv _ _ _ (fun f _ => hQ.sendBlk f) h)))

theorem setCause (hQ : DecisionKeeps Q) (i : Nat) (h : Q s) : Q (setCause i s) := by
  unfold Machine.setCause
  split
  · exact h
  · have hr := hQ.raise 192 (bitAt true i) _ (hQ.safe { s.safe with cause := s.safe.cause ||| (1#17 <<< i) } s h)
    dsimp only
    split
    · split
      · exact hQ.ssbEntry (hQ.sendDecision _ hr)
      · exact hQ.ssbEntry hr
    · split
      · exact hQ.sendDecision _ hr
      · exact hr

theorem overtake (hQ : DecisionKeeps Q) (k : Nat) (h : Q s) : Q (overtake k s) := by
  unfold Machine.overtake
  dsimp only
  split
  · exact each_inv _ _ _ (fun f _ => hQ.remap f _ _) h
  · exact h

theorem leaveWith (hQ : DecisionKeeps Q) (k : Nat) (pick : Option Nat → Nat) (h : Q s) : Q (leaveWith k pick s) :=
  hQ.overtake k (hQ.cell k _ _ (fun _ => rfl) h)

theorem shortfall (hQ : DecisionKeeps Q) (g : Nat) (h : Q s) : Q (shortfall g s) := by
  have hs := hQ.short (s.strHead g) true s h
  unfold Machine.shortfall
  dsimp only
  split
  · split
    · exact hs
    · exact hQ.setCause 9 hs
  · refine each_inv _ _ _ (fun k s h => ?_) hs
    split
    · exact hQ.leaveWith k _ h
    · split
      · exact hQ.cell k _ _ (fun _ => rfl) h
      · exact h

theorem hallOut (hQ : DecisionKeeps Q) (g : Nat) (h : Q s) : Q (hallOut g s) := by
  unfold Machine.hallOut
  refine each_inv _ _ _ (fun i s h => ?_) (each_inv _ _ _ (fun f s h => ?_) h)
  · dsimp only
    split
    · exact hQ.leaveWith _ _ h
    · exact h
  · split
    · exact hQ.sendBlk f h
    · exact h

theorem hallRest (hQ : DecisionKeeps Q) (g : Nat) (h : Q s) : Q (hallRest g s) := by
  unfold Machine.hallRest
  refine each_inv _ _ _ (fun i s h => ?_) h
  dsimp only
  split
  · exact hQ.leaveWith _ _ h
  · exact h

theorem hallFall (hQ : DecisionKeeps Q) (g : Nat) (h : Q s) : Q (hallFall g s) := by
  have hr := hQ.hallRest g (hQ.hallOut g h)
  unfold Machine.hallFall
  dsimp only
  split
  · refine each_inv _ _ _ (fun i s h => ?_) hr
    split
    · exact h
    · exact hQ.hallRest i h
  · split
    · exact hQ.shortfall g hr
    · exact hr

/-- What follows the error bit of a hall error. -/
theorem hallError (hQ : DecisionKeeps Q) (g row : Nat) (h : Q (s.setHall g fun x => { x with err := true })) (h0 : Q s) :
    Q (hallError g row s) := by
  unfold Machine.hallError
  split
  · exact h0
  · exact hQ.hallFall g (hQ.sendDecision _ (hQ.log _ _ _ _ _ _ (hQ.raise _ _ _ h)))

theorem setPerm (hQ : DecisionKeeps Q) (k : Nat) (h : Q s) : Q (setPerm k s) := by
  unfold Machine.setPerm
  split
  · exact h
  · exact hQ.log _ _ _ _ _ _ (hQ.cell k _ _ (fun _ => rfl) h)

theorem derateCell (hQ : DecisionKeeps Q) (k : Nat) (h : Q s) : Q (derateCell k s) := by
  unfold Machine.derateCell
  dsimp only
  split
  · exact hQ.leaveWith k _ h
  · split
    · exact hQ.leaveWith k _ h
    · exact hQ.cell k _ _ (fun _ => rfl) h

theorem carryOut (hQ : DecisionKeeps Q) (k cls react : Nat) (h : Q s) : Q (carryOut k cls react s) := by
  unfold Machine.carryOut
  dsimp only
  split
  · split
    · exact hQ.leaveWith k _ (hQ.hallOut _ h)
    · exact hQ.hallOut _ h
  · split
    · exact h
    · split
      · split
        · exact h
        · exact hQ.setCause 8 h
      · split
        · exact hQ.derateCell k h
        · exact hQ.leaveWith k _ h

theorem noteDecision (hQ : DecisionKeeps Q) (k cls react : Nat) (h : Q s) : Q (noteDecision k cls react s) :=
  hQ.cell k _ _ (fun _ => rfl) h

theorem decide' (hQ : DecisionKeeps Q) (k cls react source : Nat) (h : Q s) : Q (decide' k cls react source s) := by
  have hl : ∀ w c, Q (logRecord k 0x20 (BitVec.ofNat 16 k) w c (Machine.raise k w s)) := fun w c =>
    hQ.log _ _ _ _ _ _ (hQ.raise _ _ _ h)
  unfold Machine.decide'
  dsimp only
  split
  · exact hQ.sendDecision _ (hQ.noteDecision _ _ _ (hl _ _))
  · exact hQ.carryOut k cls react (hQ.sendDecision _ (hQ.noteDecision _ _ _ (hl _ _)))

theorem decideGs (hQ : DecisionKeeps Q) (k source : Nat) (other : Bool) (h : Q s) : Q (decideGs k source other s) := by
  unfold Machine.decideGs
  dsimp only
  generalize (if other = true then 2 else s.reaction 2) = r
  split
  · split
    · exact hQ.decide' k 2 2 source (hQ.setPerm k (hQ.cell k _ _ (fun _ => rfl) h))
    · exact hQ.cell k _ _ (fun _ => rfl) (hQ.decide' k 2 5 source (hQ.cell k _ _ (fun _ => rfl) h))
  · exact hQ.decide' k 2 r source h

theorem decideClass (hQ : DecisionKeeps Q) (k cls source : Nat) (h : Q s) : Q (decideClass k cls source s) := by
  unfold Machine.decideClass
  split
  · exact hQ.decideGs k source false h
  · exact hQ.decide' k cls _ source h

theorem treadError (hQ : DecisionKeeps Q) (k : Nat) (h : Q s) : Q (treadError k s) := by
  have decided : ∀ u, Q u → Q (if u.standby then u else Machine.decide' k 5 2 4 u) := fun u hu => by
    split
    · exact hu
    · exact hQ.decide' k 5 2 4 hu
  unfold Machine.treadError
  refine decided _ ?_
  split
  · exact hQ.cell k _ _ (fun _ => rfl) h
  · exact h

end DecisionKeeps

end Sys2Proof.Machine
end

section
/-! The place of the capture's next frame in its ring buffer stands until the frame is recorded (R194), and what a deliver departure
and the scrubber write into the Gallery. -/

namespace Sys2Proof.Machine

open Sys2Proof

/-! The lanes' work leaves the capture alone. -/

theorem each_cap {α : Type} (l : List α) (f : α → State → State) (s : State)
    (h : ∀ x s, (f x s).atr.cap = s.atr.cap) : (each l f s).atr.cap = s.atr.cap :=
  each_keep (fun s => s.atr.cap) l f s h

@[simp] theorem setLane_cap (l : Nat) (f : Lane → Lane) (s : State) : (setLane l f s).atr.cap = s.atr.cap := by
  unfold setLane
  split <;> simp

@[simp] theorem endSplit_cap (f : Nat) (s : State) : (endSplit f s).atr.cap = s.atr.cap := by
  unfold endSplit
  split
  · rfl
  · exact (each_cap _ _ _ fun l s => setLane_cap _ _ s).trans (by simp)

@[simp] theorem moveHall_cap (l j role : Nat) (s : State) : (moveHall l j role s).atr.cap = s.atr.cap := by
  simp [moveHall, each_cap]

@[simp] theorem moveAtriumWork_cap (l : Nat) (s : State) : (moveAtriumWork l s).atr.cap = s.atr.cap := by
  unfold moveAtriumWork
  split <;> simp [moveAtrium]

@[simp] theorem moveWork_cap (al f : Nat) (s : State) : (moveWork al f s).atr.cap = s.atr.cap := by
  have restored : (if (s.flight f).split then each (s.flight f).late
      (fun l s => setLane l (fun y => { y with testing := true }) s) (endSplit f s) else s).atr.cap = s.atr.cap := by
    split
    · simp [each_cap]
    · rfl
  unfold moveWork
  dsimp only
  generalize (if (s.flight f).split then each (s.flight f).late
      (fun l s => setLane l (fun y => { y with testing := true }) s) (endSplit f s) else s) = u at *
  (repeat' split) <;> simp [restored]

@[simp] theorem checkOne_cap (bad skip : BitVec 10) (i a b : Nat) (done : Bool) (x : BitVec 10 × State) :
    (checkOne bad skip i a b done x).2.atr.cap = x.2.atr.cap := by
  unfold checkOne
  dsimp only
  (repeat' split) <;> simp [markShadow, countSkip, mismatchTests, each_cap]

@[simp] theorem shadowChecks_cap (bad skip : BitVec 10) (s : State) :
    (shadowChecks bad skip s).2.atr.cap = s.atr.cap := by
  have hall : ∀ (h : Nat) (x : BitVec 10 × State), (checkHall bad skip h x).2.atr.cap = x.2.atr.cap := fun h x => by
    unfold checkHall
    (repeat' split) <;> simp
  have atrium : ∀ x : BitVec 10 × State, (checkAtrium bad skip x).2.atr.cap = x.2.atr.cap := fun x => by
    unfold checkAtrium
    split <;> simp
  have halls : (each [0, 1, 2] (checkHall bad skip) (0, each (List.range 14)
      (fun l => setLane l fun y => { y with shadow := false }) s)).2.atr.cap = s.atr.cap :=
    (each_keep (fun x : BitVec 10 × State => x.2.atr.cap) _ _ _ hall).trans (each_cap _ _ _ fun l s => setLane_cap _ _ s)
  simp only [shadowChecks, atrium, halls]

/-! Parts of a departure that raise events or decide. -/

/-- The capture records by configuration `c`, and its next frame is frame `n`. -/
def CapAt (c : Word) (n : Nat) (s : State) : Prop := s.atr.cap.cfg = c ∧ s.atr.cap.count = n

theorem CapAt.congr {c : Word} {n : Nat} {s t : State} (h : CapAt c n s) (hc : t.atr.cap = s.atr.cap) : CapAt c n t := by
  simpa only [CapAt, hc] using h

theorem setCap_capAt {c : Word} {n : Nat} {s : State} {f : Capture → Capture} (h : CapAt c n s)
    (hf : ∀ x, (f x).cfg = x.cfg ∧ (f x).count = x.count) : CapAt c n (setCap f s) := by
  simpa only [CapAt, setCap_atr, hf] using h

theorem capEvent_capAt {c : Word} {n : Nat} {s : State} (e : Nat) (h : CapAt c n s) : CapAt c n (capEvent e s) := by
  unfold capEvent capTrigger
  dsimp only
  split
  · split
    · exact setCap_capAt h fun _ => ⟨rfl, rfl⟩
    · exact h
  · exact h

theorem raise_capAt {c : Word} {n : Nat} {s : State} (e : Nat) (w : Word) (h : CapAt c n s) : CapAt c n (raise e w s) := by
  have routed : ∀ u, CapAt c n u → CapAt c n (if bit (u.route e) 2 then sendRecord e w u else u) := fun u hu =>
    hu.congr (by split <;> simp)
  unfold raise
  by_cases on : s.isOn .atrium = true
  · rw [if_pos on]
    exact routed _ (capEvent_capAt e h)
  · rw [if_neg on]
    exact h.congr (by split <;> rfl)

theorem capAt_decisionKeeps (c : Word) (n : Nat) : DecisionKeeps (CapAt c n) where
  emit _ _ h := h
  raise e w _ h := raise_capAt e w h
  log e k y w v s h := by
    unfold logRecord
    dsimp only
    split
    · exact h.congr (by simp)
    · split
      · exact h
      · exact raise_capAt _ _ h
  safe _ _ h := h
  cell _ _ _ _ h := h
  ends _ h := h
  remap _ _ _ h := h
  short _ _ _ h := h

section

variable {c : Word} {n : Nat} {s : State}

theorem missFlight_capAt (al f : Nat) (h : CapAt c n s) : CapAt c n (missFlight al f s) := by
  have lanes : CapAt c n (missLanes al f s).2 := h.congr (by simp)
  have missed : CapAt c n (each (missLanes al f s).1 countMiss (missLanes al f s).2) :=
    lanes.congr (each_cap _ _ _ fun l s => setLane_cap _ _ s)
  unfold missFlight
  dsimp only
  split
  · exact CapAt.congr missed (by simp)
  · split
    · exact (capAt_decisionKeeps c n).hallError _ _ missed missed
    · exact missed

theorem lateCommit_capAt (f : Nat) (h : CapAt c n s) : CapAt c n (lateCommit f s) := by
  unfold lateCommit
  split
  · exact raise_capAt _ _ h
  · exact h

theorem completeFlight_capAt (f : Nat) (h : CapAt c n s) : CapAt c n (completeFlight f s) := by
  have moved : ∀ (b : Bool) w u, CapAt c n u → CapAt c n (if b then raise 189 w u else u) := fun b w u hu => by
    split
    · exact raise_capAt _ _ hu
    · exact hu
  unfold completeFlight
  exact moved _ _ _ (h.congr (by simp [apply_ite State.atr]))

theorem settle_capAt (al : Nat) (j : Judged) (f : Nat) (h : CapAt c n s) : CapAt c n (settle al j f s) := by
  cases j with
  | complete => exact completeFlight_capAt f h
  | missed => exact lateCommit_capAt f (missFlight_capAt al f h)
  | remap => exact lateCommit_capAt f h
  | mismatch => exact lateCommit_capAt f h

theorem settleAtrium_capAt (h : CapAt c n s) : CapAt c n (settleAtrium s) := by
  have copy : CapAt c n (if s.standby then s else commitAtrium s) := h.congr (by
    unfold commitAtrium
    (repeat' split) <;> rfl)
  unfold settleAtrium
  dsimp only
  split
  · exact raise_capAt _ _ copy
  · exact copy

theorem judgePeriod_capAt (bad skip : BitVec 10) (h : CapAt c n s) : CapAt c n (judgePeriod bad skip s) := by
  have events : ∀ miss b u, CapAt c n u → CapAt c n (missEvents miss b u) := fun miss b u hu => by
    unfold missEvents
    dsimp only
    split
    · split
      · exact hu
      · exact raise_capAt _ _ hu
    · split
      · exact raise_capAt _ _ hu
      · exact raise_capAt _ _ (raise_capAt _ _ hu)
  have settled : ∀ js u, CapAt c n u → CapAt c n (settleAll s.workAl js u) := fun js u hu =>
    each_inv _ _ _ (fun x _ => settle_capAt _ x.2 x.1) hu
  unfold judgePeriod
  dsimp only
  split
  · exact settled _ _ (events _ _ _ (h.congr (by simp)))
  · exact settleAtrium_capAt (settled _ _ (events _ _ _ (h.congr (by simp))))

theorem refreshFrames_capAt (h : CapAt c n s) : CapAt c n (refreshFrames s) := by
  unfold refreshFrames
  refine each_inv _ _ _ (fun g u hu => ?_) h
  unfold refreshString
  dsimp only
  refine each_inv _ _ _ (fun k v hv => (capAt_decisionKeeps c n).treadError k hv) ?_
  exact hu.congr (by simp)

theorem rerouteDone_capAt (f : Nat) (h : CapAt c n s) : CapAt c n (rerouteDone f s) := by
  unfold rerouteDone
  dsimp only
  split
  · exact raise_capAt _ _ h
  · exact h

theorem sendFlight_capAt (f : Nat) (h : CapAt c n s) : CapAt c n (sendFlight f s) :=
  rerouteDone_capAt f (h.congr (by simp))

theorem slackStep_capAt (work : List (Nat × List Nat × Rat)) (al : Nat) (h : CapAt c n s) : CapAt c n (slackStep work al s) := by
  have step : ∀ (x : Nat × List Nat × Rat) (u : State),
      (splitStep x.1 x.2.2 (each x.2.1 (fun l s => setSlack l x.2.2 s) u)).atr.cap = u.atr.cap := fun x u => by
    have slack : (each x.2.1 (fun l s => setSlack l x.2.2 s) u).atr.cap = u.atr.cap :=
      each_cap _ _ _ fun l s => setLane_cap _ _ s
    generalize each x.2.1 (fun l s => setSlack l x.2.2 s) u = v at *
    unfold splitStep
    dsimp only
    (repeat' split) <;> simp [slack]
  have stepped : CapAt c n (each work (fun x s => splitStep x.1 x.2.2 (each x.2.1 (fun l s => setSlack l x.2.2 s) s)) s) :=
    h.congr (each_cap _ _ _ step)
  unfold slackStep slackEvent
  dsimp only
  split
  · split
    · exact raise_capAt _ _ stepped
    · exact stepped
  · exact stepped

theorem departure_capAt (bad skip : BitVec 10) (h : CapAt c n s) : CapAt c n (departure bad skip s) := by
  unfold departure
  extract_lets k landed handed routed work al judged refreshed fs framed sent
  have hlanded : CapAt c n landed := h.congr (by simp [landed])
  have hhanded : CapAt c n handed := hlanded.congr (by
    unfold handed
    split <;> simp)
  have hrouted : CapAt c n routed := each_inv _ _ _ (fun f v hv => hv.congr (by simp)) hhanded
  have hrefreshed : CapAt c n refreshed := refreshFrames_capAt (judgePeriod_capAt bad skip hrouted)
  have hframed : CapAt c n framed :=
    each_inv _ _ _ (fun x v hv => each_inv _ _ _ (fun k v hv => hv.congr (by simp)) hv) hrefreshed
  have hflights : CapAt c n (each fs sendFlight framed) := each_inv _ _ _ (fun f v hv => sendFlight_capAt f hv) hframed
  have hsent : CapAt c n sent := each_inv _ _ _ (fun f v hv => hv.congr (by simp)) hflights
  have hcommit : CapAt c n (sendCommit sent) := hsent.congr (by simp)
  exact (slackStep_capAt work al hcommit).congr (by simp)

end

theorem wordBytes_length (l : List Word) : (wordBytes l).length = 4 * l.length := by
  have four : ∀ w : Word, (leBytes 4 w.toNat).length = 4 := fun w => rfl
  unfold wordBytes
  induction l with
  | nil => rfl
  | cons w r ih => simp only [List.flatMap_cons, List.length_append, List.length_cons, ih, four]; omega

/-- The bytes of the capture's next frame (R194). -/
def inFrame (c : Capture) (a : Nat) : Prop :=
  let a0 := capAddr (c.count % capDepth c.cfg * capChans c.cfg)
  a0 ≤ a ∧ a < a0 + 4 * capChans c.cfg

/-- `m'` keeps the memory's form and, but for the bytes `P`, each byte of `m`. -/
def WritesIn (P : Nat → Prop) (m m' : List Host.Cell) : Prop :=
  (Memory.wf m → Memory.wf m') ∧ ∀ a, ¬ P a → memRead m' a = memRead m a

theorem WritesIn.refl (P : Nat → Prop) (m : List Host.Cell) : WritesIn P m m := ⟨id, fun _ _ => rfl⟩

theorem memWrites_writesIn (m : List Host.Cell) (a : Nat) (l : List Byte) :
    WritesIn (fun x => a ≤ x ∧ x < a + l.length) m (memWrites m a l) :=
  ⟨memWrites_wf l m a, fun x hx => memRead_memWrites_out l m a x (by omega)⟩

theorem WritesIn.mono {P Q : Nat → Prop} {m m' : List Host.Cell} (h : WritesIn P m m') (hPQ : ∀ a, P a → Q a) :
    WritesIn Q m m' := ⟨h.1, fun a ha => h.2 a fun hp => ha (hPQ a hp)⟩

theorem capFrame_writesIn (v s : State) : WritesIn (inFrame s.atr.cap) s.mem (capFrame v s).mem := by
  refine (memWrites_writesIn _ _ _).mono fun a ha => ?_
  rw [wordBytes_length, List.length_map, List.length_take] at ha
  exact ⟨ha.1, by omega⟩

theorem capSample_writesIn (sn : Nat) (v s : State) : WritesIn (inFrame s.atr.cap) s.mem (capSample sn v s).mem := by
  have recorded : ∀ f, WritesIn (inFrame s.atr.cap) s.mem (setCap f (capFrame v s)).mem := fun f => by
    rw [show (setCap f (capFrame v s)).mem = (capFrame v s).mem by simp]
    exact capFrame_writesIn v s
  unfold capSample
  dsimp only
  split
  · exact .refl _ _
  · split
    · exact .refl _ _
    · split
      · exact .refl _ _
      · exact recorded _

/-- A deliver departure records the capture's next frame, and no other byte of the Gallery. -/
theorem departSampled_writesIn (bad skip : BitVec 10) (s : State) :
    WritesIn (inFrame s.atr.cap) s.mem (departSampled bad skip s).mem := by
  obtain ⟨hcfg, hcount⟩ : CapAt s.atr.cap.cfg s.atr.cap.count (departure bad skip s) := departure_capAt bad skip ⟨rfl, rfl⟩
  have hframe : inFrame (departure bad skip s).atr.cap = inFrame s.atr.cap := by
    unfold inFrame
    rw [hcfg, hcount]
  have hsample := capSample_writesIn (departure bad skip s).sampleAt (departure bad skip s).applied (departure bad skip s)
  simp only [hframe, departure_frame] at hsample
  unfold departSampled
  simpa only [telemSample_frame, streamSample_frame] using hsample

/-- What a deliver departure does to a byte: the capture's frame is written, and banks that its last trains switch off lose theirs. -/
theorem execDeliverDeparture_mem {bad skip : BitVec 10} {s t : State} (h : execDeliverDeparture bad skip s = .next t) :
    ∃ m, WritesIn (inFrame s.atr.cap) s.mem m ∧ LosesIn (fun g => t.bankSt g ≠ .on) m t.mem := by
  unfold execDeliverDeparture at h
  cases h
  split
  · exact ⟨s.mem, .refl _ _, .refl _ _⟩
  · exact ⟨_, departSampled_writesIn bad skip s, (lastTrainGone_sheds _).mem⟩

/-- The word of capture RAM that `o` names. -/
def inOwner (o : EccOwner) (a : Nat) : Prop :=
  ∃ w, o = .capture w ∧ bankBase 6 + 4 * (w % 262144) ≤ a ∧ a < bankBase 6 + 4 * (w % 262144) + 4

theorem contain_writesIn (o : EccOwner) (s : State) : WritesIn (inOwner o) s.mem (contain o s).mem := by
  have kept : ∀ u : State, u.mem = s.mem → WritesIn (inOwner o) s.mem u.mem := fun u hu => by
    rw [hu]
    exact .refl _ _
  cases o with
  | tread k => exact kept (treadError k.val s) (by simp)
  | wear k => exact kept (wearLoad k.val s) (by simp)
  | hallWork h => exact kept (hallError h.val 4 s) (by simp)
  | capture w => exact (memWrites_writesIn _ _ _).mono fun a ha => ⟨w, rfl, ha⟩
  | queue q i => exact kept (atriumError 1 _) (by simp)
  | telemetry n i => exact kept { s with streams := _ } rfl
  | atrium => exact kept (atriumError 1 s) (by simp)

theorem execGalleryScrub_writesIn {g : Fin 16} {kind : EccKind} {o : EccOwner} {s t : State}
    (h : execGalleryScrub g kind o s = .next t) : WritesIn (inOwner o) s.mem t.mem := by
  unfold execGalleryScrub at h
  cases h
  split
  · exact .refl _ _
  · cases kind with
    | corr => simpa using WritesIn.refl (inOwner o) s.mem
    | uncorr => simpa using contain_writesIn o (raise 165 (BitVec.ofNat 32 g.val) s)

/-! The commands by what they may do to the Gallery. -/

/-- A command that takes banks out of ON, or executes one that does, loses bytes in the banks `lostIn` names alone. -/
theorem exec_lostIn {c : Instr} {s t : State} (hc : takesBanks c = true) (h : exec c s = .next t) :
    LosesIn (lostIn c s t) s.mem t.mem := by
  cases c with
  | powerSet w => exact (execPowerSet_loses h).lostIn _
  | retEntryDone d => exact (execRetEntryDone_loses h).lostIn _
  | wakeStepDone bad ref => exact execWakeStepDone_losesIn h
  | wakeStepFail => exact execWakeStepFail_losesIn h
  | powerOnReset => exact (execPowerOnReset_loses h).lostIn _
  | resetnAssert => exact (execResetnAssert_loses h).lostIn _
  | supplyFault p mv => exact (execSupplyFault_loses h).lostIn _
  | dieShutdownCompare d x => exact (execDieShutdownCompare_loses h).lostIn _
  | nvmProgramDone ok => exact (execNvmProgramDone_loses h).lostIn _
  | queueDispatch => exact (execQueueDispatch_loses h).lostIn _
  | mailboxPacket b => exact (execMailboxPacket_loses h).lostIn _
  | pairApplyInstant => exact (execPairApplyInstant_loses h).lostIn _
  | _ => exact Bool.noConfusion hc

/-- A command that may store takes banks out of ON, departs, or scrubs. -/
theorem takesBanks_of_mayStore {c : Instr} (hc : mayStore c = true) :
    takesBanks c = true ∨ (∃ bad skip, c = .deliverDeparture bad skip) ∨ ∃ g kind o, c = .galleryScrub g kind o := by
  cases c with
  | deliverDeparture bad skip => exact .inr (.inl ⟨bad, skip, rfl⟩)
  | galleryScrub g kind o => exact .inr (.inr ⟨g, kind, o, rfl⟩)
  | _ => exact .inl hc

/-- Every command keeps the memory's form. -/
theorem exec_wf {c : Instr} {s t : State} (h : exec c s = .next t) (hs : Memory.wf s.mem) : Memory.wf t.mem := by
  cases hc : mayStore c with
  | false => rwa [exec_mem hc h]
  | true =>
    obtain hb | ⟨bad, skip, rfl⟩ | ⟨g, kind, o, rfl⟩ := takesBanks_of_mayStore hc
    · exact (exec_lostIn hb h).1 hs
    · obtain ⟨m, hw, hl⟩ := execDeliverDeparture_mem h
      exact hl.1 (hw.1 hs)
    · exact (execGalleryScrub_writesIn h).1 hs

end Sys2Proof.Machine

open Sys2Proof.Machine in
/-- Settles O4, by what the step does: an empty queue ticks, and each command clears ranges of the memory or writes bytes into it, or
leaves it as it was. -/
theorem canonicalKept : Obligations.CanonicalKept := by
  unfold Obligations.CanonicalKept
  intro s t hs h
  unfold step at h
  split at h
  · cases h
    simpa only [State.Canonical, tick_frame] using hs
  · exact exec_wf h hs

open Sys2Proof.Machine in
/-- Settles O6: each part is what the commands of one row do to the Gallery. -/
theorem galleryFrame : Obligations.GalleryFrame := by
  unfold Obligations.GalleryFrame
  refine ⟨fun c s t hc h => ?other, fun c s t hc h a => ?banks, fun bad skip s t h => ?departure, fun g kind o s t h a => ?scrub⟩
  case other =>
    intro a
    rw [exec_mem hc h]
  case banks => exact (exec_lostIn hc h).2 a
  case departure =>
    intro c a0 a ha
    obtain ⟨m, hw, hl⟩ := execDeliverDeparture_mem h
    have hm : memRead m a = memRead s.mem a := hw.2 a fun hin => by
      obtain ⟨hlo, hhi⟩ : a0 ≤ a ∧ a < a0 + 4 * capChans c.cfg := hin
      omega
    exact hm ▸ hl.2 a
  case scrub =>
    by_cases hin : inOwner o a
    · exact .inr hin
    · exact .inl ((execGalleryScrub_writesIn h).2 a hin)

end

section
/-! Properties that every decision keeps, as instances of `DecisionKeeps`. -/

namespace Sys2Proof.Machine

open Sys2Proof

theorem vget_vmod_or {α : Type} {n : Nat} (v : Vector α n) (i j : Nat) (f : α → α) (d : α) :
    vget (vmod v i f) j d = vget v j d ∨ vget (vmod v i f) j d = f (vget v j d) := by
  by_cases hij : i = j
  · subst hij
    by_cases hi : i < n
    · exact .inr (vget_vmod_same v i f d hi)
    · exact .inl (by rw [vmod_out v i f (by omega)])
  · exact .inl (vget_vmod_ne v i j f d hij)

theorem setFlight_keeps {P : Flight → Prop} {f : Nat} {s : State} (k : Nat) {g : Flight → Flight} (hg : ∀ x, P x → P (g x))
    (h : P (s.flight f)) : P ((s.setFlight k g).flight f) := by
  rcases vget_vmod_or s.flights k f g {} with e | e <;> simp only [State.flight, State.setFlight, e]
  · exact h
  · exact hg _ h

theorem setHall_keeps {P : HallS → Prop} {f : Nat} {s : State} (k : Nat) {g : HallS → HallS} (hg : ∀ x, P x → P (g x))
    (h : P (s.hall f)) : P ((s.setHall k g).hall f) := by
  rcases vget_vmod_or s.halls k f g {} with e | e <;> simp only [State.hall, State.setHall, e]
  · exact h
  · exact hg _ h

theorem setCell_alms {k : Nat} {s : State} (j : Nat) {g : Cell → Cell} (hg : ∀ c, (g c).alms = c.alms) :
    ((s.setCell j g).cell k).alms = (s.cell k).alms := by
  rcases vget_vmod_or s.cells j k g {} with e | e <;> simp only [State.cell, State.setCell, e, hg]

/-! Events (R483, R484): what is pending stays, and one raised while ATRIUM is ON pends. -/

@[simp] theorem capEvent_slots (e : Nat) (s : State) : (capEvent e s).events.slots = s.events.slots := by
  unfold capEvent capTrigger
  dsimp only
  (repeat' split) <;> rfl

@[simp] theorem sendRecord_slots (e : Nat) (w : Word) (s : State) : (sendRecord e w s).events.slots = s.events.slots := by
  unfold sendRecord rsPush emit
  dsimp only
  (repeat' split) <;> rfl

theorem raise_evt (e : Nat) (w : Word) (s : State) (hs : s.isOn .atrium = true) (x : Nat) :
    (raise e w s).evt x = vget (vmod s.events.slots e fun r =>
      { pend := true, count := satInc 255 r.count, time := s.tb.ns, data := if evtOrs e then r.data ||| w else w }) x {} := by
  have sent : ∀ u : State, (if bit (u.route e) 2 then sendRecord e w u else u).events.slots = u.events.slots := fun u => by
    split <;> simp
  unfold raise
  rw [if_pos hs]
  simp only [State.evt, sent, capEvent_slots]

theorem raise_pend_same {e : Nat} (w : Word) {s : State} (hs : s.isOn .atrium = true) (he : e < 256) :
    ((raise e w s).evt e).pend = true := by
  rw [raise_evt e w s hs, vget_vmod_same _ _ _ _ he]

theorem raise_pend_keeps {x : Nat} (e : Nat) (w : Word) {s : State} (h : (s.evt x).pend = true) :
    ((raise e w s).evt x).pend = true := by
  by_cases hs : s.isOn .atrium = true
  · rw [raise_evt e w s hs]
    rcases vget_vmod_or s.events.slots e x _ {} with hx | hx <;> rw [hx]
    exact h
  · unfold raise
    rw [if_neg hs]
    split <;> exact h

theorem raise_dom (e : Nat) (w : Word) (s : State) : (raise e w s).aon.dom = s.aon.dom := by
  rw [raise_aon]
  split <;> rfl

/-- The writer's start changes nothing but its own state. -/
theorem nvmStart_eq (s : State) : nvmStart s = { s with nvm := (nvmStart s).nvm } := by
  unfold nvmStart
  dsimp only
  (repeat' split) <;> rfl

/-- What `raise` keeps, and the writes of AON's held records and of the log keep, a record in the log keeps. -/
theorem logRecord_keeps {Q : State → Prop} (hr : ∀ e w s, Q s → Q (raise e w s))
    (hn : ∀ (n : Nvm) (s : State), Q s → Q { s with nvm := n })
    (ha : ∀ l (s : State), Q s → Q { s with aon := { s.aon with heldLog := l } })
    (e : Nat) (k : Byte) (y : BitVec 16) (w c : Word) {s : State} (h : Q s) : Q (logRecord e k y w c s) := by
  unfold logRecord
  dsimp only
  split
  · unfold nvmWrite
    rw [nvmStart_eq]
    exact hn _ _ (hn _ s h)
  · split
    · exact ha _ _ h
    · exact hr _ _ _ (hn _ _ h)

namespace DecisionKeeps

theorem and {Q R : State → Prop} (hQ : DecisionKeeps Q) (hR : DecisionKeeps R) : DecisionKeeps fun s => Q s ∧ R s where
  emit o s h := ⟨hQ.emit o s h.1, hR.emit o s h.2⟩
  raise e w s h := ⟨hQ.raise e w s h.1, hR.raise e w s h.2⟩
  log e k y w c s h := ⟨hQ.log e k y w c s h.1, hR.log e k y w c s h.2⟩
  safe x s h := ⟨hQ.safe x s h.1, hR.safe x s h.2⟩
  cell k g s hg h := ⟨hQ.cell k g s hg h.1, hR.cell k g s hg h.2⟩
  ends s h := ⟨hQ.ends s h.1, hR.ends s h.2⟩
  remap f p s h := ⟨hQ.remap f p s h.1, hR.remap f p s h.2⟩
  short g b s h := ⟨hQ.short g b s h.1, hR.short g b s h.2⟩

theorem flight (f : Nat) {P : Flight → Prop} (hP : ∀ x b, P x → P { x with remap := b }) :
    DecisionKeeps fun s => P (s.flight f) where
  emit _ _ h := h
  raise e w s h := by simpa only [State.flight, raise_frame] using h
  log e k y w c s h := by simpa only [State.flight, logRecord_frame] using h
  safe _ _ h := h
  cell _ _ _ _ h := h
  ends _ h := h
  remap k p _ h := setFlight_keeps k (fun x => hP x (p x)) h
  short _ _ _ h := h

theorem hall (g : Nat) {P : HallS → Prop} (hP : ∀ x b, P x → P { x with shortfall := b }) :
    DecisionKeeps fun s => P (s.hall g) where
  emit _ _ h := h
  raise e w s h := by simpa only [State.hall, raise_frame] using h
  log e k y w c s h := by simpa only [State.hall, logRecord_frame] using h
  safe _ _ h := h
  cell _ _ _ _ h := h
  ends _ h := h
  remap _ _ _ h := h
  short k b _ h := setHall_keeps k (fun x => hP x b) h

theorem alms (k : Nat) (l : List (Nat × Nat)) : DecisionKeeps fun s => (s.cell k).alms = l where
  emit _ _ h := h
  raise e w s h := by simpa only [State.cell, raise_frame] using h
  log e k y w c s h := by simpa only [State.cell, logRecord_frame] using h
  safe _ _ h := h
  cell j g _ hg h := (setCell_alms j hg).trans h
  ends s h := by
    refine Eq.trans ?_ h
    unfold State.cell vget
    rw [Vector.getElem?_map]
    cases s.cells[k]? <;> rfl
  remap _ _ _ h := h
  short _ _ _ h := h

theorem powered (d : Vector DomState 10) (w : Twin) : DecisionKeeps fun s => s.aon.dom = d ∧ s.twin = w where
  emit _ _ h := h
  raise e w s h := by simpa only [raise_dom, raise_frame] using h
  log e k y w c s h := by
    refine logRecord_keeps (Q := fun s => s.aon.dom = d ∧ s.twin = _) (fun e w s h => ?_) (fun _ _ h => h) (fun _ _ h => h) e k y w c h
    simpa only [raise_dom, raise_frame] using h
  safe _ _ h := h
  cell _ _ _ _ h := h
  ends _ h := h
  remap _ _ _ h := h
  short _ _ _ h := h

theorem pend (e : Nat) : DecisionKeeps fun s => (s.evt e).pend = true where
  emit _ _ h := h
  raise x w _ h := raise_pend_keeps x w h
  log x k y w c _ h := logRecord_keeps (Q := fun s => (s.evt e).pend = true) (fun x w _ h => raise_pend_keeps x w h)
    (fun _ _ h => h) (fun _ _ h => h) x k y w c h
  safe _ _ h := h
  cell _ _ _ _ h := h
  ends _ h := h
  remap _ _ _ h := h
  short _ _ _ h := h

end DecisionKeeps

end Sys2Proof.Machine
end

section
/-! What a period's gather trains leave alone in the flights' port state: the work on the reports they bring keeps which trains are out
(R140, R168). -/

namespace Sys2Proof.Machine

open Sys2Proof

/-- A flight's gather trains: which are out, and whether one was lost. -/
def outs (x : Flight) : Bool × Bool × Bool := (x.outEast, x.outWest, x.lostNow)

/-- Flight `f`'s gather trains stand as `c`. -/
def GatherAt (f : Nat) (c : Bool × Bool × Bool) (s : State) : Prop := outs (s.flight f) = c

theorem gatherAt_decisionKeeps (f : Nat) (c : Bool × Bool × Bool) : DecisionKeeps (GatherAt f c) :=
  DecisionKeeps.flight f (P := fun x => outs x = c) fun _ _ h => h

theorem unlessStandby_keeps {Q : State → Prop} {g : State → State} {s : State} (hg : ∀ s, Q s → Q (g s)) (h : Q s) :
    Q (unlessStandby g s) := by
  unfold unlessStandby
  split
  · exact h
  · exact hg s h

/-- What a decision keeps, a break found at a hop keeps, where the ring's state of breaks does not count (R146). -/
theorem DecisionKeeps.breakAt {Q : State → Prop} (hQ : DecisionKeeps Q) {s : State} (f hop : Nat)
    (hf : ∀ k s (g : Flight → Flight), (∀ x, outs (g x) = outs x) → Q s → Q (s.setFlight k g)) (h : Q s) :
    Q (breakAt f hop s) := by
  have told : ∀ (l : List Nat) t u, Q u →
      Q (if u.standby then u else tellBreak f t (each l (fun j => Machine.decideClass (7 * f + j) 7 6) u)) := fun l t u hu => by
    split
    · exact hu
    · have decided : Q (each l (fun j => Machine.decideClass (7 * f + j) 7 6) u) :=
        each_inv _ _ _ (fun j _ => hQ.decideClass (7 * f + j) 7 6) hu
      unfold tellBreak
      split
      · exact hQ.emit _ _ decided
      · exact decided
  unfold Machine.breakAt
  dsimp only
  split
  · exact h
  · exact told _ _ _ (hQ.raise _ _ _ (hf f s _ (fun _ => rfl) h))

namespace GatherAt

variable {f : Nat} {c : Bool × Bool × Bool} {s t : State}

theorem congr (h : GatherAt f c s) (ht : t.flights = s.flights) : GatherAt f c t := by
  simpa only [GatherAt, State.flight, ht] using h

theorem setFlight (k : Nat) {g : Flight → Flight} (hg : ∀ x, outs (g x) = outs x) (h : GatherAt f c s) :
    GatherAt f c (s.setFlight k g) :=
  setFlight_keeps (P := fun x => outs x = c) k (fun x hx => (hg x).trans hx) h

theorem setCtx (n : Nat) (g : Ctx → Ctx) (h : GatherAt f c s) : GatherAt f c (s.setCtx n g) := by
  unfold State.setCtx
  split
  · exact h
  · have hf : GatherAt f c (s.setFlight (n / 7) fun x => { x with
        newCtx := x.newCtx.map fun x => if x.1 = n then (x.1, g x.2) else x }) :=
      h.setFlight _ fun _ => rfl
    exact hf.congr rfl

theorem decideClass (k cls source : Nat) (h : GatherAt f c s) : GatherAt f c (decideClass k cls source s) :=
  (gatherAt_decisionKeeps f c).decideClass k cls source h

theorem breakAt (g hop : Nat) (h : GatherAt f c s) : GatherAt f c (breakAt g hop s) :=
  (gatherAt_decisionKeeps f c).breakAt g hop (fun k _ _ hx hu => hu.setFlight k hx) h

theorem locate (g j : Nat) (rep : List Byte) (h : GatherAt f c s) : GatherAt f c (locate g j rep s) := by
  unfold Machine.locate
  dsimp only
  split
  · exact h
  · split
    · exact h.breakAt _ _
    · split
      · exact h.breakAt _ _
      · exact h

theorem keepReport (k : Nat) (b : List Byte) (h : GatherAt f c s) : GatherAt f c (keepReport k b s) := by
  have cal : ∀ u, GatherAt f c u → GatherAt f c (if repFresh b then each (List.range 4) (fun i s =>
      calTake (BitVec.ofNat 16 (2 ^ 14 + k * 256 + i)) 64 (rawCode b i) false s) u else u) := fun u hu =>
    hu.congr (by split <;> simp)
  unfold Machine.keepReport
  refine cal _ ?_
  split
  · exact setCtx _ _ h
  · exact setCtx _ _ h

theorem reportSelf (k : Nat) (first : Bool) (old b : List Byte) (h : GatherAt f c s) :
    GatherAt f c (reportSelf k first old b s) := by
  unfold Machine.reportSelf
  dsimp only
  split
  · refine decideClass _ _ _ ?_
    split
    · exact h.decideClass _ _ _
    · exact h
  · split
    · exact h.decideClass _ _ _
    · exact h

theorem reportClass (k : Nat) (b : List Byte) (cls : Nat) (h : GatherAt f c s) : GatherAt f c (reportClass k b cls s) := by
  unfold Machine.reportClass
  split
  · exact h
  · split
    · exact (gatherAt_decisionKeeps f c).decideGs _ _ _ h
    · split
      · exact h.congr (by simp)
      · exact h.decideClass _ _ _

theorem reportFaults (k : Nat) (old b : List Byte) (h : GatherAt f c s) : GatherAt f c (reportFaults k old b s) := by
  have keeps := gatherAt_decisionKeeps f c
  unfold Machine.reportFaults
  dsimp only
  refine each_inv _ _ _ (fun cls _ => reportClass k b cls) ?_
  split
  · exact keeps.decide' _ _ _ _ (keeps.setPerm _ h)
  · exact h

theorem freshReport (k : Nat) (b : List Byte) (h : GatherAt f c s) : GatherAt f c (freshReport k b s) := by
  have retry : ∀ u, GatherAt f c u → GatherAt f c (reportRetry k b u) := fun u hu => by
    unfold reportRetry
    dsimp only
    split
    · exact hu
    · split
      · exact (gatherAt_decisionKeeps f c).decideGs _ _ _ hu
      · exact hu
  have third : ∀ u, GatherAt f c u → GatherAt f c (if (u.cell k).uvRun = 3 then Machine.decideClass k 3 2 u else u) := fun u hu => by
    split
    · exact hu.decideClass _ _ _
    · exact hu
  have under : ∀ u, GatherAt f c u → GatherAt f c (reportUnder k u) := fun u hu => by
    unfold reportUnder
    exact third _ hu
  have judged : GatherAt f c (unlessStandby (fun s => reportUnder k (reportRetry k b s)) (Machine.locate (k / 7) (k % 7) b s)) :=
    unlessStandby_keeps (fun u hu => under _ (retry u hu)) (h.locate _ _ _)
  exact judged.congr (by simp [Machine.freshReport])

theorem reportTime (k : Nat) (b : List Byte) (h : GatherAt f c s) : GatherAt f c (reportTime k b s) := by
  have told : ∀ (bad : Bool) u, GatherAt f c u → GatherAt f c (if !bad then u
      else if (u.cell k).terr = 3 then Machine.raise (64 + k) 4 u
      else if (u.cell k).terr = 4 then unlessStandby (Machine.decideClass k 5 2) u else u) := fun bad u hu => by
    split
    · exact hu
    · split
      · exact (gatherAt_decisionKeeps f c).raise _ _ _ hu
      · split
        · exact unlessStandby_keeps (fun _ => decideClass _ _ _) hu
        · exact hu
  have counted : ∀ g, GatherAt f c (s.setCell k g) := fun _ => h
  unfold Machine.reportTime
  extract_lets w
  split
  · exact h
  · exact told _ _ (counted _)

theorem reportCrc (k : Nat) (b : List Byte) (h : GatherAt f c s) : GatherAt f c (reportCrc k b s) := by
  have right : ∀ (done : Bool) u, GatherAt f c u →
      GatherAt f c (if done then Machine.raise (64 + k) 3 u else u) := fun done u hu => by
    split
    · exact (gatherAt_decisionKeeps f c).raise _ _ _ hu
    · exact hu
  have wrong : ∀ u, GatherAt f c u → GatherAt f c (if (u.cell k).crcBad = 2 then
      unlessStandby (Machine.decideClass k 5 2) (u.setCell k fun c => { c with cfgOk := false }) else u) := fun u hu => by
    have failed : GatherAt f c (u.setCell k fun c => { c with cfgOk := false }) := hu
    split
    · exact unlessStandby_keeps (fun _ => decideClass _ _ _) failed
    · exact hu
  have counted : ∀ g, GatherAt f c (s.setCell k g) := fun _ => h
  unfold Machine.reportCrc
  extract_lets x done
  split
  · exact h
  · split
    · exact right _ _ (counted _)
    · exact wrong _ (counted _)

theorem takeReport (k : Nat) (b : List Byte) (h : GatherAt f c s) : GatherAt f c (takeReport k b s) := by
  have decisions : ∀ first old u, GatherAt f c u → GatherAt f c (reportDecisions k first old b u) := fun first old u hu => by
    unfold reportDecisions
    refine unlessStandby_keeps (fun v hv => reportFaults _ _ _ (reportSelf _ _ _ _ hv)) (hu.congr ?_)
    split <;> simp
  have kept : GatherAt f c (reportDecisions k (!(s.cell k).seen) (s.cell k).report b (Machine.keepReport k b s)) :=
    decisions _ _ _ (h.keepReport k b)
  unfold Machine.takeReport
  refine reportCrc k b (reportTime k b ?_)
  split
  · exact freshReport k b kept
  · exact kept

theorem missReport (k : Nat) (h : GatherAt f c s) : GatherAt f c (missReport k s) := by
  unfold Machine.missReport
  dsimp only
  split
  · exact unlessStandby_keeps (fun _ => decideClass _ _ _) (setCtx _ _ h)
  · exact setCtx _ _ h

theorem takeSlots (g : Nat) (r : Route) (slots : List (List Byte)) (h : GatherAt f c s) : GatherAt f c (takeSlots g r slots s) := by
  unfold Machine.takeSlots
  refine each_inv (Q := GatherAt f c) _ _ _ (fun x u hu => ?_) h
  have counted : GatherAt f c (countGather (7 * g + x.1) u) := hu.congr (by simp)
  have taken : ∀ b, GatherAt f c (if slotOk (gatherHeader g r s) b then Machine.takeReport (7 * g + x.1) b (countGather (7 * g + x.1) u)
      else Machine.missReport (7 * g + x.1) (countGather (7 * g + x.1) u)) := fun b => by
    split
    · exact counted.takeReport _ _
    · exact counted.missReport _
  exact (taken (slots.getD x.2 [])).congr (by simp only [sampleCell_frame])

theorem missUnserved (g : Nat) (h : GatherAt f c s) : GatherAt f c (missUnserved g s) := by
  unfold Machine.missUnserved
  refine each_inv _ _ _ (fun j u hu => ?_) h
  have missed : GatherAt f c (Machine.missReport (7 * g + j) (countGather (7 * g + j) u)) := missReport _ (hu.congr (by simp))
  exact missed.congr (by simp)

theorem runFlight (g : Nat) (h : GatherAt f c s) : GatherAt f c (runFlight g s) := by
  unfold Machine.runFlight
  exact each_inv _ _ _ (fun k _ => (gatherAt_decisionKeeps f c).treadError k) (h.setFlight g fun _ => rfl)

theorem gatherDone (g : Nat) (h : GatherAt f c s) : GatherAt f c (gatherDone g s) := by
  have lost : ∀ u, GatherAt f c u → GatherAt f c (if 2 ≤ (u.flight g).lostRun then breakLost g u else u) := fun u hu => by
    split
    · unfold breakLost
      split
      · exact hu
      · exact (gatherAt_decisionKeeps f c).raise _ _ _ (hu.setFlight g fun _ => rfl)
    · exact hu
  unfold Machine.gatherDone
  dsimp only
  split
  · exact h
  · exact runFlight g (missUnserved g (lost _ (h.setFlight g fun _ => rfl)))

theorem measureRoute (g tg : Nat) (r : Route) (h : GatherAt f c s) : GatherAt f c (measureRoute g tg r s) := by
  have sum : ∀ d x, outs (takeSum r d x) = outs x := fun d x => by
    unfold takeSum
    dsimp only
    split
    · rfl
    · unfold setSums
      (repeat' split) <;> rfl
  have noted : ∀ u, GatherAt f c u → GatherAt f c (noteK g r u) := fun u hu => by
    unfold noteK
    split
    · exact hu.setFlight g fun x => by split <;> rfl
    · exact hu
  have route : ∀ d x, outs (if r.whole then { x with tgWhole := some tg, ewDelay := some d }
      else if r.west then takeSum r d { x with tgWest := some tg }
      else takeSum r d { x with tgEast := some tg }) = outs x := fun d x => by
    split
    · rfl
    · split <;> exact sum d _
  unfold Machine.measureRoute
  extract_lets d u
  have hu : GatherAt f c u := h.setFlight g fun x => route d x
  split
  · exact hu
  · exact noted u hu

end GatherAt

end Sys2Proof.Machine
end

section
/-! The work of a period: the atrium's loops (R52), the deadline, and the gather trains (R140). -/

namespace Sys2Proof.Machine

open Sys2Proof

/-! The atrium's loops and its deadline. -/

/-- What the start of the atrium's loops writes last, once `w` has the time base of `u`. -/
theorem loopsStamped {u : State} (w : State) (d : Nat) (h : w.tb = u.tb) :
    ∃ t, .next { w with atr := { w.atr with started := true, startAt := w.now, doneAt := w.now + d } } = (.next t : Res) ∧
      t.tb = u.tb ∧ t.atr.started = true ∧ t.atr.startAt = u.now ∧ u.now ≤ t.atr.doneAt := by
  have hnow : w.now = u.now := by simp only [State.now, h]
  exact ⟨_, rfl, h, rfl, hnow, hnow ▸ Nat.le_add_right _ _⟩

/-- The atrium's loops start at the instant they have reached, and end no earlier (R52, log 78). -/
theorem execAtriumLoopStart_starts {s : State} (hs : s.Runs) (hst : s.atr.started = false) :
    let u := if s.gathersOut then advanceTo (s.sampleAt + 3100) s else s
    ∃ t, execAtriumLoopStart s = .next t ∧ t.tb = u.tb ∧ t.atr.started = true ∧ t.atr.startAt = u.now ∧
      u.now ≤ t.atr.doneAt := by
  have runs : ¬ ((!s.isOn .atrium || s.atr.started) = true) := by simp [show s.isOn .atrium = true from hs, hst]
  intro u
  unfold execAtriumLoopStart
  rw [if_neg runs]
  refine loopsStamped _ _ ?_
  simp [u]

theorem setSlack_judged (l : Nat) (q : Rat) (s : State) :
    (setSlack l q s).atr.missed = s.atr.missed ∧ (setSlack l q s).atr.done = s.atr.done := by
  unfold setSlack setLane
  split <;> exact ⟨rfl, rfl⟩

/-- The deadline judges the atrium's own loops. -/
theorem execAtriumDeadline_judges {s : State} (hs : s.Runs) (ht : s.isOn .timebase = true) :
    ∃ t, execAtriumDeadline s = .next t ∧ t.tb = (advanceTo (s.dep - 1200) s).tb ∧
      t.atr.missed = (!s.atr.started || decide (s.dep - 1200 < s.atr.doneAt)) ∧ t.atr.done = !t.atr.missed := by
  have runs : ¬ ((!s.isOn .atrium || !s.isOn .timebase) = true) := by simp [show s.isOn .atrium = true from hs, ht]
  unfold execAtriumDeadline
  rw [if_neg runs]
  extract_lets d u a miss v l q w
  have hatr : u.atr = s.atr := by simp [u]
  have hw : w.tb = u.tb ∧ w.atr.missed = miss ∧ w.atr.done = !miss := by
    obtain ⟨hmiss, hdone⟩ := setSlack_judged l q v
    exact ⟨by simp [w, v], hmiss, hdone⟩
  obtain ⟨htb, hmiss, hdone⟩ := hw
  have hjudged : miss = (!s.atr.started || decide (s.dep - 1200 < s.atr.doneAt)) := by simp only [miss, a, hatr, d]
  refine ⟨_, rfl, ?_⟩
  split
  · simp [htb, hmiss, hdone, hjudged, u, d]
  · exact ⟨htb, hmiss.trans hjudged, by rw [hdone, hmiss]⟩

/-! Gather trains. -/

theorem routeIn_gatherAt (f : Fin 9) (west lost : Bool) (s : State) :
    GatherAt f.val ((s.flight f.val).outEast && west, (s.flight f.val).outWest && !west, (s.flight f.val).lostNow || lost)
      (routeIn f.val west lost s) := by
  unfold GatherAt routeIn
  rw [setFlight_flight_same _ _ _ f.isLt]
  rfl

/-- The train of a route is no more out. -/
theorem GatherAt.not_out {f : Nat} {west e w l : Bool} {t : State} (h : GatherAt f (e && west, w && !west, l) t) :
    (if west then (t.flight f).outWest else (t.flight f).outEast) = false := by
  obtain ⟨he, hw, -⟩ : (t.flight f).outEast = (e && west) ∧ (t.flight f).outWest = (w && !west) ∧ (t.flight f).lostNow = l := by
    simpa [GatherAt, outs] using h
  cases west <;> simp [he, hw]

theorem execGatherReturn_taken {s : State} {f : Fin 9} {west : Bool} {r : Route} (tg : Nat) (train : GatherTrain)
    (hr : outRoute f.val west s = some r) (hf : s.ringOn f.val = true) (hb : r.back ∈ s.ends ∨ s.linkUp = true) :
    ∃ t, execGatherReturn f west tg train s = .next t ∧
      (if west then (t.flight f.val).outWest else (t.flight f.val).outEast) = false := by
  have taken : (s.ringOn f.val && (s.ends.contains r.back || s.linkUp)) = true := by simpa [hf] using hb
  unfold execGatherReturn
  simp -zeta only [hr]
  rw [if_pos taken]
  extract_lets u v
  have hu : GatherAt f.val _ u := (routeIn_gatherAt f west false s).congr (by simp [u])
  have hv : ∀ {c}, GatherAt f.val c u → GatherAt f.val c v := fun h => by
    unfold v
    split
    · exact h.measureRoute _ _ _
    · exact h
  have hin : GatherAt f.val _ (gatherDone f.val (takeSlots f.val r train.slots v)) := ((hv hu).takeSlots _ _ _).gatherDone _
  exact ⟨_, rfl, hin.not_out⟩

theorem execGatherReturn_ignored {s : State} {f : Fin 9} {west : Bool} {r : Route} (tg : Nat) (train : GatherTrain)
    (hr : outRoute f.val west s = some r) (hb : r.back ∉ s.ends) (hl : s.linkUp = false) :
    execGatherReturn f west tg train s = .next s := by
  simp [execGatherReturn, hr, hb, hl]

theorem execGatherLost_noted {s : State} {f : Fin 9} {west : Bool} {r : Route} (hr : outRoute f.val west s = some r)
    (hf : s.ringOn f.val = true) :
    ∃ t, execGatherLost f west s = .next t ∧ (if west then (t.flight f.val).outWest else (t.flight f.val).outEast) = false ∧
      (t.flight f.val).lostNow = true ∧ t.tb = (advanceTo (s.sampleAt + 100 + expectedTg f.val r s + 200) s).tb := by
  unfold execGatherLost
  simp -zeta only [hr]
  rw [if_pos hf]
  extract_lets u
  have hin : GatherAt f.val _ (gatherDone f.val (takeSlots f.val r [] (routeIn f.val west true u))) :=
    ((routeIn_gatherAt f west true u).takeSlots _ _ _).gatherDone _
  refine ⟨_, rfl, hin.not_out, ?_, by simp [u]⟩
  have hl := congrArg (fun x => x.2.2) hin
  simpa [outs] using hl

end Sys2Proof.Machine
end

section
/-! The sort of a hall's order (R233) and the mapping of a flight (R250). -/

namespace Sys2Proof.Machine

open Sys2Proof

/-- A turn for one member of the list brings `P` about from what the other turns keep. -/
theorem each_hits {α : Type} {P Q : State → Prop} {x : α} {l : List α} {f : α → State → State} {s : State} (hx : x ∈ l)
    (hit : ∀ s, Q s → P (f x s)) (turn : ∀ y s, Q s → Q (f y s)) (keep : ∀ y s, P s → P (f y s)) (h : Q s) :
    P (each l f s) := by
  unfold each
  induction l generalizing s with
  | nil => exact absurd hx List.not_mem_nil
  | cons y r ih =>
    rcases List.mem_cons.mp hx with rfl | hr
    · have done : P (each r f (f x s)) := each_inv r f _ keep (hit s h)
      exact done
    · exact ih hr (turn y s h)

/-- Hall `h` has ended its sort in the order `o`, with the error bit `e`. -/
def Sorted (h : Nat) (o : List Nat) (e : Bool) (s : State) : Prop :=
  (s.hall h).sorted = true ∧ (s.hall h).order = o ∧ (s.hall h).err = e

/-- The domains and the twin stand as in `s`. -/
def SamePower (s t : State) : Prop := t.aon.dom = s.aon.dom ∧ t.twin = s.twin

theorem SamePower.isOn {s t : State} (h : SamePower s t) (d : Dom) : t.isOn d = s.isOn d := by
  simp only [State.isOn, State.domSt, h.1]

theorem SamePower.standby {s t : State} (h : SamePower s t) : t.standby = s.standby := by simp only [State.standby, h.2]

section

variable {s : State} {h : Fin 3} {o : List Nat}

/-- What stands while a string's halls take their errors, before hall `h` does. -/
def SortFails (s : State) (h : Nat) (o : List Nat) (u : State) : Prop := Sorted h o false u ∧ SamePower s u

/-- What stands after it has. -/
def SortFailed (s : State) (h : Nat) (o : List Nat) (u : State) : Prop :=
  (Sorted h o true u ∧ SamePower s u) ∧ (u.evt (160 + h)).pend = true

theorem sortFails_decisionKeeps (s : State) (h : Nat) (o : List Nat) (e : Bool) :
    DecisionKeeps fun u => Sorted h o e u ∧ SamePower s u :=
  (DecisionKeeps.hall h (P := fun x => x.sorted = true ∧ x.order = o ∧ x.err = e) fun _ _ hx => hx).and
    (.powered s.aon.dom s.twin)

theorem sortFailed_decisionKeeps (s : State) (h : Nat) (o : List Nat) : DecisionKeeps (SortFailed s h o) :=
  (sortFails_decisionKeeps s h o true).and (.pend (160 + h))

theorem SortFailed.hallError {u : State} (hu : SortFailed s h o u) (g row : Nat) : SortFailed s h o (hallError g row u) := by
  refine (sortFailed_decisionKeeps s h o).hallError g row ⟨⟨?_, hu.1.2⟩, hu.2⟩ hu
  exact setHall_keeps (P := fun x => x.sorted = true ∧ x.order = o ∧ x.err = true) g (fun _ hx => ⟨hx.1, hx.2.1, rfl⟩) hu.1.1

theorem SortFails.hallError_ne {u : State} (hu : SortFails s h o u) {g : Nat} (hg : g ≠ h) (row : Nat) :
    SortFails s h o (hallError g row u) := by
  refine (sortFails_decisionKeeps s h o false).hallError g row ⟨?_, hu.2⟩ hu
  simpa only [Sorted, setHall_hall_ne _ _ _ _ hg] using hu.1

/-- The hall's own turn: its error bit and its event (R31). -/
theorem SortFails.hallError_same {u : State} (hs : s.Runs) (hh : s.hallOn h = true) (hb : s.standby = false)
    (hu : SortFails s h o u) (row : Nat) : SortFailed s h o (Machine.hallError h row u) := by
  obtain ⟨⟨hsorted, horder, herr⟩, hpower⟩ := hu
  have hon : u.hallOn h = true := (hpower.isOn _).trans hh
  have hby : u.standby = false := hpower.standby.trans hb
  have hat : u.isOn .atrium = true := (hpower.isOn _).trans hs
  have marked : Sorted h o true (u.setHall h fun x => { x with err := true }) ∧
      SamePower s (u.setHall h fun x => { x with err := true }) :=
    ⟨by simp only [Sorted, setHall_hall_same _ _ _ h.isLt, hsorted, horder, and_self], hpower⟩
  have raised : SortFailed s h o (raise (160 + h) (BitVec.ofNat 32 row) (u.setHall h fun x => { x with err := true })) :=
    ⟨(sortFails_decisionKeeps s h o true).raise _ _ _ marked, raise_pend_same _ hat (by omega)⟩
  have keeps := sortFailed_decisionKeeps s h o
  unfold Machine.hallError
  simp -zeta only [herr, hon, hby, Bool.not_true, Bool.or_self, Bool.false_eq_true, if_false]
  exact keeps.hallFall h (keeps.sendDecision _ (keeps.log _ _ _ _ _ _ raised))

end

theorem mem_strHalls (s : State) (h : Fin 3) : h.val ∈ s.strHalls h.val := by
  unfold State.strHalls
  split
  · have := h.isLt
    simp only [List.mem_cons, List.not_mem_nil, or_false]
    omega
  · exact List.mem_singleton.mpr rfl

/-- A sort writes its string's order and no other field of a hall. -/
theorem sortString_keeps {P : HallS → Prop} {s : State} (h g : Nat) (hP : ∀ x o, P x → P { x with order := o })
    (hs : P (s.hall g)) : P ((sortString h s).hall g) := by
  have ctx : ∀ (n : Nat) (c : Ctx → Ctx) (u : State), P (u.hall g) → P ((u.setCtx n c).hall g) := fun n c u hu => by
    simpa only [State.hall, State.setCtx_frame] using hu
  have place : ∀ u : State, P (u.hall g) → P ((publishPlace h u).hall g) := fun u hu => by
    simpa only [State.hall, publishPlace_frame] using hu
  unfold sortString
  exact each_inv (Q := fun u => P (u.hall g)) _ _ _ (fun k u => ctx k _ u) (place _ (setHall_keeps h (fun x => hP x _) hs))

/-- A hall whose sort is due in a period with rotation (R233). -/
theorem sortRuns {s : State} {h : Fin 3} (hh : s.hallOn h.val = true) (hst : s.atr.started = true)
    (hm : fld (s.modNow (s.strHead h.val)).1 0 2 ≠ 0) :
    ¬ ((!s.hallOn h.val || !s.atr.started || fld (s.modNow (s.strHead h.val)).1 0 2 == 0) = true) := by
  simp [hh, hst, hm]

theorem execHallSort_sorted {s : State} {h : Fin 3} (hh : s.hallOn h.val = true) (hst : s.atr.started = true)
    (hm : fld (s.modNow (s.strHead h.val)).1 0 2 ≠ 0) :
    ∃ t, execHallSort h true s = .next t ∧ (t.hall h.val).sorted = true ∧ (t.hall h.val).err = (s.hall h.val).err := by
  unfold execHallSort
  rw [if_neg (sortRuns hh hst hm)]
  extract_lets u v
  have hu : (u.hall h.val).sorted = true ∧ (u.hall h.val).err = (s.hall h.val).err := by
    simp only [u, setHall_hall_same _ _ _ h.isLt, and_self]
  have hset := setHall_keeps (P := fun x => x.sorted = true ∧ x.err = (s.hall h.val).err) (s.strHead h.val)
    (g := fun x => { x with sorted := true }) (fun _ hx => ⟨rfl, hx.2⟩) hu
  have hsort := sortString_keeps (P := fun x => x.sorted = true ∧ x.err = (s.hall h.val).err) (s.strHead h.val) h.val
    (fun _ _ hx => hx) hset
  refine ⟨_, rfl, ?_⟩
  rw [if_neg (by simp)]
  split
  · exact hu
  · split
    · exact hsort
    · exact hu

/-- A sort that fails is an error of every hall of its string (R31). -/
theorem execHallSort_failed {s : State} {h : Fin 3} (hs : s.Runs) (hh : s.hallOn h.val = true) (hst : s.atr.started = true)
    (hm : fld (s.modNow (s.strHead h.val)).1 0 2 ≠ 0) (hb : s.standby = false) (he : (s.hall h.val).err = false) :
    ∃ t, execHallSort h false s = .next t ∧ SortFailed s h.val (s.hall h.val).order t := by
  unfold execHallSort
  rw [if_neg (sortRuns hh hst hm)]
  extract_lets u v
  have hu : SortFails s h.val (s.hall h.val).order u :=
    ⟨by simp only [Sorted, u, setHall_hall_same _ _ _ h.isLt, he, and_self], rfl, rfl⟩
  have hv : SortFails s h.val (s.hall h.val).order v := each_inv (Q := SortFails s h.val (s.hall h.val).order) _ _ _ (fun g w hw =>
    ⟨setHall_keeps (P := fun x => x.sorted = true ∧ x.order = (s.hall h.val).order ∧ x.err = false) g
      (fun _ hx => ⟨rfl, hx.2⟩) hw.1, hw.2⟩) hu
  have hby : ¬ (v.standby = true) := by simp [hv.2.standby, hb]
  rw [if_pos (by simp), if_neg hby]
  refine ⟨_, rfl, each_hits (Q := fun w => SortFails s h (s.hall h.val).order w ∨ SortFailed s h (s.hall h.val).order w)
    (mem_strHalls v h) (fun w hw => ?own) (fun g w hw => ?turn) (fun g w hw => hw.hallError g 3) (.inl hv)⟩
  case own => exact hw.elim (fun hw => hw.hallError_same hs hh hb 3) fun hw => hw.hallError _ 3
  case turn =>
    rcases hw with hw | hw
    · by_cases hg : g = h
      · exact .inr (hg ▸ hw.hallError_same hs hh hb 3)
      · exact .inl (hw.hallError_ne hg 3)
    · exact .inr (hw.hallError g 3)

/-- The mapping of a flight marks it and its hall, and a tread that fails takes neither mark back (R25, R250). -/
theorem execStageMapping_maps {s : State} {f : Fin 9} (hf : s.ringUp f.val = true) (hl : (s.flight f.val).loopsDone = true)
    (hst : s.atr.started = true) (hm : (s.flight f.val).mapped = false ∨ (s.flight f.val).remap = true)
    (hsort : fld (s.modNow (s.strHead (f.val / 3))).1 0 2 = 0 ∨
      ∀ g ∈ s.strHalls (s.strHead (f.val / 3)), s.hallOn g = true → (s.hall g).sorted = true) :
    ∃ t, execStageMapping f s = .next t ∧ (t.flight f.val).mapped = true ∧ (t.hall (f.val / 3)).mapping = true := by
  have due : ((s.flight f.val).mapped && !(s.flight f.val).remap) = false := by rcases hm with hm | hm <;> simp [hm]
  have sorted : (fld (s.modNow (s.strHead (f.val / 3))).1 0 2 != 0 &&
      !(s.strHalls (s.strHead (f.val / 3))).all fun g => !s.hallOn g || (s.hall g).sorted) = false := by
    rcases hsort with hz | hall
    · simp [hz]
    · have all : ((s.strHalls (s.strHead (f.val / 3))).all fun g => !s.hallOn g || (s.hall g).sorted) = true := by
        refine List.all_eq_true.mpr fun g hg => ?_
        cases ho : s.hallOn g
        · rfl
        · simp [hall g hg ho]
      simp [all]
  unfold execStageMapping
  extract_lets x h mode cells u r take q v w y
  rw [if_neg (by simp [x, h, mode, hf, hl, hst, due, sorted])]
  have marked : (y.flight f.val).mapped = true ∧ (y.hall (f.val / 3)).mapping = true := by
    have hw : (w.flight f.val).mapped = true := by simp only [w, setFlight_flight_same _ _ _ f.isLt]
    exact ⟨hw, by simp only [y, setHall_hall_same _ _ _ (show f.val / 3 < 3 by omega)]⟩
  refine ⟨_, rfl, each_inv (Q := fun t => (t.flight f.val).mapped = true ∧ (t.hall (f.val / 3)).mapping = true) _ _ _
    (fun k t => DecisionKeeps.treadError (.and (.flight f.val (P := fun x => x.mapped = true) fun _ _ hx => hx)
      (.hall (f.val / 3) (P := fun x => x.mapping = true) fun _ _ hx => hx)) k) marked⟩

/-- Equal but for the fields the deadline writes. -/
theorem eq_of_execAtriumDeadline {s t : State} (h : execAtriumDeadline s = .next t) :
    t = { s with tb := t.tb, atr := t.atr, halls := t.halls, out := t.out } := by
  have frame := execAtriumDeadline_frame s t h
  cases t
  simpa only [State.mk.injEq, true_and, and_true] using frame

end Sys2Proof.Machine

open Sys2Proof.Machine in
/-- Settles O57: one lemma for each piece of a period's work, with the fields its command leaves alone. -/
theorem periodWork : Obligations.PeriodWork := by
  unfold Obligations.PeriodWork
  intro s hs
  refine ⟨fun hst => ?loops, fun ht => ?deadline, fun h hh hst hm => ⟨?sorted, fun hb he => ?failed⟩,
    fun f hf hl hst hm => ?mapping, fun f west r hr hf => ⟨fun tg train hb => ?returned, fun tg train hb hl => ?ignored, ?lost⟩⟩
  case loops =>
    intro u
    obtain ⟨t, ht, htb, hstarted, hat, hdone⟩ := execAtriumLoopStart_starts hs hst
    have frame := execAtriumLoopStart_frame s t ht
    exact ⟨t, ht, hstarted, hat, hdone, by simp only [SameRegisters, frame, and_self], by simp only [SameGallery, frame, implies_true],
      htb, by simp only [frame]⟩
  case deadline =>
    obtain ⟨t, ht, htb, hmiss, hdone⟩ := execAtriumDeadline_judges hs ht
    exact ⟨t, ht, htb, hmiss, hdone, eq_of_execAtriumDeadline ht⟩
  case sorted =>
    obtain ⟨t, ht, hsorted, herr⟩ := execHallSort_sorted hh hst hm
    have frame := execHallSort_frame _ _ s t ht
    exact ⟨t, ht, hsorted, herr, by simp only [SameRegisters, frame, and_self], by simp only [SameGallery, frame, implies_true],
      by simp only [frame]⟩
  case failed =>
    obtain ⟨t, ht, ⟨⟨hsorted, horder, herr⟩, -⟩, hpend⟩ := execHallSort_failed hs hh hst hm hb he
    have frame := execHallSort_frame _ _ s t ht
    exact ⟨t, ht, hsorted, herr, hpend, horder, by simp only [SameRegisters, frame, and_self],
      by simp only [SameGallery, frame, implies_true]⟩
  case mapping =>
    intro h hsort
    obtain ⟨t, ht, hmapped, hmapping⟩ := execStageMapping_maps hf hl hst hm hsort
    have frame := execStageMapping_frame _ s t ht
    exact ⟨t, ht, hmapped, hmapping, by simp only [SameRegisters, frame, and_self], by simp only [SameGallery, frame, implies_true],
      by simp only [frame]⟩
  case returned =>
    obtain ⟨t, ht, hout⟩ := execGatherReturn_taken tg train hr hf hb
    have frame := execGatherReturn_frame _ _ _ _ s t ht
    exact ⟨t, ht, hout, by simp only [SameRegisters, frame, and_self], by simp only [SameGallery, frame, implies_true],
      by simp only [frame]⟩
  case ignored => exact execGatherReturn_ignored tg train hr hb hl
  case lost =>
    obtain ⟨t, ht, hout, hlost, htb⟩ := execGatherLost_noted hr hf
    have frame := execGatherLost_frame _ _ s t ht
    exact ⟨t, ht, hout, hlost, htb, by simp only [SameRegisters, frame, and_self], by simp only [SameGallery, frame, implies_true]⟩

end

section
/-! The rings: breaks, alarms, surveys and probes (R132, R135, R141 to R149). -/

namespace Sys2Proof.Machine

open Sys2Proof

section

variable {s : State} {f : Fin 9}

/-! Breaks. -/

/-- One break cuts no cell off. -/
theorem cutOff_single (n hop : Nat) : cutOff n [hop] = [] := by
  have between : ∀ j < n, ¬ (min n hop ≤ j ∧ j < max 0 hop) := by omega
  simpa [cutOff] using between

/-- The ring's own record of a break, with its event (R146). -/
def noteBreak (f hop : Nat) (s : State) : State :=
  raise (128 + f) (BitVec.ofNat 32 hop) (s.setFlight f fun x => { x with
    breaks := hop :: x.breaks, breakHop := hop, declared := true, unwrapAt := none, due := (hop, s.now + 1000) :: x.due
    reroute := x.reroute || (s.flight f).breaks.isEmpty
    rerouteOf := if (s.flight f).breaks.isEmpty then [] else x.rerouteOf })

/-- The cells that a break cuts off anew. -/
def newlyCut (f hop : Nat) (s : State) : List Nat :=
  (cutOff (s.ctCount f) (hop :: (s.flight f).breaks)).filter fun j => !(cutOff (s.ctCount f) (s.flight f).breaks).contains j

theorem breakAt_eq (f hop : Nat) (s : State) (hu : s.ringUp f = true) (hn : (s.flight f).breaks.contains hop = false) :
    breakAt f hop s = if (noteBreak f hop s).standby then noteBreak f hop s
      else tellBreak f (s.now + 1000) (each (newlyCut f hop s) (fun j => decideClass (7 * f + j) 7 6) (noteBreak f hop s)) := by
  have runs : ¬ ((!s.ringUp f || (s.flight f).breaks.contains hop) = true) := by rw [hu, hn]; decide
  unfold breakAt
  extract_lets x
  rw [if_neg runs]
  rfl

theorem noteBreak_standby (f hop : Nat) (s : State) : (noteBreak f hop s).standby = s.standby := by
  simp [State.standby, noteBreak]

theorem newlyCut_first {f : Nat} (hop : Nat) {s : State} (h : (s.flight f).breaks = []) : newlyCut f hop s = [] := by
  simp [newlyCut, h, cutOff_single]

/-- The flight's breaks after one at a hop, and its event. -/
def Broken (f : Nat) (b : List Nat) (s : State) : Prop := (s.flight f).breaks = b ∧ (s.evt (128 + f)).pend = true

theorem broken_decisionKeeps (f : Nat) (b : List Nat) : DecisionKeeps (Broken f b) :=
  .and (.flight f (P := fun x => x.breaks = b) fun _ _ h => h) (.pend (128 + f))

theorem noteBreak_broken (hs : s.Runs) (hop : Nat) : Broken f.val (hop :: (s.flight f.val).breaks) (noteBreak f.val hop s) := by
  refine ⟨?_, raise_pend_same _ hs (by omega)⟩
  simp only [noteBreak, State.flight, raise_frame]
  exact congrArg Flight.breaks (setFlight_flight_same s f.val _ f.isLt)

/-- A break at a new hop wraps the ring (R146, R147). -/
theorem breakAt_broken (hs : s.Runs) (hop : Nat) (hu : s.ringUp f.val = true) (hn : (s.flight f.val).breaks.contains hop = false) :
    Broken f.val (hop :: (s.flight f.val).breaks) (breakAt f.val hop s) := by
  have keeps := broken_decisionKeeps f.val (hop :: (s.flight f.val).breaks)
  have noted := noteBreak_broken (f := f) hs hop
  rw [breakAt_eq _ _ _ hu hn]
  split
  · exact noted
  · have decided : Broken f.val _ (each (newlyCut f.val hop s) (fun j => decideClass (7 * f.val + j) 7 6) (noteBreak f.val hop s)) :=
      each_inv _ _ _ (fun j _ => keeps.decideClass (7 * f.val + j) 7 6) noted
    unfold tellBreak
    split
    · exact keeps.emit _ _ decided
    · exact decided

theorem noteBreak_others (f hop : Nat) (s : State) :
    (∀ g, g ≠ f → (noteBreak f hop s).flight g = s.flight g) ∧ (noteBreak f hop s).cells = s.cells := by
  refine ⟨fun g hg => ?_, by simp [noteBreak]⟩
  simp only [noteBreak, State.flight, raise_frame]
  exact setFlight_flight_ne s f g _ (Ne.symm hg)

/-- A first break, or one the standby device finds, decides on no cell. -/
theorem breakAt_others {f hop : Nat} (hu : s.ringUp f = true) (hn : (s.flight f).breaks.contains hop = false)
    (h : (s.flight f).breaks = [] ∨ s.standby = true) :
    (∀ g, g ≠ f → (breakAt f hop s).flight g = s.flight g) ∧ (breakAt f hop s).cells = s.cells := by
  obtain ⟨hflights, hcells⟩ := noteBreak_others f hop s
  rw [breakAt_eq _ _ _ hu hn, noteBreak_standby]
  split
  · exact ⟨hflights, hcells⟩
  · next hb =>
    rw [newlyCut_first hop (h.resolve_right hb)]
    have told : ∀ t u, (tellBreak f t (each [] (fun j => decideClass (7 * f + j) 7 6) u)).flights = u.flights ∧
        (tellBreak f t (each [] (fun j => decideClass (7 * f + j) 7 6) u)).cells = u.cells := fun t u => by simp [each]
    obtain ⟨tf, tc⟩ := told (s.now + 1000) (noteBreak f hop s)
    exact ⟨fun g hg => by simpa only [State.flight, tf] using hflights g hg, tc.trans hcells⟩

/-! Alarms. -/

/-- An alarm's cell keeps its record of alarms through what the alarm brings about. -/
theorem alarm_alms {k : Nat} (cls : Nat) {l : List (Nat × Nat)} (h : ((noteAlarm k cls s).cell k).alms = l) :
    ((alarm k cls s).cell k).alms = l := by
  have keeps := DecisionKeeps.alms k l
  have counted : ∀ u : State, (u.cell k).alms = l → ((countSc k u).cell k).alms = l := fun u hu => by
    unfold countSc
    extract_lets g t v
    have noted : (v.cell k).alms = l := hu
    split
    · exact keeps.hallError g 5 noted noted
    · exact noted
  have restored : ∀ u : State, (u.cell k).alms = l → ((restoreFail k u).cell k).alms = l := fun u hu => by
    unfold restoreFail restoreEnds
    exact keeps.raise _ _ _ (keeps.cell k _ _ (fun _ => rfl) (keeps.sendDecision _ hu))
  unfold alarm
  extract_lets u v
  split
  · exact h
  · split
    · exact restored u h
    · have decided : (v.cell k).alms = l := keeps.decideClass k cls 1 h
      split
      · exact counted v decided
      · exact decided

/-- An alarm on the break class finds a break, which keeps the cell's record. -/
theorem breakAt_alms {k : Nat} {l : List (Nat × Nat)} (g hop : Nat) (h : (s.cell k).alms = l) :
    ((breakAt g hop s).cell k).alms = l :=
  (DecisionKeeps.alms k l).breakAt g hop (fun _ _ _ _ h => h) h

theorem almCell_lt {j : Nat} (hj : j < 7) : 7 * f.val + j < 63 := by omega

theorem noteAlarm_alms {k : Nat} (cls : Nat) (hk : k < 63) : ((noteAlarm k cls s).cell k).alms =
    (cls, s.now) :: (s.cell k).alms.filter fun a => decide (s.now ≤ a.2 + 10000) := by
  simp only [noteAlarm, setCell_cell_same _ _ _ hk]

/-- An alarm of a class and position in the list that the cell has not had (R135): a break for class 7, else a decision. -/
def takeAlarm (f : Fin 9) (k cls hop : Nat) (s : State) : State :=
  if cls = 7 then unlessStandby (breakAt f.val hop) (noteAlarm k cls s) else alarm k cls s

theorem takeAlarm_alms {k : Nat} (cls hop : Nat) (hk : k < 63) : ((takeAlarm f k cls hop s).cell k).alms =
    (cls, s.now) :: (s.cell k).alms.filter fun a => decide (s.now ≤ a.2 + 10000) := by
  have noted := noteAlarm_alms (s := s) cls hk
  unfold takeAlarm
  split
  · exact unlessStandby_keeps (Q := fun u => (u.cell k).alms = (cls, s.now) ::
      (s.cell k).alms.filter fun a => decide (s.now ≤ a.2 + 10000)) (fun u hu => breakAt_alms f.val hop hu) noted
  · exact alarm_alms cls noted

/-- Two updates of a part that agree on it are one. -/
theorem vmod_congr {α : Type} {n : Nat} {v : Vector α n} {i : Nat} {g g' : α → α} (d : α) (h : g (vget v i d) = g' (vget v i d)) :
    vmod v i g = vmod v i g' := by
  unfold vmod
  split
  · next hi =>
    have same : vget v i d = v[i] := by simp [vget, hi]
    rw [← same, h]
  · rfl

theorem setCell_congr {k : Nat} {g g' : Cell → Cell} (h : g (s.cell k) = g' (s.cell k)) : s.setCell k g = s.setCell k g' := by
  rw [State.setCell, vmod_congr {} h, State.setCell]

/-- The standby device notes the alarm alone. -/
theorem takeAlarm_standby {k : Nat} (cls hop : Nat) (hb : s.standby = true) : takeAlarm f k cls hop s = noteAlarm k cls s := by
  unfold takeAlarm
  split
  · exact if_pos hb
  · exact if_pos hb

theorem takeAlarm_broken {k hop : Nat} (hs : s.Runs) (hb : s.standby = false) (hu : s.ringUp f.val = true)
    (hn : (s.flight f.val).breaks.contains hop = false) :
    Broken f.val (hop :: (s.flight f.val).breaks) (takeAlarm f k 7 hop s) := by
  have hby : ¬ ((noteAlarm k 7 s).standby = true) := by simp [show (noteAlarm k 7 s).standby = s.standby from rfl, hb]
  rw [takeAlarm, if_pos rfl, unlessStandby, if_neg hby]
  exact breakAt_broken (s := noteAlarm k 7 s) hs hop hu hn

section

variable (west : Bool) {a1 a2 a3 : Byte}

theorem execAlmReceived_bad (hr : s.ringOn f.val = true) (ha : a3 ≠ ~~~(a1 ^^^ a2)) : execAlmReceived f west a1 a2 a3 s =
    .next (s.setFlight f.val fun x => { x with almErr := satInc 7 x.almErr }) := by
  simp only [execAlmReceived, hr, Bool.not_true, Bool.false_eq_true, if_false, if_pos ha]

theorem execAlmReceived_ignored (hr : s.ringOn f.val = true) (ha : a3 = ~~~(a1 ^^^ a2))
    (h : a1.toNat / 16 % 8 = 7 ∨ a2.toNat % 128 = 0 ∨ 7 < a2.toNat % 128 ∨
      s.hadAlarm (7 * f.val + a1.toNat / 16 % 8) (a2.toNat % 128) = true) : execAlmReceived f west a1 a2 a3 s = .next s := by
  simp only [execAlmReceived, hr, Bool.not_true, Bool.false_eq_true, if_false, if_neg (not_not.mpr ha)]
  split
  · rfl
  · next listed =>
    have had : s.hadAlarm (7 * f.val + a1.toNat / 16 % 8) (a2.toNat % 128) = true := by tauto
    rw [if_pos had]

theorem execAlmReceived_taken (hr : s.ringOn f.val = true) (ha : a3 = ~~~(a1 ^^^ a2)) (hj : a1.toNat / 16 % 8 < 7)
    (hc : 0 < a2.toNat % 128) (hc7 : a2.toNat % 128 ≤ 7)
    (hh : s.hadAlarm (7 * f.val + a1.toNat / 16 % 8) (a2.toNat % 128) = false) : execAlmReceived f west a1 a2 a3 s =
      .next (takeAlarm f (7 * f.val + a1.toNat / 16 % 8) (a2.toNat % 128) (a1.toNat / 16 % 8 + a2.toNat / 128) s) := by
  have listed : ¬ (a1.toNat / 16 % 8 = 7 ∨ a2.toNat % 128 = 0 ∨ 7 < a2.toNat % 128) := by omega
  simp only [execAlmReceived, hr, Bool.not_true, Bool.false_eq_true, if_false, if_neg (not_not.mpr ha), if_neg listed, hh, takeAlarm]

end

/-! UNWRAP (R149) and the ports' receivers. -/

theorem execUnwrap_up (hf : s.fltOn f.val = true) (hw : (s.flight f.val).wrapped = true) (hp : s.portsUp f.val = true) :
    execUnwrap f s = .next (s.setFlight f.val fun x => { x with
      unwrapAt := some (s.landingFrom (s.now + 2 * s.grid.tc)).1 }) := by
  simp only [execUnwrap, unwrapRing, hf, hw, hp, if_true, Bool.not_true, Bool.false_eq_true, if_false]

theorem execUnwrap_refused (hf : s.fltOn f.val = true) (hw : (s.flight f.val).wrapped = true) (hp : s.portsUp f.val = false) :
    execUnwrap f s = .next (s.setFlight f.val fun x => { x with unwrapRef := true }) := by
  simp only [execUnwrap, unwrapRing, hf, hw, hp, if_true, Bool.not_true, Bool.false_eq_true, if_false]

theorem execRingPortReceiverChange_cells (west up : Bool) (hf : s.fltOn f.val = true) (hn : s.ctCount f.val ≠ 0) :
    execRingPortReceiverChange f west up s =
      .next (s.setFlight f.val fun x => if west then { x with westUp := up } else { x with eastUp := up }) := by
  simp [execRingPortReceiverChange, hf, hn]

theorem execRingPortReceiverChange_empty (west up : Bool) (hn : s.ctCount f.val = 0) :
    execRingPortReceiverChange f west up s = .next s := by
  simp [execRingPortReceiverChange, hn]

/-! Surveys (R145). -/

theorem surveyGo_badParam {g : Nat} {v : Word} (h : s.ctCount g ≤ fld v 0 3) : surveyGo g v s = (.badParam, s) := by
  unfold surveyGo
  exact if_pos h

/-- A survey waits for a ring whose cells all report the blocked state, and for the end of one that runs (log 94). -/
theorem surveyGo_state {g : Nat} {v : Word} (h : fld v 0 3 < s.ctCount g)
    (hb : (¬ ∀ i < s.ctCount g, fieldAt (s.cell (7 * g + i)).report 1 1 % 4 = 1) ∨ (s.flight g).survStep ≠ 0) :
    surveyGo g v s = (.state, s) := by
  unfold surveyGo
  extract_lets n j blocked
  have all : (blocked = true) ↔ ∀ i < s.ctCount g, fieldAt (s.cell (7 * g + i)).report 1 1 % 4 = 1 := by simp [blocked, n]
  have refused : (!blocked) = true ∨ (s.flight g).survStep ≠ 0 := by
    rw [Bool.not_eq_true', Bool.eq_false_iff, Ne, all]
    exact hb
  rw [if_neg (by omega), if_pos (by simpa using refused)]

theorem surveyGo_ok {g : Nat} {v : Word} (h : fld v 0 3 < s.ctCount g)
    (hb : ∀ i < s.ctCount g, fieldAt (s.cell (7 * g + i)).report 1 1 % 4 = 1) (hi : (s.flight g).survStep = 0) :
    surveyGo g v s = (.ok, s.setFlight g fun x => { x with
      survPos := fld v 0 3, survSide := bit v 8, survBusy := true, survStep := 1, survDone := false }) := by
  unfold surveyGo
  extract_lets n j blocked
  have all : blocked = true := by simpa [blocked, n] using hb
  rw [if_neg (by omega), if_neg (by simp [all, hi])]

theorem execFltSurveyGo_eq (hf : s.fltOn f.val = true) (v : Word) : execFltSurveyGo f v s =
    .next (if (surveyGo f.val v s).1 = .ok then (surveyGo f.val v s).2 else refuse (surveyGo f.val v s).1 s) := by
  simp only [execFltSurveyGo, hf, Bool.not_true, Bool.false_eq_true, if_false]

theorem execSurveyDone_kept (loop : Word) (hf : s.fltOn f.val = true) (h : (s.flight f.val).survStep = 3) :
    execSurveyDone f loop s = .next (s.setFlight f.val fun x => { x with
      survBusy := false, survStep := 4, survDone := true, survRes := loop }) := by
  simp only [execSurveyDone, hf, h, beq_self_eq_true, Bool.and_self, if_true]

theorem execSurveyDone_early (loop : Word) (h : (s.flight f.val).survStep ≠ 3) : execSurveyDone f loop s = .next s := by
  simp [execSurveyDone, h]

/-! Probes (R141, R142). -/

/-- What `noteK` may write of its flight: the scales of the two segments (R143). -/
theorem noteK_flight (r : Route) (u : State) : (noteK f.val r u).flight f.val = { u.flight f.val with
    kEast := ((noteK f.val r u).flight f.val).kEast, kWest := ((noteK f.val r u).flight f.val).kWest } := by
  unfold noteK
  split
  · rw [setFlight_flight_same _ _ _ f.isLt]
    split <;> rfl
  · rfl

theorem noteK_flight_ne {g : Nat} (r : Route) (u : State) (hg : g ≠ f.val) : (noteK f.val r u).flight g = u.flight g := by
  unfold noteK
  split
  · exact setFlight_flight_ne _ _ _ _ (Ne.symm hg)
  · rfl

theorem noteK_eq (g : Nat) (r : Route) (u : State) : noteK g r u = { u with flights := (noteK g r u).flights } := by
  unfold noteK
  split <;> rfl

/-- The state whose loop sum is taken from the probe's own delay and the period's own gather's. -/
def probed (f : Nat) (r : Route) (m : Nat) (s : State) : State :=
  s.setFlight f fun x => takeSum r m { x with ewDelay := none }

theorem execPrbArrival_taken {we ew : Nat} {r : Route} (hr : (routes f.val s).find? (fun r => r.whole) = some r)
    (hf : s.ringOn f.val = true) (hl : s.aon.straps.role = 0 ∨ s.linkUp = true) (hew : (s.flight f.val).ewDelay = some ew) :
    execPrbArrival f we s = .next (noteK f.val r (probed f.val r (ew + we) s)) := by
  have linked : (s.ringOn f.val && (s.aon.straps.role == 0 || s.linkUp)) = true := by simpa [hf] using hl
  simp only [execPrbArrival, hr, hew, if_pos linked, probed]

theorem execPrbArrival_ignored {we : Nat} (h : (s.flight f.val).ewDelay = none ∨ (s.aon.straps.role ≠ 0 ∧ s.linkUp = false)) :
    execPrbArrival f we s = .next s := by
  unfold execPrbArrival
  rcases h with h | ⟨hrole, hlink⟩
  · rw [h]
    split <;> rfl
  · have unlinked : ¬ ((s.ringOn f.val && (s.aon.straps.role == 0 || s.linkUp)) = true) := by simp [hrole, hlink]
    simp only [if_neg unlinked]
    split
    · split <;> rfl
    · rfl

end

end Sys2Proof.Machine

open Sys2Proof.Machine in
/-- Settles O58: each event by the lemma that says what its command does. -/
theorem ringEvents : Obligations.RingEvents := by
  unfold Obligations.RingEvents
  intro s f hs hf
  refine ⟨fun hw => ⟨fun hp => ?unwrap, fun hp => ?unwrapRefused⟩,
    fun v => ⟨fun hj => ?badParam, fun hj => ⟨fun hb hi => ?go, fun h => ?state⟩⟩,
    fun loop => ⟨fun h => ?done, fun h => ?early⟩, fun west a1 a2 a3 hr => ⟨fun ha => ?badCheck, fun ha =>
      ⟨fun h => ?ignored, fun hj hc hc7 hh => ⟨?noted, fun hb => ?standby, fun h7 hb hu hn => ?broken⟩⟩⟩,
    fun west hu => ?ldn, fun we ew r hr hring hl hew => ?probe, fun we h => ?noProbe,
    fun west up => ⟨fun hn => ?port, fun hn => ?noPort⟩⟩
  case unwrap => exact execUnwrap_up hf hw hp
  case unwrapRefused => exact execUnwrap_refused hf hw hp
  case badParam =>
    refine (execFltSurveyGo_eq hf v).trans ?_
    rw [surveyGo_badParam hj]
    rfl
  case go =>
    refine (execFltSurveyGo_eq hf v).trans ?_
    rw [surveyGo_ok hj hb hi]
    rfl
  case state =>
    refine (execFltSurveyGo_eq hf v).trans ?_
    rw [surveyGo_state hj h]
    rfl
  case done => exact execSurveyDone_kept loop hf h
  case early => exact execSurveyDone_early loop h
  case badCheck => exact execAlmReceived_bad west hr ha
  case ignored => exact execAlmReceived_ignored west hr ha h
  case noted =>
    have taken := execAlmReceived_taken west hr ha hj hc hc7 hh
    have frame := execAlmReceived_frame f west a1 a2 a3 s _ taken
    exact ⟨_, taken, takeAlarm_alms _ _ (almCell_lt hj), by simp only [SameRegisters, frame, and_self],
      by simp only [SameGallery, frame, implies_true], by simp only [frame]⟩
  case standby =>
    refine (execAlmReceived_taken west hr ha hj hc hc7 hh).trans ?_
    rw [takeAlarm_standby _ _ hb]
    exact congrArg _ (setCell_congr rfl)
  case broken =>
    have taken := execAlmReceived_taken west hr ha hj hc hc7 hh
    rw [h7] at taken
    obtain ⟨hbreaks, hpend⟩ := takeAlarm_broken (k := 7 * f.val + a1.toNat / 16 % 8) hs hb hu hn
    exact ⟨_, taken, hbreaks, hpend⟩
  case ldn =>
    intro hop hn
    have taken : execLdnReceived f west s = .next (breakAt f.val hop s) := congrArg _ (if_pos hs)
    have frame := execLdnReceived_frame f west s _ taken
    obtain ⟨hbreaks, hpend⟩ := breakAt_broken hs hop hu hn
    exact ⟨_, taken, hbreaks, hpend, breakAt_others hu hn, by simp only [SameRegisters, frame, and_self],
      by simp only [SameGallery, frame, implies_true]⟩
  case probe =>
    refine ⟨_, execPrbArrival_taken hr hring hl hew, fun x hx => ?_, fun g hg => ?_, ?_⟩
    · have own : (probed f.val r (ew + we) s).flight f.val = x := by
        rw [probed, setFlight_flight_same _ _ _ f.isLt, hx]
      have kept := noteK_flight (f := f) r (probed f.val r (ew + we) s)
      rw [own] at kept
      exact ⟨by rw [kept]; rfl, by rw [kept], kept⟩
    · rw [noteK_flight_ne r _ hg, probed, setFlight_flight_ne _ _ _ _ (Ne.symm hg)]
    · exact noteK_eq f.val r (probed f.val r (ew + we) s)
  case noProbe => exact execPrbArrival_ignored h
  case port => exact execRingPortReceiverChange_cells west up hf hn
  case noPort => exact execRingPortReceiverChange_empty west up hn

end

section
/-! The count of the time base (R53, R54, R56): one sum modulo 96 bits under every tick, and the fire tick of an instant. -/

namespace Sys2Proof.Machine

open Sys2Proof

variable {s : State}

/-- The two parts that TB is kept in make its count modulo 96 bits. -/
theorem tb_parts (n : Nat) :
    (BitVec.ofNat 64 (n / 2 ^ 32)).toNat * 2 ^ 32 + (BitVec.ofNat 32 n).toNat = n % 2 ^ 96 := by
  simp only [BitVec.toNat_ofNat]
  omega

theorem addTb_tbAll (d : Nat) (s : State) : (s.addTb d).tbAll = (s.tbAll + d) % 2 ^ 96 := tb_parts _

theorem tick_on (h : s.isOn .timebase = true) : tick s = s.addTb s.tb.incr.toNat := if_pos h

theorem tick_off (h : s.isOn .timebase = false) : tick s = s := by simp [tick, h]

theorem tick_eq (s : State) : tick s = { s with tb := { s.tb with ns := (tick s).tb.ns, frac := (tick s).tb.frac } } := by
  unfold tick
  split <;> rfl

theorem advanceTo_eq (n : Nat) (s : State) :
    advanceTo n s = { s with tb := { s.tb with ns := (advanceTo n s).tb.ns, frac := (advanceTo n s).tb.frac } } := by
  unfold advanceTo
  dsimp only
  split <;> rfl

/-- The ticks from the count `a` to the first one at or beyond `goal`, each of `i`. -/
def ticksTo (goal a i : Nat) : Nat := (goal - a + i - 1) / i

theorem ticksTo_reaches {goal a i : Nat} (hi : 0 < i) : goal ≤ a + ticksTo goal a i * i := by
  have whole := Nat.div_add_mod (goal - a + i - 1) i
  have rest := Nat.mod_lt (goal - a + i - 1) hi
  unfold ticksTo
  rw [Nat.mul_comm]
  omega

theorem ticksTo_first {goal a i : Nat} (hi : 0 < i) (h : a < goal) : a + ticksTo goal a i * i < goal + i := by
  have whole := Nat.div_mul_le_self (goal - a + i - 1) i
  unfold ticksTo
  omega

theorem advanceTo_later {n : Nat} (hs : s.isOn .timebase = true) (hi : 0 < s.tb.incr.toNat) (h : s.tbAll < n * 2 ^ 32) :
    advanceTo n s = s.addTb (ticksTo (n * 2 ^ 32) s.tbAll s.tb.incr.toNat * s.tb.incr.toNat) := by
  unfold advanceTo
  exact if_pos (by simp only [hs, decide_eq_true h, decide_eq_true hi, Bool.and_self])

theorem now_of_tbAll {n : Nat} (h : n * 2 ^ 32 ≤ s.tbAll) : n ≤ s.now := by
  have part := s.tb.frac.isLt
  unfold State.tbAll at h
  unfold State.now
  omega

end Sys2Proof.Machine

open Sys2Proof.Machine in
/-- Settles O2: the step is the tick, whose count is one sum modulo 96 bits. -/
theorem emptyQueueTicks : Obligations.EmptyQueueTicks := by
  unfold Obligations.EmptyQueueTicks
  intro s hq
  have ticks : step s = .next (tick s) := by simp [step, hq]
  refine ⟨fun hoff => ?off, fun hon => ⟨_, ticks, tick_eq s, ?on⟩⟩
  case off => rw [ticks, tick_off hoff]
  case on => rw [tick_on hon, addTb_tbAll]

open Sys2Proof.Machine in
/-- Settles O16: the ticks that the advance makes are the least that reach the instant, and 96 bits hold their sum. -/
theorem fireTick : Obligations.FireTick := by
  unfold Obligations.FireTick
  intro s t hs hi hlt hfit
  have fits : t * 2 ^ 32 + s.tb.incr.toNat < 2 ^ 96 := by
    have rate := s.tb.incr.isLt
    omega
  have reached : t * 2 ^ 32 ≤ _ := ticksTo_reaches hi (a := s.tbAll)
  have first := ticksTo_first hi hlt
  have count : (advanceTo t s).tbAll = s.tbAll + ticksTo (t * 2 ^ 32) s.tbAll s.tb.incr.toNat * s.tb.incr.toNat := by
    rw [advanceTo_later hs hi hlt, addTb_tbAll]
    exact Nat.mod_eq_of_lt (first.trans fits)
  refine ⟨now_of_tbAll ?_, ?_, ⟨_, count⟩, advanceTo_eq t s⟩
  · rwa [count]
  · rwa [count]
end

section
/-! Reads and rates of the time base, its steps (R58 to R63), and the PLL outputs (R78 to R81). -/

namespace Sys2Proof.Machine

open Sys2Proof

variable {s : State}

theorem command_runs (hs : s.Runs) (f : State → State) {b : Bool} (hb : b = true) : command b f s = f s := by
  rw [hb, command_run f s hs]

/-! A host's write that reaches one unit. -/

theorem firstStatus_ok (x : Status) : firstStatus .ok x = x := by cases x <;> rfl

/-- A write of one unit's words that the unit refuses leaves the state as it is (R520). -/
theorem cfgWrite_refused {ws : List (Nat × Word)} {b : Nat} {x : Status} (hx : x ≠ .ok)
    (hws : (ws.map fun y => writeStatus y.1 s).foldl firstStatus .ok = .ok) (hu : inWriteOrder (units ws) = [(b, ws)])
    (hw : (writeUnit b ws s).1 = x) : cfgWrite ws s = (x, s) := by
  unfold cfgWrite
  rw [hws, hu]
  simp only [List.foldl_cons, List.foldl_nil, firstStatus_ok, hw, if_neg hx]

/-- CFG_WRITE of words that the write refuses, from an address that is a multiple of 4 (R520). -/
theorem execCfgWrite_refused {a : Word} {w : List Word} {ws : List (Nat × Word)} {x : Status} (hs : s.Runs)
    (hw : 1 ≤ w.length) (hl : w.length < 1020) (ha : fld a 0 24 % 4 = 0)
    (hws : w.mapIdx (fun i v => (fld a 0 24 + 4 * i, v)) = ws) (hr : cfgWrite ws s = (x, s)) :
    execCfgWrite (a :: w) s = .next (refuse x s) := by
  have len : (decide (2 ≤ (a :: w).length) && decide ((a :: w).length ≤ 1020)) = true := by simp [hw, hl]
  have base : fld a 0 24 / 4 * 4 = fld a 0 24 := by omega
  simp only [execCfgWrite, command_runs hs _ len, wd, List.getD_cons_zero, List.tail_cons, ha, base, hws, hr, ne_eq,
    not_true_eq_false, if_false]

/-- A register of the time base takes writes while TIMEBASE is ON. -/
theorem writeStatus_timebase {a : Nat} (hs : s.isOn .timebase = true) (hlo : 0x10000 ≤ a) (hhi : a < 0x20000)
    (ha : a % 4 = 0) (hr : (tbDef a).isSome = true) : writeStatus a s = .ok := by
  have owner : ownerOf a = some (.dom .timebase) := by
    unfold ownerOf
    simp only [if_pos hhi, show ¬ a < 0x200 by omega, show ¬ a < 0x300 by omega, show ¬ a < 0x400 by omega,
      show ¬ a < 0x840 by omega, show ¬ a < 0x10000 by omega, if_false]
  have listed : (regDef s.aon.straps a).isSome = true := by
    unfold regDef
    rwa [if_neg (by omega), if_neg (by omega), if_neg (by omega), if_pos ⟨hlo, hhi⟩]
  unfold writeStatus
  rw [if_neg (by omega), owner]
  simp only [State.ownerOn, hs, listed, show ¬ (0x30000 ≤ a ∧ a < 0x30100) by omega, Bool.not_true, Bool.false_eq_true,
    if_true, if_false]

/-! TB_INCR (R59 to R61). -/

theorem setIncr_taken {v : Nat} (hlo : 0x01FF7CED92 ≤ v) (hhi : v ≤ 0x020083126E) (hs : s.servoOwns = false) :
    setIncr v s = (.ok, { s with tb := { s.tb with incr := BitVec.ofNat 40 v } }) := by
  simp [setIncr, incrOk, hlo, hhi, hs]

theorem setIncr_range {v : Nat} (hv : v < 0x01FF7CED92 ∨ 0x020083126E < v) : setIncr v s = (.range, s) := by
  have out : incrOk v = false := by
    unfold incrOk
    rcases hv with h | h
    · rw [decide_eq_false (by omega), Bool.false_and]
    · rw [decide_eq_false (p := v ≤ _) (by omega), Bool.and_false]
  simp [setIncr, out]

theorem setIncr_state {v : Nat} (hlo : 0x01FF7CED92 ≤ v) (hhi : v ≤ 0x020083126E) (hs : s.servoOwns = true) :
    setIncr v s = (.state, s) := by
  simp [setIncr, incrOk, hlo, hhi, hs]

/-- The rate that the two words of TB_INCR bring. -/
def rateOf (lo hi : Word) : Nat := lo.toNat + fld hi 0 8 * 2 ^ 32

theorem execTbIncr_refused {lo hi : Word} {x : Status} (hs : s.Runs) (h : setIncr (rateOf lo hi) s = (x, s)) :
    execTbIncr [lo, hi] s = .next (refuse x s) := by
  rw [execTbIncr, command_runs hs _ (by rfl)]
  exact congrArg (fun r : Status × State => Host.Outcome.next (refuse r.1 r.2)) h

theorem execTbIncr_taken {lo hi : Word} (hs : s.Runs) (hlo : 0x01FF7CED92 ≤ rateOf lo hi) (hhi : rateOf lo hi ≤ 0x020083126E)
    (ho : s.servoOwns = false) : execTbIncr [lo, hi] s =
      .next (refuse .ok { s with tb := { s.tb with incr := BitVec.ofNat 40 (rateOf lo hi) } }) := by
  rw [execTbIncr, command_runs hs _ (by rfl)]
  exact congrArg (fun r : Status × State => Host.Outcome.next (refuse r.1 r.2)) (setIncr_taken hlo hhi ho)

theorem cfgWrite_tbIncr_range {lo hi : Word} (hs : s.isOn .timebase = true)
    (hv : rateOf lo hi < 0x01FF7CED92 ∨ 0x020083126E < rateOf lo hi) :
    cfgWrite [(0x10010, lo), (0x10014, hi)] s = (.range, s) := by
  refine cfgWrite_refused (b := 0x10010) (by decide) ?_ (by simp [units, unitBase, inWriteOrder, clearsOnly]) ?_
  · simp [writeStatus_timebase hs, tbDef, roDef, firstStatus_ok]
  · have rate := setIncr_range (s := s) hv
    simpa [writeUnit, writeIncr, touches, wordOr, rateOf] using congrArg Prod.fst rate

/-! TB_ADJ (R62 to R64). -/

theorem adjOk_iff : adjOk s = true ↔ s.servoOwns = false ∧ s.anyHallOn = false := by simp [adjOk]

theorem execTbAdj_stepped (frac lo hi : Word) (hs : s.Runs) (ha : adjOk s = true) :
    let t := tbStep (adjStep frac lo hi) s
    execTbAdj [frac, lo, hi] s = .next (reply .ok [lowW t.tb.ns, highW t.tb.ns] t) := by
  rw [execTbAdj, command_runs hs _ (by rfl), ha]
  rfl

theorem execTbAdj_state (frac lo hi : Word) (hs : s.Runs) (ha : adjOk s = false) :
    execTbAdj [frac, lo, hi] s = .next (refuse .state s) := by
  rw [execTbAdj, command_runs hs _ (by rfl), ha]
  rfl

theorem cfgWrite_tbAdj_state (frac lo hi : Word) (hs : s.isOn .timebase = true) (ha : adjOk s = false) :
    cfgWrite [(0x10018, frac), (0x1001C, lo), (0x10020, hi)] s = (.state, s) := by
  refine cfgWrite_refused (b := 0x10018) (by decide) ?_ (by simp [units, unitBase, inWriteOrder, clearsOnly]) ?_
  · simp [writeStatus_timebase hs, tbDef, roDef, firstStatus_ok]
  · simp [writeUnit, writeAdj, ha]

/-- The count that a step leads to: TB_INCR and the step added, modulo 96 bits (R62). -/
def steppedTo (delta : Int) (s : State) : Nat := (((s.tbAll + s.tb.incr.toNat : Nat) : Int) + delta).emod (2 ^ 96 : Nat) |>.toNat

theorem steppedTo_eq (delta : Int) (s : State) :
    (steppedTo delta s : Int) = ((s.tbAll + s.tb.incr.toNat : Int) + delta) % 2 ^ 96 :=
  Int.toNat_of_nonneg (Int.emod_nonneg _ (by decide))

theorem steppedTo_lt (delta : Int) (s : State) : steppedTo delta s < 2 ^ 96 := by
  have bound : (steppedTo delta s : Int) < 2 ^ 96 := steppedTo_eq delta s ▸ Int.emod_lt_of_pos _ (by decide)
  exact_mod_cast bound

/-- A step changes the count, and what follows from the step, and raises event 172 last. -/
theorem tbStep_raises (delta : Int) (hs : s.isOn .timebase = true) : ∃ u, tbStep delta s = raise 172 0 u ∧
    u.aon = s.aon ∧ u.events = s.events ∧ u.tbAll = steppedTo delta s := by
  have count := tb_parts (steppedTo delta s)
  rw [Nat.mod_eq_of_lt (steppedTo_lt delta s)] at count
  unfold tbStep
  rw [if_neg (by simp [hs])]
  refine ⟨_, rfl, ?_, ?_, ?_⟩
  · split <;> split <;> rfl
  · split <;> split <;> rfl
  · split <;> split <;> exact count

theorem raise_tbAll (e : Nat) (w : Word) (s : State) : (raise e w s).tbAll = s.tbAll := by simp [State.tbAll]

theorem tbStep_tbAll (delta : Int) (hs : s.isOn .timebase = true) : (tbStep delta s).tbAll = steppedTo delta s := by
  obtain ⟨u, hu, -, -, htb⟩ := tbStep_raises delta hs
  rw [hu, raise_tbAll, htb]

theorem tbStep_pend (delta : Int) (hs : s.isOn .timebase = true) (ha : s.Runs) :
    ((tbStep delta s).evt 172).pend = true := by
  obtain ⟨u, hu, haon, -, -⟩ := tbStep_raises delta hs
  rw [hu]
  exact raise_pend_same 0 ((isOn_congr haon .atrium).trans ha) (by decide)

/-! PLL outputs (R78 to R81). -/

/-- The dividers that Table 02-4 allows for output `n`. -/
def dividerOk (n d : Nat) : Bool := if n < 2 then decide (16 ≤ d) else decide (100 ≤ d) && decide (d ≤ 500)

theorem pllWrite_eq (n : Nat) (v : Word) (s : State) : pllWrite n v s = if dividerOk n (fld v 0 16) then
    (.ok, { s with tb := { s.tb with pllPend := vset s.tb.pllPend n ⟨bit v 31, fld v 0 16⟩ } }) else (.range, s) := by
  have refused : (if n < 2 then decide (fld v 0 16 < 16) else decide (fld v 0 16 < 100) || decide (500 < fld v 0 16)) =
      !dividerOk n (fld v 0 16) := by
    unfold dividerOk
    split <;> simp only [Bool.not_and, ← decide_not, Nat.not_le]
  simp only [pllWrite, refused]
  cases dividerOk n (fld v 0 16) <;> rfl

/-- One pair of PLL_SET is the write of its output. -/
theorem pllPairs_one {a : Word} (v : Word) (ha : a.toNat < 4) : pllPairs [a, v] s = pllWrite a.toNat v s := by
  have out : fld a 0 2 = a.toNat := by simp only [fld]; omega
  have last : ∀ x, firstStatus x .ok = x := fun x => by cases x <;> rfl
  simp only [pllPairs, if_neg (Nat.not_le.mpr ha), out, last]

theorem execPllSet_one {a : Word} (v : Word) (hs : s.Runs) (ha : a.toNat < 4) : execPllSet [a, v] s =
    .next (if dividerOk a.toNat (fld v 0 16) then reply .ok [] { s with
        tb := { s.tb with pllPend := vset s.tb.pllPend a.toNat ⟨bit v 31, fld v 0 16⟩ } }
      else refuse .range s) := by
  rw [execPllSet, command_runs hs _ (by simp), pllPairs_one v ha, pllWrite_eq]
  split <;> simp

theorem tick_pllPend (s : State) : (tick s).tb.pllPend = s.tb.pllPend := by rw [tick_eq]

theorem pllCommit_tb (s : State) : (pllCommit s).tb = { (tick s).tb with pllAct := s.tb.pllPend } := by
  have copied : (pllCommit s).tb = { (tick s).tb with pllAct := (tick s).tb.pllPend } :=
    each_tb _ _ _ fun d u => by dsimp only; split <;> rfl
  rw [copied, ← tick_pllPend s]

theorem pllCommit_eq (s : State) : pllCommit s = { s with tb := (pllCommit s).tb, meas := (pllCommit s).meas } := by
  have frame := pllCommit_frame s
  generalize pllCommit s = t at frame ⊢
  obtain ⟨⟩ := t
  simp only at frame
  simp only [frame]

theorem execPllCommit_on (hs : s.Runs) :
    execPllCommit [] s = .next (reply .ok [lowW (pllCommit s).tb.ns, highW (pllCommit s).tb.ns] (pllCommit s)) := by
  rw [execPllCommit, command_runs hs _ (by rfl)]

end Sys2Proof.Machine

open Sys2Proof.Machine in
/-- Settles O9, opcode by opcode: the latches copy, and a rate is taken or refused by what `setIncr` does with it. -/
theorem timeBaseReads : Obligations.TimeBaseReads := by
  unfold Obligations.TimeBaseReads
  refine ⟨fun s => ⟨fun hs => ?read, fun ht => ?latch, fun ht => ?stamp⟩, fun s lo hi hs =>
    ⟨fun hl hh ho => ?taken, fun hv => ?range, fun hv ht => ?write, fun hl hh ho => ?state⟩⟩
  case read => exact congrArg _ (command_run _ s hs)
  case latch => exact congrArg _ (if_pos ht)
  case stamp => exact congrArg _ (if_pos ht)
  case taken => exact execTbIncr_taken hs hl hh ho
  case range => exact execTbIncr_refused hs (setIncr_range hv)
  case write =>
    exact execCfgWrite_refused hs (by simp) (by simp) (by simp [fld]) (by simp [fld]) (cfgWrite_tbIncr_range ht hv)
  case state => exact execTbIncr_refused hs (setIncr_state hl hh ho)

open Sys2Proof.Machine in
/-- Settles O10: the step's count is `steppedTo`, and what `adjOk` refuses is refused by both ways of asking. -/
theorem timeBaseStep : Obligations.TimeBaseStep := by
  unfold Obligations.TimeBaseStep
  intro s frac lo hi hs ht
  refine ⟨fun ho hh => ?stepped, fun h => ?refused⟩
  case stepped =>
    have run := execTbAdj_stepped frac lo hi hs (adjOk_iff.mpr ⟨ho, hh⟩)
    have frame := execTbAdj_frame _ s _ run
    refine ⟨_, run, ?count, rfl, fun _ => tbStep_pend _ ht hs, ?_, ?_, ?_, ?_, ?_⟩
    case count => exact (congrArg Nat.cast (tbStep_tbAll _ ht)).trans (steppedTo_eq _ s)
    all_goals simp only [SameRegisters, SameGallery, frame, and_self, implies_true]
  case refused =>
    have no : adjOk s = false := by
      rw [Bool.eq_false_iff, Ne, adjOk_iff]
      rcases h with h | h <;> simp [h]
    exact ⟨execTbAdj_state frac lo hi hs no, execCfgWrite_refused hs (by simp) (by simp) (by simp [fld])
      (by simp [fld]) (cfgWrite_tbAdj_state frac lo hi ht no)⟩

open Sys2Proof.Machine in
/-- Settles O12: a pair of PLL_SET is one `pllWrite`, and PLL_COMMIT copies the pending dividers on its tick. -/
theorem pllOutputs : Obligations.PllOutputs := by
  unfold Obligations.PllOutputs
  refine ⟨fun s a v hs ha => ?set, fun s hs => ?commit⟩
  case set =>
    refine (execPllSet_one v hs ha).trans ?_
    rw [dividerOk]
    split <;> rfl
  case commit =>
    have copied := pllCommit_tb s
    have act : (pllCommit s).tb.pllAct = s.tb.pllPend := by rw [copied]
    have pend : (pllCommit s).tb.pllPend = s.tb.pllPend := by rw [copied]; exact tick_pllPend s
    have run := execPllCommit_on hs
    have frame := pllCommit_eq s
    generalize pllCommit s = u at copied act pend run frame
    exact ⟨_, run, act, pend, rfl, copied, congrArg (reply .ok _) frame⟩
end

section
/-! Holdover and the errors of the clocks (R82 to R89, R353): what each error notes, and the cause it gives. -/

namespace Sys2Proof.Machine

open Sys2Proof

variable {s : State}

/-! What an event leaves as it was. -/

@[simp] theorem raise_isOn (e : Nat) (w : Word) (s : State) (d : Dom) : (raise e w s).isOn d = s.isOn d := by
  simp only [State.isOn, State.domSt, raise_dom]

@[simp] theorem raise_straps (e : Nat) (w : Word) (s : State) : (raise e w s).aon.straps = s.aon.straps := by
  rw [raise_aon]
  split <;> rfl

@[simp] theorem raise_reg (e : Nat) (w : Word) (s : State) (a : Nat) : (raise e w s).reg a = s.reg a := by
  simp only [State.reg, raise_frame, raise_straps]

/-! Causes of the safe stack block (R389, R390). -/

theorem ssbEntry_cause (s : State) : (ssbEntry s).safe.cause = s.safe.cause := by simp [ssbEntry]

theorem setCause_cause {i : Nat} (hs : s.isOn .safety = true) (hi : i < 17) :
    (setCause i s).safe.cause.getLsbD i = true := by
  unfold setCause
  split
  · next h => simpa [hs] using h
  · have bit : (s.safe.cause ||| (1#17 <<< i)).getLsbD i = true := by simp [hi]
    dsimp only
    split <;> split <;> simpa [ssbEntry_cause] using bit

theorem ssb_of_cause {i : Nat} (h : s.safe.cause.getLsbD i = true) : s.ssb = true := by
  unfold State.ssb
  rw [bne_iff_ne]
  intro zero
  simp [zero] at h

theorem safeBlkHigh_of_ssb (h : s.ssb = true) : s.safeBlkHigh = false := by simp [State.safeBlkHigh, h]

theorem blockOrHandOver_cause {i : Nat} (hs : s.isOn .safety = true) (hi : i < 17) :
    (blockOrHandOver i s).safe.cause.getLsbD i = true := by
  unfold blockOrHandOver
  refine setCause_cause ?_ hi
  split
  · exact hs
  · exact hs

/-! PLLs that coast and lock again (R82, R87). -/

theorem coast_l_tb (s : State) : (coast true s).tb = { s.tb with lUnlock := true } := by
  by_cases h : s.tb.lUnlock = true
  · simp only [coast, h, if_true]
    rw [← h]
  · simp [coast, h]

theorem coast_t_tb (s : State) : (coast false s).tb = { s.tb with tUnlock := true } := by
  by_cases h : s.tb.tUnlock = true
  · simp only [coast, h, Bool.false_eq_true, if_true, if_false]
    rw [← h]
  · simp [coast, h]

/-- The loss of the reference noted, before the PLLs coast. -/
def noteLoss (s : State) : State :=
  let u := { s with tb := { s.tb with reacquire := false } }
  if u.tb.refLoss then u else raise 171 0 { u with tb := { u.tb with refLoss := true } }

theorem noteLoss_tb (s : State) : (noteLoss s).tb = { s.tb with refLoss := true, reacquire := false } := by
  by_cases h : s.tb.refLoss = true
  · simp only [noteLoss, h, if_true]
  · simp [noteLoss, h]

theorem execRefLoss_on (hs : s.isOn .timebase = true) :
    execRefLoss s = .next (coast true (coast false (noteLoss s))) := congrArg _ (if_neg (by simp [hs]))

/-- Lock regained by one PLL, as it clears that PLL's own bit. -/
def lockOf (l : Bool) (s : State) : State :=
  if l then { s with tb := { s.tb with lUnlock := false } } else { s with tb := { s.tb with tUnlock := false } }

theorem execPllRelock_absent (l : Bool) (hl : s.tb.refLoss = true) (hr : s.tb.reacquire = false) :
    execPllRelock l s = .next s := by simp [execPllRelock, hl, hr]

theorem execPllRelock_locks (l : Bool) (hs : s.isOn .timebase = true) (hr : s.tb.refLoss = false ∨ s.tb.reacquire = true) :
    execPllRelock l s = .next (if (lockOf l s).tb.lUnlock || (lockOf l s).tb.tUnlock then lockOf l s
      else { lockOf l s with tb := { (lockOf l s).tb with refLoss := false, reacquire := false } }) := by
  refine congrArg _ (if_neg ?_)
  rcases hr with h | h <;> simp [hs, h]

/-! UNTRUSTED and gross errors (R86, R89). -/

/-- What `HOLD_MAX` of coasting notes, before the safe stack block it may take. -/
def noteUntrusted (s : State) : State := raise 173 0 { s with tb := { s.tb with untrusted := true } }

theorem execTbUntrusted_on (hs : s.isOn .timebase = true) (h : s.tb.lUnlock = true ∨ s.tb.tUnlock = true) :
    execTbUntrusted s = .next (if bit (s.reg 0x10104) 16 then setCause 10 (noteUntrusted s) else noteUntrusted s) := by
  have coasting : ¬ (!s.isOn .timebase || !(s.tb.lUnlock || s.tb.tUnlock)) = true := by
    rcases h with h | h <;> simp [hs, h]
  have kept : (noteUntrusted s).reg 0x10104 = s.reg 0x10104 := raise_reg _ _ _ _
  refine (congrArg _ (if_neg coasting)).trans ?_
  rw [← kept]
  rfl

/-- The gross error noted, with the events of the outputs in error. -/
def noteGross (tick pll : Bool) (s : State) : State :=
  let u := { s with tb := { s.tb with gross := true } }
  let u := if tick then raise 169 0 u else u
  if pll then raise 170 0 u else u

theorem noteGross_kept (tick pll : Bool) (s : State) : (noteGross tick pll s).tb = { s.tb with gross := true } ∧
    (noteGross tick pll s).isOn .safety = s.isOn .safety := by
  cases tick <;> cases pll <;> exact ⟨by simp [noteGross], by simp [noteGross]; rfl⟩

theorem execGrossFrequencyError_on {tick pll : Bool} (hs : s.isOn .timebase = true) (h : (tick || pll) = true) :
    execGrossFrequencyError tick pll s = .next (blockOrHandOver 11 (noteGross tick pll s)) :=
  congrArg _ (if_neg (by simp [hs, h]))

end Sys2Proof.Machine

open Sys2Proof.Machine in
/-- Settles O13, error by error: what each one notes, and the cause that the safe stack block takes from it. -/
theorem clockErrors : Obligations.ClockErrors := by
  unfold Obligations.ClockErrors
  refine ⟨fun s ht => ⟨?refLoss, ?tUnlock, ?lUnlock, fun hl => ?back, fun hr => ⟨fun h => ?lastL, fun h => ?firstL,
    fun h => ?lastT, fun h => ?firstT⟩, fun l hl hr => execPllRelock_absent l hl hr, ?clear⟩,
    fun s ht hs => ⟨fun hc => ?untrusted, fun tick pll hg => ?gross⟩⟩
  case refLoss =>
    have run := execRefLoss_on ht
    have frame := execRefLoss_frame s _ run
    refine ⟨_, run, ?_, ?_, ?_, ?_⟩
    · rw [coast_l_tb, coast_t_tb, noteLoss_tb]
    all_goals simp only [SameRegisters, SameGallery, frame, and_self, implies_true]
  case tUnlock =>
    have run : execPlltUnlock s = .next (coast false s) := congrArg _ (if_pos ht)
    have frame := execPlltUnlock_frame s _ run
    exact ⟨_, run, coast_t_tb s, by simp only [SameRegisters, frame, and_self],
      by simp only [SameGallery, frame, implies_true]⟩
  case lUnlock =>
    have run : execPlllUnlock s = .next (coast true s) := congrArg _ (if_pos ht)
    have frame := execPlllUnlock_frame s _ run
    exact ⟨_, run, coast_l_tb s, by simp only [SameRegisters, frame, and_self],
      by simp only [SameGallery, frame, implies_true]⟩
  case back => exact congrArg _ (if_pos (by simp [ht, hl]))
  case lastL => exact (execPllRelock_locks true ht hr).trans (by simp [lockOf, h])
  case firstL => exact (execPllRelock_locks true ht hr).trans (by simp [lockOf, h])
  case lastT => exact (execPllRelock_locks false ht hr).trans (by simp [lockOf, h])
  case firstT => exact (execPllRelock_locks false ht hr).trans (by simp [lockOf, h])
  case clear => exact congrArg _ (if_pos ht)
  case untrusted =>
    have run := execTbUntrusted_on ht hc
    have frame := execTbUntrusted_frame s _ run
    refine ⟨_, run, ?_, fun hb => ?_, fun hb => ?_, by simp only [SameRegisters, frame, and_self],
      by simp only [SameGallery, frame, implies_true]⟩
    · split <;> simp [noteUntrusted]
    · rw [if_pos hb]
      have cause := setCause_cause (s := noteUntrusted s) (i := 10) ((raise_isOn _ _ _ _).trans hs) (by decide)
      exact ⟨ssb_of_cause cause, cause⟩
    · rw [if_neg (by simp [hb])]
      simp [noteUntrusted]
  case gross =>
    have run := execGrossFrequencyError_on ht hg
    have frame := execGrossFrequencyError_frame tick pll s _ run
    obtain ⟨htb, hon⟩ := noteGross_kept tick pll s
    have cause := blockOrHandOver_cause (i := 11) (hon.trans hs) (by decide)
    have ssb := ssb_of_cause cause
    refine ⟨_, run, ?_, cause, ssb, safeBlkHigh_of_ssb ssb, by simp only [SameRegisters, frame, and_self],
      by simp only [SameGallery, frame, implies_true]⟩
    simp only [blockOrHandOver_frame, htb]
end

section
/-! The SYNC balls and the compare pulses (R65, R75, R90, R91), and the PTP ring and slots (R92 to R96). -/

namespace Sys2Proof.Machine

open Sys2Proof

variable {s : State}

/-! SYNC balls and pulses. -/

/-- TB at the whole second that SYNC_OUT is due at, with the next one noted. -/
def atSecond (s : State) : State :=
  let u := advanceTo (dueSecond s) s
  { u with tb := { u.tb with nextSecond := dueSecond s + second } }

theorem atSecond_eq (s : State) : atSecond s = { s with tb := { s.tb with
    ns := (atSecond s).tb.ns, frac := (atSecond s).tb.frac, nextSecond := dueSecond s + second } } := by
  unfold atSecond
  exact congrArg (fun u : State => { u with tb := { u.tb with nextSecond := dueSecond s + second } })
    (advanceTo_eq (dueSecond s) s)

theorem execSyncOutPulse_on (hs : s.isOn .timebase = true) : execSyncOutPulse s = .next (
    if bit (s.reg 0x10030) 31 && !(bit (s.reg 0x10030) 30 && s.tb.untrusted) then { atSecond s with
      tb := { (atSecond s).tb with syncOut := true, syncEnd := dueSecond s + fld (s.reg 0x10030) 0 19 * 1000 } }
    else atSecond s) := by
  have untrusted : (atSecond s).tb.untrusted = s.tb.untrusted := by rw [atSecond_eq]
  rw [← untrusted]
  exact congrArg _ (if_neg (by simp [hs]))

theorem execSyncOutPulseEnd_on (hs : s.isOn .timebase = true) (ho : s.tb.syncOut = true) : execSyncOutPulseEnd s =
    .next { advanceTo s.tb.syncEnd s with tb := { (advanceTo s.tb.syncEnd s).tb with syncOut := false } } :=
  congrArg _ (if_pos (by simp [hs, ho]))

theorem execSyncInEdge_on (ns : BitVec 64) (frac : Word) (hs : s.isOn .timebase = true)
    (he : bit (s.reg 0x10030) 29 = true) :
    execSyncInEdge ns frac s = .next (ptpTs 2 { s with tb := { s.tb with stampNs := ns, stampFrac := frac } }) :=
  congrArg _ (if_pos (by simp [hs, he]))

theorem execGpioPulseEnd_on {i : Fin 16} (hs : s.Runs) (hp : s.atr.gpioPulse.getLsbD i.val = true) :
    let u := advanceTo (vget s.atr.gpioEnd i.val 0) s
    execGpioPulseEnd i s = .next { u with atr := { u.atr with gpioPulse := u.atr.gpioPulse &&& ~~~(1#16 <<< i.val) } } :=
  congrArg _ (if_pos (by simp [show s.isOn .atrium = true from hs, hp]))

/-! PTP stamps. -/

theorem sendRecord_host (e : Nat) (w : Word) (s : State) : (sendRecord e w s).host =
    { s.host with rs := (sendRecord e w s).host.rs, rsDrop := (sendRecord e w s).host.rsDrop } := by
  unfold sendRecord rsPush emit
  dsimp only
  (repeat' split) <;> rfl

/-- An event that sends a record sends it last, from a state with the same output and the same host's port. -/
theorem raise_sends (e : Nat) (w : Word) (s : State) :
    ∃ u : State, u.host = s.host ∧ u.out = s.out ∧ (raise e w s = u ∨ raise e w s = sendRecord e w u) := by
  unfold raise
  split
  · extract_lets slots t u
    refine ⟨u, by simp [u, t], by simp [u, t], ?_⟩
    by_cases sent : bit (u.route e) 2 = true
    · exact .inr (if_pos sent)
    · exact .inl (if_neg sent)
  · split <;> exact ⟨_, by rfl, by rfl, .inl rfl⟩

/-- Of the host's port an event changes the reply stream alone. -/
theorem raise_host (e : Nat) (w : Word) (s : State) : (raise e w s).host =
    { s.host with rs := (raise e w s).host.rs, rsDrop := (raise e w s).host.rsDrop } := by
  obtain ⟨u, host, -, h | h⟩ := raise_sends e w s
  · rw [h, host]
  · rw [h, sendRecord_host, host]

theorem sendRecord_out {o : Out} (e : Nat) (w : Word) (h : o ∈ s.out) : o ∈ (sendRecord e w s).out := by
  unfold sendRecord rsPush emit
  dsimp only
  (repeat' split) <;> simp [h]

theorem raise_out {o : Out} (e : Nat) (w : Word) (h : o ∈ s.out) : o ∈ (raise e w s).out := by
  obtain ⟨u, -, out, hu | hu⟩ := raise_sends e w s
  · rwa [hu, out]
  · rw [hu]
    exact sendRecord_out e w (out ▸ h)

theorem ptpTs_host (n : Nat) (s : State) : (ptpTs n s).host =
    { s.host with rs := (ptpTs n s).host.rs, rsDrop := (ptpTs n s).host.rsDrop, ptpSrc := n } :=
  raise_host 230 (BitVec.ofNat 32 n) { s with host := { s.host with ptpSrc := n } }

/-- A frame that PTP takes: to one of its ports and addresses, while PTP is enabled (R93). -/
def ptpHears (dst : Word) (port : BitVec 16) (s : State) : Prop :=
  (port = 319 ∨ port = 320) ∧ bit (s.reg 0x60100) 0 = true ∧ ptpAddr dst s = true

theorem ptpHears.taken {dst : Word} {port : BitVec 16} (h : ptpHears dst port s) :
    ((port == 319 || port == 320) && bit (s.reg 0x60100) 0 && ptpAddr dst s) = true := by
  obtain ⟨hp, he, ha⟩ := h
  simpa [he, ha] using hp

section

variable {dst : Word} {port : BitVec 16} (src : NetAddr) (ns : BitVec 64) (frac : Word) (p : List Byte)

theorem execPtpFrameRx_dropped (hs : s.isOn .net = true) (h : ptpHears dst port s) (hf : s.host.ptpOwned = 16) :
    execPtpFrameRx dst port src ns frac p s =
      .next { s with host := { s.host with ptpDrop := satInc 255 s.host.ptpDrop } } := by
  simp only [execPtpFrameRx, hs, h.taken, hf, Bool.not_true, Bool.false_eq_true, if_true, if_false]

/-- The receive ring with an entry at its head. -/
def ringed (e : PtpRx) (s : State) : State :=
  { s with host := { s.host with
    ptpRx := vset s.host.ptpRx s.host.ptpHead e, ptpHead := (s.host.ptpHead + 1) % 16, ptpOwned := s.host.ptpOwned + 1 } }

theorem execPtpFrameRx_entered (hs : s.isOn .net = true) (h : ptpHears dst port s) (hf : s.host.ptpOwned ≠ 16) :
    execPtpFrameRx dst port src ns frac p s =
      .next (ptpTs 0 (ringed { ns := addOfs ns (s.reg 0x60108), frac := frac, src := src, payload := p } s)) := by
  simp only [execPtpFrameRx, hs, h.taken, if_neg hf, ringed, Bool.not_true, Bool.false_eq_true, if_false]

end

/-- Slot `n` as the sent message leaves it (R95, R96). -/
def sentSlot (x : PtpTx) (s : State) : PtpTx :=
  { x with go := false, done := true, ns := addOfs s.tb.ns (s.reg 0x6010C), frac := s.tb.frac }

/-- Message `x` sent from slot `n`. -/
def ptpSent (n : Nat) (x : PtpTx) (s : State) : State :=
  let u := emit (.ptp x.port { ip := x.dst, port := x.port } (bytesAt x.payload 0 (min 240 x.length))) s
  { u with host := { u.host with ptpTx := vset u.host.ptpTx n (sentSlot x s) } }

theorem execPtpTxDone_on {n : Fin 4} (hs : s.isOn .net = true) (hg : (vget s.host.ptpTx n.val {}).go = true) :
    execPtpTxDone n s = .next (ptpTs 1 (ptpSent n.val (vget s.host.ptpTx n.val {}) s)) :=
  congrArg _ (if_pos (by rw [hs, hg]; rfl))

end Sys2Proof.Machine

open Sys2Proof.Machine in
/-- Settles O14, ball by ball: each advance to an instant changes the count alone (`advanceTo_eq`). -/
theorem syncAndPulses : Obligations.SyncAndPulses := by
  unfold Obligations.SyncAndPulses
  intro s ht
  refine ⟨fun he hg => ?rises, fun hg => ?gated, fun ho => ?falls, fun ns frac he => ?stamped, fun i hs hp => ?pulse⟩
  case rises =>
    have on : (bit (s.reg 0x10030) 31 && !(bit (s.reg 0x10030) 30 && s.tb.untrusted)) = true := by simp [he, hg]
    refine ⟨_, (execSyncOutPulse_on ht).trans (by rw [if_pos on]), rfl, rfl, ?_⟩
    rw [atSecond_eq]
  case gated =>
    have off : (bit (s.reg 0x10030) 31 && !(bit (s.reg 0x10030) 30 && s.tb.untrusted)) ≠ true := by rw [hg]; simp
    refine ⟨_, (execSyncOutPulse_on ht).trans (by rw [if_neg off]), ?_, ?_⟩ <;> rw [atSecond_eq]
  case falls =>
    refine ⟨_, execSyncOutPulseEnd_on ht ho, rfl, ?_⟩
    rw [advanceTo_eq]
  case stamped =>
    have run := execSyncInEdge_on ns frac ht he
    have frame := execSyncInEdge_frame ns frac s _ run
    refine ⟨_, run, ?_, ?_, by simp only [SameRegisters, frame, and_self], by simp only [SameGallery, frame, implies_true]⟩
    · simp only [ptpTs_frame]
    · rw [ptpTs_host]
  case pulse =>
    refine ⟨_, execGpioPulseEnd_on hs hp, ?_, ?_⟩ <;> rw [advanceTo_eq]

open Sys2Proof.Machine in
/-- Settles O15: of the host's port a PTP event changes only the reply stream and the source of the stamp (`ptpTs_host`). -/
theorem ptpRings : Obligations.PtpRings := by
  unfold Obligations.PtpRings
  intro s hn
  refine ⟨fun dst port src ns frac p hp he ha => ⟨fun hf => ?dropped, fun hf hh => ?entered⟩,
    fun n => ?go, fun n hg => ?sent⟩
  case dropped => exact execPtpFrameRx_dropped src ns frac p hn ⟨hp, he, ha⟩ hf
  case entered =>
    have run := execPtpFrameRx_entered src ns frac p hn ⟨hp, he, ha⟩ hf
    have frame := execPtpFrameRx_frame dst port src ns frac p s _ run
    refine ⟨_, run, ?_, ?_, ?_, by simp only [SameRegisters, frame, and_self],
      by simp only [SameGallery, frame, implies_true]⟩
    · rw [ptpTs_host]
      exact vget_vset_same _ _ _ _ hh
    · rw [ptpTs_host]
      rfl
    · rw [ptpTs_host]
      rfl
  case go => exact congrArg _ (if_pos hn)
  case sent =>
    have run := execPtpTxDone_on hn hg
    have frame := execPtpTxDone_frame n s _ run
    refine ⟨_, run, ?_, raise_out _ _ (List.mem_cons_self ..), by simp only [SameRegisters, frame, and_self],
      by simp only [SameGallery, frame, implies_true], by simp only [frame]⟩
    rw [ptpTs_host]
    exact vget_vset_same _ _ _ _ n.isLt

end

section
/-! Compares (R69 to R76): how one is set and judged, and what the firing of all that are due at one tick does to each. -/

namespace Sys2Proof.Machine

open Sys2Proof

variable {s : State}

/-! Setting a compare (R71, R72). -/

theorem tick_tc (s : State) (m : Nat) : (tick s).tc m = s.tc m := by rw [tick_eq]; rfl

/-- The setting that TC_SET makes of the one before, judged at the instant `now`. -/
def tcSetting (time : BitVec 64) (period ctrl : Word) (now : Nat) (old : Compare) : Compare where
  time := time
  period := period
  en := bit ctrl 31 && !decide (time.toNat + 2 ^ 39 < now)
  fired := old.fired && !bit ctrl 30
  late := old.late && !bit ctrl 29
  width := BitVec.ofNat 8 (fld ctrl 16 8)
  target := fld ctrl 8 4
  arg := BitVec.ofNat 8 (fld ctrl 0 8)
  next := if decide (time.toNat < now) then now else time.toNat
  lateNext := decide (time.toNat < now)

theorem tcSet_ok {period ctrl : Word} (n : Nat) (time : BitVec 64) (h : tcCheck period ctrl s = .ok) :
    tcSet n time period ctrl s = (if bit ctrl 31 && decide (time.toNat < (tick s).now) then .late else .ok,
      (tick s).setTc n fun _ => tcSetting time period ctrl (tick s).now (s.tc n)) := by
  rw [← tick_tc s n]
  simp only [tcSet, h]
  rfl

/-- What an accepted TC_SET leaves. -/
def tcSetTo (n : Nat) (time : BitVec 64) (period ctrl : Word) (s : State) : State :=
  let u := (tick s).setTc n fun _ => tcSetting time period ctrl (tick s).now (s.tc n)
  reply (if bit ctrl 31 && decide (time.toNat < (tick s).now) then .late else .ok) [bitAt (u.tc n).en 0] u

theorem execTcSet_ok {w0 lo hi per ctl : Word} (hs : s.Runs) (h : tcCheck per ctl s = .ok) :
    execTcSet [w0, lo, hi, per, ctl] s = .next (tcSetTo (fld w0 0 4) (dw lo hi) per ctl s) := by
  rw [execTcSet, command_runs hs _ (by rfl)]
  have set := tcSet_ok (fld w0 0 4) (dw lo hi) h
  exact congrArg (fun r : Status × State => Host.Outcome.next (reply r.1 [bitAt (r.2.tc (fld w0 0 4)).en 0] r.2)) set

theorem tcSetTo_tc {n : Nat} (hn : n < 16) (time : BitVec 64) (period ctrl : Word) (s : State) :
    (tcSetTo n time period ctrl s).tc n = tcSetting time period ctrl (tick s).now (s.tc n) :=
  setTc_tc_same _ _ _ hn

theorem tcSetTo_tc_ne {n m : Nat} (h : m ≠ n) (time : BitVec 64) (period ctrl : Word) (s : State) :
    (tcSetTo n time period ctrl s).tc m = s.tc m :=
  (setTc_tc_ne _ _ _ _ h.symm).trans (tick_tc s m)

theorem tcSetTo_eq (n : Nat) (time : BitVec 64) (period ctrl : Word) (s : State) :
    let t := tcSetTo n time period ctrl s
    t = { s with reply := t.reply, tb := { (tick s).tb with tc := t.tb.tc } } :=
  congrArg (fun u : State => { u with
    reply := (tcSetTo n time period ctrl s).reply
    tb := { (tick s).tb with tc := (tcSetTo n time period ctrl s).tb.tc } }) (tick_eq s)

/-! Compares that fire (R69 to R74). -/

/-- A loop over compares, each step of which changes its own compare alone by a function of the count. -/
theorem each_tc {f : Nat → State → State} {g : State → Compare → Compare}
    (hf : ∀ m u, (f m u).tb = { u.tb with tc := vmod u.tb.tc m (g u) })
    (hg : ∀ u v : State, v.tb.ns = u.tb.ns → v.tb.frac = u.tb.frac → g v = g u)
    {l : List Nat} (hl : l.Nodup) (hb : ∀ m ∈ l, m < 16) (s : State) (j : Nat) :
    (each l f s).tc j = if j ∈ l then g s (s.tc j) else s.tc j := by
  induction l generalizing s with
  | nil => rfl
  | cons m r ih =>
    obtain ⟨hm, hr⟩ := List.nodup_cons.mp hl
    have same : g (f m s) = g s := hg _ _ (by rw [hf]) (by rw [hf])
    have step : (f m s).tc j = if m = j then g s (s.tc j) else s.tc j := by
      simp only [State.tc, hf]
      split
      · next h =>
        subst h
        exact vget_vmod_same _ _ _ _ (hb m (by simp))
      · next h => exact vget_vmod_ne _ _ _ _ _ h
    refine (ih hr (fun x hx => hb x (by simp [hx])) (f m s)).trans ?_
    rw [same, step]
    by_cases h : m = j
    · subst h
      simp [hm]
    · simp [h, Ne.symm h]

theorem each_count {f : Nat → State → State} {g : State → Compare → Compare}
    (hf : ∀ m u, (f m u).tb = { u.tb with tc := vmod u.tb.tc m (g u) }) (l : List Nat) (s : State) :
    (each l f s).now = s.now :=
  each_keep State.now l f s fun m u => by simp only [State.now, hf]

theorem fireCompare_tb (m : Nat) (u : State) :
    (fireCompare m u).tb = { u.tb with tc := vmod u.tb.tc m (compareNext u.now) } := by
  simp only [fireCompare, compareAction_frame]
  rfl

/-- A compare of this tick marked as fired, for the command of its own. -/
def markFired (m : Nat) (u : State) : State := u.setTc m fun c => { c with firedAt := some u.tbAll }

/-- What fires with compare `n` at the tick of `u`. -/
def fireAll (n : Nat) (u : State) : State :=
  each ((List.range 16).filter fun m => m == n || (u.dueWith n).contains m) fireCompare (each (u.dueWith n) markFired u)

theorem mem_dueWith {u : State} {n m : Nat} : m ∈ u.dueWith n ↔
    m < 16 ∧ m ≠ n ∧ (u.tc m).en = true ∧ ((u.tc m).lateNext = true ∨ (u.tc m).next ≤ u.now) := by
  simp [State.dueWith, and_assoc]

theorem dueWith_nodup (u : State) (n : Nat) : (u.dueWith n).Nodup := List.nodup_range.filter _

theorem fireAll_now (n : Nat) (u : State) : (fireAll n u).now = u.now :=
  (each_count (g := fun v => compareNext v.now) fireCompare_tb _ _).trans
    (each_count (g := fun v c => { c with firedAt := some v.tbAll }) (fun _ _ => rfl) _ _)

/-- A compare after the firing of a tick: unchanged, or fired, with the mark of one that did not fire by its own command. -/
theorem fireAll_tc {n : Nat} (hn : n < 16) (u : State) (j : Nat) : (fireAll n u).tc j =
    if j = n then compareNext u.now (u.tc j)
    else if j ∈ u.dueWith n then compareNext u.now { u.tc j with firedAt := some u.tbAll } else u.tc j := by
  have marked := each_tc (f := markFired) (g := fun v c => { c with firedAt := some v.tbAll }) (fun _ _ => rfl)
    (fun v w hns hfrac => by simp only [State.tbAll, hns, hfrac]) (dueWith_nodup u n) (fun m hm => (mem_dueWith.mp hm).1) u j
  have fired := each_tc (g := fun v => compareNext v.now) fireCompare_tb (fun v w hns _ => by simp only [State.now, hns])
    (l := (List.range 16).filter fun m => m == n || (u.dueWith n).contains m) (List.nodup_range.filter _)
    (fun m hm => by simpa using (List.mem_filter.mp hm).1) (each (u.dueWith n) markFired u) j
  have count : (each (u.dueWith n) markFired u).now = u.now :=
    each_count (g := fun v c => { c with firedAt := some v.tbAll }) (fun _ _ => rfl) _ _
  have fires : j ∈ ((List.range 16).filter fun m => m == n || (u.dueWith n).contains m) ↔ j = n ∨ j ∈ u.dueWith n := by
    have below : j = n ∨ j ∈ u.dueWith n → j < 16 := fun h => h.elim (fun e => e ▸ hn) fun h => (mem_dueWith.mp h).1
    simpa using below
  have notDue : n ∉ u.dueWith n := fun h => (mem_dueWith.mp h).2.1 rfl
  refine fired.trans ?_
  rw [count, marked]
  by_cases h : j = n
  · subst h
    rw [if_pos (fires.mpr (.inl rfl)), if_neg notDue, if_pos rfl]
  · simp only [fires, h, false_or, if_false]
    split <;> rfl

/-- The state at the fire tick of compare `n` (R71): a late one fires at once. -/
def fireTickOf (n : Nat) (s : State) : State := if (s.tc n).lateNext then s else advanceTo (s.tc n).next s

theorem fireTickOf_tc (n m : Nat) (s : State) : (fireTickOf n s).tc m = s.tc m := by
  unfold fireTickOf
  split
  · rfl
  · rw [advanceTo_eq]
    rfl

theorem execCompareFire_fires {n : Fin 16} (hs : s.isOn .timebase = true) (he : (s.tc n.val).en = true)
    (hf : (s.tc n.val).firedAt ≠ some s.tbAll) : execCompareFire n s = .next (fireAll n.val (fireTickOf n.val s)) := by
  simp only [execCompareFire, hs, he, if_neg hf, Bool.not_true, Bool.false_eq_true, if_false]
  rfl

theorem execCompareFire_done {n : Fin 16} (hs : s.isOn .timebase = true) (hf : (s.tc n.val).firedAt = some s.tbAll) :
    execCompareFire n s = .next (s.setTc n.val fun c => { c with firedAt := none }) := by
  simp only [execCompareFire, hs, if_pos hf, Bool.not_true, Bool.false_eq_true, if_false]

/-- A compare that fires sets FIRED, and ends where it is one-shot. -/
theorem compareNext_oneShot (t : Nat) {c : Compare} (h : c.period = 0) : (compareNext t c).en = false := by
  simp [compareNext, h]

theorem compareNext_periodic (t : Nat) {c : Compare} (h : c.period ≠ 0) (he : c.en = true) :
    (compareNext t c).en = true ∧ (c.lateNext = false → (compareNext t c).next = c.next + c.period.toNat) := by
  have hp : c.period.toNat ≠ 0 := fun z => h (BitVec.eq_of_toNat_eq z)
  exact ⟨by simp [compareNext, he, hp], fun hl => by simp [compareNext, hp, hl]⟩

end Sys2Proof.Machine

open Sys2Proof.Machine in
/-- Settles O11: a set compare is `tcSetting` of the old one, and a tick's firing leaves each compare as `fireAll_tc` says. -/
theorem compares : Obligations.Compares := by
  unfold Obligations.Compares
  refine ⟨fun s w0 lo hi per ctl hs ht hc => ?set, fun s n ht => ⟨fun he hf => ?fires, fun hf => ?done⟩⟩
  case done => exact execCompareFire_done ht hf
  case set =>
    intro n now time
    have own : n < 16 := Nat.mod_lt _ (by decide)
    refine ⟨_, execTcSet_ok hs hc, ?_⟩
    rw [tcSetTo_tc own]
    refine ⟨rfl, rfl, rfl, ?_, fun h => ?_, fun h => ?_, rfl, rfl, ?_, fun m hm => tcSetTo_tc_ne hm _ _ _ s,
      tcSetTo_eq n _ per ctl s⟩
    · exact congrArg (bit ctl 31 && ·) (by simp only [← decide_not, Nat.not_lt, now, time])
    · have late : decide (time < now) = false := decide_eq_false (Nat.not_lt.mpr h)
      exact ⟨if_neg (by rw [late]; decide), late⟩
    · have late : decide (time < now) = true := decide_eq_true h
      exact ⟨if_pos late, late⟩
    · rw [← tcSetTo_tc own]
      rfl
  case fires =>
    have run := execCompareFire_fires ht he hf
    have frame := execCompareFire_frame n s _ run
    have tc := fireAll_tc n.isLt (fireTickOf n.val s)
    simp only [fireTickOf_tc] at tc
    have own := tc n.val
    rw [if_pos rfl] at own
    refine ⟨_, run, ?_⟩
    rw [own, fireAll_now]
    refine ⟨rfl, compareNext_oneShot _, fun hp => compareNext_periodic _ hp he, fun m hm hn hen hdue => ?due,
      fun m hn hoff => ?kept, by simp only [SameRegisters, frame, and_self], by simp only [SameGallery, frame, implies_true],
      by simp only [frame], by simp only [frame]⟩
    case due =>
      have due : m ∈ (fireTickOf n.val s).dueWith n.val := by
        rw [mem_dueWith, fireTickOf_tc]
        exact ⟨hm, hn, hen, hdue⟩
      rw [tc m, if_neg hn, if_pos due]
      exact ⟨rfl, fun hp => compareNext_oneShot _ hp⟩
    case kept =>
      have idle : m ∉ (fireTickOf n.val s).dueWith n.val := by
        rw [mem_dueWith, fireTickOf_tc]
        rintro ⟨-, -, hen, hdue⟩
        rcases hoff with hoff | ⟨hlate, hnext⟩
        · simp [hen] at hoff
        · simp [hlate] at hdue
          omega
      rw [tc m, if_neg hn, if_neg idle]

end

section
/-! Frames of the stairwell that arrive (R366 to R369): what a heard frame leaves alone before it is acted on. -/

namespace Sys2Proof.Machine

open Sys2Proof

variable {s t u : State} {h : StairHdr}

/-- What a position fault and the note of who was heard leave alone: powers, straps, registers, the twin, the time base, and of
the stairwell everything but POS_ERR and that note. -/
structure Noted (s t : State) : Prop where
  dom : t.aon.dom = s.aon.dom
  straps : t.aon.straps = s.aon.straps
  cfg : t.cfg = s.cfg
  twin : t.twin = s.twin
  tb : t.tb = s.tb
  stair : t.stair = { s.stair with posErr := t.stair.posErr, heard := t.stair.heard }

namespace Noted

theorem refl (s : State) : Noted s s := ⟨rfl, rfl, rfl, rfl, rfl, rfl⟩

theorem trans (h : Noted s t) (h' : Noted t u) : Noted s u where
  dom := h'.dom.trans h.dom
  straps := h'.straps.trans h.straps
  cfg := h'.cfg.trans h.cfg
  twin := h'.twin.trans h.twin
  tb := h'.tb.trans h.tb
  stair := by rw [h'.stair, h.stair]

theorem raised (e : Nat) (w : Word) (h : Noted s t) : Noted s (raise e w t) :=
  h.trans ⟨raise_dom e w t, raise_straps e w t, by simp, by simp, by simp, by simp⟩

theorem isOn (h : Noted s t) (d : Dom) : t.isOn d = s.isOn d := by simp only [State.isOn, State.domSt, h.dom]

theorem anyHallOn (h : Noted s t) : t.anyHallOn = s.anyHallOn := by simp only [State.anyHallOn, State.hallOn, h.isOn]

theorem stairRuns (h : Noted s t) : t.stairRuns = s.stairRuns := by simp only [State.stairRuns, h.isOn]

theorem pos (h : Noted s t) : t.pos = s.pos := by simp only [State.pos, h.straps]

theorem onChainW (h : Noted s t) : t.onChainW = s.onChainW := by simp only [State.onChainW, h.straps]

theorem reg (h : Noted s t) (a : Nat) : t.reg a = s.reg a := by simp only [State.reg, h.straps, h.cfg]

theorem newel (h : Noted s t) : t.newel = s.newel := by
  rw [State.newel, h.straps, h.stair]
  rfl

theorem standby (h : Noted s t) : t.standby = s.standby := by simp only [State.standby, h.twin]

theorem tb16 (h : Noted s t) : t.tb16 = s.tb16 := by simp only [State.tb16, State.tbAll, h.tb]

end Noted

/-! Position faults (R366). -/

theorem posFault_noted (s : State) : Noted s (posFault s) := by
  unfold posFault
  split
  · exact .refl s
  · exact Noted.raised 215 _ ⟨rfl, rfl, rfl, rfl, rfl, rfl⟩

theorem posFault_posErr (hn : s.newel = false) : (posFault s).stair.posErr = true := by
  unfold posFault
  split
  · next herr => simpa [hn] using herr
  · simp

theorem posFault_pend (hs : s.Runs) (hn : s.newel = false) (he : s.stair.posErr = false) :
    ((posFault s).evt 215).pend = true := by
  unfold posFault
  rw [if_neg (by simp [hn, he])]
  exact raise_pend_same (s := setStair (fun x => { x with posErr := true }) s) _ hs (by decide)

/-- A frame's originator noted. -/
def noteHeard (h : StairHdr) (s : State) : State :=
  setStair (fun y => { y with heard := (h.src.val, h.via, h.hops) :: y.heard.filter fun z => z.1 != h.src.val }) s

theorem noteHeard_noted (h : StairHdr) (s : State) : Noted s (noteHeard h s) := ⟨rfl, rfl, rfl, rfl, rfl, rfl⟩

theorem samePosition_noted (h : StairHdr) (s : State) : Noted s (samePosition h s) := by
  unfold samePosition
  split
  · exact .refl s
  · dsimp only
    split
    · exact (noteHeard_noted h s).trans (posFault_noted _)
    · exact noteHeard_noted h s

/-- A frame that bears this device's own position is a fault. -/
theorem samePosition_own (hv : h.via ≠ .twin) (hw : h.chainW = s.onChainW) (hp : h.src.val = s.pos) :
    samePosition h s = posFault (noteHeard h s) := by
  unfold samePosition
  rw [if_neg (by simp [hv, hw])]
  exact if_pos (.inl hp)

/-! Frames taken and sent. -/

theorem stairToActive_eq (h : StairHdr) (type : Byte) (payload : List Byte) (s : State) :
    stairToActive h type payload s = { s with out := (stairToActive h type payload s).out } := by
  unfold stairToActive
  split <;> rfl

theorem stairRelay_eq (h : StairHdr) (type : Byte) (payload : List Byte) (s : State) :
    stairRelay h type payload s = { s with out := (stairRelay h type payload s).out } := by
  unfold stairRelay
  cases h.via <;> dsimp only
  · split <;> rfl
  · split <;> rfl

/-- The state that acts on a frame for every position: its originator noted, the frame handed to the active, and relayed. -/
def frameHeard (h : StairHdr) (type : Byte) (payload : List Byte) (pass : Bool) (s : State) : State :=
  let u := stairToActive h type payload (samePosition h s)
  if pass then stairRelay h type payload u else u

theorem frameHeard_eq (h : StairHdr) (type : Byte) (payload : List Byte) (pass : Bool) (s : State) :
    frameHeard h type payload pass s = { samePosition h s with out := (frameHeard h type payload pass s).out } := by
  unfold frameHeard
  cases pass
  · exact stairToActive_eq h type payload _
  · simp only [if_true]
    rw [stairRelay_eq, stairToActive_eq]

theorem frameHeard_noted (h : StairHdr) (type : Byte) (payload : List Byte) (pass : Bool) (s : State) :
    Noted s (frameHeard h type payload pass s) := by
  rw [frameHeard_eq]
  obtain ⟨dom, straps, cfg, twin, tb, stair⟩ := samePosition_noted h s
  exact ⟨dom, straps, cfg, twin, tb, stair⟩

/-- A good frame for every position is acted on (R368, R369). -/
theorem stairTake_all {type : Byte} {payload : List Byte} {pass : Bool} (act : State → State)
    (hv : s.stairHears type h.via = true) (hc : h.crcOk = true) (hd : h.dst = 0xFF) :
    stairTake h type payload pass act s = act (frameHeard h type payload pass s) := by
  have others : (h.dst == BitVec.ofNat 8 s.pos) = false := by
    have range : s.pos < 16 := s.aon.straps.pos.isLt
    rw [hd, beq_eq_false_iff_ne]
    intro same
    have value := congrArg BitVec.toNat same
    simp at value
    omega
  have all : (false || h.dst == 0xFF) = true := by rw [hd]; rfl
  simp only [stairTake, hv, hc, others, all, frameHeard, Bool.not_true, Bool.not_false, Bool.and_true, Bool.false_eq_true,
    if_true, if_false]

theorem stairRuns_of_on (hs : s.Runs) (hl : s.isOn .links = true) : s.stairRuns = true := by
  simp [State.stairRuns, show s.isOn .atrium = true from hs, hl]

theorem stairHears_su (type : Byte) (hr : s.stairRuns = true) (hu : s.stair.upUp = true) : s.stairHears type .su = true := by
  simp [State.stairHears, hr, hu]

theorem stairHears_sd (type : Byte) (hr : s.stairRuns = true) (hd : s.stair.downUp = true) : s.stairHears type .sd = true := by
  simp [State.stairHears, hr, hd]

theorem stairSend_down (type dst : Byte) (payload : List Byte) (hr : s.stairRuns = true) (hd : s.stair.downUp = true) :
    stairSend true type dst payload s = emit (.stair true (stairFrame type s.pos s.onChainW dst 0 payload)) s := by
  simp [stairSend, hr, hd]

theorem stairSend_up (type dst : Byte) (payload : List Byte) (hr : s.stairRuns = true) (hu : s.stair.upUp = true) :
    stairSend false type dst payload s = emit (.stair false (stairFrame type s.pos s.onChainW dst 0 payload)) s := by
  simp [stairSend, hr, hu]

/-- A relayed frame from above leaves downwards, as the newest output. -/
theorem frameHeard_relayed_su (type : Byte) (payload : List Byte) (hv : h.via = .su) (hd : s.stair.downUp = true) :
    (frameHeard h type payload true s).out.head? =
      some (.stair true (stairFrame type h.src.val h.chainW h.dst (h.hops + 1) payload)) := by
  have up : (samePosition h s).stair.downUp = true := by
    rw [(samePosition_noted h s).stair]
    exact hd
  simp [frameHeard, stairRelay, hv, up]

theorem frameHeard_relayed_sd (type : Byte) (payload : List Byte) (hv : h.via = .sd) (hu : s.stair.upUp = true) :
    (frameHeard h type payload true s).out.head? =
      some (.stair false (stairFrame type h.src.val h.chainW h.dst (h.hops + 1) payload)) := by
  have up : (samePosition h s).stair.upUp = true := by
    rw [(samePosition_noted h s).stair]
    exact hu
  simp [frameHeard, stairRelay, hv, up]

end Sys2Proof.Machine
end

section
/-! Time, shared points and status along the chain (R67, R370 to R372, R377): what each frame does once it is heard. -/

namespace Sys2Proof.Machine

open Sys2Proof

variable {s : State} {h : StairHdr}

/-! Time (R370 to R372). -/

theorem execTimeReqSend_on (hr : s.stairRuns = true) (hu : s.stair.upUp = true) (hn : s.newel = false)
    (ht : s.isOn .timebase = true) : execTimeReqSend s =
      .next (emit (.stair false (stairFrame 3 s.pos s.onChainW 0xFF 0 []))
        (setStair (fun x => { x with t1 := some s.tb16 }) s)) := by
  have sent := stairSend_up (s := setStair (fun x => { x with t1 := some s.tb16 }) s) 3 0xFF [] hr hu
  rw [execTimeReqSend, if_neg (by simp [hr, hu, hn, ht]), sent]
  rfl

theorem execTimeReq_on (t2 : Int) (hr : s.stairRuns = true) (hd : s.stair.downUp = true) (ht : s.isOn .timebase = true)
    (hv : h.via = .sd) (hc : h.crcOk = true) (ha : h.dst = 0xFF) : execTimeReq ⟨h, t2⟩ s =
      .next (emit (.stair true (stairFrame 4 s.pos s.onChainW 0xFF 0 (stampBytes t2 s.tb16))) (frameHeard h 3 [] false s)) := by
  have heard := frameHeard_noted h 3 [] false s
  have down : (frameHeard h 3 [] false s).stair.downUp = true := by
    rw [heard.stair]
    exact hd
  have sent := stairSend_down 4 0xFF (stampBytes t2 s.tb16) (heard.stairRuns.trans hr) down
  rw [heard.pos, heard.onChainW] at sent
  rw [execTimeReq, stairTake_all _ (hv ▸ stairHears_sd 3 hr hd) hc ha, if_pos ⟨hv, (heard.isOn _).trans ht⟩,
    heard.tb16, sent]

/-- The runs of measurements within 2 ns and beyond 20 ns that the offset `o` continues or ends (R372). -/
def goodRun (o : Int) (x : Stair) : Nat := if o.natAbs ≤ 32 then satInc 16 x.good else 0
def badRun (o : Int) (x : Stair) : Nat := if 320 < o.natAbs then satInc 16 x.bad else 0

theorem goodRun_near {o : Int} (x : Stair) (h : o.natAbs ≤ 32) : goodRun o x = satInc 16 x.good := if_pos h
theorem badRun_near {o : Int} (x : Stair) (h : o.natAbs ≤ 32) : badRun o x = 0 := if_neg (by omega)
theorem goodRun_far {o : Int} (x : Stair) (h : 320 < o.natAbs) : goodRun o x = 0 := if_neg (by omega)
theorem badRun_far {o : Int} (x : Stair) (h : 320 < o.natAbs) : badRun o x = satInc 16 x.bad := if_pos h

/-- A run of fifteen or sixteen goes on to sixteen. -/
theorem satInc_full {n : Nat} (h : 15 ≤ n) (hn : n ≤ 16) : satInc 16 n = 16 := by
  unfold satInc
  split <;> omega

/-- The runs counted, and SYNC set by sixteen good measurements. -/
def counted (o : Int) (x : Stair) : Stair :=
  { x with good := goodRun o x, bad := badRun o x, sync := decide (16 ≤ goodRun o x) || x.sync }

theorem syncStep_eq (o : Int) (s : State) : syncStep o s =
    if (counted o s.stair).sync && decide (16 ≤ badRun o s.stair) then
      raise 216 0 { s with stair := { counted o s.stair with sync := false } }
    else { s with stair := counted o s.stair } := by
  have runs : (if 16 ≤ goodRun o s.stair then
      { s with stair := { s.stair with good := goodRun o s.stair, bad := badRun o s.stair, sync := true } }
      else { s with stair := { s.stair with good := goodRun o s.stair, bad := badRun o s.stair } }) =
      { s with stair := counted o s.stair } := by
    split
    · next h => simp only [counted, decide_eq_true h, Bool.true_or]
    · next h => simp only [counted, decide_eq_false h, Bool.false_or]
  exact congrArg (fun u : State => if u.stair.sync && decide (16 ≤ u.stair.bad) then
    raise 216 0 (setStair (fun x => { x with sync := false }) u) else u) runs

theorem syncStep_stair (o : Int) (s : State) : (syncStep o s).stair =
    { counted o s.stair with sync := (counted o s.stair).sync && !decide (16 ≤ badRun o s.stair) } := by
  rw [syncStep_eq]
  cases hb : decide (16 ≤ badRun o s.stair)
  · simp
  · cases hy : (counted o s.stair).sync
    · simp only [Bool.false_and, Bool.false_eq_true, if_false]
      rw [← hy]
    · simp

/-- The end of SYNC raises event 216. -/
theorem syncStep_pend {o : Int} (hs : s.Runs) (hy : s.stair.sync = true) (hb : 16 ≤ badRun o s.stair) :
    ((syncStep o s).evt 216).pend = true := by
  rw [syncStep_eq, if_pos (by simp [counted, hy, hb])]
  exact raise_pend_same (s := { s with stair := { counted o s.stair with sync := false } }) 0 hs (by decide)

/-- What an event pends is left so by the servo's steps. -/
theorem servo_pend {e : Nat} (o : Int) (ht : s.isOn .timebase = true) (h : (s.evt e).pend = true) :
    ((servo o s).evt e).pend = true := by
  unfold servo
  split
  · exact h
  · split
    · obtain ⟨u, hu, -, hev, -⟩ := tbStep_raises (-o * 2 ^ 28) ht
      rw [hu]
      exact raise_pend_keeps 172 0 (by simpa only [State.evt, hev] using h)
    · exact h

/-- The state of a measurement that TIME_RESP completes, before SYNC is judged. -/
def measured (o : Int) (s : State) : State := setStair (fun x => { x with t1 := none, theta := some o }) s

/-- The servo follows the measurement, but at a standby and without a newel (R371, R384, R386). -/
def steered (o : Int) (s : State) : State := if s.standby || s.stair.newelLost then s else servo o s

/-- What a measurement of offset `o` does. -/
def answered (o : Int) (s : State) : State := steered o (syncStep o (measured o s))

theorem takeTimeResp_eq {t1 t2 t3 t4 o : Int} (h : stairTheta t1 t2 t3 t4 (sfld (s.reg 0x50108) 0 16) = o) :
    takeTimeResp t1 t2 t3 t4 s = answered o s := by rw [← h]; rfl

theorem answered_stair (o : Int) (s : State) : (answered o s).stair = { s.stair with
    t1 := none, theta := some o, good := goodRun o s.stair, bad := badRun o s.stair
    sync := (decide (16 ≤ goodRun o s.stair) || s.stair.sync) && !decide (16 ≤ badRun o s.stair) } := by
  have kept : (answered o s).stair = (syncStep o (measured o s)).stair := by
    unfold answered steered
    split <;> simp
  rw [kept, syncStep_stair]
  rfl

theorem answered_tb {o : Int} (h : s.standby = true ∨ s.stair.newelLost = true) : (answered o s).tb = s.tb := by
  have still : ((syncStep o (measured o s)).standby || (syncStep o (measured o s)).stair.newelLost) = true := by
    have twin : (syncStep o (measured o s)).standby = s.standby := by simp [State.standby, measured]
    have lost : (syncStep o (measured o s)).stair.newelLost = s.stair.newelLost := by rw [syncStep_stair]; rfl
    rw [twin, lost]
    simpa using h
  rw [answered, steered, if_pos still]
  simp [measured]

theorem answered_pend {o : Int} (hs : s.Runs) (ht : s.isOn .timebase = true) (hy : s.stair.sync = true)
    (hb : 16 ≤ badRun o s.stair) : ((answered o s).evt 216).pend = true := by
  have lost : ((syncStep o (measured o s)).evt 216).pend = true := syncStep_pend (s := measured o s) hs hy hb
  have on : (syncStep o (measured o s)).isOn .timebase = true := by
    rw [syncStep_eq]
    split
    · exact (raise_isOn _ _ _ _).trans ht
    · exact ht
  unfold answered steered
  split
  · exact lost
  · exact servo_pend o on lost

/-- A TIME_RESP's own position judged (R366). -/
def placed (h : StairHdr) (s : State) : State := if s.pos ≤ h.src.val then posFault s else s

theorem placed_noted (h : StairHdr) (s : State) : Noted s (placed h s) := by
  unfold placed
  split
  · exact posFault_noted s
  · exact .refl s

theorem placed_posErr (hn : s.newel = false) (hp : s.pos ≤ h.src.val) : (placed h s).stair.posErr = true := by
  rw [placed, if_pos hp]
  exact posFault_posErr hn

theorem execTimeResp_on {t1 t2 t3 t4 : Int} (hr : s.stairRuns = true) (hu : s.stair.upUp = true) (hn : s.newel = false)
    (ht : s.isOn .timebase = true) (hv : h.via = .su) (hc : h.crcOk = true) (ha : h.dst = 0xFF) (h1 : s.stair.t1 = some t1) :
    execTimeResp h (t2, t3) t4 s = .next (takeTimeResp t1 (stampNear t2 t4) (stampNear t3 t4) t4
      (placed h (frameHeard h 4 (stampBytes t2 t3) false s))) := by
  have heard := frameHeard_noted h 4 (stampBytes t2 t3) false s
  have go : ¬ (h.via ≠ .su ∨ (frameHeard h 4 (stampBytes t2 t3) false s).newel = true ∨
      (!(frameHeard h 4 (stampBytes t2 t3) false s).isOn .timebase) = true) := by
    rw [heard.newel, heard.isOn, hn, ht]
    simp [hv]
  have asked : (placed h (frameHeard h 4 (stampBytes t2 t3) false s)).stair.t1 = some t1 := by
    rw [(heard.trans (placed_noted h _)).stair]
    exact h1
  rw [execTimeResp, stairTake_all _ (hv ▸ stairHears_su 4 hr hu) hc ha, if_neg go]
  unfold placed at asked ⊢
  simp only [asked]

/-! Shared points and STATUS (R369, R377). -/

theorem execShare_on {m : ShareMsg} (hh : s.stairHears 5 h.via = true) (hc : h.crcOk = true) (ha : h.dst = 0xFF)
    (hv : h.via ≠ .sd) (hn : s.newel = false) : execShare ⟨h, m⟩ s =
      .next (setStair (fun y => { y with shares := (m :: y.shares).take 2 }) (frameHeard h 5 (shareBytes m) true s)) := by
  have keeps : ¬ ((frameHeard h 5 (shareBytes m) true s).newel = true ∨ h.via = .sd) := by
    rw [(frameHeard_noted h 5 (shareBytes m) true s).newel, hn]
    simp [hv]
  rw [execShare, stairTake_all _ hh hc ha, hn, Bool.not_false, if_neg keeps]

theorem execStatusSend_on (hr : s.stairRuns = true) (hb : s.standby = false) (hn : s.newel = false)
    (hu : s.stair.upUp = true) : execStatusSend s =
      .next (emit (.stair false (stairFrame 7 s.pos s.onChainW 0xFF 0 (statusBytes s.pos s.anyHallOn s.stair.sync))) s) := by
  rw [execStatusSend, if_neg (by simp [State.stairActs, hr, hb, hn]), stairSend_up 7 0xFF _ hr hu]

/-- STAIR_MAP with one position's STATUS. -/
def stairMapped (h : StairHdr) (ho : Bool) (x : Stair) : Stair :=
  { x with
    present := x.present ||| (1#16 <<< h.src.val)
    halls := if ho then x.halls ||| (1#16 <<< h.src.val) else x.halls &&& ~~~(1#16 <<< h.src.val) }

theorem execStairStatusFrame_on (ho y : Bool) (hr : s.stairRuns = true) (hd : s.stair.downUp = true) (hv : h.via = .sd)
    (hc : h.crcOk = true) (ha : h.dst = 0xFF) : execStairStatusFrame h ho y s =
      .next (if s.newel then setStair (stairMapped h ho) (frameHeard h 7 (statusBytes h.src.val ho y) true s)
        else frameHeard h 7 (statusBytes h.src.val ho y) true s) := by
  rw [execStairStatusFrame, stairTake_all _ (hv ▸ stairHears_sd 7 hr hd) hc ha,
    (frameHeard_noted h 7 (statusBytes h.src.val ho y) true s).newel]
  cases hn : s.newel
  · simp
  · simp only [hv]
    rfl

end Sys2Proof.Machine

open Sys2Proof.Machine in
/-- Settles O54, frame by frame: a frame heard changes only what `Noted` leaves open and the output, and then acts. -/
theorem stairTime : Obligations.StairTime := by
  unfold Obligations.StairTime
  intro s hs hl ht
  have hr : s.stairRuns = true := stairRuns_of_on hs hl
  refine ⟨fun hn hu => execTimeReqSend_on hr hu hn ht, fun h t2 hd hv hc ha => ?timeReq,
    fun h t1 t2 t3 t4 hn hu hv hc ha h1 => ?timeResp, fun h m hh hc ha hv hn => ?share,
    fun hb hn hu => execStatusSend_on hr hb hn hu, fun h ho y hd hv hc ha => ?status⟩
  case timeReq =>
    have run := execTimeReq_on t2 hr hd ht hv hc ha
    have frame := execTimeReq_frame ⟨h, t2⟩ s _ run
    refine ⟨_, run, rfl, ?_, by simp only [SameRegisters, frame, and_self], by simp only [SameGallery, frame, implies_true],
      by simp only [frame]⟩
    rw [frameHeard_eq]
    rfl
  case timeResp =>
    have run := execTimeResp_on (t2 := t2) (t3 := t3) (t4 := t4) hr hu hn ht hv hc ha h1
    have frame := execTimeResp_frame h (t2, t3) t4 s _ run
    have heard := frameHeard_noted h 4 (stampBytes t2 t3) false s
    have noted := heard.trans (placed_noted h _)
    have fault : s.pos ≤ h.src.val → (placed h (frameHeard h 4 (stampBytes t2 t3) false s)).stair.posErr = true := fun hp =>
      placed_posErr (heard.newel.trans hn) (heard.pos.trans_le hp)
    generalize placed h (frameHeard h 4 (stampBytes t2 t3) false s) = v at run frame noted fault
    obtain ⟨o, ho⟩ : ∃ o, o = stairTheta t1 (stampNear t2 t4) (stampNear t3 t4) t4 (sfld (s.reg 0x50108) 0 16) :=
      ⟨_, rfl⟩
    rw [takeTimeResp_eq (o := o) (by rw [noted.reg, ho])] at run frame
    have stair := answered_stair o v
    have good : v.stair.good = s.stair.good := by rw [noted.stair]
    have bad : v.stair.bad = s.stair.bad := by rw [noted.stair]
    refine ⟨_, run, by rw [stair], ?_⟩
    rw [← ho, stair]
    refine ⟨rfl, fault, fun hn => ?near, fun hf => ?far, fun hn hg hg' => ?synced, fun hf hb hb' hy => ?lost, fun hq => ?still,
      by simp only [SameRegisters, frame, and_self], by simp only [SameGallery, frame, implies_true]⟩
    case near => exact ⟨by rw [goodRun_near _ hn, good], badRun_near _ hn⟩
    case far => exact ⟨goodRun_far _ hf, by rw [badRun_far _ hf, bad]⟩
    case synced => simp [goodRun_near _ hn, badRun_near _ hn, good, satInc_full hg hg']
    case lost =>
      have full : badRun o v.stair = 16 := by rw [badRun_far _ hf, bad, satInc_full hb hb']
      have synced : v.stair.sync = true := by rw [noted.stair]; exact hy
      exact ⟨by simp [full], answered_pend ((noted.isOn _).trans hs) ((noted.isOn _).trans ht) synced full.ge⟩
    case still =>
      refine (answered_tb ?_).trans noted.tb
      rw [noted.standby, noted.stair]
      exact hq
  case share =>
    refine ⟨_, execShare_on hh hc ha hv hn, ?_, fun hsu hd => frameHeard_relayed_su 5 (shareBytes m) hsu hd, ?_⟩
    · rw [frameHeard_eq, setStair_stair, (samePosition_noted h s).stair]
    · rw [frameHeard_eq]
      rfl
  case status =>
    have run := execStairStatusFrame_on ho y hr hd hv hc ha
    refine ⟨fun hn => ?newel, fun hn => ?below⟩
    case newel =>
      rw [if_pos hn] at run
      refine ⟨_, run, ?_, ?_⟩
      · rw [frameHeard_eq, setStair_stair, (samePosition_noted h s).stair]
        rfl
      · rw [frameHeard_eq]
        rfl
    case below =>
      rw [if_neg (by simp [hn])] at run
      refine ⟨_, run, frameHeard_eq h 7 _ true s, fun hu => frameHeard_relayed_sd 7 _ hv hu, fun hw hp => ?_⟩
      have own := samePosition_own (s := s) (by simp [hv]) hw hp
      have noted := noteHeard_noted h s
      have below := noted.newel.trans hn
      rw [frameHeard_eq, own]
      exact ⟨posFault_posErr below, fun he => posFault_pend ((noted.isOn _).trans hs) below he⟩

end

section
/-! Deliver trains that come back or come from the partner, and the time messages of a pair (R141, R340, R343, R352). -/

namespace Sys2Proof.Machine

open Sys2Proof

variable {s : State} {f : Fin 9}

theorem runs_of_paired (hp : s.paired = true) : s.Runs := by
  simp only [State.paired, Bool.and_eq_true] at hp
  exact hp.1

theorem standby_of_state {n : Nat} (h : s.twin.state = n) : s.standby = decide (2 ≤ n) := by rw [State.standby, h]

/-! Divergence (R340, R342). -/

/-- The twin's own record of a divergence of the bits of `m`. -/
def noteDivergence (m : BitVec 10) (s : State) : State :=
  setTwin (fun t => { t with
    stepMap := t.stepMap &&& ~~~m, diverge := satInc 63 t.diverge
    divTimes := s.now :: t.divTimes.filter fun x => decide (s.now < x + 1000000000) }) s

/-- The third divergence within 1 s ends the step (R342). -/
def stepEnds (s : State) : State :=
  if s.twin.state = 2 ∧ 3 ≤ s.twin.divTimes.length then setTwin (fun t => { t with state := 3, stepMap := 0 }) s else s

theorem diverge_eq {m : BitVec 10} (h : m &&& s.twin.stepMap ≠ 0) : diverge m s =
    stepEnds (raise 213 ((m &&& s.twin.stepMap).setWidth 32) (noteDivergence (m &&& s.twin.stepMap) s)) :=
  if_neg h

theorem oneBit_and {m : BitVec 10} (h : m.getLsbD f.val = true) : (1#10 <<< f.val &&& m).getLsbD f.val = true := by
  have inside : f.val < 10 := by omega
  simp [h, inside]

theorem stepEnds_bit {i : Nat} (h : s.twin.stepMap.getLsbD i = false) : (stepEnds s).twin.stepMap.getLsbD i = false := by
  unfold stepEnds
  split
  · exact BitVec.getLsbD_zero
  · exact h

/-- What the end of the step leaves alone. -/
theorem stepEnds_kept (s : State) : (stepEnds s).events = s.events ∧ (stepEnds s).out = s.out ∧
    (stepEnds s).twin.diverge = s.twin.diverge := by
  unfold stepEnds
  split <;> exact ⟨rfl, rfl, rfl⟩

/-- A flight in step that diverges leaves STEP_MAP, with its event and its count. -/
theorem diverge_flight (hs : s.Runs) (h : s.twin.stepMap.getLsbD f.val = true) : let t := diverge (1#10 <<< f.val) s
    t.twin.stepMap.getLsbD f.val = false ∧ (t.evt 213).pend = true ∧ t.twin.diverge = satInc 63 s.twin.diverge ∧
      ∀ o ∈ s.out, o ∈ t.out := by
  have member := oneBit_and h
  dsimp only
  rw [diverge_eq (fun zero => by simp [zero] at member)]
  generalize 1#10 <<< f.val &&& s.twin.stepMap = m at member
  obtain ⟨events, out, count⟩ := stepEnds_kept (raise 213 (m.setWidth 32) (noteDivergence m s))
  refine ⟨stepEnds_bit ?_, ?_, ?_, fun o ho => ?_⟩
  · simp [noteDivergence, member]
  · rw [State.evt, events]
    exact raise_pend_same (s := noteDivergence m s) _ hs (by decide)
  · rw [count]
    simp [noteDivergence]
  · rw [out]
    exact raise_out 213 _ ho

/-! Trains that return (R141, R340). -/

/-- The return of a flight's deliver train is stamped. -/
def noteReturn (f : Fin 9) (s : State) : State := s.setFlight f.val fun x => { x with back := some s.now }

/-- A standby relays the stamp. -/
def relayReturn (f : Fin 9) (s : State) : State := emit (.stamp f s.standbyWest (low40 s.now)) (noteReturn f s)

@[simp] theorem relayReturn_flight (f : Fin 9) (s : State) :
    (relayReturn f s).flight f.val = { s.flight f.val with back := some s.now } :=
  setFlight_flight_same s f.val _ f.isLt

theorem execActiveTrainObserved_alone (train : List Byte) (hr : s.ringOn f.val = true) (h0 : s.aon.straps.role = 0)
    (hb : s.standby = false) : execActiveTrainObserved f train s = .next (noteReturn f s) := by
  have own : (noteReturn f s).standby = false := hb
  unfold execActiveTrainObserved
  rw [if_neg (by simp [hr, h0])]
  dsimp only
  rw [← noteReturn, own, Bool.false_and, if_neg Bool.false_ne_true, own]
  rfl

theorem execActiveTrainObserved_standby (train : List Byte) (hr : s.ringOn f.val = true) (hl : s.linkUp = true)
    (hb : s.standby = true) : execActiveTrainObserved f train s =
      .next (if !s.ringUp f.val || (s.flight f.val).rep || !trailerOk train then relayReturn f s
        else if (trainFrames train).flatMap (fun x => bytesAt x 0 36) = (s.flight f.val).heads then relayReturn f s
        else diverge (1#10 <<< f.val) (relayReturn f s)) := by
  have relayed : (if (noteReturn f s).standby && (noteReturn f s).linkUp then
      emit (.stamp f (noteReturn f s).standbyWest (low40 s.now)) (noteReturn f s) else noteReturn f s) = relayReturn f s :=
    if_pos (by simp [show (noteReturn f s).standby = true from hb, show (noteReturn f s).linkUp = true from hl])
  have ring : (relayReturn f s).ringUp f.val = s.ringUp f.val := rfl
  have own : (relayReturn f s).standby = true := hb
  unfold execActiveTrainObserved
  rw [if_neg (by simp [hr, hb])]
  dsimp only
  rw [← noteReturn, relayed, own, ring, relayReturn_flight, Bool.not_true, Bool.false_or]

/-- The frames of the train are the standby's own, or are not compared: a ring it sends nothing on, a REPEAT, or a train whose
trailer fails (R340, log 85). -/
def sameFrames (f : Fin 9) (train : List Byte) (s : State) : Prop :=
  s.ringUp f.val = false ∨ (s.flight f.val).rep = true ∨ trailerOk train = false ∨
    (trainFrames train).flatMap (fun x => bytesAt x 0 36) = (s.flight f.val).heads

theorem execActiveTrainObserved_same {train : List Byte} (hr : s.ringOn f.val = true) (hl : s.linkUp = true)
    (hb : s.standby = true) (h : sameFrames f train s) : execActiveTrainObserved f train s = .next (relayReturn f s) := by
  rw [execActiveTrainObserved_standby train hr hl hb]
  rcases h with h | h | h | h
  · rw [if_pos (by simp [h])]
  · rw [if_pos (by simp [h])]
  · rw [if_pos (by simp [h])]
  · rw [if_pos h, ite_self]

theorem execActiveTrainObserved_differs {train : List Byte} (hr : s.ringOn f.val = true) (hl : s.linkUp = true)
    (hb : s.standby = true) (h : ¬ sameFrames f train s) :
    execActiveTrainObserved f train s = .next (diverge (1#10 <<< f.val) (relayReturn f s)) := by
  obtain ⟨ring, repeated, trailer, frames⟩ : s.ringUp f.val = true ∧ (s.flight f.val).rep = false ∧ trailerOk train = true ∧
      (trainFrames train).flatMap (fun x => bytesAt x 0 36) ≠ (s.flight f.val).heads := by
    simpa [sameFrames] using h
  rw [execActiveTrainObserved_standby train hr hl hb, if_neg (by simp [ring, repeated, trailer]), if_neg frames]

/-! A deliver train from the partner (R352). -/

/-- An active hears the train of a partner: EPOCH of the partner as event 214. -/
def notePartner (epoch : BitVec 16) (s : State) : State := raise 214 (epoch.setWidth 32) s

theorem execPartnerTrainReceived_on (epoch : BitVec 16) (hu : s.ringUp f.val = true) (ha : s.twin.state = 1) :
    execPartnerTrainReceived f (!s.trainWest) epoch s = .next
      (if (epoch - s.twin.epoch).toNat < 32768 then superseded (notePartner epoch s) else notePartner epoch s) :=
  congrArg _ (if_neg (by simp [hu, ha]))

theorem notePartner_evt (epoch : BitVec 16) (hs : s.Runs) :
    ((notePartner epoch s).evt 214).pend = true ∧ ((notePartner epoch s).evt 214).data = epoch.setWidth 32 := by
  rw [notePartner, raise_evt _ _ _ hs, vget_vmod_same _ _ _ _ (by decide)]
  exact ⟨rfl, rfl⟩

/-! Time messages (R343). -/

/-- What an offset of its active's time says of the standby's step. -/
def judgeOffset (o : Int) (s : State) : State :=
  let s := setTwin (fun t => { t with tofsBad := if 320 < o.natAbs then satInc 16 t.tofsBad else 0 }) s
  if 16 ≤ s.twin.tofsBad then setTwin (fun t => { t with state := 3 }) s else s

/-- The measurement is noted, and judged. -/
def noteOffset (o : Int) (s : State) : State := judgeOffset o (setTwin (fun t => { t with tofs := some o }) s)

theorem noteOffset_eq (o : Int) (s : State) :
    noteOffset o s = { s with twin := (noteOffset o s).twin } ∧ (noteOffset o s).twin.tofs = some o := by
  unfold noteOffset judgeOffset
  dsimp only
  split <;> split <;> exact ⟨rfl, rfl⟩

theorem execTwinTimeMessage_standby (sum : Int) (hp : s.paired = true) (hl : s.linkUp = true) (hb : s.standby = true)
    (ht : s.isOn .timebase = true) :
    execTwinTimeMessage sum s = .next (servo (twinOffset sum s) (noteOffset (twinOffset sum s) s)) := by
  unfold execTwinTimeMessage
  rw [if_neg (by simp [hp, hl, ht])]
  exact congrArg _ (if_pos hb)

theorem servo_zero (s : State) : servo 0 s = s := if_pos rfl

/-- The rate of the servo lies within the range of R60, and the count goes on from where it stands. -/
theorem servo_rate {o : Int} (ho : o ≠ 0) (hh : s.anyHallOn = true) : 0x01FF7CED92 ≤ (servo o s).tb.incr.toNat ∧
    (servo o s).tb.incr.toNat ≤ 0x020083126E ∧ (servo o s).tbAll = s.tbAll := by
  unfold servo
  rw [if_neg ho, if_neg (by simp [hh])]
  refine ⟨?_, ?_, rfl⟩ <;> simp only [BitVec.toNat_ofNat] <;> omega

end Sys2Proof.Machine
end

section
/-! The commit word and the breaks of a ring, as a standby takes them from its active (R147, R339, R340, R361). -/

namespace Sys2Proof.Machine

open Sys2Proof

/-- Turns that each leave the state as it is leave it so together. -/
theorem each_id {α σ : Type} {l : List α} {g : α → σ → σ} {s : σ} (h : ∀ x ∈ l, g x s = s) : each l g s = s := by
  unfold each
  induction l with
  | nil => rfl
  | cons x r ih =>
    rw [List.foldl_cons, h x List.mem_cons_self]
    exact ih fun y hy => h y (List.mem_cons_of_mem x hy)

variable {s : State} {f : Fin 9}

/-! The commit word. -/

/-- A flight's own copy waits no more; the others' are as they were. -/
theorem commitFlight_flight (g k : Nat) (s : State) :
    (commitFlight g s).flight k = (s.setFlight g fun x => { x with newCtx := [] }).flight k := by
  have kept : (each (s.flight g).newCtx (fun x s => { s with treads := vset s.treads x.1 x.2 }) s).flights = s.flights :=
    each_keep State.flights _ _ _ fun _ _ => rfl
  simp only [commitFlight, State.flight, State.setFlight] at kept ⊢
  rw [kept]

theorem commitFlight_rep (g k : Nat) (s : State) : ((commitFlight g s).flight k).rep = (s.flight k).rep := by
  rw [commitFlight_flight]
  exact setFlight_keeps (P := fun x => x.rep = (s.flight k).rep) g (fun _ h => h) rfl

theorem freshFlight_complete {g : Nat} (h : (s.flight g).rep = false) : freshFlight g s = commitFlight g s := by
  simp [freshFlight, h]

/-- Flights whose frames were complete all become current. -/
theorem each_freshFlight {l : List Nat} (h : ∀ g ∈ l, (s.flight g).rep = false) :
    each l freshFlight s = each l commitFlight s := by
  unfold each
  induction l generalizing s with
  | nil => rfl
  | cons x r ih =>
    rw [List.foldl_cons, List.foldl_cons, freshFlight_complete (h x List.mem_cons_self)]
    exact ih fun g hg => (commitFlight_rep x g s).trans (h g (List.mem_cons_of_mem x hg))

theorem each_commitFlight_waits {l : List Nat} {k : Nat} (hk : k ∈ l) (h9 : k < 9) :
    ((each l commitFlight s).flight k).newCtx = [] := by
  refine each_hits (P := fun s => (s.flight k).newCtx = []) (Q := fun _ => True) hk (fun u _ => ?_) (fun _ _ h => h)
    (fun g u h => ?_) trivial
  · rw [commitFlight_flight, setFlight_flight_same _ _ _ h9]
  · rw [commitFlight_flight]
    exact setFlight_keeps (P := fun x => x.newCtx = []) g (fun _ _ => rfl) h

theorem each_commitFlight_other {l : List Nat} {k : Nat} (hk : k ∉ l) : (each l commitFlight s).flight k = s.flight k := by
  unfold each
  induction l generalizing s with
  | nil => rfl
  | cons x r ih =>
    obtain ⟨hx, hr⟩ := not_or.mp (mt List.mem_cons.mpr hk)
    rw [List.foldl_cons, ih hr, commitFlight_flight, setFlight_flight_ne _ _ _ _ (Ne.symm hx)]

theorem commitAtrium_waits (s : State) : (commitAtrium s).atr.newCtx = none := by
  unfold commitAtrium
  split
  · rfl
  · next h => exact h

/-- The flights that a commit word marks FRESH and that this device serves. -/
def freshOf (fresh : BitVec 9) (s : State) : List Nat := s.running.filter fun f => fresh.getLsbD f

theorem mem_freshOf {fresh : BitVec 9} {g : Nat} : g ∈ freshOf fresh s ↔ g ∈ s.running ∧ fresh.getLsbD g = true :=
  List.mem_filter

theorem lt_of_mem_running {g : Nat} (h : g ∈ s.running) : g < 9 := List.mem_range.mp (List.mem_filter.mp h).1

/-- A commit word that agrees with the standby's own copies makes them current (R339). -/
theorem execCommitWord_agrees {fresh : BitVec 9} {crcs : List Word} (hp : s.paired = true) (hl : s.linkUp = true)
    (hb : s.standby = true)
    (hf : ∀ g ∈ s.running, fresh.getLsbD g = true → (s.flight g).rep = false ∧ wd crcs g = flightCrc g s)
    (he : ∃ g ∈ s.running, fresh.getLsbD g = true) (hm : s.atr.missed = false)
    (ha : 9 < crcs.length → wd crcs 9 = atriumCrc s.newAtr) :
    execCommitWord fresh crcs s = .next (commitAtrium (each (freshOf fresh s) commitFlight s)) := by
  have complete : ∀ g ∈ freshOf fresh s, (s.flight g).rep = false := fun g hg =>
    (hf g (mem_freshOf.mp hg).1 (mem_freshOf.mp hg).2).1
  have agree : ((freshOf fresh s).filter fun g => !(s.flight g).rep && wd crcs g != flightCrc g s) = [] :=
    List.filter_eq_nil_iff.mpr fun g hg => by
      simp [(hf g (mem_freshOf.mp hg).1 (mem_freshOf.mp hg).2).2]
  have some : (freshOf fresh s).isEmpty = false := by
    obtain ⟨g, hr, hg⟩ := he
    exact List.isEmpty_eq_false_iff.mpr (List.ne_nil_of_mem (mem_freshOf.mpr ⟨hr, hg⟩))
  have atrium : (wd crcs 9 != atriumCrc s.newAtr && decide (9 < crcs.length)) = false := by
    by_cases h9 : 9 < crcs.length
    · simp [ha h9]
    · simp [h9]
  unfold execCommitWord
  rw [if_neg (by simp [hp, hl, hb])]
  dsimp only
  rw [← freshOf, agree, each_freshFlight complete, some, atrium]
  exact congrArg _ (if_neg (by simp [hm]))

/-! The breaks of a ring. -/

/-- The SAFE requests of a segment message stand in the place of those held for its flight (R361). -/
def heldSegs (f : Fin 9) (m : SegmentMsg) (s : State) : Twin :=
  if m.safe = [] then s.twin
  else { s.twin with segs := (f.val, s.now, m.safe) :: s.twin.segs.filter fun y => y.1 != f.val }

theorem execSegmentFrames_standby (m : SegmentMsg) (hp : s.paired = true) (hl : s.linkUp = true) (hb : s.standby = true) :
    execSegmentFrames f m s =
      .next (each m.breaks.reverse (takeBreak f.val (near40 m.from40 s)) { s with twin := heldSegs f m s }) := by
  unfold execSegmentFrames heldSegs
  rw [if_pos (by simp [hp, hl, hb])]
  by_cases h : m.safe = []
  · simp only [h, List.isEmpty_nil, if_true]
  · simp only [h, List.isEmpty_iff, if_false]
    rfl

theorem heldSegs_kept (f : Fin 9) (m : SegmentMsg) (s : State) :
    (heldSegs f m s).state = s.twin.state ∧ (heldSegs f m s).mute = s.twin.mute := by
  unfold heldSegs
  split <;> exact ⟨rfl, rfl⟩

theorem takeBreak_known {t hop : Nat} (h : hop ∈ (s.flight f.val).breaks) : takeBreak f.val t hop s = s :=
  if_pos (List.contains_iff_mem.mpr h)

/-- A break that the standby is told of wraps its own copy of the ring, from the departure named (R147). -/
theorem takeBreak_new {t hop : Nat} (hs : s.Runs) (hb : s.standby = true) (hu : s.ringUp f.val = true)
    (hn : hop ∉ (s.flight f.val).breaks) :
    ((takeBreak f.val t hop s).flight f.val).breaks = hop :: (s.flight f.val).breaks ∧
      (hop, t) ∈ ((takeBreak f.val t hop s).flight f.val).due ∧ ((takeBreak f.val t hop s).evt (128 + f.val)).pend = true ∧
      (takeBreak f.val t hop s).cells = s.cells ∧ (takeBreak f.val t hop s).twin = s.twin := by
  have unknown : (s.flight f.val).breaks.contains hop = false := by simpa using hn
  have taken : takeBreak f.val t hop s = (noteBreak f.val hop s).setFlight f.val fun x =>
      { x with due := x.due.map fun d => if d.1 = hop then (hop, t) else d } := by
    rw [takeBreak, unknown, breakAt_eq _ _ _ hu unknown, noteBreak_standby, hb]
    rfl
  obtain ⟨breaks, pend⟩ := noteBreak_broken (f := f) hs hop
  have due : (hop, s.now + 1000) ∈ ((noteBreak f.val hop s).flight f.val).due := by
    simp only [noteBreak, State.flight, raise_frame]
    rw [show vget (s.setFlight f.val _).flights f.val {} = _ from setFlight_flight_same s f.val _ f.isLt]
    exact List.mem_cons_self
  rw [taken, setFlight_flight_same _ _ _ f.isLt]
  exact ⟨breaks, List.mem_map.mpr ⟨_, due, if_pos rfl⟩, pend, (noteBreak_others f.val hop s).2, by simp [noteBreak]⟩

end Sys2Proof.Machine
end

section
/-! The decision words of the active: a cell that it takes out, and its safe stack block (R249, R336, R361, R389, R405). -/

namespace Sys2Proof.Machine

open Sys2Proof

variable {s u : State} {k : Fin 63}

/-! A word on a cell. -/

/-- A register stands as it does through every part of a decision. -/
theorem reg_decisionKeeps (a : Nat) (v : Word) : DecisionKeeps fun s => s.reg a = v where
  emit _ _ h := h
  raise e w s h := (raise_reg e w s a).trans h
  log e b y w c _ h := logRecord_keeps (Q := fun s => s.reg a = v) (fun e w s h => (raise_reg e w s a).trans h)
    (fun _ _ h => h) (fun _ _ h => h) e b y w c h
  safe _ _ h := h
  cell _ _ _ _ h := h
  ends _ h := h
  remap _ _ _ h := h
  short _ _ _ h := h

/-- Of the cells, a word's mark of a permanent bypass changes the mark of its own alone (R294). -/
theorem permWord_cell (perm : Bool) (k : Fin 63) (s : State) :
    ((if perm then setPerm k.val s else s).cell k.val) = { s.cell k.val with perm := (s.cell k.val).perm || perm } ∧
      (∀ j, j ≠ k.val → (if perm then setPerm k.val s else s).cell j = s.cell j) := by
  have marked : (s.cell k.val).perm = true → { s.cell k.val with perm := true } = s.cell k.val := fun h => by rw [← h]
  cases perm
  · simp
  · unfold setPerm
    by_cases h : (s.cell k.val).perm = true
    · simp [h, marked]
    · have logged : ∀ v : State, ∀ j, (logRecord k.val 0x21 (BitVec.ofNat 16 k.val) 0 0 v).cell j = v.cell j := fun v j => by
        simp only [State.cell, logRecord_frame]
      simp only [if_true, if_neg h, logged, Bool.or_true]
      exact ⟨setCell_cell_same _ _ _ k.isLt, fun j hj => setCell_cell_ne _ _ _ _ (Ne.symm hj)⟩

/-- The cell's record of the word, before its reaction: the mark, a GS trip, and the decision (R283, R294, R336). -/
def noteWord (k react cls : Nat) (perm : Bool) (s : State) : State :=
  let u := if perm then setPerm k s else s
  noteDecision k cls react (u.setCell k fun c => { c with
    gsTrips := if cls = 2 ∧ (react = 5 ∨ (perm ∧ u.reaction 2 = 5)) then
      s.now :: c.gsTrips.filter fun x => decide (s.now < x + 1000000000) else c.gsTrips })

/-- What the note leaves of the cell for its reaction. -/
structure WordNoted (k react cls : Nat) (perm : Bool) (s u : State) : Prop where
  req : (u.cell k).req = (s.cell k).req
  use : (u.cell k).inUse = (s.cell k).inUse
  lastClass : (u.cell k).lastClass = cls
  perm : (u.cell k).perm = ((s.cell k).perm || perm)
  others : ∀ j, j ≠ k → u.cell j = s.cell j
  now : u.now = s.now
  lead : u.lead = s.lead
  twin : u.twin = s.twin

theorem noteWord_noted (k : Fin 63) (react cls : Nat) (perm : Bool) (s : State) :
    WordNoted k.val react cls perm s (noteWord k.val react cls perm s) := by
  obtain ⟨own, others⟩ := permWord_cell perm k s
  have lead : (if perm then setPerm k.val s else s).reg 0x108 = s.reg 0x108 := by
    split
    · exact (reg_decisionKeeps 0x108 _).setPerm k.val rfl
    · rfl
  have twin : (if perm then setPerm k.val s else s).twin = s.twin ∧ (if perm then setPerm k.val s else s).tb = s.tb := by
    split <;> simp
  unfold noteWord noteDecision
  generalize (if perm = true then setPerm k.val s else s) = u at *
  obtain ⟨twin, tb⟩ := twin
  refine ⟨?req, ?use, ?lastClass, ?perm, fun j hj => ?others, congrArg (fun x => x.ns.toNat) tb, congrArg (fun x => fld x 16 16) lead, twin⟩
  case others => rw [setCell_cell_ne _ _ _ _ (Ne.symm hj), setCell_cell_ne _ _ _ _ (Ne.symm hj), others j hj]
  case use =>
    rw [setCell_cell_same _ _ _ k.isLt, setCell_cell_same _ _ _ k.isLt, own]
    rfl
  all_goals rw [setCell_cell_same _ _ _ k.isLt, setCell_cell_same _ _ _ k.isLt, own]

/-- A cell in use of which nothing has been decided yet takes the pattern of BLOCK or BYPASS (R293). -/
theorem takeCellWord_eq {react cls : Nat} {perm : Bool} (t : Nat) (hr : react = 1 ∨ react = 2)
    (hu : (s.cell k.val).inUse = true) (hd : (s.cell k.val).decided = []) : takeCellWord k.val react cls perm t s =
      atLanding t s (leave k.val (reactPat react) (noteWord k.val react cls perm s)) := by
  have noted := noteWord_noted k react cls perm s
  have out : carryOut k.val cls react (noteWord k.val react cls perm s) =
      leave k.val (reactPat react) (noteWord k.val react cls perm s) := by
    have use := noted.use.trans hu
    rcases hr with rfl | rfl <;> simp [carryOut, use]
  unfold takeCellWord
  extract_lets now old u trip v weak w
  have strongest : weak = false := by
    have decided : (v.cell k.val).decided = (s.cell k.val).decided := by
      rw [setCell_cell_same _ _ _ k.isLt, (permWord_cell perm k s).1]
    simp [weak, State.outranked, decided, hd]
  rw [strongest]
  exact congrArg (atLanding t s) out

theorem overtake_cell (i j : Nat) (s : State) : (overtake i s).cell j = s.cell j := by simp only [State.cell, overtake_frame]

/-- A cell that waits for no pattern takes `pat` from now on. -/
theorem leave_cell (pat : Nat) (k : Fin 63) (h : (s.cell k.val).req = none) : (leave k.val pat s).cell k.val =
    { (s.cell k.val).endRestore with req := some (pat, s.now), retry := pat == 0 } := by
  unfold leave leaveWith
  dsimp only
  rw [overtake_cell, setCell_cell_same _ _ _ k.isLt]
  simp only [h, Option.map_none, Option.getD_none, Nat.zero_max]

theorem leave_others (pat : Nat) {j : Nat} (hj : j ≠ k.val) : (leave k.val pat s).cell j = s.cell j := by
  unfold leave leaveWith
  dsimp only
  rw [overtake_cell, setCell_cell_ne _ _ _ _ (Ne.symm hj)]

/-- The landing of a word bears on the cell that has a new pattern, and on no other (R361). -/
theorem atLanding_one (t : Nat) (h : ∀ j, j ≠ k.val → (u.cell j).req = (s.cell j).req)
    (hk : (u.cell k.val).req ≠ (s.cell k.val).req) : atLanding t s u = u.setCell k.val fun c => { c with
      req := c.req.map fun r => (r.1, min r.2 (t - u.lead - 200))
      words := (u.now, (s.cell k.val).req) :: c.words.filter fun w => decide (u.now < w.1 + 200) } := by
  have changed : ((List.range 63).filter fun j => (u.cell j).req != (s.cell j).req) = [k.val] := by
    have only : ∀ j ∈ List.range 63, ((u.cell j).req != (s.cell j).req) = (j == k.val) := fun j _ => by
      by_cases hj : j = k.val
      · simpa [hj] using hk
      · simp [hj, h j hj]
    rw [List.filter_congr only, List.filter_beq, List.count_eq_one_of_mem List.nodup_range (List.mem_range.mpr k.isLt)]
    rfl
  rw [atLanding, changed]
  rfl

/-- The decision is held for a takeover (R349). -/
def holdDecision (d : Decision) (s : State) : State := setTwin (fun x => { x with decisions := (d, false) :: x.decisions }) s

theorem execDecisionWord_cell {react cls : Fin 8} {perm : Bool} {a : Nat} (hp : s.paired = true) (hl : s.linkUp = true)
    (hb : s.standby = true) : execDecisionWord (.cell k react cls perm a) s =
      .next (takeCellWord k.val react.val cls.val perm (near40 a s) (holdDecision (.cell k react cls perm a) s)) :=
  congrArg _ (if_neg (by simp [hp, hl, hb]))

/-- What the active's decision to BLOCK or BYPASS leaves at its cell: the pattern from the departure of the landing named, or from
now, if that is earlier. -/
theorem takeCellWord_taken {react cls : Nat} {perm : Bool} (t : Nat) (hr : react = 1 ∨ react = 2)
    (hu : (s.cell k.val).inUse = true) (hq : (s.cell k.val).req = none) (hd : (s.cell k.val).decided = []) :
    let v := takeCellWord k.val react cls perm t s
    (v.cell k.val).req = some (reactPat react, min s.now (t - s.lead - 200)) ∧ (v.cell k.val).lastClass = cls ∧
      (v.cell k.val).perm = ((s.cell k.val).perm || perm) ∧ (∀ j, j ≠ k.val → v.cell j = s.cell j) ∧ v.twin = s.twin := by
  have noted := noteWord_noted k react cls perm s
  dsimp only
  rw [takeCellWord_eq t hr hu hd]
  generalize noteWord k.val react cls perm s = v at noted
  have own := leave_cell (reactPat react) k (noted.req.trans hq)
  have lead : (leave k.val (reactPat react) v).lead = v.lead :=
    congrArg (fun x => fld x 16 16) ((reg_decisionKeeps 0x108 (v.reg 0x108)).leaveWith k.val _ rfl)
  have others : ∀ j, j ≠ k.val → (leave k.val (reactPat react) v).cell j = s.cell j := fun j hj =>
    (leave_others _ hj).trans (noted.others j hj)
  rw [atLanding_one t (fun j hj => by rw [others j hj]) (by simp [own, hq]), setCell_cell_same _ _ _ k.isLt, own, lead]
  refine ⟨?_, noted.lastClass, noted.perm, fun j hj => ?_, ?_⟩
  · simp [noted.now, noted.lead]
  · rw [setCell_cell_ne _ _ _ _ (Ne.symm hj), others j hj]
  · simp [noted.twin]

/-! Safe stack block of the active. -/

theorem or_oneBit {n i : Nat} {x : BitVec n} (h : x.getLsbD i = true) : x ||| (1#n <<< i) = x := by
  refine BitVec.eq_of_getLsbD_eq fun j hj => ?_
  have same : j = i → x.getLsbD j = true := fun hi => hi ▸ h
  rw [BitVec.getLsbD_or, BitVec.getLsbD_shiftLeft, BitVec.getLsbD_one, Bool.or_eq_left_iff_imp]
  intro bit
  simp only [Bool.and_eq_true, Bool.not_eq_true', decide_eq_true_eq, decide_eq_false_iff_not] at bit
  exact same (by omega)

theorem setCause_safeCause (i : Nat) (hs : s.isOn .safety = true) :
    (setCause i s).safe.cause = s.safe.cause ||| (1#17 <<< i) := by
  unfold setCause
  split
  · next h => exact (or_oneBit (by simpa [hs] using h)).symm
  · dsimp only
    split <;> split <;> simp [ssbEntry_cause]

theorem takeSsbWord_cause (t : Nat) (hs : s.isOn .safety = true) :
    (takeSsbWord t s).safe.cause = s.safe.cause ||| (1#17 <<< 16) := by
  rw [← setCause_safeCause 16 hs]
  unfold takeSsbWord
  dsimp only
  split <;> rfl

theorem execDecisionWord_ssb {a : Nat} (hp : s.paired = true) (hl : s.linkUp = true) (hb : s.standby = true) :
    execDecisionWord (.ssb a) s = .next (takeSsbWord (near40 a s) s) :=
  congrArg _ (if_neg (by simp [hp, hl, hb]))

end Sys2Proof.Machine
end

section
/-! The state transfer of a rejoin (R340, R362): what the configuration brings, and the atrium's state copy. -/

namespace Sys2Proof.Machine

open Sys2Proof

variable {s : State}

/-! Settings of the units beside which a transfer's writes raise events and complete conversions. -/

/-- The wake set, the units' states, the configuration of the capture, and the privileged slices. -/
def unitSettings (s : State) : Word × Vector DomState 10 × Vector DomState 16 × Word × Word :=
  (s.aon.wakeSet, s.aon.dom, s.aon.bank, s.atr.cap.cfg, s.meas.priv)

theorem raise_settings (e : Nat) (w : Word) (s : State) : unitSettings (raise e w s) = unitSettings s := by
  have wake : (raise e w s).aon.wakeSet = s.aon.wakeSet := by
    rw [raise_aon]
    split <;> rfl
  have cap : CapAt s.atr.cap.cfg s.atr.cap.count (raise e w s) := raise_capAt e w ⟨rfl, rfl⟩
  simp only [unitSettings, wake, raise_dom, raise_banks, cap.1, raise_frame]

theorem calFeed_settings (src a : Nat) (v : Int) (clip : Bool) (s : State) :
    unitSettings (calFeed src a v clip s) = unitSettings s := by
  refine each_keep unitSettings _ _ _ fun m u => ?_
  have taken : ∀ c, unitSettings (calTake c 256 v clip u) = unitSettings u := fun c => by
    unfold calTake
    split
    · split <;> rfl
    · rfl
  dsimp only
  split
  · exact taken _
  · rfl

theorem complete_settings (n e : Nat) (c : Conv) (v : BitVec 16) (clip settle test : Bool) (s : State) :
    unitSettings (complete n e c v clip settle test s) = unitSettings s := by
  unfold complete
  refine (calFeed_settings _ _ _ _ _).trans ?_
  split
  · exact raise_settings _ _ _
  · rfl

/-- A sequence written as a whole leaves the settings beside it. -/
theorem writeSeq_settings (n : Nat) (cfg : Word) (ent : Vector Word 16) (s : State) :
    unitSettings (writeSeq n cfg ent s) = unitSettings s := by
  have settled : unitSettings (settleSeq n s) = unitSettings s :=
    each_keep unitSettings _ _ _ fun e _ => each_keep unitSettings _ _ _ fun c u => complete_settings _ _ _ _ _ _ _ u
  exact settled

/-! The configuration. -/

/-- The registers of AON, the compares, the PLL outputs and the capture, as the active has them. -/
def regsTaken (r : UnitRegs) (s : State) : State :=
  { s with
    aon := { s.aon with
      wakeSet := r.wakeSet, wakeOnAddr := r.wakeOnAddr, auto := r.auto
      buckFreq := r.buck.1, ilim0 := r.buck.2.1, ilim1 := r.buck.2.2 }
    tb := { s.tb with
      tc := (r.tc.zip (List.range 16)).foldl (fun v x => vmod v x.2 (takeCompare x.1)) s.tb.tc
      pllPend := r.pllPend, pllAct := r.pllAct }
    atr := { s.atr with cap := { s.atr.cap with cfg := r.capCfg, pre := r.capPre, chans := r.capChans } } }

/-- The ADC's sequences follow where ANALOG is ON. -/
theorem takeRegs_eq (r : UnitRegs) (s : State) : takeRegs r s =
    if s.isOn .analog then each (r.adc.zip (List.range 16)) (fun x s => writeSeq x.2 x.1.1 x.1.2 s)
      (setMeas (fun m => { m with priv := r.priv }) (regsTaken r s))
    else regsTaken r s := rfl

theorem takeRegs_settings (r : UnitRegs) (s : State) : unitSettings (takeRegs r s) =
    (r.wakeSet, s.aon.dom, s.aon.bank, r.capCfg, if s.isOn .analog then r.priv else s.meas.priv) := by
  rw [takeRegs_eq]
  split
  · exact (each_keep unitSettings _ _ _ fun x u => writeSeq_settings _ _ _ u).trans rfl
  · rfl

theorem takeRegs_tb (r : UnitRegs) (s : State) : (takeRegs r s).tb = (regsTaken r s).tb := by
  rw [takeRegs_eq]
  split <;> simp

/-- The registers of a transfer: the active's, and of the on-chip calibration the device's own (R338). -/
def sharedRegs (x : TransferConfig) (s : State) : State :=
  { s with
    cfg := (s.cfg.filter fun y => ownCalibration y.1).foldl (fun t y => tset t y.1 y.2) (x.cfg.filter fun y => !ownCalibration y.1)
    pend := x.pend }

theorem setCtx_cap (n : Nat) (g : Ctx → Ctx) (s : State) : (s.setCtx n g).atr.cap = s.atr.cap := by
  unfold State.setCtx
  split <;> rfl

/-- The states that follow the registers in a transfer leave these alone. -/
theorem takeConfig_regs (x : TransferConfig) (s : State) : let u := takeRegs x.regs (sharedRegs x s)
    (takeConfig x s).aon = u.aon ∧ (takeConfig x s).meas = u.meas ∧ (takeConfig x s).tb = u.tb ∧
      (takeConfig x s).pend = u.pend ∧ (takeConfig x s).atr.cap = u.atr.cap := by
  unfold takeConfig
  dsimp only
  rw [← sharedRegs]
  generalize takeRegs x.regs (sharedRegs x s) = u
  refine ⟨by simp [apply_ite State.aon], by simp [apply_ite State.meas], by simp [apply_ite State.tb],
    by simp [apply_ite State.pend], ?_⟩
  have ctxs : (each x.ctxs (fun x s => if s.ctxOn x.1 then s.setCtx x.1 fun _ => x.2 else s) u).atr.cap = u.atr.cap :=
    each_cap _ _ _ fun y v => by
      split
      · exact setCtx_cap _ _ v
      · rfl
  simp [apply_ite State.atr, ctxs]

theorem execStateTransferUnit_standby (u : TransferUnit) (hp : s.paired = true) (hl : s.linkUp = true)
    (hb : s.standby = true) : execStateTransferUnit u s = .next (takeUnit u s) :=
  congrArg _ (if_pos (by simp [hp, hl, hb]))

/-- The configuration of the active's units, taken whole; the time base keeps its count, and the domains and banks their states. -/
theorem takeConfig_taken (x : TransferConfig) (s : State) : let t := takeConfig x s
    t.pend = x.pend ∧ t.aon.wakeSet = x.regs.wakeSet ∧ t.atr.cap.cfg = x.regs.capCfg ∧
      (s.isOn .analog = true → t.meas.priv = x.regs.priv) ∧ t.tb = (regsTaken x.regs (sharedRegs x s)).tb ∧
      t.aon.dom = s.aon.dom ∧ t.aon.bank = s.aon.bank := by
  obtain ⟨aon, meas, tb, pend, cap⟩ := takeConfig_regs x s
  have settings := takeRegs_settings x.regs (sharedRegs x s)
  simp only [unitSettings, Prod.mk.injEq] at settings
  obtain ⟨wake, dom, bank, capCfg, priv⟩ := settings
  refine ⟨?_, by rw [aon, wake], by rw [cap, capCfg], fun on => ?_, by rw [tb, takeRegs_tb], by rw [aon, dom]; rfl,
    by rw [aon, bank]; rfl⟩
  · rw [pend]
    simp [sharedRegs]
  · rw [meas, priv]
    exact if_pos on

/-! The atrium's state copy. -/

/-- The atrium's context, injectors and arm references of the active. -/
def atriumTaken (c : Ctx) (inj : List (Nat × Injector)) (arm : List (Option F32)) (s : State) : State :=
  let s := s.setCtx 63 fun _ => c
  { s with atr := { s.atr with
    inj := inj.foldl (fun v x => vset v x.1 x.2) s.atr.inj
    hostArm := (arm.zip (List.range 3)).foldl (fun v x => vset v x.2 x.1) s.atr.hostArm } }

theorem takeUnit_atrium {c : Ctx} {inj : List (Nat × Injector)} {arm : List (Option F32)} (h : s.twin.state ≠ 3) :
    takeUnit (.atrium c inj arm) s =
      stepReached (setTwin (fun t => { t with stepMap := t.stepMap ||| (1#10 <<< 9) }) (atriumTaken c inj arm s)) :=
  if_neg h

theorem stepReached_twin (h : s.twin.state = 4) : (stepReached s).twin.stepMap = s.twin.stepMap ∧
    (stepReached s).twin.state = if s.twin.stepMap = 0x3FF#10 then 2 else 4 := by
  unfold stepReached
  by_cases full : s.twin.stepMap = 0x3FF#10
  · simp [h, full]
  · simp [h, full]

end Sys2Proof.Machine
end

section

open Sys2Proof.Machine in
/-- Settles O52, message by message: what the command of each does in a standby that hears its active, and its frame. -/
theorem twinTraffic : Obligations.TwinTraffic := by
  unfold Obligations.TwinTraffic
  refine ⟨fun s f train hr h0 hb => execActiveTrainObserved_alone train hr h0 hb, fun s hp hl => ⟨fun hb => ⟨?cell, ?ssb, ?commit,
    ?measurement, fun f m => ⟨?known, ?new⟩, ?config, ?atrium, fun f train hr => ⟨?same, ?differ⟩, ?time⟩, ?partner⟩⟩
  case cell =>
    intro k react cls perm a hr hu hq hd
    have run := execDecisionWord_cell (k := k) (react := react) (cls := cls) (perm := perm) (a := a) hp hl hb
    have frame := execDecisionWord_frame _ s _ run
    have word : react.val = 1 ∨ react.val = 2 := by rcases hr with rfl | rfl <;> decide
    obtain ⟨req, lastClass, mark, others, twin⟩ := takeCellWord_taken (s := holdDecision (.cell k react cls perm a) s)
      (cls := cls.val) (perm := perm) (near40 a s) word hu hq hd
    exact ⟨_, run, twin, req, lastClass, mark, others, by simp only [SameRegisters, frame, and_self],
      by simp only [SameGallery, frame, implies_true], by simp only [frame]⟩
  case ssb =>
    intro a hs
    have run := execDecisionWord_ssb (a := a) hp hl hb
    have frame := execDecisionWord_frame _ s _ run
    exact ⟨_, run, takeSsbWord_cause _ hs, by simp only [SameRegisters, frame, and_self],
      by simp only [SameGallery, frame, implies_true]⟩
  case commit =>
    intro fresh crcs hf he hm ha
    have run := execCommitWord_agrees hp hl hb hf he hm ha
    have frame := execCommitWord_frame _ _ s _ run
    have flight : ∀ g, (commitAtrium (each (freshOf fresh s) commitFlight s)).flight g =
        (each (freshOf fresh s) commitFlight s).flight g := fun g => by simp only [State.flight, commitAtrium_frame]
    refine ⟨_, run, fun g hr hg => ?_, fun g _ hg => ?_, commitAtrium_waits _, by simp,
      by simp only [SameRegisters, frame, and_self], by simp only [SameGallery, frame, implies_true], by simp only [frame]⟩
    · rw [flight]
      exact each_commitFlight_waits (mem_freshOf.mpr ⟨hr, hg⟩) (lt_of_mem_running hr)
    · rw [flight]
      refine each_commitFlight_other fun member => ?_
      obtain ⟨serves, marked⟩ := mem_freshOf.mp member
      rcases hg with hg | hg
      · exact hg serves
      · simp [marked] at hg
  case measurement => exact fun pts => congrArg _ (if_pos (by simp [hp, hl, hb]))
  case known =>
    intro h
    refine (execSegmentFrames_standby m hp hl hb).trans (congrArg _ (each_id fun hop member => ?_))
    exact takeBreak_known (h hop (List.mem_reverse.mp member))
  case new =>
    intro hop only hn hu
    obtain ⟨state, mute⟩ := heldSegs_kept f m s
    have run := execSegmentFrames_standby (f := f) m hp hl hb
    rw [only] at run
    have frame := execSegmentFrames_frame _ _ s _ run
    have serves : State.ringUp { s with twin := heldSegs f m s } f.val = true := by
      rw [← hu, State.ringUp, mute]
      rfl
    obtain ⟨breaks, due, pend, cells, twin⟩ := takeBreak_new (t := near40 m.from40 s) (s := { s with twin := heldSegs f m s })
      (runs_of_paired hp) ((standby_of_state state).trans hb) serves hn
    exact ⟨_, run, twin, breaks, due, pend, cells, by simp only [SameRegisters, frame, and_self],
      by simp only [SameGallery, frame, implies_true], by simp only [frame]⟩
  case config =>
    intro x h3
    have run := execStateTransferUnit_standby (.config x) hp hl hb
    have frame := execStateTransferUnit_frame _ s _ run
    rw [show takeUnit (.config x) s = takeConfig x s from if_pos (.inl h3)] at run frame
    obtain ⟨pend, wake, cap, priv, tb, dom, bank⟩ := takeConfig_taken x s
    exact ⟨_, run, rfl, rfl, rfl, pend, rfl, wake, cap, priv, by rw [tb]; rfl, by rw [tb]; rfl,
      fun c _ => by simp only [State.unitSt, State.bankSt, dom, bank], by simp only [SameGallery, frame, implies_true],
      by simp only [frame]⟩
  case atrium =>
    intro c inj arm h4
    have run := execStateTransferUnit_standby (.atrium c inj arm) hp hl hb
    have frame := execStateTransferUnit_frame _ s _ run
    rw [takeUnit_atrium (by simp [h4])] at run frame
    obtain ⟨stepMap, state⟩ := stepReached_twin
      (s := setTwin (fun t => { t with stepMap := t.stepMap ||| (1#10 <<< 9) }) (atriumTaken c inj arm s)) h4
    refine ⟨_, run, ?_, stepMap, state, ?_, by simp only [SameGallery, frame, implies_true]⟩
    · simp only [State.ctx, if_true, stepReached_frame]
      rfl
    · simp only [SameRegisters, stepReached_frame]
      exact ⟨rfl, rfl⟩
  case same => exact fun same => execActiveTrainObserved_same hr hl hb same
  case differ =>
    intro differ hin
    have run := execActiveTrainObserved_differs hr hl hb differ
    have frame := execActiveTrainObserved_frame _ _ s _ run
    obtain ⟨stepMap, pend, count, out⟩ := diverge_flight (s := relayReturn f s) (runs_of_paired hp) hin
    refine ⟨_, run, stepMap, pend, count, ?_, out _ List.mem_cons_self, by simp only [SameRegisters, frame, and_self],
      by simp only [SameGallery, frame, implies_true]⟩
    have kept : (diverge (1#10 <<< f.val) (relayReturn f s)).flight f.val = (relayReturn f s).flight f.val := by
      simp only [State.flight, diverge_frame]
    rw [kept, relayReturn_flight]
  case time =>
    intro sum ht
    have run := execTwinTimeMessage_standby sum hp hl hb ht
    have frame := execTwinTimeMessage_frame _ s _ run
    obtain ⟨noted, tofs⟩ := noteOffset_eq (twinOffset sum s) s
    have tb : (noteOffset (twinOffset sum s) s).tb = s.tb := by rw [noted]
    refine ⟨_, run, ?_, fun zero => ?_, fun off hh => ?_, by simp only [SameRegisters, frame, and_self],
      by simp only [SameGallery, frame, implies_true]⟩
    · simp only [servo_frame, tofs]
    · rw [zero, servo_zero, ← zero, tb]
    · have on : (noteOffset (twinOffset sum s) s).anyHallOn = true := by
        rw [noted]
        exact hh
      obtain ⟨least, most, count⟩ := servo_rate off on
      exact ⟨least, most, count.trans (by rw [State.tbAll, tb]; rfl)⟩
  case partner =>
    intro f epoch hu ha
    have run := execPartnerTrainReceived_on epoch hu ha
    have frame := execPartnerTrainReceived_frame _ _ _ s _ run
    obtain ⟨pend, data⟩ := notePartner_evt epoch (runs_of_paired hp)
    have twin : (notePartner epoch s).twin = s.twin := by simp [notePartner]
    refine ⟨_, run, ?_, ?_, fun newer => ?_, fun older => ?_, by simp only [SameRegisters, frame, and_self],
      by simp only [SameGallery, frame, implies_true]⟩
    · split <;> exact pend
    · split <;> exact data
    · rw [if_pos newer]
      exact ⟨rfl, rfl⟩
    · rw [if_neg (by omega), twin]

end

section
/-! What an event leaves of the atrium: of its state, the trigger of the capture alone changes (R195, R481). -/

namespace Sys2Proof.Machine

open Sys2Proof

variable {s : State}

theorem capTrigger_eq (s : State) : capTrigger s = { s with atr := { s.atr with cap := (capTrigger s).atr.cap } } := by
  unfold capTrigger
  dsimp only
  split <;> rfl

theorem capEvent_eq (e : Nat) (s : State) : capEvent e s = { s with atr := { s.atr with cap := (capEvent e s).atr.cap } } := by
  unfold capEvent
  split
  · exact capTrigger_eq s
  · rfl

theorem capInjector_eq (n : Nat) (s : State) :
    capInjector n s = { s with atr := { s.atr with cap := (capInjector n s).atr.cap } } := by
  unfold capInjector
  split
  · exact capTrigger_eq s
  · rfl

/-- A capture that is not armed takes no trigger. -/
theorem capEvent_idle (e : Nat) (h : s.atr.cap.armed = false) : capEvent e s = s := by
  unfold capEvent capTrigger
  simp [h]

theorem raise_atr (e : Nat) (w : Word) (s : State) :
    (raise e w s).atr = if s.isOn .atrium = true then (capEvent e s).atr else s.atr := by
  have slots : ∀ x : Events, (capEvent e { s with events := x }).atr = (capEvent e s).atr := fun x => by
    unfold capEvent capTrigger
    dsimp only
    split
    · split <;> rfl
    · rfl
  have sent : ∀ u : State, (if bit (u.route e) 2 then sendRecord e w u else u).atr = u.atr := fun u => by
    split <;> simp
  unfold raise
  split
  · exact (sent _).trans (slots _)
  · split <;> rfl

theorem raise_atr_frame (e : Nat) (w : Word) (s : State) :
    (raise e w s).atr = { s.atr with cap := (raise e w s).atr.cap } := by
  rw [raise_atr]
  split
  · exact congrArg State.atr (capEvent_eq e s)
  · rfl

@[simp] theorem raise_inj (e : Nat) (w : Word) (s : State) : (raise e w s).atr.inj = s.atr.inj := by
  rw [raise_atr_frame]

@[simp] theorem raise_lane (e : Nat) (w : Word) (s : State) (l : Nat) : (raise e w s).lane l = s.lane l := by
  simp only [State.lane, State.hall, raise_frame]
  rw [raise_atr_frame]

theorem raise_cap_idle (e : Nat) (w : Word) (h : s.atr.cap.armed = false) : (raise e w s).atr.cap = s.atr.cap := by
  rw [raise_atr, capEvent_idle e h, ite_self]

/-- The data of an event whose data words are not gathered (Table 14-8). -/
theorem raise_data_same {e : Nat} (w : Word) (hs : s.Runs) (he : e < 256) (ho : evtOrs e = false) :
    ((raise e w s).evt e).data = w := by
  rw [raise_evt e w s hs, vget_vmod_same _ _ _ _ he]
  simp [ho]

end Sys2Proof.Machine
end

section
/-! The self-tests of the lanes (R184, R185, R187): a lane by index, and what a pass and a failure leave. -/

namespace Sys2Proof.Machine

open Sys2Proof

variable {s t u : State} {l : Nat}

/-! Lanes by index. -/

theorem setLane_lane_same (g : Lane → Lane) (s : State) (hl : l < 14) : (setLane l g s).lane l = g (s.lane l) := by
  by_cases h : l < 12
  · simp only [setLane, State.lane, if_pos h, setHall_hall_same _ _ _ (show l / 4 < 3 by omega),
      vget_vmod_same _ _ _ _ (show l % 4 < 4 by omega)]
  · simp only [setLane, State.lane, if_neg h, vget_vmod_same _ _ _ _ (show l - 12 < 2 by omega)]

theorem setLane_lane_ne {k : Nat} (g : Lane → Lane) (s : State) (h : k ≠ l) : (setLane k g s).lane l = s.lane l := by
  by_cases hk : k < 12
  · rw [setLane, if_pos hk]
    by_cases hl : l < 12
    · simp only [State.lane, if_pos hl]
      by_cases hh : k / 4 = l / 4
      · rw [hh, setHall_hall_same _ _ _ (show l / 4 < 3 by omega), vget_vmod_ne _ _ _ _ _ (show k % 4 ≠ l % 4 by omega)]
      · rw [setHall_hall_ne _ _ _ _ hh]
    · simp only [State.lane, if_neg hl, State.setHall]
  · rw [setLane, if_neg hk]
    by_cases hl : l < 12
    · simp only [State.lane, if_pos hl, State.hall]
    · simp only [State.lane, if_neg hl, vget_vmod_ne _ _ _ _ _ (show k - 12 ≠ l - 12 by omega)]

theorem setLane_keeps {P : Lane → Prop} (k : Nat) {g : Lane → Lane} (hg : ∀ x, P x → P (g x)) (hl : l < 14)
    (h : P (s.lane l)) : P ((setLane k g s).lane l) := by
  by_cases hk : k = l
  · subst hk
    rw [setLane_lane_same g s hl]
    exact hg _ h
  · rwa [setLane_lane_ne g s hk]

theorem setHall_lane (k : Nat) {g : HallS → HallS} (hg : ∀ x, (g x).lanes = x.lanes) (s : State) (l : Nat) :
    (s.setHall k g).lane l = s.lane l := by
  have kept : ((s.setHall k g).hall (l / 4)).lanes = (s.hall (l / 4)).lanes :=
    setHall_keeps (P := fun x => x.lanes = (s.hall (l / 4)).lanes) k (fun x hx => (hg x).trans hx) rfl
  rw [State.lane, kept]
  rfl

/-! A pass (Table 04-10). -/

/-- Equal but for the lanes. -/
def SameButLanes (s t : State) : Prop := t = { s with halls := t.halls, atr := { s.atr with lanes := t.atr.lanes } }

theorem setLane_same (k : Nat) (g : Lane → Lane) (s : State) : SameButLanes s (setLane k g s) := by
  unfold SameButLanes setLane
  split <;> rfl

theorem SameButLanes.trans (h : SameButLanes s t) (h' : SameButLanes t u) : SameButLanes s u := by
  unfold SameButLanes at *
  rw [h', h]

/-- Lane `l` of `t` is no longer in test and has the role it had in `s`, and nothing but lanes has changed. -/
structure LanePassed (l : Nat) (s t : State) : Prop where
  testing : (t.lane l).testing = false
  role : (t.lane l).role = (s.lane l).role
  same : SameButLanes s t

theorem LanePassed.setLane (h : LanePassed l s t) (hl : l < 14) (k : Nat) {g : Lane → Lane}
    (hg : ∀ x, (g x).testing = x.testing ∧ (g x).role = x.role) : LanePassed l s (setLane k g t) where
  testing := setLane_keeps (P := fun x => x.testing = false) k (fun x hx => (hg x).1.trans hx) hl h.testing
  role := setLane_keeps (P := fun x => x.role = (s.lane l).role) k (fun x hx => (hg x).2.trans hx) hl h.role
  same := h.same.trans (setLane_same k g t)

theorem lanePass_passed (s : State) (hl : l < 14) : LanePassed l s (lanePass l s) := by
  have ended : LanePassed l s (setLane l (fun y => { y with testing := false }) s) := by
    refine ⟨?_, ?_, setLane_same l _ s⟩ <;> rw [setLane_lane_same _ s hl]
  unfold lanePass
  dsimp only
  split
  · split
    · refine LanePassed.setLane (.setLane (.setLane ended hl _ ?_) hl _ ?_) hl _ ?_ <;> exact fun _ => ⟨rfl, rfl⟩
    · refine ended.setLane hl _ ?_
      exact fun _ => ⟨rfl, rfl⟩
  · refine ended.setLane hl _ ?_
    exact fun _ => ⟨rfl, rfl⟩

/-! A failure (R35, R184). -/

theorem DecisionKeeps.lane (l : Nat) (P : Lane → Prop) : DecisionKeeps fun s => P (s.lane l) where
  emit _ _ h := h
  raise e w s h := by rwa [raise_lane]
  log e k y w c s h := logRecord_keeps (Q := fun s => P (s.lane l)) (fun e w s h => by rwa [raise_lane])
    (fun _ _ h => h) (fun _ _ h => h) e k y w c h
  safe _ _ h := h
  cell _ _ _ _ h := h
  ends _ h := h
  remap _ _ _ h := h
  short k b s h := by
    rw [setHall_lane]
    · exact h
    · exact fun _ => rfl

/-- An atrium error is its error bit, its event and record, and a cause, after a hand-over where the pair can (R35, R353). -/
theorem DecisionKeeps.atriumError {Q : State → Prop} (hQ : DecisionKeeps Q) (kind : Nat)
    (err : ∀ s : State, Q s → Q { s with atr := { s.atr with err := true } })
    (twin : ∀ (x : Twin) (s : State), Q s → Q { s with twin := x }) (h : Q s) : Q (atriumError kind s) := by
  have handed : ∀ u, Q u → Q (if u.canHandOver then emergency u else u) := fun u hu => by
    split
    · exact hQ.emit _ _ (twin _ _ hu)
    · exact hu
  unfold Machine.atriumError
  split
  · exact h
  · exact hQ.setCause 12 (handed _ (hQ.log _ _ _ _ _ _ (hQ.raise _ _ _ (err s h))))

/-- Lane `l` is out of use and its event pends. -/
def LaneRetired (l : Nat) (s : State) : Prop := (s.lane l).role = 2 ∧ (s.evt (146 + l)).pend = true

theorem laneRetired_decisionKeeps (l : Nat) : DecisionKeeps (LaneRetired l) :=
  (DecisionKeeps.lane l (·.role = 2)).and (.pend (146 + l))

theorem LaneRetired.hallError (h : LaneRetired l s) (g row : Nat) : LaneRetired l (hallError g row s) := by
  refine (laneRetired_decisionKeeps l).hallError g row ⟨?_, h.2⟩ h
  rw [setHall_lane]
  · exact h.1
  · exact fun _ => rfl

theorem LaneRetired.atriumError (h : LaneRetired l s) (kind : Nat) : LaneRetired l (atriumError kind s) :=
  (laneRetired_decisionKeeps l).atriumError kind (fun _ h => h) (fun _ _ h => h) h

theorem setLane_retired {g : Lane → Lane} (hl : l < 14) (hg : ∀ x, (g x).role = 2) (h : (s.evt (146 + l)).pend = true) :
    LaneRetired l (setLane l g s) :=
  ⟨by rw [setLane_lane_same g s hl, hg], by simpa only [State.evt, setLane_frame] using h⟩

theorem moveHall_retired (j : Nat) (hl : l < 14) (h : (s.evt (146 + l)).pend = true) : LaneRetired l (moveHall l j 2 s) :=
  ⟨congrArg Lane.role (setLane_lane_same (fun y => { y with role := 2, flight := 15 }) _ hl),
    by simpa only [State.evt, moveHall_frame] using h⟩

theorem moveAtrium_retired (hl : l < 14) (h : (s.evt (146 + l)).pend = true) : LaneRetired l (moveAtrium l 2 s) := by
  have other : 25 - l ≠ l := by omega
  exact ⟨congrArg Lane.role ((setLane_lane_ne _ _ other).trans (setLane_lane_same _ s hl)),
    by simpa only [State.evt, moveAtrium_frame] using h⟩

/-- The event is raised before any of the ways in which the lane is then retired. -/
theorem laneFault_retired (hs : s.Runs) (hl : l < 14) : LaneRetired l (laneFault l s) := by
  unfold laneFault
  extract_lets y a u v
  have told : (u.evt (146 + l)).pend = true := raise_pend_same 0 ((isOn_congr (by simp [a]) _).trans hs) (by omega)
  have joined : (v.evt (146 + l)).pend = true := by
    rw [State.evt, each_events _ _ _ (fun f w => by simp)]
    exact told
  split
  · split
    · split
      · exact moveHall_retired _ hl told
      · exact (setLane_retired hl (fun _ => rfl) told).hallError _ 2
    · exact setLane_retired hl (fun _ => rfl) joined
  · split
    · split
      · exact moveAtrium_retired hl told
      · exact (setLane_retired hl (fun _ => rfl) told).atriumError 2
    · exact setLane_retired hl (fun _ => rfl) told

/-! The commands. -/

theorem execLaneSelfTestDone_runs {l : Fin 14} (pass : Bool) (on : s.isOn (laneDom l.val) = true)
    (testing : (s.lane l.val).testing = true) :
    execLaneSelfTestDone l pass s = .next (if pass then lanePass l.val s else laneFault l.val s) := by
  simp only [execLaneSelfTestDone, on, testing, Bool.not_true, Bool.or_self, Bool.false_eq_true, if_false]

theorem execSpareSelfTest_passes (l : Fin 14) (s : State) : execSpareSelfTest l true s = .next s := by
  simp [execSpareSelfTest]

theorem execSpareSelfTest_fails {l : Fin 14} (on : s.isOn (laneDom l.val) = true) (role : (s.lane l.val).role = 1)
    (flight : (s.lane l.val).flight = 15) (rest : (s.lane l.val).testing = false) :
    execSpareSelfTest l false s = .next (laneFault l.val s) := by
  simp [execSpareSelfTest, on, role, flight, rest]

theorem laneFault_same (l : Nat) (s : State) :
    SameRegisters s (laneFault l s) ∧ SameGallery s (laneFault l s) ∧ (laneFault l s).tb = s.tb := by
  simp only [SameRegisters, SameGallery, laneFault_frame, and_self, implies_true]

end Sys2Proof.Machine

open Sys2Proof.Machine in
/-- Settles O59: a pass writes lanes alone, and a failure, of a lane in test as of the spare, is one `laneFault`. -/
theorem laneSelfTests : Obligations.LaneSelfTests := by
  unfold Obligations.LaneSelfTests
  intro s l hs on
  obtain ⟨retired, pends⟩ := laneFault_retired hs l.isLt
  have same := laneFault_same l.val s
  refine ⟨fun testing => ⟨?pass, ?fail⟩, fun role flight rest => ⟨?spare, execSpareSelfTest_passes l s⟩⟩
  case pass =>
    obtain ⟨ended, kept, changed⟩ := lanePass_passed s l.isLt
    exact ⟨_, execLaneSelfTestDone_runs true on testing, ended, kept, changed⟩
  case fail => exact ⟨_, execLaneSelfTestDone_runs false on testing, retired, pends, same⟩
  case spare => exact ⟨_, execSpareSelfTest_fails on role flight rest, retired, pends, same⟩
end

section
/-! The host's commands on loop slots (R156, R162, R163, R173, R176, R508, R509): a context by its number, and what each
command does to the slot it names. -/

namespace Sys2Proof.Machine

open Sys2Proof

variable {s t : State} {q : Fin 64} {i n : Nat} {w0 : Word}

/-! Contexts and their slots. -/

@[simp] theorem setSlot_slot_same (c : Ctx) (g : Slot → Slot) (hi : i < 16) : (c.setSlot i g).slot i = g (c.slot i) :=
  vget_vmod_same c.slots _ _ _ hi

@[simp] theorem setSlot_slot_ne (c : Ctx) (g : Slot → Slot) {j : Nat} (h : i ≠ j) : (c.setSlot i g).slot j = c.slot j :=
  vget_vmod_ne c.slots _ _ _ _ h

theorem setCtx_ctx_same (g : Ctx → Ctx) (s : State) (hn : n < 64) : (s.setCtx n g).ctx n = g (s.ctx n) := by
  unfold State.setCtx State.ctx State.tread
  split
  · rfl
  · exact vget_vmod_same _ _ _ _ (by omega)

theorem setCtx_ctx_ne (g : Ctx → Ctx) (s : State) {m : Nat} (h : m ≠ n) : (s.setCtx n g).ctx m = s.ctx m := by
  unfold State.setCtx State.ctx State.tread
  split
  · next hm => rw [if_neg (hm ▸ h.symm)]
  · split
    · rfl
    · exact vget_vmod_ne _ _ _ _ _ h.symm

/-- The landing a command names is that of the grid, which no write of a context moves. -/
theorem loopRef_setCtx (n : Nat) (g : Ctx → Ctx) (s : State) : loopRef (s.setCtx n g) = loopRef s := by
  unfold State.setCtx
  split <;> rfl

theorem slotCount_le (n : Nat) : slotCount n ≤ 16 := by
  unfold slotCount
  split <;> decide

theorem slot_of_lt_slotCount (hi : i < slotCount n) : i < 16 := Nat.lt_of_lt_of_le hi (slotCount_le n)

theorem groupCount_le (n : Nat) : groupCount n ≤ 8 := by
  unfold groupCount
  split <;> decide

/-- Context `n` has become `c`; the other contexts, the registers, the Gallery and TB stand. -/
structure CtxWritten (n : Nat) (c : Ctx) (s t : State) : Prop where
  ctx : t.ctx n = c
  others : ∀ m < 64, m ≠ n → t.ctx m = s.ctx m
  registers : SameRegisters s t
  gallery : SameGallery s t
  tb : t.tb = s.tb

theorem CtxWritten.refl (n : Nat) (s : State) : CtxWritten n (s.ctx n) s s :=
  ⟨rfl, fun _ _ _ => rfl, ⟨rfl, rfl⟩, fun _ => rfl, rfl⟩

theorem CtxWritten.setCtx {c : Ctx} (h : CtxWritten n c s t) (hn : n < 64) (g : Ctx → Ctx) :
    CtxWritten n (g c) s (t.setCtx n g) where
  ctx := by rw [setCtx_ctx_same g t hn, h.ctx]
  others m hm ne := (setCtx_ctx_ne g t ne).trans (h.others m hm ne)
  registers := by simpa only [SameRegisters, State.setCtx_frame] using h.registers
  gallery := by simpa only [SameGallery, State.setCtx_frame] using h.gallery
  tb := by simpa only [State.setCtx_frame] using h.tb

theorem CtxWritten.reply {c : Ctx} (h : CtxWritten n c s t) (st : Status) (ws : List Word) :
    CtxWritten n c s (reply st ws t) :=
  ⟨h.ctx, h.others, h.registers, h.gallery, h.tb⟩

/-- What a command leaves that writes its context once and answers. -/
theorem setCtx_answered (q : Fin 64) (g : Ctx → Ctx) (st : Status) (ws : List Word) (s : State) :
    CtxWritten q.val (g (s.ctx q.val)) s (reply st ws (s.setCtx q.val g)) :=
  ((CtxWritten.refl q.val s).setCtx q.isLt g).reply st ws

theorem slotCommand_runs {b : Bool} (body : Nat → State → State) (hb : b = true) (hs : s.Runs) (hc : s.ctxOn q.val = true)
    (hi : i < slotCount q.val) : slotCommand q b body i s = body i s := by
  rw [slotCommand, command_runs hs _ hb]
  simp [hc, hi]

/-- A slot's group armed for its landing. -/
def armGroup (g : Nat) (x : Slot) : Slot := { x with grpArm := some g, grpReady := false }

/-- A group's destination armed for its landing. -/
def armDest (d : BitVec 16) (y : Group) : Group := { y with dstArm := some d, dstReady := false }

/-- The slots of a context in which slot `i` alone has been armed. -/
theorem slots_of_armed {k k' : Ctx} {load : Bool} {c : Coefs} (h : k' = k.setSlot i (armCoefs load c)) (hi : i < 16) :
    k'.slot i = armCoefs load c (k.slot i) ∧ ∀ j, j ≠ i → k'.slot j = k.slot j := by
  subst h
  exact ⟨setSlot_slot_same k _ hi, fun j hj => setSlot_slot_ne k _ hj.symm⟩

section Commands

variable (hs : s.Runs) (hc : s.ctxOn q.val = true) (hi : fld w0 0 4 < slotCount q.val)

include hs hc hi

/-! LOOP_SET (R162). -/

theorem execLoopSet_setpoint (cfg src dst sp : Word) (h8 : bit w0 8 = true) :
    execLoopSet q [w0, cfg, src, dst, sp] s =
      .next (reply .ok [] (s.setCtx q.val fun c => c.setSlot (fld w0 0 4) fun x => { x with sp := sp })) := by
  refine congrArg _ ((slotCommand_runs _ rfl hs hc hi).trans ?_)
  exact if_pos h8

theorem execLoopSet_whole (cfg src dst sp : Word) (h8 : bit w0 8 = false) :
    execLoopSet q [w0, cfg, src, dst, sp] s = .next (refuse (loopSet q.val (fld w0 0 4) cfg src dst sp s).1
      (loopSet q.val (fld w0 0 4) cfg src dst sp s).2) := by
  refine congrArg _ ((slotCommand_runs _ rfl hs hc hi).trans ?_)
  exact if_neg (by simp [wd, h8])

theorem execLoopSet_written (cfg src dst sp : Word) (h8 : bit w0 8 = false)
    (ok : loopSetCheck q.val ((s.ctx q.val).slot (fld w0 0 4)) cfg src dst s = .ok) :
    execLoopSet q [w0, cfg, src, dst, sp] s =
      .next (reply .ok [] (s.setCtx q.val fun c => c.setSlot (fld w0 0 4) (loopWrite cfg src dst sp))) := by
  rw [execLoopSet_whole hs hc hi cfg src dst sp h8, loopSet, ok]
  rfl

theorem execLoopSet_refused (cfg src dst sp : Word) (h8 : bit w0 8 = false)
    (no : loopSetCheck q.val ((s.ctx q.val).slot (fld w0 0 4)) cfg src dst s ≠ .ok) :
    execLoopSet q [w0, cfg, src, dst, sp] s =
      .next (refuse (loopSetCheck q.val ((s.ctx q.val).slot (fld w0 0 4)) cfg src dst s) s) := by
  rw [execLoopSet_whole hs hc hi cfg src dst sp h8, loopSet]
  split
  · next ok => exact absurd ok no
  · rfl

/-! LOOP_COEF (R163, R173): `c` is the set that it checks, the pending one or the one it brings. -/

variable {l : List Word} {c : Coefs} (hl : l.length = if bit w0 9 then 0 else 10)
  (set : (if bit w0 9 then ((s.ctx q.val).slot (fld w0 0 4)).pend else Coefs.ofList l) = c)

include hl set

theorem execLoopCoef_checks : execLoopCoef q (w0 :: l) s =
    .next (if coefCheck q.val ((s.ctx q.val).slot (fld w0 0 4)) c s = .ok then
        reply .ok (if bit w0 8 then [0, bitAt true 24] else loopRef s)
          (s.setCtx q.val fun k => k.setSlot (fld w0 0 4) (armCoefs (bit w0 8) c))
      else refuse (coefCheck q.val ((s.ctx q.val).slot (fld w0 0 4)) c s) s) := by
  have len : ((w0 :: l).length == if bit w0 9 then 1 else 11) = true := by
    rw [List.length_cons, hl]
    split <;> rfl
  unfold execLoopCoef
  refine congrArg _ ((slotCommand_runs _ len hs hc hi).trans ?_)
  simp only [wd, List.getD_cons_zero, List.tail_cons, set, loopRef_setCtx]
  split
  · next ok => rw [if_pos ok]
  · next no => rw [if_neg no]

theorem execLoopCoef_armed (ok : coefCheck q.val ((s.ctx q.val).slot (fld w0 0 4)) c s = .ok) :
    execLoopCoef q (w0 :: l) s = .next (reply .ok (if bit w0 8 then [0, bitAt true 24] else loopRef s)
      (s.setCtx q.val fun k => k.setSlot (fld w0 0 4) (armCoefs (bit w0 8) c))) := by
  rw [execLoopCoef_checks hs hc hi hl set, if_pos ok]

theorem execLoopCoef_refused (no : coefCheck q.val ((s.ctx q.val).slot (fld w0 0 4)) c s ≠ .ok) :
    execLoopCoef q (w0 :: l) s = .next (refuse (coefCheck q.val ((s.ctx q.val).slot (fld w0 0 4)) c s) s) := by
  rw [execLoopCoef_checks hs hc hi hl set, if_neg no]

omit hl set

/-! LOOP_ENABLE and GROUP_SET (R157, R160, R163, R176). -/

theorem execLoopEnable_armed {u0 : Word} (hy : ptNone ((s.ctx q.val).slot (fld w0 0 4)).ySrc = false)
    (hu : bit w0 8 = false ∨ bit w0 9 = true ∨ F32.isFinite u0 = true) :
    execLoopEnable q [w0, u0] s = .next (reply .ok (loopRef s) (s.setCtx q.val fun k => k.setSlot (fld w0 0 4) fun x =>
      { x with enArm := some { en := bit w0 8, track := bit w0 9, u0 := u0 }, enReady := false })) := by
  have start : (bit w0 8 && !bit w0 9 && !F32.isFinite u0) = false := by rcases hu with h | h | h <;> simp [h]
  refine congrArg _ ((slotCommand_runs _ rfl hs hc hi).trans ?_)
  simp only [wd, List.getD_cons_zero, List.getD_cons_succ, hy, start, Bool.false_eq_true, if_false, loopRef_setCtx]

theorem execGroupSet_armed {w1 : Word} (h12 : bit w0 12 = false) (hg : fld w0 8 4 = 15 ∨ fld w0 8 4 < groupCount q.val)
    (held : ((s.ctx q.val).slot (fld w0 0 4)).heldSets.all (groupOk (decide (fld w0 8 4 < groupCount q.val))) = true) :
    execGroupSet q [w0, w1] s = .next (reply .ok (loopRef s)
      (s.setCtx q.val fun k => k.setSlot (fld w0 0 4) (armGroup (fld w0 8 4)))) := by
  have named : ¬ (fld w0 8 4 ≠ 15 ∧ groupCount q.val ≤ fld w0 8 4) := by omega
  refine congrArg _ ((slotCommand_runs _ rfl hs hc hi).trans ?_)
  simp only [wd, List.getD_cons_zero, if_neg named, h12, held, Bool.false_and, Bool.not_true, Bool.false_eq_true, if_false,
    loopRef_setCtx]
  rfl

theorem execGroupSet_armedDest {w1 : Word} (h12 : bit w0 12 = true) (hg : fld w0 8 4 < groupCount q.val)
    (hd : destOk q.val (w1.setWidth 16) = true)
    (held : ((s.ctx q.val).slot (fld w0 0 4)).heldSets.all (groupOk true) = true)
    (free : dstInUse q.val (fld w0 0 4) (fld w0 8 4) (w1.setWidth 16) (s.ctx q.val) = false) :
    execGroupSet q [w0, w1] s = .next (reply .ok (loopRef s)
      ((s.setCtx q.val fun k => k.setSlot (fld w0 0 4) (armGroup (fld w0 8 4))).setCtx q.val
        fun k => k.setGroup (fld w0 8 4) (armDest (w1.setWidth 16)))) := by
  have eight := groupCount_le q.val
  have named : ¬ (fld w0 8 4 ≠ 15 ∧ groupCount q.val ≤ fld w0 8 4) := by omega
  have valid : (fld w0 8 4 == 15) = false := beq_false_of_ne (by omega)
  refine congrArg _ ((slotCommand_runs _ rfl hs hc hi).trans ?_)
  simp only [wd, List.getD_cons_zero, List.getD_cons_succ, if_neg named, h12, valid, hd, hg, held, free, decide_true,
    Bool.true_and, Bool.false_or, Bool.not_true, Bool.false_eq_true, if_false, if_true,
    loopRef_setCtx]
  rfl

end Commands

end Sys2Proof.Machine

open Sys2Proof.Machine in
/-- Settles O37, command by command: each answers for one write of its context (`setCtx_answered`), or refuses what its check
refuses. -/
theorem loopCommands : Obligations.LoopCommands := by
  unfold Obligations.LoopCommands
  refine ⟨fun s q w0 cfg src dst sp hs hc hi => ⟨fun h8 => ?setpoint, fun h8 ok => ?written, fun h8 no => ?refused⟩,
    fun s q w0 hs hc hi => ⟨fun l hl h9 => ⟨fun ok => ?armed, fun no => ?coefRefused⟩, fun h9 ok => ?pending,
      fun u0 hy hu => ?enable, fun w1 h12 hg held => ?group, fun w1 h12 hg hd held free => ?dest⟩⟩
  case setpoint =>
    obtain ⟨ctx, others, registers, gallery, tb⟩ := setCtx_answered q
      (fun c => c.setSlot (fld w0 0 4) fun x => { x with sp := sp }) .ok [] s
    exact ⟨_, execLoopSet_setpoint hs hc hi cfg src dst sp h8, rfl, ctx, others, registers, gallery, tb⟩
  case written =>
    obtain ⟨ctx, others, registers, gallery, tb⟩ := setCtx_answered q
      (fun c => c.setSlot (fld w0 0 4) (loopWrite cfg src dst sp)) .ok [] s
    exact ⟨_, execLoopSet_written hs hc hi cfg src dst sp h8 ok, rfl, ctx, others, registers, gallery, tb⟩
  case refused => exact execLoopSet_refused hs hc hi cfg src dst sp h8 no
  case armed =>
    obtain ⟨ctx, others, registers, gallery, -⟩ := setCtx_answered q
      (fun k => k.setSlot (fld w0 0 4) (armCoefs (bit w0 8) (Coefs.ofList l))) .ok
      (if bit w0 8 then [0, bitAt true 24] else loopRef s) s
    obtain ⟨slot, rest⟩ := slots_of_armed ctx (slot_of_lt_slotCount hi)
    refine ⟨_, execLoopCoef_armed hs hc hi (by rw [hl, h9]; rfl) (by rw [h9]; rfl) ok, fun h8 => ?_, ?_, ?_, ?_, ?_,
      rest, others, registers, gallery⟩
    · rw [h8]
      rfl
    all_goals rw [slot]; rfl
  case coefRefused => exact execLoopCoef_refused hs hc hi (by rw [hl, h9]; rfl) (by rw [h9]; rfl) no
  case pending =>
    obtain ⟨ctx, -, registers, gallery, -⟩ := setCtx_answered q
      (fun k => k.setSlot (fld w0 0 4) (armCoefs (bit w0 8) ((s.ctx q.val).slot (fld w0 0 4)).pend)) .ok
      (if bit w0 8 then [0, bitAt true 24] else loopRef s) s
    obtain ⟨slot, rest⟩ := slots_of_armed ctx (slot_of_lt_slotCount hi)
    refine ⟨_, execLoopCoef_armed hs hc hi (by rw [h9]; rfl) (by rw [h9]; rfl) ok, ?_, ?_, ?_, rest, registers, gallery⟩
    all_goals rw [slot]; rfl
  case enable =>
    obtain ⟨ctx, others, registers, gallery, -⟩ := setCtx_answered q (fun k => k.setSlot (fld w0 0 4) fun x =>
      { x with enArm := some { en := bit w0 8, track := bit w0 9, u0 := u0 }, enReady := false }) .ok (loopRef s) s
    exact ⟨_, execLoopEnable_armed hs hc hi hy hu, rfl, ctx, others, registers, gallery⟩
  case group =>
    obtain ⟨ctx, others, registers, gallery, -⟩ := setCtx_answered q
      (fun k => k.setSlot (fld w0 0 4) (armGroup (fld w0 8 4))) .ok (loopRef s) s
    exact ⟨_, execGroupSet_armed hs hc hi h12 hg held, rfl, ctx, others, registers, gallery⟩
  case dest => 
    obtain ⟨ctx, others, registers, gallery, -⟩ := (((CtxWritten.refl q.val s).setCtx q.isLt
      fun k => k.setSlot (fld w0 0 4) (armGroup (fld w0 8 4))).setCtx q.isLt
        fun k => k.setGroup (fld w0 8 4) (armDest (w1.setWidth 16))).reply .ok (loopRef s)
    exact ⟨_, execGroupSet_armedDest hs hc hi h12 hg hd held free, rfl, ctx, others, registers, gallery⟩
end

section
/-! The injectors and the capture engine (R190 to R197, R510): what each of their commands does, and how each ends. -/

namespace Sys2Proof.Machine

open Sys2Proof

variable {s t u : State} {n : Nat} {x y : Injector}

/-! One injector of the eight. -/

/-- Injector `n` has become `x`, and the others stand. -/
structure InjWritten (n : Nat) (x : Injector) (s t : State) : Prop where
  own : vget t.atr.inj n {} = x
  others : ∀ m, m ≠ n → vget t.atr.inj m {} = vget s.atr.inj m {}

theorem InjWritten.refl (n : Nat) (s : State) : InjWritten n (vget s.atr.inj n {}) s s := ⟨rfl, fun _ _ => rfl⟩

theorem InjWritten.congr (h : InjWritten n x s t) (same : u.atr.inj = t.atr.inj) : InjWritten n x s u :=
  ⟨by rw [same, h.own], fun m hm => by rw [same, h.others m hm]⟩

theorem InjWritten.setInj (h : InjWritten n x s t) (hn : n < 8) (f : Injector → Injector) :
    InjWritten n (f x) s (setInj n f t) where
  own := (vget_vmod_same _ _ _ _ hn).trans (congrArg f h.own)
  others m hm := (vget_vmod_ne _ _ _ _ _ hm.symm).trans (h.others m hm)

theorem fld_lt (w : Word) (lo n : Nat) : fld w lo n < 2 ^ n := Nat.mod_lt _ (Nat.two_pow_pos n)

/-! An injector starts (R191). -/

/-- An injector as it starts; on the tick of S(n) itself with its first sample. -/
def injStarted (atS : Bool) (x : Injector) : Injector := if atS then injFirst (injStart x) else injStart x

theorem injStarted_values (atS : Bool) (x : Injector) :
    (injStarted atS x).cfg = x.cfg ∧ (injStarted atS x).amp = x.amp ∧ (injStarted atS x).dur = x.dur ∧
      (injStarted atS x).done = x.done ∧ (injStarted atS x).abort = x.abort ∧ (injStarted atS x).run = true := by
  unfold injStarted injFirst injBit
  split
  · split <;> exact ⟨rfl, rfl, rfl, rfl, rfl, rfl⟩
  · exact ⟨rfl, rfl, rfl, rfl, rfl, rfl⟩

theorem injBegin_eq (n : Nat) (s : State) : injBegin n s = { s with atr := (injBegin n s).atr } := by
  unfold injBegin
  rw [capInjector_eq]
  rfl

theorem injBegin_written (h : InjWritten n x s t) (hn : n < 8) : InjWritten n (injStarted t.atSample x) s (injBegin n t) := by
  refine (h.setInj hn (injStarted t.atSample)).congr ?_
  unfold injBegin
  rw [capInjector_eq]
  rfl

/-! An injector stops (R191). -/

/-- An injector as it stops. -/
def injStopped (abort : Bool) (x : Injector) : Injector :=
  { x with run := false, armedTc := false, ready := false, done := true, abort := x.abort || abort }

theorem injStop_eq (n : Nat) (abort : Bool) (s : State) :
    injStop n abort s = raise 228 (pack [(0, 3, n), (3, 1, b2n abort)]) (setInj n (injStopped abort) s) := rfl

theorem injStop_written (h : InjWritten n x s t) (hn : n < 8) (abort : Bool) :
    InjWritten n (injStopped abort x) s (injStop n abort t) :=
  (h.setInj hn (injStopped abort)).congr (raise_inj _ _ _)

theorem injStop_evt (n : Nat) (abort : Bool) (hs : s.Runs) : ((injStop n abort s).evt 228).pend = true ∧
    ((injStop n abort s).evt 228).data = pack [(0, 3, n), (3, 1, b2n abort)] := by
  have runs : (setInj n (injStopped abort) s).Runs := hs
  rw [injStop_eq]
  exact ⟨raise_pend_same _ runs (by decide), raise_data_same _ runs (by decide) (by decide)⟩

theorem injStop_same (n : Nat) (abort : Bool) (s : State) :
    SameRegisters s (injStop n abort s) ∧ SameGallery s (injStop n abort s) ∧ (injStop n abort s).tb = s.tb := by
  simp only [SameRegisters, SameGallery, injStop_frame, and_self, implies_true]

/-! INJECT (R190, R510). -/

theorem injectSet_refused (onTc : Bool) (no : injCheck x s ≠ .ok) : injectSet n onTc x s = (injCheck x s, s) := by
  unfold injectSet
  dsimp only
  split
  · next ok => exact absurd ok no
  · rfl

theorem injectSet_idle (onTc : Bool) (ok : injCheck x s = .ok) (idle : (vget s.atr.inj n {}).run = false) :
    injectSet n onTc x s = (.ok, if onTc then setInj n (fun _ => { x with armedTc := onTc }) s
      else injBegin n (setInj n (fun _ => { x with armedTc := onTc }) s)) := by
  simp only [injectSet, ok, idle, Bool.false_eq_true, if_false]

/-- An injector that INJECT has armed for a compare, or started. -/
def injLaunched (onTc atS : Bool) (x : Injector) : Injector :=
  if onTc then { x with armedTc := true } else injStarted atS { x with armedTc := false }

theorem injLaunched_values (onTc atS : Bool) (x : Injector) :
    (injLaunched onTc atS x).cfg = x.cfg ∧ (injLaunched onTc atS x).amp = x.amp ∧ (injLaunched onTc atS x).dur = x.dur ∧
      (injLaunched onTc atS x).done = x.done ∧ (injLaunched onTc atS x).abort = x.abort ∧
      (injLaunched onTc atS x).run = (!onTc || x.run) ∧ (onTc = true → (injLaunched onTc atS x).armedTc = true) := by
  cases onTc with
  | true => exact ⟨rfl, rfl, rfl, rfl, rfl, rfl, fun _ => rfl⟩
  | false =>
    obtain ⟨cfg, amp, dur, done, abort, run⟩ := injStarted_values atS { x with armedTc := false }
    exact ⟨cfg, amp, dur, done, abort, run, nofun⟩

theorem injectSet_launches (onTc : Bool) (hn : n < 8) (ok : injCheck x s = .ok) (idle : (vget s.atr.inj n {}).run = false) :
    ∃ t, injectSet n onTc x s = (.ok, t) ∧ InjWritten n (injLaunched onTc s.atSample x) s t ∧ t = { s with atr := t.atr } := by
  have brought := (InjWritten.refl n s).setInj hn fun _ => { x with armedTc := onTc }
  refine ⟨_, injectSet_idle onTc ok idle, ?_⟩
  cases onTc with
  | true => exact ⟨brought, rfl⟩
  | false => exact ⟨injBegin_written brought hn, injBegin_eq n _⟩

theorem injectSet_running (onTc : Bool) (ok : injCheck x s = .ok) (run : (vget s.atr.inj n {}).run = true) :
    injectSet n onTc x s =
      if !injTakes (vget s.atr.inj n {}) x then (.state, s)
      else if F32.isZero x.amp then (.ok, injStop n false (setInj n (fun y => { y with amp := x.amp }) s))
      else (.ok, setInj n (fun y => { y with amp := x.amp }) s) := by
  simp only [injectSet, ok, run, if_true]

theorem execInject_six {l : List Word} (w0 : Word) (hs : s.Runs) (hl : l.length = 6) : execInject (w0 :: l) s =
    .next (refuse (injectSet (fld w0 0 3) (bit w0 8) (injOf l) s).1 (injectSet (fld w0 0 3) (bit w0 8) (injOf l) s).2) := by
  refine congrArg _ ((command_runs hs _ ?_).trans rfl)
  rw [List.length_cons, hl]
  rfl

theorem execInjectDone_stops {n : Fin 8} (hs : s.Runs) (run : (vget s.atr.inj n.val {}).run = true) :
    execInjectDone n s = .next (injStop n.val false s) := by
  refine congrArg _ (if_pos ?_)
  rw [hs, run]
  rfl

/-! CAPTURE and its reads (R195, R197). -/

theorem captureSet_refused {cfg pre : Word} {pts : List Word} (no : captureCheck cfg pre pts s ≠ .ok) :
    captureSet cfg pre pts s = (captureCheck cfg pre pts s, s) := by
  unfold captureSet
  split
  · next ok => exact absurd ok no
  · rfl

theorem captureSet_armed {cfg pre : Word} {pts : List Word} (ok : captureCheck cfg pre pts s = .ok) :
    captureSet cfg pre pts s = (.ok, captureArm cfg pre pts s) := by
  rw [captureSet, ok]

theorem execCapture_runs {cfg pre : Word} {pts : List Word} (hs : s.Runs) (hp : pts.length = capChans cfg) :
    execCapture (cfg :: pre :: pts) s = .next (refuse (captureSet cfg pre pts s).1 (captureSet cfg pre pts s).2) := by
  have one : 1 ≤ capChans cfg := Nat.one_le_two_pow
  refine congrArg _ ((command_runs hs _ ?_).trans rfl)
  simp only [List.length_cons, wd, List.getD_cons_zero, Bool.and_eq_true, beq_iff_eq, decide_eq_true_eq]
  omega

theorem execCaptureRead_words {i c : Word} (hs : s.Runs) (hl : c.toNat ≤ s.replyLimit) (hb : i.toNat + c.toNat ≤ 262144)
    (rest : (s.atr.cap.armed && !s.atr.cap.done) = false) : execCaptureRead [i, c] s =
      .next (reply .ok ((List.range c.toNat).map fun j => capWord s (i.toNat + j))
        { s with freeCtr := s.freeCtr + i.toNat + c.toNat }) := by
  refine congrArg _ ((command_runs hs _ rfl).trans ?_)
  simp only [wd, List.getD_cons_zero, List.getD_cons_succ, Nat.not_lt.mpr hl, Nat.not_lt.mpr hb, rest, Bool.false_eq_true,
    if_false]

/-! The capture ends (R195). -/

theorem captureEnd_cap (tcChg : Bool) (s : State) : (captureEnd tcChg s).atr.cap =
    { s.atr.cap with armed := false, done := true, tcChg := s.atr.cap.tcChg || tcChg } :=
  raise_cap_idle 227 0 rfl

theorem captureEnd_evt (tcChg : Bool) (hs : s.Runs) : ((captureEnd tcChg s).evt 227).pend = true :=
  raise_pend_same 0 (s := setCap _ s) hs (by decide)

theorem captureEnd_same (tcChg : Bool) (s : State) :
    SameRegisters s (captureEnd tcChg s) ∧ SameGallery s (captureEnd tcChg s) ∧ (captureEnd tcChg s).tb = s.tb := by
  simp only [SameRegisters, SameGallery, captureEnd_frame, and_self, implies_true]

theorem execCaptureDone_ends (hs : s.Runs) (armed : s.atr.cap.armed = true) (triggered : s.atr.cap.triggered = true)
    (enough : capDepth s.atr.cap.cfg - s.atr.cap.pre ≤ s.atr.cap.since) : execCaptureDone s = .next (captureEnd false s) := by
  refine congrArg _ (if_pos ?_)
  rw [hs, armed, triggered, decide_eq_true enough]
  rfl

end Sys2Proof.Machine

open Sys2Proof.Machine in
/-- Settles O38: INJECT by the injector it finds, each end as one stop, and the capture's commands by what their checks let
through. -/
theorem injectionAndCapture : Obligations.InjectionAndCapture := by
  unfold Obligations.InjectionAndCapture
  refine ⟨fun s hs => ⟨fun w0 l hl => ⟨fun ok idle => ?launch, fun ok run => ⟨fun takes => ?state,
    fun takes zero => ?amp, fun takes zero => ?stop⟩, fun no => ?refused⟩, fun n run => ?done⟩,
    fun s hs => ⟨fun cfg pre pts hp => ⟨fun ok => ?armed, fun no => ?unfit⟩, fun i c hl hb rest => ?read,
      fun armed triggered enough => ?ended⟩⟩
  case launch =>
    obtain ⟨t, set, ⟨own, others⟩, only⟩ := injectSet_launches (bit w0 8) (fld_lt w0 0 3) ok idle
    obtain ⟨cfg, amp, dur, done, abort, run, armed⟩ := injLaunched_values (bit w0 8) s.atSample (injOf l)
    have exec := execInject_six w0 hs hl
    rw [set] at exec
    rw [← own] at cfg amp dur done abort run armed
    exact ⟨_, exec, rfl, cfg, amp, dur, done, abort, run.trans (Bool.or_false _), armed, others, congrArg (reply .ok []) only⟩
  case state =>
    refine (execInject_six w0 hs hl).trans ?_
    rw [injectSet_running _ ok run, takes]
    rfl
  case amp =>
    refine (execInject_six w0 hs hl).trans ?_
    rw [injectSet_running _ ok run, takes, zero]
    rfl
  case stop =>
    have exec := execInject_six w0 hs hl
    rw [injectSet_running _ ok run, takes, zero] at exec
    obtain ⟨own, others⟩ := injStop_written ((InjWritten.refl (fld w0 0 3) s).setInj (fld_lt w0 0 3)
      fun y => { y with amp := (injOf l).amp }) (fld_lt w0 0 3) false
    obtain ⟨pend, data⟩ := injStop_evt (s := setInj (fld w0 0 3) (fun y => { y with amp := (injOf l).amp }) s)
      (fld w0 0 3) false hs
    have same := injStop_same (fld w0 0 3) false (setInj (fld w0 0 3) (fun y => { y with amp := (injOf l).amp }) s)
    refine ⟨_, exec, rfl, own.trans ?_, pend, data, others, same⟩
    simp only [injStopped, Bool.or_false]
  case refused =>
    refine (execInject_six w0 hs hl).trans ?_
    rw [injectSet_refused _ no]
    rfl
  case done =>
    obtain ⟨own, others⟩ := injStop_written (InjWritten.refl n.val s) n.isLt false
    obtain ⟨pend, data⟩ := injStop_evt n.val false hs
    exact ⟨_, execInjectDone_stops hs run, by rw [own]; rfl, by rw [own]; rfl, pend, data, others, injStop_same n.val false s⟩
  case armed =>
    have run := execCapture_runs (pre := pre) hs hp
    rw [captureSet_armed ok] at run
    exact ⟨_, run, rfl, rfl, rfl, rfl, rfl, rfl, rfl⟩
  case unfit =>
    refine (execCapture_runs hs hp).trans ?_
    rw [captureSet_refused no]
    rfl
  case read => exact ⟨_, execCaptureRead_words hs hl hb rest, rfl, rfl⟩
  case ended =>
    have cap := captureEnd_cap false s
    exact ⟨_, execCaptureDone_ends hs armed triggered enough, by rw [cap], by rw [cap], captureEnd_evt false hs, by rw [cap],
      captureEnd_same false s⟩
end

section
/-! Host staging, LOAD_ALL and HALL_MODE (R206, R219 to R223, R373 to R376, R512): what the commands write of the cells, of the
landing grid and of the halls. -/

namespace Sys2Proof.Machine

open Sys2Proof

variable {s : State} {q : Fin 64} {w0 : Word} {l : List Word} {k i : Nat} {pay : List (Nat × Word)}

/-! Entries of an array written one after another. -/

section Writes

variable {α β : Type} {n : Nat} (key : β → Nat) (val : β → α) (d : α)

theorem foldl_vset_other {l : List β} (h : ∀ x ∈ l, key x ≠ i) (v : Vector α n) :
    vget (l.foldl (fun v x => vset v (key x) (val x)) v) i d = vget v i d := by
  induction l generalizing v with
  | nil => rfl
  | cons y r ih =>
    rw [List.foldl_cons, ih (fun x hx => h x (List.mem_cons_of_mem _ hx)), vget_vset_ne _ _ _ _ _ (h y List.mem_cons_self)]

theorem foldl_vset_listed {l : List β} {x : β} (hx : x ∈ l) (nodup : (l.map key).Nodup) (hn : key x < n) (v : Vector α n) :
    vget (l.foldl (fun v x => vset v (key x) (val x)) v) (key x) d = val x := by
  induction l generalizing v with
  | nil => exact absurd hx List.not_mem_nil
  | cons y r ih =>
    obtain ⟨new, nodup⟩ := List.nodup_cons.mp nodup
    rcases List.mem_cons.mp hx with rfl | hx
    · have last : ∀ z ∈ r, key z ≠ key x := fun z hz e => new (e ▸ List.mem_map_of_mem hz)
      rw [List.foldl_cons, foldl_vset_other key val d last, vget_vset_same _ _ _ _ hn]
    · exact ih hx nodup _

end Writes

/-! The fields a STAGE_WRITE names (R512). -/

theorem mem_setBits {n v : Nat} : i ∈ setBits n v ↔ i < n ∧ v.testBit i = true := by
  rw [setBits, List.mem_filter, List.mem_range]

theorem setBits_nodup (n v : Nat) : (setBits n v).Nodup := List.nodup_range.filter _

theorem stagePayload_keys (len : l.length = (setBits 10 w0.toNat).length) :
    (stagePayload (w0 :: l)).map (·.1) = setBits 10 w0.toNat := by
  rw [stagePayload, List.map_map]
  exact List.map_fst_zip len.ge

theorem mem_stagePayload_keys (len : l.length = (setBits 10 w0.toNat).length) :
    i ∈ (stagePayload (w0 :: l)).map (·.1) ↔ i < 10 ∧ w0.getLsbD i = true := by
  rw [stagePayload_keys len]
  exact mem_setBits

/-- A field that is staged is not released. -/
theorem not_released (apart : fld w0 0 10 &&& fld w0 16 10 = 0) (hi : i < 10) (staged : w0.getLsbD i = true) :
    (fld w0 16 10).testBit i = false := by
  have low : (fld w0 0 10).testBit i = true := by
    rw [fld, pow_zero, Nat.div_one, Nat.testBit_mod_two_pow, decide_eq_true hi]
    exact staged
  simpa [low] using congrArg (Nat.testBit · i) apart

/-! A cell's staging after its STAGE_WRITE (R219, R223). -/

theorem foldl_release_other (keep : (fld w0 16 10).testBit i = false) (v : Vector Staged 10) :
    vget ((setBits 10 (fld w0 16 10)).foldl (fun v i => vset v i { release := true }) v) i {} = vget v i {} := by
  refine foldl_vset_other id _ _ (fun j hj e => ?_) v
  subst e
  exact absurd (mem_setBits.mp hj).2 (Bool.eq_false_iff.mp keep)

theorem stageApply_value (hk : k < 63) {x : Nat × Word} (hx : x ∈ pay) (nodup : (pay.map (·.1)).Nodup) (hi : x.1 < 10)
    (keep : (fld w0 16 10).testBit x.1 = false) :
    vget ((stageApply k w0 pay s).cell k).staged x.1 {} = { val := some x.2 } := by
  rw [stageApply, setCell_cell_same _ _ _ hk]
  exact (foldl_release_other keep _).trans (foldl_vset_listed (·.1) _ _ hx nodup hi _)

theorem stageApply_release (hk : k < 63) (hi : i < 10) (release : (fld w0 16 10).testBit i = true) :
    vget ((stageApply k w0 pay s).cell k).staged i {} = { release := true } := by
  rw [stageApply, setCell_cell_same _ _ _ hk]
  refine foldl_vset_listed id _ _ (mem_setBits.mpr ⟨hi, release⟩) ?_ hi _
  rw [List.map_id]
  exact setBits_nodup _ _

theorem stageApply_rest (hk : k < 63) (unstaged : i ∉ pay.map (·.1)) (keep : (fld w0 16 10).testBit i = false) :
    vget ((stageApply k w0 pay s).cell k).staged i {} = vget (s.cell k).staged i {} := by
  rw [stageApply, setCell_cell_same _ _ _ hk]
  exact (foldl_release_other keep _).trans
    (foldl_vset_other (·.1) _ _ (fun x hx e => unstaged (List.mem_map.mpr ⟨x, hx, e⟩)) _)

/-! STAGE_WRITE (R220, R512). -/

theorem lt_of_installed (h : s.installed k = true) : k < 63 := of_decide_eq_true (Bool.and_eq_true_iff.mp h).1

theorem cellCommand_runs {b : Bool} (body : Nat → State → State) (hb : b = true) (hs : s.Runs)
    (inst : s.installed q.val = true) (hall : s.hallOn (q.val / 21) = true) : cellCommand q b body s = body q.val s := by
  rw [cellCommand, command_runs hs _ hb]
  simp [inst, hall]

/-- The bounding period of a payload for cell `k` (R204). -/
def stageBound (k : Nat) (pay : List (Nat × Word)) (s : State) : Word :=
  if fld (s.boundField k 9 pay) 0 2 = 0 then s.boundField k 2 pay else s.boundField k 4 pay

section Stage

variable (hs : s.Runs) (inst : s.installed q.val = true) (hall : s.hallOn (q.val / 21) = true)
  (len : l.length = (setBits 10 w0.toNat).length) (named : w0 &&& 0x07FF03FF#32 ≠ 0)
  (apart : fld w0 0 10 &&& fld w0 16 10 = 0) (level : bit w0 26 = true → bit w0 0 = true)

include hs inst hall len named apart level

/-- With its mask in order, a STAGE_WRITE turns on the ranges of its values. -/
theorem execStageWrite_judges : ∃ ws, execStageWrite q (w0 :: l) s = .next (
    if (stagePayload (w0 :: l)).any (fun x => !hostOk x.1 (bit w0 26) (stageBound q.val (stagePayload (w0 :: l)) s) x.2) then
      refuse .range s
    else reply .ok ws (stageApply q.val w0 (stagePayload (w0 :: l)) s)) := by
  have lenOk : (!(w0 :: l).isEmpty && (w0 :: l).length == 1 + (setBits 10 w0.toNat).length) = true := by
    simp [len, Nat.add_comm]
  have inOrder : ¬ (w0 &&& 0x07FF03FF#32 = 0 ∨ fld w0 0 10 &&& fld w0 16 10 ≠ 0 ∨ (bit w0 26 && !bit w0 0) = true) := by
    rintro (none | both | levelAlone)
    · exact named none
    · exact both apart
    · obtain ⟨level26, level0⟩ : bit w0 26 = true ∧ bit w0 0 = false := by simpa using levelAlone
      exact Bool.false_ne_true (level0.symm.trans (level level26))
  exact ⟨_, congrArg _ ((cellCommand_runs _ lenOk hs inst hall).trans (if_neg inOrder))⟩

theorem execStageWrite_staged
    (ok : ∀ x ∈ stagePayload (w0 :: l), hostOk x.1 (bit w0 26) (stageBound q.val (stagePayload (w0 :: l)) s) x.2 = true) :
    ∃ ws, execStageWrite q (w0 :: l) s = .next (reply .ok ws (stageApply q.val w0 (stagePayload (w0 :: l)) s)) := by
  obtain ⟨ws, exec⟩ := execStageWrite_judges hs inst hall len named apart level
  refine ⟨ws, exec.trans (congrArg _ (if_neg ?_))⟩
  simpa using ok

theorem execStageWrite_refused
    (no : ∃ x ∈ stagePayload (w0 :: l), hostOk x.1 (bit w0 26) (stageBound q.val (stagePayload (w0 :: l)) s) x.2 = false) :
    execStageWrite q (w0 :: l) s = .next (refuse .range s) := by
  obtain ⟨ws, exec⟩ := execStageWrite_judges hs inst hall len named apart level
  refine exec.trans (congrArg _ (if_pos ?_))
  simpa using no

end Stage

/-! LOAD_ALL (R221, R223, R373). -/

theorem judgeStale_grid (s : State) : (judgeStale s).grid = { s.grid with modStale := s.staleMask } := by
  unfold judgeStale
  dsimp only
  split
  · rfl
  · split <;> simp

theorem judgeStale_straps (s : State) : (judgeStale s).aon.straps = s.aon.straps := by
  unfold judgeStale
  dsimp only
  split
  · rfl
  · split <;> simp

theorem armCommit_grid (t : Nat × Nat) (wide : Bool) (s : State) : (armCommit t wide s).grid =
    { s.grid with armed := some (t.1, wide), target := t.1, targetSeq := s.seqOf t.2 } := by
  simp [armCommit]

/-- The grid with staleness judged and a commit armed. -/
theorem armed_grid (t : Nat × Nat) (wide : Bool) (s : State) : (armCommit t wide (judgeStale s)).grid =
    { s.grid with modStale := s.staleMask, armed := some (t.1, wide), target := t.1, targetSeq := s.seqOf t.2 } := by
  rw [armCommit_grid, State.seqOf, judgeStale_grid]
  rfl

/-- A LOAD_ALL of the device as it answers with nothing armed. -/
theorem loadAllLocal_arms (free : s.grid.armed = none) : loadAllLocal s =
    (if s.staleMask = 0 then .ok else .stale,
      s.refFrom (s.now + s.loadLead) false ++ [lowW s.staleMask, highW s.staleMask, 0],
      armCommit (s.landingFrom (s.now + s.loadLead)) false (judgeStale s)) := by
  simp only [loadAllLocal, free, Option.isSome_none, Bool.false_eq_true, if_false, State.seqOf, armed_grid]
  rfl

theorem execLoadAll_device (hs : s.Runs) (device : bit w0 0 = false) :
    execLoadAll [w0] s = .next (reply (loadAllLocal s).1 (loadAllLocal s).2.1 (loadAllLocal s).2.2) := by
  refine congrArg Host.Outcome.next ((command_runs hs _ rfl).trans ?_)
  exact if_neg (Bool.eq_false_iff.mp device)

theorem execLoadAll_arms (hs : s.Runs) (device : bit w0 0 = false) (free : s.grid.armed = none) :
    execLoadAll [w0] s = .next (reply (if s.staleMask = 0 then .ok else .stale)
      (s.refFrom (s.now + s.loadLead) false ++ [lowW s.staleMask, highW s.staleMask, 0])
      (armCommit (s.landingFrom (s.now + s.loadLead)) false (judgeStale s))) := by
  rw [execLoadAll_device hs device, loadAllLocal_arms free]

theorem execLoadAll_stair (hs : s.Runs) (wide : bit w0 0 = true) : execLoadAll [w0] s = .next (loadAllWide s) := by
  refine congrArg Host.Outcome.next ((command_runs hs _ rfl).trans ?_)
  exact if_pos wide

/-- One commit is armed at a time. -/
theorem execLoadAll_refused (hs : s.Runs) (armed : s.grid.armed ≠ none) : execLoadAll [w0] s = .next (refuse .state s) := by
  have busy : s.grid.armed.isSome = true := Option.isSome_iff_ne_none.mpr armed
  cases h : bit w0 0 with
  | false =>
    rw [execLoadAll_device hs h, loadAllLocal, if_pos busy]
    rfl
  | true =>
    rw [execLoadAll_stair hs h, loadAllWide, loadAllStair, if_pos busy]
    rfl

/-- The wait of a LOAD_ALL of stairwell scope for its acknowledgements, from the landing it is armed for (R376). -/
def annWaitOf (t : Nat × Nat) (s : State) : AnnWait where
  acked := 1#16 <<< s.pos
  accept := 1#16 <<< s.pos
  stale := if s.staleMask = 0 then 0 else 1#16 <<< s.pos
  pkt := s.host.cur
  words := landRef t.1 (s.seqOf t.2) false ++ [lowW s.staleMask, highW s.staleMask]

/-- The commit armed for the whole stairwell, and announced with what waits for it. -/
def announcedAll (t : Nat × Nat) (s : State) : State :=
  stairBoth 2 (announceBytes (.loadAll t.1))
    (setStair (fun x => { x with anns := x.anns ++ [annWaitOf t s] }) (armCommit t true (judgeStale s)))

theorem loadAllStair_arms (free : s.grid.armed = none) : loadAllStair s.host.cur s =
    (.ok, announcedAll (s.landingFrom (s.now + max s.loadLead (2 * s.grid.tc))) s) := by
  simp only [loadAllStair, free, Option.isSome_none, Bool.false_eq_true, if_false, State.seqOf, armed_grid, State.pos,
    armCommit_frame, judgeStale_straps]
  rfl

theorem announcedAll_grid (t : Nat × Nat) (s : State) : (announcedAll t s).grid =
    { s.grid with modStale := s.staleMask, armed := some (t.1, true), target := t.1, targetSeq := s.seqOf t.2 } := by
  simp only [announcedAll, stairBoth_frame, setStair_frame, armed_grid]

theorem announcedAll_stair (t : Nat × Nat) (s : State) : (announcedAll t s).stair =
    { s.stair with anns := s.stair.anns ++ [annWaitOf t s] } := by
  simp only [announcedAll, stairBoth_frame, setStair_stair, armCommit_frame, judgeStale_frame]

theorem announcedAll_mapPresent (t : Nat × Nat) (s : State) : (announcedAll t s).mapPresent = s.mapPresent := by
  have straps : (announcedAll t s).aon.straps = s.aon.straps := by
    simp only [announcedAll, stairBoth_frame, setStair_frame, armCommit_frame, judgeStale_straps]
  unfold State.mapPresent State.newel State.pos
  rw [announcedAll_stair, straps]

/-- Another position of the stairwell holds the reply of its LOAD_ALL back. -/
theorem loadAllWide_waits (free : s.grid.armed = none) (others : s.mapPresent &&& ~~~(1#16 <<< s.pos) ≠ 0) :
    loadAllWide s = wait (announcedAll (s.landingFrom (s.now + max s.loadLead (2 * s.grid.tc))) s) := by
  rw [loadAllWide, loadAllStair_arms free]
  generalize s.landingFrom (s.now + max s.loadLead (2 * s.grid.tc)) = t
  have undone : annDone (annWaitOf t s) (announcedAll t s) = false := by
    rw [annDone, announcedAll_mapPresent]
    exact beq_eq_false_iff_ne.mpr others
  simp only [ne_eq, not_true_eq_false, if_false, announcedAll_stair, List.getLast?_append, List.getLast?_singleton,
    Option.some_or, undone, Bool.false_eq_true]

theorem execLoadAll_waits (hs : s.Runs) (wide : bit w0 0 = true) (free : s.grid.armed = none)
    (others : s.mapPresent &&& ~~~(1#16 <<< s.pos) ≠ 0) : execLoadAll [w0] s =
      .next (wait (announcedAll (s.landingFrom (s.now + max s.loadLead (2 * s.grid.tc))) s)) := by
  rw [execLoadAll_stair hs wide, loadAllWide_waits free others]

theorem execLoadAll_same {w : List Word} {t : State} (exec : execLoadAll w s = .next t) :
    SameRegisters s t ∧ SameGallery s t ∧ t.tb = s.tb := by
  simp only [SameRegisters, SameGallery, execLoadAll_frame _ _ _ exec, and_self, implies_true]

/-! HALL_MODE (R206). -/

/-- A mode of hall `h` written and armed. -/
def modeSet (h : Nat) (v : Word) (s : State) : State :=
  armMode h (some (v &&& hallModMask)) none (s.setReg (hallBase h + 4) (v &&& hallModMask))

theorem execHallMode_sets {v : Word} (hs : s.Runs) (hh : fld w0 0 2 < 3) (ok : hallModeOk v = true) :
    execHallMode [w0, v] s = .next (reply .ok (s.refFrom (s.now + 2 * s.grid.tc) false) (modeSet (fld w0 0 2) v s)) := by
  have legal : ¬ (3 ≤ fld w0 0 2 ∨ (!hallModeOk v) = true) := by
    simpa [ok] using hh
  have set : hallMode (fld w0 0 2) v s = (.ok, modeSet (fld w0 0 2) v s) := if_neg legal
  refine congrArg Host.Outcome.next ((command_runs hs _ rfl).trans ?_)
  simp only [wd, List.getD_cons_zero, List.getD_cons_succ, set, if_true]

theorem execHallMode_refused {v : Word} (hs : s.Runs) (no : fld w0 0 2 = 3 ∨ hallModeOk v = false) :
    execHallMode [w0, v] s = .next (refuse .badParam s) := by
  have illegal : 3 ≤ fld w0 0 2 ∨ (!hallModeOk v) = true := by
    simpa using no.imp_left Eq.ge
  have refused : hallMode (fld w0 0 2) v s = (.badParam, s) := if_pos illegal
  refine congrArg Host.Outcome.next ((command_runs hs _ rfl).trans ?_)
  simp only [wd, List.getD_cons_zero, List.getD_cons_succ, refused, reduceCtorEq, if_false]

/-- The change of mode that waits for its landing. -/
def modeArmOf (v : Word) (s : State) : ModeArm where
  at_ := (s.landingFrom (s.now + 2 * s.grid.tc)).1
  mod := some (v &&& hallModMask)

theorem modeSet_hall {h : Nat} (hh : h < 3) (v : Word) (s : State) : (modeSet h v s).hall h =
    { s.hall h with modeArms := (s.hall h).modeArms ++ [modeArmOf v s] } :=
  setHall_hall_same _ _ _ hh

theorem reply_hall (st : Status) (ws : List Word) (s : State) (h : Nat) : (reply st ws s).hall h = s.hall h := rfl

end Sys2Proof.Machine

open Sys2Proof.Machine in
/-- Settles O39: STAGE_WRITE by the fields it names, LOAD_ALL by the landing it arms, HALL_MODE by the hall it writes. -/
theorem staging : Obligations.Staging := by
  unfold Obligations.Staging
  refine ⟨fun s q w0 l hs inst hall len named apart level => ⟨fun ok => ?staged, fun no => ?range⟩,
    fun s w0 hs => ⟨fun device free => ?device, fun armed => ?armed, fun wide free others => ?stair⟩,
    fun s w0 v hs => ⟨fun hh ok => ?mode, fun no => ?illegal⟩⟩
  case staged =>
    have hq := lt_of_installed inst
    have keys := fun i => mem_stagePayload_keys (i := i) len
    have nodup : ((stagePayload (w0 :: l)).map (·.1)).Nodup := stagePayload_keys len ▸ setBits_nodup _ _
    obtain ⟨ws, exec⟩ := execStageWrite_staged hs inst hall len named apart level ok
    refine ⟨_, exec, ⟨ws, rfl⟩, fun x hx => ?_, fun i hi release => stageApply_release hq hi release,
      fun i hi unstaged keep => stageApply_rest hq ?_ keep, fun k hk => setCell_cell_ne s _ _ _ hk.symm, rfl⟩
    · obtain ⟨hi, staged⟩ := (keys x.1).mp (List.mem_map_of_mem hx)
      exact stageApply_value hq hx nodup hi (not_released apart hi staged)
    · rw [keys, unstaged]
      simp
  case range => exact execStageWrite_refused hs inst hall len named apart level no
  case device =>
    have exec := execLoadAll_arms hs device free
    refine ⟨_, exec, rfl, ?_, ?_, ?_, execLoadAll_same exec⟩
    all_goals simp only [reply_frame, armed_grid]
  case armed => exact execLoadAll_refused hs armed
  case stair =>
    have exec := execLoadAll_waits hs wide free others
    refine ⟨_, exec, rfl, ?_, ?_, execLoadAll_same exec⟩
    all_goals simp only [wait_frame, announcedAll_grid]
  case mode =>
    refine ⟨_, execHallMode_sets hs hh ok, rfl, setReg_reg_same s _ _, fun a ha => setReg_reg_ne s _ _ _ ha.symm,
      ?_, ⟨modeArmOf v s, ?_, rfl, rfl⟩, fun x hx => setHall_hall_ne _ _ _ _ hx.symm, rfl⟩
    · rw [reply_hall, modeSet_hall hh]
    · rw [reply_hall, modeSet_hall hh]
      exact List.mem_append_right _ List.mem_cons_self
  case illegal => exact execHallMode_refused hs no
end

section
/-! Debug halt, the scrubber's findings and the atrium errors (R35, R36, R46, R47, R230, Table 01-7): what each notes, and what an
atrium error leaves of the host's queues. -/

namespace Sys2Proof.Machine

open Sys2Proof

variable {s t : State} {g : Fin 16} {o : EccOwner}

/-! What decisions keep of the atrium and of the host's port. -/

theorem DecisionKeeps.atr {P : Atrium → Prop} (hP : ∀ x c, P x → P { x with cap := c }) : DecisionKeeps fun s => P s.atr where
  emit _ _ h := h
  raise e w s h := by
    rw [raise_atr_frame]
    exact hP _ _ h
  log e k y w c _ h := by
    refine logRecord_keeps (Q := fun s => P s.atr) (fun e w _ h => ?_) (fun _ _ h => h) (fun _ _ h => h) e k y w c h
    rw [raise_atr_frame]
    exact hP _ _ h
  safe _ _ h := h
  cell _ _ _ _ h := h
  ends _ h := h
  remap _ _ _ h := h
  short _ _ _ h := h

theorem raise_queues (e : Nat) (w : Word) (s : State) : (raise e w s).host.q = s.host.q := by rw [raise_host]

theorem DecisionKeeps.queues (v : Vector Queue 64) : DecisionKeeps fun s => s.host.q = v where
  emit _ _ h := h
  raise e w s h := (raise_queues e w s).trans h
  log e k y w c _ h := logRecord_keeps (Q := fun s => s.host.q = v) (fun e w s h => (raise_queues e w s).trans h)
    (fun _ _ h => h) (fun _ _ h => h) e k y w c h
  safe _ _ h := h
  cell _ _ _ _ h := h
  ends _ h := h
  remap _ _ _ h := h
  short _ _ _ h := h

theorem DecisionKeeps.blockOrHandOver {Q : State → Prop} (hQ : DecisionKeeps Q) (cause : Nat)
    (twin : ∀ (x : Twin) (s : State), Q s → Q { s with twin := x }) (h : Q s) : Q (blockOrHandOver cause s) := by
  unfold Machine.blockOrHandOver
  refine hQ.setCause cause ?_
  split
  · exact hQ.emit _ _ (twin _ _ h)
  · exact h

theorem SamePower.canHandOver (h : SamePower s t) : t.canHandOver = s.canHandOver := by
  simp only [State.canHandOver, State.linkUp, h.isOn, h.2]

/-! Atrium errors (R35, R36). -/

theorem raise_err (e : Nat) (w : Word) (s : State) : (raise e w s).atr.err = s.atr.err := by rw [raise_atr_frame]

/-- The error bit of an atrium error, with its event and its record. -/
def noteAtriumError (kind : Nat) (s : State) : State :=
  let u := raise 163 (BitVec.ofNat 32 kind) { s with atr := { s.atr with err := true } }
  logRecord 163 0x20 0xFFFF (BitVec.ofNat 32 kind) (u.safe.cause.setWidth 32) u

theorem atriumError_first (kind : Nat) (hs : s.Runs) (free : s.atr.err = false) :
    atriumError kind s = blockOrHandOver 12 (noteAtriumError kind s) :=
  if_neg (by simp [free, hs])

theorem noteAtriumError_power (kind : Nat) (s : State) : SamePower s (noteAtriumError kind s) :=
  have keeps := DecisionKeeps.powered s.aon.dom s.twin
  keeps.log _ _ _ _ _ _ (keeps.raise _ _ { s with atr := { s.atr with err := true } } ⟨rfl, rfl⟩)

/-- The error bit is set and its event pends. -/
def AtriumErrs (s : State) : Prop := s.atr.err = true ∧ (s.evt 163).pend = true

theorem atriumErrs_decisionKeeps : DecisionKeeps AtriumErrs :=
  (DecisionKeeps.atr (P := (·.err = true)) fun _ _ h => h).and (.pend 163)

theorem noteAtriumError_errs (kind : Nat) (hs : s.Runs) : AtriumErrs (noteAtriumError kind s) := by
  refine atriumErrs_decisionKeeps.log _ _ _ _ _ _ ⟨raise_err _ _ _, raise_pend_same _ hs (by decide)⟩

theorem atriumError_errs (kind : Nat) (hs : s.Runs) (free : s.atr.err = false) : AtriumErrs (atriumError kind s) := by
  rw [atriumError_first kind hs free]
  exact atriumErrs_decisionKeeps.blockOrHandOver 12 (fun _ _ h => h) (noteAtriumError_errs kind hs)

/-- Outside a pair an atrium error sets its cause. -/
theorem atriumError_cause (kind : Nat) (hs : s.Runs) (free : s.atr.err = false) (safety : s.isOn .safety = true)
    (alone : s.canHandOver = false) : (atriumError kind s).safe.cause = s.safe.cause ||| (1#17 <<< 12) := by
  have power := noteAtriumError_power kind s
  have blocks : blockOrHandOver 12 (noteAtriumError kind s) = setCause 12 (noteAtriumError kind s) := by
    rw [blockOrHandOver, power.canHandOver, alone]
    rfl
  rw [atriumError_first kind hs free, blocks, setCause_safeCause 12 ((power.isOn .safety).trans safety)]
  simp only [noteAtriumError, logRecord_frame, raise_frame]

theorem atriumError_same (kind : Nat) (s : State) :
    SameRegisters s (atriumError kind s) ∧ SameGallery s (atriumError kind s) := by
  simp only [SameRegisters, SameGallery, atriumError_frame, and_self, implies_true]

theorem atriumError_queues (kind : Nat) (s : State) : (atriumError kind s).host.q = s.host.q :=
  (DecisionKeeps.queues s.host.q).atriumError kind (fun _ h => h) (fun _ _ h => h) rfl

/-! Debug halt (R230). -/

/-- The atrium halted at this instant. -/
def halt (s : State) : State := { s with atr := { s.atr with halted := true, haltAt := s.now } }

theorem execDebugHalt_halts (hs : s.Runs) (running : s.atr.halted = false) :
    execDebugHalt s = .next (raise 225 0 (setCause 13 (halt s))) :=
  congrArg _ (if_neg (by simp [running, hs]))

theorem execHaltRelease_releases (hs : s.Runs) (halted : s.atr.halted = true) :
    execHaltRelease s = .next { s with atr := { s.atr with halted := false, releaseAt := s.now } } :=
  congrArg _ (if_pos (by simp [halted, hs]))

theorem halted_decisionKeeps (n : Nat) : DecisionKeeps fun s => s.atr.halted = true ∧ s.atr.haltAt = n :=
  DecisionKeeps.atr (P := fun x => x.halted = true ∧ x.haltAt = n) fun _ _ h => h

theorem setCause_power (i : Nat) (s : State) : SamePower s (setCause i s) :=
  (DecisionKeeps.powered s.aon.dom s.twin).setCause i ⟨rfl, rfl⟩

theorem execDebugHalt_same (exec : execDebugHalt s = .next t) : SameRegisters s t ∧ SameGallery s t ∧ t.tb = s.tb := by
  simp only [SameRegisters, SameGallery, execDebugHalt_frame _ _ exec, and_self, implies_true]

/-! The scrubber (R46, R47). -/

theorem execGalleryScrub_finds (kind : EccKind) (hs : s.Runs) (on : s.bankOn g.val = true) (held : o.inBank g.val = true) :
    execGalleryScrub g kind o s = .next (match kind with
      | .corr => raise 164 (BitVec.ofNat 32 g.val) s
      | .uncorr => contain o (raise 165 (BitVec.ofNat 32 g.val) s)) :=
  congrArg _ (if_neg (by simp [hs, on, held]))

theorem execGalleryScrub_corr (hs : s.Runs) (on : s.bankOn g.val = true) (held : o.inBank g.val = true) :
    execGalleryScrub g .corr o s = .next (raise 164 (BitVec.ofNat 32 g.val) s) := execGalleryScrub_finds .corr hs on held

theorem execGalleryScrub_uncorr (hs : s.Runs) (on : s.bankOn g.val = true) (held : o.inBank g.val = true) :
    execGalleryScrub g .uncorr o s = .next (contain o (raise 165 (BitVec.ofNat 32 g.val) s)) :=
  execGalleryScrub_finds .uncorr hs on held

theorem execGalleryScrub_none (kind : EccKind) (other : o.inBank g.val = false) : execGalleryScrub g kind o s = .next s :=
  congrArg _ (if_pos (by simp [other]))

/-! Words whose error is contained (Table 01-7): one of the capture, and one of a queue's packet. -/

theorem memRead_memWrites_in {l : List Byte} {i : Nat} (hi : i < l.length) {m : List Host.Cell} (a : Nat) (wf : Memory.wf m) :
    memRead (memWrites m a l) (a + i) = l.getD i 0 := by
  induction l generalizing m a i with
  | nil => exact absurd hi (Nat.not_lt_zero i)
  | cons b r ih =>
    cases i with
    | zero => exact (memRead_memWrites_out r _ _ a (.inl a.lt_succ_self)).trans (memRead_memWrite_same m a b wf)
    | succ i =>
      rw [Nat.add_comm i 1, ← Nat.add_assoc]
      exact (ih (Nat.lt_of_succ_lt_succ hi) (a + 1) (memWrite_wf m a b wf)).trans (by rw [Nat.add_comm 1 i]; rfl)

/-- The bytes of the quiet NaN. -/
theorem qnan_bytes : ∀ i < 4, (leBytes 4 F32.qnan.toNat).getD i 0 = BitVec.ofNat 8 (0x7FC00000 / 2 ^ (8 * i)) := by decide

theorem contain_capture {w : Nat} (hw : w < 262144) (s : State) : contain (.capture w) s =
    { s with mem := memWrites s.mem (6 * 0x40000 + 4 * w) (leBytes 4 F32.qnan.toNat) } := by
  rw [contain, Nat.mod_eq_of_lt hw]
  rfl

theorem capture_inBank {w : Nat} (hw : w < 262144) (bank : g.val = 6 + w / 65536) : (EccOwner.capture w).inBank g.val = true := by
  simp [EccOwner.inBank, bank, hw]

theorem queue_inBank {q : Fin 64} {i : Nat} (bank : g.val = 10 ∨ g.val = 11) : (EccOwner.queue q i).inBank g.val = true := by
  simpa [EccOwner.inBank] using bank

/-- The packet in place `i` marked (R478). -/
def markEcc (i : Nat) (x : Queue) : Queue := { x with pkts := x.pkts.modify i fun p => { p with ecc := true } }

/-- The state whose atrium error follows an uncorrectable word of queue `q`. -/
def queueMarked (g q i : Nat) (s : State) : State := (raise 165 (BitVec.ofNat 32 g) s).setQueue q (markEcc i)

theorem contain_queue (q : Fin 64) (i : Nat) (s : State) :
    contain (.queue q i) (raise 165 (BitVec.ofNat 32 g.val) s) = atriumError 1 (queueMarked g.val q.val i s) := rfl

theorem queueMarked_queues (g q i : Nat) (s : State) : (queueMarked g q i s).host.q = vmod s.host.q q (markEcc i) :=
  congrArg (vmod · q (markEcc i)) (raise_queues _ _ _)

theorem queueMarked_runs (g q i : Nat) (hs : s.Runs) : (queueMarked g q i s).Runs :=
  (raise_isOn 165 (BitVec.ofNat 32 g) s .atrium).trans hs

theorem queueMarked_err (g q i : Nat) (s : State) : (queueMarked g q i s).atr.err = s.atr.err :=
  raise_err _ _ s

theorem contained_queue_same (g q i : Nat) (s : State) : SameRegisters s (atriumError 1 (queueMarked g q i s)) ∧
    SameGallery s (atriumError 1 (queueMarked g q i s)) := by
  simp only [SameRegisters, SameGallery, queueMarked, atriumError_frame, State.setQueue_frame, raise_frame, and_self,
    implies_true]

end Sys2Proof.Machine

open Sys2Proof.Machine in
/-- Settles O32: the halt by what its cause and its event keep, the scrubber's findings by the owner of the word, and the timeouts
as atrium errors. -/
theorem haltAndErrors : Obligations.HaltAndErrors := by
  unfold Obligations.HaltAndErrors
  refine ⟨fun s hs => ⟨fun running => ?halt, fun halted => execHaltRelease_releases hs halted⟩,
    fun s g o hs on => ⟨fun held => ?corr, fun kind other => execGalleryScrub_none kind other, fun w wf hw bank => ?capture,
      fun q i bank => ?queue⟩,
    fun s hs free => ⟨?dispatch, ?corridor⟩⟩
  case halt =>
    have exec := execDebugHalt_halts hs running
    have runs : (setCause 13 (halt s)).Runs := ((setCause_power 13 (halt s)).isOn .atrium).trans hs
    have keeps := halted_decisionKeeps s.now
    obtain ⟨halted, haltAt⟩ := keeps.raise 225 0 _ (keeps.setCause 13 (s := halt s) ⟨rfl, rfl⟩)
    refine ⟨_, exec, halted, haltAt, raise_pend_same 0 runs (by decide), fun safety => ?_, execDebugHalt_same exec⟩
    simp only [raise_frame]
    exact setCause_safeCause 13 (s := halt s) safety
  case corr =>
    refine ⟨_, execGalleryScrub_corr hs on held, raise_pend_same _ hs (by decide),
      raise_data_same _ hs (by decide) (by decide), ?_⟩
    simp only [SameRegisters, SameGallery, raise_frame, and_self, implies_true]
  case capture =>
    have exec := execGalleryScrub_uncorr hs on (capture_inBank hw bank)
    rw [contain_capture hw] at exec
    simp only [raise_frame] at exec
    refine ⟨_, exec, raise_pend_same _ hs (by decide), fun i hi => ?_, fun b hb => memRead_memWrites_out _ _ _ _ hb,
      rfl, rfl⟩
    exact (memRead_memWrites_in hi _ wf).trans (qnan_bytes i hi)
  case queue =>
    have exec := execGalleryScrub_uncorr hs on (queue_inBank (q := q) (i := i) bank)
    rw [contain_queue] at exec
    have queues := (atriumError_queues 1 _).trans (queueMarked_queues g.val q.val i s)
    refine ⟨_, exec, ?_, fun m hm => ?_, fun free => ?_, contained_queue_same g.val q.val i s⟩
    · rw [State.queue, queues, vget_vmod_same _ _ _ _ q.isLt]
      rfl
    · rw [State.queue, queues, vget_vmod_ne _ _ _ _ _ hm.symm]
      rfl
    · exact atriumError_errs 1 (queueMarked_runs g.val q.val i hs) ((queueMarked_err _ _ _ s).trans free)
  case dispatch =>
    obtain ⟨err, event⟩ := atriumError_errs 3 hs free
    exact ⟨_, rfl, err, event, atriumError_cause 3 hs free, atriumError_same 3 s⟩
  case corridor =>
    obtain ⟨err, event⟩ := atriumError_errs 4 hs free
    exact ⟨_, rfl, err, event, atriumError_cause 4 hs free, atriumError_same 4 s⟩
end

section
/-! What the host does to cells: SAFE_SET, CELL_BYPASS and CELL_RESTORE (R227, R248, R249, R253, R393, R514), cell by cell. -/

namespace Sys2Proof.Machine

open Sys2Proof

variable {s : State} {k j p : Nat} {q : Fin 64} {w0 lo hi : Word}

/-! Turns for the members of a list, each on a part of its own. -/

/-- What no turn writes stands. -/
theorem each_keep_mem {α β σ : Type} (get : σ → β) {l : List α} {f : α → σ → σ} {s : σ}
    (keep : ∀ y ∈ l, ∀ u, get (f y u) = get u) : get (each l f s) = get s := by
  unfold each
  induction l generalizing s with
  | nil => rfl
  | cons y r ih =>
    rw [List.foldl_cons, ih fun z hz => keep z (List.mem_cons_of_mem y hz), keep y List.mem_cons_self]

/-- What the turn for `x` alone writes is as that one turn leaves it, from the value it had at first. -/
theorem each_own_turn {α β σ : Type} (get : σ → β) {l : List α} {f : α → σ → σ} {s : σ} {x : α} (hx : x ∈ l)
    (nodup : l.Nodup) (keep : ∀ y ∈ l, y ≠ x → ∀ u, get (f y u) = get u) :
    ∃ u, get u = get s ∧ get (each l f s) = get (f x u) := by
  induction l generalizing s with
  | nil => exact absurd hx List.not_mem_nil
  | cons y r ih =>
    obtain ⟨new, nodup⟩ := List.nodup_cons.mp nodup
    rcases List.mem_cons.mp hx with rfl | hr
    · exact ⟨s, rfl, each_keep_mem get fun z hz => keep z (List.mem_cons_of_mem x hz) fun e => new (e ▸ hz)⟩
    · obtain ⟨u, before, after⟩ := ih (s := f y s) hr nodup fun z hz => keep z (List.mem_cons_of_mem y hz)
      have other : y ≠ x := fun e => new (e ▸ hr)
      exact ⟨u, before.trans (keep y List.mem_cons_self other s), after⟩

/-! Which parts of the state a cell's leaving and its new image write. -/

theorem overtake_only (k : Nat) (s : State) : overtake k s = { s with flights := (overtake k s).flights } := by
  unfold overtake
  dsimp only
  split
  · refine each_inv (Q := fun u => u = { s with flights := u.flights }) _ _ s (fun f u h => ?_) rfl
    exact congrArg (State.setFlight · f fun x => { x with remap := x.remap || x.mapped }) h
  · rfl

theorem leave_only (k p : Nat) (s : State) :
    leave k p s = { s with cells := (leave k p s).cells, flights := (leave k p s).flights } := by
  unfold leave leaveWith
  dsimp only
  rw [overtake_only]
  rfl

theorem startTransfer_only (k : Nat) (s : State) : startTransfer k s = { s with cells := (startTransfer k s).cells } := by
  unfold startTransfer
  dsimp only
  (repeat' split) <;> rfl

theorem startTransfer_others (hj : j ≠ k) (s : State) : (startTransfer k s).cell j = s.cell j := by
  unfold startTransfer
  dsimp only
  (repeat' split) <;> simp only [setCell_cell_ne _ _ _ _ hj.symm]

/-! A cell that takes a pattern at the coming landing (R249, R293). -/

/-- The cell as it waits, from `t` on or from before, for pattern `p` or a stronger one. -/
def Cell.left (p t : Nat) (c : Cell) : Cell :=
  { c.endRestore with
    req := some (max ((c.req.map (·.1)).getD 0) p, (c.req.map (·.2)).getD t)
    retry := max ((c.req.map (·.1)).getD 0) p == 0 }

theorem leave_own (p : Nat) (hk : k < 63) (s : State) : (leave k p s).cell k = (s.cell k).left p s.now := by
  unfold leave leaveWith
  dsimp only
  rw [overtake_cell, setCell_cell_same _ _ _ hk]
  rfl

theorem leave_now (k p : Nat) (s : State) : (leave k p s).now = s.now := by simp only [State.now, leave_frame]

/-- A safe pattern is none of a retry. -/
theorem left_retry (hp : p = 1 ∨ p = 2) (t : Nat) (c : Cell) : (c.left p t).retry = false :=
  beq_eq_false_iff_ne.mpr (by omega)

theorem mem_maskCells_lt {w : List Word} (hk : k ∈ maskCells w) : k < 63 := (mem_setBits.mp hk).1

theorem maskCells_nodup (w : List Word) : (maskCells w).Nodup := setBits_nodup _ _

/-! SAFE_SET (R227, R514). -/

/-- A command's cells as they wait for the pattern that they take. -/
theorem each_leave_listed {w : List Word} (p : Nat) (hk : k ∈ maskCells w) (s : State) :
    (each (maskCells w) (leave · p) s).cell k = (s.cell k).left p s.now := by
  obtain ⟨u, before, after⟩ := each_own_turn (f := (leave · p)) (s := s) (fun u => (u.cell k, u.now)) hk (maskCells_nodup w)
    fun y hy other u => Prod.ext (leave_others (k := ⟨y, mem_maskCells_lt hy⟩) p other.symm) (leave_now y p u)
  obtain ⟨cell, now⟩ := Prod.mk.inj before
  rw [(Prod.mk.inj after).1, leave_own p (mem_maskCells_lt hk), cell, now]

theorem each_leave_others {w : List Word} (p : Nat) (hk : k ∉ maskCells w) (s : State) :
    (each (maskCells w) (leave · p) s).cell k = s.cell k :=
  each_keep_mem (State.cell · k) fun y hy _ =>
    leave_others (k := ⟨y, mem_maskCells_lt hy⟩) p (ne_of_mem_of_not_mem hy hk).symm

theorem each_leave_only (l : List Nat) (p : Nat) (s : State) : each l (leave · p) s =
    { s with cells := (each l (leave · p) s).cells, flights := (each l (leave · p) s).flights } := by
  refine each_inv (Q := fun u => u = { s with cells := u.cells, flights := u.flights }) _ _ s (fun k u h => ?_) rfl
  exact (leave_only k p u).trans
    (congrArg (fun v => { v with cells := (leave k p u).cells, flights := (leave k p u).flights }) h)

/-- SAFE_CFG as ACTION 0 writes it. -/
def safeCfgOf (p : Nat) (hold : Bool) : Word := pack [(0, 2, p), (5, 1, b2n hold)]

theorem safeCfgOf_fields (hp : p = 1 ∨ p = 2) (hold : Bool) :
    fld (safeCfgOf p hold) 0 2 = p ∧ bit (safeCfgOf p hold) 5 = hold := by
  rcases hp with rfl | rfl <;> cases hold <;> decide

section Patterns

variable (p : Nat) (hold : Bool)

/-- The register, and the cell where its image has to be sent. -/
theorem setPattern_eq (k : Nat) (s : State) : setPattern p hold k s =
    { s.setReg (ctxBase k + 0x100) (safeCfgOf p hold) with cells := (setPattern p hold k s).cells } := by
  unfold setPattern
  dsimp only
  split
  · exact startTransfer_only k _
  · rfl

theorem setPattern_reg (k a : Nat) (s : State) :
    (setPattern p hold k s).reg a = (s.setReg (ctxBase k + 0x100) (safeCfgOf p hold)).reg a := by
  rw [setPattern_eq]
  rfl

theorem setPattern_others (hj : j ≠ k) (s : State) : (setPattern p hold k s).cell j = s.cell j := by
  unfold setPattern
  dsimp only
  split
  · exact startTransfer_others hj _
  · rfl

theorem each_setPattern_listed {l : List Nat} (hk : k ∈ l) (s : State) :
    (each l (setPattern p hold) s).reg (ctxBase k + 0x100) = safeCfgOf p hold := by
  have own : ∀ u, (setPattern p hold k u).reg (ctxBase k + 0x100) = safeCfgOf p hold := fun u => by
    rw [setPattern_reg, setReg_reg_same]
  refine each_hits (P := fun u => u.reg (ctxBase k + 0x100) = safeCfgOf p hold) (Q := fun _ => True) hk (fun u _ => own u)
    (fun _ _ _ => trivial) (fun y u h => ?_) trivial
  rcases eq_or_ne y k with rfl | e
  · exact own u
  · rw [setPattern_reg, setReg_reg_ne _ _ _ _ (by unfold ctxBase; omega), h]

theorem each_setPattern_reg {l : List Nat} {a : Nat} (ha : ∀ k ∈ l, a ≠ ctxBase k + 0x100) (s : State) :
    (each l (setPattern p hold) s).reg a = s.reg a :=
  each_keep_mem (State.reg · a) fun k hk u =>
    (setPattern_reg p hold k a u).trans (setReg_reg_ne _ _ _ _ (ha k hk).symm)

theorem each_setPattern_others {l : List Nat} (hk : k ∉ l) (s : State) :
    (each l (setPattern p hold) s).cell k = s.cell k :=
  each_keep_mem (State.cell · k) fun _ hy u => setPattern_others p hold (ne_of_mem_of_not_mem hy hk).symm u

theorem each_setPattern_only (l : List Nat) (s : State) : each l (setPattern p hold) s =
    { s with cfg := (each l (setPattern p hold) s).cfg, cells := (each l (setPattern p hold) s).cells } := by
  refine each_inv (Q := fun u => u = { s with cfg := u.cfg, cells := u.cells }) _ _ s (fun k u h => ?_) rfl
  rw [setPattern_eq]
  exact congrArg (fun v => { v.setReg (ctxBase k + 0x100) (safeCfgOf p hold) with cells := (setPattern p hold k u).cells }) h

end Patterns

theorem safeSetCheck_off {w : List Word} (off : ∃ k ∈ maskCells w, s.hallOn (k / 21) = false) :
    safeSetCheck w s = .domainOff := by
  obtain ⟨k, hk, off⟩ := off
  exact if_pos (List.any_eq_true.mpr ⟨k, hk, by rw [off]; rfl⟩)

theorem safeSetCheck_on (on : ∀ k ∈ maskCells [w0, lo, hi], s.hallOn (k / 21) = true) :
    safeSetCheck [w0, lo, hi] s = if fld w0 1 2 ≠ 1 ∧ fld w0 1 2 ≠ 2 then .badParam else .ok :=
  if_neg (by simpa using on)

theorem safeSetCheck_ok (on : ∀ k ∈ maskCells [w0, lo, hi], s.hallOn (k / 21) = true)
    (hp : fld w0 1 2 = 1 ∨ fld w0 1 2 = 2) : safeSetCheck [w0, lo, hi] s = .ok :=
  (safeSetCheck_on on).trans (if_neg fun ⟨not1, not2⟩ => hp.elim not1 not2)

theorem safeSet_refused {st : Status} (hs : s.Runs) (check : safeSetCheck [w0, lo, hi] s = st) (no : st ≠ .ok) :
    safeSet [w0, lo, hi] s = refuse st s := by
  refine (command_runs hs _ rfl).trans ?_
  rw [check, if_pos no]

/-- What SAFE_SET does is its ACTION's, by either of its opcodes. -/
theorem safeSet_acts (hs : s.Runs) (check : safeSetCheck [w0, lo, hi] s = .ok) : safeSet [w0, lo, hi] s =
    if bit w0 0 then safeRequest [w0, lo, hi] s else safePatterns [w0, lo, hi] s := by
  refine (command_runs hs _ rfl).trans ?_
  rw [check, if_neg (not_not_intro rfl)]
  rfl

theorem execSafeSet_patterns (hs : s.Runs) (check : safeSetCheck [w0, lo, hi] s = .ok) (act : bit w0 0 = false) :
    execSafeSet [w0, lo, hi] s =
      .next (reply .ok [0, 0] (each (maskCells [w0, lo, hi]) (setPattern (fld w0 1 2) (bit w0 3)) s)) :=
  congrArg _ ((safeSet_acts hs check).trans (if_neg (Bool.eq_false_iff.mp act)))

theorem execSafeRequest_leaves (hs : s.Runs) (check : safeSetCheck [w0, lo, hi] s = .ok) (act : bit w0 0 = true) :
    execSafeRequest [w0, lo, hi] s = .next (reply .ok (s.refFrom (s.now + 200 + s.lead) false)
      (each (maskCells [w0, lo, hi]) (leave · (fld w0 1 2)) s)) :=
  congrArg _ ((safeSet_acts hs check).trans (if_pos act))

/-! CELL_BYPASS and CELL_RESTORE (R248, R253, R393). -/

/-- The cells that stay in service in the string of cell `k` as it leaves. -/
def State.staying (s : State) (k : Nat) : List Nat :=
  (s.strCells (k / 21)).filter fun i => i != k && s.isActive i && (s.cell i).req.isNone

/-- A cell in phase 1 of its restore, for the landing at `t` (Table 06-3); a pattern that it waited for is its pattern now. -/
def Cell.restoreBegun (t : Nat) (c : Cell) : Cell :=
  { c with
    mode := .restoring, restorePhase := 1, restoreAt := t, restoreOk := 0, restoreWait := false, noLimit := false
    wdClear := true, act := (c.req.map (·.1)).getD c.act, req := none }

section CellCommand

variable (hs : s.Runs) (inst : s.installed q.val = true) (hall : s.hallOn (q.val / 21) = true)
include hs inst hall

theorem execCellBypass_leaves (inService : (s.cell q.val).mode ≠ .out)
    (enough : s.isActive q.val = false ∨ s.nReq (q.val / 21) ≤ (s.staying q.val).length) : execCellBypass q [] s =
      .next (reply .ok (s.refFrom (s.now + 200 + s.lead) false) (leave q.val 2 s)) := by
  have stays : ¬(s.isActive q.val && decide ((s.staying q.val).length < s.nReq (q.val / 21))) = true := by
    simpa [← Bool.not_eq_true, imp_iff_not_or] using enough
  exact congrArg _ ((cellCommand_runs _ rfl hs inst hall).trans ((if_neg inService).trans (if_neg stays)))

theorem execCellBypass_refused (no : (s.cell q.val).mode = .out ∨
    (s.isActive q.val = true ∧ (s.staying q.val).length < s.nReq (q.val / 21))) :
    execCellBypass q [] s = .next (refuse .state s) := by
  refine congrArg _ ((cellCommand_runs _ rfl hs inst hall).trans ?_)
  rcases no with out | ⟨active, few⟩
  · exact if_pos out
  · exact ite_eq_left_iff.mpr fun _ => if_pos (by rw [active, Bool.true_and]; exact decide_eq_true few)

theorem execCellRestore_begins (fit : restoreRefused q.val s = false) : execCellRestore q [] s =
    .next (reply .accepted (s.refFrom (s.now + 200 + s.lead) false) (s.setCell q.val (·.restoreBegun s.lb))) := by
  refine congrArg _ ((cellCommand_runs _ rfl hs inst hall).trans
    ((if_neg (Bool.eq_false_iff.mp fit)).trans (congrArg _ (setCell_congr ?_))))
  unfold Cell.restoreBegun
  cases (s.cell q.val).req <;> rfl

theorem execCellRestore_refused (unfit : restoreRefused q.val s = true) :
    execCellRestore q [] s = .next (refuse .state s) :=
  congrArg _ ((cellCommand_runs _ rfl hs inst hall).trans (if_pos unfit))

end CellCommand

theorem restoreRefused_eq_false : restoreRefused k s = false ↔ (s.hall (k / 21)).err = false ∧ (s.cell k).perm = false ∧
    (s.cell k).mode = .out ∧ (s.cell k).retry = false ∧ (s.hall (k / 21)).permPending = false ∧ s.ssb = false := by
  simp [restoreRefused, and_assoc]

end Sys2Proof.Machine

open Sys2Proof.Machine in
/-- Settles O40: SAFE_SET cell by cell over its mask, CELL_BYPASS as one cell's leaving, CELL_RESTORE by what refuses it. -/
theorem cellService : Obligations.CellService := by
  unfold Obligations.CellService
  refine ⟨fun s w0 lo hi hs => ⟨fun on hp => ⟨fun act => ?patterns, fun act => ?request⟩, fun st no => ?refused⟩,
    fun s q hs inst hall => ⟨fun mode enough => ?bypass, fun no => execCellBypass_refused hs inst hall no,
      fun fit => ?restore, fun unfit => ?unfit⟩⟩
  case patterns =>
    obtain ⟨pat, holds⟩ := safeCfgOf_fields hp (bit w0 3)
    refine ⟨_, execSafeSet_patterns hs (safeSetCheck_ok on hp) act, rfl, fun k hk => ?_,
      fun a ha => each_setPattern_reg _ _ ha s, fun k hk => each_setPattern_others _ _ hk s,
      congrArg (reply .ok [0, 0]) (each_setPattern_only _ _ _ s)⟩
    have written := each_setPattern_listed (fld w0 1 2) (bit w0 3) hk s
    exact ⟨(congrArg (fld · 0 2) written).trans pat, (congrArg (bit · 5) written).trans holds⟩
  case request =>
    refine ⟨_, execSafeRequest_leaves hs (safeSetCheck_ok on hp) act, rfl, fun k hk => ?_,
      fun k hk => each_leave_others (fld w0 1 2) hk s, congrArg (reply .ok _) (each_leave_only _ (fld w0 1 2) s)⟩
    have waits := each_leave_listed (fld w0 1 2) hk s
    exact ⟨(congrArg Cell.retry waits).trans (left_retry hp s.now (s.cell k)), congrArg Cell.req waits⟩
  case refused =>
    have refused : safeSet [w0, lo, hi] s = refuse st s := by
      rcases no with ⟨off, rfl⟩ | ⟨on, not1, not2, rfl⟩
      · exact safeSet_refused hs (safeSetCheck_off off) nofun
      · exact safeSet_refused hs ((safeSetCheck_on on).trans (if_pos ⟨not1, not2⟩)) nofun
    exact ⟨congrArg _ refused, congrArg _ refused⟩
  case bypass =>
    have hq := lt_of_installed inst
    refine ⟨_, execCellBypass_leaves hs inst hall mode enough, rfl, ?_, fun k hk => leave_others (k := ⟨q.val, hq⟩) 2 hk,
      congrArg (reply .ok _) (leave_only q.val 2 s)⟩
    exact congrArg Cell.req (leave_own 2 hq s)
  case restore =>
    exact ⟨_, execCellRestore_begins hs inst hall (restoreRefused_eq_false.mpr fit), rfl,
      setCell_cell_same _ _ _ (lt_of_installed inst), fun k hk => setCell_cell_ne s _ _ _ hk.symm, rfl⟩
  case unfit =>
    exact execCellRestore_refused hs inst hall (Bool.eq_true_of_not_eq_false (mt restoreRefused_eq_false.mp unfit))
end

section
/-! Wear (R258 to R269): what WEAR_READ reports and WEAR_PARAM writes, the samples of a cell through its leg groups, and the
records of a journal round. -/

namespace Sys2Proof.Machine

open Sys2Proof

variable {s u : State} {k g : Nat} {w0 : Word} {l : List Word}

/-! Entries of an array that is made anew. -/

theorem vget_ofFn {α : Type} {n i : Nat} (f : Fin n → α) (d : α) (hi : i < n) :
    vget (Vector.ofFn f) i d = f ⟨i, hi⟩ := by
  simp [vget, hi]

theorem vget_map {α β : Type} {n i : Nat} (v : Vector α n) (f : α → β) (d : α) (e : β) (hi : i < n) :
    vget (v.map f) i e = f (vget v i d) := by
  simp [vget, hi]

theorem vget_lt {α : Type} {n i : Nat} (v : Vector α n) (d : α) (hi : i < n) : vget v i d = v[i] := by
  simp [vget, hi]

/-! The parameters of a group (R265). -/

/-- Parameter `i` of a group as its register holds it: of the last the sensor's number alone (Table 06-6). -/
def wearParOf (l : List Word) (i : Nat) : Word := if i = 14 then wd l 14 &&& 3#32 else wd l i

/-- The parameters of a group written. -/
def writeWearPars (k g : Nat) (l : List Word) (s : State) : State :=
  each (List.range 15) (fun i s => s.setReg (wearBase k g + 4 * i) (wearParOf l i)) s

/-- The parameters of a group hold what was brought, and no other part of the state is another. -/
structure WearParsWritten (k g : Nat) (l : List Word) (s t : State) : Prop where
  pars : ∀ i < 15, t.reg (wearBase k g + 4 * i) = wearParOf l i
  others : ∀ a, (∀ i < 15, a ≠ wearBase k g + 4 * i) → t.reg a = s.reg a
  only : t = { s with cfg := t.cfg }

theorem writeWearPars_written (k g : Nat) (l : List Word) (s : State) : WearParsWritten k g l s (writeWearPars k g l s) where
  pars i hi := by
    refine each_hits (P := fun u => u.reg (wearBase k g + 4 * i) = wearParOf l i) (Q := fun _ => True) (List.mem_range.mpr hi)
      (fun u _ => setReg_reg_same u _ _) (fun _ _ _ => trivial) (fun y u h => ?_) trivial
    rcases eq_or_ne y i with rfl | other
    · exact setReg_reg_same u _ _
    · exact (setReg_reg_ne _ _ _ _ (by omega)).trans h
  others a ha := each_keep_mem (State.reg · a) fun i hi u => setReg_reg_ne u _ _ _ (ha i (List.mem_range.mp hi)).symm
  only := by
    refine each_inv (Q := fun u => u = { s with cfg := u.cfg }) _ _ s (fun i u h => ?_) rfl
    exact congrArg (fun v => { v with cfg := (u.setReg (wearBase k g + 4 * i) (wearParOf l i)).cfg }) h

/-! WEAR_READ (R269, R511). -/

section Group

variable (hs : s.Runs) (hk : fld w0 0 6 < 63) (on : s.ctxOn (fld w0 0 6) = true)
include hs hk on

theorem execWearRead_judges (hg : fld w0 8 2 < 3) (part : fld w0 16 2 ≠ 3) : execWearRead [w0] s =
    .next (if s.journalling (fld w0 0 6) then refuse .state s else
      let x := vget (s.cell (fld w0 0 6)).wear (fld w0 8 2) {}
      let d := BitVec.ofNat 64 x.damage
      reply .ok ([lowW d, highW d, remaining x, BitVec.ofNat 32 (x.hist.filter fun e => e.2 == 65535).length, x.tj]
        ++ (if fld w0 16 2 = 0 then [] else histWords x (32 * (fld w0 16 2 - 1)))) s) := by
  refine congrArg Host.Outcome.next ((command_runs hs _ rfl).trans ?_)
  simp only [wd, List.getD_cons_zero, on, hk.ne, hg.ne, part, Bool.not_true, Bool.false_eq_true, and_false, or_self, if_false]

/-! WEAR_PARAM (R265, R266). -/

/-- Both opcodes of WEAR_PARAM write what parameters come and are in range, and then reset the cell or not. -/
theorem wearParam_runs (rst : Bool) (hg : fld w0 8 2 < 3) (len : l.length = if bit w0 17 then 15 else 0)
    (fit : bit w0 17 = true → ∀ i < 15, wearInRange i (wd l i) = true) : wearParam rst (w0 :: l) s =
      let t := if bit w0 17 then writeWearPars (fld w0 0 6) (fld w0 8 2) l s else s
      reply .ok [] (if rst then wearReset (fld w0 0 6) t else t) := by
  have lenOk : ((w0 :: l).length == if bit w0 17 then 16 else 1) = true := by
    rw [List.length_cons, len]
    split <;> rfl
  have inRange : (bit w0 17 && !(List.range 15).all fun i => wearInRange i (wd l i)) = false := by
    simpa using fit
  have first : wd (w0 :: l) 0 = w0 := rfl
  have shifted : ∀ i, wd (w0 :: l) (i + 1) = wd l i := fun _ => rfl
  unfold wearParam
  simp only [first, shifted]
  rw [command_runs hs _ lenOk]
  simp only [on, hk.ne, hg.ne, inRange, Bool.not_true, Bool.false_eq_true, and_false, or_self, if_false]
  rfl

theorem execWearParam_writes (hg : fld w0 8 2 < 3) (par : bit w0 17 = true) (len : l.length = 15)
    (fit : ∀ i < 15, wearInRange i (wd l i) = true) : ∃ t, execWearParam (w0 :: l) s = .next (reply .ok [] t) ∧
      WearParsWritten (fld w0 0 6) (fld w0 8 2) l s t := by
  refine ⟨_, congrArg Host.Outcome.next ?_, writeWearPars_written (fld w0 0 6) (fld w0 8 2) l s⟩
  refine (wearParam_runs hs hk on false hg (len.trans (if_pos par).symm) fun _ => fit).trans ?_
  rw [par]
  rfl

theorem execWearParamReset_resets (hg : fld w0 8 2 < 3) (par : bit w0 17 = false) :
    execWearParamReset [w0] s = .next (reply .ok [] (wearReset (fld w0 0 6) s)) := by
  have none := Bool.eq_false_iff.mp par
  refine congrArg Host.Outcome.next ((wearParam_runs hs hk on true hg (if_neg none).symm fun h => absurd h none).trans ?_)
  rw [par]
  rfl

end Group

theorem wearReset_own (hk : k < 63) (s : State) : ((wearReset k s).cell k).warn = false ∧ ∀ i < 3,
    (vget ((wearReset k s).cell k).wear i {}).damage = 0 ∧ (vget ((wearReset k s).cell k).wear i {}).hist = [] ∧
      (vget ((wearReset k s).cell k).wear i {}).par = (vget (s.cell k).wear i {}).par := by
  rw [wearReset, setCell_cell_same _ _ _ hk]
  refine ⟨rfl, fun i hi => ?_⟩
  rw [vget_map _ _ {} _ hi]
  exact ⟨rfl, rfl, rfl⟩

/-! A sample through one leg group reads the registers and the landing grid alone (R258 to R262). -/

section Sample

variable (reg : ∀ a, u.reg a = s.reg a)
include reg

theorem wearBin_congr (d m : F32) : wearBin d m u = wearBin d m s := by
  simp only [wearBin, reg]

theorem damageOf_congr (w : WearGroup) (d m : F32) (half : Bool) : damageOf w d m half u = damageOf w d m half s := by
  simp only [damageOf, reg]

theorem closeCycle_congr (x y : F32) (half : Bool) (w : WearGroup) : closeCycle x y half u w = closeCycle x y half s w := by
  unfold closeCycle
  dsimp only
  rw [wearBin_congr reg, damageOf_congr reg]

theorem reduceStack_congr (n : Nat) (w : WearGroup) : reduceStack n u w = reduceStack n s w := by
  induction n generalizing w with
  | zero => rfl
  | succ n ih =>
    unfold reduceStack
    split
    · next m z y x p r hm hst =>
      cases hm
      rw [ih, closeCycle_congr reg]
    · rfl

theorem pushPoint_congr (t : F32) (w : WearGroup) : pushPoint t u w = pushPoint t s w := by
  simp only [pushPoint, reduceStack_congr reg, closeCycle_congr reg]

theorem rainflow_congr (t : F32) (w : WearGroup) : rainflow t u w = rainflow t s w := by
  simp only [rainflow, pushPoint_congr reg, reg]

theorem groupSample_congr (grid : u.grid = s.grid) (g : Nat) (x : WearSample) (w : WearGroup) :
    groupSample g x u w = groupSample g x s w := by
  simp only [groupSample, rainflow_congr reg, grid]

end Sample

/-! The samples of a cell through its groups (R259). -/

/-- A sample of cell `k` through each of its groups. -/
def sampleGroups (k : Nat) (x : WearSample) (s : State) : State :=
  s.setCell k fun c => { c with wear := Vector.ofFn fun g => groupSample g.val x s c.wear[g] }

theorem execJunctionUpdate_on {k : Fin 63} (on : s.ctxOn k.val = true) : execJunctionUpdate k s =
    .next (wearLimit k.val
      ((each (s.cell k.val).samples (sampleGroups k.val) s).setCell k.val fun c => { c with samples := [] })) :=
  congrArg _ (if_neg (by rw [on]; exact Bool.false_ne_true))

theorem sampleGroups_own (hk : k < 63) (hg : g < 3) (x : WearSample) (s : State) :
    vget ((sampleGroups k x s).cell k).wear g {} = groupSample g x s (vget (s.cell k).wear g {}) := by
  rw [sampleGroups, setCell_cell_same _ _ _ hk, vget_ofFn _ _ hg, vget_lt _ _ hg]
  rfl

theorem each_sampleGroups_own (hk : k < 63) (hg : g < 3) (xs : List WearSample) (s : State) :
    vget ((each xs (sampleGroups k) s).cell k).wear g {} =
      xs.foldl (fun w x => groupSample g x s w) (vget (s.cell k).wear g {}) := by
  induction xs generalizing s with
  | nil => rfl
  | cons x r ih =>
    have same : ∀ y w, groupSample g y (sampleGroups k x s) w = groupSample g y s w :=
      groupSample_congr (u := sampleGroups k x s) (s := s) (fun _ => rfl) rfl g
    refine (ih (sampleGroups k x s)).trans ?_
    simp only [same, sampleGroups_own hk hg, List.foldl_cons]

theorem wearLimit_own (k : Nat) (s : State) : ((wearLimit k s).cell k).samples = (s.cell k).samples ∧
    ((wearLimit k s).cell k).wear = (s.cell k).wear := by
  unfold wearLimit
  split
  · simp only [State.cell, raise_frame, State.setCell]
    rcases vget_vmod_or s.cells k k (fun c => { c with warn := true }) {} with e | e <;> rw [e] <;> exact ⟨rfl, rfl⟩
  · exact ⟨rfl, rfl⟩

theorem wearLimit_others {j : Nat} (hj : j ≠ k) (s : State) : (wearLimit k s).cell j = s.cell j := by
  unfold wearLimit
  split
  · simp only [State.cell, raise_frame]
    exact setCell_cell_ne s _ _ _ hj.symm
  · rfl

theorem execJunctionUpdate_same {k : Fin 63} {t : State} (exec : execJunctionUpdate k s = .next t) :
    SameRegisters s t ∧ SameGallery s t ∧ t.tb = s.tb := by
  simp only [SameRegisters, SameGallery, execJunctionUpdate_frame _ _ _ exec, and_self, implies_true]

/-! The journal round (R267). -/

theorem nvmRank_le (t : Byte) : nvmRank t ≤ 2 := by
  unfold nvmRank
  split
  · decide
  · split <;> decide

theorem beginErase_jobs {v : Nvm} {j : NvmJob} (x : Nat) (hj : j ∈ v.jobs) : j ∈ (v.beginErase x).jobs := by
  unfold Nvm.beginErase
  dsimp only
  split
  · exact hj
  · rw [List.mem_append, List.mem_filter, List.mem_filter]
    refine (Bool.eq_false_or_eq_true _).imp (fun kept => ⟨List.mem_append_left _ hj, kept⟩) fun other => ?_
    exact ⟨List.mem_append_left _ hj, by rw [other]; rfl⟩

/-- Work that waits waits on as the writer starts. -/
theorem nvmStart_jobs {j : NvmJob} (hj : j ∈ s.nvm.jobs) : j ∈ (nvmStart s).nvm.jobs := by
  have picked : j ∈ (s.nvm.jobs.filter fun j => nvmRank j.record.type == 0) ++
      (s.nvm.jobs.filter fun j => nvmRank j.record.type == 1) ++ s.nvm.jobs.filter fun j => nvmRank j.record.type == 2 := by
    have rank := nvmRank_le j.record.type
    simp only [List.mem_append, List.mem_filter, hj, beq_iff_eq, true_and]
    omega
  unfold nvmStart
  dsimp only
  split
  · exact hj
  · split
    · exact beginErase_jobs _ picked
    · split
      · exact hj
      · exact picked

theorem nvmWrite_jobs {j : NvmJob} (type : Byte) (key : Nat) (data : NvmData) (a : NvmThen) (hj : j ∈ s.nvm.jobs) :
    j ∈ (nvmWrite type key data a s).nvm.jobs := nvmStart_jobs (List.mem_append_left _ hj)

theorem nvmWrite_only (type : Byte) (key : Nat) (data : NvmData) (a : NvmThen) (s : State) :
    nvmWrite type key data a s = { s with nvm := (nvmWrite type key data a s).nvm } := by
  unfold nvmWrite
  rw [nvmStart_eq]

/-- A summary `d` of cell `k` waits to be written. -/
def SummaryWaits (k : Nat) (d : NvmData) (s : State) : Prop :=
  ∃ j ∈ s.nvm.jobs, j.record.type = 0x10 ∧ j.record.key = k ∧ j.record.data = d

theorem SummaryWaits.nvmWrite {d : NvmData} (h : SummaryWaits k d s) (type : Byte) (key : Nat) (data : NvmData) (a : NvmThen) :
    SummaryWaits k d (nvmWrite type key data a s) := by
  obtain ⟨j, waits, which⟩ := h
  exact ⟨j, nvmWrite_jobs _ _ _ _ waits, which⟩

theorem journalSummary_waits (k : Nat) (a : NvmThen) (s : State) :
    SummaryWaits k (wearSummary (s.cell k)) (journalSummary k a s) :=
  ⟨_, nvmStart_jobs (List.mem_append_right _ List.mem_cons_self), rfl, rfl, rfl⟩

/-- The summaries of the cells `ks` queued. -/
def queueSummaries (ks : List Nat) (s : State) : State := each ks (fun k s => journalSummary k .none s) s

theorem queueSummaries_waits {ks : List Nat} (hk : k ∈ ks) (s : State) :
    SummaryWaits k (wearSummary (s.cell k)) (queueSummaries ks s) := by
  refine each_hits (P := SummaryWaits k (wearSummary (s.cell k))) (Q := fun u => u.cells = s.cells) hk (fun u h => ?_)
    (fun y u h => ?_) (fun y u h => h.nvmWrite _ _ _ _) rfl
  · have same : u.cell k = s.cell k := by simp only [State.cell, h]
    rw [← same]
    exact journalSummary_waits k .none u
  · simpa only [journalSummary_frame] using h

theorem queueSummaries_only (ks : List Nat) (s : State) :
    queueSummaries ks s = { s with nvm := (queueSummaries ks s).nvm } := by
  refine each_inv (Q := fun u => u = { s with nvm := u.nvm }) _ _ s (fun k u h => ?_) rfl
  exact (nvmWrite_only _ _ _ _ u).trans (congrArg (fun v => { v with nvm := (journalSummary k .none u).nvm }) h)

/-- The histograms of the cell whose turn it is queued. -/
def queueHist (s : State) : State :=
  match s.nextInstalled s.atr.journalNext with
  | some k => journalHist k .none { s with atr := { s.atr with journalNext := (k + 1) % 63 } }
  | none => s

theorem queueHist_waits {d : NvmData} (h : SummaryWaits k d s) : SummaryWaits k d (queueHist s) := by
  unfold queueHist
  split
  · next n _ => exact SummaryWaits.nvmWrite (s := { s with atr := { s.atr with journalNext := (n + 1) % 63 } }) h _ _ _ _
  · exact h

theorem queueHist_only (s : State) : queueHist s =
    { s with nvm := (queueHist s).nvm, atr := { s.atr with journalNext := (queueHist s).atr.journalNext } } := by
  unfold queueHist
  split
  · unfold journalHist
    rw [nvmWrite_only]
  · rfl

/-- The cells that a journal round records. -/
def State.journalled (s : State) : List Nat := (List.range 63).filter fun k => s.installed k && s.ctxOn k

theorem execWearJournalRound_on (on : s.isOn .nvm = true) :
    execWearJournalRound s = .next (queueHist (queueSummaries s.journalled s)) :=
  congrArg _ (if_neg (by rw [on]; exact Bool.false_ne_true))

end Sys2Proof.Machine

open Sys2Proof.Machine in
/-- Settles O43: each command by what it reads and writes of its cell, a cell's samples in turn through each group, and the round
as the records that it queues. -/
theorem wear : Obligations.Wear := by
  unfold Obligations.Wear
  refine ⟨fun s w0 hs hk on hg => ⟨fun idle part => ?read, fun busy part => ?busy, fun l par len fit => ?params,
    fun par => ?reset⟩, fun s => ⟨fun k on => ?samples, fun on => ?journal⟩⟩
  case read =>
    refine (execWearRead_judges hs hk on hg (by omega)).trans ?_
    rw [idle, part]
    rfl
  case busy =>
    refine (execWearRead_judges hs hk on hg part).trans ?_
    rw [busy]
    rfl
  case params =>
    obtain ⟨t, exec, pars, others, only⟩ := execWearParam_writes hs hk on hg par len fit
    exact ⟨_, exec, rfl, fun i hi => (pars i (by omega)).trans (if_neg hi.ne), pars 14 (by decide), others,
      congrArg (reply .ok []) only⟩
  case reset =>
    obtain ⟨warn, groups⟩ := wearReset_own hk s
    exact ⟨_, execWearParamReset_resets hs hk on hg par, rfl, groups, warn, fun j hj => setCell_cell_ne s _ _ _ hj.symm, rfl⟩
  case samples =>
    have exec := execJunctionUpdate_on on
    obtain ⟨samples, wear⟩ := wearLimit_own k.val
      ((each (s.cell k.val).samples (sampleGroups k.val) s).setCell k.val fun c => { c with samples := [] })
    rw [setCell_cell_same _ _ _ k.isLt] at samples wear
    refine ⟨_, exec, samples, fun g hg => ?_, fun j hj => ?_, execJunctionUpdate_same exec⟩
    · rw [wear]
      exact each_sampleGroups_own k.isLt hg _ s
    · rw [wearLimit_others hj, setCell_cell_ne _ _ _ _ hj.symm]
      exact each_keep_mem (State.cell · j) fun x _ u => setCell_cell_ne u _ _ _ hj.symm
  case journal =>
    refine ⟨_, execWearJournalRound_on on, fun k hk inst ctx => ?_, ?_⟩
    · have listed : k ∈ s.journalled := List.mem_filter.mpr ⟨List.mem_range.mpr hk, by rw [inst, ctx]; rfl⟩
      exact queueHist_waits (queueSummaries_waits listed s)
    · refine (queueHist_only _).trans ?_
      exact congrArg (fun u => { u with
        nvm := (queueHist (queueSummaries s.journalled s)).nvm
        atr := { u.atr with journalNext := (queueHist (queueSummaries s.journalled s)).atr.journalNext } })
        (queueSummaries_only s.journalled s)
end

section
/-! Cell images (R270, R275 to R277, R294, R513): what CT_CONFIG writes and reads of its cell's copy, and what CT_STATUS reports. -/

namespace Sys2Proof.Machine

open Sys2Proof

variable {s : State} {k : Nat} {q : Fin 64} {w0 : Word} {l : List Word}

/-! A copy of an image, written and sent. -/

/-- Bytes laid over an image that are none leave it as it is. -/
theorem overlay_nil (b : List Byte) (o : Nat) : overlay b o [] = b := by
  refine List.ext_getElem (by simp [overlay]) fun i _ h => ?_
  simp [overlay, h]

/-- Cell `k`'s copy with the `n` bytes at `o` that the words `l` bring. -/
def writeImage (k o n : Nat) (l : List Word) (s : State) : State :=
  s.setCell k fun c => { c with image := overlay c.image o (bytesAt (wordBytes l) 0 n) }

theorem startTransfer_image (k : Nat) (s : State) : ((startTransfer k s).cell k).image = (s.cell k).image := by
  have set : ∀ g : Cell → Cell, (∀ c, (g c).image = c.image) → ((s.setCell k g).cell k).image = (s.cell k).image :=
    fun g hg => by rcases vget_vmod_or s.cells k k g {} with e | e <;> simp only [State.cell, State.setCell, e, hg]
  unfold startTransfer
  extract_lets c img blocks
  split
  · rfl
  · split
    · exact set _ fun _ => rfl
    · split
      · rfl
      · exact set _ fun _ => rfl

theorem clearPerm_own (hk : k < 63) (s : State) : (clearPerm k s).cell k = { s.cell k with perm := false } := by
  simp only [clearPerm, State.cell, logRecord_frame]
  exact setCell_cell_same s _ _ hk

theorem clearPerm_others {j : Nat} (hj : j ≠ k) (s : State) : (clearPerm k s).cell j = s.cell j := by
  simp only [clearPerm, State.cell, logRecord_frame]
  exact setCell_cell_ne s _ _ _ hj.symm

/-! The forms of CT_CONFIG. -/

/-- Bytes of the image, some of them or a CLR_PERM, in one form alone (R513). -/
theorem ctConfig_inOrder (form : (bit w0 30 && bit w0 31) = false) (fit : fld w0 0 11 + fld w0 11 11 ≤ 1040)
    (bytes : fld w0 11 11 = 0 → bit w0 31 = true) :
    ¬(1040 < fld w0 0 11 + fld w0 11 11 ∨ (fld w0 11 11 = 0 ∧ !bit w0 31) ∨ (bit w0 30 && bit w0 31)) := by
  rintro (beyond | ⟨none, noClear⟩ | both)
  · exact absurd beyond (Nat.not_lt.mpr fit)
  · rw [bytes none] at noClear
    exact Bool.false_ne_true noClear
  · exact Bool.false_ne_true (form.symm.trans both)

section CellCommand

variable (hs : s.Runs) (inst : s.installed q.val = true) (hall : s.hallOn (q.val / 21) = true)
include hs inst hall

theorem execCtConfigRead_reads (rd : bit w0 30 = true) (clr : bit w0 31 = false) (some : 0 < fld w0 11 11)
    (fit : fld w0 0 11 + fld w0 11 11 ≤ 1040) : execCtConfigRead q [w0] s =
      .next (reply .ok (bytesWords (bytesAt (s.fullImage q.val) (fld w0 0 11) (fld w0 11 11))) s) := by
  have first : wd [w0] 0 = w0 := rfl
  unfold execCtConfigRead ctConfig
  simp only [first]
  have inOrder := ctConfig_inOrder (by rw [clr, Bool.and_false]) fit fun none => absurd none some.ne'
  exact congrArg Host.Outcome.next
    ((cellCommand_runs _ (by rw [rd]; rfl) hs inst hall).trans ((if_neg inOrder).trans (if_pos rd)))

/-- With its bytes in the image, a write or a CLR_PERM turns on the values that result and on what the cell does. -/
theorem ctConfig_judges (rd : bit w0 30 = false) (len : l.length = (fld w0 11 11 + 3) / 4)
    (fit : fld w0 0 11 + fld w0 11 11 ≤ 1040) (bytes : fld w0 11 11 = 0 → bit w0 31 = true) : ctConfig q (w0 :: l) s =
      let o := fld w0 0 11
      let n := fld w0 11 11
      let u := writeImage q.val o n l s
      if n ≠ 0 ∧ !writePasses s.qpre o n (u.fullImage q.val) then refuse .range s
      else if (n ≠ 0 ∧ writeReserved o n) ∨ (s.cell q.val).transfer.isSome ∨ (bit w0 31 ∧ (s.cell q.val).mode ≠ .out) then
        refuse .state s
      else
        let u := if bit w0 31 then clearPerm q.val u else u
        let u := if n = 0 then u else startTransfer q.val u
        refuse (if (u.cell q.val).transfer.isSome ∧ n ≠ 0 then .accepted else .ok) u := by
  have first : wd (w0 :: l) 0 = w0 := rfl
  have lenOk : (!(w0 :: l).isEmpty && (w0 :: l).length == 1 + if bit w0 30 then 0 else (fld w0 11 11 + 3) / 4) = true := by
    simp [rd, len, Nat.add_comm]
  have inOrder := ctConfig_inOrder (by rw [rd, Bool.false_and]) fit bytes
  unfold ctConfig
  simp only [first]
  exact (cellCommand_runs _ lenOk hs inst hall).trans ((if_neg inOrder).trans (if_neg (Bool.eq_false_iff.mp rd)))

theorem execCtConfig_writes (rd : bit w0 30 = false) (clr : bit w0 31 = false) (some : 0 < fld w0 11 11)
    (fit : fld w0 0 11 + fld w0 11 11 ≤ 1040) (len : l.length = (fld w0 11 11 + 3) / 4)
    (idle : (s.cell q.val).transfer = none)
    (pass : writePasses s.qpre (fld w0 0 11) (fld w0 11 11)
      ((writeImage q.val (fld w0 0 11) (fld w0 11 11) l s).fullImage q.val) = true)
    (free : writeReserved (fld w0 0 11) (fld w0 11 11) = false) : execCtConfig q (w0 :: l) s =
      let u := startTransfer q.val (writeImage q.val (fld w0 0 11) (fld w0 11 11) l s)
      .next (refuse (if (u.cell q.val).transfer.isSome then .accepted else .ok) u) := by
  refine congrArg Host.Outcome.next ((ctConfig_judges hs inst hall rd len fit fun none => absurd none some.ne').trans ?_)
  simp only [pass, free, idle, clr, some.ne', Bool.not_true, Bool.false_eq_true, Option.isSome_none, and_false, false_and,
    or_self, if_false, ne_eq, not_false_eq_true, and_true]

theorem execClrPerm_judges (rd : bit w0 30 = false) (clr : bit w0 31 = true) (none : fld w0 11 11 = 0)
    (fit : fld w0 0 11 ≤ 1040) : execClrPerm q [w0] s =
    .next (if (s.cell q.val).transfer.isSome ∨ (s.cell q.val).mode ≠ .out then refuse .state s
      else refuse .ok (clearPerm q.val (writeImage q.val (fld w0 0 11) 0 [] s))) := by
  refine congrArg Host.Outcome.next ((ctConfig_judges hs inst hall rd (by rw [none]; rfl) (by omega) fun _ => clr).trans ?_)
  simp only [none, clr, ne_eq, not_true_eq_false, false_and, and_false, true_and, false_or, if_false, if_true]

theorem execCtStatus_reports : execCtStatus q [] s =
    .next (reply .ok ([trdBal s q.val, trdGuard s q.val, safeCfg s q.val, stgMask s q.val, trdNotch s q.val, trdThm s q.val,
      BitVec.ofNat 32 (s.cell q.val).staleFor] ++ bytesWords (bytesAt (s.cell q.val).report 0 64)) s) :=
  congrArg Host.Outcome.next (cellCommand_runs _ rfl hs inst hall)

end CellCommand

end Sys2Proof.Machine

open Sys2Proof.Machine in
/-- Settles O41: each form of CT_CONFIG by what it writes or reads of its cell's copy, and CT_STATUS by its words. -/
theorem cellImages : Obligations.CellImages := by
  unfold Obligations.CellImages
  intro s q hs inst hall
  have hq := lt_of_installed inst
  refine ⟨fun w0 l rd clr some fit len idle pass free => ?write,
    fun w0 rd clr some fit => execCtConfigRead_reads hs inst hall rd clr some fit,
    fun w0 rd clr none fit => ⟨fun out idle => ?clear, fun no => ?refused⟩, execCtStatus_reports hs inst hall⟩
  case write =>
    have written : writeImage q.val (fld w0 0 11) (fld w0 11 11) l s = s.setCell q.val fun c => { c with
        image := overlay (s.cell q.val).image (fld w0 0 11) (bytesAt (wordBytes l) 0 (fld w0 11 11)) } := setCell_congr rfl
    rw [← written] at pass
    refine ⟨_, execCtConfig_writes hs inst hall rd clr some fit len idle pass free, ?_, rfl, fun k hk => ?_, ?_⟩
    · exact (startTransfer_image q.val _).trans (congrArg Cell.image (setCell_cell_same s _ _ hq))
    · exact (startTransfer_others hk _).trans (setCell_cell_ne s _ _ _ hk.symm)
    · exact congrArg (refuse _) (startTransfer_only q.val _)
  case clear =>
    have exec := execClrPerm_judges hs inst hall rd clr none fit
    rw [if_neg (by simp [out, idle])] at exec
    have own := clearPerm_own hq (writeImage q.val (fld w0 0 11) 0 [] s)
    rw [writeImage, setCell_cell_same s _ _ hq] at own
    refine ⟨_, exec, rfl, congrArg Cell.perm own, (congrArg Cell.image own).trans (overlay_nil _ _),
      (congrArg Cell.mode own).trans out, fun k hk => ?_, ?_⟩
    · exact (clearPerm_others hk _).trans (setCell_cell_ne s _ _ _ hk.symm)
    · simp only [SameRegisters, SameGallery, refuse_frame, clearPerm_frame]
      exact ⟨⟨rfl, rfl⟩, fun _ => rfl⟩
  case refused =>
    exact (execClrPerm_judges hs inst hall rd clr none fit).trans (congrArg Host.Outcome.next (if_pos no.symm))
end

section
/-! A cell's decision to BLOCK or BYPASS (R249, R290 to R293), and the timeouts that come to one: of a restore, a retry and a derate
(R255, R282, R291). -/

namespace Sys2Proof.Machine

open Sys2Proof

variable {s : State} {k p cls : Nat}

/-! What a decision tells, and what its reaction does. -/

/-- The cell with a decision noted at `t` beside those of the last 10 µs. -/
def Cell.noted (cls react t : Nat) (c : Cell) : Cell :=
  { c with
    lastClass := cls
    scCount := if cls = 1 then satInc 255 c.scCount else c.scCount
    decided := (react, t) :: c.decided.filter fun d => decide (t < d.2 + 10000) }

theorem outranked_congr {t : State} (react : Nat) (decided : (t.cell k).decided = (s.cell k).decided) (now : t.now = s.now) :
    t.outranked k react = s.outranked k react := by
  rw [State.outranked, State.outranked, decided, now]

/-- A decision before its reaction: its event, its record, its note at the cell and its word. -/
def tellCell (k cls react source : Nat) (s : State) : State :=
  let word := pack [(0, 4, cls), (4, 4, react)]
  let u := noteDecision k cls react (logRecord k 0x20 (BitVec.ofNat 16 k) word (decisionCause react source) (raise k word s))
  sendDecision (.cell (Fin.ofNat 63 k) (Fin.ofNat 8 react) (Fin.ofNat 8 cls) (u.cell k).perm (low40 u.lb)) u

/-- What is told of a decision outranks nothing: the decisions before it alone do (R293). -/
theorem decide'_eq (k cls react source : Nat) (s : State) : decide' k cls react source s =
    if s.outranked k react then tellCell k cls react source s else carryOut k cls react (tellCell k cls react source s) := by
  have same : ∀ e y w c, (logRecord k e y w c (raise k w s)).outranked k react = s.outranked k react := fun _ _ _ _ =>
    outranked_congr react (by simp only [State.cell, logRecord_frame, raise_frame])
      (by simp only [State.now, logRecord_frame, raise_frame])
  unfold decide'
  dsimp only
  rw [same]
  rfl

theorem tellCell_own (cls react source : Nat) (hk : k < 63) (s : State) :
    (tellCell k cls react source s).cell k = (s.cell k).noted cls react s.now := by
  simp only [tellCell, noteDecision, State.cell, State.now, sendDecision_frame, logRecord_frame, raise_frame, State.setCell,
    vget_vmod_same _ _ _ _ hk]
  rfl

theorem tellCell_others {j : Nat} (cls react source : Nat) (hj : j ≠ k) (s : State) :
    (tellCell k cls react source s).cell j = s.cell j := by
  simp only [tellCell, noteDecision, State.cell, sendDecision_frame, State.setCell, vget_vmod_ne _ _ _ _ _ hj.symm,
    logRecord_frame, raise_frame]

theorem tellCell_now (k cls react source : Nat) (s : State) : (tellCell k cls react source s).now = s.now := by
  simp only [tellCell, noteDecision, State.now, sendDecision_frame, State.setCell, logRecord_frame, raise_frame]

/-- BLOCK and BYPASS make a cell in use take their pattern (Table 07-6). -/
theorem carryOut_pattern (cls : Nat) (hp : p = 1 ∨ p = 2) (s : State) :
    carryOut k cls p s = if (s.cell k).inUse then leave k p s else s := by
  unfold carryOut
  rcases hp with rfl | rfl <;> cases (s.cell k).inUse <;> rfl

theorem decide'_pend (cls react source : Nat) (hk : k < 63) (hs : s.Runs) :
    ((decide' k cls react source s).evt k).pend = true := by
  have keeps := DecisionKeeps.pend k
  have told : ((tellCell k cls react source s).evt k).pend = true :=
    keeps.sendDecision _ (keeps.noteDecision _ _ _ (keeps.log _ _ _ _ _ _ (raise_pend_same _ hs (by omega))))
  rw [decide'_eq]
  split
  · exact told
  · exact keeps.carryOut k cls react told

/-- Pattern `p` was decided in class `cls` for cell `k`, which takes it, from now on or from when it waited before, unless it is out
of use or something stronger was decided for it. -/
structure PatternDecided (k cls p : Nat) (s t : State) : Prop where
  lastClass : (t.cell k).lastClass = cls
  derate : (t.cell k).derate = (s.cell k).derate
  takes : (s.cell k).inUse = true → s.outranked k p = false → (t.cell k).retry = false ∧
    (t.cell k).req = some (max (((s.cell k).req.map (·.1)).getD 0) p, ((s.cell k).req.map (·.2)).getD s.now)
  keeps : (s.cell k).inUse = false ∨ s.outranked k p = true → (t.cell k).req = (s.cell k).req
  pend : (t.evt k).pend = true
  others : ∀ j, j ≠ k → t.cell j = s.cell j
  same : SameRegisters s t ∧ SameGallery s t ∧ t.tb = s.tb

section Pattern

variable (cls source : Nat) (hp : p = 1 ∨ p = 2)
include hp

/-- The reaction is left to a cell in use of which nothing stronger was decided (R293, Table 07-8). -/
theorem decide'_own (hk : k < 63) (s : State) : (decide' k cls p source s).cell k =
    if (s.cell k).inUse = true ∧ s.outranked k p = false then ((s.cell k).noted cls p s.now).left p s.now
    else (s.cell k).noted cls p s.now := by
  have told := tellCell_own cls p source hk s
  have use : ((tellCell k cls p source s).cell k).inUse = (s.cell k).inUse := by
    rw [told]
    rfl
  rw [decide'_eq, carryOut_pattern cls hp, use]
  cases s.outranked k p
  · cases (s.cell k).inUse
    · exact told
    · exact (leave_own p hk _).trans (by rw [told, tellCell_now]; rfl)
  · cases (s.cell k).inUse <;> exact told

theorem decide'_others {j : Nat} (hk : k < 63) (hj : j ≠ k) (s : State) : (decide' k cls p source s).cell j = s.cell j := by
  have told := tellCell_others cls p source hj s
  rw [decide'_eq, carryOut_pattern cls hp]
  split
  · exact told
  · split
    · exact (leave_others (k := ⟨k, hk⟩) p hj).trans told
    · exact told

theorem decide'_decided (hk : k < 63) (hs : s.Runs) : PatternDecided k cls p s (decide' k cls p source s) where
  lastClass := by
    rw [decide'_own cls source hp hk]
    split <;> rfl
  derate := by
    rw [decide'_own cls source hp hk]
    split <;> rfl
  takes use first := by
    rw [decide'_own cls source hp hk, if_pos ⟨use, first⟩]
    exact ⟨left_retry hp s.now _, rfl⟩
  keeps no := by
    rw [decide'_own cls source hp hk, if_neg fun ⟨use, first⟩ => by simp [use, first] at no]
    rfl
  pend := decide'_pend cls p source hk hs
  others j hj := decide'_others cls source hp hk hj s
  same := by simp only [SameRegisters, SameGallery, decide'_frame, and_self, implies_true]

end Pattern

/-! The timeouts. -/

theorem advanceTo_time (n : Nat) (s : State) : ∃ x, advanceTo n s = { s with tb := x } := ⟨_, advanceTo_eq n s⟩

theorem advanceTo_patFault (n k : Nat) (s : State) : (advanceTo n s).patFault k = s.patFault k := by
  rw [advanceTo_eq]
  rfl

/-- A cell whose restore fails at `t`, as it waits for pattern `p` (R255). -/
def Cell.restoreFailed (p t : Nat) (c : Cell) : Cell := { c.endRestore with rfail := true, req := some (p, t - 200) }

theorem raise_cell (e : Nat) (w : Word) (s : State) (j : Nat) : (raise e w s).cell j = s.cell j := by
  simp only [State.cell, raise_frame]

theorem sendDecision_only (d : Decision) (s : State) : sendDecision d s = { s with out := (sendDecision d s).out } := by
  unfold sendDecision
  split <;> rfl

theorem restoreEnds_own (hk : k < 63) (s : State) :
    (restoreEnds k s).cell k = (s.cell k).restoreFailed (s.patFault k) s.now := setCell_cell_same s _ _ hk

theorem restoreFail_own (hk : k < 63) (s : State) :
    (restoreFail k s).cell k = (s.cell k).restoreFailed (s.patFault k) s.now := by
  rw [restoreFail, raise_cell, restoreEnds_own hk, sendDecision_only]
  rfl

theorem restoreFail_others {j : Nat} (hj : j ≠ k) (s : State) : (restoreFail k s).cell j = s.cell j := by
  rw [restoreFail, raise_cell, restoreEnds, setCell_cell_ne _ _ _ _ hj.symm, sendDecision_only]
  rfl

theorem restoreFail_event (hk : k < 63) (hs : s.Runs) :
    ((restoreFail k s).evt (64 + k)).pend = true ∧ ((restoreFail k s).evt (64 + k)).data = 2 := by
  have plain : ∀ k : Fin 63, evtOrs (64 + k.val) = false := by decide
  have runs : ∀ d, (restoreEnds k (sendDecision d s)).Runs := fun d =>
    (isOn_congr (by simp only [restoreEnds_frame, sendDecision_frame]) .atrium).trans hs
  exact ⟨raise_pend_same _ (runs _) (by omega), raise_data_same _ (runs _) (by omega) (plain ⟨k, hk⟩)⟩

/-- A derate of cell `k` is over (R291). -/
def endDerate (k : Nat) (s : State) : State := s.setCell k fun c => { c with derate := false }

theorem endDerate_own (hk : k < 63) (s : State) : (endDerate k s).cell k = { s.cell k with derate := false } :=
  setCell_cell_same s _ _ hk

theorem endDerate_outranked (react : Nat) (hk : k < 63) (s : State) :
    (endDerate k s).outranked k react = s.outranked k react :=
  outranked_congr react (by rw [endDerate_own hk]) rfl

section Timeouts

variable {k : Fin 63} (hall : s.hallOn (k.val / 21) = true)
include hall

theorem execRestoreTimeout_fails (mode : (s.cell k.val).mode = .restoring) (limit : (s.cell k.val).noLimit = false) :
    execRestoreTimeout k s = .next (restoreFail k.val
      (advanceTo ((s.cell k.val).restoreAt + fld (s.hreg (k.val / 21) 0x58) 0 16 * 1000000) s)) :=
  congrArg Host.Outcome.next (if_pos (by rw [hall, mode, limit]; rfl))

theorem execRetryTimeout_decides (retry : (s.cell k.val).retry = true) (out : (s.cell k.val).mode = .out)
    (alone : s.standby = false) : execRetryTimeout k s =
      .next (decide' k.val 2 (s.patFault k.val) 3 (advanceTo ((s.cell k.val).retryAt + 100000000) s)) := by
  rw [← advanceTo_patFault ((s.cell k.val).retryAt + 100000000)]
  exact congrArg Host.Outcome.next (if_pos (by rw [hall, retry, out, alone]; rfl))

theorem execDerateTimeout_decides (derate : (s.cell k.val).derate = true) (alone : s.standby = false) :
    execDerateTimeout k s = .next (decide' k.val 4 2 3 (endDerate k.val
      (advanceTo ((s.cell k.val).derateAt + fld (s.reg (hallBase (k.val / 21) + 0x5C)) 0 16 * 1000000000) s))) :=
  congrArg Host.Outcome.next (if_pos (by rw [hall, derate, alone]; rfl))

end Timeouts

end Sys2Proof.Machine

open Sys2Proof.Machine in
/-- Settles O42: a restore's failure, and the decisions that a retry and a derate come to at the instant of their timeout. -/
theorem cellTimeouts : Obligations.CellTimeouts := by
  unfold Obligations.CellTimeouts
  intro s k hs hall
  refine ⟨fun mode limit => ?restore, fun retry out alone hp => ?retry, fun derate alone => ?derate⟩
  case restore =>
    have exec := execRestoreTimeout_fails hall mode limit
    obtain ⟨x, instant⟩ := advanceTo_time ((s.cell k.val).restoreAt + fld (s.hreg (k.val / 21) 0x58) 0 16 * 1000000) s
    rw [instant] at exec
    have own : (restoreFail k.val { s with tb := x }).cell k.val = (s.cell k.val).restoreFailed (s.patFault k.val) x.ns.toNat :=
      restoreFail_own k.isLt _
    obtain ⟨pend, data⟩ := restoreFail_event (s := { s with tb := x }) k.isLt hs
    refine ⟨_, exec, (congrArg Cell.mode own).trans ?_, congrArg Cell.rfail own, congrArg Cell.restorePhase own,
      congrArg (·.req.map (·.1)) own, pend, data, fun j hj => restoreFail_others hj _, ?_⟩
    · rw [Cell.restoreFailed, Cell.endRestore, mode]
      rfl
    · simp only [SameRegisters, SameGallery, restoreFail_frame, and_self, implies_true]
  case retry =>
    have exec := execRetryTimeout_decides hall retry out alone
    obtain ⟨x, instant⟩ := advanceTo_time ((s.cell k.val).retryAt + 100000000) s
    rw [instant] at exec ⊢
    have use : (s.cell k.val).inUse = true := by rw [Cell.inUse, retry, Bool.or_true]
    obtain ⟨lastClass, -, takes, keeps, pend, others, same⟩ := decide'_decided (s := { s with tb := x }) 2 3 hp k.isLt hs
    exact ⟨_, exec, lastClass, pend, takes use, fun stronger => keeps (.inr stronger), others, same⟩
  case derate =>
    have exec := execDerateTimeout_decides hall derate alone
    obtain ⟨x, instant⟩ := advanceTo_time
      ((s.cell k.val).derateAt + fld (s.reg (hallBase (k.val / 21) + 0x5C)) 0 16 * 1000000000) s
    rw [instant] at exec ⊢
    obtain ⟨lastClass, ends, takes, keeps, pend, others, same⟩ :=
      decide'_decided (s := endDerate k.val { s with tb := x }) 4 3 (.inr rfl) k.isLt hs
    rw [endDerate_own k.isLt] at ends takes keeps
    rw [endDerate_outranked 2 k.isLt] at takes keeps
    exact ⟨_, exec, ends, lastClass, pend, fun use first => (takes use first).2, keeps,
      fun j hj => (others j hj).trans (setCell_cell_ne _ _ _ _ hj.symm), same⟩
end

section
/-! The test DAC (R327 to R330): what TEST_DAC does by whether a check runs, and how a check ends. -/

namespace Sys2Proof.Machine

open Sys2Proof

variable {s : State} {v : Word}

/-! Commands of ANALOG, and what a mask keeps. -/

theorem analogCommand_runs (hs : s.Runs) (ha : s.isOn .analog = true) (body : State → State) :
    analogCommand true body s = body s :=
  (command_run _ s hs).trans (if_pos ha)

/-- A field that a mask keeps whole. -/
theorem fld_and_mask {m : Word} {lo n : Nat} (whole : m.extractLsb' lo n = BitVec.allOnes n) (w : Word) :
    fld (w &&& m) lo n = fld w lo n := by
  have extract : ∀ x : Word, fld x lo n = (x.extractLsb' lo n).toNat := fun x => by
    rw [BitVec.extractLsb'_toNat, Nat.shiftRight_eq_div_pow]
    rfl
  rw [extract, extract, BitVec.extractLsb'_and, whole, BitVec.and_allOnes]

theorem bit_and_mask {m : Word} {i : Nat} (kept : bit m i = true) (w : Word) : bit (w &&& m) i = bit w i := by
  unfold bit at *
  rw [BitVec.getLsbD_and, kept, Bool.and_true]

/-! TEST_DAC (R327, R330). -/

theorem testDac_sets (hs : s.Runs) (ha : s.isOn .analog = true) (idle : s.meas.tdacRun = false)
    (slice : fld v 30 2 = 1 → fld v 20 4 ≤ 7) : testDac [v] s = reply .ok [] (tdacStart v s) := by
  have taken : ¬ (fld v 30 2 = 1 ∧ 7 < fld v 20 4) := fun ⟨gain, beyond⟩ => absurd (slice gain) (Nat.not_le.mpr beyond)
  have free : ¬ s.meas.tdacRun = true := by rw [idle]; exact Bool.false_ne_true
  exact (analogCommand_runs hs ha _).trans ((if_neg taken).trans (if_neg free))

theorem testDac_busy (hs : s.Runs) (ha : s.isOn .analog = true) (runs : s.meas.tdacRun = true)
    (mode : fld v 30 2 ≠ 1) : testDac [v] s = refuse .state s :=
  (analogCommand_runs hs ha _).trans ((if_neg fun gain => mode gain.1).trans (if_pos runs))

/-- MODE 3 drives the output with the code that the register keeps. -/
theorem tdacStart_drives (ha : s.isOn .analog = true) (mode : fld v 30 2 = 3) :
    (tdacStart v s).tdacOut = some (tdacCode (tdacStart v s)) := by
  have kept : fld (v &&& 0xC1F00FFF#32) 30 2 = 3 := (fld_and_mask (by decide) v).trans mode
  have on : (tdacStart v s).isOn .analog = true := (isOn_congr (by simp) _).trans ha
  exact if_pos (by rw [on]; exact beq_iff_eq.mpr kept)

/-! The end of a check (R327, R328). -/

theorem tdacEnd_passes (open_ stall : Bool) (diff : BitVec 16) (s : State) : tdacEnd false open_ stall diff s =
    { s with meas := { s.meas with
      tdacRun := false, tdacPast := some (s.meas.tdac, s.meas.tdacFrom, s.now), tdacDone := true, tdacFail := false
      tdacOpen := open_, tdacStall := stall, tdacDiff := diff } } := rfl

theorem tdacEnd_meas (fail open_ stall : Bool) (diff : BitVec 16) (s : State) : (tdacEnd fail open_ stall diff s).meas =
    { s.meas with
      tdacRun := false, tdacPast := some (s.meas.tdac, s.meas.tdacFrom, s.now), tdacDone := true, tdacFail := fail
      tdacOpen := open_, tdacStall := stall, tdacDiff := diff } := by
  cases fail <;> simp [tdacEnd]

/-- TESTDAC_MISMATCH. -/
theorem tdacEnd_fails (hs : s.Runs) (open_ stall : Bool) (diff : BitVec 16) :
    ((tdacEnd true open_ stall diff s).evt 184).pend = true :=
  raise_pend_same _ hs (by decide)

theorem execTestDacCheckDone_gain {diff : Int} (ha : s.isOn .analog = true) (runs : s.meas.tdacRun = true)
    (mode : fld s.meas.tdac 30 2 = 1) (near : 100 * (diff - 32 * tdacCode s).natAbs ≤ 32 * (tdacCode s).natAbs)
    (low : -32768 ≤ diff) (high : diff ≤ 32767) :
    execTestDacCheckDone diff s = .next (tdacEnd false false false (BitVec.ofInt 16 diff) s) := by
  simp [execTestDacCheckDone, ha, runs, mode, low, high, Nat.not_lt.mpr near]

/-- An open input, with the difference or, where 16 bits do not hold it, with an open one (log 3). -/
theorem execTestDacCheckDone_open {diff : Int} (ha : s.isOn .analog = true) (runs : s.meas.tdacRun = true)
    (mode : fld s.meas.tdac 30 2 = 2) (far : 8 * (tdacCode s).natAbs < diff.natAbs) :
    ∃ d, ∃ u ∈ [s, (freeWord s).2], execTestDacCheckDone diff s = .next (tdacEnd true true false d u) := by
  by_cases fits : (decide (-32768 ≤ diff) && decide (diff ≤ 32767)) = true
  · exact ⟨BitVec.ofInt 16 diff, s, by simp, by simp [execTestDacCheckDone, ha, runs, mode, far, fits]⟩
  · exact ⟨(freeWord s).1.setWidth 16, (freeWord s).2, by simp, by simp [execTestDacCheckDone, ha, runs, mode, far, fits]⟩

theorem execTestDacStall_stalls (ha : s.isOn .analog = true) (runs : s.meas.tdacRun = true) :
    execTestDacStall s = .next (tdacEnd true false true s.meas.tdacDiff s) :=
  congrArg _ (if_pos (by rw [ha, runs]; rfl))

end Sys2Proof.Machine

open Sys2Proof.Machine in
/-- Settles O47, mode by mode: a setting is one `tdacStart`, and each end of a check one `tdacEnd`. -/
theorem testDac : Obligations.TestDac := by
  unfold Obligations.TestDac
  intro s hs ha
  refine ⟨fun v idle => ⟨fun off => ?off, fun gain slice => ?gain, fun opens => ?opens, fun out => ?out⟩,
    fun runs => ⟨fun v other => ?busy, fun diff gain near low high => ?passes, fun diff opens far => ?isOpen, ?stall⟩⟩
  case off => exact congrArg _ (testDac_sets hs ha idle (by omega))
  case gain => exact congrArg _ (testDac_sets hs ha idle fun _ => slice)
  case opens => exact congrArg _ (testDac_sets hs ha idle (by omega))
  case out => exact ⟨congrArg _ (testDac_sets hs ha idle (by omega)), tdacStart_drives ha out⟩
  case busy => exact congrArg _ (testDac_busy hs ha runs other)
  case passes =>
    exact (execTestDacCheckDone_gain ha runs gain near low high).trans (congrArg _ (tdacEnd_passes _ _ _ s))
  case isOpen =>
    obtain ⟨d, u, from_, exec⟩ := execTestDacCheckDone_open ha runs opens far
    have same : u.Runs ∧ SameRegisters s u ∧ SameGallery s u := by
      rcases List.mem_pair.mp from_ with rfl | rfl <;> exact ⟨hs, ⟨rfl, rfl⟩, fun _ => rfl⟩
    obtain ⟨hu, regs, gallery⟩ := same
    refine ⟨_, exec, ?_⟩
    simp only [tdacEnd_meas, tdacEnd_fails hu, SameRegisters, SameGallery, tdacEnd_frame, true_and]
    exact ⟨regs, gallery⟩
  case stall =>
    refine ⟨_, execTestDacStall_stalls ha runs, ?_⟩
    simp only [tdacEnd_meas, tdacEnd_fails hs, SameRegisters, SameGallery, tdacEnd_frame, and_self, implies_true]
end

section
/-! Background calibration (R318 to R323): CAL_PRIV, and the steps of a round as they complete or last too long. -/

namespace Sys2Proof.Machine

open Sys2Proof

variable {s : State} {r : CalRound}

/-! CAL_PRIV (R318). -/

theorem execCalPriv_sets {v : Word} (hs : s.Runs) (ha : s.isOn .analog = true) (ok : privCheck v s = .ok) :
    execCalPriv [v] s = .next (reply .ok [] (setMeas (fun m => { m with priv := v &&& privMask }) s)) := by
  refine congrArg _ ((analogCommand_runs hs ha _).trans ?_)
  simp only [wd, List.getD_cons_zero, ok]

theorem execCalPriv_refused {v : Word} (hs : s.Runs) (ha : s.isOn .analog = true) (no : privCheck v s ≠ .ok) :
    execCalPriv [v] s = .next (refuse (privCheck v s) s) := by
  refine congrArg _ ((analogCommand_runs hs ha _).trans ?_)
  simp only [wd, List.getD_cons_zero]

/-! Rounds (R319, R323). -/

theorem execCalRoundStart_starts (may : s.mayRotate = true) (none : s.meas.round = none) : execCalRoundStart s =
    .next (setMeas (fun m => { m with round := some { roles := setBits 8 s.meas.priv.toNat, step := .selfCal } }) s) := by
  simp [execCalRoundStart, newRound, may, none]

theorem execCalRoundStart_late (may : s.mayRotate = true) (round : s.meas.round = some r) : execCalRoundStart s =
    .next (setMeas (fun m => { m with round := some { r with late := true }, rotLate := satInc 255 m.rotLate }) s) := by
  simp [execCalRoundStart, may, round]

theorem setRound_eq (f : CalRound → CalRound) (round : s.meas.round = some r) :
    setRound f s = { s with meas := { s.meas with round := some (f r) } } := by
  simp [setRound, setMeas, round]

/-- Corrections within the limits are the unit's, and nothing else changes (R320). -/
theorem takeUnitCal_within {gain offset : Rat} (u : Nat) (within : unitOut gain offset = false) (s : State) :
    takeUnitCal u gain offset s = { s with meas := { s.meas with
      unitGain := vset s.meas.unitGain u gain, unitOfs := vset s.meas.unitOfs u offset } } := by
  unfold takeUnitCal
  rw [within]
  rfl

theorem execSelfCalDone_within {gain offset : Rat} (ha : s.isOn .analog = true) (round : s.meas.round = some r)
    (step : r.step = .selfCal) (within : unitOut gain offset = false) (roles : r.roles ≠ []) :
    execSelfCalDone gain offset s = .next { s with meas := { s.meas with
      unitGain := vset s.meas.unitGain (vget s.meas.role 8 8) gain
      unitOfs := vset s.meas.unitOfs (vget s.meas.role 8 8) offset, round := some { r with step := .overlap } } } := by
  simp [execSelfCalDone, round, ha, step, within, roles, takeUnitCal_within, setRound, setMeas]

theorem execOverlapDone_within {mean : Rat} (ha : s.isOn .analog = true) (round : s.meas.round = some r)
    (step : r.step = .overlap) (within : -(fld s.meas.priv 8 8 : Rat) ≤ mean ∧ mean ≤ (fld s.meas.priv 8 8 : Rat)) :
    execOverlapDone mean s = .next (setRound (fun r => { r with step := .takeover, suspect := false }) s) := by
  simp [execOverlapDone, round, ha, step, within]

theorem execOverlapTimeout_leaves (ha : s.isOn .analog = true) (round : s.meas.round = some r) (step : r.step = .overlap) :
    execOverlapTimeout s = .next (setRound (fun r => { r with roles := r.roles.tail, step := .selfCal, again := false })
      (setMeas (fun m => { m with rotLate := satInc 255 m.rotLate }) s)) := by
  simp [execOverlapTimeout, round, ha, step]

theorem vget_vset_default {α : Type} {n : Nat} (v : Vector α n) (i : Nat) (x : α) : vget (vset v i x) i x = x := by
  by_cases h : i < n
  · exact vget_vset_same v i x x h
  · simp [vget, Nat.not_lt.mp h]

end Sys2Proof.Machine

open Sys2Proof.Machine in
/-- Settles O45: CAL_PRIV by its check, and each step of a round by what its end makes of the round. -/
theorem backgroundCalibration : Obligations.BackgroundCalibration := by
  unfold Obligations.BackgroundCalibration
  intro s ha
  refine ⟨fun v hs => ⟨execCalPriv_sets hs ha, execCalPriv_refused hs ha⟩,
    fun may => ⟨execCalRoundStart_starts may, fun r => execCalRoundStart_late may⟩, fun r round =>
      ⟨fun gain offset step gainLow gainHigh offsetLow offsetHigh roles => ?selfCal, fun mean step low high => ?overlap,
        fun step => ?timeout⟩⟩
  case selfCal =>
    have within : unitOut gain offset = false := by
      simp only [unitOut, decide_eq_false_iff_not, not_or, not_lt]
      exact ⟨gainLow, gainHigh, offsetLow, offsetHigh⟩
    exact ⟨_, execSelfCalDone_within ha round step within roles, rfl, vget_vset_default _ _ _, rfl, rfl⟩
  case overlap =>
    exact (execOverlapDone_within ha round step ⟨low, high⟩).trans (congrArg _ (setRound_eq _ round))
  case timeout =>
    exact (execOverlapTimeout_leaves ha round step).trans (congrArg _ (setRound_eq (s := setMeas _ s) _ round))
end

section
/-! System calibration (R324 to R326): CAL_ZERO and CAL_FULL by what their check finds, and how an average ends. -/

namespace Sys2Proof.Machine

open Sys2Proof

variable {s : State} {c : CalRun} {w0 x : Word} {full : Bool}

/-- The average of CAL_ZERO is no longer kept once another CAL_ZERO has begun. -/
theorem calStart_accepted {u : State} {z : Option (BitVec 16 × Rat × F32)} (hs : s.Runs) (settled : settleLatches s = u)
    (ok : calCheck full w0 u = .ok) (zero : (if full then u.meas.calZero else none) = z) :
    calStart full [w0, x] s = { u with
      reply := some { status := .accepted }
      meas := { u.meas with
        calBusy := true, calChan := calChan w0, cal := some { full := full, chan := calChan w0, x := x }
        calZero := z } } := by
  rw [calStart, command_runs hs _ (show ([w0, x].length == 2) = true from rfl), settled]
  simp only [wd, List.getD_cons_zero, ok, ← zero]
  rfl

theorem calStart_refused {u : State} (hs : s.Runs) (settled : settleLatches s = u) (no : calCheck full w0 u ≠ .ok) :
    calStart full [w0, x] s = refuse (calCheck full w0 u) u := by
  rw [calStart, command_runs hs _ (show ([w0, x].length == 2) = true from rfl), settled]
  simp only [wd, List.getD_cons_zero]

theorem calEnd_meas (st : Status) (s : State) :
    (calEnd st s).meas = { s.meas with calBusy := false, calResult := st, cal := none } := by
  simp [calEnd]

/-- CAL_DONE. -/
theorem calEnd_done (hs : s.Runs) (st : Status) : ((calEnd st s).evt 183).pend = true :=
  raise_pend_same _ hs (by decide)

theorem execCalAverageDone_zero (hs : s.Runs) (cal : s.meas.cal = some c) (zero : c.full = false) (clean : c.clip = false)
    (busy : s.meas.calBusy = true) (enough : (if (chanCell c.chan).isSome then 64 else 256) ≤ c.n)
    (free : ∀ j ∈ s.nvm.jobs, j.after ≠ .calDone) : execCalAverageDone s =
      .next (calEnd .ok (setMeas (fun m => { m with calZero := some (c.chan, c.sum / (c.n : Rat), c.x) }) s)) := by
  have on : s.isOn .atrium = true := hs
  have waits : ¬ (s.nvm.jobs.any fun j => j.after == .calDone) = true := by simpa using free
  simp only [execCalAverageDone, cal, zero, clean, busy, on, waits, Nat.not_lt.mpr enough, Bool.not_true, Bool.not_false,
    Bool.false_eq_true, or_self, if_true, if_false]

theorem execCalTimeout_ends (hs : s.Runs) (cal : s.meas.cal = some c)
    (few : c.n < (if (chanCell c.chan).isSome then 64 else 256)) : execCalTimeout s = .next (calEnd .state s) := by
  have on : s.isOn .atrium = true := hs
  simp only [execCalTimeout, cal, on, few, and_self, if_true]

end Sys2Proof.Machine

open Sys2Proof.Machine in
/-- Settles O46: both starts are one `calStart`, and both ends one `calEnd`. -/
theorem systemCalibration : Obligations.SystemCalibration := by
  unfold Obligations.SystemCalibration
  intro s hs
  refine ⟨fun w0 x => ?starts, fun c cal => ⟨fun zero clean busy enough free => ?average, fun few => ?timeout⟩⟩
  case starts =>
    generalize settled : settleLatches s = u
    exact ⟨fun ok => congrArg Host.Outcome.next (calStart_accepted hs settled ok (if_neg nofun)),
      fun ok => congrArg Host.Outcome.next (calStart_accepted hs settled ok (if_pos rfl)),
      fun no => congrArg Host.Outcome.next (calStart_refused hs settled no),
      fun no => congrArg Host.Outcome.next (calStart_refused hs settled no)⟩
  case average =>
    refine ⟨_, execCalAverageDone_zero hs cal zero clean busy enough free, ?_⟩
    have done := calEnd_done (s := setMeas (fun m => { m with calZero := some (c.chan, c.sum / (c.n : Rat), c.x) }) s) hs .ok
    simp only [calEnd_meas, done, SameRegisters, SameGallery, calEnd_frame, setMeas_frame, setMeas_meas, and_self, implies_true]
  case timeout =>
    refine ⟨_, execCalTimeout_ends hs cal few, ?_⟩
    simp only [calEnd_meas, calEnd_done hs, SameRegisters, SameGallery, calEnd_frame, and_self, implies_true]
end

section
/-! Runs of the ADC's sequences (R302 to R307): what a completion and a drop write, and the filter latches of a sequence. -/

namespace Sys2Proof.Machine

open Sys2Proof

variable {s t u : State} {n m e i : Nat} {c : Conv}

/-! One sequence, and one result word. -/

theorem setAdc_adc_same (hn : n < 16) (f : AdcSeq → AdcSeq) (s : State) : (setAdc n f s).adc n = f (s.adc n) :=
  vget_vmod_same _ _ _ _ hn

theorem setAdc_adc_ne (h : m ≠ n) (f : AdcSeq → AdcSeq) (s : State) : (setAdc n f s).adc m = s.adc m :=
  vget_vmod_ne _ _ _ _ _ h.symm

/-- Result word `e` of sequence `n`. -/
def State.resWord (s : State) (n e : Nat) : ResWord := vget (s.adc n).res e {}

theorem setRes_adc (hn : n < 16) (e : Nat) (g : ResWord → ResWord) (s : State) :
    (setRes n e g s).adc n = { s.adc n with res := vmod (s.adc n).res e g } :=
  setAdc_adc_same hn _ s

theorem setRes_resWord_same (hn : n < 16) (he : e < 16) (g : ResWord → ResWord) (s : State) :
    (setRes n e g s).resWord n e = g (s.resWord n e) := by
  rw [State.resWord, setRes_adc hn]
  exact vget_vmod_same _ _ _ _ he

theorem setRes_resWord_ne (hn : n < 16) (h : i ≠ e) (g : ResWord → ResWord) (s : State) :
    (setRes n e g s).resWord n i = s.resWord n i := by
  rw [State.resWord, setRes_adc hn]
  exact vget_vmod_ne _ _ _ _ _ h.symm

theorem setRes_congr {g g' : ResWord → ResWord} (h : g (s.resWord n e) = g' (s.resWord n e)) :
    setRes n e g s = setRes n e g' s := by
  have entry : vmod (s.adc n).res e g = vmod (s.adc n).res e g' := vmod_congr {} h
  have seqs := vmod_congr (v := s.meas.seq) (i := n) (g := fun q => { q with res := vmod q.res e g })
    (g' := fun q => { q with res := vmod q.res e g' }) {} (congrArg (fun r => { s.adc n with res := r }) entry)
  exact congrArg (fun x => setMeas (fun k => { k with seq := x }) s) seqs

/-! What work on runs leaves alone. -/

/-- The sequences, the filters, AON and the GPIO levels. -/
def adcParts (s : State) : Vector AdcSeq 16 × Vector Dsd 8 × Aon × BitVec 16 :=
  (s.meas.seq, s.meas.dsd, s.aon, s.atr.gpioIn)

theorem adc_of_adcParts (h : adcParts t = adcParts s) (m : Nat) : t.adc m = s.adc m :=
  congrArg (fun x : Vector AdcSeq 16 => vget x m {}) (congrArg Prod.fst h)

/-- Event 185 is none that AON holds. -/
theorem raise_adcParts (w : Word) (s : State) : adcParts (raise 185 w s) = adcParts s := by
  have aon : (raise 185 w s).aon = s.aon := by
    rw [raise_aon]
    exact if_neg (by simp [evtHeld])
  have gpio : (raise 185 w s).atr.gpioIn = s.atr.gpioIn := by rw [raise_atr_frame]
  simp only [adcParts, aon, gpio, raise_frame]

theorem calFeed_adcParts (src a : Nat) (v : Int) (clip : Bool) (s : State) : adcParts (calFeed src a v clip s) = adcParts s := by
  refine each_keep adcParts _ _ _ fun m u => ?_
  dsimp only
  split
  · unfold calTake
    split
    · split <;> rfl
    · rfl
  · rfl

theorem dropEntry_adcParts (n : Nat) (s : State) : adcParts (dropEntry n s) = adcParts s := raise_adcParts _ _

/-- Work on sequence `n`: the other sequences, the filters, AON and the GPIO levels stay. -/
structure SeqWork (n : Nat) (s t : State) : Prop where
  others : ∀ m, m ≠ n → t.adc m = s.adc m
  rest : (adcParts t).2 = (adcParts s).2

/-- Work on the result words of sequence `n`. -/
structure ResultWork (n : Nat) (s t : State) : Prop extends SeqWork n s t where
  own : t.adc n = { s.adc n with res := (t.adc n).res }

namespace SeqWork

theorem refl (n : Nat) (s : State) : SeqWork n s s := ⟨fun _ _ => rfl, rfl⟩

theorem trans (h : SeqWork n s t) (h' : SeqWork n t u) : SeqWork n s u :=
  ⟨fun m hm => (h'.others m hm).trans (h.others m hm), h'.rest.trans h.rest⟩

theorem dsd (h : SeqWork n s t) : t.meas.dsd = s.meas.dsd := congrArg (·.1) h.rest

theorem aon (h : SeqWork n s t) : t.aon = s.aon := congrArg (·.2.1) h.rest

theorem gpioIn (h : SeqWork n s t) : t.atr.gpioIn = s.atr.gpioIn := congrArg (·.2.2) h.rest

theorem setAdc (n : Nat) (f : AdcSeq → AdcSeq) (s : State) : SeqWork n s (setAdc n f s) :=
  ⟨fun _ hm => setAdc_adc_ne hm f s, rfl⟩

end SeqWork

namespace ResultWork

theorem refl (n : Nat) (s : State) : ResultWork n s s := ⟨.refl n s, rfl⟩

theorem trans (h : ResultWork n s t) (h' : ResultWork n t u) : ResultWork n s u :=
  ⟨h.toSeqWork.trans h'.toSeqWork, h'.own.trans (by rw [h.own])⟩

theorem setRes (n e : Nat) (g : ResWord → ResWord) (s : State) : ResultWork n s (setRes n e g s) where
  toSeqWork := .setAdc n _ s
  own := by
    by_cases hn : n < 16
    · rw [setRes_adc hn]
    · have same : (Machine.setRes n e g s).adc n = s.adc n := by
        rw [State.adc, Machine.setRes, Machine.setAdc, setMeas_meas, vmod_out _ _ _ (Nat.not_lt.mp hn)]
        rfl
      rw [same]

/-- What leaves the sequences as they are keeps to the work before it. -/
theorem andThen (h : ResultWork n s t) (same : adcParts u = adcParts t) : ResultWork n s u :=
  ⟨⟨fun m hm => (adc_of_adcParts same m).trans (h.others m hm), (congrArg (·.2) same).trans h.rest⟩,
    by rw [adc_of_adcParts same]; exact h.own⟩

theorem each {α : Type} {l : List α} {f : α → State → State} (h : ∀ x v, ResultWork n v (f x v)) (s : State) :
    ResultWork n s (each l f s) :=
  each_inv (Q := ResultWork n s) l f s (fun x v done => done.trans (h x v)) (refl n s)

end ResultWork

/-! Completions (R307, R310). -/

/-- A result word once conversion `c` has completed into it. -/
def ResWord.completed (c : Conv) (v : BitVec 16) (clip settle test : Bool) (r : ResWord) : ResWord :=
  { r with
    value := v, seq := (r.seq + 1) % 256, clip := clip, settle := settle, test := test, late := c.late
    any := true, read := false, wait := r.wait && c.old, convs := r.convs.erase c
    overrun := r.overrun || (r.any && !r.read), raised := r.raised || (r.any && !r.read) }

section Complete

variable (c : Conv) (v : BitVec 16) (clip settle test : Bool)

theorem complete_adcParts (n e : Nat) (s : State) : adcParts (complete n e c v clip settle test s) =
    adcParts (setRes n e (·.completed c v (clip || s.aon.vddaBad) settle test) s) := by
  unfold complete
  refine (calFeed_adcParts _ _ _ _ _).trans ?_
  split
  · exact (raise_adcParts _ _).trans (congrArg adcParts (setRes_congr rfl))
  · exact congrArg adcParts (setRes_congr rfl)

theorem complete_work (n e : Nat) (s : State) : ResultWork n s (complete n e c v clip settle test s) :=
  (ResultWork.setRes n e _ s).andThen (complete_adcParts c v clip settle test n e s)

theorem complete_resWord (n e i : Nat) (s : State) : (complete n e c v clip settle test s).resWord n i =
    (setRes n e (·.completed c v (clip || s.aon.vddaBad) settle test) s).resWord n i :=
  congrArg (fun q : AdcSeq => vget q.res i {}) (adc_of_adcParts (complete_adcParts c v clip settle test n e s) n)

theorem complete_resWord_same (hn : n < 16) (he : e < 16) (s : State) :
    (complete n e c v clip settle test s).resWord n e =
      (s.resWord n e).completed c v (clip || s.aon.vddaBad) settle test :=
  (complete_resWord c v clip settle test n e e s).trans (setRes_resWord_same hn he _ s)

theorem complete_resWord_ne (hn : n < 16) (h : i ≠ e) (s : State) :
    (complete n e c v clip settle test s).resWord n i = s.resWord n i :=
  (complete_resWord c v clip settle test n e i s).trans (setRes_resWord_ne hn h _ s)

end Complete

/-! The filter latches of a sequence (R303). -/

/-- The latches of an entry that are due. -/
def State.dueLatches (s : State) (n e : Nat) : List Conv :=
  (s.resWord n e).convs.filter fun c => entDsd c.ent && decide (c.req ≤ s.now)

/-- One latch takes its filter's newest valid output. -/
def latch (n e : Nat) (c : Conv) (s : State) : State :=
  let v := s.dsdValue (entUnit c.ent) c.req
  complete n e c v.1 v.2.1 v.2.2 false s

def latchEntry (n e : Nat) (s : State) : State := each (s.dueLatches n e) (latch n e) s

theorem settleSeq_eq (n : Nat) (s : State) : settleSeq n s = each (List.range 16) (latchEntry n) s := rfl

theorem latch_work (n e : Nat) (c : Conv) (s : State) : ResultWork n s (latch n e c s) := complete_work _ _ _ _ _ n e s

theorem settleSeq_work (n : Nat) (s : State) : ResultWork n s (settleSeq n s) :=
  .each (fun e v => .each (latch_work n e) v) s

theorem latchEntry_now (n e : Nat) (s : State) : (latchEntry n e s).now = s.now :=
  each_keep State.now _ _ _ fun _ u => by simp only [State.now, latch, complete_frame]

theorem latchEntry_other (hn : n < 16) (h : i ≠ e) (s : State) : (latchEntry n e s).resWord n i = s.resWord n i :=
  each_keep (State.resWord · n i) _ _ _ fun _ u => complete_resWord_ne _ _ _ _ _ hn h u

theorem each_latch_convs (hn : n < 16) (he : e < 16) (l : List Conv) (s : State) :
    ((each l (latch n e) s).resWord n e).convs = (s.resWord n e).convs.diff l := by
  induction l generalizing s with
  | nil => rfl
  | cons c r ih =>
    have turn : ((latch n e c s).resWord n e).convs = (s.resWord n e).convs.erase c :=
      congrArg ResWord.convs (complete_resWord_same _ _ _ _ _ hn he s)
    exact (ih _).trans (by rw [turn, List.diff_cons])

/-- The members of a list that satisfy `p` are gone once they are taken out, each as often as it is there. -/
theorem filter_diff_filter {α : Type} [DecidableEq α] (p : α → Bool) (l : List α) :
    (l.diff (l.filter p)).filter p = [] := by
  refine List.filter_eq_nil_iff.mpr fun x hx holds => ?_
  have left := List.count_pos_iff.mpr hx
  rw [List.count_diff, List.count_filter holds, Nat.sub_self] at left
  exact absurd left (Nat.lt_irrefl 0)

theorem latchEntry_due (hn : n < 16) (he : e < 16) (s : State) : (latchEntry n e s).dueLatches n e = [] := by
  rw [State.dueLatches, latchEntry_now, latchEntry, each_latch_convs hn he]
  exact filter_diff_filter _ _

theorem settleSeq_due (hn : n < 16) (he : e < 16) (s : State) : (settleSeq n s).dueLatches n e = [] := by
  obtain ⟨u, -, after⟩ := each_own_turn (f := latchEntry n) (s := s) (State.dueLatches · n e) (List.mem_range.mpr he)
    List.nodup_range fun y _ other u => by
      simp only [State.dueLatches, latchEntry_now, latchEntry_other hn other.symm]
  exact after.trans (latchEntry_due hn he u)

theorem settleSeq_id (none : ∀ e < 16, s.dueLatches n e = []) : settleSeq n s = s := by
  rw [settleSeq_eq]
  refine each_id fun e he => ?_
  rw [latchEntry, none e (List.mem_range.mp he)]
  rfl

theorem settleLatches_dsd (s : State) : (settleLatches s).meas.dsd = s.meas.dsd :=
  each_keep (fun u => u.meas.dsd) _ _ _ fun n u => (settleSeq_work n u).dsd

theorem settleLatches_aon (s : State) : (settleLatches s).aon = s.aon :=
  each_keep State.aon _ _ _ fun n u => (settleSeq_work n u).aon

/-! A run that a result word waits for (R303, R307). -/

/-- The result word waits for slice conversion `c`; its filter latches are all of earlier runs. -/
structure ResWord.Awaits (c : Conv) (r : ResWord) : Prop where
  wait : r.wait = true
  asked : c ∈ r.convs
  slice : entDsd c.ent = false
  old : ∀ d ∈ r.convs, entDsd d.ent = true → d.old = true

theorem ResWord.Awaits.completed {r : ResWord} {d : Conv} (h : r.Awaits c) (dsd : entDsd d.ent = true) (old : d.old = true)
    (v : BitVec 16) (clip settle test : Bool) : (r.completed d v clip settle test).Awaits c where
  wait := by simp only [ResWord.completed, h.wait, old, Bool.and_self]
  asked := (List.mem_erase_of_ne fun same => by simp [← same, h.slice] at dsd).mpr h.asked
  slice := h.slice
  old x hx := h.old x (List.mem_of_mem_erase hx)

theorem each_inv_mem {α : Type} {Q : State → Prop} {l : List α} {f : α → State → State} {s : State}
    (h : ∀ x ∈ l, ∀ u, Q u → Q (f x u)) (hs : Q s) : Q (each l f s) := by
  unfold each
  induction l generalizing s with
  | nil => exact hs
  | cons x r ih => exact ih (fun y hy => h y (List.mem_cons_of_mem x hy)) (h x List.mem_cons_self s hs)

/-- Latches complete conversions of earlier runs alone. -/
theorem settleSeq_awaits (hn : n < 16) (he : e < 16) (h : (s.resWord n e).Awaits c) :
    ((settleSeq n s).resWord n e).Awaits c := by
  rw [settleSeq_eq]
  refine each_inv (Q := fun u => (u.resWord n e).Awaits c) _ _ s (fun i u waits => ?_) h
  rcases eq_or_ne e i with rfl | other
  · refine each_inv_mem (Q := fun u => (u.resWord n e).Awaits c) (fun d hd v waiting => ?_) waits
    obtain ⟨asked, due⟩ := List.mem_filter.mp hd
    have dsd : entDsd d.ent = true := (Bool.and_eq_true _ _ ▸ due).1
    rw [latch, complete_resWord_same _ _ _ _ _ hn he]
    exact waiting.completed dsd (waits.old d asked dsd) _ _ _ _
  · rw [latchEntry_other hn other]
    exact waits

end Sys2Proof.Machine
end

section
/-! Triggers of the ADC's sequences (R303 to R306): what a run's start makes of its sequence, and which sequences a source starts. -/

namespace Sys2Proof.Machine

open Sys2Proof

variable {s : State} {n e t : Nat} {late : Bool}

/-- A sequence whose run starts with base instant `b`. -/
def AdcSeq.started (b : Nat) (late : Bool) (q : AdcSeq) : AdcSeq :=
  { q with
    time := BitVec.ofNat 64 b
    res := Vector.ofFn fun (e : Fin 16) => startEntry q.ent b late e.val q.res[e] }

/-- Conversion `c` is no longer asked for. -/
def dropConv (n e : Nat) (c : Conv) (s : State) : State :=
  dropEntry n (setRes n e (fun r => { r with convs := r.convs.erase c }) s)

theorem dropConv_work (n e : Nat) (c : Conv) (s : State) : ResultWork n s (dropConv n e c s) :=
  (ResultWork.setRes n e (fun r => { r with convs := r.convs.erase c }) s).andThen (dropEntry_adcParts n _)

theorem dropUnsampled_work (n t : Nat) (s : State) : ResultWork n s (dropUnsampled n t s) := by
  obtain ⟨gone, drops⟩ : ∃ gone : List (Nat × List Conv),
      dropUnsampled n t s = each gone (fun x => each x.2 (dropConv n x.1)) s := ⟨_, rfl⟩
  rw [drops]
  refine ResultWork.each (fun x v => ?_) s
  exact ResultWork.each (dropConv_work n x.1) v

theorem trigger_idle (idle : ¬ (s.isOn .analog = true ∧ seqOn (s.adc n) = true)) : trigger n t late s = s :=
  if_pos (by simpa [imp_iff_not_or] using idle)

/-- The state in which the trigger's run starts: latches that are due are taken, and what has not sampled is dropped. -/
def runBase (n t : Nat) (s : State) : State := dropUnsampled n t (settleSeq n s)

theorem runBase_work (n t : Nat) (s : State) : ResultWork n s (runBase n t s) :=
  (settleSeq_work n s).trans (dropUnsampled_work n t _)

theorem trigger_starts (ha : s.isOn .analog = true) (on : seqOn (s.adc n) = true) : trigger n t late s =
    settleSeq n (setAdc n (·.started (t + 2 * seqDelay (s.adc n)) late) (runBase n t s)) := by
  have delay : seqDelay ((runBase n t s).adc n) = seqDelay (s.adc n) := by rw [(runBase_work n t s).own]; rfl
  rw [← delay]
  exact if_neg (by rw [ha, on]; decide)

theorem trigger_work (n t : Nat) (late : Bool) (s : State) : SeqWork n s (trigger n t late s) := by
  by_cases runs : s.isOn .analog = true ∧ seqOn (s.adc n) = true
  · rw [trigger_starts runs.1 runs.2]
    exact ((runBase_work n t s).toSeqWork.trans (.setAdc n _ _)).trans (settleSeq_work n _).toSeqWork
  · rw [trigger_idle runs]
    exact .refl n s

section Started

variable (hn : n < 16) (ha : s.isOn .analog = true) (on : seqOn (s.adc n) = true)
include hn ha on

/-- A run's start leaves the sequence as written, with the instant at which its first entries sample. -/
theorem trigger_own : (trigger n t late s).adc n = { s.adc n with
    time := BitVec.ofNat 64 (t + 2 * seqDelay (s.adc n)), res := ((trigger n t late s).adc n).res } := by
  rw [trigger_starts ha on, (settleSeq_work n _).own, setAdc_adc_same hn, (runBase_work n t s).own]
  rfl

/-- A slice entry that is enabled is asked for, and its result word waits for it. -/
theorem trigger_awaits (he : e < 16) (enabled : entOn (vget (s.adc n).ent e 0) = true)
    (slice : entDsd (vget (s.adc n).ent e 0) = false) : ((trigger n t late s).resWord n e).Awaits
      { ent := vget (s.adc n).ent e 0, req := t + 2 * seqDelay (s.adc n) + 250 * entQ (s.adc n).ent e, late := late } := by
  rw [trigger_starts ha on]
  refine settleSeq_awaits hn he ?_
  have ent : ((runBase n t s).adc n).ent = (s.adc n).ent := by rw [(runBase_work n t s).own]
  rw [State.resWord, setAdc_adc_same hn, AdcSeq.started, ent]
  simp only [vget_ofFn _ _ he, startEntry, enabled, Bool.not_true, Bool.false_eq_true, if_false, slice]
  refine ⟨rfl, by simp, slice, fun d hd dsd => ?_⟩
  rcases List.mem_append.mp hd with earlier | new
  · obtain ⟨c, -, rfl⟩ := List.mem_map.mp earlier
    rfl
  · rw [List.mem_singleton.mp new] at dsd
    cases slice.symm.trans dsd

end Started

theorem trigger_setting (hn : n < 16) (t : Nat) (late : Bool) (s : State) :
    ((trigger n t late s).adc n).cfg = (s.adc n).cfg ∧ ((trigger n t late s).adc n).ent = (s.adc n).ent := by
  by_cases runs : s.isOn .analog = true ∧ seqOn (s.adc n) = true
  · rw [trigger_own hn runs.1 runs.2]
    exact ⟨rfl, rfl⟩
  · rw [trigger_idle runs]
    exact ⟨rfl, rfl⟩

/-! Trigger sources (R303, R304). -/

/-- The turn of sequence `n` at a trigger of source `trig` with argument `arg`. -/
def triggerTurn (trig arg t n : Nat) (s : State) : State :=
  if seqTrig (s.adc n) = trig ∧ (trig < 4 ∨ seqArg (s.adc n) = arg) then trigger n t false s else s

theorem triggerAll_eq (trig arg t : Nat) (s : State) :
    triggerAll trig arg t s = each (List.range 16) (triggerTurn trig arg t) s := rfl

theorem triggerTurn_work (trig arg t n : Nat) (s : State) : SeqWork n s (triggerTurn trig arg t n s) := by
  unfold triggerTurn
  split
  · exact trigger_work n t false s
  · exact .refl n s

theorem triggerAll_gpioIn (trig arg t : Nat) (s : State) : (triggerAll trig arg t s).atr.gpioIn = s.atr.gpioIn :=
  each_keep (fun u => u.atr.gpioIn) _ _ _ fun n u => (triggerTurn_work trig arg t n u).gpioIn

/-- A sequence that is on and names the source starts. -/
theorem triggerAll_named {trig arg : Nat} (hn : n < 16) (ha : s.isOn .analog = true) (on : seqOn (s.adc n) = true)
    (source : seqTrig (s.adc n) = trig) (argument : seqArg (s.adc n) = arg) :
    ((triggerAll trig arg t s).adc n).time = BitVec.ofNat 64 (t + 2 * seqDelay (s.adc n)) := by
  obtain ⟨u, before, after⟩ := each_own_turn (f := triggerTurn trig arg t) (s := s) (fun u => (u.adc n, u.aon))
    (List.mem_range.mpr hn) List.nodup_range fun m _ other u =>
      Prod.ext ((triggerTurn_work trig arg t m u).others n other.symm) (triggerTurn_work trig arg t m u).aon
  obtain ⟨adc, aon⟩ := Prod.mk.inj before
  have turn : triggerTurn trig arg t n u = trigger n t false u := if_pos (by rw [adc]; exact ⟨source, .inr argument⟩)
  rw [triggerAll_eq, (Prod.mk.inj after).1, turn, trigger_own hn ((isOn_congr aon _).trans ha) (adc ▸ on), adc]

/-- A sequence that names another source, or this one with another argument, stays as it is. -/
theorem triggerAll_other {trig arg : Nat} (hasArg : 4 ≤ trig) (other : ¬ (seqTrig (s.adc n) = trig ∧ seqArg (s.adc n) = arg)) :
    (triggerAll trig arg t s).adc n = s.adc n := by
  rw [triggerAll_eq]
  refine each_inv (Q := fun u => u.adc n = s.adc n) _ _ s (fun m u same => ?_) rfl
  rcases eq_or_ne n m with rfl | apart
  · have idle : triggerTurn trig arg t n u = u :=
      if_neg fun ⟨source, argument⟩ => other (same ▸ ⟨source, argument.resolve_left (Nat.not_lt.mpr hasArg)⟩)
    exact (congrArg (State.adc · n) idle).trans same
  · exact ((triggerTurn_work trig arg t m u).others n apart).trans same

/-- A carrier point of a cell whose stage has a FIXED duty. -/
theorem execCarrierTrigger_triggers {k : Fin 63} (valley : Bool) (on : s.ctxOn k.val = true)
    (valid : (s.cell k.val).stage.valid = true) (duty : (s.cell k.val).stage.lvl = false)
    (fixed : (s.cell k.val).stage.cmodeIn = 0) (pattern : (s.cell k.val).stage.safe = 0) :
    execCarrierTrigger k valley s = .next (triggerAll (if valley then 5 else 4) k.val s.now s) :=
  congrArg _ (if_pos (by rw [on, valid, duty, fixed, pattern]; decide))

/-- The level of a trigger ball as its edge finds it. -/
def gpioHigh (i : Fin 16) (s : State) : State :=
  { s with atr := { s.atr with gpioIn := s.atr.gpioIn ||| (1#16 <<< i.val) } }

theorem execGpioTriggerEdge_triggers {i : Fin 16} (hs : s.Runs) (func : s.gpioFunc i.val = 3) :
    execGpioTriggerEdge i s = .next (triggerAll 6 i.val s.now (gpioHigh i s)) := by
  have on : (gpioHigh i s).isOn .atrium = true := hs
  exact congrArg _ (if_pos (Bool.and_eq_true_iff.mpr ⟨on, beq_iff_eq.mpr func⟩))

theorem gpioHigh_level (i : Fin 16) (s : State) : (gpioHigh i s).atr.gpioIn.getLsbD i.val = true := by
  simp [gpioHigh]

end Sys2Proof.Machine
end

section
/-! ADC_SEQ and ADC_READ (R302, R308, R311), conversions and dropped requests (R305, R307), and filter outputs (R300, R301). -/

namespace Sys2Proof.Machine

open Sys2Proof

variable {s u : State} {n e : Nat} {w0 cfg : Word} {l : List Word}

theorem reply_resWord (st : Status) (ws : List Word) (s : State) (n e : Nat) :
    (reply st ws s).resWord n e = s.resWord n e := rfl

/-! ADC_SEQ (R302, R306). -/

/-- The entries that a payload brings. -/
def entriesOf (l : List Word) : Vector Word 16 := Vector.ofFn fun e => wd l e.val

/-- A sequence as ADC_SEQ writes it, without its reserved bits and without earlier results. -/
def AdcSeq.written (cfg : Word) (ent : Vector Word 16) (q : AdcSeq) : AdcSeq :=
  { q with
    cfg := cfg &&& 0x873FFFFF#32
    ent := ent.map fun w => w &&& 0x81000F0F#32
    res := q.res.map fun r => { wait := !r.convs.isEmpty, convs := r.convs } }

theorem writeSeq_work (n : Nat) (cfg : Word) (ent : Vector Word 16) (s : State) : SeqWork n s (writeSeq n cfg ent s) :=
  (settleSeq_work n s).toSeqWork.trans (.setAdc n (·.written cfg ent) _)

theorem writeSeq_adc (hn : n < 16) (cfg : Word) (ent : Vector Word 16) (s : State) :
    (writeSeq n cfg ent s).adc n = ((settleSeq n s).adc n).written cfg ent :=
  setAdc_adc_same hn (·.written cfg ent) _

/-- The sequence written and, with START, triggered. -/
def seqWritten (start : Bool) (n : Nat) (cfg : Word) (ent : Vector Word 16) (s : State) : State :=
  if start then trigger n s.now false (writeSeq n cfg ent s) else writeSeq n cfg ent s

theorem execAdcSeq_writes (hs : s.Runs) (ha : s.isOn .analog = true) (len : l.length = 16)
    (source : bit w0 8 = true → fld cfg 24 3 = 0) (ok : seqCheck (fld w0 0 4) cfg (entriesOf l) s = .ok) :
    execAdcSeq (w0 :: cfg :: l) s = .next (reply .ok [] (seqWritten (bit w0 8) (fld w0 0 4) cfg (entriesOf l) s)) := by
  have length : ((w0 :: cfg :: l).length == 18) = true := by simp [len]
  have now : (writeSeq (fld w0 0 4) cfg (entriesOf l) s).now = s.now := by simp only [State.now, writeSeq_frame]
  have first : wd (w0 :: cfg :: l) 0 = w0 := rfl
  have second : wd (w0 :: cfg :: l) 1 = cfg := rfl
  have entries : (Vector.ofFn fun e : Fin 16 => wd (w0 :: cfg :: l) (e.val + 2)) = entriesOf l := rfl
  rw [execAdcSeq, length, analogCommand_runs hs ha]
  refine congrArg Host.Outcome.next ((if_neg fun both => both.2 (source both.1)).trans ?_)
  simp only [first, second, entries, ok, now]
  rfl

theorem seqWritten_work (start : Bool) (n : Nat) (cfg : Word) (ent : Vector Word 16) (s : State) :
    SeqWork n s (seqWritten start n cfg ent s) := by
  unfold seqWritten
  split
  · exact (writeSeq_work n cfg ent s).trans (trigger_work n _ _ _)
  · exact writeSeq_work n cfg ent s

theorem seqWritten_setting (hn : n < 16) (start : Bool) (ent : Vector Word 16) (s : State) :
    let q := (seqWritten start n cfg ent s).adc n
    q.cfg = cfg &&& 0x873FFFFF#32 ∧ q.ent = ent.map fun w => w &&& 0x81000F0F#32 := by
  have written := writeSeq_adc hn cfg ent s
  unfold seqWritten
  split
  · have kept := trigger_setting hn s.now false (writeSeq n cfg ent s)
    rw [written] at kept
    exact kept
  · dsimp only
    rw [written]
    exact ⟨rfl, rfl⟩

/-- With START a sequence that is on starts at once. -/
theorem seqWritten_starts {start : Bool} (hn : n < 16) (ha : s.isOn .analog = true) (go : start = true)
    (on : bit cfg 31 = true) (ent : Vector Word 16) : let t := seqWritten start n cfg ent s
    (t.adc n).time = BitVec.ofNat 64 (s.now + 2 * fld cfg 0 16) ∧
      ∀ e < 16, entOn (vget ent e 0) = true → entDsd (vget ent e 0) = false → ∃ c, (t.resWord n e).Awaits c ∧
        c.ent = vget (t.adc n).ent e 0 ∧ c.old = false ∧ c.late = false := by
  have written := writeSeq_adc hn cfg ent s
  have ha' : (writeSeq n cfg ent s).isOn .analog = true := (isOn_congr (writeSeq_work n cfg ent s).aon _).trans ha
  have run : seqWritten start n cfg ent s = trigger n s.now false (writeSeq n cfg ent s) := if_pos go
  rw [run]
  generalize writeSeq n cfg ent s = v at written ha' ⊢
  have on' : seqOn (v.adc n) = true := by
    rw [written]
    exact (bit_and_mask (by decide) cfg).trans on
  have delay : seqDelay (v.adc n) = fld cfg 0 16 := by
    rw [written]
    exact fld_and_mask (by decide) cfg
  have own := trigger_own (t := s.now) (late := false) hn ha' on'
  rw [delay] at own
  refine ⟨congrArg AdcSeq.time own, fun e he enabled slice => ?_⟩
  have entry : vget (v.adc n).ent e 0 = vget ent e 0 &&& 0x81000F0F#32 := by
    rw [written]
    exact vget_map ent _ 0 0 he
  have enabled' : entOn (vget (v.adc n).ent e 0) = true := by
    rw [entry]
    exact (bit_and_mask (by decide) _).trans enabled
  have slice' : entDsd (vget (v.adc n).ent e 0) = false := by
    rw [entry]
    exact (bit_and_mask (by decide) _).trans slice
  exact ⟨_, trigger_awaits (t := s.now) (late := false) hn ha' on' he enabled' slice',
    (congrArg (fun q : AdcSeq => vget q.ent e 0) own).symm, rfl, rfl⟩

/-! ADC_READ (R308, R311). -/

def markRead (n e : Nat) (s : State) : State := setRes n e (fun r => (readRes r).2) s

theorem markRead_due {i : Nat} (hn : n < 16) (hi : i < 16) (e : Nat) (s : State) :
    (markRead n e s).dueLatches n i = s.dueLatches n i := by
  have convs : ((markRead n e s).resWord n i).convs = (s.resWord n i).convs := by
    rcases eq_or_ne i e with rfl | other
    · exact (congrArg ResWord.convs (setRes_resWord_same hn hi (fun r => (readRes r).2) s)).trans rfl
    · exact congrArg ResWord.convs (setRes_resWord_ne hn other _ s)
  rw [State.dueLatches, convs]
  rfl

theorem hostReadRes_settled (settled : settleSeq n s = s) (e : Nat) :
    hostReadRes n e s = ((readRes (s.resWord n e)).1, markRead n e s) := by
  rw [hostReadRes, settled]
  exact Prod.ext rfl (setRes_congr rfl)

/-- The next entry of an ADC_READ. -/
def readNext (n : Nat) (a : List Word × State) (e : Nat) : List Word × State :=
  (a.1 ++ [(hostReadRes n e a.2).1], (hostReadRes n e a.2).2)

/-- Entries of a sequence whose due latches are taken are read each once. -/
theorem foldl_readNext (hn : n < 16) {es : List Nat} (nodup : es.Nodup) (due : ∀ i < 16, u.dueLatches n i = []) (ws : List Word) :
    es.foldl (readNext n) (ws, u) =
      (ws ++ es.map fun e => (readRes (u.resWord n e)).1, each es (markRead n) u) := by
  induction es generalizing u ws with
  | nil => simp [each]
  | cons e r ih =>
    obtain ⟨new, nodup⟩ := List.nodup_cons.mp nodup
    have rest : ∀ i ∈ r, (readRes ((markRead n e u).resWord n i)).1 = (readRes (u.resWord n i)).1 := fun i hi => by
      rw [markRead, setRes_resWord_ne hn (ne_of_mem_of_not_mem hi new)]
    have turn : readNext n (ws, u) e = (ws ++ [(readRes (u.resWord n e)).1], markRead n e u) := by
      rw [readNext, hostReadRes_settled (settleSeq_id due)]
    rw [List.foldl_cons, turn, ih nodup fun i hi => (markRead_due hn hi e u).trans (due i hi), List.map_congr_left rest,
      List.append_assoc]
    rfl

/-- The enabled entries of a sequence. -/
def AdcSeq.enabled (q : AdcSeq) : List Nat := (List.range 16).filter fun e => entOn (vget q.ent e 0)

theorem mem_enabled {q : AdcSeq} (he : e ∈ q.enabled) : e < 16 := List.mem_range.mp (List.mem_filter.mp he).1

theorem enabled_nodup (q : AdcSeq) : q.enabled.Nodup := List.nodup_range.filter _

theorem execAdcRead_reads (hs : s.Runs) (ha : s.isOn .analog = true) (hn : w0.toNat ≤ 15)
    (settled : settleSeq w0.toNat s = u) : execAdcRead [w0] s = .next (reply .ok
      ((s.adc w0.toNat).enabled.map fun e => (readRes (u.resWord w0.toNat e)).1)
      (each (s.adc w0.toNat).enabled (markRead w0.toNat) u)) := by
  have hn' : w0.toNat < 16 := Nat.lt_succ_of_le hn
  have due : ∀ i < 16, u.dueLatches w0.toNat i = [] := fun i hi => settled ▸ settleSeq_due hn' hi s
  have reads := foldl_readNext hn' (enabled_nodup (s.adc w0.toNat)) due []
  rw [List.nil_append] at reads
  rw [execAdcRead, show ([w0].length == 1) = true from rfl, analogCommand_runs hs ha]
  simp only [wd, List.getD_cons_zero, if_neg (Nat.not_lt.mpr hn), settled]
  exact congrArg (fun r : List Word × State => Host.Outcome.next (reply .ok r.1 r.2)) reads

theorem each_markRead_listed (hn : n < 16) (he : e < 16) {es : List Nat} (mem : e ∈ es) (nodup : es.Nodup) (u : State) :
    (each es (markRead n) u).resWord n e = (readRes (u.resWord n e)).2 := by
  obtain ⟨v, before, after⟩ := each_own_turn (f := markRead n) (s := u) (State.resWord · n e) mem nodup
    fun y _ other v => setRes_resWord_ne hn other.symm _ v
  exact after.trans ((setRes_resWord_same hn he _ v).trans (by rw [before]))

theorem each_markRead_other (hn : n < 16) {es : List Nat} (out : e ∉ es) (u : State) :
    (each es (markRead n) u).resWord n e = u.resWord n e :=
  each_keep_mem (State.resWord · n e) fun _ hy v => setRes_resWord_ne hn (ne_of_mem_of_not_mem hy out).symm _ v

theorem each_markRead_work (n : Nat) (es : List Nat) (u : State) : ResultWork n u (each es (markRead n) u) :=
  .each (fun e v => .setRes n e (fun r => (readRes r).2) v) u

theorem each_markRead_only (n : Nat) (es : List Nat) (u : State) : each es (markRead n) u =
    { u with meas := { u.meas with seq := (each es (markRead n) u).meas.seq } } := by
  refine each_inv (Q := fun v => v = { u with meas := { u.meas with seq := v.meas.seq } }) _ _ u (fun e v h => ?_) rfl
  exact congrArg (fun x : State => { x with meas := { x.meas with seq := (markRead n e v).meas.seq } }) h

/-! Conversions and dropped requests (R305, R307). -/

/-- The code that a sample gives, corrected where its slice is privileged. -/
def sliceCode (c : Conv) (x : Sampled) (s : State) : BitVec 16 :=
  let raw := (clampCode (F32.rne (x.uv / (125 / 2)))).1
  if s.privileged (entUnit c.ent) then (unitCorrect (c.unit.getD (vget s.meas.role (entUnit c.ent) 0)) raw s).1 else raw

/-- Its slice may sample again 250 ns after `at_` (R297). -/
def sliceBusy (c : Conv) (at_ : Nat) (s : State) : State :=
  if c.unit.isNone then
    setMeas (fun m => { m with sliceFree := vmod m.sliceFree (entUnit c.ent) (max (at_ + 250)) }) s
  else s

theorem sliceBusy_adcParts (c : Conv) (at_ : Nat) (s : State) : adcParts (sliceBusy c at_ s) = adcParts s := by
  unfold sliceBusy
  split <;> rfl

theorem execAdcConversionDone_completes {n e : Fin 16} {c : Conv} (ha : s.isOn .analog = true)
    (slice : (s.resWord n.val e.val).slice = some c) (x : Sampled) :
    let at_ := c.at_.getD (s.samplesAt (16 * n.val + e.val) c)
    ∃ clip, execAdcConversionDone n e x s = .next
      (complete n.val e.val c (sliceCode c x s) clip false (x.dac && s.dacMay c.ent at_) (sliceBusy c at_ s)) := by
  unfold State.resWord at slice
  simp only [execAdcConversionDone, slice, ha, if_true, sliceCode, sliceBusy]
  cases s.privileged (entUnit c.ent) <;> exact ⟨_, rfl⟩

theorem execAdcConversionDone_completed {n e : Fin 16} {c : Conv} (ha : s.isOn .analog = true)
    (slice : (s.resWord n.val e.val).slice = some c) (x : Sampled) :
    let test := x.dac && s.dacMay c.ent (c.at_.getD (s.samplesAt (16 * n.val + e.val) c))
    ∃ t clip, execAdcConversionDone n e x s = .next t ∧
      t.resWord n.val e.val = (s.resWord n.val e.val).completed c (sliceCode c x s) clip false test ∧
      ∀ m, m ≠ n.val → t.adc m = s.adc m := by
  obtain ⟨clip, exec⟩ := execAdcConversionDone_completes ha slice x
  have same := sliceBusy_adcParts c (c.at_.getD (s.samplesAt (16 * n.val + e.val) c)) s
  generalize sliceBusy c _ s = u at exec same
  have adc := adc_of_adcParts same
  refine ⟨_, clip || u.aon.vddaBad, exec, ?_, fun m other => ((complete_work _ _ _ _ _ _ _ u).others m other).trans (adc m)⟩
  rw [complete_resWord_same _ _ _ _ _ n.isLt e.isLt, State.resWord, adc]
  rfl

theorem execSliceRequestDrop_drops {n e : Fin 16} {c : Conv} (ha : s.isOn .analog = true)
    (slice : (s.resWord n.val e.val).slice = some c) : execSliceRequestDrop n e s = .next (dropConv n.val e.val c s) := by
  unfold State.resWord at slice
  simp only [execSliceRequestDrop, slice, ha, if_true, dropConv]

theorem dropConv_convs (hn : n < 16) (he : e < 16) (c : Conv) (s : State) :
    ((dropConv n e c s).resWord n e).convs = (s.resWord n e).convs.erase c := by
  have adc := adc_of_adcParts (dropEntry_adcParts n (setRes n e (fun r => { r with convs := r.convs.erase c }) s)) n
  exact (congrArg (fun q : AdcSeq => (vget q.res e {}).convs) adc).trans
    (congrArg ResWord.convs (setRes_resWord_same hn he _ s))

theorem dropConv_count (n e : Nat) (c : Conv) (s : State) : (dropConv n e c s).meas.drop = satInc 255 s.meas.drop := by
  simp only [dropConv, dropEntry, raise_frame, setMeas_meas]
  rfl

/-- ADC_DROP names the sequence. -/
theorem dropConv_event (hs : s.Runs) (n e : Nat) (c : Conv) :
    ((dropConv n e c s).evt 185).pend = true ∧ ((dropConv n e c s).evt 185).data = BitVec.ofNat 32 n :=
  ⟨raise_pend_same _ hs (by decide), raise_data_same _ hs (by decide) (by decide)⟩

/-! Filter outputs (R300, R301). -/

/-- A filter with one more output, `v`: its newest value once three are there. -/
def Dsd.taken (v : BitVec 16 × Bool) (f : Dsd) : Dsd :=
  { f with outputs := satInc 3 f.outputs, last := if satInc 3 f.outputs = 3 then some v else f.last }

/-- Filter `d` takes its output `v`, and with it the calibration of the map entries that it feeds. -/
def takeOutput (d : Nat) (v : BitVec 16 × Bool) (s : State) : State :=
  let n := satInc 3 (vget s.meas.dsd d {}).outputs
  let u := setMeas (fun m => { m with dsd := vmod m.dsd d fun f => { f with
    outputs := n, last := if n = 3 then some v else f.last } }) s
  if n = 3 then calFeed 1 d v.1.toInt v.2 u else u

theorem takeOutput_dsd (d : Nat) (v : BitVec 16 × Bool) (s : State) :
    (takeOutput d v s).meas.dsd = vmod s.meas.dsd d (·.taken v) := by
  have fed : ∀ u : State, (if satInc 3 (vget s.meas.dsd d {}).outputs = 3 then calFeed 1 d v.1.toInt v.2 u else u).meas.dsd =
      u.meas.dsd := fun u => by
    split
    · exact congrArg (·.2.1) (calFeed_adcParts _ _ _ _ u)
    · rfl
  refine (fed _).trans ?_
  rw [setMeas_meas]
  dsimp only
  exact vmod_congr {} rfl

/-- The code of a filter output at the filter's OSR. -/
def filterCode (cfg : Word) (y : Int) : BitVec 16 × Bool :=
  clampCode (F32.rne ((32768 * y : Int) / ((fld cfg 0 9 ^ 3 : Nat) : Rat)))

theorem execDsdFilterOutput_takes {d : Fin 8} (ha : s.isOn .analog = true) (on : bit (s.dsdCfg d.val) 31 = true)
    (settled : settleLatches s = u) (y : Int) : let code := filterCode (s.dsdCfg d.val) y
    execDsdFilterOutput d y s = .next (takeOutput d.val (code.1, code.2 || u.aon.vddaBad) u) := by
  simp only [execDsdFilterOutput, ha, on, Bool.and_self, if_true, settled]
  rfl

theorem execDsdFilterOutput_taken {d : Fin 8} (ha : s.isOn .analog = true) (on : bit (s.dsdCfg d.val) 31 = true) (y : Int) :
    let code := filterCode (s.dsdCfg d.val) y
    ∃ t, execDsdFilterOutput d y s = .next t ∧
      t.meas.dsd = vmod s.meas.dsd d.val (·.taken (code.1, code.2 || s.aon.vddaBad)) :=
  ⟨_, execDsdFilterOutput_takes ha on rfl y, by rw [takeOutput_dsd, settleLatches_dsd, settleLatches_aon]⟩

theorem satInc_two {n : Nat} (two : 2 ≤ n) (three : n ≤ 3) : satInc 3 n = 3 := by
  unfold satInc
  split <;> omega

end Sys2Proof.Machine

open Sys2Proof.Machine in
/-- Settles O44: ADC_SEQ and ADC_READ on one sequence, the turns of a trigger's sequences, and each completion in its result word. -/
theorem converters : Obligations.Converters := by
  unfold Obligations.Converters
  refine ⟨fun s hs ha => ⟨fun w0 cfg l len source ok => ?write, fun w0 hn => ?read⟩,
    fun s hs ha => ⟨fun k valley on valid duty fixed pattern => ?carrier, fun i func => ?edge⟩,
    fun s hs ha => ⟨fun n e x c slice => ?conversion, fun n e c slice => ?dropped, fun d y on => ?output⟩⟩
  case write =>
    have hn : fld w0 0 4 < 16 := fld_lt w0 0 4
    have exec := execAdcSeq_writes hs ha len source ok
    have frame := execAdcSeq_frame _ s _ exec
    obtain ⟨setting, entries⟩ := seqWritten_setting (cfg := cfg) hn (bit w0 8) (entriesOf l) s
    have work := seqWritten_work (bit w0 8) (fld w0 0 4) cfg (entriesOf l) s
    have starts := fun start on => seqWritten_starts (start := bit w0 8) (cfg := cfg) hn ha start on (entriesOf l)
    generalize seqWritten (bit w0 8) (fld w0 0 4) cfg (entriesOf l) s = v at exec frame setting entries work starts
    refine ⟨_, exec, rfl, setting, fun e he => ?_, fun start on => ?_, work.others, ?_⟩
    · exact (congrArg (vget · e 0) entries).trans (vget_map _ _ 0 0 he)
    · obtain ⟨time, waits⟩ := starts start on
      refine ⟨time, fun e he enabled slice => ?_⟩
      obtain ⟨c, awaits, ent⟩ := waits e he enabled slice
      exact ⟨awaits.wait, c, awaits.asked, ent⟩
    · simp only [SameRegisters, SameGallery, frame, and_self, implies_true]
  case read =>
    have work := settleSeq_work w0.toNat s
    dsimp only
    generalize settled : settleSeq w0.toNat s = u at work ⊢
    have hn' : w0.toNat < 16 := Nat.lt_succ_of_le hn
    have exec := execAdcRead_reads hs ha hn settled
    have frame := execAdcRead_frame _ s _ exec
    have nodup := enabled_nodup (s.adc w0.toNat)
    have below : ∀ e ∈ (s.adc w0.toNat).enabled, e < 16 := fun _ => mem_enabled
    have named : ((List.range 16).filter fun e => entOn (vget (s.adc w0.toNat).ent e 0)) = (s.adc w0.toNat).enabled := rfl
    have word : ∀ (v : State) (e : Nat), vget (v.adc w0.toNat).res e {} = v.resWord w0.toNat e := fun _ _ => rfl
    simp only [named, word]
    generalize (s.adc w0.toNat).enabled = es at nodup below exec frame ⊢
    refine ⟨_, exec, rfl, fun e he => ?_, fun e _ out => ?_, fun m other => ?_, ?_, ?_,
      congrArg (reply .ok _) (each_markRead_only _ _ u)⟩
    · rw [reply_resWord]
      exact each_markRead_listed hn' (below e he) he nodup u
    · rw [reply_resWord]
      exact each_markRead_other hn' out u
    · exact ((each_markRead_work _ _ u).others m other).trans (work.others m other)
    all_goals simp only [SameRegisters, SameGallery, frame, and_self, implies_true]
  case carrier =>
    have exec := execCarrierTrigger_triggers valley on valid duty fixed pattern
    have frame := execCarrierTrigger_frame _ _ s _ exec
    refine ⟨_, exec, fun n hn onSeq source argument => triggerAll_named hn ha onSeq source argument,
      fun n _ other => triggerAll_other (by cases valley <;> decide) other, ?_⟩
    simp only [SameRegisters, SameGallery, frame, and_self, implies_true]
  case edge =>
    have exec := execGpioTriggerEdge_triggers hs func
    have frame := execGpioTriggerEdge_frame _ s _ exec
    refine ⟨_, exec, ?_, fun n hn onSeq source argument => triggerAll_named (s := gpioHigh i s) hn ha onSeq source argument,
      fun n _ other => triggerAll_other (s := gpioHigh i s) (by decide) other, ?_⟩
    · rw [triggerAll_gpioIn]
      exact gpioHigh_level i s
    · simp only [SameRegisters, SameGallery, frame, and_self, implies_true]
  case conversion =>
    obtain ⟨t, clip, exec, word, others⟩ := execAdcConversionDone_completed ha slice x
    have frame := execAdcConversionDone_frame _ _ _ s _ exec
    refine ⟨t, t.resWord n.val e.val, exec, rfl, ?_⟩
    rw [word]
    refine ⟨rfl, rfl, rfl, rfl, rfl, rfl, rfl, rfl, rfl, others, ?_⟩
    simp only [SameRegisters, SameGallery, frame, and_self, implies_true]
  case dropped =>
    have exec := execSliceRequestDrop_drops ha slice
    have frame := execSliceRequestDrop_frame _ _ s _ exec
    obtain ⟨pend, data⟩ := dropConv_event hs n.val e.val c
    refine ⟨_, exec, dropConv_convs n.isLt e.isLt c s, dropConv_count _ _ c s, pend, data,
      fun m other => (dropConv_work _ _ c s).others m other, ?_⟩
    simp only [SameRegisters, SameGallery, frame, and_self, implies_true]
  case output =>
    obtain ⟨t, exec, filters⟩ := execDsdFilterOutput_taken ha on y
    have frame := execDsdFilterOutput_frame _ _ s _ exec
    refine ⟨t, exec, ?_, fun two three => ?_, fun x other => ?_, ?_⟩
    · rw [filters, vget_vmod_same _ _ _ _ d.isLt]
      rfl
    · simp only [filters, vget_vmod_same _ _ _ _ d.isLt, Dsd.taken, satInc_two two three, if_true, filterCode]
    · rw [filters, vget_vmod_ne _ _ _ _ _ other.symm]
    · simp only [SameRegisters, SameGallery, frame, and_self, implies_true]
end

section
/-! Takeovers and heartbeats of a pair (R344 to R353): what a new active starts with, and what the loss of a path ends. -/

namespace Sys2Proof.Machine

open Sys2Proof

variable {s : State} {Q : State → Prop}

theorem raise_twin (e : Nat) (w : Word) (s : State) : (raise e w s).twin = s.twin := by simp only [raise_frame]

/-! A new active (R348, R349, R356). -/

theorem newEpoch_twin (s : State) : (newEpoch s).twin =
    { s.twin with epoch := s.twin.epoch + 1, takeovers := satInc 65535 s.twin.takeovers } := by
  simp only [newEpoch, raise_frame, setTwin_twin]

theorem newEpoch_pend (hs : s.Runs) : ((newEpoch s).evt 212).pend = true := raise_pend_same _ hs (by decide)

theorem newEpoch_pend_keeps {e : Nat} (h : (s.evt e).pend = true) : ((newEpoch s).evt e).pend = true :=
  raise_pend_keeps _ _ h

namespace DecisionKeeps

theorem restoreFail (hQ : DecisionKeeps Q) (k : Nat) (h : Q s) : Q (restoreFail k s) :=
  hQ.raise _ _ _ (hQ.cell _ _ _ (fun _ => rfl) (hQ.sendDecision _ h))

theorem reportClass (hQ : DecisionKeeps Q) (k : Nat) (b : List Byte) (cls : Nat) (h : Q s) : Q (reportClass k b cls s) := by
  unfold Machine.reportClass
  split
  · exact h
  · split
    · exact hQ.decideGs _ _ _ h
    · split
      · exact hQ.restoreFail k h
      · exact hQ.decideClass _ _ _ h

theorem reportFaults (hQ : DecisionKeeps Q) (k : Nat) (old b : List Byte) (h : Q s) : Q (reportFaults k old b s) := by
  unfold Machine.reportFaults
  refine each_inv _ _ _ (fun cls _ => hQ.reportClass k b cls) ?_
  split
  · exact hQ.decide' _ _ _ _ (hQ.setPerm _ (hQ.cell _ _ _ (fun _ => rfl) h))
  · exact h

theorem takeFaults (hQ : DecisionKeeps Q) (k : Nat) (h : Q s) : Q (takeFaults k s) := by
  unfold Machine.takeFaults
  extract_lets b mask old u v
  have hu : Q u := by
    unfold u
    split
    · exact hQ.cell _ _ _ (fun _ => rfl) h
    · exact h
  split
  · exact hQ.decideClass _ _ _ (hQ.reportFaults _ _ _ hu)
  · exact hQ.reportFaults _ _ _ hu

theorem wrapAtPartner (hQ : DecisionKeeps Q) (f : Nat) (hf : ∀ k s (g : Flight → Flight), Q s → Q (s.setFlight k g))
    (h : Q s) : Q (wrapAtPartner f s) := by
  unfold Machine.wrapAtPartner
  extract_lets hop u
  refine hf _ _ _ ?_
  unfold u
  split
  · exact hQ.raise _ _ _ h
  · exact hQ.breakAt _ _ (fun k s g _ => hf k s g) h

end DecisionKeeps

/-- What a new active has of the pair as it takes the rings, before its rings are wrapped. -/
def crowned (s : State) : State :=
  newEpoch (takeQueues (setTwin (fun t => { t with
    state := 1, mute := false, leaving := false, ldn := false, tofsBad := 0, transfer := false, segs := [], measure := none
    partnerNeed := 0, partnerSu := false }) s))

/-- What pends as a new active begins still pends once it has wrapped its rings and judged its reports. -/
theorem takeRings_pend_keeps {e : Nat} (h : ((crowned s).evt e).pend = true) : ((takeRings s).evt e).pend = true := by
  have keeps := DecisionKeeps.pend e
  unfold takeRings
  extract_lets u v w x y
  have wrapped : (w.evt e).pend = true :=
    each_inv (Q := fun s => (s.evt e).pend = true) _ _ _ (fun f _ => keeps.wrapAtPartner f fun _ _ _ h => h) h
  clear_value w
  exact each_inv (Q := fun s => (s.evt e).pend = true) _ _ x (fun k _ => keeps.takeFaults k) wrapped

theorem takeRings_twin (s : State) : (takeRings s).twin = { s.twin with
    state := 1, mute := false, leaving := false, ldn := false, tofsBad := 0, transfer := false, segs := [], measure := none
    partnerNeed := 0, partnerSu := false, epoch := s.twin.epoch + 1, takeovers := satInc 65535 s.twin.takeovers
    decisions := [] } := by
  simp only [takeRings, setTwin_twin, each_twin, wrapAtPartner_frame, takeFaults_frame, newEpoch_twin, takeQueues_frame,
    implies_true]

theorem takeRings_event (hs : s.Runs) : ((takeRings s).evt 212).pend = true := takeRings_pend_keeps (newEpoch_pend hs)

theorem takeRings_same (s : State) :
    SameRegisters s (takeRings s) ∧ SameGallery s (takeRings s) ∧ (takeRings s).tb = s.tb := by
  simp only [SameRegisters, SameGallery, takeRings_frame, and_self, implies_true]

/-! Heartbeats (R344 to R346). -/

theorem execHbtSend_sends (hl : s.linkUp = true) (hr : s.hbRuns = true) : execHbtSend s =
    .next (emit (.hbt (hbByte s) (s.twin.epoch.setWidth 8) (~~~(hbByte s ^^^ s.twin.epoch.setWidth 8))) s) :=
  congrArg _ (if_pos (by simp [hr, hl]))

/-- What a good heartbeat leaves to what follows from it: the device's own heartbeats, its state, which only a device strapped E
gives up, and the end of a transfer. -/
theorem goodBeat_twin (h1 : Byte) (s : State) : ∃ out state mute transfer, (goodBeat h1 s).twin = { s.twin with
    hb1 := beat s.twin.hb1, partnerActive := h1.getLsbD 5, partnerHalt := h1.getLsbD 4, partnerInStep := h1.getLsbD 3
    strapErr := h1.toNat / 64 == s.aon.straps.role.val, hbOut := out, state := state, mute := mute, transfer := transfer } ∧
      (s.aon.straps.role ≠ 1 → state = s.twin.state) := by
  have resumed : ∀ u, ∃ o, resumeHb u = setTwin (fun t => { t with hbOut := o }) u := fun u => by
    unfold resumeHb
    split
    · exact ⟨true, rfl⟩
    · exact ⟨u.twin.hbOut, rfl⟩
  have heard : ∀ u, ∃ x m, hearActive u = setTwin (fun t => { t with state := x, mute := m }) u ∧
      (u.aon.straps.role ≠ 1 → x = u.twin.state) := fun u => by
    unfold hearActive
    split
    · next e => exact ⟨3, true, rfl, fun other => absurd e.1 other⟩
    · exact ⟨u.twin.state, u.twin.mute, rfl, fun _ => rfl⟩
  have done : ∀ u, ∃ b, (transferDone u).twin = { u.twin with transfer := b } := fun u => by
    unfold transferDone
    split
    · exact ⟨false, raise_twin _ _ _⟩
    · exact ⟨u.twin.transfer, rfl⟩
  unfold goodBeat
  extract_lets noted
  obtain ⟨o, outs⟩ := resumed noted
  obtain ⟨x, m, states, kept⟩ := heard (setTwin (fun t => { t with hbOut := o }) noted)
  obtain ⟨b, ends⟩ := done (setTwin (fun t => { t with state := x, mute := m }) (setTwin (fun t => { t with hbOut := o }) noted))
  rw [outs, states]
  exact ⟨o, x, m, b, ends, kept⟩

theorem execHbtReceived_good (hp : s.paired = true) (hl : s.linkUp = true) (h1 h2 : Byte) :
    execHbtReceived h1 h2 (~~~(h1 ^^^ h2)) s = .next (goodBeat h1 s) := by
  simp [execHbtReceived, hp, hl]

theorem execHbtReceived_bad {h1 h2 h3 : Byte} (hp : s.paired = true) (hl : s.linkUp = true) (bad : h3 ≠ ~~~(h1 ^^^ h2)) :
    execHbtReceived h1 h2 h3 s = .next (setTwin (fun t => { t with hb1 := { t.hb1 with run := 0 } }) s) := by
  simp [execHbtReceived, hp, hl, bad]

/-! The loss of a path (R345 to R347, R350). -/

theorem lostTakeover_pend_keeps {e : Nat} (h : (s.evt e).pend = true) : ((lostTakeover s).evt e).pend = true := by
  unfold lostTakeover
  split
  · exact takeRings_pend_keeps (newEpoch_pend_keeps h)
  · exact h

theorem lostTakeover_paths (s : State) : (lostTakeover s).twin.hb1 = s.twin.hb1 ∧ (lostTakeover s).twin.hb2 = s.twin.hb2 := by
  unfold lostTakeover
  split
  · simp only [takeRings_twin, and_self]
  · exact ⟨rfl, rfl⟩

theorem lostTakeover_active (h : s.standby = false) : lostTakeover s = s := if_neg (by simp [h])

/-- Path 1 lost, with its event, before what follows from it. -/
def pathOneLost (s : State) : State :=
  raise 210 0 (setTwin (fun t => { t with hb1 := { state := 2, run := 0 }, stepAtLoss := t.state == 2 }) s)

theorem pathOneLost_twin (s : State) :
    (pathOneLost s).twin = { s.twin with hb1 := { state := 2, run := 0 }, stepAtLoss := s.twin.state == 2 } := by
  simp only [pathOneLost, raise_frame, setTwin_twin]

theorem pathOneLost_pend (hs : s.Runs) : ((pathOneLost s).evt 210).pend = true := raise_pend_same _ hs (by decide)

theorem execHb1Lost_demotes (hp : s.paired = true) (up1 : s.twin.hb1.state = 1) (active : s.twin.state = 1)
    (up2 : s.twin.hb2.state = 1) : execHb1Lost s = .next (demoteNow (pathOneLost s)) := by
  have both : (pathOneLost s).twin.state = 1 ∧ (pathOneLost s).twin.hb2.state = 1 := by
    simp only [pathOneLost_twin, active, up2, and_self]
  simp only [execHb1Lost, hp, up1, Bool.not_true, Bool.false_eq_true, if_false, ne_eq, not_true_eq_false]
  exact congrArg _ (if_pos both)

theorem execHb1Lost_holds (hp : s.paired = true) (up1 : s.twin.hb1.state = 1)
    (other : ¬ (s.twin.state = 1 ∧ s.twin.hb2.state = 1)) : execHb1Lost s = .next (lostTakeover (pathOneLost s)) := by
  have not_both : ¬ ((pathOneLost s).twin.state = 1 ∧ (pathOneLost s).twin.hb2.state = 1) := by
    simpa only [pathOneLost_twin] using other
  simp only [execHb1Lost, hp, up1, Bool.not_true, Bool.false_eq_true, if_false, ne_eq, not_true_eq_false]
  exact congrArg _ (if_neg not_both)

/-- Path 2 lost, with its event. -/
def pathTwoLost (s : State) : State := raise 211 0 (setTwin (fun t => { t with hb2 := { state := 2, run := 0 } }) s)

theorem pathTwoLost_twin (s : State) : (pathTwoLost s).twin = { s.twin with hb2 := { state := 2, run := 0 } } := by
  simp only [pathTwoLost, raise_frame, setTwin_twin]

theorem pathTwoLost_pend (hs : s.Runs) : ((pathTwoLost s).evt 211).pend = true := raise_pend_same _ hs (by decide)

theorem execHb2Lost_lost (hp : s.paired = true) (up2 : s.twin.hb2.state = 1) :
    execHb2Lost s = .next (lostTakeover (pathTwoLost s)) := by
  simp only [execHb2Lost, hp, up2, Bool.not_true, Bool.false_eq_true, if_false, ne_eq, not_true_eq_false]
  rfl

/-! The link (R334, R350). -/

theorem execTwinLinkChange_on (hp : s.paired = true) (on : s.isOn .links = true) (up : Bool) :
    execTwinLinkChange up s = .next (if up then setTwin (fun t => { t with linkUp := true }) s else linkDown s) := by
  simp [execTwinLinkChange, hp, on]

theorem linkDown_only (s : State) : linkDown s = { s with twin := (linkDown s).twin } := by
  unfold linkDown demoteNow
  dsimp only
  split <;> rfl

theorem linkDown_down (s : State) : (linkDown s).twin.linkUp = false := by
  unfold linkDown demoteNow
  dsimp only
  split <;> rfl

theorem linkDown_demotes (link : s.twin.linkUp = true) (active : s.twin.state = 1) (up1 : s.twin.hb1.state = 1)
    (up2 : s.twin.hb2.state = 1) :
    (linkDown s).twin.state = 3 ∧ (linkDown s).twin.mute = true ∧ (linkDown s).twin.hbOut = false := by
  simp [linkDown, demoteNow, setTwin, link, active, up1, up2]

end Sys2Proof.Machine

open Sys2Proof.Machine in
/-- Settles O49: a heartbeat by what its check finds, and the loss of a path by whether the active then gives up the rings. -/
theorem twinHeartbeats : Obligations.TwinHeartbeats := by
  unfold Obligations.TwinHeartbeats
  intro s hp
  have hs := runs_of_paired hp
  refine ⟨execHbtSend_sends, fun h1 h2 hl => ?good, fun h1 h2 h3 hl bad => ?bad, ?edge, fun up1 => ?one, fun up2 => ?two,
    fun on => ⟨?up, ?down⟩⟩
  case good =>
    have exec := execHbtReceived_good hp hl h1 h2
    have frame := execHbtReceived_frame _ _ _ s _ exec
    obtain ⟨o, x, m, b, twin, kept⟩ := goodBeat_twin h1 s
    refine ⟨_, exec, ?_⟩
    simp only [twin, SameRegisters, SameGallery, frame, and_self, implies_true, true_and, and_true]
    exact kept
  case bad => exact execHbtReceived_bad hp hl bad
  case edge => exact congrArg _ (if_pos hp)
  case one =>
    by_cases both : s.twin.state = 1 ∧ s.twin.hb2.state = 1
    · have exec := execHb1Lost_demotes hp up1 both.1 both.2
      have frame := execHb1Lost_frame s _ exec
      refine ⟨_, exec, ?_, pathOneLost_pend hs, fun _ _ => ⟨rfl, rfl, rfl, rfl⟩, ?_⟩
      · simp only [demoteNow, setTwin_twin, pathOneLost_twin]
      · simp only [SameRegisters, SameGallery, frame, and_self, implies_true]
    · have exec := execHb1Lost_holds hp up1 both
      have frame := execHb1Lost_frame s _ exec
      refine ⟨_, exec, ?_, lostTakeover_pend_keeps (pathOneLost_pend hs), fun active up2 => absurd ⟨active, up2⟩ both, ?_⟩
      · rw [(lostTakeover_paths _).1, pathOneLost_twin]
      · simp only [SameRegisters, SameGallery, frame, and_self, implies_true]
  case two =>
    have exec := execHb2Lost_lost hp up2
    have frame := execHb2Lost_frame s _ exec
    refine ⟨_, exec, ?_, lostTakeover_pend_keeps (pathTwoLost_pend hs), fun active => ?_, ?_⟩
    · rw [(lostTakeover_paths _).2, pathTwoLost_twin]
    · have state : (pathTwoLost s).twin.state = 1 := by rw [pathTwoLost_twin, active]
      rw [lostTakeover_active (standby_of_state state), state]
    · simp only [SameRegisters, SameGallery, frame, and_self, implies_true]
  case up => exact execTwinLinkChange_on hp on true
  case down =>
    exact ⟨_, execTwinLinkChange_on hp on false, linkDown_down s, linkDown_only s, linkDown_demotes⟩

end

section
/-! Takeovers that are forced, demanded or planned (R347 to R351), and the twin's commands (R334 to R338, R362). -/

namespace Sys2Proof.Machine

open Sys2Proof

variable {s : State}

/-! Forced and demanded takeovers (R347). -/

theorem execForce_takes (hp : s.paired = true) (hb : s.standby = true) (gone : s.pathsLost = true ∨ s.pathsNever = true) :
    execForce s = .next (takeRings s) := by
  simp [execForce, forceNow, hp, hb, gone]

theorem execForce_other (hb : s.standby = false) : execForce s = .next s := by
  simp [execForce, forceNow, hb]

theorem execDemReceived_takes (hp : s.paired = true) (hb : s.standby = true) (hl : s.linkUp = true) :
    execDemReceived s = .next (takeRings s) :=
  congrArg _ (if_pos (by simp [hp, hb, hl]))

theorem execDemReceived_other (h : s.standby = false ∨ s.linkUp = false) : execDemReceived s = .next s :=
  congrArg _ (if_neg (by rcases h with h | h <;> simp [h]))

/-! The planned handover (R351). -/

/-- The new active of a planned handover, before its rings turn. -/
def succeeds (s : State) : State :=
  newEpoch (takeQueues (setTwin (fun t => { t with
    state := 1, segs := [], decisions := [], measure := none, partnerNeed := 0, partnerSu := false }) (advanceTo s.dep s)))

theorem execPlannedTakeover_takes (hp : s.paired = true) (ht : s.isOn .timebase = true) (inStep : s.twin.state = 2)
    (first : s.twin.handed = false) : execPlannedTakeover s = .next (each (List.range 9) turnRing (succeeds s)) := by
  simp [execPlannedTakeover, hp, ht, inStep, first, succeeds]

theorem execPlannedTakeover_handed (hp : s.paired = true) (ht : s.isOn .timebase = true) (inStep : s.twin.state = 2)
    (done : s.twin.handed = true) : execPlannedTakeover s = .next (setTwin (fun t => { t with handed := false }) s) := by
  simp [execPlannedTakeover, hp, ht, inStep, done]

theorem execPlannedTakeover_yields {x : Nat} (hp : s.paired = true) (ht : s.isOn .timebase = true) (active : s.twin.state = 1)
    (named : s.twin.lsw = some x) : execPlannedTakeover s = .next (handOver (advanceTo (x - s.lead) s)) := by
  simp [execPlannedTakeover, hp, ht, active, named]

theorem succeeds_twin (s : State) : (succeeds s).twin = { s.twin with
    state := 1, segs := [], decisions := [], measure := none, partnerNeed := 0, partnerSu := false
    epoch := s.twin.epoch + 1, takeovers := satInc 65535 s.twin.takeovers } := by
  simp only [succeeds, newEpoch_twin, takeQueues_frame, setTwin_twin, advanceTo_frame]

theorem succeeds_tb (s : State) : (succeeds s).tb = (advanceTo s.dep s).tb := by
  simp only [succeeds, newEpoch_frame, takeQueues_frame, setTwin_frame]

theorem succeeds_pend (hs : s.Runs) : ((succeeds s).evt 212).pend = true :=
  newEpoch_pend (by simpa only [State.Runs, isOn_congr (s := s), setTwin_frame, takeQueues_frame, advanceTo_frame] using hs)

theorem turnRing_only (f : Nat) (s : State) : turnRing f s = { s with flights := (turnRing f s).flights } := by
  unfold turnRing
  split <;> rfl

theorem each_turnRing_only (l : List Nat) (s : State) :
    each l turnRing s = { s with flights := (each l turnRing s).flights } :=
  each_inv (Q := fun u => u = { s with flights := u.flights }) l turnRing s
    (fun f u hu => (turnRing_only f u).trans (by rw [hu])) rfl

theorem handOver_only (s : State) : handOver s = { s with
    twin := { s.twin with state := 2, epoch := s.twin.epoch + 1, lsw := none, stepMap := 0x3FF#10 }
    flights := (handOver s).flights } :=
  each_turnRing_only _ _

end Sys2Proof.Machine

open Sys2Proof.Machine in
/-- Settles O50: forced and demanded takeovers are one `takeRings`, the planned one what each device of the pair makes of it. -/
theorem twinTakeover : Obligations.TwinTakeover := by
  unfold Obligations.TwinTakeover
  intro s hp taken
  have hs := runs_of_paired hp
  have takes : taken (takeRings s) ∧ (takeRings s).tb = s.tb := by
    obtain ⟨registers, gallery, time⟩ := takeRings_same s
    simp only [taken, takeRings_twin, takeRings_event hs, registers, gallery, time, and_self]
  refine ⟨fun hb => ⟨fun gone => ⟨_, execForce_takes hp hb gone, takes⟩,
    fun hl => ⟨_, execDemReceived_takes hp hb hl, takes⟩, fun inStep first ht => ?planned⟩, execForce_other, execDemReceived_other,
    fun inStep done ht => execPlannedTakeover_handed hp ht inStep done, fun x active named ht => ?yields⟩
  case planned =>
    have exec := execPlannedTakeover_takes hp ht inStep first
    have frame := execPlannedTakeover_frame s _ exec
    have twin : (each (List.range 9) turnRing (succeeds s)).twin = (succeeds s).twin := by
      simp only [each_twin, turnRing_frame, implies_true]
    have events : (each (List.range 9) turnRing (succeeds s)).events = (succeeds s).events := by
      simp only [each_events, turnRing_frame, implies_true]
    have pend : ((each (List.range 9) turnRing (succeeds s)).evt 212).pend = true := by
      simpa only [State.evt, events] using succeeds_pend hs
    refine ⟨_, exec, ?_, by simp only [each_tb, turnRing_frame, succeeds_tb, implies_true]⟩
    simp only [taken, twin, succeeds_twin, pend, SameRegisters, SameGallery, frame, and_self, implies_true]
  case yields =>
    have exec := execPlannedTakeover_yields hp ht active named
    refine ⟨_, exec, ?_, ?_, ?_⟩
    · rw [handOver_only]
      simp only [advanceTo_frame]
    · rw [handOver_only]
    · rw [handOver_only, advanceTo_eq]

end

section
/-! The twin's commands (R335, R351, R362, R517), a standby's report (R340, R406) and the commands its active forwards (R337, R473). -/

namespace Sys2Proof.Machine

open Sys2Proof

variable {s : State}

/-! DEMOTE and REJOIN (R351, R362). -/

theorem execTwinStatus_reports (hs : s.Runs) : execTwinStatus [] s =
    .next (reply .ok [twinStatus s, twinEpoch s, twinTofs s, s.reg 0x50000] s) :=
  congrArg _ (command_runs hs _ rfl)

theorem execDemote_names (hs : s.Runs) (active : s.twin.state = 1) (hl : s.linkUp = true) (inStep : s.twin.partnerInStep = true) :
    let l := s.landingFrom (s.now + 2 * s.grid.tc)
    execDemote [] s =
      .next (reply .ok (landRef l.1 (s.seqOf l.2) false) (setTwin (fun t => { t with lsw := some l.1 }) s)) := by
  simp [execDemote, command_run _ s hs, active, hl, inStep]

theorem execDemote_refused (hs : s.Runs) (no : s.twin.state ≠ 1 ∨ s.linkUp = false ∨ s.twin.partnerInStep = false) :
    execDemote [] s = .next (refuse .state s) := by
  simp [execDemote, command_run _ s hs, or_assoc, no]

theorem rejoinRefused_eq_false : rejoinRefused s = false ↔ s.twin.state = 1 ∧ s.linkUp = true ∧ s.twin.hb1.state = 1 ∧
    s.twin.hb2.state = 1 ∧ s.twin.partnerInStep = false ∧ s.twin.partnerActive = false ∧ s.twin.transfer = false ∧
      s.twin.partnerInfo = some s.info := by
  simp [rejoinRefused, and_assoc]

theorem execRejoin_starts (hs : s.Runs) (fit : rejoinRefused s = false) : execRejoin [] s =
    .next (reply .ok [] (setTwin (fun t => { t with transfer := true, units := 0 }) s)) := by
  simp [execRejoin, command_run _ s hs, fit]

theorem execRejoin_refused (hs : s.Runs) (unfit : rejoinRefused s = true) : execRejoin [] s = .next (refuse .state s) := by
  simp [execRejoin, command_run _ s hs, unfit]

theorem execRejoinTimeout_ends (hp : s.paired = true) : execRejoinTimeout s = .next { s with twin :=
    if s.twin.state = 4 then { s.twin with state := 3 } else { s.twin with transfer := false } } := by
  simp only [execRejoinTimeout, hp, Bool.not_true, Bool.false_eq_true, if_false]
  split <;> rfl

/-! A standby's report, and the commands forwarded to a standby. -/

theorem execReleasableReport_kept (x : StandbyReport) (hp : s.paired = true) (hl : s.linkUp = true) : execReleasableReport x s =
    .next (setTwin (fun t => { t with
      partnerReleasable := x.releasable, partnerNeed := x.need, partnerInfo := some x.info, partnerSu := x.suUp }) s) :=
  congrArg _ (if_pos (by simp [hp, hl]))

/-- A command that the active has forwarded, as it waits at its standby. -/
def forwarded (q : Fin 64) (tag : FwdTag) (op : Byte) (w : List Word) (a : Nat) (s : State) : Fwd :=
  { queue := q, seq := tag.seq, op := op, words := w, at_ := near40 a s, note := tag.note }

theorem execForwardedCommand_waits (q : Fin 64) (tag : FwdTag) (op : Byte) (w : List Word) (a : Nat) (hp : s.paired = true)
    (hl : s.linkUp = true) (hb : s.standby = true) : execForwardedCommand q tag op w a s =
      .next (setTwin (fun t => { t with fwd := t.fwd ++ [forwarded q tag op w a s] }) (noteForwarded q tag.seq tag.note s)) :=
  congrArg _ (if_neg (by simp [hp, hl, hb]))

theorem noteForwarded_only (q : Fin 64) (seq : Word) (note : Option (BitVec 16 × Word)) (s : State) :
    noteForwarded q seq note s = { s with host := (noteForwarded q seq note s).host } := by
  cases note <;> rfl

theorem noteForwarded_queue_same (q : Fin 64) (seq : Word) (tag : BitVec 16) (crc : Word) (s : State) :
    (noteForwarded q seq (some (tag, crc)) s).queue q.val = { s.queue q.val with
      fwdExpect := some (seq + 1)
      fwdRecent := ({ seq := seq, tag := tag, crc := crc } :: (s.queue q.val).fwdRecent).take 8 } :=
  setQueue_queue_same _ _ _ q.isLt

theorem noteForwarded_queue_ne {q : Fin 64} {m : Nat} (h : m ≠ q.val) (seq : Word) (note : Option (BitVec 16 × Word)) (s : State) :
    (noteForwarded q seq note s).queue m = s.queue m := by
  cases note with
  | none => rfl
  | some n => exact setQueue_queue_ne _ _ _ _ h.symm

/-! Apply instants (R337). -/

theorem earliest_eq_none {l : List Fwd} (h : earliest l = none) : l = [] := by
  cases l with
  | nil => rfl
  | cons f r =>
    rw [earliest] at h
    split at h
    · split at h <;> cases h
    · cases h

/-- The command chosen is one of those that wait, and none of them comes before it. -/
theorem earliest_least {l r : List Fwd} {f : Fwd} (h : earliest l = some (f, r)) : (∀ g ∈ l, f.at_ ≤ g.at_) ∧ f ∈ l := by
  induction l generalizing f r with
  | nil => cases h
  | cons x l ih =>
    rw [earliest] at h
    split at h
    · next g t rest =>
      obtain ⟨least, mem⟩ := ih rest
      split at h
      · next sooner =>
        obtain ⟨rfl, -⟩ := Prod.mk.inj (Option.some.inj h)
        exact ⟨List.forall_mem_cons.mpr ⟨sooner.le, least⟩, List.mem_cons_of_mem _ mem⟩
      · next later =>
        obtain ⟨rfl, -⟩ := Prod.mk.inj (Option.some.inj h)
        exact ⟨List.forall_mem_cons.mpr ⟨le_rfl, fun y hy => (Nat.le_of_not_lt later).trans (least y hy)⟩,
          List.mem_cons_self ..⟩
    · next none =>
      obtain ⟨rfl, -⟩ := Prod.mk.inj (Option.some.inj h)
      rw [earliest_eq_none none]
      exact ⟨by simp, List.mem_cons_self ..⟩

/-- A forwarded NOP as it runs at a standby: it leaves the queue with its apply instant. -/
def nopApplied (f : Fwd) (r : List Fwd) (s : State) : State :=
  noteDone f (refuse .ok { advanceTo f.at_ (setTwin (fun t => { t with fwd := r }) s) with reply := none })

theorem execPairApplyInstant_nop {f : Fwd} {r : List Fwd} (hp : s.paired = true) (first : earliest s.twin.fwd = some (f, r))
    (own : f.pkt = none) (nop : f.op = 0) (empty : f.words = []) : execPairApplyInstant s = .next (nopApplied f r s) := by
  have runs : ∀ u : State, u.Runs → runForwarded f u = refuse .ok u := fun u hu => by
    have op : runOp f.op f.queue f.words u = refuse .ok u := by
      simp only [nop, empty, runOp, runSystem, execNop_on (w := []) hu (Nat.zero_le 1)]
      rfl
    simpa [runForwarded, nop] using op
  have on : State.Runs { advanceTo f.at_ (setTwin (fun t => { t with fwd := r }) s) with reply := none } :=
    (isOn_congr (by simp only [advanceTo_frame, setTwin_frame]) _).trans (runs_of_paired hp)
  simp only [execPairApplyInstant, hp, first, own, Bool.not_true, Bool.false_eq_true, if_false, runs _ on, nopApplied]

theorem advanceTo_setTwin_tb (n : Nat) (g : Twin → Twin) (s : State) : (advanceTo n (setTwin g s)).tb = (advanceTo n s).tb := by
  unfold advanceTo
  simp only [apply_ite State.tb]
  rfl

end Sys2Proof.Machine

open Sys2Proof.Machine in
/-- Settles O51, command by command: DEMOTE and REJOIN by what refuses them, forwarded commands as they wait and leave. -/
theorem twinCommands : Obligations.TwinCommands := by
  unfold Obligations.TwinCommands
  intro s hp
  have hs := runs_of_paired hp
  refine ⟨execTwinStatus_reports hs, execDemote_names hs, execDemote_refused hs,
    ⟨fun fit => execRejoin_starts hs (rejoinRefused_eq_false.mpr fit), fun unfit => ?unfit⟩, execRejoinTimeout_ends hp,
    fun x hl => execReleasableReport_kept x hp hl, fun q seq note op w a hl hb => ?forwarded, fun f r first => ?applied⟩
  case unfit => exact execRejoin_refused hs (Bool.eq_true_of_not_eq_false fun fit => unfit (rejoinRefused_eq_false.mp fit))
  case forwarded =>
    refine ⟨_, execForwardedCommand_waits q ⟨seq, note⟩ op w a hp hl hb, fun none => ?_, fun tag crc some => ?_,
      fun m other => noteForwarded_queue_ne other seq note s, ?_, ?_⟩
    · subst none
      rfl
    · subst some
      exact noteForwarded_queue_same q seq tag crc s
    · simp only [setTwin_twin, noteForwarded_frame, forwarded]
    · rw [noteForwarded_only]
      rfl
  case applied =>
    obtain ⟨least, mem⟩ := earliest_least first
    refine ⟨least, mem, fun own nop empty => ⟨_, execPairApplyInstant_nop hp first own nop empty, ?_⟩⟩
    simp only [nopApplied, noteDone_frame, refuse_frame, advanceTo_frame, setTwin_twin, setTwin_frame, advanceTo_setTwin_tb,
      SameRegisters, SameGallery, and_self, implies_true]

end

section
/-! POWER_SET (R442 to R445): what a unit's leaving ON keeps of AON's power state, and how phases 1 and 2 of a sequence go. -/

namespace Sys2Proof.Machine

open Sys2Proof

variable {s t : State} {c d : Nat} {q : PowerSeq}

/-- AON's power state: the domains, the banks, the running sequence and whether a wake is due behind it. -/
def powerParts (s : State) : Vector DomState 10 × Vector DomState 16 × Option PowerSeq × Bool :=
  (s.aon.dom, s.aon.bank, s.aon.seq, s.aon.wakeDue)

theorem powerParts_congr (h : t.aon = s.aon) : powerParts t = powerParts s := by simp only [powerParts, h]

theorem unitSt_congr (dom : t.aon.dom = s.aon.dom) (bank : t.aon.bank = s.aon.bank) (c : Nat) : t.unitSt c = s.unitSt c := by
  simp only [State.unitSt, State.bankSt, dom, bank]

theorem unitSt_of_powerParts (h : powerParts t = powerParts s) (c : Nat) : t.unitSt c = s.unitSt c :=
  unitSt_congr (congrArg (·.1) h) (congrArg (·.2.1) h) c

theorem pwrWords_congr (h : ∀ c, t.unitSt c = s.unitSt c) : [pwrState t, pwrBank t] = [pwrState s, pwrBank s] := by
  simp only [pwrState, pwrBank, h]

/-! What keeps the power state. -/

theorem raise_powerParts (e : Nat) (w : Word) (s : State) : powerParts (raise e w s) = powerParts s := by
  rw [powerParts, raise_aon]
  split <;> rfl

theorem changed_powerParts (c : Nat) (rst : Bool) (s : State) : powerParts (changed c rst s) = powerParts s := raise_powerParts _ _ _

theorem stairDown_powerParts (s : State) : powerParts (stairDown s) = powerParts s := by
  unfold stairDown
  split
  · exact raise_powerParts _ _ _
  · rfl

theorem shed_powerParts (known : d < 9) (keep : Bool) (s : State) : powerParts (shed d keep s) = powerParts s := by
  have dropped : ∀ d, (dropPend (domOf d) (if keep then s else dropCfg (domOf d) s)).aon = s.aon := fun d => by
    cases keep <;> rfl
  have base : ∀ d, powerParts (dropPend (domOf d) (if keep then s else dropCfg (domOf d) s)) = powerParts s :=
    fun d => powerParts_congr (dropped d)
  match d, known with
  | 0, _ => exact base 0
  | 1, _ => exact base 1
  | 2, _ => exact base 2
  | 3, _ => exact (stairDown_powerParts _).trans (powerParts_congr (by simp only [linkDown_frame, dropped]))
  | 4, _ => exact powerParts_congr (by simp only [shed, shedHall_frame, dropped])
  | 5, _ => exact powerParts_congr (by simp only [shed, shedHall_frame, dropped])
  | 6, _ => exact powerParts_congr (by simp only [shed, shedHall_frame, dropped])
  | 7, _ => exact base 7
  | 8, _ => exact powerParts_congr (by simp only [shed, shedNet_frame, dropped])

theorem finish_powerParts (p : Option Pkt) (r : Reply) (s : State) : powerParts (finish p r s) = powerParts s := by
  have sent : ∀ p r s, powerParts (sendReply p r s) = powerParts s := fun p r s => by
    unfold sendReply sendReplyAt
    dsimp only
    split
    · exact powerParts_congr (by simp only [rsPush_frame])
    · split <;> rfl
    · rfl
  cases p with
  | none => rfl
  | some p =>
    change powerParts (answer p r { s with reply := some r }) = _
    unfold answer
    dsimp only
    split
    · exact sent _ _ _
    · split
      · split
        · exact sent _ _ _
        · rfl
      · rfl

theorem finish_reply (p : Option Pkt) (r : Reply) (s : State) : (finish p r s).reply = some r := by
  cases p with
  | none => rfl
  | some p => simp only [finish, answer_frame]

/-! Units. -/

theorem mem_unitCodes : c ∈ unitCodes ↔ c < 10 ∨ 16 ≤ c ∧ c < 32 := by
  simp only [unitCodes, List.mem_append, List.mem_range, List.mem_map]
  constructor
  · rintro (h | ⟨g, hg, rfl⟩) <;> omega
  · rintro (h | h)
    · exact .inl h
    · exact .inr ⟨c - 16, by omega, by omega⟩

theorem setUnit_unitSt_same (hc : c ∈ unitCodes) (x : DomState) (s : State) : (setUnit c x s).unitSt c = x := by
  rcases mem_unitCodes.mp hc with h | h
  · simp [setUnit, State.unitSt, show c < 16 by omega, h]
  · simp [setUnit, State.unitSt, State.bankSt, show ¬ c < 16 by omega, show c - 16 < 16 by omega]

theorem setUnit_unitSt_ne (h : d ≠ c) (x : DomState) (s : State) : (setUnit c x s).unitSt d = s.unitSt d := by
  unfold setUnit State.unitSt State.bankSt
  by_cases hc : c < 16 <;> by_cases hd : d < 16 <;> simp only [hc, hd, setAon_aon, if_true, if_false]
  · exact vget_vset_ne _ _ _ _ _ h.symm
  · exact vget_vset_ne _ _ _ _ _ (by omega)

theorem setSeq_unitSt (f : PowerSeq → PowerSeq) (s : State) (c : Nat) : (setSeq f s).unitSt c = s.unitSt c := rfl

theorem setSeq_wakeDue (f : PowerSeq → PowerSeq) (s : State) : (setSeq f s).aon.wakeDue = s.aon.wakeDue := rfl

/-! Phase 1: units that go OFF, none of them NVM (R442). -/

/-- A unit goes OFF. -/
def switchOff (c : Nat) (s : State) : State := (leaveUnit c false s).2

/-- Every unit but those of `l` stays, and those are OFF; the sequence and a wake that is due stay. -/
structure OffOnly (l : List Nat) (s t : State) : Prop where
  off : ∀ c ∈ l, t.unitSt c = .off
  stays : ∀ c, c ∉ l → t.unitSt c = s.unitSt c
  seq : t.aon.seq = s.aon.seq
  wake : t.aon.wakeDue = s.aon.wakeDue

theorem switchOff_only (hc : c ∈ unitCodes) (other : c ≠ 9) (s : State) : OffOnly [c] s (switchOff c s) := by
  have shed : powerParts (if c < 16 then shed c false s else shedBank (c - 16) false s) = powerParts s := by
    split
    · exact shed_powerParts (by have := mem_unitCodes.mp hc; omega) false s
    · exact powerParts_congr (by simp only [shedBank_frame])
  have left : powerParts (switchOff c s) =
      powerParts (setUnit c .off (if c < 16 then Machine.shed c false s else shedBank (c - 16) false s)) := changed_powerParts _ _ _
  generalize (if c < 16 then Machine.shed c false s else shedBank (c - 16) false s) = u at *
  have kept : ∀ v : State, (setUnit c .off v).aon.seq = v.aon.seq ∧ (setUnit c .off v).aon.wakeDue = v.aon.wakeDue := fun v => by
    unfold setUnit
    rw [setAon_aon]
    split <;> exact ⟨rfl, rfl⟩
  refine ⟨fun d hd => ?_, fun d hd => ?_, ?_, ?_⟩
  · rw [List.mem_singleton.mp hd, unitSt_of_powerParts left, setUnit_unitSt_same hc]
  · rw [unitSt_of_powerParts left, setUnit_unitSt_ne (by simpa using hd), unitSt_of_powerParts shed]
  · exact (congrArg (·.2.2.1) left).trans ((kept u).1.trans (congrArg (·.2.2.1) shed))
  · exact (congrArg (·.2.2.2) left).trans ((kept u).2.trans (congrArg (·.2.2.2) shed))

theorem each_switchOff_only {l : List Nat} (hl : ∀ c ∈ l, c ∈ unitCodes ∧ c ≠ 9) (s : State) :
    OffOnly l s (each l switchOff s) := by
  induction l generalizing s with
  | nil => exact ⟨by simp, fun _ _ => rfl, rfl, rfl⟩
  | cons c l ih =>
    have first := switchOff_only (hl c List.mem_cons_self).1 (hl c List.mem_cons_self).2 s
    have rest := ih (fun d hd => hl d (List.mem_cons_of_mem c hd)) (switchOff c s)
    refine ⟨fun d hd => ?_, fun d hd => ?_, rest.seq.trans first.seq, rest.wake.trans first.wake⟩
    · by_cases again : d ∈ l
      · exact rest.off d again
      · exact (rest.stays d again).trans (first.off d (by simpa [again] using hd))
    · rw [List.mem_cons, not_or] at hd
      exact (rest.stays d hd.2).trans (first.stays d (by simpa using hd.1))

theorem leaveAll_off {l : List (Nat × Bool)} (hl : ∀ x ∈ l, x.2 = false) (s : State) :
    leaveAll l s = bringUp (setSeq (fun q => { q with leave := [] }) (each (l.map (·.1)) switchOff s)) := by
  induction l generalizing s with
  | nil => rfl
  | cons x l ih =>
    have off : x.2 = false := hl x List.mem_cons_self
    rw [leaveAll, off]
    exact ih (fun y hy => hl y (List.mem_cons_of_mem x hy)) _

/-! The end of a sequence that brings nothing ON. -/

theorem stepsFor_none (h : q.bring = []) (s : State) : stepsFor q s = [] := by
  simp [stepsFor, h]

theorem wakeNext_none (h : s.aon.wakeDue = false) : wakeNext s = s := if_neg (by simp [h])

/-- The sequence is over, and AON's oscillator and the bucks follow the units. -/
def sequenceOver (s : State) : State := aonIdle (setAon (fun a => { a with seq := none }) s)

theorem sequenceOver_powerParts (s : State) :
    powerParts (sequenceOver s) = (s.aon.dom, s.aon.bank, none, s.aon.wakeDue) := rfl

/-- A POWER_SET that has run and brings nothing ON answers with the power words. -/
theorem bringUp_ends (hq : s.aon.seq = some q) (set : q.kind = .set) (bring : q.bring = []) (arrived : q.arrived = [])
    (ran : q.failed = false) (saved : q.unsaved = []) (wake : s.aon.wakeDue = false) :
    bringUp s = finish q.pkt { status := .ok, words := [pwrState s, pwrBank s] } (sequenceOver s) := by
  have told : seqReply q (sequenceOver s) = finish q.pkt { status := .ok, words := [pwrState s, pwrBank s] } (sequenceOver s) := by
    simp only [seqReply, set, ran, saved, List.isEmpty_nil, if_true, Bool.false_eq_true, if_false,
      pwrWords_congr (unitSt_congr (s := s) (t := sequenceOver s) rfl rfl)]
  have ends : bringUp s = wakeNext (seqReply q (sequenceOver s)) := by
    simp only [bringUp, hq, stepsFor_none bring, List.isEmpty_nil, if_true, seqEnd, arrived, List.reverse_nil]
    rfl
  have wakes := congrArg (·.2.2.2) (finish_powerParts q.pkt { status := .ok, words := [pwrState s, pwrBank s] } (sequenceOver s))
  rw [ends, told, wakeNext_none (wakes.trans wake)]

theorem bringUp_answers (hq : s.aon.seq = some q) (set : q.kind = .set) (bring : q.bring = []) (arrived : q.arrived = [])
    (ran : q.failed = false) (saved : q.unsaved = []) (wake : s.aon.wakeDue = false) :
    (bringUp s).Replies .ok [pwrState (bringUp s), pwrBank (bringUp s)] ∧ (bringUp s).aon.seq = none ∧
      ∀ c, (bringUp s).unitSt c = s.unitSt c := by
  have ends := bringUp_ends hq set bring arrived ran saved wake
  have parts : powerParts (bringUp s) = (s.aon.dom, s.aon.bank, none, s.aon.wakeDue) := by
    rw [ends, finish_powerParts, sequenceOver_powerParts]
  have same : ∀ c, (bringUp s).unitSt c = s.unitSt c := unitSt_congr (congrArg (·.1) parts) (congrArg (·.2.1) parts)
  refine ⟨?_, congrArg (·.2.2.1) parts, same⟩
  rw [State.Replies, pwrWords_congr same, ends, finish_reply]

/-! Phase 2: units that begin to come ON (R447, R450). -/

/-- The units of `l` may have begun to come ON, and the sequence goes on with what it is to bring. -/
structure Begins (l : List Nat) (s t : State) : Prop where
  units : ∀ c ∈ unitCodes, t.unitSt c = s.unitSt c ∨ c ∈ l ∧ t.unitSt c = .trans
  seq : ∀ q, s.aon.seq = some q → ∃ r, t.aon.seq = some r ∧ r.kind = q.kind ∧ r.bring = q.bring

theorem Begins.refl (l : List Nat) (s : State) : Begins l s s := ⟨fun _ _ => .inl rfl, fun q hq => ⟨q, hq, rfl, rfl⟩⟩

theorem Begins.trans {l : List Nat} {u : State} (h : Begins l s t) (h' : Begins l t u) : Begins l s u where
  units c hc := (h'.units c hc).elim (fun e => e ▸ h.units c hc) .inr
  seq q hq := by
    obtain ⟨r, hr, kind, bring⟩ := h.seq q hq
    obtain ⟨r', hr', kind', bring'⟩ := h'.seq r hr
    exact ⟨r', hr', kind'.trans kind, bring'.trans bring⟩

theorem setSeq_begins (l : List Nat) {f : PowerSeq → PowerSeq} (hf : ∀ q, (f q).kind = q.kind ∧ (f q).bring = q.bring)
    (s : State) : Begins l s (setSeq f s) where
  units _ _ := .inl rfl
  seq q hq := ⟨f q, by simp [setSeq, hq], (hf q).1, (hf q).2⟩

theorem takeUnit'_begins {l : List Nat} (hl : c ∈ l) (hc : c ∈ unitCodes) (s : State) : Begins l s (takeUnit' c s) := by
  have unit : Begins l s (setUnit c .trans s) := by
    refine ⟨fun d _ => ?_, fun q hq => ⟨q, ?_, rfl, rfl⟩⟩
    · by_cases same : d = c
      · exact .inr ⟨same ▸ hl, same ▸ setUnit_unitSt_same hc _ s⟩
      · exact .inl (setUnit_unitSt_ne same _ s)
    · rw [← hq, setUnit, setAon_aon]
      split <;> rfl
  exact unit.trans (setSeq_begins l (f := fun q => { q with took := q.took ++ [(c, s.unitSt c == .ret)] }) (fun _ => ⟨rfl, rfl⟩) _)

theorem closeBanks_begins (hq : s.aon.seq = some q) (known : ∀ c ∈ q.bring, c ∈ unitCodes) :
    Begins q.bring s (closeBanks s) := by
  simp only [closeBanks, hq]
  refine each_inv_mem (Q := Begins q.bring s) (fun c hc u hu => hu.trans (takeUnit'_begins ?_ (known c ?_) u)) (.refl _ s)
  all_goals exact (List.mem_filter.mp (List.mem_filter.mp hc).1).1

theorem beginStep_begins {r : List Nat} (hq : s.aon.seq = some q) (steps : q.steps = c :: r)
    (known : ∀ c ∈ q.bring, c ∈ unitCodes) (step : c = 4 ∨ 9 ≤ c → stepDom c ∈ q.bring) :
    Begins q.bring s (beginStep s) := by
  have closed : Begins q.bring s (if c = 4 ∨ c = 0 then closeBanks s else s) := by
    split
    · exact closeBanks_begins hq known
    · exact .refl _ s
  simp only [beginStep, hq, steps]
  generalize (if c = 4 ∨ c = 0 then closeBanks s else s) = u at *
  split
  · next named =>
    split
    · exact closed
    · exact closed.trans (takeUnit'_begins (step named) (known _ (step named)) u)
  · exact closed

theorem stepDom_of_mem_stepsFor (hc : c ∈ stepsFor q s) (named : c = 4 ∨ 9 ≤ c) : stepDom c ∈ q.bring := by
  simp only [stepsFor, List.mem_append] at hc
  rcases hc with ((bank | pre) | tb) | own
  · split at bank <;> simp at bank
    omega
  · split at pre
    · have few : c = 1 ∨ c = 2 ∨ c = 3 := by
        revert pre
        cases s.aon.bk0Ok <;> cases s.aon.bk1Ok <;> intro pre <;> simp at pre <;> omega
      omega
    · cases pre
  · split at tb
    · next zero =>
      have four : c = 4 := by simp at tb; omega
      rw [four]
      exact (List.mem_filter.mp (List.contains_iff_mem.mp zero)).1
    · cases tb
  · obtain ⟨d, hd, rfl⟩ := List.mem_map.mp own
    obtain ⟨-, other⟩ := List.mem_filter.mp hd
    rw [Bool.and_eq_true] at other
    rw [stepDom, if_neg (by simp at other; omega), Nat.add_sub_cancel_left]
    exact (List.mem_filter.mp (List.contains_iff_mem.mp other.2)).1

theorem stepsFor_some (hc : c ∈ q.bring) (known : c ∈ unitCodes) (s : State) : stepsFor q s ≠ [] := by
  intro none
  simp only [stepsFor, List.append_eq_nil_iff] at none
  obtain ⟨⟨⟨bank, -⟩, tb⟩, own⟩ := none
  have noTimebase : ¬ (q.bring.filter (· < 16)).contains 0 = true := fun h => by
    rw [if_pos h] at tb
    cases tb
  rcases mem_unitCodes.mp known with h | h
  · have ds : (q.bring.filter (· < 16)).contains c = true :=
      List.contains_iff_mem.mpr (List.mem_filter.mpr ⟨hc, by simp; omega⟩)
    have other : c ≠ 0 := fun zero => noTimebase (zero ▸ ds)
    have mem : c ∈ (List.range 10).filter fun d => d != 0 && (q.bring.filter (· < 16)).contains d :=
      List.mem_filter.mpr ⟨List.mem_range.mpr h, Bool.and_eq_true_iff.mpr ⟨bne_iff_ne.mpr other, ds⟩⟩
    rw [List.map_eq_nil_iff] at own
    rw [own] at mem
    cases mem
  · have banks : q.bring.any (16 ≤ ·) = true := List.any_eq_true.mpr ⟨c, hc, by simpa using h.1⟩
    rw [if_neg (not_or.mpr ⟨noTimebase, by rw [banks]; decide⟩)] at bank
    cases bank

/-! POWER_SET itself (R442, R443). -/

variable {w : List Word}

theorem execPowerSet_runs (hb : s.standby = false) (w : List Word) : execPowerSet w s = .next (powerSet w s) :=
  congrArg _ (if_neg (by simp [hb]))

theorem execPowerSet_held (h : s.aon.held = true ∨ s.aon.porHold = true) (w : List Word) : execPowerSet w s = .next s := by
  rcases h with h | h <;> simp [execPowerSet, powerSet, h]

theorem execPowerSet_busy (held : s.aon.held = false) (por : s.aon.porHold = false) (len : w.length = 2)
    (seq : s.aon.seq = some q) : execPowerSet w s = .next (refuse .busy s) := by
  simp [execPowerSet, powerSet, held, por, len, seq]

theorem execPowerSet_refused (held : s.aon.held = false) (por : s.aon.porHold = false) (len : w.length = 2)
    (seq : s.aon.seq = none) (no : powerRefused w s = true) : execPowerSet w s = .next (refuse .state s) := by
  unfold execPowerSet
  dsimp only
  split
  · rfl
  · simp [powerSet, held, por, len, seq, no]

/-- A standby in step changes no domain by a POWER_SET of its own (R338). -/
theorem execPowerSet_standby (held : s.aon.held = false) (por : s.aon.porHold = false) (len : w.length = 2)
    (seq : s.aon.seq = none) (inStep : s.twin.state = 2) (hc : c ∈ unitCodes) (named : target w c < 3)
    (other : stCode (s.unitSt c) ≠ target w c) : execPowerSet w s = .next (refuse .state s) := by
  have changes : (!(leaving w s).isEmpty || unitCodes.any fun c => target w c == 2 && s.unitSt c != .on) = true := by
    by_cases on : target w c = 2
    · rw [Bool.or_eq_true]
      refine .inr (List.any_eq_true.mpr ⟨c, hc, ?_⟩)
      have off : s.unitSt c ≠ .on := fun h => other (by rw [h, on]; rfl)
      simp [on, off]
    · have leaves : c ∈ unitCodes.filter fun c => target w c < 2 && stCode (s.unitSt c) != target w c :=
        List.mem_filter.mpr ⟨hc, by simp [other]; omega⟩
      have some : leaving w s ≠ [] := fun none => by
        rw [leaving, List.map_eq_nil_iff, List.append_eq_nil_iff, List.reverse_eq_nil_iff] at none
        by_cases dom : c < 16
        · exact List.ne_nil_of_mem (List.mem_filter.mpr ⟨leaves, by simpa using dom⟩) none.1
        · exact List.ne_nil_of_mem (List.mem_filter.mpr ⟨leaves, by simpa using dom⟩) none.2
      simp [some]
  exact congrArg _ (if_pos (by simp only [standby_of_state inStep, inStep, changes, len, held, por, seq]; rfl))

theorem powerSet_begins (held : s.aon.held = false) (por : s.aon.porHold = false) (len : w.length = 2)
    (seq : s.aon.seq = none) (yes : powerRefused w s = false) : powerSet w s = powerBegin w s := by
  simp [powerSet, held, por, len, seq, yes]

/-- The sequence of a POWER_SET that takes no hall out of ON. -/
def request (w : List Word) (s : State) : PowerSeq :=
  { kind := .set, leave := leaving w s, pkt := s.host.cur
    bring := unitCodes.filter fun c => target w c == 2 && s.unitSt c != .on }

/-- The command waits for its sequence. -/
def requested (w : List Word) (s : State) : State := wait (setAon (fun a => { a with seq := some (request w s) }) s)

theorem mem_leaving {x : Nat × Bool} (hx : x ∈ leaving w s) :
    x.1 ∈ unitCodes ∧ target w x.1 < 2 ∧ stCode (s.unitSt x.1) ≠ target w x.1 ∧ x.2 = (target w x.1 == 1) := by
  obtain ⟨c, hc, rfl⟩ := List.mem_map.mp hx
  have change : c ∈ unitCodes.filter fun c => target w c < 2 && stCode (s.unitSt c) != target w c := by
    rcases List.mem_append.mp hc with h | h
    · exact (List.mem_filter.mp (List.mem_reverse.mp h)).1
    · exact (List.mem_filter.mp h).1
  simpa [and_assoc] using List.mem_filter.mp change

theorem mem_leaving_of (hc : c ∈ unitCodes) (off : target w c = 0) (other : s.unitSt c ≠ .off) : (c, false) ∈ leaving w s := by
  have differs : stCode (s.unitSt c) ≠ 0 := by
    cases h : s.unitSt c <;> simp_all [stCode]
  have change : c ∈ unitCodes.filter fun c => target w c < 2 && stCode (s.unitSt c) != target w c :=
    List.mem_filter.mpr ⟨hc, by simp [off, differs]⟩
  refine List.mem_map.mpr ⟨c, List.mem_append.mpr ?_, by simp [off]⟩
  by_cases dom : c < 16
  · exact .inl (List.mem_reverse.mpr (List.mem_filter.mpr ⟨change, by simpa using dom⟩))
  · exact .inr (List.mem_filter.mpr ⟨change, by simpa using dom⟩)

theorem powerBegin_noHall (stay : ∀ x ∈ leaving w s, ∀ h < 3, x.1 ≠ 4 + h) : powerBegin w s =
    if (leaving w s).isEmpty then bringUp (requested w s) else journalled (requested w s) := by
  have none : ([0, 1, 2].filter fun h => s.hallOn h && (leaving w s).any fun x => x.1 == 4 + h) = [] :=
    List.filter_eq_nil_iff.mpr fun h hh some => by
      obtain ⟨x, hx, eq⟩ := List.any_eq_true.mp (Bool.and_eq_true_iff.mp some).2
      exact stay x hx h (by simp at hh; omega) (by simpa using eq)
  have idle (f : Nat → State → State) (u : State) : (if s.isOn .nvm then each [] f u else u) = u := ite_self u
  simp only [powerBegin, none, List.flatMap_nil, List.length_nil, List.map_nil, Nat.mul_zero, ite_self, idle]
  rfl

/-- With no hall and not NVM among the units that leave, phase 1 begins at once. -/
theorem journalled_noHall (hq : s.aon.seq = some q) (leaves : q.leave ≠ []) (journal : q.journalWait = 0)
    (waits : q.retWait = []) (steps : q.steps = []) (last : q.lastTrain = false) (saved : q.unsaved = [])
    (stay : ∀ x ∈ q.leave, x.1 ≠ 9 ∧ ∀ h < 3, x.1 ≠ 4 + h) : journalled s = leaveAll q.leave s := by
  have all : (q.leave.filter fun x => !(q.unsaved.flatMap (hallKeeps s.aon.straps.role)).contains x.1) = q.leave := by
    simp [saved]
  have spared : q.sparing s.aon.straps.role = q := by rw [PowerSeq.sparing, all]
  have again : setAon (fun a => { a with seq := some q }) s = s := by rw [← hq]; rfl
  have cells : lastCells q s = [] := List.filter_eq_nil_iff.mpr fun k hk named => by
    obtain ⟨x, hx, eq⟩ := List.any_eq_true.mp (Bool.and_eq_true_iff.mp named).2
    exact (stay x hx).2 (k / 21) (by have := List.mem_range.mp hk; omega) (by simpa using eq)
  have begun : setSeq (fun q => { q with lastTrain := false }) s = s := by
    have same : ({ q with lastTrain := false } : PowerSeq) = q := by rw [← last]
    simp only [setSeq, setAon, hq, Option.map_some, same]
    rw [← hq]
  have noNvm : (q.leave.any fun x => x.1 == 9) = false := List.any_eq_false.mpr fun x hx => by simpa using (stay x hx).1
  simp only [journalled, hq]
  rw [if_neg (by simp [leaves, journal, waits, steps, last]), spared, again, cells]
  simp only [List.isEmpty_nil, if_true, leaveBegin, begun, noNvm, Bool.false_eq_true, if_false]

/-- The sequence of a POWER_SET whose phase 1 is over. -/
def unitsLeft (w : List Word) (s : State) : State :=
  setSeq (fun q => { q with leave := [] }) (each ((leaving w s).map (·.1)) switchOff (requested w s))

theorem powerBegin_unitsLeft (off : ∀ x ∈ leaving w s, x.2 = false)
    (silent : ∀ x ∈ leaving w s, x.1 ≠ 9 ∧ ∀ h < 3, x.1 ≠ 4 + h) : powerBegin w s = bringUp (unitsLeft w s) := by
  rw [powerBegin_noHall fun x hx => (silent x hx).2]
  by_cases stays : leaving w s = []
  · have same : ({ request w s with leave := [] } : PowerSeq) = request w s := by rw [← stays]; rfl
    rw [unitsLeft, stays, List.isEmpty_nil, if_pos rfl, List.map_nil, each, setSeq]
    simp only [requested, wait, setAon, List.foldl_nil, Option.map_some, same]
  · have seq : (requested w s).aon.seq = some (request w s) := rfl
    rw [if_neg (by simpa using stays), unitsLeft, ← leaveAll_off off]
    exact journalled_noHall seq stays rfl rfl rfl rfl rfl silent

/-- A POWER_SET that takes units OFF, none of them a hall or NVM, has run when it is answered. -/
theorem powerBegin_off (wake : s.aon.wakeDue = false) (targets : ∀ c ∈ unitCodes, target w c = 0 ∨ target w c = 3)
    (stay : ∀ c ∈ [4, 5, 6, 9], target w c = 3) :
    (powerBegin w s).Replies .ok [pwrState (powerBegin w s), pwrBank (powerBegin w s)] ∧
      (powerBegin w s).aon.seq = none ∧
      ∀ c ∈ unitCodes, (powerBegin w s).unitSt c = if target w c = 0 then .off else s.unitSt c := by
  have leaves : ∀ x ∈ leaving w s, x.1 ∈ unitCodes ∧ target w x.1 = 0 ∧ x.2 = false := fun x hx => by
    obtain ⟨code, low, -, ret⟩ := mem_leaving hx
    have zero : target w x.1 = 0 := by have := targets _ code; omega
    exact ⟨code, zero, by rw [ret, zero]; rfl⟩
  have silent : ∀ x ∈ leaving w s, x.1 ≠ 9 ∧ ∀ h < 3, x.1 ≠ 4 + h := fun x hx => by
    have zero := (leaves x hx).2.1
    have other : x.1 ∉ [4, 5, 6, 9] := fun mem => by rw [stay _ mem] at zero; cases zero
    simp only [List.mem_cons, List.not_mem_nil, or_false, not_or] at other
    exact ⟨other.2.2.2, fun h hh => by omega⟩
  have bring : (request w s).bring = [] := List.filter_eq_nil_iff.mpr fun c hc on => by
    have two : target w c = 2 := by simpa using (Bool.and_eq_true_iff.mp on).1
    have := targets c hc
    omega
  have only := each_switchOff_only (l := (leaving w s).map (·.1)) (fun c hc => by
    obtain ⟨x, hx, rfl⟩ := List.mem_map.mp hc
    exact ⟨(leaves x hx).1, (silent x hx).1⟩) (requested w s)
  have seq : (unitsLeft w s).aon.seq = some { request w s with leave := [] } := by
    rw [unitsLeft, setSeq, setAon_aon, only.seq]
    rfl
  rw [powerBegin_unitsLeft (fun x hx => (leaves x hx).2.2) silent]
  have noWake : (unitsLeft w s).aon.wakeDue = false := (setSeq_wakeDue _ _).trans (only.wake.trans wake)
  obtain ⟨answers, ended, same⟩ := bringUp_answers seq rfl bring rfl rfl rfl noWake
  refine ⟨answers, ended, fun c hc => ?_⟩
  rw [same, unitsLeft, setSeq_unitSt]
  by_cases mem : c ∈ (leaving w s).map (·.1)
  · obtain ⟨x, hx, rfl⟩ := List.mem_map.mp mem
    rw [only.off _ mem, if_pos (leaves x hx).2.1]
  · have kept : (each ((leaving w s).map (·.1)) switchOff (requested w s)).unitSt c = s.unitSt c := only.stays c mem
    rw [kept]
    split
    · next zero =>
      by_contra other
      exact mem (List.mem_map.mpr ⟨_, mem_leaving_of hc zero other, rfl⟩)
    · rfl

/-- A POWER_SET that only brings units ON has begun to. -/
theorem powerBegin_on (targets : ∀ c ∈ unitCodes, target w c = 2 ∨ target w c = 3) (hc : c ∈ unitCodes) (on : target w c = 2)
    (other : s.unitSt c ≠ .on) : Begins (request w s).bring (requested w s) (powerBegin w s) ∧
      powerBegin w s = { requested w s with aon := (powerBegin w s).aon } := by
  have none : leaving w s = [] := List.eq_nil_iff_forall_not_mem.mpr fun x hx => by
    obtain ⟨code, low, -⟩ := mem_leaving hx
    have := targets _ code
    omega
  have silent : ∀ x ∈ leaving w s, ∀ h < 3, x.1 ≠ 4 + h := fun x hx => absurd (none ▸ hx) List.not_mem_nil
  have known : ∀ d ∈ (request w s).bring, d ∈ unitCodes := fun d hd => (List.mem_filter.mp hd).1
  have named : c ∈ (request w s).bring := List.mem_filter.mpr ⟨hc, by simp [on, other]⟩
  have some : stepsFor (request w s) (requested w s) ≠ [] :=
    stepsFor_some named hc _
  obtain ⟨d, r, steps⟩ := List.exists_cons_of_ne_nil some
  have begun : powerBegin w s = beginStep (setSeq (fun q => { q with steps := d :: r }) (requested w s)) := by
    rw [powerBegin_noHall silent, none, List.isEmpty_nil, if_pos rfl, bringUp]
    simp only [show (requested w s).aon.seq = Option.some (request w s) from rfl, steps, List.isEmpty_cons,
      Bool.false_eq_true, if_false]
  rw [begun]
  constructor
  · exact (setSeq_begins _ (f := fun q => { q with steps := d :: r }) (fun _ => ⟨rfl, rfl⟩) _).trans
      (beginStep_begins (q := { request w s with steps := d :: r }) rfl rfl known
        (stepDom_of_mem_stepsFor (steps ▸ List.mem_cons_self)))
  · have frame := beginStep_frame (setSeq (fun q => { q with steps := d :: r }) (requested w s))
    generalize beginStep (setSeq (fun q => { q with steps := d :: r }) (requested w s)) = t at frame
    cases t
    simpa [State.mk.injEq] using frame

end Sys2Proof.Machine

open Sys2Proof.Machine in
/-- Settles O26: what refuses a POWER_SET, phase 1 of one that takes units OFF, and the first step of one that brings units ON. -/
theorem powerSet : Obligations.PowerSet := by
  unfold Obligations.PowerSet
  refine ⟨fun s w0 w1 held por => ⟨fun seq wake hb yes targets stay => ?off, fun q seq => execPowerSet_busy held por rfl seq,
    execPowerSet_refused held por rfl⟩, fun s w0 w1 held por hb seq yes targets ⟨c, hc, on, other⟩ => ?on,
    fun s w => ⟨fun h => execPowerSet_held h w, fun held por seq inStep len ⟨c, hc, named, other⟩ =>
      execPowerSet_standby held por len seq inStep hc named other⟩⟩
  case off =>
    have exec := execPowerSet_runs hb [w0, w1]
    rw [powerSet_begins held por rfl seq yes] at exec
    exact ⟨_, exec, powerBegin_off wake targets stay⟩
  case on =>
    have exec := execPowerSet_runs hb [w0, w1]
    rw [powerSet_begins held por rfl seq yes] at exec
    obtain ⟨begins, only⟩ := powerBegin_on targets hc on other
    obtain ⟨q, hq, kind, bring⟩ := begins.seq _ rfl
    refine ⟨_, q, exec, ?_, hq, kind, bring, fun d hd => bring ▸ begins.units d hd, ?_⟩
    · rw [only]
      rfl
    · rw [only]
      exact ⟨⟨rfl, rfl⟩, fun _ => rfl, rfl⟩

end

section
/-! What the triggers of the ADC's sequences, the spare slice's takeover and the capture's end leave alone. -/

namespace Sys2Proof.Machine

open Sys2Proof

/-- What events and the state of the measurement keep. -/
structure MeasKeeps (Q : State → Prop) : Prop where
  raise : ∀ e w s, Q s → Q (raise e w s)
  meas : ∀ f s, Q s → Q (setMeas f s)

namespace MeasKeeps

variable {Q : State → Prop} {s : State}

theorem atr {P : Atrium → Prop} (hP : ∀ x c, P x → P { x with cap := c }) : MeasKeeps fun s => P s.atr where
  raise := (DecisionKeeps.atr hP).raise
  meas _ _ h := h

theorem setAdc (hQ : MeasKeeps Q) (n : Nat) (f : AdcSeq → AdcSeq) (h : Q s) : Q (setAdc n f s) := hQ.meas _ _ h

theorem setRes (hQ : MeasKeeps Q) (n e : Nat) (f : ResWord → ResWord) (h : Q s) : Q (setRes n e f s) := hQ.setAdc _ _ h

theorem calFeed (hQ : MeasKeeps Q) (src a : Nat) (v : Int) (clip : Bool) (h : Q s) : Q (calFeed src a v clip s) := by
  have taken : ∀ chan u, Q u → Q (calTake chan 256 v clip u) := fun chan u hu => by
    unfold calTake
    split
    · split
      · exact hQ.meas _ _ hu
      · exact hu
    · exact hu
  refine each_inv _ _ _ (fun m u hu => ?_) h
  dsimp only
  split
  · exact taken _ u hu
  · exact hu

theorem complete (hQ : MeasKeeps Q) (n e : Nat) (c : Conv) (v : BitVec 16) (clip settle test : Bool) (h : Q s) :
    Q (complete n e c v clip settle test s) := by
  unfold Machine.complete
  dsimp only
  refine hQ.calFeed _ _ _ _ ?_
  split
  · exact hQ.raise _ _ _ (hQ.setRes _ _ _ h)
  · exact hQ.setRes _ _ _ h

theorem settleSeq (hQ : MeasKeeps Q) (n : Nat) (h : Q s) : Q (settleSeq n s) :=
  each_inv _ _ _ (fun _ _ hu => each_inv _ _ _ (fun _ _ hv => hQ.complete _ _ _ _ _ _ _ hv) hu) h

theorem dropUnsampled (hQ : MeasKeeps Q) (n t : Nat) (h : Q s) : Q (dropUnsampled n t s) :=
  each_inv _ _ _ (fun _ _ hu => each_inv _ _ _ (fun _ _ hv => hQ.raise _ _ _ (hQ.meas _ _ (hQ.setRes _ _ _ hv))) hu) h

theorem trigger (hQ : MeasKeeps Q) (n t : Nat) (late : Bool) (h : Q s) : Q (trigger n t late s) := by
  unfold Machine.trigger
  split
  · exact h
  · exact hQ.settleSeq _ (hQ.setAdc _ _ (hQ.dropUnsampled _ _ (hQ.settleSeq _ h)))

theorem triggerAll (hQ : MeasKeeps Q) (trig arg t : Nat) (h : Q s) : Q (triggerAll trig arg t s) := by
  refine each_inv _ _ _ (fun n u hu => ?_) h
  dsimp only
  split
  · exact hQ.trigger _ _ _ hu
  · exact hu

theorem takeover (hQ : MeasKeeps Q) (h : Q s) : Q (takeover s) := by
  have parted : ∀ r u, Q (partRole r u s) := fun r u =>
    each_inv _ _ _ (fun _ _ hv => hQ.meas _ _ (hQ.setRes _ _ _ hv)) h
  have failed : ∀ old v, Q v → Q (failUnit old v) := fun old v hv => by
    unfold failUnit
    dsimp only
    split
    · exact hQ.raise _ _ _ (hQ.meas _ _ hv)
    · exact hQ.raise _ _ _ (hQ.meas _ _ (hQ.meas _ _ hv))
  unfold Machine.takeover
  split
  · split
    · dsimp only
      split
      · exact hQ.meas _ _ (failed _ _ (hQ.raise _ _ _ (hQ.meas _ _ (parted _ _))))
      · split
        · exact hQ.meas _ _ (hQ.raise _ _ _ (hQ.meas _ _ (parted _ _)))
        · exact hQ.meas _ _ (hQ.raise _ _ _ (hQ.meas _ _ (parted _ _)))
    · exact h
  · exact h

end MeasKeeps

end Sys2Proof.Machine
end

section
/-! The instants of a period (R57, R107, R199, R200, R221, R352): the sample, the commit point, the keep-alives and the landing. -/

namespace Sys2Proof.Machine

open Sys2Proof

variable {s : State}

/-! The sample instant (R162, R163, R179). -/

theorem hostPoint_writes (x : Nat × F32) (s : State) : (hostPoint x s).atr.writes = s.atr.writes := by
  have ctx : ∀ n g u, (State.setCtx u n g).atr.writes = u.atr.writes := fun n g u => by
    unfold State.setCtx
    split <;> rfl
  unfold hostPoint
  dsimp only
  (repeat' split) <;> simp only [ctx]

/-- What the sample instant leaves: no write waits, and every slot holds what it latched. -/
def Latched (x : Slot) : Prop := x.spUse = x.sp ∧ x.armReady = x.arm.isSome

theorem sample_latched (c : Ctx) (i : Nat) : Latched (c.sample.slot i) := by
  unfold Ctx.slot Ctx.sample vget
  rw [Vector.getElem?_map]
  cases c.slots[i]? with
  | none => exact ⟨rfl, rfl⟩
  | some x => exact ⟨rfl, rfl⟩

/-- The points the host wrote are in their contexts. -/
def hostWritten (s : State) : State := each s.atr.writes hostPoint { s with atr := { s.atr with writes := [] } }

/-- Every context has latched what its period works with. -/
def contextsSampled (s : State) : State :=
  let s := { s with
    treadsOld := s.treads, treads := s.treads.map Ctx.sample
    atr := { s.atr with
      old := atriumAt s s.atr.ctx, ctx := s.atr.ctx.sample, sampled := some s.now
      cap := { s.atr.cap with trigReady := s.atr.cap.trigReq } } }
  { s with atr := { s.atr with inj := s.atr.inj.map (injTick s.ts) } }

theorem hostWritten_writes (s : State) : (hostWritten s).atr.writes = [] :=
  each_keep (fun u : State => u.atr.writes) _ _ _ hostPoint_writes

theorem hostWritten_tb (s : State) : (hostWritten s).tb = s.tb :=
  each_keep (fun u : State => u.tb) _ _ _ fun x u => by simp only [hostPoint_frame]

theorem triggerAll_tb (trig arg t : Nat) (s : State) : (triggerAll trig arg t s).tb = s.tb := by simp only [triggerAll_frame]

theorem triggerAll_treads (trig arg t : Nat) (s : State) : (triggerAll trig arg t s).treads = s.treads := by
  simp only [triggerAll_frame]

theorem triggerAll_sampled {c : Ctx} (trig arg t : Nat) (writes : s.atr.writes = []) (atrium : s.atr.ctx = c) :
    (triggerAll trig arg t s).atr.writes = [] ∧ (triggerAll trig arg t s).atr.ctx = c :=
  (MeasKeeps.atr (P := fun a => a.writes = [] ∧ a.ctx = c) fun _ _ h => h).triggerAll trig arg t ⟨writes, atrium⟩

theorem ctx_latched {t : State} {l : Vector Ctx 63} {c : Ctx} (treads : t.treads = l.map Ctx.sample) (atrium : t.atr.ctx = c.sample)
    {n : Nat} (hn : n < 64) (i : Nat) : Latched ((t.ctx n).slot i) := by
  unfold State.ctx
  split
  · rw [atrium]
    exact sample_latched _ i
  · rw [State.tread, treads, vget_map _ _ {} _ (by omega)]
    exact sample_latched _ i

theorem execSampleInstant_runs (hs : s.Runs) (tb : s.isOn .timebase = true) : execSampleInstant s =
    .next (let u := contextsSampled (hostWritten (advanceTo s.sampleAt s)); triggerAll 3 0 u.sampleAt u) :=
  congrArg _ (if_neg (by simp [show s.isOn .atrium = true from hs, tb]))

theorem execSampleInstant_latches (hs : s.Runs) (tb : s.isOn .timebase = true) : ∃ t, execSampleInstant s = .next t ∧
    t.tb = (advanceTo s.sampleAt s).tb ∧ t.atr.writes = [] ∧ ∀ n < 64, ∀ i, Latched ((t.ctx n).slot i) := by
  refine ⟨_, execSampleInstant_runs hs tb, ?_⟩
  have time := hostWritten_tb (advanceTo s.sampleAt s)
  have writes := hostWritten_writes (advanceTo s.sampleAt s)
  generalize hostWritten (advanceTo s.sampleAt s) = u at *
  obtain ⟨taken, atrium⟩ := triggerAll_sampled (s := contextsSampled u) (c := u.atr.ctx.sample) 3 0
    (contextsSampled u).sampleAt writes rfl
  exact ⟨(triggerAll_tb _ _ _ _).trans time, taken, fun n hn i => ctx_latched (triggerAll_treads _ _ _ _) atrium hn i⟩

/-! The commit point (R206, R220, R222). -/

/-- An armed landing that is due by the coming landing leaves the arm (R221). -/
def takeArmed (g : Grid) : Grid :=
  if g.armed.any fun a => a.1 ≤ g.next then { g with armed := none, snapDue := true } else g

theorem latchedHalls (s : State) : (each [0, 1, 2] latchDab s).tb = s.tb ∧ (each [0, 1, 2] latchDab s).grid = s.grid :=
  ⟨each_keep (fun u : State => u.tb) _ _ _ fun _ _ => rfl, each_keep (fun u : State => u.grid) _ _ _ fun _ _ => rfl⟩

theorem execCommitPoint_grid (hs : s.Runs) (tb : s.isOn .timebase = true) : ∃ t, execCommitPoint s = .next t ∧
    t.tb = (advanceTo (s.dep - 200) s).tb ∧ t.grid = takeArmed s.grid := by
  have runs : ¬ ((!s.isOn .atrium || !s.isOn .timebase) = true) := by simp [show s.isOn .atrium = true from hs, tb]
  unfold execCommitPoint
  rw [if_neg runs]
  extract_lets u due g v w
  have grid : u.grid = s.grid := by simp only [u, advanceTo_frame]
  have snapped : v.tb = u.tb ∧ v.grid = takeArmed u.grid := by
    clear_value u
    unfold v due g takeArmed
    cases u.grid.armed with
    | none => exact ⟨rfl, rfl⟩
    | some a => by_cases now : a.1 ≤ u.grid.next <;> simp [now]
  have time : w.tb = u.tb := (latchedHalls v).1.trans snapped.1
  have taken : w.grid = takeArmed s.grid := (latchedHalls v).2.trans (snapped.2.trans (congrArg takeArmed grid))
  exact ⟨_, rfl, time, taken⟩

theorem execCommitPoint_arms (hs : s.Runs) (tb : s.isOn .timebase = true) : ∃ t, execCommitPoint s = .next t ∧
    t.tb = (advanceTo (s.dep - 200) s).tb ∧
    (∀ a b, s.grid.armed = some (a, b) → a ≤ s.grid.next → t.grid.armed = none ∧ t.grid.snapDue = true) ∧
    (∀ a b, s.grid.armed = some (a, b) → s.grid.next < a → t.grid = s.grid) ∧ (s.grid.armed = none → t.grid = s.grid) ∧
    t = { s with tb := t.tb, grid := t.grid, cells := t.cells, halls := t.halls } := by
  obtain ⟨t, exec, time, grid⟩ := execCommitPoint_grid hs tb
  refine ⟨t, exec, time, fun a b armed due => ?_, fun a b armed later => ?_, fun armed => ?_, ?_⟩
  · simp [grid, takeArmed, armed, due]
  · simp [grid, takeArmed, armed, Nat.not_le.mpr later]
  · simp [grid, takeArmed, armed]
  · have frame := execCommitPoint_frame s t exec
    clear exec time grid
    cases t
    simpa using frame

/-! Keep-alives (R200, R352). -/

/-- Nothing a keep-alive does not carry has changed: the causes, and what each cell is doing. -/
structure Stands (s t : State) : Prop where
  safe : t.safe = s.safe
  cell : ∀ k, (t.cell k).mode = (s.cell k).mode ∧ (t.cell k).req = (s.cell k).req ∧ (t.cell k).stage = (s.cell k).stage

namespace Stands

variable {t u : State}

theorem of_same (safe : t.safe = s.safe) (cells : t.cells = s.cells) : Stands s t :=
  ⟨safe, fun k => by simp only [State.cell, cells, and_self]⟩

theorem refl (s : State) : Stands s s := of_same rfl rfl

theorem trans (h : Stands s t) (h' : Stands t u) : Stands s u where
  safe := h'.safe.trans h.safe
  cell k :=
    have ⟨mode, req, stage⟩ := h.cell k
    have ⟨mode', req', stage'⟩ := h'.cell k
    ⟨mode'.trans mode, req'.trans req, stage'.trans stage⟩

theorem setCell {g : Cell → Cell} (hg : ∀ c, (g c).mode = c.mode ∧ (g c).req = c.req ∧ (g c).stage = c.stage) (k : Nat)
    (s : State) : Stands s (s.setCell k g) where
  safe := rfl
  cell j := by
    rcases vget_vmod_or s.cells k j g {} with e | e <;> simp only [State.cell, State.setCell, e, and_self]
    exact hg _

theorem each {α : Type} {f : α → State → State} (hf : ∀ x u, Stands u (f x u)) (l : List α) (s : State) :
    Stands s (each l f s) :=
  each_inv (Q := Stands s) _ _ _ (fun x u h => h.trans (hf x u)) (refl s)

theorem turnDirs (f : Nat) (s : State) : Stands s (turnDirs f s) := by
  refine each (fun (r : Route) u => each (fun j v => ?_) r.pos u) _ s
  dsimp only
  have turned : Stands v (v.setCell (7 * f + j) fun c => { c with dir := some r.west }) :=
    setCell (by exact fun _ => ⟨rfl, rfl, rfl⟩) _ v
  split
  · exact turned.trans (of_same rfl rfl)
  · exact turned

theorem switchRoute (dep land f : Nat) (s : State) : Stands s (switchRoute dep land f s) := by
  unfold Machine.switchRoute
  refine trans ?_ (turnDirs f _)
  split
  · exact of_same rfl rfl
  · split
    · exact of_same rfl rfl
    · exact refl s

theorem keepAliveRoute (t f : Nat) (r : Route) (s : State) : Stands s (keepAliveRoute t f r s) := by
  unfold Machine.keepAliveRoute
  extract_lets h js xs fr u v
  have carried : Stands s u := each (fun x w => setCell (by exact fun _ => ⟨rfl, rfl, rfl⟩) _ w) xs s
  have noted : Stands u v := of_same (by simp [v]) (by simp [v])
  exact (carried.trans noted).trans (of_same (by simp only [depart_frame]) (by simp only [depart_frame]))

theorem keepAliveFlight (t f : Nat) (s : State) : Stands s (keepAliveFlight t f s) := by
  have cleared : Stands s (s.setFlight f fun x => { x with heads := [], carried := [] }) := of_same rfl rfl
  have sent := cleared.trans (each (keepAliveRoute t f) (routes f s) _)
  unfold Machine.keepAliveFlight
  refine sent.trans (of_same ?_ ?_) <;> simp only [rerouteDone_frame]

end Stands

/-- The next keep-alive is counted, and a device that gives up the rings has fallen silent. -/
def keepAliveDue (s : State) : State :=
  let k := s.grid.now + (s.grid.keepAlive + 1) * s.grid.tc / parts s.grid.tc
  let u := quiet (advanceTo (k - s.lead) s)
  { u with grid := { u.grid with keepAlive := s.grid.keepAlive + 1 } }

/-- The keep-alive trains for `k` of the rings that run. -/
def keepAliveTrains (k dep : Nat) (s : State) : State :=
  let s := each ((List.range 9).filter s.ringUp) (switchRoute dep k) s
  each s.running (keepAliveFlight k) s

theorem execKeepAliveDeparture_runs (hs : s.Runs) (tb : s.isOn .timebase = true) (more : s.grid.keepAlive + 1 < parts s.grid.tc) :
    let k := s.grid.now + (s.grid.keepAlive + 1) * s.grid.tc / parts s.grid.tc
    execKeepAliveDeparture s = .next (keepAliveTrains k (k - (keepAliveDue s).lead) (keepAliveDue s)) :=
  congrArg _ (if_neg (by simp [show s.isOn .atrium = true from hs, tb, more]))

theorem keepAliveDue_time (s : State) : (keepAliveDue s).tb =
      (advanceTo (s.grid.now + (s.grid.keepAlive + 1) * s.grid.tc / parts s.grid.tc - s.lead) s).tb ∧
    (keepAliveDue s).grid = { s.grid with keepAlive := s.grid.keepAlive + 1 } := by
  simp [keepAliveDue]

theorem keepAliveDue_stands (s : State) : Stands s (keepAliveDue s) :=
  .of_same (by simp [keepAliveDue]) (by simp [keepAliveDue])

/-- A device that gives up the rings, or has, is mute from the departure on. -/
theorem keepAliveDue_mute (h : s.twin.leaving = true ∨ s.twin.mute = true) :
    (keepAliveDue s).twin.mute = true ∧ (keepAliveDue s).out = s.out ∧ (keepAliveDue s).flights = s.flights := by
  have gone : ∀ u : State, u.twin = s.twin → (quiet u).twin.mute = true := fun u hu => by
    unfold quiet
    split
    · rfl
    · next stays => exact hu ▸ h.resolve_left (hu ▸ stays)
  exact ⟨gone _ (by simp only [advanceTo_frame]), by simp [keepAliveDue], by simp [keepAliveDue]⟩

theorem keepAliveTrains_mute (k dep : Nat) (mute : s.twin.mute = true) : keepAliveTrains k dep s = s := by
  have silent : ∀ f, s.ringUp f = false := fun f => by simp [State.ringUp, mute]
  have off : (List.range 9).filter s.ringUp = [] := List.filter_eq_nil_iff.mpr fun f _ => by simp [silent]
  have still : s.running = [] := List.filter_eq_nil_iff.mpr fun f _ => by simp [silent]
  simp only [keepAliveTrains, off, each, List.foldl_nil, still]

theorem keepAliveTrains_stands (k dep : Nat) (s : State) : Stands s (keepAliveTrains k dep s) :=
  (Stands.each (Stands.switchRoute dep k) _ s).trans (Stands.each (Stands.keepAliveFlight k) _ _)

theorem keepAliveTrains_time (k dep : Nat) (s : State) :
    (keepAliveTrains k dep s).tb = s.tb ∧ (keepAliveTrains k dep s).grid = s.grid := by
  have keeps : ∀ {β} (get : State → β), (∀ f u, get (switchRoute dep k f u) = get u) →
      (∀ f u, get (keepAliveFlight k f u) = get u) → get (keepAliveTrains k dep s) = get s := fun get route train =>
    (each_keep get _ _ _ train).trans (each_keep get _ _ _ route)
  constructor
  · exact keeps (fun u => u.tb) (fun f u => by simp only [switchRoute_frame]) (fun f u => by simp only [keepAliveFlight_frame])
  · exact keeps (fun u => u.grid) (fun f u => by simp only [switchRoute_frame]) (fun f u => by simp only [keepAliveFlight_frame])

theorem execKeepAliveDeparture_counts (hs : s.Runs) (tb : s.isOn .timebase = true)
    (more : s.grid.keepAlive + 1 < parts s.grid.tc) : ∃ t, execKeepAliveDeparture s = .next t ∧
      t.grid = { s.grid with keepAlive := s.grid.keepAlive + 1 } ∧
      t.tb = (advanceTo (s.grid.now + (s.grid.keepAlive + 1) * s.grid.tc / parts s.grid.tc - s.lead) s).tb ∧
      (s.twin.leaving = true ∨ s.twin.mute = true → t.out = s.out ∧ t.twin.mute = true ∧ t.flights = s.flights) ∧
      Stands s t := by
  obtain ⟨time, grid⟩ := keepAliveDue_time s
  refine ⟨_, execKeepAliveDeparture_runs hs tb more, (keepAliveTrains_time _ _ _).2.trans grid,
    (keepAliveTrains_time _ _ _).1.trans time, fun silent => ?_, (keepAliveDue_stands s).trans (keepAliveTrains_stands _ _ _)⟩
  obtain ⟨mute, out, flights⟩ := keepAliveDue_mute silent
  rw [keepAliveTrains_mute _ _ mute]
  exact ⟨out, mute, flights⟩

end Sys2Proof.Machine
end

section
/-! The landing (R106, R107, R249): what starts afresh with the new period stands through the rest of it. -/

namespace Sys2Proof.Machine

open Sys2Proof

/-- A period has begun at time base `b` on grid `g`: no loop has run in it. -/
structure Landed (b : TimeBase) (g : Grid) (s : State) : Prop where
  tb : s.tb = b
  grid : s.grid = g
  started : s.atr.started = false
  loops : ∀ f, (s.flight f).loopsDone = false

namespace Landed

variable {b : TimeBase} {g : Grid} {s t : State}

theorem congr (h : Landed b g s) (tb : t.tb = s.tb) (grid : t.grid = s.grid) (atr : t.atr.started = s.atr.started)
    (flights : t.flights = s.flights) : Landed b g t where
  tb := tb.trans h.tb
  grid := grid.trans h.grid
  started := atr.trans h.started
  loops f := by
    rw [State.flight, flights]
    exact h.loops f

theorem setFlight (h : Landed b g s) (f : Nat) {p : Flight → Flight} (hp : ∀ x, (p x).loopsDone = x.loopsDone) :
    Landed b g (s.setFlight f p) where
  tb := h.tb
  grid := h.grid
  started := h.started
  loops k := setFlight_keeps (P := fun x => x.loopsDone = false) f (fun x hx => (hp x).trans hx) (h.loops k)

theorem raise (e : Nat) (w : Word) (h : Landed b g s) : Landed b g (raise e w s) := by
  refine h.congr ?_ ?_ ?_ ?_
  · simp only [raise_frame]
  · simp only [raise_frame]
  · rw [raise_atr_frame]
  · simp only [raise_frame]

theorem decisionKeeps (b : TimeBase) (g : Grid) : DecisionKeeps (Landed b g) where
  emit _ _ h := h.congr rfl rfl rfl rfl
  raise e w _ h := h.raise e w
  log e k y w v _ h := logRecord_keeps (fun e w _ h => raise e w h) (fun _ _ h => h.congr rfl rfl rfl rfl)
    (fun _ _ h => h.congr rfl rfl rfl rfl) e k y w v h
  safe _ _ h := h.congr rfl rfl rfl rfl
  cell _ _ _ _ h := h.congr rfl rfl rfl rfl
  ends _ h := h.congr rfl rfl rfl rfl
  remap f _ _ h := h.setFlight f fun _ => rfl
  short _ _ _ h := h.congr rfl rfl rfl rfl

theorem measKeeps (b : TimeBase) (g : Grid) : MeasKeeps (Landed b g) where
  raise e w _ h := h.raise e w
  meas _ _ h := h.congr rfl rfl rfl rfl

theorem freshPeriod (s : State) : Landed s.tb s.grid (freshPeriod s) where
  tb := rfl
  grid := rfl
  started := rfl
  loops f := by
    by_cases hf : f < 9
    · rw [State.flight, Machine.freshPeriod, vget_map _ _ {} _ hf]
    · simp [State.flight, vget, Nat.not_lt.mp hf]

theorem tcChanged (same : Prop) [Decidable same] (h : Landed b g s) : Landed b g (if same then s else capTcChange s) := by
  have ended : Landed b g (captureEnd true s) := raise _ _ (h.congr rfl rfl rfl rfl)
  unfold capTcChange
  (repeat' split) <;> assumption

theorem injGuard (n : Nat) (h : Landed b g s) : Landed b g (injGuard n s) := by
  have stopped : Landed b g (injStop n true s) := raise _ _ (h.congr rfl rfl rfl rfl)
  unfold Machine.injGuard
  dsimp only
  split
  · exact stopped
  · exact h

theorem unwrapLanding (f : Nat) (h : Landed b g s) : Landed b g (unwrapLanding f s) := by
  unfold Machine.unwrapLanding
  split
  · split
    · exact raise _ _ (h.setFlight f fun _ => rfl)
    · exact h
  · exact h

theorem shortfallStep (k : Nat) (h : Landed b g s) : Landed b g (shortfallStep k s) := by
  unfold Machine.shortfallStep
  dsimp only
  split
  · split
    · exact h.congr rfl rfl rfl rfl
    · exact h
  · split
    · exact (decisionKeeps b g).shortfall k h
    · exact h

theorem told (n : Nat) (h : Landed b g s) : Landed b g (linkOrder n (reportReleasable (transferStep s))) := by
  refine h.congr ?_ ?_ ?_ ?_ <;> simp only [linkOrder_frame, reportReleasable_frame, transferStep_frame]

end Landed

variable {s : State}

/-- The period that begins at the coming landing (R57, R106). -/
structure Rolls (s t : State) : Prop where
  now : t.grid.now = s.grid.next
  next : t.grid.next = (s.landingFrom (s.grid.next + 1)).1
  seq : t.grid.seq = s.grid.seq + 1
  keepAlive : t.grid.keepAlive = 0
  snapDue : t.grid.snapDue = false

theorem rollGrid_rolls (s : State) : Rolls s (rollGrid s) := ⟨rfl, rfl, rfl, rfl, rfl⟩

theorem Rolls.congr {t u v : State} (h : Rolls u v) (before : u.grid = s.grid) (after : t.grid = v.grid) : Rolls s t := by
  have first : u.landingFrom = s.landingFrom := by
    funext x
    simp only [State.landingFrom, before]
  exact ⟨by rw [after, h.now, before], by rw [after, h.next, first, before], by rw [after, h.seq, before],
    by rw [after, h.keepAlive], by rw [after, h.snapDue]⟩

/-- The landing's own part, once time has reached it: modes, levels and the cells' stages take what lands. -/
def levelsLanded (s : State) : State :=
  let u := each [0, 1, 2] landMode (each (s.strings.filter s.strOn) landString s)
  each ((List.range 63).filter fun k => u.installed k && u.hallOn (k / 21)) (stageCell s.nextLen) u

theorem levelsLanded_keep {β : Type} (get : State → β) (string : ∀ h u, get (landString h u) = get u)
    (mode : ∀ h u, get (landMode h u) = get u) (cell : ∀ len k u, get (stageCell len k u) = get u) (s : State) :
    get (levelsLanded s) = get s :=
  (each_keep get _ _ _ (cell _)).trans ((each_keep get _ _ _ mode).trans (each_keep get _ _ _ string))

theorem levelsLanded_time (s : State) : (levelsLanded s).tb = s.tb ∧ (levelsLanded s).grid = s.grid := by
  constructor
  · exact levelsLanded_keep (fun u => u.tb) (fun h u => by simp only [landString_frame]) (fun _ _ => rfl) (fun _ _ _ => rfl) s
  · exact levelsLanded_keep (fun u => u.grid) (fun h u => by simp only [landString_frame]) (fun _ _ => rfl) (fun _ _ _ => rfl) s

theorem execLanding_lands (hs : s.Runs) (tb : s.isOn .timebase = true) : ∃ t, execLanding s = .next t ∧
    Landed (advanceTo s.grid.next s).tb (rollGrid (ssbLanded (levelsLanded (advanceTo s.grid.next s)))).grid t := by
  unfold execLanding
  rw [if_neg (by simp [show s.isOn .atrium = true from hs, tb])]
  extract_lets n u len live v w tc x y z a c
  have fresh : Landed u.tb (rollGrid (ssbLanded (levelsLanded u))).grid x :=
    (levelsLanded_time u).1 ▸ Landed.freshPeriod (rollGrid (ssbLanded (levelsLanded u)))
  have captured := fresh.tcChanged (x.grid.tc = tc)
  have injected := each_inv (Q := Landed _ _) (List.range 8) injGuard y (fun i _ h => h.injGuard i) captured
  have unwrapped := each_inv (Q := Landed _ _) (List.range 9) unwrapLanding z (fun f _ h => h.unwrapLanding f) injected
  have short := each_inv (Q := Landed _ _) live shortfallStep a (fun h _ landed => landed.shortfallStep h) unwrapped
  have taken : Landed _ _ c := ((Landed.measKeeps _ _).takeover short).congr rfl rfl rfl rfl
  exact ⟨_, rfl, ((Landed.measKeeps _ _).triggerAll 2 0 c.grid.now taken).told n⟩

theorem execLanding_rolls (hs : s.Runs) (tb : s.isOn .timebase = true) : ∃ t, execLanding s = .next t ∧
    t.tb = (advanceTo s.grid.next s).tb ∧ Rolls s t ∧ t.atr.started = false ∧ ∀ f, (t.flight f).loopsDone = false := by
  obtain ⟨t, exec, landed⟩ := execLanding_lands hs tb
  have before : (ssbLanded (levelsLanded (advanceTo s.grid.next s))).grid = s.grid :=
    (levelsLanded_time _).2.trans (by simp only [advanceTo_frame])
  exact ⟨t, exec, landed.tb, (rollGrid_rolls _).congr before landed.grid, landed.started, landed.loops⟩

end Sys2Proof.Machine
end

section
/-! The gather departure (R107, R140): every route of every ring is out, and a ring without a route runs at once. -/

namespace Sys2Proof.Machine

open Sys2Proof

/-! What a flight's routes depend on. -/

/-- The domains that are ON, and the straps. -/
def powerFixed (s : State) : Vector DomState 10 × Straps := (s.aon.dom, s.aon.straps)

/-- Where a flight's trains go: whole, or in segments about the breaks. -/
def way (x : Flight) : Bool × List Nat := (x.seg, x.routed)

section

variable {s t : State} {f : Nat}

theorem ctCount_congr (power : powerFixed t = powerFixed s) (cfg : t.cfg = s.cfg) (f : Nat) : t.ctCount f = s.ctCount f := by
  simp only [State.ctCount, State.reg, cfg, show t.aon.straps = s.aon.straps from congrArg (·.2) power]

theorem ringOn_congr (power : powerFixed t = powerFixed s) (cfg : t.cfg = s.cfg) (f : Nat) : t.ringOn f = s.ringOn f := by
  simp only [State.ringOn, State.fltOn, State.hallOn, State.isOn, State.domSt, ctCount_congr power cfg,
    show t.aon.dom = s.aon.dom from congrArg (·.1) power]

theorem routes_congr (power : powerFixed t = powerFixed s) (cfg : t.cfg = s.cfg) (twin : t.twin = s.twin)
    (same : way (t.flight f) = way (s.flight f)) : routes f t = routes f s := by
  have west : t.trainWest = s.trainWest := by
    simp only [State.trainWest, State.leads, twin, show t.aon.straps = s.aon.straps from congrArg (·.2) power]
  have seg : (t.flight f).seg = (s.flight f).seg := congrArg (·.1) same
  have routed : (t.flight f).routed = (s.flight f).routed := congrArg (·.2) same
  unfold routes
  rw [ctCount_congr power cfg, west]
  dsimp only
  rw [seg, routed]

/-- A route leaves the east end or the west end. -/
theorem routes_out (l : List Route) (some : l ≠ []) : (l.any (fun r => !r.west) || l.any fun r => r.west) = true := by
  obtain ⟨r, l, rfl⟩ := List.exists_cons_of_ne_nil some
  cases h : r.west <;> simp [h]

end

/-! What the work of a gather leaves alone. -/

/-- A view of a flight in which the work on its reports does not show. -/
structure Unseen {β : Type} (view : Flight → β) : Prop where
  remap : ∀ (x : Flight) b, view { x with remap := b } = view x
  copies : ∀ (x : Flight) l, view { x with newCtx := l } = view x
  ran : ∀ (x : Flight) l b, view { x with newCtx := l, loopsDone := b } = view x
  lost : ∀ (x : Flight) n, view { x with lostRun := n } = view x
  declared : ∀ (x : Flight) b n, view { x with declared := b, breakHop := n } = view x

/-- Flight `f` is seen as `c`, with the power as `p`. -/
structure Seen {β : Type} (view : Flight → β) (f : Nat) (c : β) (p : Vector DomState 10 × Straps) (s : State) : Prop where
  flight : view (s.flight f) = c
  power : powerFixed s = p

namespace Seen

variable {β : Type} {view : Flight → β} {f : Nat} {c : β} {p : Vector DomState 10 × Straps} {s t : State}

theorem congr (h : Seen view f c p s) (flights : t.flights = s.flights) (power : powerFixed t = powerFixed s) :
    Seen view f c p t :=
  ⟨by rw [State.flight, flights]; exact h.flight, power.trans h.power⟩

theorem setFlight (h : Seen view f c p s) (k : Nat) {g : Flight → Flight} (hg : ∀ x, view (g x) = view x) :
    Seen view f c p (s.setFlight k g) :=
  ⟨setFlight_keeps (P := fun x => view x = c) k (fun x hx => (hg x).trans hx) h.flight, h.power⟩

theorem raise (e : Nat) (w : Word) (h : Seen view f c p s) : Seen view f c p (raise e w s) where
  flight := by
    simp only [State.flight, raise_frame]
    exact h.flight
  power := by
    rw [powerFixed, raise_aon]
    split <;> exact h.power

variable (hv : Unseen view)
include hv

theorem decisionKeeps (f : Nat) (c : β) (p : Vector DomState 10 × Straps) : DecisionKeeps (Seen view f c p) where
  emit _ _ h := h.congr rfl rfl
  raise e w _ h := h.raise e w
  log e k y w v _ h := logRecord_keeps (fun e w _ h => raise e w h) (fun _ _ h => h.congr rfl rfl)
    (fun _ _ h => h.congr rfl rfl) e k y w v h
  safe _ _ h := h.congr rfl rfl
  cell _ _ _ _ h := h.congr rfl rfl
  ends _ h := h.congr rfl rfl
  remap k q _ h := h.setFlight k fun x => hv.remap x (q x)
  short _ _ _ h := h.congr rfl rfl

theorem setCtx (n : Nat) (g : Ctx → Ctx) (h : Seen view f c p s) : Seen view f c p (s.setCtx n g) := by
  unfold State.setCtx
  split
  · exact h.congr rfl rfl
  · exact (h.setFlight (n / 7) (g := fun x => { x with newCtx := x.newCtx.map fun x => if x.1 = n then (x.1, g x.2) else x })
      fun x => hv.copies x _).congr rfl rfl

theorem missReport (k : Nat) (h : Seen view f c p s) : Seen view f c p (missReport k s) := by
  have stale : ∀ g, Seen view f c p (stalePoint k (s.setCell k g)) := fun _ => setCtx hv _ _ (h.congr rfl rfl)
  unfold Machine.missReport
  dsimp only
  split
  · exact unlessStandby_keeps (fun _ => (decisionKeeps hv f c p).decideClass _ _ _) (stale _)
  · exact stale _

theorem missUnserved (g : Nat) (h : Seen view f c p s) : Seen view f c p (missUnserved g s) := by
  unfold Machine.missUnserved
  refine each_inv _ _ _ (fun j u hu => ?_) h
  have missed : Seen view f c p (Machine.missReport (7 * g + j) (countGather (7 * g + j) u)) :=
    missReport hv _ (hu.congr (by simp) (by simp [powerFixed]))
  exact missed.congr (by simp) (by simp [powerFixed])

theorem runFlight (g : Nat) (h : Seen view f c p s) : Seen view f c p (runFlight g s) := by
  unfold Machine.runFlight
  exact each_inv _ _ _ (fun k _ => (decisionKeeps hv f c p).treadError k) (h.setFlight g fun x => hv.ran x _ _)

theorem gatherDone (g : Nat) (h : Seen view f c p s) : Seen view f c p (gatherDone g s) := by
  have lost : ∀ u, Seen view f c p u → Seen view f c p (if 2 ≤ (u.flight g).lostRun then breakLost g u else u) := fun u hu => by
    split
    · unfold breakLost
      split
      · exact hu
      · exact raise _ _ (hu.setFlight g fun x => hv.declared x _ _)
    · exact hu
  unfold Machine.gatherDone
  dsimp only
  split
  · exact h
  · exact runFlight hv g (missUnserved hv g (lost _ (h.setFlight g fun x => hv.lost x _)))

end Seen

/-! A flight's turn. -/

/-- The state of a flight's gather trains and of its last delay. -/
def trains (x : Flight) : Bool × Bool × Bool × Option Nat := (x.outEast, x.outWest, x.lostNow, x.ewDelay)

theorem way_unseen : Unseen way := ⟨fun _ _ => rfl, fun _ _ => rfl, fun _ _ _ => rfl, fun _ _ => rfl, fun _ _ _ => rfl⟩

theorem trains_unseen : Unseen trains := ⟨fun _ _ => rfl, fun _ _ => rfl, fun _ _ _ => rfl, fun _ _ => rfl, fun _ _ _ => rfl⟩

/-- Every route of `rs` is out. -/
def sentOut (rs : List Route) (x : Flight) : Flight :=
  { x with outEast := rs.any fun r => !r.west, outWest := rs.any fun r => r.west, lostNow := false, ewDelay := none }

/-- The trains of the flight's routes leave this device's own ports. -/
def gatherTrains (f : Nat) (rs : List Route) (s : State) : State :=
  each rs (fun r s => if s.ringUp f && s.ownRoute r then
    emit (.train (Fin.ofNat 9 f) r.west s.now (gatherTrain f r s)) s else s) s

theorem gatherTrains_eq (f : Nat) (rs : List Route) (s : State) :
    gatherTrains f rs s = { s with out := (gatherTrains f rs s).out } := by
  refine each_inv (Q := fun u => u = { s with out := u.out }) _ _ _ (fun r u hu => ?_) rfl
  split
  · rw [hu]
    rfl
  · exact hu

theorem Seen.gatherTrains {β : Type} {view : Flight → β} {f : Nat} {c : β} {p : Vector DomState 10 × Straps} {s : State}
    (g : Nat) (rs : List Route) (h : Seen view f c p s) : Seen view f c p (gatherTrains g rs s) := by
  rw [gatherTrains_eq]
  exact h.congr rfl rfl

theorem gatherOut_off {s : State} {f : Nat} (off : s.ringOn f = false) : gatherOut f s = s := if_pos (by simp [off])

theorem gatherOut_on {s : State} {f : Nat} (on : s.ringOn f = true) :
    gatherOut f s = gatherDone f (gatherTrains f (routes f s) (s.setFlight f (sentOut (routes f s)))) :=
  if_neg (by simp [on])

/-- What flight `f`'s routes depend on is as in `s`. -/
structure RoutesAs (f : Nat) (s u : State) : Prop where
  seen : Seen way f (way (s.flight f)) (powerFixed s) u
  cfg : u.cfg = s.cfg
  twin : u.twin = s.twin

section

variable {s u : State} {f g : Nat}

theorem RoutesAs.routes (h : RoutesAs f s u) : routes f u = Machine.routes f s :=
  routes_congr h.seen.power h.cfg h.twin h.seen.flight

theorem RoutesAs.ringOn (h : RoutesAs f s u) : u.ringOn f = s.ringOn f := ringOn_congr h.seen.power h.cfg f

theorem gatherOut_routesAs (g : Nat) (h : RoutesAs f s u) : RoutesAs f s (gatherOut g u) where
  seen := by
    cases on : u.ringOn g
    · rw [gatherOut_off on]
      exact h.seen
    · have out := h.seen.setFlight g (g := sentOut (Machine.routes g u)) fun _ => rfl
      rw [gatherOut_on on]
      exact (out.gatherTrains g _).gatherDone way_unseen g
  cfg := by simp only [gatherOut_frame, h.cfg]
  twin := by simp only [gatherOut_frame, h.twin]

theorem gatherOut_own (hf : f < 9) (on : u.ringOn f = true) :
    trains ((gatherOut f u).flight f) = trains (sentOut (routes f u) {}) := by
  have out : Seen trains f (trains (sentOut (routes f u) {})) (powerFixed u) (u.setFlight f (sentOut (routes f u))) :=
    ⟨by rw [setFlight_flight_same _ _ _ hf]; rfl, rfl⟩
  rw [gatherOut_on on]
  exact ((out.gatherTrains f _).gatherDone trains_unseen f).flight

theorem gatherOut_trains_ne (other : g ≠ f) : trains ((gatherOut g u).flight f) = trains (u.flight f) := by
  cases on : u.ringOn g
  · rw [gatherOut_off on]
  · have out : Seen trains f (trains (u.flight f)) (powerFixed u) (u.setFlight g (sentOut (routes g u))) :=
      ⟨by rw [setFlight_flight_ne _ _ _ _ other], rfl⟩
    rw [gatherOut_on on]
    exact ((out.gatherTrains g _).gatherDone trains_unseen g).flight

/-- A ring whose routes are as in `s` has sent its trains. -/
def Departed (f : Nat) (s u : State) : Prop := RoutesAs f s u ∧ trains (u.flight f) = trains (sentOut (routes f s) {})

theorem gathersOut_depart (hf : f < 9) (on : s.ringOn f = true) (h : RoutesAs f s u) :
    trains ((each (List.range 9) gatherOut u).flight f) = trains (sentOut (routes f s) {}) := by
  have own : ∀ v, RoutesAs f s v → Departed f s (gatherOut f v) := fun v hv =>
    ⟨gatherOut_routesAs f hv, by rw [gatherOut_own hf (hv.ringOn.trans on), hv.routes]⟩
  have turn : ∀ g v, Departed f s v → Departed f s (gatherOut g v) := fun g v hv => by
    by_cases same : g = f
    · exact same ▸ own v hv.1
    · exact ⟨gatherOut_routesAs g hv.1, (gatherOut_trains_ne same).trans hv.2⟩
  exact (each_hits (P := Departed f s) (List.mem_range.mpr hf) own (fun g _ => gatherOut_routesAs g) turn h).2

/-- Where every ring that is on has a route, nothing but flights and trains changes, and a ring that is off stays. -/
structure OnlyTrains (s u : State) : Prop where
  only : u = { s with flights := u.flights, out := u.out }
  off : ∀ f < 9, s.ringOn f = false → u.flight f = s.flight f
  ways : ∀ f < 9, way (u.flight f) = way (s.flight f)

theorem gatherOut_onlyTrains (hg : g < 9) (routed : s.ringOn g = true → routes g s ≠ []) (h : OnlyTrains s u) :
    OnlyTrains s (gatherOut g u) := by
  have aon : u.aon = s.aon := by rw [h.only]
  have same : RoutesAs g s u := ⟨⟨h.ways g hg, by rw [powerFixed, aon]; rfl⟩, by rw [h.only], by rw [h.only]⟩
  cases on : u.ringOn g
  · rw [gatherOut_off on]
    exact h
  · have ring : s.ringOn g = true := same.ringOn.symm.trans on
    have waits : gatherDone g (gatherTrains g (routes g u) (u.setFlight g (sentOut (routes g u)))) =
        gatherTrains g (routes g u) (u.setFlight g (sentOut (routes g u))) := by
      have out : ((u.setFlight g (sentOut (routes g u))).flight g).outEast ||
          ((u.setFlight g (sentOut (routes g u))).flight g).outWest := by
        rw [setFlight_flight_same _ _ _ hg]
        exact routes_out _ (same.routes ▸ routed ring)
      rw [gatherTrains_eq]
      exact if_pos out
    rw [gatherOut_on on, waits, gatherTrains_eq]
    refine ⟨by rw [h.only]; rfl, fun f hf off => ?_, fun f hf => ?_⟩
    · have other : g ≠ f := fun e => by rw [e, off] at ring; cases ring
      exact (setFlight_flight_ne u g f _ other).trans (h.off f hf off)
    · exact setFlight_keeps (P := fun x => way x = way (s.flight f)) g (fun _ hx => hx) (h.ways f hf)

theorem execGatherDeparture_runs (hs : s.Runs) (tb : s.isOn .timebase = true) : execGatherDeparture s =
    .next (each (List.range 9) gatherOut (advanceTo (s.sampleAt + 100) s)) := by
  unfold execGatherDeparture
  rw [if_neg (by simp [show s.isOn .atrium = true from hs, tb])]

theorem execGatherDeparture_sends (hs : s.Runs) (tb : s.isOn .timebase = true) : ∃ t, execGatherDeparture s = .next t ∧
    t.tb = (advanceTo (s.sampleAt + 100) s).tb ∧
    (∀ f < 9, s.ringOn f = true → trains (t.flight f) = trains (sentOut (routes f s) {})) ∧
    ((∀ f < 9, s.ringOn f = true → routes f s ≠ []) → (∀ f < 9, s.ringOn f = false → t.flight f = s.flight f) ∧
      t = { s with tb := t.tb, flights := t.flights, out := t.out }) := by
  refine ⟨_, execGatherDeparture_runs hs tb, ?_⟩
  have only := advanceTo_eq (s.sampleAt + 100) s
  generalize advanceTo (s.sampleAt + 100) s = u at *
  have start : ∀ f, RoutesAs f s u := fun f => by
    rw [only]
    exact ⟨⟨rfl, rfl⟩, rfl, rfl⟩
  have flights : u.flights = s.flights := by rw [only]
  refine ⟨each_keep (fun v : State => v.tb) _ _ _ fun f v => by simp only [gatherOut_frame],
    fun f hf on => gathersOut_depart hf on (start f), fun routed => ?_⟩
  have sent : OnlyTrains u (each (List.range 9) gatherOut u) :=
    each_inv_mem (Q := OnlyTrains u) (fun f hf v => gatherOut_onlyTrains (List.mem_range.mp hf) fun on =>
      (start f).routes ▸ routed f (List.mem_range.mp hf) ((start f).ringOn ▸ on)) ⟨rfl, fun _ _ _ => rfl, fun _ _ => rfl⟩
  generalize each (List.range 9) gatherOut u = t at sent
  refine ⟨fun f hf off => ?_, ?_⟩
  · rw [sent.off f hf ((start f).ringOn.trans off), State.flight, flights]
    rfl
  · rw [sent.only, only]

end

end Sys2Proof.Machine
end

section
/-! The deliver departure (R194, R199): the capture's settings, the banks, a power sequence and the time stand through it until the
capture's frame is recorded. -/

namespace Sys2Proof.Machine

open Sys2Proof

/-- What of the capture no event changes: a trigger that comes is all an event leaves in it. -/
def Capture.settled (c : Capture) : Capture := { c with trigReq := false, trigReady := false }

/-- What the recording of a frame depends on, and what the departure's end does: the capture, the banks, a sequence, the time. -/
def recording (s : State) : Capture × Vector DomState 16 × Option PowerSeq × TimeBase :=
  (s.atr.cap.settled, s.aon.bank, s.aon.seq, s.tb)

/-- The recording stands as `x`. -/
def RecordingAt (x : Capture × Vector DomState 16 × Option PowerSeq × TimeBase) (s : State) : Prop := recording s = x

section

variable {x : Capture × Vector DomState 16 × Option PowerSeq × TimeBase} {s t : State}

theorem RecordingAt.congr (h : RecordingAt x s) (cap : t.atr.cap = s.atr.cap) (aon : t.aon = s.aon) (tb : t.tb = s.tb) :
    RecordingAt x t := by
  simpa only [RecordingAt, recording, cap, aon, tb] using h

theorem capEvent_recording (e : Nat) (s : State) : recording (capEvent e s) = recording s := by
  unfold capEvent capTrigger
  dsimp only
  (repeat' split) <;> rfl

theorem raise_recordingAt (e : Nat) (w : Word) (h : RecordingAt x s) : RecordingAt x (raise e w s) := by
  have cap : (raise e w s).atr.cap.settled = s.atr.cap.settled := by
    rw [raise_atr]
    split
    · exact congrArg (·.1) (capEvent_recording e s)
    · rfl
  have aon : (raise e w s).aon.bank = s.aon.bank ∧ (raise e w s).aon.seq = s.aon.seq := by
    rw [raise_aon]
    split <;> exact ⟨rfl, rfl⟩
  have tb : (raise e w s).tb = s.tb := by simp only [raise_frame]
  simpa only [RecordingAt, recording, cap, aon, tb] using h

theorem recordingAt_decisionKeeps (x : Capture × Vector DomState 16 × Option PowerSeq × TimeBase) :
    DecisionKeeps (RecordingAt x) where
  emit _ _ h := h
  raise e w _ h := raise_recordingAt e w h
  log e k y w v _ h := logRecord_keeps (fun e w _ h => raise_recordingAt e w h) (fun _ _ h => h) (fun _ _ h => h) e k y w v h
  safe _ _ h := h
  cell _ _ _ _ h := h
  ends _ h := h
  remap _ _ _ h := h
  short _ _ _ h := h

theorem missFlight_recordingAt (al f : Nat) (h : RecordingAt x s) : RecordingAt x (missFlight al f s) := by
  have lanes : RecordingAt x (missLanes al f s).2 := h.congr (by simp) (by simp) (by simp)
  have missed : RecordingAt x (each (missLanes al f s).1 countMiss (missLanes al f s).2) :=
    each_inv _ _ _ (fun l u hu => hu.congr (setLane_cap _ _ u) (by simp) (by simp)) lanes
  unfold missFlight
  dsimp only
  split
  · exact RecordingAt.congr missed (by simp) (by simp) (by simp)
  · split
    · exact (recordingAt_decisionKeeps x).hallError _ _ missed missed
    · exact missed

theorem lateCommit_recordingAt (f : Nat) (h : RecordingAt x s) : RecordingAt x (lateCommit f s) := by
  unfold lateCommit
  split
  · exact raise_recordingAt _ _ h
  · exact h

theorem completeFlight_recordingAt (f : Nat) (h : RecordingAt x s) : RecordingAt x (completeFlight f s) := by
  have moved : ∀ (b : Bool) w u, RecordingAt x u → RecordingAt x (if b then raise 189 w u else u) := fun b w u hu => by
    split
    · exact raise_recordingAt _ _ hu
    · exact hu
  unfold completeFlight
  exact moved _ _ _ (h.congr (by simp [apply_ite State.atr]) (by simp [apply_ite State.aon]) (by simp [apply_ite State.tb]))

theorem settle_recordingAt (al : Nat) (j : Judged) (f : Nat) (h : RecordingAt x s) : RecordingAt x (settle al j f s) := by
  cases j with
  | complete => exact completeFlight_recordingAt f h
  | missed => exact lateCommit_recordingAt f (missFlight_recordingAt al f h)
  | remap => exact lateCommit_recordingAt f h
  | mismatch => exact lateCommit_recordingAt f h

theorem settleAtrium_recordingAt (h : RecordingAt x s) : RecordingAt x (settleAtrium s) := by
  have copy : RecordingAt x (if s.standby then s else commitAtrium s) := by
    unfold commitAtrium
    (repeat' split) <;> exact h
  unfold settleAtrium
  dsimp only
  split
  · exact raise_recordingAt _ _ copy
  · exact copy

theorem judgePeriod_recordingAt (bad skip : BitVec 10) (h : RecordingAt x s) : RecordingAt x (judgePeriod bad skip s) := by
  have events : ∀ miss b u, RecordingAt x u → RecordingAt x (missEvents miss b u) := fun miss b u hu => by
    unfold missEvents
    dsimp only
    split
    · split
      · exact hu
      · exact raise_recordingAt _ _ hu
    · split
      · exact raise_recordingAt _ _ hu
      · exact raise_recordingAt _ _ (raise_recordingAt _ _ hu)
  have settled : ∀ js u, RecordingAt x u → RecordingAt x (settleAll s.workAl js u) := fun js u hu =>
    each_inv _ _ _ (fun y _ => settle_recordingAt _ y.2 y.1) hu
  unfold judgePeriod
  dsimp only
  split
  · exact settled _ _ (events _ _ _ (h.congr (by simp) (by simp) (by simp)))
  · exact settleAtrium_recordingAt (settled _ _ (events _ _ _ (h.congr (by simp) (by simp) (by simp))))

theorem refreshFrames_recordingAt (h : RecordingAt x s) : RecordingAt x (refreshFrames s) := by
  unfold refreshFrames
  refine each_inv _ _ _ (fun g u hu => ?_) h
  unfold refreshString
  dsimp only
  refine each_inv _ _ _ (fun k v hv => (recordingAt_decisionKeeps x).treadError k hv) ?_
  exact hu.congr (by simp) (by simp) (by simp)

theorem sendFlight_recordingAt (f : Nat) (h : RecordingAt x s) : RecordingAt x (sendFlight f s) := by
  have done : ∀ u, RecordingAt x u → RecordingAt x (rerouteDone f u) := fun u hu => by
    unfold rerouteDone
    dsimp only
    split
    · exact raise_recordingAt _ _ hu
    · exact hu
  exact done _ (h.congr (by simp) (by simp) (by simp))

theorem slackStep_recordingAt (work : List (Nat × List Nat × Rat)) (al : Nat) (h : RecordingAt x s) :
    RecordingAt x (slackStep work al s) := by
  have step : ∀ (y : Nat × List Nat × Rat) (u : State), RecordingAt x u →
      RecordingAt x (splitStep y.1 y.2.2 (each y.2.1 (fun l s => setSlack l y.2.2 s) u)) := fun y u hu => by
    have slack : RecordingAt x (each y.2.1 (fun l s => setSlack l y.2.2 s) u) :=
      each_inv _ _ _ (fun l v hv => hv.congr (setLane_cap _ _ v) (by simp) (by simp)) hu
    generalize each y.2.1 (fun l s => setSlack l y.2.2 s) u = v at *
    unfold splitStep
    dsimp only
    (repeat' split) <;> exact slack.congr (by simp) (by simp) (by simp)
  have stepped : RecordingAt x (each work (fun y s => splitStep y.1 y.2.2 (each y.2.1 (fun l s => setSlack l y.2.2 s) s)) s) :=
    each_inv _ _ _ step h
  unfold slackStep slackEvent
  dsimp only
  split
  · split
    · exact raise_recordingAt _ _ stepped
    · exact stepped
  · exact stepped

theorem departure_recordingAt (bad skip : BitVec 10) (h : RecordingAt x (quiet (advanceTo s.dep s))) :
    RecordingAt x (departure bad skip s) := by
  unfold departure
  extract_lets k landed handed routed work al judged refreshed fs framed sent
  have hhanded : RecordingAt x handed := by
    have hlanded : RecordingAt x landed := h
    clear_value landed
    unfold handed
    split
    · exact hlanded.congr (by simp) (by simp) (by simp)
    · exact hlanded
  have hrouted : RecordingAt x routed := each_inv _ _ _ (fun f v hv => hv.congr (by simp) (by simp) (by simp)) hhanded
  have hrefreshed : RecordingAt x refreshed := refreshFrames_recordingAt (judgePeriod_recordingAt bad skip hrouted)
  have hframed : RecordingAt x framed :=
    each_inv _ _ _ (fun y v hv => each_inv _ _ _ (fun k v hv => hv.congr (by simp) (by simp) (by simp)) hv) hrefreshed
  have hflights : RecordingAt x (each fs sendFlight framed) := each_inv _ _ _ (fun f v hv => sendFlight_recordingAt f hv) hframed
  have hsent : RecordingAt x sent := each_inv _ _ _ (fun f v hv => hv.congr (by simp) (by simp) (by simp)) hflights
  have hcommit : RecordingAt x (sendCommit sent) := hsent.congr (by simp) (by simp) (by simp)
  exact (slackStep_recordingAt work al hcommit).congr (by simp) (by simp) (by simp)

end

variable {s : State} {bad skip : BitVec 10}

/-- Capture `d` records as `c` does. -/
structure Records (c d : Capture) : Prop where
  armed : d.armed = c.armed
  done : d.done = c.done
  triggered : d.triggered = c.triggered
  dec : d.dec = c.dec
  count : d.count = c.count

theorem records_of_settled {c d : Capture} (h : d.settled = c.settled) : Records c d where
  armed := (congrArg Capture.armed h : d.settled.armed = c.settled.armed)
  done := (congrArg Capture.done h : d.settled.done = c.settled.done)
  triggered := (congrArg Capture.triggered h : d.settled.triggered = c.settled.triggered)
  dec := (congrArg Capture.dec h : d.settled.dec = c.settled.dec)
  count := (congrArg Capture.count h : d.settled.count = c.settled.count)

theorem RecordingAt.parts {c : Capture} {banks : Vector DomState 16} {q : Option PowerSeq} {b : TimeBase}
    (h : RecordingAt (c.settled, banks, q, b) s) : Records c s.atr.cap ∧ s.aon.bank = banks ∧ s.aon.seq = q ∧ s.tb = b := by
  simp only [RecordingAt, recording, Prod.mk.injEq] at h
  obtain ⟨cap, same⟩ := h
  exact ⟨records_of_settled cap, same⟩

theorem departure_records (bad skip : BitVec 10) (s : State) : Records s.atr.cap (departure bad skip s).atr.cap ∧
    (departure bad skip s).aon.bank = s.aon.bank ∧ (departure bad skip s).aon.seq = s.aon.seq ∧
      (departure bad skip s).tb = (advanceTo s.dep s).tb :=
  (departure_recordingAt bad skip (by simp [RecordingAt, recording])).parts

theorem lastTrainGone_idle (h : ∀ q, s.aon.seq = some q → q.lastTrain = false) : lastTrainGone s = s := by
  unfold lastTrainGone
  split
  · next q hq => exact if_neg (by simp [h q hq])
  · rfl

theorem capBanks_congr {t : State} (h : t.aon.bank = s.aon.bank) : t.capBanks = s.capBanks := by
  have banks : t.bankOn = s.bankOn := funext fun g => by simp only [State.bankOn, State.bankSt, h]
  rw [State.capBanks, State.capBanks, banks]

theorem capSample_stays {n : Nat} {v : State} (h : s.atr.cap.armed = false ∨ s.atr.cap.done = true ∨ s.capBanks = false) :
    capSample n v s = s :=
  if_pos (by rcases h with h | h | h <;> simp [h])

theorem capSample_counts {n : Nat} {v : State} (armed : s.atr.cap.armed = true) (more : s.atr.cap.done = false)
    (banks : s.capBanks = true) (waits : s.atr.cap.triggered = false) (now : s.atr.cap.dec = 0) :
    (capSample n v s).atr.cap.count = s.atr.cap.count + 1 := by
  simp [capSample, armed, more, banks, waits, now, capFrame]

/-- A departure's own effect, then its sample for the capture. -/
theorem departSampled_capture (bad skip : BitVec 10) (s : State) : ∃ n v,
    (departSampled bad skip s).atr = (capSample n v (departure bad skip s)).atr ∧
      (departSampled bad skip s).mem = (capSample n v (departure bad skip s)).mem ∧
      (departSampled bad skip s).aon = (departure bad skip s).aon ∧ (departSampled bad skip s).tb = (departure bad skip s).tb := by
  unfold departSampled
  generalize departure bad skip s = d
  exact ⟨d.sampleAt, d.applied, by simp only [telemSample_frame, streamSample_frame, capSample_frame, and_self]⟩

theorem execDeliverDeparture_runs (hs : s.Runs) (tb : s.isOn .timebase = true)
    (idle : ∀ q, s.aon.seq = some q → q.lastTrain = false) (bad skip : BitVec 10) :
    execDeliverDeparture bad skip s = .next (departSampled bad skip s) := by
  obtain ⟨_, _, -, -, aon, -⟩ := departSampled_capture bad skip s
  obtain ⟨-, -, seq, -⟩ := departure_records bad skip s
  unfold execDeliverDeparture
  rw [if_neg (by simp [show s.isOn .atrium = true from hs, tb]), lastTrainGone_idle (by rwa [aon, seq])]

theorem departSampled_tb (bad skip : BitVec 10) (s : State) : (departSampled bad skip s).tb = (advanceTo s.dep s).tb := by
  obtain ⟨_, _, -, -, -, tb⟩ := departSampled_capture bad skip s
  obtain ⟨-, -, -, time⟩ := departure_records bad skip s
  exact tb.trans time

/-- A departure in which no capture records writes nothing into the Gallery. -/
theorem departSampled_idle (h : s.atr.cap.armed = false ∨ s.atr.cap.done = true ∨ s.capBanks = false) :
    (departSampled bad skip s).mem = s.mem := by
  obtain ⟨_, _, -, mem, -⟩ := departSampled_capture bad skip s
  obtain ⟨cap, banks, -⟩ := departure_records bad skip s
  rw [mem, capSample_stays (by rwa [cap.armed, cap.done, capBanks_congr banks])]
  simp only [departure_frame]

theorem departSampled_counts (armed : s.atr.cap.armed = true) (more : s.atr.cap.done = false) (on : s.capBanks = true)
    (waits : s.atr.cap.triggered = false) (now : s.atr.cap.dec = 0) :
    (departSampled bad skip s).atr.cap.count = s.atr.cap.count + 1 := by
  obtain ⟨_, _, atr, -⟩ := departSampled_capture bad skip s
  obtain ⟨cap, banks, -⟩ := departure_records bad skip s
  rw [atr, capSample_counts (cap.armed.trans armed) (cap.done.trans more) ((capBanks_congr banks).trans on)
    (cap.triggered.trans waits) (cap.dec.trans now), cap.count]

theorem departSampled_outside {a : Nat} (outside : ¬ inFrame s.atr.cap a) :
    memRead (departSampled bad skip s).mem a = memRead s.mem a :=
  (departSampled_writesIn bad skip s).2 a outside

theorem departSampled_registers (bad skip : BitVec 10) (s : State) : SameRegisters s (departSampled bad skip s) := by
  simp only [SameRegisters, departSampled_frame, and_self]

theorem outside_frame {c : Capture} {a : Nat}
    (h : a < capAddr (c.count % capDepth c.cfg * capChans c.cfg) ∨
      capAddr (c.count % capDepth c.cfg * capChans c.cfg) + 4 * capChans c.cfg ≤ a) : ¬ inFrame c a := fun inside => by
  obtain ⟨low, high⟩ := inside
  omega

/-- The deliver departure, but for a power sequence whose last trains leave with it. -/
theorem execDeliverDeparture_records (hs : s.Runs) (tb : s.isOn .timebase = true)
    (idle : ∀ q, s.aon.seq = some q → q.lastTrain = false) (bad skip : BitVec 10) :
    ∃ t, execDeliverDeparture bad skip s = .next t ∧ t.tb = (advanceTo s.dep s).tb ∧
      (∀ a, ¬ inFrame s.atr.cap a → memRead t.mem a = memRead s.mem a) ∧
      (s.atr.cap.armed = false ∨ s.atr.cap.done = true ∨ s.capBanks = false → SameGallery s t) ∧
      (s.atr.cap.armed = true → s.atr.cap.done = false → s.capBanks = true → s.atr.cap.triggered = false →
        s.atr.cap.dec = 0 → t.atr.cap.count = s.atr.cap.count + 1) ∧ SameRegisters s t :=
  ⟨_, execDeliverDeparture_runs hs tb idle bad skip, departSampled_tb bad skip s, fun _ => departSampled_outside,
    fun still a => by rw [departSampled_idle still], departSampled_counts, departSampled_registers bad skip s⟩

end Sys2Proof.Machine

open Sys2Proof.Machine in
/-- Settles O56, instant by instant: each part is what its command's body does once it runs. -/
theorem periodInstants : Obligations.PeriodInstants := by
  unfold Obligations.PeriodInstants
  intro s hs tb
  refine ⟨?sample, ?gather, execCommitPoint_arms hs tb, fun bad skip idle => ?departure, fun more => ?keepAlive, ?landing⟩
  case sample =>
    obtain ⟨t, exec, time, taken, latched⟩ := execSampleInstant_latches hs tb
    have frame := execSampleInstant_frame s t exec
    exact ⟨t, exec, time, taken, latched, by simp only [SameRegisters, frame, and_self], fun a => by simp only [frame]⟩
  case gather =>
    obtain ⟨t, exec, time, sent, only⟩ := execGatherDeparture_sends hs tb
    have frame := execGatherDeparture_frame s t exec
    refine ⟨t, exec, time, fun f hf on => ?_, only, by simp only [SameRegisters, frame, and_self], fun a => by simp only [frame]⟩
    simpa [trains, sentOut] using sent f hf on
  case departure =>
    obtain ⟨t, exec, time, outside, still, counts, same⟩ := execDeliverDeparture_records hs tb idle bad skip
    exact ⟨t, exec, time, fun a h => outside a (outside_frame h), still, counts, same⟩
  case keepAlive =>
    obtain ⟨t, exec, grid, time, silent, stands⟩ := execKeepAliveDeparture_counts hs tb more
    have frame := execKeepAliveDeparture_frame s t exec
    exact ⟨t, exec, grid, time, silent, stands.cell, stands.safe, by simp only [SameRegisters, frame, and_self],
      fun a => by simp only [frame]⟩
  case landing =>
    obtain ⟨t, exec, time, rolls, started, loops⟩ := execLanding_rolls hs tb
    have frame := execLanding_frame s t exec
    exact ⟨t, exec, time, rolls.now, rolls.next, rolls.seq, rolls.keepAlive, rolls.snapDue, started, fun f _ => loops f,
      by simp only [SameRegisters, frame, and_self], fun a => by simp only [frame]⟩

end

section
/-! Frames of the stairwell for this position or for all of them, and the announcements that wait (R368, R369, R376). -/

namespace Sys2Proof.Machine

open Sys2Proof

variable {s t v : State} {h : StairHdr}

/-! What a frame is before it is acted on. -/

theorem stairTake_unheard {type : Byte} {payload : List Byte} {pass : Bool} (act : State → State)
    (hv : s.stairHears type h.via = false) : stairTake h type payload pass act s = s :=
  if_pos (by rw [hv]; rfl)

/-- A frame whose CRC fails is counted (R368). -/
theorem stairTake_badCrc {type : Byte} {payload : List Byte} {pass : Bool} (act : State → State)
    (hv : s.stairHears type h.via = true) (hc : h.crcOk = false) :
    stairTake h type payload pass act s = setStair (fun x => { x with crcErr := satInc 255 x.crcErr }) s := by
  rw [stairTake, if_neg (by simp [hv]), if_pos (by simp [hc])]

/-- A good frame for this position alone is acted on and not relayed (R369). -/
theorem stairTake_own {type : Byte} {payload : List Byte} {pass : Bool} (act : State → State)
    (hv : s.stairHears type h.via = true) (hc : h.crcOk = true) (hd : h.dst = BitVec.ofNat 8 s.pos) :
    stairTake h type payload pass act s = act (frameHeard h type payload false s) := by
  have own : (h.dst == BitVec.ofNat 8 s.pos) = true := beq_iff_eq.mpr hd
  simp only [stairTake, hv, hc, own, frameHeard, Bool.not_true, Bool.and_false, Bool.true_or, Bool.false_eq_true, if_true,
    if_false]

/-- A state that acts on a frame: its originator is noted, and whatever has left for the active and for the next position. -/
def Heard (h : StairHdr) (s v : State) : Prop := v = { samePosition h s with out := v.out }

/-- A good frame for every position or for this one is acted on (R368, R369). -/
theorem stairTake_heard {type : Byte} {payload : List Byte} {pass : Bool} (act : State → State)
    (hv : s.stairHears type h.via = true) (hc : h.crcOk = true) (hd : h.dst = 0xFF ∨ h.dst = BitVec.ofNat 8 s.pos) :
    ∃ v, Heard h s v ∧ stairTake h type payload pass act s = act v := by
  rcases hd with all | own
  · exact ⟨_, frameHeard_eq h type payload pass s, stairTake_all act hv hc all⟩
  · exact ⟨_, frameHeard_eq h type payload false s, stairTake_own act hv hc own⟩

/-! What the note of a frame leaves alone. -/

namespace Noted

theorem near40 (h : Noted s t) (x : Nat) : near40 x t = near40 x s := by
  unfold Sys2Proof.Machine.near40 State.now
  rw [h.tb]

theorem linkUp (h : Noted s t) : t.linkUp = s.linkUp := by simp only [State.linkUp, h.twin, h.isOn]

theorem mapPresent (h : Noted s t) : t.mapPresent = s.mapPresent := by
  rw [State.mapPresent, h.newel, h.pos, h.stair]
  rfl

theorem annDone (h : Noted s t) (w : AnnWait) : annDone w t = annDone w s := by
  simp only [Sys2Proof.Machine.annDone, h.mapPresent]

end Noted

namespace Heard

theorem noted (h' : Heard h s v) : Noted s v := by
  obtain ⟨dom, straps, cfg, twin, tb, stair⟩ := samePosition_noted h s
  rw [h']
  exact ⟨dom, straps, cfg, twin, tb, stair⟩

theorem grid (h' : Heard h s v) : v.grid = s.grid := by
  rw [h']
  simp only [samePosition_frame]

theorem cells (h' : Heard h s v) : v.cells = s.cells := by
  rw [h']
  simp only [samePosition_frame]

end Heard

/-- Only a standby hands frames to its active (R384). -/
theorem frameHeard_alone (type : Byte) (payload : List Byte) (hb : s.standby = false) :
    frameHeard h type payload false s = samePosition h s := by
  have alone : (samePosition h s).standby = false := (samePosition_noted h s).standby.trans hb
  simp [frameHeard, stairToActive, alone]

/-! Frames sent. -/

theorem stairSend_eq (sd : Bool) (type dst : Byte) (payload : List Byte) (s : State) :
    stairSend sd type dst payload s = { s with out := (stairSend sd type dst payload s).out } := by
  unfold stairSend
  generalize (s.stairRuns && if sd = true then s.stair.downUp else s.stair.upUp) = goes
  cases goes <;> rfl

theorem stairTo_eq (p : Nat) (type : Byte) (payload : List Byte) (s : State) :
    stairTo p type payload s = { s with out := (stairTo p type payload s).out } :=
  stairSend_eq _ _ _ _ s

/-- A frame to one position leaves through the port on its side. -/
theorem stairTo_up {p : Nat} (type : Byte) (payload : List Byte) (hr : s.stairRuns = true)
    (hu : (if s.pos < p then s.stair.downUp else s.stair.upUp) = true) : stairTo p type payload s =
      emit (.stair (decide (s.pos < p)) (stairFrame type s.pos s.onChainW (BitVec.ofNat 8 p) 0 payload)) s := by
  have goes : (s.stairRuns && (if decide (s.pos < p) = true then s.stair.downUp else s.stair.upUp)) = true := by
    simpa only [hr, Bool.true_and, decide_eq_true_eq] using hu
  exact if_pos goes

/-! The announcements that every position has acknowledged (R376). -/

theorem annCheck_stair (s : State) : (annCheck s).stair =
    { s.stair with anns := s.stair.anns.filter fun w => !annDone w s } := by
  refine each_keep State.stair _ _ _ fun w u => ?_
  cases w.pkt with
  | none => rfl
  | some p => simp only [finish_frame]

theorem annCheck_idle (h : ∀ w ∈ s.stair.anns, annDone w s = false) : annCheck s = s := by
  have answered : s.stair.anns.filter (fun w => annDone w s) = [] := List.filter_eq_nil_iff.mpr fun w hw => by simp [h w hw]
  have waiting : s.stair.anns.filter (fun w => !annDone w s) = s.stair.anns :=
    List.filter_eq_self.mpr fun w hw => by simp [h w hw]
  simp only [annCheck, answered, each, List.foldl_nil, setStair, waiting]

end Sys2Proof.Machine
end

section
/-! Announced landings, remote reads and telemetry of other positions (R373 to R376, R380, R381, R383). -/

namespace Sys2Proof.Machine

open Sys2Proof

variable {s v : State} {h : StairHdr}

/-! Announcements (R373 to R375). -/

theorem Heard.staleMask (h' : Heard h s v) : v.staleMask = s.staleMask := by
  simp only [State.staleMask, h'.noted.reg, State.cell, h'.cells]

theorem landingFrom_congr {t : State} (grid : t.grid = { s.grid with modStale := t.grid.modStale }) (x : Nat) :
    t.landingFrom x = s.landingFrom x := by
  rw [State.landingFrom, grid]
  rfl

theorem Heard.landingFrom (h' : Heard h s v) (x : Nat) : v.landingFrom x = s.landingFrom x :=
  landingFrom_congr (by rw [h'.grid]) x

theorem judgeStale_landingFrom (x : Nat) (s : State) : (judgeStale s).landingFrom x = s.landingFrom x :=
  landingFrom_congr (by rw [judgeStale_grid]) x

/-- An announcement for a landing whose commit point lies ahead arms it (R375). -/
theorem announced_arms {target : Nat} (free : s.grid.armed = none) (ahead : s.now + s.lead + 201 ≤ target) :
    announced target s = (true, s.staleMask != 0, armCommit (s.landingFrom target) true (judgeStale s)) := by
  have lead : (judgeStale s).now + (judgeStale s).lead = s.now + s.lead := by
    simp only [State.now, State.lead, State.reg, judgeStale_frame, judgeStale_straps]
  have open_ : ¬ target < (judgeStale s).now + (judgeStale s).lead + 201 := by omega
  simp only [announced, free, judgeStale_landingFrom, if_neg open_, judgeStale_grid]

/-- While a commit is armed, an announcement for another landing is refused. -/
theorem announced_refused {target a : Nat} {b : Bool} (armed : s.grid.armed = some (a, b)) (other : a ≠ target) :
    announced target s = (false, false, s) := by
  simp only [announced, armed, if_neg other]

theorem forwardAnn_eq (m : AnnounceMsg) (s : State) : forwardAnn m s = { s with out := (forwardAnn m s).out } := by
  unfold forwardAnn
  split <;> rfl

theorem takeAnnounce_arms {src : Fin 16} {x : Nat} (hb : s.standby = false) (free : s.grid.armed = none)
    (ahead : s.now + s.lead + 201 ≤ near40 x s) :
    (takeAnnounce src (.loadAll x) s).grid.armed = some ((s.landingFrom (near40 x s)).1, true) ∧
      (takeAnnounce src (.loadAll x) s).grid.modStale = s.staleMask := by
  simp only [takeAnnounce, hb, announced_arms free ahead, Bool.false_eq_true, if_false, if_true, stairTo_frame,
    forwardAnn_frame, armed_grid, and_self]

theorem takeAnnounce_refused {src : Fin 16} {x a : Nat} {b : Bool} (hb : s.standby = false)
    (armed : s.grid.armed = some (a, b)) (other : a ≠ near40 x s) : takeAnnounce src (.loadAll x) s =
      { s with out := (takeAnnounce src (.loadAll x) s).out } := by
  simp only [takeAnnounce, hb, announced_refused armed other, Bool.false_eq_true, if_false]
  exact stairTo_eq _ _ _ s

theorem takeAnnounce_moves {src : Fin 16} {tc lx : Nat} (hb : s.standby = false) (hn : s.newel = false) :
    takeAnnounce src (.newTc tc lx) s =
      { moveTc tc (near40 lx s) s with out := (takeAnnounce src (.newTc tc lx) s).out } := by
  simp only [takeAnnounce, hb, hn, Bool.false_eq_true, if_false, if_true]
  rw [stairTo_eq, forwardAnn_eq]

theorem execAnnounce_heard {m : AnnounceMsg} (hv : s.stairHears 2 h.via = true) (hc : h.crcOk = true)
    (hd : h.dst = 0xFF ∨ h.dst = BitVec.ofNat 8 s.pos) :
    ∃ v, Heard h s v ∧ execAnnounce h m s = .next (takeAnnounce h.src m v) :=
  (stairTake_heard _ hv hc hd).imp fun _ => .imp_right (congrArg Host.Outcome.next)

/-- An announcement changes neither registers nor Gallery nor time base. -/
theorem execAnnounce_same {m : AnnounceMsg} {t : State} (run : execAnnounce h m s = .next t) :
    SameRegisters s t ∧ SameGallery s t ∧ t.tb = s.tb := by
  simp only [SameRegisters, SameGallery, execAnnounce_frame h m s t run, and_self, implies_true]

/-! Acknowledgements (R376). -/

/-- The state with one more acknowledgement. -/
def acknowledged (b : BitVec 16) (ok stale : Bool) (s : State) : State :=
  setStair (fun x => { x with anns := ackFirst b ok stale x.anns }) s

theorem execAnnAck_heard {ok stale : Bool} (hv : s.stairHears 6 h.via = true) (hc : h.crcOk = true)
    (hd : h.dst = 0xFF ∨ h.dst = BitVec.ofNat 8 s.pos) :
    ∃ v, Heard h s v ∧ execAnnAck h ok stale s = .next (annCheck (acknowledged (1#16 <<< h.src.val) ok stale v)) :=
  (stairTake_heard (fun s => annCheck (acknowledged (1#16 <<< h.src.val) ok stale s)) hv hc hd).imp fun _ =>
    .imp_right (congrArg Host.Outcome.next)

/-- Whether a wait has all its acknowledgements is judged by STAIR_MAP, which an acknowledgement leaves alone. -/
theorem annCheck_acknowledged (b : BitVec 16) (ok stale : Bool) (h' : Noted s v) :
    (annCheck (acknowledged b ok stale v)).stair.anns =
      (ackFirst b ok stale s.stair.anns).filter fun w => !annDone w s := by
  have done : ∀ w, annDone w (acknowledged b ok stale v) = annDone w s := h'.annDone
  simp only [annCheck_stair, done]
  rw [acknowledged, setStair_stair, h'.stair]

/-- The oldest announcement's wait ends. -/
def dropAnn (r : List AnnWait) (s : State) : State := setStair (fun x => { x with anns := r }) s

theorem execAnnounceTimeout_silent {w : AnnWait} {r : List AnnWait} (first : s.stair.anns = w :: r) (silent : w.pkt = none) :
    execAnnounceTimeout s = .next (dropAnn r s) := by
  simp only [execAnnounceTimeout, first, silent, dropAnn]

theorem execAnnounceTimeout_finishes {w : AnnWait} {r : List AnnWait} {p : Pkt} (first : s.stair.anns = w :: r)
    (packet : w.pkt = some p) : execAnnounceTimeout s = .next (finish w.pkt (annReply w (dropAnn r s)) (dropAnn r s)) := by
  simp only [execAnnounceTimeout, first, packet, dropAnn]

theorem execAnnounceTimeout_answers {w : AnnWait} {r : List AnnWait} (first : s.stair.anns = w :: r) :
    ∃ t, execAnnounceTimeout s = .next t ∧ t.stair.anns = r ∧ (w.pkt ≠ none → t.reply = some (annReply w s)) := by
  cases pkt : w.pkt with
  | none => exact ⟨_, execAnnounceTimeout_silent first pkt, rfl, fun packet => absurd rfl packet⟩
  | some p =>
    exact ⟨_, execAnnounceTimeout_finishes first pkt, by simp only [finish_frame, dropAnn, setStair_stair],
      fun _ => finish_reply _ _ _⟩

/-! Telemetry (R381, R383). -/

/-- What a TELEM does to the stairwell's state. -/
def telemTaken (h : StairHdr) (tag : Nat) (m : TelemMsg) (s : State) : State :=
  match m with
  | .values vals => keepTelem h.src tag vals s
  | .ask n dec pts => askTelem h n dec (near40 tag s) pts s

theorem telemTaken_eq (tag : Nat) (m : TelemMsg) (s : State) :
    telemTaken h tag m s = { s with stair := (telemTaken h tag m s).stair } := by
  cases m <;> rfl

theorem telemTaken_keeps {tag : Nat} {vals : List (Nat × F32)} {x : Nat × F32} (hx : x ∈ vals) :
    (h.src.val, low40 tag, x.1 % 65536, x.2) ∈ (telemTaken h tag (.values vals) s).stair.telem :=
  List.mem_append_left _ (List.mem_map_of_mem (f := fun v => (h.src.val, low40 tag, v.1 % 65536, v.2)) hx)

theorem telemTaken_asks {tag dec : Nat} {n : Fin 8} {pts : List Nat} (named : pts ≠ []) :
    { owner := h.src, chainW := h.chainW, n := n, dec := max 1 dec, first := near40 tag s, pts := pts } ∈
      (telemTaken h tag (.ask n dec pts) s).stair.telemOut := by
  have asks : pts.isEmpty = false := List.isEmpty_eq_false_iff.mpr named
  simp [telemTaken, askTelem, asks]

theorem telemToStandby_eq (h : StairHdr) (payload : List Byte) (s : State) :
    telemToStandby h payload s = { s with out := (telemToStandby h payload s).out } := by
  unfold telemToStandby
  split <;> rfl

theorem telemToStandby_hands {payload : List Byte} (active : s.twin.state = 1) (hl : s.linkUp = true) (hv : h.via ≠ .twin) :
    telemToStandby h payload s =
      emit (.stairTwin (stairFrame 0x0A h.src.val h.chainW h.dst h.hops payload)) s :=
  if_pos (by simp [active, hl, hv])

theorem execTelem_heard {tag : Nat} {m : TelemMsg} (hv : s.stairHears 0x0A h.via = true) (hc : h.crcOk = true)
    (hd : h.dst = 0xFF ∨ h.dst = BitVec.ofNat 8 s.pos) : ∃ v, Heard h s v ∧
      execTelem h tag m s = .next (telemTaken h tag m (telemToStandby h (telemBytes tag m) v)) :=
  (stairTake_heard _ hv hc hd).imp fun _ => .imp_right fun run => congrArg Host.Outcome.next (run.trans (by cases m <;> rfl))

/-! Remote reads (R380). -/

theorem execSigReq_sends {pts : List Nat} (hr : s.stairRuns = true) (hv : s.stairHears 8 h.via = true)
    (hc : h.crcOk = true) (hd : h.dst = BitVec.ofNat 8 s.pos) (hb : s.standby = false)
    (hu : (if s.pos < h.src.val then s.stair.downUp else s.stair.upUp) = true) : execSigReq h pts s =
      .next (emit (.stair (decide (s.pos < h.src.val)) (stairFrame 9 s.pos s.onChainW (BitVec.ofNat 8 h.src.val) 0
        (respBytes (pts.map fun p => (p, (samePosition h s).localPoint p))))) (samePosition h s)) := by
  have noted := samePosition_noted h s
  have ports : (if (samePosition h s).pos < h.src.val then (samePosition h s).stair.downUp
      else (samePosition h s).stair.upUp) = true := by
    rw [noted.pos, noted.stair]
    exact hu
  rw [execSigReq, stairTake_own _ hv hc hd, frameHeard_alone _ _ hb, if_neg (by simp [noted.standby, hb]),
    stairTo_up _ _ (noted.stairRuns.trans hr) ports, noted.pos, noted.onChainW]

/-- The response to a read of one point completes it. -/
theorem takeSignals_one {src p : Nat} {x : F32} (at_ : ptPos p = src)
    (waits : s.stair.sigs = [{ pts := [p], vals := [], pkt := none }]) : takeSignals src [(p, x)] s =
      { setStair (fun y => { y with sigs := [] }) s with reply := some { status := .ok, words := [x] } } := by
  simp [takeSignals, waits, sigFirst, sigWords, at_, each, finish]

theorem execSigResp_completes {p : Nat} {x : F32} (hv : s.stairHears 9 h.via = true) (hc : h.crcOk = true)
    (hd : h.dst = BitVec.ofNat 8 s.pos) (at_ : ptPos p = h.src.val)
    (waits : s.stair.sigs = [{ pts := [p], vals := [], pkt := none }]) : execSigResp h [(p, x)] s =
      .next { setStair (fun y => { y with sigs := [] }) (frameHeard h 9 (respBytes [(p, x)]) false s) with
        reply := some { status := .ok, words := [x] } } := by
  have still : (frameHeard h 9 (respBytes [(p, x)]) false s).stair.sigs = [{ pts := [p], vals := [], pkt := none }] := by
    rw [(frameHeard_noted h 9 (respBytes [(p, x)]) false s).stair]
    exact waits
  rw [execSigResp, stairTake_own _ hv hc hd, takeSignals_one at_ still]

theorem execSigRespTimeout_ends {w : SigWait} {r : List SigWait} (first : s.stair.sigs = w :: r) :
    execSigRespTimeout s = .next (finish w.pkt { status := .state } (setStair (fun x => { x with sigs := r }) s)) := by
  simp only [execSigRespTimeout, first]

end Sys2Proof.Machine

open Sys2Proof.Machine in
/-- Settles O55, frame by frame: a frame for this position acts on the state that has noted it, and the end of a wait answers
the oldest one. -/
theorem stairLandings : Obligations.StairLandings := by
  unfold Obligations.StairLandings
  intro s hs hl
  have hr : s.stairRuns = true := stairRuns_of_on hs hl
  refine ⟨fun h hb hv hc hd => ⟨fun x free ahead => ?arms, fun x a b armed other => ?refused, fun tc lx hn => ?moves⟩,
    fun h ok stale hv hc hd => ?ack, fun h tag m hv hc hd => ?telem, fun w r first => ?timeout,
    fun h hv hc hd pts hb hu => execSigReq_sends hr hv hc hd hb hu, fun h p x hv hc hd at_ waits => ?response,
    fun w r first => ?noResponse⟩
  case arms =>
    obtain ⟨v, heard, run⟩ := execAnnounce_heard (m := .loadAll x) hv hc hd
    have noted := heard.noted
    have still : v.now + v.lead + 201 ≤ near40 x v := by
      rw [noted.near40, State.lead, noted.reg, State.now, noted.tb]
      exact ahead
    obtain ⟨armed, stale⟩ := takeAnnounce_arms (src := h.src) (noted.standby.trans hb) (heard.grid ▸ free) still
    refine ⟨_, run, ?_, stale.trans heard.staleMask, execAnnounce_same run⟩
    rw [armed, noted.near40, heard.landingFrom]
  case refused =>
    obtain ⟨v, heard, run⟩ := execAnnounce_heard (m := .loadAll x) hv hc hd
    have noted := heard.noted
    refine ⟨_, run, ?_⟩
    rw [takeAnnounce_refused (noted.standby.trans hb) (heard.grid ▸ armed) (noted.near40 x ▸ other), heard]
  case moves =>
    obtain ⟨v, heard, run⟩ := execAnnounce_heard (m := .newTc tc lx) hv hc hd
    have noted := heard.noted
    refine ⟨_, run, ?_⟩
    rw [takeAnnounce_moves (noted.standby.trans hb) (noted.newel.trans hn), moveTc, noted.near40, heard.grid, heard]
    exact ⟨rfl, rfl, rfl⟩
  case ack =>
    obtain ⟨v, heard, run⟩ := execAnnAck_heard (ok := ok) (stale := stale) hv hc hd
    have frame := execAnnAck_frame h ok stale s _ run
    exact ⟨_, run, annCheck_acknowledged _ ok stale heard.noted,
      by simp only [SameRegisters, SameGallery, frame, and_self, implies_true]⟩
  case telem =>
    obtain ⟨v, heard, run⟩ := execTelem_heard (tag := tag) (m := m) hv hc hd
    have noted := heard.noted
    refine ⟨_, run, ?_, ?_, fun active link way => ?_, ?_⟩
    · rintro vals rfl x hx
      exact telemTaken_keeps hx
    · rintro n dec pts rfl named
      have at_ : near40 tag (telemToStandby h (telemBytes tag (.ask n dec pts)) v) = near40 tag s := by
        rw [telemToStandby_eq]
        exact noted.near40 tag
      rw [← at_]
      exact telemTaken_asks named
    · rw [telemTaken_eq, telemToStandby_hands (by rw [noted.twin]; exact active) (noted.linkUp.trans link) way]
      exact List.mem_cons_self
    · rw [telemTaken_eq, telemToStandby_eq, heard]
  case timeout =>
    obtain ⟨t, run, rest, answered⟩ := execAnnounceTimeout_answers first
    have frame := execAnnounceTimeout_frame s t run
    exact ⟨t, run, rest, answered, by simp only [SameRegisters, SameGallery, frame, and_self, implies_true]⟩
  case response =>
    refine ⟨_, execSigResp_completes hv hc hd at_ waits, rfl, rfl, ?_⟩
    rw [frameHeard_eq]
    rfl
  case noResponse =>
    have run := execSigRespTimeout_ends first
    have frame := execSigRespTimeout_frame s _ run
    exact ⟨_, run, finish_reply _ _ _, by simp only [finish_frame, setStair_stair],
      by simp only [SameRegisters, SameGallery, frame, and_self, implies_true]⟩

end

section
/-! Ports and beacons, and the loss of the newel (R366 to R369, R373, R383 to R388). -/

namespace Sys2Proof.Machine

open Sys2Proof

variable {s v : State} {h : StairHdr}

/-! Frames that do not count (R368). -/

/-- The command of a frame of this type: what it does is `stairTake`'s. -/
def TakesFrame (h : StairHdr) (type : Byte) (c : Instr) (s : State) : Prop :=
  ∃ payload pass act, exec c s = .next (stairTake h type payload pass act s)

namespace TakesFrame

variable {type : Byte} {c : Instr}

theorem unheard (takes : TakesFrame h type c s) (hv : s.stairHears type h.via = false) : exec c s = .next s := by
  obtain ⟨payload, pass, act, run⟩ := takes
  rw [run, stairTake_unheard act hv]

theorem badCrc (takes : TakesFrame h type c s) (hv : s.stairHears type h.via = true) (hc : h.crcOk = false) :
    exec c s = .next { s with stair := { s.stair with crcErr := satInc 255 s.stair.crcErr } } := by
  obtain ⟨payload, pass, act, run⟩ := takes
  rw [run, stairTake_badCrc act hv hc]
  rfl

end TakesFrame

/-! Ports (R367, R384). -/

/-- A port of the stairwell set. -/
def portSet (sd up : Bool) (x : Stair) : Stair :=
  if sd then { x with downUp := up, heard := x.heard.filter fun y => y.2.1 != StairVia.sd }
  else { x with upUp := up, heard := x.heard.filter fun y => y.2.1 != StairVia.su }

/-- A standby's report of its SU port. -/
def portReported (sd : Bool) (s : State) : State := if !sd && s.standby && s.linkUp then sendReport s else s

theorem portReported_frame (sd : Bool) (s : State) :
    (portReported sd s).stair = s.stair ∧ (portReported sd s).aon = s.aon := by
  unfold portReported
  split <;> simp only [sendReport_frame, and_self]

/-- The state whose change of a port is raised. -/
def portChanged (sd up : Bool) (s : State) : State := portReported sd (setStair (portSet sd up) s)

theorem portChanged_stair (sd up : Bool) (s : State) : (portChanged sd up s).stair = portSet sd up s.stair :=
  (portReported_frame sd _).1

theorem portChanged_runs (sd up : Bool) (hs : s.Runs) : (portChanged sd up s).Runs :=
  (isOn_congr (portReported_frame sd (setStair (portSet sd up) s)).2 .atrium).trans hs

theorem portChanged_reports {up : Bool} (hb : s.standby = true) (hl : s.linkUp = true) :
    .report { releasable := s.releasable, suUp := up, need := s.twinNeed, info := s.info } ∈
      (portChanged false up s).out := by
  have standby : (setStair (portSet false up) s).standby = true := hb
  have link : (setStair (portSet false up) s).linkUp = true := hl
  rw [portChanged, portReported, if_pos (by simp [standby, link])]
  exact List.mem_cons_self

theorem execStairPortChange_raises (sd up : Bool) (hr : s.stairRuns = true) : execStairPortChange sd up s =
    .next (raise 215 (stairLinkWord (portChanged sd up s)) (portChanged sd up s)) := by
  rw [execStairPortChange, if_neg (by simp [hr])]
  cases sd <;> rfl

/-! Beacons that arrive (R366, R373, R386, R388). -/

theorem newel_below (hp : s.pos ≠ 0) : s.newel = s.stair.promote := by
  have strap : (s.aon.straps.pos == 0) = false := beq_eq_false_iff_ne.mpr fun zero => hp (by simp [State.pos, zero])
  rw [State.newel, strap, Bool.false_or]

/-- A beacon's Tc that an announced change leaves: it moves nothing (R373). -/
abbrev LeavesTc (tc : Nat) (x : Stair) : Prop := x.leftTc = some tc ∧ x.newelTc ≠ some tc

theorem beaconTc_eq (tc : Nat) (s : State) : beaconTc tc s =
    { s with
      stair := { s.stair with
        newelTc := if LeavesTc tc s.stair then s.stair.newelTc else some tc
        leftTc := if LeavesTc tc s.stair then s.stair.leftTc else none }
      grid := if ¬ LeavesTc tc s.stair ∧ s.grid.tc ≠ tc ∧ s.grid.change = none then
        { s.grid with change := some (s.grid.next, tc) } else s.grid } := by
  by_cases left : LeavesTc tc s.stair
  · rw [if_pos left, if_pos left, if_neg fun moves => moves.1 left]
    exact if_pos left
  · have moved : (¬ LeavesTc tc s.stair ∧ s.grid.tc ≠ tc ∧ s.grid.change = none) ↔
        s.grid.tc ≠ tc ∧ s.grid.change = none := and_iff_right left
    simp only [if_neg left, moved]
    refine (if_neg left).trans ?_
    by_cases moves : s.grid.tc ≠ tc ∧ s.grid.change = none
    · rw [if_pos moves]
      exact if_pos moves
    · rw [if_neg moves]
      exact if_neg moves

/-- What a BEACON carries of the stairwell, and the newel found. -/
def beaconNoted (m : BeaconMsg) (x : Stair) : Stair :=
  { x with
    newelLost := false, holdExp := false, count := m.count, shareMask := m.shareMask
    present := m.mapPresent, halls := m.mapHalls }

/-- A follower that has taken a BEACON's content and its Tc. -/
def beaconFollowed (m : BeaconMsg) (s : State) : State := beaconTc m.tc (setStair (beaconNoted m) s)

theorem beaconFollowed_eq (m : BeaconMsg) (s : State) : beaconFollowed m s =
    { s with
      stair := { beaconNoted m s.stair with
        newelTc := if LeavesTc m.tc s.stair then s.stair.newelTc else some m.tc
        leftTc := if LeavesTc m.tc s.stair then s.stair.leftTc else none }
      grid := if ¬ LeavesTc m.tc s.stair ∧ s.grid.tc ≠ m.tc ∧ s.grid.change = none then
        { s.grid with change := some (s.grid.next, m.tc) } else s.grid } :=
  beaconTc_eq m.tc _

/-- A follower judges a wait by the STAIR_MAP of its newel. -/
theorem beaconFollowed_annDone (m : BeaconMsg) (hn : s.newel = false) (w : AnnWait) :
    annDone w (beaconFollowed m s) = (m.mapPresent &&& ~~~w.acked == 0) := by
  have below : (beaconFollowed m s).newel = false := by
    rw [beaconFollowed_eq]
    exact hn
  simp only [annDone, State.mapPresent, below, Bool.false_eq_true, if_false]
  rw [beaconFollowed_eq]
  rfl

theorem finish_straps (p : Option Pkt) (r : Reply) (s : State) : (finish p r s).aon.straps = s.aon.straps := by
  cases p with
  | none => rfl
  | some p =>
    unfold finish answer sendReply sendReplyAt
    dsimp only
    (repeat' split) <;> simp only [rsPush_frame, emit_frame, State.setQueue]

theorem annCheck_pos (s : State) : (annCheck s).pos = s.pos := by
  have straps : (annCheck s).aon.straps = s.aon.straps := by
    refine each_keep (fun s : State => s.aon.straps) _ _ _ fun w u => ?_
    cases w.pkt with
    | none => rfl
    | some p => exact finish_straps _ _ u
  simp only [State.pos, straps]

theorem takeBeacon_follows {src : Fin 16} {m : BeaconMsg} (hc : s.pos < m.count) (hp : src.val < s.pos) :
    takeBeacon src m s = annCheck (beaconFollowed m s) := by
  have pos : (annCheck (beaconFollowed m s)).pos = s.pos := by
    rw [annCheck_pos, beaconFollowed_eq]
    rfl
  have placed : ¬ (m.count ≤ (annCheck (beaconFollowed m s)).pos ∨ (annCheck (beaconFollowed m s)).pos ≤ src.val) := by
    omega
  exact if_neg placed

/-- What a BEACON from above does at a position other than 0: a promoted device notes that the newel is back. -/
def beaconTaken (src : Fin 16) (m : BeaconMsg) (s : State) : State :=
  if s.stair.promote then setStair (fun y => { y with newelBack := true }) s else takeBeacon src m s

theorem execBeacon_heard {m : BeaconMsg} (hv : s.stairHears 1 h.via = true) (hc : h.crcOk = true) (hd : h.dst = 0xFF)
    (way : h.via ≠ .sd) (hp : s.pos ≠ 0) : ∃ v, Heard h s v ∧ execBeacon ⟨h, m⟩ s = .next (beaconTaken h.src m v) := by
  obtain ⟨v, heard, run⟩ := stairTake_heard (payload := beaconBytes m) (pass := !s.newel)
    (fun s => if s.pos = 0 ∨ h.via = .sd then s else beaconTaken h.src m s) hv hc (.inl hd)
  have above : ¬ (v.pos = 0 ∨ h.via = .sd) := by simp [heard.noted.pos, hp, way]
  exact ⟨v, heard, congrArg Host.Outcome.next (run.trans (if_neg above))⟩

/-! Beacons sent (R383, R386). -/

theorem execBeaconSend_sends (hd : s.downstream = true) (hn : s.newel = true) : execBeaconSend s =
    .next (forwardBeacon (emit (.stair true (stairFrame 1 s.pos s.onChainW 0xFF 0 (beaconBytes s.beacon))) s)) := by
  obtain ⟨hr, down⟩ := Bool.and_eq_true_iff.mp hd
  rw [execBeaconSend, if_neg (by simp [hr, hn]), stairSend_down 1 0xFF _ hr down]

theorem forwardBeacon_alone (h : s.twin.state ≠ 1 ∨ s.linkUp = false) : forwardBeacon s = s :=
  if_neg (by rcases h with h | h <;> simp [h])

theorem forwardBeacon_hands (h1 : s.twin.state = 1) (hl : s.linkUp = true) :
    ∃ l, forwardBeacon s = emit (.forward 0 0 none 0xE3 l (low40 s.now)) s :=
  ⟨_, if_pos (by simp [h1, hl])⟩

/-- An active sends a content of its own. -/
theorem beacon_active (h1 : s.twin.state = 1) : s.beacon = s.ownBeacon :=
  if_neg (by simp [standby_of_state h1])

/-! The newel lost, the end of holding, and PROMOTE (R386 to R388). -/

theorem execNewelLost_raises (hs : s.Runs) (hn : s.newel = false) (hl : s.stair.newelLost = false) : execNewelLost s =
    .next (raise 217 0 (setStair (fun x => { x with newelLost := true, leftTc := none }) s)) := by
  rw [execNewelLost, if_neg (by simp [show s.isOn .atrium = true from hs, hn, hl])]

theorem execHoldExp_raises (hs : s.Runs) (hn : s.newel = false) (hl : s.stair.newelLost = true)
    (he : s.stair.holdExp = false) : execHoldExp s =
      .next (raise 216 0 (setStair (fun x => { x with holdExp := true, sync := false, good := 0 }) s)) := by
  rw [execHoldExp, if_neg (by simp [show s.isOn .atrium = true from hs, hn, hl, he])]

theorem execPromote_runs (hs : s.Runs) : execPromote s = .next (promoteWrite true s).2 :=
  congrArg Host.Outcome.next (if_pos hs)

theorem execPromote_lost (hs : s.Runs) (hl : s.stair.newelLost = true) :
    execPromote s = .next (setStair (fun x => { x with promote := true }) s) := by
  rw [execPromote_runs hs, promoteWrite, if_pos rfl, if_pos hl]

theorem execPromote_refused (hs : s.Runs) (hl : s.stair.newelLost = false) : execPromote s = .next s := by
  rw [execPromote_runs hs, promoteWrite, if_pos rfl, if_neg (by simp [hl])]

theorem execFollowerRestore_runs (hs : s.Runs) :
    execFollowerRestore s = .next (setStair (fun x => { x with promote := false }) s) :=
  congrArg Host.Outcome.next (if_pos hs)

/-! Positions that leave STAIR_MAP (R376). -/

/-- STAIR_MAP without a position. -/
def lapsed (p : Fin 16) (s : State) : State := setStair (fun x => { x with present := x.present &&& ~~~(1#16 <<< p.val) }) s

theorem execStairMapPresenceLapse_runs (p : Fin 16) (hs : s.Runs) :
    execStairMapPresenceLapse p s = .next (annCheck (lapsed p s)) :=
  congrArg Host.Outcome.next (if_pos hs)

end Sys2Proof.Machine

open Sys2Proof.Machine in
/-- Settles O53, event by event: a frame that counts acts on the state that has noted it, and each other event is one change of
the stairwell's own state, with what it raises. -/
theorem stairBeacons : Obligations.StairBeacons := by
  unfold Obligations.StairBeacons
  intro s hs
  refine ⟨congrArg Host.Outcome.next (command_runs hs _ rfl), fun hl sd up => ?port,
    fun h m a x y t2 t3 t4 v d e l w c hc => ?frames,
    fun h m hv hc hd way hp => ?beacon, fun hd hn => ⟨fun alone => ?sent, fun h1 hl => ⟨beacon_active h1, ?handed⟩⟩,
    fun hn hl => ?lost, fun hn hl he => ?hold, fun hl => execPromote_lost hs hl, fun hl => execPromote_refused hs hl,
    execFollowerRestore_runs hs, fun p => ?lapse⟩
  case port =>
    have run := execStairPortChange_raises sd up (stairRuns_of_on hs hl)
    have frame := execStairPortChange_frame sd up s _ run
    refine ⟨_, run, ?_, ?_, raise_pend_same _ (portChanged_runs sd up hs) (by decide),
      by simp only [SameRegisters, SameGallery, frame, and_self, implies_true]⟩
    · simp only [raise_frame, portChanged_stair, portSet]
    · rintro rfl hb link
      exact raise_out _ _ (portChanged_reports hb link)
  case frames =>
    have takes : TakesFrame h c.1 c.2 s := by
      simp only [List.mem_cons, List.not_mem_nil, or_false] at hc
      rcases hc with rfl | rfl | rfl | rfl | rfl | rfl | rfl | rfl | rfl | rfl <;> exact ⟨_, _, _, rfl⟩
    exact ⟨takes.unheard, takes.badCrc⟩
  case beacon =>
    obtain ⟨v, heard, run⟩ := execBeacon_heard (m := m) hv hc hd way hp
    have noted := heard.noted
    have promote : v.stair.promote = s.stair.promote := by rw [noted.stair]
    have frame := execBeacon_frame ⟨h, m⟩ s _ run
    refine ⟨fun promoted => ?back, fun follows count upstream => ?follow⟩
    case back =>
      rw [beaconTaken, if_pos (promote.trans promoted)] at run
      refine ⟨_, run, ?_, ?_⟩
      · rw [setStair_stair, heard]
      · rw [heard]
        rfl
    case follow =>
      rw [beaconTaken, if_neg (by simp [promote, follows]),
        takeBeacon_follows (noted.pos.trans_lt count) (upstream.trans_eq noted.pos.symm)] at run frame
      have below : v.newel = false := (noted.newel.trans (newel_below hp)).trans follows
      have done := beaconFollowed_annDone m below
      have anns : v.stair.anns = s.stair.anns := by rw [noted.stair]
      refine ⟨_, run, ?_, ?_, fun idle => ?_, by simp only [SameRegisters, SameGallery, frame, and_self, implies_true]⟩
      · simp only [annCheck_stair, done]
        rw [beaconFollowed_eq, heard, (samePosition_noted h s).stair]
        rfl
      · simp only [annCheck_frame]
        rw [beaconFollowed_eq, heard.grid, noted.stair]
      · have nobody : (beaconFollowed m v).stair.anns = [] := by
          rw [beaconFollowed_eq]
          exact anns.trans idle
        rw [annCheck_idle (by simp [nobody]), beaconFollowed_eq, heard]
  case sent =>
    refine (execBeaconSend_sends hd hn).trans (congrArg Host.Outcome.next ?_)
    exact forwardBeacon_alone (s := emit _ s) alone
  case handed =>
    obtain ⟨l, handed⟩ := forwardBeacon_hands
      (s := emit (.stair true (stairFrame 1 s.pos s.onChainW 0xFF 0 (beaconBytes s.beacon))) s) h1 hl
    exact ⟨l, (execBeaconSend_sends hd hn).trans (congrArg Host.Outcome.next handed)⟩
  case lost =>
    have run := execNewelLost_raises hs hn hl
    have frame := execNewelLost_frame s _ run
    exact ⟨_, run, by simp only [raise_frame, setStair_stair], raise_pend_same _ hs (by decide),
      by simp only [SameRegisters, SameGallery, frame, and_self, implies_true]⟩
  case hold =>
    have run := execHoldExp_raises hs hn hl he
    have frame := execHoldExp_frame s _ run
    exact ⟨_, run, by simp only [raise_frame, setStair_stair], raise_pend_same _ hs (by decide),
      by simp only [SameRegisters, SameGallery, frame, and_self, implies_true]⟩
  case lapse =>
    have run := execStairMapPresenceLapse_runs p hs
    have frame := execStairMapPresenceLapse_frame p s _ run
    exact ⟨_, run, annCheck_stair _, annCheck_idle (s := lapsed p s),
      by simp only [SameRegisters, SameGallery, frame, and_self, implies_true]⟩

end

section
/-! The queue of waiting commands (log 2): a step runs the one at its front, and no command of any row adds to the queue or takes
from it. -/

namespace Sys2Proof.Machine

open Sys2Proof

theorem exec_pending {c : Instr} {s t : State} (hx : exec c s = .next t) : t.pending = s.pending := by
  cases c with
  | nop _ => simp only [execNop_frame _ s t hx]
  | resync _ _ => simp only [execResync_frame _ _ s t hx]
  | identify _ => simp only [execIdentify_frame _ s t hx]
  | status _ => simp only [execStatus_frame _ s t hx]
  | powerSet _ => simp only [execPowerSet_frame _ s t hx]
  | powerGet _ => simp only [execPowerGet_frame _ s t hx]
  | vcoreSet _ => simp only [execVcoreSet_frame _ s t hx]
  | domainReset _ => simp only [execDomainReset_frame _ s t hx]
  | eventRoute _ => simp only [execEventRoute_frame _ s t hx]
  | eventRead _ => simp only [execEventRead_frame _ s t hx]
  | cfgWrite _ => simp only [execCfgWrite_frame _ s t hx]
  | cfgRead _ => simp only [execCfgRead_frame _ s t hx]
  | cfgCommit _ => simp only [execCfgCommit_frame _ s t hx]
  | cfgCommitCheck _ => simp only [execCfgCommitCheck_frame _ s t hx]
  | cfgCommitDiscard _ => simp only [execCfgCommitDiscard_frame _ s t hx]
  | signalRead _ => simp only [execSignalRead_frame _ s t hx]
  | signalWrite _ => simp only [execSignalWrite_frame _ s t hx]
  | loopSet _ _ => simp only [execLoopSet_frame _ _ s t hx]
  | loopCoef _ _ => simp only [execLoopCoef_frame _ _ s t hx]
  | loopEnable _ _ => simp only [execLoopEnable_frame _ _ s t hx]
  | groupSet _ _ => simp only [execGroupSet_frame _ _ s t hx]
  | inject _ => simp only [execInject_frame _ s t hx]
  | capture _ => simp only [execCapture_frame _ s t hx]
  | captureRead _ => simp only [execCaptureRead_frame _ s t hx]
  | stageWrite _ _ => simp only [execStageWrite_frame _ _ s t hx]
  | loadAll _ => simp only [execLoadAll_frame _ s t hx]
  | safeSet _ => simp only [execSafeSet_frame _ s t hx]
  | safeRequest _ => simp only [execSafeRequest_frame _ s t hx]
  | hallMode _ => simp only [execHallMode_frame _ s t hx]
  | cellBypass _ _ => simp only [execCellBypass_frame _ _ s t hx]
  | cellRestore _ _ => simp only [execCellRestore_frame _ _ s t hx]
  | ctConfig _ _ => simp only [execCtConfig_frame _ _ s t hx]
  | ctConfigRead _ _ => simp only [execCtConfigRead_frame _ _ s t hx]
  | clrPerm _ _ => simp only [execClrPerm_frame _ _ s t hx]
  | ctStatus _ _ => simp only [execCtStatus_frame _ _ s t hx]
  | wearRead _ => simp only [execWearRead_frame _ s t hx]
  | wearParam _ => simp only [execWearParam_frame _ s t hx]
  | wearParamReset _ => simp only [execWearParamReset_frame _ s t hx]
  | adcSeq _ => simp only [execAdcSeq_frame _ s t hx]
  | adcRead _ => simp only [execAdcRead_frame _ s t hx]
  | calZero _ => simp only [execCalZero_frame _ s t hx]
  | calFull _ => simp only [execCalFull_frame _ s t hx]
  | calPriv _ => simp only [execCalPriv_frame _ s t hx]
  | testDac _ => simp only [execTestDac_frame _ s t hx]
  | testDacGain _ => simp only [execTestDacGain_frame _ s t hx]
  | testDacOpen _ => simp only [execTestDacOpen_frame _ s t hx]
  | testDacOut _ => simp only [execTestDacOut_frame _ s t hx]
  | tbRead _ => simp only [execTbRead_frame _ s t hx]
  | tbIncr _ => simp only [execTbIncr_frame _ s t hx]
  | tbAdj _ => simp only [execTbAdj_frame _ s t hx]
  | tcSet _ => simp only [execTcSet_frame _ s t hx]
  | pllSet _ => simp only [execPllSet_frame _ s t hx]
  | pllCommit _ => simp only [execPllCommit_frame _ s t hx]
  | safeParam _ => simp only [execSafeParam_frame _ s t hx]
  | safeCrcRead _ => simp only [execSafeCrcRead_frame _ s t hx]
  | safeConfirm _ => simp only [execSafeConfirm_frame _ s t hx]
  | safeConfirmWithdraw _ => simp only [execSafeConfirmWithdraw_frame _ s t hx]
  | release _ => simp only [execRelease_frame _ s t hx]
  | safeStatus _ => simp only [execSafeStatus_frame _ s t hx]
  | nvmStore _ => simp only [execNvmStore_frame _ s t hx]
  | nvmLoad _ => simp only [execNvmLoad_frame _ s t hx]
  | logRead _ => simp only [execLogRead_frame _ s t hx]
  | nvmStatus _ => simp only [execNvmStatus_frame _ s t hx]
  | streamSet _ => simp only [execStreamSet_frame _ s t hx]
  | streamEnable _ => simp only [execStreamEnable_frame _ s t hx]
  | twinStatus _ => simp only [execTwinStatus_frame _ s t hx]
  | demote _ => simp only [execDemote_frame _ s t hx]
  | rejoin _ => simp only [execRejoin_frame _ s t hx]
  | stairStatus _ => simp only [execStairStatus_frame _ s t hx]
  | tbTimeLatch => simp only [execTbTimeLatch_frame s t hx]
  | tbSyncStampLatch => simp only [execTbSyncStampLatch_frame s t hx]
  | unwrap _ => simp only [execUnwrap_frame _ s t hx]
  | fltSurveyGo _ _ => simp only [execFltSurveyGo_frame _ _ s t hx]
  | surveyDone _ _ => simp only [execSurveyDone_frame _ _ s t hx]
  | demand => simp only [execDemand_frame s t hx]
  | force => simp only [execForce_frame s t hx]
  | promote => simp only [execPromote_frame s t hx]
  | followerRestore => simp only [execFollowerRestore_frame s t hx]
  | wakeGo => simp only [execWakeGo_frame s t hx]
  | evtPendClear _ _ => simp only [execEvtPendClear_frame _ _ s t hx]
  | untrustedClear => simp only [execUntrustedClear_frame s t hx]
  | ptpTxGo _ => simp only [execPtpTxGo_frame _ s t hx]
  | ptpTxDone _ => simp only [execPtpTxDone_frame _ s t hx]
  | sensorFailClear _ => simp only [execSensorFailClear_frame _ s t hx]
  | sensorPinClear _ => simp only [execSensorPinClear_frame _ s t hx]
  | gpioFuncChange _ _ => simp only [execGpioFuncChange_frame _ _ s t hx]
  | mgmtRegisterWrite _ _ => simp only [execMgmtRegisterWrite_frame _ _ s t hx]
  | mgmtAddressMatch _ => simp only [execMgmtAddressMatch_frame _ s t hx]
  | mailboxPacket _ => simp only [execMailboxPacket_frame _ s t hx]
  | commandPacket _ _ _ => simp only [execCommandPacket_frame _ _ _ s t hx]
  | rsRead _ => simp only [execRsRead_frame _ s t hx]
  | statRead => simp only [execStatRead_frame s t hx]
  | spiCodeIgnored _ => simp only [execSpiCodeIgnored_frame _ s t hx]
  | arpRequest _ _ => simp only [execArpRequest_frame _ _ s t hx]
  | ptpFrameRx _ _ _ _ _ _ => simp only [execPtpFrameRx_frame _ _ _ _ _ _ s t hx]
  | ethFrameDiscard => simp only [execEthFrameDiscard_frame s t hx]
  | queueDispatch => simp only [execQueueDispatch_frame s t hx]
  | packetExecuteTime _ => simp only [execPacketExecuteTime_frame _ s t hx]
  | gatherDeparture => simp only [execGatherDeparture_frame s t hx]
  | gatherReturn _ _ _ _ => simp only [execGatherReturn_frame _ _ _ _ s t hx]
  | gatherLost _ _ => simp only [execGatherLost_frame _ _ s t hx]
  | atriumLoopStart => simp only [execAtriumLoopStart_frame s t hx]
  | hallSort _ _ => simp only [execHallSort_frame _ _ s t hx]
  | stageMapping _ => simp only [execStageMapping_frame _ s t hx]
  | atriumDeadline => simp only [execAtriumDeadline_frame s t hx]
  | commitPoint => simp only [execCommitPoint_frame s t hx]
  | deliverDeparture _ _ => simp only [execDeliverDeparture_frame _ _ s t hx]
  | keepAliveDeparture => simp only [execKeepAliveDeparture_frame s t hx]
  | landing => simp only [execLanding_frame s t hx]
  | sampleInstant => simp only [execSampleInstant_frame s t hx]
  | almReceived f west a b d => simp only [execAlmReceived_frame f west a b d s t hx]
  | ldnReceived _ _ => simp only [execLdnReceived_frame _ _ s t hx]
  | prbArrival _ _ => simp only [execPrbArrival_frame _ _ s t hx]
  | compareFire _ => simp only [execCompareFire_frame _ s t hx]
  | gpioPulseEnd _ => simp only [execGpioPulseEnd_frame _ s t hx]
  | syncOutPulse => simp only [execSyncOutPulse_frame s t hx]
  | syncOutPulseEnd => simp only [execSyncOutPulseEnd_frame s t hx]
  | syncInEdge _ _ => simp only [execSyncInEdge_frame _ _ s t hx]
  | refLoss => simp only [execRefLoss_frame s t hx]
  | plltUnlock => simp only [execPlltUnlock_frame s t hx]
  | plllUnlock => simp only [execPlllUnlock_frame s t hx]
  | pllRelock _ => simp only [execPllRelock_frame _ s t hx]
  | tbUntrusted => simp only [execTbUntrusted_frame s t hx]
  | grossFrequencyError _ _ => simp only [execGrossFrequencyError_frame _ _ s t hx]
  | galleryScrub _ _ _ => simp only [execGalleryScrub_frame _ _ _ s t hx]
  | dispatchTimeout => simp only [execDispatchTimeout_frame s t hx]
  | corridorGrantTimeout => simp only [execCorridorGrantTimeout_frame s t hx]
  | laneSelfTestDone _ _ => simp only [execLaneSelfTestDone_frame _ _ s t hx]
  | spareSelfTest _ _ => simp only [execSpareSelfTest_frame _ _ s t hx]
  | injectDone _ => simp only [execInjectDone_frame _ s t hx]
  | captureDone => simp only [execCaptureDone_frame s t hx]
  | restoreTimeout _ => simp only [execRestoreTimeout_frame _ s t hx]
  | retryTimeout _ => simp only [execRetryTimeout_frame _ s t hx]
  | derateTimeout _ => simp only [execDerateTimeout_frame _ s t hx]
  | junctionUpdate _ => simp only [execJunctionUpdate_frame _ s t hx]
  | wearJournalRound => simp only [execWearJournalRound_frame s t hx]
  | calRoundStart => simp only [execCalRoundStart_frame s t hx]
  | selfCalDone _ _ => simp only [execSelfCalDone_frame _ _ s t hx]
  | overlapDone _ => simp only [execOverlapDone_frame _ s t hx]
  | overlapTimeout => simp only [execOverlapTimeout_frame s t hx]
  | carrierTrigger _ _ => simp only [execCarrierTrigger_frame _ _ s t hx]
  | gpioTriggerEdge _ => simp only [execGpioTriggerEdge_frame _ s t hx]
  | adcConversionDone _ _ _ => simp only [execAdcConversionDone_frame _ _ _ s t hx]
  | sliceRequestDrop _ _ => simp only [execSliceRequestDrop_frame _ _ s t hx]
  | dsdFilterOutput _ _ => simp only [execDsdFilterOutput_frame _ _ s t hx]
  | calAverageDone => simp only [execCalAverageDone_frame s t hx]
  | calTimeout => simp only [execCalTimeout_frame s t hx]
  | testDacCheckDone _ => simp only [execTestDacCheckDone_frame _ s t hx]
  | testDacStall => simp only [execTestDacStall_frame s t hx]
  | hbtReceived _ _ _ => simp only [execHbtReceived_frame _ _ _ s t hx]
  | hbInEdge => simp only [execHbInEdge_frame s t hx]
  | hb1Lost => simp only [execHb1Lost_frame s t hx]
  | hb2Lost => simp only [execHb2Lost_frame s t hx]
  | twinLinkChange _ => simp only [execTwinLinkChange_frame _ s t hx]
  | demReceived => simp only [execDemReceived_frame s t hx]
  | decisionWord _ => simp only [execDecisionWord_frame _ s t hx]
  | commitWord _ _ => simp only [execCommitWord_frame _ _ s t hx]
  | measurementWord _ => simp only [execMeasurementWord_frame _ s t hx]
  | forwardedCommand _ _ _ _ _ => simp only [execForwardedCommand_frame _ _ _ _ _ s t hx]
  | pairApplyInstant => simp only [execPairApplyInstant_frame s t hx]
  | twinTimeMessage _ => simp only [execTwinTimeMessage_frame _ s t hx]
  | stateTransferUnit _ => simp only [execStateTransferUnit_frame _ s t hx]
  | rejoinTimeout => simp only [execRejoinTimeout_frame s t hx]
  | releasableReport _ => simp only [execReleasableReport_frame _ s t hx]
  | partnerTrainReceived _ _ _ => simp only [execPartnerTrainReceived_frame _ _ _ s t hx]
  | activeTrainObserved _ _ => simp only [execActiveTrainObserved_frame _ _ s t hx]
  | plannedTakeover => simp only [execPlannedTakeover_frame s t hx]
  | beacon _ => simp only [execBeacon_frame _ s t hx]
  | beaconSend => simp only [execBeaconSend_frame s t hx]
  | announce _ _ => simp only [execAnnounce_frame _ _ s t hx]
  | annAck _ _ _ => simp only [execAnnAck_frame _ _ _ s t hx]
  | announceTimeout => simp only [execAnnounceTimeout_frame s t hx]
  | timeReqSend => simp only [execTimeReqSend_frame s t hx]
  | timeReq _ => simp only [execTimeReq_frame _ s t hx]
  | timeResp _ _ _ => simp only [execTimeResp_frame _ _ _ s t hx]
  | share _ => simp only [execShare_frame _ s t hx]
  | statusSend => simp only [execStatusSend_frame s t hx]
  | stairStatusFrame _ _ _ => simp only [execStairStatusFrame_frame _ _ _ s t hx]
  | sigReq _ _ => simp only [execSigReq_frame _ _ s t hx]
  | sigResp _ _ => simp only [execSigResp_frame _ _ s t hx]
  | sigRespTimeout => simp only [execSigRespTimeout_frame s t hx]
  | telem _ _ _ => simp only [execTelem_frame _ _ _ s t hx]
  | stairPortChange _ _ => simp only [execStairPortChange_frame _ _ s t hx]
  | newelLost => simp only [execNewelLost_frame s t hx]
  | holdExp => simp only [execHoldExp_frame s t hx]
  | streamFrame _ => simp only [execStreamFrame_frame _ s t hx]
  | sinDemand i b => simp only [execSinDemand_frame i b s t hx]
  | sinDisc _ => simp only [execSinDisc_frame _ s t hx]
  | tpoPulse _ => simp only [execTpoPulse_frame _ s t hx]
  | testWindowEnd _ => simp only [execTestWindowEnd_frame _ s t hx]
  | fbReadbackFault => simp only [execFbReadbackFault_frame s t hx]
  | fbTExpiry => simp only [execFbTExpiry_frame s t hx]
  | checkValueRecompute => simp only [execCheckValueRecompute_frame s t hx]
  | hkRound _ _ _ => simp only [execHkRound_frame _ _ _ s t hx]
  | hkLate => simp only [execHkLate_frame s t hx]
  | dieShutdownCompare _ _ => simp only [execDieShutdownCompare_frame _ _ s t hx]
  | supplyFault _ _ => simp only [execSupplyFault_frame _ _ s t hx]
  | supplyFaultClear _ _ => simp only [execSupplyFaultClear_frame _ _ s t hx]
  | debugHalt => simp only [execDebugHalt_frame s t hx]
  | haltRelease => simp only [execHaltRelease_frame s t hx]
  | powerOnReset => simp only [execPowerOnReset_frame s t hx]
  | porRelease _ => simp only [execPorRelease_frame _ s t hx]
  | resetnAssert => simp only [execResetnAssert_frame s t hx]
  | resetnRelease _ _ => simp only [execResetnRelease_frame _ _ s t hx]
  | wakeStepDone _ _ => simp only [execWakeStepDone_frame _ _ s t hx]
  | wakeStepFail => simp only [execWakeStepFail_frame s t hx]
  | retEntryDone _ => simp only [execRetEntryDone_frame _ s t hx]
  | vcoreSettled _ => simp only [execVcoreSettled_frame _ s t hx]
  | phyLinkPoll _ => simp only [execPhyLinkPoll_frame _ s t hx]
  | phyResetRelease => simp only [execPhyResetRelease_frame s t hx]
  | nvmProgramDone _ => simp only [execNvmProgramDone_frame _ s t hx]
  | nvmEraseDone _ => simp only [execNvmEraseDone_frame _ s t hx]
  | hbtSend => simp only [execHbtSend_frame s t hx]
  | tpoPulseEnd _ => simp only [execTpoPulseEnd_frame _ s t hx]
  | safetyInputSample _ _ _ => simp only [execSafetyInputSample_frame _ _ _ s t hx]
  | referenceReturn => simp only [execReferenceReturn_frame s t hx]
  | ringPortReceiverChange _ _ _ => simp only [execRingPortReceiverChange_frame _ _ _ s t hx]
  | segmentFrames _ _ => simp only [execSegmentFrames_frame _ _ s t hx]
  | rcOscillatorRuns => simp only [execRcOscillatorRuns_frame s t hx]
  | stairMapPresenceLapse _ => simp only [execStairMapPresenceLapse_frame _ s t hx]

end Sys2Proof.Machine

open Sys2Proof.Machine in
/-- Settles O1, by what a step is on a queue with a command at its front. -/
theorem stepRunsTheFrontCommand : Obligations.StepRunsTheFrontCommand := by
  unfold Obligations.StepRunsTheFrontCommand
  intro c r s
  rfl

open Sys2Proof.Machine in
/-- Settles O5, command by command: the frame of each names the queue. -/
theorem commandsLeaveTheQueue : Obligations.CommandsLeaveTheQueue := by
  unfold Obligations.CommandsLeaveTheQueue
  exact fun _ _ _ => exec_pending

open Sys2Proof.Machine in
/-- Settles O3, register by register of the state that reset gives. -/
theorem resetState : Obligations.ResetState := by
  unfold Obligations.ResetState
  refine ⟨⟨rfl, fun d => ?domains, by decide, rfl, by decide, by decide, rfl, by decide, by decide, rfl, by decide, by decide,
    by decide, by decide, rfl, rfl, rfl, rfl⟩, List.Pairwise.nil, fun c hc => absurd hc List.not_mem_nil⟩
  case domains => cases d <;> rfl

end

section
/-! Events (R482, R483, R503, R504): EVENT_ROUTE writes a row of registers, EVENT_READ reports a range and clears what it reports, and
a write of EVT_PEND clears what it names. -/

namespace Sys2Proof.Machine

open Sys2Proof

variable {s : State} {w0 : Word} {l : List Word}

/-! Registers in a row. -/

/-- The registers from `a` on written, one word each. -/
def writeRow (a n : Nat) (v : Nat → Word) (s : State) : State := each (List.range n) (fun i s => s.setReg (a + 4 * i) (v i)) s

/-- A row of registers holds what was brought, and no other part of the state is another. -/
structure RowWritten (a n : Nat) (v : Nat → Word) (s t : State) : Prop where
  row : ∀ i < n, t.reg (a + 4 * i) = v i
  others : ∀ b, b < a ∨ a + 4 * n ≤ b → t.reg b = s.reg b
  only : t = { s with cfg := t.cfg }

theorem writeRow_written (a n : Nat) (v : Nat → Word) (s : State) : RowWritten a n v s (writeRow a n v s) where
  row i hi := by
    obtain ⟨u, -, after⟩ := each_own_turn (State.reg · (a + 4 * i)) (f := fun j s => State.setReg s (a + 4 * j) (v j)) (s := s)
      (List.mem_range.mpr hi) List.nodup_range fun j _ hj u => setReg_reg_ne u _ _ _ (by omega)
    exact after.trans (setReg_reg_same u _ _)
  others b hb := each_keep_mem (State.reg · b) fun i hi u => setReg_reg_ne u _ _ _ (by have := List.mem_range.mp hi; omega)
  only := by
    refine each_inv (Q := fun u => u = { s with cfg := u.cfg }) _ _ s (fun i u h => ?_) rfl
    exact congrArg (fun x => { x with cfg := (u.setReg (a + 4 * i) (v i)).cfg }) h

/-! EVENT_ROUTE. -/

theorem execEventRoute_writes (hs : s.Runs) (some_ : 0 < l.length) (len : fld w0 8 9 = l.length)
    (fit : fld w0 0 8 + l.length ≤ 231) : execEventRoute (w0 :: l) s =
      .next (refuse .ok (writeRow (0x68000 + 4 * fld w0 0 8) l.length (fun i => wd l i &&& 0xFF#32) s)) := by
  have accepted : ¬ (l.length = 0 ∨ 256 < fld w0 0 8 + l.length ∨ (List.range l.length).any (fun i =>
      decide (231 ≤ fld w0 0 8 + i) && wd (w0 :: l) (1 + i) &&& 0xFF#32 != 0) = true) := by
    simp only [List.any_eq_true, List.mem_range, Bool.and_eq_true, decide_eq_true_eq]
    rintro (none_ | far | ⟨i, hi, beyond, -⟩) <;> omega
  have first : wd (w0 :: l) 0 = w0 := rfl
  refine congrArg Host.Outcome.next ((command_runs hs _ (by simp [first, len]; omega)).trans ?_)
  simp only [first, len]
  rw [if_neg accepted]
  refine congrArg (refuse .ok) ?_
  simp only [writeRow, wd, Nat.mul_add, Nat.add_assoc, Nat.add_comm 1, List.getD_cons_succ]

/-! EVENT_READ. -/

theorem clearEvt_evt (e x : Nat) (s : State) : (clearEvt e s).evt x = if x = e then {} else s.evt x := by
  split
  · next h =>
    subst h
    by_cases hx : x < 256
    · exact vget_vset_same _ _ _ _ hx
    · simp only [State.evt, clearEvt, vset, vmod_out _ _ _ (Nat.not_lt.mp hx)]
      simp [vget, hx]
  · next h => exact vget_vset_ne _ _ _ _ _ (Ne.symm h)

theorem each_clearEvt_evt (l : List Nat) (x : Nat) (s : State) :
    (each l clearEvt s).evt x = if l.contains x then {} else s.evt x := by
  unfold each
  induction l generalizing s with
  | nil => rfl
  | cons e r ih =>
    rw [List.foldl_cons, ih, clearEvt_evt]
    by_cases h : x = e <;> simp [h]

theorem each_clearEvt_only (l : List Nat) (s : State) :
    each l clearEvt s = { s with events := { s.events with slots := (each l clearEvt s).events.slots } } :=
  each_inv (Q := fun u => u = { s with events := { s.events with slots := u.events.slots } }) _ _ s
    (fun e _ h => congrArg (clearEvt e) h) rfl

/-- The events a read of `c` events from `e` on finds, and those of them that its reply tells. -/
def State.foundEvents (s : State) (e c : Nat) : List Nat := ((List.range c).map (e + ·)).filter fun n => (s.evt n).pend
def State.toldEvents (s : State) (e c : Nat) : List Nat := (s.foundEvents e c).take ((s.replyLimit - 9) / 4)

/-- The first event of an EVENT_READ, and how many it names. -/
def readFirst (w0 : Word) : Nat := if bit w0 1 then 0 else fld w0 8 8
def readCount (w0 : Word) : Nat := if bit w0 1 then 256 else fld w0 16 9

theorem execEventRead_judges (w0 : Word) (hs : s.Runs) : execEventRead [w0] s =
    .next (if readCount w0 = 0 ∨ 256 < readFirst w0 + readCount w0 then refuse .badParam s else
      let found := s.foundEvents (readFirst w0) (readCount w0)
      let told := s.toldEvents (readFirst w0) (readCount w0)
      reply .ok ((List.range 8).map s.pendWord
        ++ [pack [(0, 9, told.length), (16, 1, b2n (decide (told.length < found.length)))]] ++ told.flatMap (reportWords s))
        (if bit w0 0 then each told clearEvt s else s)) :=
  congrArg Host.Outcome.next (command_runs hs _ rfl)

/-! EVT_PEND. -/

theorem execEvtPendClear_clears (i : Fin 8) (v : Word) (hs : s.Runs) : execEvtPendClear i v s =
    .next (each ((setBits 32 v.toNat).map (32 * i.val + ·)) clearEvt s) := by
  have hi := i.isLt
  have word : (0x6A000 + 4 * i.val - 0x6A000) / 4 = i.val := by omega
  refine congrArg Host.Outcome.next ((if_pos hs).trans ?_)
  unfold writeHost
  simp only [show ¬ 0x6A000 + 4 * i.val = 0x60028 by omega, show ¬ 0x6A000 + 4 * i.val = 0x60104 by omega,
    show ¬ (0x6A000 + 4 * i.val = 0x60108 ∨ 0x6A000 + 4 * i.val = 0x6010C) by omega,
    show ¬ (0x60400 ≤ 0x6A000 + 4 * i.val ∧ 0x6A000 + 4 * i.val < 0x60500) by omega,
    show 0x6A000 ≤ 0x6A000 + 4 * i.val ∧ 0x6A000 + 4 * i.val < 0x6A020 by omega, word, each, List.foldl_map, and_self,
    if_true, if_false]

theorem mem_evtBits {i x : Nat} (v : Word) :
    ((setBits 32 v.toNat).map (32 * i + ·)).contains x = true ↔ x / 32 = i ∧ v.getLsbD (x % 32) = true := by
  simp only [List.contains_iff_mem, List.mem_map, setBits, List.mem_filter, List.mem_range, BitVec.getLsbD]
  constructor
  · rintro ⟨b, ⟨hb, set⟩, rfl⟩
    rw [show (32 * i + b) % 32 = b by omega]
    exact ⟨by omega, set⟩
  · rintro ⟨word, set⟩
    exact ⟨x % 32, ⟨Nat.mod_lt _ (by decide), set⟩, by omega⟩

end Sys2Proof.Machine

open Sys2Proof.Machine in
/-- Settles O8: the routes are one row of registers, and what is cleared is a list of events, cleared one by one. -/
theorem eventOpcodes : Obligations.EventOpcodes := by
  unfold Obligations.EventOpcodes
  refine ⟨fun s w0 l hs some_ len fit => ?route, fun s w0 hs => ⟨fun bad => ?refused, fun some_ fit => ?reads⟩,
    fun s i v hs => ?clears⟩
  case route =>
    have written := writeRow_written (0x68000 + 4 * fld w0 0 8) l.length (fun i => wd l i &&& 0xFF#32) s
    refine ⟨_, execEventRoute_writes hs some_ len fit, rfl, fun i hi => ?_, fun x hx => ?_, congrArg (refuse .ok) written.only⟩
    · refine Eq.trans ?_ (written.row i hi)
      rw [State.route, Nat.mul_add, ← Nat.add_assoc]
      rfl
    · exact written.others _ (by omega)
  case refused => exact (execEventRead_judges w0 hs).trans (congrArg Host.Outcome.next (if_pos bad))
  case reads =>
    have fits : ¬ (readCount w0 = 0 ∨ 256 < readFirst w0 + readCount w0) := fun bad => by
      rcases bad with none_ | far
      · exact absurd none_ some_.ne'
      · exact absurd far (Nat.not_lt.mpr fit)
    refine ⟨_, (execEventRead_judges w0 hs).trans (congrArg Host.Outcome.next (if_neg fits)), rfl, fun x => ?_, ?_⟩
    · cases ack : bit w0 0
      · rfl
      · exact each_clearEvt_evt _ x s
    · split
      · exact congrArg (reply .ok _) (each_clearEvt_only _ s)
      · rfl
  case clears =>
    refine ⟨_, execEvtPendClear_clears i v hs, fun x _ => ?_, each_clearEvt_only _ s⟩
    rw [each_clearEvt_evt]
    exact if_congr (mem_evtBits v) rfl rfl

end

section
/-! Packets that arrive and leave over SPI (R470 to R477): the checks in their order, the place in the queue, the sequencer's choice
among the ready heads, and a NOP that it runs. -/

namespace Sys2Proof.Machine

open Sys2Proof

variable {s : State} {src : NetAddr} {l : List Byte} {p : Pkt}

/-! The reply stream. -/

/-- An item for the reply stream changes the stream and its count of drops alone. -/
theorem rsPush_eq (b : List Byte) (s : State) : rsPush b s =
    { s with host := { s.host with rs := (rsPush b s).host.rs, rsDrop := (rsPush b s).host.rsDrop } } := by
  unfold rsPush
  split <;> rfl

theorem rsPush_room {b : List Byte} (h : s.rsBytes + b.length ≤ 65536) :
    rsPush b s = { s with host := { s.host with rs := s.host.rs ++ [b] } } := if_pos h

theorem sendReply_spi (hp : p.transport = .spi) (r : Reply) (s : State) :
    sendReply p r s = rsPush (replyBytes p r (replyTime p r s)) s := by
  simp only [sendReply, sendReplyAt, hp]

/-! What an arriving packet is refused for (R470). -/

/-- An immediate refusal is answered, and every queue stays as it is. -/
structure TurnedAway (st : Status) (ws : List Word) (s t : State) : Prop where
  reply : t.Replies st ws
  crcErr : t.host.crcErr = s.host.crcErr
  queues : ∀ m, t.queue m = s.queue m

theorem turnAway_spi (hp : p.transport = .spi) (st : Status) (ws : List Word) (s : State) :
    TurnedAway st ws s (turnAway p st ws s) := by
  unfold turnAway
  rw [sendReply_spi hp, rsPush_eq]
  exact ⟨rfl, rfl, fun _ => rfl⟩

theorem execCommandPacket_spi (hs : s.Runs) : execCommandPacket .spi src l s =
    .next (if badMark l then discardFrame s else checkPacket .spi src l s) := by
  simp only [execCommandPacket, show s.isOn .atrium = true from hs, Bool.not_true, Bool.false_eq_true, reduceCtorEq, false_and,
    or_self, if_false]

theorem checkPacket_badLength (len : lengthOk .spi l s = false) :
    checkPacket .spi src l s = turnAway (headerOf .spi src l) .badLength [] s := by
  simp only [checkPacket, len, Bool.not_false, if_true]

theorem checkPacket_badCrc (len : lengthOk .spi l s = true) (crc : crcOk l = false) : checkPacket .spi src l s =
    turnAway (headerOf .spi src l) .badCrc [] (raise 219 0 { s with host := { s.host with crcErr := satInc 255 s.host.crcErr } }) := by
  simp only [checkPacket, len, crc, Bool.not_true, Bool.not_false, Bool.false_eq_true, if_true, if_false]

theorem checkPacket_good (len : lengthOk .spi l s = true) (crc : crcOk l = true) : checkPacket .spi src l s =
    if s.depth (headerOf .spi src l).queue.val = 0 then turnAway (headerOf .spi src l) .badQueue [] s
    else sequence (headerOf .spi src l) (BitVec.ofNat 32 (fieldAt l 12 4)) ((l.length + 63) / 64) s := by
  simp only [checkPacket, len, crc, Bool.not_true, Bool.false_eq_true, if_false]

theorem raise_queue (e : Nat) (w : Word) (s : State) (m : Nat) : (raise e w s).queue m = s.queue m := by
  simp only [State.queue]
  rw [raise_host]

/-! The sequence number, and the place in the queue (R471, R475, R476). -/

theorem sequence_expected (nb : Word) (blocks : Nat) (own : p.seq = (s.queue p.queue.val).expect) :
    sequence p nb blocks s = room p nb blocks s := if_pos (.inl (by simp [own]))

theorem sequence_ahead (nb : Word) (blocks : Nat) (new : isResync p = false)
    (ahead : 0 < (p.seq - (s.queue p.queue.val).expect).toNat)
    (near : (p.seq - (s.queue p.queue.val).expect).toNat < 2 ^ 31) :
    sequence p nb blocks s = turnAway p .state [(s.queue p.queue.val).expect] s :=
  (if_neg (by simp only [new, Bool.false_eq_true, or_false]; exact ahead.ne')).trans (if_pos near)

theorem room_accepts (nb : Word) {blocks : Nat} (place : (s.queue p.queue.val).pkts.length < s.depth p.queue.val)
    (free : blocks ≤ s.sharedFree + s.ownFree p.queue.val) : room p nb blocks s = accept p nb blocks s := if_pos ⟨place, free⟩

/-- The packet as it is queued (R474, R475). -/
def queued (p : Pkt) (nb : Word) (blocks : Nat) (s : State) : Pkt :=
  { p with got := s.now, execAt := (judgeNb nb s).1, late := (judgeNb nb s).2, arrival := s.host.arrivals
           shared := min blocks s.sharedFree, own := blocks - min blocks s.sharedFree }

theorem accept_queue_same (p : Pkt) (nb : Word) (blocks : Nat) (s : State) : (accept p nb blocks s).queue p.queue.val =
    { s.queue p.queue.val with
      expect := p.seq + 1
      recent := ({ seq := p.seq, tag := p.tag, crc := p.crc } ::
        (if isResync (queued p nb blocks s) then [] else (s.queue p.queue.val).recent)).take 8
      pkts := (s.queue p.queue.val).pkts ++ [queued p nb blocks s] } := setQueue_queue_same _ _ _ p.queue.isLt

theorem accept_queue_ne {m : Nat} (h : m ≠ p.queue.val) (nb : Word) (blocks : Nat) (s : State) :
    (accept p nb blocks s).queue m = s.queue m := setQueue_queue_ne _ _ _ _ h.symm

theorem accept_only (p : Pkt) (nb : Word) (blocks : Nat) (s : State) :
    accept p nb blocks s = { s with reply := none, host := (accept p nb blocks s).host } := rfl

/-! The sequencer's choice (R477). -/

theorem sooner_or (a b : Pkt) : sooner a b = a ∨ sooner a b = b := by
  unfold sooner
  split
  · exact .inl rfl
  · exact .inr rfl

/-- `p` goes before `r`, or as well as it. -/
def Pkt.goesBefore (p r : Pkt) : Prop := r.prio < p.prio ∨ (r.prio = p.prio ∧ p.arrival ≤ r.arrival)

theorem Pkt.goesBefore.refl (p : Pkt) : p.goesBefore p := .inr ⟨rfl, le_rfl⟩

theorem Pkt.goesBefore.trans {p q r : Pkt} (hp : p.goesBefore q) (hq : q.goesBefore r) : p.goesBefore r := by
  unfold Pkt.goesBefore at *
  omega

theorem sooner_goesBefore (a b : Pkt) : (sooner a b).goesBefore a ∧ (sooner a b).goesBefore b := by
  unfold sooner Pkt.goesBefore
  split <;> omega

/-- The better of the packet held so far and each of a list in turn. -/
def best (l : List Pkt) (a : Option Pkt) : Option Pkt :=
  l.foldl (fun a p => some (match a with | some x => sooner x p | none => p)) a

theorem best_some (l : List Pkt) (a : Pkt) : ∃ p, best l (some a) = some p ∧ (p = a ∨ p ∈ l) ∧ p.goesBefore a ∧
    ∀ r ∈ l, p.goesBefore r := by
  induction l generalizing a with
  | nil => exact ⟨a, rfl, .inl rfl, .refl a, fun _ h => absurd h List.not_mem_nil⟩
  | cons b r ih =>
    obtain ⟨p, eq, mem, before, rest⟩ := ih (sooner a b)
    obtain ⟨overA, overB⟩ := sooner_goesBefore a b
    refine ⟨p, eq, ?_, before.trans overA, List.forall_mem_cons.mpr ⟨before.trans overB, rest⟩⟩
    rcases mem with rfl | mem
    · exact (sooner_or a b).imp_right fun h => List.mem_cons.mpr (.inl h)
    · exact .inr (List.mem_cons_of_mem b mem)

/-- What is chosen is a ready head, and it goes before every other one. -/
theorem chosen_first (h : chosen s = some p) : (∃ n < 64, ready s n = some p) ∧
    ∀ n < 64, ∀ r, ready s n = some r → p.goesBefore r := by
  have heads : ∀ r, r ∈ (List.range 64).filterMap (ready s) ↔ ∃ n < 64, ready s n = some r := fun r => by
    simp only [List.mem_filterMap, List.mem_range]
  have run : best ((List.range 64).filterMap (ready s)) none = some p := h
  cases all : (List.range 64).filterMap (ready s) with
  | nil =>
    rw [all] at run
    cases run
  | cons a r =>
    rw [all] at run heads
    obtain ⟨q, eq, mem, before, rest⟩ := best_some r a
    obtain rfl : q = p := Option.some.inj (eq.symm.trans run)
    refine ⟨(heads q).mp (List.mem_cons.mpr mem), fun n hn x hx => ?_⟩
    rcases List.mem_cons.mp ((heads x).mpr ⟨n, hn, hx⟩) with rfl | later
    · exact before
    · exact rest x later

/-! A packet that is run (R461, R477). -/

/-- The head of a queue is ready over SPI only where the largest reply of its opcode finds room in the reply stream (R461). -/
theorem ready_room {n : Nat} (h : ready s n = some p) (hp : p.transport = .spi) : s.rsBytes + largestReply p ≤ 65536 := by
  unfold ready at h
  cases heads : (s.queue n).pkts with
  | nil =>
    simp only [heads, reduceCtorEq] at h
  | cons x rest =>
    simp only [heads] at h
    split at h
    · cases h
    · next free =>
      obtain rfl : x = p := Option.some.inj h
      have room : ¬ 65536 < s.rsBytes + largestReply x := fun full => free (by simp [hp, full])
      exact Nat.not_lt.mp room

theorem leBytes_length (n v : Nat) : (leBytes n v).length = n := by
  induction n generalizing v with
  | zero => rfl
  | succ n ih => rw [leBytes, List.length_cons, ih]

theorem replyBytes_length (p : Pkt) (r : Reply) (t : Nat) : (replyBytes p r t).length = 24 + 4 * r.words.length := by
  simp only [replyBytes, withCrc, List.length_append, leBytes_length, List.length_cons, List.length_nil, wordBytes_length]
  omega

/-- The answer of a packet over SPI that stands at the head of its queue: it leaves the queue, which goes on, and its reply waits in
the stream. -/
theorem answer_head {rest : List Pkt} (hp : p.transport = .spi) (r : Reply) (head : (s.queue p.queue.val).pkts = p :: rest) :
    answer p r s =
      let r := { r with status := lateStatus p.late r.status, pair := p.applied }
      sendReply p r (s.setQueue p.queue.val fun q => noteAnswer p r (replyTime p r s) { q with pkts := rest, held := false }) := by
  unfold answer
  simp only [hp, reduceCtorEq, if_false, head, if_true]

/-- The reply of a NOP. -/
def nopReply (p : Pkt) : Reply := { status := if p.late then .late else .ok, pair := p.applied }

/-- A NOP that has been run is out of its queue, which goes on. -/
def nopDone (p : Pkt) (rest : List Pkt) (s : State) : State :=
  State.setQueue { s with reply := some { status := .ok }, host := { s.host with cur := none } } p.queue.val fun q =>
    noteAnswer p (nopReply p) s.now { q with pkts := rest, held := false }

theorem nopDone_queue (p : Pkt) (rest : List Pkt) (s : State) : (nopDone p rest s).queue p.queue.val =
    noteAnswer p (nopReply p) s.now { s.queue p.queue.val with pkts := rest, held := false } :=
  setQueue_queue_same _ _ _ p.queue.isLt

theorem execQueueDispatch_nop {rest : List Pkt} (hs : s.Runs) (goes : s.atr.halted = false) (free : s.sequencerBusy = false)
    (alone : s.twin.state = 0) (first : chosen s = some p) (good : p.ecc = false) (hp : p.transport = .spi) (op : p.op = 0)
    (empty : p.words = []) (head : (s.queue p.queue.val).pkts = p :: rest) :
    execQueueDispatch s = .next (rsPush (replyBytes p (nopReply p) s.now) (nopDone p rest s)) := by
  have runs : ∀ u : State, u.Runs → u.twin.state = 0 → execute p u = refuse .ok u := fun u hu alone => by
    simp only [execute, standbyRefuses, State.standby, alone, op, empty, runOp, runSystem, execNop_on (w := []) hu (Nat.zero_le 1)]
    rfl
  have late : lateStatus p.late .ok = if p.late then .late else .ok := by cases p.late <;> rfl
  have time : ∀ u : State, replyTime p { status := if p.late then .late else .ok, words := [], pair := p.applied } u = u.now :=
    fun u => by cases p.late <;> rfl
  have ran : (execute p { s with host := { s.host with cur := some p } }) = refuse .ok { s with host := { s.host with cur := some p } } :=
    runs _ hs alone
  unfold execQueueDispatch
  simp only [show s.isOn .atrium = true from hs, goes, free, first, good, Bool.not_true, Bool.false_eq_true, Bool.or_self, if_false,
    serve, ran]
  refine congrArg Host.Outcome.next ((answer_head (s := { refuse .ok s with host := { s.host with cur := none } }) hp _ head).trans ?_)
  simp only [sendReply_spi hp, late, time]
  rfl

end Sys2Proof.Machine

open Sys2Proof.Machine in
/-- Settles O18: the sequencer holds the better of two heads at each of its comparisons. -/
theorem highestPriorityFirst : Obligations.HighestPriorityFirst := by
  unfold Obligations.HighestPriorityFirst
  exact fun _ _ => chosen_first

open Sys2Proof.Machine in
/-- Settles O17, check by check in the order of Table 14-5. -/
theorem packetArrival : Obligations.PacketArrival := by
  unfold Obligations.PacketArrival
  refine ⟨?queued, fun s src l hs => ?refused⟩
  case queued =>
    intro s src l hs mark len crc p q depth own place free
    have run : exec (.commandPacket .spi src l) s = .next (accept p (BitVec.ofNat 32 (fieldAt l 12 4)) ((l.length + 63) / 64) s) := by
      refine (execCommandPacket_spi hs).trans (congrArg Host.Outcome.next ?_)
      rw [mark, if_neg Bool.false_ne_true, checkPacket_good len crc, if_neg depth, sequence_expected _ _ own, room_accepts _ place free]
    refine ⟨_, queued p (BitVec.ofNat 32 (fieldAt l 12 4)) ((l.length + 63) / 64) s, run, ?_, rfl, rfl, rfl, rfl, rfl, rfl, ?_,
      fun m hm => accept_queue_ne hm _ _ s, accept_only _ _ _ s⟩
    · rw [accept_queue_same]
    · rw [accept_queue_same]
  case refused =>
    intro p q
    refine ⟨fun mark => ?discarded, fun mark len => ?badLength, fun mark len crc => ?badCrc,
      fun mark len crc => ⟨fun none_ => ?badQueue, fun some_ new ahead near => ?ahead⟩⟩
    case discarded =>
      refine (execCommandPacket_spi hs).trans ?_
      rw [mark, if_pos rfl]
      rfl
    case badLength =>
      have away := turnAway_spi (p := p) rfl .badLength [] s
      refine ⟨_, (execCommandPacket_spi hs).trans ?_, away.reply, away.queues⟩
      rw [mark, if_neg Bool.false_ne_true, checkPacket_badLength len]
    case badCrc =>
      have away := turnAway_spi (p := p) rfl .badCrc [] (raise 219 0 { s with host := { s.host with crcErr := satInc 255 s.host.crcErr } })
      refine ⟨_, (execCommandPacket_spi hs).trans ?_, away.reply, ?_, fun m => (away.queues m).trans (raise_queue _ _ _ m)⟩
      · rw [mark, if_neg Bool.false_ne_true, checkPacket_badCrc len crc]
      · rw [away.crcErr, raise_host]
    case badQueue =>
      have away := turnAway_spi (p := p) rfl .badQueue [] s
      refine ⟨_, (execCommandPacket_spi hs).trans ?_, away.reply, away.queues⟩
      rw [mark, if_neg Bool.false_ne_true, checkPacket_good len crc, if_pos none_]
    case ahead =>
      have away := turnAway_spi (p := p) rfl .state [(s.queue q).expect] s
      refine ⟨_, (execCommandPacket_spi hs).trans ?_, away.reply, away.queues⟩
      rw [mark, if_neg Bool.false_ne_true, checkPacket_good len crc, if_neg some_, sequence_ahead _ _ new ahead near]

open Sys2Proof.Machine in
/-- Settles O19: the room that a ready head's reply has in the stream is room for the 24 bytes of a NOP's. -/
theorem queueExecution : Obligations.QueueExecution := by
  unfold Obligations.QueueExecution
  refine fun s hs => ⟨fun goes free alone p rest first good hp op empty head => ?nop, fun q p rest head => ?time⟩
  case nop =>
    obtain ⟨⟨n, -, isReady⟩, -⟩ := chosen_first first
    have size : (replyBytes p (nopReply p) s.now).length = largestReply p := by
      rw [replyBytes_length, largestReply, op]
      rfl
    have room : (nopDone p rest s).rsBytes + (replyBytes p (nopReply p) s.now).length ≤ 65536 := by
      have largest := ready_room isReady hp
      rwa [size]
    have run := execQueueDispatch_nop hs goes free alone first good hp op empty head
    rw [rsPush_room room] at run
    have out := nopDone_queue p rest s
    exact ⟨_, run, congrArg Queue.pkts out, congrArg Queue.held out, rfl, ⟨rfl, rfl⟩, fun _ => rfl, rfl⟩
  case time =>
    show execPacketExecuteTime q s = _
    simp only [execPacketExecuteTime, head, if_pos (show s.isOn .atrium = true from hs)]

end

section
/-! The SPI and Ethernet ports (R458 to R465): each event by what its port does while the port's domain is ON. -/

namespace Sys2Proof.Machine

open Sys2Proof

variable {s : State}

theorem execRsRead_on (hs : s.Runs) (n : Nat) : execRsRead n s = .next (emit (.spi (bytesAt (takeStream n s.host.rs).1 0 n))
    { s with host := { s.host with rs := (takeStream n s.host.rs).2 } }) :=
  congrArg Host.Outcome.next (if_neg (by simp [show s.isOn .atrium = true from hs]))

theorem execStatRead_on (hs : s.Runs) : execStatRead s = .next (emit (.spi (leBytes 4 (spiStat s).toNat)) s) :=
  congrArg Host.Outcome.next (if_pos hs)

theorem execSpiCodeIgnored_on (hs : s.Runs) {c : Byte} (h1 : c ≠ 1) (h2 : c ≠ 2) (h3 : c ≠ 3) :
    execSpiCodeIgnored c s = .next (discardFrame s) :=
  congrArg Host.Outcome.next (if_pos ⟨hs, not_or.mpr ⟨h1, not_or.mpr ⟨h2, h3⟩⟩⟩)

theorem execArpRequest_own (hn : s.isOn .net = true) (src : NetAddr) :
    execArpRequest (s.reg 0x60004) src s = .next (emit (.arpReply src) s) :=
  congrArg Host.Outcome.next ((if_neg (by simp [hn])).trans (if_pos rfl))

theorem execEthFrameDiscard_on (hn : s.isOn .net = true) : execEthFrameDiscard s = .next (discardFrame s) :=
  congrArg Host.Outcome.next (if_pos hn)

theorem execPhyResetRelease_on (hn : s.isOn .net = true) :
    execPhyResetRelease s = .next { s with host := { s.host with phyRelease := true } } :=
  congrArg Host.Outcome.next (if_pos hn)

/-- The link as the PHY reports it, after the read of its register (R465). -/
def phyPolled (r : PhyRead) (s : State) : State :=
  emit (.mdioRead (fld (s.reg 0x60000) 24 5) 1) { s with host := { s.host with phyUp := r.up, phySpeed := r.speed.val } }

theorem execPhyLinkPoll_on (hn : s.isOn .net = true) (r : PhyRead) : execPhyLinkPoll r s =
    .next (if s.host.phyUp != r.up then raise 229 (pack [(0, 1, b2n r.up), (1, 2, r.speed.val)]) (phyPolled r s) else phyPolled r s) :=
  congrArg Host.Outcome.next (if_neg (by simp [hn]))

theorem execPhyLinkPoll_same (hn : s.isOn .net = true) {r : PhyRead} (same : s.host.phyUp = r.up) :
    execPhyLinkPoll r s = .next (phyPolled r s) :=
  (execPhyLinkPoll_on hn r).trans (congrArg Host.Outcome.next (if_neg (by simp [same])))

theorem execPhyLinkPoll_changed (hn : s.isOn .net = true) {r : PhyRead} (other : s.host.phyUp ≠ r.up) :
    execPhyLinkPoll r s = .next (raise 229 (pack [(0, 1, b2n r.up), (1, 2, r.speed.val)]) (phyPolled r s)) :=
  (execPhyLinkPoll_on hn r).trans (congrArg Host.Outcome.next (if_pos (bne_iff_ne.mpr other)))

end Sys2Proof.Machine

open Sys2Proof.Machine in
/-- Settles O20, event by event; a link that changes is the one that raises its event. -/
theorem portEvents : Obligations.PortEvents := by
  unfold Obligations.PortEvents
  refine fun s => ⟨fun hs n => execRsRead_on hs n, fun hs => execStatRead_on hs,
    fun hs c h1 h2 h3 => execSpiCodeIgnored_on hs h1 h2 h3, fun hn => ⟨fun src => execArpRequest_own hn src,
      execEthFrameDiscard_on hn, execPhyResetRelease_on hn, fun r => ?link⟩⟩
  case link =>
    by_cases same : s.host.phyUp = r.up
    · exact ⟨_, execPhyLinkPoll_same hn same, rfl, rfl, fun _ other => absurd same other, fun _ => rfl, ⟨rfl, rfl⟩, fun _ => rfl⟩
    · refine ⟨_, execPhyLinkPoll_changed hn same, ?_, ?_, fun hs _ => raise_pend_same _ hs (by decide), fun h => absurd h same, ?_⟩
      · rw [raise_host]
        rfl
      · rw [raise_host]
        rfl
      · simp only [SameRegisters, SameGallery, raise_frame]
        exact ⟨⟨rfl, rfl⟩, fun _ => rfl⟩

end

section
/-! The management port of a device that is awake in AON (R448, R449, R466 to R468): its address, reads from the pointer on, a write of
PWR_WAKE_SET, and IDENTIFY through the mailbox. -/

namespace Sys2Proof.Machine

open Sys2Proof

variable {s : State}

theorem mgmtOpen_parts (h : s.mgmtOpen = true) : s.aon.rcRuns = true ∧ s.aon.held = false ∧ s.aon.porHold = false := by
  simpa [State.mgmtOpen, and_assoc] using h

/-! The address of a transfer. -/

theorem execMgmtAddressMatch_other {a : MgmtAddr} (other : a.addr.toNat ≠ 0x34 + s.aon.straps.addr.val) :
    execMgmtAddressMatch a s = .next s :=
  congrArg Host.Outcome.next (if_pos (by simp [other]))

theorem execMgmtAddressMatch_own {a : MgmtAddr} (free : s.aon.porHold = false)
    (own : a.addr.toNat = 0x34 + s.aon.straps.addr.val) : execMgmtAddressMatch a s =
      .next (let u := if s.aon.wakeOnAddr then startWake (emit .mgmtAck s) else emit .mgmtAck s
        match a.read with
        | some n => rcIdle (mgmtRead n u)
        | none => u) :=
  congrArg Host.Outcome.next (if_neg (by simp [free, own]))

theorem mgmtRead_runs (hr : s.aon.rcRuns = true) (n : Nat) : mgmtRead n s =
    emit (.mgmtRead ((List.range n).map fun i => mgmtByte ((s.aon.ptr + i) % 2 ^ 24) s))
      (setAon (fun a => { a with ptr := (a.ptr + n) % 2 ^ 24 }) s) := if_pos (by simp [hr])

theorem rcIdle_runs (hr : s.aon.rcRuns = true) :
    rcIdle s = setAon (fun a => { a with rcRuns := s.anyDomUp || s.aon.seq.isSome }) s := by
  simp only [rcIdle, setAon, hr, Bool.true_and]

/-! A write of four bytes to PWR_WAKE_SET. -/

theorem leBytes_four (v : Nat) : leBytes 4 v = [BitVec.ofNat 8 v, BitVec.ofNat 8 (v / 256), BitVec.ofNat 8 (v / 256 / 256),
    BitVec.ofNat 8 (v / 256 / 256 / 256)] := rfl

theorem ofBytes_leBytes_four (v : Word) : BitVec.ofNat 32 (ofBytes (leBytes 4 v.toNat)) = v := by
  have lt := v.isLt
  refine BitVec.eq_of_toNat_eq ?_
  simp only [leBytes_four, ofBytes, BitVec.toNat_ofNat]
  omega

/-- The bytes of a write to PWR_WAKE_SET at their addresses. -/
theorem mapIdx_wakeSet (v : Nat) : (leBytes 4 v).mapIdx (fun i b => (0x210 + i, b)) = [(0x210, BitVec.ofNat 8 v),
    (0x211, BitVec.ofNat 8 (v / 256)), (0x212, BitVec.ofNat 8 (v / 256 / 256)), (0x213, BitVec.ofNat 8 (v / 256 / 256 / 256))] := rfl

/-- The registers that a write of those bytes completes: PWR_WAKE_SET alone. -/
theorem registers_wakeSet (b0 b1 b2 b3 : Byte) : (((List.range 64).map fun i => 0x200 + 4 * i).filter fun a =>
    [(0x210, b0), (0x211, b1), (0x212, b2), (0x213, b3)].any fun (x : Nat × Byte) => x.1 == a + 3) = [0x210] := by
  refine (List.filter_congr (q := (· == 0x210)) fun a ha => ?_).trans (by decide)
  obtain ⟨i, -, rfl⟩ := List.mem_map.mp ha
  rw [Bool.eq_iff_iff]
  simp only [List.any_cons, List.any_nil, Bool.or_false, Bool.or_eq_true, beq_iff_eq]
  omega

theorem mgmtValue_wakeSet (v : Word) (s : State) :
    mgmtValue 0x210 ((leBytes 4 v.toNat).mapIdx fun i b => (0x210 + i, b)) s = v :=
  ofBytes_leBytes_four v

theorem writeAon_wakeSet {v : Word} (fit : wakeSetOk (v &&& 0xFFFF03FF#32) s = true) :
    writeAon 0x210 v s = (.ok, setAon (fun a => { a with wakeSet := v &&& 0xFFFF03FF#32 }) s) := if_pos fit

theorem execMgmtRegisterWrite_wakeSet {v : Word} (awake : s.mgmtOpen = true) (fit : wakeSetOk (v &&& 0xFFFF03FF#32) s = true) :
    execMgmtRegisterWrite 0x210 (leBytes 4 v.toNat) s = .next (rcIdle (setAon (fun a => { a with wakeSet := v &&& 0xFFFF03FF#32 })
      (emit (.mgmtWrite (List.replicate 7 true)) (setAon (fun a => { a with ptr := 0x214 }) s)))) := by
  obtain ⟨-, -, free⟩ := mgmtOpen_parts awake
  let u := emit (.mgmtWrite (List.replicate 7 true)) (setAon (fun a => { a with ptr := 0x214 }) s)
  have fit' : wakeSetOk (v &&& 0xFFFF03FF#32) u = true := fit
  have written : (fun r : Status × State => if r.1 = .ok then r.2 else u)
      (writeAon 0x210 (mgmtValue 0x210 ((leBytes 4 v.toNat).mapIdx fun i b => (0x210 + i, b)) u) u) =
      setAon (fun a => { a with wakeSet := v &&& 0xFFFF03FF#32 }) u := by
    rw [mgmtValue_wakeSet, writeAon_wakeSet fit']
    rfl
  refine congrArg Host.Outcome.next ((if_neg (by simp [free])).trans ((if_neg (by simp [awake])).trans ?_))
  refine (if_neg (by simp [leBytes_four])).trans (congrArg rcIdle ?_)
  rw [mapIdx_wakeSet, registers_wakeSet, ← mapIdx_wakeSet]
  exact written

/-! A packet with IDENTIFY in the mailbox (R468). -/

/-- The device as the mailbox's packet finds it: the transfer is acknowledged, and an unread reply is gone. -/
def mailboxTaken (n : Nat) (s : State) : State :=
  emit (.mgmtWrite (List.replicate (3 + n) true)) (setAon (fun a => { a with mailbox := [], ptr := (0xFFFF00 + n) % 2 ^ 24 }) s)

/-- The reply of IDENTIFY. -/
def identity (s : State) : Reply := { status := .ok, words := identityWords s }

theorem execMailboxPacket_good {l : List Byte} (awake : s.mgmtOpen = true) (mark : badMark l = false)
    (len : lengthOk .i2c l s = true) (crc : crcOk l = true) : execMailboxPacket l s =
      .next (rcIdle (serve (headerOf .i2c {} l) (runMailbox (headerOf .i2c {} l) (fieldAt l 12 4)) (mailboxTaken l.length s))) := by
  obtain ⟨-, -, free⟩ := mgmtOpen_parts awake
  have len' : lengthOk .i2c l (mailboxTaken l.length s) = true := len
  refine congrArg Host.Outcome.next ((if_neg (by simp [free])).trans ((if_neg (by simp [awake])).trans ?_))
  refine congrArg rcIdle ((if_neg (by simp [mark])).trans ?_)
  exact (if_neg (by rw [Bool.not_eq_true, Bool.not_eq_false']; exact len')).trans (if_neg (by simp [crc]))

theorem runMailbox_identify {p : Pkt} (op : p.op = 1) (empty : p.words = []) (s : State) :
    runMailbox p 0 s = reply .ok (identityWords s) s := by
  simp only [runMailbox, op, empty]
  rfl

theorem serve_identify {p : Pkt} (hp : p.transport = .i2c) (op : p.op = 1) (empty : p.words = []) (early : p.late = false)
    (own : p.applied = false) (s : State) : serve p (runMailbox p 0) s = { s with
      reply := some (identity s)
      host := { s.host with cur := none }
      aon := { s.aon with mailbox := replyBytes p (identity s) s.now } } := by
  unfold serve
  simp only [runMailbox_identify op empty, reply, answer, hp, if_true, early, own]
  unfold sendReply sendReplyAt
  simp only [hp]
  rfl

theorem headerOf_fresh (t : Transport) (src : NetAddr) (l : List Byte) :
    (headerOf t src l).transport = t ∧ (headerOf t src l).late = false ∧ (headerOf t src l).applied = false := ⟨rfl, rfl, rfl⟩

end Sys2Proof.Machine

open Sys2Proof.Machine in
/-- Settles O21, transfer by transfer: an address, a read, a write of four bytes and a packet, each by what an open port does. -/
theorem managementPort : Obligations.ManagementPort := by
  unfold Obligations.ManagementPort
  refine fun s awake => ?_
  obtain ⟨runs, -, free⟩ := mgmtOpen_parts awake
  refine ⟨fun a other => execMgmtAddressMatch_other other, fun a own none_ => ?match_, fun a n own some_ asleep => ?read,
    fun v fit => ?write, fun l mark len crc nb op empty => ?mailbox⟩
  case match_ =>
    refine (execMgmtAddressMatch_own free own).trans ?_
    rw [none_]
    rfl
  case read =>
    refine (execMgmtAddressMatch_own free own).trans ?_
    rw [some_, asleep, if_neg Bool.false_ne_true]
    refine congrArg Host.Outcome.next ?_
    dsimp only
    rw [mgmtRead_runs (s := emit .mgmtAck s) runs, rcIdle_runs (by exact runs)]
    rfl
  case write =>
    refine (execMgmtRegisterWrite_wakeSet awake fit).trans ?_
    rw [rcIdle_runs (by exact runs)]
    rfl
  case mailbox =>
    obtain ⟨i2c, early, own⟩ := headerOf_fresh .i2c {} l
    refine ⟨_, execMailboxPacket_good awake mark len crc, ?_⟩
    rw [nb, serve_identify i2c op empty early own]
    exact ⟨rfl, rfl, ⟨rfl, rfl⟩, fun _ => rfl, rfl⟩

end

section
/-! What takes the safe stack block (R389, R390): a cause noted where none is set, with BLK, the frames, the restores that end and the
log's record, and what sets each of the causes. -/

namespace Sys2Proof.Machine

open Sys2Proof

variable {s t u : State} {i : Nat}

/-! Log records (R497). -/

theorem logRecord_logged (e : Nat) (key : BitVec 16) (data cause : Word) (s : State) :
    Logged e data s (logRecord e 0x20 key data cause s) := by
  unfold logRecord
  refine ⟨fun on due => ?_, fun off room => ?_⟩
  · rw [if_pos (by simp [on, due])]
    exact ⟨_, nvmStart_jobs (List.mem_append_right _ List.mem_cons_self), _, rfl, rfl, rfl, rfl, rfl⟩
  · rw [if_neg (by simp [off]), if_pos room]
    exact ⟨_, List.mem_append_right _ List.mem_cons_self, rfl, rfl, rfl⟩

theorem logRecord_out {o : Out} (e : Nat) (k : Byte) (key : BitVec 16) (data cause : Word) (h : o ∈ s.out) :
    o ∈ (logRecord e k key data cause s).out :=
  logRecord_keeps (Q := fun s => o ∈ s.out) (fun e w _ h => raise_out e w h) (fun _ _ h => h) (fun _ _ h => h) e k key data cause h

/-! The entry of the block (R389). -/

theorem ringUp_congr (aon : u.aon = s.aon) (cfg : u.cfg = s.cfg) (twin : u.twin = s.twin) (f : Nat) : u.ringUp f = s.ringUp f := by
  simp only [State.ringUp, State.ringOn, State.fltOn, hallOn_congr aon, State.ctCount, reg_congr aon cfg, twin]

theorem ends_congr (aon : u.aon = s.aon) : u.ends = s.ends := by simp only [State.ends, aon]

theorem each_emit_mem {α : Type} {l : List α} {x : α} (o : α → Out) (hx : x ∈ l) (s : State) :
    o x ∈ (each l (fun y => emit (o y)) s).out :=
  each_hits (P := fun u => o x ∈ u.out) (Q := fun _ => True) hx (fun _ _ => List.mem_cons_self) (fun _ _ _ => trivial)
    (fun _ _ h => List.mem_cons_of_mem _ h) trivial

theorem sendBlk_out {o : Out} (f : Nat) (h : o ∈ s.out) : o ∈ (sendBlk f s).out := by
  unfold sendBlk
  split
  · exact each_inv (Q := fun u => o ∈ u.out) _ _ s (fun _ _ h => List.mem_cons_of_mem _ h) h
  · exact h

theorem sendBlk_sends (f : Fin 9) {w : Bool} (up : s.ringUp f.val = true) (hw : w ∈ s.ends) : Out.blk f w ∈ (sendBlk f.val s).out := by
  have own : Fin.ofNat 9 f.val = f := Fin.ext (Nat.mod_eq_of_lt f.isLt)
  rw [sendBlk, if_pos up, own]
  exact each_emit_mem (Out.blk f) hw s

/-- What is out once BLK has left from the ends of every ring. -/
@[irreducible] def blkSent (s : State) : List Out := (each (List.range 9) sendBlk s).out

/-- BLK from the ends of every ring changes the output alone. -/
theorem sendBlks_eq (s : State) : each (List.range 9) sendBlk s = { s with out := blkSent s } := by
  unfold blkSent
  refine each_inv (Q := fun u => u = { s with out := u.out }) _ _ s (fun f u h => ?_) rfl
  have own : sendBlk f u = { u with out := (sendBlk f u).out } := by
    unfold sendBlk
    split
    · exact each_inv (Q := fun v => v = { u with out := v.out }) _ _ u (fun w v h => congrArg (emit (.blk (Fin.ofNat 9 f) w)) h) rfl
    · rfl
  exact own.trans (congrArg (fun v => { v with out := (sendBlk f u).out }) h)

theorem blkSent_mem (f : Fin 9) {w : Bool} (up : s.ringUp f.val = true) (hw : w ∈ s.ends) : Out.blk f w ∈ blkSent s := by
  unfold blkSent
  refine each_hits (P := fun u => Out.blk f w ∈ u.out) (Q := fun u => u.aon = s.aon ∧ u.cfg = s.cfg ∧ u.twin = s.twin)
    (List.mem_range.mpr f.isLt) (fun u h => ?_) (fun g u h => ?_) (fun g u h => sendBlk_out g h) ⟨rfl, rfl, rfl⟩
  · obtain ⟨aon, cfg, twin⟩ := h
    exact sendBlk_sends f ((ringUp_congr aon cfg twin _).trans up) (ends_congr aon ▸ hw)
  · simpa only [sendBlk_frame] using h

/-- The block entered with `sent` out, before its record: restores and retries have ended, and the instant is noted. -/
def blockEntered (sent : List Out) (s : State) : State := { s with
  out := sent
  cells := s.cells.map Cell.endRestore
  safe := { s.safe with ssbAt := s.now, ssbDue := some (s.safe.ssbDue.getD s.now) } }

theorem ssbEntry_eq (s : State) : ssbEntry s =
    logRecord 192 0x20 0xFFFF (s.safe.cause.setWidth 32) (s.safe.cause.setWidth 32) (blockEntered (blkSent s) s) := by
  unfold ssbEntry
  rw [sendBlks_eq]
  rfl

theorem ssbEntry_safe (s : State) : (ssbEntry s).safe = (blockEntered (blkSent s) s).safe := by
  rw [ssbEntry_eq]
  simp only [logRecord_frame]

theorem ssbEntry_sends (f : Fin 9) {w : Bool} (up : s.ringUp f.val = true) (hw : w ∈ s.ends) : Out.blk f w ∈ (ssbEntry s).out := by
  rw [ssbEntry_eq]
  exact logRecord_out (s := blockEntered (blkSent s) s) _ _ _ _ _ (blkSent_mem f up hw)

theorem ssbEntry_cells (s : State) : (ssbEntry s).cells = s.cells.map Cell.endRestore := by
  rw [ssbEntry_eq]
  simp only [logRecord_frame, blockEntered]

theorem ssbEntry_logged (s : State) : Logged 192 (s.safe.cause.setWidth 32) s (ssbEntry s) := by
  rw [ssbEntry_eq]
  exact logRecord_logged _ _ _ _ (blockEntered (blkSent s) s)

theorem ssbEntry_by (block : s.ssb = true) {d : Nat} (hd : s.now + 200 ≤ d) : (ssbEntry s).ssbBy d = true := by
  have still : (ssbEntry s).ssb = true := by simpa only [State.ssb, ssbEntry_cause] using block
  have since : (ssbEntry s).safe.ssbAt = s.now := congrArg Safe.ssbAt (ssbEntry_safe s)
  simp [State.ssbBy, still, since, hd]

/-! A cause noted (R390). -/

/-- A cause noted with its event and, where the active tells its standby, with its decision word. -/
def causeNoted (i : Nat) (s : State) : State :=
  let s := raise 192 (bitAt true i) { s with safe := { s.safe with cause := s.safe.cause ||| (1#17 <<< i) } }
  if [7, 8, 9, 10, 14, 15].contains i then sendDecision (.ssb (low40 s.lb)) s else s

theorem causeNoted_same (i : Nat) (s : State) : let t := causeNoted i s
    t.aon = s.aon ∧ t.cfg = s.cfg ∧ t.pend = s.pend ∧ t.twin = s.twin ∧ t.tb = s.tb ∧ t.nvm = s.nvm ∧ t.cells = s.cells ∧
      t.mem = s.mem ∧ t.safe = { s.safe with cause := s.safe.cause ||| (1#17 <<< i) } := by
  have unheld : evtHeld 192 = false := rfl
  unfold causeNoted
  dsimp only
  split <;> simp [raise_aon, unheld]

theorem causeNoted_pend (hs : s.Runs) (i : Nat) : ((causeNoted i s).evt 192).pend = true := by
  have raised := raise_pend_same (e := 192) (bitAt true i)
    (s := { s with safe := { s.safe with cause := s.safe.cause ||| (1#17 <<< i) } }) hs (by decide)
  unfold causeNoted
  dsimp only
  split
  · exact (DecisionKeeps.pend 192).sendDecision _ raised
  · exact raised

theorem setCause_new (hs : s.isOn .safety = true) (new : s.safe.cause.getLsbD i = false) :
    setCause i s = if s.ssb then causeNoted i s else ssbEntry (causeNoted i s) := by
  unfold setCause
  rw [if_neg (by simp [hs, new])]
  cases h : s.ssb <;> rfl

/-! A cause taken, with all its effects (R389, R390). -/

theorem Logged.of_same {e : Nat} {data : Word} (aon : u.aon = s.aon) (nvm : u.nvm = s.nvm) (tb : u.tb = s.tb)
    (h : Logged e data u t) : Logged e data s t := by
  simpa only [Logged, isOn_congr aon, aon, nvm, tb] using h

theorem Logged.raise {e : Nat} {data : Word} (x : Nat) (w : Word) (h : Logged e data s t) :
    Logged e data s (raise x w t) := by
  have log : (Machine.raise x w t).aon.heldLog = t.aon.heldLog := by
    rw [raise_aon]
    split <;> rfl
  simpa only [Logged, raise_frame, log] using h

/-- An event raised after it leaves what the block did. -/
theorem Blocks.raise (x : Nat) (w : Word) (hx : evtHeld x = false) (h : Blocks i s t) : Blocks i s (raise x w t) := by
  obtain ⟨cause, low, fresh, regs, mem, tb⟩ := h
  have aon : (Machine.raise x w t).aon = t.aon := by simp [raise_aon, hx]
  refine ⟨by simpa using cause, ?_, fun none => ?_, by simpa [SameRegisters] using regs, by simpa [SameGallery] using mem,
    by simpa using tb⟩
  · simpa only [State.safeBlkHigh, State.ssb, isOn_congr aon, aon, raise_frame] using low
  · obtain ⟨event, blk, frames, cells, log⟩ := fresh none
    refine ⟨fun on => raise_pend_keeps x w (event on), fun f up b hb => raise_out x w (blk f up b hb), fun d hd => ?_, ?_, ?_⟩
    · simpa only [State.ssbBy, State.ssb, raise_frame] using frames d hd
    · simpa using cells
    · simpa only [raise_frame] using log.raise x w

/-- The first cause takes the block. -/
theorem setCause_enters (hs : s.isOn .safety = true) (hi : i < 17) (none : s.safe.cause = 0) :
    let t := setCause i s
    (s.Runs → (t.evt 192).pend = true) ∧
    (∀ f : Fin 9, s.ringUp f.val = true → ∀ w ∈ s.ends, Out.blk f w ∈ t.out) ∧
    (∀ d : Nat, s.now + 200 ≤ d → t.ssbBy d = true) ∧ t.cells = s.cells.map Cell.endRestore ∧
    Logged 192 (t.safe.cause.setWidth 32) s t := by
  obtain ⟨aon, cfg, -, twin, tb, nvm, cells, -, safe⟩ := causeNoted_same i s
  have fresh : setCause i s = ssbEntry (causeNoted i s) := by
    rw [setCause_new hs (by simp [none]), if_neg (by simp [State.ssb, none])]
  have bit := setCause_cause hs hi
  have block : (causeNoted i s).ssb = true := ssb_of_cause (by rwa [fresh, ssbEntry_cause] at bit)
  rw [fresh]
  refine ⟨fun on => ?_, fun f up w hw => ?_, fun d hd => ?_, ?_, ?_⟩
  · exact (DecisionKeeps.pend 192).ssbEntry (causeNoted_pend on i)
  · exact ssbEntry_sends f ((ringUp_congr aon cfg twin f.val).trans up) (ends_congr aon ▸ hw)
  · exact ssbEntry_by block (by rwa [State.now, tb])
  · rw [ssbEntry_cells, cells]
  · rw [ssbEntry_cause]
    exact (ssbEntry_logged _).of_same aon nvm tb

theorem setCause_blocks (hs : s.isOn .safety = true) (hi : i < 17) : Blocks i s (setCause i s) := by
  have bit := setCause_cause hs hi
  exact ⟨setCause_safeCause i hs, safeBlkHigh_of_ssb (ssb_of_cause bit), setCause_enters hs hi,
    by simp [SameRegisters], by simp [SameGallery], by simp⟩

/-- A cause leaves the latches, the demands and what is confirmed. -/
theorem setCause_latches (hs : s.isOn .safety = true) (i : Nat) :
    (setCause i s).safe.demand = s.safe.demand ∧ (setCause i s).safe.discLatch = s.safe.discLatch ∧
      (setCause i s).safe.seenSafe = s.safe.seenSafe ∧ (setCause i s).safe.fbWait = s.safe.fbWait ∧
      (setCause i s).safe.crcOk = s.safe.crcOk ∧ (setCause i s).safe.block = s.safe.block ∧
      (setCause i s).safe.confirmed = s.safe.confirmed := by
  obtain ⟨-, -, -, -, -, -, -, -, safe⟩ := causeNoted_same i s
  cases new : s.safe.cause.getLsbD i
  · rw [setCause_new hs new]
    split
    · simp [safe]
    · simp [ssbEntry_safe, blockEntered, safe]
  · simp [setCause, new]

/-- An event raised after the cause pends, and leaves what the block did. -/
theorem raise_setCause_blocks (hs : s.isOn .safety = true) (hi : i < 17) {e : Nat} (he : e < 256) (w : Word) (unheld : evtHeld e = false) :
    (s.Runs → ((raise e w (setCause i s)).evt e).pend = true) ∧ Blocks i s (raise e w (setCause i s)) :=
  ⟨fun on => raise_pend_same w (((setCause_power i s).isOn .atrium).trans on) he, (setCause_blocks hs hi).raise e w unheld⟩

/-- A check value that no longer matches takes the block with cause 5 (R410). -/
theorem crcFail_blocks (hs : s.isOn .safety = true) : (crcFail s).safe.crcOk = false ∧ Blocks 5 s (crcFail s) := by
  let u : State := { s with safe := { s.safe with crcOk := false } }
  have taken : Blocks 5 s (setCause 5 u) := setCause_blocks (s := u) hs (by decide)
  have failed : (setCause 5 u).safe.crcOk = false := (setCause_latches (s := u) hs 5).2.2.2.2.1
  unfold crcFail
  dsimp only
  split
  · next already =>
    have same : setCause 5 u = u := by simp [setCause, u, already]
    rw [same] at taken
    exact ⟨rfl, taken⟩
  · exact ⟨by simpa only [raise_frame] using failed, taken.raise 199 0 rfl⟩

end Sys2Proof.Machine

open Sys2Proof.Machine in
/-- Settles O24, with the one lemma of what taking a cause does, and the event that some causes raise after it. -/
theorem causesBlock : Obligations.CausesBlock := by
  unfold Obligations.CausesBlock
  intro s on
  refine ⟨⟨_, rfl, setCause_blocks on (by decide)⟩, fun i b enabled => ?_, fun i enabled => ?_, ?_, fun waits => ?_,
    fun confirmed differs => ?_⟩
  · rw [exec, execSinDemand, if_pos (by simp [on, enabled])]
    let u : State := { s with safe := { s.safe with demand := s.safe.demand ||| (1#4 <<< i.val) } }
    exact ⟨_, rfl, (setCause_latches (s := u) on 1).1, setCause_blocks (s := u) on (by decide)⟩
  · rw [exec, execSinDisc, if_pos (by simp [on, enabled])]
    let u : State := { s with safe := { s.safe with
      discLatch := s.safe.discLatch ||| (1#4 <<< i.val)
      seenSafe := s.safe.seenSafe &&& ~~~(1#4 <<< i.val) } }
    have unheld : ∀ j : Fin 4, evtHeld (193 + j.val) = false := by decide
    obtain ⟨pends, blocks⟩ := raise_setCause_blocks (s := u) (i := 2) on (by decide) (by omega) 0 (unheld i)
    obtain ⟨-, latch, seen, -⟩ := setCause_latches (s := u) on 2
    refine ⟨_, rfl, ?_, ?_, pends, blocks⟩
    · simpa only [raise_frame] using latch
    · simp [raise_frame, seen, u]
  · rw [exec, execFbReadbackFault, if_pos on]
    exact ⟨_, rfl, raise_setCause_blocks on (by decide) (by decide) _ rfl⟩
  · rw [exec, execFbTExpiry, if_pos (by simp [on, waits])]
    let u : State := { s with safe := { s.safe with fbWait := false } }
    obtain ⟨-, -, -, stops, -⟩ := setCause_latches (s := u) on 6
    refine ⟨_, rfl, ?_, raise_setCause_blocks (s := u) (i := 6) on (by decide) (by decide) _ rfl⟩
    simpa only [fbFault, raise_frame] using stops
  · rw [exec, execCheckValueRecompute, if_pos (by simp [on, confirmed, differs])]
    exact ⟨_, rfl, crcFail_blocks on⟩

end

section
/-! RELEASE and its conditions (R390, R402, R403), cause by cause. -/

namespace Sys2Proof.Machine

open Sys2Proof

variable {s : State}

theorem not_or_true_iff {a b : Bool} : (!a || b) = true ↔ (a = true → b = true) := by cases a <;> simp

theorem causeClear_disc : s.causeClear 2 = true ↔
    ∀ p < 4, s.safe.discLatch.getLsbD p = true → s.safe.seenSafe.getLsbD p = true := by
  simp only [State.causeClear, List.all_eq_true, List.mem_range, not_or_true_iff]

theorem testGood_iff (p : Nat) : s.testGood p = true ↔
    ∀ c < 2, ∀ o < 2, testOf s.safe.block p c = o + 1 → 3 ≤ vget (vget s.safe.win o {}).good p 0 := by
  have good : ∀ t < 4, (t = 0 ∨ t = 3 ∨ 3 ≤ vget (vget s.safe.win (t - 1) {}).good p 0) ↔
      ∀ o < 2, t = o + 1 → 3 ≤ vget (vget s.safe.win o {}).good p 0 := fun t ht => by
    constructor
    · rintro h o ho rfl
      simpa [show ¬ o + 1 = 3 by omega] using h
    · intro h
      by_cases named : t = 0 ∨ t = 3
      · tauto
      · exact .inr (.inr (h (t - 1) (by omega) (by omega)))
  have small (c : Nat) : testOf s.safe.block p c < 4 := fld_lt _ _ _
  have two (P : Nat → Prop) : (∀ c < 2, P c) ↔ P 0 ∧ P 1 := by
    refine ⟨fun h => ⟨h 0 (by decide), h 1 (by decide)⟩, fun h c hc => ?_⟩
    obtain rfl | rfl : c = 0 ∨ c = 1 := by omega
    · exact h.1
    · exact h.2
  rw [two, ← good _ (small 0), ← good _ (small 1)]
  simp [State.testGood, or_assoc]

theorem causeClear_test : s.causeClear 3 = true ↔ ∀ p < 4, s.safe.testFail.getLsbD p = true → ∀ c < 2, ∀ o < 2,
    testOf s.safe.block p c = o + 1 → 3 ≤ vget (vget s.safe.win o {}).good p 0 := by
  simp only [State.causeClear, List.all_eq_true, List.mem_range, not_or_true_iff, testGood_iff]

theorem dieCool_iff : s.dieCool = true ↔
    ∀ x : Int, Reading.val x ∈ s.therm.die.toList → x < s.shutLevel - 32 * (fld (s.reg 0x40024) 24 8 : Int) := by
  rw [State.dieCool, List.all_eq_true]
  refine ⟨fun h x hx => of_decide_eq_true (h _ hx), fun h d hd => ?_⟩
  cases d with
  | val x => exact decide_eq_true (h x hd)
  | none | bad => rfl

theorem supplyGood_iff : (!s.supplyBad) = true ↔ s.aon.vinUv = false ∧ s.aon.vinOv = false ∧ s.aon.vcoreBad = false ∧
    s.aon.v3p3Bad = false ∧ s.aon.vddaBad = false := by
  simp [State.supplyBad, and_assoc]

/-- The conditions of the causes that are set (Table 11-1). -/
theorem causesClear_iff : (∀ i < 17, s.safe.cause.getLsbD i = true → s.causeClear i = true) ↔
    (s.safe.cause.getLsbD 2 = true → s.causeClear 2 = true) ∧ (s.safe.cause.getLsbD 3 = true → s.causeClear 3 = true) ∧
    (s.safe.cause.getLsbD 4 = true → s.safe.confirmed = true) ∧
    (s.safe.cause.getLsbD 5 = true → s.safe.confirmed = true ∧ s.safe.crcOk = true) ∧
    (s.safe.cause.getLsbD 6 = true → 100 ≤ s.safe.fbLow) ∧ (s.safe.cause.getLsbD 10 = true → s.tb.untrusted = false) ∧
    (s.safe.cause.getLsbD 11 = true → s.tb.gross = false) ∧ s.safe.cause.getLsbD 12 = false ∧
    (s.safe.cause.getLsbD 13 = true → s.atr.halted = false) ∧ (s.safe.cause.getLsbD 14 = true → s.dieCool = true) ∧
    (s.safe.cause.getLsbD 15 = true → (!s.supplyBad) = true) := by
  constructor
  · intro h
    have c4 := h 4; have c5 := h 5; have c6 := h 6; have c10 := h 10; have c11 := h 11; have c12 := h 12; have c13 := h 13
    simp only [State.causeClear] at c4 c5 c6 c10 c11 c12 c13
    refine ⟨h 2 (by decide), h 3 (by decide), by simpa using c4, by simpa using c5, by simpa using c6, by simpa using c10,
      by simpa using c11, by simpa using c12, by simpa using c13, h 14 (by decide), h 15 (by decide)⟩
  · rintro ⟨h2, h3, h4, h5, h6, h10, h11, h12, h13, h14, h15⟩ i hi set
    match i, hi, set with
    | 2, _, set => exact h2 set
    | 3, _, set => exact h3 set
    | 4, _, set => simpa [State.causeClear] using h4 set
    | 5, _, set => simpa [State.causeClear] using h5 set
    | 6, _, set => simpa [State.causeClear] using h6 set
    | 10, _, set => simpa [State.causeClear] using h10 set
    | 11, _, set => simpa [State.causeClear] using h11 set
    | 12, _, set => rw [h12] at set; contradiction
    | 13, _, set => simpa [State.causeClear] using h13 set
    | 14, _, set => exact h14 set
    | 15, _, set => exact h15 set
    | 0, _, _ | 1, _, _ | 7, _, _ | 8, _, _ | 9, _, _ | 16, _, _ => rfl
    | n + 17, hi, _ => omega

theorem releasable_parts : s.releasable = true ↔ s.isOn .safety = true ∧
    (∀ i < 17, s.safe.cause.getLsbD i = true → s.causeClear i = true) ∧
    (∀ i < 4, pairEn s.safe.block i = true → sinFilt s.safe.block ≤ vget s.safe.runRun i 0) ∧
    s.safe.fbIn = false ∧ s.tb.gross = false := by
  simp only [State.releasable, State.pairOn, Bool.and_eq_true, List.all_eq_true, List.mem_range, not_or_true_iff, decide_eq_true_eq,
    Bool.not_eq_true', and_assoc]

end Sys2Proof.Machine

open Sys2Proof.Machine in
/-- Settles O23: the conditions by the causes one by one, the command by whether they all are met. -/
theorem safetyRelease : Obligations.SafetyRelease := by
  unfold Obligations.SafetyRelease
  refine ⟨fun s => ?_, fun s runs on => ⟨fun clear agreed => ?_, fun refused => ?_⟩⟩
  · rw [releasable_parts, causesClear_iff, causeClear_disc, causeClear_test, dieCool_iff, supplyGood_iff]
    constructor
    · rintro ⟨on, ⟨h2, h3, h4, h5, h6, h10, -, h12, h13, h14, h15⟩, run, fb, gross⟩
      exact ⟨on, h2, h3, h4, h5, h6, h10, h12, h13, h14, h15, run, fb, gross⟩
    · rintro ⟨on, h2, h3, h4, h5, h6, h10, h12, h13, h14, h15, run, fb, gross⟩
      exact ⟨on, ⟨h2, h3, h4, h5, h6, h10, fun _ => gross, h12, h13, h14, h15⟩, run, fb, gross⟩
  · have ok : s.releaseOk = true := by
      unfold State.releaseOk
      rcases agreed with alone | agrees
      · simp [clear, alone]
      · simp [clear, agrees]
    have run : execRelease [] s = .next (reply .ok [0, safeStatus (releaseNow s)] (releaseNow s)) := by
      refine congrArg Host.Outcome.next ((command_runs runs _ rfl).trans ?_)
      simp only [on, ok]
      rfl
    have drives : (releaseNow s).safeBlkHigh = !s.aon.held := by
      have stillOn : (releaseNow s).isOn .safety = true := on
      have free : (releaseNow s).ssb = false := rfl
      rw [State.safeBlkHigh, stillOn, free]
      rfl
    exact ⟨_, run, rfl, rfl, drives, rfl⟩
  · have refusal : s.releaseOk = false := by
      unfold State.releaseOk
      rcases refused with unmet | ⟨pair, disagrees⟩
      · simp [unmet]
      · simp [pair, disagrees]
    refine congrArg Host.Outcome.next ((command_runs runs _ rfl).trans ?_)
    simp only [on, refusal]
    rfl

end

section
/-! The safety parameters and their confirmation (R407 to R410). -/

namespace Sys2Proof.Machine

open Sys2Proof

variable {s t u : State} {i : Nat}

/-! What the writer of NVM works on. -/

theorem beginErase_keeps (v : Nvm) (x : Nat) : (v.beginErase x).recs = v.recs ∧ (v.beginErase x).serial = v.serial := by
  unfold Nvm.beginErase
  dsimp only
  split <;> exact ⟨rfl, rfl⟩

/-- The jobs an erase adds are copies of records. -/
theorem beginErase_jobs_of {v : Nvm} {x : Nat} {j : NvmJob} (hj : j ∈ (v.beginErase x).jobs) :
    j ∈ v.jobs ∨ ∃ c ∈ v.recs, j.record.type = c.type := by
  unfold Nvm.beginErase at hj
  dsimp only at hj
  split at hj
  · exact .inl hj
  · have known : ∀ c ∈ v.mustKeep x, c ∈ v.recs := fun c hc => by
      unfold Nvm.mustKeep at hc
      split at hc
      · cases hc
      · exact List.mem_of_mem_filter hc
    have all : j ∈ v.jobs ++ (((v.mustKeep x).filter fun c => !v.jobs.any (·.copies c)).reverse).map fun c =>
        ({ record := { c with copy := true }, pages := pagesOf c.data } : NvmJob) :=
      (List.mem_append.mp hj).elim List.mem_of_mem_filter List.mem_of_mem_filter
    refine (List.mem_append.mp all).imp id fun copied => ?_
    obtain ⟨c, hc, rfl⟩ := List.mem_map.mp copied
    exact ⟨c, known c (List.mem_of_mem_filter (List.mem_reverse.mp hc)), rfl⟩

theorem nvmStart_keeps (s : State) : (nvmStart s).nvm.recs = s.nvm.recs ∧ (nvmStart s).nvm.serial = s.nvm.serial := by
  unfold nvmStart
  dsimp only
  split
  · exact ⟨rfl, rfl⟩
  · split
    · exact beginErase_keeps _ _
    · split <;> exact ⟨rfl, rfl⟩

theorem nvmStart_jobs_of {j : NvmJob} (hj : j ∈ (nvmStart s).nvm.jobs) :
    j ∈ s.nvm.jobs ∨ ∃ c ∈ s.nvm.recs, j.record.type = c.type := by
  have picked : ∀ j ∈ (s.nvm.jobs.filter fun j => nvmRank j.record.type == 0) ++
      (s.nvm.jobs.filter fun j => nvmRank j.record.type == 1) ++ (s.nvm.jobs.filter fun j => nvmRank j.record.type == 2),
      j ∈ s.nvm.jobs := fun j hj => by
    rcases List.mem_append.mp hj with hj | hj
    · exact (List.mem_append.mp hj).elim List.mem_of_mem_filter List.mem_of_mem_filter
    · exact List.mem_of_mem_filter hj
  unfold nvmStart at hj
  dsimp only at hj
  split at hj
  · exact .inl hj
  · split at hj
    · exact (beginErase_jobs_of hj).imp (picked j) id
    · split at hj
      · exact .inl hj
      · exact .inl (picked j hj)

/-! No safety record is written any more (R408). -/

/-- The safety records are erased, what else was recorded stands, and of their jobs only a dropped one is left. -/
structure Withdrawn (before : List NvmRec) (v : Nvm) : Prop where
  erased : ∀ r ∈ v.recs, r.type ≠ 0x03
  stands : ∀ r ∈ before, r.type ≠ 0x03 → r ∈ v.recs
  dropped : ∀ j ∈ v.jobs, j.record.type = 0x03 → j.dropped = true

theorem Withdrawn.nvmStart {before : List NvmRec} (h : Withdrawn before s.nvm) : Withdrawn before (nvmStart s).nvm := by
  obtain ⟨recs, -⟩ := nvmStart_keeps s
  refine ⟨recs ▸ h.erased, recs ▸ h.stands, fun j hj safety => ?_⟩
  rcases nvmStart_jobs_of hj with waits | ⟨c, hc, same⟩
  · exact h.dropped j waits safety
  · exact absurd (same.symm.trans safety) (h.erased c hc)

theorem Withdrawn.nvmWrite {before : List NvmRec} (h : Withdrawn before s.nvm) {type : Byte} (other : type ≠ 0x03) (key : Nat)
    (data : NvmData) (a : NvmThen) : Withdrawn before (nvmWrite type key data a s).nvm := by
  refine Withdrawn.nvmStart ⟨h.erased, h.stands, fun j hj safety => ?_⟩
  rcases List.mem_append.mp hj with waits | new
  · exact h.dropped j waits safety
  · rw [List.mem_singleton.mp new] at safety
    exact absurd safety other

theorem Withdrawn.logRecord {before : List NvmRec} (h : Withdrawn before s.nvm) (e : Nat) (key : BitVec 16) (data cause : Word) :
    Withdrawn before (logRecord e 0x20 key data cause s).nvm := by
  unfold Machine.logRecord
  dsimp only
  split
  · exact h.nvmWrite (by decide) _ _ _
  · split
    · exact h
    · rw [(raise_frame _ _ _).2.2.2.2.2.2.2.2.2.2.2.2.2.2.2.2.2.1]
      exact ⟨h.erased, h.stands, h.dropped⟩

theorem Withdrawn.setCause {before : List NvmRec} (hs : s.isOn .safety = true) (i : Nat) (h : Withdrawn before s.nvm) :
    Withdrawn before (setCause i s).nvm := by
  obtain ⟨-, -, -, -, -, nvm, -⟩ := causeNoted_same i s
  cases new : s.safe.cause.getLsbD i
  · rw [setCause_new hs new]
    split
    · rwa [nvm]
    · rw [ssbEntry_eq]
      exact Withdrawn.logRecord (s := blockEntered _ (causeNoted i s)) (nvm.symm ▸ h) _ _ _ _
  · simpa [Machine.setCause, new] using h

theorem dropConfirms_withdraws (s : State) : Withdrawn s.nvm.recs (dropConfirms s).nvm := by
  unfold dropConfirms
  refine each_inv (Q := fun u => Withdrawn s.nvm.recs u.nvm) _ _ _ (fun j u h => by simpa using h) ?_
  refine ⟨fun r hr => by simpa using List.of_mem_filter hr, fun r hr other => List.mem_filter.mpr ⟨hr, by simpa using other⟩,
    fun j hj safety => ?_⟩
  rcases List.mem_append.mp hj with running | rest
  · obtain ⟨k, -, rfl⟩ := List.mem_map.mp running
    by_cases mine : k.record.type = 0x03
    · exact congrArg NvmJob.dropped (if_pos (beq_iff_eq.mpr mine))
    · rw [if_neg (by simpa using mine)] at safety
      exact absurd safety mine
  · exact absurd safety (by simpa using List.of_mem_filter rest)

theorem confirmLost_powerParts (x : NvmThen) (s : State) : powerParts (confirmLost x s) = powerParts s := by
  cases x with
  | confirm p => exact finish_powerParts p _ s
  | _ => rfl

theorem dropConfirms_same (s : State) : (dropConfirms s).safe = s.safe ∧ powerParts (dropConfirms s) = powerParts s := by
  unfold dropConfirms
  refine each_inv (Q := fun u => u.safe = s.safe ∧ powerParts u = powerParts s) _ _ _ (fun j u h => ?_) ⟨rfl, rfl⟩
  obtain ⟨safe, power⟩ := h
  exact ⟨by simpa using safe, (confirmLost_powerParts _ _).trans power⟩

theorem isOn_of_powerParts (h : powerParts t = powerParts s) (d : Dom) : t.isOn d = s.isOn d := by
  have dom : t.aon.dom = s.aon.dom := congrArg Prod.fst h
  simp only [State.isOn, State.domSt, dom]

/-- A confirmation that has ended sets UNCONF, and with it the safe level of SAFE_BLKn (Table 11-1). -/
theorem unconfirmed_unconfirms {before : List NvmRec} (hs : s.isOn .safety = true) (h : Withdrawn before s.nvm) :
    (unconfirmed s).safe.confirmed = s.safe.confirmed ∧ (unconfirmed s).safe.cause.getLsbD 4 = true ∧
      (unconfirmed s).safe.block = s.safe.block ∧ (unconfirmed s).safeBlkHigh = false ∧ Withdrawn before (unconfirmed s).nvm := by
  unfold unconfirmed
  split
  · next already => exact ⟨rfl, already, rfl, safeBlkHigh_of_ssb (ssb_of_cause already), h⟩
  · have bit := setCause_cause hs (i := 4) (by decide)
    obtain ⟨-, -, -, -, -, block, confirmed⟩ := setCause_latches hs 4
    refine ⟨?_, ?_, ?_, safeBlkHigh_of_ssb (ssb_of_cause (i := 4) ?_), ?_⟩
    · simpa using confirmed
    · simpa only [raise_frame] using bit
    · simpa using block
    · simpa only [raise_frame] using bit
    · simpa only [raise_frame] using h.setCause hs 4

/-! The commands. -/

theorem execSafeParam_takes (runs : s.Runs) (on : s.isOn .safety = true) {w0 : Word} {l : List Word}
    (free : s.safe.confirmed = false) (any : 0 < l.length) (few : l.length ≤ 64) (count : fld w0 8 7 = l.length)
    (within : fld w0 0 6 + l.length ≤ 64) (sources : blockSources (blockWrite (fld w0 0 6) l s.safe.block) = true)
    (range : blockRange (blockWrite (fld w0 0 6) l s.safe.block) = true) :
    execSafeParam (w0 :: l) s = .next { s with
      reply := some { status := .ok }, safe := { s.safe with block := blockWrite (fld w0 0 6) l s.safe.block } } := by
  have fits : ¬ (fld w0 8 7 = 0 ∨ 64 < fld w0 8 7 ∨ 64 < fld w0 0 6 + fld w0 8 7) := by omega
  refine congrArg Host.Outcome.next ((command_runs runs _ ?_).trans ?_)
  · simp [wd, count, Nat.add_comm]
  · have word : wd (w0 :: l) 0 = w0 := rfl
    simp only [on, free, word, fits, List.tail_cons, sources, range]
    rfl

theorem execSafeParam_locked (runs : s.Runs) (on : s.isOn .safety = true) {w0 : Word} {l : List Word}
    (held : s.safe.confirmed = true) (count : fld w0 8 7 = l.length) :
    execSafeParam (w0 :: l) s = .next { s with reply := some { status := .locked } } := by
  refine congrArg Host.Outcome.next ((command_runs runs _ ?_).trans ?_)
  · simp [wd, count, Nat.add_comm]
  · simp only [on, held]
    rfl

theorem execSafeConfirm_waits (runs : s.Runs) (on : s.isOn .safety = true) (nvm : s.isOn .nvm = true) (w0 : Word) :
    execSafeConfirm [w0, blockCheck s.safe.block] s =
      .next (nvmWrite 0x03 0 (.safety s.safe.block (blockCheck s.safe.block)) (.confirm s.host.cur) (wait s)) := by
  refine congrArg Host.Outcome.next ((command_runs runs _ rfl).trans ?_)
  simp [on, nvm, wd]

theorem execSafeConfirm_refused (runs : s.Runs) (on : s.isOn .safety = true) (nvm : s.isOn .nvm = true) (w0 : Word) {c : Word}
    (wrong : c ≠ blockCheck s.safe.block) :
    execSafeConfirm [w0, c] s = .next { s with reply := some { status := .badParam } } := by
  refine congrArg Host.Outcome.next ((command_runs runs _ rfl).trans ?_)
  have word : wd [w0, c] 1 = c := rfl
  simp [on, nvm, word, wrong, refuse, reply]

/-- SAFE_CONFIRM with WITHDRAW before its reply: no confirmation, and none of its record. -/
def withdrawn (s : State) : State := dropConfirms { s with safe := { s.safe with confirmed := false, conf := 0 } }

theorem withdrawn_same (s : State) :
    (withdrawn s).safe = { s.safe with confirmed := false, conf := 0 } ∧ powerParts (withdrawn s) = powerParts s :=
  dropConfirms_same { s with safe := { s.safe with confirmed := false, conf := 0 } }

theorem execSafeConfirmWithdraw_withdraws (runs : s.Runs) (on : s.isOn .safety = true) (nvm : s.isOn .nvm = true) (w0 w1 : Word) :
    execSafeConfirmWithdraw [w0, w1] s = .next (reply .ok [] (unconfirmed (withdrawn s))) := by
  refine congrArg Host.Outcome.next ((command_runs runs _ rfl).trans ?_)
  simp [on, nvm, withdrawn]

end Sys2Proof.Machine

open Sys2Proof.Machine in
/-- Settles O22, command by command. -/
theorem safetyParameters : Obligations.SafetyParameters := by
  unfold Obligations.SafetyParameters
  refine ⟨fun s runs on => ⟨fun w0 l free any few count within sources range => ?_, fun w0 l held count => ?_, ?_, ?_⟩,
    fun s runs on nvm => ⟨fun w0 => ?_, fun w0 c wrong => ?_, fun w0 w1 => ?_⟩⟩
  · exact execSafeParam_takes runs on free any few count within sources range
  · exact execSafeParam_locked runs on held count
  · refine congrArg Host.Outcome.next ((command_runs runs _ rfl).trans ?_)
    simp [on, reply]
  · refine congrArg Host.Outcome.next ((command_runs runs _ rfl).trans ?_)
    simp [on, reply]
  · refine ⟨_, execSafeConfirm_waits runs on nvm w0, ?_, (nvmStart_keeps _).2, ?_, ?_⟩
    · simp [wait]
    · exact ⟨_, nvmStart_jobs (List.mem_append_right _ List.mem_cons_self), rfl, rfl⟩
    · exact nvmWrite_only _ _ _ _ (wait s)
  · exact execSafeConfirm_refused runs on nvm w0 wrong
  · have exec := execSafeConfirmWithdraw_withdraws runs on nvm w0 w1
    obtain ⟨safe, power⟩ := withdrawn_same s
    have stillOn : (withdrawn s).isOn .safety = true := (isOn_of_powerParts power .safety).trans on
    obtain ⟨confirmed, bit, block, low, recs⟩ := unconfirmed_unconfirms stillOn (dropConfirms_withdraws _)
    obtain ⟨-, -, cfg, pend, tb, -, -, -, -, -, -, -, -, -, -, mem⟩ := execSafeConfirmWithdraw_frame _ _ _ exec
    refine ⟨_, exec, rfl, confirmed.trans (by rw [safe]), bit, block.trans (by rw [safe]), low,
      recs.erased, recs.stands, recs.dropped, ⟨cfg, pend⟩, fun a => by rw [mem], tb⟩

end

section
/-! A commit of the configuration: every pending value, or none (R522). -/

namespace Sys2Proof.Machine

open Sys2Proof

variable {s : State}

/-! The status carried is OK only where every status is (R479). -/

theorem firstStatus_eq_ok {x y : Status} (h : firstStatus x y = .ok) : x = .ok ∧ y = .ok := by
  cases x <;> cases y <;> simp [firstStatus, statusRank] at h ⊢

theorem foldl_firstStatus_eq_ok {l : List Status} : ∀ {x : Status}, l.foldl firstStatus x = .ok → x = .ok ∧ ∀ y ∈ l, y = .ok := by
  induction l with
  | nil => exact fun h => ⟨h, by simp⟩
  | cons y l ih =>
    intro x h
    obtain ⟨first, rest⟩ := ih h
    obtain ⟨hx, hy⟩ := firstStatus_eq_ok first
    exact ⟨hx, List.forall_mem_cons.mpr ⟨hy, rest⟩⟩

/-! What a check lists, it refuses. -/

/-- No field is listed with OK. -/
def Refusing (l : Fails) : Prop := ∀ x ∈ l, x.2 ≠ .ok

theorem refusing_nil : Refusing [] := fun _ h => nomatch h

theorem refusing_append {l m : Fails} : Refusing (l ++ m) ↔ Refusing l ∧ Refusing m := List.forall_mem_append

theorem refusing_check (a : Nat) {st : Status} (ok : Bool) (h : st ≠ .ok) : Refusing (check a st ok) := by
  unfold check
  split
  · exact refusing_nil
  · exact List.forall_mem_singleton.mpr h

theorem refusing_range (a : Nat) (ok : Bool) : Refusing (check a .range ok) := refusing_check a ok nofun
theorem refusing_badParam (a : Nat) (ok : Bool) : Refusing (check a .badParam ok) := refusing_check a ok nofun
theorem refusing_state (a : Nat) (ok : Bool) : Refusing (check a .state ok) := refusing_check a ok nofun

theorem refusing_flatMap {α : Type} (l : List α) {f : α → Fails} (h : ∀ x, Refusing (f x)) : Refusing (l.flatMap f) := by
  intro y hy
  obtain ⟨x, -, inX⟩ := List.mem_flatMap.mp hy
  exact h x y inX

theorem refusing_map {α : Type} (l : List α) (a : α → Nat) : Refusing (l.map fun x => (a x, .badParam)) := by
  intro y hy
  obtain ⟨x, -, rfl⟩ := List.mem_map.mp hy
  nofun

theorem refusing_ite {c : Prop} [Decidable c] {l m : Fails} (hl : Refusing l) (hm : Refusing m) : Refusing (if c then l else m) := by
  split
  · exact hl
  · exact hm

section Checks

variable (s t : State)

theorem rangeHall_refusing (h : Nat) : Refusing (rangeHall t h) := by
  simp only [rangeHall, refusing_append, refusing_range, refusing_badParam, refusing_ite, and_self]

theorem rangeCell_refusing (k : Nat) : Refusing (rangeCell t k) := by
  simp only [rangeCell, refusing_append, refusing_range, refusing_badParam, refusing_flatMap, implies_true, and_self]

theorem rangeQueue_refusing (n : Nat) : Refusing (rangeQueue t n) := by
  simp only [rangeQueue, refusing_append, refusing_range, refusing_state, and_self]

theorem topology_refusing : Refusing (topology s t) := by
  simp only [topology, refusing_append, refusing_nil, refusing_badParam, refusing_state, refusing_flatMap, refusing_ite, implies_true,
    and_self]

theorem ringFails_refusing : Refusing (ringFails t) := by
  refine refusing_flatMap _ fun f => refusing_ite refusing_nil ?_
  simp only [refusing_append, refusing_map, refusing_range, and_self]

theorem writerFails_refusing : Refusing (writerFails t) := by
  simp only [writerFails, refusing_append, refusing_map, refusing_badParam, refusing_flatMap, refusing_nil, refusing_ite, implies_true,
    and_self]

theorem configFails_refusing : Refusing (configFails s) := by
  simp only [configFails, rangeLow, rangeWear, rangeReact, rangeMeas, rangeTherm, rangeLim, rangeDie, rangeTh, timing, laneFails,
    refusing_append, refusing_nil, refusing_range, refusing_badParam, refusing_state, refusing_flatMap, refusing_ite,
    refusing_flatMap _ (rangeHall_refusing _), refusing_flatMap _ (rangeCell_refusing _), refusing_flatMap _ (rangeQueue_refusing _),
    topology_refusing, ringFails_refusing, writerFails_refusing, implies_true, and_self]

end Checks

/-- The judgement of a list of failing fields. -/
def judged (l : Fails) : Status × Nat := ((l.map (·.2)).foldl firstStatus .ok, (l.map (·.1)).foldl min 0xFFFFFF)

theorem judged_ok {l : Fails} (refusing : Refusing l) (ok : (judged l).1 = .ok) : (judged l).2 = 0xFFFFFF := by
  have all := (foldl_firstStatus_eq_ok ok).2
  have none : l = [] := List.eq_nil_iff_forall_not_mem.mpr fun x hx => refusing x hx (all x.2 (List.mem_map_of_mem hx))
  rw [none]
  rfl

theorem configJudge_eq (s : State) : configJudge s = if s.pend.isEmpty then (.ok, 0xFFFFFF) else judged (configFails s) := rfl

/-- Where every check is met, no address is named. -/
theorem configJudge_ok (ok : (configJudge s).1 = .ok) : (configJudge s).2 = 0xFFFFFF := by
  rw [configJudge_eq] at ok ⊢
  split
  · rfl
  · next pending =>
    rw [if_neg pending] at ok
    exact judged_ok (configFails_refusing s) ok

/-! The pending values applied (R522). -/

theorem foldl_tset_other {l : Table Word} {a : Nat} (other : ∀ x ∈ l, x.1 ≠ a) (c : Table Word) :
    tget (l.foldl (fun c x => tset c x.1 x.2) c) a = tget c a := by
  induction l generalizing c with
  | nil => rfl
  | cons x l ih =>
    obtain ⟨hx, hl⟩ := List.forall_mem_cons.mp other
    exact (ih hl _).trans (tget_tset_ne c x.1 a x.2 hx)

theorem foldl_tset_kept {l : Table Word} {a : Nat} {v : Word} (same : ∀ x ∈ l, x.1 = a → x.2 = v) {c : Table Word}
    (held : tget c a = some v) : tget (l.foldl (fun c x => tset c x.1 x.2) c) a = some v := by
  induction l generalizing c with
  | nil => exact held
  | cons x l ih =>
    obtain ⟨hx, hl⟩ := List.forall_mem_cons.mp same
    refine ih hl ?_
    by_cases here : x.1 = a
    · rw [← here, tget_tset_same, hx here]
    · rw [tget_tset_ne c x.1 a x.2 here, held]

theorem foldl_tset_set {l : Table Word} {a : Nat} {v : Word} (named : ∃ x ∈ l, x.1 = a) (same : ∀ x ∈ l, x.1 = a → x.2 = v)
    (c : Table Word) : tget (l.foldl (fun c x => tset c x.1 x.2) c) a = some v := by
  induction l generalizing c with
  | nil => exact absurd named (by simp)
  | cons x l ih =>
    obtain ⟨hx, hl⟩ := List.forall_mem_cons.mp same
    by_cases here : x.1 = a
    · exact foldl_tset_kept hl (by rw [← here, tget_tset_same, hx here])
    · obtain ⟨y, hy, hya⟩ := named
      rcases List.mem_cons.mp hy with rfl | hy
      · exact absurd hya here
      · exact ih ⟨y, hy, hya⟩ hl _

theorem commitAll_cfg (s : State) : (commitAll s).cfg = (applyPend s).cfg ∧ (commitAll s).pend = [] := by
  unfold commitAll
  simp [applyPend]

/-! The three forms of the command (R522). -/

theorem cfgCommit_judges (hs : s.Runs) {w0 : Word} (keeps : bit w0 1 = false) : cfgCommit [w0] s =
    reply (configJudge s).1 [BitVec.ofNat 32 (configJudge s).2]
      (if (configJudge s).1 = .ok ∧ !bit w0 0 then commitAll (cfgResult (configJudge s).1 (configJudge s).2 s)
       else cfgResult (configJudge s).1 (configJudge s).2 s) := by
  have word : wd [w0] 0 = w0 := rfl
  refine (command_runs hs _ rfl).trans ?_
  simp only [word, keeps, commit, Bool.false_eq_true, if_false]

theorem cfgCommit_drops (hs : s.Runs) {w0 : Word} (drop : bit w0 1 = true) : cfgCommit [w0] s =
    reply .ok [0xFFFFFF#32] (cfgResult .ok 0xFFFFFF { s with pend := [] }) := by
  have word : wd [w0] 0 = w0 := rfl
  refine (command_runs hs _ rfl).trans ?_
  simp only [word, drop, if_true]

end Sys2Proof.Machine

open Sys2Proof.Machine in
/-- Settles O34: a commit that is judged OK names no address and folds the pending values into the active ones. -/
theorem configurationCommit : Obligations.ConfigurationCommit := by
  unfold Obligations.ConfigurationCommit
  intro s w0 runs
  refine ⟨fun keeps applies ok => ?_, fun keeps refused => ?_, fun keeps checks => ?_, fun drop => ?_⟩
  · have run : cfgCommit [w0] s = reply .ok [0xFFFFFF#32] (commitAll (cfgResult .ok 0xFFFFFF s)) := by
      rw [cfgCommit_judges runs keeps, configJudge_ok ok, ok, applies, if_pos (by simp)]
    obtain ⟨cfg, pend⟩ := commitAll_cfg (cfgResult .ok 0xFFFFFF s)
    refine ⟨_, congrArg Host.Outcome.next run, rfl, pend, fun a v named same => ?_, fun a other => ?_, fun a => ?_, ?_, ?_⟩
    · exact (congrArg (tget · a) cfg).trans (foldl_tset_set named same _)
    · exact (congrArg (tget · a) cfg).trans (foldl_tset_other other _)
    all_goals simp [reply, cfgResult]
  · refine congrArg Host.Outcome.next ((cfgCommit_judges runs keeps).trans ?_)
    rw [if_neg (by simp [refused])]
    rfl
  · refine congrArg Host.Outcome.next ((cfgCommit_judges runs keeps).trans ?_)
    rw [if_neg (by simp [checks])]
    rfl
  · exact congrArg Host.Outcome.next (cfgCommit_drops runs drop)

end

section
/-! The addressed registers (R519 to R523): a write of one committed register, a refused write, and a read. -/

namespace Sys2Proof.Machine

open Sys2Proof

variable {s t : State}

/-! CFG_WRITE of one word. -/

theorem fld_addr {a : Word} (small : a.toNat < 2 ^ 24) : fld a 0 24 = a.toNat := by
  simp only [fld]
  omega

/-- A write of one word reaches the rules of its own register. -/
theorem execCfgWrite_one (hs : s.Runs) {a v : Word} (small : a.toNat < 2 ^ 24) (aligned : a.toNat % 4 = 0) :
    execCfgWrite [a, v] s =
      .next (refuse (cfgWrite [(a.toNat, v)] s).1 (cfgWrite [(a.toNat, v)] s).2) := by
  have word : fld (wd [a, v] 0) 0 24 = a.toNat := fld_addr small
  have base : a.toNat / 4 * 4 = a.toNat := by omega
  refine congrArg Host.Outcome.next ((command_runs hs _ rfl).trans ?_)
  simp [word, base, aligned]

theorem cfgWrite_one {a : Nat} {v : Word} (taken : writeStatus a s = .ok) (alone : unitBase a = a)
    (plain : writeUnit a [(a, v)] s = (.ok, plainWrite a v s)) : cfgWrite [(a, v)] s = (.ok, plainWrite a v s) := by
  have order : inWriteOrder (units [(a, v)]) = [(a, [(a, v)])] := by
    cases h : clearsOnly a <;> simp [inWriteOrder, units, alone, h]
  unfold cfgWrite
  simp [order, taken, plain, firstStatus_ok]

/-- The rules of a register that is committed and nothing else: its word waits in its pending copy (R521). -/
theorem plainWrite_committed {a : Nat} {v : Word} {d : RegDef} (hd : regDef s.aon.straps a = some d) (direct : d.direct = 0)
    (committed : d.committed ≠ 0) : plainWrite a v s = s.setPend a (merge d.committed (s.regNext a) v) := by
  simp only [plainWrite, hd, direct, if_true, if_neg committed]

theorem regNext_setPend_same (a : Nat) (v : Word) (s : State) : (s.setPend a v).regNext a = v := by
  simp [State.regNext, State.setPend]

theorem regNext_setPend_ne {a b : Nat} (v : Word) (s : State) (other : b ≠ a) : (s.setPend a v).regNext b = s.regNext b := by
  simp only [State.regNext, State.setPend, tget_tset_ne s.pend a b v (Ne.symm other)]
  rfl

/-- The registers of the whole string that are committed in ATRIUM. -/
structure PlainCommitted (a : Nat) (s : State) : Prop where
  taken : writeStatus a s = .ok
  alone : unitBase a = a
  plain : ∀ v, writeUnit a [(a, v)] s = (.ok, plainWrite a v s)
  rules : ∀ d, regDef s.aon.straps a = some d → d.direct = 0 ∧ d.committed ≠ 0

theorem writeHall_cells (h : Nat) (v : Word) (s : State) : writeHall h 0 v s = (.ok, plainWrite (hallBase h) v s) := by
  simp [writeHall]

theorem writeOne_plain {a : Nat} (ha : a ∈ [0x40, 0x104, 0x150000, 0x151000, 0x152000]) (v : Word) (s : State) :
    writeOne a v s = (.ok, plainWrite a v s) := by
  simp only [List.mem_cons, List.not_mem_nil, or_false] at ha
  rcases ha with rfl | rfl | rfl | rfl | rfl <;> simp [writeOne, writeLow, writeHall_cells, hallBase]

theorem plainCommitted (hs : s.Runs) {a : Nat} (ha : a ∈ [0x40, 0x104, 0x150000, 0x151000, 0x152000]) : PlainCommitted a s := by
  have one := writeOne_plain ha
  simp only [List.mem_cons, List.not_mem_nil, or_false] at ha
  rcases ha with rfl | rfl | rfl | rfl | rfl <;>
  · refine ⟨?_, by simp [unitBase], fun v => by simp [writeUnit, one, firstStatus_ok], fun d hd => ?_⟩
    · have on : s.isOn .atrium = true := hs
      simp [writeStatus, ownerOf, State.ownerOn, on, regDef, lowDef, hallDef, cmDef]
    · obtain rfl : _ = d := by simpa [regDef, lowDef, hallDef, cmDef] using hd
      exact ⟨rfl, by decide⟩

/-! A refused write (R520). -/

theorem cfgWrite_ok_or_same (ws : List (Nat × Word)) (s : State) : (cfgWrite ws s).1 = .ok ∨ (cfgWrite ws s).2 = s := by
  unfold cfgWrite
  split
  · dsimp only
    split
    · next ok => exact .inl ok
    · exact .inr rfl
  · exact .inr rfl

theorem execCfgWrite_refused_same (hs : s.Runs) {w : List Word} {r : Reply} (exec : execCfgWrite w s = .next t)
    (replied : t.reply = some r) (refused : r.status ≠ .ok) : t = { s with reply := t.reply } := by
  unfold execCfgWrite at exec
  cases long : decide (2 ≤ w.length) && decide (w.length ≤ 1020) with
  | false =>
    rw [long, command_length] at exec
    cases exec
    rfl
  | true =>
    rw [long, command_run _ s hs] at exec
    dsimp only at exec
    split at exec
    · cases exec
      rfl
    · cases exec
      rcases cfgWrite_ok_or_same _ s with ok | same
      · cases replied
        exact absurd ok refused
      · rw [same]
        rfl

/-- The safety block takes no CFG_WRITE. -/
theorem writeStatus_safeBlock {a : Nat} (lo : 0x30000 ≤ a) (hi : a < 0x30100) (on : s.isOn .safety = true) :
    writeStatus a s = if s.safe.confirmed then .locked else .badParam := by
  have owner : ownerOf a = some (.dom .safety) := by
    unfold ownerOf
    simp only [if_pos (show a < 0x40000 by omega), show ¬ a < 0x200 by omega, show ¬ a < 0x300 by omega, show ¬ a < 0x400 by omega,
      show ¬ a < 0x840 by omega, show ¬ a < 0x10000 by omega, show ¬ a < 0x20000 by omega, show ¬ a < 0x30000 by omega, if_false]
  unfold writeStatus
  rw [if_neg (by omega), owner]
  simp [State.ownerOn, on, lo, hi]

theorem cfgWrite_safeBlock {a : Nat} {v : Word} (lo : 0x30000 ≤ a) (hi : a < 0x30100) (on : s.isOn .safety = true) :
    cfgWrite [(a, v)] s = (if s.safe.confirmed then .locked else .badParam, s) := by
  have block := writeStatus_safeBlock lo hi on
  unfold cfgWrite
  cases h : s.safe.confirmed <;> simp [block, h, firstStatus_ok]

/-! CFG_READ of words that a read leaves alone (R520, R523). -/

/-- A read of the word at `a` changes nothing: neither a latch, nor a result's flags, nor the Gallery's open words. -/
def ReadsPlain (a : Nat) : Prop := a < 0x200000 ∧ a ≠ 0x10000 ∧ a ≠ 0x10038 ∧ (a < 0x21000 ∨ 0x21400 ≤ a)

theorem cfgReadWord_plain {a : Nat} (plain : ReadsPlain a) (pending : Bool) (s : State) :
    cfgReadWord pending a s = (if pending then pendView a s else regView a s, s) := by
  obtain ⟨window, time, stamp, result⟩ := plain
  unfold cfgReadWord
  rw [if_neg (by omega), if_neg time, if_neg stamp, if_neg (by omega)]

theorem cfgReadWords_plain (pending : Bool) {a n : Nat} (plain : ∀ i < n, ReadsPlain (a + 4 * i)) (s : State) :
    cfgReadWords pending a n s =
      ((List.range n).map fun i => if pending then pendView (a + 4 * i) s else regView (a + 4 * i) s, s) := by
  induction n with
  | zero => rfl
  | succ n ih =>
    unfold cfgReadWords at ih ⊢
    rw [List.range_succ, List.foldl_append, ih fun i hi => plain i (by omega), List.map_append]
    simp [cfgReadWord_plain (plain n (by omega))]

end Sys2Proof.Machine

open Sys2Proof.Machine in
/-- Settles O33: a write by whether every word is taken, a read word by word. -/
theorem configurationAccess : Obligations.ConfigurationAccess := by
  unfold Obligations.ConfigurationAccess
  refine ⟨fun s runs => ⟨fun a v d ha hd => ?_, fun w t r exec replied refused => ?_, fun a v aligned lo hi on => ?_⟩,
    fun s w0 w1 runs => ?_⟩
  · obtain ⟨taken, alone, plain, rules⟩ := plainCommitted runs ha
    obtain ⟨direct, committed⟩ := rules d hd
    have small : a.toNat < 2 ^ 24 ∧ a.toNat % 4 = 0 := by
      simp only [List.mem_cons, List.not_mem_nil, or_false] at ha
      omega
    obtain ⟨small, aligned⟩ := small
    have written := (cfgWrite_one taken alone (plain v)).trans (by rw [plainWrite_committed hd direct committed])
    have run := execCfgWrite_one runs (a := a) (v := v) small aligned
    rw [written] at run
    exact ⟨_, run, rfl, regNext_setPend_same _ _ s, fun b other => regNext_setPend_ne _ s other, fun b => rfl, rfl⟩
  · exact execCfgWrite_refused_same runs exec replied refused
  · have run := execCfgWrite_one runs (a := a) (v := v) (by omega) aligned
    rw [cfgWrite_safeBlock lo hi on] at run
    exact run
  · intro a n aligned some few fits reads plain view
    have fine : ¬ (a % 4 ≠ 0 ∨ n = 0 ∨ 1019 < n) := by omega
    refine congrArg Host.Outcome.next ((command_runs runs _ rfl).trans ?_)
    have words := cfgReadWords_plain (bit w0 31) plain s
    have first : wd [w0, w1] 0 = w0 := rfl
    have second : wd [w0, w1] 1 = w1 := rfl
    have short : ¬ s.replyLimit < n := by omega
    simp only [first, second]
    rw [if_neg short, if_neg fine, reads, words]
    simp [reply, view, firstStatus_ok]

end

section
/-! Signals read and written, and the function of a ball (R380, R506, R507, R526). -/

namespace Sys2Proof.Machine

open Sys2Proof

variable {s t : State}

/-! SIGNAL_READ. -/

theorem replyLimit_pos (s : State) : 0 < s.replyLimit := by
  unfold State.replyLimit
  split
  · split <;> decide
  · decide

theorem execSignalRead_local (hs : s.Runs) {w : List Word} (any : 0 < w.length) (fits : w.length ≤ s.replyLimit)
    (few : w.length ≤ 1019) (near : ∀ p ∈ w, s.remote (fld p 0 20) = false ∧ reservedPt (fld p 0 20 % 1024) = false) :
    execSignalRead w s = .next (reply .ok (w.map fun p => s.localPoint (fld p 0 20)) s) := by
  have noFar : (w.map fun p => fld p 0 20).filter s.remote = [] := by
    rw [List.filter_eq_nil_iff]
    intro q hq
    obtain ⟨p, hp, rfl⟩ := List.mem_map.mp hq
    simp [(near p hp).1]
  have known : (w.map fun p => fld p 0 20).any (fun p => reservedPt (p % 1024)) = false := by
    rw [List.any_eq_false]
    intro q hq
    obtain ⟨p, hp, rfl⟩ := List.mem_map.mp hq
    simp [(near p hp).2]
  refine congrArg Host.Outcome.next ((command_runs hs _ (by simp [any, few])).trans ?_)
  dsimp only
  rw [noFar, known, if_neg (Nat.not_lt.mpr fits)]
  simp only [List.isEmpty_nil, List.map_map]
  rfl

theorem outOnly_trans {u v : State} (first : u = { s with out := u.out }) (then' : v = { u with out := v.out }) :
    v = { s with out := v.out } :=
  then'.trans (congrArg (fun x : State => { x with out := v.out }) first)

/-- A read of one point of another device is asked for, and waits. -/
def asked (p : Word) (s : State) : State :=
  setStair (fun x => { x with sigs := x.sigs ++ [{ pts := [fld p 0 20], vals := [], pkt := s.host.cur }] }) s

theorem execSignalRead_remote (hs : s.Runs) {p : Word} (far : s.remote (fld p 0 20) = true)
    (known : reservedPt (fld p 0 20 % 1024) = false) (links : s.isOn .links = true)
    (present : s.mapPresent.getLsbD (ptPos (fld p 0 20)) = true) :
    ∃ sent, execSignalRead [p] s = .next (wait { asked p s with out := sent }) := by
  let ask : Nat → State → State := fun q s =>
    each (chunks 128 ([fld p 0 20].filter fun p => ptPos p == q).length ([fld p 0 20].filter fun p => ptPos p == q))
      (fun l s => stairTo q 8 (reqBytes l) s) s
  have out : each (List.range 16) ask (asked p s) = { asked p s with out := (each (List.range 16) ask (asked p s)).out } := by
    refine each_inv (Q := fun u => u = { asked p s with out := u.out }) _ _ _ (fun q u h => ?_) rfl
    refine each_inv (Q := fun u => u = { asked p s with out := u.out }) _ _ u (fun l v h => ?_) h
    exact outOnly_trans h (stairTo_eq q 8 (reqBytes l) v)
  refine ⟨(each (List.range 16) ask (asked p s)).out, congrArg Host.Outcome.next ((command_runs hs _ rfl).trans ?_)⟩
  have short : ¬ s.replyLimit < 1 := Nat.not_lt.mpr (replyLimit_pos s)
  rw [← out]
  simp [short, far, known, links, present]
  rfl

/-! SIGNAL_WRITE. -/

theorem execSignalWrite_eq (hs : s.Runs) {w : List Word} (pairs : w.length % 2 = 0) : execSignalWrite w s = .next
    (if ((pairsIn w).map (signalStatus s)).foldl firstStatus .ok = .ok then
      refuse .ok { s with atr := { s.atr with writes := s.atr.writes ++ (pairsIn w).map fun x => (x.1 % 65536, x.2) } }
     else refuse (((pairsIn w).map (signalStatus s)).foldl firstStatus .ok) s) := by
  refine congrArg Host.Outcome.next ((command_runs hs _ (by simp [pairs])).trans ?_)
  dsimp only
  cases ((pairsIn w).map (signalStatus s)).foldl firstStatus .ok <;> rfl

/-! The function of a ball. -/

theorem fld_func (v : Word) : fld v 0 3 = (v &&& 7#32).toNat := by
  rw [fld, BitVec.toNat_and]
  exact (Nat.div_one _ ▸ (Nat.and_two_pow_sub_one_eq_mod v.toNat 3).symm)

/-- FUNC takes the function written. -/
theorem merge_func {m : Word} (whole : m &&& 7#32 = 7#32) (old v : Word) : merge m old v &&& 7#32 = v &&& 7#32 := by
  unfold merge
  have none : ~~~m &&& 7#32 = 0#32 := by
    rw [← whole, ← BitVec.and_assoc, BitVec.and_comm (~~~m) m, BitVec.and_not_self]
    exact BitVec.zero_and
  rw [BitVec.and_or_distrib_right, BitVec.and_assoc, none, BitVec.and_assoc, whole]
  simp

theorem regDef_gpio (x : Straps) (i : Fin 16) : regDef x (0x800 + 4 * i.val) = drDef (.dom .atrium) 0x107#32 0#32 := by
  have hi := i.isLt
  have lies : ∀ b : Nat, b < 0x800 → ¬ 0x800 + 4 * i.val < b := fun b hb => by omega
  have other : ∀ b : Nat, b < 0x800 → ¬ 0x800 + 4 * i.val = b := fun b hb => by omega
  simp only [regDef, lowDef]
  rw [if_neg (by omega), if_neg (by omega), if_pos (by omega)]
  simp [lies, other, show 0x800 + 4 * i.val < 0x840 by omega]

theorem plainWrite_gpio (i : Fin 16) (v : Word) (s : State) : plainWrite (0x800 + 4 * i.val) v s =
    s.setReg (0x800 + 4 * i.val) (merge 0x107#32 (s.reg (0x800 + 4 * i.val)) v) := by
  simp [plainWrite, regDef_gpio, drDef]

end Sys2Proof.Machine

open Sys2Proof.Machine in
/-- Settles O35: a read by whether a point of it is remote, a write by the first status of its pairs, a function change as one register write. -/
theorem signalsAndBalls : Obligations.SignalsAndBalls := by
  unfold Obligations.SignalsAndBalls
  intro s runs
  refine ⟨fun w any fits few near => ?_, fun p far known links present => ?_, fun w pairs => ?_, fun i f taken => ?_⟩
  · exact execSignalRead_local runs any fits few near
  · obtain ⟨sent, read⟩ := execSignalRead_remote runs far known links present
    exact ⟨_, read, rfl, rfl, rfl⟩
  · have write := execSignalWrite_eq runs pairs
    exact ⟨fun ok => write.trans (by rw [if_pos ok]; rfl), fun refused => write.trans (by rw [if_neg refused]; rfl)⟩
  · have fval := f.isLt
    let old := s.reg (0x800 + 4 * i.val)
    let v := merge 7 old (BitVec.ofNat 32 f.val)
    have func : v &&& 7#32 = BitVec.ofNat 32 f.val &&& 7#32 := merge_func rfl old _
    have small : ∀ f : Fin 8, (BitVec.ofNat 32 f.val &&& 7#32).toNat = f.val := by decide
    have named : fld v 0 3 = f.val := by rw [fld_func, func, small]
    have run : exec (.gpioFuncChange i f) s = .next (writeGpio i.val v s).2 := by
      rw [exec, execGpioFuncChange, if_pos runs]
    have written : (writeGpio i.val v s).2 = let t := s.setReg (0x800 + 4 * i.val) (merge 0x107#32 old v)
        if f.val = 4 then t else { t with atr := { t.atr with gpioPulse := t.atr.gpioPulse &&& ~~~(1#16 <<< i.val) } } := by
      rw [writeGpio, if_neg (by omega), plainWrite_gpio, named]
    have reads : ∀ u : State, u.cfg = (s.setReg (0x800 + 4 * i.val) (merge 0x107#32 old v)).cfg → u.aon = s.aon →
        fld (u.reg (0x800 + 4 * i.val)) 0 3 = f.val ∧ ∀ a, a ≠ 0x800 + 4 * i.val → u.reg a = s.reg a := fun u cfg aon => by
      have same : ∀ a, u.reg a = (s.setReg (0x800 + 4 * i.val) (merge 0x107#32 old v)).reg a := fun a =>
        reg_congr (s := s.setReg (0x800 + 4 * i.val) (merge 0x107#32 old v)) aon cfg a
      refine ⟨?_, fun a other => ?_⟩
      · rw [same, setReg_reg_same, fld_func, merge_func (by decide), func, small]
      · rw [same, setReg_reg_ne _ _ _ _ (Ne.symm other)]
    refine ⟨_, run, ?_⟩
    rw [written]
    dsimp only
    split
    · obtain ⟨own, others⟩ := reads _ rfl rfl
      exact ⟨own, others, rfl⟩
    · obtain ⟨own, others⟩ := reads { s.setReg (0x800 + 4 * i.val) (merge 0x107#32 old v) with
        atr := { s.atr with gpioPulse := s.atr.gpioPulse &&& ~~~(1#16 <<< i.val) } } rfl rfl
      exact ⟨own, others, rfl⟩

end

section
/-! Telemetry streams (R486 to R489): their registers, their enables, and the frame that is sent. -/

namespace Sys2Proof.Machine

open Sys2Proof

variable {s t : State} {n : Nat}

/-! STREAM_SET. -/

/-- The five registers of a stream before its points. -/
def streamHead (n : Nat) (cfg a b c d : Word) (s : State) : State :=
  ((((s.setReg (streamBase n) (cfg &&& 0x81FFFFFF#32)).setReg (streamBase n + 4) a).setReg (streamBase n + 8) (b &&& 0xFFFF#32)).setReg
    (streamBase n + 0x10) c).setReg (streamBase n + 0x14) (d &&& 0xFFFF#32)

theorem streamHead_reg (n : Nat) (cfg a b c d : Word) (s : State) : let t := streamHead n cfg a b c d s
    t.reg (streamBase n) = cfg &&& 0x81FFFFFF#32 ∧ t.reg (streamBase n + 4) = a ∧
      (∀ x, x < streamBase n ∨ streamBase n + 0x18 ≤ x → t.reg x = s.reg x) ∧ t = { s with cfg := t.cfg } := by
  refine ⟨?_, ?_, fun x hx => ?_, rfl⟩
  · simp only [streamHead]
    rw [setReg_reg_ne _ _ _ _ (by omega), setReg_reg_ne _ _ _ _ (by omega), setReg_reg_ne _ _ _ _ (by omega),
      setReg_reg_ne _ _ _ _ (by omega), setReg_reg_same]
  · simp only [streamHead]
    rw [setReg_reg_ne _ _ _ _ (by omega), setReg_reg_ne _ _ _ _ (by omega), setReg_reg_ne _ _ _ _ (by omega), setReg_reg_same]
  · simp only [streamHead]
    rw [setReg_reg_ne _ _ _ _ (by omega), setReg_reg_ne _ _ _ _ (by omega), setReg_reg_ne _ _ _ _ (by omega),
      setReg_reg_ne _ _ _ _ (by omega), setReg_reg_ne _ _ _ _ (by omega)]

/-- The state after STREAM_SET, before its reply. -/
def streamStored (n : Nat) (cfg a b c d : Word) (pts : List Word) (s : State) : State :=
  writeRow (streamBase n + 0x400) (cfgPoints cfg) (fun i => wd pts i &&& 0xFFFFF#32) (streamHead n cfg a b c d s)

theorem streamWrite_eq (w0 cfg a b c d : Word) (pts : List Word) :
    streamWrite n (w0 :: cfg :: a :: b :: c :: d :: pts) s = streamStored n cfg a b c d pts s := by
  simp only [streamWrite, streamStored, writeRow, streamHead, wd, Nat.add_comm 6, List.getD_cons_succ, List.getD_cons_zero]

theorem streamStored_reg {cfg : Word} (few : cfgPoints cfg ≤ 256) (n : Nat) (a b c d : Word) (pts : List Word) (s : State) :
    let t := streamStored n cfg a b c d pts s
    t.streamCfg n = cfg &&& 0x81FFFFFF#32 ∧ t.reg (streamBase n + 4) = a ∧
      (∀ i < cfgPoints cfg, t.reg (streamBase n + 0x400 + 4 * i) = wd pts i &&& 0xFFFFF#32) ∧
      (∀ x, x < streamBase n ∨ streamBase n + 0x800 ≤ x → t.reg x = s.reg x) ∧ t = { s with cfg := t.cfg } := by
  obtain ⟨own, addr, rest, only⟩ := streamHead_reg n cfg a b c d s
  obtain ⟨row, others, rowOnly⟩ := writeRow_written (streamBase n + 0x400) (cfgPoints cfg) (fun i => wd pts i &&& 0xFFFFF#32)
    (streamHead n cfg a b c d s)
  refine ⟨?_, ?_, row, fun x hx => ?_, ?_⟩
  · exact (others _ (by omega)).trans own
  · exact (others _ (by omega)).trans addr
  · exact (others _ (by omega)).trans (rest _ (by omega))
  · exact rowOnly.trans (congrArg (fun u : State => { u with cfg := (streamStored n cfg a b c d pts s).cfg }) only)

theorem execStreamSet_eq (hs : s.Runs) (w0 : Word) {cfg : Word} (a b c d : Word) {pts : List Word} (len : pts.length = cfgPoints cfg) :
    execStreamSet (w0 :: cfg :: a :: b :: c :: d :: pts) s = .next
      (if streamCheck (fld w0 0 3) cfg (pts.map fun p => fld p 0 20) s = .ok then
        refuse .ok (streamStored (fld w0 0 3) cfg a b c d pts s)
       else refuse (streamCheck (fld w0 0 3) cfg (pts.map fun p => fld p 0 20) s) s) := by
  have cfgWord : wd (w0 :: cfg :: a :: b :: c :: d :: pts) 1 = cfg := rfl
  have first : wd (w0 :: cfg :: a :: b :: c :: d :: pts) 0 = w0 := rfl
  refine congrArg Host.Outcome.next ((command_runs hs _ ?_).trans ?_)
  · simp only [cfgWord, List.length_cons, len]
    simp
    omega
  · simp only [cfgWord, first, List.drop_succ_cons, List.drop_zero, streamWrite_eq]
    cases streamCheck (fld w0 0 3) cfg (pts.map fun p => fld p 0 20) s <;> rfl

theorem streamCheck_few {cfg : Word} {pts : List Nat} (ok : streamCheck n cfg pts s = .ok) : cfgPoints cfg ≤ 256 := by
  by_contra many
  rw [streamCheck, if_pos (by omega)] at ok
  cases ok

/-! STREAM_ENABLE (R487). -/

theorem testBit_fld {w : Word} {n : Nat} (hn : n < 8) : (fld w 0 8).testBit n = bit w n := by
  rw [fld, pow_zero, Nat.div_one, Nat.testBit_mod_two_pow]
  simp [hn, bit, BitVec.getLsbD]

theorem askRemote_eq (n : Fin 8) (on : Bool) (t : Nat) (s : State) :
    askRemote n on t s = { s with out := (askRemote n on t s).out } := by
  refine each_inv (Q := fun u => u = { s with out := u.out }) _ _ s (fun q u h => ?_) rfl
  dsimp only
  split
  · exact h
  · exact outOnly_trans h (stairTo_eq _ _ _ u)

/-- The change of stream `n` is noted for the landing at `l`, and the positions it names points of are told. -/
def noteChange (w0 : Word) (l n : Nat) (s : State) : State :=
  askRemote (Fin.ofNat 8 n) (bit w0 (8 + n)) l (setStream n (fun x => { x with changes := x.changes ++ [(bit w0 (8 + n), l)] }) s)

theorem noteChange_streams (w0 : Word) (l n : Nat) (s : State) : (noteChange w0 l n s).streams =
    vmod s.streams n fun x => { x with changes := x.changes ++ [(bit w0 (8 + n), l)] } := by
  unfold noteChange
  rw [askRemote_eq]
  rfl

/-- STREAM_ENABLE touches the changes noted of the streams named, and what is out. -/
structure ChangesNoted (ns : List Nat) (w0 : Word) (l : Nat) (s t : State) : Prop where
  noted : ∀ n ∈ ns, (t.stream n).changes = (s.stream n).changes ++ [(bit w0 (8 + n), l)]
  others : ∀ n, n ∉ ns → t.stream n = s.stream n
  runs : ∀ n, (t.stream n).en = (s.stream n).en ∧ (t.stream n).due = (s.stream n).due
  only : t = { s with out := t.out, streams := t.streams }

theorem noteChanges_noted {ns : List Nat} (few : ∀ n ∈ ns, n < 8) (nodup : ns.Nodup) (w0 : Word) (l : Nat) (s : State) :
    ChangesNoted ns w0 l s (each ns (noteChange w0 l) s) where
  noted n hn := by
    have keep : ∀ m ∈ ns, m ≠ n → ∀ u, (noteChange w0 l m u).stream n = u.stream n := fun m _ ne u => by
      rw [State.stream, noteChange_streams, vget_vmod_ne _ _ _ _ _ ne]
      rfl
    obtain ⟨u, before, after⟩ := each_own_turn (State.stream · n) hn nodup keep
    rw [after, State.stream, noteChange_streams, vget_vmod_same _ _ _ _ (few n hn)]
    exact congrArg (fun x : Stream => x.changes ++ [(bit w0 (8 + n), l)]) before
  others n hn := each_keep_mem (State.stream · n) fun m hm u => by
    have ne : m ≠ n := fun same => hn (same ▸ hm)
    rw [State.stream, noteChange_streams, vget_vmod_ne _ _ _ _ _ ne]
    rfl
  runs n := by
    refine each_inv (Q := fun u => (u.stream n).en = (s.stream n).en ∧ (u.stream n).due = (s.stream n).due) _ _ s
      (fun m u h => ?_) ⟨rfl, rfl⟩
    rw [State.stream, noteChange_streams]
    rcases vget_vmod_or u.streams m n (fun x => { x with changes := x.changes ++ [(bit w0 (8 + m), l)] }) {} with same | noted
    · rwa [same]
    · rwa [noted]
  only := by
    refine each_inv (Q := fun u => u = { s with out := u.out, streams := u.streams }) _ _ s (fun m u h => ?_) rfl
    have turn : noteChange w0 l m u = { u with out := (noteChange w0 l m u).out, streams := (noteChange w0 l m u).streams } := by
      unfold noteChange
      rw [askRemote_eq]
      rfl
    exact turn.trans (congrArg (fun v : State => { v with
      out := (noteChange w0 l m u).out, streams := (noteChange w0 l m u).streams }) h)

theorem execStreamEnable_notes (hs : s.Runs) (w0 : Word) (b12 : s.bankOn 12 = true) (b13 : s.bankOn 13 = true)
    (net : s.isOn .net = true) : execStreamEnable [w0] s = .next (reply .ok (s.refFrom (s.now + 2 * s.grid.tc) false)
      (each (setBits 8 (fld w0 0 8)) (noteChange w0 (s.landingFrom (s.now + 2 * s.grid.tc)).1) s)) := by
  have first : wd [w0] 0 = w0 := rfl
  refine congrArg Host.Outcome.next ((command_runs hs _ rfl).trans ?_)
  simp [first, b12, b13, net]
  rfl

/-! A frame sent (R488). -/

theorem rsPush_full {b : List Byte} (h : 65536 < s.rsBytes + b.length) :
    rsPush b s = { s with host := { s.host with rsDrop := satInc 255 s.host.rsDrop } } := if_neg (Nat.not_le.mpr h)

/-- Stream `n` once the frame of `b` was put out: `sent` says whether it found room. -/
def frameTaken (n : Nat) (rest : List (Nat × BitVec 16 × List (Nat × Option F32))) (sent : Bool) (s : State) : State :=
  setStream n (fun x => { x with due := rest, fser := x.fser + 1, drop := if sent then x.drop else satInc 65535 x.drop }) s

/-- Whether the frame `b` of stream `n` finds room: in the reply stream, or with a free transmitter. -/
def frameRoom (n : Nat) (b : List Byte) (s : State) : Bool × State :=
  if cfgUdp (s.streamCfg n) then netFree s else (decide (s.rsBytes + b.length ≤ 65536), s)

/-- The frame `b` of stream `n` sent, with `rest` left of what was put together. -/
def frameSent (n : Nat) (b : List Byte) (rest : List (Nat × BitVec 16 × List (Nat × Option F32))) (s : State) : State :=
  let r := frameRoom n b s
  let t := frameTaken n rest r.1 r.2
  if !cfgUdp (s.streamCfg n) then rsPush b t else if r.1 then emit (.datagram (t.streamDest n) b) t else t

variable {rest : List (Nat × BitVec 16 × List (Nat × Option F32))} {b : List Byte}

theorem execStreamFrame_sends (hs : s.Runs) (n : Fin 8) {l : Nat} {seq : BitVec 16} {vals : List (Nat × Option F32)}
    (due : (s.stream n.val).due = (l, seq, vals) :: rest) : execStreamFrame n s = .next (frameSent n.val
      (streamBytes n.val (s.stream n.val).fser l seq (vals.map fun v => v.2.orElse fun _ => s.telemValue v.1 l)) rest s) := by
  have on : s.isOn .atrium = true := hs
  simp only [execStreamFrame, due, on]
  rfl

theorem frameTaken_own (n : Fin 8) (sent : Bool) : let x := (frameTaken n.val rest sent s).stream n.val
    x.due = rest ∧ x.fser = (s.stream n.val).fser + 1 ∧
      x.drop = if sent then (s.stream n.val).drop else satInc 65535 (s.stream n.val).drop := by
  have own : (frameTaken n.val rest sent s).stream n.val = { s.stream n.val with
      due := rest, fser := (s.stream n.val).fser + 1
      drop := if sent then (s.stream n.val).drop else satInc 65535 (s.stream n.val).drop } :=
    vget_vmod_same _ _ _ _ n.isLt
  simp only [own, and_self]

theorem frameTaken_others (sent : Bool) {m : Nat} (other : m ≠ n) : (frameTaken n rest sent s).stream m = s.stream m :=
  vget_vmod_ne _ _ _ _ _ (Ne.symm other)

theorem frameSent_rs (spi : cfgUdp (s.streamCfg n) = false) :
    frameSent n b rest s = rsPush b (frameTaken n rest (decide (s.rsBytes + b.length ≤ 65536)) s) := by
  simp only [frameSent, frameRoom, spi]
  rfl

theorem frameSent_udp (udp : cfgUdp (s.streamCfg n) = true) : frameSent n b rest s =
    if (netFree s).1 then emit (.datagram (s.streamDest n) b) (frameTaken n rest true (netFree s).2)
    else frameTaken n rest false (netFree s).2 := by
  have dest : ∀ sent, (frameTaken n rest sent (netFree s).2).streamDest n = s.streamDest n := fun _ => rfl
  have room : frameRoom n b s = netFree s := if_pos udp
  simp only [frameSent, room, udp]
  cases (netFree s).1 with
  | true => exact congrArg (fun d => emit (.datagram d b) (frameTaken n rest true (netFree s).2)) (dest true)
  | false => rfl

/-- What a frame sent leaves: its stream a frame further on, the others, and the registers. -/
theorem frameSent_stream (n : Fin 8) (b : List Byte) (rest : List (Nat × BitVec 16 × List (Nat × Option F32))) (s : State) :
    let t := frameSent n.val b rest s
    (t.stream n.val).due = rest ∧ (t.stream n.val).fser = (s.stream n.val).fser + 1 ∧
      (∀ m, m ≠ n.val → t.stream m = s.stream m) ∧ t.cfg = s.cfg ∧ t.pend = s.pend ∧ t.mem = s.mem ∧ t.tb = s.tb := by
  cases h : cfgUdp (s.streamCfg n.val) with
  | false =>
    rw [frameSent_rs h, rsPush_eq]
    obtain ⟨due, fser, -⟩ := frameTaken_own (rest := rest) (s := s) n (decide (s.rsBytes + b.length ≤ 65536))
    exact ⟨due, fser, fun m other => frameTaken_others _ other, rfl, rfl, rfl, rfl⟩
  | true =>
    rw [frameSent_udp h]
    split
    · obtain ⟨due, fser, -⟩ := frameTaken_own (rest := rest) (s := (netFree s).2) n true
      exact ⟨due, fser, fun m other => frameTaken_others (s := (netFree s).2) true other, rfl, rfl, rfl, rfl⟩
    · obtain ⟨due, fser, -⟩ := frameTaken_own (rest := rest) (s := (netFree s).2) n false
      exact ⟨due, fser, fun m other => frameTaken_others (s := (netFree s).2) false other, rfl, rfl, rfl, rfl⟩

theorem netFree_net (free : (netFree s).1 = true) : s.isOn .net = true := by
  unfold netFree at free
  exact (Bool.and_eq_true_iff.mp free).1

end Sys2Proof.Machine

open Sys2Proof.Machine in
/-- Settles O48: a write of the stream's registers, its enable, and the end of a frame by whether it found room. -/
theorem streams : Obligations.Streams := by
  unfold Obligations.Streams
  intro s runs
  refine ⟨fun w0 cfg a b c d pts len => ⟨fun ok => ?_, fun refused => ?_⟩, fun w0 b12 b13 net => ?_, fun n l seq vals rest => ?_⟩
  · have run := (execStreamSet_eq runs w0 a b c d len).trans (congrArg Host.Outcome.next (if_pos ok))
    obtain ⟨own, addr, row, others, only⟩ := streamStored_reg (streamCheck_few ok) (fld w0 0 3) a b c d pts s
    exact ⟨_, run, rfl, own, addr, row, others, congrArg (refuse .ok) only⟩
  · exact (execStreamSet_eq runs w0 a b c d len).trans (congrArg Host.Outcome.next (if_neg refused))
  · obtain ⟨noted, others, due, only⟩ := noteChanges_noted (ns := setBits 8 (fld w0 0 8)) (fun n hn => (mem_setBits.mp hn).1)
      (setBits_nodup 8 _) w0 (s.landingFrom (s.now + 2 * s.grid.tc)).1 s
    refine ⟨_, execStreamEnable_notes runs w0 b12 b13 net, rfl, fun n hn => ?_, due, ?_⟩
    · split
      · next named => exact noted n (mem_setBits.mpr ⟨hn, (testBit_fld hn).trans named⟩)
      · next free =>
        refine congrArg Stream.changes (others n fun named => free ?_)
        exact (testBit_fld hn).symm.trans (mem_setBits.mp named).2
    · exact congrArg (reply .ok _) only
  · intro x b due
    obtain ⟨left, fser, others, cfg, pend, mem, tb⟩ := frameSent_stream n b rest s
    refine ⟨_, execStreamFrame_sends runs n due, left, fser, fun spi => ⟨fun room => ?_, fun full => ?_⟩, fun udp => ?_, others,
      ⟨cfg, pend⟩, fun a => by rw [mem], tb⟩
    · rw [frameSent_rs spi, decide_eq_true room, rsPush_room (s := frameTaken n.val rest true s) room]
      exact ⟨rfl, (frameTaken_own n true).2.2⟩
    · rw [frameSent_rs spi, decide_eq_false (Nat.not_le.mpr full), rsPush_full (s := frameTaken n.val rest false s) full]
      exact ⟨rfl, (frameTaken_own n false).2.2⟩
    · rw [frameSent_udp udp]
      cases free : (netFree s).1 with
      | true => exact ⟨rfl, .inl ⟨netFree_net free, rfl, (frameTaken_own (s := (netFree s).2) n true).2.2⟩⟩
      | false => exact ⟨rfl, .inr ⟨rfl, (frameTaken_own (s := (netFree s).2) n false).2.2⟩⟩

end

section
/-! Supply faults (R439, R440). -/

namespace Sys2Proof.Machine

open Sys2Proof

variable {s t u : State}

/-! What a cause, an event and a record leave of AON and of the writer of NVM. -/

/-- Of AON only what it holds for its units that are OFF is another. -/
def HeldOnly (a b : Aon) : Prop := b = { a with heldEvents := b.heldEvents, heldLog := b.heldLog }

theorem HeldOnly.setEvents {a b : Aon} (h : HeldOnly a b) (l : List HeldEvt) : HeldOnly a { b with heldEvents := l } := by
  unfold HeldOnly at h ⊢
  exact congrArg (fun x : Aon => { x with heldEvents := l }) h

theorem HeldOnly.setLog {a b : Aon} (h : HeldOnly a b) (l : List LogRec) : HeldOnly a { b with heldLog := l } := by
  unfold HeldOnly at h ⊢
  exact congrArg (fun x : Aon => { x with heldLog := l }) h

theorem raise_heldOnly {a : Aon} (e : Nat) (w : Word) (h : HeldOnly a s.aon) : HeldOnly a (raise e w s).aon := by
  rw [raise_aon]
  split
  · exact h.setEvents _
  · exact h

theorem DecisionKeeps.heldOnly (a : Aon) : DecisionKeeps fun s => HeldOnly a s.aon where
  emit _ _ h := h
  raise e w _ h := raise_heldOnly e w h
  log e k y w c _ h := logRecord_keeps (Q := fun s => HeldOnly a s.aon) (fun e w _ h => raise_heldOnly e w h) (fun _ _ h => h)
    (fun l _ h => h.setLog l) e k y w c h
  safe _ _ h := h
  cell _ _ _ _ h := h
  ends _ h := h
  remap _ _ _ h := h
  short _ _ _ h := h

theorem beginErase_gates (v : Nvm) (x : Nat) : (v.beginErase x).stop = v.stop ∧ (v.beginErase x).offDue = v.offDue := by
  unfold Nvm.beginErase
  dsimp only
  split <;> exact ⟨rfl, rfl⟩

theorem nvmStart_gates (s : State) : (nvmStart s).nvm.stop = s.nvm.stop ∧ (nvmStart s).nvm.offDue = s.nvm.offDue := by
  unfold nvmStart
  dsimp only
  split
  · exact ⟨rfl, rfl⟩
  · split
    · exact beginErase_gates _ _
    · split <;> exact ⟨rfl, rfl⟩

theorem logRecord_gates (e : Nat) (k : Byte) (key : BitVec 16) (data cause : Word) (s : State) :
    (logRecord e k key data cause s).nvm.stop = s.nvm.stop ∧ (logRecord e k key data cause s).nvm.offDue = s.nvm.offDue := by
  unfold logRecord
  dsimp only
  split
  · exact nvmStart_gates _
  · split
    · exact ⟨rfl, rfl⟩
    · simp

theorem DecisionKeeps.gates (a b : Bool) : DecisionKeeps fun s => s.nvm.stop = a ∧ s.nvm.offDue = b where
  emit _ _ h := h
  raise e w _ h := by simpa using h
  log e k y w c s h := by
    obtain ⟨stop, off⟩ := logRecord_gates e k y w c s
    exact ⟨stop.trans h.1, off.trans h.2⟩
  safe _ _ h := h
  cell _ _ _ _ h := h
  ends _ h := h
  remap _ _ _ h := h
  short _ _ _ h := h

/-! A fault noted. -/

/-- The event of a supply's fault. -/
def supplyNum (p : Supply) (mv : Nat) : Nat :=
  match p with
  | .vin => if mv < 10000 then 206 else 207
  | .vcore => 208
  | .v3p3 => 209
  | .vdda => 209

/-- A fault with its event, what its buck shows, and its cause. -/
def supplyNoted (p : Supply) (mv : Nat) (s : State) : State := setCause 15 (limitNow p (supplyEvent p mv s))

/-- Of AON only what it holds, and whether a buck limits its current, is another. -/
def HeldOrLimits (a b : Aon) : Prop :=
  b = { a with heldEvents := b.heldEvents, heldLog := b.heldLog, ilim0Now := b.ilim0Now, ilim1Now := b.ilim1Now }

theorem HeldOrLimits.of_held {a b c : Aon} (first : HeldOnly a b) (i0 i1 : Bool)
    (last : HeldOnly { b with ilim0Now := i0, ilim1Now := i1 } c) : HeldOrLimits a c := by
  obtain ⟨e, l, rfl⟩ : ∃ e l, b = { a with heldEvents := e, heldLog := l } := ⟨_, _, first⟩
  obtain ⟨e', l', rfl⟩ : ∃ e l, c = { a with ilim0Now := i0, ilim1Now := i1, heldEvents := e, heldLog := l } := ⟨_, _, last⟩
  rfl

theorem limitNow_only (p : Supply) (s : State) : ∃ f i0 i1, limitNow p s =
    { s with freeCtr := f, aon := { s.aon with ilim0Now := i0, ilim1Now := i1 } } := by
  cases p <;> exact ⟨_, _, _, rfl⟩

theorem supplyEvent_eq (p : Supply) (mv : Nat) (s : State) : ∃ w, supplyEvent p mv s = raise (supplyNum p mv) w s := by
  cases p <;> exact ⟨_, rfl⟩

theorem supplyNum_lt (p : Supply) (mv : Nat) : supplyNum p mv < 256 := by
  unfold supplyNum
  split
  · split <;> decide
  all_goals decide

/-- What a fault noted does. -/
structure SupplyNoted (p : Supply) (mv : Nat) (s t : State) : Prop where
  aon : HeldOrLimits s.aon t.aon
  event : s.Runs → (t.evt (supplyNum p mv)).pend = true
  cause : s.isOn .safety = true → t.safe.cause = s.safe.cause ||| (1#17 <<< 15)
  stop : t.nvm.stop = s.nvm.stop
  rest : SameRegisters s t ∧ SameGallery s t ∧ t.tb = s.tb

theorem supplyNoted_noted (p : Supply) (mv : Nat) (s : State) : SupplyNoted p mv s (supplyNoted p mv s) := by
  obtain ⟨w, hw⟩ := supplyEvent_eq p mv s
  obtain ⟨f, i0, i1, limits⟩ := limitNow_only p (raise (supplyNum p mv) w s)
  let u := raise (supplyNum p mv) w s
  let v : State := { u with freeCtr := f, aon := { u.aon with ilim0Now := i0, ilim1Now := i1 } }
  have noted : supplyNoted p mv s = setCause 15 v := by rw [supplyNoted, hw, limits]
  have raised : HeldOnly s.aon u.aon := raise_heldOnly _ w rfl
  have kept := ((DecisionKeeps.heldOnly v.aon).and (DecisionKeeps.gates s.nvm.stop s.nvm.offDue)).setCause 15 (s := v)
    ⟨rfl, by simp [v, u], by simp [v, u]⟩
  obtain ⟨aon, stop, -⟩ := kept
  rw [noted]
  refine ⟨?_, fun runs => ?_, fun on => ?_, stop, ?_⟩
  · exact HeldOrLimits.of_held raised i0 i1 aon
  · exact (DecisionKeeps.pend (supplyNum p mv)).setCause 15 (raise_pend_same w runs (supplyNum_lt p mv))
  · have cause := setCause_safeCause 15 (s := v) ((raise_isOn _ w s .safety).trans on)
    simpa [v, u] using cause
  · simp [SameRegisters, SameGallery, v, u]

theorem HeldOrLimits.supplies {a b : Aon} (h : HeldOrLimits a b) : b.volts = a.volts ∧ b.vinUv = a.vinUv ∧ b.vinOv = a.vinOv ∧
    b.vcoreBad = a.vcoreBad ∧ b.v3p3Bad = a.v3p3Bad ∧ b.vddaBad = a.vddaBad ∧ b.seq = a.seq := by
  unfold HeldOrLimits at h
  rw [h]
  exact ⟨rfl, rfl, rfl, rfl, rfl, rfl, rfl⟩

theorem dropRet_idle (idle : s.aon.seq = none) : dropRet s = s := by simp only [dropRet, idle]

/-- The state a fault is noted in: its readings are marked, and with VIN low the writer of NVM is held. -/
def supplyMarked (p : Supply) (mv : Nat) (s : State) : State :=
  if (markSupply p mv true s).aon.vinUv then nvmHold (markSupply p mv true s) else markSupply p mv true s

theorem supplyMarked_same (p : Supply) (mv : Nat) (s : State) : let t := supplyMarked p mv s
    t.aon = (markSupply p mv true s).aon ∧ SameRegisters s t ∧ t.mem = s.mem ∧ t.tb = s.tb ∧ t.safe = s.safe ∧
      t.isOn .atrium = s.isOn .atrium ∧ t.isOn .safety = s.isOn .safety := by
  unfold supplyMarked
  dsimp only
  split <;> cases p <;> exact ⟨rfl, ⟨rfl, rfl⟩, rfl, rfl, rfl, rfl, rfl⟩

/-- A fault outside power-on reset, with no sequence under way, is marked and noted. -/
theorem execSupplyFault_notes {p : Supply} {mv : Nat} (up : s.aon.porHold = false) (idle : s.aon.seq = none)
    (watched : (p == .vdda && !s.isOn .analog) = false) :
    execSupplyFault p mv s = .next (supplyNoted p mv (supplyMarked p mv s)) := by
  have aon := (supplyMarked_same p mv s).1
  have seq : (supplyNoted p mv (supplyMarked p mv s)).aon.seq = none := by
    rw [(supplyNoted_noted p mv (supplyMarked p mv s)).aon.supplies.2.2.2.2.2.2, aon]
    cases p <;> exact idle
  unfold execSupplyFault
  rw [if_neg (by simp [up, watched])]
  refine congrArg Host.Outcome.next ?_
  change (if _ then dropRet (supplyNoted p mv (supplyMarked p mv s)) else supplyNoted p mv (supplyMarked p mv s)) = _
  rw [dropRet_idle seq]
  exact ite_self _

/-- What a fault of a supply does, seen from the state it comes in. -/
theorem execSupplyFault_takes {p : Supply} {mv : Nat} (up : s.aon.porHold = false) (idle : s.aon.seq = none)
    (watched : (p == .vdda && !s.isOn .analog) = false) : ∃ t, execSupplyFault p mv s = .next t ∧
      HeldOrLimits (markSupply p mv true s).aon t.aon ∧ (s.Runs → (t.evt (supplyNum p mv)).pend = true) ∧
      (s.isOn .safety = true → t.safe.cause = s.safe.cause ||| (1#17 <<< 15)) ∧
      t.nvm.stop = (supplyMarked p mv s).nvm.stop ∧ SameRegisters s t ∧ SameGallery s t ∧ t.tb = s.tb := by
  obtain ⟨aon, ⟨cfg, pend⟩, mem, tb, safe, atrium, safety⟩ := supplyMarked_same p mv s
  obtain ⟨taon, event, cause, stop, ⟨tcfg, tpend⟩, tmem, ttb⟩ := supplyNoted_noted p mv (supplyMarked p mv s)
  refine ⟨_, execSupplyFault_notes up idle watched, aon ▸ taon, fun runs => event (atrium.trans runs), fun on => ?_, stop,
    ⟨tcfg.trans cfg, tpend.trans pend⟩, fun a => ?_, ttb.trans tb⟩
  · rw [cause (safety.trans on), safe]
  · rw [tmem a, mem]

/-- VIN is back inside its window: operations of NVM may start again, unless a die shutdown holds them. -/
def vinBack (mv : Nat) (s : State) : State :=
  if (markSupply .vin mv false s).therm.shut then markSupply .vin mv false s else nvmGo (markSupply .vin mv false s)

theorem vinBack_same (mv : Nat) (s : State) : (vinBack mv s).aon = (markSupply .vin mv false s).aon ∧
    SameRegisters s (vinBack mv s) ∧ SameGallery s (vinBack mv s) := by
  unfold vinBack
  split
  · exact ⟨rfl, ⟨rfl, rfl⟩, fun a => rfl⟩
  · refine ⟨by simp only [nvmGo_frame], ?_, ?_⟩
    · simp only [SameRegisters, nvmGo_frame]
      exact ⟨rfl, rfl⟩
    · simp only [SameGallery, nvmGo_frame]
      exact fun a => rfl

end Sys2Proof.Machine

open Sys2Proof.Machine in
/-- Settles O31: one lemma of what a fault does, read at each supply and side of its window. -/
theorem supplyFaults : Obligations.SupplyFaults := by
  unfold Obligations.SupplyFaults
  intro s mv up idle
  refine ⟨fun _ => ?_, fun low => ?_, fun high => ?_, fun _ on => ?_, fun _ => ?_, ?_, ?_, ?_, ?_⟩
  · obtain ⟨t, exec, aon, event, cause, -, rest⟩ := execSupplyFault_takes (p := .vcore) (mv := mv) up idle rfl
    obtain ⟨volts, -, -, bad, -⟩ := aon.supplies
    exact ⟨t, exec, bad, congrArg (·.vcore) volts, event, cause, rest⟩
  · obtain ⟨t, exec, aon, event, cause, stop, rest⟩ := execSupplyFault_takes (p := .vin) (mv := mv) up idle rfl
    obtain ⟨volts, uv, ov, -⟩ := aon.supplies
    have below : mv < 10000 := by omega
    have marked : (markSupply .vin mv true s).aon.vinUv = true := by simp [markSupply, setAon, below]
    refine ⟨t, exec, uv.trans marked, ov.trans (by simp [markSupply, setAon, below]), congrArg (·.vin) volts, fun runs => ?_,
      stop.trans ?_, cause, rest⟩
    · simpa [supplyNum, below] using event runs
    · rw [supplyMarked, if_pos marked]
      rfl
  · obtain ⟨t, exec, aon, event, cause, -, rest⟩ := execSupplyFault_takes (p := .vin) (mv := mv) up idle rfl
    obtain ⟨volts, uv, ov, -⟩ := aon.supplies
    have above : ¬ mv < 10000 := by omega
    refine ⟨t, exec, ov.trans (by simp [markSupply, setAon, above]), uv.trans (by simp [markSupply, setAon, above]),
      congrArg (·.vin) volts, fun runs => ?_, cause, rest⟩
    simpa [supplyNum, above] using event runs
  · obtain ⟨t, exec, aon, event, cause, -, rest⟩ := execSupplyFault_takes (p := .vdda) (mv := mv) up idle (by simp [on])
    obtain ⟨volts, -, -, -, -, bad, -⟩ := aon.supplies
    exact ⟨t, exec, bad, congrArg (·.vdda) volts, event, cause, rest⟩
  · obtain ⟨t, exec, aon, event, cause, -, rest⟩ := execSupplyFault_takes (p := .v3p3) (mv := mv) up idle rfl
    obtain ⟨volts, -, -, -, bad, -⟩ := aon.supplies
    exact ⟨t, exec, bad, congrArg (·.v3p3) volts, event, cause, rest⟩
  · have clears : execSupplyFaultClear .vin mv s = .next (vinBack mv s) := by simp [execSupplyFaultClear, up, vinBack]
    obtain ⟨aon, rest⟩ := vinBack_same mv s
    exact ⟨_, clears, by rw [aon]; rfl, by rw [aon]; rfl, by rw [aon]; rfl, rest⟩
  · simp [exec, execSupplyFaultClear, up, markSupply, setAon]
  · simp [exec, execSupplyFaultClear, up, markSupply, setAon]
  · simp [exec, execSupplyFaultClear, up, markSupply, setAon]

end

section
/-! Sensors, the housekeeping round and the die's shutdown (R417 to R431). -/

namespace Sys2Proof.Machine

open Sys2Proof

variable {s t u : State}

/-! The sensors' bits (R421, R429). -/

theorem setSens_own (x : Sensor) (f : SensorState → SensorState) (s : State) :
    (s.setSens (sensorCode x) f).sens (sensorCode x) = f (s.sens (sensorCode x)) := by
  cases x with
  | die i =>
    have small : i.val < 8 := by omega
    simp [State.setSens, State.sens, sensorCode, small]
  | th i =>
    have small : 4 + i.val < 8 := by omega
    simp [State.setSens, State.sens, sensorCode, small]
  | cell k c =>
    have large : ¬ 0x100 + 4 * k.val + c.val < 8 := by omega
    have cell : (0x100 + 4 * k.val + c.val - 0x100) / 4 = k.val := by omega
    have chan : (0x100 + 4 * k.val + c.val) % 4 = c.val := by omega
    simp [State.setSens, State.sens, sensorCode, large, cell, chan]

theorem setSens_only (code : Nat) (f : SensorState → SensorState) (s : State) :
    s.setSens code f = { s with therm := (s.setSens code f).therm, cells := (s.setSens code f).cells } := by
  unfold State.setSens
  split <;> rfl

/-! What a round leaves as it is: the domains, and the instant of the round. -/

/-- The domains are `d`, and the newest round is that of `l`. -/
def RoundKept (d : Vector DomState 10) (l : Option Nat) (s : State) : Prop := s.aon.dom = d ∧ s.therm.hkLast = l

namespace RoundKept

variable {d : Vector DomState 10} {l : Option Nat}

theorem raise (e : Nat) (w : Word) (h : RoundKept d l s) : RoundKept d l (raise e w s) := by
  simpa [RoundKept, raise_dom] using h

theorem setSens (code : Nat) (f : SensorState → SensorState) (h : RoundKept d l s) : RoundKept d l (s.setSens code f) := by
  unfold State.setSens
  split <;> exact h

theorem failSensor (code : Nat) (h : RoundKept d l s) : RoundKept d l (failSensor code s) := by
  unfold Machine.failSensor
  split
  · exact h
  · exact (h.setSens code _).raise 204 _

theorem crossCheck (vals : Table Int) (s0 : State) (code : Nat) (h : RoundKept d l s) :
    RoundKept d l (crossCheck vals s0 code s) := by
  unfold Machine.crossCheck
  dsimp only
  split
  · exact h
  · split
    · exact h
    · split
      · split
        · exact (h.setSens code _).failSensor code
        · exact h.setSens code _
      · exact h.setSens code _

theorem rateCheck (code : Nat) (h : RoundKept d l s) : RoundKept d l (rateCheck code s) := by
  unfold Machine.rateCheck
  dsimp only
  generalize (_ && _ : Bool) = rises
  cases rises
  · exact h.setSens code _
  · exact (h.setSens code _).raise 201 _

theorem warnCheck (codes : List Nat) (h : RoundKept d l s) : RoundKept d l (warnCheck codes s) := by
  unfold Machine.warnCheck
  dsimp only
  split
  · split
    · exact RoundKept.raise (s := { s with therm := _ }) 200 _ h
    · exact h
  · exact h

theorem enforce (h : RoundKept d l s) : RoundKept d l (enforce s) :=
  RoundKept.raise (s := { s with therm := _ }) 203 0 h

theorem judgeGrace (h : RoundKept d l s) : RoundKept d l (judgeGrace s) := by
  unfold Machine.judgeGrace
  split
  · exact h.enforce
  · exact h

theorem throttleStep (codes : List Nat) (h : RoundKept d l s) : RoundKept d l (throttleStep codes s) := by
  have requested : ∀ x : Therm, x.hkLast = s.therm.hkLast → RoundKept d l (Machine.raise 202 0 { s with therm := x }) := fun x hx =>
    RoundKept.raise (s := { s with therm := x }) 202 0 ⟨h.1, hx.trans h.2⟩
  unfold Machine.throttleStep
  dsimp only
  split
  · split
    · exact requested _ rfl
    · split <;> exact h
  · split
    · split
      · split
        · exact judgeGrace (requested { s.therm with
            tstate := 1, graceAt := s.now + fld (s.reg 0x40004) 0 12 * 10000000 } rfl)
        · exact requested _ rfl
      · exact h
    · split
      · exact h
      · exact h.judgeGrace
    · split <;> exact h
    · split
      · exact h.enforce
      · split <;> exact h

theorem supervise (vals : Table Int) (s0 : State) (code : Nat) (h : RoundKept d l s) :
    RoundKept d l (supervise vals s0 code s) := h.setSens code _

theorem keepRs (pins : List (Reading × Option F32)) (h : RoundKept d l s) : RoundKept d l (keepRs pins s) := by
  refine each_inv (Q := RoundKept d l) _ _ s (fun i u h => ?_) h
  dsimp only
  split <;> exact h

theorem dropRates (h : RoundKept d l s) : RoundKept d l (dropRates s) :=
  each_inv (Q := RoundKept d l) _ _ s (fun code _ h => h.setSens code _) h

theorem failBad (readings : List (Nat × Reading)) (h : RoundKept d l s) : RoundKept d l (failBad readings s) := by
  refine each_inv (Q := RoundKept d l) _ _ s (fun x u h => ?_) h
  split
  · exact h.failSensor x.1
  · exact h

/-- The checks of a round over its sensors, one after another. -/
theorem checks (readings : List (Nat × Reading)) (vals : Table Int) (codes : List Nat) (h : RoundKept d l s) : RoundKept d l <|
    let s := Machine.failBad readings s
    let s := each codes (Machine.crossCheck vals s) s
    let s := each codes (Machine.supervise vals s) s
    let s := each codes Machine.rateCheck s
    Machine.throttleStep codes (meanPower (Machine.warnCheck codes s)) := by
  refine throttleStep codes (warnCheck codes ?_)
  refine each_inv (Q := RoundKept d l) _ _ _ (fun c u h => h.rateCheck c) ?_
  refine each_inv (Q := RoundKept d l) _ _ _ (fun c u h => h.supervise _ _ c) ?_
  exact each_inv (Q := RoundKept d l) _ _ _ (fun c u h => h.crossCheck _ _ c) (h.failBad readings)

theorem setCells (x : Vector Cell 63) (h : RoundKept d l s) : RoundKept d l { s with cells := x } := h

theorem thermalRound (th : Vector PinInput 4) (h : RoundKept d l s) : RoundKept d l (thermalRound th s) :=
  setCells _ (checks _ _ _ (dropRates (h.keepRs _)))

end RoundKept

/-- The instant of the next round. -/
def nextRound (s : State) : Nat :=
  match s.therm.hkLast with
  | some l => max (gridUp (s.hkPeriod * 1000000) s.now) ((l / (s.hkPeriod * 1000000) + 1) * (s.hkPeriod * 1000000))
  | none => gridUp (s.hkPeriod * 1000000) s.now

/-- The state that the thermal supervision of the round of `next` starts from. -/
def roundBegun (next : Nat) (r : Rails) (v : Nat) (s : State) : State :=
  let volts : Volts := { vin := r.vin, vcore := r.vcore, v3p3 := r.v3p3, vdda := v }
  let s := advanceTo next s
  let s := wearParams (setAon (fun a => { a with volts := volts }) s)
  { s with therm := { s.therm with hkLast := some next } }

theorem roundBegun_same (next : Nat) (r : Rails) (v : Nat) (s : State) : let t := roundBegun next r v s
    RoundKept s.aon.dom (some next) t ∧ SameRegisters s t ∧ t.mem = s.mem ∧ t.tb = (advanceTo next s).tb := by
  have aon : (advanceTo next s).aon = s.aon := by simp only [advanceTo_frame]
  refine ⟨⟨?_, rfl⟩, ?_, ?_, ?_⟩
  · simp only [roundBegun, wearParams_frame, setAon, aon]
  · simp [SameRegisters, roundBegun, wearParams_frame, setAon, advanceTo_frame]
  · simp [roundBegun, wearParams_frame, setAon, advanceTo_frame]
  · simp only [roundBegun, wearParams_frame, setAon]

/-- The round of `next`. -/
def roundAt (next : Nat) (th : Vector PinInput 4) (r : Rails) (v : Nat) (s : State) : State :=
  let volts : Volts := { vin := r.vin, vcore := r.vcore, v3p3 := r.v3p3, vdda := v }
  let s := thermalRound th (roundBegun next r v s)
  { s with therm := { s.therm with hkVolts := { volts with vdda := if s.vddaOn then v else 0 } } }

theorem vddaOn_congr (h : t.aon.dom = s.aon.dom) : t.vddaOn = s.vddaOn := by
  simp only [State.vddaOn, State.isOn, State.domSt, h]

/-- What a round leaves of its own, and of the rest. -/
theorem roundAt_same (next : Nat) (th : Vector PinInput 4) (r : Rails) (v : Nat) (s : State) : let t := roundAt next th r v s
    t.therm.hkLast = some next ∧ t.tb = (advanceTo next s).tb ∧
      t.therm.hkVolts = { vin := r.vin, vcore := r.vcore, v3p3 := r.v3p3, vdda := if s.vddaOn then v else 0 } ∧
      SameRegisters s t ∧ SameGallery s t := by
  obtain ⟨w, hw⟩ : ∃ w : State, w = roundBegun next r v s := ⟨_, rfl⟩
  have made : roundAt next th r v s = { thermalRound th w with therm := { (thermalRound th w).therm with
      hkVolts := { vin := r.vin, vcore := r.vcore, v3p3 := r.v3p3, vdda := if (thermalRound th w).vddaOn then v else 0 } } } := by
    rw [hw]
    rfl
  obtain ⟨begun, ⟨cfg, pend⟩, mem, tb⟩ := roundBegun_same next r v s
  rw [← hw] at begun cfg pend mem tb
  obtain ⟨dom, last⟩ := begun.thermalRound th
  have volts : (thermalRound th w).vddaOn = s.vddaOn := vddaOn_congr dom
  rw [made, volts]
  refine ⟨last, ?_, rfl, ?_, ?_⟩
  · simp [thermalRound_frame, tb]
  · simp [SameRegisters, thermalRound_frame, cfg, pend]
  · simp [SameGallery, thermalRound_frame, mem]

theorem execHkRound_runs (hs : s.Runs) (tb : s.isOn .timebase = true) (free : s.atr.halted = false) (th : Vector PinInput 4)
    (r : Rails) (v : Nat) : execHkRound th r v s = .next (roundAt (nextRound s) th r v s) := by
  have on : s.isOn .atrium = true := hs
  have runs : ¬ (!s.isOn .atrium || !s.isOn .timebase || s.atr.halted) = true := by simp [on, tb, free]
  unfold execHkRound nextRound
  rw [if_neg runs]
  cases s.therm.hkLast with
  | none =>
    dsimp only
    generalize gridUp _ _ = next
    rfl
  | some l =>
    dsimp only
    generalize max (_ : Nat) _ = next
    rfl

/-! NVM leaves ON in a die's shutdown (R431, R432). -/

/-- What the end of NVM's stay leaves: the safety unit, the writer's gate, no sequence, and an event that pends. -/
def LeaveKept (x : Safe) (b : Bool) (e : Nat) (s : State) : Prop :=
  s.safe = x ∧ s.nvm.stop = b ∧ s.aon.seq = none ∧ (s.evt e).pend = true

namespace LeaveKept

variable {x : Safe} {b : Bool} {e : Nat}

theorem raise (n : Nat) (w : Word) (h : LeaveKept x b e s) : LeaveKept x b e (raise n w s) := by
  obtain ⟨safe, stop, seq, pends⟩ := h
  refine ⟨by simpa using safe, by simpa using stop, ?_, raise_pend_keeps n w pends⟩
  rw [raise_seq, seq]

theorem finish (p : Option Pkt) (r : Reply) (h : LeaveKept x b e s) : LeaveKept x b e (finish p r s) := by
  obtain ⟨safe, stop, seq, pends⟩ := h
  have power : (Machine.finish p r s).aon.seq = s.aon.seq := congrArg (fun y => y.2.2.1) (finish_powerParts p r s)
  have events : (Machine.finish p r s).events = s.events := by simp only [finish_frame]
  refine ⟨by simpa using safe, by simpa using stop, power.trans seq, ?_⟩
  rwa [State.evt, events]

/-- A record that is given up. -/
theorem recordLost (j : NvmJob) (h : LeaveKept x b e s) : LeaveKept x b e (recordDone j false s) := by
  unfold recordDone
  split
  · exact h
  · split <;> exact h
  · split
    · exact h.finish _ _
    · exact h
  · split
    · split
      · next g o c _ _ _ =>
        have used : LeaveKept x b e (sendCal c.chan g o (useCal c.chan g o s)) := by
          obtain ⟨safe, stop, seq, pends⟩ := h
          refine ⟨by simpa using safe, by simpa using stop, by simpa using seq, ?_⟩
          simpa [State.evt] using pends
        exact raise (s := setMeas _ _) 183 _ used
      · exact h
    · exact h
  · obtain ⟨safe, stop, seq, pends⟩ := h
    exact ⟨safe, stop, by simp [seq], pends⟩

theorem nvmOff (h : LeaveKept x b e s) : LeaveKept x b e (nvmOff s) := by
  have left : LeaveKept x b e (nvmLeave (dropPend .nvm (dropCfg .nvm s))) :=
    each_inv (Q := LeaveKept x b e) _ _ _ (fun j u h => h.recordLost j) h
  exact raise (s := setUnit 9 .off _) 168 _ left

end LeaveKept

theorem nvmOff_off (s : State) : (nvmOff s).domSt .nvm = .off := by
  have off : (nvmOff s).unitSt 9 = .off :=
    (unitSt_of_powerParts (changed_powerParts 9 false _) 9).trans (setUnit_unitSt_same (by decide) .off _)
  exact off

theorem nvmOff_therm (s : State) : (nvmOff s).therm = s.therm := by
  simp [nvmOff, shed, changed_frame, setUnit_frame, nvmLeave_frame, dropPend_frame, dropCfg_frame]

theorem nvmOff_mem (s : State) : (nvmOff s).mem = s.mem := by simp only [nvmOff_frame]

theorem journalled_idle (idle : s.aon.seq = none) : journalled s = s := by simp only [journalled, idle]

/-! The shutdown of a die (R431 to R433). -/

/-- A cause taken while the writer of NVM is to go OFF holds its record in AON: the writer stands as it is. -/
theorem DecisionKeeps.leaving (a b : Bool) : DecisionKeeps fun s => s.nvm.offDue = true ∧ s.nvm.stop = a ∧ s.nvm.busy = b where
  emit _ _ h := h
  raise e w _ h := by simpa using h
  log e k y w c s h := by
    unfold logRecord
    dsimp only
    rw [if_neg (by simp [h.1])]
    split
    · exact h
    · simpa using h
  safe _ _ h := h
  cell _ _ _ _ h := h
  ends _ h := h
  remap _ _ _ h := h
  short _ _ _ h := h

/-- The shutdown is decided: no operation of NVM starts, and its stay ON is to end. -/
def shutHeld (s : State) : State :=
  let s := if s.isOn .nvm then nvmHold s else s
  let s := if s.isOn .nvm || s.domSt .nvm == .trans then setNvm (fun v => { v with offDue := true }) s else s
  { s with therm := { s.therm with shut := true } }

/-- The shutdown is noted with its cause and its event. -/
def shutNoted (d : Nat) (s : State) : State := raise 205 (BitVec.ofNat 32 d) (setCause 14 (shutHeld s))

theorem shutHeld_same (s : State) : (shutHeld s).aon = s.aon ∧ (shutHeld s).safe = s.safe ∧ (shutHeld s).mem = s.mem ∧
    (shutHeld s).therm.shut = true := by
  unfold shutHeld
  dsimp only
  split <;> split <;> exact ⟨rfl, rfl, rfl, rfl⟩

theorem shutHeld_nvm (on : s.isOn .nvm = true) :
    (shutHeld s).nvm.offDue = true ∧ (shutHeld s).nvm.stop = true ∧ (shutHeld s).nvm.busy = s.nvm.busy := by
  have still : (nvmHold s).isOn .nvm = true := on
  unfold shutHeld
  dsimp only
  rw [if_pos on, if_pos (by simp [still])]
  exact ⟨rfl, rfl, rfl⟩

/-- What a noted shutdown shows. -/
structure ShutNoted (s t : State) : Prop where
  shut : t.therm.shut = true
  event : (t.evt 205).pend = true
  cause : s.isOn .safety = true → t.safe.cause = s.safe.cause ||| (1#17 <<< 14)
  seq : t.aon.seq = s.aon.seq
  nvmOn : t.isOn .nvm = s.isOn .nvm
  nvm : s.isOn .nvm = true → t.nvm.offDue = true ∧ t.nvm.stop = true ∧ t.nvm.busy = s.nvm.busy
  mem : t.mem = s.mem

theorem shutNoted_noted (hs : s.Runs) (d : Nat) : ShutNoted s (shutNoted d s) := by
  obtain ⟨aon, safe, mem, shut⟩ := shutHeld_same s
  have power := setCause_power 14 (shutHeld s)
  have heldAon : HeldOnly (shutHeld s).aon (shutNoted d s).aon :=
    raise_heldOnly 205 _ ((DecisionKeeps.heldOnly _).setCause 14 rfl)
  unfold shutNoted at heldAon ⊢
  refine ⟨?_, ?_, fun on => ?_, ?_, ?_, fun on => ?_, ?_⟩
  · simpa using shut
  · exact raise_pend_same _ ((power.isOn .atrium).trans ((isOn_congr aon .atrium).trans hs)) (by decide)
  · have cause := setCause_safeCause 14 (s := shutHeld s) ((isOn_congr aon .safety).trans on)
    simpa [safe] using cause
  · rw [heldAon, aon]
  · rw [raise_isOn, power.isOn, isOn_congr aon]
  · obtain ⟨off, stop, busy⟩ := shutHeld_nvm on
    have kept := (DecisionKeeps.leaving true s.nvm.busy).setCause 14 (s := shutHeld s) ⟨off, stop, busy⟩
    simpa using kept
  · simp [mem]

theorem dieShutdown_ends (d : Nat) (s : State) : dieShutdown d s =
    if (shutNoted d s).isOn .nvm && !(shutNoted d s).nvm.busy then journalled (nvmDue (shutNoted d s)) else shutNoted d s := by
  unfold dieShutdown shutNoted shutHeld
  dsimp only

/-- Once a shutdown is noted, an idle NVM goes OFF at once (R432). -/
def shutEnded (s : State) : State := if s.isOn .nvm && !s.nvm.busy then journalled (nvmDue s) else s

theorem shutEnded_leaves {x : Safe} {b : Bool} {e : Nat} (stays : LeaveKept x b e s) : let t := shutEnded s
    LeaveKept x b e t ∧ t.therm = s.therm ∧ t.mem = s.mem ∧
      (s.isOn .nvm = true → s.nvm.offDue = true → s.nvm.busy = false → t.domSt .nvm = .off) := by
  have idle := stays.2.2.1
  unfold shutEnded
  dsimp only
  split
  · unfold nvmDue
    split
    · have left := stays.nvmOff
      rw [journalled_idle left.2.2.1]
      exact ⟨left, nvmOff_therm s, nvmOff_mem s, fun _ _ _ => nvmOff_off s⟩
    · next stands =>
      rw [journalled_idle idle]
      exact ⟨stays, rfl, rfl, fun on off busy => absurd (by simp [on, off, busy]) stands⟩
  · next stands => exact ⟨stays, rfl, rfl, fun on _ busy => absurd (by simp [on, busy]) stands⟩

/-- A die sensor has shown `x`. -/
def dieShown (d : Fin 4) (x : Int) (s : State) : State := { s with therm := { s.therm with die := s.therm.die.set d (.val x) } }

theorem execDieShutdownCompare_eq (hs : s.Runs) (d : Fin 4) (x : Int) : execDieShutdownCompare d (.val x) s = .next
    (if s.shutLevel ≤ x then
      if s.therm.shut then setCause 14 (dieShown d x s) else dieShutdown d.val (dieShown d x s)
     else if s.therm.shut && (dieShown d x s).dieCool then
      nvmGo { dieShown d x s with therm := { (dieShown d x s).therm with shut := false } }
     else dieShown d x s) := by
  have on : s.isOn .atrium = true := hs
  have level : (dieShown d x s).shutLevel = s.shutLevel := rfl
  have shut : (dieShown d x s).therm.shut = s.therm.shut := rfl
  unfold execDieShutdownCompare
  rw [if_neg (by simp [on])]
  change Host.Outcome.next (if decide ((dieShown d x s).shutLevel ≤ x) && !(dieShown d x s).therm.shut then _
    else if decide ((dieShown d x s).shutLevel ≤ x) then _ else _) = _
  rw [level, shut]
  by_cases hot : s.shutLevel ≤ x <;> cases s.therm.shut <;> simp [hot, dieShown]

end Sys2Proof.Machine

open Sys2Proof.Machine in
/-- Settles O60: the sensor's bits by a write of ones, the round at its instant, and the shutdown by whether one was decided. -/
theorem thermalRounds : Obligations.ThermalRounds := by
  unfold Obligations.ThermalRounds
  intro s runs
  have on : s.isOn .atrium = true := runs
  refine ⟨fun x reached => ⟨?_, ?_⟩, fun th r v tb free => ?_, ?_, fun d x => ⟨fun hot cold idle => ?_, fun hot shut safety => ?_,
    fun cool cold => ?_⟩⟩
  · exact ⟨_, congrArg Host.Outcome.next (if_pos reached), setSens_own x _ s, setSens_only _ _ s⟩
  · refine ⟨_, congrArg Host.Outcome.next (if_pos reached), ?_, ?_, setSens_only _ _ s⟩
    · rw [clearPin, setSens_own]
    · rw [clearPin, setSens_own]
  · exact ⟨_, execHkRound_runs runs tb free th r v, roundAt_same _ th r v s⟩
  · simp [exec, execHkLate, on]
  · have run := execDieShutdownCompare_eq runs d x
    rw [if_pos hot, cold] at run
    have noted := shutNoted_noted (s := dieShown d x s) runs d.val
    obtain ⟨u, hu⟩ : ∃ u, u = shutNoted d.val (dieShown d x s) := ⟨_, rfl⟩
    rw [← hu] at noted
    have ends : dieShutdown d.val (dieShown d x s) = shutEnded u := by
      rw [hu]
      exact dieShutdown_ends d.val (dieShown d x s)
    rw [ends, if_neg Bool.false_ne_true] at run
    obtain ⟨⟨safe, stop, -, event⟩, therm, mem, off⟩ := shutEnded_leaves (s := u) ⟨rfl, rfl, noted.seq.trans idle, noted.event⟩
    refine ⟨_, run, ?_, event, fun safety => ?_, fun nvm => ?_, fun nvm busy => ?_, fun a => ?_⟩
    · rw [therm, noted.shut]
    · rw [safe, noted.cause safety]
      rfl
    · rw [stop, (noted.nvm nvm).2.1]
    · obtain ⟨offDue, -, stands⟩ := noted.nvm nvm
      exact off (noted.nvmOn.trans nvm) offDue (stands.trans busy)
    · rw [mem, noted.mem]
      rfl
  · have run := execDieShutdownCompare_eq runs d x
    rw [if_pos hot, if_pos shut] at run
    refine ⟨_, run, ?_, ?_, ?_⟩
    · simpa [dieShown] using shut
    · exact setCause_safeCause 14 (s := dieShown d x s) safety
    · simp [SameRegisters, SameGallery, dieShown]
  · have run := execDieShutdownCompare_eq runs d x
    rw [if_neg (Int.not_le.mpr cool), cold] at run
    exact run

end

section
/-! Samples of the safety inputs, test pulses and their windows (R395 to R400, R547). -/

namespace Sys2Proof.Machine

open Sys2Proof

variable {s t : State}

/-! Bits put together. -/

/-- The number whose bits below `n` are those `f` gives. -/
def bitSum (f : Nat → Bool) (n : Nat) : Nat := ((List.range n).map fun i => if f i then 2 ^ i else 0).sum

theorem bitSum_succ (f : Nat → Bool) (n : Nat) : bitSum f (n + 1) = (if f n then 2 ^ n else 0) + bitSum f n := by
  simp [bitSum, List.range_succ, Nat.add_comm]

theorem bitSum_lt (f : Nat → Bool) (n : Nat) : bitSum f n < 2 ^ n := by
  induction n with
  | zero => simp [bitSum]
  | succ n ih =>
    rw [bitSum_succ, Nat.pow_succ]
    split <;> omega

theorem testBit_bitSum (f : Nat → Bool) {n i : Nat} (hi : i < n) : (bitSum f n).testBit i = f i := by
  induction n with
  | zero => omega
  | succ n ih =>
    rw [bitSum_succ]
    by_cases last : i = n
    · subst last
      have below := Nat.testBit_lt_two_pow (bitSum_lt f i)
      cases h : f i
      · simpa using below
      · simp [Nat.testBit_two_pow_add_eq, below]
    · have early := ih (by omega)
      cases h : f n
      · simpa using early
      · simpa [Nat.testBit_two_pow_add_gt (show i < n by omega)] using early

theorem bitsOf_getLsbD {n : Nat} (f : Nat → Bool) {i : Nat} (hi : i < n) : (bitsOf f : BitVec n).getLsbD i = f i := by
  change (BitVec.ofNat n (bitSum f n)).getLsbD i = f i
  rw [BitVec.getLsbD_ofNat, testBit_bitSum f hi]
  simp [hi]

/-! A sample (R395, R396). -/

theorem judgeCross_idle (sin : Byte) {o : Nat} (idle : (vget s.safe.win o {}).judge = false) : judgeCross sin o s = s :=
  if_neg (by rw [idle]; exact Bool.false_ne_true)

/-- The samples in a row at which each channel has read its safe level. -/
def safeRuns (sin : Byte) (s : State) : Vector Nat 8 :=
  Vector.ofFn fun ch => if sin.getLsbD ch.val == safeLevel s.safe.block ch.val then satInc 65535 s.safe.safeRun[ch] else 0

theorem safeRuns_get (sin : Byte) (s : State) {ch : Nat} (h : ch < 8) : vget (safeRuns sin s) ch 0 =
    if sin.getLsbD ch = safeLevel s.safe.block ch then satInc 65535 (vget s.safe.safeRun ch 0) else 0 := by
  simp [safeRuns, vget, h]

/-- A sample with no window to judge reads the channels, counts them and sets the demands; it takes no cause. -/
theorem execSafetyInputSample_reads (on : s.isOn .safety = true) (idle : ∀ o < 2, (vget s.safe.win o {}).judge = false)
    (sin : Byte) (fb : Bool) (tpo : BitVec 2) : ∃ t, execSafetyInputSample sin fb tpo s = .next t ∧ t.safe.fbIn = fb ∧
      t.safe.sinRaw = s.sinReads sin ∧ t.safe.safeRun = safeRuns (s.sinReads sin) s ∧
      t.safe.demand = bitsOf (fun i => pairEn s.safe.block i
        && (decide (sinFilt s.safe.block ≤ vget (safeRuns (s.sinReads sin) s) (2 * i) 0)
          || decide (sinFilt s.safe.block ≤ vget (safeRuns (s.sinReads sin) s) (2 * i + 1) 0))) ∧
      t.safe.cause = s.safe.cause ∧ t.safe.discLatch = s.safe.discLatch ∧ t.safe.testFail = s.safe.testFail ∧
      t = { s with safe := t.safe } := by
  unfold execSafetyInputSample
  rw [if_neg (by simp [on])]
  dsimp only
  rw [judgeCross_idle _ (idle 0 (by decide)), judgeCross_idle _ (idle 1 (by decide))]
  exact ⟨_, rfl, rfl, rfl, rfl, rfl, rfl, rfl, rfl, rfl⟩

/-! Test pulses (R397). -/

/-- The window of output `o` written, at an instant that has come. -/
def windowAt (n : Nat) (o : Fin 2) (f : Nat → TestWindow → TestWindow) (s : State) : State :=
  setWin o.val (f (advanceTo n s).now) (advanceTo n s)

theorem advanceTo_tb (n : Nat) (s : State) : advanceTo n s = { s with tb := (advanceTo n s).tb } := by
  unfold advanceTo
  dsimp only
  split <;> rfl

theorem windowAt_own (n : Nat) (o : Fin 2) (f : Nat → TestWindow → TestWindow) (s : State) : let t := windowAt n o f s
    vget t.safe.win o.val {} = f t.now (vget s.safe.win o.val {}) ∧
      t = { s with tb := t.tb, safe := { s.safe with win := t.safe.win } } := by
  obtain ⟨b, advanced⟩ : ∃ b, advanceTo n s = { s with tb := b } := ⟨_, advanceTo_tb n s⟩
  unfold windowAt
  rw [advanced]
  exact ⟨vget_vmod_same _ _ _ _ o.isLt, rfl⟩

theorem windowAt_on (n : Nat) (o : Fin 2) (f : Nat → TestWindow → TestWindow) (s : State) (d : Dom) :
    (windowAt n o f s).isOn d = s.isOn d := by
  rw [(windowAt_own n o f s).2]
  rfl

/-- A window that its falling edge opens at the instant `n`, with `before` the levels read until then. -/
def windowOpened (before : Byte) (n : Nat) (w : TestWindow) : TestWindow :=
  { w with open_ := true, low := true, readLow := false, before, allOne := 0xFF, anyZero := 0, at_ := n, any := false }

theorem execTpoPulse_falls (on : s.isOn .safety = true) (o : Fin 2) (enabled : tpoEn s.safe.block o.val = true) :
    execTpoPulse o s = .next (windowAt (tpoInstant o.val s) o (fun n w => windowOpened s.safe.sinRaw n w) s) := by
  have falls : (s.isOn .safety && tpoEn s.safe.block o.val) = true := by rw [on, enabled]; rfl
  obtain ⟨b, advanced⟩ : ∃ b, advanceTo (tpoInstant o.val s) s = { s with tb := b } := ⟨_, advanceTo_tb _ s⟩
  unfold execTpoPulse
  rw [if_pos falls]
  unfold windowAt
  dsimp only
  rw [advanced]
  rfl

theorem execTpoPulseEnd_rises (on : s.isOn .safety = true) (o : Fin 2) (low : (vget s.safe.win o.val {}).low = true) :
    execTpoPulseEnd o s = .next (windowAt ((vget s.safe.win o.val {}).at_ + 200000) o (fun _ w => { w with low := false }) s) := by
  have rises : (s.isOn .safety && (vget s.safe.win o.val {}).low) = true := by rw [on, low]; rfl
  unfold execTpoPulseEnd
  dsimp only
  rw [if_pos rises]
  rfl

/-! The end of a window (R398). -/

theorem setCause_tests (hs : s.isOn .safety = true) (i : Nat) :
    (setCause i s).safe.testFail = s.safe.testFail ∧ (setCause i s).safe.win = s.safe.win := by
  obtain ⟨-, -, -, -, -, -, -, -, safe⟩ := causeNoted_same i s
  cases new : s.safe.cause.getLsbD i
  · rw [setCause_new hs new]
    split
    · simp [safe]
    · simp [ssbEntry_safe, blockEntered, safe]
  · simp [setCause, new]

/-- Pairs whose test failed latch, with cause TEST; none leave everything as it is. -/
theorem testFault_latches (hs : s.isOn .safety = true) (pairs : BitVec 4) (tpo : Nat) : let t := testFault pairs tpo s
    t.safe.testFail = s.safe.testFail ||| pairs ∧
      (pairs ≠ 0 → t.safe.cause = s.safe.cause ||| (1#17 <<< 3) ∧ t.safeBlkHigh = false) ∧
      (pairs = 0 → t.safe.cause = s.safe.cause) ∧
      (∀ o : Fin 2, (vget t.safe.win o.val {}).open_ = (vget s.safe.win o.val {}).open_) ∧
      SameRegisters s t ∧ SameGallery s t := by
  dsimp only
  by_cases none : pairs = 0
  · have same : testFault pairs tpo s = s := if_pos none
    rw [same, none]
    exact ⟨by simp, fun h => absurd rfl h, fun _ => rfl, fun _ => rfl, ⟨rfl, rfl⟩, fun _ => rfl⟩
  · obtain ⟨u, fault, on, fails, causes, ⟨f, wins, opens⟩, ⟨cfg, pend⟩, mem⟩ : ∃ u : State,
        testFault pairs tpo s = raise 197 (pack [(0, 4, pairs.toNat), (4, 2, tpo)]) (setCause 3 u) ∧ u.isOn .safety = true ∧
        u.safe.testFail = s.safe.testFail ||| pairs ∧ u.safe.cause = s.safe.cause ∧
        (∃ f : TestWindow → TestWindow, u.safe.win = s.safe.win.map f ∧ ∀ w, (f w).open_ = w.open_) ∧
        SameRegisters s u ∧ u.mem = s.mem :=
      ⟨_, if_neg none, hs, rfl, rfl, ⟨_, rfl, fun _ => rfl⟩, ⟨rfl, rfl⟩, rfl⟩
    obtain ⟨latched, windows⟩ := setCause_tests on 3
    have cause := setCause_safeCause 3 on
    have bit := setCause_cause on (i := 3) (by decide)
    rw [fault]
    refine ⟨?_, fun _ => ⟨?_, safeBlkHigh_of_ssb (ssb_of_cause (i := 3) ?_)⟩, fun h => absurd h none, fun o => ?_, ?_, fun a => ?_⟩
    · simp only [raise_frame, latched, fails]
    · simp only [raise_frame, cause, causes]
    · simpa only [raise_frame] using bit
    · simp only [raise_frame, windows, wins, vget_map _ f {} {} o.isLt, opens]
    · simp only [SameRegisters, raise_frame, setCause_frame, cfg, pend, and_self]
    · simp only [raise_frame, setCause_frame, mem]

/-- The channels that failed in a window. -/
def failedIn (o : Fin 2) (s : State) : Byte :=
  let w := vget s.safe.win o.val {}
  if !w.any then 0 else if !w.readLow then s.fedFrom o.val else s.fedFrom o.val &&& w.before &&& w.allOne

theorem execTestWindowEnd_judges (on : s.isOn .safety = true) (o : Fin 2) (opened : (vget s.safe.win o.val {}).open_ = true) :
    ∃ f tpo, execTestWindowEnd o s = .next (testFault (pairsOf (failedIn o s)) tpo
      (windowAt ((vget s.safe.win o.val {}).at_ + 250000) o f s)) ∧ ∀ n w, (f n w).open_ = false := by
  obtain ⟨b, advanced⟩ : ∃ b, advanceTo ((vget s.safe.win o.val {}).at_ + 250000) s = { s with tb := b } := ⟨_, advanceTo_tb _ s⟩
  refine ⟨fun _ w => { w with
    open_ := false, judge := w.any, cross := s.fedFrom (1 - o.val) &&& w.before &&& w.anyZero
    good := if w.any then w.good.map (satInc 255) else w.good },
    if !(vget s.safe.win o.val {}).readLow && (vget s.safe.win o.val {}).any then 2 ^ o.val else 0, ?_, fun n w => rfl⟩
  have judged : (s.isOn .safety && (vget s.safe.win o.val {}).open_) = true := by rw [on, opened]; rfl
  unfold execTestWindowEnd
  dsimp only
  rw [if_pos judged]
  unfold windowAt failedIn
  rw [advanced]
  generalize (vget s.safe.win o.val {}).at_ + 250000 = n at advanced ⊢
  rfl

end Sys2Proof.Machine

open Sys2Proof.Machine in
/-- Settles O25: a sample without a window to judge, and the three events of a test window one by one. -/
theorem safetyInputs : Obligations.SafetyInputs := by
  unfold Obligations.SafetyInputs
  refine ⟨fun s sin fb tpo on windows => ?_, fun s o on => ⟨fun enabled => ?_, fun low => ?_, fun opened => ?_⟩⟩
  · obtain ⟨t, run, fbIn, raw, runs, demand, cause, disc, test, only⟩ :=
      execSafetyInputSample_reads on (fun o ho => (windows o ho).2) sin fb tpo
    refine ⟨t, run, fbIn, fun ch h => ?_, fun ch h => ?_, fun i hi => ?_, cause, disc, test, only⟩
    · rw [raw, State.sinReads, bitsOf_getLsbD _ h]
      rfl
    · rw [runs, raw, safeRuns_get _ _ h]
    · rw [demand, runs, bitsOf_getLsbD _ hi]
  · obtain ⟨own, only⟩ := windowAt_own (tpoInstant o.val s) o (fun n w => windowOpened s.safe.sinRaw n w) s
    refine ⟨_, execTpoPulse_falls on o enabled, ?_, ?_, ?_, ?_, only⟩
    · rw [State.tpoHigh, own]
      simp [windowOpened]
    · rw [own]
      rfl
    · rw [own]
      rfl
    · rw [own]
      rfl
  · obtain ⟨own, only⟩ := windowAt_own ((vget s.safe.win o.val {}).at_ + 200000) o (fun _ w => { w with low := false }) s
    refine ⟨_, execTpoPulseEnd_rises on o low, ?_, own, only⟩
    rw [State.tpoHigh, own, windowAt_on, on]
    rfl
  · obtain ⟨f, tpo, run, closes⟩ := execTestWindowEnd_judges on o opened
    obtain ⟨u, hu⟩ : ∃ u, u = windowAt ((vget s.safe.win o.val {}).at_ + 250000) o f s := ⟨_, rfl⟩
    obtain ⟨own, only⟩ := windowAt_own ((vget s.safe.win o.val {}).at_ + 250000) o f s
    rw [← hu] at run own only
    have uOn : u.isOn .safety = true := by
      rw [only]
      exact on
    obtain ⟨fails, taken, none, wins, ⟨cfg, pend⟩, mem⟩ := testFault_latches uOn (pairsOf (failedIn o s)) tpo
    have before : u.safe.testFail = s.safe.testFail ∧ u.safe.cause = s.safe.cause ∧ u.cfg = s.cfg ∧ u.pend = s.pend ∧
        u.mem = s.mem := by
      rw [only]
      exact ⟨rfl, rfl, rfl, rfl, rfl⟩
    obtain ⟨testFail, cause, cfgU, pendU, memU⟩ := before
    refine ⟨_, run, ?_, ?_, fun some => ?_, fun zero => ?_, ⟨cfg.trans cfgU, pend.trans pendU⟩, fun a => ?_⟩
    · rw [wins, own, closes]
    · exact fails.trans (by rw [testFail]; rfl)
    · obtain ⟨causes, low⟩ := taken some
      exact ⟨causes.trans (by rw [cause]), low⟩
    · exact (none zero).trans cause
    · rw [mem a, memU]

end

section
/-! The core voltage and the power words (R438, R441, R503). -/

namespace Sys2Proof.Machine

open Sys2Proof

variable {s t : State}

/-- A reply writes the mailbox of AON and nothing else of it. -/
theorem finish_aon (p : Option Pkt) (r : Reply) (s : State) :
    (finish p r s).aon = { s.aon with mailbox := (finish p r s).aon.mailbox } := by
  have sent : ∀ (p : Pkt) (r : Reply) (s : State), (sendReply p r s).aon = { s.aon with mailbox := (sendReply p r s).aon.mailbox } := by
    intro p r s
    unfold sendReply sendReplyAt
    dsimp only
    split
    · rw [show (rsPush (replyBytes p r (replyTime p r s)) s).aon = s.aon by simp only [rsPush_frame]]
    · split <;> rfl
    · rfl
  cases p with
  | none => rfl
  | some p =>
    change (answer p r { s with reply := some r }).aon = { s.aon with mailbox := (answer p r { s with reply := some r }).aon.mailbox }
    unfold answer
    dsimp only
    split
    · exact sent _ _ _
    · split
      · split
        · exact sent _ _ _
        · rfl
      · rfl

/-- The voltage has arrived, and the commands that waited for it are still to be answered. -/
def vcoreArrived (mv : Nat) (s : State) : State :=
  { s with aon := { s.aon with vcoreMoving := false, vcoreWait := [], volts := { s.aon.volts with vcore := mv } } }

theorem execVcoreSettled_answers (free : s.aon.porHold = false) (moving : s.aon.vcoreMoving = true) (mv : Nat) :
    execVcoreSettled mv s = .next (each s.aon.vcoreWait
      (fun p s => finish p { status := .ok, words := [pack [(0, 16, mv)]] } s) (vcoreArrived mv s)) :=
  congrArg Host.Outcome.next (if_neg (by simp [free, moving]))

/-- Replies to several packets: the last stands as the reply, and AON's voltages and the registers stay. -/
theorem each_finish (r : Reply) (l : List (Option Pkt)) (s : State) : let t := each l (fun p s => finish p r s) s
    (l ≠ [] → t.reply = some r) ∧ (∃ m, t.aon = { s.aon with mailbox := m }) ∧
      t.cfg = s.cfg ∧ t.pend = s.pend ∧ t.mem = s.mem ∧ t.tb = s.tb := by
  induction l generalizing s with
  | nil => exact ⟨fun h => absurd rfl h, ⟨_, rfl⟩, rfl, rfl, rfl, rfl⟩
  | cons p l ih =>
    obtain ⟨reply, ⟨m, aon⟩, cfg, pend, mem, tb⟩ := ih (finish p r s)
    refine ⟨fun _ => ?_, ⟨m, ?_⟩, cfg.trans ?_, pend.trans ?_, mem.trans ?_, tb.trans ?_⟩
    · cases l with
      | nil => exact finish_reply p r s
      | cons p' l => exact reply (List.cons_ne_nil _ _)
    · exact aon.trans (by rw [finish_aon])
    all_goals simp only [finish_frame]

/-! VCORE_SET (R438). -/

/-- The setpoint of VCORE_SET. -/
abbrev setpoint (v : Word) : Word := v &&& 0x3F#32

theorem execVcoreSet_refuses (runs : s.Runs) {v : Word} {st : Status} (refused : vcoreCheck (setpoint v) s = st) (bad : st ≠ .ok) :
    execVcoreSet [v] s = .next { s with reply := some { status := st } } := by
  refine congrArg Host.Outcome.next ((command_runs runs _ rfl).trans ?_)
  dsimp only
  split
  · next ok => exact absurd (refused.symm.trans ok) bad
  · exact congrArg (refuse · s) refused

/-- A setpoint in range, and not low while a hall is ON. -/
theorem vcoreCheck_ok {c : Word} (range : c.toNat ≤ 32) (low : 8 ≤ c.toNat ∨ s.anyHallOn = false) : vcoreCheck c s = .ok := by
  unfold vcoreCheck
  rw [if_neg (by omega), if_neg]
  rintro ⟨below, hall⟩
  exact low.elim (by omega) fun none => by simp [hall] at none

theorem execVcoreSet_runs (runs : s.Runs) {v : Word} (ok : vcoreCheck (setpoint v) s = .ok) :
    execVcoreSet [v] s = .next (if (vcoreSet (setpoint v) s).aon.vcoreMoving then
        wait (setAon (fun a => { a with vcoreWait := a.vcoreWait ++ [s.host.cur] }) (vcoreSet (setpoint v) s))
      else
        reply .ok [pack [(0, 16, (vcoreNow (vcoreSet (setpoint v) s)).aon.volts.vcore)]] (vcoreNow (vcoreSet (setpoint v) s))) := by
  refine congrArg Host.Outcome.next ((command_runs runs _ rfl).trans ?_)
  dsimp only
  split
  · rfl
  · next notOk => exact absurd ok notOk

/-- A setpoint that has still to be reached is waited for. -/
theorem execVcoreSet_waits (runs : s.Runs) {v : Word} (ok : vcoreCheck (setpoint v) s = .ok)
    (moves : (setpoint v).toNat ≠ s.aon.vcoreCode ∨ s.aon.vcoreMoving = true) : execVcoreSet [v] s = .next { s with
      reply := none
      aon := { s.aon with
        vcoreCode := (setpoint v).toNat, vcoreMoving := true, vcoreWait := s.aon.vcoreWait ++ [s.host.cur] } } := by
  obtain ⟨c, hc⟩ : ∃ c, c = setpoint v := ⟨_, rfl⟩
  have set : vcoreSet c s = { s with aon := { s.aon with vcoreCode := c.toNat, vcoreMoving := true } } := by
    have still : (s.aon.vcoreMoving || s.aon.vcoreCode != c.toNat) = true := by
      rcases moves with ne | moving
      · simpa [hc] using .inr fun h => ne h.symm
      · simp [moving]
    rw [← still]
    rfl
  rw [execVcoreSet_runs runs ok, ← hc, set]
  rfl

/-- A setpoint that stands is answered at once, with a voltage within 10 mV of it. -/
theorem execVcoreSet_stands (runs : s.Runs) {v : Word} (ok : vcoreCheck (setpoint v) s = .ok)
    (same : (setpoint v).toNat = s.aon.vcoreCode) (still : s.aon.vcoreMoving = false) : ∃ t, execVcoreSet [v] s = .next t ∧
      t.Replies .ok [pack [(0, 16, t.aon.volts.vcore)]] ∧
      (∃ n < 21, t.aon.volts.vcore = 710 + 5 * (setpoint v).toNat + n) ∧ t.aon.vcoreCode = (setpoint v).toNat ∧
      t.aon.vcoreMoving = false ∧ t = { s with reply := t.reply, freeCtr := t.freeCtr, aon := t.aon } := by
  obtain ⟨c, hc⟩ : ∃ c, c = setpoint v := ⟨_, rfl⟩
  rw [← hc] at same
  have set : vcoreSet c s = { s with aon := { s.aon with vcoreCode := c.toNat, vcoreMoving := false } } := by
    have stays : (s.aon.vcoreMoving || s.aon.vcoreCode != c.toNat) = false := by simp [still, same]
    rw [← stays]
    rfl
  rw [execVcoreSet_runs runs ok, ← hc, set]
  exact ⟨_, rfl, rfl, ⟨_, Nat.mod_lt _ (by decide), rfl⟩, rfl, rfl, rfl⟩

end Sys2Proof.Machine

open Sys2Proof.Machine in
/-- Settles O27: by what VCORE_SET checks and whether the voltage moves. -/
theorem powerReadings : Obligations.PowerReadings := by
  unfold Obligations.PowerReadings
  refine fun s => ⟨rfl, fun v runs => ⟨fun high => ?_, fun (low : (setpoint v).toNat < 8) hall => ?_,
      fun range low moves => ?_, fun range low same still => ?_⟩,
    fun mv free moving => ?_⟩
  · exact execVcoreSet_refuses runs (if_pos high) (by decide)
  · exact execVcoreSet_refuses runs ((if_neg (by omega)).trans (if_pos ⟨low, hall⟩)) (by decide)
  · exact execVcoreSet_waits runs (vcoreCheck_ok range low) moves
  · obtain ⟨t, run, reply, ⟨n, near, volts⟩, code, stands, only⟩ := execVcoreSet_stands runs (vcoreCheck_ok range low) same still
    dsimp only [setpoint] at volts
    exact ⟨t, run, reply, by rw [volts]; omega, by rw [volts]; omega, code, stands, only⟩
  · obtain ⟨reply, ⟨m, aon⟩, cfg, pend, mem, tb⟩ :=
      each_finish { status := .ok, words := [pack [(0, 16, mv)]] } s.aon.vcoreWait (vcoreArrived mv s)
    refine ⟨_, execVcoreSettled_answers free moving mv, ?_, ?_, ?_, reply, ⟨cfg, pend⟩, fun a => congrArg (memRead · a) mem, tb⟩
    all_goals
      rw [aon]
      rfl

end

section
/-! What AON's own bookkeeping leaves of AON: events held, records held, replies and the NVM work of a sequence. -/

namespace Sys2Proof.Machine

open Sys2Proof

variable {s t : State}

/-- A sequence without its count of journal records. -/
def PowerSeq.bare (q : PowerSeq) : PowerSeq := { q with journalWait := 0, unsaved := [] }

/-- AON without what replies, events, records, retention checks and a domain's losses write of it. What stays are the units, the
sequence, the wake's state, the bucks and the pins. -/
def Aon.bare (a : Aon) : Aon :=
  { a with
    seq := a.seq.map PowerSeq.bare, mailbox := [], heldEvents := [], heldLog := [], vcoreWait := [], vddaBad := false
    retLost := 0, lostDue := false, retCrc := [] }

theorem unitSt_of_bare (h : t.aon.bare = s.aon.bare) (c : Nat) : t.unitSt c = s.unitSt c :=
  have dom : t.aon.bare.dom = s.aon.bare.dom := by rw [h]
  have bank : t.aon.bare.bank = s.aon.bare.bank := by rw [h]
  unitSt_congr dom bank c

@[simp] theorem each_bare {α : Type} (l : List α) (f : α → State → State) (s : State)
    (h : ∀ x s, (f x s).aon.bare = s.aon.bare) : (each l f s).aon.bare = s.aon.bare :=
  each_keep (fun s => s.aon.bare) l f s h

@[simp] theorem raise_bare (e : Nat) (w : Word) (s : State) : (raise e w s).aon.bare = s.aon.bare := by
  rw [raise_aon]
  split <;> rfl

@[simp] theorem logRecord_bare (e : Nat) (kind : Byte) (key : BitVec 16) (data cause : Word) (s : State) :
    (logRecord e kind key data cause s).aon.bare = s.aon.bare := by
  unfold logRecord
  dsimp only
  split
  · simp
  · split
    · rfl
    · exact raise_bare _ _ _

@[simp] theorem finish_bare (p : Option Pkt) (r : Reply) (s : State) : (finish p r s).aon.bare = s.aon.bare := by
  rw [finish_aon]
  rfl

@[simp] theorem setCause_bare (i : Nat) (s : State) : (setCause i s).aon.bare = s.aon.bare := by
  unfold setCause
  dsimp only
  (repeat' split) <;> simp [ssbEntry]

@[simp] theorem unconfirmed_bare (s : State) : (unconfirmed s).aon.bare = s.aon.bare := by
  unfold unconfirmed
  split <;> simp

@[simp] theorem crcFail_bare (s : State) : (crcFail s).aon.bare = s.aon.bare := by
  unfold crcFail
  dsimp only
  split <;> simp

@[simp] theorem safetyLoad_bare (s : State) : (safetyLoad s).aon.bare = s.aon.bare := by
  unfold safetyLoad
  dsimp only
  (repeat' split) <;> simp

@[simp] theorem failUnit_bare (u : Nat) (s : State) : (failUnit u s).aon.bare = s.aon.bare := by
  unfold failUnit
  dsimp only
  split <;> simp

@[simp] theorem takeUnitCal_bare (u : Nat) (g o : Rat) (s : State) : (takeUnitCal u g o s).aon.bare = s.aon.bare := by
  unfold takeUnitCal
  dsimp only
  (repeat' split) <;> simp

@[simp] theorem analogUp_bare (s : State) : (analogUp s).aon.bare = s.aon.bare := by
  simp [analogUp, calibrateUnits]

@[simp] theorem confirmDone_bare (p : Option Pkt) (w : Word) (s : State) : (confirmDone p w s).aon.bare = s.aon.bare := by
  unfold confirmDone
  split <;> simp

/-- A record of the journal counts down in its sequence. -/
@[simp] theorem recordDone_bare (j : NvmJob) (ok : Bool) (s : State) : (recordDone j ok s).aon.bare = s.aon.bare := by
  unfold recordDone
  dsimp only
  split
  · rfl
  · (repeat' split) <;> simp
  · (repeat' split) <;> simp
  · (repeat' split) <;> simp [calEnd]
  · simp only [Aon.bare, Option.map_map]
    rfl

@[simp] theorem commitRecord_bare (j : NvmJob) (s : State) : (commitRecord j s).aon.bare = s.aon.bare := by
  simp [commitRecord]

@[simp] theorem takeSpare_bare (x : Nat) (s : State) : (takeSpare x s).aon.bare = s.aon.bare := by
  unfold takeSpare
  dsimp only
  split <;> simp

@[simp] theorem failRecord_bare (j : NvmJob) (s : State) : (failRecord j s).aon.bare = s.aon.bare := by
  unfold failRecord
  dsimp only
  split <;> simp

@[simp] theorem nvmLeave_bare (s : State) : (nvmLeave s).aon.bare = s.aon.bare := by simp [nvmLeave]

@[simp] theorem pageDone_bare (ok : Bool) (s : State) : (pageDone ok s).aon.bare = s.aon.bare := by
  unfold pageDone pageWritten pageFailed
  dsimp only
  (repeat' split) <;> simp

@[simp] theorem nvmQuiesce_bare (s : State) : (nvmQuiesce s).aon.bare = s.aon.bare := by
  unfold nvmQuiesce
  dsimp only
  split <;> simp

/-- AON hands its records over to NVM as it arrives. -/
@[simp] theorem nvmWork_bare (s : State) : (nvmWork s).aon.bare = s.aon.bare := by
  have handed : ∀ (u : State), ({ u with aon := { u.aon with heldLog := [] } } : State).aon.bare = u.aon.bare := fun u => rfl
  unfold nvmWork
  dsimp only
  split <;> simp [apply_ite State.aon, handed]

/-! Units. -/

@[simp] theorem changed_bare (c : Nat) (rst : Bool) (s : State) : (changed c rst s).aon.bare = s.aon.bare := raise_bare _ _ _

@[simp] theorem stairDown_bare (s : State) : (stairDown s).aon.bare = s.aon.bare := by
  unfold stairDown
  split
  · exact raise_bare _ _ _
  · rfl

/-- What a domain loses as it leaves ON is none of the units and nothing of the sequence. -/
@[simp] theorem shed_bare (d : Nat) (keep : Bool) (s : State) : (shed d keep s).aon.bare = s.aon.bare := by
  unfold shed
  dsimp only
  split
  case h_2 => cases keep <;> rfl
  case h_8 => cases keep <;> rfl
  all_goals cases keep <;> simp

@[simp] theorem shedBank_bare (g : Nat) (keep : Bool) (s : State) : (shedBank g keep s).aon.bare = s.aon.bare := by
  simp

@[simp] theorem takeRetCrc_bare (c : Nat) (s : State) : (takeRetCrc c s).aon.bare = s.aon.bare := by
  unfold takeRetCrc
  dsimp only
  split
  · rfl
  · simp [Aon.bare]

@[simp] theorem holdLost_bare (s : State) : (holdLost s).aon.bare = s.aon.bare := by
  unfold holdLost
  split <;> rfl

@[simp] theorem tellLost_bare (s : State) : (tellLost s).aon.bare = s.aon.bare := by
  unfold tellLost
  split
  · rfl
  · split
    · exact (raise_bare _ _ _).trans (logRecord_bare _ _ _ _ _ _)
    · exact holdLost_bare s

@[simp] theorem capTcChange_bare (s : State) : (capTcChange s).aon.bare = s.aon.bare := by
  unfold capTcChange
  split
  · simp [captureEnd]
  · rfl

@[simp] theorem gridStart_bare (s : State) : (gridStart s).aon.bare = s.aon.bare := by
  unfold gridStart
  dsimp only
  (repeat' split) <;> simp

@[simp] theorem safetyArrive_bare (s : State) : (safetyArrive s).aon.bare = s.aon.bare := by
  unfold safetyArrive
  dsimp only
  split <;> simp

@[simp] theorem atriumArrive_bare (fresh : Bool) (s : State) : (atriumArrive fresh s).aon.bare = s.aon.bare := by
  have handed : ∀ u, (setAon (fun a => { a with heldEvents := [], lostDue := false }) u).aon.bare = u.aon.bare := fun _ => rfl
  have lost : ∀ (b : Bool) u, (if b then logLost u else u).aon.bare = u.aon.bare := fun b u => by
    cases b
    · rfl
    · exact logRecord_bare _ _ _ _ _ _
  unfold atriumArrive
  dsimp only
  rw [each_bare _ _ _ fun _ _ => raise_bare _ _ _, handed, lost, holdLost_bare]
  simp [apply_ite State.aon]

@[simp] theorem timebaseArrive_bare (s : State) : (timebaseArrive s).aon.bare = s.aon.bare := gridStart_bare _

@[simp] theorem arrive_bare (d : Nat) (fresh : Bool) (s : State) : (arrive d fresh s).aon.bare = s.aon.bare := by
  unfold arrive
  split <;> simp

@[simp] theorem arrivalWork_bare (d : Nat) (s : State) : (arrivalWork d s).aon.bare = s.aon.bare := by
  unfold arrivalWork
  (repeat' split) <;> simp

end Sys2Proof.Machine
end

section
/-! DOMAIN_RESET (R454, Table 13-6). -/

namespace Sys2Proof.Machine

open Sys2Proof

variable {s t : State} {d : Nat}

/-- What the reset of domain `d` leaves before its own sequence begins. -/
def domainCleared (d : Nat) (s : State) : State :=
  let s := shed d false (if d = 9 then nvmQuiesce s else s)
  let s := if 4 ≤ d ∧ d < 7 then s.setHall (d - 4) HallS.afterReset else s
  if d = 7 then { s with meas := {} } else s

/-- The sequence of the reset of domain `d`: its own steps (R454). -/
def resetSeq (d : Nat) (p : Option Pkt) : PowerSeq :=
  { kind := .reset (domOf d), bring := [d], took := [(d, false)], pkt := p, steps := if d = 0 then [4, 5, 6, 7, 8] else [8 + d] }

theorem resetDomain_cleared (d : Nat) (s : State) : resetDomain d s = wait (setUnit d .trans
    (setAon (fun a => { a with seq := some (resetSeq d (domainCleared d s).host.cur) }) (domainCleared d s))) := rfl

theorem setUnit_seq (c : Nat) (x : DomState) (s : State) : (setUnit c x s).aon.seq = s.aon.seq := by
  unfold setUnit setAon
  dsimp only
  split <;> rfl

theorem domainCleared_bare (d : Nat) (s : State) : (domainCleared d s).aon.bare = s.aon.bare := by
  have hall : ∀ u : State, (if 4 ≤ d ∧ d < 7 then u.setHall (d - 4) HallS.afterReset else u).aon = u.aon := fun u => by split <;> rfl
  have roles : ∀ u : State, (if d = 7 then { u with meas := {} } else u).aon = u.aon := fun u => by split <;> rfl
  have quiet : (if d = 9 then nvmQuiesce s else s).aon.bare = s.aon.bare := by
    split
    · exact nvmQuiesce_bare s
    · rfl
  unfold domainCleared
  dsimp only
  rw [roles, hall, shed_bare, quiet]

/-- What the cleared state holds of registers and bytes is what the domain's leaving left. -/
theorem domainCleared_shed (d : Nat) (s : State) : let u := shed d false (if d = 9 then nvmQuiesce s else s)
    (domainCleared d s).cfg = u.cfg ∧ (domainCleared d s).pend = u.pend ∧ (domainCleared d s).mem = u.mem := by
  unfold domainCleared
  dsimp only
  split <;> split <;> exact ⟨rfl, rfl, rfl⟩

theorem domainCleared_mem (d : Nat) (s : State) : (domainCleared d s).mem = s.mem := by
  rw [(domainCleared_shed d s).2.2]
  split <;> simp

/-- A domain that leaves ON, NVM without work under way, drops its registers and its pending values. -/
theorem shed_drops (known : d ≤ 9) (idle : d = 9 → s.nvm.jobs = []) :
    (shed d false s).cfg = (dropCfg (domOf d) s).cfg ∧ (shed d false s).pend = (dropPend (domOf d) s).pend := by
  have pend : ∀ d, (dropPend d (dropCfg d s)).pend = (dropPend d s).pend := fun _ => rfl
  match d, known with
  | 0, _ => exact ⟨rfl, rfl⟩
  | 1, _ => exact ⟨rfl, rfl⟩
  | 2, _ => exact ⟨rfl, rfl⟩
  | 3, _ => simp [shed, pend]
  | 4, _ => simp [shed, pend]
  | 5, _ => simp [shed, pend]
  | 6, _ => simp [shed, pend]
  | 7, _ => exact ⟨rfl, rfl⟩
  | 8, _ => simp [shed, pend]
  | 9, _ =>
    have none : (dropPend .nvm (dropCfg .nvm s)).nvm.jobs = [] := idle rfl
    change (nvmLeave (dropPend .nvm (dropCfg .nvm s))).cfg = _ ∧ (nvmLeave (dropPend .nvm (dropCfg .nvm s))).pend = _
    unfold nvmLeave
    rw [none]
    exact ⟨rfl, rfl⟩

theorem nvmQuiesce_idle (idle : s.nvm.jobs = []) : (nvmQuiesce s).cfg = s.cfg ∧ (nvmQuiesce s).pend = s.pend ∧
    (nvmQuiesce s).nvm.jobs = [] := by
  have none : (nvmHold s).nvm.jobs = [] := idle
  unfold nvmQuiesce pageDone
  dsimp only
  rw [none]
  split <;> exact ⟨rfl, rfl, none⟩

theorem mem_drop {d : Dom} {l : List (Nat × Word)} {x : Nat × Word} (h : x ∈ l.filter fun x => ownerOf x.1 != some (.dom d)) :
    ownerOf x.1 ≠ some (.dom d) := by simpa using (List.mem_filter.mp h).2

theorem domainCleared_drops (known : d ≤ 9) (idle : d ≠ 9 ∨ s.nvm.jobs = []) :
    (∀ x ∈ (domainCleared d s).cfg, ownerOf x.1 ≠ some (.dom (domOf d))) ∧
      ∀ x ∈ (domainCleared d s).pend, ownerOf x.1 ≠ some (.dom (domOf d)) := by
  have quiet : d = 9 → (if d = 9 then nvmQuiesce s else s).nvm.jobs = [] := fun nvm => by
    rw [if_pos nvm]
    exact (nvmQuiesce_idle (idle.resolve_left (not_not_intro nvm))).2.2
  obtain ⟨cfg, pend⟩ := shed_drops known quiet
  obtain ⟨cfg', pend', -⟩ := domainCleared_shed d s
  rw [cfg', pend', cfg, pend]
  exact ⟨fun x => mem_drop, fun x => mem_drop⟩

/-- DOMAIN_RESET of a known domain that is ON, with no sequence under way: STATE or the reset. -/
theorem execDomainReset_on (runs : s.Runs) {w0 : Word} (known : fld w0 0 4 ≤ 9) (on : s.isOn (domOf (fld w0 0 4)) = true)
    (idle : s.aon.seq = none) : execDomainReset [w0] s =
      .next (if !resetOk (fld w0 0 4) s then refuse .state s else resetDomain (fld w0 0 4) s) := by
  have isOn : ¬ (!s.isOn (domOf (fld w0 0 4))) = true := by simp [on]
  have free : ¬ s.aon.seq.isSome = true := by simp [idle]
  refine congrArg Host.Outcome.next ((command_runs runs _ rfl).trans ?_)
  exact (if_neg (Nat.not_lt.mpr known)).trans ((if_neg isOn).trans (if_neg free))

theorem execDomainReset_resets (runs : s.Runs) {w0 : Word} (known : fld w0 0 4 ≤ 9) (on : s.isOn (domOf (fld w0 0 4)) = true)
    (idle : s.aon.seq = none) (ok : resetOk (fld w0 0 4) s = true) :
    execDomainReset [w0] s = .next (resetDomain (fld w0 0 4) s) := by
  rw [execDomainReset_on runs known on idle, if_neg (by simp [ok])]

/-- ATRIUM is not reset so. -/
theorem execDomainReset_atrium (runs : s.Runs) {w0 : Word} (one : fld w0 0 4 = 1) (idle : s.aon.seq = none) :
    execDomainReset [w0] s = .next (refuse .state s) := by
  have on : s.isOn (domOf (fld w0 0 4)) = true := by
    rw [one]
    exact runs
  rw [execDomainReset_on runs (by omega) on idle, one]
  rfl

end Sys2Proof.Machine

open Sys2Proof.Machine in
/-- Settles O28: from what the domain loses, which is none of the other units and nothing of the sequence. -/
theorem domainReset : Obligations.DomainReset := by
  unfold Obligations.DomainReset
  refine fun s w0 runs => ⟨fun known on idle ok => ?_, fun one idle => ?_, fun far => ?_⟩
  · have code : fld w0 0 4 ∈ unitCodes := mem_unitCodes.mpr (.inl (by omega))
    refine ⟨_, resetSeq (fld w0 0 4) (domainCleared (fld w0 0 4) s).host.cur, execDomainReset_resets runs known on idle ok, ?_⟩
    generalize fld w0 0 4 = d at *
    rw [resetDomain_cleared]
    refine ⟨rfl, setUnit_unitSt_same code _ _, fun c _ other => ?_, ?_, rfl, rfl, rfl, fun none => ?_, fun a => ?_⟩
    · exact (setUnit_unitSt_ne other _ _).trans (unitSt_of_bare (domainCleared_bare d s) c)
    · exact setUnit_seq d _ _
    · simpa using domainCleared_drops known none
    · simp [domainCleared_mem]
  · exact execDomainReset_atrium runs one idle
  · exact congrArg Host.Outcome.next ((command_runs runs _ rfl).trans (if_pos far))

end

section
/-! The resets and the straps (R435, R455 to R457, R532, R533). -/

namespace Sys2Proof.Machine

open Sys2Proof

variable {s t : State} {c : Nat}

theorem unitSt_reset : ∀ c ∈ unitCodes, ({} : State).unitSt c = .off := by decide

/-! The straps (Table 16-4). -/

/-- A ball at a level of Table 16-4. -/
abbrev ClearLevel (v : Nat) : Prop := v ≤ 800 ∨ 2000 ≤ v

theorem strapBit_clear {v : Nat} (h : ClearLevel v) (free : Nat) : strapBit v free = if 2000 ≤ v then 1 else 0 := by
  unfold strapBit
  rcases h with low | high
  · rw [if_pos low, if_neg (by omega)]
  · rw [if_neg (by omega), if_pos high, if_pos high]

/-- The number that balls at the levels `l` make. -/
def strapNum (l : List Nat) (free : Nat) : Nat := ((l.zip (List.range 4)).map fun y => 2 ^ y.2 * strapBit y.1 (free / 2 ^ y.2)).sum

theorem strapNum_clear {l : List Nat} (short : l.length ≤ 4) (clear : ∀ x ∈ l, ClearLevel x) (free : Nat) :
    strapNum l free = bitSum (fun i => decide (2000 ≤ l.getD i 0)) l.length := by
  have levels : (l.zip (List.range 4)).map (fun y => 2 ^ y.2 * strapBit y.1 (free / 2 ^ y.2)) =
      (List.range l.length).map fun i => if decide (2000 ≤ l.getD i 0) then 2 ^ i else 0 := by
    refine List.ext_getElem (by simpa using short) fun i hl _ => ?_
    have inside : i < l.length := by simp at hl; omega
    simp [strapBit_clear (clear _ (List.getElem_mem inside)), inside]
  exact congrArg List.sum levels

theorem sampledStraps_testBit {n m : Nat} (short : n ≤ 4) (size : 2 ^ n = m + 1) (v : Vector Nat n)
    (clear : ∀ x ∈ v.toList, ClearLevel x) (free : Nat) {i : Nat} (hi : i < n) :
    (Fin.ofNat (m + 1) (strapNum v.toList free)).val.testBit i = decide (2000 ≤ vget v i 0) := by
  have length : v.toList.length = n := by simp
  have num := strapNum_clear (by omega) clear free
  have small := bitSum_lt (fun i => decide (2000 ≤ v.toList.getD i 0)) n
  rw [length] at num
  rw [num, Fin.val_ofNat, Nat.mod_eq_of_lt (by omega), testBit_bitSum _ hi]
  simp [vget, hi]

theorem strapRole_clear {v : Nat} (h : v ≤ 800 ∨ (1200 ≤ v ∧ v ≤ 2100) ∨ 2500 ≤ v) (free : Nat) :
    strapRole v free = if v ≤ 800 then 0 else if v ≤ 2100 then 2 else 1 := by
  unfold strapRole
  split
  · rfl
  · rw [if_neg (by omega)]
    split
    · rfl
    · rw [if_neg (by omega)]

theorem sampleStraps_straps (x : StrapLevels) (s : State) : ∃ f g h : Nat, (sampleStraps x s).aon.straps =
    { role := strapRole x.role f, pos := Fin.ofNat 16 (strapNum x.pos.toList g), addr := Fin.ofNat 4 (strapNum x.addr.toList h) } :=
  ⟨_, _, _, rfl⟩

/-! RESETn low (R456). -/

/-- A unit that RESETn takes OFF where it is ON or in transition. -/
def resetUnit (c : Nat) (s : State) : State :=
  let x := s.unitSt c
  if x = .on ∨ x = .trans then setUnit c .off (if c < 16 then shed c false s else shedBank (c - 16) false s) else s

theorem resetUnit_unitSt (hc : c ∈ unitCodes) (s : State) (d : Nat) : (resetUnit c s).unitSt d =
    if d = c ∧ s.unitSt c ≠ .ret then .off else s.unitSt d := by
  have left : ∀ d, (if c < 16 then shed c false s else shedBank (c - 16) false s).unitSt d = s.unitSt d :=
    unitSt_of_bare (by split <;> simp)
  unfold resetUnit
  dsimp only
  split
  · next up =>
    by_cases same : d = c
    · subst same
      rw [setUnit_unitSt_same hc, if_pos ⟨rfl, by rcases up with h | h <;> simp [h]⟩]
    · rw [setUnit_unitSt_ne same, left, if_neg (fun h => same h.1)]
  · next down =>
    by_cases same : d = c
    · subst same
      cases h : s.unitSt d <;> simp_all
    · rw [if_neg (fun h => same h.1)]

theorem each_resetUnit (l : List Nat) (known : ∀ c ∈ l, c ∈ unitCodes) (s : State) (d : Nat) : (each l resetUnit s).unitSt d =
    if d ∈ l ∧ s.unitSt d ≠ .ret then .off else s.unitSt d := by
  induction l generalizing s with
  | nil => simp [each]
  | cons c r ih =>
    have first := resetUnit_unitSt (known c List.mem_cons_self) s d
    have rest := ih (fun c h => known c (List.mem_cons_of_mem _ h)) (resetUnit c s)
    change (each r resetUnit (resetUnit c s)).unitSt d = _
    rw [rest, first]
    by_cases same : d = c
    · subst same
      cases h : s.unitSt d <;> simp
    · simp [same]

/-- The order in which RESETn takes the units OFF. -/
def resetOrder : List Nat := 1 :: [9, 8, 7, 6, 5, 4, 3, 2, 0] ++ (List.range 16).map (16 + ·)

theorem mem_resetOrder : c ∈ resetOrder ↔ c ∈ unitCodes := by
  have banks : (∃ g < 16, 16 + g = c) ↔ 16 ≤ c ∧ c < 32 := ⟨fun ⟨g, h, e⟩ => by omega, fun h => ⟨c - 16, by omega, by omega⟩⟩
  rw [mem_unitCodes]
  simp only [resetOrder, List.cons_append, List.nil_append, List.mem_cons, List.mem_map, List.mem_range, banks]
  omega

/-- Every unit is taken OFF, before AON's own part. -/
def unitsReset (s : State) : State := each resetOrder resetUnit (dropAnswers s)

theorem unitsReset_unitSt (hc : c ∈ unitCodes) (s : State) :
    (unitsReset s).unitSt c = if s.unitSt c = .ret then .ret else .off := by
  refine (each_resetUnit resetOrder (fun c => mem_resetOrder.mp) (dropAnswers s) c).trans ?_
  change (if c ∈ resetOrder ∧ s.unitSt c ≠ .ret then .off else s.unitSt c) = _
  by_cases kept : s.unitSt c = .ret
  · rw [if_neg (fun h => h.2 kept), if_pos kept, kept]
  · rw [if_pos ⟨mem_resetOrder.mpr hc, kept⟩, if_neg kept]

/-- AON's own part of RESETn low, and what ends with every running state. -/
def resetRest (s : State) : State :=
  let s := { s with tb := { s.tb with gross := false }, atr := { s.atr with err := false }, meas := resetRoles s.meas
                    halls := s.halls.map fun x => { x with err := false } }
  aonIdle (setAon (fun a => { a with seq := none, wakeDue := false, held := true, vcoreWait := [] }) s)

theorem resetRest_unitSt (s : State) (c : Nat) : (resetRest s).unitSt c = s.unitSt c := unitSt_congr rfl rfl c

theorem resetAll_units (s : State) : resetAll s = resetRest (unitsReset s) :=
  congrArg resetRest (List.foldl_append (f := fun s c => resetUnit c s)).symm

/-! RESETn rises (R457). -/

/-- What AON's bookkeeping leaves reads the same. -/
theorem bare_read {α : Type} (get : Aon → α) (h : t.aon.bare = s.aon.bare) : get t.aon.bare = get s.aon.bare := by rw [h]

/-- RESETn has risen and the straps are sampled. -/
def resetRisen (x : StrapLevels) (ms : Nat) (s : State) : State :=
  setAon (fun a => { a with
    held := false, pinReset := true, holdMs := min 65535 ms, stuck := a.stuck || decide (1000 < ms) }) (sampleStraps x s)

/-- A RESETn that was low for more than a second is reported. -/
def resetReported (ms : Nat) (s : State) : State :=
  if decide (1000 < ms) then
    raise 224 (BitVec.ofNat 32 (min 65535 ms))
      (logRecord 224 0x20 0xFFFF (BitVec.ofNat 32 (min 65535 ms)) (s.safe.cause.setWidth 32) s)
  else s

theorem resetReported_bare (ms : Nat) (s : State) : (resetReported ms s).aon.bare = s.aon.bare := by
  unfold resetReported
  split <;> simp

theorem resetReported_same (ms : Nat) (s : State) : SameRegisters s (resetReported ms s) ∧ SameGallery s (resetReported ms s) := by
  unfold resetReported
  split <;> simp [SameRegisters, SameGallery]

theorem execResetnRelease_rises (held : s.aon.held = true) (free : s.aon.porHold = false) (manual : s.aon.auto = false)
    (x : StrapLevels) (ms : Nat) : execResetnRelease x ms s = .next (resetReported ms (resetRisen x ms s)) := by
  obtain ⟨t, ht⟩ : ∃ t, t = resetReported ms (resetRisen x ms s) := ⟨_, rfl⟩
  have auto : t.aon.auto = false := by
    have kept : t.aon.bare.auto = (resetRisen x ms s).aon.bare.auto := by rw [ht, resetReported_bare]
    exact kept.trans manual
  have run : execResetnRelease x ms s = .next (if t.aon.auto then rcIdle (startWake (setAon (fun a => { a with rcRuns := true }) t)) else t) := by
    rw [ht]
    exact congrArg Host.Outcome.next ((if_neg (by simp [held])).trans (if_neg (by simp [free])))
  rw [run, if_neg (by simp [auto]), ht]

end Sys2Proof.Machine

open Sys2Proof.Machine in
/-- Settles O30: unit by unit for RESETn; a report of a long reset leaves what AON reads. -/
theorem resets : Obligations.Resets := by
  unfold Obligations.Resets
  refine fun s => ⟨⟨_, rfl, fun c hc => ?_, rfl, rfl, rfl, rfl, rfl, rfl, rfl⟩, fun x held => ?_, fun x role levels => ?_,
    fun free high => ⟨_, congrArg Host.Outcome.next (if_neg (by simp [high])), ?_⟩,
    fun x ms held free manual => ⟨_, execResetnRelease_rises held free manual x ms, ?_⟩,
    fun free => congrArg Host.Outcome.next (if_neg (by simp [free]))⟩
  · exact (unitSt_congr (t := porState s) (s := {}) rfl rfl c).trans (unitSt_reset c hc)
  · exact congrArg Host.Outcome.next (if_neg (by simp [held]))
  · obtain ⟨f, g, h, straps⟩ := sampleStraps_straps x s
    dsimp only
    rw [straps]
    refine ⟨strapRole_clear role f, fun i hi => ?_, fun i hi => ?_, ?_⟩
    · exact sampledStraps_testBit (by decide) (by decide) x.pos (fun v hv => levels v (List.mem_append_left _ hv)) g hi
    · exact sampledStraps_testBit (by decide) (by decide) x.addr (fun v hv => levels v (List.mem_append_right _ hv)) h hi
    · rw [← straps]
      rfl
  · rw [resetAll_units]
    refine ⟨rfl, rfl, rfl, ?_, fun c hc => (resetRest_unitSt _ c).trans (unitsReset_unitSt hc s)⟩
    exact Bool.and_false _
  · have bare := resetReported_bare ms (resetRisen x ms s)
    obtain ⟨regs, bytes⟩ := resetReported_same ms (resetRisen x ms s)
    obtain ⟨t, ht⟩ : ∃ t, t = resetReported ms (resetRisen x ms s) := ⟨_, rfl⟩
    rw [← ht] at bare regs bytes ⊢
    refine ⟨?_, ?_, ?_, ?_, ?_, fun c _ => unitSt_of_bare bare c, regs, bytes⟩
    · exact bare_read (fun a => a.held) bare
    · exact bare_read (fun a => a.straps) bare
    · exact bare_read (fun a => a.pinReset) bare
    · exact bare_read (fun a => a.holdMs) bare
    · exact bare_read (fun a => a.stuck) bare

end

section
/-! The steps of a sequence: what a step takes, what its end brings, and how the sequence goes on (R445, R450 to R452). -/

namespace Sys2Proof.Machine

open Sys2Proof

variable {s t : State} {c d : Nat} {q : PowerSeq}

/-! AON without the units. -/

/-- A sequence without what it has taken and what has arrived. -/
def PowerSeq.plain (q : PowerSeq) : PowerSeq := { q.bare with took := [], arrived := [] }

/-- AON without the units: what is left of it through a step that takes units or brings them. -/
def Aon.plain (a : Aon) : Aon :=
  { a.bare with dom := Vector.replicate 10 .off, bank := Vector.replicate 16 .off, seq := a.seq.map PowerSeq.plain }

/-- What stays of AON beside the units reads the same. -/
theorem plain_read {α : Type} (get : Aon → α) (h : t.aon.plain = s.aon.plain) : get t.aon.plain = get s.aon.plain := by rw [h]

theorem plain_of_bare (h : t.aon.bare = s.aon.bare) : t.aon.plain = s.aon.plain := by
  have from_bare : ∀ a : Aon, a.plain = { a.bare with
      dom := Vector.replicate 10 .off, bank := Vector.replicate 16 .off, seq := a.bare.seq.map PowerSeq.plain } := fun a => by
    simp only [Aon.plain, Aon.bare, Option.map_map]
    rfl
  rw [from_bare, from_bare s.aon, h]

theorem seq_of_plain (h : t.aon.plain = s.aon.plain) (hq : s.aon.seq = some q) : ∃ r, t.aon.seq = some r ∧ r.plain = q.plain := by
  have seqs : t.aon.seq.map PowerSeq.plain = some q.plain := (plain_read (fun a => a.seq) h).trans (by simp [Aon.plain, hq])
  exact Option.map_eq_some_iff.mp seqs

theorem setUnit_plain (c : Nat) (x : DomState) (s : State) : (setUnit c x s).aon.plain = s.aon.plain := by
  unfold setUnit
  rw [setAon_aon]
  split <;> rfl

/-- A change of the units the sequence has taken, or of those that have arrived. -/
theorem setSeq_plain {f : PowerSeq → PowerSeq} (hf : ∀ q, (f q).plain = q.plain) (s : State) :
    (setSeq f s).aon.plain = s.aon.plain := by
  simp only [setSeq, setAon_aon, Aon.plain, Aon.bare, Option.map_map]
  congr 2
  funext q
  exact hf q

/-! Units taken (R447, R450). -/

theorem takeUnit'_unitSt (hd : d ∈ unitCodes) (c : Nat) (s : State) :
    (takeUnit' c s).unitSt d = if d = c then .trans else s.unitSt d := by
  change (setUnit c .trans s).unitSt d = _
  split
  · next same => exact same ▸ setUnit_unitSt_same hd .trans s
  · next other => exact setUnit_unitSt_ne other .trans s

theorem takeUnit'_plain (c : Nat) (s : State) : (takeUnit' c s).aon.plain = s.aon.plain :=
  (setSeq_plain (f := fun q => { q with took := q.took ++ [(c, s.unitSt c == .ret)] }) (fun _ => rfl) _).trans
    (setUnit_plain c .trans s)

theorem each_takeUnit'_unitSt (hd : d ∈ unitCodes) (l : List Nat) (s : State) :
    (each l takeUnit' s).unitSt d = if d ∈ l then .trans else s.unitSt d := by
  induction l generalizing s with
  | nil => simp [each]
  | cons c l ih =>
    refine (ih (takeUnit' c s)).trans ?_
    rw [takeUnit'_unitSt hd]
    by_cases same : d = c <;> simp [same]

theorem closeBanks_unitSt (hq : s.aon.seq = some q) (hd : d ∈ unitCodes) : (closeBanks s).unitSt d =
    if 16 ≤ d ∧ d ∈ q.bring ∧ s.unitSt d ≠ .on then .trans else s.unitSt d := by
  simp only [closeBanks, hq]
  rw [each_takeUnit'_unitSt hd]
  by_cases going : s.unitSt d = .trans
  · simp [going]
  · refine if_congr ?_ rfl rfl
    simp only [List.mem_filter, Bool.and_eq_true, bne_iff_ne, decide_eq_true_eq, going, ne_eq, not_false_iff, and_true]
    tauto

theorem closeBanks_plain (s : State) : (closeBanks s).aon.plain = s.aon.plain := by
  unfold closeBanks
  split
  · rfl
  · exact each_keep (fun s => s.aon.plain) _ _ s takeUnit'_plain

/-- The banks a step takes. -/
def banksTaken (n : Nat) (s : State) : State := if n = 4 ∨ n = 0 then closeBanks s else s

/-- The domain a step takes. -/
def domTaken (n : Nat) (s : State) : State :=
  if n = 4 ∨ 9 ≤ n then (if s.unitSt (stepDom n) == .trans then s else takeUnit' (stepDom n) s) else s

theorem beginStep_takes {n : Nat} {r : List Nat} (hq : s.aon.seq = some q) (steps : q.steps = n :: r) :
    beginStep s = domTaken n (banksTaken n s) := by
  simp only [beginStep, hq, steps]
  rfl

theorem domTaken_unitSt {n : Nat} (hd : d ∈ unitCodes) (s : State) : (domTaken n s).unitSt d =
    if (n = 4 ∨ 9 ≤ n) ∧ d = stepDom n then .trans else s.unitSt d := by
  unfold domTaken
  by_cases named : n = 4 ∨ 9 ≤ n
  · rw [if_pos named]
    by_cases own : d = stepDom n
    · rw [if_pos (show (n = 4 ∨ 9 ≤ n) ∧ d = stepDom n from ⟨named, own⟩)]
      split
      · next going => simpa [own] using going
      · exact (takeUnit'_unitSt hd _ s).trans (if_pos own)
    · rw [if_neg (show ¬ ((n = 4 ∨ 9 ≤ n) ∧ d = stepDom n) from fun h => own h.2)]
      split
      · rfl
      · exact (takeUnit'_unitSt hd _ s).trans (if_neg own)
  · rw [if_neg named, if_neg fun h => named h.1]

theorem banksTaken_unitSt {n : Nat} (hq : s.aon.seq = some q) (hd : d ∈ unitCodes) : (banksTaken n s).unitSt d =
    if (n = 4 ∨ n = 0) ∧ 16 ≤ d ∧ d ∈ q.bring ∧ s.unitSt d ≠ .on then .trans else s.unitSt d := by
  unfold banksTaken
  split
  · next banks => simp only [closeBanks_unitSt hq hd, banks, true_and]
  · next none => simp only [none, false_and, if_false]

/-- The running step takes its domain, and with step code 4 or 0 the banks that are not ON. -/
theorem beginStep_unitSt {n : Nat} {r : List Nat} (hq : s.aon.seq = some q) (steps : q.steps = n :: r) (hd : d ∈ unitCodes) :
    (beginStep s).unitSt d = if (n = 4 ∨ 9 ≤ n) ∧ d = stepDom n then .trans
      else if (n = 4 ∨ n = 0) ∧ 16 ≤ d ∧ d ∈ q.bring ∧ s.unitSt d ≠ .on then .trans else s.unitSt d := by
  rw [beginStep_takes hq steps, domTaken_unitSt hd, banksTaken_unitSt hq hd]

theorem banksTaken_plain (n : Nat) (s : State) : (banksTaken n s).aon.plain = s.aon.plain := by
  unfold banksTaken
  split
  · exact closeBanks_plain s
  · rfl

theorem domTaken_plain (n : Nat) (s : State) : (domTaken n s).aon.plain = s.aon.plain := by
  unfold domTaken
  split
  · split
    · rfl
    · exact takeUnit'_plain _ s
  · rfl

theorem beginStep_plain {n : Nat} {r : List Nat} (hq : s.aon.seq = some q) (steps : q.steps = n :: r) :
    (beginStep s).aon.plain = s.aon.plain := by
  rw [beginStep_takes hq steps, domTaken_plain, banksTaken_plain]

/-! Banks checked (R447). -/

/-- A bank whose switch has closed comes ON; one whose check failed is zero-filled and lost. -/
def bankChecked (bad : Word) (x : Nat × Bool) (s : State) : State :=
  let s := changed x.1 false (setUnit x.1 .on s)
  if x.2 && bit bad x.1 then markLost x.1 (shedBank (x.1 - 16) false s) else s

theorem bankChecked_bare (bad : Word) (x : Nat × Bool) (s : State) :
    (bankChecked bad x s).aon.bare = (setUnit x.1 .on s).aon.bare := by
  have lost : ∀ u, (markLost x.1 (shedBank (x.1 - 16) false u)).aon.bare = u.aon.bare := fun u => shedBank_bare _ _ u
  unfold bankChecked
  dsimp only
  split
  · rw [lost, changed_bare]
  · exact changed_bare _ _ _

theorem each_bankChecked (bad : Word) (l : List (Nat × Bool)) (s : State) :
    (∀ d ∈ unitCodes, (each l (bankChecked bad) s).unitSt d = if d ∈ l.map (·.1) then .on else s.unitSt d) ∧
      (each l (bankChecked bad) s).aon.plain = s.aon.plain := by
  induction l generalizing s with
  | nil => exact ⟨fun d _ => by simp [each], rfl⟩
  | cons x l ih =>
    obtain ⟨units, plain⟩ := ih (bankChecked bad x s)
    have first := bankChecked_bare bad x s
    refine ⟨fun d hd => (units d hd).trans ?_, plain.trans ((plain_of_bare first).trans (setUnit_plain _ _ s))⟩
    rw [unitSt_of_bare first]
    by_cases same : d = x.1
    · subst same
      simp [setUnit_unitSt_same hd]
    · simp [same, setUnit_unitSt_ne same]

theorem checkBanks_checks (hq : s.aon.seq = some q) (bad : Word) :
    (∀ d ∈ unitCodes, (checkBanks bad s).unitSt d =
      if d ∈ ((q.took.filter fun x => 16 ≤ x.1).filter fun x => s.unitSt x.1 == .trans).map (·.1) then .on else s.unitSt d) ∧
      (checkBanks bad s).aon.plain = s.aon.plain := by
  have checked : checkBanks bad s = tellLost (each ((q.took.filter fun x => 16 ≤ x.1).filter fun x => s.unitSt x.1 == .trans)
      (bankChecked bad) s) := by
    simp only [checkBanks, hq]
    rfl
  obtain ⟨units, plain⟩ := each_bankChecked bad ((q.took.filter fun x => 16 ≤ x.1).filter fun x => s.unitSt x.1 == .trans) s
  rw [checked]
  exact ⟨fun d hd => (unitSt_of_bare (tellLost_bare _) d).trans (units d hd), (plain_of_bare (tellLost_bare _)).trans plain⟩

end Sys2Proof.Machine
end

section
/-! Wakes and the course of a sequence (R445 to R452). -/

namespace Sys2Proof.Machine

open Sys2Proof

variable {s t : State} {c d n : Nat} {q : PowerSeq} {r : List Nat}

/-! A step's time (Table 13-5). -/

theorem stepTime_takes (hq : s.aon.seq = some q) (c : Nat) : ∃ x f, x ≤ (stepDelay c).2 ∧ stepTime c s = { s with
    freeCtr := f, aon := { s.aon with seq := some { q with time := q.time + (stepDelay c).1 + x } } } := by
  unfold stepTime
  dsimp only
  split
  · exact ⟨0, s.freeCtr, Nat.zero_le _, by simp [setSeq, setAon, hq]⟩
  · refine ⟨(freeNat s).1 % ((stepDelay c).2 + 1), (freeNat s).2.freeCtr, Nat.lt_succ_iff.mp (Nat.mod_lt _ (Nat.succ_pos _)), ?_⟩
    simp [setSeq, setAon, freeNat, hq]

/-! A domain arrives (R445, R447). -/

/-- What a domain loses at its arrival where its shadow check failed. -/
def shadowLost (lost : Bool) (d : Nat) (s : State) : State := if lost then markLost d (shed d false s) else s

theorem shadowLost_bare (lost : Bool) (d : Nat) (s : State) : (shadowLost lost d s).aon.bare = s.aon.bare := by
  unfold shadowLost
  split
  · exact shed_bare d false s
  · rfl

/-- The state in which domain `d` has arrived, but for a shutdown of NVM that waits for it. -/
def arrivedNow (d : Nat) (fresh rst : Bool) (s : State) : State :=
  changed d rst (tellLost (arrive d fresh (setSeq (fun q => { q with arrived := d :: q.arrived }) (setUnit d .on s))))

theorem arriveAt_arrived (d : Nat) (bad : Word) (s : State) : ∃ lost fresh rst, arriveAt d bad s =
    if d = 9 then nvmDue (arrivedNow d fresh rst (shadowLost lost d s)) else arrivedNow d fresh rst (shadowLost lost d s) :=
  ⟨_, _, _, rfl⟩

theorem arrivedNow_units (hd : d ∈ unitCodes) (fresh rst : Bool) (s : State) :
    (∀ e, (arrivedNow d fresh rst s).unitSt e = if e = d then .on else s.unitSt e) ∧
      (arrivedNow d fresh rst s).aon.plain = s.aon.plain := by
  obtain ⟨u, hu⟩ : ∃ u, u = setSeq (fun q => { q with arrived := d :: q.arrived }) (setUnit d .on s) := ⟨_, rfl⟩
  have kept : (arrivedNow d fresh rst s).aon.bare = u.aon.bare := by
    rw [arrivedNow, changed_bare, tellLost_bare, arrive_bare, hu]
  refine ⟨fun e => (unitSt_of_bare kept e).trans ?_, (plain_of_bare kept).trans ?_⟩
  · rw [hu, setSeq_unitSt]
    split
    · next same => exact same ▸ setUnit_unitSt_same hd .on s
    · next other => exact setUnit_unitSt_ne other .on s
  · rw [hu]
    exact (setSeq_plain (f := fun q => { q with arrived := d :: q.arrived }) (fun _ => rfl) _).trans (setUnit_plain d .on s)

theorem recordDone_lost_nvm (j : NvmJob) (s : State) : (recordDone j false s).nvm = s.nvm := by
  unfold recordDone
  split
  · rfl
  · split <;> rfl
  · (repeat' split) <;> simp
  · (repeat' split) <;> simp [calEnd]
  · rfl

theorem shadowLost_offDue (lost : Bool) (due : s.nvm.offDue = false) : (shadowLost lost 9 s).nvm.offDue = false := by
  have left : (nvmLeave (dropPend .nvm (dropCfg .nvm s))).nvm.offDue = false :=
    each_inv (Q := fun s => s.nvm.offDue = false) _ _ _ (fun j u h => by rw [recordDone_lost_nvm, h]) rfl
  unfold shadowLost
  split
  · exact left
  · exact due

theorem arrivedNow_offDue (fresh rst : Bool) (due : s.nvm.offDue = false) : (arrivedNow 9 fresh rst s).nvm.offDue = false := by
  have told : ∀ u : State, (tellLost u).nvm.offDue = u.nvm.offDue := fun u => by
    unfold tellLost
    split
    · rfl
    · split
      · simp only [raise_frame]
        exact (logRecord_gates _ _ _ _ _ _).2
      · unfold holdLost
        split <;> rfl
  have on : ∀ u : State, (nvmOn u).nvm.offDue = u.nvm.offDue := fun u => rfl
  simp only [arrivedNow, changed_frame, told, arrive, on, setSeq_frame, setUnit_frame, due]

/-- A domain comes ON by the end of its step, and no other unit changes. -/
theorem arriveAt_units (hd : d ∈ unitCodes) (bad : Word) (stays : d = 9 → s.nvm.offDue = false) :
    (∀ e, (arriveAt d bad s).unitSt e = if e = d then .on else s.unitSt e) ∧ (arriveAt d bad s).aon.plain = s.aon.plain := by
  obtain ⟨lost, fresh, rst, arrived⟩ := arriveAt_arrived d bad s
  have now : arriveAt d bad s = arrivedNow d fresh rst (shadowLost lost d s) := by
    rw [arrived]
    split
    · next nvm =>
      subst nvm
      exact if_neg (by simp [arrivedNow_offDue fresh rst (shadowLost_offDue lost (stays rfl))])
    · rfl
  obtain ⟨units, plain⟩ := arrivedNow_units hd fresh rst (shadowLost lost d s)
  rw [now]
  exact ⟨fun e => by rw [units, unitSt_of_bare (shadowLost_bare lost d s)], plain.trans (plain_of_bare (shadowLost_bare lost d s))⟩

/-! The end of a step. -/

theorem unitSt_bank (g : Nat) (s : State) : s.unitSt (16 + g) = s.bankSt g := by simp [State.unitSt]

/-- The end of a shared step that starts no buck leaves AON as it is but for the units. -/
theorem stepEffect_plain (shared : c ≤ 8) (other : c ≠ 2 ∧ c ≠ 3) (hq : s.aon.seq = some q) (bad : Word) (ref : Fin 4) :
    (stepEffect c bad ref s).aon.plain = s.aon.plain := by
  match c, shared with
  | 0, _ => exact (checkBanks_checks hq bad).2
  | 1, _ => rfl
  | 2, _ => exact absurd rfl other.1
  | 3, _ => exact absurd rfl other.2
  | 4, _ => exact (checkBanks_checks hq bad).2
  | 5, _ => rfl
  | 6, _ =>
    obtain ⟨lost, effect⟩ : ∃ lost : Bool, stepEffect 6 bad ref s = if lost then tellLost (markLost 0 (shed 0 false s)) else s :=
      ⟨_, rfl⟩
    rw [effect]
    split
    · exact plain_of_bare ((tellLost_bare _).trans (shed_bare 0 false s))
    · rfl
  | 7, _ => rfl
  | 8, _ =>
    exact (arriveAt_units (d := 0) (by decide) 0
      (s := { s with tb := { s.tb with gross := s.tb.gross && !s.resetting .timebase } }) (fun h => absurd h (by decide))).2

theorem seqPlain_read {α : Type} (get : PowerSeq → α) {p q : PowerSeq} (h : p.plain = q.plain) : get p.plain = get q.plain := by
  rw [h]

theorem stepEffect_seq (shared : c ≤ 8) (hq : s.aon.seq = some q) (bad : Word) (ref : Fin 4) :
    ∃ q', (stepEffect c bad ref s).aon.seq = some q' ∧ q'.plain = q.plain := by
  by_cases buck : c = 2 ∨ c = 3
  · refine ⟨q, ?_, rfl⟩
    rcases buck with rfl | rfl <;> exact hq
  · exact seq_of_plain (stepEffect_plain shared (not_or.mp buck) hq bad ref) hq

theorem stepEffect_banks (checks : c = 0 ∨ c = 4) (hq : s.aon.seq = some q) (bad : Word) (ref : Fin 4) {g : Nat} (hg : g < 16)
    {b : Bool} (took : (16 + g, b) ∈ q.took) (going : s.bankSt g = .trans) : (stepEffect c bad ref s).bankSt g = .on := by
  have effect : stepEffect c bad ref s = checkBanks bad s := by rcases checks with rfl | rfl <;> rfl
  have known : 16 + g ∈ unitCodes := mem_unitCodes.mpr (.inr (by omega))
  rw [effect, ← unitSt_bank, (checkBanks_checks hq bad).1 _ known, if_pos]
  refine List.mem_map.mpr ⟨_, List.mem_filter.mpr ⟨List.mem_filter.mpr ⟨took, by simp⟩, ?_⟩, rfl⟩
  simp [unitSt_bank, going]

/-! The next step (R450). -/

/-- The step that ran is off the list. -/
def stepGone (s : State) : State := setSeq (fun q => { q with steps := q.steps.tail }) s

theorem stepGone_seq (hq : s.aon.seq = some q) : (stepGone s).aon.seq = some { q with steps := q.steps.tail } := by
  simp [stepGone, setSeq, hq]

theorem nextStep_more (hq : s.aon.seq = some q) (steps : q.steps.tail ≠ []) : nextStep s = beginStep (stepGone s) := by
  change (match (stepGone s).aon.seq with
    | some q => if q.steps.isEmpty then seqEnd (stepGone s) else beginStep (stepGone s)
    | none => stepGone s) = _
  rw [stepGone_seq hq]
  exact if_neg (by simpa using steps)

theorem nextStep_last (hq : s.aon.seq = some q) (steps : q.steps.tail = []) : nextStep s = seqEnd (stepGone s) := by
  change (match (stepGone s).aon.seq with
    | some q => if q.steps.isEmpty then seqEnd (stepGone s) else beginStep (stepGone s)
    | none => stepGone s) = _
  rw [stepGone_seq hq]
  exact if_pos (by simpa using steps)

theorem execWakeStepDone_runs (hq : s.aon.seq = some q) (steps : q.steps = c :: r) (bad : Word) {ref : Fin 4}
    (measured : c ≠ 7 ∨ ref ≠ 0) : execWakeStepDone bad ref s = .next (nextStep (stepEffect c bad ref (stepTime c s))) := by
  have done : ¬ (c = 7 ∧ ref = 0) := fun h => measured.elim (fun n => n h.1) fun n => n h.2
  simp only [execWakeStepDone, hq, steps, if_neg done]

theorem stepDom_le (few : n ≤ 17) : stepDom n ≤ 9 := by
  unfold stepDom
  split <;> omega

/-- The step after a shared one begins, on a state with the end's effect, the sequence one step on and its delay added. -/
structure StepsOn (s t v : State) (q : PowerSeq) (c n : Nat) (r : List Nat) (bad : Word) (ref : Fin 4) : Prop where
  effect : ∃ f l, v = stepGone (stepEffect c bad ref { s with freeCtr := f, aon := { s.aon with seq := some { q with time := l } } }) ∧
    q.time + (stepDelay c).1 ≤ l ∧ l ≤ q.time + (stepDelay c).1 + (stepDelay c).2
  seq : ∃ p, v.aon.seq = some p ∧ p.steps = n :: r ∧ p.kind = q.kind ∧ p.bring = q.bring ∧
    q.time + (stepDelay c).1 ≤ p.time ∧ p.time ≤ q.time + (stepDelay c).1 + (stepDelay c).2
  begins : t = beginStep v

theorem execWakeStepDone_stepsOn (hq : s.aon.seq = some q) (steps : q.steps = c :: n :: r) (shared : c ≤ 8) (bad : Word)
    {ref : Fin 4} (measured : c ≠ 7 ∨ ref ≠ 0) :
    ∃ t v, execWakeStepDone bad ref s = .next t ∧ StepsOn s t v q c n r bad ref := by
  obtain ⟨x, f, open_, timed⟩ := stepTime_takes hq c
  obtain ⟨w, hw⟩ : ∃ w : State, w = { s with
      freeCtr := f, aon := { s.aon with seq := some { q with time := q.time + (stepDelay c).1 + x } } } := ⟨_, rfl⟩
  have wq : w.aon.seq = some { q with time := q.time + (stepDelay c).1 + x } := by rw [hw]
  obtain ⟨p, pq, plain⟩ := stepEffect_seq shared wq bad ref
  have left : p.steps = c :: n :: r := ((seqPlain_read (fun q => q.steps) plain :)).trans steps
  have kind : p.kind = q.kind := (seqPlain_read (fun q => q.kind) plain :)
  have bring : p.bring = q.bring := (seqPlain_read (fun q => q.bring) plain :)
  have time : p.time = q.time + (stepDelay c).1 + x := (seqPlain_read (fun q => q.time) plain :)
  refine ⟨_, stepGone (stepEffect c bad ref w), execWakeStepDone_runs hq steps bad measured, ⟨⟨f, _, congrArg _ (congrArg _ hw), ?_, ?_⟩,
    ⟨_, stepGone_seq pq, congrArg List.tail left, kind, bring, ?_, ?_⟩, ?_⟩⟩
  · omega
  · omega
  · change _ ≤ p.time
    omega
  · change p.time ≤ _
    omega
  · rw [timed, ← hw]
    exact nextStep_more pq (by simp [left])

/-! A wake starts (R449). -/

/-- The sequence of a wake. -/
def wakeSeq (s : State) : PowerSeq :=
  let q : PowerSeq := { kind := .wake, bring := unitCodes.filter fun c => bit s.aon.wakeSet c && s.unitSt c != .on }
  { q with steps := stepsFor q s }

/-- The state with a wake's sequence, whose first step is still to begin. -/
def wakeSet (s : State) : State := { s with aon := { s.aon with wakeDue := false, aonOnly := false, seq := some (wakeSeq s) } }

theorem wakeRun_begins (some_ : (wakeSeq s).steps ≠ []) : wakeRun s = beginStep (wakeSet s) :=
  if_neg fun h => some_ (List.isEmpty_iff.mp h)

theorem mem_wakeSeq_bring : c ∈ (wakeSeq s).bring ↔ c ∈ unitCodes ∧ bit s.aon.wakeSet c = true ∧ s.unitSt c ≠ .on := by
  simp [wakeSeq]

theorem startWake_runs (held : s.aon.held = false) (por : s.aon.porHold = false) (idle : s.aon.seq = none) :
    startWake s = wakeRun s := by
  simp [startWake, held, por, idle]

/-- The first step of a wake takes none of the units that are not among those it brings. -/
theorem stepDom_mem_wake (steps : (wakeSeq s).steps = n :: r) (named : n = 4 ∨ 9 ≤ n) : stepDom n ∈ (wakeSeq s).bring := by
  have mem : n ∈ (wakeSeq s).steps := by simp [steps]
  exact stepDom_of_mem_stepsFor (q := { kind := .wake, bring := (wakeSeq s).bring }) mem named

/-- A unit that is ON stays ON as a wake starts. -/
theorem wakeRun_on (hd : d ∈ unitCodes) (on : s.unitSt d = .on) : (wakeRun s).unitSt d = .on := by
  cases steps : (wakeSeq s).steps with
  | nil =>
    have done : wakeRun s = setAon (fun a => { a with wakeTime := 0 }) (setAon (fun a => { a with wakeDue := false, aonOnly := false }) s) :=
      if_pos (List.isEmpty_iff.mpr steps)
    rw [done]
    exact on
  | cons n r =>
    have stays : d ∉ (wakeSeq s).bring := fun h => (mem_wakeSeq_bring.mp h).2.2 on
    rw [wakeRun_begins (by simp [steps]), beginStep_unitSt (q := wakeSeq s) rfl steps hd, if_neg, if_neg]
    · exact on
    · exact fun h => stays h.2.2.1
    · exact fun h => stays (h.2 ▸ stepDom_mem_wake steps h.1)

theorem startWake_on (hd : d ∈ unitCodes) (on : s.unitSt d = .on) : (startWake s).unitSt d = .on := by
  unfold startWake
  split
  · exact on
  · split
    · split
      · exact on
      · exact on
    · exact wakeRun_on hd on

/-! The end of a sequence (R445). -/

/-- A sequence that has run, with what it answers, before a wake that was due behind it. -/
def seqDone (q : PowerSeq) (s : State) : State :=
  seqReply q (aonIdle (each q.arrived.reverse arrivalWork (setAon (fun a => { a with seq := none }) s)))

theorem seqEnd_done (hq : s.aon.seq = some q) : seqEnd s = wakeNext (seqDone q s) := by
  simp only [seqEnd, hq]
  rfl

/-- What is left of AON when a sequence has run, but for its bucks, its oscillator and a wake's time. -/
def Aon.ended (a : Aon) : Aon := { a.bare with bk0Ok := false, bk1Ok := false, rcRuns := false, wakeTime := 0 }

theorem ended_of_bare (h : t.aon.bare = s.aon.bare) : t.aon.ended = s.aon.ended := by rw [Aon.ended, Aon.ended, h]

theorem seqReply_ended (q : PowerSeq) (s : State) : (seqReply q s).aon.ended = s.aon.ended := by
  unfold seqReply
  split
  · rfl
  · exact ended_of_bare (finish_bare _ _ _)
  · exact ended_of_bare (finish_bare _ _ _)

theorem seqDone_ended (q : PowerSeq) (s : State) :
    (seqDone q s).aon.ended = (setAon (fun a => { a with seq := none }) s).aon.ended := by
  have idle : ∀ u : State, (aonIdle u).aon.ended = u.aon.ended := fun u => rfl
  rw [seqDone, seqReply_ended, idle]
  exact ended_of_bare (each_bare _ _ _ arrivalWork_bare)

theorem unitSt_of_ended (h : t.aon.ended = s.aon.ended) (c : Nat) : t.unitSt c = s.unitSt c := by
  have dom : t.aon.ended.dom = s.aon.ended.dom := by rw [h]
  have bank : t.aon.ended.bank = s.aon.ended.bank := by rw [h]
  exact unitSt_congr dom bank c

theorem seqDone_unitSt (q : PowerSeq) (s : State) (c : Nat) : (seqDone q s).unitSt c = s.unitSt c :=
  unitSt_of_ended (seqDone_ended q s) c

/-- A unit that is ON is ON when the sequence has run, and where a wake follows it. -/
theorem seqEnd_on (hq : s.aon.seq = some q) (hd : d ∈ unitCodes) (on : s.unitSt d = .on) : (seqEnd s).unitSt d = .on := by
  have kept : (seqDone q s).unitSt d = .on := (seqDone_unitSt q s d).trans on
  rw [seqEnd_done hq]
  unfold wakeNext
  split
  · exact startWake_on hd kept
  · exact kept

/-- With no wake due behind it a sequence ends and changes no unit. -/
theorem seqEnd_quiet (hq : s.aon.seq = some q) (quiet : s.aon.wakeDue = false) : seqEnd s = seqDone q s := by
  have due : (seqDone q s).aon.ended.wakeDue = s.aon.ended.wakeDue := by rw [seqDone_ended]; rfl
  rw [seqEnd_done hq]
  exact wakeNext_none (due.trans quiet)

end Sys2Proof.Machine
end

section
/-! Steps that fail, entries into RET that complete, and the wake sequence as a whole (R446, R449 to R452). -/

namespace Sys2Proof.Machine

open Sys2Proof

variable {s t : State} {c d n : Nat} {q : PowerSeq} {r : List Nat}

/-! The domain of a step beside the steps that follow. -/

theorem stepDom_own (low : 9 ≤ c) : stepDom c = c - 8 := if_neg (by omega)

/-- The step after that of a domain leaves the domain as it is. -/
theorem nextStep_keeps (hq : s.aon.seq = some q) (low : 9 ≤ c) (high : c ≤ 17) (once : c ∉ q.steps.tail)
    (more : q.steps.tail ≠ []) : (nextStep s).unitSt (c - 8) = s.unitSt (c - 8) := by
  have known : c - 8 ∈ unitCodes := mem_unitCodes.mpr (.inl (by omega))
  rw [nextStep_more hq more]
  obtain ⟨n, r, steps⟩ := List.exists_cons_of_ne_nil more
  have other : n ≠ c := fun same => once (by rw [steps, same]; exact List.mem_cons_self)
  rw [beginStep_unitSt (stepGone_seq hq) steps known, if_neg, if_neg]
  · rfl
  · omega
  · rintro ⟨named, own⟩
    unfold stepDom at own
    split at own <;> omega

/-- The step of a domain ends: it is ON, whatever follows. -/
theorem nextStep_on (hq : s.aon.seq = some q) (low : 9 ≤ c) (high : c ≤ 17) (once : c ∉ q.steps.tail)
    (on : s.unitSt (c - 8) = .on) : (nextStep s).unitSt (c - 8) = .on := by
  by_cases last : q.steps.tail = []
  · rw [nextStep_last hq last]
    exact seqEnd_on (stepGone_seq hq) (mem_unitCodes.mpr (.inl (by omega))) on
  · exact (nextStep_keeps hq low high once last).trans on

theorem execWakeStepDone_arrives (hq : s.aon.seq = some q) (steps : q.steps = c :: r) (low : 9 ≤ c) (high : c ≤ 17)
    (once : c ∉ r) (bad : Word) (ref : Fin 4) (stays : c = 17 → s.nvm.offDue = false) :
    ∃ t, execWakeStepDone bad ref s = .next t ∧ t.unitSt (c - 8) = .on := by
  have known : c - 8 ∈ unitCodes := mem_unitCodes.mpr (.inl (by omega))
  obtain ⟨x, f, -, timed⟩ := stepTime_takes hq c
  obtain ⟨w, hw⟩ : ∃ w, w = stepTime c s := ⟨_, rfl⟩
  have wq : w.aon.seq = some { q with time := q.time + (stepDelay c).1 + x } := by rw [hw, timed]
  have due : c - 8 = 9 → w.nvm.offDue = false := fun nvm => by
    simpa only [hw, stepTime_frame] using stays (by omega)
  have effect : stepEffect c bad ref w = arriveAt (c - 8) bad w := by
    unfold stepEffect
    rw [if_neg (by omega), if_neg (by omega), if_neg (by omega), if_neg (by omega), if_neg (by omega), if_neg (by omega),
      if_pos low, stepDom_own low]
  obtain ⟨units, plain⟩ := arriveAt_units known bad due
  obtain ⟨p, pq, same⟩ := seq_of_plain plain wq
  have left : p.steps = c :: r := (seqPlain_read (fun q => q.steps) same :).trans steps
  refine ⟨_, execWakeStepDone_runs hq steps bad (.inl (by omega)), ?_⟩
  rw [← hw, effect]
  exact nextStep_on pq low high (by simpa [left] using once) ((units _).trans (if_pos rfl))

/-! Failures (R451, R452). -/

/-- FAIL, STEP and the sequence's mark of a failure at step code `c`. -/
def failMarked (c : Nat) (s : State) : State :=
  setSeq (fun q => { q with failed := true }) (setAon (fun a => { a with wakeFail := true, wakeStep := c }) s)

theorem markFail_bare (c : Nat) (s : State) : (markFail c s).aon.bare = (failMarked c s).aon.bare := by
  change (raise _ _ (logRecord _ _ _ _ _ (failMarked c s))).aon.bare = _
  rw [raise_bare, logRecord_bare]

theorem giveBack_plain (took : List (Nat × Bool)) (s : State) : (giveBack took s).aon.plain = s.aon.plain := by
  refine each_keep (fun s => s.aon.plain) took _ s fun x u => ?_
  split
  · exact (plain_of_bare (takeRetCrc_bare _ _)).trans (setUnit_plain _ _ u)
  · refine (setUnit_plain _ _ _).trans (plain_of_bare ?_)
    split
    · exact shed_bare _ _ u
    · exact shedBank_bare _ _ u

/-- A shared failure of a wake ends it, its marks and its time as they are. -/
theorem failShared_wake (hq : s.aon.seq = some q) (wake : q.kind = .wake) (quiet : s.aon.wakeDue = false) :
    (failShared s).aon.seq = none ∧ (failShared s).aon.wakeFail = s.aon.wakeFail ∧
      (failShared s).aon.wakeStep = s.aon.wakeStep ∧ (failShared s).aon.wakeTime = s.aon.wakeTime := by
  obtain ⟨u, hu⟩ : ∃ u, u = giveBack q.took s := ⟨_, rfl⟩
  have kept : u.aon.plain = s.aon.plain := by rw [hu, giveBack_plain]
  obtain ⟨v, fails, seq, due, fail, step, time⟩ : ∃ v, failShared s = wakeNext v ∧ v.aon.seq = none ∧ v.aon.wakeDue = u.aon.wakeDue ∧
      v.aon.wakeFail = u.aon.wakeFail ∧ v.aon.wakeStep = u.aon.wakeStep ∧ v.aon.wakeTime = u.aon.wakeTime := by
    rw [hu]
    unfold failShared
    rw [hq]
    dsimp only
    rw [wake]
    exact ⟨_, rfl, rfl, rfl, rfl, rfl, rfl⟩
  have ended : failShared s = v := by
    rw [fails]
    exact wakeNext_none (due.trans ((plain_read (fun a => a.wakeDue) kept).trans quiet))
  rw [ended]
  exact ⟨seq, fail.trans (plain_read (fun a => a.wakeFail) kept), step.trans (plain_read (fun a => a.wakeStep) kept),
    time.trans (plain_read (fun a => a.wakeTime) kept)⟩

theorem stepFail_shared (hq : s.aon.seq = some q) (steps : q.steps = 7 :: r) : stepFail s = failShared (markFail 7 s) := by
  simp only [stepFail, hq, steps]
  rfl

/-- Step code 7 without a reference ends a wake. -/
theorem execWakeStepDone_unreferenced (hq : s.aon.seq = some q) (steps : q.steps = 7 :: r) (wake : q.kind = .wake)
    (quiet : s.aon.wakeDue = false) (bad : Word) : ∃ t, execWakeStepDone bad 0 s = .next t ∧ t.aon.seq = none ∧
      t.aon.wakeFail = true ∧ t.aon.wakeStep = 7 ∧ t.aon.wakeTime = s.aon.wakeTime := by
  have run : execWakeStepDone bad 0 s = .next (failShared (markFail 7 s)) := by
    rw [← stepFail_shared hq steps]
    simp only [execWakeStepDone, hq, steps]
    rfl
  obtain ⟨m, hm⟩ : ∃ m, m = markFail 7 s := ⟨_, rfl⟩
  have marked : m.aon.plain = (failMarked 7 s).aon.plain := by rw [hm, plain_of_bare (markFail_bare 7 s)]
  have mq : m.aon.seq = some { q with failed := true } := by rw [hm, markFail_seq hq]
  have due : m.aon.wakeDue = false := (plain_read (fun a => a.wakeDue) marked).trans quiet
  obtain ⟨seq, fail, step, time⟩ := failShared_wake mq wake due
  rw [← hm] at run
  exact ⟨_, run, seq, fail.trans (plain_read (fun a => a.wakeFail) marked), step.trans (plain_read (fun a => a.wakeStep) marked),
    time.trans ((plain_read (fun a => a.wakeTime) marked :) : m.aon.wakeTime = s.aon.wakeTime)⟩

/-- The steps that a failure at step code `c` leaves (R451). -/
def stepKept (role c x : Nat) : Bool :=
  x == c || x == 0 || (!(c - 8 == 0 && x < 9) && !(dependents role (c - 8)).contains (stepDom x))

/-- A domain whose step failed is OFF. -/
def domainOff (c : Nat) (s : State) : State := setUnit (c - 8) .off (shed (c - 8) false s)

/-- A domain whose step failed is OFF, and its dependents are left. -/
def domainLeft (c : Nat) (s : State) : State :=
  setSeq (fun q => { q with steps := q.steps.filter (stepKept (domainOff c s).aon.straps.role c) }) (domainOff c s)

theorem stepFail_domain (hq : s.aon.seq = some q) (steps : q.steps = c :: r) (low : 9 ≤ c) :
    stepFail s = nextStep (domainLeft c (markFail c s)) := by
  have fails : stepFail s = failDomain c (markFail c s) := by
    simp only [stepFail, hq, steps]
    rw [if_neg (by omega), if_neg (by omega)]
  rw [fails]
  unfold failDomain domainLeft domainOff
  rw [stepDom_own low]
  dsimp only
  rw [if_neg (by omega)]
  rfl

theorem domainLeft_seq (hq : s.aon.seq = some q) (steps : q.steps = c :: r) :
    ∃ p l, (domainLeft c s).aon.seq = some p ∧ p.steps = c :: l ∧ ∀ x ∈ l, x ∈ r := by
  have plain : (domainOff c s).aon.plain = s.aon.plain := (setUnit_plain _ _ _).trans (plain_of_bare (shed_bare _ _ s))
  obtain ⟨p, pq, same⟩ := seq_of_plain plain hq
  have left : p.steps = c :: r := (seqPlain_read (fun q => q.steps) same :).trans steps
  refine ⟨{ p with steps := p.steps.filter (stepKept (domainOff c s).aon.straps.role c) },
    r.filter (stepKept (domainOff c s).aon.straps.role c), ?_, ?_, fun x h => List.mem_of_mem_filter h⟩
  · simp [domainLeft, setSeq, pq]
  · rw [left]
    exact List.filter_cons_of_pos (by simp [stepKept])

/-- The sequence goes on past a domain that is OFF, and it stays OFF; the marks of a wake stay. -/
theorem nextStep_off (hq : s.aon.seq = some q) (steps : q.steps = c :: r) (low : 9 ≤ c) (high : c ≤ 17) (once : c ∉ r)
    (quiet : s.aon.wakeDue = false) : (nextStep s).unitSt (c - 8) = s.unitSt (c - 8) ∧
      (nextStep s).aon.wakeFail = s.aon.wakeFail ∧ (nextStep s).aon.wakeStep = s.aon.wakeStep := by
  have tail : q.steps.tail = r := by rw [steps]; rfl
  by_cases last : r = []
  · obtain ⟨u, hu⟩ : ∃ u, u = seqDone { q with steps := q.steps.tail } (stepGone s) := ⟨_, rfl⟩
    have ended : u.aon.ended = (setAon (fun a => { a with seq := none }) (stepGone s)).aon.ended := by rw [hu, seqDone_ended]
    have fail : u.aon.ended.wakeFail = s.aon.ended.wakeFail := by rw [ended]; rfl
    have step : u.aon.ended.wakeStep = s.aon.ended.wakeStep := by rw [ended]; rfl
    rw [nextStep_last hq (tail.trans last), seqEnd_quiet (stepGone_seq hq) quiet, ← hu]
    exact ⟨(unitSt_of_ended ended _).trans rfl, fail, step⟩
  · obtain ⟨n, l, more⟩ := List.exists_cons_of_ne_nil last
    have keeps := nextStep_keeps hq low high (by rwa [tail]) (by rwa [tail])
    obtain ⟨u, hu⟩ : ∃ u, u = nextStep s := ⟨_, rfl⟩
    have plain : u.aon.plain = (stepGone s).aon.plain := by
      rw [hu, nextStep_more hq (by rwa [tail]), beginStep_plain (stepGone_seq hq) (tail.trans more)]
    rw [← hu] at keeps ⊢
    exact ⟨keeps, (plain_read (fun a => a.wakeFail) plain :), (plain_read (fun a => a.wakeStep) plain :)⟩

/-- The failure of a domain's step takes it OFF, with FAIL and the step's code. -/
theorem stepFail_off (hq : s.aon.seq = some q) (steps : q.steps = c :: r) (low : 9 ≤ c) (high : c ≤ 17) (once : c ∉ r)
    (quiet : s.aon.wakeDue = false) :
    (stepFail s).unitSt (c - 8) = .off ∧ (stepFail s).aon.wakeFail = true ∧ (stepFail s).aon.wakeStep = c := by
  obtain ⟨m, hm⟩ : ∃ m, m = markFail c s := ⟨_, rfl⟩
  obtain ⟨w, hw⟩ : ∃ w, w = domainLeft c m := ⟨_, rfl⟩
  have mq : m.aon.seq = some { q with failed := true } := by rw [hm, markFail_seq hq]
  have marked : m.aon.bare = (failMarked c s).aon.bare := by rw [hm, markFail_bare]
  have wakes : w.aon.wakeDue = m.aon.bare.wakeDue ∧ w.aon.wakeFail = m.aon.bare.wakeFail ∧ w.aon.wakeStep = m.aon.bare.wakeStep := by
    have plain : (domainOff c m).aon.plain = m.aon.plain := (setUnit_plain _ _ _).trans (plain_of_bare (shed_bare _ _ m))
    rw [hw]
    exact ⟨plain_read (fun a => a.wakeDue) plain, plain_read (fun a => a.wakeFail) plain, plain_read (fun a => a.wakeStep) plain⟩
  have off : w.unitSt (c - 8) = .off := by
    rw [hw]
    exact setUnit_unitSt_same (mem_unitCodes.mpr (.inl (by omega))) .off _
  obtain ⟨due, fail, step⟩ := wakes
  obtain ⟨p, l, pq, left, fewer⟩ := domainLeft_seq mq steps
  rw [← hw] at pq
  rw [marked] at due fail step
  rw [stepFail_domain hq steps low, ← hm, ← hw]
  obtain ⟨unit, fail', step'⟩ := nextStep_off pq left low high (fun h => once (fewer c h)) (due.trans quiet)
  exact ⟨unit.trans off, fail'.trans fail, step'.trans step⟩

/-! Entries into RET (R446). -/

/-- Phase 2 begins, or the sequence ends, and a unit it does not bring stays as it is. -/
theorem bringUp_keeps (hq : s.aon.seq = some q) (known : d ∈ unitCodes) (other : d ∉ q.bring) (quiet : s.aon.wakeDue = false) :
    (bringUp s).unitSt d = s.unitSt d := by
  have up : bringUp s = if (stepsFor q s).isEmpty then seqEnd s else
      beginStep (setSeq (fun p => { p with steps := stepsFor q s }) s) := by simp only [bringUp, hq]
  rw [up]
  split
  · rw [seqEnd_quiet hq quiet, seqDone_unitSt]
  · next some_ =>
    obtain ⟨n, l, steps⟩ := List.exists_cons_of_ne_nil fun none => some_ (List.isEmpty_iff.mpr none)
    have vq : (setSeq (fun p => { p with steps := stepsFor q s }) s).aon.seq = some { q with steps := stepsFor q s } := by
      simp [setSeq, hq]
    rw [beginStep_unitSt vq steps known, if_neg, if_neg]
    · rfl
    · exact fun h => other h.2.2.1
    · exact fun h => other (h.2 ▸ stepDom_of_mem_stepsFor (s := s) (by rw [steps]; exact List.mem_cons_self) h.1)

theorem execRetEntryDone_last (hq : s.aon.seq = some q) (d : Fin 32) (waits : q.retWait = [d.val]) (last : q.leave = [])
    (other : d.val ∉ q.bring) (known : d.val ∈ unitCodes) (quiet : s.aon.wakeDue = false) :
    ∃ t, execRetEntryDone d s = .next t ∧ t.unitSt d.val = .ret := by
  obtain ⟨u, hu⟩ : ∃ u, u = takeRetCrc d.val (changed d.val false (setUnit d.val .ret s)) := ⟨_, rfl⟩
  have kept : u.aon.bare = (setUnit d.val .ret s).aon.bare := by rw [hu, takeRetCrc_bare, changed_bare]
  have ret : u.unitSt d.val = .ret := (unitSt_of_bare kept _).trans (setUnit_unitSt_same known .ret s)
  have plain : u.aon.plain = s.aon.plain := (plain_of_bare kept).trans (setUnit_plain _ _ s)
  obtain ⟨p, pq, same⟩ := seq_of_plain plain hq
  have bring : p.bring = q.bring := seqPlain_read (fun q => q.bring) same
  obtain ⟨v, hv⟩ : ∃ v, v = setSeq (fun q => { q with leave := [] }) (setSeq (fun q => { q with retWait := [] }) u) := ⟨_, rfl⟩
  have vq : v.aon.seq = some { p with leave := [], retWait := [] } := by
    rw [hv]
    simp [setSeq, pq]
  have run : execRetEntryDone d s = .next (bringUp v) := by
    have mine : ¬ (!q.retWait.contains d.val) = true := by simp [waits]
    unfold execRetEntryDone
    rw [hq]
    dsimp only
    rw [if_neg mine, last, hv, hu]
    rfl
  have due : v.aon.wakeDue = false := by
    rw [hv]
    exact (plain_read (fun a => a.wakeDue) plain).trans quiet
  refine ⟨_, run, (bringUp_keeps vq known (by simpa [bring] using other) due).trans ?_⟩
  rw [hv]
  exact ret

/-! The wake as a whole. -/

theorem startWake_begins (held : s.aon.held = false) (por : s.aon.porHold = false) (idle : s.aon.seq = none)
    (due : ∃ c ∈ unitCodes, bit s.aon.wakeSet c = true ∧ s.unitSt c ≠ .on) : ∃ q, (startWake s).aon.seq = some q ∧
      q.kind = .wake ∧ q.bring = (wakeSeq s).bring ∧ q.steps ≠ [] ∧ SameRegisters s (startWake s) ∧ SameGallery s (startWake s) := by
  obtain ⟨c, hc, named, down⟩ := due
  have some_ : (wakeSeq s).steps ≠ [] :=
    stepsFor_some (q := { kind := .wake, bring := (wakeSeq s).bring }) (mem_wakeSeq_bring.mpr ⟨hc, named, down⟩) hc s
  obtain ⟨n, r, steps⟩ := List.exists_cons_of_ne_nil some_
  obtain ⟨t, ht⟩ : ∃ t, t = beginStep (wakeSet s) := ⟨_, rfl⟩
  have plain : t.aon.plain = (wakeSet s).aon.plain := by rw [ht, beginStep_plain (q := wakeSeq s) rfl steps]
  obtain ⟨q, hq, same⟩ := seq_of_plain (q := wakeSeq s) plain rfl
  rw [startWake_runs held por idle, wakeRun_begins some_, ← ht]
  refine ⟨q, hq, seqPlain_read (fun q => q.kind) same, seqPlain_read (fun q => q.bring) same, ?_, ?_, ?_⟩
  · have first : q.steps = (wakeSeq s).steps := seqPlain_read (fun q => q.steps) same
    rw [first]
    exact some_
  · rw [ht]
    exact ⟨by simp only [beginStep_frame]; rfl, by simp only [beginStep_frame]; rfl⟩
  · rw [ht]
    exact fun a => congrArg (memRead · a) (by simp only [beginStep_frame]; rfl)

theorem startWake_other (held : s.aon.held = false) (por : s.aon.porHold = false) (hq : s.aon.seq = some q) : startWake s =
    if q.kind == .wake then s else setAon (fun a => { a with wakeDue := true }) s := by
  simp [startWake, held, por, hq]

/-- What the end of step code `c` brings. -/
structure Brings (s t : State) (q : PowerSeq) (c : Nat) (ref : Fin 4) : Prop where
  buck0 : c = 2 → t.aon.bk0Ok = true ∧ t.aon.freqUse = s.aon.buckFreq ∧ t.aon.ilim0Use = s.aon.ilim0
  buck1 : c = 3 → t.aon.bk1Ok = true ∧ t.aon.freqUse = s.aon.buckFreq ∧ t.aon.ilim1Use = s.aon.ilim1
  banks : c = 0 ∨ c = 4 → ∀ g < 16, ∀ b, (16 + g, b) ∈ q.took → s.bankSt g = .trans → t.bankSt g = .on
  reference : c = 7 → t.tb.refRate = ref.val
  timebase : c = 8 → t.unitSt 0 = .on

theorem stepEffect_brings (hq : s.aon.seq = some q) (bad : Word) (ref : Fin 4) :
    Brings s (stepEffect c bad ref s) q c ref where
  buck0 two := by subst two; exact ⟨rfl, rfl, rfl⟩
  buck1 three := by subst three; exact ⟨rfl, rfl, rfl⟩
  banks checks g hg b took going := stepEffect_banks checks hq bad ref hg took going
  reference seven := by subst seven; rfl
  timebase eight := by
    subst eight
    exact ((arriveAt_units (d := 0) (by decide) 0
      (s := { s with tb := { s.tb with gross := s.tb.gross && !s.resetting .timebase } }) (fun h => absurd h (by decide))).1 0)

/-- A step that begins takes no bank that is ON. -/
theorem beginStep_bank (hq : s.aon.seq = some q) (steps : q.steps = n :: r) (few : n ≤ 17) {g : Nat} (hg : g < 16)
    (on : s.bankSt g = .on) : (beginStep s).bankSt g = .on := by
  have last := stepDom_le few
  have up : s.unitSt (16 + g) = .on := (unitSt_bank g s).trans on
  rw [← unitSt_bank, beginStep_unitSt hq steps (mem_unitCodes.mpr (.inr (by omega))), if_neg (by omega), if_neg fun h => h.2.2.2 up, up]

/-- A step that begins takes TIMEBASE with step code 4 alone. -/
theorem beginStep_timebase (hq : s.aon.seq = some q) (steps : q.steps = n :: r) (other : n ≠ 4) :
    (beginStep s).unitSt 0 = s.unitSt 0 := by
  rw [beginStep_unitSt hq steps (by decide), if_neg, if_neg (by omega)]
  rintro ⟨named, own⟩
  unfold stepDom at own
  split at own <;> omega

/-- What a step has brought stands as the next one begins, but for TIMEBASE where that is step code 4. -/
theorem beginStep_brings {p : PowerSeq} {ref : Fin 4} (brings : Brings s t q c ref) (ht : t.aon.seq = some p) (steps : p.steps = n :: r)
    (few : n ≤ 17) : let u := beginStep t
    (c = 2 → u.aon.bk0Ok = true ∧ u.aon.freqUse = s.aon.buckFreq ∧ u.aon.ilim0Use = s.aon.ilim0) ∧
    (c = 3 → u.aon.bk1Ok = true ∧ u.aon.freqUse = s.aon.buckFreq ∧ u.aon.ilim1Use = s.aon.ilim1) ∧
    (c = 0 ∨ c = 4 → ∀ g < 16, ∀ b, (16 + g, b) ∈ q.took → s.bankSt g = .trans → u.bankSt g = .on) ∧
    (c = 7 → u.tb.refRate = ref.val) ∧ (c = 8 → n ≠ 4 → u.unitSt 0 = .on) := by
  obtain ⟨u, hu⟩ : ∃ u, u = beginStep t := ⟨_, rfl⟩
  have plain : u.aon.plain = t.aon.plain := by rw [hu, beginStep_plain ht steps]
  have bk0 : u.aon.bk0Ok = t.aon.bk0Ok := plain_read (fun a => a.bk0Ok) plain
  have bk1 : u.aon.bk1Ok = t.aon.bk1Ok := plain_read (fun a => a.bk1Ok) plain
  have freq : u.aon.freqUse = t.aon.freqUse := plain_read (fun a => a.freqUse) plain
  have ilim0 : u.aon.ilim0Use = t.aon.ilim0Use := plain_read (fun a => a.ilim0Use) plain
  have ilim1 : u.aon.ilim1Use = t.aon.ilim1Use := plain_read (fun a => a.ilim1Use) plain
  have tb : u.tb = t.tb := by rw [hu]; simp only [beginStep_frame]
  dsimp only
  rw [← hu]
  refine ⟨fun two => ?_, fun three => ?_, fun checks g hg b took going => ?_, fun seven => ?_, fun eight other => ?_⟩
  · rw [bk0, freq, ilim0]
    exact brings.buck0 two
  · rw [bk1, freq, ilim1]
    exact brings.buck1 three
  · rw [hu]
    exact beginStep_bank ht steps few hg (brings.banks checks g hg b took going)
  · rw [tb]
    exact brings.reference seven
  · rw [hu, beginStep_timebase ht steps other]
    exact brings.timebase eight

/-- The step that begins takes its domain and, with the banks' switches, every bank that is not ON. -/
theorem beginStep_takes_units (hq : s.aon.seq = some q) (steps : q.steps = n :: r) (few : n ≤ 17) :
    (n = 4 ∨ 9 ≤ n → (beginStep s).unitSt (stepDom n) = .trans) ∧
    (n = 0 ∨ n = 4 → ∀ g < 16, 16 + g ∈ q.bring → (beginStep s).bankSt g = .on ∨ (beginStep s).bankSt g = .trans) := by
  have last := stepDom_le few
  refine ⟨fun named => ?_, fun switches g hg brought => ?_⟩
  · rw [beginStep_unitSt hq steps (mem_unitCodes.mpr (.inl (by omega))), if_pos ⟨named, rfl⟩]
  · rw [← unitSt_bank, beginStep_unitSt hq steps (mem_unitCodes.mpr (.inr (by omega))), if_neg (by omega)]
    by_cases on : s.unitSt (16 + g) = .on
    · rw [if_neg fun h => h.2.2.2 on]
      exact .inl on
    · rw [if_pos ⟨switches.symm, by omega, brought, on⟩]
      exact .inr rfl

end Sys2Proof.Machine

open Sys2Proof.Machine in
/-- Settles O29: from which units a step takes as it begins and which it brings as it ends. -/
theorem wakeSequence : Obligations.WakeSequence := by
  unfold Obligations.WakeSequence
  refine fun s held por => ⟨fun idle due => ?_, fun q hq wake => ?_, fun q hq other => ?_,
    fun q c n r bad ref hq steps shared few => ⟨fun measured => ?_, fun seven wake quiet => ?_⟩,
    fun q c r hq steps low high once => ⟨fun bad ref stays => ?_, fun quiet => ?_⟩,
    fun q d hq waits last other known quiet => execRetEntryDone_last hq d waits last other known quiet⟩
  · obtain ⟨q, hq, kind, bring, steps, regs, bytes⟩ := startWake_begins held por idle due
    exact ⟨_, q, rfl, hq, kind, bring, steps, regs, bytes⟩
  · exact congrArg Host.Outcome.next ((startWake_other held por hq).trans (if_pos (by simp [wake])))
  · exact congrArg Host.Outcome.next ((startWake_other held por hq).trans (if_neg (by simp [other])))
  · obtain ⟨t, v, run, ⟨f, l, effect, least, most⟩, ⟨p, vq, left, kind, bring, early, late⟩, begins⟩ :=
      execWakeStepDone_stepsOn hq steps shared bad measured
    obtain ⟨w, hw⟩ : ∃ w : State, w = { s with freeCtr := f, aon := { s.aon with seq := some { q with time := l } } } := ⟨_, rfl⟩
    rw [← hw] at effect
    have wq : w.aon.seq = some { q with time := l } := by rw [hw]
    have brings : Brings s v q c ref := by
      obtain ⟨buck0, buck1, banks, reference, timebase⟩ := stepEffect_brings (c := c) wq bad ref
      rw [effect]
      rw [hw] at *
      exact ⟨buck0, buck1, banks, reference, timebase⟩
    have plain : t.aon.plain = v.aon.plain := by rw [begins, beginStep_plain vq left]
    obtain ⟨q', tq, same⟩ := seq_of_plain plain vq
    obtain ⟨buck0, buck1, banks, reference, timebase⟩ := beginStep_brings brings vq left few
    obtain ⟨takes, closes⟩ := beginStep_takes_units vq left few
    rw [← begins] at buck0 buck1 banks reference timebase takes closes
    have steps' : q'.steps = p.steps := seqPlain_read (fun q => q.steps) same
    have kind' : q'.kind = p.kind := seqPlain_read (fun q => q.kind) same
    have bring' : q'.bring = p.bring := seqPlain_read (fun q => q.bring) same
    have time' : q'.time = p.time := seqPlain_read (fun q => q.time) same
    refine ⟨t, q', run, tq, steps'.trans left, kind'.trans kind, bring'.trans bring, ?_, ?_, buck0, buck1, banks, reference, timebase,
      takes, bring ▸ closes⟩
    · rw [time']
      exact early
    · rw [time']
      exact late
  · subst seven
    exact execWakeStepDone_unreferenced hq steps wake quiet bad
  · exact execWakeStepDone_arrives hq steps low high once bad ref stays
  · exact ⟨_, rfl, stepFail_off hq steps low high once quiet⟩

end

section
/-! NVM_STORE, NVM_LOAD and the reports of NVM (R490, R494 to R497, R517). -/

namespace Sys2Proof.Machine

open Sys2Proof

variable {s t : State} {p : ParamSet}

/-! NVM_STORE (R495). -/

/-- The generation and the copy of the next set, and its contents. -/
def nextSet (s : State) : Bool × ParamSet :=
  (match s.newestSet with
    | some x => !x.1
    | none => false,
   { gen := match s.newestSet with
      | some x => (x.2.gen + 1) % 2 ^ 32
      | none => 1
     regs := setRegs s, images := s.cells.toList.map (·.image) })

theorem execNvmStore_stores (runs : s.Runs) (on : s.isOn .nvm = true) (free : s.setBusy = false) : execNvmStore [] s =
    .next (reply .accepted [BitVec.ofNat 32 (nextSet s).2.gen] (nvmWrite 0x01 0 (.param (nextSet s).1 (nextSet s).2) .store s)) := by
  have isOn : ¬ (!s.isOn .nvm) = true := by simp [on]
  have idle : ¬ s.setBusy = true := by simp [free]
  exact congrArg Host.Outcome.next ((command_runs runs _ rfl).trans ((if_neg isOn).trans (if_neg idle)))

theorem nextSet_gen (s : State) : (nextSet s).2.gen = (s.newestSet.map fun x => (x.2.gen + 1) % 2 ^ 32).getD 1 := by
  unfold nextSet
  cases s.newestSet <;> rfl

/-! NVM_LOAD (R496). -/

theorem execNvmLoad_named (runs : s.Runs) (on : s.isOn .nvm = true) (free : s.setBusy = false) {w0 : Word} (known : fld w0 0 2 ≠ 3)
    (named : s.namedSet (fld w0 0 2) = some p) :
    execNvmLoad [w0] s = .next (loadReply (if (applySet p s).1 = .ok then p.gen else 0) (applySet p s)) := by
  have isOn : ¬ (!s.isOn .nvm) = true := by simp [on]
  have idle : ¬ s.setBusy = true := by simp [free]
  refine congrArg Host.Outcome.next ((command_runs runs _ rfl).trans ((if_neg isOn).trans ((if_neg known).trans ((if_neg idle).trans ?_))))
  have word : wd [w0] 0 = w0 := rfl
  rw [word, named]

theorem execNvmLoad_none (runs : s.Runs) (on : s.isOn .nvm = true) (free : s.setBusy = false) {w0 : Word} (known : fld w0 0 2 ≠ 3)
    (absent : s.namedSet (fld w0 0 2) = none) :
    execNvmLoad [w0] s = .next (loadReply 0 (.nvmFail, 0xFFFFFF, cfgResult .nvmFail 0xFFFFFF s)) := by
  have isOn : ¬ (!s.isOn .nvm) = true := by simp [on]
  have idle : ¬ s.setBusy = true := by simp [free]
  refine congrArg Host.Outcome.next ((command_runs runs _ rfl).trans ((if_neg isOn).trans ((if_neg known).trans ((if_neg idle).trans ?_))))
  have word : wd [w0] 0 = w0 := rfl
  rw [word, absent]

/-- The write of the units of a set that differ, with no pending value beside them. -/
def setWrite (p : ParamSet) (s : State) : Status × State := cfgWrite ((setUnits p s).flatMap (·.2)) { s with pend := [] }

/-- A set that can be applied as a whole. -/
def SetFits (p : ParamSet) (s : State) : Prop :=
  (setWrite p s).1 = .ok ∧ (configJudge (setWrite p s).2).1 = .ok ∧ ∀ x ∈ setImages p s, s.hallOn (x.1 / 21) = true

/-- The commit of a set. -/
def setCommit (p : ParamSet) (s : State) : Status × Nat × State :=
  if (setWrite p s).1 = .ok then commit false (setWrite p s).2 else ((setWrite p s).1, 0xFFFFFF, (setWrite p s).2)

/-- The status of a set. -/
def setStatus (p : ParamSet) (s : State) : Status :=
  firstStatus (setCommit p s).1 (if (setImages p s).any fun x => !s.hallOn (x.1 / 21) then .domainOff else .ok)

/-- The device's copies of images, before any transfer. -/
def holdImages (imgs : List (Nat × List Byte)) (s : State) : State :=
  each imgs (fun x s => s.setCell x.1 fun c => { c with image := x.2 }) s

/-- Images held and sent, with the transfers that waited. -/
def applyImages (imgs : List (Nat × List Byte)) (s : State) : State :=
  each ((List.range 63).filter fun k => ((holdImages imgs s).cell k).imgDue || (imgs.map (·.1)).contains k) startTransfer
    (holdImages imgs s)

theorem applySet_eq (p : ParamSet) (s : State) : applySet p s =
    if setStatus p s ≠ .ok then (setStatus p s, (setCommit p s).2.1, cfgResult (setStatus p s) (setCommit p s).2.1 s)
    else (.ok, (setCommit p s).2.1, applyImages (setImages p s) (setCommit p s).2.2) := rfl

theorem setStatus_halls (p : ParamSet) (s : State) :
    (if (setImages p s).any fun x => !s.hallOn (x.1 / 21) then Status.domainOff else .ok) = .ok ↔
      ∀ x ∈ setImages p s, s.hallOn (x.1 / 21) = true := by
  cases off : (setImages p s).any fun x => !s.hallOn (x.1 / 21)
  · simpa using off
  · obtain ⟨x, hx, down⟩ := List.any_eq_true.mp off
    simp only [if_true, reduceCtorEq, false_iff]
    exact fun all => by simp [all x hx] at down

theorem setCommit_ok (p : ParamSet) (s : State) :
    (setCommit p s).1 = .ok ↔ (setWrite p s).1 = .ok ∧ (configJudge (setWrite p s).2).1 = .ok := by
  unfold setCommit
  split
  · next written => simp [commit, written]
  · next refused => simp [refused]

/-- A set is applied where it fits, and only there. -/
theorem setStatus_ok (p : ParamSet) (s : State) : setStatus p s = .ok ↔ SetFits p s := by
  constructor
  · intro ok
    obtain ⟨committed, halls⟩ := firstStatus_eq_ok ok
    obtain ⟨written, judge⟩ := (setCommit_ok p s).mp committed
    exact ⟨written, judge, (setStatus_halls p s).mp halls⟩
  · rintro ⟨written, judge, halls⟩
    rw [setStatus, (setCommit_ok p s).mpr ⟨written, judge⟩, (setStatus_halls p s).mpr halls]
    rfl

/-- What a commit of a set that fits leaves. -/
abbrev setCommitted (p : ParamSet) (s : State) : State := commitAll (cfgResult .ok 0xFFFFFF (setWrite p s).2)

theorem applySet_fits (fits : SetFits p s) :
    applySet p s = (.ok, 0xFFFFFF, applyImages (setImages p s) (setCommitted p s)) := by
  have ok := (setStatus_ok p s).mpr fits
  obtain ⟨written, judge, -⟩ := fits
  have committed : setCommit p s = (.ok, 0xFFFFFF, setCommitted p s) := by
    rw [setCommit, if_pos written, commit, configJudge_ok judge, judge]
    rfl
  rw [applySet_eq, if_neg (not_not_intro ok), committed]

theorem applySet_refused (unfit : ¬ SetFits p s) : applySet p s =
    (setStatus p s, (setCommit p s).2.1, cfgResult (setStatus p s) (setCommit p s).2.1 s) := by
  rw [applySet_eq, if_pos fun ok => unfit ((setStatus_ok p s).mp ok)]

/-! Images (R276, R496). -/

theorem each_startTransfer_only (l : List Nat) (s : State) :
    each l startTransfer s = { s with cells := (each l startTransfer s).cells } :=
  each_inv (Q := fun t => t = { s with cells := t.cells }) l startTransfer s
    (fun k t h => by rw [startTransfer_only k t, h]) rfl

theorem each_startTransfer_others (l : List Nat) {k : Nat} (other : k ∉ l) (s : State) : (each l startTransfer s).cell k = s.cell k :=
  each_keep_mem (fun s : State => s.cell k) fun j hj u => startTransfer_others (fun same : k = j => other (same ▸ hj)) u

theorem each_startTransfer_image (l : List Nat) (k : Nat) (s : State) :
    ((each l startTransfer s).cell k).image = (s.cell k).image :=
  each_keep (fun s => (s.cell k).image) l startTransfer s fun j u => by
    by_cases same : k = j
    · subst same
      exact startTransfer_image k u
    · rw [startTransfer_others same]

theorem holdImages_only (imgs : List (Nat × List Byte)) (s : State) :
    holdImages imgs s = { s with cells := (holdImages imgs s).cells } :=
  each_inv (Q := fun t => t = { s with cells := t.cells }) imgs _ s (fun x t h => by rw [State.setCell, h]) rfl

theorem applyImages_only (imgs : List (Nat × List Byte)) (s : State) :
    applyImages imgs s = { s with cells := (applyImages imgs s).cells } := by
  unfold applyImages
  rw [each_startTransfer_only]
  generalize (each _ startTransfer (holdImages imgs s)).cells = c
  rw [holdImages_only]

theorem holdImages_others {imgs : List (Nat × List Byte)} {k : Nat} (other : k ∉ imgs.map (·.1)) (s : State) :
    (holdImages imgs s).cell k = s.cell k :=
  each_keep_mem (fun s : State => s.cell k) fun z hz u =>
    setCell_cell_ne u z.1 k _ fun same : z.1 = k => other (same ▸ List.mem_map_of_mem hz)

/-- Each image is held where the list names its cell once. -/
theorem holdImages_image {imgs : List (Nat × List Byte)} (once : (imgs.map (·.1)).Nodup) {x : Nat × List Byte} (hx : x ∈ imgs)
    (cell : x.1 < 63) (s : State) : ((holdImages imgs s).cell x.1).image = x.2 := by
  induction imgs generalizing s with
  | nil => cases hx
  | cons y l ih =>
    obtain ⟨first, rest⟩ := List.nodup_cons.mp once
    change ((holdImages l (s.setCell y.1 fun c => { c with image := y.2 })).cell x.1).image = x.2
    rcases List.mem_cons.mp hx with rfl | later
    · rw [holdImages_others first, setCell_cell_same _ _ _ cell]
    · exact ih rest later _

theorem setImages_once (p : ParamSet) (s : State) : ((setImages p s).map (·.1)).Nodup ∧ ∀ x ∈ setImages p s, x.1 < 63 := by
  have cells : ((List.range 63).map fun k => (k, p.images.getD k [])).map Prod.fst = List.range 63 :=
    List.map_map.trans (List.map_id _)
  refine ⟨?_, fun x hx => ?_⟩
  · refine List.Nodup.sublist (List.Sublist.map Prod.fst List.filter_sublist) ?_
    rw [cells]
    exact List.nodup_range
  · have mem := List.mem_map_of_mem (f := Prod.fst) (List.mem_of_mem_filter hx)
    rw [cells] at mem
    exact List.mem_range.mp mem

theorem applyImages_image (p : ParamSet) (s : State) {x : Nat × List Byte} (hx : x ∈ setImages p s) (u : State) :
    ((applyImages (setImages p s) u).cell x.1).image = x.2 := by
  obtain ⟨once, cells⟩ := setImages_once p s
  rw [applyImages, each_startTransfer_image, holdImages_image once hx (cells x hx)]

/-- Without an image to hold only cells whose transfer waits change. -/
theorem applyImages_none {k : Nat} (s : State) (still : (s.cell k).imgDue = false) : (applyImages [] s).cell k = s.cell k := by
  refine each_startTransfer_others _ (fun h => ?_) _
  have due : (s.cell k).imgDue = true := by simpa [holdImages, each] using (List.mem_filter.mp h).2
  simp [still] at due

/-! A set equal to what stands. -/

theorem setWrite_same (units : setUnits p s = []) : setWrite p s = (.ok, { s with pend := [] }) := by
  rw [setWrite, units]
  rfl

theorem setFits_same (units : setUnits p s = []) (images : setImages p s = []) : SetFits p s := by
  rw [SetFits, setWrite_same units, images]
  exact ⟨rfl, rfl, by simp⟩

theorem commitAll_idle (idle : s.pend = []) : (commitAll s).cells = s.cells ∧ (commitAll s).cfg = s.cfg := by
  refine ⟨?_, ?_⟩
  · simp only [commitAll, idle, each, List.foldl_nil, endWrites_frame, applyPend]
  · simp only [(commitAll_cfg s).1, applyPend, idle, List.foldl_nil]

/-! The reports (R497, R517). -/

theorem execNvmStatus_reports (runs : s.Runs) (on : s.isOn .nvm = true) : execNvmStatus [] s = .next (reply .ok [nvmStatus s, nvmLog s,
    BitVec.ofNat 32 ((s.paramSet false).map (·.gen) |>.getD 0), BitVec.ofNat 32 ((s.paramSet true).map (·.gen) |>.getD 0),
    BitVec.ofNat 32 (s.nvm.recs.foldl (fun a r => max a r.serial) 0), s.reg 0x70008] s) := by
  have isOn : ¬ (!s.isOn .nvm) = true := by simp [on]
  have gens : ∀ o : Option ParamSet, (match o with | some p => BitVec.ofNat 32 p.gen | none => (0 : Word)) =
      BitVec.ofNat 32 ((o.map (·.gen)).getD 0) := fun o => by cases o <;> rfl
  refine congrArg Host.Outcome.next ((command_runs runs _ rfl).trans ((if_neg isOn).trans ?_))
  rw [← gens, ← gens] <;> rfl

/-- The fault-log records from a serial on. -/
def logFrom (w0 : Word) (s : State) : List NvmRec :=
  s.logRecords.filter fun r => w0 == 0xFFFFFFFF#32 || decide (w0.toNat ≤ r.serial)

theorem execLogRead_all (runs : s.Runs) (on : s.isOn .nvm = true) {w0 w1 : Word} (some_ : fld w1 0 8 ≠ 0)
    (few : (logFrom w0 s).length ≤ fld w1 0 8) (fits : 7 * (logFrom w0 s).length + 2 ≤ s.replyLimit) : execLogRead [w0, w1] s = .next
      (reply .ok ([BitVec.ofNat 32 (logFrom w0 s).length, 0xFFFFFFFF#32] ++ (logFrom w0 s).flatMap logWords) s) := by
  have isOn : ¬ (!s.isOn .nvm) = true := by simp [on]
  have first : (w0.toNat == 0xFFFFFFFF) = (w0 == 0xFFFFFFFF#32) := by
    rw [Bool.eq_iff_iff, beq_iff_eq, beq_iff_eq]
    exact ⟨fun h => BitVec.eq_of_toNat_eq h, fun h => h ▸ rfl⟩
  have all : (logFrom w0 s).length ≤ min (fld w1 0 8) ((s.replyLimit - 2) / 7) := by omega
  refine congrArg Host.Outcome.next ((command_runs runs _ rfl).trans ((if_neg isOn).trans ((if_neg some_).trans ?_)))
  have words : wd [w0, w1] 0 = w0 ∧ wd [w0, w1] 1 = w1 := ⟨rfl, rfl⟩
  dsimp only
  rw [words.1, words.2, first]
  change reply .ok ([BitVec.ofNat 32 ((logFrom w0 s).take _).length, match (logFrom w0 s)[_]? with
    | some (r : NvmRec) => BitVec.ofNat 32 r.serial
    | none => 0xFFFFFFFF#32] ++ ((logFrom w0 s).take _).flatMap logWords) s = _
  rw [List.take_of_length_le all, List.getElem?_eq_none all]

end Sys2Proof.Machine
end

section
/-! Page programs, erases and NVM as a whole (R491 to R494). -/

namespace Sys2Proof.Machine

open Sys2Proof

variable {s t : State} {j : NvmJob} {r : List NvmJob}

/-- What an operation of NVM leaves of AON's sequence, of NVM's stay ON, of the registers and of the Gallery. -/
structure NvmQuiet (s t : State) : Prop where
  seq : t.aon.seq = s.aon.seq
  due : t.nvm.offDue = s.nvm.offDue
  regs : SameRegisters s t
  bytes : SameGallery s t

theorem nvmStart_quiet (s : State) : NvmQuiet s (nvmStart s) :=
  ⟨by simp, (nvmStart_gates s).2, by simp [SameRegisters], by simp [SameGallery]⟩

theorem raise_quiet (e : Nat) (w : Word) (s : State) : NvmQuiet s (raise e w s) :=
  ⟨by simp, by simp, by simp [SameRegisters], by simp [SameGallery]⟩

theorem NvmQuiet.trans {u : State} (h : NvmQuiet s t) (h' : NvmQuiet t u) : NvmQuiet s u where
  seq := h'.seq.trans h.seq
  due := h'.due.trans h.due
  regs := ⟨h'.regs.1.trans h.regs.1, h'.regs.2.trans h.regs.2⟩
  bytes a := (h'.bytes a).trans (h.bytes a)

theorem setNvm_quiet {f : Nvm → Nvm} (due : (f s.nvm).offDue = s.nvm.offDue) : NvmQuiet s (setNvm f s) :=
  ⟨rfl, due, ⟨rfl, rfl⟩, fun _ => rfl⟩

theorem takeSpare_quiet (x : Nat) (s : State) : NvmQuiet s (takeSpare x s) := by
  unfold takeSpare
  dsimp only
  split
  · exact ((setNvm_quiet rfl).trans (setNvm_quiet rfl)).trans (raise_quiet _ _ _)
  · exact setNvm_quiet rfl

/-- A spare sector taken: one fewer, and neither the queue nor the records change. -/
theorem takeSpare_nvm (x : Nat) (s : State) : (takeSpare x s).nvm.spare = s.nvm.spare - 1 ∧ (takeSpare x s).nvm.jobs = s.nvm.jobs ∧
    (takeSpare x s).nvm.recs = s.nvm.recs ∧ (takeSpare x s).nvm.erasing = s.nvm.erasing := by
  unfold takeSpare
  dsimp only
  split
  · simp only [raise_frame]
    exact ⟨rfl, rfl, rfl, rfl⟩
  · exact ⟨rfl, rfl, rfl, rfl⟩

/-! Page programs (R491, R493). -/

/-- The end of a page program with no sequence under way and no shutdown due is the page's alone. -/
theorem execNvmProgramDone_page (ok : Bool) (idle : s.aon.seq = none) (stays : s.nvm.offDue = false)
    (quiet : NvmQuiet s (pageDone ok s)) : execNvmProgramDone ok s = .next (pageDone ok s) := by
  obtain ⟨t, ht⟩ : ∃ t, t = pageDone ok s := ⟨_, rfl⟩
  rw [← ht] at quiet
  have on : nvmDue t = t := if_neg (by simp [quiet.due, stays])
  change Host.Outcome.next (journalled (nvmDue (pageDone ok s))) = _
  rw [← ht, on, journalled_idle (quiet.seq.trans idle)]

theorem pageDone_running (jobs : s.nvm.jobs = j :: r) (busy : s.nvm.busy = true) (on : s.isOn .nvm = true) (ok : Bool) :
    pageDone ok s = if ok then pageWritten j r s else pageFailed j r s := by
  unfold pageDone
  rw [jobs]
  exact if_neg (by simp [busy, on])

/-- A running record, its sector taken with its first page. -/
def jobStarted (j : NvmJob) (v : Nvm) : NvmJob :=
  if j.started then j else { j with started := true, record := { j.record with sector := jobSector j v } }

theorem jobStarted_record (j : NvmJob) (v : Nvm) : (jobStarted j v).record.serial = j.record.serial ∧
    (jobStarted j v).record.data = j.record.data ∧ (jobStarted j v).after = j.after := by
  unfold jobStarted
  split <;> exact ⟨rfl, rfl, rfl⟩

/-- A page has been written, and the queue stands at `l`. -/
def pageLeft (j : NvmJob) (l : List NvmJob) (s : State) : State :=
  setNvm (fun v => stepHead j.record.type { v with busy := false, jobs := l }) s

theorem stepHead_keeps (b : Byte) (v : Nvm) : (stepHead b v).jobs = v.jobs ∧ (stepHead b v).offDue = v.offDue := by
  unfold stepHead
  split
  · exact ⟨rfl, rfl⟩
  · dsimp only
    split
    · unfold clearAhead
      dsimp only
      split <;> exact ⟨rfl, rfl⟩
    · exact ⟨rfl, rfl⟩

theorem pageLeft_quiet (j : NvmJob) (l : List NvmJob) (s : State) : NvmQuiet s (pageLeft j l s) :=
  setNvm_quiet (stepHead_keeps _ _).2

theorem pageWritten_more (wanted : j.dropped = false) (more : 0 < j.pages) : pageWritten j r s =
    nvmStart (pageLeft j ({ jobStarted j s.nvm with pages := j.pages - 1, retried := false } :: r) s) := by
  unfold pageWritten
  dsimp only
  rw [if_neg (by simp [wanted]), if_pos more]
  rfl

theorem pageWritten_last (wanted : j.dropped = false) (last : j.pages = 0) : pageWritten j r s =
    nvmStart (commitRecord (jobStarted j s.nvm) (pageLeft j r s)) := by
  unfold pageWritten
  dsimp only
  rw [if_neg (by simp [wanted]), if_neg (by omega)]
  rfl

/-- A record that nothing waits for is among those held. -/
theorem commitRecord_held (silent : j.after = .none) (s : State) : ∃ x l, commitRecord j s = setNvm (fun v => { v with recs := x :: l }) s ∧
    x.serial = j.record.serial ∧ x.data = j.record.data := by
  unfold commitRecord recordDone
  rw [silent]
  exact ⟨_, _, rfl, rfl, rfl⟩

theorem pageFailed_again (wanted : j.dropped = false) (first : j.retried = false) (spare : 0 < s.nvm.spare) : pageFailed j r s =
    takeSpare (jobSector j s.nvm) (setNvm (fun v => { v with busy := !v.stop, jobs := { j with retried := true } :: r }) s) := by
  unfold pageFailed
  rw [if_neg (by simp [wanted]), if_neg (by simp [first]; omega)]

/-! Erases (R493, R494). -/

theorem eraseDone_erased {x : Nat} (erasing : s.nvm.erasing = some x) : eraseDone true s = nvmStart (sectorErased x s) := by
  simp only [eraseDone, erasing, if_true]

theorem eraseDone_again {x : Nat} (erasing : s.nvm.erasing = some x) (first : s.nvm.eraseRetried = false) (spare : 0 < s.nvm.spare) :
    eraseDone false s = takeSpare x (setNvm (fun v => { v with eraseRetried := true }) s) := by
  have again : ¬ (s.nvm.eraseRetried = true ∨ s.nvm.spare = 0) := by simp [first]; omega
  simp only [eraseDone, erasing, Bool.false_eq_true, if_false, if_neg again]

theorem sectorErased_nvm (x : Nat) (s : State) :
    (sectorErased x s).nvm.eraseCounts = tset s.nvm.eraseCounts x ((tget s.nvm.eraseCounts x).getD 0 + 1) ∧
      (sectorErased x s).nvm.recs = s.nvm.recs.filter (fun r => r.sector != x) ∧ SameRegisters s (sectorErased x s) ∧
      SameGallery s (sectorErased x s) := by
  unfold sectorErased
  dsimp only
  split <;> split <;> simp [SameRegisters, SameGallery, setNvm]

theorem nvmStart_eraseCounts (s : State) : (nvmStart s).nvm.eraseCounts = s.nvm.eraseCounts := by
  have erase : ∀ (v : Nvm) (x : Nat), (v.beginErase x).eraseCounts = v.eraseCounts := fun v x => by
    unfold Nvm.beginErase
    dsimp only
    split <;> rfl
  unfold nvmStart
  dsimp only
  split
  · rfl
  · split
    · exact erase _ _
    · split <;> rfl

/-! The commands of a set, as the obligation states them. -/

theorem nvmStore_queues (runs : s.Runs) (on : s.isOn .nvm = true) (free : s.setBusy = false) : ∃ t gen j, execNvmStore [] s = .next t ∧
    gen = (s.newestSet.map fun x => (x.2.gen + 1) % 2 ^ 32).getD 1 ∧
    t.reply = some { status := .accepted, words := [BitVec.ofNat 32 gen] } ∧ j ∈ t.nvm.jobs ∧ j.record.type = 0x01 ∧
    j.record.serial = (s.nvm.serial + 1) % 2 ^ 32 ∧ t = { s with reply := t.reply, nvm := t.nvm } := by
  have only := nvmWrite_only 0x01 0 (.param (nextSet s).1 (nextSet s).2) .store s
  have queued : ∃ j ∈ (nvmWrite 0x01 0 (.param (nextSet s).1 (nextSet s).2) .store s).nvm.jobs,
      j.record.type = 0x01 ∧ j.record.serial = (s.nvm.serial + 1) % 2 ^ 32 :=
    ⟨_, nvmStart_jobs (List.mem_append_right _ List.mem_cons_self), rfl, rfl⟩
  obtain ⟨j, mem, type, serial⟩ := queued
  refine ⟨_, (nextSet s).2.gen, j, execNvmStore_stores runs on free, nextSet_gen s, rfl, mem, type, serial, ?_⟩
  rw [only]
  rfl

/-- A set equal to what stands is loaded, and nothing changes but the pending values it drops. -/
theorem nvmLoad_same (runs : s.Runs) (on : s.isOn .nvm = true) (free : s.setBusy = false) {w0 : Word} {p : ParamSet}
    (known : fld w0 0 2 ≠ 3) (named : s.namedSet (fld w0 0 2) = some p) (units : setUnits p s = []) (images : setImages p s = []) :
    ∃ t, execNvmLoad [w0] s = .next t ∧ t.Replies .ok [BitVec.ofNat 32 p.gen, 0xFFFFFF#32] ∧ t.pend = [] ∧ t.cfg = s.cfg ∧
      (∀ k, (s.cell k).imgDue = false → t.cell k = s.cell k) ∧ SameGallery s t := by
  obtain ⟨u, hu⟩ : ∃ u, u = setCommitted p s := ⟨_, rfl⟩
  have only := applyImages_only (setImages p s) u
  rw [execNvmLoad_named runs on free known named, applySet_fits (setFits_same units images), ← hu, if_pos rfl]
  have base : u = commitAll (cfgResult .ok 0xFFFFFF { s with pend := [] }) := by rw [hu, setCommitted, setWrite_same units]
  obtain ⟨cells, cfg⟩ := commitAll_idle (s := cfgResult .ok 0xFFFFFF { s with pend := [] }) rfl
  have pend := (commitAll_cfg (cfgResult .ok 0xFFFFFF { s with pend := [] })).2
  have mem : (commitAll (cfgResult .ok 0xFFFFFF { s with pend := [] })).mem = s.mem := by simp [cfgResult]
  rw [← base] at cells cfg pend mem
  refine ⟨_, rfl, rfl, ?_, ?_, fun k still => ?_, fun a => ?_⟩
  · exact (congrArg State.pend only).trans pend
  · exact (congrArg State.cfg only).trans cfg
  · have cell : u.cell k = s.cell k := by
      rw [State.cell, cells]
      rfl
    rw [images]
    exact (applyImages_none u (by rw [cell, still])).trans cell
  · exact (congrArg (fun s => memRead s.mem a) only).trans (congrArg (memRead · a) mem)

/-- A set that fits is loaded as CFG_WRITE of its fields and one CFG_COMMIT, with its images. -/
theorem nvmLoad_fits (runs : s.Runs) (on : s.isOn .nvm = true) (free : s.setBusy = false) {w0 : Word} {p : ParamSet}
    (known : fld w0 0 2 ≠ 3) (named : s.namedSet (fld w0 0 2) = some p) (fits : SetFits p s) : let w := setWrite p s
    ∃ t, execNvmLoad [w0] s = .next t ∧ t.Replies .ok [BitVec.ofNat 32 p.gen, 0xFFFFFF#32] ∧ t.pend = [] ∧
      (∀ a v, (∃ x ∈ w.2.pend, x.1 = a) → (∀ x ∈ w.2.pend, x.1 = a → x.2 = v) → tget t.cfg a = some v) ∧
      (∀ a, (∀ x ∈ w.2.pend, x.1 ≠ a) → tget t.cfg a = tget w.2.cfg a) ∧
      (∀ x ∈ setImages p s, (t.cell x.1).image = x.2) ∧ SameGallery s t := by
  obtain ⟨w, hw⟩ : ∃ w, w = setWrite p s := ⟨_, rfl⟩
  obtain ⟨u, hu⟩ : ∃ u, u = setCommitted p s := ⟨_, rfl⟩
  have only := applyImages_only (setImages p s) u
  have images := fun x (hx : x ∈ setImages p s) => applyImages_image p s hx u
  obtain ⟨cfg, pend⟩ := commitAll_cfg (cfgResult .ok 0xFFFFFF w.2)
  have base : u = commitAll (cfgResult .ok 0xFFFFFF w.2) := by rw [hu, hw]
  have mem : u.mem = s.mem := by
    rw [base, hw]
    simp [cfgResult, setWrite]
  rw [← base] at cfg pend
  rw [execNvmLoad_named runs on free known named, applySet_fits fits, ← hu, if_pos rfl]
  dsimp only
  rw [← hw]
  refine ⟨_, rfl, rfl, ?_, fun a v written same => ?_, fun a other => ?_, images, fun a => ?_⟩
  · exact (congrArg State.pend only).trans pend
  · exact (congrArg (fun s => tget s.cfg a) only).trans ((congrArg (tget · a) cfg).trans (foldl_tset_set written same _))
  · exact (congrArg (fun s => tget s.cfg a) only).trans ((congrArg (tget · a) cfg).trans (foldl_tset_other other _))
  · exact (congrArg (fun s => memRead s.mem a) only).trans (congrArg (memRead · a) mem)

/-- A set that does not fit changes nothing but the result of a commit. -/
theorem nvmLoad_refused (runs : s.Runs) (on : s.isOn .nvm = true) (free : s.setBusy = false) {w0 : Word} {p : ParamSet}
    (known : fld w0 0 2 ≠ 3) (named : s.namedSet (fld w0 0 2) = some p) (unfit : ¬ SetFits p s) :
    ∃ t st a, execNvmLoad [w0] s = .next t ∧ st ≠ .ok ∧ t.Replies st [0, a] ∧
      t = { s with reply := t.reply, atr := { s.atr with cfgResult := t.atr.cfgResult, cfgAddr := t.atr.cfgAddr } } := by
  have bad : setStatus p s ≠ .ok := fun ok => unfit ((setStatus_ok p s).mp ok)
  rw [execNvmLoad_named runs on free known named, applySet_refused unfit, if_neg bad]
  exact ⟨_, _, _, rfl, bad, rfl, rfl⟩

end Sys2Proof.Machine

open Sys2Proof.Machine in
/-- Settles O36: the commands of a set by whether it fits, page programs and erases by what stays of the records. -/
theorem nonVolatileMemory : Obligations.NonVolatileMemory := by
  unfold Obligations.NonVolatileMemory
  refine ⟨fun s runs on => ⟨nvmStore_queues runs on, fun w0 p free known named => nvmLoad_same runs on free known named,
      fun w0 p free known named => ⟨nvmLoad_fits runs on free known named, nvmLoad_refused runs on free known named⟩,
      fun w0 free known absent => ⟨_, execNvmLoad_none runs on free known absent, rfl, ⟨rfl, rfl⟩, fun _ => rfl⟩,
      ⟨_, execNvmStatus_reports runs on, rfl⟩, fun w0 w1 some_ few fits => execLogRead_all runs on some_ few fits⟩,
    fun s on idle stays => ⟨fun j r jobs busy wanted => ⟨fun more => ?_, fun last silent => ?_, fun first spare => ?_⟩,
      fun x erasing => ?_, fun x erasing first spare => ?_⟩⟩
  · have page := (pageDone_running jobs busy on true).trans (pageWritten_more wanted more)
    have quiet := (pageLeft_quiet j ({ jobStarted j s.nvm with pages := j.pages - 1, retried := false } :: r) s).trans (nvmStart_quiet _)
    rw [← page] at quiet
    refine ⟨_, execNvmProgramDone_page true idle stays quiet, ⟨{ jobStarted j s.nvm with pages := j.pages - 1, retried := false },
      ?_, (jobStarted_record j s.nvm).1, rfl⟩, quiet.regs, quiet.bytes⟩
    rw [page]
    refine nvmStart_jobs ?_
    change _ ∈ (stepHead _ _).jobs
    rw [(stepHead_keeps _ _).1]
    exact List.mem_cons_self
  · have page := (pageDone_running jobs busy on true).trans (pageWritten_last wanted last)
    obtain ⟨serial, data, after⟩ := jobStarted_record j s.nvm
    obtain ⟨x, l, held, xs, xd⟩ := commitRecord_held (after.trans silent) (pageLeft j r s)
    rw [held] at page
    have quiet := ((pageLeft_quiet j r s).trans (setNvm_quiet (f := fun v => { v with recs := x :: l }) rfl)).trans (nvmStart_quiet _)
    rw [← page] at quiet
    refine ⟨_, execNvmProgramDone_page true idle stays quiet, ⟨x, ?_, xs.trans serial, xd.trans data⟩, quiet.regs, quiet.bytes⟩
    rw [page, (nvmStart_keeps _).1]
    exact List.mem_cons_self
  · have page := (pageDone_running jobs busy on false).trans (pageFailed_again wanted first spare)
    have quiet := (setNvm_quiet (s := s) (f := fun v => { v with busy := !v.stop, jobs := { j with retried := true } :: r }) rfl).trans
      (takeSpare_quiet (jobSector j s.nvm) _)
    rw [← page] at quiet
    obtain ⟨spare', jobs', recs', -⟩ := takeSpare_nvm (jobSector j s.nvm)
      (setNvm (fun v => { v with busy := !v.stop, jobs := { j with retried := true } :: r }) s)
    rw [← page] at spare' jobs' recs'
    exact ⟨_, execNvmProgramDone_page false idle stays quiet, jobs', spare', recs', quiet.regs, quiet.bytes⟩
  · obtain ⟨counts, recs, regs, bytes⟩ := sectorErased_nvm x s
    have start := nvmStart_quiet (sectorErased x s)
    refine ⟨_, congrArg Host.Outcome.next ((if_pos on).trans (eraseDone_erased erasing)), ?_, fun y hy => ?_, fun y hy other => ?_,
      ⟨start.regs.1.trans regs.1, start.regs.2.trans regs.2⟩, fun a => (start.bytes a).trans (bytes a)⟩
    · rw [nvmStart_eraseCounts, counts, tget_tset_same]
    · rw [(nvmStart_keeps _).1, recs] at hy
      simpa using (List.mem_filter.mp hy).2
    · rw [(nvmStart_keeps _).1, recs]
      exact List.mem_filter.mpr ⟨hy, by simpa using other⟩
  · obtain ⟨spare', -, recs', erasing'⟩ := takeSpare_nvm x (setNvm (fun v => { v with eraseRetried := true }) s)
    have quiet := (setNvm_quiet (s := s) (f := fun v => { v with eraseRetried := true }) rfl).trans (takeSpare_quiet x _)
    exact ⟨_, congrArg Host.Outcome.next ((if_pos on).trans (eraseDone_again erasing first spare)), erasing'.trans erasing, spare', recs',
      quiet.regs, quiet.bytes⟩

end
